-- ==== Sys2Proof/Word.lean ====
section
/-! DEFINITION. The words the spec treats as bits, and their plainest arithmetic (00_scope R6, R7). -/

namespace Sys2Proof

/-- A 32-bit word: a register, a Weevil register, an address while it is computed. -/
abbrev Word := BitVec 32

/-- One byte of a memory. -/
abbrev Byte := BitVec 8

/-- The word whose value is `n` modulo 2^32. -/
def w32 (n : Nat) : Word := BitVec.ofNat 32 n

/-- The byte whose value is `n` modulo 256. -/
def b8 (n : Nat) : Byte := BitVec.ofNat 8 n

/-- Bits `lo .. lo+w-1` of `v`, as a number. -/
def bitsOf (v : Nat) (lo w : Nat) : Nat := v / 2 ^ lo % 2 ^ w

/-- `v` with bits `lo .. lo+w-1` replaced by the low `w` bits of `x`. -/
def putBits (v : Nat) (lo w x : Nat) : Nat :=
  v % 2 ^ lo + (x % 2 ^ w) * 2 ^ lo + v / 2 ^ (lo + w) * 2 ^ (lo + w)

/-- Bit `k` of `v`. -/
def bitAt (v k : Nat) : Bool := v / 2 ^ k % 2 == 1

/-- 1 for true and 0 for false. -/
def bit (b : Bool) : Nat := if b then 1 else 0

/-- `a + n` held at `2^w - 1` (a saturating counter of `w` bits). -/
def satAdd (w a n : Nat) : Nat := min (a + n) (2 ^ w - 1)

/-- The two's complement value of the low `w` bits of `v`. -/
def signed (w v : Nat) : Int :=
  let u := v % 2 ^ w
  if 2 * u < 2 ^ w then (u : Int) else (u : Int) - (2 ^ w : Nat)

/-- The low `w` bits of an integer in two's complement. -/
def wrap (w : Nat) (i : Int) : Nat := (i % (2 ^ w : Nat)).toNat

end Sys2Proof
end

