-- ==== Sys2Proof/Machine/RegTypes.lean ====
section
/-! DEFINITION. What a row of a register table is (02_registers R10, R11, R51, R56 to R62, R71). -/

namespace Sys2Proof.Machine

/-- The block prefixes of R51. -/
inductive Block where
  | sys | lkh | lkp | scn | mbx | bas | tow | btl | tmb | fio | wfb | brg | rch | eth | can | bst | cfg | pci
deriving DecidableEq, Repr

/-- The access codes of R10 (the suffix .P is a field of its own). -/
inductive Acc where
  | rw | ro | wo | sq | cmd
deriving DecidableEq, Repr

/-- The legal values of a numeric field, or the substitutes of undefined codes (R71). -/
inductive Clamp where
  | none
  /-- values outside `lo .. hi` take the nearest legal value -/
  | range (lo hi : Nat)
  /-- each `(lo, hi, d)`: the codes `lo .. hi` become `d` -/
  | codes (l : List (Nat × Nat × Nat))
deriving DecidableEq, Repr

/-- One field of a register: its bits, access, privilege, reset value and legal values. -/
structure FieldDesc where
  lo : Nat
  w : Nat
  acc : Acc
  priv : Bool
  rst : Nat
  clamp : Clamp
deriving DecidableEq, Repr

/-- Whether a word is a register of its own or half of a 64-bit value (R61), and whether a read of its low word pops
an entry (R525). -/
inductive Wide where
  | one | lo | hi | popLo | popHi
deriving DecidableEq, Repr

/-- One register word of a block: offset, number of copies, distance between copies, fields. -/
structure RegDesc where
  off : Nat
  count : Nat
  stride : Nat
  wide : Wide
  fields : List FieldDesc
deriving DecidableEq, Repr

/-- A field named by the plain address of its word and its bits. -/
structure FRef where
  addr : Nat
  lo : Nat
  w : Nat
deriving DecidableEq, Repr

end Sys2Proof.Machine
end

