-- ==== Sys2Proof/Machine/Parts.lean ====
section
/-! DEFINITION. The plain data of the parts of the device that are no register: initiators, Weevil cores, memory marks,
mailboxes and the scan. -/

namespace Sys2Proof.Machine

/-- An initiator of an access (R43): its ID, and the flag that R69 judges where the ID alone does not decide (the
descriptor of a reach DMA was started in supervisor mode; a remote request carries the privileged flag). A remote request
also names its originator by fabric ID and initiator ID (R447). -/
structure Who where
  id : Nat
  flag : Bool := false
  remote : Option (Nat × Nat) := none
deriving DecidableEq, Repr

/-- The states of a core as RCH_COREc_STAT.STATE codes them. -/
inductive CoreState where
  | off | idle | run | halted | drained | fault
deriving DecidableEq, Repr

/-- A store waiting in a core's store buffer (R95), and the mode it was made in (R69). -/
structure Store where
  addr : Nat
  size : Nat
  data : Nat
  sup : Bool
deriving DecidableEq, Repr

/-- The work item running at one level of a core: its identifier, its group, the segment it is (task, segment), the
write windows of a segment as byte ranges `lo ≤ a < hi`, the stack depths at dispatch (R104), whether its trace flag is
set. -/
structure Running where
  ident : Nat
  group : Nat
  segment : Option (Nat × Nat)
  windows : List (Nat × Nat)
  dmark : Nat
  rmark : Nat
  start : Nat
  trc : Bool
  /-- The task cycle of a segment is still open: its DONE counts, its tokens are matched (R226, R244). -/
  counted : Bool
deriving DecidableEq, Repr

/-- The cycles of a core, and what of the last instructions can still stall the next (R101): `count` cycles in state RUN since the
last RESET; the destinations (bank and register) of a multiply one and two instructions ago; whether the last instruction was a bit
instruction, an MTC. -/
structure Cycles where
  count : Nat
  mul1 : Option Nat
  mul2 : Option Nat
  bitLast : Bool
  mtcLast : Bool
deriving DecidableEq, Repr

/-- The state of one Weevil core (R76 and R81). -/
structure Core where
  st : CoreState
  /-- Four banks of w0 to w15; bank `l`, register `r` at `16 * l + r`. -/
  w : Vector Word 64
  pc : Word
  n : Bool
  z : Bool
  c : Bool
  v : Bool
  bacc : Bool
  bopen : Bool
  level : Fin 4
  ie : Bool
  sup : Bool
  bstk : Word
  ecause : Word
  eaddr : Word
  dsp : Word
  dsb : Word
  dsl : Word
  rsp : Word
  rsb : Word
  rsl : Word
  vbase : Word
  sscr : Word
  /-- Control register ITEM (R104, R110). -/
  item : Word
  /-- Hardware entries of the data stack, top first (at most 16). -/
  dstack : List Word
  /-- Hardware entries of the return stack, top first (at most 32). -/
  rstack : List Word
  /-- Stores waiting, oldest first (at most 4). -/
  sbuf : List Store
  /-- Bus errors of buffered stores not yet taken: code and address (R114). -/
  pendW : List (Nat × Nat)
  /-- The work item at each level. -/
  items : Vector (Option Running) 4
  /-- RSTK_OVF has been raised since the last RFE (R115). -/
  ovf : Bool
  /-- The core halts at the next instruction boundary (HALT, STEP, R116); it is to run one instruction first; it was IDLE when it was
  halted. -/
  haltReq : Bool
  stepping : Bool
  wasIdle : Bool
  drainReq : Bool
  /-- Lines held by the I-cache: line address and its eight words (R98, R100). -/
  icache : List (Nat × List Word)
  /-- Cycles in state RUN since the last RESET, with the stalls that may follow (R101). -/
  cyc : Cycles
deriving DecidableEq, Repr

/-- One word stored in a mailbox: data, sender, epoch stamp, double-bit error (R265, R267). -/
structure MboxWord where
  data : Word
  sender : Nat
  stamp : Nat
  bad : Bool
deriving DecidableEq, Repr

/-- Block-mode progress of a mailbox, as MBX_STATm.BSTATE codes it. -/
inductive BState where
  | empty | opened | committed | reading
deriving DecidableEq, Repr

/-- The contents of one mailbox (R263). -/
structure Mbox where
  words : List MboxWord
  bstate : BState
  owner : Nat
  /-- Words of the block already read. -/
  nread : Nat
deriving DecidableEq, Repr

/-- What a task holds beside its registers (R150 to R181). -/
structure Task where
  /-- A trigger is held (R144). -/
  held : Bool
  /-- The next cycle is the first after a restart, that restart was warm, it found no retentive buffer. -/
  first : Bool
  warm : Bool
  retbad : Bool
  /-- The task already uses the edit bank (R181). -/
  onEdit : Bool
  /-- The time base at the previous latch. -/
  prevLatch : Option Nat
  /-- The first latch instant allowed after a start (R176). -/
  firstLatch : Nat
  /-- How far the latch grid of the primary a cyclic task has been joined to lies past the own one, in ns (R214). -/
  ahead : Nat
  /-- Context block and snapshot as of the latch, by own-reach address, waiting to be copied. -/
  snap : List (Nat × Byte)
  /-- Segment DONEs counted in ROLE0 and ROLE1 this cycle. -/
  done0 : Nat
  done1 : Nat
  /-- Time of the last segment DONE of this cycle. -/
  lastDone : Nat
  /-- The commit buffer: output image offset and byte (R155). -/
  buffer : List (Nat × Byte)
  /-- Captured retentive lines: line index in the buffer and its bytes. -/
  capture : List (Nat × List Byte)
  /-- Role and own-reach line of each captured line, and the buffer they were captured for (R166). -/
  capLines : List (Nat × Nat)
  capTarget : Nat
  /-- The commit waits for the running commit to end (R156). -/
  waiting : Bool
  /-- Consecutive cycles, up to `lateCyc`, in which a commit reached the F-die late (R158). -/
  lateRun : Nat
  /-- The last cycle number of a late commit; 0 where there was none since the restart. -/
  lateCyc : Nat
  /-- What D counts from beyond LATCHT: the delay of a mirrored cycle on a standby (R211), in ns. -/
  shift : Nat
deriving DecidableEq, Repr

/-- What the SCN holds beside its registers and tasks. -/
structure Scan where
  tasks : Vector Task 32
  /-- The task whose commit is running. -/
  committing : Option Nat
  /-- The edit bank: descriptor words by address, while an edit is open (R180). -/
  edit : Option (List (Nat × Word))
  /-- The latch that the armed edit names has passed (R181). -/
  editLive : Bool
  /-- Old contents of output lines saved for the open Towpath epoch (R157). -/
  journal : List (Nat × List Byte)
  /-- A Towpath output epoch is open. -/
  epoch : Bool
  /-- Retentive lines being written, and those queued behind them: index and bytes (R166). -/
  retRun : Option (List (Nat × List Byte))
  retQueue : Option (List (Nat × List Byte))
  /-- The buffers (0 or 1) of the queued and of the running write. -/
  retTarget : Nat
  retRunTarget : Nat
  /-- Retentive lines whose dirty bit is clear, for buffer 0 and 1: (role, own-reach line). Every other is dirty. -/
  clean0 : List (Nat × Nat)
  clean1 : List (Nat × Nat)
  /-- A restart waits for retentive writes (R176): the restart is warm. -/
  restart : Option Bool
  /-- Commands that wait for READY or for the restart that runs, in order: 1 STOP, 2 WARM, 4 COLD. -/
  waitCmd : List Nat
  /-- Output bytes that a force command is to write once the journal has room (R157, R170). -/
  forceDue : List Nat
  /-- Output bytes 0 to 15 committed and not yet sent to the F-die: offset and cycle (R158). -/
  localNew : List (Nat × Nat)
  /-- SAFE goes in the next field link frame (R174). -/
  sendSafe : Bool
  /-- A stop's resets of cores are still due (R174). -/
  aborting : Bool
  /-- Input byte ranges assigned to sources, as (lo, hi, initiator): offsets in the image store (R30). -/
  sources : List (Nat × Nat × Nat)
deriving DecidableEq, Repr

/-- A token on its way to the matching store: destination word with the role resolved, value, and where it came from
(a hardware source number, or the initiator ID of the sender). -/
structure Token where
  role : Nat
  seg : Bool
  slot : Nat
  index : Nat
  dst : Word
  value : Word
  hw : Bool
  src : Nat
deriving DecidableEq, Repr

/-- The general or segment item a descriptor describes (R219, R220). -/
structure ItemDesc where
  entry : Word
  arg : Word
  aff : Nat
  group : Nat
  need : Nat
  trc : Bool
deriving DecidableEq, Repr

/-- A matching-store entry (R225, R227): the item, its copied descriptor, count and value of each slot, whether an
instance runs or is preempted. -/
structure Entry where
  role : Nat
  seg : Bool
  index : Nat
  desc : ItemDesc
  counts : Vector Nat 8
  values : Vector Word 8
  running : Bool
deriving DecidableEq, Repr

/-- An item of the ready set: oldest first in the list (R233). -/
structure Ready where
  role : Nat
  seg : Bool
  index : Nat
  task : Nat
  aff : Nat
  group : Nat
  trc : Bool
  since : Nat
  starved : Bool
deriving DecidableEq, Repr

/-- A task cycle open in one role (R226), with the segment items already given a token in each slot this cycle. -/
structure OpenTask where
  task : Nat
  role : Nat
  seen : List (Nat × Nat)
deriving DecidableEq, Repr

/-- An entry of the delay list: destination with OWN taken as 0, sender, release tick in ns (R240). -/
structure Delayed where
  dst : Word
  role : Nat
  src : Nat
  due : Nat
deriving DecidableEq, Repr

/-- A trace record that waits to be written into the ring of a role (R247): words 0 to 2, and the task of word 3. -/
structure TraceRec where
  role : Nat
  word0 : Nat
  word1 : Nat
  word2 : Nat
  task : Nat
deriving DecidableEq, Repr

/-- What the Lockkeeper holds beside its registers. -/
structure Lkp where
  store : List Entry
  ready : List Ready
  opened : List OpenTask
  /-- Tokens waiting in the SIG port of each core, oldest first (at most 2): destination, value, and the role that the reach of the core
  held at the SIG (R139, R198). -/
  ports : Vector (List (Word × Word × Option Nat)) 40
  overflow : List Token
  delay : List Delayed
  /-- Offers standing: core and the item offered (R238). -/
  offers : List (Nat × Ready)
  credit : Vector Nat 16
  last : Vector Nat 4
  /-- IDLE cores that wait for WAKE, longest idle first, and those woken that have not yet asked. -/
  idle : List Nat
  /-- Last value each hardware source announced (R231). -/
  srcVal : List (Nat × Word)
  /-- Records written so far in each ring (R246), and drops not yet recorded. -/
  trcSeq : Vector Nat 4
  trcDropped : Vector Nat 4
  /-- Records that wait to be written, oldest first (at most 64). -/
  trcQueue : List TraceRec
  /-- The instant of the last 1 µs tick, while the due entries of the delay list have not been released at it (R241, R284). -/
  delayTick : Option Nat
deriving DecidableEq, Repr

/-- An access held by a handover window or a parked reach (R199, R255, R262): who makes it, a core's with its mode as the flag, the
SEQ of a posted write, its accesses in order (address, size, data), and whether it reads. -/
structure HeldWrite where
  who : Who
  seq : Nat
  parts : List (Nat × Nat × Nat)
  reads : Bool := false
deriving DecidableEq, Repr

/-- What the Lockhouse holds of rotation, firmware and tests of reaches beside its registers (R191 to R204). -/
structure Rot where
  /-- The source reach of the fill that runs, and its fill-dirty lines (R193); round 0 has ended. -/
  fill : Option (Nat × List Nat)
  round0 : Bool
  /-- The step that waits for its handover: target instant and role (R191); ROTLATE raised for it. -/
  step : Option (Nat × Nat)
  late : Bool
  /-- The reach a DRAIN is requested on and since when (R195); reaches whose DMA was
  stopped with work to go on. -/
  draining : Option Nat
  drainAt : Nat
  dmaHeld : List Nat
  /-- The handover window that is open: source and target reach (R197); the role, when it opened, lines of the final
  delta, whether it is an emergency window (R201). -/
  window : Option (Nat × Nat)
  winRole : Nat
  winAt : Nat
  delta : Nat
  emergency : Bool
  held : List HeldWrite
  /-- The firmware half selected for each role, the half that carries the active version (R202). -/
  half : Vector Nat 4
  fwHalf : Nat
  /-- The slots that the active and the staged version were loaded from (R202, R203). -/
  fwFrom : Nat
  fwStaged : Nat
  /-- Firmware version and slot that half 0 and half 1 of each reach were loaded from: (version, slot) (R492). -/
  fw0 : Vector (Nat × Nat) 5
  fw1 : Vector (Nat × Nat) 5
  /-- The roles whose cores a firmware switch drains, and since when (R204). -/
  gap : Option (List Nat)
  gapAt : Nat
  /-- Per reach: when it last left DRY, when it last passed a test, whether LATENT has been raised since (R25, R201). -/
  wetAt : Vector Nat 5
  testAt : Vector Nat 5
  latent : Vector Bool 5
  /-- The reaches that were a member in a mismatch since they last passed a test (R190). -/
  mism : Vector Bool 5
  /-- When the current DRY phase began, when the phases from POWER on last began; LBIST pairs done (R192, R487). -/
  phaseAt : Nat
  testFrom : Nat
  lbist : Nat
  /-- The instants of the corrected errors of each reach in the last second (R492). -/
  ce : Vector (List Nat) 5
deriving DecidableEq, Repr

/-- A fault detected and not yet in the fault log (R504). -/
structure FaultEntry where
  time : Nat
  code : Nat
  cls : Nat
  lastrst : Nat
  lcs : Nat
  source : Nat
  rolemap : Nat
  cycno : Nat
  data : List Nat
deriving DecidableEq, Repr

/-- What the fault sequencer and the Lockhouse hold of faults. -/
structure Faults where
  queue : List FaultEntry
  /-- The last entry written: its index, the entry, its latest merged occurrence, its repeats. -/
  last : Option (Nat × FaultEntry × Nat × Nat)
  /-- Entries written since the log was cleared. -/
  seq : Nat
  /-- Test access is open (R468, R496). -/
  testOpen : Bool
  /-- Double faults of the last second: reach and time (code 0x05). -/
  doubles : List (Nat × Nat)
  /-- Times of DEVICE resets (R501), and whether start-up was stopped by them. -/
  resets : List Nat
  stopped : Bool
  /-- The application watchdog count in progress: its timeout in ms, and its start (R497). -/
  awd : Option (Nat × Nat)
  /-- The Lockhouse core has stopped (R531). -/
  coreStopped : Bool
  /-- Commands that wait because it has: address of the register, CMD bits written as 1 (R531). -/
  waits : List (Nat × Nat)
  /-- The fault sequencer has ended segment dispatch and the field link frames (R500): a reset follows. -/
  wedged : Bool
  /-- A device reset asked for by a register command of the step in progress: its kind. -/
  due : Option Nat
deriving DecidableEq, Repr

/-- Where the device sends something: field link (either direction), Ethernet port, Worri link, CAN port, a Beetle pin
cluster, host, SYNC_OUT pulse, host interrupt, pair partner, the initiator whose read is answered. -/
inductive Chan where
  | toField | toLogic | eth (p : Nat) | worri (l : Nat) | can (n : Nat) | beetle (e : Nat) | host | syncOut | msix (v : Nat)
  | pair | reply (id : Nat)
deriving DecidableEq, Repr

/-- Something sent to the outside. -/
structure Sent where
  chan : Chan
  bytes : List Byte
deriving DecidableEq, Repr

end Sys2Proof.Machine
end

