-- ==== Sys2Proof/Machine/Parts2.lean ====
section
/-! DEFINITION. The plain data of the time base and of the field side that is no register (09_time_base, 10_field_io). -/

namespace Sys2Proof.Machine

/-- What the time base holds beside its registers. -/
structure Tmb where
  /-- FRAC, in 2^-32 ns. -/
  frac : Nat
  /-- FRAC as each initiator last latched it, by initiator ID (R272). -/
  fracSeen : List (Nat × Word)
  /-- Steps accepted, in ns, applied at the next tick (R274, R435). -/
  steps : List Int
  /-- Targets reached since arming, by unit (R279). -/
  sub : Vector Nat 32
  /-- The unit is in a run of skipping ticks, and MISS has been raised for it (R279). -/
  skip : Vector Bool 32
  missed : Vector Bool 32
  /-- TIME ÷ 10,000 ns at the last slew step: no multiple gives two (R274). -/
  slewed : Nat
  /-- Model time of the last capture of each unit, plus 1 (R282). -/
  capAt : Vector Nat 32
  /-- Captures of the shadow units that have yet to pass into CAPT: unit and time (R489). -/
  shadow : List (Nat × Nat)
  /-- Model time at which the merged SYNC_OUT pulse ends, and the level last driven on the pin (R283). -/
  syncEnd : Nat
  syncPin : Bool
deriving DecidableEq, Repr

/-- An edge stamp entry (R294, R296). -/
structure Edge where
  time : Nat
  rise : Bool
  input : Nat
  lost : Bool
deriving DecidableEq, Repr

/-- A commit instant: its target, the cycle of its task, and whether it lies nearer than the field link carries (R281, R300). -/
structure Instant where
  target : Nat
  cyc : Nat
  late : Bool
deriving DecidableEq, Repr

/-- A logic-to-field frame (R285, R289, R301): output bytes with the cycle of their last commit, one register, SAFE, the
commit instants of the channels, CFGOK, FIO_CMD bits, whether the L-die holds the link to be up, the time base and the model time at
its start. -/
structure DownFrame where
  out : Vector Byte 16
  tag : Vector Nat 16
  reg : Option (Nat × Word)
  safe : Bool
  inst : Vector (Option Instant) 4
  start : Option Nat
  cfgok : Bool
  cmd : Nat
  link : Bool
  time : Nat
  sent : Nat
deriving DecidableEq, Repr

/-- What the F-die has to report (log 129): bits of FIO_EVT, causes of entries into the safe state, late commits (task and cycle), counts of
bad frames, lost edges, lost starts and completed rounds, FIO_CMD bits performed. -/
structure FdNews where
  events : List Nat
  entries : List Nat
  late : List (Nat × Nat)
  bad : Nat
  lost : Nat
  aiLost : Nat
  rounds : Nat
  done : Nat
deriving DecidableEq, Repr

/-- The status values of a field-to-logic frame (R287): fault codes, group switches and supplies, reflex rules, safe state, currents. -/
structure FdStatus where
  codes : Vector Nat 32
  trip : BitVec 2
  vok : BitVec 2
  hit : BitVec 16
  active : BitVec 16
  safe : Bool
  cause : Nat
  ia : Nat
  ib : Nat
deriving DecidableEq, Repr

/-- A field-to-logic frame (R286 to R290): image bytes 0x00 to 0x3F and their quality as the F-die sees it, edges, the register
acknowledged, the CRC of the configuration copy where it is reported, a restart, status and news. -/
structure UpFrame where
  bytes : List Byte
  quality : List Nat
  edges : List Edge
  ack : Option (Nat × Word)
  crc : Option Nat
  restart : Bool
  status : FdStatus
  news : FdNews
deriving DecidableEq, Repr

/-- The FIO block and the F-die, beside the registers. -/
structure Fio where
  /-- Frames on their way. -/
  down : Option DownFrame
  up : Option UpFrame
  /-- Good frames in a row and model time of the last good one, at the L-die and at the F-die. -/
  good : Nat
  lastGood : Nat
  fgood : Nat
  flastGood : Nat
  /-- Registers not yet acknowledged by the F-die, oldest first, and those of them that have been sent (R285). -/
  pend : List Nat
  sent : List Nat
  /-- FIO_CMD bits to be sent, and those sent and not yet known to be performed. -/
  cmd : Nat
  cmdWait : Nat
  /-- Entries of the FIO FIFO (R295). -/
  edges : List Edge
  /-- Cycle of the last commit of each output byte (0: none). -/
  tag : Vector Nat 16
  /-- The last commit instant of each channel (R300). -/
  inst : Vector (Option Instant) 4
  /-- The F-die is powered from VFIELD; its configuration copy has matched since (R287). -/
  on : Bool
  matched : Bool
  /-- The F-die has restarted and not yet said so; it has heard since that CFGOK is 0; frames since the last report of the CRC. -/
  restarted : Bool
  resynced : Bool
  frames : Nat
  /-- The field counter: its value at a model time (R20), and whether the L-die holds the link to be up. -/
  fbase : Nat
  fnow : Nat
  flink : Bool
  /-- The F-die's copy of the configuration, by plain address (unlisted: reset value). -/
  copy : List (Nat × Word)
  /-- The register the next frame acknowledges. -/
  ack : Option (Nat × Word)
  /-- Raw and filtered states of DI0 to DI63. -/
  raw : BitVec 64
  filt : BitVec 64
  /-- Model time and field time at the first raw transition of the present run; model time of the last accepted change. -/
  rawNow : Vector Nat 64
  rawTime : Vector Nat 64
  accNow : Vector Nat 64
  /-- Equal samples in a row of a pulsed input (R293); the instant of the last sample of each group, in pulse periods, plus 1 (R292). -/
  samples : Vector Nat 64
  sampleAt : Vector Nat 8
  /-- Entries of the F-die FIFO; an entry was lost since the last one that got in. -/
  fedges : List Edge
  elost : Bool
  /-- How many of the first entries of the F-die FIFO the frame on its way carries. -/
  fsent : Nat
  /-- Commit instants known to the F-die, and the target of the last one that has passed, plus 1. -/
  finst : Vector (Option Instant) 4
  fdone : Vector Nat 4
  /-- Output bytes received with the cycle of their commit, and the bytes committed to the pins. -/
  got : Vector Byte 16
  gotTag : Vector Nat 16
  /-- The byte has been committed since the safe state was entered. -/
  fresh : Vector Bool 16
  cmt : Vector Byte 16
  /-- The byte is in the safe state; causes present, cause c as bit c − 1; the cause of the last entry. -/
  safe : Vector Bool 16
  causes : Nat
  cause : Nat
  /-- Held bits and results of the reflex rules (R302); rules whose result has been 1 since they were armed, HIT bits (R304). -/
  rxHeld : BitVec 16
  rxR : BitVec 16
  rxSeen : BitVec 16
  hit : BitVec 16
  /-- Outputs switched off by codes 1 and 2 and the model time of that or of the last retry; conditions present, by code as a bit; latched
  codes (R298). -/
  off : BitVec 32
  offAt : Vector Nat 32
  conds : Vector Nat 32
  codes : Vector Nat 32
  /-- Whether each output was last driven on, and the model time at which that last changed (R298). -/
  drv : BitVec 32
  drvAt : Vector Nat 32
  /-- Open group switches, supplies present; model time since which the current of a group exceeds its limit (R297). -/
  trip : BitVec 2
  vok : BitVec 2
  overAt : Vector (Option Nat) 2
  /-- Analog values, over-range and wire-break bits, a triggered round in progress, model time at which the present round began. -/
  ai : Vector (BitVec 16) 8
  aiOver : BitVec 8
  aiBreak : BitVec 8
  aiRun : Bool
  aiAt : Nat
  /-- TIME at the last match of the unit of the analog inputs; a start that comes too late for the link, which the frames carry; the last such
  start the F-die has acted on, plus 1 (R281, R306). -/
  aiPrev : Option Nat
  aiTarget : Option Nat
  aiDone : Nat
  /-- What the next good frame reports. -/
  news : FdNews
deriving DecidableEq, Repr

end Sys2Proof.Machine
end

