-- ==== Sys2Proof/Machine/Parts3.lean ====
section
/-! DEFINITION. The plain data of the Basin that is no register (11_basin). -/

namespace Sys2Proof.Machine

/-- A frame on its way into the Basin, without FCS: ingress port code, the class its source gives (R312), the port a
directed send names (R314). -/
structure InFrame where
  src : Nat
  bytes : List Byte
  cls : Option Nat
  direct : Option Nat
deriving DecidableEq, Repr

/-- A frame stored in the buffer: its bytes are in its cells (R310); `todo` counts the copies not yet delivered or
discarded. -/
structure BFrame where
  id : Nat
  src : Nat
  cls : Nat
  len : Nat
  stamp : Nat
  cells : List Nat
  todo : Nat
deriving DecidableEq, Repr

/-- A frame copy waiting in the queue of a destination code and class. -/
structure Queued where
  dest : Nat
  cls : Nat
  id : Nat
deriving DecidableEq, Repr

/-- A cell that a plane has taken and the resequencer has not released: sequence number, plane, and whether the plane has carried it to the
resequencer (R319 to R321). -/
structure Cell where
  seq : Nat
  plane : Nat
  carried : Bool
deriving DecidableEq, Repr

/-- A frame copy on its way through the planes: the sequence number of its next cell, its cells no plane has taken yet, and those taken and
not released, in order (R319 to R321). -/
structure Flight where
  dest : Nat
  hi : Bool
  id : Nat
  seq : Nat
  left : Nat
  cells : List Cell
deriving DecidableEq, Repr

/-- A mirror record that waits to be written (R334): header words 0 to 2 and the frame bytes it holds. -/
structure MirRec where
  stamp : Nat
  word : Nat
  bytes : List Byte
deriving DecidableEq, Repr

/-- A frame handed to a destination outside the Basin. -/
structure OutFrame where
  dest : Nat
  src : Nat
  cls : Nat
  stamp : Nat
  bytes : List Byte
deriving DecidableEq, Repr

/-- An entry of the MAC table (R326, R329). -/
structure MacEntry where
  addr : Nat
  port : Nat
  static : Bool
  hit : Bool
deriving DecidableEq, Repr

/-- What the Basin holds beside its registers. -/
structure Basin where
  /-- Frames whose first byte arrives next, oldest first, and those admitted with their class and their cells. -/
  inbox : List InFrame
  arriving : List (InFrame × Nat × List Nat)
  frames : List BFrame
  queues : List Queued
  flights : List Flight
  /-- The destination each plane has served last, keyed 2 × plane + lane (R320). -/
  turns : Vector Nat 8
  /-- Mirror records waiting (R334). -/
  mirQueue : List MirRec
  /-- Next sequence number and plane of the last cell, keyed 2 × destination + lane (H is 1). -/
  lanes : List (Nat × (Nat × Nat))
  /-- Cells never used start here; those returned since, oldest first (R310). -/
  fresh : Nat
  freed : List Nat
  nextId : Nat
  /-- Complete frames waiting in egress buffers of ETH ports, oldest first. -/
  egress : List OutFrame
  mac : List (Nat × MacEntry)
  /-- Records written, by ring: 8r + c, and 32 for the mirror ring. -/
  seqs : List (Nat × Nat)
  /-- The line after each record waiting in a receive ring, oldest first: ring and line. -/
  records : List (Nat × Nat)
  /-- Planes whose datapath passes the check of RESTORE; model time at which each plane last delivered a cell or got its first (R323). -/
  sound : BitVec 4
  planeAt : Vector Nat 4
  /-- Model time of the last sweep of the address table (R328). -/
  sweepAt : Nat
deriving DecidableEq, Repr

end Sys2Proof.Machine
end

