-- ==== Sys2Proof/Machine/Parts4.lean ====
section
/-! DEFINITION. The plain data of the Ethernet ports that is no register (12_ethernet_ports). -/

namespace Sys2Proof.Machine

/-- A stamp entry (R349). -/
structure Stamp where
  time : Nat
  msg : Nat
  domain : Nat
  seqid : Nat
  lost : Bool
deriving DecidableEq, Repr

/-- What one Ethernet port holds beside its registers. -/
structure EthPort where
  rx : List Stamp
  tx : List Stamp
  rxLost : Bool
  txLost : Bool
  /-- The frame in transmission with the collisions it has met, and the model time at which it has been sent whole. -/
  sending : Option ((OutFrame × Nat) × Nat)
  /-- The frame that defers or waits for a retry, with the collisions it has met (R342, R344). -/
  next : Option (OutFrame × Nat)
  /-- Model time before which the medium gap or the back-off does not let the port send. -/
  gapEnd : Nat
  backoff : Option Nat
  /-- The port's own transmit opportunity runs: further frames it may send in it (R346). -/
  burst : Option Nat
  /-- Model time of the last BEACON (R347). -/
  beacon : Nat
  /-- The node whose opportunity begins next (256: no BEACON yet), and the model time before which it does not (R346). -/
  turn : Nat
  turnAt : Nat
  /-- The frame that waits has been counted in TXDEFER (R351). -/
  deferred : Bool
  /-- The start-of-frame delimiter of the frame in transmission has not passed: the model time at which it has, and the frame (R349). -/
  sfd : Option (Nat × List Byte)
  /-- The shift register the back-offs are drawn from (R344). -/
  lfsr : Nat
deriving DecidableEq, Repr

end Sys2Proof.Machine
end

