-- ==== Sys2Proof/Machine/Parts5.lean ====
section
/-! DEFINITION. The plain data of the Towpath sequencer that is no register (13_towpath). -/

namespace Sys2Proof.Machine

/-- What the sequencer holds of one station beside its registers (R359, R363 to R365, R372). -/
structure Station where
  /-- The last consecutive number sent (or heard, while silent), and whether a GRANT has seeded it. -/
  consec : Nat
  seeded : Bool
  /-- TYPE of the last master frame sent or heard, and whether it belongs to the present cycle. -/
  kind : Nat
  sent : Bool
  /-- TYPE and payload of the first good reply of this cycle; a second reply came; the outcome is decided. -/
  got : Option Nat
  payload : List Byte
  dup : Bool
  decided : Bool
  /-- UID a spare is bound to, and the SA its next GRANT goes to (R372). -/
  uid : Nat
  claimant : Option Nat
  /-- Good and failed replies, CYCLE of the last good one (R365). -/
  good : Nat
  bad : Nat
  lastCycle : Nat
  /-- A commit has written one of its output bytes since TOW_CTL.EN became 1 (R363). -/
  released : Bool
deriving DecidableEq, Repr

/-- The Towpath sequencer: its stations, C_k of the present cycle, whether source 513 has fired in it, frames handed to
port 34. -/
structure Tow where
  stn : Vector Station 256
  start : Nat
  done : Bool
  inbox : List OutFrame
deriving DecidableEq, Repr

end Sys2Proof.Machine
end

