-- ==== Sys2Proof/Machine/Parts6.lean ====
section
/-! DEFINITION. The plain data of the CAN ports that is no register (14_can). -/

namespace Sys2Proof.Machine

/-- A CAN frame as a receive record or transmit buffer holds it (R391, R393): words 0 and 1 and the data bytes. -/
structure CanFrame where
  w0 : Word
  w1 : Word
  data : List Byte
deriving DecidableEq, Repr

/-- What becomes of a frame of the port: it begins; or the one in progress is sent, loses arbitration, or meets an error, after the edge
between FDF and res (`late`) or before it. -/
inductive TxResult where
  | begun | sent | lostArb | error (late : Bool)
deriving DecidableEq, Repr

/-- Where ISO 11898-1 places an error: in the frame, in an active error flag or overload flag that the port sends, or where the standard
excepts a transmitter from counting. -/
inductive CanErrAt where
  | frame | flag | excepted
deriving DecidableEq, Repr

/-- What one CAN port holds beside its registers. -/
structure CanPort where
  /-- EN has taken effect, and the mode in effect (R386, R387). -/
  on : Bool
  mode : Nat
  /-- The buffer whose frame is in progress, chosen as the frame began, and a cancel written for it (R394, R395). -/
  chosen : Option Nat
  cancel : Bool
  /-- A frame was lost since the last record; records that wait for a ring in PAUSED or ERROR (R390). -/
  lost : Bool
  queue : List CanFrame
  /-- Model time of the last match of each image slot since its quality was last BAD (R392). -/
  hit : Vector (Option Nat) 8
  /-- CAN clock cycles since CAN_TSC last advanced, the TSDIV of the advance under way, and whether the last advance reached a multiple
  that XAUTO captures (R397, R398). -/
  div : Nat
  per : Nat
  passed : Bool
  /-- A recovery that CAN_CMD.RECOVER started goes on (R10, R389). -/
  asked : Bool
deriving DecidableEq, Repr

end Sys2Proof.Machine
end

