-- ==== Sys2Proof/Machine/Parts7.lean ====
section
/-! DEFINITION. The plain data of the Beetle engines that is no register (15_beetles). -/

namespace Sys2Proof.Machine

/-- What a WAITFOR waits for (R405): a pin level, a pin change, a flag, an instant; `held` is what is left of a WAITFOR TIME while the
Beetle PLL is unlocked (R417). -/
inductive Await where
  | level (pin : Nat) (pol : Bool)
  | edge (pin : Nat) (pol : Bool) (met : Bool)
  | flag (k : Nat) (pol : Bool)
  | until (now : Nat)
  | held (left : Nat)
deriving DecidableEq, Repr

/-- What software asked of an engine while the Beetle PLL was unlocked (R417). -/
inductive EngAct where
  | start | stop | restart
deriving DecidableEq, Repr

/-- What one Beetle engine holds beside its registers (R402, R403, R409). -/
structure Engine where
  sr : Word
  /-- Address of the next fetch, and the latched word. -/
  next : Nat
  instr : Nat
  tx : List Word
  rx : List Word
  await : Option Await
  /-- Parts of a frame boundary, or of a FIFO instruction, still outstanding. -/
  giveDue : Bool
  takeDue : Bool
  /-- Model time of the last RX DMA batch since the quality was last BAD (R415). -/
  batch : Option Nat
  /-- Starts and stops that wait for the lock of the Beetle PLL, oldest first (R417). -/
  due : List EngAct
deriving DecidableEq, Repr

end Sys2Proof.Machine
end

