-- ==== Sys2Proof/Machine/Parts8.lean ====
section
/-! DEFINITION. The plain data of the Worri fabric that is no register (16_worri). -/

namespace Sys2Proof.Machine

/-- A packet of a Worri link (R421). -/
structure Packet where
  vc : Nat
  seq : Nat
  dst : Nat
  src : Nat
  hops : Nat
  epb : Bool
  payload : List Byte
deriving DecidableEq, Repr

/-- A packet that waits, and the link whose receive buffer it still occupies; 4 for none (R422). -/
structure Waiting where
  pkt : Packet
  link : Nat
deriving DecidableEq, Repr

/-- A packet sent and not acknowledged, and the model time of its last sending (R424). -/
structure Unacked where
  pkt : Packet
  sentAt : Nat
deriving DecidableEq, Repr

/-- A received block: its sync header and, in a control block, its type (R419). -/
structure RxBlock where
  sync : Nat
  type : Nat
deriving DecidableEq, Repr

/-- What the last HELLO of a neighbour said (R427), when it arrived and when its ROOTSEQ last advanced. -/
structure Neighbour where
  rootPrio : Nat
  rootUid : Nat
  rootSeq : Nat
  dist : Nat
  prio : Nat
  uid : Nat
  id : Nat
  epoch : Nat
  link : Nat
  parent : Nat
  heard : Nat
  advanced : Nat
deriving DecidableEq, Repr

/-- What one Worri link holds beside its registers (R420 to R426). -/
structure WLink where
  /-- Block lock on the incoming stream. -/
  lock : Bool
  /-- Packets that wait, oldest first; packets sent and not acknowledged, oldest first. -/
  txq : List Waiting
  replay : List Unacked
  /-- SEQ of the next packet sent and of the last one accepted. -/
  txSeq : Nat
  rxSeq : Nat
  /-- Credits held per virtual channel, and blocks that have left the own receive buffer and are not yet returned (R422). -/
  credits : Vector Nat 5
  owed : Vector Nat 5
  /-- Packets are discarded until the expected SEQ arrives. -/
  nak : Bool
  /-- Replays since the acknowledged SEQ last advanced. -/
  replays : Nat
  /-- Model time at which the link became ACTIVE. -/
  upAt : Nat
  /-- The channel of POSTED, READ and FRAME served last. -/
  turn : Nat
  nbr : Option Neighbour
deriving DecidableEq, Repr

/-- A management message received: link, stamp of its arrival, header, payload. -/
structure Mgmt where
  link : Nat
  stamp : Nat
  pkt : Packet
deriving DecidableEq, Repr

/-- One link of a device as its TOPO reports it: state, neighbour UID and link. -/
structure TopoLink where
  state : Nat
  uid : Nat
  link : Nat
deriving DecidableEq, Repr

/-- A device as its TOPO reports it (R427), and the link it came in on. -/
structure TopoDev where
  uid : Nat
  prio : Nat
  reqid : Nat
  id : Nat
  links : List TopoLink
  via : Nat
deriving DecidableEq, Repr

/-- What the WFB holds beside its registers. -/
structure Wfb where
  links : Vector WLink 4
  inbox : List Mgmt
  /-- Packets for the fabric bridge, oldest first. -/
  bridge : List Waiting
  /-- The root taken: PRIO and UID; own DIST, parent link; when the root last changed. -/
  rootPrio : Nat
  rootUid : Nat
  rootSeq : Nat
  parent : Option Nat
  changed : Nat
  /-- Devices reported to this one by TOPO. -/
  topo : List TopoDev
  /-- The root collects TOPO since this model time; waits for this many ROUTEACKs. -/
  collect : Option Nat
  acks : Option Nat
  /-- IDs and routing table words of the next epoch. -/
  nextEpoch : Nat
  nextIds : List (Nat × Nat)
  nextRt : List (Nat × Word)
  parts : Nat
  /-- t1 of the TIMEREQ in progress. -/
  timeReq : Option Nat
  /-- Last gasps already counted: sender and model time (R437). -/
  gasps : List (Nat × Nat)
deriving DecidableEq, Repr

end Sys2Proof.Machine
end

