-- ==== Sys2Proof/Machine/Parts9.lean ====
section
/-! DEFINITION. The plain data of the bridges that is no register (17_bridges). -/

namespace Sys2Proof.Machine

/-- The owner of a semaphore: initiator ID, fabric ID of a remote owner (0 for a local one), model time of the acquisition
(R456, R458). -/
structure SemOwner where
  id : Nat
  fid : Nat
  since : Nat
deriving DecidableEq, Repr

/-- A line buffer of a bridge (R450): fabric ID (0 for a local line) and address of its line, bytes, model time of the
fetch. Buffers are listed from the most recently used. -/
structure LineBuf where
  fid : Nat
  line : Nat
  bytes : List Byte
  at' : Nat
deriving DecidableEq, Repr

/-- The bit-logic memory operations (R134), in the order of their BFN codes. -/
inductive BitFn where
  | bld | bldn | band | bandn | bor | born | bxor | bxorn | bst | bset | brst | bpos | bneg
deriving DecidableEq, Repr

/-- What an outstanding fabric read is for: a core's load (register, size, sign-extended), a core's bit operation (operation, bit
number), one part of a request of several accesses, a poll entry, a read of its own by an initiator. -/
inductive ReadFor where
  | core (i rd size : Nat) (sx : Bool)
  | bitop (i : Nat) (fn : BitFn) (k : Nat)
  | gather (g part : Nat)
  | poll (k : Nat)
  | access
deriving DecidableEq, Repr

/-- An outstanding fabric read (R451): TAG, purpose, initiator, local address, address at the target, bytes, fabric ID, model
time of its issue, whether its line is kept in a buffer, with the bytes wanted from it. -/
structure OutRead where
  tag : Nat
  use : ReadFor
  who : Who
  laddr : Nat
  addr : Nat
  len : Nat
  fid : Nat
  since : Nat
  line : Bool
  want : Nat × Nat
deriving DecidableEq, Repr

/-- Who waits for a request made of several accesses: a request of the host, a reach DMA, the MRAM copy. -/
inductive Requester where
  | host | qspi | dma (n : Nat) | mcopy
deriving DecidableEq, Repr

/-- One access of such a request: local address, bytes, and once it has come its bus error code (0 none) and data. -/
structure GPart where
  addr : Nat
  len : Nat
  got : Option (Nat × List Byte)
deriving DecidableEq, Repr

/-- A read request of several accesses (R449), some of which wait for the fabric: its number, whose it is, the initiator, its tag; the
bytes asked for, as the local address of the first and their number; the lines of 64 bytes, by address / 64, whose accesses fill a
buffer of the host bridge once all have come (R450). -/
structure Gather where
  id : Nat
  use : Requester
  who : Who
  tag : Nat
  parts : List GPart
  lo : Nat
  n : Nat
  keep : List Nat
deriving DecidableEq, Repr

/-- A request of the host that waits (R454, R489): a PCIe memory read or write at a BAR0 offset, a QSPI READ or WRITE at a local
address. -/
inductive HostReq where
  | memRead (off n tag : Nat)
  | memWrite (off : Nat) (bs : List Byte)
  | qspiRead (a n : Nat)
  | qspiWrite (a : Nat) (bs : List Byte)
deriving DecidableEq, Repr

/-- A place in a BAR of the endpoint (R443). -/
inductive BarAddr where
  | bar0 (off : Nat)
  | bar2 (off : Nat)
deriving DecidableEq, Repr

/-- What the host asks of the endpoint beside memory: a word of configuration space, the MSI-X message enable, or a request of a type
that the endpoint does not support (R442). -/
inductive CfgReq where
  | read (word : Nat)
  | msixEnable (on : Bool)
  | unsupported
deriving DecidableEq, Repr

/-- One entry of the MSI-X table (R443, R460). -/
structure MsixEntry where
  addr : Nat
  data : Word
  masked : Bool
deriving DecidableEq, Repr

/-- What the bridges and the PCIe endpoint hold beside their registers. -/
structure Brg where
  sems : Vector (Option SemOwner) 32
  hostBufs : List LineBuf
  fabBufs : List LineBuf
  reads : List OutRead
  gathers : List Gather
  /-- Requests of the host that wait, in the order in which they came. -/
  waits : List HostReq
  nextTag : Nat
  nextReq : Nat
  /-- SEQ of the last posted write of each initiator (R453). -/
  seqs : List (Nat × Nat)
  /-- Posted writes sent, and performed, per fabric ID since the last COMMIT (R448). -/
  pathTx : List (Nat × Nat)
  pathRx : List (Nat × Nat)
  /-- Poll entries: a result not yet looked at (bus error code, word), and whether a LEVEL entry is disarmed. -/
  polled : Vector (Option (Nat × Word)) 16
  disarmed : Vector Bool 16
  /-- Model time of the last poll of each entry. -/
  pollAt : Vector Nat 16
  msix : Vector MsixEntry 32
  /-- The host bridge performs requests: false from the start of a device reset to the end of start-up step 3 (R527). -/
  opened : Bool
  /-- HOSTSEL as sampled at power-on: the host interface is QSPI (R441). -/
  qspi : Bool
  /-- PERST_N is high. -/
  perst : Bool
  /-- A posted-error entry was logged since the last QSPI STATUS (R444). -/
  fresh : Bool
deriving DecidableEq, Repr

end Sys2Proof.Machine
end

