-- ==== Sys2Proof/Machine/Parts10.lean ====
section
/-! DEFINITION. The plain data of fuses, configuration, self-test and the standby pair that is no register
(06_duplex_rotation, 18_startup, 19_selftest_safety). -/

namespace Sys2Proof.Machine

/-- The fuses (R476) and the key register. -/
structure Fuses where
  /-- The life-cycle state the fuses give, which the next device reset reads: 0 BLANK to 4 SCRAPPED. -/
  lcs : Nat
  keyHash : Vector Nat 4
  dsk : Nat
  /-- The key register: empty, or DSK (R468). -/
  key : Option Nat
  /-- The read path of DSK is closed until the next power-on reset (R468). -/
  dskClosed : Bool
deriving DecidableEq, Repr

/-- A repair in use or found (R493): memory coded as MEM of R495, unit, column or row, index; fused. -/
structure Repair where
  mem : Nat
  unit : Nat
  col : Bool
  index : Nat
  fused : Bool
deriving DecidableEq, Repr

/-- What configuration and self-test hold beside their registers. -/
structure Cfg where
  fuses : Fuses
  repairs : List Repair
  /-- The supply dip in progress: its start and the lowest VIN_L so far in 10 mV (R465). -/
  dip : Option (Nat × Nat)
  /-- An MRAM copy (source, MRAM offset, lines), a verification (slot), an attestation (the message), a life-cycle change (the
  new state) in progress. -/
  mcopy : Option (Nat × Nat × Nat)
  verify : Option Nat
  attest : Option Nat
  lcChange : Option Nat
  /-- A recalibration runs (R484). -/
  recal : Bool
  /-- The device is in standby (R481). -/
  standby : Bool
  /-- STANDBY waits for a retentive write to end. -/
  standbyDue : Bool
  /-- Held in reset until VIN_L is good again (R466). -/
  brownout : Bool
  /-- Start-up has stopped: the device answers only SYS_IDENT, SYS_STATUS and SYS_UID (R469), or test access is open. -/
  halted : Bool
  /-- Calibration items 4 to 6 wait for the field link (R470). -/
  calDue : Bool
  /-- The debug port has asked for test access at the next start-up step 2 (R468). -/
  testAsked : Bool
  /-- The manual test in progress (R496): its MEM. -/
  manual : Option Nat
  /-- The shared slice in progress, the slices done in the round of each block, and when each block last completed its
  slices (R489 to R491); LATENT raised since. -/
  slices : List Nat
  blockAt : Vector Nat 6
  blockLatent : Vector Bool 6
  /-- When REFOK fell to 0 (R526, fault 0x30). -/
  refLost : Option Nat
  /-- The slot that a device reset during a copy left invalid (R482). -/
  torn : Option Nat
  /-- The request for the line that an MRAM copy reads over the fabric (R54, R482). -/
  mline : Option Nat
  /-- The MEMS reference does not pass its check: the environment's, it outlasts resets (R526). -/
  refBad : Bool
deriving DecidableEq, Repr

/-- A reach DMA beside its registers: the descriptors from HEAD to TAIL that a TAIL write of a core in supervisor mode gave
it, by ring index (R259); the fabric accesses the descriptor in progress waits for (request number); the ring index whose
completion token waits to be taken (R227, R259); the bytes of the descriptor in progress already moved, and the bus error of a held
write of it: address, bytes, code (R255). -/
structure Dma where
  sup : List Nat
  wait : Option Nat
  owed : Option Nat
  pos : Nat
  fail : Option (Nat × Nat × Nat)
deriving DecidableEq, Repr

/-- What the environment offers at the next start-up: test access asked for by TESTEN or the debug port (R468), calibration
items that fail, failing rows and columns of shared memories and reaches as (memory, unit, column, index) (R467), VFIELD
present, the assignment of input image ranges to initiators that the image stands for (R30). -/
structure Boot where
  test : Bool
  /-- HOSTSEL, sampled when VIN_L becomes valid: QSPI (R441, R516). -/
  hostsel : Bool
  calFail : Nat
  bad : List (Nat × Nat × Bool × Nat)
  field : Bool
  sources : List (Nat × Nat × Nat)
deriving DecidableEq, Repr

/-- The snapshot of a mirrored cycle received so far (R210, R211). -/
structure Snap where
  task : Nat
  cycle : Nat
  bytes : List Byte
  frag : Nat
  full : Bool
deriving DecidableEq, Repr

/-- The end of a mirrored commit, own or received: task, cycle, CRC-32 and length of the commit buffer. -/
structure CommitMark where
  task : Nat
  cycle : Nat
  crc : Nat
  len : Nat
deriving DecidableEq, Repr

/-- Retentive lines of a mirrored cycle, own or received: task, cycle, line index and bytes; of the own ones, those the capture must hold. -/
structure RetMark where
  task : Nat
  cycle : Nat
  lines : List (Nat × List Byte)
  fresh : List Nat
deriving DecidableEq, Repr

/-- What the Lockhouse holds of a standby pair beside its registers (R205 to R217). -/
structure Pair where
  /-- SEQ of the last message sent and received (none yet), and FRAGNO and LAST of the latter. -/
  seqTx : Nat
  seqRx : Option (Nat × Nat × Bool)
  /-- Frames for port code 35 with EtherType 0x88B6, oldest first. -/
  inbox : List (Nat × List Byte)
  /-- The peer's unique ID and PRIMEPOCH, and when it was last heard as a primary. -/
  peerUid : Nat
  peerEpoch : Nat
  primaryAt : Option Nat
  /-- When the last HEARTBEAT came, when the current state was entered. -/
  hbAt : Option Nat
  since : Nat
  /-- When a message of a peer was last heard in SEEK (R207). -/
  heardAt : Option Nat
  snaps : List Snap
  marksOwn : List CommitMark
  marksPeer : List CommitMark
  retsOwn : List RetMark
  retsPeer : List RetMark
  /-- Mirrored tasks that have joined (bit mask): on the standby those it runs, on the primary those told JOINED. -/
  joined : Nat
  /-- On the primary, while a device joins: window lines written since they were sent, as (role, line) (R215). -/
  track : Option (List (Nat × Nat))
  /-- The primary was lost: own snapshots from now on (R213). -/
  lost : Bool
  /-- The sequencer falls silent at the end of the running Towpath cycle (R217). -/
  silenceDue : Bool
deriving DecidableEq, Repr

end Sys2Proof.Machine
end

