-- ==== Sys2Proof/Syntax.lean ====
section
/-! DEFINITION. The commands of the HZ480: one constructor per row of spec/opcode_table.json, in its order, with the operands that the
environment or the initiator supplies. -/

namespace Sys2Proof

open Sys2Proof.Machine

/-- A command. -/
inductive Instr where
  /-- POWER_ON, R467 -/
  | powerOn (lost : Bool) (b : Boot)
  /-- FIELD_CALIBRATION, R470 -/
  | fieldCalibration (fail : Nat)
  /-- SUPPLY_WARNING, R465 -/
  | supplyWarning (vin : Nat)
  /-- SUPPLY_DIP_END, R465 -/
  | supplyDipEnd (vin : Nat)
  /-- BROWNOUT, R466 -/
  | brownout (vin : Nat)
  /-- RESET_N, R516 -/
  | resetN (low : Nat) (b : Boot)
  /-- WAKE_N, R481 -/
  | wakeN (b : Boot)
  /-- STANDBY, R481 -/
  | standby (who : Who)
  /-- PCI_DEVRST, R479 -/
  | pciDevrst (who : Who) (key : BitVec 16)
  /-- FIELD_LINK_FRAME_TX, R17 -/
  | fieldLinkFrameTx (pins : BitVec 32) (ia ib : Nat)
  /-- FIELD_LINK_FRAME_RX, R288 -/
  | fieldLinkFrameRx (good : Bool)
  /-- FIELD_LINK_LOSS, R19 -/
  | fieldLinkLoss
  /-- F_DIE_FRAME_RX, R285 -/
  | fDieFrameRx (good sound : Bool)
  /-- SILENCE_WATCHDOG, R301 -/
  | silenceWatchdog
  /-- F_DIE_POWER_UP, R287 -/
  | fDiePowerUp
  /-- F_DIE_COMMIT_INSTANT, R300 -/
  | fDieCommitInstant (c : Fin 4)
  /-- FIO_REGISTER_WRITE, R285 -/
  | fioRegisterWrite (who : Who) (r : Fin 4096) (v : Word)
  /-- RAW_INPUT_TRANSITION, R304 -/
  | rawInputTransition (i : Fin 64) (v : Bool)
  /-- FILTER_ACCEPT, R293 -/
  | filterAccept (i : Fin 64)
  /-- PULSED_SAMPLE, R292 -/
  | pulsedSample (g : Fin 8) (levels : BitVec 8)
  /-- FIO_EDGE_READ, R296 -/
  | fioEdgeRead (who : Who)
  /-- OUTPUT_FAULT, R298 -/
  | outputFault (n : Fin 32) (code : Fin 16) (present : Bool)
  /-- GROUP_TRIP, R297 -/
  | groupTrip (load : Fin 2 × Nat)
  /-- AUTO_RESTART_RETRY, R298 -/
  | autoRestartRetry (n : Fin 32)
  /-- DARK_TEST_PULSE, R299 -/
  | darkTestPulse (n : Fin 32) (low : Bool)
  /-- EDGEFLUSH, R295 -/
  | edgeflush (who : Who)
  /-- GRPRST, R297 -/
  | grprst (who : Who)
  /-- FAULTACK, R298 -/
  | faultack (who : Who)
  /-- AI_ROUND_COMPLETE, R306 -/
  | aiRoundComplete (vals : List (List Int))
  /-- VOUT_CHANGE, R507 -/
  | voutChange (g : Fin 2) (present : Bool)
  /-- COMPARE_MATCH, R278 -/
  | compareMatch (u : Fin 32)
  /-- EVENT_TRIGGER, R144 -/
  | eventTrigger (src : Fin 1024)
  /-- HELD_TRIGGER_ACCEPT, R144 -/
  | heldTriggerAccept (t : Fin 32)
  /-- SNAPSHOT_COPY_END, R150 -/
  | snapshotCopyEnd (t : Fin 32)
  /-- COMMIT_START, R155 -/
  | commitStart (t : Fin 32)
  /-- COMMIT_END, R155 -/
  | commitEnd (t : Fin 32)
  /-- COMMIT_DEADLINE, R155 -/
  | commitDeadline (t : Fin 32)
  /-- RETENTIVE_WRITE_START, R167 -/
  | retentiveWriteStart
  /-- RETENTIVE_WRITE_END, R167 -/
  | retentiveWriteEnd
  /-- ABORT_TIMEOUT, R174 -/
  | abortTimeout
  /-- SCN_CMD_STOP, R173 -/
  | scnCmdStop (who : Who)
  /-- WARM, R176 -/
  | warm (who : Who)
  /-- COLD, R176 -/
  | cold (who : Who)
  /-- FORCE_SET, R170 -/
  | forceSet (who : Who) (area : Fin 2) (off : Fin 0x20000)
  /-- FORCE_CLR, R170 -/
  | forceClr (who : Who) (area : Fin 2) (off : Fin 0x20000)
  /-- FORCE_CLRALL, R170 -/
  | forceClrall (who : Who) (area : Fin 2)
  /-- FORCE_LIST, R170 -/
  | forceList (who : Who) (n : Fin 0x20000)
  /-- EDIT_OPEN, R180 -/
  | editOpen (who : Who) (t : Fin 32)
  /-- EDIT_ARM, R181 -/
  | editArm (who : Who) (t : Fin 32)
  /-- EDIT_ABORT, R183 -/
  | editAbort (who : Who) (t : Fin 32)
  /-- TASK_PERIOD_WRITE, R142 -/
  | taskPeriodWrite (who : Who) (t : Fin 32) (v : Word)
  /-- REGISTER_WRITE, R58 -/
  | registerWrite (who : Who) (a v : Word)
  /-- EVENT_WRITE_BACK, R65 -/
  | eventWriteBack (who : Who) (a v : Word)
  /-- CLKMEAS_GO, R38 -/
  | clkmeasGo (who : Who) (sel : Fin 16)
  /-- BUSERR_CLEAR, R75 -/
  | buserrClear (who : Who)
  /-- PLL_LOCK_LOSS, R526 -/
  | pllLockLoss (p : Fin 10)
  /-- REFOK_LOSS, R526 -/
  | refokLoss
  /-- REFERENCE_FAIL_TIMEOUT, R502 -/
  | referenceFailTimeout
  /-- ADD, R122 -/
  | add (i : Fin 40) (f : Bool) (d a b : Fin 16)
  /-- SUB, R122 -/
  | sub (i : Fin 40) (f : Bool) (d a b : Fin 16)
  /-- ADC, R122 -/
  | adc (i : Fin 40) (f : Bool) (d a b : Fin 16)
  /-- SBC, R122 -/
  | sbc (i : Fin 40) (f : Bool) (d a b : Fin 16)
  /-- AND, R122 -/
  | and (i : Fin 40) (f : Bool) (d a b : Fin 16)
  /-- OR, R122 -/
  | or (i : Fin 40) (f : Bool) (d a b : Fin 16)
  /-- XOR, R122 -/
  | xor (i : Fin 40) (f : Bool) (d a b : Fin 16)
  /-- ANDN, R122 -/
  | andn (i : Fin 40) (f : Bool) (d a b : Fin 16)
  /-- SHL, R123 -/
  | shl (i : Fin 40) (f : Bool) (d a b : Fin 16)
  /-- SHR, R123 -/
  | shr (i : Fin 40) (f : Bool) (d a b : Fin 16)
  /-- SAR, R123 -/
  | sar (i : Fin 40) (f : Bool) (d a b : Fin 16)
  /-- ROR, R123 -/
  | ror (i : Fin 40) (f : Bool) (d a b : Fin 16)
  /-- ADDI, R122 -/
  | addi (i : Fin 40) (f : Bool) (d a : Fin 16) (x : BitVec 16)
  /-- ANDI, R122 -/
  | andi (i : Fin 40) (f : Bool) (d a : Fin 16) (x : BitVec 16)
  /-- ORI, R122 -/
  | ori (i : Fin 40) (f : Bool) (d a : Fin 16) (x : BitVec 16)
  /-- XORI, R122 -/
  | xori (i : Fin 40) (f : Bool) (d a : Fin 16) (x : BitVec 16)
  /-- CMPI, R122 -/
  | cmpi (i : Fin 40) (a : Fin 16) (x : BitVec 16)
  /-- LUI, R122 -/
  | lui (i : Fin 40) (d : Fin 16) (x : BitVec 16)
  /-- SHLI, R123 -/
  | shli (i : Fin 40) (f : Bool) (d a : Fin 16) (n : Fin 32)
  /-- SHRI, R123 -/
  | shri (i : Fin 40) (f : Bool) (d a : Fin 16) (n : Fin 32)
  /-- SARI, R123 -/
  | sari (i : Fin 40) (f : Bool) (d a : Fin 16) (n : Fin 32)
  /-- RORI, R123 -/
  | rori (i : Fin 40) (f : Bool) (d a : Fin 16) (n : Fin 32)
  /-- CLZ, R124 -/
  | clz (i : Fin 40) (d a : Fin 16)
  /-- BFX, R125 -/
  | bfx (i : Fin 40) (d a : Fin 16) (pos lenM1 : Fin 32)
  /-- BFXS, R125 -/
  | bfxs (i : Fin 40) (d a : Fin 16) (pos lenM1 : Fin 32)
  /-- BFI, R125 -/
  | bfi (i : Fin 40) (d a : Fin 16) (pos lenM1 : Fin 32)
  /-- BPERM, R124 -/
  | bperm (i : Fin 40) (d a b : Fin 16) (sel : BitVec 12)
  /-- MUL, R126 -/
  | mul (i : Fin 40) (f : Bool) (d a b : Fin 16)
  /-- MULHS, R126 -/
  | mulhs (i : Fin 40) (f : Bool) (d a b : Fin 16)
  /-- MULHU, R126 -/
  | mulhu (i : Fin 40) (f : Bool) (d a b : Fin 16)
  /-- DIVS, R127 -/
  | divs (i : Fin 40) (f : Bool) (d a b : Fin 16)
  /-- DIVU, R127 -/
  | divu (i : Fin 40) (f : Bool) (d a b : Fin 16)
  /-- REMS, R127 -/
  | rems (i : Fin 40) (f : Bool) (d a b : Fin 16)
  /-- REMU, R127 -/
  | remu (i : Fin 40) (f : Bool) (d a b : Fin 16)
  /-- LDW, R129 -/
  | ldw (i : Fin 40) (d b : Fin 16) (disp : BitVec 16)
  /-- LDH, R129 -/
  | ldh (i : Fin 40) (d b : Fin 16) (disp : BitVec 16)
  /-- LDHU, R129 -/
  | ldhu (i : Fin 40) (d b : Fin 16) (disp : BitVec 16)
  /-- LDB, R129 -/
  | ldb (i : Fin 40) (d b : Fin 16) (disp : BitVec 16)
  /-- LDBU, R129 -/
  | ldbu (i : Fin 40) (d b : Fin 16) (disp : BitVec 16)
  /-- STW, R129 -/
  | stw (i : Fin 40) (r b : Fin 16) (disp : BitVec 16)
  /-- STH, R129 -/
  | sth (i : Fin 40) (r b : Fin 16) (disp : BitVec 16)
  /-- STB, R129 -/
  | stb (i : Fin 40) (r b : Fin 16) (disp : BitVec 16)
  /-- BCC, R131 -/
  | bcc (i : Fin 40) (cond : Fin 15) (disp : BitVec 22)
  /-- CALL, R132 -/
  | call (i : Fin 40) (disp : BitVec 26)
  /-- JMP, R132 -/
  | jmp (i : Fin 40) (a : Fin 16)
  /-- CALLR, R132 -/
  | callr (i : Fin 40) (a : Fin 16)
  /-- RET, R92 -/
  | ret (i : Fin 40)
  /-- BJT, R133 -/
  | bjt (i : Fin 40) (disp : BitVec 22)
  /-- BJF, R133 -/
  | bjf (i : Fin 40) (disp : BitVec 22)
  /-- PUSH, R87 -/
  | push (i : Fin 40) (a : Fin 16)
  /-- POP, R87 -/
  | pop (i : Fin 40) (d : Fin 16)
  /-- BLD, R134 -/
  | bld (i : Fin 40) (b : Fin 16) (disp : BitVec 13) (k : Fin 8)
  /-- BLDN, R134 -/
  | bldn (i : Fin 40) (b : Fin 16) (disp : BitVec 13) (k : Fin 8)
  /-- BAND, R134 -/
  | band (i : Fin 40) (b : Fin 16) (disp : BitVec 13) (k : Fin 8)
  /-- BANDN, R134 -/
  | bandn (i : Fin 40) (b : Fin 16) (disp : BitVec 13) (k : Fin 8)
  /-- BOR, R134 -/
  | bor (i : Fin 40) (b : Fin 16) (disp : BitVec 13) (k : Fin 8)
  /-- BORN, R134 -/
  | born (i : Fin 40) (b : Fin 16) (disp : BitVec 13) (k : Fin 8)
  /-- BXOR, R134 -/
  | bxor (i : Fin 40) (b : Fin 16) (disp : BitVec 13) (k : Fin 8)
  /-- BXORN, R134 -/
  | bxorn (i : Fin 40) (b : Fin 16) (disp : BitVec 13) (k : Fin 8)
  /-- BST, R134 -/
  | bst (i : Fin 40) (b : Fin 16) (disp : BitVec 13) (k : Fin 8)
  /-- BSET, R135 -/
  | bset (i : Fin 40) (b : Fin 16) (disp : BitVec 13) (k : Fin 8)
  /-- BRST, R135 -/
  | brst (i : Fin 40) (b : Fin 16) (disp : BitVec 13) (k : Fin 8)
  /-- BPOS, R134 -/
  | bpos (i : Fin 40) (b : Fin 16) (disp : BitVec 13) (k : Fin 8)
  /-- BNEG, R134 -/
  | bneg (i : Fin 40) (b : Fin 16) (disp : BitVec 13) (k : Fin 8)
  /-- BNEST_A, R137 -/
  | bnestA (i : Fin 40)
  /-- BNEST_O, R137 -/
  | bnestO (i : Fin 40)
  /-- BNEST_X, R137 -/
  | bnestX (i : Fin 40)
  /-- BUNNEST, R137 -/
  | bunnest (i : Fin 40)
  /-- BNOT, R137 -/
  | bnot (i : Fin 40)
  /-- NOP, R138 -/
  | nop (i : Fin 40)
  /-- FENCE, R97 -/
  | fence (i : Fin 40)
  /-- SIG, R139 -/
  | sig (i : Fin 40) (a b : Fin 16)
  /-- DONE, R107 -/
  | done (i : Fin 40)
  /-- TRAP, R138 -/
  | trap (i : Fin 40) (n : BitVec 8)
  /-- BREAK, R138 -/
  | breakI (i : Fin 40)
  /-- RFE, R111 -/
  | rfe (i : Fin 40)
  /-- MFC, R81 -/
  | mfc (i : Fin 40) (d : Fin 16) (c : BitVec 8)
  /-- MTC, R81 -/
  | mtc (i : Fin 40) (c : BitVec 8) (a : Fin 16)
  /-- ICINV, R138 -/
  | icinv (i : Fin 40)
  /-- STORE_COMPLETE, R95 -/
  | storeComplete (i : Fin 40)
  /-- PREEMPT_ACCEPT, R105 -/
  | preemptAccept (i : Fin 40)
  /-- CORE_RESET, R110 -/
  | coreReset (who : Who) (i : Fin 40)
  /-- CORE_ICINV, R100 -/
  | coreIcinv (who : Who) (i : Fin 40)
  /-- CORE_DRAIN, R109 -/
  | coreDrain (who : Who) (i : Fin 40)
  /-- CORE_STEP, R116 -/
  | coreStep (who : Who) (i : Fin 40)
  /-- CORE_RESUME, R116 -/
  | coreResume (who : Who) (i : Fin 40)
  /-- CORE_HALT, R116 -/
  | coreHalt (who : Who) (i : Fin 40)
  /-- TOKEN_ACCEPT, R225 -/
  | tokenAccept (i : Fin 40)
  /-- OVERFLOW_MATCH, R227 -/
  | overflowMatch
  /-- SOURCE_ACCEPT, R230 -/
  | sourceAccept
  /-- STARVE, R235 -/
  | starve (k : Nat)
  /-- DELAY_RELEASE, R241 -/
  | delayRelease
  /-- DLYCMD_GO, R242 -/
  | dlycmdGo (who : Who)
  /-- SWSRC_RAISE, R231 -/
  | swsrcRaise (who : Who) (bits : BitVec 16)
  /-- GATE_WRITE, R254 -/
  | gateWrite (who : Who) (n : Fin 5) (b : Fin 12) (v : Word)
  /-- CIRCULAR_WINDOW_WRITE, R257 -/
  | circularWindowWrite (who : Who) (n : Fin 5) (w : Fin 8) (v : Word)
  /-- SCRUB, R251 -/
  | scrub (mem k : Nat) (err : Fin 3)
  /-- DMA_TAIL_WRITE, R259 -/
  | dmaTailWrite (who : Who) (n : Fin 5) (v : Word)
  /-- DMA_DESCRIPTOR_END, R259 -/
  | dmaDescriptorEnd (n : Fin 5)
  /-- DMA_STOP, R260 -/
  | dmaStop (who : Who) (n : Fin 5)
  /-- DMA_RESUME, R260 -/
  | dmaResume (who : Who) (n : Fin 5)
  /-- PARK, R261 -/
  | park (who : Who) (n : Fin 5)
  /-- REACH_WAKE, R262 -/
  | reachWake (n : Fin 5)
  /-- MBX_TX_WRITE, R263 -/
  | mbxTxWrite (who : Who) (m : Fin 64) (v : Word)
  /-- MBX_RX_READ, R265 -/
  | mbxRxRead (who : Who) (m : Fin 64)
  /-- MBX_GO, R263 -/
  | mbxGo (who : Who) (m : Fin 64)
  /-- MBX_RELEASE, R265 -/
  | mbxRelease (who : Who) (m : Fin 64)
  /-- MBX_ABORT, R263 -/
  | mbxAbort (who : Who) (m : Fin 64)
  /-- MBX_FLUSH, R263 -/
  | mbxFlush (who : Who) (m : Fin 64)
  /-- MBX_CFG_WRITE, R263 -/
  | mbxCfgWrite (who : Who) (m : Fin 64) (v : Word)
  /-- EPOCH_BUMP, R268 -/
  | epochBump (who : Who) (r : Fin 6)
  /-- SLEW_STEP, R274 -/
  | slewStep
  /-- TMB_INC_WRITE, R271 -/
  | tmbIncWrite (who : Who) (v : Word)
  /-- ADJ_SLEW, R274 -/
  | adjSlew (who : Who)
  /-- ADJ_STEP, R274 -/
  | adjStep (who : Who)
  /-- HOLDOVER_ENTRY, R273 -/
  | holdoverEntry
  /-- HOLDOVER_EXIT, R273 -/
  | holdoverExit
  /-- UNIT_CMP_WRITE, R278 -/
  | unitCmpWrite (who : Who) (u : Fin 32) (v : Word)
  /-- UNIT_CTL_WRITE, R278 -/
  | unitCtlWrite (who : Who) (u : Fin 32) (v : Word)
  /-- CAPNOW, R282 -/
  | capnow (who : Who) (u : Fin 32)
  /-- CAPTURE_EVENT, R282 -/
  | captureEvent (src : Fin 256)
  /-- CAPT_HIGH_READ, R282 -/
  | captHighRead (who : Who) (u : Fin 32)
  /-- FRAME_INGRESS, R315 -/
  | frameIngress (src : Fin 36)
  /-- FRAME_ENQUEUE, R314 -/
  | frameEnqueue (src : Fin 36)
  /-- FRAME_DISPATCH, R319 -/
  | frameDispatch (dest : Fin 36) (hi : Bool)
  /-- FRAME_HANDOFF, R321 -/
  | frameHandoff (dest : Fin 36) (hi : Bool)
  /-- AGE_CHECK, R317 -/
  | ageCheck
  /-- PLANE_STALL, R323 -/
  | planeStall (k : Fin 4) (sound : Bool)
  /-- PLANE_EN_WRITE, R322 -/
  | planeEnWrite (who : Who) (v : Word)
  /-- PLANE_DRAINED, R322 -/
  | planeDrained (k : Fin 4)
  /-- PLANE_RESTORE, R323 -/
  | planeRestore (who : Who)
  /-- MAC_AGE_SWEEP, R328 -/
  | macAgeSweep
  /-- MAC_READ, R329 -/
  | macRead (who : Who) (i : Fin 16384)
  /-- MAC_LOOKUP, R329 -/
  | macLookup (who : Who)
  /-- MAC_WRITE, R329 -/
  | macWrite (who : Who)
  /-- MAC_DELETE, R329 -/
  | macDelete (who : Who)
  /-- MAC_FLUSH, R329 -/
  | macFlush (who : Who) (all : Bool)
  /-- HSEED_WRITE, R328 -/
  | hseedWrite (who : Who) (v : Word)
  /-- RING_RP_WRITE, R331 -/
  | ringRpWrite (who : Who) (k : Fin 32) (v : Word)
  /-- TX_RING_WP_WRITE, R332 -/
  | txRingWpWrite (who : Who) (r : Fin 4) (v : Word)
  /-- RING_RESUME, R332 -/
  | ringResume (who : Who) (tx : Bool) (k : Fin 32)
  /-- ETH_ENABLE, R339 -/
  | ethEnable (who : Who) (p : Fin 24)
  /-- ETH_DISABLE, R343 -/
  | ethDisable (who : Who) (p : Fin 24)
  /-- LINK_UP, R339 -/
  | linkUp (p : Fin 24) (fast master : Bool)
  /-- LINK_LOSS, R339 -/
  | linkLoss (p : Fin 24)
  /-- MAC_FRAME_RX, R340 -/
  | macFrameRx (p : Fin 24) (bs : List Byte) (good clean : Bool) (fec : Nat)
  /-- MAC_FRAME_TX, R343 -/
  | macFrameTx (p : Fin 24) (busy : Bool)
  /-- COLLISION, R344 -/
  | collision (p : Fin 24) (cd : Bool)
  /-- BACKOFF_END, R344 -/
  | backoffEnd (p : Fin 24) (busy : Bool)
  /-- PLCA_BEACON, R346 -/
  | plcaBeacon (p : Fin 24)
  /-- PLCA_OPPORTUNITY, R346 -/
  | plcaOpportunity (p : Fin 24) (node : Fin 256)
  /-- BEACON_TIMEOUT, R347 -/
  | beaconTimeout (p : Fin 24)
  /-- TS_FIFO_READ, R349 -/
  | tsFifoRead (who : Who) (p : Fin 24) (tx : Bool)
  /-- STATS_READ, R351 -/
  | statsRead (who : Who) (p : Fin 24) (r : Fin 64)
  /-- STN_READ, R352 -/
  | stnRead (who : Who) (p : Fin 24) (w : Fin 16)
  /-- SQI_UPDATE, R353 -/
  | sqiUpdate (p : Fin 24) (sqi : Fin 8)
  /-- CABLE_TEST, R354 -/
  | cableTest (who : Who) (p : Fin 24)
  /-- CABLE_TEST_END, R354 -/
  | cableTestEnd (p : Fin 24) (result : Fin 8) (dist : BitVec 16)
  /-- TOW_ENABLE, R369 -/
  | towEnable (who : Who)
  /-- MASTER_FRAME_TX, R363 -/
  | masterFrameTx (a : Fin 256)
  /-- TOW_REPLY_RX, R364 -/
  | towReplyRx
  /-- REPLY_DEADLINE, R369 -/
  | replyDeadline (a : Fin 256)
  /-- CLAIM_RX, R372 -/
  | claimRx
  /-- REGRANT, R372 -/
  | regrant (who : Who) (a : Fin 256)
  /-- TOW_RELEASE, R373 -/
  | towRelease (who : Who) (a : Fin 256)
  /-- SILENT_FOLLOW, R380 -/
  | silentFollow
  /-- CAN_FRAME_VALID, R391 -/
  | canFrameValid (n : Fin 8) (f : CanFrame) (ago : Nat)
  /-- IMAGE_SLOT_AGE, R392 -/
  | imageSlotAge (n k : Fin 8)
  /-- CAN_TXREQ, R394 -/
  | canTxreq (who : Who) (n : Fin 8) (mask : BitVec 16)
  /-- CAN_TXCAN, R395 -/
  | canTxcan (who : Who) (n : Fin 8) (mask : BitVec 16)
  /-- CAN_TX_END, R396 -/
  | canTxEnd (n : Fin 8) (r : TxResult) (ago tdcv : Nat)
  /-- CAN_ERROR, R388 -/
  | canError (n : Fin 8) (kind : Fin 8) (data : Bool) (place : CanErrAt) (runs : Nat)
  /-- BUS_OFF_RECOVERY_END, R389 -/
  | busOffRecoveryEnd (n : Fin 8)
  /-- CAN_RECOVER, R389 -/
  | canRecover (who : Who) (n : Fin 8)
  /-- PROTOCOL_EXCEPTION, R383 -/
  | protocolException (n : Fin 8)
  /-- CAN_ENABLE, R387 -/
  | canEnable (who : Who) (n : Fin 8)
  /-- CAN_DISABLE, R387 -/
  | canDisable (n : Fin 8)
  /-- CAN_MODE_CHANGE, R386 -/
  | canModeChange (n : Fin 8)
  /-- XCAP, R398 -/
  | xcap (who : Who) (n : Fin 8)
  /-- XCAP_AUTO, R398 -/
  | xcapAuto (n : Fin 8)
  /-- GOTO, R405 -/
  | goto (e : Fin 16) (ext : BitVec 64)
  /-- LOOP, R405 -/
  | loop (e : Fin 16)
  /-- CLOCK_OUT, R408 -/
  | clockOut (e : Fin 16) (ext : Word)
  /-- CLOCK_IN, R408 -/
  | clockIn (e : Fin 16) (ext : Word)
  /-- CLOCK_DUPLEX, R408 -/
  | clockDuplex (e : Fin 16) (ext : Word)
  /-- PINSET_VALUES, R405 -/
  | pinsetValues (e : Fin 16)
  /-- PINSET_DIRECTIONS, R405 -/
  | pinsetDirections (e : Fin 16)
  /-- WAITFOR_LEVEL, R405 -/
  | waitforLevel (e : Fin 16) (ext : BitVec 64)
  /-- WAITFOR_EDGE, R405 -/
  | waitforEdge (e : Fin 16) (ext : BitVec 64)
  /-- WAITFOR_FLAG, R405 -/
  | waitforFlag (e : Fin 16)
  /-- WAITFOR_TIME, R405 -/
  | waitforTime (e : Fin 16)
  /-- WAITFOR_MET, R405 -/
  | waitforMet (e : Fin 16) (ext : BitVec 64)
  /-- FIFO_TAKE, R405 -/
  | fifoTake (e : Fin 16)
  /-- FIFO_GIVE, R405 -/
  | fifoGive (e : Fin 16)
  /-- BEETLE_STALL_RESUME, R410 -/
  | beetleStallResume (e : Fin 16) (ext : Word)
  /-- XFORM_CLEAR, R406 -/
  | xformClear (e : Fin 16)
  /-- XFORM_INVERT, R406 -/
  | xformInvert (e : Fin 16)
  /-- XFORM_REVERSE, R406 -/
  | xformReverse (e : Fin 16)
  /-- XFORM_GRAY, R406 -/
  | xformGray (e : Fin 16)
  /-- XFORM_JUSTIFY, R406 -/
  | xformJustify (e : Fin 16)
  /-- XFORM_SAMPLE, R406 -/
  | xformSample (e : Fin 16) (ext : BitVec 64)
  /-- XFORM_DRIVE, R406 -/
  | xformDrive (e : Fin 16)
  /-- XFORM_STATUS, R406 -/
  | xformStatus (e : Fin 16)
  /-- XFORM_TOK0, R406 -/
  | xformTok0 (e : Fin 16)
  /-- XFORM_TOK1, R406 -/
  | xformTok1 (e : Fin 16)
  /-- SETK, R405 -/
  | setk (e : Fin 16)
  /-- SIGNAL_SET, R405 -/
  | signalSet (e : Fin 16)
  /-- SIGNAL_CLR, R405 -/
  | signalClr (e : Fin 16)
  /-- SIGNAL_EVENT, R405 -/
  | signalEvent (e : Fin 16)
  /-- SIGNAL_TOGGLE, R405 -/
  | signalToggle (e : Fin 16)
  /-- BTL_ENABLE, R402 -/
  | btlEnable (who : Who) (e : Fin 16)
  /-- BTL_DISABLE, R413 -/
  | btlDisable (who : Who) (e : Fin 16)
  /-- BTL_RESTART, R402 -/
  | btlRestart (who : Who) (e : Fin 16)
  /-- BTL_TX_WRITE, R417 -/
  | btlTxWrite (who : Who) (e : Fin 16) (v : Word)
  /-- BTL_RX_READ, R417 -/
  | btlRxRead (who : Who) (e : Fin 16)
  /-- BTL_STORE_WRITE, R411 -/
  | btlStoreWrite (who : Who) (c : Fin 2) (a : Fin 48) (v : BitVec 16)
  /-- BTL_FLAGS_WRITE, R414 -/
  | btlFlagsWrite (who : Who) (c : Fin 2) (v : BitVec 16)
  /-- BTL_RXDMA_BATCH, R415 -/
  | btlRxdmaBatch (e : Fin 16)
  /-- BTL_RXDMA_AGE, R415 -/
  | btlRxdmaAge (e : Fin 16)
  /-- BTL_TXDMA_BATCH, R416 -/
  | btlTxdmaBatch (e : Fin 16)
  /-- WORRI_LINK_ENABLE, R420 -/
  | worriLinkEnable (who : Who) (n : Fin 4)
  /-- LINKUP_TX, R420 -/
  | linkupTx (n : Fin 4)
  /-- LINK_ACTIVE, R420 -/
  | linkActive (n m : Fin 4) (polinv : Bool)
  /-- WORRI_LINK_DOWN, R420 -/
  | worriLinkDown (n : Fin 4 × List RxBlock)
  /-- RETRAIN, R420 -/
  | retrain (who : Who) (n : Fin 4)
  /-- WORRI_PACKET_RX, R424 -/
  | worriPacketRx (n : Fin 4) (p : Packet) (good : Bool)
  /-- ACK_TIMER, R424 -/
  | ackTimer (n : Fin 4)
  /-- WORRI_ACK_RX, R424 -/
  | worriAckRx (n : Fin 4) (seq : Fin 4096)
  /-- WORRI_NAK_RX, R424 -/
  | worriNakRx (n : Fin 4) (seq : Fin 4096)
  /-- WORRI_CREDIT_RX, R422 -/
  | worriCreditRx (n : Fin 4) (vc : Fin 5) (blocks : Nat)
  /-- REPLAY_TIMEOUT, R424 -/
  | replayTimeout (n : Fin 4)
  /-- LGASP_RX, R437 -/
  | lgaspRx (n : Fin 4) (v : BitVec 56)
  /-- LGFWD_RX, R437 -/
  | lgfwdRx
  /-- HELLO_TX, R425 -/
  | helloTx
  /-- HELLO_RX, R425 -/
  | helloRx
  /-- NEIGHBOUR_TIMEOUT, R426 -/
  | neighbourTimeout (n : Fin 4)
  /-- ROOT_SETTLED, R426 -/
  | rootSettled
  /-- LINKCHG_RX, R426 -/
  | linkchgRx
  /-- TOPO_RX, R426 -/
  | topoRx
  /-- TOPO_COLLECT_END, R426 -/
  | topoCollectEnd
  /-- ASSIGN_RX, R428 -/
  | assignRx
  /-- ROUTE_RX, R429 -/
  | routeRx
  /-- ROUTEACK_RX, R426 -/
  | routeackRx
  /-- COMMIT_RX, R426 -/
  | commitRx
  /-- TSYNC_TIMER, R434 -/
  | tsyncTimer
  /-- TIMEREQ_RX, R434 -/
  | timereqRx
  /-- TIMERESP_RX, R434 -/
  | timerespRx
  /-- TIMESYNC_RX, R435 -/
  | timesyncRx
  /-- RESETREQ_RX, R438 -/
  | resetreqRx
  /-- WFB_RSTCMD, R438 -/
  | wfbRstcmd (who : Who) (target : Fin 4096)
  /-- HOST_MEM_READ, R446 -/
  | hostMemRead (a : BarAddr) (n tag : Nat)
  /-- HOST_MEM_WRITE, R452 -/
  | hostMemWrite (off : Nat) (bs : List Byte)
  /-- QSPI_READ, R444 -/
  | qspiRead (a : Word) (n : Nat)
  /-- QSPI_WRITE, R444 -/
  | qspiWrite (a : Word) (bs : List Byte)
  /-- QSPI_STATUS, R444 -/
  | qspiStatus
  /-- REMOTE_WRITE_RX, R447 -/
  | remoteWriteRx
  /-- REMOTE_READ_RX, R454 -/
  | remoteReadRx
  /-- READ_RESPONSE_RX, R451 -/
  | readResponseRx
  /-- PWERR_RX, R452 -/
  | pwerrRx
  /-- READ_TIMEOUT, R451 -/
  | readTimeout
  /-- PREFETCH_EXPIRE, R450 -/
  | prefetchExpire
  /-- SEM_READ, R456 -/
  | semRead (who : Who) (k : Fin 32)
  /-- SEM_WRITE, R458 -/
  | semWrite (who : Who) (k : Fin 32) (v : Word)
  /-- SEM_HOLD_EXPIRE, R458 -/
  | semHoldExpire (k : Fin 32)
  /-- POLL_TIMER, R459 -/
  | pollTimer (k : Fin 16)
  /-- POLL_RESPONSE, R460 -/
  | pollResponse (k : Fin 16)
  /-- PCIE_HOT_RESET, R461 -/
  | pcieHotReset (kind : Fin 3)
  /-- PERST_N, R527 -/
  | perstN (high : Bool)
  /-- MSIX_ACK, R444 -/
  | msixAck (who : Who) (v : Word)
  /-- FRECAL, R484 -/
  | frecal (who : Who)
  /-- RCTRIM, R484 -/
  | rctrim (who : Who)
  /-- VERIFY, R483 -/
  | verify (who : Who) (slot : Fin 2)
  /-- VERIFY_DONE, R483 -/
  | verifyDone
  /-- MCOPY, R482 -/
  | mcopy (who : Who) (lines : Fin 262144)
  /-- MCOPY_DONE, R482 -/
  | mcopyDone
  /-- LC_TO_MANUFACTURE, R477 -/
  | lcToManufacture (who : Who) (confirm : BitVec 8) (key : Fin 4)
  /-- LC_TO_FIELD, R477 -/
  | lcToField (who : Who) (confirm : BitVec 8) (key : Fin 4)
  /-- LC_TO_RETURN, R477 -/
  | lcToReturn (who : Who) (confirm : BitVec 8) (key : Fin 4)
  /-- LC_TO_SCRAPPED, R477 -/
  | lcToScrapped (who : Who) (confirm : BitVec 8) (key : Fin 4)
  /-- REVOKE, R477 -/
  | revoke (who : Who) (confirm : BitVec 8) (key : Fin 4)
  /-- ROLLUP, R477 -/
  | rollup (who : Who) (confirm : BitVec 8) (key : Fin 4)
  /-- KEYPROG, R477 -/
  | keyprog (who : Who) (confirm : BitVec 8) (key : Fin 4)
  /-- DSKGEN, R477 -/
  | dskgen (who : Who) (confirm : BitVec 8) (key : Fin 4)
  /-- LC_FUSE_DONE, R477 -/
  | lcFuseDone
  /-- ATTEST, R478 -/
  | attest (who : Who)
  /-- ATTEST_DONE, R478 -/
  | attestDone
  /-- BLKRST, R480 -/
  | blkrst (who : Who) (block : BitVec 8)
  /-- ROTATION_TARGET, R191 -/
  | rotationTarget
  /-- DRAIN_TIMEOUT, R196 -/
  | drainTimeout
  /-- HANDOVER_WINDOW, R197 -/
  | handoverWindow
  /-- HANDOVER_END, R197 -/
  | handoverEnd
  /-- DRY_POWER_END, R192 -/
  | dryPowerEnd (locked powered : Bool)
  /-- LBIST_SLICE_END, R487 -/
  | lbistSliceEnd (ok0 ok1 : Bool) (sig0 sig1 : Word)
  /-- MBIST_END, R488 -/
  | mbistEnd (bad : List (Nat × Bool × Nat))
  /-- RELOAD_END, R192 -/
  | reloadEnd
  /-- FILL_START, R192 -/
  | fillStart
  /-- FILL_ROUND_END, R193 -/
  | fillRoundEnd
  /-- ROTATION_LATE, R201 -/
  | rotationLate
  /-- REACH_LATENT, R201 -/
  | reachLatent (n : Fin 5)
  /-- EMERGENCY_HANDOVER_END, R201 -/
  | emergencyHandoverEnd
  /-- FW_STAGE, R203 -/
  | fwStage (who : Who) (src : Fin 2)
  /-- FW_SWITCH, R204 -/
  | fwSwitch (who : Who)
  /-- FW_ABORT, R203 -/
  | fwAbort (who : Who)
  /-- FW_SWITCH_GAP, R204 -/
  | fwSwitchGap (r : Fin 4)
  /-- SBY_ENABLE, R206 -/
  | sbyEnable (who : Who) (en : Bool)
  /-- SWAP, R217 -/
  | swap (who : Who)
  /-- JOIN, R206 -/
  | join (who : Who)
  /-- PAIR_HELLO_TX, R207 -/
  | pairHelloTx
  /-- PAIR_HELLO_RX, R207 -/
  | pairHelloRx (peerPref : Bool)
  /-- SEEK_TIMEOUT, R207 -/
  | seekTimeout
  /-- HEARTBEAT_TX, R209 -/
  | heartbeatTx
  /-- HEARTBEAT_RX, R216 -/
  | heartbeatRx
  /-- HEARTBEAT_TIMEOUT, R212 -/
  | heartbeatTimeout
  /-- SNAP_RX, R211 -/
  | snapRx
  /-- RET_RX, R211 -/
  | retRx
  /-- COMMIT_MSG_RX, R211 -/
  | commitMsgRx
  /-- FORCE_MSG_RX, R211 -/
  | forceMsgRx
  /-- RELINQUISH_RX, R217 -/
  | relinquishRx
  /-- JOINREQ_RX, R215 -/
  | joinreqRx
  /-- STATE_RX, R215 -/
  | stateRx
  /-- JOINED_RX, R215 -/
  | joinedRx
  /-- DETACHED_TIMER, R206 -/
  | detachedTimer
  /-- SHARED_SLICE_START, R489 -/
  | sharedSliceStart (k : Fin 88)
  /-- SHARED_SLICE_END, R489 -/
  | sharedSliceEnd (restoreOk sigOk : Bool) (sig : Word)
  /-- SHARED_LATENT, R491 -/
  | sharedLatent (b : Fin 6)
  /-- LWD_EXPIRE, R497 -/
  | lwdExpire
  /-- ROM_CRC_CHECK, R497 -/
  | romCrcCheck (ok : Bool)
  /-- LOCKKEEPER_WATCHDOG, R497 -/
  | lockkeeperWatchdog (k : Nat)
  /-- INTERCONNECT_WATCHDOG, R497 -/
  | interconnectWatchdog (a : Word)
  /-- AWD_EXPIRE, R497 -/
  | awdExpire
  /-- AWD_KICK, R497 -/
  | awdKick (who : Who) (key : Word)
  /-- FCLR, R498 -/
  | fclr (who : Who)
  /-- FUSE_REPAIR, R494 -/
  | fuseRepair (who : Who)
  /-- MANUAL_TEST, R496 -/
  | manualTest (who : Who) (kind : Fin 2) (mem : BitVec 8)
  /-- FAULT_LOG_WRITE, R533 -/
  | faultLogWrite
  /-- VFIELD_LOSS, R509 -/
  | vfieldLoss
  /-- PLL_RELOCK, R417 -/
  | pllRelock (p : Fin 10)
  /-- REFERENCE_RECOVERY, R526 -/
  | referenceRecovery
  /-- RESTART_COMPLETE, R176 -/
  | restartComplete
  /-- MANUAL_TEST_END, R496 -/
  | manualTestEnd (pass : Bool) (slice : Nat) (bad : List (Nat × Bool × Nat))
  /-- PCIE_LINK_UP, R527 -/
  | pcieLinkUp (speed width : Fin 4)
  /-- MSIX_TABLE_WRITE, R460 -/
  | msixTableWrite (v : Fin 32) (word : Fin 4) (x : Word)
  /-- PCIE_CONFIG_REQUEST, R527 -/
  | pcieConfigRequest (q : CfgReq)
  /-- BLOCK_LOCK, R420 -/
  | blockLock (n : Fin 4)
  /-- BUS_INTEGRATION, R387 -/
  | busIntegration (n : Fin 8)
  /-- BEACON_RX, R347 -/
  | beaconRx (p : Fin 24)
  /-- DEBUG_PORT_ACCESS, R69 -/
  | debugPortAccess (test isWr : Bool) (a v : Word)
  /-- LOCKHOUSE_CORE_STOP, R531 -/
  | lockhouseCoreStop
  /-- TIME_COPY_MISMATCH, R490 -/
  | timeCopyMismatch (other : Nat)
  /-- SPARE_RETEST, R192 -/
  | spareRetest
  /-- UNDEFINED_ENCODING, R118 -/
  | undefinedEncoding (i : Fin 40)
deriving DecidableEq, Repr

end Sys2Proof
end

