-- ==== Sys2Proof/Decode.lean ====
section
/-! DEFINITION. Commands and words. No row of spec/opcode_table.json gives bits, so no word spells a command; a Weevil core reads its
own words in Machine/WeevilCode.lean, a Beetle engine in Machine/Beetle.lean. -/

namespace Sys2Proof

/-- The command a word spells by the bits of the command table: none, since the table gives none. -/
def decodeTableWord (_nbits _w : Nat) : Option Instr := none

end Sys2Proof
end

