-- ==== Sys2Proof/Machine/Crc.lean ====
section
/-! DEFINITION. The check codes of the spec: CRC-32 of IEEE 802.3 (R167, R504), CRC-32C (Towpath), CRC-8. -/

namespace Sys2Proof.Machine

/-- One bit of a reflected CRC with polynomial `poly`. -/
def crcBit (poly c : Nat) : Nat := if c % 2 = 1 then (c / 2) ^^^ poly else c / 2

/-- Eight bits of a reflected CRC. -/
def crcByte (poly c : Nat) (b : Byte) : Nat :=
  (List.range 8).foldl (fun c _ => crcBit poly c) (c ^^^ b.toNat)

/-- CRC-32 as the IEEE 802.3 FCS: polynomial 0x04C11DB7, reflected, initial value and final XOR all ones. -/
def crc32 (bs : List Byte) : Nat := (bs.foldl (crcByte 0xEDB88320) 0xFFFFFFFF) ^^^ 0xFFFFFFFF

/-- CRC-32C: polynomial 0x1EDC6F41, reflected, initial value and final XOR all ones. -/
def crc32c (bs : List Byte) : Nat := (bs.foldl (crcByte 0x82F63B78) 0xFFFFFFFF) ^^^ 0xFFFFFFFF

/-- One bit step of a CRC that is not reflected, of 8 bits with polynomial 0x07. -/
def crc8Bit (c : Nat) : Nat := if 128 ≤ c then (2 * c % 256) ^^^ 0x07 else 2 * c

/-- The CRC-8 of R419: polynomial 0x07, initial value 0, not reflected, no final XOR. -/
def crc8 (bs : List Byte) : Nat :=
  bs.foldl (fun c b => crc8Bit (crc8Bit (crc8Bit (crc8Bit (crc8Bit (crc8Bit (crc8Bit (crc8Bit (c ^^^ b.toNat))))))))) 0

end Sys2Proof.Machine
end

