-- ==== Sys2Proof/Config.lean ====
section
/-! DEFINITION. The free values of the model: constants with no body, applied to a counter of State, so that no proof
can rest on a value the spec leaves open (log 5). -/

namespace Sys2Proof.Config

/-- A word the spec leaves open (entropy, a nonce, a measured value, a generated key word). -/
opaque freeWord : Nat → Word

/-- The state after a 16-bit feedback shift register whose polynomial the spec leaves open (R344). -/
opaque lfsrNext : Nat → Nat

/-- A number the spec leaves open. -/
opaque freeNat : Nat → Nat

/-- Whether a mean of analog conversions that lies between two counts, given as numerator and denominator, is reported as the upper one
(R305, R306). -/
opaque aiRoundsUp : Int → Nat → Bool

end Sys2Proof.Config
end

