-- ==== Sys2Proof/Machine/Fields.lean ====
section
/-! DEFINITION. The plain addresses of the registers (`A.`) and their fields (`F.`), from the register tables of
spec/02 to spec/19. An index names the copy of a repeated register or block instance. -/

namespace Sys2Proof.Machine

abbrev A.SYS_IDENT : Nat := 0x60000000
abbrev F.SYS_IDENT_LSTEP : FRef := ⟨A.SYS_IDENT, 24, 8⟩
abbrev F.SYS_IDENT_PSTEP : FRef := ⟨A.SYS_IDENT, 16, 8⟩
abbrev F.SYS_IDENT_FSTEP : FRef := ⟨A.SYS_IDENT, 8, 8⟩
abbrev F.SYS_IDENT_MSTEP : FRef := ⟨A.SYS_IDENT, 4, 4⟩
abbrev F.SYS_IDENT_MODREV : FRef := ⟨A.SYS_IDENT, 0, 4⟩
abbrev A.SYS_STATUS : Nat := 0x60000010
abbrev F.SYS_STATUS_REACHFAIL : FRef := ⟨A.SYS_STATUS, 24, 5⟩
abbrev F.SYS_STATUS_LASTRST : FRef := ⟨A.SYS_STATUS, 20, 4⟩
abbrev F.SYS_STATUS_FIELDOK : FRef := ⟨A.SYS_STATUS, 16, 1⟩
abbrev F.SYS_STATUS_PWRWARN : FRef := ⟨A.SYS_STATUS, 15, 1⟩
abbrev F.SYS_STATUS_CFGSLOT : FRef := ⟨A.SYS_STATUS, 14, 1⟩
abbrev F.SYS_STATUS_STANDBY : FRef := ⟨A.SYS_STATUS, 12, 2⟩
abbrev F.SYS_STATUS_ROTATING : FRef := ⟨A.SYS_STATUS, 11, 1⟩
abbrev F.SYS_STATUS_DRYREACH : FRef := ⟨A.SYS_STATUS, 8, 3⟩
abbrev F.SYS_STATUS_LCS : FRef := ⟨A.SYS_STATUS, 4, 3⟩
abbrev F.SYS_STATUS_FAULT : FRef := ⟨A.SYS_STATUS, 1, 1⟩
abbrev F.SYS_STATUS_READY : FRef := ⟨A.SYS_STATUS, 0, 1⟩
abbrev A.SYS_EVT : Nat := 0x60000014
abbrev F.SYS_EVT_EVSEQ : FRef := ⟨A.SYS_EVT, 24, 8⟩
abbrev F.SYS_EVT_ROLEMAP : FRef := ⟨A.SYS_EVT, 6, 1⟩
abbrev F.SYS_EVT_READY : FRef := ⟨A.SYS_EVT, 5, 1⟩
abbrev F.SYS_EVT_PWRWARN : FRef := ⟨A.SYS_EVT, 4, 1⟩
abbrev F.SYS_EVT_CLKFAIL : FRef := ⟨A.SYS_EVT, 3, 1⟩
abbrev F.SYS_EVT_PRIV : FRef := ⟨A.SYS_EVT, 2, 1⟩
abbrev F.SYS_EVT_CLAMP : FRef := ⟨A.SYS_EVT, 1, 1⟩
abbrev F.SYS_EVT_BUSERR : FRef := ⟨A.SYS_EVT, 0, 1⟩
abbrev A.SYS_EVEN : Nat := 0x60000018
abbrev F.SYS_EVEN_EN : FRef := ⟨A.SYS_EVEN, 0, 7⟩
abbrev A.SYS_CLKSTAT : Nat := 0x6000001c
abbrev F.SYS_CLKSTAT_RCHLOCK : FRef := ⟨A.SYS_CLKSTAT, 8, 5⟩
abbrev F.SYS_CLKSTAT_PCILOCK : FRef := ⟨A.SYS_CLKSTAT, 5, 1⟩
abbrev F.SYS_CLKSTAT_CANLOCK : FRef := ⟨A.SYS_CLKSTAT, 4, 1⟩
abbrev F.SYS_CLKSTAT_BTLLOCK : FRef := ⟨A.SYS_CLKSTAT, 3, 1⟩
abbrev F.SYS_CLKSTAT_BASLOCK : FRef := ⟨A.SYS_CLKSTAT, 2, 1⟩
abbrev F.SYS_CLKSTAT_TMBLOCK : FRef := ⟨A.SYS_CLKSTAT, 1, 1⟩
abbrev F.SYS_CLKSTAT_REFOK : FRef := ⟨A.SYS_CLKSTAT, 0, 1⟩
abbrev A.SYS_UID (n : Nat) : Nat := 0x60000020 + 0x4 * n
abbrev F.SYS_UID_UID (n : Nat) : FRef := ⟨A.SYS_UID n, 0, 32⟩
abbrev A.SYS_PRIVCTL : Nat := 0x60000030
abbrev F.SYS_PRIVCTL_LOCK : FRef := ⟨A.SYS_PRIVCTL, 31, 1⟩
abbrev F.SYS_PRIVCTL_FABRIC : FRef := ⟨A.SYS_PRIVCTL, 1, 1⟩
abbrev F.SYS_PRIVCTL_HOST : FRef := ⟨A.SYS_PRIVCTL, 0, 1⟩
abbrev A.SYS_PRIVCNT : Nat := 0x60000034
abbrev F.SYS_PRIVCNT_LASTID : FRef := ⟨A.SYS_PRIVCNT, 16, 6⟩
abbrev F.SYS_PRIVCNT_COUNT : FRef := ⟨A.SYS_PRIVCNT, 0, 16⟩
abbrev A.SYS_CLAMPLOG : Nat := 0x60000038
abbrev F.SYS_CLAMPLOG_BLOCK : FRef := ⟨A.SYS_CLAMPLOG, 24, 8⟩
abbrev F.SYS_CLAMPLOG_ID : FRef := ⟨A.SYS_CLAMPLOG, 16, 6⟩
abbrev F.SYS_CLAMPLOG_OFFSET : FRef := ⟨A.SYS_CLAMPLOG, 0, 14⟩
abbrev A.SYS_CLKMEAS : Nat := 0x60000040
abbrev F.SYS_CLKMEAS_COUNT : FRef := ⟨A.SYS_CLKMEAS, 8, 24⟩
abbrev F.SYS_CLKMEAS_GO : FRef := ⟨A.SYS_CLKMEAS, 4, 1⟩
abbrev F.SYS_CLKMEAS_SEL : FRef := ⟨A.SYS_CLKMEAS, 0, 4⟩
abbrev A.SYS_BUSERRPTR : Nat := 0x60000080
abbrev F.SYS_BUSERRPTR_TOTAL : FRef := ⟨A.SYS_BUSERRPTR, 16, 16⟩
abbrev F.SYS_BUSERRPTR_NEXT : FRef := ⟨A.SYS_BUSERRPTR, 0, 4⟩
abbrev A.SYS_BUSERRCTL : Nat := 0x60000084
abbrev F.SYS_BUSERRCTL_CLEAR : FRef := ⟨A.SYS_BUSERRCTL, 0, 1⟩
abbrev A.SYS_BUSERR_ADDR (n : Nat) : Nat := 0x60000100 + 0x10 * n
abbrev F.SYS_BUSERR_ADDR_ADDR (n : Nat) : FRef := ⟨A.SYS_BUSERR_ADDR n, 0, 32⟩
abbrev A.SYS_BUSERR_INFO (n : Nat) : Nat := 0x60000104 + 0x10 * n
abbrev F.SYS_BUSERR_INFO_FID (n : Nat) : FRef := ⟨A.SYS_BUSERR_INFO n, 20, 12⟩
abbrev F.SYS_BUSERR_INFO_SIZE (n : Nat) : FRef := ⟨A.SYS_BUSERR_INFO n, 11, 2⟩
abbrev F.SYS_BUSERR_INFO_WR (n : Nat) : FRef := ⟨A.SYS_BUSERR_INFO n, 10, 1⟩
abbrev F.SYS_BUSERR_INFO_ID (n : Nat) : FRef := ⟨A.SYS_BUSERR_INFO n, 4, 6⟩
abbrev F.SYS_BUSERR_INFO_CODE (n : Nat) : FRef := ⟨A.SYS_BUSERR_INFO n, 0, 4⟩
abbrev A.SYS_BUSERR_TIME (n : Nat) : Nat := 0x60000108 + 0x10 * n
abbrev A.RCH_CORE_CTL (i : Nat) (n : Nat) : Nat := 0x60101000 + 0x10000 * i + 0x20 * n
abbrev F.RCH_CORE_CTL_RESET (i : Nat) (n : Nat) : FRef := ⟨A.RCH_CORE_CTL i n, 5, 1⟩
abbrev F.RCH_CORE_CTL_ICINV (i : Nat) (n : Nat) : FRef := ⟨A.RCH_CORE_CTL i n, 4, 1⟩
abbrev F.RCH_CORE_CTL_DRAIN (i : Nat) (n : Nat) : FRef := ⟨A.RCH_CORE_CTL i n, 3, 1⟩
abbrev F.RCH_CORE_CTL_STEP (i : Nat) (n : Nat) : FRef := ⟨A.RCH_CORE_CTL i n, 2, 1⟩
abbrev F.RCH_CORE_CTL_RESUME (i : Nat) (n : Nat) : FRef := ⟨A.RCH_CORE_CTL i n, 1, 1⟩
abbrev F.RCH_CORE_CTL_HALT (i : Nat) (n : Nat) : FRef := ⟨A.RCH_CORE_CTL i n, 0, 1⟩
abbrev A.RCH_CORE_STAT (i : Nat) (n : Nat) : Nat := 0x60101004 + 0x10000 * i + 0x20 * n
abbrev F.RCH_CORE_STAT_LASTCAUSE (i : Nat) (n : Nat) : FRef := ⟨A.RCH_CORE_STAT i n, 8, 5⟩
abbrev F.RCH_CORE_STAT_IE (i : Nat) (n : Nat) : FRef := ⟨A.RCH_CORE_STAT i n, 7, 1⟩
abbrev F.RCH_CORE_STAT_SUP (i : Nat) (n : Nat) : FRef := ⟨A.RCH_CORE_STAT i n, 6, 1⟩
abbrev F.RCH_CORE_STAT_LEVEL (i : Nat) (n : Nat) : FRef := ⟨A.RCH_CORE_STAT i n, 4, 2⟩
abbrev F.RCH_CORE_STAT_STATE (i : Nat) (n : Nat) : FRef := ⟨A.RCH_CORE_STAT i n, 0, 3⟩
abbrev A.RCH_CORE_PC (i : Nat) (n : Nat) : Nat := 0x60101008 + 0x10000 * i + 0x20 * n
abbrev F.RCH_CORE_PC_PC (i : Nat) (n : Nat) : FRef := ⟨A.RCH_CORE_PC i n, 0, 32⟩
abbrev A.RCH_CORE_ITEM (i : Nat) (n : Nat) : Nat := 0x6010100c + 0x10000 * i + 0x20 * n
abbrev F.RCH_CORE_ITEM_ITEM (i : Nat) (n : Nat) : FRef := ⟨A.RCH_CORE_ITEM i n, 0, 32⟩
abbrev A.RCH_CORE_BOOT (i : Nat) (n : Nat) : Nat := 0x60101010 + 0x10000 * i + 0x20 * n
abbrev F.RCH_CORE_BOOT_ADDR (i : Nat) (n : Nat) : FRef := ⟨A.RCH_CORE_BOOT i n, 2, 30⟩
abbrev A.RCH_CORE_DFINFO (i : Nat) (n : Nat) : Nat := 0x60101014 + 0x10000 * i + 0x20 * n
abbrev F.RCH_CORE_DFINFO_SECOND (i : Nat) (n : Nat) : FRef := ⟨A.RCH_CORE_DFINFO i n, 16, 5⟩
abbrev F.RCH_CORE_DFINFO_FIRST (i : Nat) (n : Nat) : FRef := ⟨A.RCH_CORE_DFINFO i n, 8, 5⟩
abbrev A.RCH_CORE_CYC (i : Nat) (n : Nat) : Nat := 0x60101018 + 0x10000 * i + 0x20 * n
abbrev A.RCH_CORE_EVT (i : Nat) : Nat := 0x60101100 + 0x10000 * i
abbrev F.RCH_CORE_EVT_EVSEQ (i : Nat) : FRef := ⟨A.RCH_CORE_EVT i, 24, 8⟩
abbrev F.RCH_CORE_EVT_ICPAR (i : Nat) : FRef := ⟨A.RCH_CORE_EVT i, 8, 8⟩
abbrev F.RCH_CORE_EVT_DFAULT (i : Nat) : FRef := ⟨A.RCH_CORE_EVT i, 0, 8⟩
abbrev A.RCH_CORE_EVEN (i : Nat) : Nat := 0x60101104 + 0x10000 * i
abbrev F.RCH_CORE_EVEN_EN (i : Nat) : FRef := ⟨A.RCH_CORE_EVEN i, 0, 16⟩
abbrev A.RCH_CORE_ICPCNT (i : Nat) : Nat := 0x60101108 + 0x10000 * i
abbrev F.RCH_CORE_ICPCNT_COUNT (i : Nat) : FRef := ⟨A.RCH_CORE_ICPCNT i, 0, 16⟩
abbrev A.SCN_CTL : Nat := 0x60030000
abbrev F.SCN_CTL_AUTORUN : FRef := ⟨A.SCN_CTL, 0, 1⟩
abbrev A.SCN_STATUS : Nat := 0x60030004
abbrev F.SCN_STATUS_STOPCAUSE : FRef := ⟨A.SCN_STATUS, 24, 4⟩
abbrev F.SCN_STATUS_TASKV : FRef := ⟨A.SCN_STATUS, 21, 1⟩
abbrev F.SCN_STATUS_STOPTASK : FRef := ⟨A.SCN_STATUS, 16, 5⟩
abbrev F.SCN_STATUS_EDSTAT : FRef := ⟨A.SCN_STATUS, 8, 2⟩
abbrev F.SCN_STATUS_FORCED : FRef := ⟨A.SCN_STATUS, 5, 1⟩
abbrev F.SCN_STATUS_RETBUSY : FRef := ⟨A.SCN_STATUS, 4, 1⟩
abbrev F.SCN_STATUS_CSTATE : FRef := ⟨A.SCN_STATUS, 0, 2⟩
abbrev A.SCN_EVT : Nat := 0x60030008
abbrev F.SCN_EVT_EVSEQ : FRef := ⟨A.SCN_EVT, 24, 8⟩
abbrev F.SCN_EVT_RETBAD : FRef := ⟨A.SCN_EVT, 5, 1⟩
abbrev F.SCN_EVT_EDIT : FRef := ⟨A.SCN_EVT, 4, 1⟩
abbrev F.SCN_EVT_FORCE : FRef := ⟨A.SCN_EVT, 3, 1⟩
abbrev F.SCN_EVT_LOST : FRef := ⟨A.SCN_EVT, 2, 1⟩
abbrev F.SCN_EVT_LATE : FRef := ⟨A.SCN_EVT, 1, 1⟩
abbrev F.SCN_EVT_STOP : FRef := ⟨A.SCN_EVT, 0, 1⟩
abbrev A.SCN_EVEN : Nat := 0x6003000c
abbrev F.SCN_EVEN_EN : FRef := ⟨A.SCN_EVEN, 0, 6⟩
abbrev A.SCN_CMD : Nat := 0x60030010
abbrev F.SCN_CMD_COLD : FRef := ⟨A.SCN_CMD, 2, 1⟩
abbrev F.SCN_CMD_WARM : FRef := ⟨A.SCN_CMD, 1, 1⟩
abbrev F.SCN_CMD_STOP : FRef := ⟨A.SCN_CMD, 0, 1⟩
abbrev A.SCN_WDCTL : Nat := 0x60030014
abbrev F.SCN_WDCTL_ABORTTMO : FRef := ⟨A.SCN_WDCTL, 8, 16⟩
abbrev F.SCN_WDCTL_LATEMAX : FRef := ⟨A.SCN_WDCTL, 0, 2⟩
abbrev A.SCN_EPOCH : Nat := 0x60030018
abbrev A.SCN_FORCECMD : Nat := 0x60030020
abbrev F.SCN_FORCECMD_GO : FRef := ⟨A.SCN_FORCECMD, 31, 1⟩
abbrev F.SCN_FORCECMD_OP : FRef := ⟨A.SCN_FORCECMD, 29, 2⟩
abbrev F.SCN_FORCECMD_AREA : FRef := ⟨A.SCN_FORCECMD, 28, 1⟩
abbrev F.SCN_FORCECMD_RESULT : FRef := ⟨A.SCN_FORCECMD, 26, 2⟩
abbrev F.SCN_FORCECMD_OFFSET : FRef := ⟨A.SCN_FORCECMD, 0, 17⟩
abbrev A.SCN_FORCEARG : Nat := 0x60030024
abbrev F.SCN_FORCEARG_MASK : FRef := ⟨A.SCN_FORCEARG, 8, 8⟩
abbrev F.SCN_FORCEARG_VALUE : FRef := ⟨A.SCN_FORCEARG, 0, 8⟩
abbrev A.SCN_FORCELIST : Nat := 0x60030028
abbrev F.SCN_FORCELIST_ADDR : FRef := ⟨A.SCN_FORCELIST, 3, 29⟩
abbrev A.SCN_FORCEIN : Nat := 0x6003002c
abbrev F.SCN_FORCEIN_COUNT : FRef := ⟨A.SCN_FORCEIN, 0, 21⟩
abbrev A.SCN_FORCEOUT : Nat := 0x60030030
abbrev F.SCN_FORCEOUT_COUNT : FRef := ⟨A.SCN_FORCEOUT, 0, 21⟩
abbrev A.SCN_FORCECTL : Nat := 0x60030034
abbrev F.SCN_FORCECTL_LOCK : FRef := ⟨A.SCN_FORCECTL, 31, 1⟩
abbrev F.SCN_FORCECTL_SAFEEN : FRef := ⟨A.SCN_FORCECTL, 0, 1⟩
abbrev A.SCN_EDITCTL : Nat := 0x60030038
abbrev F.SCN_EDITCTL_TASK : FRef := ⟨A.SCN_EDITCTL, 8, 5⟩
abbrev F.SCN_EDITCTL_ABORT : FRef := ⟨A.SCN_EDITCTL, 4, 1⟩
abbrev F.SCN_EDITCTL_ARM : FRef := ⟨A.SCN_EDITCTL, 3, 1⟩
abbrev F.SCN_EDITCTL_OPEN : FRef := ⟨A.SCN_EDITCTL, 2, 1⟩
abbrev F.SCN_EDITCTL_EDSTAT : FRef := ⟨A.SCN_EDITCTL, 0, 2⟩
abbrev A.SCN_EDITCYC : Nat := 0x6003003c
abbrev F.SCN_EDITCYC_CYC : FRef := ⟨A.SCN_EDITCYC, 0, 32⟩
abbrev A.SCN_SEGBASE : Nat := 0x60030040
abbrev F.SCN_SEGBASE_BASE : FRef := ⟨A.SCN_SEGBASE, 4, 16⟩
abbrev A.SCN_STOPTIME : Nat := 0x60030048
abbrev A.SCN_TASK_CTL (n : Nat) : Nat := 0x60030400 + 0x40 * n
abbrev F.SCN_TASK_CTL_EN (n : Nat) : FRef := ⟨A.SCN_TASK_CTL n, 31, 1⟩
abbrev F.SCN_TASK_CTL_DUPLEX (n : Nat) : FRef := ⟨A.SCN_TASK_CTL n, 29, 1⟩
abbrev F.SCN_TASK_CTL_STOPLOSS (n : Nat) : FRef := ⟨A.SCN_TASK_CTL n, 28, 1⟩
abbrev F.SCN_TASK_CTL_ROLE0 (n : Nat) : FRef := ⟨A.SCN_TASK_CTL n, 26, 2⟩
abbrev F.SCN_TASK_CTL_ROLE1 (n : Nat) : FRef := ⟨A.SCN_TASK_CTL n, 24, 2⟩
abbrev F.SCN_TASK_CTL_TMBUNIT (n : Nat) : FRef := ⟨A.SCN_TASK_CTL n, 19, 5⟩
abbrev F.SCN_TASK_CTL_RETPER (n : Nat) : FRef := ⟨A.SCN_TASK_CTL n, 16, 3⟩
abbrev F.SCN_TASK_CTL_TRIG (n : Nat) : FRef := ⟨A.SCN_TASK_CTL n, 0, 12⟩
abbrev A.SCN_TASK_PERIOD (n : Nat) : Nat := 0x60030404 + 0x40 * n
abbrev F.SCN_TASK_PERIOD_PERIOD (n : Nat) : FRef := ⟨A.SCN_TASK_PERIOD n, 0, 25⟩
abbrev A.SCN_TASK_PHASE (n : Nat) : Nat := 0x60030408 + 0x40 * n
abbrev F.SCN_TASK_PHASE_PHASE (n : Nat) : FRef := ⟨A.SCN_TASK_PHASE n, 0, 24⟩
abbrev A.SCN_TASK_DL (n : Nat) : Nat := 0x6003040c + 0x40 * n
abbrev F.SCN_TASK_DL_COMMITDL (n : Nat) : FRef := ⟨A.SCN_TASK_DL n, 0, 24⟩
abbrev A.SCN_TASK_TCW (n : Nat) : Nat := 0x60030410 + 0x40 * n
abbrev F.SCN_TASK_TCW_TCW (n : Nat) : FRef := ⟨A.SCN_TASK_TCW n, 0, 16⟩
abbrev A.SCN_TASK_SNAP (n : Nat) : Nat := 0x60030414 + 0x40 * n
abbrev F.SCN_TASK_SNAP_COUNT (n : Nat) : FRef := ⟨A.SCN_TASK_SNAP n, 16, 11⟩
abbrev F.SCN_TASK_SNAP_FIRST (n : Nat) : FRef := ⟨A.SCN_TASK_SNAP n, 0, 10⟩
abbrev A.SCN_TASK_CMAP (n : Nat) : Nat := 0x60030418 + 0x40 * n
abbrev F.SCN_TASK_CMAP_COUNT (n : Nat) : FRef := ⟨A.SCN_TASK_CMAP n, 16, 11⟩
abbrev F.SCN_TASK_CMAP_FIRST (n : Nat) : FRef := ⟨A.SCN_TASK_CMAP n, 0, 10⟩
abbrev A.SCN_TASK_SEG (n : Nat) : Nat := 0x6003041c + 0x40 * n
abbrev F.SCN_TASK_SEG_COUNT (n : Nat) : FRef := ⟨A.SCN_TASK_SEG n, 16, 15⟩
abbrev F.SCN_TASK_SEG_FIRST (n : Nat) : FRef := ⟨A.SCN_TASK_SEG n, 0, 14⟩
abbrev A.SCN_TASK_CTX (n : Nat) : Nat := 0x60030420 + 0x40 * n
abbrev F.SCN_TASK_CTX_LINE (n : Nat) : FRef := ⟨A.SCN_TASK_CTX n, 6, 14⟩
abbrev A.SCN_TASK_CYCNO (n : Nat) : Nat := 0x60030424 + 0x40 * n
abbrev F.SCN_TASK_CYCNO_CYCNO (n : Nat) : FRef := ⟨A.SCN_TASK_CYCNO n, 0, 32⟩
abbrev A.SCN_TASK_LATCHT (n : Nat) : Nat := 0x60030428 + 0x40 * n
abbrev A.SCN_TASK_RUNMAX (n : Nat) : Nat := 0x60030430 + 0x40 * n
abbrev F.SCN_TASK_RUNMAX_NS (n : Nat) : FRef := ⟨A.SCN_TASK_RUNMAX n, 0, 32⟩
abbrev A.SCN_TASK_SLACK (n : Nat) : Nat := 0x60030434 + 0x40 * n
abbrev F.SCN_TASK_SLACK_NS (n : Nat) : FRef := ⟨A.SCN_TASK_SLACK n, 0, 32⟩
abbrev A.SCN_TASK_TSTAT (n : Nat) : Nat := 0x60030438 + 0x40 * n
abbrev F.SCN_TASK_TSTAT_LATECNT (n : Nat) : FRef := ⟨A.SCN_TASK_TSTAT n, 16, 8⟩
abbrev F.SCN_TASK_TSTAT_STATE (n : Nat) : FRef := ⟨A.SCN_TASK_TSTAT n, 0, 3⟩
abbrev A.SCN_TASK_LOST (n : Nat) : Nat := 0x6003043c + 0x40 * n
abbrev F.SCN_TASK_LOST_COUNT (n : Nat) : FRef := ⟨A.SCN_TASK_LOST n, 0, 16⟩
abbrev A.LKH_ROLEMAP : Nat := 0x60010000
abbrev F.LKH_ROLEMAP_GEN : FRef := ⟨A.LKH_ROLEMAP, 24, 8⟩
abbrev F.LKH_ROLEMAP_SPARE : FRef := ⟨A.LKH_ROLEMAP, 16, 3⟩
abbrev F.LKH_ROLEMAP_RD : FRef := ⟨A.LKH_ROLEMAP, 12, 3⟩
abbrev F.LKH_ROLEMAP_RC : FRef := ⟨A.LKH_ROLEMAP, 8, 3⟩
abbrev F.LKH_ROLEMAP_RB : FRef := ⟨A.LKH_ROLEMAP, 4, 3⟩
abbrev F.LKH_ROLEMAP_RA : FRef := ⟨A.LKH_ROLEMAP, 0, 3⟩
abbrev A.LKH_REACHST : Nat := 0x60010004
abbrev F.LKH_REACHST_SUSPECT : FRef := ⟨A.LKH_REACHST, 16, 5⟩
abbrev F.LKH_REACHST_STATE : FRef := ⟨A.LKH_REACHST, 0, 15⟩
abbrev A.LKH_ROTCTL : Nat := 0x60010008
abbrev F.LKH_ROTCTL_EN : FRef := ⟨A.LKH_ROTCTL, 31, 1⟩
abbrev F.LKH_ROTCTL_DELTAMAX : FRef := ⟨A.LKH_ROTCTL, 16, 11⟩
abbrev F.LKH_ROTCTL_DRAINTMO : FRef := ⟨A.LKH_ROTCTL, 8, 8⟩
abbrev F.LKH_ROTCTL_ROTLATE : FRef := ⟨A.LKH_ROTCTL, 0, 8⟩
abbrev A.LKH_ROTSTAT : Nat := 0x6001000c
abbrev F.LKH_ROTSTAT_DEFERS : FRef := ⟨A.LKH_ROTSTAT, 24, 8⟩
abbrev F.LKH_ROTSTAT_DIRTY : FRef := ⟨A.LKH_ROTSTAT, 10, 14⟩
abbrev F.LKH_ROTSTAT_ROLE : FRef := ⟨A.LKH_ROTSTAT, 8, 2⟩
abbrev F.LKH_ROTSTAT_PHASE : FRef := ⟨A.LKH_ROTSTAT, 0, 4⟩
abbrev A.LKH_EVT : Nat := 0x60010010
abbrev F.LKH_EVT_EVSEQ : FRef := ⟨A.LKH_EVT, 24, 8⟩
abbrev F.LKH_EVT_SPLIT : FRef := ⟨A.LKH_EVT, 12, 1⟩
abbrev F.LKH_EVT_SBYMSG : FRef := ⟨A.LKH_EVT, 11, 1⟩
abbrev F.LKH_EVT_DIVERGE : FRef := ⟨A.LKH_EVT, 10, 1⟩
abbrev F.LKH_EVT_TAKEOVER : FRef := ⟨A.LKH_EVT, 9, 1⟩
abbrev F.LKH_EVT_SBYSTATE : FRef := ⟨A.LKH_EVT, 8, 1⟩
abbrev F.LKH_EVT_FWSWITCH : FRef := ⟨A.LKH_EVT, 7, 1⟩
abbrev F.LKH_EVT_FWREADY : FRef := ⟨A.LKH_EVT, 6, 1⟩
abbrev F.LKH_EVT_MISMATCH : FRef := ⟨A.LKH_EVT, 5, 1⟩
abbrev F.LKH_EVT_TESTFAIL : FRef := ⟨A.LKH_EVT, 4, 1⟩
abbrev F.LKH_EVT_LATENT : FRef := ⟨A.LKH_EVT, 3, 1⟩
abbrev F.LKH_EVT_ROTLATE : FRef := ⟨A.LKH_EVT, 2, 1⟩
abbrev F.LKH_EVT_DEFER : FRef := ⟨A.LKH_EVT, 1, 1⟩
abbrev F.LKH_EVT_HANDOVER : FRef := ⟨A.LKH_EVT, 0, 1⟩
abbrev A.LKH_EVEN : Nat := 0x60010014
abbrev F.LKH_EVEN_EN : FRef := ⟨A.LKH_EVEN, 0, 13⟩
abbrev A.LKH_NEXTH : Nat := 0x60010018
abbrev A.LKH_LASTH : Nat := 0x60010020
abbrev F.LKH_LASTH_LINES : FRef := ⟨A.LKH_LASTH, 16, 16⟩
abbrev F.LKH_LASTH_WIN : FRef := ⟨A.LKH_LASTH, 0, 16⟩
abbrev A.LKH_TESTOLD : Nat := 0x60010024
abbrev F.LKH_TESTOLD_REACH : FRef := ⟨A.LKH_TESTOLD, 29, 3⟩
abbrev F.LKH_TESTOLD_AGE : FRef := ⟨A.LKH_TESTOLD, 0, 21⟩
abbrev A.LKH_MMINFO : Nat := 0x60010030
abbrev F.LKH_MMINFO_RET : FRef := ⟨A.LKH_MMINFO, 27, 1⟩
abbrev F.LKH_MMINFO_REACH1 : FRef := ⟨A.LKH_MMINFO, 24, 3⟩
abbrev F.LKH_MMINFO_REACH0 : FRef := ⟨A.LKH_MMINFO, 20, 3⟩
abbrev F.LKH_MMINFO_ROLE1 : FRef := ⟨A.LKH_MMINFO, 18, 2⟩
abbrev F.LKH_MMINFO_ROLE0 : FRef := ⟨A.LKH_MMINFO, 16, 2⟩
abbrev F.LKH_MMINFO_TASK : FRef := ⟨A.LKH_MMINFO, 0, 5⟩
abbrev A.LKH_MMADDR : Nat := 0x60010034
abbrev F.LKH_MMADDR_OFFSET : FRef := ⟨A.LKH_MMADDR, 0, 21⟩
abbrev A.LKH_MMDATA : Nat := 0x60010038
abbrev F.LKH_MMDATA_BYTE0 : FRef := ⟨A.LKH_MMDATA, 8, 8⟩
abbrev F.LKH_MMDATA_BYTE1 : FRef := ⟨A.LKH_MMDATA, 0, 8⟩
abbrev A.LKH_MMCNT : Nat := 0x6001003c
abbrev F.LKH_MMCNT_COUNT : FRef := ⟨A.LKH_MMCNT, 0, 16⟩
abbrev A.LKH_FWCTL : Nat := 0x60010080
abbrev F.LKH_FWCTL_SRC : FRef := ⟨A.LKH_FWCTL, 8, 1⟩
abbrev F.LKH_FWCTL_ABORT : FRef := ⟨A.LKH_FWCTL, 2, 1⟩
abbrev F.LKH_FWCTL_SWITCH : FRef := ⟨A.LKH_FWCTL, 1, 1⟩
abbrev F.LKH_FWCTL_STAGE : FRef := ⟨A.LKH_FWCTL, 0, 1⟩
abbrev A.LKH_FWVER : Nat := 0x60010084
abbrev F.LKH_FWVER_ACTIVE : FRef := ⟨A.LKH_FWVER, 16, 16⟩
abbrev F.LKH_FWVER_STAGED : FRef := ⟨A.LKH_FWVER, 0, 16⟩
abbrev A.LKH_FWSTAT : Nat := 0x60010088
abbrev F.LKH_FWSTAT_LOADED : FRef := ⟨A.LKH_FWSTAT, 8, 5⟩
abbrev F.LKH_FWSTAT_SWDONE : FRef := ⟨A.LKH_FWSTAT, 4, 4⟩
abbrev F.LKH_FWSTAT_STATE : FRef := ⟨A.LKH_FWSTAT, 0, 2⟩
abbrev A.LKH_SBYCTL : Nat := 0x60010100
abbrev F.LKH_SBYCTL_PREF : FRef := ⟨A.LKH_SBYCTL, 8, 1⟩
abbrev F.LKH_SBYCTL_LINKS : FRef := ⟨A.LKH_SBYCTL, 4, 4⟩
abbrev F.LKH_SBYCTL_SWAP : FRef := ⟨A.LKH_SBYCTL, 3, 1⟩
abbrev F.LKH_SBYCTL_JOIN : FRef := ⟨A.LKH_SBYCTL, 1, 1⟩
abbrev F.LKH_SBYCTL_EN : FRef := ⟨A.LKH_SBYCTL, 0, 1⟩
abbrev A.LKH_SBYSTAT : Nat := 0x60010104
abbrev F.LKH_SBYSTAT_PRIMEPOCH : FRef := ⟨A.LKH_SBYSTAT, 16, 16⟩
abbrev F.LKH_SBYSTAT_PEERSTATE : FRef := ⟨A.LKH_SBYSTAT, 4, 3⟩
abbrev F.LKH_SBYSTAT_STATE : FRef := ⟨A.LKH_SBYSTAT, 0, 3⟩
abbrev A.LKH_SBYPEER : Nat := 0x60010108
abbrev F.LKH_SBYPEER_PEERID : FRef := ⟨A.LKH_SBYPEER, 0, 12⟩
abbrev A.LKH_SBYTIME : Nat := 0x6001010c
abbrev F.LKH_SBYTIME_HBPER : FRef := ⟨A.LKH_SBYTIME, 24, 8⟩
abbrev F.LKH_SBYTIME_HBTMO : FRef := ⟨A.LKH_SBYTIME, 16, 8⟩
abbrev F.LKH_SBYTIME_SBYDLY : FRef := ⟨A.LKH_SBYTIME, 8, 8⟩
abbrev A.LKH_SBYSWO : Nat := 0x60010110
abbrev F.LKH_SBYSWO_CAUSE : FRef := ⟨A.LKH_SBYSWO, 1, 9⟩
abbrev A.LKH_SBYMASK : Nat := 0x60010114
abbrev F.LKH_SBYMASK_TASKS : FRef := ⟨A.LKH_SBYMASK, 0, 32⟩
abbrev A.LKH_SBYERR : Nat := 0x60010118
abbrev F.LKH_SBYERR_BADMSG : FRef := ⟨A.LKH_SBYERR, 16, 16⟩
abbrev F.LKH_SBYERR_LOSTMSG : FRef := ⟨A.LKH_SBYERR, 0, 16⟩
abbrev A.LKH_SBYSWT : Nat := 0x60010120
abbrev A.LKP_CTL : Nat := 0x60020000
abbrev F.LKP_CTL_GENMAX : FRef := ⟨A.LKP_CTL, 16, 13⟩
abbrev A.LKP_STATUS : Nat := 0x60020004
abbrev F.LKP_STATUS_LIVE : FRef := ⟨A.LKP_STATUS, 16, 13⟩
abbrev F.LKP_STATUS_DLYUSED : FRef := ⟨A.LKP_STATUS, 0, 11⟩
abbrev A.LKP_EVT : Nat := 0x60020008
abbrev F.LKP_EVT_EVSEQ : FRef := ⟨A.LKP_EVT, 24, 8⟩
abbrev F.LKP_EVT_TRCDROP : FRef := ⟨A.LKP_EVT, 6, 1⟩
abbrev F.LKP_EVT_STARVE : FRef := ⟨A.LKP_EVT, 5, 1⟩
abbrev F.LKP_EVT_LOST : FRef := ⟨A.LKP_EVT, 4, 1⟩
abbrev F.LKP_EVT_DLYLATE : FRef := ⟨A.LKP_EVT, 3, 1⟩
abbrev F.LKP_EVT_DLYFULL : FRef := ⟨A.LKP_EVT, 2, 1⟩
abbrev F.LKP_EVT_OVFL : FRef := ⟨A.LKP_EVT, 1, 1⟩
abbrev F.LKP_EVT_BADTOK : FRef := ⟨A.LKP_EVT, 0, 1⟩
abbrev A.LKP_EVEN : Nat := 0x6002000c
abbrev F.LKP_EVEN_EN : FRef := ⟨A.LKP_EVEN, 0, 7⟩
abbrev A.LKP_BADTOK : Nat := 0x60020010
abbrev F.LKP_BADTOK_COUNT : FRef := ⟨A.LKP_BADTOK, 16, 16⟩
abbrev F.LKP_BADTOK_HW : FRef := ⟨A.LKP_BADTOK, 15, 1⟩
abbrev F.LKP_BADTOK_SRC : FRef := ⟨A.LKP_BADTOK, 0, 10⟩
abbrev A.LKP_BADDST : Nat := 0x60020014
abbrev F.LKP_BADDST_DST : FRef := ⟨A.LKP_BADDST, 0, 32⟩
abbrev A.LKP_HWM : Nat := 0x60020018
abbrev F.LKP_HWM_LIVEMAX : FRef := ⟨A.LKP_HWM, 16, 13⟩
abbrev F.LKP_HWM_DLYMAX : FRef := ⟨A.LKP_HWM, 0, 11⟩
abbrev A.LKP_LOST : Nat := 0x6002001c
abbrev F.LKP_LOST_COUNT : FRef := ⟨A.LKP_LOST, 0, 16⟩
abbrev A.LKP_ITEMBASE : Nat := 0x60020020
abbrev F.LKP_ITEMBASE_BANK : FRef := ⟨A.LKP_ITEMBASE, 16, 4⟩
abbrev A.LKP_SEGMASK : Nat := 0x60020024
abbrev F.LKP_SEGMASK_BASE : FRef := ⟨A.LKP_SEGMASK, 14, 6⟩
abbrev A.LKP_DLYCMD : Nat := 0x60020028
abbrev F.LKP_DLYCMD_GO : FRef := ⟨A.LKP_DLYCMD, 31, 1⟩
abbrev F.LKP_DLYCMD_CANCELLED : FRef := ⟨A.LKP_DLYCMD, 0, 11⟩
abbrev A.LKP_DLYDST : Nat := 0x6002002c
abbrev F.LKP_DLYDST_DST : FRef := ⟨A.LKP_DLYDST, 0, 32⟩
abbrev A.LKP_SWSRC : Nat := 0x60020030
abbrev F.LKP_SWSRC_RAISE : FRef := ⟨A.LKP_SWSRC, 0, 16⟩
abbrev A.LKP_GRP_CFG (n : Nat) : Nat := 0x60020100 + 0x4 * n
abbrev F.LKP_GRP_CFG_PREEMPT (n : Nat) : FRef := ⟨A.LKP_GRP_CFG n, 31, 1⟩
abbrev F.LKP_GRP_CFG_PRIO (n : Nat) : FRef := ⟨A.LKP_GRP_CFG n, 24, 2⟩
abbrev F.LKP_GRP_CFG_WEIGHT (n : Nat) : FRef := ⟨A.LKP_GRP_CFG n, 16, 8⟩
abbrev F.LKP_GRP_CFG_STARVE (n : Nat) : FRef := ⟨A.LKP_GRP_CFG n, 0, 8⟩
abbrev A.LKP_GRP_STAT (n : Nat) : Nat := 0x60020140 + 0x4 * n
abbrev F.LKP_GRP_STAT_STARVED (n : Nat) : FRef := ⟨A.LKP_GRP_STAT n, 16, 16⟩
abbrev F.LKP_GRP_STAT_READY (n : Nat) : FRef := ⟨A.LKP_GRP_STAT n, 0, 13⟩
abbrev A.LKP_SEGGRP (n : Nat) : Nat := 0x60020180 + 0x4 * n
abbrev F.LKP_SEGGRP_GRP (n : Nat) : FRef := ⟨A.LKP_SEGGRP n, 0, 32⟩
abbrev A.LKP_TRCCTL : Nat := 0x60020200
abbrev F.LKP_TRCCTL_EN : FRef := ⟨A.LKP_TRCCTL, 31, 1⟩
abbrev F.LKP_TRCCTL_STOP : FRef := ⟨A.LKP_TRCCTL, 30, 1⟩
abbrev F.LKP_TRCCTL_ROLES : FRef := ⟨A.LKP_TRCCTL, 25, 4⟩
abbrev F.LKP_TRCCTL_KINDS : FRef := ⟨A.LKP_TRCCTL, 16, 9⟩
abbrev F.LKP_TRCCTL_GROUPS : FRef := ⟨A.LKP_TRCCTL, 0, 16⟩
abbrev A.LKP_TRCRING : Nat := 0x60020204
abbrev F.LKP_TRCRING_SIZE : FRef := ⟨A.LKP_TRCRING, 28, 4⟩
abbrev F.LKP_TRCRING_BASE : FRef := ⟨A.LKP_TRCRING, 4, 16⟩
abbrev A.LKP_TRCWR (n : Nat) : Nat := 0x60020210 + 0x4 * n
abbrev F.LKP_TRCWR_INDEX (n : Nat) : FRef := ⟨A.LKP_TRCWR n, 0, 16⟩
abbrev A.LKP_TRCRD (n : Nat) : Nat := 0x60020220 + 0x4 * n
abbrev F.LKP_TRCRD_INDEX (n : Nat) : FRef := ⟨A.LKP_TRCRD n, 0, 16⟩
abbrev A.LKP_TRCDROP : Nat := 0x60020230
abbrev F.LKP_TRCDROP_COUNT : FRef := ⟨A.LKP_TRCDROP, 0, 16⟩
abbrev A.LKP_PEND (n : Nat) : Nat := 0x60020400 + 0x4 * n
abbrev F.LKP_PEND_PEND (n : Nat) : FRef := ⟨A.LKP_PEND n, 0, 32⟩
abbrev A.LKP_ROUTE (n : Nat) : Nat := 0x60021000 + 0x4 * n
abbrev F.LKP_ROUTE_EN (n : Nat) : FRef := ⟨A.LKP_ROUTE n, 23, 1⟩
abbrev F.LKP_ROUTE_ROLE (n : Nat) : FRef := ⟨A.LKP_ROUTE n, 14, 2⟩
abbrev F.LKP_ROUTE_SLOT (n : Nat) : FRef := ⟨A.LKP_ROUTE n, 11, 3⟩
abbrev F.LKP_ROUTE_INDEX (n : Nat) : FRef := ⟨A.LKP_ROUTE n, 0, 11⟩
abbrev A.RCH_GATE (i : Nat) (n : Nat) : Nat := 0x60100000 + 0x10000 * i + 0x4 * n
abbrev F.RCH_GATE_GEN (i : Nat) (n : Nat) : FRef := ⟨A.RCH_GATE i n, 24, 8⟩
abbrev F.RCH_GATE_GUESTEN (i : Nat) (n : Nat) : FRef := ⟨A.RCH_GATE i n, 23, 1⟩
abbrev F.RCH_GATE_GUEST (i : Nat) (n : Nat) : FRef := ⟨A.RCH_GATE i n, 16, 6⟩
abbrev F.RCH_GATE_MODE (i : Nat) (n : Nat) : FRef := ⟨A.RCH_GATE i n, 8, 2⟩
abbrev F.RCH_GATE_OWNER (i : Nat) (n : Nat) : FRef := ⟨A.RCH_GATE i n, 0, 6⟩
abbrev A.RCH_CW (i : Nat) (n : Nat) : Nat := 0x60100100 + 0x10000 * i + 0x4 * n
abbrev F.RCH_CW_EN (i : Nat) (n : Nat) : FRef := ⟨A.RCH_CW i n, 31, 1⟩
abbrev F.RCH_CW_SIZE (i : Nat) (n : Nat) : FRef := ⟨A.RCH_CW i n, 20, 4⟩
abbrev F.RCH_CW_BASE (i : Nat) (n : Nat) : FRef := ⟨A.RCH_CW i n, 6, 14⟩
abbrev A.RCH_DMA_RING (i : Nat) : Nat := 0x60100200 + 0x10000 * i
abbrev F.RCH_DMA_RING_SIZE (i : Nat) : FRef := ⟨A.RCH_DMA_RING i, 28, 4⟩
abbrev F.RCH_DMA_RING_BASE (i : Nat) : FRef := ⟨A.RCH_DMA_RING i, 4, 16⟩
abbrev A.RCH_DMA_TAIL (i : Nat) : Nat := 0x60100204 + 0x10000 * i
abbrev F.RCH_DMA_TAIL_TAIL (i : Nat) : FRef := ⟨A.RCH_DMA_TAIL i, 0, 12⟩
abbrev A.RCH_DMA_STAT (i : Nat) : Nat := 0x60100208 + 0x10000 * i
abbrev F.RCH_DMA_STAT_CODE (i : Nat) : FRef := ⟨A.RCH_DMA_STAT i, 28, 4⟩
abbrev F.RCH_DMA_STAT_STATE (i : Nat) : FRef := ⟨A.RCH_DMA_STAT i, 24, 2⟩
abbrev F.RCH_DMA_STAT_HEAD (i : Nat) : FRef := ⟨A.RCH_DMA_STAT i, 0, 12⟩
abbrev A.RCH_DMA_CTL (i : Nat) : Nat := 0x6010020c + 0x10000 * i
abbrev F.RCH_DMA_CTL_STOP (i : Nat) : FRef := ⟨A.RCH_DMA_CTL i, 1, 1⟩
abbrev F.RCH_DMA_CTL_RESUME (i : Nat) : FRef := ⟨A.RCH_DMA_CTL i, 0, 1⟩
abbrev A.RCH_DMA_TOK (i : Nat) : Nat := 0x60100210 + 0x10000 * i
abbrev F.RCH_DMA_TOK_DST (i : Nat) : FRef := ⟨A.RCH_DMA_TOK i, 0, 32⟩
abbrev A.RCH_PWR (i : Nat) : Nat := 0x60100060 + 0x10000 * i
abbrev F.RCH_PWR_PSTATE (i : Nat) : FRef := ⟨A.RCH_PWR i, 2, 2⟩
abbrev F.RCH_PWR_WAKE (i : Nat) : FRef := ⟨A.RCH_PWR i, 1, 1⟩
abbrev F.RCH_PWR_PARK (i : Nat) : FRef := ⟨A.RCH_PWR i, 0, 1⟩
abbrev A.RCH_MEM_EVT (i : Nat) : Nat := 0x60100040 + 0x10000 * i
abbrev F.RCH_MEM_EVT_EVSEQ (i : Nat) : FRef := ⟨A.RCH_MEM_EVT i, 24, 8⟩
abbrev F.RCH_MEM_EVT_WAKE (i : Nat) : FRef := ⟨A.RCH_MEM_EVT i, 4, 1⟩
abbrev F.RCH_MEM_EVT_PARKREF (i : Nat) : FRef := ⟨A.RCH_MEM_EVT i, 3, 1⟩
abbrev F.RCH_MEM_EVT_DMAERR (i : Nat) : FRef := ⟨A.RCH_MEM_EVT i, 2, 1⟩
abbrev F.RCH_MEM_EVT_UE (i : Nat) : FRef := ⟨A.RCH_MEM_EVT i, 1, 1⟩
abbrev F.RCH_MEM_EVT_CE (i : Nat) : FRef := ⟨A.RCH_MEM_EVT i, 0, 1⟩
abbrev A.RCH_MEM_EVEN (i : Nat) : Nat := 0x60100044 + 0x10000 * i
abbrev F.RCH_MEM_EVEN_EN (i : Nat) : FRef := ⟨A.RCH_MEM_EVEN i, 0, 5⟩
abbrev A.RCH_ECCCNT (i : Nat) : Nat := 0x60100048 + 0x10000 * i
abbrev F.RCH_ECCCNT_UE (i : Nat) : FRef := ⟨A.RCH_ECCCNT i, 16, 16⟩
abbrev F.RCH_ECCCNT_CE (i : Nat) : FRef := ⟨A.RCH_ECCCNT i, 0, 16⟩
abbrev A.RCH_ECCLOG (i : Nat) : Nat := 0x6010004c + 0x10000 * i
abbrev F.RCH_ECCLOG_UE (i : Nat) : FRef := ⟨A.RCH_ECCLOG i, 31, 1⟩
abbrev F.RCH_ECCLOG_SCRUB (i : Nat) : FRef := ⟨A.RCH_ECCLOG i, 30, 1⟩
abbrev F.RCH_ECCLOG_ID (i : Nat) : FRef := ⟨A.RCH_ECCLOG i, 20, 6⟩
abbrev F.RCH_ECCLOG_WORD (i : Nat) : FRef := ⟨A.RCH_ECCLOG i, 3, 17⟩
abbrev A.MBX_EVT : Nat := 0x60040000
abbrev F.MBX_EVT_EVSEQ : FRef := ⟨A.MBX_EVT, 24, 8⟩
abbrev F.MBX_EVT_EPOCH : FRef := ⟨A.MBX_EVT, 4, 1⟩
abbrev F.MBX_EVT_UE : FRef := ⟨A.MBX_EVT, 3, 1⟩
abbrev F.MBX_EVT_CE : FRef := ⟨A.MBX_EVT, 2, 1⟩
abbrev F.MBX_EVT_CLEARED : FRef := ⟨A.MBX_EVT, 1, 1⟩
abbrev F.MBX_EVT_FULL : FRef := ⟨A.MBX_EVT, 0, 1⟩
abbrev A.MBX_EVEN : Nat := 0x60040004
abbrev F.MBX_EVEN_EN : FRef := ⟨A.MBX_EVEN, 0, 5⟩
abbrev A.MBX_REPOCH (n : Nat) : Nat := 0x60040020 + 0x4 * n
abbrev F.MBX_REPOCH_BUMP (n : Nat) : FRef := ⟨A.MBX_REPOCH n, 16, 1⟩
abbrev F.MBX_REPOCH_EPOCH (n : Nat) : FRef := ⟨A.MBX_REPOCH n, 0, 16⟩
abbrev A.MBX_CFG (n : Nat) : Nat := 0x60040100 + 0x10 * n
abbrev F.MBX_CFG_EN (n : Nat) : FRef := ⟨A.MBX_CFG n, 31, 1⟩
abbrev F.MBX_CFG_MODE (n : Nat) : FRef := ⟨A.MBX_CFG n, 30, 1⟩
abbrev F.MBX_CFG_PRIV (n : Nat) : FRef := ⟨A.MBX_CFG n, 29, 1⟩
abbrev F.MBX_CFG_WAKE (n : Nat) : FRef := ⟨A.MBX_CFG n, 28, 1⟩
abbrev F.MBX_CFG_RECV (n : Nat) : FRef := ⟨A.MBX_CFG n, 25, 3⟩
abbrev F.MBX_CFG_SIZEM1 (n : Nat) : FRef := ⟨A.MBX_CFG n, 12, 10⟩
abbrev F.MBX_CFG_BASE (n : Nat) : FRef := ⟨A.MBX_CFG n, 0, 10⟩
abbrev A.MBX_STAT (n : Nat) : Nat := 0x60040104 + 0x10 * n
abbrev F.MBX_STAT_BSTATE (n : Nat) : FRef := ⟨A.MBX_STAT n, 30, 2⟩
abbrev F.MBX_STAT_OWNER (n : Nat) : FRef := ⟨A.MBX_STAT n, 24, 6⟩
abbrev F.MBX_STAT_COUNT (n : Nat) : FRef := ⟨A.MBX_STAT n, 0, 15⟩
abbrev A.MBX_TX (n : Nat) : Nat := 0x60040108 + 0x10 * n
abbrev F.MBX_TX_DATA (n : Nat) : FRef := ⟨A.MBX_TX n, 0, 32⟩
abbrev A.MBX_CTL (n : Nat) : Nat := 0x6004010c + 0x10 * n
abbrev F.MBX_CTL_FLUSH (n : Nat) : FRef := ⟨A.MBX_CTL n, 3, 1⟩
abbrev F.MBX_CTL_ABORT (n : Nat) : FRef := ⟨A.MBX_CTL n, 2, 1⟩
abbrev F.MBX_CTL_RELEASE (n : Nat) : FRef := ⟨A.MBX_CTL n, 1, 1⟩
abbrev F.MBX_CTL_GO (n : Nat) : FRef := ⟨A.MBX_CTL n, 0, 1⟩
abbrev A.MBX_RX (n : Nat) : Nat := 0x60040800 + 0x8 * n
abbrev F.MBX_RX_EMPTY (n : Nat) : FRef := ⟨A.MBX_RX n + 4, 31, 1⟩
abbrev F.MBX_RX_STALE (n : Nat) : FRef := ⟨A.MBX_RX n + 4, 30, 1⟩
abbrev F.MBX_RX_FIRST (n : Nat) : FRef := ⟨A.MBX_RX n + 4, 29, 1⟩
abbrev F.MBX_RX_LAST (n : Nat) : FRef := ⟨A.MBX_RX n + 4, 28, 1⟩
abbrev F.MBX_RX_SENDER (n : Nat) : FRef := ⟨A.MBX_RX n + 4, 22, 6⟩
abbrev F.MBX_RX_ECCERR (n : Nat) : FRef := ⟨A.MBX_RX n + 4, 21, 1⟩
abbrev F.MBX_RX_REMAIN (n : Nat) : FRef := ⟨A.MBX_RX n + 4, 0, 16⟩
abbrev F.MBX_RX_DATA (n : Nat) : FRef := ⟨A.MBX_RX n, 0, 32⟩
abbrev A.TMB_CTL : Nat := 0x600c0000
abbrev F.TMB_CTL_SRC : FRef := ⟨A.TMB_CTL, 0, 2⟩
abbrev A.TMB_STATUS : Nat := 0x600c0004
abbrev F.TMB_STATUS_SLEWING : FRef := ⟨A.TMB_STATUS, 1, 1⟩
abbrev F.TMB_STATUS_HOLDOVER : FRef := ⟨A.TMB_STATUS, 0, 1⟩
abbrev A.TMB_EVT : Nat := 0x600c0008
abbrev F.TMB_EVT_EVSEQ : FRef := ⟨A.TMB_EVT, 24, 8⟩
abbrev F.TMB_EVT_STEP : FRef := ⟨A.TMB_EVT, 5, 1⟩
abbrev F.TMB_EVT_SLEWDONE : FRef := ⟨A.TMB_EVT, 4, 1⟩
abbrev F.TMB_EVT_HOLDOVER : FRef := ⟨A.TMB_EVT, 3, 1⟩
abbrev F.TMB_EVT_OVR : FRef := ⟨A.TMB_EVT, 2, 1⟩
abbrev F.TMB_EVT_MISS : FRef := ⟨A.TMB_EVT, 1, 1⟩
abbrev F.TMB_EVT_LATE : FRef := ⟨A.TMB_EVT, 0, 1⟩
abbrev A.TMB_EVEN : Nat := 0x600c000c
abbrev F.TMB_EVEN_EN : FRef := ⟨A.TMB_EVEN, 0, 6⟩
abbrev A.TMB_TIME : Nat := 0x600c0010
abbrev A.TMB_FRAC : Nat := 0x600c0018
abbrev F.TMB_FRAC_FRAC : FRef := ⟨A.TMB_FRAC, 0, 32⟩
abbrev A.TMB_INC : Nat := 0x600c0020
abbrev F.TMB_INC_INCNS : FRef := ⟨A.TMB_INC + 4, 0, 4⟩
abbrev F.TMB_INC_INCFRAC : FRef := ⟨A.TMB_INC, 0, 32⟩
abbrev A.TMB_ADJ : Nat := 0x600c0028
abbrev F.TMB_ADJ_ADJ : FRef := ⟨A.TMB_ADJ, 0, 32⟩
abbrev A.TMB_ADJCMD : Nat := 0x600c002c
abbrev F.TMB_ADJCMD_SLEW : FRef := ⟨A.TMB_ADJCMD, 1, 1⟩
abbrev F.TMB_ADJCMD_STEP : FRef := ⟨A.TMB_ADJCMD, 0, 1⟩
abbrev A.TMB_SLEWREM : Nat := 0x600c0030
abbrev F.TMB_SLEWREM_REM : FRef := ⟨A.TMB_SLEWREM, 0, 32⟩
abbrev A.TMB_SYNCCTL : Nat := 0x600c0034
abbrev F.TMB_SYNCCTL_OUTEN : FRef := ⟨A.TMB_SYNCCTL, 31, 1⟩
abbrev F.TMB_SYNCCTL_OUTPOL : FRef := ⟨A.TMB_SYNCCTL, 30, 1⟩
abbrev F.TMB_SYNCCTL_WIDTH : FRef := ⟨A.TMB_SYNCCTL, 0, 8⟩
abbrev A.TMB_UNIT_CTL (n : Nat) : Nat := 0x600c0100 + 0x20 * n
abbrev F.TMB_UNIT_CTL_OWNER (n : Nat) : FRef := ⟨A.TMB_UNIT_CTL n, 30, 2⟩
abbrev F.TMB_UNIT_CTL_SRC (n : Nat) : FRef := ⟨A.TMB_UNIT_CTL n, 16, 8⟩
abbrev F.TMB_UNIT_CTL_SUBM1 (n : Nat) : FRef := ⟨A.TMB_UNIT_CTL n, 12, 3⟩
abbrev F.TMB_UNIT_CTL_CAPNOW (n : Nat) : FRef := ⟨A.TMB_UNIT_CTL n, 8, 1⟩
abbrev F.TMB_UNIT_CTL_DSYNC (n : Nat) : FRef := ⟨A.TMB_UNIT_CTL n, 7, 1⟩
abbrev F.TMB_UNIT_CTL_DLKP (n : Nat) : FRef := ⟨A.TMB_UNIT_CTL n, 6, 1⟩
abbrev F.TMB_UNIT_CTL_MODE (n : Nat) : FRef := ⟨A.TMB_UNIT_CTL n, 0, 2⟩
abbrev A.TMB_UNIT_CMP (n : Nat) : Nat := 0x600c0104 + 0x20 * n
abbrev F.TMB_UNIT_CMP_CMP (n : Nat) : FRef := ⟨A.TMB_UNIT_CMP n, 0, 32⟩
abbrev A.TMB_UNIT_PER (n : Nat) : Nat := 0x600c0108 + 0x20 * n
abbrev F.TMB_UNIT_PER_PER (n : Nat) : FRef := ⟨A.TMB_UNIT_PER n, 0, 31⟩
abbrev A.TMB_UNIT_STAT (n : Nat) : Nat := 0x600c010c + 0x20 * n
abbrev F.TMB_UNIT_STAT_ARMED (n : Nat) : FRef := ⟨A.TMB_UNIT_STAT n, 31, 1⟩
abbrev F.TMB_UNIT_STAT_VALID (n : Nat) : FRef := ⟨A.TMB_UNIT_STAT n, 30, 1⟩
abbrev F.TMB_UNIT_STAT_OVR (n : Nat) : FRef := ⟨A.TMB_UNIT_STAT n, 29, 1⟩
abbrev F.TMB_UNIT_STAT_LATE (n : Nat) : FRef := ⟨A.TMB_UNIT_STAT n, 28, 1⟩
abbrev F.TMB_UNIT_STAT_MISSED (n : Nat) : FRef := ⟨A.TMB_UNIT_STAT n, 0, 16⟩
abbrev A.TMB_UNIT_CAPT (n : Nat) : Nat := 0x600c0110 + 0x20 * n
abbrev A.FIO_CTL : Nat := 0x600d0000
abbrev F.FIO_CTL_LOCK : FRef := ⟨A.FIO_CTL, 31, 1⟩
abbrev F.FIO_CTL_SWDTMO : FRef := ⟨A.FIO_CTL, 0, 5⟩
abbrev A.FIO_STATUS : Nat := 0x600d0004
abbrev F.FIO_STATUS_PEND : FRef := ⟨A.FIO_STATUS, 24, 7⟩
abbrev F.FIO_STATUS_SAFECAUSE : FRef := ⟨A.FIO_STATUS, 16, 3⟩
abbrev F.FIO_STATUS_CFGOK : FRef := ⟨A.FIO_STATUS, 2, 1⟩
abbrev F.FIO_STATUS_SAFE : FRef := ⟨A.FIO_STATUS, 1, 1⟩
abbrev F.FIO_STATUS_LINK : FRef := ⟨A.FIO_STATUS, 0, 1⟩
abbrev A.FIO_EVT : Nat := 0x600d0008
abbrev F.FIO_EVT_EVSEQ : FRef := ⟨A.FIO_EVT, 24, 8⟩
abbrev F.FIO_EVT_AILOST : FRef := ⟨A.FIO_EVT, 9, 1⟩
abbrev F.FIO_EVT_VOUT : FRef := ⟨A.FIO_EVT, 8, 1⟩
abbrev F.FIO_EVT_LATE : FRef := ⟨A.FIO_EVT, 7, 1⟩
abbrev F.FIO_EVT_CFGSYNC : FRef := ⟨A.FIO_EVT, 6, 1⟩
abbrev F.FIO_EVT_EDGEOVF : FRef := ⟨A.FIO_EVT, 5, 1⟩
abbrev F.FIO_EVT_RXHIT : FRef := ⟨A.FIO_EVT, 4, 1⟩
abbrev F.FIO_EVT_GRPTRIP : FRef := ⟨A.FIO_EVT, 3, 1⟩
abbrev F.FIO_EVT_DOFAULT : FRef := ⟨A.FIO_EVT, 2, 1⟩
abbrev F.FIO_EVT_SAFE : FRef := ⟨A.FIO_EVT, 1, 1⟩
abbrev F.FIO_EVT_LINK : FRef := ⟨A.FIO_EVT, 0, 1⟩
abbrev A.FIO_EVEN : Nat := 0x600d000c
abbrev F.FIO_EVEN_EN : FRef := ⟨A.FIO_EVEN, 0, 10⟩
abbrev A.FIO_CMD : Nat := 0x600d0010
abbrev F.FIO_CMD_EDGEFLUSH : FRef := ⟨A.FIO_CMD, 2, 1⟩
abbrev F.FIO_CMD_GRPRST : FRef := ⟨A.FIO_CMD, 1, 1⟩
abbrev F.FIO_CMD_FAULTACK : FRef := ⟨A.FIO_CMD, 0, 1⟩
abbrev A.FIO_LINKERR : Nat := 0x600d0014
abbrev F.FIO_LINKERR_LCRC : FRef := ⟨A.FIO_LINKERR, 16, 16⟩
abbrev F.FIO_LINKERR_FCRC : FRef := ⟨A.FIO_LINKERR, 0, 16⟩
abbrev A.FIO_LATECNT : Nat := 0x600d0018
abbrev F.FIO_LATECNT_COUNT : FRef := ⟨A.FIO_LATECNT, 0, 16⟩
abbrev A.FIO_CH_CTL (n : Nat) : Nat := 0x600d0020 + 0x8 * n
abbrev F.FIO_CH_CTL_EN (n : Nat) : FRef := ⟨A.FIO_CH_CTL n, 31, 1⟩
abbrev F.FIO_CH_CTL_TMBUNIT (n : Nat) : FRef := ⟨A.FIO_CH_CTL n, 24, 5⟩
abbrev F.FIO_CH_CTL_TASK (n : Nat) : FRef := ⟨A.FIO_CH_CTL n, 16, 5⟩
abbrev F.FIO_CH_CTL_BYTES (n : Nat) : FRef := ⟨A.FIO_CH_CTL n, 0, 16⟩
abbrev A.FIO_CH_OFF (n : Nat) : Nat := 0x600d0024 + 0x8 * n
abbrev F.FIO_CH_OFF_OFFSET (n : Nat) : FRef := ⟨A.FIO_CH_OFF n, 0, 24⟩
abbrev A.FIO_DIGRP (n : Nat) : Nat := 0x600d0100 + 0x4 * n
abbrev F.FIO_DIGRP_STRETCH (n : Nat) : FRef := ⟨A.FIO_DIGRP n, 8, 4⟩
abbrev F.FIO_DIGRP_PPER (n : Nat) : FRef := ⟨A.FIO_DIGRP n, 4, 3⟩
abbrev F.FIO_DIGRP_WET (n : Nat) : FRef := ⟨A.FIO_DIGRP n, 3, 1⟩
abbrev F.FIO_DIGRP_PULSED (n : Nat) : FRef := ⟨A.FIO_DIGRP n, 2, 1⟩
abbrev F.FIO_DIGRP_TYPE (n : Nat) : FRef := ⟨A.FIO_DIGRP n, 0, 1⟩
abbrev A.FIO_DIFILT (n : Nat) : Nat := 0x600d0120 + 0x4 * n
abbrev F.FIO_DIFILT_FILT (n : Nat) : FRef := ⟨A.FIO_DIFILT n, 0, 32⟩
abbrev A.FIO_EDGEEN : Nat := 0x600d0140
abbrev F.FIO_EDGEEN_FALL : FRef := ⟨A.FIO_EDGEEN, 16, 16⟩
abbrev F.FIO_EDGEEN_RISE : FRef := ⟨A.FIO_EDGEEN, 0, 16⟩
abbrev A.FIO_EDGE : Nat := 0x600d0148
abbrev F.FIO_EDGE_EMPTY : FRef := ⟨A.FIO_EDGE + 4, 31, 1⟩
abbrev F.FIO_EDGE_LOST : FRef := ⟨A.FIO_EDGE + 4, 30, 1⟩
abbrev F.FIO_EDGE_RISE : FRef := ⟨A.FIO_EDGE + 4, 29, 1⟩
abbrev F.FIO_EDGE_INPUT : FRef := ⟨A.FIO_EDGE + 4, 24, 4⟩
abbrev A.FIO_EDGESTAT : Nat := 0x600d0150
abbrev F.FIO_EDGESTAT_LOST : FRef := ⟨A.FIO_EDGESTAT, 16, 16⟩
abbrev F.FIO_EDGESTAT_COUNT : FRef := ⟨A.FIO_EDGESTAT, 0, 9⟩
abbrev A.FIO_DTEN : Nat := 0x600d0200
abbrev F.FIO_DTEN_MASK : FRef := ⟨A.FIO_DTEN, 0, 32⟩
abbrev A.FIO_OLEN : Nat := 0x600d0204
abbrev F.FIO_OLEN_MASK : FRef := ⟨A.FIO_OLEN, 0, 32⟩
abbrev A.FIO_AUTORST : Nat := 0x600d0208
abbrev F.FIO_AUTORST_MASK : FRef := ⟨A.FIO_AUTORST, 0, 32⟩
abbrev A.FIO_SAFEVAL : Nat := 0x600d020c
abbrev F.FIO_SAFEVAL_MASK : FRef := ⟨A.FIO_SAFEVAL, 0, 32⟩
abbrev A.FIO_DTCTL : Nat := 0x600d0210
abbrev F.FIO_DTCTL_RBDLY : FRef := ⟨A.FIO_DTCTL, 24, 8⟩
abbrev F.FIO_DTCTL_DTW : FRef := ⟨A.FIO_DTCTL, 16, 8⟩
abbrev F.FIO_DTCTL_DTPER : FRef := ⟨A.FIO_DTCTL, 0, 11⟩
abbrev A.FIO_GRP : Nat := 0x600d0214
abbrev F.FIO_GRP_TRIPB : FRef := ⟨A.FIO_GRP, 31, 1⟩
abbrev F.FIO_GRP_VOKB : FRef := ⟨A.FIO_GRP, 30, 1⟩
abbrev F.FIO_GRP_TRIPA : FRef := ⟨A.FIO_GRP, 29, 1⟩
abbrev F.FIO_GRP_VOKA : FRef := ⟨A.FIO_GRP, 28, 1⟩
abbrev F.FIO_GRP_ILIMB : FRef := ⟨A.FIO_GRP, 8, 6⟩
abbrev F.FIO_GRP_ILIMA : FRef := ⟨A.FIO_GRP, 0, 6⟩
abbrev A.FIO_GRPI : Nat := 0x600d0218
abbrev F.FIO_GRPI_IB : FRef := ⟨A.FIO_GRPI, 16, 16⟩
abbrev F.FIO_GRPI_IA : FRef := ⟨A.FIO_GRPI, 0, 16⟩
abbrev A.FIO_DOFAULT : Nat := 0x600d021c
abbrev F.FIO_DOFAULT_FAULT : FRef := ⟨A.FIO_DOFAULT, 0, 32⟩
abbrev A.FIO_DOCODE (n : Nat) : Nat := 0x600d0220 + 0x4 * n
abbrev F.FIO_DOCODE_CODE (n : Nat) : FRef := ⟨A.FIO_DOCODE n, 0, 32⟩
abbrev A.FIO_RX (n : Nat) : Nat := 0x600d0300 + 0x4 * n
abbrev F.FIO_RX_EN (n : Nat) : FRef := ⟨A.FIO_RX n, 31, 1⟩
abbrev F.FIO_RX_LATCH (n : Nat) : FRef := ⟨A.FIO_RX n, 30, 1⟩
abbrev F.FIO_RX_SAFEKEEP (n : Nat) : FRef := ⟨A.FIO_RX n, 29, 1⟩
abbrev F.FIO_RX_FILT (n : Nat) : FRef := ⟨A.FIO_RX n, 28, 1⟩
abbrev F.FIO_RX_MODE (n : Nat) : FRef := ⟨A.FIO_RX n, 24, 2⟩
abbrev F.FIO_RX_LUT (n : Nat) : FRef := ⟨A.FIO_RX n, 16, 4⟩
abbrev F.FIO_RX_INB (n : Nat) : FRef := ⟨A.FIO_RX n, 8, 4⟩
abbrev F.FIO_RX_INA (n : Nat) : FRef := ⟨A.FIO_RX n, 4, 4⟩
abbrev F.FIO_RX_TARGET (n : Nat) : FRef := ⟨A.FIO_RX n, 0, 4⟩
abbrev A.FIO_RXSTAT : Nat := 0x600d0340
abbrev F.FIO_RXSTAT_ACTIVE : FRef := ⟨A.FIO_RXSTAT, 16, 16⟩
abbrev F.FIO_RXSTAT_HIT : FRef := ⟨A.FIO_RXSTAT, 0, 16⟩
abbrev A.FIO_AI (n : Nat) : Nat := 0x600d0400 + 0x4 * n
abbrev F.FIO_AI_EN (n : Nat) : FRef := ⟨A.FIO_AI n, 31, 1⟩
abbrev F.FIO_AI_AVG (n : Nat) : FRef := ⟨A.FIO_AI n, 4, 3⟩
abbrev F.FIO_AI_RANGE (n : Nat) : FRef := ⟨A.FIO_AI n, 0, 2⟩
abbrev A.FIO_AICTL : Nat := 0x600d0420
abbrev F.FIO_AICTL_TRIG : FRef := ⟨A.FIO_AICTL, 31, 1⟩
abbrev F.FIO_AICTL_TMBUNIT : FRef := ⟨A.FIO_AICTL, 24, 5⟩
abbrev F.FIO_AICTL_AIPER : FRef := ⟨A.FIO_AICTL, 0, 24⟩
abbrev A.FIO_AIROUND : Nat := 0x600d0424
abbrev F.FIO_AIROUND_ROUND : FRef := ⟨A.FIO_AIROUND, 0, 32⟩
abbrev A.FIO_AILOST : Nat := 0x600d0428
abbrev F.FIO_AILOST_COUNT : FRef := ⟨A.FIO_AILOST, 0, 16⟩
abbrev A.BAS_CTL : Nat := 0x60060000
abbrev F.BAS_CTL_PSTALL : FRef := ⟨A.BAS_CTL, 16, 10⟩
abbrev F.BAS_CTL_AGETIME : FRef := ⟨A.BAS_CTL, 0, 10⟩
abbrev A.BAS_PLANE : Nat := 0x60060004
abbrev F.BAS_PLANE_RESTORE : FRef := ⟨A.BAS_PLANE, 16, 1⟩
abbrev F.BAS_PLANE_PSTATE : FRef := ⟨A.BAS_PLANE, 8, 8⟩
abbrev F.BAS_PLANE_TEST : FRef := ⟨A.BAS_PLANE, 4, 4⟩
abbrev F.BAS_PLANE_EN : FRef := ⟨A.BAS_PLANE, 0, 4⟩
abbrev A.BAS_EVT : Nat := 0x60060008
abbrev F.BAS_EVT_EVSEQ : FRef := ⟨A.BAS_EVT, 24, 8⟩
abbrev F.BAS_EVT_DMAERR : FRef := ⟨A.BAS_EVT, 7, 1⟩
abbrev F.BAS_EVT_MIRDROP : FRef := ⟨A.BAS_EVT, 6, 1⟩
abbrev F.BAS_EVT_RINGFULL : FRef := ⟨A.BAS_EVT, 5, 1⟩
abbrev F.BAS_EVT_AGE : FRef := ⟨A.BAS_EVT, 4, 1⟩
abbrev F.BAS_EVT_ADMIT : FRef := ⟨A.BAS_EVT, 3, 1⟩
abbrev F.BAS_EVT_LEARNFAIL : FRef := ⟨A.BAS_EVT, 2, 1⟩
abbrev F.BAS_EVT_PLANEOK : FRef := ⟨A.BAS_EVT, 1, 1⟩
abbrev F.BAS_EVT_PLANEFAIL : FRef := ⟨A.BAS_EVT, 0, 1⟩
abbrev A.BAS_EVEN : Nat := 0x6006000c
abbrev F.BAS_EVEN_EN : FRef := ⟨A.BAS_EVEN, 0, 8⟩
abbrev A.BAS_STATUS : Nat := 0x60060010
abbrev F.BAS_STATUS_FREE : FRef := ⟨A.BAS_STATUS, 0, 18⟩
abbrev A.BAS_HSEED : Nat := 0x60060020
abbrev A.BAS_ROLEMAC : Nat := 0x60060028
abbrev A.BAS_MACCMD : Nat := 0x60060030
abbrev F.BAS_MACCMD_GO : FRef := ⟨A.BAS_MACCMD, 31, 1⟩
abbrev F.BAS_MACCMD_OP : FRef := ⟨A.BAS_MACCMD, 28, 3⟩
abbrev F.BAS_MACCMD_ALL : FRef := ⟨A.BAS_MACCMD, 27, 1⟩
abbrev F.BAS_MACCMD_INDEX : FRef := ⟨A.BAS_MACCMD, 0, 14⟩
abbrev A.BAS_MACADDR : Nat := 0x60060038
abbrev A.BAS_MACDATA : Nat := 0x60060040
abbrev F.BAS_MACDATA_V : FRef := ⟨A.BAS_MACDATA, 31, 1⟩
abbrev F.BAS_MACDATA_STATIC : FRef := ⟨A.BAS_MACDATA, 30, 1⟩
abbrev F.BAS_MACDATA_HIT : FRef := ⟨A.BAS_MACDATA, 29, 1⟩
abbrev F.BAS_MACDATA_RESULT : FRef := ⟨A.BAS_MACDATA, 27, 2⟩
abbrev F.BAS_MACDATA_PORT : FRef := ⟨A.BAS_MACDATA, 16, 6⟩
abbrev F.BAS_MACDATA_INDEX : FRef := ⟨A.BAS_MACDATA, 0, 14⟩
abbrev A.BAS_MACSTAT : Nat := 0x60060044
abbrev F.BAS_MACSTAT_LEARNFAIL : FRef := ⟨A.BAS_MACSTAT, 16, 16⟩
abbrev F.BAS_MACSTAT_MOVES : FRef := ⟨A.BAS_MACSTAT, 0, 16⟩
abbrev A.BAS_FLOODCNT : Nat := 0x60060048
abbrev F.BAS_FLOODCNT_COUNT : FRef := ⟨A.BAS_FLOODCNT, 0, 32⟩
abbrev A.BAS_MACUSE : Nat := 0x6006004c
abbrev F.BAS_MACUSE_VALID : FRef := ⟨A.BAS_MACUSE, 0, 15⟩
abbrev A.BAS_ETR (n : Nat) : Nat := 0x60060080 + 0x4 * n
abbrev F.BAS_ETR_EN (n : Nat) : FRef := ⟨A.BAS_ETR n, 31, 1⟩
abbrev F.BAS_ETR_REDIR (n : Nat) : FRef := ⟨A.BAS_ETR n, 30, 1⟩
abbrev F.BAS_ETR_PORT (n : Nat) : FRef := ⟨A.BAS_ETR n, 24, 6⟩
abbrev F.BAS_ETR_CLASS (n : Nat) : FRef := ⟨A.BAS_ETR n, 16, 3⟩
abbrev F.BAS_ETR_ETYPE (n : Nat) : FRef := ⟨A.BAS_ETR n, 0, 16⟩
abbrev A.BAS_CLS_BUF (n : Nat) : Nat := 0x60060100 + 0x10 * n
abbrev F.BAS_CLS_BUF_RESV (n : Nat) : FRef := ⟨A.BAS_CLS_BUF n, 16, 13⟩
abbrev F.BAS_CLS_BUF_LIMIT (n : Nat) : FRef := ⟨A.BAS_CLS_BUF n, 0, 13⟩
abbrev A.BAS_CLS_AGE (n : Nat) : Nat := 0x60060104 + 0x10 * n
abbrev F.BAS_CLS_AGE_AGE (n : Nat) : FRef := ⟨A.BAS_CLS_AGE n, 0, 16⟩
abbrev A.BAS_CLS_USE (n : Nat) : Nat := 0x60060108 + 0x10 * n
abbrev F.BAS_CLS_USE_CELLS (n : Nat) : FRef := ⟨A.BAS_CLS_USE n, 0, 18⟩
abbrev A.BAS_CLS_DROP (n : Nat) : Nat := 0x6006010c + 0x10 * n
abbrev F.BAS_CLS_DROP_AGED (n : Nat) : FRef := ⟨A.BAS_CLS_DROP n, 16, 16⟩
abbrev F.BAS_CLS_DROP_ADMIT (n : Nat) : FRef := ⟨A.BAS_CLS_DROP n, 0, 16⟩
abbrev A.BAS_MIRCTL : Nat := 0x60060200
abbrev F.BAS_MIRCTL_EN : FRef := ⟨A.BAS_MIRCTL, 31, 1⟩
abbrev F.BAS_MIRCTL_BIG : FRef := ⟨A.BAS_MIRCTL, 30, 1⟩
abbrev F.BAS_MIRCTL_ROLE : FRef := ⟨A.BAS_MIRCTL, 28, 2⟩
abbrev F.BAS_MIRCTL_DROPS : FRef := ⟨A.BAS_MIRCTL, 27, 1⟩
abbrev F.BAS_MIRCTL_SIZE : FRef := ⟨A.BAS_MIRCTL, 20, 4⟩
abbrev F.BAS_MIRCTL_BASE : FRef := ⟨A.BAS_MIRCTL, 6, 14⟩
abbrev A.BAS_MIRWP : Nat := 0x60060204
abbrev F.BAS_MIRWP_INDEX : FRef := ⟨A.BAS_MIRWP, 0, 10⟩
abbrev A.BAS_MIRRP : Nat := 0x60060208
abbrev F.BAS_MIRRP_INDEX : FRef := ⟨A.BAS_MIRRP, 0, 10⟩
abbrev A.BAS_MIRDROP : Nat := 0x6006020c
abbrev F.BAS_MIRDROP_COUNT : FRef := ⟨A.BAS_MIRDROP, 0, 16⟩
abbrev A.BAS_MIRIN : Nat := 0x60060210
abbrev A.BAS_MIROUT : Nat := 0x60060218
abbrev A.BAS_TX_RING (n : Nat) : Nat := 0x60060300 + 0x10 * n
abbrev F.BAS_TX_RING_EN (n : Nat) : FRef := ⟨A.BAS_TX_RING n, 31, 1⟩
abbrev F.BAS_TX_RING_RESUME (n : Nat) : FRef := ⟨A.BAS_TX_RING n, 30, 1⟩
abbrev F.BAS_TX_RING_SIZE (n : Nat) : FRef := ⟨A.BAS_TX_RING n, 20, 4⟩
abbrev F.BAS_TX_RING_BASE (n : Nat) : FRef := ⟨A.BAS_TX_RING n, 6, 14⟩
abbrev A.BAS_RX_RING (n : Nat) : Nat := 0x60060a00 + 0x10 * n
abbrev F.BAS_RX_RING_EN (n : Nat) : FRef := ⟨A.BAS_RX_RING n, 31, 1⟩
abbrev F.BAS_RX_RING_RESUME (n : Nat) : FRef := ⟨A.BAS_RX_RING n, 30, 1⟩
abbrev F.BAS_RX_RING_SIZE (n : Nat) : FRef := ⟨A.BAS_RX_RING n, 20, 4⟩
abbrev F.BAS_RX_RING_BASE (n : Nat) : FRef := ⟨A.BAS_RX_RING n, 6, 14⟩
abbrev A.BAS_TX_WP (n : Nat) : Nat := 0x60060304 + 0x10 * n
abbrev F.BAS_TX_WP_INDEX (n : Nat) : FRef := ⟨A.BAS_TX_WP n, 0, 10⟩
abbrev A.BAS_TX_RP (n : Nat) : Nat := 0x60060308 + 0x10 * n
abbrev F.BAS_TX_RP_INDEX (n : Nat) : FRef := ⟨A.BAS_TX_RP n, 0, 10⟩
abbrev A.BAS_RX_WP (n : Nat) : Nat := 0x60060a04 + 0x10 * n
abbrev F.BAS_RX_WP_INDEX (n : Nat) : FRef := ⟨A.BAS_RX_WP n, 0, 10⟩
abbrev A.BAS_RX_RP (n : Nat) : Nat := 0x60060a08 + 0x10 * n
abbrev F.BAS_RX_RP_INDEX (n : Nat) : FRef := ⟨A.BAS_RX_RP n, 0, 10⟩
abbrev A.BAS_TX_STAT (n : Nat) : Nat := 0x6006030c + 0x10 * n
abbrev F.BAS_TX_STAT_CODE (n : Nat) : FRef := ⟨A.BAS_TX_STAT n, 28, 4⟩
abbrev F.BAS_TX_STAT_STATE (n : Nat) : FRef := ⟨A.BAS_TX_STAT n, 24, 2⟩
abbrev F.BAS_TX_STAT_COUNT (n : Nat) : FRef := ⟨A.BAS_TX_STAT n, 0, 16⟩
abbrev A.BAS_RX_STAT (n : Nat) : Nat := 0x60060a0c + 0x10 * n
abbrev F.BAS_RX_STAT_CODE (n : Nat) : FRef := ⟨A.BAS_RX_STAT n, 28, 4⟩
abbrev F.BAS_RX_STAT_STATE (n : Nat) : FRef := ⟨A.BAS_RX_STAT n, 24, 2⟩
abbrev F.BAS_RX_STAT_COUNT (n : Nat) : FRef := ⟨A.BAS_RX_STAT n, 0, 16⟩
abbrev A.BAS_PORT_CFG (n : Nat) : Nat := 0x60060400 + 0x20 * n
abbrev F.BAS_PORT_CFG_LEARN (n : Nat) : FRef := ⟨A.BAS_PORT_CFG n, 31, 1⟩
abbrev F.BAS_PORT_CFG_TRUSTPCP (n : Nat) : FRef := ⟨A.BAS_PORT_CFG n, 30, 1⟩
abbrev F.BAS_PORT_CFG_DEFCLASS (n : Nat) : FRef := ⟨A.BAS_PORT_CFG n, 24, 3⟩
abbrev A.BAS_PORT_FWD (n : Nat) : Nat := 0x60060408 + 0x20 * n
abbrev A.BAS_PORT_IDROP (n : Nat) : Nat := 0x60060410 + 0x20 * n
abbrev F.BAS_PORT_IDROP_COUNT (n : Nat) : FRef := ⟨A.BAS_PORT_IDROP n, 0, 32⟩
abbrev A.BAS_PORT_EDROP (n : Nat) : Nat := 0x60060414 + 0x20 * n
abbrev F.BAS_PORT_EDROP_COUNT (n : Nat) : FRef := ⟨A.BAS_PORT_EDROP n, 0, 32⟩
abbrev A.BAS_PORT_RXCNT (n : Nat) : Nat := 0x60060418 + 0x20 * n
abbrev F.BAS_PORT_RXCNT_COUNT (n : Nat) : FRef := ⟨A.BAS_PORT_RXCNT n, 0, 32⟩
abbrev A.BAS_PORT_TXCNT (n : Nat) : Nat := 0x6006041c + 0x20 * n
abbrev F.BAS_PORT_TXCNT_COUNT (n : Nat) : FRef := ⟨A.BAS_PORT_TXCNT n, 0, 32⟩
abbrev A.ETH_CTL (i : Nat) : Nat := 0x60200000 + 0x10000 * i
abbrev F.ETH_CTL_EN (i : Nat) : FRef := ⟨A.ETH_CTL i, 31, 1⟩
abbrev F.ETH_CTL_TESTMODE (i : Nat) : FRef := ⟨A.ETH_CTL i, 24, 4⟩
abbrev F.ETH_CTL_LPBK (i : Nat) : FRef := ⟨A.ETH_CTL i, 21, 1⟩
abbrev F.ETH_CTL_ANEG (i : Nat) : FRef := ⟨A.ETH_CTL i, 20, 1⟩
abbrev F.ETH_CTL_MS (i : Nat) : FRef := ⟨A.ETH_CTL i, 18, 2⟩
abbrev F.ETH_CTL_SPEED (i : Nat) : FRef := ⟨A.ETH_CTL i, 10, 2⟩
abbrev F.ETH_CTL_PLCAEN (i : Nat) : FRef := ⟨A.ETH_CTL i, 9, 1⟩
abbrev F.ETH_CTL_SQIMIN (i : Nat) : FRef := ⟨A.ETH_CTL i, 4, 3⟩
abbrev A.ETH_STATUS (i : Nat) : Nat := 0x60200004 + 0x10000 * i
abbrev F.ETH_STATUS_SQI (i : Nat) : FRef := ⟨A.ETH_STATUS i, 24, 3⟩
abbrev F.ETH_STATUS_MSRES (i : Nat) : FRef := ⟨A.ETH_STATUS i, 23, 1⟩
abbrev F.ETH_STATUS_SPDRES (i : Nat) : FRef := ⟨A.ETH_STATUS i, 22, 1⟩
abbrev F.ETH_STATUS_LSTATE (i : Nat) : FRef := ⟨A.ETH_STATUS i, 16, 3⟩
abbrev F.ETH_STATUS_LINK (i : Nat) : FRef := ⟨A.ETH_STATUS i, 0, 1⟩
abbrev A.ETH_EVT (i : Nat) : Nat := 0x60200008 + 0x10000 * i
abbrev F.ETH_EVT_EVSEQ (i : Nat) : FRef := ⟨A.ETH_EVT i, 24, 8⟩
abbrev F.ETH_EVT_SQILOW (i : Nat) : FRef := ⟨A.ETH_EVT i, 8, 1⟩
abbrev F.ETH_EVT_CABLE (i : Nat) : FRef := ⟨A.ETH_EVT i, 7, 1⟩
abbrev F.ETH_EVT_EXCOLL (i : Nat) : FRef := ⟨A.ETH_EVT i, 6, 1⟩
abbrev F.ETH_EVT_DUPCOORD (i : Nat) : FRef := ⟨A.ETH_EVT i, 5, 1⟩
abbrev F.ETH_EVT_PLCA (i : Nat) : FRef := ⟨A.ETH_EVT i, 4, 1⟩
abbrev F.ETH_EVT_TSLOST (i : Nat) : FRef := ⟨A.ETH_EVT i, 3, 1⟩
abbrev F.ETH_EVT_TSTX (i : Nat) : FRef := ⟨A.ETH_EVT i, 2, 1⟩
abbrev F.ETH_EVT_TSRX (i : Nat) : FRef := ⟨A.ETH_EVT i, 1, 1⟩
abbrev F.ETH_EVT_LINK (i : Nat) : FRef := ⟨A.ETH_EVT i, 0, 1⟩
abbrev A.ETH_EVEN (i : Nat) : Nat := 0x6020000c + 0x10000 * i
abbrev F.ETH_EVEN_EN (i : Nat) : FRef := ⟨A.ETH_EVEN i, 0, 9⟩
abbrev A.ETH_PLCA (i : Nat) : Nat := 0x60200010 + 0x10000 * i
abbrev F.ETH_PLCA_MAXBC (i : Nat) : FRef := ⟨A.ETH_PLCA i, 24, 8⟩
abbrev F.ETH_PLCA_NODEID (i : Nat) : FRef := ⟨A.ETH_PLCA i, 16, 8⟩
abbrev F.ETH_PLCA_NODECNT (i : Nat) : FRef := ⟨A.ETH_PLCA i, 8, 8⟩
abbrev F.ETH_PLCA_TOTMR (i : Nat) : FRef := ⟨A.ETH_PLCA i, 0, 8⟩
abbrev A.ETH_PLCATMR (i : Nat) : Nat := 0x60200014 + 0x10000 * i
abbrev F.ETH_PLCATMR_BCNTMO (i : Nat) : FRef := ⟨A.ETH_PLCATMR i, 16, 16⟩
abbrev F.ETH_PLCATMR_BTMR (i : Nat) : FRef := ⟨A.ETH_PLCATMR i, 0, 8⟩
abbrev A.ETH_PLCASTAT (i : Nat) : Nat := 0x60200018 + 0x10000 * i
abbrev F.ETH_PLCASTAT_CURID (i : Nat) : FRef := ⟨A.ETH_PLCASTAT i, 8, 8⟩
abbrev F.ETH_PLCASTAT_COORD (i : Nat) : FRef := ⟨A.ETH_PLCASTAT i, 1, 1⟩
abbrev F.ETH_PLCASTAT_OK (i : Nat) : FRef := ⟨A.ETH_PLCASTAT i, 0, 1⟩
abbrev A.ETH_PTPCFG (i : Nat) : Nat := 0x60200020 + 0x10000 * i
abbrev F.ETH_PTPCFG_UDP6EN (i : Nat) : FRef := ⟨A.ETH_PTPCFG i, 2, 1⟩
abbrev F.ETH_PTPCFG_UDP4EN (i : Nat) : FRef := ⟨A.ETH_PTPCFG i, 1, 1⟩
abbrev F.ETH_PTPCFG_L2EN (i : Nat) : FRef := ⟨A.ETH_PTPCFG i, 0, 1⟩
abbrev A.ETH_TSRX (i : Nat) : Nat := 0x60200028 + 0x10000 * i
abbrev F.ETH_TSRX_EMPTY (i : Nat) : FRef := ⟨A.ETH_TSRX i + 4, 31, 1⟩
abbrev F.ETH_TSRX_LOST (i : Nat) : FRef := ⟨A.ETH_TSRX i + 4, 30, 1⟩
abbrev F.ETH_TSRX_MSGTYPE (i : Nat) : FRef := ⟨A.ETH_TSRX i + 4, 26, 4⟩
abbrev F.ETH_TSRX_DOMAIN (i : Nat) : FRef := ⟨A.ETH_TSRX i + 4, 16, 8⟩
abbrev F.ETH_TSRX_SEQID (i : Nat) : FRef := ⟨A.ETH_TSRX i + 4, 0, 16⟩
abbrev F.ETH_TSRX_TIME (i : Nat) : FRef := ⟨A.ETH_TSRX i, 0, 32⟩
abbrev A.ETH_TSTX (i : Nat) : Nat := 0x60200030 + 0x10000 * i
abbrev F.ETH_TSTX_EMPTY (i : Nat) : FRef := ⟨A.ETH_TSTX i + 4, 31, 1⟩
abbrev F.ETH_TSTX_LOST (i : Nat) : FRef := ⟨A.ETH_TSTX i + 4, 30, 1⟩
abbrev F.ETH_TSTX_MSGTYPE (i : Nat) : FRef := ⟨A.ETH_TSTX i + 4, 26, 4⟩
abbrev F.ETH_TSTX_DOMAIN (i : Nat) : FRef := ⟨A.ETH_TSTX i + 4, 16, 8⟩
abbrev F.ETH_TSTX_SEQID (i : Nat) : FRef := ⟨A.ETH_TSTX i + 4, 0, 16⟩
abbrev F.ETH_TSTX_TIME (i : Nat) : FRef := ⟨A.ETH_TSTX i, 0, 32⟩
abbrev A.ETH_TSSTAT (i : Nat) : Nat := 0x60200038 + 0x10000 * i
abbrev F.ETH_TSSTAT_TXCNT (i : Nat) : FRef := ⟨A.ETH_TSSTAT i, 8, 5⟩
abbrev F.ETH_TSSTAT_RXCNT (i : Nat) : FRef := ⟨A.ETH_TSSTAT i, 0, 5⟩
abbrev A.ETH_CABLE (i : Nat) : Nat := 0x60200040 + 0x10000 * i
abbrev F.ETH_CABLE_GO (i : Nat) : FRef := ⟨A.ETH_CABLE i, 31, 1⟩
abbrev F.ETH_CABLE_RESULT (i : Nat) : FRef := ⟨A.ETH_CABLE i, 20, 3⟩
abbrev F.ETH_CABLE_DIST (i : Nat) : FRef := ⟨A.ETH_CABLE i, 0, 16⟩
abbrev A.ETH_STNCFG (i : Nat) : Nat := 0x60200048 + 0x10000 * i
abbrev F.ETH_STNCFG_EN (i : Nat) : FRef := ⟨A.ETH_STNCFG i, 31, 1⟩
abbrev F.ETH_STNCFG_OFFSET (i : Nat) : FRef := ⟨A.ETH_STNCFG i, 0, 8⟩
abbrev A.ETH_STN (i : Nat) (n : Nat) : Nat := 0x60200200 + 0x10000 * i + 0x4 * n
abbrev F.ETH_STN_STN (i : Nat) (n : Nat) : FRef := ⟨A.ETH_STN i n, 0, 32⟩
abbrev A.TOW_CTL : Nat := 0x60080000
abbrev F.TOW_CTL_EN : FRef := ⟨A.TOW_CTL, 31, 1⟩
abbrev F.TOW_CTL_TMBUNIT : FRef := ⟨A.TOW_CTL, 20, 5⟩
abbrev F.TOW_CTL_ETYPE : FRef := ⟨A.TOW_CTL, 0, 16⟩
abbrev A.TOW_STATUS : Nat := 0x60080004
abbrev F.TOW_STATUS_STATE : FRef := ⟨A.TOW_STATUS, 30, 2⟩
abbrev F.TOW_STATUS_NVALID : FRef := ⟨A.TOW_STATUS, 16, 9⟩
abbrev F.TOW_STATUS_NLOST : FRef := ⟨A.TOW_STATUS, 0, 9⟩
abbrev A.TOW_EVT : Nat := 0x60080008
abbrev F.TOW_EVT_EVSEQ : FRef := ⟨A.TOW_EVT, 24, 8⟩
abbrev F.TOW_EVT_MISWIRE : FRef := ⟨A.TOW_EVT, 6, 1⟩
abbrev F.TOW_EVT_DUP : FRef := ⟨A.TOW_EVT, 5, 1⟩
abbrev F.TOW_EVT_ENVERR : FRef := ⟨A.TOW_EVT, 4, 1⟩
abbrev F.TOW_EVT_REFUSED : FRef := ⟨A.TOW_EVT, 3, 1⟩
abbrev F.TOW_EVT_CLAIM : FRef := ⟨A.TOW_EVT, 2, 1⟩
abbrev F.TOW_EVT_VALID : FRef := ⟨A.TOW_EVT, 1, 1⟩
abbrev F.TOW_EVT_LOST : FRef := ⟨A.TOW_EVT, 0, 1⟩
abbrev A.TOW_EVEN : Nat := 0x6008000c
abbrev F.TOW_EVEN_EN : FRef := ⟨A.TOW_EVEN, 0, 7⟩
abbrev A.TOW_PERIOD : Nat := 0x60080010
abbrev F.TOW_PERIOD_PERIOD : FRef := ⟨A.TOW_PERIOD, 0, 19⟩
abbrev A.TOW_PHASE : Nat := 0x60080014
abbrev F.TOW_PHASE_PHASE : FRef := ⟨A.TOW_PHASE, 0, 19⟩
abbrev A.TOW_CYCNT : Nat := 0x60080018
abbrev A.TOW_NETID : Nat := 0x60080020
abbrev F.TOW_NETID_NETID : FRef := ⟨A.TOW_NETID, 0, 16⟩
abbrev A.TOW_HOLD : Nat := 0x60080024
abbrev F.TOW_HOLD_HOLD : FRef := ⟨A.TOW_HOLD, 0, 24⟩
abbrev A.TOW_SUBBASE : Nat := 0x60080028
abbrev F.TOW_SUBBASE_ADDR : FRef := ⟨A.TOW_SUBBASE, 6, 26⟩
abbrev A.TOW_DIAG : Nat := 0x6008002c
abbrev F.TOW_DIAG_OFF : FRef := ⟨A.TOW_DIAG, 0, 13⟩
abbrev A.TOW_CMD : Nat := 0x60080030
abbrev F.TOW_CMD_GO : FRef := ⟨A.TOW_CMD, 31, 1⟩
abbrev F.TOW_CMD_OP : FRef := ⟨A.TOW_CMD, 29, 2⟩
abbrev F.TOW_CMD_ADDR : FRef := ⟨A.TOW_CMD, 0, 8⟩
abbrev A.TOW_ENVERR : Nat := 0x60080040
abbrev F.TOW_ENVERR_HI : FRef := ⟨A.TOW_ENVERR, 16, 16⟩
abbrev F.TOW_ENVERR_LO : FRef := ⟨A.TOW_ENVERR, 0, 16⟩
abbrev A.TOW_SEQERR : Nat := 0x60080044
abbrev F.TOW_SEQERR_HI : FRef := ⟨A.TOW_SEQERR, 16, 16⟩
abbrev F.TOW_SEQERR_LO : FRef := ⟨A.TOW_SEQERR, 0, 16⟩
abbrev A.TOW_LATECNT : Nat := 0x60080048
abbrev F.TOW_LATECNT_HI : FRef := ⟨A.TOW_LATECNT, 16, 16⟩
abbrev F.TOW_LATECNT_LO : FRef := ⟨A.TOW_LATECNT, 0, 16⟩
abbrev A.TOW_MISWIRE : Nat := 0x6008004c
abbrev F.TOW_MISWIRE_COUNT : FRef := ⟨A.TOW_MISWIRE, 16, 16⟩
abbrev F.TOW_MISWIRE_LASTADDR : FRef := ⟨A.TOW_MISWIRE, 0, 8⟩
abbrev A.TOW_CLAIMUID : Nat := 0x60080050
abbrev A.TOW_CLAIMLOG : Nat := 0x60080058
abbrev F.TOW_CLAIMLOG_RESULT : FRef := ⟨A.TOW_CLAIMLOG, 30, 2⟩
abbrev F.TOW_CLAIMLOG_REASON : FRef := ⟨A.TOW_CLAIMLOG, 27, 3⟩
abbrev F.TOW_CLAIMLOG_ADDR : FRef := ⟨A.TOW_CLAIMLOG, 16, 8⟩
abbrev F.TOW_CLAIMLOG_PORT : FRef := ⟨A.TOW_CLAIMLOG, 8, 5⟩
abbrev A.TOW_CLAIMPROD : Nat := 0x6008005c
abbrev F.TOW_CLAIMPROD_PRODUCT : FRef := ⟨A.TOW_CLAIMPROD, 0, 32⟩
abbrev A.TOW_SILENTRX : Nat := 0x60080060
abbrev F.TOW_SILENTRX_COUNT : FRef := ⟨A.TOW_SILENTRX, 0, 32⟩
abbrev A.TOW_PORT_CFG (n : Nat) : Nat := 0x60080100 + 0x8 * n
abbrev F.TOW_PORT_CFG_EN (n : Nat) : FRef := ⟨A.TOW_PORT_CFG n, 31, 1⟩
abbrev F.TOW_PORT_CFG_SYNCRED (n : Nat) : FRef := ⟨A.TOW_PORT_CFG n, 28, 3⟩
abbrev F.TOW_PORT_CFG_CLAIMID (n : Nat) : FRef := ⟨A.TOW_PORT_CFG n, 8, 8⟩
abbrev A.TOW_PORT_CLAIM (n : Nat) : Nat := 0x60080104 + 0x8 * n
abbrev F.TOW_PORT_CLAIM_CLAIMOFF (n : Nat) : FRef := ⟨A.TOW_PORT_CLAIM n, 16, 16⟩
abbrev F.TOW_PORT_CLAIM_CLAIMLEN (n : Nat) : FRef := ⟨A.TOW_PORT_CLAIM n, 0, 16⟩
abbrev A.TOW_STN (n : Nat) : Nat := 0x60083000 + 0x4 * n
abbrev F.TOW_STN_BOUND (n : Nat) : FRef := ⟨A.TOW_STN n, 20, 1⟩
abbrev F.TOW_STN_MISSRUN (n : Nat) : FRef := ⟨A.TOW_STN n, 16, 4⟩
abbrev F.TOW_STN_RFLAGS (n : Nat) : FRef := ⟨A.TOW_STN n, 8, 8⟩
abbrev F.TOW_STN_CAUSE (n : Nat) : FRef := ⟨A.TOW_STN n, 4, 4⟩
abbrev F.TOW_STN_STATE (n : Nat) : FRef := ⟨A.TOW_STN n, 0, 3⟩
abbrev A.CAN_CTL (i : Nat) : Nat := 0x60400000 + 0x10000 * i
abbrev F.CAN_CTL_EN (i : Nat) : FRef := ⟨A.CAN_CTL i, 31, 1⟩
abbrev F.CAN_CTL_TERM (i : Nat) : FRef := ⟨A.CAN_CTL i, 30, 1⟩
abbrev F.CAN_CTL_FDEN (i : Nat) : FRef := ⟨A.CAN_CTL i, 29, 1⟩
abbrev F.CAN_CTL_AUTOREC (i : Nat) : FRef := ⟨A.CAN_CTL i, 28, 1⟩
abbrev F.CAN_CTL_SELFRX (i : Nat) : FRef := ⟨A.CAN_CTL i, 27, 1⟩
abbrev F.CAN_CTL_TDCEN (i : Nat) : FRef := ⟨A.CAN_CTL i, 26, 1⟩
abbrev F.CAN_CTL_MODE (i : Nat) : FRef := ⟨A.CAN_CTL i, 16, 2⟩
abbrev F.CAN_CTL_TDCO (i : Nat) : FRef := ⟨A.CAN_CTL i, 8, 7⟩
abbrev A.CAN_STATUS (i : Nat) : Nat := 0x60400004 + 0x10000 * i
abbrev F.CAN_STATUS_ACT (i : Nat) : FRef := ⟨A.CAN_STATUS i, 31, 1⟩
abbrev F.CAN_STATUS_ESTATE (i : Nat) : FRef := ⟨A.CAN_STATUS i, 29, 2⟩
abbrev F.CAN_STATUS_LEC (i : Nat) : FRef := ⟨A.CAN_STATUS i, 26, 3⟩
abbrev F.CAN_STATUS_LECDATA (i : Nat) : FRef := ⟨A.CAN_STATUS i, 25, 1⟩
abbrev F.CAN_STATUS_TDCV (i : Nat) : FRef := ⟨A.CAN_STATUS i, 16, 7⟩
abbrev F.CAN_STATUS_REC (i : Nat) : FRef := ⟨A.CAN_STATUS i, 8, 8⟩
abbrev F.CAN_STATUS_TEC (i : Nat) : FRef := ⟨A.CAN_STATUS i, 0, 8⟩
abbrev A.CAN_EVT (i : Nat) : Nat := 0x60400008 + 0x10000 * i
abbrev F.CAN_EVT_EVSEQ (i : Nat) : FRef := ⟨A.CAN_EVT i, 24, 8⟩
abbrev F.CAN_EVT_RECOVERED (i : Nat) : FRef := ⟨A.CAN_EVT i, 6, 1⟩
abbrev F.CAN_EVT_PEXC (i : Nat) : FRef := ⟨A.CAN_EVT i, 5, 1⟩
abbrev F.CAN_EVT_IMGERR (i : Nat) : FRef := ⟨A.CAN_EVT i, 4, 1⟩
abbrev F.CAN_EVT_DMAERR (i : Nat) : FRef := ⟨A.CAN_EVT i, 3, 1⟩
abbrev F.CAN_EVT_RXLOST (i : Nat) : FRef := ⟨A.CAN_EVT i, 2, 1⟩
abbrev F.CAN_EVT_ESTATE (i : Nat) : FRef := ⟨A.CAN_EVT i, 1, 1⟩
abbrev F.CAN_EVT_ERR (i : Nat) : FRef := ⟨A.CAN_EVT i, 0, 1⟩
abbrev A.CAN_EVEN (i : Nat) : Nat := 0x6040000c + 0x10000 * i
abbrev F.CAN_EVEN_EN (i : Nat) : FRef := ⟨A.CAN_EVEN i, 0, 7⟩
abbrev A.CAN_NBT (i : Nat) : Nat := 0x60400010 + 0x10000 * i
abbrev F.CAN_NBT_BRPM1 (i : Nat) : FRef := ⟨A.CAN_NBT i, 24, 8⟩
abbrev F.CAN_NBT_TSEG1M1 (i : Nat) : FRef := ⟨A.CAN_NBT i, 16, 8⟩
abbrev F.CAN_NBT_TSEG2M1 (i : Nat) : FRef := ⟨A.CAN_NBT i, 8, 7⟩
abbrev F.CAN_NBT_SJWM1 (i : Nat) : FRef := ⟨A.CAN_NBT i, 0, 7⟩
abbrev A.CAN_DBT (i : Nat) : Nat := 0x60400014 + 0x10000 * i
abbrev F.CAN_DBT_BRPM1 (i : Nat) : FRef := ⟨A.CAN_DBT i, 24, 5⟩
abbrev F.CAN_DBT_TSEG1M1 (i : Nat) : FRef := ⟨A.CAN_DBT i, 16, 5⟩
abbrev F.CAN_DBT_TSEG2M1 (i : Nat) : FRef := ⟨A.CAN_DBT i, 8, 4⟩
abbrev F.CAN_DBT_SJWM1 (i : Nat) : FRef := ⟨A.CAN_DBT i, 0, 4⟩
abbrev A.CAN_ERRCNT (i : Nat) : Nat := 0x60400018 + 0x10000 * i
abbrev F.CAN_ERRCNT_CRC (i : Nat) : FRef := ⟨A.CAN_ERRCNT i, 24, 8⟩
abbrev F.CAN_ERRCNT_ACK (i : Nat) : FRef := ⟨A.CAN_ERRCNT i, 16, 8⟩
abbrev F.CAN_ERRCNT_BIT (i : Nat) : FRef := ⟨A.CAN_ERRCNT i, 8, 8⟩
abbrev F.CAN_ERRCNT_FMT (i : Nat) : FRef := ⟨A.CAN_ERRCNT i, 0, 8⟩
abbrev A.CAN_CMD (i : Nat) : Nat := 0x6040001c + 0x10000 * i
abbrev F.CAN_CMD_RECOVER (i : Nat) : FRef := ⟨A.CAN_CMD i, 1, 1⟩
abbrev F.CAN_CMD_XCAP (i : Nat) : FRef := ⟨A.CAN_CMD i, 0, 1⟩
abbrev A.CAN_TSC (i : Nat) : Nat := 0x60400020 + 0x10000 * i
abbrev F.CAN_TSC_COUNT (i : Nat) : FRef := ⟨A.CAN_TSC i, 0, 32⟩
abbrev A.CAN_TSCFG (i : Nat) : Nat := 0x60400024 + 0x10000 * i
abbrev F.CAN_TSCFG_XAUTO (i : Nat) : FRef := ⟨A.CAN_TSCFG i, 31, 1⟩
abbrev F.CAN_TSCFG_XPER (i : Nat) : FRef := ⟨A.CAN_TSCFG i, 24, 4⟩
abbrev F.CAN_TSCFG_TSDIV (i : Nat) : FRef := ⟨A.CAN_TSCFG i, 0, 8⟩
abbrev A.CAN_XCAPT (i : Nat) : Nat := 0x60400028 + 0x10000 * i
abbrev F.CAN_XCAPT_COUNT (i : Nat) : FRef := ⟨A.CAN_XCAPT i, 0, 32⟩
abbrev A.CAN_RXRING (i : Nat) : Nat := 0x60400030 + 0x10000 * i
abbrev F.CAN_RXRING_EN (i : Nat) : FRef := ⟨A.CAN_RXRING i, 31, 1⟩
abbrev F.CAN_RXRING_RESUME (i : Nat) : FRef := ⟨A.CAN_RXRING i, 30, 1⟩
abbrev F.CAN_RXRING_ROLE (i : Nat) : FRef := ⟨A.CAN_RXRING i, 28, 2⟩
abbrev F.CAN_RXRING_SIZE (i : Nat) : FRef := ⟨A.CAN_RXRING i, 20, 4⟩
abbrev F.CAN_RXRING_BASE (i : Nat) : FRef := ⟨A.CAN_RXRING i, 6, 14⟩
abbrev A.CAN_RXWP (i : Nat) : Nat := 0x60400034 + 0x10000 * i
abbrev F.CAN_RXWP_INDEX (i : Nat) : FRef := ⟨A.CAN_RXWP i, 3, 13⟩
abbrev A.CAN_RXRP (i : Nat) : Nat := 0x60400038 + 0x10000 * i
abbrev F.CAN_RXRP_INDEX (i : Nat) : FRef := ⟨A.CAN_RXRP i, 3, 13⟩
abbrev A.CAN_RXSTAT (i : Nat) : Nat := 0x6040003c + 0x10000 * i
abbrev F.CAN_RXSTAT_CODE (i : Nat) : FRef := ⟨A.CAN_RXSTAT i, 28, 4⟩
abbrev F.CAN_RXSTAT_STATE (i : Nat) : FRef := ⟨A.CAN_RXSTAT i, 24, 2⟩
abbrev F.CAN_RXSTAT_LOST (i : Nat) : FRef := ⟨A.CAN_RXSTAT i, 0, 16⟩
abbrev A.CAN_TXREQ (i : Nat) : Nat := 0x60400050 + 0x10000 * i
abbrev F.CAN_TXREQ_BUF (i : Nat) : FRef := ⟨A.CAN_TXREQ i, 0, 16⟩
abbrev A.CAN_TXCAN (i : Nat) : Nat := 0x60400054 + 0x10000 * i
abbrev F.CAN_TXCAN_BUF (i : Nat) : FRef := ⟨A.CAN_TXCAN i, 0, 16⟩
abbrev A.CAN_TXPEND (i : Nat) : Nat := 0x60400058 + 0x10000 * i
abbrev F.CAN_TXPEND_BUF (i : Nat) : FRef := ⟨A.CAN_TXPEND i, 0, 16⟩
abbrev A.CAN_TXST (i : Nat) (n : Nat) : Nat := 0x60400080 + 0x10000 * i + 0x4 * n
abbrev F.CAN_TXST_BUF (i : Nat) (n : Nat) : FRef := ⟨A.CAN_TXST i n, 16, 5⟩
abbrev F.CAN_TXST_CANFAIL (i : Nat) (n : Nat) : FRef := ⟨A.CAN_TXST i n, 15, 1⟩
abbrev F.CAN_TXST_ATTEMPTS (i : Nat) (n : Nat) : FRef := ⟨A.CAN_TXST i n, 8, 6⟩
abbrev F.CAN_TXST_RESULT (i : Nat) (n : Nat) : FRef := ⟨A.CAN_TXST i n, 0, 4⟩
abbrev A.CAN_IMG_ID (i : Nat) (n : Nat) : Nat := 0x60400100 + 0x10000 * i + 0x8 * n
abbrev F.CAN_IMG_ID_EN (i : Nat) (n : Nat) : FRef := ⟨A.CAN_IMG_ID i n, 31, 1⟩
abbrev F.CAN_IMG_ID_IDE (i : Nat) (n : Nat) : FRef := ⟨A.CAN_IMG_ID i n, 29, 1⟩
abbrev F.CAN_IMG_ID_ID (i : Nat) (n : Nat) : FRef := ⟨A.CAN_IMG_ID i n, 0, 29⟩
abbrev A.CAN_IMG_DST (i : Nat) (n : Nat) : Nat := 0x60400104 + 0x10000 * i + 0x8 * n
abbrev F.CAN_IMG_DST_AGE (i : Nat) (n : Nat) : FRef := ⟨A.CAN_IMG_DST i n, 24, 8⟩
abbrev F.CAN_IMG_DST_LENM1 (i : Nat) (n : Nat) : FRef := ⟨A.CAN_IMG_DST i n, 18, 6⟩
abbrev F.CAN_IMG_DST_INOFF (i : Nat) (n : Nat) : FRef := ⟨A.CAN_IMG_DST i n, 0, 17⟩
abbrev A.CAN_TXBUF (i : Nat) (n : Nat) : Nat := 0x60401000 + 0x10000 * i + 0x80 * n
abbrev F.CAN_TXBUF_WORD (i : Nat) (n : Nat) : FRef := ⟨A.CAN_TXBUF i n, 0, 32⟩
abbrev A.BTL_CTL (i : Nat) : Nat := 0x600a0000 + 0x10000 * i
abbrev F.BTL_CTL_RESTART (i : Nat) : FRef := ⟨A.BTL_CTL i, 16, 8⟩
abbrev F.BTL_CTL_EN (i : Nat) : FRef := ⟨A.BTL_CTL i, 0, 8⟩
abbrev A.BTL_STATUS (i : Nat) : Nat := 0x600a0004 + 0x10000 * i
abbrev F.BTL_STATUS_STATE (i : Nat) : FRef := ⟨A.BTL_STATUS i, 0, 16⟩
abbrev A.BTL_EVT (i : Nat) : Nat := 0x600a0008 + 0x10000 * i
abbrev F.BTL_EVT_EVSEQ (i : Nat) : FRef := ⟨A.BTL_EVT i, 24, 8⟩
abbrev F.BTL_EVT_DMAERR (i : Nat) : FRef := ⟨A.BTL_EVT i, 16, 8⟩
abbrev F.BTL_EVT_FAULT (i : Nat) : FRef := ⟨A.BTL_EVT i, 8, 8⟩
abbrev F.BTL_EVT_OVF (i : Nat) : FRef := ⟨A.BTL_EVT i, 0, 8⟩
abbrev A.BTL_EVEN (i : Nat) : Nat := 0x600a000c + 0x10000 * i
abbrev F.BTL_EVEN_EN (i : Nat) : FRef := ⟨A.BTL_EVEN i, 0, 24⟩
abbrev A.BTL_FLAGS (i : Nat) : Nat := 0x600a0010 + 0x10000 * i
abbrev F.BTL_FLAGS_FLAG (i : Nat) : FRef := ⟨A.BTL_FLAGS i, 0, 16⟩
abbrev A.BTL_STORE (i : Nat) (n : Nat) : Nat := 0x600a0100 + 0x10000 * i + 0x4 * n
abbrev F.BTL_STORE_INSTR (i : Nat) (n : Nat) : FRef := ⟨A.BTL_STORE i n, 0, 16⟩
abbrev A.BTL_ENG_CTL (i : Nat) (n : Nat) : Nat := 0x600a0400 + 0x10000 * i + 0x40 * n
abbrev F.BTL_ENG_CTL_DIV (i : Nat) (n : Nat) : FRef := ⟨A.BTL_ENG_CTL i n, 16, 16⟩
abbrev F.BTL_ENG_CTL_START (i : Nat) (n : Nat) : FRef := ⟨A.BTL_ENG_CTL i n, 8, 6⟩
abbrev F.BTL_ENG_CTL_SETCNT (i : Nat) (n : Nat) : FRef := ⟨A.BTL_ENG_CTL i n, 0, 3⟩
abbrev A.BTL_ENG_PINS (i : Nat) (n : Nat) : Nat := 0x600a0404 + 0x10000 * i + 0x40 * n
abbrev F.BTL_ENG_PINS_CLKEN (i : Nat) (n : Nat) : FRef := ⟨A.BTL_ENG_PINS i n, 31, 1⟩
abbrev F.BTL_ENG_PINS_OUTEN (i : Nat) (n : Nat) : FRef := ⟨A.BTL_ENG_PINS i n, 30, 1⟩
abbrev F.BTL_ENG_PINS_CLKPIN (i : Nat) (n : Nat) : FRef := ⟨A.BTL_ENG_PINS i n, 24, 6⟩
abbrev F.BTL_ENG_PINS_OUTPIN (i : Nat) (n : Nat) : FRef := ⟨A.BTL_ENG_PINS i n, 18, 6⟩
abbrev F.BTL_ENG_PINS_INPIN (i : Nat) (n : Nat) : FRef := ⟨A.BTL_ENG_PINS i n, 12, 6⟩
abbrev F.BTL_ENG_PINS_JPIN (i : Nat) (n : Nat) : FRef := ⟨A.BTL_ENG_PINS i n, 6, 6⟩
abbrev F.BTL_ENG_PINS_SETBASE (i : Nat) (n : Nat) : FRef := ⟨A.BTL_ENG_PINS i n, 0, 6⟩
abbrev A.BTL_ENG_SHCFG (i : Nat) (n : Nat) : Nat := 0x600a0408 + 0x10000 * i + 0x40 * n
abbrev F.BTL_ENG_SHCFG_FRAMEEN (i : Nat) (n : Nat) : FRef := ⟨A.BTL_ENG_SHCFG i n, 31, 1⟩
abbrev F.BTL_ENG_SHCFG_TXEN (i : Nat) (n : Nat) : FRef := ⟨A.BTL_ENG_SHCFG i n, 30, 1⟩
abbrev F.BTL_ENG_SHCFG_RXEN (i : Nat) (n : Nat) : FRef := ⟨A.BTL_ENG_SHCFG i n, 29, 1⟩
abbrev F.BTL_ENG_SHCFG_MSBFIRST (i : Nat) (n : Nat) : FRef := ⟨A.BTL_ENG_SHCFG i n, 28, 1⟩
abbrev F.BTL_ENG_SHCFG_CPOL (i : Nat) (n : Nat) : FRef := ⟨A.BTL_ENG_SHCFG i n, 27, 1⟩
abbrev F.BTL_ENG_SHCFG_SAMPLE (i : Nat) (n : Nat) : FRef := ⟨A.BTL_ENG_SHCFG i n, 26, 1⟩
abbrev F.BTL_ENG_SHCFG_FRAMELEN (i : Nat) (n : Nat) : FRef := ⟨A.BTL_ENG_SHCFG i n, 0, 5⟩
abbrev A.BTL_ENG_STAT (i : Nat) (n : Nat) : Nat := 0x600a040c + 0x10000 * i + 0x40 * n
abbrev F.BTL_ENG_STAT_STATE (i : Nat) (n : Nat) : FRef := ⟨A.BTL_ENG_STAT i n, 30, 2⟩
abbrev F.BTL_ENG_STAT_FCAUSE (i : Nat) (n : Nat) : FRef := ⟨A.BTL_ENG_STAT i n, 28, 2⟩
abbrev F.BTL_ENG_STAT_TXLVL (i : Nat) (n : Nat) : FRef := ⟨A.BTL_ENG_STAT i n, 24, 3⟩
abbrev F.BTL_ENG_STAT_RXLVL (i : Nat) (n : Nat) : FRef := ⟨A.BTL_ENG_STAT i n, 20, 3⟩
abbrev F.BTL_ENG_STAT_STALLBY (i : Nat) (n : Nat) : FRef := ⟨A.BTL_ENG_STAT i n, 18, 2⟩
abbrev F.BTL_ENG_STAT_LEFT (i : Nat) (n : Nat) : FRef := ⟨A.BTL_ENG_STAT i n, 12, 6⟩
abbrev F.BTL_ENG_STAT_BC (i : Nat) (n : Nat) : FRef := ⟨A.BTL_ENG_STAT i n, 6, 6⟩
abbrev F.BTL_ENG_STAT_PC (i : Nat) (n : Nat) : FRef := ⟨A.BTL_ENG_STAT i n, 0, 6⟩
abbrev A.BTL_ENG_TX (i : Nat) (n : Nat) : Nat := 0x600a0410 + 0x10000 * i + 0x40 * n
abbrev F.BTL_ENG_TX_DATA (i : Nat) (n : Nat) : FRef := ⟨A.BTL_ENG_TX i n, 0, 32⟩
abbrev A.BTL_ENG_CNT (i : Nat) (n : Nat) : Nat := 0x600a0414 + 0x10000 * i + 0x40 * n
abbrev F.BTL_ENG_CNT_TXDROP (i : Nat) (n : Nat) : FRef := ⟨A.BTL_ENG_CNT i n, 16, 16⟩
abbrev F.BTL_ENG_CNT_RXOVF (i : Nat) (n : Nat) : FRef := ⟨A.BTL_ENG_CNT i n, 0, 16⟩
abbrev A.BTL_ENG_RX (i : Nat) (n : Nat) : Nat := 0x600a0418 + 0x10000 * i + 0x40 * n
abbrev F.BTL_ENG_RX_EMPTY (i : Nat) (n : Nat) : FRef := ⟨A.BTL_ENG_RX i n + 4, 31, 1⟩
abbrev F.BTL_ENG_RX_LEFT (i : Nat) (n : Nat) : FRef := ⟨A.BTL_ENG_RX i n + 4, 0, 3⟩
abbrev F.BTL_ENG_RX_DATA (i : Nat) (n : Nat) : FRef := ⟨A.BTL_ENG_RX i n, 0, 32⟩
abbrev A.BTL_ENG_RXDMA (i : Nat) (n : Nat) : Nat := 0x600a0420 + 0x10000 * i + 0x40 * n
abbrev F.BTL_ENG_RXDMA_EN (i : Nat) (n : Nat) : FRef := ⟨A.BTL_ENG_RXDMA i n, 31, 1⟩
abbrev F.BTL_ENG_RXDMA_NWM1 (i : Nat) (n : Nat) : FRef := ⟨A.BTL_ENG_RXDMA i n, 28, 2⟩
abbrev F.BTL_ENG_RXDMA_AGE (i : Nat) (n : Nat) : FRef := ⟨A.BTL_ENG_RXDMA i n, 20, 8⟩
abbrev F.BTL_ENG_RXDMA_INOFF (i : Nat) (n : Nat) : FRef := ⟨A.BTL_ENG_RXDMA i n, 0, 17⟩
abbrev A.BTL_ENG_TXDMA (i : Nat) (n : Nat) : Nat := 0x600a0424 + 0x10000 * i + 0x40 * n
abbrev F.BTL_ENG_TXDMA_EN (i : Nat) (n : Nat) : FRef := ⟨A.BTL_ENG_TXDMA i n, 31, 1⟩
abbrev F.BTL_ENG_TXDMA_NWM1 (i : Nat) (n : Nat) : FRef := ⟨A.BTL_ENG_TXDMA i n, 28, 2⟩
abbrev F.BTL_ENG_TXDMA_OUTOFF (i : Nat) (n : Nat) : FRef := ⟨A.BTL_ENG_TXDMA i n, 0, 17⟩
abbrev A.BTL_ENG_K (i : Nat) (n : Nat) : Nat := 0x600a0428 + 0x10000 * i + 0x40 * n
abbrev F.BTL_ENG_K_K1 (i : Nat) (n : Nat) : FRef := ⟨A.BTL_ENG_K i n, 16, 16⟩
abbrev F.BTL_ENG_K_K0 (i : Nat) (n : Nat) : FRef := ⟨A.BTL_ENG_K i n, 0, 16⟩
abbrev A.BTL_PIN (i : Nat) (n : Nat) : Nat := 0x600a0800 + 0x10000 * i + 0x4 * n
abbrev F.BTL_PIN_LEVEL (i : Nat) (n : Nat) : FRef := ⟨A.BTL_PIN i n, 31, 1⟩
abbrev F.BTL_PIN_DIR (i : Nat) (n : Nat) : FRef := ⟨A.BTL_PIN i n, 30, 1⟩
abbrev F.BTL_PIN_VAL (i : Nat) (n : Nat) : FRef := ⟨A.BTL_PIN i n, 29, 1⟩
abbrev F.BTL_PIN_WRITER (i : Nat) (n : Nat) : FRef := ⟨A.BTL_PIN i n, 24, 5⟩
abbrev F.BTL_PIN_TERM (i : Nat) (n : Nat) : FRef := ⟨A.BTL_PIN i n, 7, 1⟩
abbrev F.BTL_PIN_FILT (i : Nat) (n : Nat) : FRef := ⟨A.BTL_PIN i n, 6, 1⟩
abbrev F.BTL_PIN_INV (i : Nat) (n : Nat) : FRef := ⟨A.BTL_PIN i n, 5, 1⟩
abbrev F.BTL_PIN_OD (i : Nat) (n : Nat) : FRef := ⟨A.BTL_PIN i n, 4, 1⟩
abbrev F.BTL_PIN_PULL (i : Nat) (n : Nat) : FRef := ⟨A.BTL_PIN i n, 2, 2⟩
abbrev A.WFB_CTL : Nat := 0x600e0000
abbrev F.WFB_CTL_EN : FRef := ⟨A.WFB_CTL, 31, 1⟩
abbrev F.WFB_CTL_MODE : FRef := ⟨A.WFB_CTL, 30, 1⟩
abbrev F.WFB_CTL_RSTEN : FRef := ⟨A.WFB_CTL, 29, 1⟩
abbrev F.WFB_CTL_LGEN : FRef := ⟨A.WFB_CTL, 28, 1⟩
abbrev F.WFB_CTL_LINKEN : FRef := ⟨A.WFB_CTL, 24, 4⟩
abbrev F.WFB_CTL_PRIO : FRef := ⟨A.WFB_CTL, 20, 4⟩
abbrev F.WFB_CTL_REQID : FRef := ⟨A.WFB_CTL, 0, 12⟩
abbrev A.WFB_STATUS : Nat := 0x600e0004
abbrev F.WFB_STATUS_OWNID : FRef := ⟨A.WFB_STATUS, 20, 12⟩
abbrev F.WFB_STATUS_TREE : FRef := ⟨A.WFB_STATUS, 16, 4⟩
abbrev F.WFB_STATUS_LINKUP : FRef := ⟨A.WFB_STATUS, 12, 4⟩
abbrev F.WFB_STATUS_ROOT : FRef := ⟨A.WFB_STATUS, 11, 1⟩
abbrev F.WFB_STATUS_DSTATE : FRef := ⟨A.WFB_STATUS, 8, 3⟩
abbrev F.WFB_STATUS_DIST : FRef := ⟨A.WFB_STATUS, 0, 6⟩
abbrev A.WFB_EVT : Nat := 0x600e0008
abbrev F.WFB_EVT_EVSEQ : FRef := ⟨A.WFB_EVT, 24, 8⟩
abbrev F.WFB_EVT_RESETREQ : FRef := ⟨A.WFB_EVT, 8, 1⟩
abbrev F.WFB_EVT_TLOCK : FRef := ⟨A.WFB_EVT, 7, 1⟩
abbrev F.WFB_EVT_DROP : FRef := ⟨A.WFB_EVT, 6, 1⟩
abbrev F.WFB_EVT_RETRYFAIL : FRef := ⟨A.WFB_EVT, 5, 1⟩
abbrev F.WFB_EVT_LASTGASP : FRef := ⟨A.WFB_EVT, 4, 1⟩
abbrev F.WFB_EVT_IDCONF : FRef := ⟨A.WFB_EVT, 3, 1⟩
abbrev F.WFB_EVT_IDCHG : FRef := ⟨A.WFB_EVT, 2, 1⟩
abbrev F.WFB_EVT_TOPO : FRef := ⟨A.WFB_EVT, 1, 1⟩
abbrev F.WFB_EVT_LINK : FRef := ⟨A.WFB_EVT, 0, 1⟩
abbrev A.WFB_EVEN : Nat := 0x600e000c
abbrev F.WFB_EVEN_EN : FRef := ⟨A.WFB_EVEN, 0, 9⟩
abbrev A.WFB_TIMER : Nat := 0x600e0010
abbrev F.WFB_TIMER_TSYNC : FRef := ⟨A.WFB_TIMER, 16, 16⟩
abbrev F.WFB_TIMER_NBRTMO : FRef := ⟨A.WFB_TIMER, 8, 8⟩
abbrev F.WFB_TIMER_HELLO : FRef := ⟨A.WFB_TIMER, 0, 8⟩
abbrev A.WFB_EPOCH : Nat := 0x600e0014
abbrev F.WFB_EPOCH_EPOCH : FRef := ⟨A.WFB_EPOCH, 0, 16⟩
abbrev A.WFB_TSTAT : Nat := 0x600e0018
abbrev F.WFB_TSTAT_LOCKED : FRef := ⟨A.WFB_TSTAT, 31, 1⟩
abbrev F.WFB_TSTAT_MASTER : FRef := ⟨A.WFB_TSTAT, 30, 1⟩
abbrev F.WFB_TSTAT_TLINK : FRef := ⟨A.WFB_TSTAT, 8, 2⟩
abbrev F.WFB_TSTAT_LOCKCNT : FRef := ⟨A.WFB_TSTAT, 0, 8⟩
abbrev A.WFB_TOFF : Nat := 0x600e001c
abbrev F.WFB_TOFF_OFF : FRef := ⟨A.WFB_TOFF, 0, 32⟩
abbrev A.WFB_ROOTUID (n : Nat) : Nat := 0x600e0020 + 0x4 * n
abbrev F.WFB_ROOTUID_UID (n : Nat) : FRef := ⟨A.WFB_ROOTUID n, 0, 32⟩
abbrev A.WFB_DROP : Nat := 0x600e0030
abbrev F.WFB_DROP_ROUTE : FRef := ⟨A.WFB_DROP, 16, 16⟩
abbrev F.WFB_DROP_HOPS : FRef := ⟨A.WFB_DROP, 0, 16⟩
abbrev A.WFB_RSTCMD : Nat := 0x600e0034
abbrev F.WFB_RSTCMD_GO : FRef := ⟨A.WFB_RSTCMD, 31, 1⟩
abbrev F.WFB_RSTCMD_RESULT : FRef := ⟨A.WFB_RSTCMD, 12, 2⟩
abbrev F.WFB_RSTCMD_TARGET : FRef := ⟨A.WFB_RSTCMD, 0, 12⟩
abbrev A.WFB_LGLOG : Nat := 0x600e0038
abbrev F.WFB_LGLOG_SRCID : FRef := ⟨A.WFB_LGLOG, 20, 12⟩
abbrev F.WFB_LGLOG_CAUSE : FRef := ⟨A.WFB_LGLOG, 16, 4⟩
abbrev F.WFB_LGLOG_LINK : FRef := ⟨A.WFB_LGLOG, 14, 2⟩
abbrev F.WFB_LGLOG_FWD : FRef := ⟨A.WFB_LGLOG, 13, 1⟩
abbrev F.WFB_LGLOG_COUNT : FRef := ⟨A.WFB_LGLOG, 0, 13⟩
abbrev A.WFB_LGTIME : Nat := 0x600e0040
abbrev A.WFB_LINK_CTL (n : Nat) : Nat := 0x600e0100 + 0x20 * n
abbrev F.WFB_LINK_CTL_RETRAIN (n : Nat) : FRef := ⟨A.WFB_LINK_CTL n, 2, 1⟩
abbrev F.WFB_LINK_CTL_FRAMES (n : Nat) : FRef := ⟨A.WFB_LINK_CTL n, 1, 1⟩
abbrev F.WFB_LINK_CTL_TPAR (n : Nat) : FRef := ⟨A.WFB_LINK_CTL n, 0, 1⟩
abbrev A.WFB_LINK_STAT (n : Nat) : Nat := 0x600e0104 + 0x20 * n
abbrev F.WFB_LINK_STAT_NBRID (n : Nat) : FRef := ⟨A.WFB_LINK_STAT n, 20, 12⟩
abbrev F.WFB_LINK_STAT_NBRLINK (n : Nat) : FRef := ⟨A.WFB_LINK_STAT n, 18, 2⟩
abbrev F.WFB_LINK_STAT_POLINV (n : Nat) : FRef := ⟨A.WFB_LINK_STAT n, 5, 1⟩
abbrev F.WFB_LINK_STAT_UP (n : Nat) : FRef := ⟨A.WFB_LINK_STAT n, 4, 1⟩
abbrev F.WFB_LINK_STAT_TREE (n : Nat) : FRef := ⟨A.WFB_LINK_STAT n, 3, 1⟩
abbrev F.WFB_LINK_STAT_STATE (n : Nat) : FRef := ⟨A.WFB_LINK_STAT n, 0, 3⟩
abbrev A.WFB_LINK_ERR (n : Nat) : Nat := 0x600e0108 + 0x20 * n
abbrev F.WFB_LINK_ERR_CRCERR (n : Nat) : FRef := ⟨A.WFB_LINK_ERR n, 16, 16⟩
abbrev F.WFB_LINK_ERR_REPLAYS (n : Nat) : FRef := ⟨A.WFB_LINK_ERR n, 0, 16⟩
abbrev A.WFB_LINK_DELAY (n : Nat) : Nat := 0x600e010c + 0x20 * n
abbrev F.WFB_LINK_DELAY_DELAY (n : Nat) : FRef := ⟨A.WFB_LINK_DELAY n, 0, 16⟩
abbrev A.WFB_LINK_FDROP (n : Nat) : Nat := 0x600e0110 + 0x20 * n
abbrev F.WFB_LINK_FDROP_COUNT (n : Nat) : FRef := ⟨A.WFB_LINK_FDROP n, 0, 32⟩
abbrev A.WFB_RT (n : Nat) : Nat := 0x600e2000 + 0x4 * n
abbrev F.WFB_RT_ENT (n : Nat) : FRef := ⟨A.WFB_RT n, 0, 32⟩
abbrev A.BRG_CTL : Nat := 0x600f0000
abbrev F.BRG_CTL_FEN : FRef := ⟨A.BRG_CTL, 31, 1⟩
abbrev F.BRG_CTL_HEN : FRef := ⟨A.BRG_CTL, 30, 1⟩
abbrev F.BRG_CTL_PFAGE : FRef := ⟨A.BRG_CTL, 0, 8⟩
abbrev A.BRG_STATUS : Nat := 0x600f0004
abbrev F.BRG_STATUS_RDOUT : FRef := ⟨A.BRG_STATUS, 16, 7⟩
abbrev F.BRG_STATUS_SEMHELD : FRef := ⟨A.BRG_STATUS, 0, 6⟩
abbrev A.BRG_EVT : Nat := 0x600f0008
abbrev F.BRG_EVT_EVSEQ : FRef := ⟨A.BRG_EVT, 24, 8⟩
abbrev F.BRG_EVT_IPDROP : FRef := ⟨A.BRG_EVT, 6, 1⟩
abbrev F.BRG_EVT_IPERR : FRef := ⟨A.BRG_EVT, 5, 1⟩
abbrev F.BRG_EVT_SEMREL : FRef := ⟨A.BRG_EVT, 4, 1⟩
abbrev F.BRG_EVT_SEMTMO : FRef := ⟨A.BRG_EVT, 3, 1⟩
abbrev F.BRG_EVT_LATE : FRef := ⟨A.BRG_EVT, 2, 1⟩
abbrev F.BRG_EVT_RDTMO : FRef := ⟨A.BRG_EVT, 1, 1⟩
abbrev F.BRG_EVT_PWERR : FRef := ⟨A.BRG_EVT, 0, 1⟩
abbrev A.BRG_EVEN : Nat := 0x600f000c
abbrev F.BRG_EVEN_EN : FRef := ⟨A.BRG_EVEN, 0, 7⟩
abbrev A.BRG_RDTMO : Nat := 0x600f0010
abbrev F.BRG_RDTMO_TMO : FRef := ⟨A.BRG_RDTMO, 0, 14⟩
abbrev A.BRG_LATECNT : Nat := 0x600f0014
abbrev F.BRG_LATECNT_TIMEOUT : FRef := ⟨A.BRG_LATECNT, 16, 16⟩
abbrev F.BRG_LATECNT_LATE : FRef := ⟨A.BRG_LATECNT, 0, 16⟩
abbrev A.BRG_PWSEQ : Nat := 0x600f0018
abbrev F.BRG_PWSEQ_SEQ : FRef := ⟨A.BRG_PWSEQ, 0, 32⟩
abbrev A.BRG_PWERRPTR : Nat := 0x600f001c
abbrev F.BRG_PWERRPTR_TOTAL : FRef := ⟨A.BRG_PWERRPTR, 16, 16⟩
abbrev F.BRG_PWERRPTR_NEXT : FRef := ⟨A.BRG_PWERRPTR, 0, 3⟩
abbrev A.BRG_SEMCFG : Nat := 0x600f0020
abbrev F.BRG_SEMCFG_HOLD : FRef := ⟨A.BRG_SEMCFG, 0, 16⟩
abbrev A.BRG_PWERR_ADDR (n : Nat) : Nat := 0x600f0100 + 0x10 * n
abbrev F.BRG_PWERR_ADDR_ADDR (n : Nat) : FRef := ⟨A.BRG_PWERR_ADDR n, 0, 32⟩
abbrev A.BRG_PWERR_INFO (n : Nat) : Nat := 0x600f0104 + 0x10 * n
abbrev F.BRG_PWERR_INFO_FID (n : Nat) : FRef := ⟨A.BRG_PWERR_INFO n, 20, 12⟩
abbrev F.BRG_PWERR_INFO_HOSTOFF (n : Nat) : FRef := ⟨A.BRG_PWERR_INFO n, 11, 1⟩
abbrev F.BRG_PWERR_INFO_BRIDGE (n : Nat) : FRef := ⟨A.BRG_PWERR_INFO n, 10, 1⟩
abbrev F.BRG_PWERR_INFO_ID (n : Nat) : FRef := ⟨A.BRG_PWERR_INFO n, 4, 6⟩
abbrev F.BRG_PWERR_INFO_CODE (n : Nat) : FRef := ⟨A.BRG_PWERR_INFO n, 0, 4⟩
abbrev A.BRG_PWERR_SEQ (n : Nat) : Nat := 0x600f0108 + 0x10 * n
abbrev F.BRG_PWERR_SEQ_SEQ (n : Nat) : FRef := ⟨A.BRG_PWERR_SEQ n, 0, 32⟩
abbrev A.BRG_HWIN (n : Nat) : Nat := 0x600f0200 + 0x4 * n
abbrev F.BRG_HWIN_EN (n : Nat) : FRef := ⟨A.BRG_HWIN n, 31, 1⟩
abbrev F.BRG_HWIN_PF (n : Nat) : FRef := ⟨A.BRG_HWIN n, 30, 1⟩
abbrev F.BRG_HWIN_BASE (n : Nat) : FRef := ⟨A.BRG_HWIN n, 0, 9⟩
abbrev A.BRG_FWIN (n : Nat) : Nat := 0x600f0300 + 0x4 * n
abbrev F.BRG_FWIN_EN (n : Nat) : FRef := ⟨A.BRG_FWIN n, 31, 1⟩
abbrev F.BRG_FWIN_PF (n : Nat) : FRef := ⟨A.BRG_FWIN n, 30, 1⟩
abbrev F.BRG_FWIN_FID (n : Nat) : FRef := ⟨A.BRG_FWIN n, 12, 12⟩
abbrev F.BRG_FWIN_BASE (n : Nat) : FRef := ⟨A.BRG_FWIN n, 0, 6⟩
abbrev A.BRG_SEM_BASE (n : Nat) : Nat := 0x600f0400 + 0x10 * n
abbrev F.BRG_SEM_BASE_BASE (n : Nat) : FRef := ⟨A.BRG_SEM_BASE n, 6, 26⟩
abbrev F.BRG_SEM_BASE_ROLEREL (n : Nat) : FRef := ⟨A.BRG_SEM_BASE n, 3, 1⟩
abbrev F.BRG_SEM_BASE_ROLE (n : Nat) : FRef := ⟨A.BRG_SEM_BASE n, 0, 2⟩
abbrev A.BRG_SEM_SIZE (n : Nat) : Nat := 0x600f0404 + 0x10 * n
abbrev F.BRG_SEM_SIZE_EN (n : Nat) : FRef := ⟨A.BRG_SEM_SIZE n, 31, 1⟩
abbrev F.BRG_SEM_SIZE_LINESM1 (n : Nat) : FRef := ⟨A.BRG_SEM_SIZE n, 0, 14⟩
abbrev A.BRG_SEM (n : Nat) : Nat := 0x600f0408 + 0x10 * n
abbrev F.BRG_SEM_OFID (n : Nat) : FRef := ⟨A.BRG_SEM n, 16, 12⟩
abbrev F.BRG_SEM_STATE (n : Nat) : FRef := ⟨A.BRG_SEM n, 0, 7⟩
abbrev A.BRG_IP_SRC (n : Nat) : Nat := 0x600f0600 + 0x10 * n
abbrev F.BRG_IP_SRC_ADDR (n : Nat) : FRef := ⟨A.BRG_IP_SRC n, 2, 30⟩
abbrev A.BRG_IP_CFG (n : Nat) : Nat := 0x600f0604 + 0x10 * n
abbrev F.BRG_IP_CFG_EN (n : Nat) : FRef := ⟨A.BRG_IP_CFG n, 31, 1⟩
abbrev F.BRG_IP_CFG_EDGE (n : Nat) : FRef := ⟨A.BRG_IP_CFG n, 30, 1⟩
abbrev F.BRG_IP_CFG_PRIV (n : Nat) : FRef := ⟨A.BRG_IP_CFG n, 29, 1⟩
abbrev F.BRG_IP_CFG_MSIX (n : Nat) : FRef := ⟨A.BRG_IP_CFG n, 28, 1⟩
abbrev F.BRG_IP_CFG_DEST (n : Nat) : FRef := ⟨A.BRG_IP_CFG n, 22, 6⟩
abbrev F.BRG_IP_CFG_ERRCNT (n : Nat) : FRef := ⟨A.BRG_IP_CFG n, 16, 6⟩
abbrev F.BRG_IP_CFG_PERIOD (n : Nat) : FRef := ⟨A.BRG_IP_CFG n, 0, 16⟩
abbrev A.BRG_IP_MASK (n : Nat) : Nat := 0x600f0608 + 0x10 * n
abbrev F.BRG_IP_MASK_MASK (n : Nat) : FRef := ⟨A.BRG_IP_MASK n, 0, 32⟩
abbrev A.BRG_IP_LAST (n : Nat) : Nat := 0x600f060c + 0x10 * n
abbrev F.BRG_IP_LAST_V (n : Nat) : FRef := ⟨A.BRG_IP_LAST n, 0, 32⟩
abbrev A.PCI_ID : Nat := 0x60520000
abbrev F.PCI_ID_DID : FRef := ⟨A.PCI_ID, 16, 16⟩
abbrev F.PCI_ID_VID : FRef := ⟨A.PCI_ID, 0, 16⟩
abbrev A.PCI_STATUS : Nat := 0x60520004
abbrev F.PCI_STATUS_HOSTIF : FRef := ⟨A.PCI_STATUS, 31, 1⟩
abbrev F.PCI_STATUS_MSIXEN : FRef := ⟨A.PCI_STATUS, 7, 1⟩
abbrev F.PCI_STATUS_WIDTH : FRef := ⟨A.PCI_STATUS, 5, 2⟩
abbrev F.PCI_STATUS_SPEED : FRef := ⟨A.PCI_STATUS, 3, 2⟩
abbrev F.PCI_STATUS_LINK : FRef := ⟨A.PCI_STATUS, 0, 1⟩
abbrev A.PCI_EVT : Nat := 0x60520008
abbrev F.PCI_EVT_EVSEQ : FRef := ⟨A.PCI_EVT, 24, 8⟩
abbrev F.PCI_EVT_ERRCPL : FRef := ⟨A.PCI_EVT, 3, 1⟩
abbrev F.PCI_EVT_HOTRST : FRef := ⟨A.PCI_EVT, 2, 1⟩
abbrev F.PCI_EVT_LINKDN : FRef := ⟨A.PCI_EVT, 1, 1⟩
abbrev F.PCI_EVT_LINKUP : FRef := ⟨A.PCI_EVT, 0, 1⟩
abbrev A.PCI_EVEN : Nat := 0x6052000c
abbrev F.PCI_EVEN_EN : FRef := ⟨A.PCI_EVEN, 0, 4⟩
abbrev A.PCI_DEVRST : Nat := 0x60520010
abbrev F.PCI_DEVRST_GO : FRef := ⟨A.PCI_DEVRST, 31, 1⟩
abbrev F.PCI_DEVRST_KEY : FRef := ⟨A.PCI_DEVRST, 0, 16⟩
abbrev A.PCI_MSIXPEND : Nat := 0x60520014
abbrev F.PCI_MSIXPEND_PEND : FRef := ⟨A.PCI_MSIXPEND, 0, 32⟩
abbrev A.PCI_MSIXACK : Nat := 0x60520018
abbrev F.PCI_MSIXACK_ACK : FRef := ⟨A.PCI_MSIXACK, 0, 32⟩
abbrev A.CFG_STATUS : Nat := 0x60510000
abbrev F.CFG_STATUS_CALFAIL : FRef := ⟨A.CFG_STATUS, 16, 8⟩
abbrev F.CFG_STATUS_IMG : FRef := ⟨A.CFG_STATUS, 12, 2⟩
abbrev F.CFG_STATUS_MBUSY : FRef := ⟨A.CFG_STATUS, 11, 1⟩
abbrev F.CFG_STATUS_VBUSY : FRef := ⟨A.CFG_STATUS, 10, 1⟩
abbrev F.CFG_STATUS_KEYLOADED : FRef := ⟨A.CFG_STATUS, 9, 1⟩
abbrev A.CFG_EVT : Nat := 0x60510004
abbrev F.CFG_EVT_EVSEQ : FRef := ⟨A.CFG_EVT, 24, 8⟩
abbrev F.CFG_EVT_ATTDONE : FRef := ⟨A.CFG_EVT, 7, 1⟩
abbrev F.CFG_EVT_LCDONE : FRef := ⟨A.CFG_EVT, 6, 1⟩
abbrev F.CFG_EVT_DIP : FRef := ⟨A.CFG_EVT, 5, 1⟩
abbrev F.CFG_EVT_MCOPYDONE : FRef := ⟨A.CFG_EVT, 4, 1⟩
abbrev F.CFG_EVT_VERIFYDONE : FRef := ⟨A.CFG_EVT, 3, 1⟩
abbrev F.CFG_EVT_SLOTBAD : FRef := ⟨A.CFG_EVT, 2, 1⟩
abbrev F.CFG_EVT_NOIMAGE : FRef := ⟨A.CFG_EVT, 1, 1⟩
abbrev F.CFG_EVT_CALFAIL : FRef := ⟨A.CFG_EVT, 0, 1⟩
abbrev A.CFG_EVEN : Nat := 0x60510008
abbrev F.CFG_EVEN_EN : FRef := ⟨A.CFG_EVEN, 0, 8⟩
abbrev A.CFG_CMD : Nat := 0x6051000c
abbrev F.CFG_CMD_STANDBY : FRef := ⟨A.CFG_CMD, 31, 1⟩
abbrev F.CFG_CMD_FRECAL : FRef := ⟨A.CFG_CMD, 4, 1⟩
abbrev F.CFG_CMD_RCTRIM : FRef := ⟨A.CFG_CMD, 3, 1⟩
abbrev F.CFG_CMD_VERIFY : FRef := ⟨A.CFG_CMD, 2, 1⟩
abbrev F.CFG_CMD_VSLOT : FRef := ⟨A.CFG_CMD, 0, 1⟩
abbrev A.CFG_CTL : Nat := 0x60510010
abbrev F.CFG_CTL_LOCK : FRef := ⟨A.CFG_CTL, 31, 1⟩
abbrev F.CFG_CTL_FKEEP : FRef := ⟨A.CFG_CTL, 0, 1⟩
abbrev A.CFG_SLOT (n : Nat) : Nat := 0x60510020 + 0x4 * n
abbrev F.CFG_SLOT_VALID (n : Nat) : FRef := ⟨A.CFG_SLOT n, 31, 1⟩
abbrev F.CFG_SLOT_ERR (n : Nat) : FRef := ⟨A.CFG_SLOT n, 24, 4⟩
abbrev F.CFG_SLOT_ROLLBACK (n : Nat) : FRef := ⟨A.CFG_SLOT n, 16, 8⟩
abbrev F.CFG_SLOT_FWVER (n : Nat) : FRef := ⟨A.CFG_SLOT n, 0, 16⟩
abbrev A.CFG_SLOT_SEQ (n : Nat) : Nat := 0x60510028 + 0x4 * n
abbrev F.CFG_SLOT_SEQ_SEQ (n : Nat) : FRef := ⟨A.CFG_SLOT_SEQ n, 0, 32⟩
abbrev A.CFG_HASH (n : Nat) : Nat := 0x60510040 + 0x4 * n
abbrev F.CFG_HASH_HASH (n : Nat) : FRef := ⟨A.CFG_HASH n, 0, 32⟩
abbrev A.CFG_MSRC : Nat := 0x60510060
abbrev F.CFG_MSRC_ADDR : FRef := ⟨A.CFG_MSRC, 6, 26⟩
abbrev A.CFG_MDST : Nat := 0x60510064
abbrev F.CFG_MDST_OFF : FRef := ⟨A.CFG_MDST, 6, 19⟩
abbrev A.CFG_MCOPY : Nat := 0x60510068
abbrev F.CFG_MCOPY_GO : FRef := ⟨A.CFG_MCOPY, 31, 1⟩
abbrev F.CFG_MCOPY_RESULT : FRef := ⟨A.CFG_MCOPY, 28, 3⟩
abbrev F.CFG_MCOPY_LINES : FRef := ⟨A.CFG_MCOPY, 0, 18⟩
abbrev A.CFG_PWRLOG : Nat := 0x60510070
abbrev F.CFG_PWRLOG_DUR : FRef := ⟨A.CFG_PWRLOG, 16, 16⟩
abbrev F.CFG_PWRLOG_COUNT : FRef := ⟨A.CFG_PWRLOG, 9, 7⟩
abbrev F.CFG_PWRLOG_MIN : FRef := ⟨A.CFG_PWRLOG, 0, 9⟩
abbrev A.CFG_LCCMD : Nat := 0x60510080
abbrev F.CFG_LCCMD_GO : FRef := ⟨A.CFG_LCCMD, 31, 1⟩
abbrev F.CFG_LCCMD_RESULT : FRef := ⟨A.CFG_LCCMD, 28, 3⟩
abbrev F.CFG_LCCMD_OP : FRef := ⟨A.CFG_LCCMD, 16, 4⟩
abbrev F.CFG_LCCMD_CONFIRM : FRef := ⟨A.CFG_LCCMD, 8, 8⟩
abbrev F.CFG_LCCMD_KEY : FRef := ⟨A.CFG_LCCMD, 0, 2⟩
abbrev A.CFG_KEYSTAT : Nat := 0x60510084
abbrev F.CFG_KEYSTAT_ROLLCNT : FRef := ⟨A.CFG_KEYSTAT, 20, 6⟩
abbrev F.CFG_KEYSTAT_REVOKED : FRef := ⟨A.CFG_KEYSTAT, 8, 4⟩
abbrev F.CFG_KEYSTAT_PROG : FRef := ⟨A.CFG_KEYSTAT, 4, 4⟩
abbrev F.CFG_KEYSTAT_DSKKILL : FRef := ⟨A.CFG_KEYSTAT, 1, 1⟩
abbrev F.CFG_KEYSTAT_DSKPROG : FRef := ⟨A.CFG_KEYSTAT, 0, 1⟩
abbrev A.CFG_BLKRST : Nat := 0x60510088
abbrev F.CFG_BLKRST_GO : FRef := ⟨A.CFG_BLKRST, 31, 1⟩
abbrev F.CFG_BLKRST_BLOCK : FRef := ⟨A.CFG_BLKRST, 0, 8⟩
abbrev A.CFG_ATTCMD : Nat := 0x6051008c
abbrev F.CFG_ATTCMD_GO : FRef := ⟨A.CFG_ATTCMD, 31, 1⟩
abbrev F.CFG_ATTCMD_RESULT : FRef := ⟨A.CFG_ATTCMD, 28, 3⟩
abbrev A.CFG_ATTBUF (n : Nat) : Nat := 0x60510100 + 0x4 * n
abbrev F.CFG_ATTBUF_DATA (n : Nat) : FRef := ⟨A.CFG_ATTBUF n, 0, 32⟩
abbrev A.LKH_FSTAT : Nat := 0x60010200
abbrev F.LKH_FSTAT_DEVRST : FRef := ⟨A.LKH_FSTAT, 4, 1⟩
abbrev F.LKH_FSTAT_STOP : FRef := ⟨A.LKH_FSTAT, 3, 1⟩
abbrev F.LKH_FSTAT_REACH : FRef := ⟨A.LKH_FSTAT, 2, 1⟩
abbrev F.LKH_FSTAT_DEGRADED : FRef := ⟨A.LKH_FSTAT, 1, 1⟩
abbrev F.LKH_FSTAT_INIT : FRef := ⟨A.LKH_FSTAT, 0, 1⟩
abbrev A.LKH_FCLR : Nat := 0x60010204
abbrev F.LKH_FCLR_GO : FRef := ⟨A.LKH_FCLR, 0, 1⟩
abbrev A.LKH_FCFG : Nat := 0x60010208
abbrev F.LKH_FCFG_LOCK : FRef := ⟨A.LKH_FCFG, 31, 1⟩
abbrev F.LKH_FCFG_FNMASK : FRef := ⟨A.LKH_FCFG, 24, 4⟩
abbrev F.LKH_FCFG_RSTMAX : FRef := ⟨A.LKH_FCFG, 20, 4⟩
abbrev F.LKH_FCFG_CETHR : FRef := ⟨A.LKH_FCFG, 0, 16⟩
abbrev A.LKH_FEVT : Nat := 0x60010210
abbrev F.LKH_FEVT_EVSEQ : FRef := ⟨A.LKH_FEVT, 24, 8⟩
abbrev F.LKH_FEVT_LOGGED : FRef := ⟨A.LKH_FEVT, 2, 1⟩
abbrev F.LKH_FEVT_WATCHDOG : FRef := ⟨A.LKH_FEVT, 1, 1⟩
abbrev F.LKH_FEVT_FAULT : FRef := ⟨A.LKH_FEVT, 0, 1⟩
abbrev A.LKH_FEVEN : Nat := 0x60010214
abbrev F.LKH_FEVEN_EN : FRef := ⟨A.LKH_FEVEN, 0, 3⟩
abbrev A.LKH_AWD : Nat := 0x60010218
abbrev F.LKH_AWD_EN : FRef := ⟨A.LKH_AWD, 31, 1⟩
abbrev F.LKH_AWD_TMO : FRef := ⟨A.LKH_AWD, 0, 10⟩
abbrev A.LKH_AWDKICK : Nat := 0x6001021c
abbrev F.LKH_AWDKICK_KEY : FRef := ⟨A.LKH_AWDKICK, 0, 32⟩
abbrev A.LKH_FLOGPTR : Nat := 0x60010220
abbrev F.LKH_FLOGPTR_TOTAL : FRef := ⟨A.LKH_FLOGPTR, 16, 16⟩
abbrev F.LKH_FLOGPTR_NEXT : FRef := ⟨A.LKH_FLOGPTR, 0, 12⟩
abbrev A.LKH_DEVRST : Nat := 0x60010224
abbrev F.LKH_DEVRST_WINDOW : FRef := ⟨A.LKH_DEVRST, 4, 4⟩
abbrev F.LKH_DEVRST_LASTWD : FRef := ⟨A.LKH_DEVRST, 0, 4⟩
abbrev A.BST_STATUS : Nat := 0x60500004
abbrev F.BST_STATUS_RUNNING : FRef := ⟨A.BST_STATUS, 16, 8⟩
abbrev F.BST_STATUS_FAILED : FRef := ⟨A.BST_STATUS, 0, 6⟩
abbrev A.BST_EVT : Nat := 0x60500008
abbrev F.BST_EVT_EVSEQ : FRef := ⟨A.BST_EVT, 24, 8⟩
abbrev F.BST_EVT_LOGFULL : FRef := ⟨A.BST_EVT, 3, 1⟩
abbrev F.BST_EVT_REPAIR : FRef := ⟨A.BST_EVT, 2, 1⟩
abbrev F.BST_EVT_LATENT : FRef := ⟨A.BST_EVT, 1, 1⟩
abbrev F.BST_EVT_SLICEFAIL : FRef := ⟨A.BST_EVT, 0, 1⟩
abbrev A.BST_EVEN : Nat := 0x6050000c
abbrev F.BST_EVEN_EN : FRef := ⟨A.BST_EVEN, 0, 4⟩
abbrev A.BST_BLK (n : Nat) : Nat := 0x60500100 + 0x4 * n
abbrev F.BST_BLK_FAILS (n : Nat) : FRef := ⟨A.BST_BLK n, 24, 8⟩
abbrev F.BST_BLK_AGE (n : Nat) : FRef := ⟨A.BST_BLK n, 0, 21⟩
abbrev A.BST_REACH (n : Nat) : Nat := 0x60500200 + 0x4 * n
abbrev F.BST_REACH_LRESULT (n : Nat) : FRef := ⟨A.BST_REACH n, 30, 2⟩
abbrev F.BST_REACH_SLICE (n : Nat) : FRef := ⟨A.BST_REACH n, 24, 6⟩
abbrev F.BST_REACH_MRESULT (n : Nat) : FRef := ⟨A.BST_REACH n, 22, 2⟩
abbrev F.BST_REACH_BANK (n : Nat) : FRef := ⟨A.BST_REACH n, 16, 4⟩
abbrev F.BST_REACH_ROWS (n : Nat) : FRef := ⟨A.BST_REACH n, 8, 8⟩
abbrev F.BST_REACH_COLS (n : Nat) : FRef := ⟨A.BST_REACH n, 0, 8⟩
abbrev A.BST_REPPTR : Nat := 0x60500300
abbrev F.BST_REPPTR_COUNT : FRef := ⟨A.BST_REPPTR, 0, 13⟩
abbrev A.BST_FUSECMD : Nat := 0x60500304
abbrev F.BST_FUSECMD_GO : FRef := ⟨A.BST_FUSECMD, 31, 1⟩
abbrev F.BST_FUSECMD_RESULT : FRef := ⟨A.BST_FUSECMD, 28, 3⟩
abbrev A.BST_MANCMD : Nat := 0x60500308
abbrev F.BST_MANCMD_GO : FRef := ⟨A.BST_MANCMD, 31, 1⟩
abbrev F.BST_MANCMD_RESULT : FRef := ⟨A.BST_MANCMD, 28, 3⟩
abbrev F.BST_MANCMD_KIND : FRef := ⟨A.BST_MANCMD, 24, 1⟩
abbrev F.BST_MANCMD_MEM : FRef := ⟨A.BST_MANCMD, 16, 8⟩

end Sys2Proof.Machine
end

