-- ==== Sys2Proof/Machine/RegTable.lean ====
section
/-! DEFINITION. The register tables of spec/02 to spec/19, row by row: offset, repetition, and for every field its bits,
access code (R10), privilege, power-on reset value and legal values (R71). Reserved bits (R11) have no row. -/

namespace Sys2Proof.Machine

/-- SYS registers, part 1. -/
def sysRegs1 : List RegDesc := [
  ⟨0x0, 1, 0x0, .one, [⟨24, 8, .ro, false, 0x21, .none⟩, ⟨16, 8, .ro, false, 0x12, .none⟩, ⟨8, 8, .ro, false, 0x20, .none⟩, ⟨4, 4, .ro, false, 1, .none⟩, ⟨0, 4, .ro, false, 3, .none⟩]⟩ /- SYS_IDENT -/,
  ⟨0x10, 1, 0x0, .one, [⟨24, 5, .ro, false, 0, .none⟩, ⟨20, 4, .ro, false, 0, .none⟩, ⟨16, 1, .ro, false, 0, .none⟩, ⟨15, 1, .ro, false, 0, .none⟩, ⟨14, 1, .ro, false, 0, .none⟩, ⟨12, 2, .ro, false, 0, .none⟩, ⟨11, 1, .ro, false, 0, .none⟩, ⟨8, 3, .ro, false, 4, .none⟩, ⟨4, 3, .ro, false, 0, .none⟩, ⟨1, 1, .ro, false, 0, .none⟩, ⟨0, 1, .ro, false, 0, .none⟩]⟩ /- SYS_STATUS -/,
  ⟨0x14, 1, 0x0, .one, [⟨24, 8, .ro, false, 0, .none⟩, ⟨6, 1, .sq, false, 0, .none⟩, ⟨5, 1, .sq, false, 0, .none⟩, ⟨4, 1, .sq, false, 0, .none⟩, ⟨3, 1, .sq, false, 0, .none⟩, ⟨2, 1, .sq, false, 0, .none⟩, ⟨1, 1, .sq, false, 0, .none⟩, ⟨0, 1, .sq, false, 0, .none⟩]⟩ /- SYS_EVT -/,
  ⟨0x18, 1, 0x0, .one, [⟨0, 7, .rw, false, 0, .none⟩]⟩ /- SYS_EVEN -/,
  ⟨0x1c, 1, 0x0, .one, [⟨8, 5, .ro, false, 0, .none⟩, ⟨5, 1, .ro, false, 0, .none⟩, ⟨4, 1, .ro, false, 0, .none⟩, ⟨3, 1, .ro, false, 0, .none⟩, ⟨2, 1, .ro, false, 0, .none⟩, ⟨1, 1, .ro, false, 0, .none⟩, ⟨0, 1, .ro, false, 0, .none⟩]⟩ /- SYS_CLKSTAT -/,
  ⟨0x20, 4, 0x4, .one, [⟨0, 32, .ro, false, 0, .none⟩]⟩ /- SYS_UIDu -/,
  ⟨0x30, 1, 0x0, .one, [⟨31, 1, .rw, true, 0, .none⟩, ⟨1, 1, .rw, true, 0, .none⟩, ⟨0, 1, .rw, true, 0, .none⟩]⟩ /- SYS_PRIVCTL -/,
  ⟨0x34, 1, 0x0, .one, [⟨16, 6, .ro, true, 0, .none⟩, ⟨0, 16, .rw, true, 0, .none⟩]⟩ /- SYS_PRIVCNT -/,
  ⟨0x38, 1, 0x0, .one, [⟨24, 8, .ro, true, 0, .none⟩, ⟨16, 6, .ro, true, 0, .none⟩, ⟨0, 14, .ro, true, 0, .none⟩]⟩ /- SYS_CLAMPLOG -/,
  ⟨0x40, 1, 0x0, .one, [⟨8, 24, .ro, false, 0, .none⟩, ⟨4, 1, .cmd, false, 0, .none⟩, ⟨0, 4, .rw, false, 0, (.codes [(11, 15, 0)])⟩]⟩ /- SYS_CLKMEAS -/,
  ⟨0x80, 1, 0x0, .one, [⟨16, 16, .ro, true, 0, .none⟩, ⟨0, 4, .ro, true, 0, .none⟩]⟩ /- SYS_BUSERRPTR -/,
  ⟨0x84, 1, 0x0, .one, [⟨0, 1, .cmd, true, 0, .none⟩]⟩ /- SYS_BUSERRCTL -/,
  ⟨0x100, 16, 0x10, .one, [⟨0, 32, .ro, true, 0, .none⟩]⟩ /- SYS_BUSERRn_ADDR -/,
  ⟨0x104, 16, 0x10, .one, [⟨20, 12, .ro, true, 0, .none⟩, ⟨11, 2, .ro, true, 0, .none⟩, ⟨10, 1, .ro, true, 0, .none⟩, ⟨4, 6, .ro, true, 0, .none⟩, ⟨0, 4, .ro, true, 0, .none⟩]⟩ /- SYS_BUSERRn_INFO -/,
  ⟨0x108, 16, 0x10, .lo, [⟨0, 32, .ro, true, 0, .none⟩]⟩ /- SYS_BUSERRn_TIME -/,
  ⟨0x10c, 16, 0x10, .hi, [⟨0, 32, .ro, true, 0, .none⟩]⟩ /- SYS_BUSERRn_TIME -/]

/-- The registers of the SYS block. -/
def sysRegs : List RegDesc := sysRegs1

/-- LKH registers, part 1. -/
def lkhRegs1 : List RegDesc := [
  ⟨0x0, 1, 0x0, .one, [⟨24, 8, .ro, true, 0, .none⟩, ⟨16, 3, .ro, true, 4, .none⟩, ⟨12, 3, .ro, true, 3, .none⟩, ⟨8, 3, .ro, true, 2, .none⟩, ⟨4, 3, .ro, true, 1, .none⟩, ⟨0, 3, .ro, true, 0, .none⟩]⟩ /- LKH_ROLEMAP -/,
  ⟨0x4, 1, 0x0, .one, [⟨16, 5, .ro, true, 0, .none⟩, ⟨0, 15, .ro, true, 0x2000, .none⟩]⟩ /- LKH_REACHST -/,
  ⟨0x8, 1, 0x0, .one, [⟨31, 1, .rw, true, 1, .none⟩, ⟨16, 11, .rw, true, 0x3e8, (.range 64 1500)⟩, ⟨8, 8, .rw, true, 0xa, (.range 2 50)⟩, ⟨0, 8, .rw, true, 0x64, (.range 10 200)⟩]⟩ /- LKH_ROTCTL -/,
  ⟨0xc, 1, 0x0, .one, [⟨24, 8, .ro, true, 0, .none⟩, ⟨10, 14, .ro, true, 0, .none⟩, ⟨8, 2, .ro, true, 0, .none⟩, ⟨0, 4, .ro, true, 0, .none⟩]⟩ /- LKH_ROTSTAT -/,
  ⟨0x10, 1, 0x0, .one, [⟨24, 8, .ro, true, 0, .none⟩, ⟨12, 1, .sq, true, 0, .none⟩, ⟨11, 1, .sq, true, 0, .none⟩, ⟨10, 1, .sq, true, 0, .none⟩, ⟨9, 1, .sq, true, 0, .none⟩, ⟨8, 1, .sq, true, 0, .none⟩, ⟨7, 1, .sq, true, 0, .none⟩, ⟨6, 1, .sq, true, 0, .none⟩, ⟨5, 1, .sq, true, 0, .none⟩, ⟨4, 1, .sq, true, 0, .none⟩, ⟨3, 1, .sq, true, 0, .none⟩, ⟨2, 1, .sq, true, 0, .none⟩, ⟨1, 1, .sq, true, 0, .none⟩, ⟨0, 1, .sq, true, 0, .none⟩]⟩ /- LKH_EVT -/,
  ⟨0x14, 1, 0x0, .one, [⟨0, 13, .rw, true, 0, .none⟩]⟩ /- LKH_EVEN -/,
  ⟨0x18, 1, 0x0, .lo, [⟨0, 32, .ro, true, 0, .none⟩]⟩ /- LKH_NEXTH -/,
  ⟨0x1c, 1, 0x0, .hi, [⟨0, 32, .ro, true, 0, .none⟩]⟩ /- LKH_NEXTH -/,
  ⟨0x20, 1, 0x0, .one, [⟨16, 16, .ro, true, 0, .none⟩, ⟨0, 16, .ro, true, 0, .none⟩]⟩ /- LKH_LASTH -/,
  ⟨0x24, 1, 0x0, .one, [⟨29, 3, .ro, true, 0, .none⟩, ⟨0, 21, .ro, true, 0, .none⟩]⟩ /- LKH_TESTOLD -/,
  ⟨0x30, 1, 0x0, .one, [⟨27, 1, .ro, true, 0, .none⟩, ⟨24, 3, .ro, true, 0, .none⟩, ⟨20, 3, .ro, true, 0, .none⟩, ⟨18, 2, .ro, true, 0, .none⟩, ⟨16, 2, .ro, true, 0, .none⟩, ⟨0, 5, .ro, true, 0, .none⟩]⟩ /- LKH_MMINFO -/,
  ⟨0x34, 1, 0x0, .one, [⟨0, 21, .ro, true, 0, .none⟩]⟩ /- LKH_MMADDR -/,
  ⟨0x38, 1, 0x0, .one, [⟨8, 8, .ro, true, 0, .none⟩, ⟨0, 8, .ro, true, 0, .none⟩]⟩ /- LKH_MMDATA -/,
  ⟨0x3c, 1, 0x0, .one, [⟨0, 16, .rw, true, 0, .none⟩]⟩ /- LKH_MMCNT -/,
  ⟨0x80, 1, 0x0, .one, [⟨8, 1, .rw, true, 0, .none⟩, ⟨2, 1, .cmd, true, 0, .none⟩, ⟨1, 1, .cmd, true, 0, .none⟩, ⟨0, 1, .cmd, true, 0, .none⟩]⟩ /- LKH_FWCTL -/,
  ⟨0x84, 1, 0x0, .one, [⟨16, 16, .ro, true, 0, .none⟩, ⟨0, 16, .ro, true, 0, .none⟩]⟩ /- LKH_FWVER -/]

/-- LKH registers, part 2. -/
def lkhRegs2 : List RegDesc := [
  ⟨0x88, 1, 0x0, .one, [⟨8, 5, .ro, true, 0, .none⟩, ⟨4, 4, .ro, true, 0, .none⟩, ⟨0, 2, .ro, true, 0, .none⟩]⟩ /- LKH_FWSTAT -/,
  ⟨0x100, 1, 0x0, .one, [⟨8, 1, .rw, true, 0, .none⟩, ⟨4, 4, .rw, true, 0, .none⟩, ⟨3, 1, .cmd, true, 0, .none⟩, ⟨1, 1, .cmd, true, 0, .none⟩, ⟨0, 1, .rw, true, 0, .none⟩]⟩ /- LKH_SBYCTL -/,
  ⟨0x104, 1, 0x0, .one, [⟨16, 16, .ro, true, 0, .none⟩, ⟨4, 3, .ro, true, 7, .none⟩, ⟨0, 3, .ro, true, 0, .none⟩]⟩ /- LKH_SBYSTAT -/,
  ⟨0x108, 1, 0x0, .one, [⟨0, 12, .rw, true, 0, (.codes [(0, 0, 1), (4095, 4095, 1)])⟩]⟩ /- LKH_SBYPEER -/,
  ⟨0x10c, 1, 0x0, .one, [⟨24, 8, .rw, true, 5, (.range 2 10)⟩, ⟨16, 8, .rw, true, 0x14, .none⟩, ⟨8, 8, .rw, true, 0x28, .none⟩]⟩ /- LKH_SBYTIME -/,
  ⟨0x110, 1, 0x0, .one, [⟨1, 9, .rw, true, 0xa8, .none⟩]⟩ /- LKH_SBYSWO -/,
  ⟨0x114, 1, 0x0, .one, [⟨0, 32, .rw, true, 0, .none⟩]⟩ /- LKH_SBYMASK -/,
  ⟨0x118, 1, 0x0, .one, [⟨16, 16, .rw, true, 0, .none⟩, ⟨0, 16, .rw, true, 0, .none⟩]⟩ /- LKH_SBYERR -/,
  ⟨0x120, 1, 0x0, .lo, [⟨0, 32, .ro, true, 0, .none⟩]⟩ /- LKH_SBYSWT -/,
  ⟨0x124, 1, 0x0, .hi, [⟨0, 32, .ro, true, 0, .none⟩]⟩ /- LKH_SBYSWT -/,
  ⟨0x200, 1, 0x0, .one, [⟨4, 1, .ro, true, 0, .none⟩, ⟨3, 1, .ro, true, 0, .none⟩, ⟨2, 1, .ro, true, 0, .none⟩, ⟨1, 1, .ro, true, 0, .none⟩, ⟨0, 1, .ro, true, 1, .none⟩]⟩ /- LKH_FSTAT -/,
  ⟨0x204, 1, 0x0, .one, [⟨0, 1, .cmd, true, 0, .none⟩]⟩ /- LKH_FCLR -/,
  ⟨0x208, 1, 0x0, .one, [⟨31, 1, .rw, true, 0, .none⟩, ⟨24, 4, .rw, true, 0xf, .none⟩, ⟨20, 4, .rw, true, 3, .none⟩, ⟨0, 16, .rw, true, 0x64, .none⟩]⟩ /- LKH_FCFG -/,
  ⟨0x210, 1, 0x0, .one, [⟨24, 8, .ro, true, 0, .none⟩, ⟨2, 1, .sq, true, 0, .none⟩, ⟨1, 1, .sq, true, 0, .none⟩, ⟨0, 1, .sq, true, 0, .none⟩]⟩ /- LKH_FEVT -/,
  ⟨0x214, 1, 0x0, .one, [⟨0, 3, .rw, true, 0, .none⟩]⟩ /- LKH_FEVEN -/,
  ⟨0x218, 1, 0x0, .one, [⟨31, 1, .rw, true, 0, .none⟩, ⟨0, 10, .rw, true, 0x64, (.range 1 1000)⟩]⟩ /- LKH_AWD -/]

/-- LKH registers, part 3. -/
def lkhRegs3 : List RegDesc := [
  ⟨0x21c, 1, 0x0, .one, [⟨0, 32, .wo, true, 0, .none⟩]⟩ /- LKH_AWDKICK -/,
  ⟨0x220, 1, 0x0, .one, [⟨16, 16, .ro, true, 0, .none⟩, ⟨0, 12, .ro, true, 0, .none⟩]⟩ /- LKH_FLOGPTR -/,
  ⟨0x224, 1, 0x0, .one, [⟨4, 4, .ro, true, 0, .none⟩, ⟨0, 4, .ro, true, 0, .none⟩]⟩ /- LKH_DEVRST -/]

/-- The registers of the LKH block. -/
def lkhRegs : List RegDesc := lkhRegs1 ++ lkhRegs2 ++ lkhRegs3

/-- LKP registers, part 1. -/
def lkpRegs1 : List RegDesc := [
  ⟨0x0, 1, 0x0, .one, [⟨16, 13, .rw, true, 0x400, (.range 0 4096)⟩]⟩ /- LKP_CTL -/,
  ⟨0x4, 1, 0x0, .one, [⟨16, 13, .ro, false, 0, .none⟩, ⟨0, 11, .ro, false, 0, .none⟩]⟩ /- LKP_STATUS -/,
  ⟨0x8, 1, 0x0, .one, [⟨24, 8, .ro, false, 0, .none⟩, ⟨6, 1, .sq, false, 0, .none⟩, ⟨5, 1, .sq, false, 0, .none⟩, ⟨4, 1, .sq, false, 0, .none⟩, ⟨3, 1, .sq, false, 0, .none⟩, ⟨2, 1, .sq, false, 0, .none⟩, ⟨1, 1, .sq, false, 0, .none⟩, ⟨0, 1, .sq, false, 0, .none⟩]⟩ /- LKP_EVT -/,
  ⟨0xc, 1, 0x0, .one, [⟨0, 7, .rw, false, 0, .none⟩]⟩ /- LKP_EVEN -/,
  ⟨0x10, 1, 0x0, .one, [⟨16, 16, .rw, true, 0, .none⟩, ⟨15, 1, .ro, true, 0, .none⟩, ⟨0, 10, .ro, true, 0, .none⟩]⟩ /- LKP_BADTOK -/,
  ⟨0x14, 1, 0x0, .one, [⟨0, 32, .ro, true, 0, .none⟩]⟩ /- LKP_BADDST -/,
  ⟨0x18, 1, 0x0, .one, [⟨16, 13, .rw, true, 0, .none⟩, ⟨0, 11, .rw, true, 0, .none⟩]⟩ /- LKP_HWM -/,
  ⟨0x1c, 1, 0x0, .one, [⟨0, 16, .rw, true, 0, .none⟩]⟩ /- LKP_LOST -/,
  ⟨0x20, 1, 0x0, .one, [⟨16, 4, .rw, true, 0, (.codes [(12, 15, 11)])⟩]⟩ /- LKP_ITEMBASE -/,
  ⟨0x24, 1, 0x0, .one, [⟨14, 6, .rw, true, 0, (.codes [(48, 63, 47)])⟩]⟩ /- LKP_SEGMASK -/,
  ⟨0x28, 1, 0x0, .one, [⟨31, 1, .cmd, true, 0, .none⟩, ⟨0, 11, .ro, true, 0, .none⟩]⟩ /- LKP_DLYCMD -/,
  ⟨0x2c, 1, 0x0, .one, [⟨0, 32, .rw, true, 0, .none⟩]⟩ /- LKP_DLYDST -/,
  ⟨0x30, 1, 0x0, .one, [⟨0, 16, .wo, false, 0, .none⟩]⟩ /- LKP_SWSRC -/,
  ⟨0x100, 16, 0x4, .one, [⟨31, 1, .rw, true, 0, .none⟩, ⟨24, 2, .rw, true, 0, .none⟩, ⟨16, 8, .rw, true, 1, (.codes [(0, 0, 1)])⟩, ⟨0, 8, .rw, true, 0, .none⟩]⟩ /- LKP_GRPn_CFG -/,
  ⟨0x140, 16, 0x4, .one, [⟨16, 16, .rw, true, 0, .none⟩, ⟨0, 13, .ro, true, 0, .none⟩]⟩ /- LKP_GRPn_STAT -/,
  ⟨0x180, 4, 0x4, .one, [⟨0, 32, .rw, true, 0, .none⟩]⟩ /- LKP_SEGGRPk -/]

/-- LKP registers, part 2. -/
def lkpRegs2 : List RegDesc := [
  ⟨0x200, 1, 0x0, .one, [⟨31, 1, .rw, true, 0, .none⟩, ⟨30, 1, .rw, true, 0, .none⟩, ⟨25, 4, .rw, true, 0, .none⟩, ⟨16, 9, .rw, true, 0, .none⟩, ⟨0, 16, .rw, true, 0, .none⟩]⟩ /- LKP_TRCCTL -/,
  ⟨0x204, 1, 0x0, .one, [⟨28, 4, .rw, true, 0, (.codes [(9, 15, 8)])⟩, ⟨4, 16, .rw, true, 0, .none⟩]⟩ /- LKP_TRCRING -/,
  ⟨0x210, 4, 0x4, .one, [⟨0, 16, .ro, true, 0, .none⟩]⟩ /- LKP_TRCWRr -/,
  ⟨0x220, 4, 0x4, .one, [⟨0, 16, .rw, true, 0, .none⟩]⟩ /- LKP_TRCRDr -/,
  ⟨0x230, 1, 0x0, .one, [⟨0, 16, .rw, true, 0, .none⟩]⟩ /- LKP_TRCDROP -/,
  ⟨0x400, 32, 0x4, .one, [⟨0, 32, .ro, true, 0, .none⟩]⟩ /- LKP_PENDw -/,
  ⟨0x1000, 1024, 0x4, .one, [⟨23, 1, .rw, true, 0, .none⟩, ⟨14, 2, .rw, true, 0, .none⟩, ⟨11, 3, .rw, true, 0, .none⟩, ⟨0, 11, .rw, true, 0, .none⟩]⟩ /- LKP_ROUTEs -/]

/-- The registers of the LKP block. -/
def lkpRegs : List RegDesc := lkpRegs1 ++ lkpRegs2

/-- SCN registers, part 1. -/
def scnRegs1 : List RegDesc := [
  ⟨0x0, 1, 0x0, .one, [⟨0, 1, .rw, true, 0, .none⟩]⟩ /- SCN_CTL -/,
  ⟨0x4, 1, 0x0, .one, [⟨24, 4, .ro, false, 0, .none⟩, ⟨21, 1, .ro, false, 0, .none⟩, ⟨16, 5, .ro, false, 0, .none⟩, ⟨8, 2, .ro, false, 0, .none⟩, ⟨5, 1, .ro, false, 0, .none⟩, ⟨4, 1, .ro, false, 0, .none⟩, ⟨0, 2, .ro, false, 0, .none⟩]⟩ /- SCN_STATUS -/,
  ⟨0x8, 1, 0x0, .one, [⟨24, 8, .ro, false, 0, .none⟩, ⟨5, 1, .sq, false, 0, .none⟩, ⟨4, 1, .sq, false, 0, .none⟩, ⟨3, 1, .sq, false, 0, .none⟩, ⟨2, 1, .sq, false, 0, .none⟩, ⟨1, 1, .sq, false, 0, .none⟩, ⟨0, 1, .sq, false, 0, .none⟩]⟩ /- SCN_EVT -/,
  ⟨0xc, 1, 0x0, .one, [⟨0, 6, .rw, false, 0, .none⟩]⟩ /- SCN_EVEN -/,
  ⟨0x10, 1, 0x0, .one, [⟨2, 1, .cmd, true, 0, .none⟩, ⟨1, 1, .cmd, true, 0, .none⟩, ⟨0, 1, .cmd, true, 0, .none⟩]⟩ /- SCN_CMD -/,
  ⟨0x14, 1, 0x0, .one, [⟨8, 16, .rw, true, 0x64, (.range 10 10000)⟩, ⟨0, 2, .rw, true, 1, .none⟩]⟩ /- SCN_WDCTL -/,
  ⟨0x18, 1, 0x0, .lo, [⟨0, 32, .rw, true, 0, .none⟩]⟩ /- SCN_EPOCH -/,
  ⟨0x1c, 1, 0x0, .hi, [⟨0, 32, .rw, true, 0, .none⟩]⟩ /- SCN_EPOCH -/,
  ⟨0x20, 1, 0x0, .one, [⟨31, 1, .cmd, true, 0, .none⟩, ⟨29, 2, .rw, true, 0, .none⟩, ⟨28, 1, .rw, true, 0, .none⟩, ⟨26, 2, .ro, false, 0, .none⟩, ⟨0, 17, .rw, true, 0, .none⟩]⟩ /- SCN_FORCECMD -/,
  ⟨0x24, 1, 0x0, .one, [⟨8, 8, .rw, true, 0, .none⟩, ⟨0, 8, .rw, true, 0, .none⟩]⟩ /- SCN_FORCEARG -/,
  ⟨0x28, 1, 0x0, .one, [⟨3, 29, .rw, true, 0, .none⟩]⟩ /- SCN_FORCELIST -/,
  ⟨0x2c, 1, 0x0, .one, [⟨0, 21, .ro, false, 0, .none⟩]⟩ /- SCN_FORCEIN -/,
  ⟨0x30, 1, 0x0, .one, [⟨0, 21, .ro, false, 0, .none⟩]⟩ /- SCN_FORCEOUT -/,
  ⟨0x34, 1, 0x0, .one, [⟨31, 1, .rw, true, 0, .none⟩, ⟨0, 1, .rw, true, 0, .none⟩]⟩ /- SCN_FORCECTL -/,
  ⟨0x38, 1, 0x0, .one, [⟨8, 5, .rw, true, 0, .none⟩, ⟨4, 1, .cmd, true, 0, .none⟩, ⟨3, 1, .cmd, true, 0, .none⟩, ⟨2, 1, .cmd, true, 0, .none⟩, ⟨0, 2, .ro, false, 0, .none⟩]⟩ /- SCN_EDITCTL -/,
  ⟨0x3c, 1, 0x0, .one, [⟨0, 32, .rw, true, 0, .none⟩]⟩ /- SCN_EDITCYC -/]

/-- SCN registers, part 2. -/
def scnRegs2 : List RegDesc := [
  ⟨0x40, 1, 0x0, .one, [⟨4, 16, .rw, true, 0, .none⟩]⟩ /- SCN_SEGBASE -/,
  ⟨0x48, 1, 0x0, .lo, [⟨0, 32, .ro, true, 0, .none⟩]⟩ /- SCN_STOPTIME -/,
  ⟨0x4c, 1, 0x0, .hi, [⟨0, 32, .ro, true, 0, .none⟩]⟩ /- SCN_STOPTIME -/,
  ⟨0x400, 32, 0x40, .one, [⟨31, 1, .rw, true, 0, .none⟩, ⟨29, 1, .rw, true, 0, .none⟩, ⟨28, 1, .rw, true, 0, .none⟩, ⟨26, 2, .rw, true, 0, .none⟩, ⟨24, 2, .rw, true, 1, .none⟩, ⟨19, 5, .rw, true, 0, .none⟩, ⟨16, 3, .rw, true, 0, .none⟩, ⟨0, 12, .rw, true, 0, .none⟩]⟩ /- SCN_TASKn_CTL -/,
  ⟨0x404, 32, 0x40, .one, [⟨0, 25, .rw, true, 0x7d, .none⟩]⟩ /- SCN_TASKn_PERIOD -/,
  ⟨0x408, 32, 0x40, .one, [⟨0, 24, .rw, true, 0, .none⟩]⟩ /- SCN_TASKn_PHASE -/,
  ⟨0x40c, 32, 0x40, .one, [⟨0, 24, .rw, true, 1, .none⟩]⟩ /- SCN_TASKn_DL -/,
  ⟨0x410, 32, 0x40, .one, [⟨0, 16, .rw, true, 0x3e8, (.range 1000 65535)⟩]⟩ /- SCN_TASKn_TCW -/,
  ⟨0x414, 32, 0x40, .one, [⟨16, 11, .rw, true, 0, .none⟩, ⟨0, 10, .rw, true, 0, .none⟩]⟩ /- SCN_TASKn_SNAP -/,
  ⟨0x418, 32, 0x40, .one, [⟨16, 11, .rw, true, 0, .none⟩, ⟨0, 10, .rw, true, 0, .none⟩]⟩ /- SCN_TASKn_CMAP -/,
  ⟨0x41c, 32, 0x40, .one, [⟨16, 15, .rw, true, 1, .none⟩, ⟨0, 14, .rw, true, 0, .none⟩]⟩ /- SCN_TASKn_SEG -/,
  ⟨0x420, 32, 0x40, .one, [⟨6, 14, .rw, true, 0, .none⟩]⟩ /- SCN_TASKn_CTX -/,
  ⟨0x424, 32, 0x40, .one, [⟨0, 32, .ro, false, 0, .none⟩]⟩ /- SCN_TASKn_CYCNO -/,
  ⟨0x428, 32, 0x40, .lo, [⟨0, 32, .ro, false, 0, .none⟩]⟩ /- SCN_TASKn_LATCHT -/,
  ⟨0x42c, 32, 0x40, .hi, [⟨0, 32, .ro, false, 0, .none⟩]⟩ /- SCN_TASKn_LATCHT -/,
  ⟨0x430, 32, 0x40, .one, [⟨0, 32, .rw, true, 0, .none⟩]⟩ /- SCN_TASKn_RUNMAX -/]

/-- SCN registers, part 3. -/
def scnRegs3 : List RegDesc := [
  ⟨0x434, 32, 0x40, .one, [⟨0, 32, .rw, true, 0xffffffff, .none⟩]⟩ /- SCN_TASKn_SLACK -/,
  ⟨0x438, 32, 0x40, .one, [⟨16, 8, .ro, false, 0, .none⟩, ⟨0, 3, .ro, false, 0, .none⟩]⟩ /- SCN_TASKn_TSTAT -/,
  ⟨0x43c, 32, 0x40, .one, [⟨0, 16, .rw, true, 0, .none⟩]⟩ /- SCN_TASKn_LOST -/,
  ⟨0x1800, 256, 0x8, .one, [⟨24, 8, .rw, true, 0, .none⟩, ⟨0, 17, .rw, true, 0, .none⟩]⟩ /- safe table word 0 (R185) -/,
  ⟨0x1804, 256, 0x8, .one, [⟨0, 17, .rw, true, 0, .none⟩]⟩ /- safe table word 1 -/,
  ⟨0x2000, 1024, 0x8, .one, [⟨30, 2, .rw, true, 0, .none⟩, ⟨0, 18, .rw, true, 0, .none⟩]⟩ /- range table word 0 (R160) -/,
  ⟨0x2004, 1024, 0x8, .one, [⟨14, 17, .rw, true, 0, .none⟩, ⟨0, 14, .rw, true, 0, .none⟩]⟩ /- range table word 1 -/]

/-- The registers of the SCN block. -/
def scnRegs : List RegDesc := scnRegs1 ++ scnRegs2 ++ scnRegs3

/-- MBX registers, part 1. -/
def mbxRegs1 : List RegDesc := [
  ⟨0x0, 1, 0x0, .one, [⟨24, 8, .ro, false, 0, .none⟩, ⟨4, 1, .sq, false, 0, .none⟩, ⟨3, 1, .sq, false, 0, .none⟩, ⟨2, 1, .sq, false, 0, .none⟩, ⟨1, 1, .sq, false, 0, .none⟩, ⟨0, 1, .sq, false, 0, .none⟩]⟩ /- MBX_EVT -/,
  ⟨0x4, 1, 0x0, .one, [⟨0, 5, .rw, false, 0, .none⟩]⟩ /- MBX_EVEN -/,
  ⟨0x20, 6, 0x4, .one, [⟨16, 1, .cmd, true, 0, .none⟩, ⟨0, 16, .ro, false, 0, .none⟩]⟩ /- MBX_REPOCHr -/,
  ⟨0x100, 64, 0x10, .one, [⟨31, 1, .rw, true, 0, .none⟩, ⟨30, 1, .rw, true, 0, .none⟩, ⟨29, 1, .rw, true, 0, .none⟩, ⟨28, 1, .rw, true, 0, .none⟩, ⟨25, 3, .rw, true, 0, (.codes [(6, 7, 0)])⟩, ⟨12, 10, .rw, true, 0, .none⟩, ⟨0, 10, .rw, true, 0, .none⟩]⟩ /- MBX_CFGm -/,
  ⟨0x104, 64, 0x10, .one, [⟨30, 2, .ro, false, 0, .none⟩, ⟨24, 6, .ro, false, 0, .none⟩, ⟨0, 15, .ro, false, 0, .none⟩]⟩ /- MBX_STATm -/,
  ⟨0x108, 64, 0x10, .one, [⟨0, 32, .wo, false, 0, .none⟩]⟩ /- MBX_TXm -/,
  ⟨0x10c, 64, 0x10, .one, [⟨3, 1, .cmd, true, 0, .none⟩, ⟨2, 1, .cmd, false, 0, .none⟩, ⟨1, 1, .cmd, false, 0, .none⟩, ⟨0, 1, .cmd, false, 0, .none⟩]⟩ /- MBX_CTLm -/,
  ⟨0x800, 64, 0x8, .popLo, [⟨0, 32, .ro, false, 0, .none⟩]⟩ /- MBX_RXm -/,
  ⟨0x804, 64, 0x8, .popHi, [⟨31, 1, .ro, false, 0, .none⟩, ⟨30, 1, .ro, false, 0, .none⟩, ⟨29, 1, .ro, false, 0, .none⟩, ⟨28, 1, .ro, false, 0, .none⟩, ⟨22, 6, .ro, false, 0, .none⟩, ⟨21, 1, .ro, false, 0, .none⟩, ⟨0, 16, .ro, false, 0, .none⟩]⟩ /- MBX_RXm -/]

/-- The registers of the MBX block. -/
def mbxRegs : List RegDesc := mbxRegs1

/-- BAS registers, part 1. -/
def basRegs1 : List RegDesc := [
  ⟨0x0, 1, 0x0, .one, [⟨16, 10, .rw, true, 0xa, (.range 1 1000)⟩, ⟨0, 10, .rw, true, 0x12c, (.range 2 1000)⟩]⟩ /- BAS_CTL -/,
  ⟨0x4, 1, 0x0, .one, [⟨16, 1, .cmd, true, 0, .none⟩, ⟨8, 8, .ro, false, 0, .none⟩, ⟨4, 4, .ro, false, 0, .none⟩, ⟨0, 4, .rw, true, 0xf, .none⟩]⟩ /- BAS_PLANE -/,
  ⟨0x8, 1, 0x0, .one, [⟨24, 8, .ro, false, 0, .none⟩, ⟨7, 1, .sq, false, 0, .none⟩, ⟨6, 1, .sq, false, 0, .none⟩, ⟨5, 1, .sq, false, 0, .none⟩, ⟨4, 1, .sq, false, 0, .none⟩, ⟨3, 1, .sq, false, 0, .none⟩, ⟨2, 1, .sq, false, 0, .none⟩, ⟨1, 1, .sq, false, 0, .none⟩, ⟨0, 1, .sq, false, 0, .none⟩]⟩ /- BAS_EVT -/,
  ⟨0xc, 1, 0x0, .one, [⟨0, 8, .rw, false, 0, .none⟩]⟩ /- BAS_EVEN -/,
  ⟨0x10, 1, 0x0, .one, [⟨0, 18, .ro, false, 0x20000, .none⟩]⟩ /- BAS_STATUS -/,
  ⟨0x20, 1, 0x0, .lo, [⟨0, 32, .rw, true, 0, .none⟩]⟩ /- BAS_HSEED -/,
  ⟨0x24, 1, 0x0, .hi, [⟨0, 16, .rw, true, 0, .none⟩]⟩ /- BAS_HSEED -/,
  ⟨0x28, 1, 0x0, .lo, [⟨0, 32, .rw, true, 0x30010000, .none⟩]⟩ /- BAS_ROLEMAC -/,
  ⟨0x2c, 1, 0x0, .hi, [⟨0, 16, .rw, true, 0x248, .none⟩]⟩ /- BAS_ROLEMAC -/,
  ⟨0x30, 1, 0x0, .one, [⟨31, 1, .cmd, true, 0, .none⟩, ⟨28, 3, .rw, true, 0, (.codes [(5, 7, 0)])⟩, ⟨27, 1, .rw, true, 0, .none⟩, ⟨0, 14, .rw, true, 0, .none⟩]⟩ /- BAS_MACCMD -/,
  ⟨0x38, 1, 0x0, .lo, [⟨0, 32, .rw, true, 0, .none⟩]⟩ /- BAS_MACADDR -/,
  ⟨0x3c, 1, 0x0, .hi, [⟨0, 16, .rw, true, 0, .none⟩]⟩ /- BAS_MACADDR -/,
  ⟨0x40, 1, 0x0, .one, [⟨31, 1, .ro, true, 0, .none⟩, ⟨30, 1, .ro, true, 0, .none⟩, ⟨29, 1, .ro, true, 0, .none⟩, ⟨27, 2, .ro, true, 0, .none⟩, ⟨16, 6, .rw, true, 0, .none⟩, ⟨0, 14, .ro, true, 0, .none⟩]⟩ /- BAS_MACDATA -/,
  ⟨0x44, 1, 0x0, .one, [⟨16, 16, .rw, true, 0, .none⟩, ⟨0, 16, .rw, true, 0, .none⟩]⟩ /- BAS_MACSTAT -/,
  ⟨0x48, 1, 0x0, .one, [⟨0, 32, .rw, true, 0, .none⟩]⟩ /- BAS_FLOODCNT -/,
  ⟨0x4c, 1, 0x0, .one, [⟨0, 15, .ro, false, 0, .none⟩]⟩ /- BAS_MACUSE -/]

/-- BAS registers, part 2. -/
def basRegs2 : List RegDesc := [
  ⟨0x80, 2, 0x4, .one, [⟨31, 1, .ro, false, 1, .none⟩, ⟨30, 1, .ro, false, 0, .none⟩, ⟨24, 6, .rw, true, 0, .none⟩, ⟨16, 3, .ro, false, 7, .none⟩, ⟨0, 16, .ro, false, 0x88B5, .none⟩]⟩ /- BAS_ETRk, k = 0, 1 -/,
  ⟨0x88, 6, 0x4, .one, [⟨31, 1, .rw, true, 0, .none⟩, ⟨30, 1, .rw, true, 0, .none⟩, ⟨24, 6, .rw, true, 0, .none⟩, ⟨16, 3, .rw, true, 0, .none⟩, ⟨0, 16, .rw, true, 0, .none⟩]⟩ /- BAS_ETRk, k = 2 to 7 -/,
  ⟨0x100, 8, 0x10, .one, [⟨16, 13, .rw, true, 0x40, .none⟩, ⟨0, 13, .rw, true, 0x1fff, .none⟩]⟩ /- BAS_CLSc_BUF -/,
  ⟨0x104, 8, 0x10, .one, [⟨0, 16, .rw, true, 0x2710, (.range 100 65535)⟩]⟩ /- BAS_CLSc_AGE -/,
  ⟨0x108, 8, 0x10, .one, [⟨0, 18, .ro, false, 0, .none⟩]⟩ /- BAS_CLSc_USE -/,
  ⟨0x10c, 8, 0x10, .one, [⟨16, 16, .rw, true, 0, .none⟩, ⟨0, 16, .rw, true, 0, .none⟩]⟩ /- BAS_CLSc_DROP -/,
  ⟨0x200, 1, 0x0, .one, [⟨31, 1, .rw, true, 0, .none⟩, ⟨30, 1, .rw, true, 0, .none⟩, ⟨28, 2, .rw, true, 0, .none⟩, ⟨27, 1, .rw, true, 0, .none⟩, ⟨20, 4, .rw, true, 0, (.codes [(7, 15, 6)])⟩, ⟨6, 14, .rw, true, 0, .none⟩]⟩ /- BAS_MIRCTL -/,
  ⟨0x204, 1, 0x0, .one, [⟨0, 10, .ro, false, 0, .none⟩]⟩ /- BAS_MIRWP -/,
  ⟨0x208, 1, 0x0, .one, [⟨0, 10, .rw, true, 0, .none⟩]⟩ /- BAS_MIRRP -/,
  ⟨0x20c, 1, 0x0, .one, [⟨0, 16, .rw, true, 0, .none⟩]⟩ /- BAS_MIRDROP -/,
  ⟨0x210, 1, 0x0, .lo, [⟨0, 32, .rw, true, 0, .none⟩]⟩ /- BAS_MIRIN -/,
  ⟨0x214, 1, 0x0, .hi, [⟨0, 4, .rw, true, 0, .none⟩]⟩ /- BAS_MIRIN -/,
  ⟨0x218, 1, 0x0, .lo, [⟨0, 32, .rw, true, 0, .none⟩]⟩ /- BAS_MIROUT -/,
  ⟨0x21c, 1, 0x0, .hi, [⟨0, 4, .rw, true, 0, .none⟩]⟩ /- BAS_MIROUT -/,
  ⟨0x300, 4, 0x10, .one, [⟨31, 1, .rw, true, 0, .none⟩, ⟨30, 1, .cmd, true, 0, .none⟩, ⟨20, 4, .rw, true, 0, (.codes [(7, 15, 6)])⟩, ⟨6, 14, .rw, true, 0, .none⟩]⟩ /- BAS_TXr_RING -/,
  ⟨0xa00, 32, 0x10, .one, [⟨31, 1, .rw, true, 0, .none⟩, ⟨30, 1, .cmd, true, 0, .none⟩, ⟨20, 4, .rw, true, 0, (.codes [(7, 15, 6)])⟩, ⟨6, 14, .rw, true, 0, .none⟩]⟩ /- BAS_RXr_c_RING -/,
  ⟨0x304, 4, 0x10, .one, [⟨0, 10, .rw, false, 0, .none⟩]⟩ /- BAS_TXr_WP -/]

/-- BAS registers, part 3. -/
def basRegs3 : List RegDesc := [
  ⟨0x308, 4, 0x10, .one, [⟨0, 10, .ro, false, 0, .none⟩]⟩ /- BAS_TXr_RP -/,
  ⟨0xa04, 32, 0x10, .one, [⟨0, 10, .ro, false, 0, .none⟩]⟩ /- BAS_RXr_c_WP -/,
  ⟨0xa08, 32, 0x10, .one, [⟨0, 10, .rw, false, 0, .none⟩]⟩ /- BAS_RXr_c_RP -/,
  ⟨0x30c, 4, 0x10, .one, [⟨28, 4, .ro, false, 0, .none⟩, ⟨24, 2, .ro, false, 0, .none⟩, ⟨0, 16, .ro, false, 0, .none⟩]⟩ /- BAS_TXr_STAT -/,
  ⟨0xa0c, 32, 0x10, .one, [⟨28, 4, .ro, false, 0, .none⟩, ⟨24, 2, .ro, false, 0, .none⟩, ⟨0, 16, .ro, false, 0, .none⟩]⟩ /- BAS_RXr_c_STAT -/,
  ⟨0x400, 36, 0x20, .one, [⟨31, 1, .rw, true, 1, .none⟩, ⟨30, 1, .rw, true, 1, .none⟩, ⟨24, 3, .rw, true, 0, .none⟩]⟩ /- BAS_PORTp_CFG -/,
  ⟨0x408, 36, 0x20, .lo, [⟨0, 32, .rw, true, 0, .none⟩]⟩ /- BAS_PORTp_FWD -/,
  ⟨0x40c, 36, 0x20, .hi, [⟨0, 4, .rw, true, 0, .none⟩]⟩ /- BAS_PORTp_FWD -/,
  ⟨0x410, 36, 0x20, .one, [⟨0, 32, .rw, true, 0, .none⟩]⟩ /- BAS_PORTp_IDROP -/,
  ⟨0x414, 36, 0x20, .one, [⟨0, 32, .rw, true, 0, .none⟩]⟩ /- BAS_PORTp_EDROP -/,
  ⟨0x418, 36, 0x20, .one, [⟨0, 32, .rw, true, 0, .none⟩]⟩ /- BAS_PORTp_RXCNT -/,
  ⟨0x41c, 36, 0x20, .one, [⟨0, 32, .rw, true, 0, .none⟩]⟩ /- BAS_PORTp_TXCNT -/]

/-- The registers of the BAS block. -/
def basRegs : List RegDesc := basRegs1 ++ basRegs2 ++ basRegs3

/-- TOW registers, part 1. -/
def towRegs1 : List RegDesc := [
  ⟨0x0, 1, 0x0, .one, [⟨31, 1, .rw, true, 0, .none⟩, ⟨20, 5, .rw, true, 0, .none⟩, ⟨0, 16, .rw, true, 0x88b5, (.codes [(0, 1535, 34997), (33024, 33024, 34997), (34824, 34824, 34997), (34998, 34998, 34997), (35063, 35063, 34997)])⟩]⟩ /- TOW_CTL -/,
  ⟨0x4, 1, 0x0, .one, [⟨30, 2, .ro, false, 0, .none⟩, ⟨16, 9, .ro, false, 0, .none⟩, ⟨0, 9, .ro, false, 0, .none⟩]⟩ /- TOW_STATUS -/,
  ⟨0x8, 1, 0x0, .one, [⟨24, 8, .ro, false, 0, .none⟩, ⟨6, 1, .sq, false, 0, .none⟩, ⟨5, 1, .sq, false, 0, .none⟩, ⟨4, 1, .sq, false, 0, .none⟩, ⟨3, 1, .sq, false, 0, .none⟩, ⟨2, 1, .sq, false, 0, .none⟩, ⟨1, 1, .sq, false, 0, .none⟩, ⟨0, 1, .sq, false, 0, .none⟩]⟩ /- TOW_EVT -/,
  ⟨0xc, 1, 0x0, .one, [⟨0, 7, .rw, false, 0, .none⟩]⟩ /- TOW_EVEN -/,
  ⟨0x10, 1, 0x0, .one, [⟨0, 19, .rw, true, 0x3e8, (.range 125 400000)⟩]⟩ /- TOW_PERIOD -/,
  ⟨0x14, 1, 0x0, .one, [⟨0, 19, .rw, true, 0, .none⟩]⟩ /- TOW_PHASE -/,
  ⟨0x18, 1, 0x0, .lo, [⟨0, 32, .ro, false, 0, .none⟩]⟩ /- TOW_CYCNT -/,
  ⟨0x1c, 1, 0x0, .hi, [⟨0, 32, .ro, false, 0, .none⟩]⟩ /- TOW_CYCNT -/,
  ⟨0x20, 1, 0x0, .one, [⟨0, 16, .rw, true, 0, .none⟩]⟩ /- TOW_NETID -/,
  ⟨0x24, 1, 0x0, .one, [⟨0, 24, .rw, true, 0x3e8, (.range 100 10000000)⟩]⟩ /- TOW_HOLD -/,
  ⟨0x28, 1, 0x0, .one, [⟨6, 26, .rw, true, 0x1051400, .none⟩]⟩ /- TOW_SUBBASE -/,
  ⟨0x2c, 1, 0x0, .one, [⟨0, 13, .rw, true, 0, (.range 0 7936)⟩]⟩ /- TOW_DIAG -/,
  ⟨0x30, 1, 0x0, .one, [⟨31, 1, .cmd, true, 0, .none⟩, ⟨29, 2, .rw, true, 0, (.codes [(2, 3, 0)])⟩, ⟨0, 8, .rw, true, 0, .none⟩]⟩ /- TOW_CMD -/,
  ⟨0x40, 1, 0x0, .one, [⟨16, 16, .rw, true, 0, .none⟩, ⟨0, 16, .rw, true, 0, .none⟩]⟩ /- TOW_ENVERR -/,
  ⟨0x44, 1, 0x0, .one, [⟨16, 16, .rw, true, 0, .none⟩, ⟨0, 16, .rw, true, 0, .none⟩]⟩ /- TOW_SEQERR -/,
  ⟨0x48, 1, 0x0, .one, [⟨16, 16, .rw, true, 0, .none⟩, ⟨0, 16, .rw, true, 0, .none⟩]⟩ /- TOW_LATECNT -/]

/-- TOW registers, part 2. -/
def towRegs2 : List RegDesc := [
  ⟨0x4c, 1, 0x0, .one, [⟨16, 16, .rw, true, 0, .none⟩, ⟨0, 8, .ro, true, 0, .none⟩]⟩ /- TOW_MISWIRE -/,
  ⟨0x50, 1, 0x0, .lo, [⟨0, 32, .ro, true, 0, .none⟩]⟩ /- TOW_CLAIMUID -/,
  ⟨0x54, 1, 0x0, .hi, [⟨0, 32, .ro, true, 0, .none⟩]⟩ /- TOW_CLAIMUID -/,
  ⟨0x58, 1, 0x0, .one, [⟨30, 2, .ro, true, 0, .none⟩, ⟨27, 3, .ro, true, 0, .none⟩, ⟨16, 8, .ro, true, 0, .none⟩, ⟨8, 5, .ro, true, 0, .none⟩]⟩ /- TOW_CLAIMLOG -/,
  ⟨0x5c, 1, 0x0, .one, [⟨0, 32, .ro, true, 0, .none⟩]⟩ /- TOW_CLAIMPROD -/,
  ⟨0x60, 1, 0x0, .one, [⟨0, 32, .rw, true, 0, .none⟩]⟩ /- TOW_SILENTRX -/,
  ⟨0x100, 24, 0x8, .one, [⟨31, 1, .rw, true, 0, .none⟩, ⟨28, 3, .rw, true, 0, .none⟩, ⟨8, 8, .rw, true, 0, .none⟩]⟩ /- TOW_PORTp_CFG -/,
  ⟨0x104, 24, 0x8, .one, [⟨16, 16, .rw, true, 0, .none⟩, ⟨0, 16, .rw, true, 0, .none⟩]⟩ /- TOW_PORTp_CLAIM -/,
  ⟨0x3000, 256, 0x4, .one, [⟨20, 1, .ro, false, 0, .none⟩, ⟨16, 4, .ro, false, 0, .none⟩, ⟨8, 8, .ro, false, 0, .none⟩, ⟨4, 4, .ro, false, 0, .none⟩, ⟨0, 3, .ro, false, 0, .none⟩]⟩ /- TOW_STNs -/,
  ⟨0x1000, 256, 0x20, .one, [⟨31, 1, .rw, true, 0, .none⟩, ⟨30, 1, .rw, true, 0, .none⟩, ⟨29, 1, .rw, true, 0, .none⟩, ⟨24, 5, .rw, true, 0, (.codes [(24, 31, 23)])⟩, ⟨21, 3, .rw, true, 0, .none⟩, ⟨14, 7, .rw, true, 0, .none⟩, ⟨10, 4, .rw, true, 0, (.codes [(0, 0, 1)])⟩]⟩ /- schedule word 0 (R362) -/,
  ⟨0x1004, 256, 0x20, .one, [⟨16, 16, .rw, true, 0, .none⟩, ⟨0, 16, .rw, true, 0, .none⟩]⟩ /- schedule word 1 (R362) -/,
  ⟨0x1008, 256, 0x20, .one, [⟨24, 7, .rw, true, 0, (.codes [(65, 127, 64)])⟩, ⟨16, 7, .rw, true, 0, (.codes [(65, 127, 64)])⟩, ⟨0, 8, .rw, true, 0, .none⟩]⟩ /- schedule word 2 (R362) -/,
  ⟨0x100c, 256, 0x20, .one, [⟨0, 17, .rw, true, 0, .none⟩]⟩ /- schedule word 3 (R362) -/,
  ⟨0x1010, 256, 0x20, .one, [⟨0, 17, .rw, true, 0, .none⟩]⟩ /- schedule word 4 (R362) -/,
  ⟨0x1014, 256, 0x20, .one, [⟨16, 16, .rw, true, 0, .none⟩, ⟨0, 16, .rw, true, 0, .none⟩]⟩ /- schedule word 5 (R362) -/,
  ⟨0x1018, 256, 0x20, .lo, [⟨0, 32, .rw, true, 0, .none⟩]⟩ /- schedule word 6 (R362) -/]

/-- TOW registers, part 3. -/
def towRegs3 : List RegDesc := [
  ⟨0x101c, 256, 0x20, .hi, [⟨0, 32, .rw, true, 0, .none⟩]⟩ /- schedule word 7 (R362) -/]

/-- The registers of the TOW block. -/
def towRegs : List RegDesc := towRegs1 ++ towRegs2 ++ towRegs3

/-- BTL registers, part 1. -/
def btlRegs1 : List RegDesc := [
  ⟨0x0, 1, 0x0, .one, [⟨16, 8, .cmd, true, 0, .none⟩, ⟨0, 8, .rw, true, 0, .none⟩]⟩ /- BTL_CTL -/,
  ⟨0x4, 1, 0x0, .one, [⟨0, 16, .ro, false, 0, .none⟩]⟩ /- BTL_STATUS -/,
  ⟨0x8, 1, 0x0, .one, [⟨24, 8, .ro, false, 0, .none⟩, ⟨16, 8, .sq, false, 0, .none⟩, ⟨8, 8, .sq, false, 0, .none⟩, ⟨0, 8, .sq, false, 0, .none⟩]⟩ /- BTL_EVT -/,
  ⟨0xc, 1, 0x0, .one, [⟨0, 24, .rw, false, 0, .none⟩]⟩ /- BTL_EVEN -/,
  ⟨0x10, 1, 0x0, .one, [⟨0, 16, .rw, true, 0, .none⟩]⟩ /- BTL_FLAGS -/,
  ⟨0x100, 48, 0x4, .one, [⟨0, 16, .rw, true, 0, .none⟩]⟩ /- BTL_STOREi -/,
  ⟨0x400, 8, 0x40, .one, [⟨16, 16, .rw, true, 1, (.codes [(0, 0, 1)])⟩, ⟨8, 6, .rw, true, 0, (.codes [(48, 63, 47)])⟩, ⟨0, 3, .rw, true, 0, (.codes [(6, 7, 5)])⟩]⟩ /- BTL_ENGe_CTL -/,
  ⟨0x404, 8, 0x40, .one, [⟨31, 1, .rw, true, 0, .none⟩, ⟨30, 1, .rw, true, 0, .none⟩, ⟨24, 6, .rw, true, 0, .none⟩, ⟨18, 6, .rw, true, 0, .none⟩, ⟨12, 6, .rw, true, 0, .none⟩, ⟨6, 6, .rw, true, 0, .none⟩, ⟨0, 6, .rw, true, 0, .none⟩]⟩ /- BTL_ENGe_PINS -/,
  ⟨0x408, 8, 0x40, .one, [⟨31, 1, .rw, true, 0, .none⟩, ⟨30, 1, .rw, true, 0, .none⟩, ⟨29, 1, .rw, true, 0, .none⟩, ⟨28, 1, .rw, true, 0, .none⟩, ⟨27, 1, .rw, true, 0, .none⟩, ⟨26, 1, .rw, true, 0, .none⟩, ⟨0, 5, .rw, true, 0, .none⟩]⟩ /- BTL_ENGe_SHCFG -/,
  ⟨0x40c, 8, 0x40, .one, [⟨30, 2, .ro, false, 0, .none⟩, ⟨28, 2, .ro, false, 0, .none⟩, ⟨24, 3, .ro, false, 0, .none⟩, ⟨20, 3, .ro, false, 0, .none⟩, ⟨18, 2, .ro, false, 0, .none⟩, ⟨12, 6, .ro, false, 0, .none⟩, ⟨6, 6, .ro, false, 0, .none⟩, ⟨0, 6, .ro, false, 0, .none⟩]⟩ /- BTL_ENGe_STAT -/,
  ⟨0x410, 8, 0x40, .one, [⟨0, 32, .wo, false, 0, .none⟩]⟩ /- BTL_ENGe_TX -/,
  ⟨0x414, 8, 0x40, .one, [⟨16, 16, .rw, true, 0, .none⟩, ⟨0, 16, .rw, true, 0, .none⟩]⟩ /- BTL_ENGe_CNT -/,
  ⟨0x418, 8, 0x40, .popLo, [⟨0, 32, .ro, false, 0, .none⟩]⟩ /- BTL_ENGe_RX -/,
  ⟨0x41c, 8, 0x40, .popHi, [⟨31, 1, .ro, false, 0, .none⟩, ⟨0, 3, .ro, false, 0, .none⟩]⟩ /- BTL_ENGe_RX -/,
  ⟨0x420, 8, 0x40, .one, [⟨31, 1, .rw, true, 0, .none⟩, ⟨28, 2, .rw, true, 0, .none⟩, ⟨20, 8, .rw, true, 0, .none⟩, ⟨0, 17, .rw, true, 0x40, (.codes [(0, 63, 64)])⟩]⟩ /- BTL_ENGe_RXDMA -/,
  ⟨0x424, 8, 0x40, .one, [⟨31, 1, .rw, true, 0, .none⟩, ⟨28, 2, .rw, true, 0, .none⟩, ⟨0, 17, .rw, true, 0x10, (.codes [(0, 15, 16)])⟩]⟩ /- BTL_ENGe_TXDMA -/]

/-- BTL registers, part 2. -/
def btlRegs2 : List RegDesc := [
  ⟨0x428, 8, 0x40, .one, [⟨16, 16, .ro, false, 0, .none⟩, ⟨0, 16, .ro, false, 0, .none⟩]⟩ /- BTL_ENGe_K -/,
  ⟨0x800, 64, 0x4, .one, [⟨31, 1, .ro, false, 0, .none⟩, ⟨30, 1, .ro, false, 0, .none⟩, ⟨29, 1, .ro, false, 0, .none⟩, ⟨24, 5, .ro, false, 0x1f, .none⟩, ⟨7, 1, .rw, true, 0, .none⟩, ⟨6, 1, .rw, true, 0, .none⟩, ⟨5, 1, .rw, true, 0, .none⟩, ⟨4, 1, .rw, true, 0, .none⟩, ⟨2, 2, .rw, true, 0, (.codes [(3, 3, 0)])⟩]⟩ /- BTL_PINp -/]

/-- The registers of the BTL block. -/
def btlRegs : List RegDesc := btlRegs1 ++ btlRegs2

/-- TMB registers, part 1. -/
def tmbRegs1 : List RegDesc := [
  ⟨0x0, 1, 0x0, .one, [⟨0, 2, .rw, true, 0, (.codes [(2, 3, 0)])⟩]⟩ /- TMB_CTL -/,
  ⟨0x4, 1, 0x0, .one, [⟨1, 1, .ro, false, 0, .none⟩, ⟨0, 1, .ro, false, 0, .none⟩]⟩ /- TMB_STATUS -/,
  ⟨0x8, 1, 0x0, .one, [⟨24, 8, .ro, false, 0, .none⟩, ⟨5, 1, .sq, false, 0, .none⟩, ⟨4, 1, .sq, false, 0, .none⟩, ⟨3, 1, .sq, false, 0, .none⟩, ⟨2, 1, .sq, false, 0, .none⟩, ⟨1, 1, .sq, false, 0, .none⟩, ⟨0, 1, .sq, false, 0, .none⟩]⟩ /- TMB_EVT -/,
  ⟨0xc, 1, 0x0, .one, [⟨0, 6, .rw, false, 0, .none⟩]⟩ /- TMB_EVEN -/,
  ⟨0x10, 1, 0x0, .lo, [⟨0, 32, .ro, false, 0, .none⟩]⟩ /- TMB_TIME -/,
  ⟨0x14, 1, 0x0, .hi, [⟨0, 32, .ro, false, 0, .none⟩]⟩ /- TMB_TIME -/,
  ⟨0x18, 1, 0x0, .one, [⟨0, 32, .ro, false, 0, .none⟩]⟩ /- TMB_FRAC -/,
  ⟨0x20, 1, 0x0, .lo, [⟨0, 32, .rw, true, 0, .none⟩]⟩ /- TMB_INC -/,
  ⟨0x24, 1, 0x0, .hi, [⟨0, 4, .rw, true, 2, .none⟩]⟩ /- TMB_INC -/,
  ⟨0x28, 1, 0x0, .one, [⟨0, 32, .rw, true, 0, .none⟩]⟩ /- TMB_ADJ -/,
  ⟨0x2c, 1, 0x0, .one, [⟨1, 1, .cmd, true, 0, .none⟩, ⟨0, 1, .cmd, true, 0, .none⟩]⟩ /- TMB_ADJCMD -/,
  ⟨0x30, 1, 0x0, .one, [⟨0, 32, .ro, false, 0, .none⟩]⟩ /- TMB_SLEWREM -/,
  ⟨0x34, 1, 0x0, .one, [⟨31, 1, .rw, true, 0, .none⟩, ⟨30, 1, .rw, true, 0, .none⟩, ⟨0, 8, .rw, true, 0xa, (.codes [(0, 0, 1)])⟩]⟩ /- TMB_SYNCCTL -/,
  ⟨0x100, 32, 0x20, .one, [⟨30, 2, .ro, false, 0, .none⟩, ⟨16, 8, .rw, false, 0, .none⟩, ⟨12, 3, .rw, false, 0, .none⟩, ⟨8, 1, .cmd, false, 0, .none⟩, ⟨7, 1, .rw, false, 0, .none⟩, ⟨6, 1, .rw, false, 0, .none⟩, ⟨0, 2, .rw, false, 0, .none⟩]⟩ /- TMB_UNITu_CTL -/,
  ⟨0x104, 32, 0x20, .one, [⟨0, 32, .rw, false, 0, .none⟩]⟩ /- TMB_UNITu_CMP -/,
  ⟨0x108, 32, 0x20, .one, [⟨0, 31, .rw, false, 0x3e8, (.range 100 2147483647)⟩]⟩ /- TMB_UNITu_PER -/]

/-- TMB registers, part 2. -/
def tmbRegs2 : List RegDesc := [
  ⟨0x10c, 32, 0x20, .one, [⟨31, 1, .ro, false, 0, .none⟩, ⟨30, 1, .ro, false, 0, .none⟩, ⟨29, 1, .ro, false, 0, .none⟩, ⟨28, 1, .ro, false, 0, .none⟩, ⟨0, 16, .rw, false, 0, .none⟩]⟩ /- TMB_UNITu_STAT -/,
  ⟨0x110, 32, 0x20, .lo, [⟨0, 32, .ro, false, 0, .none⟩]⟩ /- TMB_UNITu_CAPT -/,
  ⟨0x114, 32, 0x20, .hi, [⟨0, 32, .ro, false, 0, .none⟩]⟩ /- TMB_UNITu_CAPT -/]

/-- The registers of the TMB block. -/
def tmbRegs : List RegDesc := tmbRegs1 ++ tmbRegs2

/-- FIO registers, part 1. -/
def fioRegs1 : List RegDesc := [
  ⟨0x0, 1, 0x0, .one, [⟨31, 1, .rw, true, 0, .none⟩, ⟨0, 5, .rw, true, 4, (.range 2 16)⟩]⟩ /- FIO_CTL -/,
  ⟨0x4, 1, 0x0, .one, [⟨24, 7, .ro, false, 0, .none⟩, ⟨16, 3, .ro, false, 3, .none⟩, ⟨2, 1, .ro, false, 0, .none⟩, ⟨1, 1, .ro, false, 1, .none⟩, ⟨0, 1, .ro, false, 0, .none⟩]⟩ /- FIO_STATUS -/,
  ⟨0x8, 1, 0x0, .one, [⟨24, 8, .ro, false, 0, .none⟩, ⟨9, 1, .sq, false, 0, .none⟩, ⟨8, 1, .sq, false, 0, .none⟩, ⟨7, 1, .sq, false, 0, .none⟩, ⟨6, 1, .sq, false, 0, .none⟩, ⟨5, 1, .sq, false, 0, .none⟩, ⟨4, 1, .sq, false, 0, .none⟩, ⟨3, 1, .sq, false, 0, .none⟩, ⟨2, 1, .sq, false, 0, .none⟩, ⟨1, 1, .sq, false, 0, .none⟩, ⟨0, 1, .sq, false, 0, .none⟩]⟩ /- FIO_EVT -/,
  ⟨0xc, 1, 0x0, .one, [⟨0, 10, .rw, false, 0, .none⟩]⟩ /- FIO_EVEN -/,
  ⟨0x10, 1, 0x0, .one, [⟨2, 1, .cmd, true, 0, .none⟩, ⟨1, 1, .cmd, true, 0, .none⟩, ⟨0, 1, .cmd, true, 0, .none⟩]⟩ /- FIO_CMD -/,
  ⟨0x14, 1, 0x0, .one, [⟨16, 16, .rw, true, 0, .none⟩, ⟨0, 16, .rw, true, 0, .none⟩]⟩ /- FIO_LINKERR -/,
  ⟨0x18, 1, 0x0, .one, [⟨0, 16, .rw, true, 0, .none⟩]⟩ /- FIO_LATECNT -/,
  ⟨0x20, 4, 0x8, .one, [⟨31, 1, .rw, true, 0, .none⟩, ⟨24, 5, .rw, true, 0, .none⟩, ⟨16, 5, .rw, true, 0, .none⟩, ⟨0, 16, .rw, true, 0, .none⟩]⟩ /- FIO_CHc_CTL -/,
  ⟨0x24, 4, 0x8, .one, [⟨0, 24, .rw, true, 6, (.range 6 10000000)⟩]⟩ /- FIO_CHc_OFF -/,
  ⟨0x100, 8, 0x4, .one, [⟨8, 4, .rw, true, 0, (.range 0 10)⟩, ⟨4, 3, .rw, true, 0, .none⟩, ⟨3, 1, .rw, true, 0, .none⟩, ⟨2, 1, .rw, true, 0, .none⟩, ⟨0, 1, .rw, true, 0, .none⟩]⟩ /- FIO_DIGRPg -/,
  ⟨0x120, 8, 0x4, .one, [⟨0, 32, .rw, true, 0xeeeeeeee, .none⟩]⟩ /- FIO_DIFILTw -/,
  ⟨0x140, 1, 0x0, .one, [⟨16, 16, .rw, true, 0, .none⟩, ⟨0, 16, .rw, true, 0, .none⟩]⟩ /- FIO_EDGEEN -/,
  ⟨0x148, 1, 0x0, .popLo, [⟨0, 32, .ro, false, 0, .none⟩]⟩ /- FIO_EDGE -/,
  ⟨0x14c, 1, 0x0, .popHi, [⟨31, 1, .ro, false, 0, .none⟩, ⟨30, 1, .ro, false, 0, .none⟩, ⟨29, 1, .ro, false, 0, .none⟩, ⟨24, 4, .ro, false, 0, .none⟩, ⟨0, 24, .ro, false, 0, .none⟩]⟩ /- FIO_EDGE -/,
  ⟨0x150, 1, 0x0, .one, [⟨16, 16, .rw, true, 0, .none⟩, ⟨0, 9, .ro, false, 0, .none⟩]⟩ /- FIO_EDGESTAT -/,
  ⟨0x200, 1, 0x0, .one, [⟨0, 32, .rw, true, 0, .none⟩]⟩ /- FIO_DTEN -/]

/-- FIO registers, part 2. -/
def fioRegs2 : List RegDesc := [
  ⟨0x204, 1, 0x0, .one, [⟨0, 32, .rw, true, 0, .none⟩]⟩ /- FIO_OLEN -/,
  ⟨0x208, 1, 0x0, .one, [⟨0, 32, .rw, true, 0, .none⟩]⟩ /- FIO_AUTORST -/,
  ⟨0x20c, 1, 0x0, .one, [⟨0, 32, .rw, true, 0, .none⟩]⟩ /- FIO_SAFEVAL -/,
  ⟨0x210, 1, 0x0, .one, [⟨24, 8, .rw, true, 5, (.range 1 100)⟩, ⟨16, 8, .rw, true, 0x32, .none⟩, ⟨0, 11, .rw, true, 0x640, (.range 1000 1800)⟩]⟩ /- FIO_DTCTL -/,
  ⟨0x214, 1, 0x0, .one, [⟨31, 1, .ro, false, 0, .none⟩, ⟨30, 1, .ro, false, 0, .none⟩, ⟨29, 1, .ro, false, 0, .none⟩, ⟨28, 1, .ro, false, 0, .none⟩, ⟨8, 6, .rw, true, 0x20, (.range 4 32)⟩, ⟨0, 6, .rw, true, 0x20, (.range 4 32)⟩]⟩ /- FIO_GRP -/,
  ⟨0x218, 1, 0x0, .one, [⟨16, 16, .ro, false, 0, .none⟩, ⟨0, 16, .ro, false, 0, .none⟩]⟩ /- FIO_GRPI -/,
  ⟨0x21c, 1, 0x0, .one, [⟨0, 32, .ro, false, 0, .none⟩]⟩ /- FIO_DOFAULT -/,
  ⟨0x220, 4, 0x4, .one, [⟨0, 32, .ro, false, 0, .none⟩]⟩ /- FIO_DOCODEw -/,
  ⟨0x300, 16, 0x4, .one, [⟨31, 1, .rw, true, 0, .none⟩, ⟨30, 1, .rw, true, 0, .none⟩, ⟨29, 1, .rw, true, 0, .none⟩, ⟨28, 1, .rw, true, 0, .none⟩, ⟨24, 2, .rw, true, 2, (.codes [(3, 3, 2)])⟩, ⟨16, 4, .rw, true, 0, .none⟩, ⟨8, 4, .rw, true, 0, .none⟩, ⟨4, 4, .rw, true, 0, .none⟩, ⟨0, 4, .rw, true, 0, .none⟩]⟩ /- FIO_RXk -/,
  ⟨0x340, 1, 0x0, .one, [⟨16, 16, .ro, false, 0, .none⟩, ⟨0, 16, .ro, false, 0, .none⟩]⟩ /- FIO_RXSTAT -/,
  ⟨0x400, 8, 0x4, .one, [⟨31, 1, .rw, true, 0, .none⟩, ⟨4, 3, .rw, true, 0, (.codes [(5, 7, 4)])⟩, ⟨0, 2, .rw, true, 0, .none⟩]⟩ /- FIO_AIc -/,
  ⟨0x420, 1, 0x0, .one, [⟨31, 1, .rw, true, 0, .none⟩, ⟨24, 5, .rw, true, 0, .none⟩, ⟨0, 24, .rw, true, 0x3e8, (.range 20 10000000)⟩]⟩ /- FIO_AICTL -/,
  ⟨0x424, 1, 0x0, .one, [⟨0, 32, .ro, false, 0, .none⟩]⟩ /- FIO_AIROUND -/,
  ⟨0x428, 1, 0x0, .one, [⟨0, 16, .rw, true, 0, .none⟩]⟩ /- FIO_AILOST -/]

/-- The registers of the FIO block. -/
def fioRegs : List RegDesc := fioRegs1 ++ fioRegs2

/-- WFB registers, part 1. -/
def wfbRegs1 : List RegDesc := [
  ⟨0x0, 1, 0x0, .one, [⟨31, 1, .rw, true, 0, .none⟩, ⟨30, 1, .rw, true, 0, .none⟩, ⟨29, 1, .rw, true, 0, .none⟩, ⟨28, 1, .rw, true, 1, .none⟩, ⟨24, 4, .rw, true, 0xf, .none⟩, ⟨20, 4, .rw, true, 8, .none⟩, ⟨0, 12, .rw, true, 0, (.codes [(4095, 4095, 4094)])⟩]⟩ /- WFB_CTL -/,
  ⟨0x4, 1, 0x0, .one, [⟨20, 12, .ro, false, 0, .none⟩, ⟨16, 4, .ro, false, 0, .none⟩, ⟨12, 4, .ro, false, 0, .none⟩, ⟨11, 1, .ro, false, 0, .none⟩, ⟨8, 3, .ro, false, 0, .none⟩, ⟨0, 6, .ro, false, 0, .none⟩]⟩ /- WFB_STATUS -/,
  ⟨0x8, 1, 0x0, .one, [⟨24, 8, .ro, false, 0, .none⟩, ⟨8, 1, .sq, false, 0, .none⟩, ⟨7, 1, .sq, false, 0, .none⟩, ⟨6, 1, .sq, false, 0, .none⟩, ⟨5, 1, .sq, false, 0, .none⟩, ⟨4, 1, .sq, false, 0, .none⟩, ⟨3, 1, .sq, false, 0, .none⟩, ⟨2, 1, .sq, false, 0, .none⟩, ⟨1, 1, .sq, false, 0, .none⟩, ⟨0, 1, .sq, false, 0, .none⟩]⟩ /- WFB_EVT -/,
  ⟨0xc, 1, 0x0, .one, [⟨0, 9, .rw, false, 0, .none⟩]⟩ /- WFB_EVEN -/,
  ⟨0x10, 1, 0x0, .one, [⟨16, 16, .rw, true, 0x7d, (.range 10 10000)⟩, ⟨8, 8, .rw, true, 3, (.range 2 16)⟩, ⟨0, 8, .rw, true, 0x64, (.range 10 255)⟩]⟩ /- WFB_TIMER -/,
  ⟨0x14, 1, 0x0, .one, [⟨0, 16, .ro, false, 0, .none⟩]⟩ /- WFB_EPOCH -/,
  ⟨0x18, 1, 0x0, .one, [⟨31, 1, .ro, false, 0, .none⟩, ⟨30, 1, .ro, false, 0, .none⟩, ⟨8, 2, .ro, false, 0, .none⟩, ⟨0, 8, .ro, false, 0, .none⟩]⟩ /- WFB_TSTAT -/,
  ⟨0x1c, 1, 0x0, .one, [⟨0, 32, .ro, false, 0, .none⟩]⟩ /- WFB_TOFF -/,
  ⟨0x20, 4, 0x4, .one, [⟨0, 32, .ro, false, 0, .none⟩]⟩ /- WFB_ROOTUIDi -/,
  ⟨0x30, 1, 0x0, .one, [⟨16, 16, .rw, true, 0, .none⟩, ⟨0, 16, .rw, true, 0, .none⟩]⟩ /- WFB_DROP -/,
  ⟨0x34, 1, 0x0, .one, [⟨31, 1, .cmd, true, 0, .none⟩, ⟨12, 2, .ro, true, 0, .none⟩, ⟨0, 12, .rw, true, 0, .none⟩]⟩ /- WFB_RSTCMD -/,
  ⟨0x38, 1, 0x0, .one, [⟨20, 12, .ro, true, 0, .none⟩, ⟨16, 4, .ro, true, 0, .none⟩, ⟨14, 2, .ro, true, 0, .none⟩, ⟨13, 1, .ro, true, 0, .none⟩, ⟨0, 13, .rw, true, 0, .none⟩]⟩ /- WFB_LGLOG -/,
  ⟨0x40, 1, 0x0, .lo, [⟨0, 32, .ro, true, 0, .none⟩]⟩ /- WFB_LGTIME -/,
  ⟨0x44, 1, 0x0, .hi, [⟨0, 32, .ro, true, 0, .none⟩]⟩ /- WFB_LGTIME -/,
  ⟨0x100, 4, 0x20, .one, [⟨2, 1, .cmd, true, 0, .none⟩, ⟨1, 1, .rw, true, 0, .none⟩, ⟨0, 1, .rw, true, 0, .none⟩]⟩ /- WFB_LINKn_CTL -/,
  ⟨0x104, 4, 0x20, .one, [⟨20, 12, .ro, false, 0, .none⟩, ⟨18, 2, .ro, false, 0, .none⟩, ⟨5, 1, .ro, false, 0, .none⟩, ⟨4, 1, .ro, false, 0, .none⟩, ⟨3, 1, .ro, false, 0, .none⟩, ⟨0, 3, .ro, false, 0, .none⟩]⟩ /- WFB_LINKn_STAT -/]

/-- WFB registers, part 2. -/
def wfbRegs2 : List RegDesc := [
  ⟨0x108, 4, 0x20, .one, [⟨16, 16, .rw, true, 0, .none⟩, ⟨0, 16, .rw, true, 0, .none⟩]⟩ /- WFB_LINKn_ERR -/,
  ⟨0x10c, 4, 0x20, .one, [⟨0, 16, .ro, false, 0, .none⟩]⟩ /- WFB_LINKn_DELAY -/,
  ⟨0x110, 4, 0x20, .one, [⟨0, 32, .rw, true, 0, .none⟩]⟩ /- WFB_LINKn_FDROP -/,
  ⟨0x2000, 512, 0x4, .one, [⟨0, 32, .rw, true, 0, .none⟩]⟩ /- WFB_RTw -/]

/-- The registers of the WFB block. -/
def wfbRegs : List RegDesc := wfbRegs1 ++ wfbRegs2

/-- BRG registers, part 1. -/
def brgRegs1 : List RegDesc := [
  ⟨0x0, 1, 0x0, .one, [⟨31, 1, .rw, true, 1, .none⟩, ⟨30, 1, .rw, true, 1, .none⟩, ⟨0, 8, .rw, true, 0xa, (.range 1 255)⟩]⟩ /- BRG_CTL -/,
  ⟨0x4, 1, 0x0, .one, [⟨16, 7, .ro, false, 0, .none⟩, ⟨0, 6, .ro, false, 0, .none⟩]⟩ /- BRG_STATUS -/,
  ⟨0x8, 1, 0x0, .one, [⟨24, 8, .ro, false, 0, .none⟩, ⟨6, 1, .sq, false, 0, .none⟩, ⟨5, 1, .sq, false, 0, .none⟩, ⟨4, 1, .sq, false, 0, .none⟩, ⟨3, 1, .sq, false, 0, .none⟩, ⟨2, 1, .sq, false, 0, .none⟩, ⟨1, 1, .sq, false, 0, .none⟩, ⟨0, 1, .sq, false, 0, .none⟩]⟩ /- BRG_EVT -/,
  ⟨0xc, 1, 0x0, .one, [⟨0, 7, .rw, false, 0, .none⟩]⟩ /- BRG_EVEN -/,
  ⟨0x10, 1, 0x0, .one, [⟨0, 14, .rw, true, 0x64, (.range 1 10000)⟩]⟩ /- BRG_RDTMO -/,
  ⟨0x14, 1, 0x0, .one, [⟨16, 16, .rw, true, 0, .none⟩, ⟨0, 16, .rw, true, 0, .none⟩]⟩ /- BRG_LATECNT -/,
  ⟨0x18, 1, 0x0, .one, [⟨0, 32, .ro, false, 0, .none⟩]⟩ /- BRG_PWSEQ -/,
  ⟨0x1c, 1, 0x0, .one, [⟨16, 16, .ro, true, 0, .none⟩, ⟨0, 3, .ro, true, 0, .none⟩]⟩ /- BRG_PWERRPTR -/,
  ⟨0x20, 1, 0x0, .one, [⟨0, 16, .rw, true, 0x3e8, (.range 1 65535)⟩]⟩ /- BRG_SEMCFG -/,
  ⟨0x100, 8, 0x10, .one, [⟨0, 32, .ro, true, 0, .none⟩]⟩ /- BRG_PWERRn_ADDR -/,
  ⟨0x104, 8, 0x10, .one, [⟨20, 12, .ro, true, 0, .none⟩, ⟨11, 1, .ro, true, 0, .none⟩, ⟨10, 1, .ro, true, 0, .none⟩, ⟨4, 6, .ro, true, 0, .none⟩, ⟨0, 4, .ro, true, 0, .none⟩]⟩ /- BRG_PWERRn_INFO -/,
  ⟨0x108, 8, 0x10, .one, [⟨0, 32, .ro, true, 0, .none⟩]⟩ /- BRG_PWERRn_SEQ -/,
  ⟨0x200, 8, 0x4, .one, [⟨31, 1, .rw, true, 0, .none⟩, ⟨30, 1, .rw, true, 0, .none⟩, ⟨0, 9, .rw, true, 0, .none⟩]⟩ /- BRG_HWINn -/,
  ⟨0x300, 16, 0x4, .one, [⟨31, 1, .rw, true, 0, .none⟩, ⟨30, 1, .rw, true, 0, .none⟩, ⟨12, 12, .rw, true, 0, .none⟩, ⟨0, 6, .rw, true, 0, .none⟩]⟩ /- BRG_FWINw -/,
  ⟨0x400, 32, 0x10, .one, [⟨6, 26, .rw, true, 0, .none⟩, ⟨3, 1, .rw, true, 0, .none⟩, ⟨0, 2, .rw, true, 0, .none⟩]⟩ /- BRG_SEMk_BASE -/,
  ⟨0x404, 32, 0x10, .one, [⟨31, 1, .rw, true, 0, .none⟩, ⟨0, 14, .rw, true, 0, .none⟩]⟩ /- BRG_SEMk_SIZE -/]

/-- BRG registers, part 2. -/
def brgRegs2 : List RegDesc := [
  ⟨0x408, 32, 0x10, .one, [⟨16, 12, .rw, false, 0, .none⟩, ⟨0, 7, .rw, false, 0, .none⟩]⟩ /- BRG_SEMk -/,
  ⟨0x600, 16, 0x10, .one, [⟨2, 30, .rw, true, 0, .none⟩]⟩ /- BRG_IPk_SRC -/,
  ⟨0x604, 16, 0x10, .one, [⟨31, 1, .rw, true, 0, .none⟩, ⟨30, 1, .rw, true, 0, .none⟩, ⟨29, 1, .rw, true, 0, .none⟩, ⟨28, 1, .rw, true, 0, .none⟩, ⟨22, 6, .rw, true, 0, .none⟩, ⟨16, 6, .ro, true, 0, .none⟩, ⟨0, 16, .rw, true, 0x64, (.codes [(0, 0, 1)])⟩]⟩ /- BRG_IPk_CFG -/,
  ⟨0x608, 16, 0x10, .one, [⟨0, 32, .rw, true, 0, .none⟩]⟩ /- BRG_IPk_MASK -/,
  ⟨0x60c, 16, 0x10, .one, [⟨0, 32, .ro, true, 0, .none⟩]⟩ /- BRG_IPk_LAST -/]

/-- The registers of the BRG block. -/
def brgRegs : List RegDesc := brgRegs1 ++ brgRegs2

/-- RCH registers, part 1. -/
def rchRegs1 : List RegDesc := [
  ⟨0x1000, 8, 0x20, .one, [⟨5, 1, .cmd, true, 0, .none⟩, ⟨4, 1, .cmd, true, 0, .none⟩, ⟨3, 1, .cmd, true, 0, .none⟩, ⟨2, 1, .cmd, true, 0, .none⟩, ⟨1, 1, .cmd, true, 0, .none⟩, ⟨0, 1, .cmd, true, 0, .none⟩]⟩ /- RCH_COREc_CTL -/,
  ⟨0x1004, 8, 0x20, .one, [⟨8, 5, .ro, true, 0, .none⟩, ⟨7, 1, .ro, true, 0, .none⟩, ⟨6, 1, .ro, true, 1, .none⟩, ⟨4, 2, .ro, true, 0, .none⟩, ⟨0, 3, .ro, true, 0, .none⟩]⟩ /- RCH_COREc_STAT -/,
  ⟨0x1008, 8, 0x20, .one, [⟨0, 32, .ro, true, 0, .none⟩]⟩ /- RCH_COREc_PC -/,
  ⟨0x100c, 8, 0x20, .one, [⟨0, 32, .ro, true, 0, .none⟩]⟩ /- RCH_COREc_ITEM -/,
  ⟨0x1010, 8, 0x20, .one, [⟨2, 30, .rw, true, 0, .none⟩]⟩ /- RCH_COREc_BOOT -/,
  ⟨0x1014, 8, 0x20, .one, [⟨16, 5, .ro, true, 0, .none⟩, ⟨8, 5, .ro, true, 0, .none⟩]⟩ /- RCH_COREc_DFINFO -/,
  ⟨0x1018, 8, 0x20, .lo, [⟨0, 32, .ro, false, 0, .none⟩]⟩ /- RCH_COREc_CYC -/,
  ⟨0x101c, 8, 0x20, .hi, [⟨0, 32, .ro, false, 0, .none⟩]⟩ /- RCH_COREc_CYC -/,
  ⟨0x1100, 1, 0x0, .one, [⟨24, 8, .ro, false, 0, .none⟩, ⟨8, 8, .sq, false, 0, .none⟩, ⟨0, 8, .sq, false, 0, .none⟩]⟩ /- RCH_CORE_EVT -/,
  ⟨0x1104, 1, 0x0, .one, [⟨0, 16, .rw, false, 0, .none⟩]⟩ /- RCH_CORE_EVEN -/,
  ⟨0x1108, 1, 0x0, .one, [⟨0, 16, .rw, true, 0, .none⟩]⟩ /- RCH_CORE_ICPCNT -/,
  ⟨0x0, 12, 0x4, .one, [⟨24, 8, .ro, false, 0, .none⟩, ⟨23, 1, .rw, true, 0, .none⟩, ⟨16, 6, .rw, true, 0, (.codes [(56, 63, 55)])⟩, ⟨8, 2, .rw, true, 0, .none⟩, ⟨0, 6, .rw, true, 0, .none⟩]⟩ /- RCH_GATEb -/,
  ⟨0x100, 8, 0x4, .one, [⟨31, 1, .rw, true, 0, .none⟩, ⟨20, 4, .rw, true, 0, (.codes [(11, 15, 10)])⟩, ⟨6, 14, .rw, true, 0, .none⟩]⟩ /- RCH_CWw -/,
  ⟨0x200, 1, 0x0, .one, [⟨28, 4, .rw, true, 0, (.codes [(11, 15, 10)])⟩, ⟨4, 16, .rw, true, 0, .none⟩]⟩ /- RCH_DMA_RING -/,
  ⟨0x204, 1, 0x0, .one, [⟨0, 12, .rw, false, 0, .none⟩]⟩ /- RCH_DMA_TAIL -/,
  ⟨0x208, 1, 0x0, .one, [⟨28, 4, .ro, false, 0, .none⟩, ⟨24, 2, .ro, false, 0, .none⟩, ⟨0, 12, .ro, false, 0, .none⟩]⟩ /- RCH_DMA_STAT -/]

/-- RCH registers, part 2. -/
def rchRegs2 : List RegDesc := [
  ⟨0x20c, 1, 0x0, .one, [⟨1, 1, .cmd, true, 0, .none⟩, ⟨0, 1, .cmd, false, 0, .none⟩]⟩ /- RCH_DMA_CTL -/,
  ⟨0x210, 1, 0x0, .one, [⟨0, 32, .rw, false, 0, .none⟩]⟩ /- RCH_DMA_TOK -/,
  ⟨0x60, 1, 0x0, .one, [⟨2, 2, .ro, false, 0, .none⟩, ⟨1, 1, .cmd, true, 0, .none⟩, ⟨0, 1, .cmd, true, 0, .none⟩]⟩ /- RCH_PWR -/,
  ⟨0x40, 1, 0x0, .one, [⟨24, 8, .ro, false, 0, .none⟩, ⟨4, 1, .sq, false, 0, .none⟩, ⟨3, 1, .sq, false, 0, .none⟩, ⟨2, 1, .sq, false, 0, .none⟩, ⟨1, 1, .sq, false, 0, .none⟩, ⟨0, 1, .sq, false, 0, .none⟩]⟩ /- RCH_MEM_EVT -/,
  ⟨0x44, 1, 0x0, .one, [⟨0, 5, .rw, false, 0, .none⟩]⟩ /- RCH_MEM_EVEN -/,
  ⟨0x48, 1, 0x0, .one, [⟨16, 16, .rw, true, 0, .none⟩, ⟨0, 16, .rw, true, 0, .none⟩]⟩ /- RCH_ECCCNT -/,
  ⟨0x4c, 1, 0x0, .one, [⟨31, 1, .ro, true, 0, .none⟩, ⟨30, 1, .ro, true, 0, .none⟩, ⟨20, 6, .ro, true, 0, .none⟩, ⟨3, 17, .ro, true, 0, .none⟩]⟩ /- RCH_ECCLOG -/]

/-- The registers of the RCH block. -/
def rchRegs : List RegDesc := rchRegs1 ++ rchRegs2

/-- ETH registers, part 1. -/
def ethRegs1 : List RegDesc := [
  ⟨0x0, 1, 0x0, .one, [⟨31, 1, .rw, true, 0, .none⟩, ⟨24, 4, .rw, true, 0, (.codes [(8, 15, 0)])⟩, ⟨21, 1, .rw, true, 0, .none⟩, ⟨20, 1, .rw, true, 0, .none⟩, ⟨18, 2, .rw, true, 1, (.codes [(3, 3, 1)])⟩, ⟨10, 2, .rw, true, 1, (.codes [(2, 3, 1)])⟩, ⟨9, 1, .rw, true, 0, .none⟩, ⟨4, 3, .rw, true, 0, .none⟩]⟩ /- ETH_CTL -/,
  ⟨0x4, 1, 0x0, .one, [⟨24, 3, .ro, false, 0, .none⟩, ⟨23, 1, .ro, false, 0, .none⟩, ⟨22, 1, .ro, false, 0, .none⟩, ⟨16, 3, .ro, false, 0, .none⟩, ⟨0, 1, .ro, false, 0, .none⟩]⟩ /- ETH_STATUS -/,
  ⟨0x8, 1, 0x0, .one, [⟨24, 8, .ro, false, 0, .none⟩, ⟨8, 1, .sq, false, 0, .none⟩, ⟨7, 1, .sq, false, 0, .none⟩, ⟨6, 1, .sq, false, 0, .none⟩, ⟨5, 1, .sq, false, 0, .none⟩, ⟨4, 1, .sq, false, 0, .none⟩, ⟨3, 1, .sq, false, 0, .none⟩, ⟨2, 1, .sq, false, 0, .none⟩, ⟨1, 1, .sq, false, 0, .none⟩, ⟨0, 1, .sq, false, 0, .none⟩]⟩ /- ETH_EVT -/,
  ⟨0xc, 1, 0x0, .one, [⟨0, 9, .rw, false, 0, .none⟩]⟩ /- ETH_EVEN -/,
  ⟨0x10, 1, 0x0, .one, [⟨24, 8, .rw, true, 0, .none⟩, ⟨16, 8, .rw, true, 0, (.codes [(255, 255, 254)])⟩, ⟨8, 8, .rw, true, 8, (.codes [(0, 0, 1)])⟩, ⟨0, 8, .rw, true, 0x20, (.range 2 255)⟩]⟩ /- ETH_PLCA -/,
  ⟨0x14, 1, 0x0, .one, [⟨16, 16, .rw, true, 0x7530, (.range 100 65535)⟩, ⟨0, 8, .rw, true, 0x80, (.range 2 255)⟩]⟩ /- ETH_PLCATMR -/,
  ⟨0x18, 1, 0x0, .one, [⟨8, 8, .ro, false, 0, .none⟩, ⟨1, 1, .ro, false, 0, .none⟩, ⟨0, 1, .ro, false, 0, .none⟩]⟩ /- ETH_PLCASTAT -/,
  ⟨0x20, 1, 0x0, .one, [⟨2, 1, .rw, true, 0, .none⟩, ⟨1, 1, .rw, true, 0, .none⟩, ⟨0, 1, .rw, true, 0, .none⟩]⟩ /- ETH_PTPCFG -/,
  ⟨0x28, 1, 0x0, .popLo, [⟨0, 32, .ro, false, 0, .none⟩]⟩ /- ETH_TSRX -/,
  ⟨0x2c, 1, 0x0, .popHi, [⟨31, 1, .ro, false, 0, .none⟩, ⟨30, 1, .ro, false, 0, .none⟩, ⟨26, 4, .ro, false, 0, .none⟩, ⟨16, 8, .ro, false, 0, .none⟩, ⟨0, 16, .ro, false, 0, .none⟩]⟩ /- ETH_TSRX -/,
  ⟨0x30, 1, 0x0, .popLo, [⟨0, 32, .ro, false, 0, .none⟩]⟩ /- ETH_TSTX -/,
  ⟨0x34, 1, 0x0, .popHi, [⟨31, 1, .ro, false, 0, .none⟩, ⟨30, 1, .ro, false, 0, .none⟩, ⟨26, 4, .ro, false, 0, .none⟩, ⟨16, 8, .ro, false, 0, .none⟩, ⟨0, 16, .ro, false, 0, .none⟩]⟩ /- ETH_TSTX -/,
  ⟨0x38, 1, 0x0, .one, [⟨8, 5, .ro, false, 0, .none⟩, ⟨0, 5, .ro, false, 0, .none⟩]⟩ /- ETH_TSSTAT -/,
  ⟨0x40, 1, 0x0, .one, [⟨31, 1, .cmd, true, 0, .none⟩, ⟨20, 3, .ro, false, 0, .none⟩, ⟨0, 16, .ro, false, 0, .none⟩]⟩ /- ETH_CABLE -/,
  ⟨0x48, 1, 0x0, .one, [⟨31, 1, .rw, true, 0, .none⟩, ⟨0, 8, .rw, true, 0x10, (.range 14 63)⟩]⟩ /- ETH_STNCFG -/,
  ⟨0x200, 16, 0x4, .one, [⟨0, 32, .ro, true, 0, .none⟩]⟩ /- ETH_STNw -/]

/-- ETH registers, part 2. -/
def ethRegs2 : List RegDesc := [
  ⟨0x100, 1, 0x0, .lo, [⟨0, 32, .ro, true, 0, .none⟩]⟩ /- ETH_RXOCT -/,
  ⟨0x104, 1, 0x0, .hi, [⟨0, 32, .ro, true, 0, .none⟩]⟩ /- ETH_RXOCT -/,
  ⟨0x120, 1, 0x0, .lo, [⟨0, 32, .ro, true, 0, .none⟩]⟩ /- ETH_TXOCT -/,
  ⟨0x124, 1, 0x0, .hi, [⟨0, 32, .ro, true, 0, .none⟩]⟩ /- ETH_TXOCT -/,
  ⟨0x108, 1, 0x0, .one, [⟨0, 32, .ro, true, 0, .none⟩]⟩ /- ETH_RXFRM -/,
  ⟨0x10c, 1, 0x0, .one, [⟨0, 32, .ro, true, 0, .none⟩]⟩ /- ETH_RXFCS -/,
  ⟨0x110, 1, 0x0, .one, [⟨0, 32, .ro, true, 0, .none⟩]⟩ /- ETH_RXRUNT -/,
  ⟨0x114, 1, 0x0, .one, [⟨0, 32, .ro, true, 0, .none⟩]⟩ /- ETH_RXLONG -/,
  ⟨0x118, 1, 0x0, .one, [⟨0, 32, .ro, true, 0, .none⟩]⟩ /- ETH_RXSYM -/,
  ⟨0x11c, 1, 0x0, .one, [⟨0, 32, .ro, true, 0, .none⟩]⟩ /- ETH_RXCTL -/,
  ⟨0x128, 1, 0x0, .one, [⟨0, 32, .ro, true, 0, .none⟩]⟩ /- ETH_TXFRM -/,
  ⟨0x12c, 1, 0x0, .one, [⟨0, 32, .ro, true, 0, .none⟩]⟩ /- ETH_TXCOLL -/,
  ⟨0x130, 1, 0x0, .one, [⟨0, 32, .ro, true, 0, .none⟩]⟩ /- ETH_TXLATE -/,
  ⟨0x134, 1, 0x0, .one, [⟨0, 32, .ro, true, 0, .none⟩]⟩ /- ETH_TXEXC -/,
  ⟨0x138, 1, 0x0, .one, [⟨0, 32, .ro, true, 0, .none⟩]⟩ /- ETH_TXABORT -/,
  ⟨0x13c, 1, 0x0, .one, [⟨0, 32, .ro, true, 0, .none⟩]⟩ /- ETH_TXDEFER -/]

/-- ETH registers, part 3. -/
def ethRegs3 : List RegDesc := [
  ⟨0x140, 1, 0x0, .one, [⟨0, 32, .ro, true, 0, .none⟩]⟩ /- ETH_FECCORR -/,
  ⟨0x144, 1, 0x0, .one, [⟨0, 32, .ro, true, 0, .none⟩]⟩ /- ETH_PLCAERR -/,
  ⟨0x148, 1, 0x0, .one, [⟨0, 32, .ro, true, 0, .none⟩]⟩ /- ETH_LINKDN -/,
  ⟨0x14c, 1, 0x0, .one, [⟨0, 32, .ro, true, 0, .none⟩]⟩ /- ETH_SQILOWCNT -/]

/-- The registers of the ETH block. -/
def ethRegs : List RegDesc := ethRegs1 ++ ethRegs2 ++ ethRegs3

/-- CAN registers, part 1. -/
def canRegs1 : List RegDesc := [
  ⟨0x0, 1, 0x0, .one, [⟨31, 1, .rw, true, 0, .none⟩, ⟨30, 1, .rw, true, 0, .none⟩, ⟨29, 1, .rw, true, 0, .none⟩, ⟨28, 1, .rw, true, 0, .none⟩, ⟨27, 1, .rw, true, 0, .none⟩, ⟨26, 1, .rw, true, 0, .none⟩, ⟨16, 2, .rw, true, 0, .none⟩, ⟨8, 7, .rw, true, 0, .none⟩]⟩ /- CAN_CTL -/,
  ⟨0x4, 1, 0x0, .one, [⟨31, 1, .ro, false, 0, .none⟩, ⟨29, 2, .ro, false, 0, .none⟩, ⟨26, 3, .ro, false, 0, .none⟩, ⟨25, 1, .ro, false, 0, .none⟩, ⟨16, 7, .ro, false, 0, .none⟩, ⟨8, 8, .ro, false, 0, .none⟩, ⟨0, 8, .ro, false, 0, .none⟩]⟩ /- CAN_STATUS -/,
  ⟨0x8, 1, 0x0, .one, [⟨24, 8, .ro, false, 0, .none⟩, ⟨6, 1, .sq, false, 0, .none⟩, ⟨5, 1, .sq, false, 0, .none⟩, ⟨4, 1, .sq, false, 0, .none⟩, ⟨3, 1, .sq, false, 0, .none⟩, ⟨2, 1, .sq, false, 0, .none⟩, ⟨1, 1, .sq, false, 0, .none⟩, ⟨0, 1, .sq, false, 0, .none⟩]⟩ /- CAN_EVT -/,
  ⟨0xc, 1, 0x0, .one, [⟨0, 7, .rw, false, 0, .none⟩]⟩ /- CAN_EVEN -/,
  ⟨0x10, 1, 0x0, .one, [⟨24, 8, .rw, true, 7, .none⟩, ⟨16, 8, .rw, true, 0xc, .none⟩, ⟨8, 7, .rw, true, 5, .none⟩, ⟨0, 7, .rw, true, 3, .none⟩]⟩ /- CAN_NBT -/,
  ⟨0x14, 1, 0x0, .one, [⟨24, 5, .rw, true, 0, .none⟩, ⟨16, 5, .rw, true, 0xe, .none⟩, ⟨8, 4, .rw, true, 3, .none⟩, ⟨0, 4, .rw, true, 3, .none⟩]⟩ /- CAN_DBT -/,
  ⟨0x18, 1, 0x0, .one, [⟨24, 8, .rw, true, 0, .none⟩, ⟨16, 8, .rw, true, 0, .none⟩, ⟨8, 8, .rw, true, 0, .none⟩, ⟨0, 8, .rw, true, 0, .none⟩]⟩ /- CAN_ERRCNT -/,
  ⟨0x1c, 1, 0x0, .one, [⟨1, 1, .cmd, true, 0, .none⟩, ⟨0, 1, .cmd, false, 0, .none⟩]⟩ /- CAN_CMD -/,
  ⟨0x20, 1, 0x0, .one, [⟨0, 32, .ro, false, 0, .none⟩]⟩ /- CAN_TSC -/,
  ⟨0x24, 1, 0x0, .one, [⟨31, 1, .rw, true, 0, .none⟩, ⟨24, 4, .rw, true, 0, .none⟩, ⟨0, 8, .rw, true, 0x4f, .none⟩]⟩ /- CAN_TSCFG -/,
  ⟨0x28, 1, 0x0, .one, [⟨0, 32, .ro, false, 0, .none⟩]⟩ /- CAN_XCAPT -/,
  ⟨0x30, 1, 0x0, .one, [⟨31, 1, .rw, true, 0, .none⟩, ⟨30, 1, .cmd, true, 0, .none⟩, ⟨28, 2, .rw, true, 0, .none⟩, ⟨20, 4, .rw, true, 0, (.codes [(7, 15, 6)])⟩, ⟨6, 14, .rw, true, 0, .none⟩]⟩ /- CAN_RXRING -/,
  ⟨0x34, 1, 0x0, .one, [⟨3, 13, .ro, false, 0, .none⟩]⟩ /- CAN_RXWP -/,
  ⟨0x38, 1, 0x0, .one, [⟨3, 13, .rw, false, 0, .none⟩]⟩ /- CAN_RXRP -/,
  ⟨0x3c, 1, 0x0, .one, [⟨28, 4, .ro, false, 0, .none⟩, ⟨24, 2, .ro, false, 0, .none⟩, ⟨0, 16, .rw, true, 0, .none⟩]⟩ /- CAN_RXSTAT -/,
  ⟨0x50, 1, 0x0, .one, [⟨0, 16, .wo, false, 0, .none⟩]⟩ /- CAN_TXREQ -/]

/-- CAN registers, part 2. -/
def canRegs2 : List RegDesc := [
  ⟨0x54, 1, 0x0, .one, [⟨0, 16, .wo, false, 0, .none⟩]⟩ /- CAN_TXCAN -/,
  ⟨0x58, 1, 0x0, .one, [⟨0, 16, .ro, false, 0, .none⟩]⟩ /- CAN_TXPEND -/,
  ⟨0x80, 16, 0x4, .one, [⟨16, 5, .ro, false, 0, .none⟩, ⟨15, 1, .ro, false, 0, .none⟩, ⟨8, 6, .ro, false, 0, .none⟩, ⟨0, 4, .ro, false, 0, .none⟩]⟩ /- CAN_TXSTb -/,
  ⟨0x100, 8, 0x8, .one, [⟨31, 1, .rw, true, 0, .none⟩, ⟨29, 1, .rw, true, 0, .none⟩, ⟨0, 29, .rw, true, 0, .none⟩]⟩ /- CAN_IMGs_ID -/,
  ⟨0x104, 8, 0x8, .one, [⟨24, 8, .rw, true, 0, .none⟩, ⟨18, 6, .rw, true, 0, .none⟩, ⟨0, 17, .rw, true, 0x40, .none⟩]⟩ /- CAN_IMGs_DST -/,
  ⟨0x1000, 16, 0x80, .one, [⟨0, 32, .rw, false, 0, .none⟩]⟩ /- CAN_TXBUFb -/,
  ⟨0x1004, 16, 0x80, .one, [⟨28, 4, .rw, false, 0, .none⟩, ⟨27, 1, .rw, false, 0, .none⟩, ⟨25, 1, .rw, false, 0, .none⟩]⟩ /- CAN_TXBUFb word 1 -/,
  ⟨0x1008, 16, 0x80, .one, [⟨0, 32, .rw, false, 0, .none⟩]⟩ /- CAN_TXBUFb word 2 -/,
  ⟨0x100c, 16, 0x80, .one, [⟨0, 32, .rw, false, 0, .none⟩]⟩ /- CAN_TXBUFb word 3 -/,
  ⟨0x1010, 16, 0x80, .one, [⟨0, 32, .rw, false, 0, .none⟩]⟩ /- CAN_TXBUFb word 4 -/,
  ⟨0x1014, 16, 0x80, .one, [⟨0, 32, .rw, false, 0, .none⟩]⟩ /- CAN_TXBUFb word 5 -/,
  ⟨0x1018, 16, 0x80, .one, [⟨0, 32, .rw, false, 0, .none⟩]⟩ /- CAN_TXBUFb word 6 -/,
  ⟨0x101c, 16, 0x80, .one, [⟨0, 32, .rw, false, 0, .none⟩]⟩ /- CAN_TXBUFb word 7 -/,
  ⟨0x1020, 16, 0x80, .one, [⟨0, 32, .rw, false, 0, .none⟩]⟩ /- CAN_TXBUFb word 8 -/,
  ⟨0x1024, 16, 0x80, .one, [⟨0, 32, .rw, false, 0, .none⟩]⟩ /- CAN_TXBUFb word 9 -/,
  ⟨0x1028, 16, 0x80, .one, [⟨0, 32, .rw, false, 0, .none⟩]⟩ /- CAN_TXBUFb word 10 -/]

/-- CAN registers, part 3. -/
def canRegs3 : List RegDesc := [
  ⟨0x102c, 16, 0x80, .one, [⟨0, 32, .rw, false, 0, .none⟩]⟩ /- CAN_TXBUFb word 11 -/,
  ⟨0x1030, 16, 0x80, .one, [⟨0, 32, .rw, false, 0, .none⟩]⟩ /- CAN_TXBUFb word 12 -/,
  ⟨0x1034, 16, 0x80, .one, [⟨0, 32, .rw, false, 0, .none⟩]⟩ /- CAN_TXBUFb word 13 -/,
  ⟨0x1038, 16, 0x80, .one, [⟨0, 32, .rw, false, 0, .none⟩]⟩ /- CAN_TXBUFb word 14 -/,
  ⟨0x103c, 16, 0x80, .one, [⟨0, 32, .rw, false, 0, .none⟩]⟩ /- CAN_TXBUFb word 15 -/,
  ⟨0x1040, 16, 0x80, .one, [⟨0, 32, .rw, false, 0, .none⟩]⟩ /- CAN_TXBUFb word 16 -/,
  ⟨0x1044, 16, 0x80, .one, [⟨0, 32, .rw, false, 0, .none⟩]⟩ /- CAN_TXBUFb word 17 -/]

/-- The registers of the CAN block. -/
def canRegs : List RegDesc := canRegs1 ++ canRegs2 ++ canRegs3

/-- BST registers, part 1. -/
def bstRegs1 : List RegDesc := [
  ⟨0x4, 1, 0x0, .one, [⟨16, 8, .ro, false, 0xff, .none⟩, ⟨0, 6, .ro, false, 0, .none⟩]⟩ /- BST_STATUS -/,
  ⟨0x8, 1, 0x0, .one, [⟨24, 8, .ro, false, 0, .none⟩, ⟨3, 1, .sq, false, 0, .none⟩, ⟨2, 1, .sq, false, 0, .none⟩, ⟨1, 1, .sq, false, 0, .none⟩, ⟨0, 1, .sq, false, 0, .none⟩]⟩ /- BST_EVT -/,
  ⟨0xc, 1, 0x0, .one, [⟨0, 4, .rw, false, 0, .none⟩]⟩ /- BST_EVEN -/,
  ⟨0x100, 6, 0x4, .one, [⟨24, 8, .ro, false, 0, .none⟩, ⟨0, 21, .ro, false, 0, .none⟩]⟩ /- BST_BLKb -/,
  ⟨0x200, 5, 0x4, .one, [⟨30, 2, .ro, false, 0, .none⟩, ⟨24, 6, .ro, false, 0, .none⟩, ⟨22, 2, .ro, false, 0, .none⟩, ⟨16, 4, .ro, false, 0, .none⟩, ⟨8, 8, .ro, false, 0, .none⟩, ⟨0, 8, .ro, false, 0, .none⟩]⟩ /- BST_REACHn -/,
  ⟨0x300, 1, 0x0, .one, [⟨0, 13, .ro, true, 0, .none⟩]⟩ /- BST_REPPTR -/,
  ⟨0x304, 1, 0x0, .one, [⟨31, 1, .cmd, true, 0, .none⟩, ⟨28, 3, .ro, true, 0, .none⟩]⟩ /- BST_FUSECMD -/,
  ⟨0x308, 1, 0x0, .one, [⟨31, 1, .cmd, true, 0, .none⟩, ⟨28, 3, .ro, true, 0, .none⟩, ⟨24, 1, .rw, true, 0, .none⟩, ⟨16, 8, .rw, true, 0, .none⟩]⟩ /- BST_MANCMD -/]

/-- The registers of the BST block. -/
def bstRegs : List RegDesc := bstRegs1

/-- CFG registers, part 1. -/
def cfgRegs1 : List RegDesc := [
  ⟨0x0, 1, 0x0, .one, [⟨16, 8, .ro, true, 0, .none⟩, ⟨12, 2, .ro, true, 0, .none⟩, ⟨11, 1, .ro, true, 0, .none⟩, ⟨10, 1, .ro, true, 0, .none⟩, ⟨9, 1, .ro, true, 0, .none⟩]⟩ /- CFG_STATUS -/,
  ⟨0x4, 1, 0x0, .one, [⟨24, 8, .ro, true, 0, .none⟩, ⟨7, 1, .sq, true, 0, .none⟩, ⟨6, 1, .sq, true, 0, .none⟩, ⟨5, 1, .sq, true, 0, .none⟩, ⟨4, 1, .sq, true, 0, .none⟩, ⟨3, 1, .sq, true, 0, .none⟩, ⟨2, 1, .sq, true, 0, .none⟩, ⟨1, 1, .sq, true, 0, .none⟩, ⟨0, 1, .sq, true, 0, .none⟩]⟩ /- CFG_EVT -/,
  ⟨0x8, 1, 0x0, .one, [⟨0, 8, .rw, true, 0, .none⟩]⟩ /- CFG_EVEN -/,
  ⟨0xc, 1, 0x0, .one, [⟨31, 1, .cmd, true, 0, .none⟩, ⟨4, 1, .cmd, true, 0, .none⟩, ⟨3, 1, .cmd, true, 0, .none⟩, ⟨2, 1, .cmd, true, 0, .none⟩, ⟨0, 1, .rw, true, 0, .none⟩]⟩ /- CFG_CMD -/,
  ⟨0x10, 1, 0x0, .one, [⟨31, 1, .rw, true, 0, .none⟩, ⟨0, 1, .rw, true, 0, .none⟩]⟩ /- CFG_CTL -/,
  ⟨0x20, 2, 0x4, .one, [⟨31, 1, .ro, true, 0, .none⟩, ⟨24, 4, .ro, true, 0, .none⟩, ⟨16, 8, .ro, true, 0, .none⟩, ⟨0, 16, .ro, true, 0, .none⟩]⟩ /- CFG_SLOTn -/,
  ⟨0x28, 2, 0x4, .one, [⟨0, 32, .ro, true, 0, .none⟩]⟩ /- CFG_SLOTn_SEQ -/,
  ⟨0x40, 8, 0x4, .one, [⟨0, 32, .ro, true, 0, .none⟩]⟩ /- CFG_HASHi -/,
  ⟨0x60, 1, 0x0, .one, [⟨6, 26, .rw, true, 0, .none⟩]⟩ /- CFG_MSRC -/,
  ⟨0x64, 1, 0x0, .one, [⟨6, 19, .rw, true, 0, .none⟩]⟩ /- CFG_MDST -/,
  ⟨0x68, 1, 0x0, .one, [⟨31, 1, .cmd, true, 0, .none⟩, ⟨28, 3, .ro, true, 0, .none⟩, ⟨0, 18, .rw, true, 1, (.range 1 131071)⟩]⟩ /- CFG_MCOPY -/,
  ⟨0x70, 1, 0x0, .one, [⟨16, 16, .ro, true, 0, .none⟩, ⟨9, 7, .rw, true, 0, .none⟩, ⟨0, 9, .ro, true, 0, .none⟩]⟩ /- CFG_PWRLOG -/,
  ⟨0x80, 1, 0x0, .one, [⟨31, 1, .cmd, true, 0, .none⟩, ⟨28, 3, .ro, true, 0, .none⟩, ⟨16, 4, .rw, true, 0, (.codes [(9, 15, 0)])⟩, ⟨8, 8, .wo, false, 0, .none⟩, ⟨0, 2, .rw, true, 0, .none⟩]⟩ /- CFG_LCCMD -/,
  ⟨0x84, 1, 0x0, .one, [⟨20, 6, .ro, true, 0, .none⟩, ⟨8, 4, .ro, true, 0, .none⟩, ⟨4, 4, .ro, true, 0, .none⟩, ⟨1, 1, .ro, true, 0, .none⟩, ⟨0, 1, .ro, true, 0, .none⟩]⟩ /- CFG_KEYSTAT -/,
  ⟨0x88, 1, 0x0, .one, [⟨31, 1, .cmd, true, 0, .none⟩, ⟨0, 8, .rw, true, 0, .none⟩]⟩ /- CFG_BLKRST -/,
  ⟨0x8c, 1, 0x0, .one, [⟨31, 1, .cmd, true, 0, .none⟩, ⟨28, 3, .ro, true, 0, .none⟩]⟩ /- CFG_ATTCMD -/]

/-- CFG registers, part 2. -/
def cfgRegs2 : List RegDesc := [
  ⟨0x100, 8, 0x4, .one, [⟨0, 32, .rw, true, 0, .none⟩]⟩ /- CFG_ATTBUFw, w = 0 to 7 -/,
  ⟨0x120, 32, 0x4, .one, [⟨0, 32, .ro, true, 0, .none⟩]⟩ /- CFG_ATTBUFw, w = 8 to 39 -/]

/-- The registers of the CFG block. -/
def cfgRegs : List RegDesc := cfgRegs1 ++ cfgRegs2

/-- PCI registers, part 1. -/
def pciRegs1 : List RegDesc := [
  ⟨0x0, 1, 0x0, .one, [⟨16, 16, .ro, false, 0x480, .none⟩, ⟨0, 16, .ro, false, 0x1ef7, .none⟩]⟩ /- PCI_ID -/,
  ⟨0x4, 1, 0x0, .one, [⟨31, 1, .ro, false, 0, .none⟩, ⟨7, 1, .ro, false, 0, .none⟩, ⟨5, 2, .ro, false, 0, .none⟩, ⟨3, 2, .ro, false, 0, .none⟩, ⟨0, 1, .ro, false, 0, .none⟩]⟩ /- PCI_STATUS -/,
  ⟨0x8, 1, 0x0, .one, [⟨24, 8, .ro, false, 0, .none⟩, ⟨3, 1, .sq, false, 0, .none⟩, ⟨2, 1, .sq, false, 0, .none⟩, ⟨1, 1, .sq, false, 0, .none⟩, ⟨0, 1, .sq, false, 0, .none⟩]⟩ /- PCI_EVT -/,
  ⟨0xc, 1, 0x0, .one, [⟨0, 4, .rw, false, 0, .none⟩]⟩ /- PCI_EVEN -/,
  ⟨0x10, 1, 0x0, .one, [⟨31, 1, .cmd, true, 0, .none⟩, ⟨0, 16, .wo, false, 0, .none⟩]⟩ /- PCI_DEVRST -/,
  ⟨0x14, 1, 0x0, .one, [⟨0, 32, .ro, false, 0, .none⟩]⟩ /- PCI_MSIXPEND -/,
  ⟨0x18, 1, 0x0, .one, [⟨0, 32, .wo, false, 0, .none⟩]⟩ /- PCI_MSIXACK -/]

/-- The registers of the PCI block. -/
def pciRegs : List RegDesc := pciRegs1

/-- The register table of a block prefix (R51). -/
def regsOf : Block → List RegDesc
  | .sys => sysRegs
  | .lkh => lkhRegs
  | .lkp => lkpRegs
  | .scn => scnRegs
  | .mbx => mbxRegs
  | .bas => basRegs
  | .tow => towRegs
  | .btl => btlRegs
  | .tmb => tmbRegs
  | .fio => fioRegs
  | .wfb => wfbRegs
  | .brg => brgRegs
  | .rch => rchRegs
  | .eth => ethRegs
  | .can => canRegs
  | .bst => bstRegs
  | .cfg => cfgRegs
  | .pci => pciRegs

end Sys2Proof.Machine
end

