-- ==== Sys2Proof/Machine/SMap.lean ====
section
/-! DEFINITION. Sparse maps from numbers to data as sorted lists: the one form in which registers, memory bytes and
shadows are held (log 2, log 3). -/

namespace Sys2Proof.Machine

/-- The value listed at key `k` (log 3). -/
def SMap.get? {α : Type} : List (Nat × α) → Nat → Option α
  | [], _ => none
  | (a, v) :: t, k => if a = k then some v else SMap.get? t k

/-- The list with key `k` set to `v`, kept in rising order. -/
def SMap.ins {α : Type} : List (Nat × α) → Nat → α → List (Nat × α)
  | [], k, v => [(k, v)]
  | (a, x) :: t, k, v =>
    if k < a then (k, v) :: (a, x) :: t
    else if a = k then (k, v) :: t
    else (a, x) :: SMap.ins t k v

/-- The list without key `k`. -/
def SMap.del {α : Type} : List (Nat × α) → Nat → List (Nat × α)
  | [], _ => []
  | (a, x) :: t, k => if a = k then SMap.del t k else (a, x) :: SMap.del t k

/-- Set key `k` to `v` where an unlisted key reads as `d`: writing `d` removes the entry (log 3). -/
def SMap.put {α : Type} [DecidableEq α] (d : α) (m : List (Nat × α)) (k : Nat) (v : α) : List (Nat × α) :=
  if v = d then SMap.del m k else SMap.ins m k v

/-- Keys strictly rising from `lo` on, and no entry equal to what its key reads as when unlisted. -/
def SMap.wfFrom {α : Type} [DecidableEq α] (d : Nat → α) : Nat → List (Nat × α) → Bool
  | _, [] => true
  | lo, (a, x) :: t => decide (lo ≤ a) && decide (x ≠ d a) && SMap.wfFrom d (a + 1) t

/-- The canonical form of a sparse map whose unlisted keys read as `d`. -/
def SMap.wf {α : Type} [DecidableEq α] (d : Nat → α) (m : List (Nat × α)) : Bool := SMap.wfFrom d 0 m

end Sys2Proof.Machine
end

