-- ==== Sys2Proof/Machine/State.lean ====
section
/-! DEFINITION. The state of the HZ480 as plain data, its stops, and the state after power-on reset. -/

namespace Sys2Proof.Machine

/-- The faults of the model. No command of the HZ480 stops the block, so the type has one constructor that nothing
raises; it is there because the interface asks for a type. -/
inductive Fault where
  /-- Raised by nobody; safe. -/
  | none
deriving DecidableEq, Repr

/-- The refusals of the model. -/
inductive Refusal where
  /-- A command that has no meaning yet, by its mnemonic; raised by Dispatch alone; safe. -/
  | notModelled (mnemonic : String)
deriving DecidableEq, Repr

/-- The device. -/
structure State where
  /-- The commands that wait, first in, first out. -/
  pending : List Instr
  /-- Model time in ns since power-on: it orders events for R529 (log 4). -/
  now : Nat
  /-- The module is an HZ480-SN (R524). -/
  sn : Bool
  /-- Counter of the free values used so far (log 5). -/
  free : Nat
  /-- Register words that differ from their reset value, by plain address (R51, R56). -/
  regs : List (Nat × Word)
  /-- Bytes of reach memory, Basin buffer, image store and MRAM that differ from what they read as after reset, by local address
  (R46). -/
  mem : List Host.Cell
  /-- Stored words with an ECC error, by the address of their first byte: true for a double-bit error (R250); I-cache lines with a
  parity error, by `lineKey` (R99). -/
  ecc : List (Nat × Bool)
  /-- Time of the last recording of an event bit, keyed 32 × register address + bit (R529). -/
  evtLast : List (Nat × Nat)
  /-- High-word shadows, keyed 64 × block + initiator: register offset and word (R62). -/
  rshadow : List (Nat × (Nat × Word))
  wshadow : List (Nat × (Nat × Word))
  cores : Vector Core 40
  mbox : Vector Mbox 64
  lkp : Lkp
  scan : Scan
  rot : Rot
  faults : Faults
  tmb : Tmb
  fio : Fio
  basin : Basin
  eth : Vector EthPort 24
  tow : Tow
  can : Vector CanPort 8
  /-- Time since the last edge of the 80 MHz CAN clock, in half ns (R397). -/
  canClk : Nat
  /-- The Beetle engines, by global engine number, and the levels that the outside last drove at the 64 balls (R400). -/
  btl : Vector Engine 16
  balls : BitVec 64
  wfb : Wfb
  brg : Brg
  cfg : Cfg
  dma : Vector Dma 5
  pair : Pair
  boot : Boot
  /-- What the last command sent to the outside, in order. -/
  sent : List Sent
deriving DecidableEq, Repr

/-- A core after power-on: off, every register at its reset value (R81) (log 113). -/
def Core.reset : Core :=
  { st := .off, w := Vector.replicate 64 0, pc := 0, n := false, z := false, c := false, v := false, bacc := false,
    bopen := false, level := 0, ie := false, sup := true, bstk := 0, ecause := 0, eaddr := 0, dsp := 0, dsb := 0,
    dsl := 0, rsp := 0, rsb := 0, rsl := 0, vbase := 0, sscr := 0, item := 0, dstack := [], rstack := [], sbuf := [],
    pendW := [], items := Vector.replicate 4 none, ovf := false, haltReq := false, stepping := false, wasIdle := false,
    drainReq := false, icache := [], cyc := { count := 0, mul1 := none, mul2 := none, bitLast := false, mtcLast := false } }

/-- An empty mailbox. -/
def Mbox.reset : Mbox := { words := [], bstate := .empty, owner := 0, nread := 0 }

/-- A task before any start (log 113). -/
def Task.reset : Task :=
  { held := false, first := false, warm := false, retbad := false, onEdit := false, prevLatch := none, firstLatch := 0, ahead := 0,
    snap := [], done0 := 0, done1 := 0, lastDone := 0, buffer := [], capture := [], capLines := [], capTarget := 0, waiting := false, lateRun := 0, lateCyc := 0, shift := 0 }

/-- The SCN before any start. -/
def Scan.reset : Scan :=
  { tasks := Vector.replicate 32 Task.reset, committing := none, edit := none, editLive := false, journal := [], epoch := false, retRun := none,
    retQueue := none, retTarget := 0, retRunTarget := 0, clean0 := [], clean1 := [], restart := none, waitCmd := [], forceDue := [], localNew := [], sendSafe := false, aborting := false,
    sources := [] }

/-- The Lockkeeper with an empty store (R234: every credit 0, every last[p] 15). -/
def Lkp.reset : Lkp :=
  { store := [], ready := [], opened := [], ports := Vector.replicate 40 [], overflow := [], delay := [], offers := [],
    credit := Vector.replicate 16 0, last := Vector.replicate 4 15, idle := [], srcVal := [],
    trcSeq := Vector.replicate 4 0, trcDropped := Vector.replicate 4 0, trcQueue := [], delayTick := none }

/-- No rotation step in progress; half 0 selected for every role (log 7). -/
def Rot.reset : Rot :=
  { fill := none, round0 := false, step := none, late := false, draining := none, drainAt := 0, dmaHeld := [], window := none,
    winRole := 0, winAt := 0, delta := 0, emergency := false, held := [], half := Vector.replicate 4 0, fwHalf := 0, fwFrom := 0, fwStaged := 0,
    fw0 := Vector.replicate 5 (0, 0), fw1 := Vector.replicate 5 (0, 0), gap := none, gapAt := 0, wetAt := Vector.replicate 5 0,
    testAt := Vector.replicate 5 0, latent := Vector.replicate 5 false, mism := Vector.replicate 5 false, phaseAt := 0, testFrom := 0, lbist := 0, ce := Vector.replicate 5 [] }

/-- An empty fault log. -/
def Faults.reset : Faults :=
  { queue := [], last := none, seq := 0, testOpen := false, doubles := [], resets := [], stopped := false, awd := none,
    coreStopped := false, waits := [], wedged := false, due := none }

/-- The time base at power-on (R270). -/
def Tmb.reset : Tmb :=
  { frac := 0, fracSeen := [], steps := [], sub := Vector.replicate 32 0, skip := Vector.replicate 32 false,
    missed := Vector.replicate 32 false, slewed := 0, capAt := Vector.replicate 32 0, shadow := [], syncEnd := 0, syncPin := false }

/-- Nothing to report. -/
def FdNews.none : FdNews := { events := [], entries := [], late := [], bad := 0, lost := 0, aiLost := 0, rounds := 0, done := 0 }

/-- The field side before VFIELD: the F-die off, its outputs safe with cause POWERUP (R287). -/
def Fio.reset : Fio :=
  { down := .none, up := .none, good := 0, lastGood := 0, fgood := 0, flastGood := 0, pend := [], sent := [], cmd := 0, cmdWait := 0, edges := [],
    tag := Vector.replicate 16 0, inst := Vector.replicate 4 .none, on := false, matched := false, restarted := false, resynced := false,
    frames := 0, fbase := 0, fnow := 0, flink := false, copy := [], ack := .none, raw := 0, filt := 0, rawNow := Vector.replicate 64 0,
    rawTime := Vector.replicate 64 0, accNow := Vector.replicate 64 0, samples := Vector.replicate 64 0, sampleAt := Vector.replicate 8 0,
    fedges := [], elost := false, fsent := 0, finst := Vector.replicate 4 .none, fdone := Vector.replicate 4 0, got := Vector.replicate 16 0,
    gotTag := Vector.replicate 16 0, fresh := Vector.replicate 16 false, cmt := Vector.replicate 16 0, safe := Vector.replicate 16 true,
    causes := 4, cause := 3, rxHeld := 0, rxR := 0, rxSeen := 0, hit := 0, off := 0, offAt := Vector.replicate 32 0,
    conds := Vector.replicate 32 0, codes := Vector.replicate 32 0, drv := 0, drvAt := Vector.replicate 32 0, trip := 0, vok := 0, overAt := Vector.replicate 2 .none,
    ai := Vector.replicate 8 0, aiOver := 0, aiBreak := 0, aiRun := false, aiAt := 0, aiPrev := .none,
    aiTarget := .none, aiDone := 0, news := .none }

/-- An empty Basin. -/
def Basin.reset : Basin :=
  { planeAt := Vector.replicate 4 0, sweepAt := 0, inbox := [], arriving := [], frames := [], queues := [], flights := [], turns := Vector.replicate 8 35, mirQueue := [], lanes := [], fresh := 0, freed := [], nextId := 0,
    egress := [], mac := [], seqs := [], records := [], sound := 15 }

/-- An Ethernet port with nothing to send. -/
def EthPort.reset : EthPort :=
  { rx := [], tx := [], rxLost := false, txLost := false, sending := none, next := none, gapEnd := 0, backoff := none,
    burst := none, beacon := 0, turn := 256, turnAt := 0, deferred := false, sfd := none, lfsr := 0 }

/-- The Ethernet ports after a reset of a device whose SYS_UID0 is `uid`: the back-off registers take their seeds (R344) (log 75). -/
def ethReset (uid : Nat) : Vector EthPort 24 := Vector.ofFn fun p => { EthPort.reset with lfsr := (uid ^^^ p.val) % 65536 }

/-- A station nothing has been sent to. -/
def Station.reset : Station :=
  { consec := 0, seeded := false, kind := 0, sent := false, got := none, payload := [], dup := false, decided := false,
    uid := 0, claimant := none, good := 0, bad := 0, lastCycle := 0, released := false }

/-- The Towpath sequencer before it is enabled. -/
def Tow.reset : Tow := { stn := Vector.replicate 256 Station.reset, start := 0, done := false, inbox := [] }

/-- A CAN port before it is enabled. -/
def CanPort.reset : CanPort :=
  { on := false, mode := 0, chosen := none, cancel := false, lost := false, queue := [], hit := Vector.replicate 8 none, div := 0, per := 79, passed := false, asked := false }

/-- A Beetle engine that is OFF. -/
def Engine.reset : Engine :=
  { sr := 0, next := 0, instr := 0, tx := [], rx := [], await := none, giveDue := false, takeDue := false, batch := none, due := [] }

/-- A Worri link that is down. -/
def WLink.reset : WLink :=
  { lock := false, txq := [], replay := [], txSeq := 0, rxSeq := 0xFFF, credits := Vector.replicate 5 0, owed := Vector.replicate 5 0, nak := false, replays := 0,
    upAt := 0, turn := 4, nbr := none }

/-- The fabric before it is enabled. -/
def Wfb.reset : Wfb :=
  { links := Vector.replicate 4 WLink.reset, inbox := [], bridge := [], rootPrio := 0, rootUid := 0, rootSeq := 0, parent := none,
    changed := 0, topo := [], collect := none, acks := none, nextEpoch := 0, nextIds := [], nextRt := [], parts := 0,
    timeReq := none, gasps := [] }

/-- The bridges with nothing outstanding. -/
def Brg.reset : Brg :=
  { sems := Vector.replicate 32 none, hostBufs := [], fabBufs := [], reads := [], gathers := [], waits := [], nextTag := 0, nextReq := 0, seqs := [],
    pathTx := [], pathRx := [], polled := Vector.replicate 16 none, disarmed := Vector.replicate 16 false, pollAt := Vector.replicate 16 0,
    msix := Vector.replicate 32 { addr := 0, data := 0, masked := true }, opened := false, qspi := false, perst := false, fresh := false }

/-- A module with blank fuses (log 7). -/
def Cfg.reset : Cfg :=
  { fuses := { lcs := 0, keyHash := Vector.replicate 4 0, dsk := 0, key := none, dskClosed := false }, repairs := [], dip := none,
    mcopy := none, verify := none, attest := none, lcChange := none, recal := false, standby := false, standbyDue := false,
    brownout := false, halted := false, calDue := false, testAsked := false, manual := none, slices := [], blockAt := Vector.replicate 6 0,
    blockLatent := Vector.replicate 6 false, refLost := none, torn := none, mline := none, refBad := false }

/-- No pair. -/
def Pair.reset : Pair :=
  { seqTx := 0, seqRx := none, inbox := [], peerUid := 0, peerEpoch := 0, primaryAt := none, hbAt := none, since := 0, heardAt := none, snaps := [],
    marksOwn := [], marksPeer := [], retsOwn := [], retsPeer := [], joined := 0, track := none, lost := false, silenceDue := false }

/-- The device at power-on: every register at its reset value, nothing listed in memory (log 7). -/
def State.reset : State :=
  { pending := [], now := 0, sn := false, free := 0, regs := [], mem := [], ecc := [], evtLast := [], rshadow := [], wshadow := [],
    cores := Vector.replicate 40 Core.reset, mbox := Vector.replicate 64 Mbox.reset, lkp := Lkp.reset,
    scan := Scan.reset, rot := Rot.reset, faults := Faults.reset, tmb := Tmb.reset, fio := Fio.reset, basin := Basin.reset, eth := ethReset 0, tow := Tow.reset, can := Vector.replicate 8 CanPort.reset, canClk := 0,
    btl := Vector.replicate 16 Engine.reset, balls := 0, wfb := Wfb.reset, brg := Brg.reset, cfg := Cfg.reset, dma := Vector.replicate 5 { sup := [], wait := none, owed := none, pos := 0, fail := none }, pair := Pair.reset,
    boot := { test := false, hostsel := false, calFail := 0, bad := [], field := true, sources := [] },
    sent := [] }

end Sys2Proof.Machine
end

