-- ==== Sys2Proof/Machine/Ops.lean ====
section
/-! DEFINITION. The named operations over registers, fields, events, privilege and the bus error log
(02_registers R51 to R75, R529). -/

namespace Sys2Proof.Machine

/-! ### Where a register is -/

/-- The 64 KiB blocks of R51: first 64 KiB number, copies, prefix. -/
def blockBases : List (Nat × Nat × Block) := [
  (0x6000, 1, .sys), (0x6001, 1, .lkh), (0x6002, 1, .lkp), (0x6003, 1, .scn), (0x6004, 1, .mbx), (0x6006, 1, .bas),
  (0x6008, 1, .tow), (0x600A, 2, .btl), (0x600C, 1, .tmb), (0x600D, 1, .fio), (0x600E, 1, .wfb), (0x600F, 1, .brg),
  (0x6010, 5, .rch), (0x6020, 24, .eth), (0x6040, 8, .can), (0x6050, 1, .bst), (0x6051, 1, .cfg), (0x6052, 1, .pci)]

/-- The block an address falls in, if R51 lists one. -/
def blockAt (a : Nat) : Option Block :=
  (blockBases.find? fun (f, n, _) => decide (f ≤ a / 0x10000 ∧ a / 0x10000 < f + n)).map (·.2.2)

/-- The copy of a repeated block an address falls in. -/
def instAt (a : Nat) : Nat :=
  match blockBases.find? fun (f, n, _) => decide (f ≤ a / 0x10000 ∧ a / 0x10000 < f + n) with
  | some (f, _, _) => a / 0x10000 - f
  | none => 0

/-- Which copy of `n` items at `base`, `stride` apart, starts at `a`. -/
def copyAt (base stride n a : Nat) : Option Nat :=
  if base ≤ a ∧ (a - base) % stride = 0 ∧ (a - base) / stride < n then some ((a - base) / stride) else none

/-- Whether a table row describes the word at a plain offset. -/
def RegDesc.hit (d : RegDesc) (off : Nat) : Bool :=
  decide (d.off ≤ off ∧ (off - d.off) % d.stride = 0 ∧ (off - d.off) / d.stride < d.count)

/-- The table row of the register at a plain address (R56: none where no register is) (log 19). -/
def descAt (a : Nat) : Option RegDesc :=
  match blockAt a with
  | some b => if a % 0x10000 < 0x4000 then (regsOf b).find? (·.hit (a % 0x10000)) else none
  | none => none

/-- Reset values that depend on the copy: periods of event tasks, forwarding masks, host window 0, buffer numbers. -/
def resetExtra (a : Nat) : Option Nat :=
  if 0x60060800 ≤ a ∧ a < 0x60060820 then some 0 else
  match copyAt (A.SCN_TASK_PERIOD 0) 0x40 32 a with
  | some n => if n < 16 then some 125 else some 0
  | none =>
  match copyAt 0x60060408 0x20 36 a with
  | some p => some (if p < 32 then 0xFFFFFFFF - 2 ^ p else 0xFFFFFFFF)
  | none =>
  match copyAt 0x6006040C 0x20 36 a with
  | some p => some (if p < 33 then 0xE else 0xE - 2 ^ (p - 32))
  | none =>
  match blockAt a, a % 0x10000 with
  | some .eth, 0 => some (if instAt a < 8 then 0x00040400 else 0)
  | some .eth, 0x10 => some (if instAt a < 8 then 0 else 0x00000820)
  | some .eth, 0x14 => some (if instAt a < 8 then 0 else 0x75300080)
  | _, _ =>
  if a = 0x60060084 then some 0x800788B6 else
  if a = 0x600F0200 then some (0x80000000 + 0x0C0) else
  match blockAt a, copyAt 0x80 4 16 (a % 0x10000) with
  | some .can, some b => some (b * 0x10000)
  | _, _ => none

/-- The value a field list gives a word at power-on reset. -/
def fieldsReset (fs : List FieldDesc) : Nat := fs.foldl (fun acc f => putBits acc f.lo f.w f.rst) 0

/-- The power-on reset value of the word at a plain address (log 19). -/
def resetNat (a : Nat) : Nat :=
  match resetExtra a with
  | some v => v
  | none => match descAt a with
    | some d => fieldsReset d.fields
    | none => 0

/-! ### Reading and writing register words and fields -/

/-- The word held at a plain address. -/
def rd (s : State) (a : Nat) : Word := (SMap.get? s.regs a).getD (w32 (resetNat a))

/-- Set the word at a plain address, keeping the register list canonical. -/
def wr (a : Nat) (v : Word) (s : State) : State :=
  { s with regs := SMap.put (w32 (resetNat a)) s.regs a v }

/-- The value of a field. -/
def getF (s : State) (f : FRef) : Nat := bitsOf (rd s f.addr).toNat f.lo f.w

/-- Whether a one-bit field is 1. -/
def isSet (s : State) (f : FRef) : Bool := getF s f == 1

/-- Set a field. -/
def setF (f : FRef) (v : Nat) (s : State) : State :=
  wr f.addr (w32 (putBits (rd s f.addr).toNat f.lo f.w v)) s

/-- Add to a field that saturates. -/
def satF (f : FRef) (n : Nat) (s : State) : State := setF f (satAdd f.w (getF s f) n) s

/-- Add to a field that wraps. -/
def incF (f : FRef) (n : Nat) (s : State) : State := setF f (getF s f + n) s

/-- A 64-bit register value (R61). -/
def rd64 (s : State) (a : Nat) : Nat := (rd s a).toNat + 2 ^ 32 * (rd s (a + 4)).toNat

/-- Set a 64-bit register value. -/
def wr64 (a : Nat) (v : Nat) (s : State) : State := wr (a + 4) (w32 (v / 2 ^ 32)) (wr a (w32 v) s)

/-- Integer nanoseconds of the time base. -/
def time (s : State) : Nat := rd64 s A.TMB_TIME

/-- Apply `f` for each element in order. -/
def each {α : Type} (l : List α) (f : α → State → State) (s : State) : State := l.foldl (fun s x => f x s) s

/-- Apply `f` where a condition holds. -/
def onlyIf (b : Bool) (f : State → State) (s : State) : State := if b then f s else s

/-- Something is sent to the outside (log 111). -/
def emit (c : Chan) (bs : List Byte) (s : State) : State := { s with sent := s.sent ++ [{ chan := c, bytes := bs }] }

/-- Nothing has been sent yet by the command that begins (log 111). -/
def quiet (s : State) : State := { s with sent := [] }

/-- The next free word (log 5). -/
def freeWord (s : State) : Word := Config.freeWord s.free

/-- The next free number (log 5). -/
def freeNat (s : State) : Nat := Config.freeNat s.free

/-- Step past a free value that has been used. -/
def usedFree (s : State) : State := { s with free := s.free + 1 }

/-! ### Events (R64 to R67, R529) -/

/-- Offsets of the event status registers of the block at 64 KiB number `hi` (its enable register is the next word). -/
def evtOffsets (hi : Nat) : List Nat :=
  match blockAt (hi * 0x10000) with
  | some .sys => [0x14]
  | some .lkh => [0x10, 0x210]
  | some .mbx => [0x0]
  | some .rch => [0x1100, 0x40]
  | some .bst => [0x8]
  | some .cfg => [0x4]
  | some _ => [0x8]
  | none => []

/-- The Lockkeeper source of a block's event output (R231, sources 640 + k). -/
def outSource (hi : Nat) : Nat :=
  match blockAt (hi * 0x10000) with
  | some .sys => 640
  | some .lkh => 641
  | some .lkp => 642
  | some .scn => 643
  | some .mbx => 644
  | some .bas => 645
  | some .tow => 646
  | some .btl => 647 + (hi - 0x600A)
  | some .tmb => 649
  | some .fio => 650
  | some .wfb => 651
  | some .brg => 652
  | some .rch => 653 + (hi - 0x6010)
  | some .bst => 658
  | some .cfg => 659
  | some .pci => 660
  | some .eth => 664 + (hi - 0x6020)
  | some .can => 688 + (hi - 0x6040)
  | none => 1023

/-- Whether one event status register asserts its block's output (R67). -/
def evtActive (s : State) (evt : Nat) : Bool :=
  ((rd s evt) &&& (rd s (evt + 4)) &&& 0xFFFFFF#32) != 0#32

/-- Whether the event output of a block is asserted (R67, R232). -/
def asserted (s : State) (hi : Nat) : Bool := (evtOffsets hi).any fun o => evtActive s (hi * 0x10000 + o)

/-- The value a hardware event source announces is kept (R231). -/
def keepValue (src val : Nat) (s : State) : State := { s with lkp := { s.lkp with srcVal := SMap.put 0 s.lkp.srcVal src (w32 val) } }

/-- A hardware event source fires: its pending bit is set, and the value it announces is kept (R230) (log 25). -/
def pend (src : Nat) (val : Nat) (s : State) : State := keepValue src val (setF ⟨A.LKP_PEND (src / 32), src % 32, 1⟩ 1 s)

/-- Run a change of a block's registers and fire the block's source if its output becomes asserted. -/
def withOutput (hi : Nat) (f : State → State) (s : State) : State :=
  let t := f s
  if !asserted s hi && asserted t hi then pend (outSource hi) 0 t else t

/-- Whether R529 limits an event register to one recording per bit and µs: not SYS_EVT, not RCH_CORE_EVT. -/
def evtLimited (evt : Nat) : Bool :=
  evt != A.SYS_EVT && !(blockAt evt == some .rch && evt % 0x10000 == 0x1100)

/-- Whether an event of a bit merges into its last recording, less than 1 µs ago (R529) (log 97). -/
def merges (s : State) (evt k : Nat) : Bool :=
  evtLimited evt && (match SMap.get? s.evtLast (32 * evt + k) with
    | some t => decide (s.now < t + 1000)
    | none => false)

/-- An event bit has been recorded now (R529) (log 97). -/
def evtStamp (key : Nat) (s : State) : State := { s with evtLast := SMap.ins s.evtLast key s.now }

/-- Record an event in its status register: the bit is set and EVSEQ advances (R64). -/
def record (evt k : Nat) (s : State) : State := evtStamp (32 * evt + k) (setF ⟨evt, k, 1⟩ 1 (incF ⟨evt, 24, 8⟩ 1 s))

/-- An event: recorded unless it merges (R64, R529); the block's source fires where its output becomes asserted (R67) (log 25). -/
def raise (evt k : Nat) (s : State) : State :=
  if merges s evt k then s else withOutput (evt / 0x10000) (record evt k) s

/-- A write-back of an event status register at its plain offset (R65); a write-back that leaves the output asserted
fires the source again (R230). -/
def writeBack (evt : Nat) (v : Word) (s : State) : State :=
  let cur := rd s evt
  let s := if (v >>> 24) == (cur >>> 24) then
      wr evt ((cur &&& 0xFF000000#32) ||| (cur &&& ~~~v &&& 0xFFFFFF#32)) s else s
  if asserted s (evt / 0x10000) then pend (outSource (evt / 0x10000)) 0 s else s

/-! ### Privilege, clamps, bus errors -/

/-- The state of a core by its initiator ID. -/
def State.core (s : State) (i : Nat) : Core := s.cores[i % 40]'(Nat.mod_lt _ (by decide))

/-- Replace a core. -/
def State.setCore (s : State) (i : Nat) (k : Core) : State :=
  { s with cores := s.cores.set (i % 40) k (Nat.mod_lt _ (by decide)) }

/-- An element of a vector of `n`, by a number taken modulo `n`. -/
def vget {α : Type} {n : Nat} [NeZero n] (v : Vector α n) (i : Nat) : α := v[i % n]'(Nat.mod_lt _ (Nat.pos_of_ne_zero (NeZero.ne n)))

/-- Replace an element of a vector of `n`. -/
def vset {α : Type} {n : Nat} [NeZero n] (v : Vector α n) (i : Nat) (x : α) : Vector α n :=
  v.set (i % n) x (Nat.mod_lt _ (Nat.pos_of_ne_zero (NeZero.ne n)))

/-- Change a core. -/
def modCore (i : Nat) (f : Core → Core) (s : State) : State := s.setCore i (f (s.core i))

/-- Whether an initiator is privileged (R69). -/
def isPriv (s : State) (who : Who) : Bool :=
  if who.id < 40 then (s.core who.id).sup
  else if who.id < 45 then who.flag
  else if who.id = 46 then isSet s F.SYS_PRIVCTL_HOST
  else if who.id = 47 then isSet s F.SYS_PRIVCTL_FABRIC && who.flag
  else if who.id = 48 ∨ who.id = 49 then true
  else if who.id = 55 then getF s F.SYS_STATUS_LCS == 1 || getF s F.SYS_STATUS_LCS == 3
  else false

/-- An attempt that R70 counts. -/
def privAttempt (who : Who) (s : State) : State :=
  raise A.SYS_EVT 2 (setF F.SYS_PRIVCNT_LASTID who.id (satF F.SYS_PRIVCNT_COUNT 1 s))

/-- A clamp or substitution in a register of a block (R71) (log 117). -/
def clampLog (who : Who) (pa : Nat) (s : State) : State :=
  raise A.SYS_EVT 1 (setF F.SYS_CLAMPLOG_OFFSET (pa % 0x4000 / 4 * 4)
    (setF F.SYS_CLAMPLOG_ID who.id (setF F.SYS_CLAMPLOG_BLOCK (pa / 0x10000) s)))

/-- A clamp or substitution in control register `idx` of core `i` (R71). -/
def clampCore (i idx : Nat) (s : State) : State :=
  raise A.SYS_EVT 1 (setF F.SYS_CLAMPLOG_OFFSET (4 * idx)
    (setF F.SYS_CLAMPLOG_ID i (setF F.SYS_CLAMPLOG_BLOCK 0xFF s)))

/-- The bus error codes of R72. -/
inductive BusErr where
  | decode | owner | mbxFull | remoteTimeout | remoteErr | ecc | locked
deriving DecidableEq, Repr

/-- The value of a bus error code (R72). -/
def BusErr.code : BusErr → Nat
  | .decode => 1
  | .owner => 2
  | .mbxFull => 3
  | .remoteTimeout => 4
  | .remoteErr => 5
  | .ecc => 6
  | .locked => 7

/-- The SIZE code of SYS_BUSERRn_INFO (log 141). -/
def sizeCode (n : Nat) : Nat := if n = 1 then 0 else if n = 2 then 1 else if n = 4 then 2 else 3

/-- Log a bus error returned to a local initiator (R75). -/
def logBusErr (who : Who) (addr : Nat) (isWr : Bool) (size : Nat) (e : BusErr) (fid : Nat) (s : State) : State :=
  let n := getF s F.SYS_BUSERRPTR_NEXT
  let s := wr (A.SYS_BUSERR_ADDR n) (w32 addr) s
  let s := wr (A.SYS_BUSERR_INFO n) (w32 (e.code + 16 * (who.id % 64) + 1024 * bit isWr + 2048 * sizeCode size
    + 0x100000 * (fid % 4096))) s
  let s := wr64 (A.SYS_BUSERR_TIME n) (time s) s
  raise A.SYS_EVT 0 (incF F.SYS_BUSERRPTR_TOTAL 1 (incF F.SYS_BUSERRPTR_NEXT 1 s))

end Sys2Proof.Machine
end

