-- ==== Sys2Proof/Machine/Mem.lean ====
section
/-! DEFINITION. The memories: reach memory behind bank gates and circular windows, image store, MRAM, Basin buffer
(02_registers R46 to R50, 08_banks_mailboxes R249 to R257, 05_scan_cycle R146 to R148, 01_architecture R30). -/

namespace Sys2Proof.Machine

/-! ### Bytes -/

/-- What a byte of memory reads as after power-on: the quality of every input byte is BAD (R146), every other byte 0 (log 2). -/
def memReset (a : Nat) : Byte := if 0x300C0000 ≤ a ∧ a < 0x300C8000 then 0xAA else 0

/-- The byte at a physical local address (log 2). -/
def byteAt (s : State) (a : Nat) : Byte := (SMap.get? s.mem a).getD (memReset a)

/-- Store one byte (log 2). -/
def setByte (a : Nat) (b : Byte) (s : State) : State := { s with mem := SMap.put (memReset a) s.mem a b }

/-- `n` bytes from address `a` on. -/
def bytesAt (s : State) (a n : Nat) : List Byte := (List.range n).map fun k => byteAt s (a + k)

/-- Store a list of bytes from address `a` on. -/
def putBytes : Nat → List Byte → State → State
  | _, [], s => s
  | a, b :: t, s => putBytes (a + 1) t (setByte a b s)

/-- The little-endian value of a list of bytes (R7). -/
def leNat : List Byte → Nat
  | [] => 0
  | b :: t => b.toNat + 256 * leNat t

/-- The `n` little-endian bytes of a number. -/
def leBytes : Nat → Nat → List Byte
  | 0, _ => []
  | n + 1, v => b8 v :: leBytes n (v / 256)

/-- The little-endian value of the `n` bytes at `a`. -/
def memNat (s : State) (a n : Nat) : Nat := leNat (bytesAt s a n)

/-- Store the low `n` bytes of `v` at `a`, little endian. -/
def memPut (a n v : Nat) (s : State) : State := putBytes a (leBytes n v) s

/-! ### Roles and reaches (R22, R27) -/

/-- The reach that holds role `r`; 7 if none. -/
def reachOf (s : State) (r : Nat) : Nat := getF s ⟨A.LKH_ROLEMAP, 4 * (r % 4), 3⟩

/-- The role a reach holds, if any. -/
def roleOf (s : State) (n : Nat) : Option Nat := (List.range 4).find? fun r => reachOf s r == n

/-- The state of reach `n` as LKH_REACHST codes it: 0 WET, 1 DRAINING, 2 DRY, 3 FILLING, 4 FAILED. -/
def reachState (s : State) (n : Nat) : Nat := getF s ⟨A.LKH_REACHST, 3 * n, 3⟩

/-- Set the state of reach `n`. -/
def setReachState (n v : Nat) (s : State) : State := setF ⟨A.LKH_REACHST, 3 * n, 3⟩ v s

/-- The physical address of own-reach offset `off` of reach `n` (R249). -/
def reachAddr (n off : Nat) : Nat := 0x10000000 + n * 0x01000000 + off

/-! ### ECC (R250) -/

/-- The errors of the 64-bit words an access touches: 0 none, 1 a single-bit error, 2 a double-bit error. -/
def eccOf (s : State) (a n : Nat) : Nat :=
  let k := fun w => match SMap.get? s.ecc w with
    | some true => 2
    | some false => 1
    | none => 0
  (List.range ((a + n - 1) / 8 - a / 8 + 1)).foldl (fun m j => max m (k ((a / 8 + j) * 8))) 0

/-- The word at `w` no longer has an error. -/
def eccClear (w : Nat) (s : State) : State := { s with ecc := SMap.del s.ecc w }

/-- The corrected errors of a reach in the last second, by the instant of each (R492). -/
def recentCE (s : State) (n : Nat) : List Nat :=
  (s.rot.ce[n % 5]'(Nat.mod_lt _ (by decide))).filter fun t => decide (s.now < t + 1000000000)

/-- A corrected error of reach `n` counts for the last second (R492). -/
def noteCorrected (n : Nat) (s : State) : State :=
  { s with rot := { s.rot with ce := s.rot.ce.set (n % 5) (s.now :: recentCE s n) (Nat.mod_lt _ (by decide)) } }

/-- Count, log and raise an ECC error in the memory of reach `n` at own-reach offset `off` (R250, R251). -/
def eccNote (n off : Nat) (ue scrub : Bool) (who : Nat) (s : State) : State :=
  let s := if ue then satF (F.RCH_ECCCNT_UE n) 1 s else noteCorrected n (satF (F.RCH_ECCCNT_CE n) 1 s)
  let s := setF (F.RCH_ECCLOG_UE n) (bit ue) (setF (F.RCH_ECCLOG_SCRUB n) (bit scrub)
    (setF (F.RCH_ECCLOG_ID n) (if scrub then 0 else who) (setF (F.RCH_ECCLOG_WORD n) (off / 8) s)))
  raise (A.RCH_MEM_EVT n) (if ue then 1 else 0) s

/-- The Lockhouse reads words of reach `n` that have an error: each is counted, logged and raised, and a single-bit error corrected
(R250). -/
def noteWords (n : Nat) (met : List (Nat × Bool)) (s : State) : State :=
  each met (fun x s =>
    let s := eccNote n (x.1 - reachAddr n 0) x.2 false 49 s
    if x.2 then s else eccClear x.1 s) s

/-! ### Gates, circular windows, dirty bits -/

/-- Whether the gate of a bank of reach `n` admits an initiator (R253). -/
def gateAdmits (s : State) (n bank id : Nat) : Bool :=
  if id = 49 ∨ id = 48 then true else
  let owner := getF s (F.RCH_GATE_OWNER n bank)
  let own := match getF s (F.RCH_GATE_MODE n bank) with
    | 0 => id / 8 == n && decide (id < 40) || id == 40 + n
    | 1 => id == 8 * n + owner
    | 2 => id == owner
    | _ => false
  own || (isSet s (F.RCH_GATE_GUESTEN n bank) && id == getF s (F.RCH_GATE_GUEST n bank))

/-- Fold an own-reach offset through the circular windows of reach `n` (R256). -/
def foldCW (s : State) (n off : Nat) : Nat :=
  match (List.range 8).find? fun w =>
      let size := 2 ^ (getF s (F.RCH_CW_SIZE n w) + 6)
      let base := getF s (F.RCH_CW_BASE n w) * 64 / size * size
      isSet s (F.RCH_CW_EN n w) && decide (base + size ≤ off ∧ off < base + 2 * size) with
  | some w => off - 2 ^ (getF s (F.RCH_CW_SIZE n w) + 6)
  | none => off

/-- The firmware half seen through the own-reach alias of reach `n` (R202). -/
def foldFW (s : State) (n off : Nat) : Nat :=
  if off < 0xC0000 then off else
  match roleOf s n with
  | some r => if s.rot.half[r % 4]'(Nat.mod_lt _ (by decide)) = 1 then
      (if off < 0xE0000 then off + 0x20000 else off - 0x20000) else off
  | none => off

/-- A write reached line `line` of reach `n`: the fill-dirty bit and both retentive dirty bits are set
(R165, R193). -/
def markDirty (n line : Nat) (s : State) : State :=
  let s := match s.rot.fill with
    | some (src, ls) => if src = n ∧ line ∉ ls ∧ line < 12288 then { s with rot := { s.rot with fill := some (src, line :: ls) } } else s
    | none => s
  match roleOf s n with
  | some r =>
    let s := { s with scan := { s.scan with clean0 := s.scan.clean0.filter (· != (r, line)), clean1 := s.scan.clean1.filter (· != (r, line)) } }
    match s.pair.track with
    | some l => if (r, line) ∈ l then s else { s with pair := { s.pair with track := some ((r, line) :: l) } }
    | none => s
  | none => s

/-- Store bytes into the memory of reach `n` at own-reach offset `off`, marking the lines dirty. -/
def reachPut (n off : Nat) (bs : List Byte) (s : State) : State :=
  let s := putBytes (reachAddr n off) bs s
  if bs.length = 0 then s else
  each ((List.range ((off + bs.length - 1) / 64 - off / 64 + 1)).map (· + off / 64)) (markDirty n) s

/-- The parts of a run of bytes that lie in one 64-byte line each, which a circular window moves as a whole (R256). -/
def lineRuns (off : Nat) (bs : List Byte) : List (Nat × List Byte) :=
  if bs.isEmpty then [] else
  (List.range ((off + bs.length - 1) / 64 - off / 64 + 1)).map fun k =>
    let a := max off (64 * (off / 64 + k))
    (a, (bs.drop (a - off)).take (64 * (off / 64 + k + 1) - a))

/-- Store whole 64-bit words of one line of reach `n` at a folded offset; they have good ECC after it (R250). -/
def reachLine (n off : Nat) (bs : List Byte) (s : State) : State :=
  let a := reachAddr n off
  reachPut n off bs { s with ecc := s.ecc.filter fun (w, _) => !decide (a ≤ w ∧ w < a + bs.length) }

/-- The Lockhouse or the Lockkeeper stores whole 64-bit words of reach `n` at an offset of the reach, each line through its circular
windows (R256). -/
def reachWords (n off : Nat) (bs : List Byte) (s : State) : State :=
  each (lineRuns off bs) (fun x s => reachLine n (foldCW s n x.1) x.2 s) s

/-- An access to the memory of a parked reach wakes it (R262) (log 119). -/
def wakeTouch (n : Nat) (s : State) : State :=
  if getF s (F.RCH_PWR_PSTATE n) = 2 then setF (F.RCH_PWR_PSTATE n) 3 s else s

/-- The Lockhouse stores in the memory of a role: in the reach that holds it, and, while its handover window is open, in the reach that is
to hold it as well (R194) (log 118). -/
def roleWords (r off : Nat) (bs : List Byte) (s : State) : State :=
  let n := reachOf s r
  if 5 ≤ n then s else
  let t := reachWords n off bs (wakeTouch n s)
  match s.rot.window with
  | some (a, b) => if a = n ∧ !s.rot.emergency then reachWords b off bs t else t
  | none => t

/-- Whether the state of reach `n` keeps an initiator from its memory: DRY, FILLING and FAILED reaches admit the Lockhouse alone (R23,
R199). -/
def barred (s : State) (n id : Nat) : Bool := id != 49 && (let st := reachState s n; st == 2 || st == 3 || st == 4)

/-- Whether the Lockkeeper has to wait for the memory of a role: its reach has failed and the emergency window is open (R201), or it is
parked or waking (R262) (log 119). -/
def roleAway (s : State) (r : Nat) : Bool :=
  (s.rot.emergency && s.rot.window.isSome && s.rot.winRole == r) || (let n := reachOf s r; decide (n < 5) && decide (2 ≤ getF s (F.RCH_PWR_PSTATE n)))

/-- The Lockkeeper needs the memory of a role: a parked reach wakes (R262) (log 119). -/
def wakeRole (r : Nat) (s : State) : State := if reachOf s r < 5 then wakeTouch (reachOf s r) s else s

/-- Read `size` bytes of reach `n` at a folded offset, with the gate and ECC of R250 and R253. -/
def reachRead (n off size : Nat) (who : Who) (s : State) : State × Except BusErr Nat :=
  let s := wakeTouch n s
  if barred s n who.id then (s, .error .owner) else
  if off < 0xC0000 ∧ !gateAdmits s n (off / 0x10000) who.id then (s, .error .owner) else
  match eccOf s (reachAddr n off) size with
  | 0 => (s, .ok (memNat s (reachAddr n off) size))
  | 1 => (eccClear (reachAddr n off / 8 * 8) (eccNote n off false false who.id s), .ok (memNat s (reachAddr n off) size))
  | _ => (eccNote n off true false who.id s, .error .ecc)

/-- The range of semaphore `k` (R457): first byte and bytes, as an absolute local address. -/
def semRange (s : State) (k : Nat) : Nat × Nat :=
  let base := (rd s (A.BRG_SEM_BASE k)).toNat
  let lo := base / 64 * 64
  let n := 64 * (bitsOf (rd s (A.BRG_SEM_SIZE k)).toNat 0 14 + 1)
  if bitAt base 3 then (reachAddr (reachOf s (base % 4)) (lo % 0x100000), n) else (lo, n)

/-- The owner an initiator is to a semaphore: its own ID, or that of a remote originator (R447, R456) (log 15). -/
def Who.owner (w : Who) : Nat × Nat := match w.remote with | some (fid, orig) => (orig, fid) | none => (w.id, 0)

/-- Whether the range of a held semaphore with its guard on keeps an initiator from writing (R457). -/
def semGuards (s : State) (a size : Nat) (who : Who) : Bool :=
  (List.range 32).any fun k =>
    match s.brg.sems.toList.getD k none with
    | none => false
    | some o =>
      let (lo, n) := semRange s k
      bitAt (rd s (A.BRG_SEM_SIZE k)).toNat 31 && decide (lo < a + size ∧ a < lo + n) && (o.id, o.fid) != who.owner

/-- Write `size` bytes of reach `n` at a folded offset: gate, firmware area (R202), partial writes into a word with a
double-bit error (R250). -/
def reachWrite (n off size data : Nat) (who : Who) (s : State) : State × Except BusErr Unit :=
  let s := wakeTouch n s
  if barred s n who.id then (s, .error .owner) else
  if 0xC0000 ≤ off ∧ who.id ≠ 49 then (s, .error .owner) else
  if off < 0xC0000 ∧ !gateAdmits s n (off / 0x10000) who.id then (s, .error .owner) else
  if semGuards s (reachAddr n off) size who then (s, .error .locked) else
  if size < 8 ∧ eccOf s (reachAddr n off) size = 2 then (eccNote n off true false who.id s, .error .ecc) else
  let s := if size < 8 ∧ eccOf s (reachAddr n off) size = 1 then eccNote n off false false who.id s else s
  let s := eccClear (reachAddr n off / 8 * 8) s
  (reachPut n off (leBytes size data) s, .ok ())

/-! ### Descriptors of tasks (R160, R181) -/

/-- A register word of task `t`'s descriptor, in the bank the task uses (R181). -/
def taskWord (s : State) (t : Nat) (pa : Nat) : Word :=
  if (s.scan.tasks[t % 32]'(Nat.mod_lt _ (by decide))).onEdit then
    match s.scan.edit with
    | some e => (SMap.get? e pa).getD (rd s pa)
    | none => rd s pa
  else rd s pa

/-- A descriptor field of task `t` in the bank the task uses (R181). -/
def taskF (s : State) (t : Nat) (f : FRef) : Nat := bitsOf (taskWord s t f.addr).toNat f.lo f.w

/-- One range of the range table (R160): source area, image offset, own-reach address, length. -/
structure Range where
  src : Nat
  off : Nat
  mem : Nat
  len : Nat
deriving DecidableEq, Repr

/-- The bytes of the area a source code names (R160). -/
def areaSize (src : Nat) : Nat := if src = 2 then 0x40000 else 0x20000

/-- Range table entry `e`, in the bank task `t` uses (R160). -/
def rangeEntry (s : State) (t e : Nat) : Range :=
  let w0 := (taskWord s t (0x60032000 + 8 * e)).toNat
  let w1 := (taskWord s t (0x60032004 + 8 * e)).toNat
  let off := bitsOf w0 0 18
  { src := bitsOf w0 30 2, off := off, mem := 64 * bitsOf w1 0 14 + off % 64, len := bitsOf w1 14 17 + 1 }

/-- The snapshot ranges of a task, in range-table order (log 50). -/
def snapRanges (s : State) (t : Nat) : List Range :=
  (List.range (taskF s t (F.SCN_TASK_SNAP_COUNT t))).map fun k => rangeEntry s t (taskF s t (F.SCN_TASK_SNAP_FIRST t) + k)

/-- Whether an input byte belongs to a mirrored task of a HOT standby (R30, R211). -/
def mirroredByte (s : State) (off : Nat) : Bool :=
  getF s F.LKH_SBYSTAT_STATE == 4 && (List.range 32).any fun t =>
    bitAt (rd s A.LKH_SBYMASK).toNat t && isSet s (F.SCN_TASK_CTL_EN t)
      && (snapRanges s t).any fun r => r.src == 0 && decide (r.off ≤ off ∧ off < r.off + r.len)

/-! ### The image store (R30, R49, R146, R148) -/

/-- The initiator assigned to the byte at image store offset `off` (input bytes and diagnostic records) (log 102). -/
def sourceOf (s : State) (off : Nat) : Option Nat :=
  if off < 0x40 then some 53 else
  (s.scan.sources.find? fun (lo, hi, _) => decide (lo ≤ off ∧ off < hi)).map (·.2.2)

/-- Whether an initiator may write the byte at image store offset `off` (R30) (log 102). Commits and force commands of the Lockhouse
are no accesses of this kind: the output image and the force areas admit nothing else. -/
def imageAdmits (s : State) (off id : Nat) : Bool :=
  if off < 0x20000 then sourceOf s off == some id || (id == 49 && mirroredByte s off)
  else if off < 0xC0000 then false
  else if off < 0xC8000 then id == 49 || (List.range 4).any fun j => sourceOf s (4 * (off - 0xC0000) + j) == some id
  else if 0xD0000 ≤ off ∧ off < 0xF0000 then id == 49 || sourceOf s off == some id
  else false

/-- A quality byte written by a source: only the codes of its own input bytes change (R146). -/
def mergeQuality (s : State) (off id : Nat) (old new : Nat) : Nat :=
  if id = 49 then new else
  (List.range 4).foldl (fun acc j =>
    if sourceOf s (4 * (off - 0xC0000) + j) = some id then putBits acc (2 * j) 2 (bitsOf new (2 * j) 2) else acc) old

/-- Write bytes of the image store as initiator `who`: every byte must take it, or nothing is written. -/
def imageWrite (off size data : Nat) (who : Who) (s : State) : State × Except BusErr Unit :=
  if semGuards s (0x30000000 + off) size who then (s, .error .locked)
  else if (List.range size).all fun k => imageAdmits s (off + k) who.id then
    let bs := (List.range size).map fun k =>
      let b := data / 256 ^ k % 256
      if 0xC0000 ≤ off + k ∧ off + k < 0xC8000 then
        b8 (mergeQuality s (off + k) who.id (byteAt s (0x30000000 + off + k)).toNat b)
      else b8 b
    (putBytes (0x30000000 + off) bs (eccClear ((0x30000000 + off) / 8 * 8) s), .ok ())
  else (s, .error .owner)

/-- The quality code of input image byte `k` (R146). -/
def qualityOf (s : State) (k : Nat) : Nat := bitsOf (byteAt s (0x300C0000 + k / 4)).toNat (2 * (k % 4)) 2

/-- Set the quality code of input image byte `k` (R146). -/
def setQuality (code k : Nat) (s : State) : State :=
  setByte (0x300C0000 + k / 4) (b8 (putBits (byteAt s (0x300C0000 + k / 4)).toNat (2 * (k % 4)) 2 code)) s

/-! ### Targets of an access (R46 to R50) -/

/-- What a local address decodes to. -/
inductive Target where
  | reach (n off : Nat)
  | basin (off : Nat)
  | image (off : Nat)
  | mram (off : Nat)
  | reg (a : Nat)
  | fabric (w off : Nat)
  | nothing
deriving DecidableEq, Repr

/-- The own reach of an initiator, for the alias (R47). -/
def aliasReach (who : Nat) : Option Nat :=
  if who < 40 then some (who / 8) else if who < 45 then some (who - 40) else none

/-- Decode a local address for an initiator (R46 to R51); alias and windows folded. -/
def target (s : State) (who a : Nat) : Target :=
  if a < 0x100000 then
    match aliasReach who with
    | some n => .reach n (foldFW s n (foldCW s n a))
    | none => .nothing
  else if 0x10000000 ≤ a ∧ a < 0x15000000 then
    let n := (a - 0x10000000) / 0x1000000
    if a % 0x1000000 < 0x100000 then .reach n (foldCW s n (a % 0x1000000)) else .nothing
  else if 0x20000000 ≤ a ∧ a < 0x20800000 then .basin (a - 0x20000000)
  else if 0x30000000 ≤ a ∧ a < 0x30100000 then .image (a - 0x30000000)
  else if 0x40000000 ≤ a ∧ a < 0x42000000 then .mram (a - 0x40000000)
  else if 0x60000000 ≤ a ∧ a < 0x70000000 then (if (blockAt a).isSome then .reg a else .nothing)
  else if 0x80000000 ≤ a ∧ a < 0xC0000000 then .fabric ((a - 0x80000000) / 0x4000000) ((a - 0x80000000) % 0x4000000)
  else .nothing

/-- Where the bus error log says an access was: through a fabric window the fabric ID and the address at the target, else 0 and the
address (R75). -/
def errPlace (s : State) (who a : Nat) : Nat × Nat :=
  match target s who a with
  | .fabric w off => (getF s (F.BRG_FWIN_FID w), getF s (F.BRG_FWIN_BASE w) * 0x4000000 + off)
  | _ => (0, a)

/-- A bus error of an access at a local address is logged (R75). -/
def logAccess (who : Who) (a : Nat) (isWr : Bool) (n : Nat) (e : BusErr) (s : State) : State :=
  let p := errPlace s who.id a
  logBusErr who p.2 isWr n e p.1 s

/-- Whether an MRAM offset lies in a part only privileged initiators may read (R50). -/
def mramPriv (off : Nat) : Bool := decide (off < 0x1000000 ∨ (0x1400000 ≤ off ∧ off < 0x1450000))

/-- Read a memory target that is no register and no fabric window. -/
def memTargetRead (t : Target) (size : Nat) (who : Who) (s : State) : State × Except BusErr Nat :=
  match t with
  | .reach n off => reachRead n off size who s
  | .basin off => if isPriv s who then (s, .ok (memNat s (0x20000000 + off) size)) else (privAttempt who s, .ok 0)
  | .image off => if eccOf s (0x30000000 + off) size = 2 then (s, .error .ecc) else (s, .ok (memNat s (0x30000000 + off) size))
  | .mram off =>
    if mramPriv off ∧ !isPriv s who then (privAttempt who s, .ok 0)
    else if eccOf s (0x40000000 + off) size = 2 then (s, .error .ecc)
    else (s, .ok (memNat s (0x40000000 + off) size))
  | _ => (s, .error .decode)

/-- Write a memory target that is no register and no fabric window. -/
def memTargetWrite (t : Target) (size data : Nat) (who : Who) (s : State) : State × Except BusErr Unit :=
  match t with
  | .reach n off => reachWrite n off size data who s
  | .basin off =>
    if !isPriv s who then (privAttempt who s, .ok ()) else
    if semGuards s (0x20000000 + off) size who then (s, .error .locked) else
    (memPut (0x20000000 + off) size data s, .ok ())
  | .image off => imageWrite off size data who s
  | _ => (s, .error .decode)

/-- An engine of the device writes bytes at an image store offset (R30); a refused write is logged. -/
def engineWrite (id off : Nat) (bs : List Byte) (s : State) : State :=
  match imageWrite off bs.length (leNat bs) ⟨id, false, none⟩ s with
  | (s, .ok _) => s
  | (s, .error e) => logBusErr ⟨id, false, none⟩ (0x30000000 + off) true bs.length e 0 s

/-- An engine sets the quality of input image bytes assigned to it (R146). -/
def engineQuality (id code off n : Nat) (s : State) : State :=
  each (((List.range n).map (off + ·)).filter fun k => sourceOf s k == some id) (setQuality code) s

end Sys2Proof.Machine
end

