-- ==== Sys2Proof/Machine/RegRules.lean ====
section
/-! DEFINITION. The rules of single registers that a plain register table row does not carry: legal values that depend on
other fields (R71), bits taken as 0, locks (R73) and privilege that depends on a setting. One arm per chapter. -/

namespace Sys2Proof.Machine

/-- Whether a plain address is a word of the SCN descriptor bank: task descriptors, safe table, range table (R179). -/
def isDescriptor (pa : Nat) : Bool :=
  decide (0x60030400 ≤ pa ∧ pa < 0x60030C00 ∧ pa % 0x40 < 0x24) || decide (0x60031800 ≤ pa ∧ pa < 0x60034000)

/-- The descriptor word task hardware or software sees: the edit bank while an edit is open (R180) (log 152). -/
def rdBank (s : State) (pa : Nat) : Word :=
  match s.scan.edit with
  | some e => if isDescriptor pa then (SMap.get? e pa).getD (rd s pa) else rd s pa
  | none => rd s pa

/-- A field of the bank software sees. -/
def getBank (s : State) (f : FRef) : Nat := bitsOf (rdBank s f.addr).toNat f.lo f.w

/-- The legal period nearest to `v`, in 0.5 µs units, of task `n` (R142). -/
def legalPeriod (n v : Nat) : Nat :=
  if n < 16 then
    let v := min (max v 125) 20000000
    if v = 125 then 125 else v / 2 * 2
  else if v < 63 then 0 else min (max v 125) 20000000

/-- The largest legal PHASE for a period (R142). -/
def maxPhase (period : Nat) : Nat := (period - 1) / 2

/-- The legal COMMITDL nearest to `v` for task `n` with a period. -/
def legalDL (n period v : Nat) : Nat :=
  min (max v 1) (if n < 16 then period / 2 else 10000000)

/-- Legal values of SCN registers that depend on other fields (R142, R145, R160, R170, R179, R185). -/
def clampScn (s : State) (pa v : Nat) : Nat :=
  if 0x60030400 ≤ pa ∧ pa < 0x60030C00 then
    let n := (pa - 0x60030400) / 0x40
    let period := getBank s (F.SCN_TASK_PERIOD_PERIOD n)
    match pa % 0x40 with
    | 0x00 =>
      let v := if bitAt v 29 ∧ bitsOf v 26 2 = bitsOf v 24 2 then putBits v 24 2 (bitsOf v 26 2 + 1) else v
      if s.scan.edit.isSome then
        let a := (rd s pa).toNat
        [(31, 1), (29, 1), (26, 2), (24, 2), (19, 5), (0, 12)].foldl (fun v (lo, w) => putBits v lo w (bitsOf a lo w)) v
      else v
    | 0x04 => if s.scan.edit.isSome then (rd s pa).toNat else legalPeriod n v
    | 0x08 => if s.scan.edit.isSome then (rd s pa).toNat else min v (maxPhase period)
    | 0x0C => legalDL n period v
    | 0x14 => putBits v 16 11 (min (bitsOf v 16 11) (1024 - bitsOf v 0 10))
    | 0x18 => putBits v 16 11 (min (bitsOf v 16 11) (1024 - bitsOf v 0 10))
    | 0x1C => putBits v 16 15 (max 1 (min (bitsOf v 16 15) (16384 - bitsOf v 0 14)))
    | _ => v
  else if 0x60032000 ≤ pa ∧ pa < 0x60034000 then
    if pa % 8 = 0 then
      let v := if bitsOf v 30 2 = 3 then putBits v 30 2 0 else v
      if bitsOf v 30 2 < 2 then putBits v 0 18 (min (bitsOf v 0 18) 0x1FFFF) else v
    else
      let w0 := (rdBank s (pa - 4)).toNat
      let size := if bitsOf w0 30 2 = 2 then 0x40000 else 0x20000
      putBits v 14 17 (min (bitsOf v 14 17) (size - 1 - bitsOf w0 0 18))
  else if 0x60031800 ≤ pa ∧ pa < 0x60032000 ∧ pa % 8 = 4 then
    min v (0x1FFFF - bitsOf (rdBank s (pa - 4)).toNat 0 17)
  else if pa = A.SCN_FORCECMD ∧ bitsOf v 29 2 = 3 then putBits v 0 17 (min (max (bitsOf v 0 17) 1) 256)
  else if (pa = A.SCN_SEGBASE ∨ pa = A.SCN_EPOCH ∨ pa = A.SCN_EPOCH + 4) ∧ s.scan.edit.isSome then (rd s pa).toNat
  else v

/-- Legal values of RCH registers (RCH_GATEb.OWNER, and EN of a circular window under R257). -/
def clampRch (s : State) (pa v : Nat) : Nat :=
  let n := instAt pa
  let off := pa % 0x10000
  if off < 0x30 then
    match bitsOf v 8 2 with
    | 1 => if bitsOf v 0 6 > 7 then putBits v 0 6 7 else v
    | 2 => if bitsOf v 0 6 > 55 then putBits v 0 6 55 else v
    | _ => v
  else if 0x100 ≤ off ∧ off < 0x120 ∧ bitAt v 31 then
    let w := (off - 0x100) / 4
    let size := 2 ^ (min (bitsOf v 20 4) 10 + 6)
    let base := bitsOf v 6 14 * 64 / size * size
    let clash := (List.range 8).any fun k =>
      let ks := 2 ^ (getF s (F.RCH_CW_SIZE n k) + 6)
      let kb := getF s (F.RCH_CW_BASE n k) * 64 / ks * ks
      k != w && isSet s (F.RCH_CW_EN n k) && decide (base < kb + 2 * ks ∧ kb < base + 2 * size)
    if base + 2 * size > 0xC0000 ∨ clash then putBits v 31 1 0 else v
  else v

/-- Legal values of MBX_CFGm: an area that overlaps or runs past the storage is not enabled, and the layout of an
enabled mailbox does not change (R263). -/
def clampMbx (s : State) (pa v : Nat) : Nat :=
  match copyAt 0x60040100 0x10 64 pa with
  | none => v
  | some m =>
    let old := (rd s pa).toNat
    let v := if bitAt old 31 then
        putBits (putBits (putBits (putBits v 30 1 (bitsOf old 30 1)) 25 3 (bitsOf old 25 3)) 12 10 (bitsOf old 12 10)) 0 10 (bitsOf old 0 10)
      else v
    if !bitAt v 31 then v else
    let lo := bitsOf v 0 10
    let hi := lo + bitsOf v 12 10 + 1
    let clash := (List.range 64).any fun k =>
      k != m && isSet s (F.MBX_CFG_EN k) &&
        decide (lo < getF s (F.MBX_CFG_BASE k) + getF s (F.MBX_CFG_SIZEM1 k) + 1 ∧ getF s (F.MBX_CFG_BASE k) < hi)
    if hi > 1024 ∨ clash then putBits v 31 1 0 else v

/-- Legal values of the Lockhouse timing registers that bound each other. -/
def clampLkh (s : State) (pa v : Nat) : Nat :=
  if pa = A.LKH_SBYTIME then
    let per := bitsOf v 24 8
    let tmo := min (max (max (bitsOf v 16 8) 10) (2 * per)) 30
    let dly := min (max (max (bitsOf v 8 8) 10) (tmo + 5)) 45
    putBits (putBits v 16 8 tmo) 8 8 dly
  else v

/-- Legal values of FIO registers: DTW against DTPER (R299), reflex rules and edge enables of pulsed groups
(R294, R303), bytes of a lower channel (R300). -/
def clampFio (s : State) (pa v : Nat) : Nat :=
  if pa = A.FIO_DTCTL then putBits v 16 8 (max 10 (min (bitsOf v 16 8) (bitsOf v 0 11 / 16)))
  else if pa = A.FIO_EDGEEN then
    (List.range 2).foldl (fun v g => if isSet s (F.FIO_DIGRP_PULSED g) then putBits (putBits v (8 * g) 8 0) (16 + 8 * g) 8 0 else v) v
  else if A.FIO_RX 0 ≤ pa ∧ pa < A.FIO_RX 16 then
    if isSet s (F.FIO_DIGRP_PULSED (bitsOf v 4 4 / 8)) ∨ isSet s (F.FIO_DIGRP_PULSED (bitsOf v 8 4 / 8)) then putBits v 31 1 0 else v
  else match copyAt (A.FIO_CH_CTL 0) 8 4 pa with
    | some c => (List.range c).foldl (fun v k =>
        putBits v 0 16 (bitsOf v 0 16 - (bitsOf v 0 16 &&& getF s (F.FIO_CH_CTL_BYTES k)))) v
    | none => v

/-- Lines of a ring of a SIZE code: 2^(SIZE + 10) bytes (R330). -/
def ringLines (size : Nat) : Nat := 2 ^ (min size 6 + 4)

/-- A read index a write may set: one of the ring from the current one to WP in ring order, else WP (R331). -/
def legalRp (size old wp v : Nat) : Nat :=
  let n := ringLines size
  if v < n ∧ (v + n - old % n) % n ≤ (wp % n + n - old % n) % n then v else wp % n

/-- Legal values of BAS registers (R315, R322, R308, R331). -/
def clampBas (s : State) (pa v : Nat) : Nat :=
  if pa = A.BAS_PLANE then
    if bitsOf v 0 4 ≠ 0 then v else
    match (List.range 4).find? fun k => isSet s ⟨A.BAS_PLANE, k, 1⟩ && getF s ⟨A.BAS_PLANE, 8 + 2 * k, 2⟩ != 3 with
    | some k => putBits v 0 4 (2 ^ k)
    | none => putBits v 0 4 (getF s F.BAS_PLANE_EN)
  else if pa = A.BAS_MACDATA then putBits v 16 6 (min (bitsOf v 16 6) 35)
  else if A.BAS_ETR 0 ≤ pa ∧ pa < A.BAS_ETR 8 then putBits v 24 6 (min (bitsOf v 24 6) 35)
  else if pa = A.BAS_MIRRP then legalRp (getF s F.BAS_MIRCTL_SIZE) (bitsOf (rd s pa).toNat 0 10) (getF s F.BAS_MIRWP_INDEX) v
  else match copyAt (A.BAS_CLS_BUF 0) 0x10 8 pa with
  | some c =>
    let others := ((List.range 8).filter (· != c)).foldl (fun n k => n + 16 * getF s (F.BAS_CLS_BUF_RESV k)) 0
    putBits v 16 13 (min (bitsOf v 16 13) ((131072 - others) / 16))
  | none =>
  match copyAt (A.BAS_RX_RP 0) 0x10 32 pa with
  | some k => legalRp (getF s (F.BAS_RX_RING_SIZE k)) (getF s (F.BAS_RX_RP_INDEX k)) (getF s (F.BAS_RX_WP_INDEX k)) v
  | none =>
  match copyAt (A.BAS_TX_WP 0) 0x10 4 pa with
  | some k => v % ringLines (getF s (F.BAS_TX_RING_SIZE k))
  | none => v

/-- Bits of BAS registers that read 0: bits 32 and p of a forwarding mask, the set of code 32 (log 39). -/
def zeroBas (pa v : Nat) : Nat :=
  if 0x60060800 ≤ pa ∧ pa < 0x60060820 then 0
  else match copyAt (A.BAS_PORT_FWD 0) 0x20 36 pa with
  | some p => if p < 32 then putBits v p 1 0 else v
  | none => match copyAt (A.BAS_PORT_FWD 0 + 4) 0x20 36 pa with
    | some p => let v := putBits v 0 1 0; if 32 ≤ p then putBits v (p - 32) 1 0 else v
    | none => v

/-- ETH fields of the other kind of port read 0 and ignore writes (R338). -/
def zeroEth (pa v : Nat) : Nat :=
  let ga := instAt pa < 8
  match pa % 0x10000 with
  | 0x00 => if ga then putBits v 9 1 0 else putBits (putBits v 18 3 0) 10 2 0
  | 0x10 => if ga then 0 else v
  | 0x14 => if ga then 0 else v
  | _ => v

/-- Legal values of CAN registers: SJW against TSEG2 (R384), image range of a slot (R392), RP of the ring (R390). -/
def clampCan (s : State) (pa v : Nat) : Nat :=
  let o := pa % 0x10000
  let i := instAt pa
  if o = 0x10 then putBits v 0 7 (min (bitsOf v 0 7) (bitsOf v 8 7))
  else if o = 0x14 then putBits v 0 4 (min (bitsOf v 0 4) (bitsOf v 8 4))
  else if o = 0x38 then
    let n := 16 * 2 ^ (min (getF s (F.CAN_RXRING_SIZE i)) 6 + 3)
    let old := getF s (F.CAN_RXRP_INDEX i) % n
    let wp := getF s (F.CAN_RXWP_INDEX i) % n
    let x := bitsOf v 3 13 % n
    8 * (if (x + n - old) % n ≤ (wp + n - old) % n then x else wp)
  else if 0x100 ≤ o ∧ o < 0x140 ∧ o % 8 = 4 then
    putBits v 0 17 (min (max (bitsOf v 0 17) 0x40) (0x20000 - (bitsOf v 18 6 + 1)))
  else v

/-- Legal values of BTL registers: image offsets, batches within one line (R415, R418). -/
def clampBtl (pa v : Nat) : Nat :=
  let o := pa % 0x10000
  if 0x400 ≤ o ∧ o < 0x600 ∧ o % 0x40 = 0x20 then
    let v := putBits v 0 17 (max (bitsOf v 0 17) 0x40)
    putBits v 28 2 (min (bitsOf v 28 2) ((64 - bitsOf v 0 6) / 4 - 1))
  else if 0x400 ≤ o ∧ o < 0x600 ∧ o % 0x40 = 0x24 then putBits v 0 17 (max (bitsOf v 0 17) 0x10)
  else v

/-- Bits of BTL registers taken as 0: the low bits of INOFF, pin settings that the pin does not have (R418). -/
def zeroBtl (pa v : Nat) : Nat :=
  let o := pa % 0x10000
  if 0x400 ≤ o ∧ o < 0x600 ∧ o % 0x40 = 0x20 then putBits v 0 2 0
  else if 0x800 ≤ o ∧ o < 0x900 then
    let p := (o - 0x800) / 4
    let v := if p < 12 then v else putBits v 7 1 0
    if p < 24 then putBits v 2 3 0 else v
  else v

/-- Legal values of WFB and BRG registers: routes of no code (R440), PF of windows on registers (R450), vectors. -/
def clampFab (s : State) (pa v : Nat) : Nat :=
  if 0x600E2000 ≤ pa ∧ pa < 0x600E2800 then
    (List.range 8).foldl (fun v j =>
      let e := bitsOf v (4 * j) 4
      if 8 ≤ e ∧ e ≤ 12 then v else putBits v (4 * j) 4 0) v
  else if A.BRG_HWIN 0 ≤ pa ∧ pa < A.BRG_HWIN 8 then
    let base := bitsOf v 0 9 * 0x800000
    let w := (base - 0x80000000) / 0x4000000
    let reg := decide (0x60000000 ≤ base ∧ base < 0x70000000) ||
      (decide (0x80000000 ≤ base ∧ base < 0xC0000000) && decide (getF s (F.BRG_FWIN_BASE w) / 4 = 6))
    if reg then putBits v 30 1 0 else v
  else if A.BRG_FWIN 0 ≤ pa ∧ pa < A.BRG_FWIN 16 then (if bitsOf v 0 6 / 4 = 6 then putBits v 30 1 0 else v)
  else if 0x600F0600 ≤ pa ∧ pa < 0x600F0700 ∧ pa % 16 = 4 then
    (if bitAt v 28 then putBits v 22 6 (min (bitsOf v 22 6) 31) else v)
  else v

/-- The PMA test modes of the standard of a port's current speed: 10BASE-T1S, 100BASE-T1, 1000BASE-T1 (R337) (log 74). -/
def testModes (ts : Bool) (speed : Nat) : List Nat := if ts then [1, 2, 3, 4] else if speed = 0 then [1, 2, 4, 5] else [1, 2, 4, 5, 6, 7]

/-- Legal values of ETH registers: a test mode the standard does not define becomes 0 (ETH_CTL) (log 74). -/
def clampEth (pa v : Nat) : Nat :=
  match copyAt (A.ETH_CTL 0) 0x10000 24 pa with
  | some p => if bitsOf v 24 4 ≠ 0 ∧ !(testModes (decide (8 ≤ p)) (bitsOf v 10 2)).contains (bitsOf v 24 4) then putBits v 24 4 0 else v
  | none => v

/-- The word that a write through alias `al` asks for, before clamping (R58). -/
def asked (s : State) (pa al v : Nat) : Nat :=
  let old := (rd s pa).toNat
  match al with
  | 0 => v
  | 1 => old ||| v
  | 2 => old &&& (0xFFFFFFFF ^^^ v)
  | _ => old ^^^ v

/-- The registers with a LOCK bit in [31], and the bits of the fields it locks, which are all they have: SYS_PRIVCTL, SCN_FORCECTL, FIO_CTL
(R307), CFG_CTL, LKH_FCFG (log 42). -/
def lockMask (pa : Nat) : Nat :=
  if pa = A.SYS_PRIVCTL then 3
  else if pa = A.SCN_FORCECTL then 1
  else if pa = A.FIO_CTL then 0x1F
  else if pa = A.CFG_CTL then 1
  else if pa = A.LKH_FCFG then 0x0FF0FFFF
  else 0


/-- A LOCK bit that is 1 stays 1 until device reset. -/
def keepLock (pa old v : Nat) : Nat := if lockMask pa ≠ 0 ∧ bitAt old 31 then putBits v 31 1 1 else v

/-- Whether a bus write to a WFB or BRG register ends with LOCKED (R440, R462). -/
def lockedFab (s : State) (pa al v : Nat) : Bool :=
  let old := (rd s pa).toNat
  let new := asked s pa al v
  if pa = A.WFB_CTL then
    bitAt old 31 && (bitAt new 30 != bitAt old 30 || bitsOf new 20 4 != bitsOf old 20 4 || bitsOf new 0 12 != bitsOf old 0 12)
  else if 0x600E2000 ≤ pa ∧ pa < 0x600E2800 then isSet s F.WFB_CTL_EN && !isSet s F.WFB_CTL_MODE
  else if A.BRG_HWIN 0 ≤ pa ∧ pa < A.BRG_FWIN 16 then bitAt old 31 && bitAt new 31
  else if 0x600F0400 ≤ pa ∧ pa < 0x600F0600 ∧ pa % 16 < 8 then
    bitAt (rd s (pa / 16 * 16 + 4)).toNat 31 && (pa % 16 == 0 || bitAt new 31)
  else if 0x600F0600 ≤ pa ∧ pa < 0x600F0700 then
    bitAt (rd s (pa / 16 * 16 + 4)).toNat 31 && (pa % 16 != 4 || bitAt new 31)
  else false

/-- Legal values of TOW registers: phase, substitute table, reply deadline, image ranges (R362, R382). -/
def clampTow (s : State) (pa v : Nat) : Nat :=
  if pa = A.TOW_PHASE then min v (getF s F.TOW_PERIOD_PERIOD - 1)
  else if pa = A.TOW_SUBBASE then min (max v 0x41450000) 0x41FFC000
  else if 0x60081000 ≤ pa ∧ pa < 0x60083000 then
    let base := pa / 32 * 32
    match pa % 32 with
    | 4 => putBits v 0 16 (min (bitsOf v 0 16) (getF s F.TOW_PERIOD_PERIOD))
    | 12 => min (max v 0x40) (0x20000 - bitsOf (rd s (base + 8)).toNat 24 7)
    | 16 => min (max v 0x10) (0x20000 - bitsOf (rd s (base + 8)).toNat 16 7)
    | _ => v
  else v

/-- The capture sources of R282; any other code becomes 0. -/
def clampTmb (pa v : Nat) : Nat :=
  if 0x600C0100 ≤ pa ∧ pa < 0x600C0500 ∧ pa % 0x20 = 0 then
    let c := bitsOf v 16 8
    if c < 3 ∨ (8 ≤ c ∧ c < 32) ∨ (40 ≤ c ∧ c < 72) then v else putBits v 16 8 0
  else v

/-- The block codes that CFG_BLKRST takes (R480). -/
def blockCodes : List Nat := [0x08, 0x0A, 0x0B, 0x0D, 0x0E] ++ (List.range 24).map (0x20 + ·) ++ (List.range 8).map (0x40 + ·)

/-- The legal value of a register word whose fields are each legal by their own range (R71) (log 74). -/
def clampWord (s : State) (pa v : Nat) : Nat :=
  match blockAt pa with
  | some .scn => clampScn s pa v
  | some .rch => clampRch s pa v
  | some .mbx => clampMbx s pa v
  | some .lkh => clampLkh s pa v
  | some .fio => clampFio s pa v
  | some .bas => clampBas s pa v
  | some .eth => clampEth pa v
  | some .tow => clampTow s pa v
  | some .can => clampCan s pa v
  | some .btl => clampBtl pa v
  | some .wfb => clampFab s pa v
  | some .brg => clampFab s pa v
  | some .tmb => clampTmb pa v
  | some .cfg => if pa = A.CFG_BLKRST ∧ !blockCodes.contains (bitsOf v 0 8) then putBits v 0 8 0 else v
  | _ => v

/-- Bits that read 0 whatever is written: no clamp (R71). Bits that a register description takes as 0 stay as written and count as
0 where the register is used (log 39). -/
def zeroBits (pa v : Nat) : Nat :=
  match blockAt pa with
  | some .bas => zeroBas pa v
  | some .eth => zeroEth pa v
  | some .btl => zeroBtl pa v
  | _ => v

/-- Whether a register is one of a compare unit, where LOCKED needs no writable field (R277). -/
def unitWord (pa : Nat) : Bool := decide (0x600C0100 ≤ pa ∧ pa < 0x600C0500)

/-- Whether a bus write to a TMB register ends with LOCKED (R274, R276, R277). -/
def lockedTmb (s : State) (pa al v : Nat) : Bool :=
  if unitWord pa then getF s (F.TMB_UNIT_CTL_OWNER ((pa - 0x600C0100) / 0x20)) != 0
  else if pa = A.TMB_INC ∨ pa = A.TMB_INC + 4 ∨ pa = A.TMB_ADJ then getF s F.TMB_CTL_SRC == 1
  else if pa = A.TMB_ADJCMD then
    getF s F.TMB_CTL_SRC == 1 ||
      (decide (al ≤ 1) && bitAt v 0 && !(getF s F.SCN_STATUS_CSTATE == 0 || getF s F.SCN_STATUS_CSTATE == 3))
  else false

/-- Whether a bus write to an FIO register other than FIO_CTL ends with LOCKED (R307). -/
def lockedFio (s : State) (pa : Nat) : Bool :=
  isSet s F.FIO_CTL_LOCK && (decide (A.FIO_CH_CTL 0 ≤ pa ∧ pa < A.FIO_CH_CTL 4) || pa == A.FIO_DTEN
    || pa == A.FIO_SAFEVAL || pa == A.FIO_DTCTL || decide (A.FIO_RX 0 ≤ pa ∧ pa < A.FIO_RX 16) || pa == A.FIO_GRP)

/-- Whether a bus write to a TOW register ends with LOCKED (R382). -/
def lockedTow (s : State) (pa al v : Nat) : Bool :=
  let new := asked s pa al v
  isSet s F.TOW_CTL_EN &&
    (if pa = A.TOW_CTL then bitsOf new 20 5 != getF s F.TOW_CTL_TMBUNIT || bitsOf new 0 16 != getF s F.TOW_CTL_ETYPE
     else pa == A.TOW_PERIOD || pa == A.TOW_PHASE || pa == A.TOW_NETID || pa == A.TOW_HOLD || pa == A.TOW_SUBBASE
      || pa == A.TOW_DIAG || decide (0x60080100 ≤ pa ∧ pa < 0x600801C0) || decide (0x60081000 ≤ pa ∧ pa < 0x60083000))

/-- Whether a write to a register ends with LOCKED (R73): fields under a LOCK bit, LKH_AWD.EN once 1, the SCN descriptor bank (R184),
the Lockkeeper tables (R248), and the locks of the blocks (log 42). -/
def lockedReg (s : State) (pa al v : Nat) : Bool :=
  let cst := getF s F.SCN_STATUS_CSTATE
  let idle := cst == 0 || cst == 3
  if lockMask pa ≠ 0 then bitAt (rd s pa).toNat 31
  else if pa = A.LKH_AWD then bitAt (rd s pa).toNat 31 && !bitAt (asked s pa al v) 31
  else if isDescriptor pa then !idle && s.scan.edit.isNone
  else if pa = A.SCN_EPOCH ∨ pa = A.SCN_EPOCH + 4 ∨ pa = A.SCN_SEGBASE then !idle && s.scan.edit.isNone
  else if pa = A.LKP_ITEMBASE ∨ pa = A.LKP_SEGMASK ∨ (0x60020180 ≤ pa ∧ pa < 0x60020190) then !idle
  else match blockAt pa with
  | some .tmb => lockedTmb s pa al v
  | some .fio => lockedFio s pa
  | some .tow => lockedTow s pa al v
  | some .wfb => lockedFab s pa al v
  | some .brg => lockedFab s pa al v
  | some .btl =>
    let o := pa % 0x10000
    decide (0x400 ≤ o ∧ o < 0x600 ∧ o % 0x40 < 0xC) && bitAt (getF s (F.BTL_CTL_EN (instAt pa))) ((o - 0x400) / 0x40)
  | some .can =>
    let o := pa % 0x10000
    if o = 0x10 ∨ o = 0x14 ∨ o = 0x30 then isSet s (F.CAN_CTL_EN (instAt pa))
    else decide (0x1000 ≤ o ∧ o < 0x1800) && bitAt (getF s (F.CAN_TXPEND_BUF (instAt pa))) ((o - 0x1000) / 0x80)
  | some .bas => pa == A.BAS_HSEED + 4 && !s.basin.mac.isEmpty
  | _ => false

/-- Whether the fields of a register are privileged by a setting (MBX_CFGm.PRIV). -/
def dynPriv (s : State) (pa : Nat) : Bool :=
  if 0x60040100 ≤ pa ∧ pa < 0x60040500 then
    (pa % 0x10 == 8 || pa % 0x10 == 0xC) && isSet s (F.MBX_CFG_PRIV ((pa - 0x60040100) / 0x10))
  else if 0x60040800 ≤ pa ∧ pa < 0x60040A00 then isSet s (F.MBX_CFG_PRIV ((pa - 0x60040800) / 8))
  else false

end Sys2Proof.Machine
end

