-- ==== Sys2Proof/Machine/RegWrite.lean ====
section
/-! DEFINITION. Reading and writing a register word as an initiator: access codes, aliases, privilege, clamping, locks and
high-word shadows (02_registers R10, R11, R56 to R63, R70, R71, R73). What a write starts in its block is done by the
block's own hook (Machine/Bus.lean). -/

namespace Sys2Proof.Machine

/-- What a write did to a register, for the hook of its block: old and new word, CMD bits started, bits written to WO
fields, and the word written. -/
structure WInfo where
  who : Who
  pa : Nat
  old : Nat
  new : Nat
  cmds : Nat
  wo : Nat
  written : Nat
deriving DecidableEq, Repr

/-- The new value of an RW field under a plain write and the three aliases (R58). -/
def aliasOp (al old w : Nat) : Nat :=
  match al with
  | 0 => w
  | 1 => old ||| w
  | 2 => old &&& (0xFFFFFFFF ^^^ w)
  | _ => old ^^^ w

/-- A field value made legal (R71). -/
def Clamp.apply (c : Clamp) (v : Nat) : Nat :=
  match c with
  | .none => v
  | .range lo hi => min (max v lo) hi
  | .codes l => match l.find? fun (a, b, _) => decide (a ≤ v ∧ v ≤ b) with
    | Option.some (_, _, d) => d
    | Option.none => v

/-- Whether a field is privileged in the register at hand. -/
def fieldPriv (dyn : Bool) (f : FieldDesc) : Bool := f.priv || dyn

/-- A register word as an initiator reads it (R10, R70): write-only fields, reserved bits and privileged fields read by
an unprivileged initiator are 0. -/
def maskRead (d : RegDesc) (dyn p : Bool) (v : Nat) : Nat :=
  d.fields.foldl (fun acc f =>
    if f.acc = .wo ∨ (fieldPriv dyn f ∧ !p) then acc else putBits acc f.lo f.w (bitsOf v f.lo f.w)) 0

/-- Whether a read of the register counts as an attempt: every field is privileged (R70). -/
def readCounts (d : RegDesc) (dyn p : Bool) : Bool := !p && !d.fields.isEmpty && d.fields.all (fieldPriv dyn)

/-- The word after the write, before clamping: RW fields only, with privilege (R58, R59, R70). -/
def rawNew (d : RegDesc) (dyn p : Bool) (al old v : Nat) : Nat :=
  d.fields.foldl (fun acc f =>
    if f.acc = .rw ∧ (p ∨ !fieldPriv dyn f) then
      putBits acc f.lo f.w (bitsOf (aliasOp al old v) f.lo f.w) else acc) old

/-- Each RW field made legal by its own range (log 43). -/
def clampFields (d : RegDesc) (v : Nat) : Nat :=
  d.fields.foldl (fun acc f =>
    if f.acc = .rw then putBits acc f.lo f.w (f.clamp.apply (bitsOf acc f.lo f.w)) else acc) v

/-- The CMD bits a write starts (R59). -/
def cmdBits (d : RegDesc) (dyn p : Bool) (al v : Nat) : Nat :=
  if al ≤ 1 then d.fields.foldl (fun acc f =>
    if f.acc = .cmd ∧ (p ∨ !fieldPriv dyn f) then putBits acc f.lo f.w (bitsOf v f.lo f.w) else acc) 0 else 0

/-- The bits a plain write gives WO fields. -/
def woBits (d : RegDesc) (dyn p : Bool) (al v : Nat) : Nat :=
  if al = 0 then d.fields.foldl (fun acc f =>
    if f.acc = .wo ∧ (p ∨ !fieldPriv dyn f) then putBits acc f.lo f.w (bitsOf v f.lo f.w) else acc) 0 else 0

/-- Whether an unprivileged write counts as an attempt (R70). -/
def writeCounts (d : RegDesc) (dyn p : Bool) (al old v : Nat) : Bool :=
  !p && d.fields.any fun f => fieldPriv dyn f && match f.acc with
    | .rw => bitsOf (aliasOp al old v) f.lo f.w != bitsOf old f.lo f.w
    | .cmd => decide (al ≤ 1) && bitsOf v f.lo f.w != 0
    | .wo => al == 0
    | .sq => al == 0 && bitsOf v 24 8 == bitsOf old 24 8 && bitsOf v f.lo f.w &&& bitsOf old f.lo f.w != 0
    | .ro => false

/-- Whether the initiator may write any field of the register. -/
def anyWritable (d : RegDesc) (dyn p : Bool) : Bool :=
  d.fields.any fun f => f.acc != .ro && (p || !fieldPriv dyn f)

/-- Store a register word where software's writes go: the edit bank for descriptors while an edit is open (R180), armed or in use by a
task too, until the edit ends (log 152). -/
def wrBank (pa : Nat) (v : Word) (s : State) : State :=
  match s.scan.edit with
  | some e => if isDescriptor pa then { s with scan := { s.scan with edit := some (SMap.ins e pa v) } } else wr pa v s
  | none => wr pa v s

/-- The fields of a register word that a write leaves with another value than it gives them (log 117). -/
def clampedFields (d : RegDesc) (raw new : Nat) : List FieldDesc :=
  d.fields.filter fun f => f.acc = .rw && bitsOf raw f.lo f.w != bitsOf new f.lo f.w

/-- Apply a write to one register word. Bits that a register forces to 0, or that its kind of port lacks, and DUPLEX on an HZ480-SN
(R145) are no clamps (R71); each field that is clamped raises CLAMP (log 117). -/
def applyWord (who : Who) (al pa : Nat) (d : RegDesc) (v : Nat) (s : State) : State × WInfo :=
  let p := isPriv s who
  let dyn := dynPriv s pa
  let old := (rdBank s pa).toNat
  let s := if writeCounts d dyn p al old v then privAttempt who s else s
  let forced := fun (x : Nat) => zeroBits pa (if s.sn ∧ (copyAt (A.SCN_TASK_CTL 0) 0x40 32 pa).isSome then putBits x 29 1 0 else x)
  let raw := keepLock pa old (forced (rawNew d dyn p al old v))
  let new := forced (clampWord s pa (clampFields d raw))
  let s := wrBank pa (w32 new) s
  let s := each (clampedFields d raw new) (fun _ => clampLog who pa) s
  (s, { who := who, pa := pa, old := old, new := new, cmds := cmdBits d dyn p al v, wo := woBits d dyn p al v, written := v })

/-- The shadow key of an initiator in the block of a register (R62). -/
def shadowKey (pa : Nat) (who : Who) : Nat := 64 * (pa / 0x10000) + who.id

/-- Write a register word as an initiator: the outcome of R56 to R73, and what the block's hook is to act on (log 43, 140, 142). -/
def regStore (who : Who) (a v : Nat) (s : State) : State × Except BusErr (Option WInfo) :=
  let al := a % 0x10000 / 0x4000
  let pa := a - al * 0x4000
  match descAt pa with
  | none => (s, .ok none)
  | some d =>
    let p := isPriv s who
    let dyn := dynPriv s pa
    if lockedReg s pa al v ∧ (anyWritable d dyn p ∨ unitWord pa) then (s, .error .locked) else
    if d.fields.any fun f => f.acc = .sq then
      if al ≠ 0 then (s, .ok none)
      else if writeCounts d dyn p al (rd s pa).toNat v then (privAttempt who s, .ok none)
      else if d.fields.any fun f => f.acc = .sq ∧ fieldPriv dyn f ∧ !p then (s, .ok none)
      else (writeBack pa (w32 v) s, .ok none)
    else match d.wide with
    | .lo =>
      let old := (rd s pa).toNat
      let w := if al = 0 then v else aliasOp al old v
      ({ s with wshadow := SMap.ins s.wshadow (shadowKey pa who) (pa % 0x10000, w32 w) }, .ok none)
    | .hi =>
      let key := shadowKey pa who
      let lo := match SMap.get? s.wshadow key with
        | some (tag, w) => if tag = pa % 0x10000 - 4 then some w else none
        | none => none
      let s := match lo, descAt (pa - 4) with
        | some w, some dl => (applyWord who 0 (pa - 4) dl w.toNat { s with wshadow := SMap.del s.wshadow key }).1
        | _, _ => s
      let (s, i) := applyWord who al pa d v s
      (s, .ok (some i))
    | _ =>
      let t := applyWord who al pa d v s
      (if asserted t.1 (pa / 0x10000) && !asserted s (pa / 0x10000) then pend (outSource (pa / 0x10000)) 0 t.1 else t.1,
        .ok (some t.2))

/-- Read a plain 64-bit or 32-bit register word as an initiator, with the read shadow of R62; popping registers and
views of other state are the block's own (Machine/Bus.lean). -/
def regLoad (who : Who) (a : Nat) (s : State) : State × Nat :=
  let al := a % 0x10000 / 0x4000
  let pa := a - al * 0x4000
  match descAt pa with
  | none => (s, 0)
  | some d =>
    let p := isPriv s who
    let dyn := dynPriv s pa
    let s := if readCounts d dyn p then privAttempt who s else s
    let live := maskRead d dyn p (rdBank s pa).toNat
    match d.wide with
    | .lo => ({ s with rshadow := SMap.ins s.rshadow (shadowKey pa who) (pa % 0x10000, rd s (pa + 4)) }, live)
    | .hi =>
      let key := shadowKey pa who
      match SMap.get? s.rshadow key with
      | some (tag, w) =>
        if tag = pa % 0x10000 - 4 then ({ s with rshadow := SMap.del s.rshadow key }, maskRead d dyn p w.toNat) else (s, live)
      | none => (s, live)
    | _ => (s, live)

end Sys2Proof.Machine
end

