-- ==== Sys2Proof/Machine/Faults.lean ====
section
/-! DEFINITION. Faults: classes, LKH_FSTAT, FAULT_N, the fault log (19_selftest_safety R498 to R504, R532, R533), and the slice of a shared block
that runs (R489, R490). -/

namespace Sys2Proof.Machine

/-- The class of a fault code (R502): 0 INFO, 1 DEGRADED, 2 REACH, 3 STOP, 4 DEVICE. -/
def faultClass (code : Nat) : Nat :=
  if code = 0x01 ∨ code = 0x02 ∨ code = 0x03 then 2
  else if code = 0x05 ∨ code = 0x06 ∨ code = 0x07 ∨ code = 0x09 ∨ code = 0x38 ∨ code = 0x50 ∨ code = 0x51 then 0
  else if 0x11 ≤ code ∧ code ≤ 0x19 then 3
  else if code = 0x21 ∨ code = 0x22 ∨ code = 0x25 ∨ code = 0x27 ∨ code = 0x28 ∨ code = 0x30 ∨ code = 0x39
      ∨ (0x40 ≤ code ∧ code ≤ 0x43) ∨ code = 0x58 then 4
  else 1

/-- Whether FAULT_N is asserted (R499). -/
def faultN (s : State) : Bool :=
  isSet s F.LKH_FSTAT_INIT || bitsOf (rd s A.LKH_FSTAT).toNat 1 4 &&& getF s F.LKH_FCFG_FNMASK != 0 || s.faults.testOpen

/-- SYS_STATUS.FAULT follows FAULT_N. -/
def syncFaultN (s : State) : State := setF F.SYS_STATUS_FAULT (bit (faultN s)) s

/-- Set the FSTAT bit of a class, with LKH_FEVT.FAULT when it was 0 (R498) (log 27). -/
def setFstat (cls : Nat) (s : State) : State :=
  if cls = 0 then s else
  let f : FRef := ⟨A.LKH_FSTAT, cls, 1⟩
  syncFaultN (if isSet s f then s else raise A.LKH_FEVT 0 (setF f 1 s))

/-- The fault log entry of a fault detected now (R504). -/
def faultEntry (s : State) (code source : Nat) (data : List Nat) : FaultEntry :=
  { time := time s, code := code, cls := faultClass code, lastrst := getF s F.SYS_STATUS_LASTRST,
    lcs := getF s F.SYS_STATUS_LCS, source := source, rolemap := (rd s A.LKH_ROLEMAP).toNat,
    cycno := (rd s (A.SCN_TASK_CYCNO (if isSet s F.SCN_STATUS_TASKV then getF s F.SCN_STATUS_STOPTASK else 0))).toNat,
    data := data }

/-- The sixteen words of an entry (R504). -/
def entryWords (e : FaultEntry) (seq rep : Nat) : List Nat :=
  let ws := [e.time % 2 ^ 32, e.time / 2 ^ 32, seq,
    e.code * 2 ^ 24 + e.cls * 2 ^ 21 + e.lastrst * 2 ^ 18 + e.lcs * 2 ^ 15 + e.source % 2 ^ 15, e.rolemap, e.cycno]
    ++ (e.data ++ [0, 0, 0, 0]).take 4 ++ [0, 0, 0, 0, rep]
  ws ++ [crc32 (ws.flatMap (leBytes 4))]

/-- Write words at an address. -/
def putWords (a : Nat) (ws : List Nat) (s : State) : State := putBytes a (ws.flatMap (leBytes 4)) s

/-- Write one entry into the fault log in MRAM: merged into the last one, or at NEXT (R504, R533). -/
def writeEntry (e : FaultEntry) (s : State) : State :=
  match s.faults.last with
  | some (idx, l, t, rep) =>
    if l.code = e.code ∧ l.source = e.source ∧ e.time < t + 10000000 then
      let s := putWords (0x41400000 + 64 * idx) (entryWords l (s.faults.seq - 1) (rep + 1)) s
      raise A.LKH_FEVT 2 { s with faults := { s.faults with last := some (idx, l, e.time, rep + 1) } }
    else fresh e s
  | none => fresh e s
where
  /-- A new entry at NEXT. -/
  fresh (e : FaultEntry) (s : State) : State :=
    let idx := getF s F.LKH_FLOGPTR_NEXT
    let s := putWords (0x41400000 + 64 * idx) (entryWords e s.faults.seq 0) s
    let s := incF F.LKH_FLOGPTR_TOTAL 1 (incF F.LKH_FLOGPTR_NEXT 1 s)
    raise A.LKH_FEVT 2 { s with faults := { s.faults with last := some (idx, e, e.time, 0), seq := s.faults.seq + 1 } }

/-- A fault of a class below DEVICE is detected: FSTAT bit, and an entry for the Lockhouse to write (R498, R533). -/
def logFault (code source : Nat) (data : List Nat) (s : State) : State :=
  let e := faultEntry s code source data
  setFstat e.cls { s with faults := { s.faults with queue := s.faults.queue ++ [e] } }

/-- The shared block of a slice: 0 Basin, 1 Lockkeeper, 2 Towpath sequencer, 3 host bridge, 4 fabric bridge, 5 time base. -/
def blockOfSlice (k : Nat) : Nat :=
  if k < 48 then 0 else if k < 64 then 1 else if k < 72 then 2 else if k < 76 then 3 else if k < 80 then 4 else 5

/-- The shared slice that runs. -/
def sliceRunning (s : State) : Option Nat :=
  let k := getF s F.BST_STATUS_RUNNING
  if k < 88 then some k else none

/-- Whether a slice of block `b` holds the block frozen. -/
def frozen (s : State) (b : Nat) : Bool := (sliceRunning s).any fun k => blockOfSlice k == b

/-- Mark a reach SUSPECT (R190). -/
def markSuspect (n : Nat) (s : State) : State := setF ⟨A.LKH_REACHST, 16 + n, 1⟩ 1 s

/-- Fault 0x05: a core's double fault; a third in one reach within 1 s marks the reach SUSPECT (R502). -/
def doubleFaultLog (i : Nat) (s : State) : State :=
  let n := i / 8
  let k := s.core i
  let item := match k.items.get k.level with | some r => r.ident | none => 0
  let s := logFault 0x05 i [i, (rd s (A.RCH_CORE_DFINFO n (i % 8))).toNat, item] s
  let ds := (s.faults.doubles.filter fun (_, t) => decide (s.now < t + 1000000000)) ++ [(n, s.now)]
  let s := { s with faults := { s.faults with doubles := ds } }
  onlyIf (decide (3 ≤ (ds.filter fun (m, _) => m == n).length)) (markSuspect n) s

end Sys2Proof.Machine
end

