-- ==== Sys2Proof/Machine/LkpBase.lean ====
section
/-! DEFINITION. The Lockkeeper's tables, trace ring and discards (07_lockkeeper R218 to R224, R226, R244 to R247). -/

namespace Sys2Proof.Machine

/-- Change the Lockkeeper's own state. -/
def modLkp (f : Lkp → Lkp) (s : State) : State := { s with lkp := f s.lkp }

/-- The identifier of an item (R221). -/
def itemId (role : Nat) (seg : Bool) (task index : Nat) : Nat :=
  bit seg * 2 ^ 31 + role % 4 * 2 ^ 27 + 2 ^ 23 + task % 32 * 2 ^ 16 + index % 2 ^ 14

/-- The group of a task's segment items (LKP_SEGGRPk). -/
def segGroup (s : State) (task : Nat) : Nat := getF s ⟨A.LKP_SEGGRP (task / 8), 4 * (task % 8), 4⟩

/-- Read the memory of the reach that holds a role, as the Lockkeeper (48) or the Lockhouse (49). -/
def roleRead (id role off size : Nat) (s : State) : State × Except BusErr Nat :=
  let n := reachOf s role
  if n < 5 then reachRead n (foldCW s n off) size ⟨id, true, none⟩ s else (s, .error .owner)

/-- The own-reach offset of the descriptor of general item `x` (R219). -/
def itemAddr (s : State) (x : Nat) : Nat := getF s F.LKP_ITEMBASE_BANK * 0x10000 + 16 * x

/-- The descriptor of a general item: none where V is 0, an error where a word cannot be read (R219, R530). -/
def readItem (role x : Nat) (s : State) : State × Except BusErr (Option ItemDesc) :=
  let a := itemAddr s x
  match roleRead 48 role a 8 s with
  | (s, .error e) => (s, .error e)
  | (s, .ok lo) => match roleRead 48 role (a + 8) 8 s with
    | (s, .error e) => (s, .error e)
    | (s, .ok hi) =>
      let aff := bitsOf hi 24 8
      let slots := bitsOf hi 8 8
      (s, .ok (if bitAt hi 0 then some
        { entry := w32 lo, arg := w32 (lo / 2 ^ 32), aff := if aff = 0 then 0xFF else aff, group := bitsOf hi 20 4,
          need := if slots = 0 then 1 else slots, trc := bitAt hi 32 } else none))

/-- The slots segment `x` needs: its mask byte with bit 0 taken as 1 (R220). -/
def readMask (role x : Nat) (s : State) : State × Except BusErr Nat :=
  match roleRead 48 role (getF s F.LKP_SEGMASK_BASE * 0x4000 + x) 1 s with
  | (s, .error e) => (s, .error e)
  | (s, .ok m) => (s, .ok (m ||| 1))

/-- The segment descriptor of segment `x` (R161), read as the Lockkeeper or the Lockhouse: entry word, first byte of WIN0, and the valid
windows as (retentive, first byte, end). -/
def readSegment (id role x : Nat) (s : State) : State × Except BusErr (Word × Nat × List (Bool × Nat × Nat)) :=
  let a := getF s F.SCN_SEGBASE_BASE * 16 + 16 * x
  match roleRead id role a 8 s with
  | (s, .error e) => (s, .error e)
  | (s, .ok lo) => match roleRead id role (a + 8) 8 s with
    | (s, .error e) => (s, .error e)
    | (s, .ok hi) =>
      let wins := [lo / 2 ^ 32, hi % 2 ^ 32, hi / 2 ^ 32].filterMap fun w =>
        if bitAt w 31 then some (bitAt w 30, 64 * bitsOf w 6 14, 64 * (bitsOf w 6 14 + bitsOf w 20 10 + 1)) else none
      (s, .ok (w32 lo, 64 * bitsOf lo (32 + 6) 14, wins))

/-- Discard a token as invalid (R224). -/
def badToken (hw : Bool) (src : Nat) (dst : Word) (s : State) : State :=
  let s := satF F.LKP_BADTOK_COUNT 1 s
  let s := setF F.LKP_BADTOK_HW (bit hw) (setF F.LKP_BADTOK_SRC src s)
  raise A.LKP_EVT 0 (wr A.LKP_BADDST dst s)

/-! ### Trace (R246, R247) -/

/-- The kinds of trace record. -/
inductive Kind where
  | dispatch | preempt | done | resume | release | hold | lost | drop | starve
deriving DecidableEq, Repr

/-- The code of a kind (R246). -/
def Kind.code : Kind → Nat
  | .dispatch => 1 | .preempt => 2 | .done => 3 | .resume => 4 | .release => 5 | .hold => 6 | .lost => 7 | .drop => 8
  | .starve => 9

/-- What a trace record says of its item: role, core, level, group, segment flag, index, task, trace flag. -/
structure Traced where
  role : Nat
  core : Nat := 0
  level : Nat := 0
  group : Nat := 0
  seg : Bool := false
  index : Nat := 0
  task : Nat := 0
  trc : Bool := false
deriving DecidableEq, Repr

/-- The record of a decision as it waits to be written (R246). -/
def traceRec (k : Kind) (t : Traced) (data : Nat) (s : State) : TraceRec :=
  { role := t.role % 4, word0 := time s % 2 ^ 32,
    word1 := k.code * 2 ^ 28 + t.role % 4 * 2 ^ 26 + t.core % 8 * 2 ^ 23 + t.level % 4 * 2 ^ 21 + t.group % 16 * 2 ^ 17 + bit t.seg * 2 ^ 16
      + t.index % 2 ^ 14,
    word2 := min data (2 ^ 32 - 1), task := t.task % 32 }

/-- Store one record in the ring of its role, at the write index (R246); a record for a role that no reach holds goes nowhere. -/
def putRecord (t : TraceRec) (s : State) : State :=
  let r := t.role % 4
  let n := reachOf s r
  let size := 2 ^ (getF s F.LKP_TRCRING_SIZE + 6)
  let base := getF s F.LKP_TRCRING_BASE * 16 / (16 * size) * (16 * size)
  let idx := getF s (F.LKP_TRCWR_INDEX r)
  let seq := s.lkp.trcSeq[r]'(Nat.mod_lt _ (by decide))
  let ws := [t.word0, t.word1, t.word2, seq % 2 ^ 16 * 2 ^ 16 + t.task]
  let s := if n < 5 then reachWords n (base + 16 * (idx % size)) (ws.flatMap (leBytes 4)) s else s
  let s := modLkp (fun l => { l with trcSeq := l.trcSeq.set r (seq + 1) (Nat.mod_lt _ (by decide)) }) s
  setF (F.LKP_TRCWR_INDEX r) (idx + 1) s

/-- Whether the ring of a role takes a record (R247). -/
def ringTakes (s : State) (r : Nat) : Bool :=
  !isSet s F.LKP_TRCCTL_STOP ||
    decide ((getF s (F.LKP_TRCWR_INDEX r) + 0x10000 - getF s (F.LKP_TRCRD_INDEX r)) % 0x10000
      < 2 ^ (getF s F.LKP_TRCRING_SIZE + 6))

/-- A record of role `r` is dropped (R247). -/
def dropRecord (r : Nat) (s : State) : State :=
  let n := s.lkp.trcDropped[r % 4]'(Nat.mod_lt _ (by decide))
  raise A.LKP_EVT 6 (satF F.LKP_TRCDROP_COUNT 1
    (modLkp (fun l => { l with trcDropped := l.trcDropped.set (r % 4) (n + 1) (Nat.mod_lt _ (by decide)) }) s))

/-- A scheduling decision: its record joins the queue where it is selected; one that finds the queue full is dropped (R246, R247) (log 24). -/
def trace (k : Kind) (t : Traced) (data : Nat) (s : State) : State :=
  let sel := isSet s F.LKP_TRCCTL_EN && bitAt (getF s F.LKP_TRCCTL_KINDS) (k.code - 1) && bitAt (getF s F.LKP_TRCCTL_ROLES) (t.role % 4)
    && (bitAt (getF s F.LKP_TRCCTL_GROUPS) t.group || t.trc)
  if !sel then s
  else if 64 ≤ s.lkp.trcQueue.length then dropRecord t.role s
  else modLkp (fun l => { l with trcQueue := l.trcQueue ++ [traceRec k t data s] }) s

/-- A record leaves the queue: it is written, after a DROP record if some were dropped before it, or is dropped where the ring is
stopped (R247) (log 24). -/
def writeRecord (t : TraceRec) (s : State) : State :=
  let r := t.role % 4
  let dropped := s.lkp.trcDropped[r]'(Nat.mod_lt _ (by decide))
  let s := if dropped ≠ 0 ∧ ringTakes s r then
      modLkp (fun l => { l with trcDropped := l.trcDropped.set r 0 (Nat.mod_lt _ (by decide)) })
        (putRecord (traceRec .drop { role := r } dropped s) s) else s
  if ringTakes s r then putRecord t s else dropRecord r s

/-- Whether the records of a role must wait: for a window of it to end (R197, R201), or for its reach to wake (R262) (log 119). -/
def ringAway (s : State) (r : Nat) : Bool := roleAway s r || (s.rot.window.isSome && s.rot.winRole == r)

/-- The queue empties into the rings, as it does while time passes; records of a role whose reach cannot be written stay (log 24). -/
def drainTrace (s : State) : State :=
  each s.lkp.trcQueue (fun t s =>
    if ringAway s t.role then modLkp (fun l => { l with trcQueue := l.trcQueue ++ [t] }) (wakeRole t.role s) else writeRecord t s)
    (modLkp (fun l => { l with trcQueue := [] }) s)

/-- What the trace says of a running item. -/
def Running.traced (x : Running) (core level : Nat) : Traced :=
  { role := x.ident / 2 ^ 27 % 4, core := core, level := level, group := x.group, seg := x.segment.isSome,
    index := x.ident % 2 ^ 14, task := match x.segment with | some (t, _) => t | none => 0, trc := x.trc }

/-- What the trace says of a ready item. -/
def Ready.traced (x : Ready) (core level : Nat) : Traced :=
  { role := x.role, core := core, level := level, group := x.group, seg := x.seg, index := x.index, task := x.task,
    trc := x.trc }

/-! ### Entries and open tasks -/

/-- Whether an entry is that of an item. -/
def Entry.is (e : Entry) (role : Nat) (seg : Bool) (index : Nat) : Bool :=
  e.role == role && e.seg == seg && e.index == index

/-- Whether a ready item is a given item. -/
def Ready.is (e : Ready) (role : Nat) (seg : Bool) (index : Nat) : Bool :=
  e.role == role && e.seg == seg && e.index == index


/-- Whether segment `x` belongs to task `t`. -/
def segOf (s : State) (t x : Nat) : Bool :=
  let f := taskF s t (F.SCN_TASK_SEG_FIRST t)
  decide (f ≤ x ∧ x < f + taskF s t (F.SCN_TASK_SEG_COUNT t))

/-- The token a destination word names, from core `i`, whose reach held the role `own` at the SIG (R223): none where it is invalid (R224). -/
def tokenOf (i : Nat) (dst value : Word) (own : Option Nat) : Option Token :=
  let d := dst.toNat
  let role := if bitAt d 29 then own else some (bitsOf d 27 2)
  if bitsOf d 14 10 ≠ 0 ∨ (bitAt d 31 ∧ bitAt d 30) then none else
  role.map fun r => { role := r, seg := bitAt d 31, slot := bitsOf d 24 3, index := bitsOf d 0 14, dst := dst, value := value, hw := false, src := i }

/-- A running segment item whose task is closed: its later tokens are discarded, its DONE is not counted (R244). -/
def Core.close (p : Nat → Bool) (k : Core) : Core :=
  { k with items := k.items.map fun x => x.map fun r => if r.segment.any (fun y => p y.1) then { r with counted := false } else r }

/-- Close the cycles of the tasks that `p` selects: their entries, ready segments and tokens are discarded
(R226, R244) (log 49). -/
def closeTasks (p : Nat → Bool) (s : State) : State :=
  let gone := s.lkp.opened.filter fun o => p o.task
  let of := fun (role x : Nat) => gone.any fun o => o.role == role && segOf s o.task x
  modLkp (fun l => { l with
    opened := l.opened.filter fun o => !p o.task
    store := l.store.filter fun e => !(e.seg && of e.role e.index)
    ready := l.ready.filter fun e => !(e.seg && p e.task)
    overflow := l.overflow.filter fun t => !(t.seg && of t.role t.index)
    ports := Vector.ofFn fun i : Fin 40 => (l.ports.get i).filter fun (dst, v, own) => match tokenOf i.val dst v own with
      | some t => !(t.seg && of t.role t.index)
      | none => true
    offers := l.offers.filter fun o => !(o.2.seg && p o.2.task) }) { s with cores := s.cores.map (Core.close p) }

end Sys2Proof.Machine
end

