-- ==== Sys2Proof/Machine/Stop.lean ====
section
/-! DEFINITION. Control stop and safe commit (05_scan_cycle R157, R173 to R175, R185). -/

namespace Sys2Proof.Machine

/-- The causes of R173. -/
inductive StopCause where
  | deadline | window | late | mismatch | station | reach | command | ecc | commit
deriving DecidableEq, Repr

/-- The code of a stop cause (R173). -/
def StopCause.code : StopCause → Nat
  | .deadline => 1 | .window => 2 | .late => 3 | .mismatch => 4 | .station => 5 | .reach => 6 | .command => 7 | .ecc => 8
  | .commit => 9

/-- Change the SCN's own state. -/
def modScan (f : Scan → Scan) (s : State) : State := { s with scan := f s.scan }

/-- What a task holds beside its registers. -/
def State.task (s : State) (t : Nat) : Task := s.scan.tasks[t % 32]'(Nat.mod_lt _ (by decide))

/-- Change what a task holds. -/
def modTask (t : Nat) (f : Task → Task) (s : State) : State :=
  modScan (fun c => { c with tasks := c.tasks.set (t % 32) (f (c.tasks[t % 32]'(Nat.mod_lt _ (by decide)))) (Nat.mod_lt _ (by decide)) }) s

/-- The old contents of an output line are kept in the journal for the open Towpath epoch, for each commit that overwrites it (R157)
(log 110). -/
def journalLine (line : Nat) (s : State) : State :=
  if !s.scan.epoch then s else
  modScan (fun c => { c with journal := c.journal ++ [(line, bytesAt s (0x30020000 + 64 * line) 64)] }) s

/-- The output range of Towpath schedule entry `a` (R362): first output image byte and length. -/
def towOut (s : State) (a : Nat) : Nat × Nat :=
  let n := bitsOf (rd s (0x60081008 + 32 * a)).toNat 16 7
  (min (max (bitsOf (rd s (0x60081010 + 32 * a)).toNat 0 17) 0x10) (0x20000 - n), n)

/-- A commit has written output bytes: the outputs of each station with such a byte are released (R363). -/
def releaseOut (hit : Nat → Nat → Bool) (s : State) : State :=
  { s with tow := { s.tow with stn := Vector.ofFn fun a : Fin 256 =>
      { s.tow.stn[a] with released := s.tow.stn[a].released || hit (towOut s a.val).1 (towOut s a.val).2 } } }

/-- Whether the journal has room for the lines that bytes (offset, byte) change: 1,024 lines while an epoch is open (R157). -/
def journalRoom (bs : List (Nat × Byte)) (s : State) : Bool :=
  !s.scan.epoch || decide (s.scan.journal.length + ((bs.map fun (o, _) => o / 64).eraseDups).length ≤ 1024)

/-- Write output image bytes (offset, byte) as a commit, through the journal. -/
def commitBytes (bs : List (Nat × Byte)) (s : State) : State :=
  let lines := (bs.map fun (o, _) => o / 64).eraseDups
  releaseOut (fun lo n => bs.any fun (o, _) => decide (lo ≤ o ∧ o < lo + n))
    (each bs (fun (o, b) => setByte (0x30020000 + o) b) (each lines journalLine s))

/-- The safe table of the active bank: (offset, length, value) in entry order (R185). -/
def safeTable (s : State) : List (Nat × Nat × Nat) :=
  (List.range 256).map fun e =>
    let w0 := (rd s (0x60031800 + 8 * e)).toNat
    let w1 := (rd s (0x60031804 + 8 * e)).toNat
    (bitsOf w0 0 17, min (bitsOf w1 0 17 + 1) (0x20000 - bitsOf w0 0 17), bitsOf w0 24 8)

/-- Fill output bytes `lo ..` with a value. -/
def fillOut (e : Nat × Nat × Nat) (s : State) : State :=
  putBytes (0x30020000 + e.1) (List.replicate e.2.1 (b8 e.2.2)) s

/-- The lines a safe table entry covers. -/
def safeLines (e : Nat × Nat × Nat) : List Nat :=
  (List.range ((e.1 + e.2.1 - 1) / 64 - e.1 / 64 + 1)).map (· + e.1 / 64)

/-- The output image with every byte removed: all 0. -/
def clearOut (s : State) : State :=
  { s with mem := s.mem.filter fun (a, _) => !decide (0x30020000 ≤ a ∧ a < 0x30040000) }

/-- Safe commit: every output byte takes the value of the highest-numbered entry that covers it, else 0, through the
journal and ignoring forces (R174, R185) (log 110). -/
def safeCommit (s : State) : State :=
  let lines := ((s.mem.filter fun (a, _) => decide (0x30020000 ≤ a ∧ a < 0x30040000)).map fun (a, _) => (a - 0x30020000) / 64).eraseDups
  let more := ((safeTable s).flatMap safeLines).eraseDups.filter fun l => !lines.contains l
  releaseOut (fun _ n => decide (0 < n)) (each (safeTable s) fillOut (clearOut (each (lines ++ more) journalLine s)))

/-- A task at a control stop: its cycle and its held trigger are discarded (log 149). -/
def Task.stopped (k : Task) : Task :=
  { k with held := false, onEdit := false, snap := [], buffer := [], capture := [], capLines := [], waiting := false }

/-- Whether a cause finds control to stop: it runs, or, where no reach can hold a role any longer (R29), is about to (log 26). -/
def stops (cause : StopCause) (s : State) : Bool :=
  getF s F.SCN_STATUS_CSTATE == 2 || (decide (cause = .reach) && getF s F.SCN_STATUS_CSTATE == 1)

/-- Control stops at this instant (R173 to R175). `task` is the task the cause names, if any (log 26, 53, 110). A stop while the edit reads
ARMED discards it, whether or not its latch has passed: every task is back on the old bank (log 149). -/
def controlStop (cause : StopCause) (task : Option Nat) (s : State) : State :=
  if !stops cause s then s else
  let s := setF F.SCN_STATUS_CSTATE 3 (modScan (fun c => { c with restart := none }) s)
  let s := setF F.SCN_STATUS_STOPCAUSE cause.code s
  let s := setF F.SCN_STATUS_STOPTASK (task.getD 0) (setF F.SCN_STATUS_TASKV (bit task.isSome) s)
  let s := wr64 A.SCN_STOPTIME (time s) s
  let s := closeTasks (fun _ => true) s
  let s := each (List.range 32) (fun t s => setF (F.SCN_TASK_TSTAT_STATE t) 0 (modTask t Task.stopped s)) s
  let s := modScan (fun c => { c with committing := none, sendSafe := true, aborting := true }) s
  let s := if getF s F.SCN_EDITCTL_EDSTAT = 2 then
      setF F.SCN_EDITCTL_EDSTAT 0 (setF F.SCN_STATUS_EDSTAT 0 (modScan (fun c => { c with edit := none, editLive := false }) s)) else s
  let s := safeCommit s
  let data := [task.getD 0] ++ if cause = .mismatch then
    [(rd s A.LKH_MMINFO).toNat, (rd s A.LKH_MMADDR).toNat, (rd s A.LKH_MMDATA).toNat] else []
  raise A.SCN_EVT 0 (logFault (0x10 + cause.code) (task.getD 0) data s)

end Sys2Proof.Machine
end

