-- ==== Sys2Proof/Machine/Mailbox.lean ====
section
/-! DEFINITION. Mailboxes, receiver epochs and the wake of a parked reach (08_banks_mailboxes R261 to R269). -/

namespace Sys2Proof.Machine

/-- The contents of mailbox `m`. -/
def State.mb (s : State) (m : Nat) : Mbox := s.mbox[m % 64]'(Nat.mod_lt _ (by decide))

/-- Replace the contents of mailbox `m`. -/
def State.setMb (s : State) (m : Nat) (b : Mbox) : State :=
  { s with mbox := s.mbox.set (m % 64) b (Nat.mod_lt _ (by decide)) }

/-- Words a mailbox holds at most (MBX_CFGm.SIZEM1). -/
def mbSize (s : State) (m : Nat) : Nat := 16 * (getF s (F.MBX_CFG_SIZEM1 m) + 1)

/-- The current epoch of a mailbox's receiver. -/
def mbEpoch (s : State) (m : Nat) : Nat := getF s (F.MBX_REPOCH_EPOCH (getF s (F.MBX_CFG_RECV m)))

/-- Words of a mailbox that wait to be read. -/
def mbWaiting (s : State) (m : Nat) : Nat :=
  let b := s.mb m
  if isSet s (F.MBX_CFG_MODE m) then
    (match b.bstate with
     | .committed => b.words.length
     | .reading => b.words.length - b.nread
     | _ => 0)
  else b.words.length

/-- A parked reach wakes (R262): PSTATE becomes WAKING. -/
def wakeReach (n : Nat) (s : State) : State := wakeTouch n s

/-- A message is committed: the source of the mailbox fires, and the receiver's parked reach wakes (R262, R266). -/
def mbCommitted (m : Nat) (s : State) : State :=
  let s := pend (64 + m) (mbWaiting s m) s
  let r := getF s (F.MBX_CFG_RECV m)
  if isSet s (F.MBX_CFG_WAKE m) ∧ r < 4 ∧ reachOf s r < 5 then wakeReach (reachOf s r) s else s

/-- A write to MBX_TXm (R263, R264). A disabled mailbox takes nothing (log 8). -/
def mbWrite (m : Nat) (who : Who) (v : Word) (s : State) : State × Except BusErr Unit :=
  let b := s.mb m
  let w : MboxWord := { data := v, sender := who.id, stamp := mbEpoch s m, bad := false }
  if !isSet s (F.MBX_CFG_EN m) then (s, .ok ()) else
  if isSet s (F.MBX_CFG_MODE m) then
    match b.bstate with
    | .empty => (s.setMb m { words := [w], bstate := .opened, owner := who.id, nread := 0 }, .ok ())
    | .opened =>
      if b.owner ≠ who.id ∨ mbSize s m ≤ b.words.length then (raise A.MBX_EVT 0 s, .error .mbxFull)
      else (s.setMb m { b with words := b.words ++ [w] }, .ok ())
    | _ => (raise A.MBX_EVT 0 s, .error .mbxFull)
  else if mbSize s m ≤ b.words.length then (raise A.MBX_EVT 0 s, .error .mbxFull)
  else (mbCommitted m (s.setMb m { b with words := b.words ++ [w] }), .ok ())

/-- GO: the owner of the open block commits it; each word takes the receiver's epoch (R263, R267). -/
def mbGo (m : Nat) (who : Who) (s : State) : State :=
  let b := s.mb m
  if b.bstate = .opened ∧ b.owner = who.id then
    let e := mbEpoch s m
    mbCommitted m (s.setMb m { b with bstate := .committed, nread := 0, words := b.words.map fun w => { w with stamp := e } })
  else s

/-- RELEASE empties a committed block (R265). -/
def mbRelease (m : Nat) (s : State) : State :=
  match (s.mb m).bstate with
  | .committed => s.setMb m Mbox.reset
  | .reading => s.setMb m Mbox.reset
  | _ => s

/-- ABORT discards the open block, by its owner or a privileged initiator. -/
def mbAbort (m : Nat) (who : Who) (s : State) : State :=
  let b := s.mb m
  if b.bstate = .opened ∧ (b.owner = who.id ∨ isPriv s who) then s.setMb m Mbox.reset else s

/-- FLUSH discards every word and any block. -/
def mbFlush (m : Nat) (s : State) : State := s.setMb m Mbox.reset

/-- The high word a read of MBX_RXm latches (R265). -/
def mbStatus (empty stale first last : Bool) (sender : Nat) (bad : Bool) (remain : Nat) : Nat :=
  bit empty * 2 ^ 31 + bit stale * 2 ^ 30 + bit first * 2 ^ 29 + bit last * 2 ^ 28 + sender % 64 * 2 ^ 22 + bit bad * 2 ^ 21
    + remain % 2 ^ 16

/-- A read of the low word of MBX_RXm: the next word and the status latched in the reader's shadow (R265) (log 8). -/
def mbRead (m : Nat) (who : Who) (s : State) : State × Word :=
  let b := s.mb m
  let pa := A.MBX_RX m
  let latch := fun (st : Nat) (s : State) =>
    { s with rshadow := SMap.ins s.rshadow (shadowKey pa who) (pa % 0x10000, w32 st) }
  let out := fun (w : MboxWord) (first last : Bool) (remain : Nat) (s : State) =>
    let s := if w.bad then raise A.MBX_EVT 3 s else s
    (latch (mbStatus false (w.stamp != mbEpoch s m) first last w.sender w.bad remain) s, if w.bad then 0 else w.data)
  if isSet s (F.MBX_CFG_MODE m) then
    if b.bstate = .committed ∨ b.bstate = .reading then
      match b.words[b.nread]? with
      | some w =>
        out w (b.nread == 0) (b.nread + 1 == b.words.length) (b.words.length - b.nread - 1)
          (s.setMb m { b with bstate := .reading, nread := b.nread + 1 })
      | none => (latch (mbStatus true false false false 0 false 0) s, 0)
    else (latch (mbStatus true false false false 0 false 0) s, 0)
  else match b.words with
    | w :: t => out w false false t.length (s.setMb m { b with words := t })
    | [] => (latch (mbStatus true false false false 0 false 0) s, 0)

/-- A receiver's epoch advances by 1 (R268). -/
def epochBump (r : Nat) (s : State) : State := raise A.MBX_EVT 4 (incF (F.MBX_REPOCH_EPOCH r) 1 s)

/-- Open blocks whose owner is selected are cleared (R269). -/
def clearBlocks (p : Nat → Bool) (s : State) : State :=
  each (List.range 64) (fun m s =>
    let b := s.mb m
    if b.bstate = .opened ∧ p b.owner then raise A.MBX_EVT 1 (s.setMb m Mbox.reset) else s) s

end Sys2Proof.Machine
end

