-- ==== Sys2Proof/Machine/CoreOps.lean ====
section
/-! DEFINITION. The Weevil core: registers, STAT, stacks and their frames (03_weevil_core R76 to R107). -/

namespace Sys2Proof.Machine

/-! ### Registers and STAT -/

/-- Register `r` of the current bank; w0 reads 0 (R76). -/
def Core.reg (k : Core) (r : Fin 16) : Word :=
  if r = 0 then 0 else k.w.get ⟨16 * k.level.val + r.val, by omega⟩

/-- Write register `r` of the current bank; a write to w0 is discarded (R76). -/
def Core.setReg (k : Core) (r : Fin 16) (v : Word) : Core :=
  if r = 0 then k else { k with w := k.w.set (16 * k.level.val + r.val) v (by omega) }

/-- The number of occupied entries of the bit nesting stack: consecutive non-empty entries from entry 0 (R79, R80). -/
def bndOf (b : Word) : Nat :=
  ((List.range 8).takeWhile fun k => bitsOf b.toNat (4 * k) 2 != 0).length

/-- BND of a core. -/
def Core.bnd (k : Core) : Nat := bndOf k.bstk

/-- The STAT word (control register 0). -/
def Core.stat (k : Core) : Word :=
  w32 (bit k.n * 2 ^ 31 + bit k.z * 2 ^ 30 + bit k.c * 2 ^ 29 + bit k.v * 2 ^ 28 + bit k.bacc * 2 ^ 23
    + bit k.bopen * 2 ^ 22 + k.bnd * 2 ^ 18 + k.level.val * 2 ^ 8 + bit k.ie * 2 + bit k.sup)

/-- N, Z, C, V, BACC and BOPEN taken from a STAT word. -/
def Core.setFlags (k : Core) (v : Word) : Core :=
  { k with n := v.getLsbD 31, z := v.getLsbD 30, c := v.getLsbD 29, v := v.getLsbD 28, bacc := v.getLsbD 23,
           bopen := v.getLsbD 22 }

/-- A BSTK word as it is held: from the first empty entry on every entry reads 0 (R80). -/
def cleanBstk (v : Word) : Word := w32 (v.toNat % 2 ^ (4 * bndOf v))

/-- The PC moves past one instruction. -/
def Core.next (k : Core) : Core := { k with pc := k.pc + 4 }

/-- Cycles in state RUN pass (log 6). -/
def Core.spend (k : Core) (n : Nat) : Core := { k with cyc := { k.cyc with count := k.cyc.count + n } }

/-- The next instruction finds nothing of those before in the pipeline (R101, R111) (log 6). -/
def Core.flush (k : Core) : Core := { k with cyc := { k.cyc with mul1 := none, mul2 := none, bitLast := false, mtcLast := false } }

/-! ### Stacks (R87 to R92) -/

/-- The cause codes of R112. -/
inductive Cause where
  | buserrW | ifetch | illegal | privop | trap | brk | align | retonly | window | buserrR | dstkOvf | dstkUnf | rstkOvf
  | rstkUnf | retmis | bnest
deriving DecidableEq, Repr

/-- The code of a cause (R112). -/
def Cause.code : Cause → Nat
  | .buserrW => 1 | .ifetch => 2 | .illegal => 3 | .privop => 4 | .trap => 5 | .brk => 6 | .align => 7 | .retonly => 8
  | .window => 9 | .buserrR => 10 | .dstkOvf => 11 | .dstkUnf => 12 | .rstkOvf => 13 | .rstkUnf => 14 | .retmis => 15
  | .bnest => 16

/-- An exception on its way: cause, data address where one applies, the bus error with its access: code, address, whether a write,
size. -/
structure Exc where
  cause : Cause
  addr : Option Nat := none
  bus : Option (BusErr × Nat × Bool × Nat) := none
deriving DecidableEq, Repr

/-- A bus error met by a load, a bit operation or an own-reach store (BUSERR_R). -/
def excBus (e : BusErr) (a : Nat) (isWr : Bool) (size : Nat) : Exc :=
  { cause := .buserrR, addr := some a, bus := some (e, a, isWr, size) }

/-- The bus error with a code (R72). -/
def busErrOf (n : Nat) : Option BusErr :=
  [BusErr.decode, .owner, .mbxFull, .remoteTimeout, .remoteErr, .ecc, .locked].find? (·.code == n)

/-- The bus error of an exception is logged (R75). -/
def logExc (i : Nat) (e : Exc) (s : State) : State :=
  match e.bus with
  | some (b, a, isWr, size) => logAccess ⟨i, false, none⟩ a isWr size b s
  | none => s

/-- BUSCODE of an exception (R111). -/
def Exc.code (e : Exc) : Nat := match e.bus with | some (b, _) => b.code | none => 0

/-- Access to own-reach memory by core `i` through the alias: read a word. -/
def ownRead (i a size : Nat) (s : State) : State × Except BusErr Nat :=
  memTargetRead (target s i a) size ⟨i, false, none⟩ s

/-- Access to own-reach memory by core `i` through the alias: write. -/
def ownWrite (i a size v : Nat) (s : State) : State × Except BusErr Unit :=
  memTargetWrite (target s i a) size v ⟨i, false, none⟩ s

/-- Push a word on the data stack of core `i`, spilling the oldest entry when 16 are held, for one cycle (R87, R88, R102). -/
def pushData (i : Nat) (v : Word) (s : State) : State × Except Exc Unit :=
  let k := s.core i
  if k.dstack.length < 16 then (s.setCore i { k with dstack := v :: k.dstack }, .ok ()) else
  if k.dsp.toNat < k.dsl.toNat + 4 then (s, .error { cause := .dstkOvf }) else
  let a := k.dsp.toNat - 4
  match ownWrite i a 4 (k.dstack.getLastD 0).toNat s with
  | (s, .error e) => (s, .error (excBus e a true 4))
  | (s, .ok _) => (s.setCore i { k.spend 1 with dstack := v :: k.dstack.dropLast, dsp := w32 a }, .ok ())

/-- Pop the data stack of core `i`, filling one entry when none is held, for two cycles (R87, R88, R102); an empty stack with DSP above
DSB underflows as at DSB (log 114). -/
def popData (i : Nat) (s : State) : State × Except Exc Word :=
  let k := s.core i
  match k.dstack with
  | v :: t => (s.setCore i { k with dstack := t }, .ok v)
  | [] =>
    if k.dsp.toNat < k.dsb.toNat then
      match ownRead i k.dsp.toNat 4 s with
      | (s, .error e) => (s, .error (excBus e k.dsp.toNat false 4))
      | (s, .ok v) => (s.setCore i { k.spend 2 with dsp := k.dsp + 4 }, .ok (w32 v))
    else (s, .error { cause := .dstkUnf })

/-- Push a word on the return stack of core `i`, with the cost of R102; `low` is how far below RSL + 16 a spill may go: 16 for an exception
frame that may use the reserved bytes, 0 otherwise (R89). -/
def pushRet (i : Nat) (v : Word) (low : Nat) (s : State) : State × Except Exc Unit :=
  let k := s.core i
  if k.rstack.length < 32 then (s.setCore i { k with rstack := v :: k.rstack }, .ok ()) else
  if k.rsp.toNat + low < k.rsl.toNat + 20 then (s, .error { cause := .rstkOvf }) else
  let a := k.rsp.toNat - 4
  match ownWrite i a 4 (k.rstack.getLastD 0).toNat s with
  | (s, .error e) => (s, .error (excBus e a true 4))
  | (s, .ok _) => (s.setCore i { k.spend 1 with rstack := v :: k.rstack.dropLast, rsp := w32 a }, .ok ())

/-- The top entry of the return stack of core `i`, filled from memory if none is held (R89). -/
def fillRet (i : Nat) (s : State) : State × Except Exc Word :=
  let k := s.core i
  match k.rstack with
  | v :: _ => (s, .ok v)
  | [] =>
    if k.rsp.toNat < k.rsb.toNat then
      match ownRead i k.rsp.toNat 4 s with
      | (s, .error e) => (s, .error (excBus e k.rsp.toNat false 4))
      | (s, .ok v) => (s.setCore i { k.spend 2 with rstack := [w32 v], rsp := k.rsp + 4 }, .ok (w32 v))
    else (s, .error { cause := .rstkUnf })

/-- Pop the top entry of the return stack (log 114). -/
def popRet (i : Nat) (s : State) : State × Except Exc Word :=
  match fillRet i s with
  | (s, .error e) => (s, .error e)
  | (s, .ok v) => (modCore i (fun k => { k with rstack := k.rstack.tail }) s, .ok v)

/-- Push several words, first one first. -/
def pushRets (i low : Nat) : List Word → State → State × Except Exc Unit
  | [], s => (s, .ok ())
  | v :: t, s => match pushRet i v low s with
    | (s, .error e) => (s, .error e)
    | (s, .ok _) => pushRets i low t s

/-- Pop `n` words, top first. -/
def popRets (i : Nat) : Nat → State → State × Except Exc (List Word)
  | 0, s => (s, .ok [])
  | n + 1, s => match popRet i s with
    | (s, .error e) => (s, .error e)
    | (s, .ok v) => match popRets i n s with
      | (s, .error e) => (s, .error e)
      | (s, .ok t) => (s, .ok (v :: t))

/-- The marker word of a frame (R91). -/
def marker (kind level : Nat) : Word := w32 (16 * kind + 4 * level + 3)

/-- The frame of a core, from the bottom up (R91). -/
def Core.frame (k : Core) (kind : Nat) (pc : Word) : List Word := [k.bstk, k.stat, pc, marker kind k.level.val]

/-- Depth of the data stack: held entries and those in memory. -/
def Core.ddepth (k : Core) : Nat := k.dstack.length + (k.dsb.toNat - k.dsp.toNat) / 4

/-- Depth of the return stack. -/
def Core.rdepth (k : Core) : Nat := k.rstack.length + (k.rsb.toNat - k.rsp.toNat) / 4

/-- Truncate both stacks to start marks (R107): held entries go first, then entries in memory. -/
def Core.truncate (k : Core) (dm rm : Nat) : Core :=
  let dx := k.ddepth - dm
  let rx := k.rdepth - rm
  { k with dstack := k.dstack.drop dx, dsp := k.dsp + w32 (4 * (dx - k.dstack.length)),
           rstack := k.rstack.drop rx, rsp := k.rsp + w32 (4 * (rx - k.rstack.length)) }

end Sys2Proof.Machine
end

