-- ==== Sys2Proof/Machine/WeevilCode.lean ====
section
/-! DEFINITION. The Weevil instructions and their words: fields, decoding, encoding (04_weevil_instructions R117 to R138). -/

namespace Sys2Proof.Machine

/-- The three-register operations of major 0x01, but CLZ (R122, R126). -/
inductive AluOp where
  | add | sub | adc | sbc | and | or | xor | andn | shl | shr | sar | ror | mul | mulhs | mulhu | divs | divu | rems | remu
deriving DecidableEq, Repr

/-- The immediate operations with a 16-bit operand and a result register. -/
inductive ImmOp where
  | addi | andi | ori | xori
deriving DecidableEq, Repr

/-- The shifts by an immediate. -/
inductive ShiftOp where
  | shli | shri | sari | rori
deriving DecidableEq, Repr

/-- Loads and stores (R129). -/
inductive LoadOp where
  | ldw | ldh | ldhu | ldb | ldbu
deriving DecidableEq, Repr

/-- Stores (R129). -/
inductive StoreOp where
  | stw | sth | stb
deriving DecidableEq, Repr

/-- The operations of an entry of the bit nesting stack. -/
inductive NestOp where
  | and | or | xor
deriving DecidableEq, Repr

/-- One Weevil instruction with its operands. -/
inductive WOp where
  | alu (op : AluOp) (f : Bool) (d a b : Fin 16)
  | imm (op : ImmOp) (f : Bool) (d a : Fin 16) (x : BitVec 16)
  | cmpi (a : Fin 16) (x : BitVec 16)
  | lui (d : Fin 16) (x : BitVec 16)
  | shift (op : ShiftOp) (f : Bool) (d a : Fin 16) (n : Fin 32)
  | clz (d a : Fin 16)
  | bfx (sx : Bool) (d a : Fin 16) (pos lenM1 : Fin 32)
  | bfi (d a : Fin 16) (pos lenM1 : Fin 32)
  | bperm (d a b : Fin 16) (sel : BitVec 12)
  | load (op : LoadOp) (d b : Fin 16) (disp : BitVec 16)
  | store (op : StoreOp) (r b : Fin 16) (disp : BitVec 16)
  | bcc (cond : Fin 15) (disp : BitVec 22)
  | call (disp : BitVec 26)
  | jmp (a : Fin 16)
  | callr (a : Fin 16)
  | ret
  | bj (v : Bool) (disp : BitVec 22)
  | push (a : Fin 16)
  | pop (d : Fin 16)
  | bitm (fn : BitFn) (b : Fin 16) (disp : BitVec 13) (k : Fin 8)
  | bnest (op : NestOp)
  | bunnest
  | bnot
  | nop
  | fence
  | sig (a b : Fin 16)
  | done
  | trap (n : BitVec 8)
  | brk
  | rfe
  | mfc (d : Fin 16) (c : BitVec 8)
  | mtc (c : BitVec 8) (a : Fin 16)
  | icinv
deriving DecidableEq, Repr

/-! ### Codes of the tables -/

/-- FUNC of an operation of major 0x01. -/
def AluOp.func : AluOp → Nat
  | .add => 0x00 | .sub => 0x01 | .adc => 0x02 | .sbc => 0x03 | .and => 0x04 | .or => 0x05 | .xor => 0x06 | .andn => 0x07
  | .shl => 0x08 | .shr => 0x09 | .sar => 0x0A | .ror => 0x0B | .mul => 0x10 | .mulhs => 0x11 | .mulhu => 0x12
  | .divs => 0x14 | .divu => 0x15 | .rems => 0x16 | .remu => 0x17

/-- The operation of major 0x01 with a FUNC code; CLZ (0x0C) apart. -/
def AluOp.ofFunc : Nat → Option AluOp
  | 0x00 => some .add | 0x01 => some .sub | 0x02 => some .adc | 0x03 => some .sbc | 0x04 => some .and | 0x05 => some .or
  | 0x06 => some .xor | 0x07 => some .andn | 0x08 => some .shl | 0x09 => some .shr | 0x0A => some .sar | 0x0B => some .ror
  | 0x10 => some .mul | 0x11 => some .mulhs | 0x12 => some .mulhu | 0x14 => some .divs | 0x15 => some .divu
  | 0x16 => some .rems | 0x17 => some .remu | _ => none

/-- Major opcode of an immediate operation. -/
def ImmOp.major : ImmOp → Nat
  | .addi => 0x02 | .andi => 0x03 | .ori => 0x04 | .xori => 0x05

/-- Major opcode of a shift by an immediate. -/
def ShiftOp.major : ShiftOp → Nat
  | .shli => 0x08 | .shri => 0x09 | .sari => 0x0A | .rori => 0x0B

/-- Major opcode of a load. -/
def LoadOp.major : LoadOp → Nat
  | .ldw => 0x10 | .ldh => 0x11 | .ldhu => 0x12 | .ldb => 0x13 | .ldbu => 0x14

/-- Major opcode of a store. -/
def StoreOp.major : StoreOp → Nat
  | .stw => 0x18 | .sth => 0x19 | .stb => 0x1A

/-- BFN code of a bit operation. -/
def BitFn.code : BitFn → Nat
  | .bld => 0 | .bldn => 1 | .band => 2 | .bandn => 3 | .bor => 4 | .born => 5 | .bxor => 6 | .bxorn => 7 | .bst => 8
  | .bset => 9 | .brst => 10 | .bpos => 11 | .bneg => 12

/-- The bit operation with a BFN code. -/
def BitFn.ofCode : Nat → Option BitFn
  | 0 => some .bld | 1 => some .bldn | 2 => some .band | 3 => some .bandn | 4 => some .bor | 5 => some .born | 6 => some .bxor
  | 7 => some .bxorn | 8 => some .bst | 9 => some .bset | 10 => some .brst | 11 => some .bpos | 12 => some .bneg | _ => none

/-- The code of an operation of the bit nesting stack (R79). -/
def NestOp.code : NestOp → Nat
  | .and => 1 | .or => 2 | .xor => 3

/-! ### Fields of a word -/

/-- A register field. -/
def regAt (v lo : Nat) : Fin 16 := ⟨bitsOf v lo 4 % 16, Nat.mod_lt _ (by decide)⟩

/-- A five-bit field. -/
def fiveAt (v lo : Nat) : Fin 32 := ⟨bitsOf v lo 5 % 32, Nat.mod_lt _ (by decide)⟩

/-- A field as a bit vector. -/
def fieldAt (n v lo : Nat) : BitVec n := BitVec.ofNat n (bitsOf v lo n)

/-- An instruction where fields that must be 0 are 0. -/
def unless0 (reserved : Nat) (x : WOp) : Option WOp := if reserved = 0 then some x else none

/-! ### Decoding (R117 to R119): none where the word raises ILLEGAL -/

/-- Major 0x01: the register operations. -/
def decodeAlu (v : Nat) : Option WOp :=
  if bitsOf v 6 7 ≠ 0 then none
  else if bitsOf v 0 6 = 0x0C then unless0 (bitsOf v 13 5) (.clz (regAt v 22) (regAt v 18))
  else (AluOp.ofFunc (bitsOf v 0 6)).map fun op => .alu op (bitAt v 13) (regAt v 22) (regAt v 18) (regAt v 14)

/-- Format I. -/
def decodeImm (op : ImmOp) (v : Nat) : Option WOp :=
  unless0 (bitsOf v 17 1) (.imm op (bitAt v 16) (regAt v 22) (regAt v 18) (fieldAt 16 v 0))

/-- The shifts by an immediate: bits 15 to 5 of IMM16 are 0. -/
def decodeShift (op : ShiftOp) (v : Nat) : Option WOp :=
  unless0 (bitsOf v 17 1 + bitsOf v 5 11) (.shift op (bitAt v 16) (regAt v 22) (regAt v 18) (fiveAt v 0))

/-- A field that ends above bit 31 is ILLEGAL (R125). -/
def fieldFits (v : Nat) (x : WOp) : Option WOp := if bitsOf v 13 5 + bitsOf v 8 5 ≤ 31 then some x else none

/-- Major 0x22: JMP, CALLR, RET. -/
def decodeJr (v : Nat) : Option WOp :=
  match bitsOf v 0 6 with
  | 0 => unless0 (bitsOf v 22 4 + bitsOf v 6 12) (.jmp (regAt v 18))
  | 1 => unless0 (bitsOf v 22 4 + bitsOf v 6 12) (.callr (regAt v 18))
  | 2 => unless0 (bitsOf v 6 20) .ret
  | _ => none

/-- Major 0x26: PUSH, POP. -/
def decodeStk (v : Nat) : Option WOp :=
  match bitsOf v 0 6 with
  | 0 => unless0 (bitsOf v 22 4 + bitsOf v 6 12) (.push (regAt v 18))
  | 1 => unless0 (bitsOf v 6 16) (.pop (regAt v 22))
  | _ => none

/-- Major 0x2D: nesting and BNOT. -/
def decodeBitc (v : Nat) : Option WOp :=
  if bitsOf v 6 20 ≠ 0 then none else
  match bitsOf v 0 6 with
  | 0 => some (.bnest .and)
  | 1 => some (.bnest .or)
  | 2 => some (.bnest .xor)
  | 3 => some .bunnest
  | 4 => some .bnot
  | _ => none

/-- Major 0x3C: the system instructions. -/
def decodeSys (v : Nat) : Option WOp :=
  let arg : BitVec 8 := fieldAt 8 v 6
  match bitsOf v 0 6 with
  | 0 => unless0 (bitsOf v 6 20) .nop
  | 1 => unless0 (bitsOf v 6 20) .fence
  | 2 => unless0 (bitsOf v 6 8 + bitsOf v 22 4) (.sig (regAt v 18) (regAt v 14))
  | 3 => unless0 (bitsOf v 6 20) .done
  | 4 => unless0 (bitsOf v 14 12) (.trap arg)
  | 5 => unless0 (bitsOf v 6 20) .brk
  | 6 => unless0 (bitsOf v 6 20) .rfe
  | 7 => unless0 (bitsOf v 14 8) (.mfc (regAt v 22) arg)
  | 8 => unless0 (bitsOf v 14 4 + bitsOf v 22 4) (.mtc arg (regAt v 18))
  | 9 => unless0 (bitsOf v 6 20) .icinv
  | _ => none

/-- Format M. -/
def decodeMem (x : WOp) (v : Nat) : Option WOp := unless0 (bitsOf v 16 2) x

/-- The instruction of a word. -/
def decodeW (w : Word) : Option WOp :=
  let v := w.toNat
  match bitsOf v 26 6 with
  | 0x01 => decodeAlu v
  | 0x02 => decodeImm .addi v
  | 0x03 => decodeImm .andi v
  | 0x04 => decodeImm .ori v
  | 0x05 => decodeImm .xori v
  | 0x06 => unless0 (bitsOf v 22 4 + bitsOf v 16 2) (.cmpi (regAt v 18) (fieldAt 16 v 0))
  | 0x07 => unless0 (bitsOf v 16 6) (.lui (regAt v 22) (fieldAt 16 v 0))
  | 0x08 => decodeShift .shli v
  | 0x09 => decodeShift .shri v
  | 0x0A => decodeShift .sari v
  | 0x0B => decodeShift .rori v
  | 0x0C => if bitsOf v 1 7 = 0 then fieldFits v (.bfx (bitAt v 0) (regAt v 22) (regAt v 18) (fiveAt v 13) (fiveAt v 8)) else none
  | 0x0D => if bitsOf v 0 8 = 0 then fieldFits v (.bfi (regAt v 22) (regAt v 18) (fiveAt v 13) (fiveAt v 8)) else none
  | 0x0E => unless0 (bitsOf v 0 2) (.bperm (regAt v 22) (regAt v 18) (regAt v 14) (fieldAt 12 v 2))
  | 0x10 => decodeMem (.load .ldw (regAt v 22) (regAt v 18) (fieldAt 16 v 0)) v
  | 0x11 => decodeMem (.load .ldh (regAt v 22) (regAt v 18) (fieldAt 16 v 0)) v
  | 0x12 => decodeMem (.load .ldhu (regAt v 22) (regAt v 18) (fieldAt 16 v 0)) v
  | 0x13 => decodeMem (.load .ldb (regAt v 22) (regAt v 18) (fieldAt 16 v 0)) v
  | 0x14 => decodeMem (.load .ldbu (regAt v 22) (regAt v 18) (fieldAt 16 v 0)) v
  | 0x18 => decodeMem (.store .stw (regAt v 22) (regAt v 18) (fieldAt 16 v 0)) v
  | 0x19 => decodeMem (.store .sth (regAt v 22) (regAt v 18) (fieldAt 16 v 0)) v
  | 0x1A => decodeMem (.store .stb (regAt v 22) (regAt v 18) (fieldAt 16 v 0)) v
  | 0x20 => if h : bitsOf v 22 4 < 15 then some (.bcc ⟨bitsOf v 22 4, h⟩ (fieldAt 22 v 0)) else none
  | 0x21 => some (.call (fieldAt 26 v 0))
  | 0x22 => decodeJr v
  | 0x23 => unless0 (bitsOf v 22 4) (.bj true (fieldAt 22 v 0))
  | 0x24 => unless0 (bitsOf v 22 4) (.bj false (fieldAt 22 v 0))
  | 0x26 => decodeStk v
  | 0x2C => if bitsOf v 0 2 = 0 then
      (BitFn.ofCode (bitsOf v 22 4)).map fun f => .bitm f (regAt v 18) (fieldAt 13 v 5) ⟨bitsOf v 2 3 % 8, Nat.mod_lt _ (by decide)⟩ else none
  | 0x2D => decodeBitc v
  | 0x3C => decodeSys v
  | _ => none

/-! ### Encoding -/

/-- Register fields at bits 22, 18 and 14. -/
def regs3 (d a b : Fin 16) : Nat := d.val * 2 ^ 22 + a.val * 2 ^ 18 + b.val * 2 ^ 14

/-- The number a word of an instruction has. -/
def encodeNat : WOp → Nat
  | .alu op f d a b => 0x01 * 2 ^ 26 + regs3 d a b + bit f * 2 ^ 13 + op.func
  | .imm op f d a x => op.major * 2 ^ 26 + regs3 d a 0 + bit f * 2 ^ 16 + x.toNat
  | .cmpi a x => 0x06 * 2 ^ 26 + regs3 0 a 0 + x.toNat
  | .lui d x => 0x07 * 2 ^ 26 + regs3 d 0 0 + x.toNat
  | .shift op f d a n => op.major * 2 ^ 26 + regs3 d a 0 + bit f * 2 ^ 16 + n.val
  | .clz d a => 0x01 * 2 ^ 26 + regs3 d a 0 + 0x0C
  | .bfx sx d a p l => 0x0C * 2 ^ 26 + regs3 d a 0 + p.val * 2 ^ 13 + l.val * 2 ^ 8 + bit sx
  | .bfi d a p l => 0x0D * 2 ^ 26 + regs3 d a 0 + p.val * 2 ^ 13 + l.val * 2 ^ 8
  | .bperm d a b sel => 0x0E * 2 ^ 26 + regs3 d a b + sel.toNat * 2 ^ 2
  | .load op d b x => op.major * 2 ^ 26 + regs3 d b 0 + x.toNat
  | .store op r b x => op.major * 2 ^ 26 + regs3 r b 0 + x.toNat
  | .bcc c x => 0x20 * 2 ^ 26 + c.val * 2 ^ 22 + x.toNat
  | .call x => 0x21 * 2 ^ 26 + x.toNat
  | .jmp a => 0x22 * 2 ^ 26 + regs3 0 a 0
  | .callr a => 0x22 * 2 ^ 26 + regs3 0 a 0 + 1
  | .ret => 0x22 * 2 ^ 26 + 2
  | .bj v x => (if v then 0x23 else 0x24) * 2 ^ 26 + x.toNat
  | .push a => 0x26 * 2 ^ 26 + regs3 0 a 0
  | .pop d => 0x26 * 2 ^ 26 + regs3 d 0 0 + 1
  | .bitm f b x k => 0x2C * 2 ^ 26 + f.code * 2 ^ 22 + regs3 0 b 0 + x.toNat * 2 ^ 5 + k.val * 2 ^ 2
  | .bnest op => 0x2D * 2 ^ 26 + (op.code - 1)
  | .bunnest => 0x2D * 2 ^ 26 + 3
  | .bnot => 0x2D * 2 ^ 26 + 4
  | .nop => 0x3C * 2 ^ 26
  | .fence => 0x3C * 2 ^ 26 + 1
  | .sig a b => 0x3C * 2 ^ 26 + regs3 0 a b + 2
  | .done => 0x3C * 2 ^ 26 + 3
  | .trap n => 0x3C * 2 ^ 26 + n.toNat * 2 ^ 6 + 4
  | .brk => 0x3C * 2 ^ 26 + 5
  | .rfe => 0x3C * 2 ^ 26 + 6
  | .mfc d c => 0x3C * 2 ^ 26 + regs3 d 0 0 + c.toNat * 2 ^ 6 + 7
  | .mtc c a => 0x3C * 2 ^ 26 + regs3 0 a 0 + c.toNat * 2 ^ 6 + 8
  | .icinv => 0x3C * 2 ^ 26 + 9

/-- The word of an instruction. -/
def encodeW (x : WOp) : Word := w32 (encodeNat x)

/-- Whether an instruction has a word: a bit field must lie within the register (R125). -/
def WOp.encodable : WOp → Bool
  | .bfx _ _ _ p l => decide (p.val + l.val ≤ 31)
  | .bfi _ _ p l => decide (p.val + l.val ≤ 31)
  | _ => true

end Sys2Proof.Machine
end

