-- ==== Sys2Proof/Machine/Flags.lean ====
section
/-! DEFINITION. Results and flags of the Weevil's arithmetic and logic (04_weevil_instructions R120 to R128). -/

namespace Sys2Proof.Machine

/-- A result with the carry and overflow it gives; none where the flag stays as it is. -/
structure Flagged where
  r : Word
  c : Option Bool
  v : Option Bool
deriving DecidableEq, Repr

/-- add3 of the operation columns: sum, carry out of bit 31, overflow. -/
def add3 (x y : Word) (cin : Bool) : Flagged :=
  let n := x.toNat + y.toNat + bit cin
  let r := w32 n
  { r := r, c := some (decide (2 ^ 32 ≤ n)), v := some ((x.msb == y.msb) && (r.msb != x.msb)) }

/-- A result that leaves C and V. -/
def plainResult (r : Word) : Flagged := { r := r, c := none, v := none }

/-- A shift left by `n` (R122, R123). -/
def shiftL (a : Word) (n : Nat) : Flagged := { r := a <<< n, c := if n = 0 then none else some (a.getLsbD (32 - n)), v := none }

/-- A shift right with zero fill. -/
def shiftR (a : Word) (n : Nat) : Flagged := { r := a >>> n, c := if n = 0 then none else some (a.getLsbD (n - 1)), v := none }

/-- A shift right with sign fill. -/
def shiftS (a : Word) (n : Nat) : Flagged := { r := a.sshiftRight n, c := if n = 0 then none else some (a.getLsbD (n - 1)), v := none }

/-- A rotation right. -/
def rotR (a : Word) (n : Nat) : Flagged :=
  let r := a.rotateRight n
  { r := r, c := if n = 0 then none else some r.msb, v := none }

/-- A division's result: C 1 for a division by zero, V 1 for signed overflow (R128). -/
def divResult (r : Word) (zero large : Bool) : Flagged := { r := r, c := some zero, v := some large }

/-- Signed or unsigned division and remainder with the corner cases of R128. -/
def divide (sgn rem : Bool) (a b : Word) : Flagged :=
  if b = 0 then divResult (if rem then a else 0xFFFFFFFF) true false
  else if sgn ∧ a = 0x80000000 ∧ b = 0xFFFFFFFF then divResult (if rem then 0 else 0x80000000) false true
  else if sgn then divResult (BitVec.ofInt 32 (if rem then Int.tmod a.toInt b.toInt else Int.tdiv a.toInt b.toInt)) false false
  else divResult (w32 (if rem then a.toNat % b.toNat else a.toNat / b.toNat)) false false

/-- The result of a register operation with operands `a` and `b` and carry `c`. -/
def AluOp.apply (op : AluOp) (a b : Word) (c : Bool) : Flagged :=
  let n := b.toNat % 32
  match op with
  | .add => add3 a b false
  | .sub => add3 a (~~~b) true
  | .adc => add3 a b c
  | .sbc => add3 a (~~~b) c
  | .and => plainResult (a &&& b)
  | .or => plainResult (a ||| b)
  | .xor => plainResult (a ^^^ b)
  | .andn => plainResult (a &&& ~~~b)
  | .shl => shiftL a n
  | .shr => shiftR a n
  | .sar => shiftS a n
  | .ror => rotR a n
  | .mul => plainResult (w32 (a.toNat * b.toNat))
  | .mulhs => plainResult (BitVec.ofInt 32 (a.toInt * b.toInt / 2 ^ 32))
  | .mulhu => plainResult (w32 (a.toNat * b.toNat / 2 ^ 32))
  | .divs => divide true false a b
  | .divu => divide false false a b
  | .rems => divide true true a b
  | .remu => divide false true a b

/-- The result of an immediate operation. -/
def ImmOp.apply (op : ImmOp) (a : Word) (x : BitVec 16) : Flagged :=
  match op with
  | .addi => add3 a (x.signExtend 32) false
  | .andi => plainResult (a &&& x.setWidth 32)
  | .ori => plainResult (a ||| x.setWidth 32)
  | .xori => plainResult (a ^^^ x.setWidth 32)

/-- The result of a shift by an immediate. -/
def ShiftOp.apply (op : ShiftOp) (a : Word) (n : Nat) : Flagged :=
  match op with
  | .shli => shiftL a n
  | .shri => shiftR a n
  | .sari => shiftS a n
  | .rori => rotR a n

/-- The flags after an operation that updates them (R121). -/
def Core.flag (k : Core) (x : Flagged) : Core :=
  { k with n := x.r.msb, z := x.r == 0, c := x.c.getD k.c, v := x.v.getD k.v }

/-- The flags where F is 1 (R120). -/
def Core.flagIf (f : Bool) (x : Flagged) (k : Core) : Core := if f then k.flag x else k

/-- Bits of the highest 1-bit of a number that is not 0. -/
def msbOf (n : Nat) : Nat := Nat.log2 n

/-- CLZ (R124). -/
def clz (a : Word) : Word := if a = 0 then 32 else w32 (31 - msbOf a.toNat)

/-- Cycles of an operation of major 0x01: divides as R127 gives, else 1. -/
def AluOp.cycles (op : AluOp) (a b : Word) : Nat :=
  let run := fun (x y : Nat) => max 12 (2 + (if x = 0 ∨ y = 0 ∨ x < y then 0 else msbOf x - msbOf y + 1))
  match op with
  | .divs | .rems => run a.toInt.natAbs b.toInt.natAbs
  | .divu | .remu => run a.toNat b.toNat
  | _ => 1

/-- BFX and BFXS (R124). -/
def bitField (sx : Bool) (a : Word) (pos lenM1 : Nat) : Word :=
  let len := lenM1 + 1
  let x := bitsOf a.toNat pos len
  if sx then BitVec.ofInt 32 (signed len x) else w32 x

/-- BFI (R124). -/
def insertField (d a : Word) (pos lenM1 : Nat) : Word := w32 (putBits d.toNat pos (lenM1 + 1) a.toNat)

/-- BPERM (R124): byte `k` of the result is the source byte that selector `k` names. -/
def permute (a b : Word) (sel : BitVec 12) : Word :=
  let src := fun (k : Nat) => if k < 4 then bitsOf a.toNat (8 * k) 8 else bitsOf b.toNat (8 * (k - 4)) 8
  w32 ((List.range 4).foldl (fun v k => v + src (bitsOf sel.toNat (3 * k) 3) * 2 ^ (8 * k)) 0)

/-- Whether a condition holds (R131). -/
def Core.holds (k : Core) (cond : Fin 15) : Bool :=
  match cond.val with
  | 0 => k.z | 1 => !k.z | 2 => k.c | 3 => !k.c | 4 => k.n | 5 => !k.n | 6 => k.v | 7 => !k.v
  | 8 => k.c && !k.z | 9 => !k.c || k.z | 10 => k.n == k.v | 11 => k.n != k.v | 12 => !k.z && k.n == k.v
  | 13 => k.z || k.n != k.v | _ => true

end Sys2Proof.Machine
end

