-- ==== Sys2Proof/Machine/Crypto.lean ====
section
/-! DEFINITION. The algorithms of the signed image and of attestation that 18_startup R471 to R478 names: SHA-256 and ECDSA
over P-256 (log 10). -/

namespace Sys2Proof.Machine

/-! ### Bytes as numbers -/

/-- The value of bytes, most significant first. -/
def beVal (bs : List Byte) : Nat := bs.foldl (fun v b => 256 * v + b.toNat) 0

/-- `n` bytes of a value, most significant first. -/
def beOf (n v : Nat) : List Byte := (List.range n).map fun k => b8 (v / 256 ^ (n - 1 - k))

/-! ### SHA-256

The algorithm's constants are the first 32 bits of the fractions of roots of primes, and are computed so. Its eight working variables
are the last four values of two sequences, each kept newest first. -/

/-- The first `n` primes, all below 312. -/
def firstPrimes (n : Nat) : List Nat :=
  ((List.range 312).filter fun p => decide (2 ≤ p) && (List.range p).all fun d => decide (d < 2) || p % d != 0).take n

/-- 32 bits of the fraction of the `k`-th root of `p`. -/
def rootFraction (k p : Nat) : Word :=
  w32 ((List.range 36).foldl (fun r i => if (r + 2 ^ (35 - i)) ^ k ≤ p * 2 ^ (32 * k) then r + 2 ^ (35 - i) else r) 0)

/-- The sum of three rotations of a word to the right, bit by bit modulo 2. -/
def turned (i j k : Nat) (w : Word) : Word := w.rotateRight i ^^^ w.rotateRight j ^^^ w.rotateRight k

/-- The two sequences, as far as a block's rounds have brought them. -/
structure Sha where
  fore : List Word
  aft : List Word
deriving DecidableEq, Repr

/-- The sequences before the first block. -/
def Sha.init : Sha :=
  let l := (firstPrimes 8).map (rootFraction 2)
  { fore := l.take 4, aft := l.drop 4 }

/-- One round, with the sum of its constant and its word of the message. -/
def Sha.round (x : Sha) (kw : Word) : Sha :=
  match x.fore, x.aft with
  | [p0, p1, p2, p3], [q0, q1, q2, q3] =>
    let t := q3 + kw + turned 6 11 25 q0 + ((q0 &&& q1) ||| (~~~q0 &&& q2))
    { fore := [t + turned 2 13 22 p0 + ((p0 &&& (p1 ||| p2)) ||| (p1 &&& p2)), p0, p1, p2], aft := [p3 + t, q0, q1, q2] }
  | _, _ => x

/-- The words of a block for its rounds, newest first: `n` more than are given. -/
def shaWords : Nat → List Word → List Word
  | 0, ws => ws
  | n + 1, ws =>
    let old := ws.getD 14 0
    let new := ws.getD 1 0
    shaWords n ((ws.getD 15 0 + ws.getD 6 0 + (old.rotateRight 7 ^^^ old.rotateRight 18 ^^^ old >>> 3)
      + (new.rotateRight 17 ^^^ new.rotateRight 19 ^^^ new >>> 10)) :: ws)

/-- One block of 64 bytes: its rounds, and the sum of each sequence before and after them. -/
def Sha.block (ks : List Word) (x : Sha) (bs : List Byte) : Sha :=
  let first := (List.range 16).map fun k => w32 (beVal ((bs.drop (4 * k)).take 4))
  let y := (ks.zipWith (· + ·) (shaWords 48 first.reverse).reverse).foldl Sha.round x
  { fore := x.fore.zipWith (· + ·) y.fore, aft := x.aft.zipWith (· + ·) y.aft }

/-- A message of whole bytes with a one bit, zeros and its length in bits behind it. -/
def padded (bs : List Byte) : List Byte :=
  bs ++ 0x80 :: List.replicate ((119 - bs.length % 64) % 64) 0 ++ beOf 8 (8 * bs.length)

/-- SHA-256 of a message, as a 256-bit number whose first byte is the most significant (log 10). -/
def sha256 (bs : List Byte) : Nat :=
  let m := padded bs
  let ks := (firstPrimes 64).map (rootFraction 3)
  let x := (List.range (m.length / 64)).foldl (fun x i => x.block ks ((m.drop (64 * i)).take 64)) Sha.init
  (x.fore ++ x.aft).foldl (fun v w => 2 ^ 32 * v + w.toNat) 0

/-! ### ECDSA over P-256 -/

/-- The prime of the field. -/
def p256 : Nat := 2 ^ 256 - 2 ^ 224 + 2 ^ 192 + 2 ^ 96 - 1

/-- The order of the base point. -/
def n256 : Nat := 0xffffffff00000000ffffffffffffffffbce6faada7179e84f3b9cac2fc632551

/-- The coefficient b of the curve. -/
def b256 : Nat := 0x5ac635d8aa3a93e7b3ebbd55769886bc651d06b0cc53b0f63bce3c3e27d2604b

/-- The base point. -/
def g256 : Nat × Nat :=
  (0x6b17d1f2e12c4247f8bce6e563a440f277037d812deb33a0f4a13945d898c296,
   0x4fe342e2fe1a7f9b8ee7eb4a7c0f9e162bce33576b315ececbb6406837bf51f5)

/-- `a ^ e` modulo `m`, over the low 256 bits of `e`. -/
def powMod (a e m : Nat) : Nat :=
  (List.range 256).foldl (fun acc k => let sq := acc * acc % m
    if bitAt e (255 - k) then sq * a % m else sq) 1

/-- The inverse modulo a prime. -/
def invMod (a m : Nat) : Nat := powMod a (m - 2) m

/-- The sum of two points; none is the point at infinity. -/
def ecAdd (x y : Option (Nat × Nat)) : Option (Nat × Nat) :=
  match x, y with
  | none, q => q
  | q, none => q
  | some (x1, y1), some (x2, y2) =>
    let p := p256
    if x1 = x2 ∧ (y1 + y2) % p = 0 then none else
    let l := if x1 = x2 ∧ y1 = y2 then (3 * x1 * x1 + (p - 3)) * invMod (2 * y1 % p) p % p
      else (y2 + (p - y1)) * invMod ((x2 + (p - x1)) % p) p % p
    let x3 := (l * l + (p - x1) + (p - x2)) % p
    some (x3, (l * (x1 + (p - x3)) + (p - y1)) % p)

/-- A multiple of a point, over the low 256 bits of the factor. -/
def ecMul (k : Nat) (q : Nat × Nat) : Option (Nat × Nat) :=
  (List.range 256).foldl (fun acc j => let d := ecAdd acc acc
    if bitAt k (255 - j) then ecAdd d (some q) else d) none

/-- Whether a public key is a point of the curve. -/
def ecOn (q : Nat × Nat) : Bool :=
  decide (q.1 < p256 ∧ q.2 < p256 ∧ q.2 * q.2 % p256 = (q.1 * q.1 * q.1 + (p256 - 3) * q.1 + b256) % p256)

/-- ECDSA verification of a hash (log 10). -/
def ecdsaOk (q : Nat × Nat) (hash r s : Nat) : Bool :=
  if !ecOn q ∨ r = 0 ∨ n256 ≤ r ∨ s = 0 ∨ n256 ≤ s then false else
  let w := invMod s n256
  match ecAdd (ecMul (hash * w % n256) g256) (ecMul (r * w % n256) q) with
  | none => false
  | some (x, _) => x % n256 == r

/-- An ECDSA signature of a hash with a key and a nonce. -/
def ecdsaSign (key hash nonce : Nat) : Nat × Nat :=
  let k := nonce % (n256 - 1) + 1
  let r := (match ecMul k g256 with | some (x, _) => x | none => 0) % n256
  (r, invMod k n256 * (hash + r * key) % n256)

end Sys2Proof.Machine
end

