-- ==== Sys2Proof/Machine/Lkp.lean ====
section
/-! DEFINITION. The Lockkeeper: ready set, choice, dispatch, wake, offers, tokens, sources, delay list
(07_lockkeeper R222 to R243; 03_weevil_core R104). -/

namespace Sys2Proof.Machine

/-! ### Dispatch (R104, R222) -/

/-- The register bank of a level at dispatch: w1, w2 the arguments, w3 to w15 zero (R104). -/
def bankAtDispatch (w : Vector Word 64) (level : Fin 4) (a1 a2 : Word) : Vector Word 64 :=
  Vector.ofFn fun i => if i.val / 16 = level.val then
    (if i.val % 16 = 1 then a1 else if i.val % 16 = 2 then a2 else 0) else w.get i

/-- A core starts a work item at a level (R104). -/
def Core.start (k : Core) (level : Fin 4) (r : Running) (entry a1 a2 : Word) : Core :=
  { k with st := .run, level := level, w := bankAtDispatch k.w level a1 a2, pc := entry &&& ~~~3#32,
           sup := entry.getLsbD 0, ie := true, bacc := false, bopen := false, bstk := 0, n := false, z := false,
           c := false, v := false, item := w32 r.ident,
           items := k.items.set level.val (some { r with dmark := k.ddepth, rmark := k.rdepth }) level.isLt }

/-- Remove an item from the ready set, and any offer of it. -/
def unready (x : Ready) (s : State) : State :=
  modLkp (fun l => { l with ready := l.ready.filter (fun y => !y.is x.role x.seg x.index),
                            offers := l.offers.filter (fun o => !o.2.is x.role x.seg x.index) }) s

/-- An item lost when the Lockkeeper cannot read its segment descriptor or mask; control stops (R530). -/
def segmentLost (x : Ready) (s : State) : State :=
  let s := raise A.LKP_EVT 4 (trace .lost (x.traced 0 0) 0 (satF F.LKP_LOST_COUNT 1 s))
  controlStop .ecc (some x.task) s

/-- The slot counts of an entry after a dispatch: each needed slot falls by 1 (R225). -/
def Entry.take (e : Entry) : Entry :=
  { e with running := true, counts := Vector.ofFn fun k => if bitAt e.desc.need k.val then e.counts.get k - 1 else e.counts.get k }

/-- Hand an item to core `i` at a level; false where its segment descriptor cannot be read. -/
def handOver (x : Ready) (i : Nat) (level : Fin 4) (kind : Kind) (s : State) : State × Bool :=
  let s := unready x s
  let wait := time s - x.since
  let run : Running := { ident := itemId x.role x.seg x.task x.index, group := x.group, segment := none, windows := [], dmark := 0, rmark := 0, start := time s, trc := x.trc, counted := true }
  if x.seg then
    let s := modLkp (fun l => { l with store := l.store.filter fun e => !e.is x.role true x.index }) s
    match readSegment 48 x.role x.index s with
    | (s, .error _) => (segmentLost x s, false)
    | (s, .ok (entry, win0, wins)) =>
      let base := taskF s x.task (F.SCN_TASK_CTX_LINE x.task) * 64 + 0x40
      let run := { run with segment := some (x.task, x.index), windows := wins.map (·.2) }
      (modCore i (fun k => k.start level run entry (w32 base) (w32 win0)) (trace kind (x.traced (i % 8) level.val) wait s), true)
  else
    match s.lkp.store.find? (·.is x.role false x.index) with
    | none => (s, true)
    | some e =>
      let put := fun (y : Entry) => if y.is x.role false x.index then e.take else y
      let s := modLkp (fun l => { l with store := l.store.map put }) s
      (modCore i (fun k => k.start level run e.desc.entry e.desc.arg (e.values.get 0)) (trace kind (x.traced (i % 8) level.val) wait s), true)

/-! ### Choosing (R234) -/

/-- PRIO of a group. -/
def prio (s : State) (g : Nat) : Nat := getF s (F.LKP_GRP_CFG_PRIO g)

/-- The items core `i` may take now: those of its reach's role whose affinity allows it (R234). -/
def eligible (s : State) (i : Nat) : List Ready :=
  match roleOf s (i / 8) with
  | some r => s.lkp.ready.filter fun x => x.role == r && bitAt x.aff (i % 8)
  | none => []

/-- The class chosen among eligible items. -/
def topClass (s : State) (xs : List Ready) : Nat := xs.foldl (fun p x => max p (prio s x.group)) 0

/-- Credits after a refill of class `p` where no eligible group of it has credit (R234). -/
def refill (s : State) (xs : List Ready) (p : Nat) : Vector Nat 16 :=
  let cr := s.lkp.credit
  if (List.finRange 16).any fun g => prio s g.val == p && xs.any (·.group == g.val) && decide (0 < cr.get g) then cr
  else Vector.ofFn fun g => if prio s g.val = p then getF s (F.LKP_GRP_CFG_WEIGHT g.val) else cr.get g

/-- The group chosen: the first eligible group of the class with credit after the last chosen one (R234). -/
def pickGroup (s : State) (xs : List Ready) (p : Nat) (cr : Vector Nat 16) : Option (Fin 16) :=
  let l := s.lkp.last[p % 4]'(Nat.mod_lt _ (by decide))
  ((List.finRange 16).map fun k => (⟨(l + 1 + k.val) % 16, Nat.mod_lt _ (by decide)⟩ : Fin 16)).find? fun g =>
    prio s g.val == p && xs.any (·.group == g.val) && decide (0 < cr.get g)

/-- The choice of R234 for core `i`: the item, with credits and last-chosen group updated. -/
def chooseItem (i : Nat) (s : State) : State × Option Ready :=
  let xs := eligible s i
  if xs.isEmpty then (s, none) else
  let p := topClass s xs
  let cr := refill s xs p
  match pickGroup s xs p cr with
  | none => (s, none)
  | some g =>
    (modLkp (fun l => { l with credit := cr.set g.val (cr.get g - 1) g.isLt, last := l.last.set (p % 4) g.val (Nat.mod_lt _ (by decide)) }) s,
     xs.find? (·.group == g.val))

/-- Whether the items of a reach may be dispatched: it is WET and not parked, no DRAIN is requested on it, no device reset is under way
(R243, R204, R500). -/
def reachOpen (s : State) (n : Nat) : Bool :=
  reachState s n == 0 && s.rot.draining != some n && (match s.rot.window with | some (a, b) => n != a && n != b | none => true)
    && !((s.rot.gap.getD []).any fun r => reachOf s r == n) && getF s (F.RCH_PWR_PSTATE n) == 0
    && !s.faults.wedged

/-- Whether the Lockkeeper dispatches to a reach: the reach is open to it, and no slice holds the Lockkeeper (R489). -/
def dispatches (s : State) (n : Nat) : Bool := reachOpen s n && !frozen s 1

/-- A core becomes IDLE and waits for WAKE. -/
def goIdle (i : Nat) (s : State) : State :=
  let s := modCore i (fun k => { k with st := .idle }) s
  modLkp (fun l => { l with idle := l.idle.filter (· != i) ++ [i] }) s

/-- A core asks for work (R107, R234): it receives an item at level 0 or goes IDLE. `fuel` bounds the items lost to
unreadable descriptors on the way. -/
def askWork (i : Nat) : Nat → State → State
  | 0, s => goIdle i s
  | f + 1, s =>
    if dispatches s (i / 8) then
      match chooseItem i s with
      | (s, none) => goIdle i s
      | (s, some x) =>
        let s := modLkp (fun l => { l with idle := l.idle.filter (· != i) }) s
        match handOver x i 0 .dispatch s with
        | (s, true) => s
        | (s, false) => askWork i f s
    else goIdle i s

/-! ### Waking and preemption (R236, R237) -/

/-- The PRIO of the item at a core's top level. -/
def topPrio (s : State) (i : Nat) : Option Nat :=
  let k := s.core i
  (k.items.get k.level).map fun r => prio s r.group

/-- The cores an item may be offered to (R237). -/
def offerCores (s : State) (x : Ready) (n : Nat) : List (Nat × Nat × Nat) :=
  (List.range 8).filterMap fun c =>
    let i := 8 * n + c
    let k := s.core i
    match topPrio s i with
    | some p =>
      if bitAt x.aff c ∧ k.st = .run ∧ !k.drainReq ∧ k.ie ∧ k.level.val < 3 ∧ p < prio s x.group ∧ !(s.lkp.offers.any (·.1 == i)) then
        some (p, k.level.val, i) else none
    | none => none

/-- The least of the candidates: lowest PRIO, then lowest LEVEL, then lowest core number (R237). -/
def leastCore : List (Nat × Nat × Nat) → Option (Nat × Nat × Nat)
  | [] => none
  | x :: t => match leastCore t with
    | none => some x
    | some y => if x.1 < y.1 ∨ (x.1 = y.1 ∧ (x.2.1 < y.2.1 ∨ (x.2.1 = y.2.1 ∧ x.2.2 < y.2.2))) then some x else some y

/-- A ready item of a group with PREEMPT is offered to a core of reach `n` that may take it, if any (R237). -/
def offer (x : Ready) (n : Nat) (s : State) : State :=
  if isSet s (F.LKP_GRP_CFG_PREEMPT x.group) then
    match leastCore (offerCores s x n) with
    | some (_, _, i) => modLkp (fun l => { l with offers := l.offers ++ [(i, x)] }) s
    | none => s
  else s

/-- A ready item of the role that reach `n` holds is offered anew where no offer of it stands (R238). -/
def offerAgain (n : Nat) (x : Ready) (s : State) : State :=
  if roleOf s n = some x.role ∧ dispatches s n ∧ (s.lkp.ready.any (·.is x.role x.seg x.index))
      ∧ !(s.lkp.offers.any (·.2.is x.role x.seg x.index)) then offer x n s else s

/-- Core `i` asks for work: the offers of its role it can take, and any offer to itself, are withdrawn, it makes its choice,
and the items then still ready are offered anew (R234, R238). The ready set bounds the items the request may lose (log 23). -/
def requestWork (i : Nat) (s : State) : State :=
  let gone := s.lkp.offers.filter fun o => o.1 == i || (roleOf s (i / 8) == some o.2.role && bitAt o.2.aff (i % 8))
  let s := modLkp (fun l => { l with offers := l.offers.filter fun o => !gone.contains o }) s
  each gone (fun o => offerAgain (i / 8) o.2) (askWork i (s.lkp.ready.length + 1) s)

/-- An item has become ready: it wakes the eligible core idle longest, or is offered, or is held (R236, R237, R243) (log 23). While a
slice holds the Lockkeeper, this waits for its end (R489). -/
def announce (x : Ready) (s : State) : State :=
  let n := reachOf s x.role
  if 5 ≤ n then s else
  let s := wakeReach n s
  if frozen s 1 ∧ reachOpen s n then s
  else if !dispatches s n then
    trace .hold { role := x.role, group := x.group, seg := x.seg, index := x.index, task := x.task, trc := x.trc }
      (s.lkp.ready.filter (·.role == x.role)).length s
  else match s.lkp.idle.find? fun i => i / 8 == n && bitAt x.aff (i % 8) with
    | some i => requestWork i s
    | none => offer x n s

/-- Put an item into the ready set and announce it. -/
def becomeReady (x : Ready) (s : State) : State :=
  announce x (modLkp (fun l => { l with ready := l.ready ++ [x] }) s)

/-! ### Tokens and the matching store (R224 to R227) -/

/-- Whether every needed slot of an entry holds a token. -/
def Entry.full (e : Entry) : Bool := (List.finRange 8).all fun k => !bitAt e.desc.need k.val || decide (1 ≤ e.counts.get k)

/-- Whether every slot count of an entry is 0. -/
def Entry.clear (e : Entry) : Bool := (List.finRange 8).all fun k => e.counts.get k == 0

/-- The ready item of an entry. -/
def Entry.toReady (e : Entry) (task since : Nat) : Ready :=
  { role := e.role, seg := e.seg, index := e.index, task := task, aff := e.desc.aff, group := e.desc.group, trc := e.desc.trc,
    since := since, starved := false }

/-- A token reaches a slot: the count rises to at most 15, the value is kept (R225). -/
def Entry.put (e : Entry) (slot : Fin 8) (v : Word) : Entry :=
  { e with counts := e.counts.set slot.val (min 15 (e.counts.get slot + 1)) slot.isLt, values := e.values.set slot.val v slot.isLt }

/-- A new entry. -/
def Entry.new (role : Nat) (seg : Bool) (index : Nat) (d : ItemDesc) : Entry :=
  { role := role, seg := seg, index := index, desc := d, counts := Vector.replicate 8 0, values := Vector.replicate 8 0, running := false }

/-- Store an entry in place of the one of the same item, or as a new one; LIVEMAX follows (R227). -/
def putEntry (e : Entry) (s : State) : State :=
  let s := if s.lkp.store.any (·.is e.role e.seg e.index) then
      modLkp (fun l => { l with store := l.store.map fun y => if y.is e.role e.seg e.index then e else y }) s
    else modLkp (fun l => { l with store := l.store ++ [e] }) s
  if getF s F.LKP_HWM_LIVEMAX < s.lkp.store.length then setF F.LKP_HWM_LIVEMAX s.lkp.store.length s else s

/-- The slot number of a token as an index. -/
def Token.at (t : Token) : Fin 8 := ⟨t.slot % 8, Nat.mod_lt _ (by decide)⟩

/-- A token of a segment item is matched (R225, R226); false where the full store stalls it, or its mask cannot be read yet (log 119). -/
def matchSegment (t : Token) (s : State) : State × Bool :=
  if t.slot = 0 then (badToken t.hw t.src t.dst s, true) else
  match s.lkp.opened.find? fun o => o.role == t.role && segOf s o.task t.index with
  | none => (s, true)
  | some o =>
    if roleAway s t.role then (wakeRole t.role s, false) else
    let ready0 : Ready := { role := t.role, seg := true, index := t.index, task := o.task, aff := 0xFF, group := segGroup s o.task, trc := false, since := time s, starved := false }
    match readMask t.role t.index s with
    | (s, .error _) => (segmentLost ready0 s, true)
    | (s, .ok mask) =>
      if !bitAt mask t.slot then (badToken t.hw t.src t.dst s, true)
      else if o.seen.contains (t.index, t.slot) then (s, true)
      else
        let old := s.lkp.store.find? (·.is t.role true t.index)
        if old.isNone ∧ 4096 ≤ s.lkp.store.length then (s, false) else
        let d : ItemDesc := { entry := 0, arg := 0, aff := 0xFF, group := ready0.group, need := mask, trc := false }
        let e := (old.getD ((Entry.new t.role true t.index d).put 0 0)).put t.at t.value
        let note := fun (p : OpenTask) => if p.task == o.task && p.role == o.role then { p with seen := (t.index, t.slot) :: p.seen } else p
        let s := putEntry e (modLkp (fun l => { l with opened := l.opened.map note }) s)
        (if e.full then becomeReady ready0 s else s, true)

/-- A token joins the overflow queue; false where that is full (R227). -/
def queueToken (t : Token) (s : State) : State × Bool :=
  if s.lkp.overflow.length < 64 then (modLkp (fun l => { l with overflow := l.overflow ++ [t] }) s, true) else (s, false)

/-- A token of a general item is matched (R224, R225, R227); false where neither the store nor the overflow queue has
room for it, or its descriptor cannot be read yet (log 119). Tokens that need a new entry are matched in arrival order: one that arrives
while others wait joins them. -/
def matchGeneral (t : Token) (queued : Bool) (s : State) : State × Bool :=
  if 4095 < t.index then (badToken t.hw t.src t.dst s, true) else
  match s.lkp.store.find? (·.is t.role false t.index) with
  | some e =>
    if !bitAt e.desc.need t.slot then (badToken t.hw t.src t.dst s, true) else
    let s := if e.counts.get t.at = 15 then raise A.LKP_EVT 1 s else s
    let e' := e.put t.at t.value
    let s := putEntry e' s
    (if e'.full ∧ !e'.running ∧ !(s.lkp.ready.any (·.is t.role false t.index)) then becomeReady (e'.toReady 0 (time s)) s else s, true)
  | none =>
    if roleAway s t.role then (wakeRole t.role s, false) else
    match readItem t.role t.index s with
    | (s, .error _) => (badToken t.hw t.src t.dst s, true)
    | (s, .ok none) => (badToken t.hw t.src t.dst s, true)
    | (s, .ok (some d)) =>
      if !bitAt d.need t.slot then (badToken t.hw t.src t.dst s, true) else
      let gens := (s.lkp.store.filter fun e => !e.seg).length
      if getF s F.LKP_CTL_GENMAX ≤ gens ∨ 4096 ≤ s.lkp.store.length ∨ (!queued ∧ !s.lkp.overflow.isEmpty) then
        if queued then (s, false) else queueToken t s
      else
        let e := (Entry.new t.role false t.index d).put t.at t.value
        let s := putEntry e s
        (if e.full then becomeReady (e.toReady 0 (time s)) s else s, true)

/-- A token reaches the matching store; false where it must wait, as all do while a slice holds the Lockkeeper (R489). -/
def matchToken (t : Token) (s : State) : State × Bool :=
  if frozen s 1 then (s, false) else if t.seg then matchSegment t s else matchGeneral t false s

/-- Place a token on the delay list (R240, R241). -/
def delayToken (i : Nat) (t : Token) (s : State) : State :=
  if 1024 ≤ s.lkp.delay.length then raise A.LKP_EVT 2 s else
  let d := min (max t.value.toNat 1) 16777215
  let due := (time s + 1000 * d + 999) / 1000 * 1000
  let x : Delayed := { dst := w32 (putBits (putBits t.dst.toNat 29 1 0) 27 2 t.role), role := t.role, src := i, due := due }
  let before := s.lkp.delay.filter fun y => decide (y.due ≤ due)
  let after := s.lkp.delay.filter fun y => decide (due < y.due)
  let s := modLkp (fun l => { l with delay := before ++ x :: after }) s
  if getF s F.LKP_HWM_DLYMAX < s.lkp.delay.length then setF F.LKP_HWM_DLYMAX s.lkp.delay.length s else s

/-- The Lockkeeper accepts the oldest token of core `i`'s SIG port (R225, R240); a token that must wait stays. A token behind one of
the same core that waits in the overflow queue waits there too, so that the core's tokens are matched in order (R229). -/
def acceptToken (i : Nat) (s : State) : State :=
  match s.lkp.ports[i % 40]'(Nat.mod_lt _ (by decide)) with
  | [] => s
  | (dst, v, own) :: t =>
    let put := fun (l : List (Word × Word × Option Nat)) => modLkp (fun x => { x with ports := x.ports.set (i % 40) l (Nat.mod_lt _ (by decide)) })
    let s1 := put t s
    match tokenOf i dst v own with
    | none => badToken false i dst s1
    | some tok =>
      if bitAt dst.toNat 30 then delayToken i tok s1 else
      match (if s.lkp.overflow.any fun o => !o.hw && o.src == i then queueToken tok s1 else matchToken tok s1) with
      | (u, true) => u
      | (u, false) => put ((dst, v, own) :: t) u

/-- Tokens of the overflow queue are matched in arrival order while entries are free (R227). -/
def matchOverflow (s : State) : State :=
  match s.lkp.overflow with
  | [] => s
  | t :: rest =>
    match (if t.seg then matchSegment t s else matchGeneral t true s) with
    | (s, true) => modLkp (fun l => { l with overflow := if l.overflow.head? = some t then rest else l.overflow }) s
    | (s, false) => s

/-- A general item's instance has ended: its entry is freed where no slot holds a token, ready again where all do (R225, R227) (log 48). -/
def generalDone (role index : Nat) (s : State) : State :=
  match s.lkp.store.find? (·.is role false index) with
  | none => s
  | some e =>
    let e := { e with running := false }
    let s := modLkp (fun l => { l with store := (l.store.map fun y => if y.is role false index then e else y).filter fun y =>
      !(y.is role false index && y.clear) }) s
    if e.full then becomeReady (e.toReady 0 (time s)) s else s

/-! ### Sources (R230) -/

/-- Whether source `k` is pending. -/
def isPending (s : State) (k : Nat) : Bool := isSet s ⟨A.LKP_PEND (k / 32), k % 32, 1⟩

/-- Entries waiting in the receive ring of CAN port `n` (R390): 9 words of 8 bytes each. -/
def canEntries (s : State) (n : Nat) : Nat :=
  let k := 16 * 2 ^ (min (getF s (F.CAN_RXRING_SIZE n)) 6 + 3)
  (getF s (F.CAN_RXWP_INDEX n) % k + k - getF s (F.CAN_RXRP_INDEX n) % k) % k / 9

/-- The value source `k` has at acceptance (R231): what the block shows then, or, for a compare time, a transmit status and a claimant,
what the last event gave. -/
def sourceValue (s : State) (k : Nat) : Word :=
  if 64 ≤ k ∧ k < 128 then w32 (mbWaiting s (k - 64))
  else if 128 ≤ k ∧ k < 160 then w32 (getF s (F.BAS_RX_STAT_COUNT (k - 128)))
  else if 192 ≤ k ∧ k < 208 ∧ k % 2 = 0 then w32 (canEntries s ((k - 192) / 2))
  else if 256 ≤ k ∧ k < 512 then w32 (getF s (F.TOW_STN_STATE (k - 256)))
  else if k = 512 ∨ k = 513 then rd s A.TOW_CYCNT
  else if 520 ≤ k ∧ k < 536 then rd s (A.BTL_ENG_STAT ((k - 520) / 8) ((k - 520) % 8))
  else if k = 544 then w32 s.fio.edges.length
  else if k = 545 then w32 (getF s F.FIO_STATUS_LINK)
  else if k = 546 then w32 (getF s F.FIO_AIROUND_ROUND)
  else if 576 ≤ k ∧ k < 608 then rd s (A.SCN_TASK_CYCNO (k - 576))
  else if 640 ≤ k ∧ k < 704 then
    match ((List.range 0x60).map (· + 0x6000)).find? fun hi => (blockAt (hi * 0x10000)).isSome && outSource hi == k with
    | some hi =>
      let seqs := (evtOffsets hi).map fun o => getF s ⟨hi * 0x10000 + o, 24, 8⟩
      w32 (seqs.headD 0 + 256 * (seqs.drop 1).headD 0)
    | none => 0
  else if 768 ≤ k then 0
  else (SMap.get? s.lkp.srcVal k).getD 0

/-- The routed token of source `k` (R230). -/
def sourceToken (s : State) (k : Nat) : Token :=
  let role := getF s (F.LKP_ROUTE_ROLE k)
  let slot := getF s (F.LKP_ROUTE_SLOT k)
  let index := getF s (F.LKP_ROUTE_INDEX k)
  { role := role, seg := false, slot := slot, index := index, dst := w32 (role * 2 ^ 27 + slot * 2 ^ 24 + index), value := sourceValue s k, hw := true, src := k }

/-- Of sources in ascending order, the first pending one that needs no overflow slot, or finds one free, is accepted (R230). -/
def acceptFrom : List Nat → State → State
  | [], s => s
  | k :: ks, s =>
    if !isPending s k then acceptFrom ks s else
    let clear := setF ⟨A.LKP_PEND (k / 32), k % 32, 1⟩ 0
    if !isSet s (F.LKP_ROUTE_EN k) then clear s else
    match matchToken (sourceToken s k) s with
    | (s, true) => clear s
    | (s, false) => acceptFrom ks s

/-- The Lockkeeper accepts the lowest pending source it can and sends its routed token (R230). -/
def acceptSource (s : State) : State := acceptFrom (List.range 1024) s

/-! ### Starvation and the delay list (R235, R241, R242) -/

/-- One ready item past its group's limit is counted, raises STARVE and is traced, once (R235). -/
def starveItem (x : Ready) (s : State) : State :=
  let lim := getF s (F.LKP_GRP_CFG_STARVE x.group)
  if lim = 0 ∨ x.starved ∨ time s ≤ x.since + 10000 * lim then s else
  let mark := fun (y : Ready) => if y.is x.role x.seg x.index then { y with starved := true } else y
  let s := modLkp (fun l => { l with ready := l.ready.map mark }) s
  let s := satF (F.LKP_GRP_STAT_STARVED x.group) 1 s
  trace .starve { role := x.role, group := x.group, seg := x.seg, index := x.index, task := x.task, trc := x.trc } (time s - x.since)
    (raise A.LKP_EVT 5 s)

/-- The group and trace flag of a general item, by its entry or else by its descriptor (R219, R246). -/
def itemGroup (s : State) (role index : Nat) : Nat × Bool :=
  match s.lkp.store.find? (·.is role false index) with
  | some e => (e.desc.group, e.desc.trc)
  | none => match (readItem role index s).2 with
    | .ok (some d) => (d.group, d.trc)
    | _ => (0, false)

/-- The token of an entry of the delay list, released at a tick (R240). -/
def Delayed.token (d : Delayed) (tick : Nat) : Token :=
  { role := d.role, seg := false, slot := bitsOf d.dst.toNat 24 3, index := bitsOf d.dst.toNat 0 14, dst := d.dst, value := w32 tick, hw := false, src := d.src }

/-- Release entries at a tick, at most `n`, in order; one that needs an overflow slot that is not free stays (R241). Answers those that
stay. -/
def releaseFrom (tick : Nat) : Nat → List Delayed → State → State × List Delayed
  | 0, ds, s => (s, ds)
  | _, [], s => (s, [])
  | n + 1, d :: ds, s =>
    let t := d.token tick
    let grp := itemGroup s d.role t.index
    match matchToken t s with
    | (s, true) => releaseFrom tick n ds (trace .release { role := d.role, group := grp.1, index := t.index, trc := grp.2 } t.slot s)
    | (s, false) =>
      let r := releaseFrom tick (n + 1) ds s
      (r.1, d :: r.2)

/-- Due entries are released at a tick, at most `n` (R241); where some stay, DLYLATE is raised (log 121). -/
def releaseDue (tick n : Nat) (s : State) : State :=
  let due := s.lkp.delay.takeWhile fun d => decide (d.due ≤ tick)
  let later := s.lkp.delay.dropWhile fun d => decide (d.due ≤ tick)
  let r := releaseFrom tick n due s
  let s := modLkp (fun l => { l with delay := r.2 ++ later }) r.1
  if r.2.isEmpty then s else raise A.LKP_EVT 3 s

/-- DELAY_RELEASE: the due entries of the present 1 µs tick, once (R241, R284) (log 121). -/
def delayRelease (s : State) : State :=
  if s.lkp.delayTick ≠ some s.now then s else
  releaseDue (time s) 64 (modLkp (fun l => { l with delayTick := none }) s)

/-- LKP_DLYCMD.GO: every delayed entry for LKP_DLYDST is removed (R242). -/
def cancelDelayed (s : State) : State :=
  let norm := fun (w : Word) => putBits w.toNat 29 2 0
  let want := norm (rd s A.LKP_DLYDST)
  let keep := s.lkp.delay.filter fun d => norm d.dst != want
  setF F.LKP_DLYCMD_CANCELLED (s.lkp.delay.length - keep.length) (modLkp (fun l => { l with delay := keep }) s)

end Sys2Proof.Machine
end

