-- ==== Sys2Proof/Machine/Scan.lean ====
section
/-! DEFINITION. The cycle of a task: triggers, latch, snapshot, commit, retentive data, forcing, online edit
(05_scan_cycle R141 to R183; 06_duplex_rotation R187, R189). -/

namespace Sys2Proof.Machine

/-! ### Task fields -/

/-- The state of a task as SCN_TASKn_TSTAT.STATE codes it: 0 OFF, 1 WAIT, 2 SNAP, 3 RUN, 4 COMMIT, 5 HELD. -/
def taskState (s : State) (t : Nat) : Nat := getF s (F.SCN_TASK_TSTAT_STATE t)

/-- Set the state of a task. -/
def setTaskState (t v : Nat) (s : State) : State := setF (F.SCN_TASK_TSTAT_STATE t) v s

/-- Whether control runs (SCN_STATUS.CSTATE is RUN) (log 26). -/
def running (s : State) : Bool := getF s F.SCN_STATUS_CSTATE == 2

/-- Whether a task is enabled. -/
def enabled (s : State) (t : Nat) : Bool := isSet s (F.SCN_TASK_CTL_EN t)

/-- Whether a task is duplex. -/
def duplex (s : State) (t : Nat) : Bool := isSet s (F.SCN_TASK_CTL_DUPLEX t)

/-- The roles a task runs on (R145). -/
def taskRoles (s : State) (t : Nat) : List Nat :=
  let r0 := getF s (F.SCN_TASK_CTL_ROLE0 t)
  if duplex s t then [r0, getF s (F.SCN_TASK_CTL_ROLE1 t)] else [r0]

/-- The last latch instant of a task. -/
def latchTime (s : State) (t : Nat) : Nat := rd64 s (A.SCN_TASK_LATCHT t)

/-- D of the running cycle: LATCHT plus COMMITDL (R150), later on a standby by its delay (R211). -/
def deadline (s : State) (t : Nat) : Nat := latchTime s t + (s.task t).shift + 1000 * taskF s t (F.SCN_TASK_DL_COMMITDL t)

/-- S of the running cycle: D minus TCW (R150). -/
def commitInstant (s : State) (t : Nat) : Nat := deadline s t - taskF s t (F.SCN_TASK_TCW_TCW t)

/-- A range as a commit takes it: its area is the output image, in which it ends (R160). -/
def Range.asCommit (r : Range) : Range :=
  let off := min r.off 0x1FFFF
  { src := 1, off := off, mem := r.mem / 64 * 64 + off % 64, len := min r.len (0x20000 - off) }

/-- The commit ranges of a task; every source code counts as the output image (R160) (log 50). -/
def commitRanges (s : State) (t : Nat) : List Range :=
  (List.range (taskF s t (F.SCN_TASK_CMAP_COUNT t))).map fun k => (rangeEntry s t (taskF s t (F.SCN_TASK_CMAP_FIRST t) + k)).asCommit

/-- The bytes a commit reads and writes, as (output image offset, own-reach address): at most 64 KiB and 1,024 output lines of its ranges
(R156) (log 120). -/
def commitCells (s : State) (t : Nat) : List (Nat × Nat) :=
  let cs := ((commitRanges s t).flatMap fun r => (List.range r.len).map fun k => (r.off + k, r.mem + k)).take 65536
  let lines := ((cs.map fun (o, _) => o / 64).eraseDups).take 1024
  if lines.length < 1024 then cs else cs.filter fun (o, _) => lines.contains (o / 64)

/-! ### The latch grid (R143) -/

/-- The period of a cyclic task in ns. -/
def periodNs (s : State) (t : Nat) : Nat := 500 * getF s (F.SCN_TASK_PERIOD_PERIOD t)

/-- SCN_EPOCH + PHASE of a task, in ns; a standby latches SBYDLY later than its primary (R211, R214). -/
def phaseBase (s : State) (t : Nat) : Nat :=
  rd64 s A.SCN_EPOCH + 1000 * getF s (F.SCN_TASK_PHASE_PHASE t) + (s.task t).ahead
    + (if getF s F.SYS_STATUS_STANDBY = 2 then 1000 * getF s F.LKH_SBYTIME_SBYDLY else 0)

/-- Whether `l` is a latch instant of cyclic task `t` after its start (R143). -/
def onGrid (s : State) (t l : Nat) : Bool :=
  decide ((s.task t).firstLatch ≤ l ∧ phaseBase s t ≤ l) && (l - phaseBase s t) % periodNs s t == 0

/-! ### Latch (R143, R150, R154, R159, R181) -/

/-- Merge a value under a force mask (R154, R155). -/
def forced (v mask val : Byte) : Byte := (v &&& ~~~mask) ||| (val &&& mask)

/-- The byte a snapshot takes for offset `k` of a range (R154). -/
def snapByte (s : State) (r : Range) (k : Nat) : Byte :=
  let o := r.off + k
  match r.src with
  | 0 => forced (byteAt s (0x30000000 + o)) (byteAt s (0x30040000 + o)) (byteAt s (0x30060000 + o))
  | 1 => byteAt s (0x30020000 + o)
  | _ => byteAt s (0x300C0000 + o)

/-- The context block of a latch (R159). -/
def contextBlock (s : State) (t latch cyc dt d : Nat) (edit : Bool) : List Byte :=
  let k := s.task t
  let flags := bit k.first + 2 * bit (k.first && k.warm) + 4 * bit (isSet s F.SCN_STATUS_FORCED) + 8 * bit edit
    + 16 * bit (k.first && k.retbad)
  leBytes 8 latch ++ leBytes 4 dt ++ leBytes 4 cyc ++ leBytes 4 d ++ leBytes 4 flags ++ leBytes 4 t ++ List.replicate 36 0

/-- Invalidate the I-caches of the cores of a reach. -/
def dropICaches (n : Nat) (s : State) : State :=
  each (List.range 8) (fun c => modCore (8 * n + c) (fun k => { k with icache := [] })) s

/-- The edit ends when every enabled task has changed bank: the edit bank becomes active (R181). -/
def finishEdit (s : State) : State :=
  match s.scan.edit with
  | some e =>
    if s.scan.editLive ∧ (List.range 32).all fun t => !enabled s t || (s.task t).onEdit then
      let s := each e (fun (a, v) => wr a v) s
      let s := each (List.range 32) (fun t => modTask t (fun k => { k with onEdit := false })) s
      let s := modScan (fun c => { c with edit := none, editLive := false }) s
      raise A.SCN_EVT 4 (setF F.SCN_EDITCTL_EDSTAT 0 (setF F.SCN_STATUS_EDSTAT 0 s))
    else s
  | none => s

/-- The retentive lines of one task: its segments in table order, their windows in order, their lines (R167) (log 51). -/
def retLinesOf (s : State) (t : Nat) : List (Nat × Nat × Nat) :=
  let role := getF s (F.SCN_TASK_CTL_ROLE0 t)
  let first := taskF s t (F.SCN_TASK_SEG_FIRST t)
  (List.range (taskF s t (F.SCN_TASK_SEG_COUNT t))).flatMap fun k =>
    match (readSegment 49 role (first + k) s).2 with
    | .ok (_, _, wins) => (wins.filter (·.1)).flatMap fun (_, lo, hi) =>
        (List.range ((hi - lo) / 64)).map fun j => (t, role, lo / 64 + j)
    | .error _ => []

/-- Lines no longer count as clean (R165). -/
def forgetClean (gone : List (Nat × Nat)) (s : State) : State :=
  modScan (fun c => { c with clean0 := c.clean0.filter (!gone.contains ·), clean1 := c.clean1.filter (!gone.contains ·) }) s

/-- Whether the latch an armed edit names falls at instant `l`: that of cycle `cyc` of task `t`, which latches now, or that of a cyclic
task which latches at this instant too and has not done so yet (R181). Where it turns out to be that of an event task, `latch` takes the
latches of the same instant again. -/
def editDue (s : State) (t cyc l : Nat) : Bool :=
  let n := getF s F.SCN_EDITCTL_TASK
  let due := (rd s A.SCN_EDITCYC).toNat
  if n = t then due == cyc else
  decide (n < 16) && enabled s n && getF s (F.SCN_TASK_CYCNO_CYCNO n) + 1 == due && onGrid s n l

/-- EDIT_ACTIVATE: at its latch of cycle `cyc`, at instant `l`, a task changes to the edit bank where the armed edit says so (R181, R182);
the lines that become retentive by it count as dirty (R165). Answers whether it did. -/
def activateEdit (t cyc l : Nat) (s : State) : State × Bool :=
  let armed := getF s F.SCN_EDITCTL_EDSTAT == 2
  if armed ∧ (s.scan.editLive ∨ editDue s t cyc l) ∧ !(s.task t).onEdit then
    let old := (retLinesOf s t).map (·.2)
    let s := modScan (fun c => { c with editLive := true }) (modTask t (fun k => { k with onEdit := true }) s)
    let s := forgetClean (((retLinesOf s t).map (·.2)).filter (!old.contains ·)) s
    let s := each (taskRoles s t) (fun r s => if reachOf s r < 5 then dropICaches (reachOf s r) s else s) s
    (s, true)
  else (s, false)

/-- What a latch is to write: a context block at the line of the task, and its snapshot ranges as they stand. -/
def snapCells (s : State) (t : Nat) (block : List Byte) : List (Nat × Byte) :=
  (block.zipIdx.map fun (b, k) => (64 * taskF s t (F.SCN_TASK_CTX_LINE t) + k, b)) ++
    (snapRanges s t).flatMap fun r => (List.range r.len).map fun k => (r.mem + k, snapByte s r k)

/-- A task that has latched at instant `l`, before the latch the armed edit names was taken at the same instant, uses the new bank for
that latch too (R181): its block and snapshot are taken again, but for those a standby has from its primary. -/
def relatch (l u : Nat) (s : State) : State :=
  if taskState s u ≠ 2 ∨ latchTime s u + (s.task u).shift ≠ l then s else
  let old := ((s.task u).snap.take 64).map (·.2)
  let r := activateEdit u (getF s (F.SCN_TASK_CYCNO_CYCNO u)) l s
  if !r.2 ∨ (s.task u).shift ≠ 0 then r.1 else
  let block := old.take 16 ++ leBytes 4 (deadline r.1 u) ++ ((old.getD 20 0 ||| 8) :: old.drop 21)
  modTask u (fun k => { k with snap := snapCells r.1 u block }) r.1

/-- The number of the next cycle of a task (R143). -/
def nextCycle (s : State) (t : Nat) : Nat :=
  let old := getF s (F.SCN_TASK_CYCNO_CYCNO t)
  if old = 0xFFFFFFFF then 1 else old + 1

/-- What the latch of a task leaves to do for an edit (R181): where it was the one the armed edit names, the tasks that latched before it at
the same instant change bank too; `live` says whether the named latch had passed before. -/
def afterLatch (l : Nat) (live : Bool) (s : State) : State :=
  finishEdit (if s.scan.editLive ∧ !live then each ((List.range 32).filter (enabled s)) (relatch l) s else s)

/-- A task latches at instant `l` (R143, R150): LATCHT, CYCNO, the context block and the snapshot as of this instant. -/
def latch (t l : Nat) (s : State) : State :=
  let live := s.scan.editLive
  let s := modTask t (fun k => { k with shift := 0 }) s
  let cyc := nextCycle s t
  let (s, edit) := activateEdit t cyc l s
  let dt := match (s.task t).prevLatch with
    | some p => min (l - p) 0xFFFFFFFF
    | none => 0
  let s := wr64 (A.SCN_TASK_LATCHT t) l (setF (F.SCN_TASK_CYCNO_CYCNO t) cyc s)
  let snap := snapCells s t (contextBlock s t l cyc dt (deadline s t) edit)
  let s := modTask t (fun k => { k with first := false, prevLatch := some l, snap := snap, done0 := 0, done1 := 0, lastDone := l }) s
  afterLatch l live (setTaskState t 2 s)

/-! ### Event triggers (R144) -/

/-- Whether the snapshot of the next cycle of an event task came whole from a primary that is lost now: the new primary runs that cycle from
it (R213). -/
def mirroredNext (s : State) (t : Nat) : Bool :=
  getF s F.LKH_SBYSTAT_STATE == 2 && s.pair.lost && bitAt (rd s A.LKH_SBYMASK).toNat t && decide (16 ≤ t) &&
    s.pair.snaps.any fun x => x.task == t && x.cycle == nextCycle s t && x.full

/-- Whether an event task can accept a trigger now (R144); LATCHT is 0 before its first latch. -/
def canTrigger (s : State) (t : Nat) : Bool :=
  let minInt := 500 * getF s (F.SCN_TASK_PERIOD_PERIOD t)
  !mirroredNext s t && (taskState s t == 1 || taskState s t == 5) &&
    (minInt == 0 || latchTime s t == 0 || decide (latchTime s t + minInt ≤ time s))

/-- A trigger for event task `t` (R144): it latches, is held, or is lost. -/
def triggerTask (t : Nat) (s : State) : State :=
  if !running s ∨ !enabled s t then s
  else if canTrigger s t ∧ !(s.task t).held then latch t (time s) s
  else if !(s.task t).held then
    let s := modTask t (fun k => { k with held := true }) s
    if taskState s t = 1 then setTaskState t 5 s else s
  else raise A.SCN_EVT 2 (satF (F.SCN_TASK_LOST_COUNT t) 1 s)

/-- An event source fires, as the SCN sees it: every event task whose TRIG names it (R144), the one an armed edit names first (R181). -/
def triggerSource (src : Nat) (s : State) : State :=
  let ts := ((List.range 16).map (· + 16)).filter fun t => getF s (F.SCN_TASK_CTL_TRIG t) == src
  let n := getF s F.SCN_EDITCTL_TASK
  each (ts.filter (· == n) ++ ts.filter (· != n)) triggerTask s

/-- A held trigger is accepted at the first instant at which the task can take it (R144). -/
def acceptHeld (t : Nat) (s : State) : State :=
  if running s ∧ (s.task t).held ∧ canTrigger s t then
    latch t (time s) (modTask t (fun k => { k with held := false }) s)
  else s

/-- The state a task enters when its cycle ends: HELD where a trigger is held, else WAIT. -/
def endCycle (t : Nat) (s : State) : State := setTaskState t (if (s.task t).held then 5 else 1) s

/-! ### Snapshot copy and start token (R150, R153, R226) -/

/-- Whether the memory of a role is closed to a snapshot copy: a drain, a window, no reach (R200), a parked or waking one (R262). -/
def roleBusy (s : State) (r : Nat) : Bool :=
  let n := reachOf s r
  decide (5 ≤ n) || s.rot.draining == some n || (match s.rot.window with | some (a, b) => a == n || b == n | none => false)
    || decide (2 ≤ getF s (F.RCH_PWR_PSTATE n))

/-- Open a task's cycle in a role and release its root segments in table order (R226). -/
def startToken (t role : Nat) (s : State) : State :=
  let s := modLkp (fun l => { l with opened := l.opened ++ [{ task := t, role := role, seen := [] }] }) s
  let first := taskF s t (F.SCN_TASK_SEG_FIRST t)
  each (List.range (taskF s t (F.SCN_TASK_SEG_COUNT t))) (fun k s =>
    let x : Ready := { role := role, seg := true, index := first + k, task := t, aff := 0xFF, group := segGroup s t, trc := false, since := time s, starved := false }
    if !running s then s else
    match readMask role (first + k) s with
    | (s, .error _) => segmentLost x s
    | (s, .ok m) => if m = 1 then becomeReady x s else s) s

/-- The Lockhouse is about to write own-reach bytes of a reach: a word with an error that is written whole is good again, of one written
in part a single-bit error is corrected and noted; answers whether a double-bit error keeps such a word from being written (R250). -/
def writeCells (n : Nat) (as : List Nat) (s : State) : State × Bool :=
  let offs := as.map (foldCW s n)
  let met := s.ecc.filter fun (w, _) => offs.any fun a => reachAddr n a / 8 * 8 == w
  let whole := fun (w : Nat) => (List.range 8).all fun k => offs.contains (w - reachAddr n 0 + k)
  let note := fun (x : Nat × Bool) (s : State) =>
    let s := if whole x.1 then s else eccNote n (x.1 - reachAddr n 0) x.2 false 49 s
    if x.2 && !whole x.1 then s else eccClear x.1 s
  (each met note s, met.any fun x => x.2 && !whole x.1)

/-- The ECC of what a snapshot copy writes in every role of its task. -/
def snapWrites (t : Nat) (s : State) : State × Bool :=
  (taskRoles s t).foldl (fun x r => let y := writeCells (reachOf x.1 r) ((x.1.task t).snap.map (·.1)) x.1; (y.1, x.2 || y.2)) (s, false)

/-- Write the waiting snapshot of a task into the reach that holds a role. -/
def copySnap (t role : Nat) (s : State) : State :=
  let n := reachOf s role
  each (s.task t).snap (fun (a, b) s => reachPut n (foldCW s n a) [b] s) s

/-- The snapshot copy of a task ends (R150): it is written into every role of the task, the start token is sent, the
segments run. An uncorrectable word, of the image in a range or of a reach where it is written in part, stops control (cause ECC). -/
def snapshotEnd (t : Nat) (s : State) : State :=
  if !running s ∨ taskState s t ≠ 2 ∨ (List.range t).any (fun u => taskState s u == 2 && latchTime s u == latchTime s t) then s else
  if (taskRoles s t).any (roleBusy s) then each (taskRoles s t) wakeRole s else
  let area := fun (r : Range) => 0x30000000 + r.off + (match r.src with | 0 => 0 | 1 => 0x20000 | _ => 0xC0000)
  if (snapRanges s t).any fun r => s.ecc.any fun (w, d) => d && decide (area r ≤ w + 7 ∧ w < area r + r.len) then
    controlStop .ecc (some t) s
  else
    let w := snapWrites t s
    if w.2 then controlStop .ecc (some t) w.1 else
    let s := each (taskRoles s t) (copySnap t) w.1
    let s := setTaskState t 3 (modTask t (fun k => { k with snap := [] }) s)
    each (taskRoles s t) (fun r s => if running s then startToken t r s else s) s

/-- A segment item has executed DONE on role `role` (R150, R155). -/
def countDone (t role : Nat) (s : State) : State :=
  if taskState s t ≠ 3 then s else
  let now := time s
  let s := modTask t (fun k => { k with lastDone := now,
                                        done0 := if getF s (F.SCN_TASK_CTL_ROLE0 t) = role then k.done0 + 1 else k.done0,
                                        done1 := if getF s (F.SCN_TASK_CTL_ROLE0 t) = role then k.done1 else k.done1 + 1 }) s
  let n := taskF s t (F.SCN_TASK_SEG_COUNT t)
  if ((s.task t).done0 = n ∨ (s.task t).done1 = n) ∧ (rd s (A.SCN_TASK_RUNMAX t)).toNat < now - latchTime s t then
    wr (A.SCN_TASK_RUNMAX t) (w32 (min (now - latchTime s t) 0xFFFFFFFF)) s else s

/-! ### Retentive layout (R165 to R167) -/

/-- The address of retentive buffer `b` (0 or 1). -/
def retBase (b : Nat) : Nat := 0x41000000 + 0x200000 * b

/-- Whether the header of retentive buffer `b` is valid: MAGIC and HCRC (R167). -/
def retValid (s : State) (b : Nat) : Bool :=
  memNat s (retBase b) 4 == 0x53544156 && memNat s (retBase b + 0x3C) 4 == crc32 (bytesAt s (retBase b) 0x3C)

/-- The generation a buffer counts: 0 where its header is not valid (R166) (log 9). -/
def retGen (s : State) (b : Nat) : Nat := if retValid s b then memNat s (retBase b + 4) 4 else 0

/-- The target buffer of a capture: that of a write already queued, else the lower generation, buffer 0 on equality
(R166, log 9). -/
def retTargetOf (s : State) : Nat :=
  if s.scan.retQueue.isSome then s.scan.retTarget else if retGen s 1 < retGen s 0 then 1 else 0

/-- Every retentive line in the order of R167: task, role, own-reach line (log 51). -/
def retLines (s : State) : List (Nat × Nat × Nat) :=
  ((List.range 32).filter (enabled s)).flatMap (retLinesOf s)

/-- Whether a line's dirty bit for buffer `b` is set (R165). -/
def retDirty (s : State) (b role line : Nat) : Bool :=
  if b = 0 then !s.scan.clean0.contains (role, line) else !s.scan.clean1.contains (role, line)

/-- Clear a line's dirty bit for buffer `b`. -/
def retClean (b : Nat) (x : Nat × Nat) (s : State) : State :=
  modScan (fun c => if b = 0 then { c with clean0 := x :: c.clean0 } else { c with clean1 := x :: c.clean1 }) s

/-- A header with a generation (R167). -/
def retHeader (gen : Nat) : List Byte :=
  let h := leBytes 4 0x53544156 ++ leBytes 4 gen ++ List.replicate 52 0
  h ++ leBytes 4 (crc32 h)

/-- The lines of task `t` this cycle captures: index in the buffer and line (R166, R465). -/
def captureLines (s : State) (t : Nat) : List (Nat × Nat × Nat) :=
  let cyc := getF s (F.SCN_TASK_CYCNO_CYCNO t)
  if cyc % 2 ^ taskF s t (F.SCN_TASK_CTL_RETPER t) ≠ 0 ∧ !isSet s F.SYS_STATUS_PWRWARN then [] else
  let b := retTargetOf s
  (retLines s).zipIdx.filterMap fun ((u, role, line), k) => if u = t ∧ retDirty s b role line then some (k, role, line) else none

/-! ### Commit (R155, R156, R187, R189) -/

/-- A differing byte of a duplex compare: window line or commit offset, and both bytes. -/
structure Diff where
  ret : Bool
  addr : Nat
  b0 : Byte
  b1 : Byte
deriving DecidableEq, Repr

/-- Record a mismatch and mark both member reaches SUSPECT; those that were members of one before, with no test passed since, are answered,
for they have failed (R189, R190). -/
def recordMismatch (t : Nat) (d : Diff) (s : State) : State × List Nat :=
  let r0 := getF s (F.SCN_TASK_CTL_ROLE0 t)
  let r1 := getF s (F.SCN_TASK_CTL_ROLE1 t)
  let n0 := reachOf s r0
  let n1 := reachOf s r1
  let s := setF F.LKH_MMINFO_RET (bit d.ret) (setF F.LKH_MMINFO_REACH1 n1 (setF F.LKH_MMINFO_REACH0 n0
    (setF F.LKH_MMINFO_ROLE1 r1 (setF F.LKH_MMINFO_ROLE0 r0 (setF F.LKH_MMINFO_TASK t s)))))
  let s := setF F.LKH_MMADDR_OFFSET d.addr (setF F.LKH_MMDATA_BYTE0 d.b0.toNat (setF F.LKH_MMDATA_BYTE1 d.b1.toNat s))
  let s := satF F.LKH_MMCNT_COUNT 1 s
  let ns := [n0, n1].filter fun n => decide (n < 5)
  let twice := ns.filter (vget s.rot.mism)
  let s := { s with rot := { s.rot with mism := ns.foldl (fun v n => vset v n true) s.rot.mism } }
  (markSuspect n1 (markSuspect n0 s), twice)

/-- The Lockhouse reads own-reach addresses of a reach: errors it meets are counted, logged and raised, single-bit errors corrected (R250).
Answers whether a double-bit error lay among them. -/
def readCells (n : Nat) (as : List Nat) (s : State) : State × Bool :=
  let met := s.ecc.filter fun (w, _) => as.any fun a => reachAddr n (foldCW s n a) / 8 * 8 == w
  (noteWords n met s, met.any (·.2))

/-- The staged byte of a role at an own-reach address. -/
def staged (s : State) (role a : Nat) : Byte := byteAt s (reachAddr (reachOf s role) (foldCW s (reachOf s role) a))

/-- The bytes of a retentive line. -/
def lineCells (line : Nat) : List Nat := (List.range 64).map (64 * line + ·)

/-- The first difference between the two members of a duplex task over commit ranges and captured lines (R187). -/
def firstDiff (s : State) (t : Nat) (cells : List (Nat × Nat)) (caps : List (Nat × Nat × Nat)) : Option Diff :=
  let r0 := getF s (F.SCN_TASK_CTL_ROLE0 t)
  let r1 := getF s (F.SCN_TASK_CTL_ROLE1 t)
  let outs := cells.map fun (o, a) => (false, o, a)
  let rets := caps.flatMap fun (i, _, line) => (List.range 64).map fun k => (true, 0x40 + 64 * i + k, 64 * line + k)
  ((outs ++ rets).find? fun (_, _, a) => staged s r0 a != staged s r1 a).map fun (ret, o, a) =>
    { ret := ret, addr := o, b0 := staged s r0 a, b1 := staged s r1 a }

/-- The reads of a commit from every role of a task (R155, R250). -/
def commitReads (t : Nat) (cells : List (Nat × Nat)) (caps : List (Nat × Nat × Nat)) (s : State) : State × Bool :=
  let as := cells.map (·.2) ++ caps.flatMap fun (_, _, line) => lineCells line
  (taskRoles s t).foldl (fun x r => let y := readCells (reachOf x.1 r) as x.1; (y.1, x.2 || y.2)) (s, false)

/-- What step 2 of a commit leaves: the commit buffer under the output forces, and the captured lines with the buffer they are for
(R155, R166). -/
def stage (t : Nat) (cells : List (Nat × Nat)) (caps : List (Nat × Nat × Nat)) (s : State) : State :=
  let r0 := getF s (F.SCN_TASK_CTL_ROLE0 t)
  let buf := cells.map fun (o, a) => (o, forced (staged s r0 a) (byteAt s (0x30080000 + o)) (byteAt s (0x300A0000 + o)))
  let cap := caps.map fun (i, _, line) => (i, (lineCells line).map (staged s r0))
  let b := retTargetOf s
  modScan (fun c => { c with committing := some t })
    (modTask t (fun k => { k with buffer := buf, capture := cap, capLines := caps.map (·.2), capTarget := b, waiting := false }) s)

/-- Step 2 of a commit: read, compare, force, capture (R155). Answers the reaches that fail by a second mismatch. -/
def commitCompare (t : Nat) (s : State) : State × List Nat :=
  let cells := commitCells s t
  let caps := captureLines s t
  let r := commitReads t cells caps s
  if r.2 then (controlStop .ecc (some t) r.1, []) else
  match (if duplex r.1 t then firstDiff r.1 t cells caps else none) with
  | some d =>
    let (s, twice) := recordMismatch t d r.1
    (raise A.LKH_EVT 5 (controlStop .mismatch (some t) s), twice)
  | none => (stage t cells caps r.1, [])

/-- Whether the commit of task `u` comes before that of task `t`: order of S, then task number (R156). -/
def commitsBefore (s : State) (u t : Nat) : Bool :=
  decide (commitInstant s u < commitInstant s t ∨ (commitInstant s u = commitInstant s t ∧ u < t))

/-- Whether S of a task has come and its commit start has not been taken. -/
def commitDue (s : State) (t : Nat) : Bool :=
  running s && (taskState s t == 2 || taskState s t == 3) && decide (commitInstant s t ≤ time s)

/-- The waiting commit that starts next: order of S, then task number (R156). -/
def nextCommit (s : State) : Option Nat :=
  let ws := (List.range 32).filter fun t => (s.task t).waiting
  ws.foldl (fun acc t => match acc with
    | none => some t
    | some u => if commitInstant s t < commitInstant s u then some t else some u) none

/-- The first waiting commit starts, where none runs and none that comes before it is due (R156). -/
def tryCommit (s : State) : State × List Nat :=
  if s.scan.committing.isSome then (s, []) else
  match nextCommit s with
  | none => (s, [])
  | some t => if (List.range 32).any fun u => commitDue s u && commitsBefore s u t then (s, []) else commitCompare t s

/-- Commit start of a task at S (R155 step 1, R156, R226); inside an emergency window of a role it stops control (R201). -/
def commitStart (t : Nat) (s : State) : State × List Nat :=
  if !commitDue s t then (s, []) else
  let n := taskF s t (F.SCN_TASK_SEG_COUNT t)
  let k := s.task t
  let shut := (taskRoles s t).any fun r => match s.rot.window with | some (a, b) => reachOf s r == a || reachOf s r == b | none => false
  if taskState s t = 2 ∨ k.done0 ≠ n ∨ (duplex s t ∧ k.done1 ≠ n) ∨ shut then (controlStop .deadline (some t) s, []) else
  let slack := commitInstant s t - k.lastDone
  let s := if slack < (rd s (A.SCN_TASK_SLACK t)).toNat then wr (A.SCN_TASK_SLACK t) (w32 slack) s else s
  let s := setTaskState t 4 (closeTasks (· == t) s)
  tryCommit (modTask t (fun k => { k with waiting := true }) s)

/-- Merge captured lines into those queued: the latest data of each line prevails (R166). -/
def mergeCapture (old new : List (Nat × List Byte)) : List (Nat × List Byte) :=
  old.filter (fun (i, _) => !new.any fun (j, _) => j == i) ++ new

/-- SCN_STATUS.RETBUSY follows the retentive writes. -/
def syncRetBusy (s : State) : State :=
  setF F.SCN_STATUS_RETBUSY (bit (s.scan.retRun.isSome || s.scan.retQueue.isSome)) s

/-- RETENTIVE_CAPTURE: the captured lines join the staging buffer and their dirty bits clear (R166). -/
def capture (t : Nat) (s : State) : State :=
  let k := s.task t
  if k.capture.isEmpty then s else
  let b := k.capTarget
  let s := each k.capLines (retClean b) s
  let s := modScan (fun c => { c with retQueue := some (mergeCapture (c.retQueue.getD []) k.capture), retTarget := b }) s
  syncRetBusy s

/-- Whether the running commit of a task can end: D has not passed, and the journal has room for it (R155, R157). -/
def commitGoes (t : Nat) (s : State) : Bool :=
  s.scan.committing == some t && decide (time s ≤ deadline s t) && journalRoom (s.task t).buffer s

/-- The commit of a task ends (R155 steps 3 and 4): the buffer is written through the journal, the capture queued, the
commit source fires, a waiting commit starts. Past D control stops instead (cause COMMIT); it waits for room in the journal (R157)
(log 110). -/
def commitEnd (t : Nat) (s : State) : State × List Nat :=
  if s.scan.committing = some t ∧ deadline s t < time s then (controlStop .commit (some t) s, []) else
  if !commitGoes t s then (s, []) else
  let s := commitBytes (s.task t).buffer s
  let s := capture t s
  let local16 := (s.task t).buffer.filter fun (o, _) => decide (o < 16)
  let s := modScan (fun c => { c with committing := none, localNew := c.localNew ++ local16.map fun (o, _) => (o, getF s (F.SCN_TASK_CYCNO_CYCNO t)) }) s
  let s := modTask t (fun k => { k with buffer := [], capture := [], capLines := [] }) s
  tryCommit (pend (576 + t) (getF s (F.SCN_TASK_CYCNO_CYCNO t)) (endCycle t s))

/-- At D a commit that has not ended stops control (R155). -/
def commitDeadline (t : Nat) (s : State) : State :=
  if running s ∧ taskState s t = 4 ∧ deadline s t ≤ time s then controlStop .commit (some t) s else s

/-! ### Retentive writes (R166, R167) -/

/-- A queued retentive write begins: the header of its target is invalidated (R167). -/
def retStart (s : State) : State :=
  match s.scan.retRun, s.scan.retQueue with
  | none, some q =>
    let b := s.scan.retTarget
    putBytes (retBase b) (List.replicate 64 0) (modScan (fun c => { c with retRun := some q, retQueue := none, retRunTarget := b }) s)
  | _, _ => s

/-- The running retentive write ends: lines and the header with the next generation are in MRAM (R167). -/
def retEnd (s : State) : State :=
  match s.scan.retRun with
  | none => s
  | some q =>
    let b := s.scan.retRunTarget
    let s := each q (fun (i, bs) => putBytes (retBase b + 0x40 + 64 * i) bs) s
    let s := putBytes (retBase b) (retHeader (retGen s (1 - b) + 1)) s
    syncRetBusy (modScan (fun c => { c with retRun := none }) s)

/-! ### Forcing (R169 to R172) -/

/-- Addresses of the mask and value areas of a force area: 0 input, 1 output (R49). -/
def forceMaskAt (area : Nat) : Nat := if area = 0 then 0x30040000 else 0x30080000

/-- Address of the value area. -/
def forceValAt (area : Nat) : Nat := if area = 0 then 0x30060000 else 0x300A0000

/-- The number of 1-bits of a byte. -/
def popByte (b : Byte) : Nat := ((List.range 8).filter fun k => b.getLsbD k).length

/-- The number of forced bits of an area (SCN_FORCEIN, SCN_FORCEOUT). -/
def forceCount (s : State) (area : Nat) : Nat :=
  (s.mem.filter fun (a, _) => decide (forceMaskAt area ≤ a ∧ a < forceMaskAt area + 0x20000)).foldl (fun n (_, b) => n + popByte b) 0

/-- SCN_FORCEIN, SCN_FORCEOUT and SCN_STATUS.FORCED follow the masks (R172). -/
def syncForced (s : State) : State :=
  let i := forceCount s 0
  let o := forceCount s 1
  setF F.SCN_STATUS_FORCED (bit (i != 0 || o != 0)) (setF F.SCN_FORCEIN_COUNT i (setF F.SCN_FORCEOUT_COUNT o s))

/-- Whether an enabled task covers a byte of an area: commit ranges for outputs, snapshot ranges for inputs. -/
def covers (s : State) (t area off : Nat) : Bool :=
  if area = 1 then (commitRanges s t).any fun r => decide (r.off ≤ off ∧ off < r.off + r.len)
  else (snapRanges s t).any fun r => r.src == 0 && decide (r.off ≤ off ∧ off < r.off + r.len)

/-- Whether setting a force on a byte needs SAFEEN: an enabled duplex task covers it (R171). -/
def forceGuarded (s : State) (area off : Nat) : Bool :=
  (List.range 32).any fun t => enabled s t && duplex s t && covers s t area off

/-- Set force bits of one byte (R172). -/
def forceSetByte (area off mask val : Nat) (s : State) : State :=
  let m := byteAt s (forceMaskAt area + off) ||| b8 mask
  let v := forced (byteAt s (forceValAt area + off)) (b8 mask) (b8 val)
  setByte (forceValAt area + off) v (setByte (forceMaskAt area + off) m s)

/-- The forced output bytes that are due are written as a commit of their own, once the journal has room for it (R157, R170). -/
def forcesGo (s : State) : State :=
  let offs := s.scan.forceDue
  let bs := offs.map fun o => (o, forced (byteAt s (0x30020000 + o)) (byteAt s (0x30080000 + o)) (byteAt s (0x300A0000 + o)))
  if offs.isEmpty ∨ !journalRoom bs s then s else commitBytes bs (modScan (fun c => { c with forceDue := [] }) s)

/-- The output bytes among those set that no enabled task commits take their forced values (R170). -/
def forceUncovered (offs : List Nat) (s : State) : State :=
  let offs := offs.filter fun o => !((List.range 32).any fun t => enabled s t && covers s t 1 o)
  if offs.isEmpty then s else forcesGo (modScan (fun c => { c with forceDue := c.forceDue ++ offs }) s)

/-- Clear force bits of one byte. -/
def forceClrByte (area off mask : Nat) (s : State) : State :=
  setByte (forceMaskAt area + off) (byteAt s (forceMaskAt area + off) &&& ~~~(b8 mask)) s

/-- End a force command with a result; FORCE is raised where a mask changed (R172). -/
def forceDone (before : State) (result : Nat) (s : State) : State :=
  let s := setF F.SCN_FORCECMD_RESULT result (syncForced s)
  let area := fun (x : State) => x.mem.filter fun (a, _) =>
    decide ((0x30040000 ≤ a ∧ a < 0x30060000) ∨ (0x30080000 ≤ a ∧ a < 0x300A0000))
  if area s ≠ area before then raise A.SCN_EVT 3 s else s

/-- SET (R170, R171). -/
def forceSet (area off mask val : Nat) (s : State) : State :=
  if mask % 256 ≠ 0 ∧ forceGuarded s area off ∧ !isSet s F.SCN_FORCECTL_SAFEEN then setF F.SCN_FORCECMD_RESULT 1 s
  else forceDone s 0 (forceUncovered (if area = 1 then [off] else []) (forceSetByte area off mask val s))

/-- CLR. -/
def forceClr (area off mask : Nat) (s : State) : State := forceDone s 0 (forceClrByte area off mask s)

/-- Every mask bit of an area cleared. -/
def clearArea (area : Nat) (s : State) : State :=
  { s with mem := s.mem.filter fun (a, _) => !decide (forceMaskAt area ≤ a ∧ a < forceMaskAt area + 0x20000) }

/-- CLRALL for an area. -/
def forceClrAll (area : Nat) (s : State) : State := forceDone s 0 (clearArea area s)

/-- Read a force list as initiator 49 (R170): entries of two words, none where it cannot be read. Only reach memory by
absolute address and the MRAM user area hold lists. -/
def readList (a : Nat) : Nat → State → State × Option (List (Nat × Nat))
  | 0, s => (s, some [])
  | n + 1, s =>
    let t := target s 49 a
    let ok := match t with
      | .reach _ _ => true
      | .mram off => decide (0x1450000 ≤ off)
      | _ => false
    if !ok then (s, none) else
    match memTargetRead t 8 ⟨49, true, none⟩ s with
    | (s, .error _) => (s, none)
    | (s, .ok v) => match readList (a + 8) n s with
      | (s, some l) => (s, some ((v % 2 ^ 32, v / 2 ^ 32) :: l))
      | (s, none) => (s, none)

/-- One entry of a LIST (R172). -/
def forceEntry (e : Nat × Nat) (s : State) : State :=
  let area := bitsOf e.1 31 1
  let off := bitsOf e.1 0 17
  if bitAt e.1 30 then forceClrByte area off (bitsOf e.2 8 8) s else forceSetByte area off (bitsOf e.2 8 8) (bitsOf e.2 0 8) s

/-- The entries of a list act, and the uncovered output bytes they set take their forced values (R170). -/
def forceEntriesAct (es : List (Nat × Nat)) (s : State) : State :=
  forceUncovered ((es.filter fun e => bitAt e.1 31 && !bitAt e.1 30).map fun e => bitsOf e.1 0 17) (each es forceEntry s)

/-- LIST of `n` entries at an address: as a whole or not at all (R170, R171). -/
def forceList (a n : Nat) (s : State) : State :=
  match readList a (min (max n 1) 256) s with
  | (s, none) => setF F.SCN_FORCECMD_RESULT 2 s
  | (s, some es) =>
    if !isSet s F.SCN_FORCECTL_SAFEEN ∧ es.any fun e => !bitAt e.1 30 && bitsOf e.2 8 8 != 0 && forceGuarded s (bitsOf e.1 31 1) (bitsOf e.1 0 17) then
      setF F.SCN_FORCECMD_RESULT 1 s
    else forceDone s 0 (forceEntriesAct es s)

/-! ### Online edit (R180, R181, R183) -/

/-- Set EDSTAT and its copy. -/
def setEdstat (v : Nat) (s : State) : State := setF F.SCN_EDITCTL_EDSTAT v (setF F.SCN_STATUS_EDSTAT v s)

/-- OPEN: the active descriptors, range table and safe table are copied into the edit bank; no effect unless IDLE. -/
def editOpen (s : State) : State :=
  if getF s F.SCN_EDITCTL_EDSTAT ≠ 0 then s else
  setEdstat 1 (modScan (fun c => { c with edit := some (s.regs.filter fun (a, _) => isDescriptor a), editLive := false }) s)

/-- ARM: armed if SCN_EDITCYC is at least 2 more than the current CYCNO of the named task, else LATE (R181). -/
def editArm (s : State) : State :=
  if getF s F.SCN_EDITCTL_EDSTAT = 1 ∨ getF s F.SCN_EDITCTL_EDSTAT = 3 then
    let t := getF s F.SCN_EDITCTL_TASK
    if getF s (F.SCN_TASK_CYCNO_CYCNO t) + 2 ≤ (rd s A.SCN_EDITCYC).toNat then setEdstat 2 s
    else raise A.SCN_EVT 4 (setEdstat 3 s)
  else s

/-- ABORT: an open or armed edit is discarded, unless its latch has passed (R183). -/
def editAbort (s : State) : State :=
  if getF s F.SCN_EDITCTL_EDSTAT ≠ 0 ∧ !s.scan.editLive then setEdstat 0 (modScan (fun c => { c with edit := none }) s) else s

end Sys2Proof.Machine
end

