-- ==== Sys2Proof/Machine/TimeBase.lean ====
section
/-! DEFINITION. The time base: the tick, slew and step, compare and capture units (09_time_base R270 to R284). -/

namespace Sys2Proof.Machine

/-- Change what the time base holds beside its registers. -/
def modTmb (f : Tmb → Tmb) (s : State) : State := { s with tmb := f s.tmb }

/-- An element of a unit vector, by a number taken modulo 32. -/
def at32 {α : Type} (v : Vector α 32) (u : Nat) : α := v[u % 32]'(Nat.mod_lt _ (by decide))

/-- Replace an element of a unit vector. -/
def set32 {α : Type} (v : Vector α 32) (u : Nat) (x : α) : Vector α 32 := v.set (u % 32) x (Nat.mod_lt _ (by decide))

/-! ### The counter (R270 to R275) -/

/-- INC in units of 2^-32 ns (R271). -/
def incNow (s : State) : Nat := rd64 s A.TMB_INC

/-- The advance of {TIME, FRAC} without slew and step: INC, or 5 × INC per RC cycle in holdover (R270, R273). -/
def tickAdvance (s : State) : Nat := if isSet s F.TMB_STATUS_HOLDOVER then 5 * incNow s else incNow s

/-- {TIME, FRAC} after the tick, before slew and step. -/
def tickNext (s : State) : Nat := time s * 2 ^ 32 + s.tmb.frac + tickAdvance s

/-- Whether the next tick is the first after a multiple of 10,000 ns that no slew step has been made at (R274) (log 59). -/
def slewTick (s : State) : Bool :=
  tickNext s / 2 ^ 32 / 10000 != time s / 10000 && tickNext s / 2 ^ 32 / 10000 != s.tmb.slewed

/-- SLEWREM as a signed number. -/
def slewRem (s : State) : Int := signed 32 (rd s A.TMB_SLEWREM).toNat

/-- Set SLEWREM and SLEWING; SLEWREM reaching 0 raises SLEWDONE (R274). -/
def setSlewRem (i : Int) (s : State) : State :=
  let t := setF F.TMB_STATUS_SLEWING (bit (i != 0)) (wr A.TMB_SLEWREM (w32 (wrap 32 i)) s)
  if i = 0 ∧ slewRem s ≠ 0 then raise A.TMB_EVT 4 t else t

/-- The slew of the next tick in ns: 1, 0 or −1 (log 59). -/
def slewStep (s : State) : Int :=
  if slewTick s then (if 0 < slewRem s then 1 else if slewRem s < 0 then -1 else 0) else 0

/-- The level of the SYNC_OUT pin: active during the merged pulse while OUTEN is 1 (R283) (log 128). -/
def syncLevel (s : State) : Bool :=
  (isSet s F.TMB_SYNCCTL_OUTEN && decide (s.now < s.tmb.syncEnd)) != isSet s F.TMB_SYNCCTL_OUTPOL

/-- The SYNC_OUT pin is driven to its level; a change is seen outside (R283) (log 128). -/
def syncDrive (s : State) : State :=
  if syncLevel s == s.tmb.syncPin then s else emit .syncOut [b8 (bit (syncLevel s))] (modTmb (fun b => { b with syncPin := syncLevel s }) s)

/-- The Lockkeeper gets its tick at the first tick after a multiple of 1,000 ns of TIME, which was `before` until now (R284) (log 121). -/
def delayTicks (before : Nat) (s : State) : State :=
  if before / 1000 < time s / 1000 then modLkp (fun l => { l with delayTick := some s.now }) s else s

/-- One tick of the time base: INC, slew and pending steps (R270, R274, R275), and the tick of the Lockkeeper. -/
def tick (s : State) : State :=
  let before := time s
  let d := slewStep s
  let st := s.tmb.steps.foldl (· + ·) 0
  let t := ((tickNext s : Nat) : Int) + (d + st) * 2 ^ 32
  let v := wrap 96 t
  let n := s.tmb.steps.length
  let mark := if n ≠ 0 then 0 else if d ≠ 0 then tickNext s / 2 ^ 32 / 10000 else s.tmb.slewed
  let hold := isSet s F.TMB_STATUS_HOLDOVER
  let s := wr64 A.TMB_TIME (v / 2 ^ 32) (modTmb (fun b => { b with frac := v % 2 ^ 32, steps := [], slewed := mark }) s)
  let s := delayTicks before { s with now := s.now + (if hold then 10 else 2) }
  let s := syncDrive (if d ≠ 0 then setSlewRem (slewRem s - d) s else s)
  if n ≠ 0 then raise A.TMB_EVT 5 s else s

/-- SLEW: ADJ is added to SLEWREM, held within ±2,147,483,647 (R274). -/
def adjSlew (s : State) : State :=
  setSlewRem (max (-2147483647) (min 2147483647 (slewRem s + signed 32 (rd s A.TMB_ADJ).toNat))) s

/-- STEP accepted: ADJ is added at the next tick (R274). -/
def adjStep (s : State) : State := modTmb (fun b => { b with steps := b.steps ++ [signed 32 (rd s A.TMB_ADJ).toNat] }) s

/-- The least and greatest legal INC (R271). -/
def incMin : Nat := 0x1FF7CED91

/-- The greatest legal INC (R271). -/
def incMax : Nat := 0x20083126F

/-- After a write of the high word of TMB_INC the whole value is made legal (R271). -/
def incWritten (who : Who) (s : State) : State :=
  let v := max incMin (min incMax (rd64 s A.TMB_INC))
  if v ≠ rd64 s A.TMB_INC then clampLog who A.TMB_INC (wr64 A.TMB_INC v s) else s

/-- Entry to holdover, and exit from it (R273). -/
def setHoldover (b : Bool) (s : State) : State :=
  if isSet s F.TMB_STATUS_HOLDOVER == b then s else raise A.TMB_EVT 3 (setF F.TMB_STATUS_HOLDOVER (bit b) s)

/-! ### Units: arming, matching, firing (R277 to R283) -/

/-- The mode of unit `u`: 0 OFF, 1 ONESHOT, 2 PERIODIC, 3 CAPTURE. -/
def unitMode (s : State) (u : Nat) : Nat := getF s (F.TMB_UNIT_CTL_MODE u)

/-- Whether the target of unit `u` has come: (int32)(TIME[31:0] − CMP) ≥ 0 (R278). -/
def unitDue (s : State) (u : Nat) : Bool :=
  decide ((time s + 2 ^ 32 - (rd s (A.TMB_UNIT_CMP u)).toNat) % 2 ^ 32 < 2 ^ 31)

/-- Arm unit `u` with the CMP it holds; a target already passed sets LATE (R278) (log 60). -/
def arm (u : Nat) (s : State) : State :=
  let late := unitDue s u
  let s := setF (F.TMB_UNIT_STAT_LATE u) (bit late) (setF (F.TMB_UNIT_STAT_ARMED u) 1 s)
  let s := modTmb (fun b => { b with sub := set32 b.sub u 0, skip := set32 b.skip u false, missed := set32 b.missed u false }) s
  if late then raise A.TMB_EVT 0 s else s

/-- CMP of unit `u` has been written (R278). -/
def cmpWritten (u : Nat) (s : State) : State :=
  if unitMode s u = 1 ∨ unitMode s u = 2 then arm u s else s

/-- A captured time goes into CAPT of unit `u` (R282). -/
def putCapture (u t : Nat) (s : State) : State :=
  let s := if isSet s (F.TMB_UNIT_STAT_VALID u) then raise A.TMB_EVT 2 (setF (F.TMB_UNIT_STAT_OVR u) 1 s) else s
  setF (F.TMB_UNIT_STAT_VALID u) 1 (wr64 (A.TMB_UNIT_CAPT u) t s)

/-- Copy a time into CAPT of unit `u`, once in a tick (R282); while a slice tests the unit's group of four, into the shadow unit
(R489). -/
def captureUnit (u t : Nat) (s : State) : State :=
  if at32 s.tmb.capAt u = s.now + 1 then s else
  let s := modTmb (fun b => { b with capAt := set32 b.capAt u (s.now + 1) }) s
  let s := if sliceRunning s = some (80 + u / 4) then modTmb (fun b => { b with shadow := b.shadow ++ [(u, t)] }) s else putCapture u t s
  if isSet s (F.TMB_UNIT_CTL_DLKP u) then pend u t s else s

/-- The captures of the shadow units pass into CAPT when the slice ends (R489). -/
def passCaptures (s : State) : State :=
  each s.tmb.shadow (fun x => putCapture x.1 x.2) (modTmb (fun b => { b with shadow := [] }) s)

/-- CAPNOW: a capture of this tick in a unit in CAPTURE with SRC 2 (R282). -/
def capNow (u : Nat) (s : State) : State :=
  if unitMode s u = 3 ∧ getF s (F.TMB_UNIT_CTL_SRC u) = 2 then captureUnit u (time s) s else s

/-- An event selected by a SRC code occurs at time `t`: every unit in CAPTURE that selects it (R282) (log 161). -/
def captureAt (src t : Nat) (s : State) : State :=
  each ((List.range 32).filter fun u => unitMode s u == 3 && getF s (F.TMB_UNIT_CTL_SRC u) == src) (fun u => captureUnit u t) s

/-- An event selected by a SRC code occurs now (R282). -/
def captureEvent (src : Nat) (s : State) : State :=
  if src = 2 then s else captureAt src (if src < 2 then time s - 4 else time s) s

/-- TIME `d` ns ago, at the present rate (log 161). -/
def timeBack (s : State) (d : Nat) : Nat := time s - d * incNow s / 2 ^ 33

/-- The high word of CAPT has been read (R282). -/
def captRead (u : Nat) (s : State) : State := setF (F.TMB_UNIT_STAT_VALID u) 0 (setF (F.TMB_UNIT_STAT_OVR u) 0 s)

/-- CTL of unit `u`, whose MODE was `old`, has been written: MODE ONESHOT or PERIODIC arms, OFF and CAPTURE disarm; a CAPNOW write that
leaves MODE does nothing else (R278, R282) (log 60). -/
def ctlWritten (u old : Nat) (cap : Bool) (s : State) : State :=
  let m := unitMode s u
  let s := if m = 1 ∨ m = 2 then (if cap ∧ m = old then s else arm u s) else setF (F.TMB_UNIT_STAT_ARMED u) 0 s
  if cap then capNow u s else s

/-- What a match is: not due, a skipped target, or the target reached and whether it fires (log 61). -/
inductive Match where
  | nothing
  | skipped
  | reached (target : Nat) (fires : Bool)
deriving DecidableEq, Repr

/-- The 64-bit time of the target that matches now: the last time whose low word is CMP. -/
def targetTime (s : State) (u : Nat) : Nat :=
  time s - (time s + 2 ^ 32 - (rd s (A.TMB_UNIT_CMP u)).toNat) % 2 ^ 32

/-- An armed unit whose target has come matches (R278, R279) (log 61). -/
def matchUnit (u : Nat) (s : State) : State × Match :=
  if !isSet s (F.TMB_UNIT_STAT_ARMED u) ∨ !unitDue s u then (s, .nothing) else
  let t := targetTime s u
  if unitMode s u = 1 then (setF (F.TMB_UNIT_STAT_ARMED u) 0 s, .reached t true) else
  let k := at32 s.tmb.sub u
  let skip := at32 s.tmb.skip u
  let s := wr (A.TMB_UNIT_CMP u) (rd s (A.TMB_UNIT_CMP u) + rd s (A.TMB_UNIT_PER u)) s
  let s := modTmb (fun b => { b with sub := set32 b.sub u (k + 1) }) s
  let again := unitDue s u
  if skip then
    let first := !at32 s.tmb.missed u
    let s := satF (F.TMB_UNIT_STAT_MISSED u) 1 s
    let s := modTmb (fun b => { b with skip := set32 b.skip u again, missed := set32 b.missed u again }) s
    (if first then raise A.TMB_EVT 1 s else s, .skipped)
  else
    (modTmb (fun b => { b with skip := set32 b.skip u again, missed := set32 b.missed u false }) s,
      .reached t (k % (getF s (F.TMB_UNIT_CTL_SUBM1 u) + 1) == 0))

/-- The SYNC_OUT pulse of a firing, which merges with one that lasts (R283) (log 128). -/
def syncPulse (s : State) : State :=
  syncDrive (modTmb (fun b => { b with syncEnd := max b.syncEnd (s.now + 10 * max 1 (getF s F.TMB_SYNCCTL_WIDTH)) }) s)

/-- The destinations of a firing that the time base itself selects: Lockkeeper source and SYNC_OUT (R280). -/
def fireUnit (u t : Nat) (s : State) : State :=
  let s := if isSet s (F.TMB_UNIT_CTL_DLKP u) then pend u t s else s
  if isSet s (F.TMB_UNIT_CTL_DSYNC u) then syncPulse s else s

/-! ### Ownership (R277) -/

/-- Whether a block names unit `u`: 1 SCN, 2 TOW, 3 FIO. -/
def names (s : State) (u code : Nat) : Bool :=
  match code with
  | 1 => (List.range 16).any fun t => enabled s t && getF s (F.SCN_TASK_CTL_TMBUNIT t) == u
  | 2 => isSet s F.TOW_CTL_EN && getF s F.TOW_CTL_TMBUNIT == u
  | 3 => (List.range 4).any (fun c => isSet s (F.FIO_CH_CTL_EN c) && getF s (F.FIO_CH_CTL_TMBUNIT c) == u)
      || (isSet s F.FIO_AICTL_TRIG && getF s F.FIO_AICTL_TMBUNIT == u)
  | _ => false

/-- The owner that the naming of the blocks gives unit `u`: the lowest code, 0 if none (log 107). -/
def ownerOf (s : State) (u : Nat) : Nat := ([1, 2, 3].find? (names s u)).getD 0

/-- Program unit `u` for a block: PERIODIC or ONESHOT on a target, nothing but the block as destination. -/
def programUnit (u mode target per subm1 : Nat) (s : State) : State :=
  let s := setF (F.TMB_UNIT_CTL_SUBM1 u) subm1 (setF (F.TMB_UNIT_CTL_MODE u) mode s)
  let s := wr (A.TMB_UNIT_CMP u) (w32 target) (wr (A.TMB_UNIT_PER u) (w32 per) s)
  arm u s

/-- The commit instants, and the late start of analog inputs, that the FIO block has programmed in unit `u` are no more, at the F-die too:
it receives no further firing of the unit (R277). -/
def dropInstants (u : Nat) (s : State) : State :=
  let clear := fun (v : Vector (Option Instant) 4) => Vector.ofFn fun c => if getF s (F.FIO_CH_CTL_TMBUNIT c) = u then none else v[c]
  let start := fun (x : Option Nat) => if getF s F.FIO_AICTL_TMBUNIT = u then none else x
  let b := s.fio
  { s with fio := { b with inst := clear b.inst, finst := clear b.finst, aiPrev := start b.aiPrev, aiTarget := start b.aiTarget,
                           down := b.down.map fun f => { f with inst := clear f.inst, start := start f.start } } }

/-- A unit changes hands: the old programming goes, and OWNER takes the new code. -/
def takeUnit (u code : Nat) (s : State) : State :=
  let s := wr (A.TMB_UNIT_CTL u) (w32 (code * 2 ^ 30)) s
  dropInstants u (setF (F.TMB_UNIT_STAT_ARMED u) 0 s)

/-- The first target at or after `t` of the instants `base + k × period`. -/
def firstAfter (base period t : Nat) : Nat :=
  if period = 0 ∨ t ≤ base then base else base + (t - base + period - 1) / period * period

/-- Program unit `u` periodic, to fire for its block at `first` and every `p` ns after it (R279): a period PER cannot hold runs in five
parts, and where `first` is 2^31 ns or more ahead CMP starts at an earlier point of the same grid. -/
def programGrid (u first p : Nat) (s : State) : State :=
  let sub := if p ≤ 2147483000 then 0 else 4
  let q := p / (sub + 1)
  let j := if first < time s + 2147483648 then 0 else (first - time s - 1) / q
  modTmb (fun b => { b with sub := set32 b.sub u ((sub + 1 - j % (sub + 1)) % (sub + 1)) }) (programUnit u 2 (first - j * q) q sub s)

/-- The SCN programs the unit of cyclic task `t` to fire at each L_k from `from_` on (R143, R279). -/
def programTask (t from_ : Nat) (s : State) : State :=
  let p := periodNs s t
  programGrid (getF s (F.SCN_TASK_CTL_TMBUNIT t)) (firstAfter (phaseBase s t) p from_) p s

/-- TOW_PERIOD and TOW_PHASE in ns, and C_0 (R361). -/
def towPeriod (s : State) : Nat := 250 * getF s F.TOW_PERIOD_PERIOD

/-- SCN_EPOCH plus the phase of the Towpath cycle, in ns. -/
def towBase (s : State) : Nat := rd64 s A.SCN_EPOCH + 250 * getF s F.TOW_PHASE_PHASE

/-- Program unit `u` for the block that has taken it. -/
def programFor (u code : Nat) (s : State) : State :=
  match code with
  | 1 => if running s then
      each ((List.range 16).filter fun t => enabled s t && getF s (F.SCN_TASK_CTL_TMBUNIT t) == u) (fun t => programTask t (time s)) s
    else s
  | 2 => programGrid u (firstAfter (towBase s) (towPeriod s) (time s)) (towPeriod s) s
  | 3 => if isSet s F.FIO_AICTL_TRIG ∧ getF s F.FIO_AICTL_TMBUNIT = u then
      programGrid u (time s + 1000 * getF s F.FIO_AICTL_AIPER) (1000 * getF s F.FIO_AICTL_AIPER) (dropInstants u s)
    else s
  | _ => s

/-- SCN_EPOCH has moved while the Towpath sequencer runs: its unit follows (R361). The units of tasks are programmed anew at a restart, and
keep their instants at a takeover (R214). -/
def epochMoved (s : State) : State :=
  each ((List.range 32).filter fun u => getF s (F.TMB_UNIT_CTL_OWNER u) == 2) (programFor · 2) s

/-- After any change of what the blocks name, units are taken and let go (R277) (log 107). -/
def resolveUnits (s : State) : State :=
  each (List.range 32) (fun u s =>
    let code := ownerOf s u
    if code = getF s (F.TMB_UNIT_CTL_OWNER u) then s else programFor u code (takeUnit u code s)) s

/-- What a write to a TMB register starts. -/
def hookTmb (i : WInfo) (s : State) : State :=
  if i.pa = A.TMB_INC + 4 then incWritten i.who s
  else if i.pa = A.TMB_ADJCMD then
    let s := if bitAt i.cmds 1 then adjSlew s else s
    if bitAt i.cmds 0 then adjStep s else s
  else if i.pa = A.TMB_SYNCCTL then syncDrive s
  else if 0x600C0100 ≤ i.pa ∧ i.pa < 0x600C0500 then
    let u := (i.pa - 0x600C0100) / 0x20
    match (i.pa - 0x600C0100) % 0x20 with
    | 0 => ctlWritten u (i.old % 4) (bitAt i.cmds 8) s
    | 4 => cmpWritten u s
    | _ => s
  else s

end Sys2Proof.Machine
end

