-- ==== Sys2Proof/Machine/Fio.lean ====
section
/-! DEFINITION. The FIO block, the field link and the F-die (10_field_io R285 to R307; 01_architecture R17 to R20, R35). -/

namespace Sys2Proof.Machine

/-- Change what the field side holds beside its registers. -/
def modFio (f : Fio → Fio) (s : State) : State := { s with fio := f s.fio }

/-- A bit vector with bit `i` replaced. -/
def bvSet {n : Nat} (v : BitVec n) (i : Nat) (b : Bool) : BitVec n :=
  if b then v ||| (1#n <<< i) else v &&& ~~~(1#n <<< i)

/-! ### Configuration across the barrier (R285 to R287) -/

/-- The registers the F-die holds a copy of. -/
def fioConfig : List Nat :=
  [A.FIO_CTL] ++ (List.range 4).flatMap (fun c => [A.FIO_CH_CTL c, A.FIO_CH_OFF c])
    ++ (List.range 8).map A.FIO_DIGRP ++ (List.range 8).map A.FIO_DIFILT
    ++ [A.FIO_EDGEEN, A.FIO_DTEN, A.FIO_OLEN, A.FIO_AUTORST, A.FIO_SAFEVAL, A.FIO_DTCTL, A.FIO_GRP]
    ++ (List.range 16).map A.FIO_RX ++ (List.range 8).map A.FIO_AI ++ [A.FIO_AICTL]

/-- The configuration part of a register word. -/
def fioMask (pa : Nat) (v : Word) : Word := if pa = A.FIO_GRP then v &&& 0x3F3F#32 else v

/-- A register of the F-die's copy. -/
def fdCopy (s : State) (pa : Nat) : Word := (SMap.get? s.fio.copy pa).getD (fioMask pa (w32 (resetNat pa)))

/-- A register as the F-die acts on it: its reset value until the first complete copy has matched (R287). -/
def fdWord (s : State) (pa : Nat) : Word := if s.fio.matched then fdCopy s pa else fioMask pa (w32 (resetNat pa))

/-- A field of the configuration the F-die acts on. -/
def fdF (s : State) (f : FRef) : Nat := bitsOf (fdWord s f.addr).toNat f.lo f.w

/-- A one-bit field of the configuration the F-die acts on. -/
def fdSet (s : State) (f : FRef) : Bool := fdF s f == 1

/-- Bit `n` of a mask register the F-die acts on. -/
def fdBit (s : State) (pa n : Nat) : Bool := bitAt (fdWord s pa).toNat n

/-- The CRC-32 of a configuration. -/
def fioCrc (read : Nat → Word) : Nat := crc32 (fioConfig.flatMap fun pa => leBytes 4 (read pa).toNat)

/-- FIO_STATUS.PEND follows the list. -/
def syncPend (s : State) : State := setF F.FIO_STATUS_PEND s.fio.pend.length s

/-- A register of the F-die has been written: it is pending once, to be sent with its latest value (R285) (log 130). -/
def fioPend (pa : Nat) (s : State) : State :=
  if fioConfig.contains pa then
    syncPend (modFio (fun b => { b with pend := if b.pend.contains pa then b.pend else b.pend ++ [pa], sent := b.sent.filter (· != pa) }) s)
  else s

/-- Every register is sent again (R286). -/
def fioResend (s : State) : State :=
  raise A.FIO_EVT 6 (setF F.FIO_STATUS_CFGOK 0 (syncPend (modFio (fun b => { b with pend := fioConfig, sent := [] }) s)))

/-- The register the next frame carries: the oldest pending one not yet sent, or, where all have been, the oldest (R285) (log 130). -/
def nextReg (b : Fio) : Option Nat :=
  match b.pend.find? fun pa => !b.sent.contains pa with
  | some pa => some pa
  | none => b.pend.head?

/-- The field counter in time-base terms (R20) (log 131). -/
def fieldTime (s : State) : Nat := s.fio.fbase + (s.now - s.fio.fnow)

/-- The F-die has something to report in its next good frame (log 129). -/
def modNews (f : FdNews → FdNews) (s : State) : State := modFio (fun b => { b with news := f b.news }) s

/-- The F-die reports an event of FIO_EVT. -/
def tell (k : Nat) (s : State) : State := modNews (fun n => { n with events := n.events ++ [k] }) s

/-! ### Outputs and reflex rules (R297 to R304) -/

/-- Input `i` as rule `k` sees it. -/
def rxInput (s : State) (k i : Nat) : Bool :=
  if fdSet s (F.FIO_RX_FILT k) then s.fio.filt.getLsbD i else s.fio.raw.getLsbD i

/-- Whether output byte `i` is in the safe state. -/
def byteSafe (s : State) (i : Nat) : Bool := vget s.fio.safe i

/-- Whether rule `k` is armed (R302) (log 65). -/
def rxArmed (s : State) (k : Nat) : Bool :=
  fdSet s (F.FIO_RX_EN k) &&
    (if byteSafe s (4 + k / 8) then fdSet s (F.FIO_RX_SAFEKEEP k) else (vget s.fio.cmt (4 + k / 8)).getLsbD (k % 8))

/-- f of rule `k` (R303). -/
def rxF (s : State) (k : Nat) : Bool :=
  bitAt (fdF s (F.FIO_RX_LUT k)) (2 * bit (rxInput s k (fdF s (F.FIO_RX_INA k))) + bit (rxInput s k (fdF s (F.FIO_RX_INB k))))

/-- The bits of a predicate on 0 .. n−1. -/
def bitsFrom (n : Nat) (p : Nat → Bool) : Nat := (List.range n).foldl (fun acc k => acc + bit (p k) * 2 ^ k) 0


/-- The state output `n` is commanded to, reflex rules included, before dark tests and protection (R302). -/
def commanded (s : State) (n : Nat) : Bool :=
  let base := if byteSafe s (n / 8) then fdBit s A.FIO_SAFEVAL n else (vget s.fio.cmt (n / 8)).getLsbD (n % 8)
  let on := fun (k mode : Nat) => fdF s (F.FIO_RX_MODE k) == mode && fdF s (F.FIO_RX_TARGET k) == n
  let v := match (List.range 16).find? fun k => rxArmed s k && on k 0 with
    | some k => s.fio.rxR.getLsbD k
    | none => base
  let v := v || (List.range 16).any fun k => s.fio.rxR.getLsbD k && on k 1
  v && !(List.range 16).any fun k => s.fio.rxR.getLsbD k && on k 2

/-- Whether the switch of group `g` is open. -/
def tripped (s : State) (g : Nat) : Bool := s.fio.trip.getLsbD g

/-- Whether the supply of group `g` is present. -/
def vok (s : State) (g : Nat) : Bool := s.fio.vok.getLsbD g

/-- Whether output `n` is on but for its dark test (R287, R302). -/
def driven (s : State) (n : Nat) : Bool :=
  s.fio.on && s.fio.matched && commanded s n && !s.fio.off.getLsbD n && !tripped s (n / 16) && vok s (n / 16)

/-- Each output that is now driven otherwise than it was has switched (R298). -/
def noteDrive (s : State) : State :=
  let v := BitVec.ofNat 32 (bitsFrom 32 (driven s))
  if v = s.fio.drv then s else
  modFio (fun b => { b with drv := v, drvAt := Vector.ofFn fun n => if v.getLsbD n.val == b.drv.getLsbD n.val then vget b.drvAt n.val else s.now }) s

/-- The reflex rules follow the inputs: held bits and results; HIT where a result first becomes 1 while armed (R302, R304) (log 65). -/
def evalRx (s : State) : State :=
  let armed := BitVec.ofNat 16 (bitsFrom 16 (rxArmed s))
  let held := BitVec.ofNat 16 (bitsFrom 16 fun k => rxArmed s k && (rxF s k || s.fio.rxHeld.getLsbD k))
  let r := BitVec.ofNat 16 (bitsFrom 16 fun k => rxArmed s k && (if fdSet s (F.FIO_RX_LATCH k) then held.getLsbD k else rxF s k))
  let first := r &&& ~~~(s.fio.rxSeen &&& armed)
  let s := modFio (fun b => { b with rxHeld := held, rxR := r, rxSeen := (b.rxSeen &&& armed) ||| r, hit := b.hit ||| first }) s
  noteDrive (if first = 0 then s else tell 4 s)

/-- DTPER and DTW in ns. -/
def darkPeriod (s : State) : Nat := 1000 * fdF s F.FIO_DTCTL_DTPER

/-- The width of a dark pulse in ns. -/
def darkWidth (s : State) : Nat := 1000 * fdF s F.FIO_DTCTL_DTW

/-- Field time since the last dark pulse of output `n` was due: its pulses lie at offset j × DTPER ÷ 16 of each period of the field
counter (R299) (log 132). -/
def darkPos (s : State) (n : Nat) : Nat :=
  (fieldTime s + darkPeriod s - n % 16 * darkPeriod s / 16) % darkPeriod s

/-- Whether output `n` is switched off for a dark pulse (R299) (log 132). -/
def darkNow (s : State) (n : Nat) : Bool := fdBit s A.FIO_DTEN n && decide (darkPos s n < darkWidth s)

/-- Whether the driver of output `n` is on (R302). -/
def outputOn (s : State) (n : Nat) : Bool := driven s n && !darkNow s n

/-- The latched fault code of output `n`. -/
def outCode (s : State) (n : Nat) : Nat := vget s.fio.codes n

/-- Whether the condition of a fault code of output `n` is present (log 66). -/
def condOf (s : State) (n code : Nat) : Bool := bitAt (vget s.fio.conds n) code

/-- A fault condition of output `n` comes or goes. -/
def setCond (n code : Nat) (b : Bool) (s : State) : State :=
  modFio (fun x => { x with conds := vset x.conds n (putBits (vget x.conds n) code 1 (bit b)) }) s

/-- Latch a fault code of output `n`, unless one is latched (R298) (log 66). -/
def latchCode (n code : Nat) (s : State) : State :=
  if outCode s n ≠ 0 then s else tell 2 (modFio (fun b => { b with codes := vset b.codes n code }) s)

/-- The switch of group `g` opens: its outputs are off with code GROUP (R297, R298) (log 68). -/
def groupTrip (g : Nat) (s : State) : State :=
  let was := tripped s g
  let s := modFio (fun b => { b with trip := bvSet b.trip g true, overAt := vset b.overAt g none }) s
  let s := each (List.range 16) (fun j => latchCode (16 * g + j) 7) s
  noteDrive (if was then s else tell 3 s)

/-- The current limit of group `g` in mA. -/
def groupLimit (s : State) (g : Nat) : Nat := 250 * fdF s (if g = 0 then F.FIO_GRP_ILIMA else F.FIO_GRP_ILIMB)

/-- The summed current of group `g` is sensed: above ILIM for 100 µs it opens the switch (R297). -/
def groupCurrent (g ma : Nat) (s : State) : State :=
  if !s.fio.on ∨ tripped s g then s else
  if ma ≤ groupLimit s g then modFio (fun b => { b with overAt := vset b.overAt g none }) s else
  match vget s.fio.overAt g with
  | none => modFio (fun b => { b with overAt := vset b.overAt g (some s.now) }) s
  | some t => if t + 100000 ≤ s.now then groupTrip g s else s

/-- Whether the cause of a trip of group `g` is still there: an output whose dark test or read-back fails. No current flows
through an open switch, so a trip by the summed current leaves no cause (log 68). -/
def tripCause (s : State) (g : Nat) : Bool :=
  (List.range 16).any fun j => condOf s (16 * g + j) 6 || (condOf s (16 * g + j) 5 && fdBit s A.FIO_DTEN (16 * g + j))

/-- Tripped group switches whose cause has gone close (R297). -/
def grpReset (s : State) : State :=
  each [0, 1] (fun g s => if tripCause s g then s else modFio (fun b => { b with trip := bvSet b.trip g false }) s) s

/-- Whether the condition of the latched code of output `n` is still present. -/
def condPresent (s : State) (n : Nat) : Bool :=
  match outCode s n with
  | 7 => tripped s (n / 16)
  | 8 => !vok s (n / 16)
  | c => condOf s n c

/-- Whether output `n` is in overcurrent or thermal shutdown. -/
def overloaded (s : State) (n : Nat) : Bool := condOf s n 1 || condOf s n 2

/-- FAULTACK: each latched fault whose condition has gone is cleared; a channel that codes 1 and 2 have switched off is released (R298). -/
def faultAck (s : State) : State :=
  each (List.range 32) (fun n s =>
    let s := if condPresent s n then s else modFio (fun b => { b with codes := vset b.codes n 0 }) s
    if overloaded s n then s else modFio (fun b => { b with off := bvSet b.off n false }) s) s

/-- RBDLY in ns. -/
def readDelay (s : State) : Nat := 10000 * fdF s F.FIO_DTCTL_RBDLY

/-- How long output `n` has been driven as it is, in ns; where its dark test is enabled, on only since the end of its last dark pulse. -/
def drivenFor (s : State) (n : Nat) : Nat :=
  let d := s.now - vget s.fio.drvAt n
  if driven s n ∧ fdBit s A.FIO_DTEN n then min d (darkPos s n - darkWidth s) else d

/-- Whether a fault condition can have lasted its detection time at output `n`: in its current limit for 1 ms, or as it stands for RBDLY
(R298). -/
def faultFits (s : State) (n code : Nat) : Bool :=
  match code with
  | 1 => driven s n && decide (vget s.fio.drvAt n + 1000000 ≤ s.now)
  | 2 => true
  | 3 => outputOn s n && fdBit s A.FIO_OLEN n && decide (readDelay s ≤ drivenFor s n)
  | 4 => !driven s n && decide (readDelay s ≤ drivenFor s n)
  | 5 => outputOn s n && !overloaded s n && decide (readDelay s ≤ drivenFor s n)
  | _ => false

/-- An output fault condition has lasted its detection time, or has gone (R298) (log 66). -/
def outputFault (n code : Nat) (present : Bool) (s : State) : State :=
  if !s.fio.on then s else
  if !present then setCond n code false s else
  if !faultFits s n code then s else
  let s := latchCode n code (setCond n code true s)
  if code ≤ 2 then noteDrive (modFio (fun b => { b with off := bvSet b.off n true, offAt := vset b.offAt n s.now }) s)
  else if code = 5 ∧ fdBit s A.FIO_DTEN n then groupTrip (n / 16) s
  else s

/-- A channel switched off by code 1 or 2 retries every 10 ms while it is commanded on (R298): it goes on unless it is still in thermal
shutdown; no current flows while it is off. -/
def autoRetry (n : Nat) (s : State) : State :=
  if s.fio.on ∧ s.fio.off.getLsbD n ∧ fdBit s A.FIO_AUTORST n ∧ commanded s n ∧ vget s.fio.offAt n + 10000000 ≤ s.now then
    noteDrive (modFio (fun b => { b with off := bvSet b.off n (condOf s n 2), offAt := vset b.offAt n s.now }) (setCond n 1 false s))
  else s

/-- The end of a dark pulse of output `n`: `low` says that the pin is below the off threshold (R299). -/
def darkTest (n : Nat) (low : Bool) (s : State) : State :=
  if !driven s n ∨ !fdBit s A.FIO_DTEN n ∨ darkPos s n + 10 < darkWidth s ∨ darkWidth s < darkPos s n then s else
  if low then setCond n 6 false s else groupTrip (n / 16) (latchCode n 6 (setCond n 6 true s))

/-- VOUT_A or VOUT_B appears or vanishes (R298, R507). -/
def voutChange (g : Nat) (present : Bool) (s : State) : State :=
  if vok s g = present then s else
  let s := noteDrive (modFio (fun b => { b with vok := bvSet b.vok g present }) s)
  if !s.fio.on then s else
  tell 8 (if present then s else each (List.range 16) (fun j => latchCode (16 * g + j) 8) s)

/-! ### Safe state and applying bytes (R300, R301) -/

/-- Whether the F-die is in the safe state; bytes 0x07 to 0x0F are ignored (R289) (log 67). -/
def inSafe (s : State) : Bool := (List.range 7).any (byteSafe s)

/-- The F-die enters the safe state for a cause (R301) (log 33, 67). -/
def enterSafe (cause : Nat) (s : State) : State :=
  let s := modFio (fun b => { b with
    safe := Vector.replicate 16 true, fresh := Vector.replicate 16 false, finst := Vector.replicate 4 none,
    causes := if cause = 1 then b.causes else putBits b.causes (cause - 1) 1 1, cause := cause }) s
  evalRx (modNews (fun n => { n with entries := n.entries ++ [cause] }) s)

/-- A cause of the safe state has gone (log 67). -/
def causeGone (cause : Nat) (s : State) : State := modFio (fun b => { b with causes := putBits b.causes (cause - 1) 1 0 }) s

/-- Output byte `i` takes its received value: arming bits committed 0 clear HIT, a committed 0→1 of FAULTACK acts
(R289, R304). -/
def applyByte (i : Nat) (s : State) : State :=
  let new := vget s.fio.got i
  let old := vget s.fio.cmt i
  let s := modFio (fun b => { b with cmt := vset b.cmt i new, safe := vset b.safe i false }) s
  let s := if i = 4 then modFio (fun b => { b with hit := b.hit &&& (0xFF00#16 ||| new.setWidth 16) }) s
    else if i = 5 then modFio (fun b => { b with hit := b.hit &&& (0x00FF#16 ||| (new.setWidth 16 <<< 8)) }) s else s
  if i = 6 ∧ new.getLsbD 0 ∧ !old.getLsbD 0 then faultAck (grpReset s) else s

/-- Whether output byte `i` is in an enabled channel of the F-die's copy (log 105). -/
def inChannel (s : State) (i : Nat) : Bool :=
  (List.range 4).any fun c => fdSet s (F.FIO_CH_CTL_EN c) && bitAt (fdF s (F.FIO_CH_CTL_BYTES c)) i

/-- A byte may be applied now: it is not safe, or it may leave the safe state (R301). -/
def mayApply (s : State) (i : Nat) : Bool := !byteSafe s i || (s.fio.causes == 0 && vget s.fio.fresh i)

/-- The commit of cycle `cyc` of a task has not reached the F-die by its instant (R35, R158, R300) (log 52). -/
def lateCommit (t cyc : Nat) (s : State) : State :=
  let s := raise A.SCN_EVT 1 (raise A.FIO_EVT 7 (satF F.FIO_LATECNT_COUNT 1 (satF (F.SCN_TASK_TSTAT_LATECNT t) 1 s)))
  let k := s.task t
  let n := if k.lateCyc = cyc then k.lateRun
    else if k.lateCyc ≠ 0 ∧ cyc = (if k.lateCyc = 0xFFFFFFFF then 1 else k.lateCyc + 1) then k.lateRun + 1 else 1
  let s := modTask t (fun k => { k with lateRun := n, lateCyc := cyc }) s
  if getF s F.SCN_WDCTL_LATEMAX < n then controlStop .late (some t) s else s

/-- Whether the field link is up at the F-die: it has had a good frame within 4 frame periods, and the L-die holds the link to be up (R19)
(log 133). -/
def fieldUp (s : State) : Bool := s.fio.flink && decide (s.now < s.fio.flastGood + 8000)

/-- Whether cycle `a` of a task comes before cycle `b`: CYCNO goes on from 0xFFFFFFFF to 1, and 0 is none (R143). -/
def cycleBefore (a b : Nat) : Bool := (a == 0 && b != 0) || (a != b && decide ((b + 2 ^ 32 - a) % 2 ^ 32 < 2 ^ 31))

/-- The commit instant of channel `c` is due: bytes of this cycle are applied, earlier ones keep the previous outputs and are reported late.
A target that falls while the field link is down is not performed (R281, R300) (log 52, 105, 133). -/
def performInstant (c : Nat) (i : Instant) (s : State) : State :=
  let s := modFio (fun b => { b with finst := vset b.finst c none, fdone := vset b.fdone c (i.target + 1) }) s
  if !fieldUp s then s else
  let bytes := (List.range 7).filter fun o => bitAt (fdF s (F.FIO_CH_CTL_BYTES c)) o
  let late := bytes.any fun o => cycleBefore (vget s.fio.gotTag o) i.cyc
  let s := each (bytes.filter fun o => !cycleBefore (vget s.fio.gotTag o) i.cyc && mayApply s o) applyByte s
  let s := if late then modNews (fun n => { n with late := n.late ++ [(fdF s (F.FIO_CH_CTL_TASK c), i.cyc)] }) s else s
  evalRx s

/-- F_DIE_COMMIT_INSTANT: the target has come in field-counter terms (R280, R300) (log 105). -/
def commitInstantReached (c : Nat) (s : State) : State :=
  match vget s.fio.finst c with
  | none => s
  | some i => if !s.fio.on ∨ fieldTime s < i.target then s else performInstant c i s

/-- A task has latched: each channel that names it arms its unit at LATCHT + OFFSET; a target nearer than 4.4 µs is late (R281, R300). -/
def fioLatched (t : Nat) (s : State) : State :=
  each ((List.range 4).filter fun c => isSet s (F.FIO_CH_CTL_EN c) && getF s (F.FIO_CH_CTL_TASK c) == t) (fun c s =>
    let u := getF s (F.FIO_CH_CTL_TMBUNIT c)
    if getF s (F.TMB_UNIT_CTL_OWNER u) ≠ 3 then s else
    let target := latchTime s t + 1000 * getF s (F.FIO_CH_OFF_OFFSET c)
    let late := decide (target < time s + 4400)
    let s := programUnit u 1 target (getF s (F.TMB_UNIT_PER_PER u)) 0 s
    let s := if late then raise A.TMB_EVT 0 (setF (F.TMB_UNIT_STAT_LATE u) 1 s) else s
    modFio (fun b => { b with inst := vset b.inst c (some ⟨target, getF s (F.SCN_TASK_CYCNO_CYCNO t), late⟩) }) s) s

/-! ### Frames (R17, R19, R33, R285 to R290) -/

/-- The image bytes a field-to-logic frame carries; `pins` are the read-back states of the outputs; the number of the last round is the
L-die's to fill in (R288). -/
def fioBytes (s : State) (pins : BitVec 32) : List Byte :=
  let b := s.fio
  leBytes 8 b.filt.toNat ++ leBytes 8 b.raw.toNat ++ (List.range 8).flatMap (fun c => leBytes 2 (vget b.ai c).toNat)
    ++ leBytes 4 pins.toNat ++ leBytes 4 (bitsFrom 32 fun n => outCode s n != 0) ++ [b8 b.aiOver.toNat, b8 b.aiBreak.toNat]
    ++ leBytes 2 b.hit.toNat
    ++ [b8 (b.vok.toNat + 4 * b.trip.toNat + 16 * bit (inSafe s) + 32 * (if inSafe s then b.cause else 0))]
    ++ [0, 0, 0] ++ leBytes 4 0 ++ List.replicate 12 0

/-- The quality code of field link byte `k` as the F-die sees it (R290). -/
def fioQuality (s : State) (k : Nat) : Nat :=
  if k < 0x10 then (if inSafe s ∧ (bitAt s.fio.causes 2 ∨ s.fio.cause = 3) then 2 else 0)
  else if k < 0x20 then
    let c := (k - 0x10) / 4 * 2
    if !fdSet s (F.FIO_AI_EN c) ∨ !fdSet s (F.FIO_AI_EN (c + 1)) ∨ s.fio.aiBreak.getLsbD c ∨ s.fio.aiBreak.getLsbD (c + 1) then 2
    else bit (s.fio.aiOver.getLsbD c || s.fio.aiOver.getLsbD (c + 1))
  else if k < 0x28 then bit (!vok s (k % 4 / 2))
  else 0

/-- The quality the L-die adds: the inputs of a group with a configuration write pending are UNCERTAIN, and every byte is BAD until
calibration items 4 to 6 have run (R290, R470). -/
def pendQuality (s : State) (k : Nat) : Nat :=
  if s.cfg.calDue then 2
  else if k < 0x10 then bit (s.fio.pend.contains (A.FIO_DIGRP (k % 8)) || s.fio.pend.contains (A.FIO_DIFILT (k % 8)))
  else 0

/-- The quality of every field link byte becomes BAD (R19, R290). -/
def fieldBad (s : State) : State := each (List.range 64) (setQuality 2) s

/-- The status values the F-die sends; it senses the group currents itself (FIO_GRPI). -/
def fdStatus (s : State) (ia ib : Nat) : FdStatus :=
  { codes := s.fio.codes, trip := s.fio.trip, vok := s.fio.vok, hit := s.fio.hit, active := s.fio.rxR, safe := inSafe s,
    cause := s.fio.cause, ia := ia, ib := ib }

/-- The logic-to-field frame that begins now. -/
def downFrame (s : State) : DownFrame :=
  { out := Vector.ofFn fun i => byteAt s (0x30020000 + i.val), tag := s.fio.tag,
    reg := (nextReg s.fio).map fun pa => (pa, fioMask pa (rd s pa)), safe := s.scan.sendSafe,
    inst := Vector.ofFn fun c =>
      if isSet s (F.FIO_CH_CTL_EN c.val) ∧ getF s (F.TMB_UNIT_CTL_OWNER (getF s (F.FIO_CH_CTL_TMBUNIT c.val))) = 3 then vget s.fio.inst c else none,
    start := s.fio.aiTarget,
    cfgok := isSet s F.FIO_STATUS_CFGOK, cmd := s.fio.cmd, link := isSet s F.FIO_STATUS_LINK, time := time s, sent := s.now }

/-- The field-to-logic frame that begins now. -/
def upFrame (pins : BitVec 32) (ia ib : Nat) (s : State) : UpFrame :=
  { bytes := fioBytes s pins, quality := (List.range 64).map (fioQuality s), edges := s.fio.fedges.take (min 4 (256 - s.fio.edges.length)),
    ack := s.fio.ack, crc := if s.fio.frames % 16 == 15 then some (fioCrc (fdCopy s)) else none, restart := s.fio.restarted,
    status := fdStatus s ia ib, news := s.fio.news }

/-- The two sides of the field link send a frame each (R17, R285, R288): read-back states and group currents are what the
F-die senses. -/
def frameTx (pins : BitVec 32) (ia ib : Nat) (s : State) : State :=
  let tag := s.scan.localNew.foldl (fun v (o, c) => vset v o c) s.fio.tag
  let s := modScan (fun c => { c with localNew := [] }) (modFio (fun b => { b with tag := tag }) s)
  let f := downFrame s
  let s := modFio (fun b => { b with
    down := some f, cmd := 0, cmdWait := b.cmdWait ||| b.cmd
    sent := match f.reg with
      | some (pa, _) => if b.sent.contains pa then [pa] else b.sent ++ [pa]
      | none => b.sent }) s
  if !s.fio.on then s else
  let u := upFrame pins ia ib s
  modFio (fun b => { b with up := some u, ack := none, frames := b.frames + 1, fsent := u.edges.length }) s

/-- FIO_EDGESTAT.COUNT follows the FIO FIFO. -/
def syncEdges (s : State) : State := setF F.FIO_EDGESTAT_COUNT s.fio.edges.length s

/-- Entries reach the FIO FIFO, or go where an EDGEFLUSH is on its way; becoming non-empty raises source 544 (R295). -/
def edgesIn (es : List Edge) (s : State) : State :=
  if es.isEmpty then s else
  let s := modFio (fun b => { b with fedges := b.fedges.drop b.fsent, fsent := 0 }) s
  if bitAt (s.fio.cmd ||| s.fio.cmdWait) 2 then s else
  let was := s.fio.edges.isEmpty
  let s := syncEdges (modFio (fun b => { b with edges := b.edges ++ es }) s)
  if was then pend 544 s.fio.edges.length s else s

/-- The link quality at the L-die changes (R19). -/
def setLink (up : Bool) (s : State) : State :=
  let s := setF F.SYS_STATUS_FIELDOK (bit up) (setF F.FIO_STATUS_LINK (bit up) s)
  pend 545 (bit up) (raise A.FIO_EVT 0 s)

/-- The L-die shows the status of a good frame (R17). -/
def showStatus (f : FdStatus) (s : State) : State :=
  let s := each (List.range 4) (fun w => wr (A.FIO_DOCODE w) (w32 ((List.range 8).foldl (fun a j => a + vget f.codes (8 * w + j) % 16 * 16 ^ j) 0))) s
  let s := wr A.FIO_DOFAULT (w32 (bitsFrom 32 fun n => vget f.codes n != 0)) s
  let s := setF F.FIO_GRP_TRIPA (bit (f.trip.getLsbD 0)) (setF F.FIO_GRP_TRIPB (bit (f.trip.getLsbD 1)) s)
  let s := setF F.FIO_GRP_VOKA (bit (f.vok.getLsbD 0)) (setF F.FIO_GRP_VOKB (bit (f.vok.getLsbD 1)) s)
  let s := setF F.FIO_RXSTAT_HIT f.hit.toNat (setF F.FIO_RXSTAT_ACTIVE f.active.toNat s)
  let s := setF F.FIO_STATUS_SAFE (bit f.safe) (setF F.FIO_STATUS_SAFECAUSE (if f.safe then f.cause else 0) s)
  setF F.FIO_GRPI_IA f.ia (setF F.FIO_GRPI_IB f.ib s)

/-- The L-die takes what the F-die reports in a good frame: events, entries into the safe state (fault 0x49), late commits, counts, commands
performed; what it has taken is reported no more (log 129). -/
def takeNews (f : FdNews) (s : State) : State :=
  let s := modFio (fun b => { b with
    cmd := if f.bad ≠ 0 then b.cmd ||| (b.cmdWait &&& (7 ^^^ (f.done % 8))) else b.cmd
    cmdWait := if f.bad ≠ 0 then 0 else b.cmdWait &&& (7 ^^^ (f.done % 8))
    news := { events := b.news.events.drop f.events.length, entries := b.news.entries.drop f.entries.length, late := b.news.late.drop f.late.length,
              bad := b.news.bad - f.bad, lost := b.news.lost - f.lost, aiLost := b.news.aiLost - f.aiLost,
              rounds := b.news.rounds - f.rounds, done := b.news.done &&& (7 ^^^ (f.done % 8)) } }) s
  let s := each f.events (fun k => raise A.FIO_EVT k) s
  let s := each f.entries (fun c s => if c = 2 ∨ c = 4 then logFault 0x49 0 [c] (raise A.FIO_EVT 1 s) else raise A.FIO_EVT 1 s) s
  let s := satF F.FIO_LINKERR_FCRC f.bad s
  let s := if f.lost = 0 then s else raise A.FIO_EVT 5 (satF F.FIO_EDGESTAT_LOST f.lost s)
  let s := if f.aiLost = 0 then s else raise A.FIO_EVT 9 (satF F.FIO_AILOST_COUNT f.aiLost s)
  each f.late (fun (t, cyc) => lateCommit t cyc) s

/-- The register a good frame acknowledges is no longer pending, unless it has been written since (R285). -/
def takeAck (ack : Option (Nat × Word)) (s : State) : State :=
  match ack with
  | some (pa, v) => if fioMask pa (rd s pa) = v then
      syncPend (modFio (fun b => { b with pend := b.pend.filter (· != pa), sent := b.sent.filter (· != pa) }) s) else s
  | none => s

/-- The check of the configuration copy: a restart, or a CRC that differs while nothing is pending, has every register sent again; a CRC
that agrees sets CFGOK (R286). -/
def checkCopy (f : UpFrame) (s : State) : State :=
  if f.restart then
    fioResend (modFio (fun b => { b with restarted := false, cmd := b.cmd ||| b.cmdWait, cmdWait := 0 }) s) else
  match f.crc with
  | some c => if s.fio.pend.isEmpty then
      (if c = fioCrc (fun pa => fioMask pa (rd s pa)) then setF F.FIO_STATUS_CFGOK 1 s else fioResend s) else s
  | none => s

/-- A good field-to-logic frame at the L-die (R286, R288, R290, R295, R306). -/
def upGood (f : UpFrame) (s : State) : State :=
  let s := modFio (fun b => { b with good := b.good + 1, lastGood := s.now }) s
  let s := if !isSet s F.FIO_STATUS_LINK ∧ 2 ≤ s.fio.good then setLink true s else s
  let s := putBytes 0x30000000 f.bytes s
  let s := if isSet s F.FIO_STATUS_LINK then each f.quality.zipIdx (fun (q, k) => setQuality (max q (pendQuality s k)) k) s else s
  let s := showStatus f.status (takeAck f.ack s)
  let s := if f.news.rounds = 0 then s else
    let s := incF F.FIO_AIROUND_ROUND f.news.rounds s
    pend 546 (getF s F.FIO_AIROUND_ROUND) s
  let s := putBytes 0x30000030 (leBytes 4 (getF s F.FIO_AIROUND_ROUND)) s
  checkCopy f (edgesIn f.edges (takeNews f.news s))

/-- The L-die receives the frame on its way, with a good or a bad CRC (R17). -/
def upRx (good : Bool) (s : State) : State :=
  match s.fio.up with
  | none => s
  | some f =>
    let s := modFio (fun b => { b with up := none }) s
    if good then upGood f s else modFio (fun b => { b with good := 0 }) (satF F.FIO_LINKERR_LCRC 1 s)

/-- No good frame for 4 frame periods: the link is down (R19, fault 0x48). -/
def linkLoss (s : State) : State :=
  if isSet s F.FIO_STATUS_LINK ∧ s.fio.lastGood + 8000 ≤ s.now then
    logFault 0x48 0 [(rd s A.FIO_LINKERR).toNat] (fieldBad (setLink false (modFio (fun b => { b with good := 0 }) s)))
  else s

/-- Bytes of a good frame reach the F-die: those in no channel are applied on arrival (R300); a commit that comes with SAFE did not arrive
after the entry (R301). -/
def bytesArrive (f : DownFrame) (s : State) : State :=
  let s := each (List.range 16) (fun i s =>
    modFio (fun b => { b with
      fresh := if vget f.tag i ≠ vget b.gotTag i ∧ vget f.tag i ≠ 0 ∧ !f.safe then vset b.fresh i true else b.fresh
      gotTag := vset b.gotTag i (vget f.tag i), got := vset b.got i (vget f.out i) }) s) s
  each ((List.range 7).filter fun i => !inChannel s i && mayApply s i) applyByte s

/-- Whether an analog channel is enabled at the F-die. -/
def aiAny (s : State) : Bool := (List.range 8).any fun c => fdSet s (F.FIO_AI_EN c)

/-- A round starts, or the start is lost; without an enabled channel there is nothing to convert (R306). -/
def aiBegin (s : State) : State :=
  if !s.fio.on ∨ !s.fio.matched ∨ !fdSet s F.FIO_AICTL_TRIG ∨ !aiAny s then s else
  if s.fio.aiRun then modNews (fun n => { n with aiLost := n.aiLost + 1 }) s
  else modFio (fun b => { b with aiRun := true, aiAt := s.now }) s

/-- A late start of the analog inputs acts with the first frame that carries it (R281). -/
def startArrives (f : DownFrame) (s : State) : State :=
  match f.start with
  | none => s
  | some t => if s.fio.aiDone = t + 1 then s else aiBegin (modFio (fun b => { b with aiDone := t + 1 }) s)

/-- The commit instants of a frame are known from now on, and no others, but for one that has passed, and for one whose target fell while the
link was down; one that came too late for the link is performed at once (R281) (log 133). -/
def instantsArrive (f : DownFrame) (before : Nat) (s : State) : State :=
  each (List.range 4) (fun c s =>
    match vget f.inst c with
    | none => modFio (fun b => { b with finst := vset b.finst c none }) s
    | some i =>
      if vget s.fio.fdone c = i.target + 1 then s
      else if i.target < fieldTime s ∧ before + 8000 < s.now ∧ !i.late then modFio (fun b => { b with fdone := vset b.fdone c (i.target + 1) }) s
      else if i.late then performInstant c i s
      else modFio (fun b => { b with finst := vset b.finst c (some i) }) s) s

/-- FIO_CMD bits that a frame carries act: EDGEFLUSH, GRPRST, FAULTACK (R295, R297, R298). -/
def cmdArrives (cmd : Nat) (s : State) : State :=
  let s := if bitAt cmd 2 then modFio (fun b => { b with fedges := [], fsent := 0 }) s else s
  let s := if bitAt cmd 1 then grpReset s else s
  let s := if bitAt cmd 0 then faultAck s else s
  modNews (fun n => { n with done := n.done ||| cmd }) s

/-- The enabled analog channels convert: always, back to back, where TRIG is 0, else while a triggered round runs (R306). -/
def aiBusy (s : State) : Bool :=
  s.fio.on && s.fio.matched && aiAny s && (!fdSet s F.FIO_AICTL_TRIG || s.fio.aiRun)

/-- The F-die begins to act on another configuration: an input whose sampling changes begins a new run, and rounds that become back to back
begin; with no channel left a round ends (R293, R306) (log 134). -/
def configTurns (before s : State) : State :=
  let turned := fun g => fdSet before (F.FIO_DIGRP_PULSED g) != fdSet s (F.FIO_DIGRP_PULSED g)
  let s := if (List.range 8).any turned then modFio (fun b => { b with
    samples := Vector.ofFn fun i => if turned (i.val / 8) then 0 else b.samples.get i
    rawNow := Vector.ofFn fun i => if turned (i.val / 8) then s.now else b.rawNow.get i
    rawTime := Vector.ofFn fun i => if turned (i.val / 8) then fieldTime s else b.rawTime.get i }) s else s
  let s := if aiAny s then s else modFio (fun b => { b with aiRun := false }) s
  if aiBusy s && !aiBusy before then modFio (fun b => { b with aiAt := s.now }) s else s

/-- The register of a good frame is stored; CFGOK says that the copy matches, once the F-die has heard since its restart that it does not
(R285, R286, R287). -/
def copyArrives (f : DownFrame) (s : State) : State :=
  let u := match f.reg with
    | some (pa, v) => modFio (fun b => { b with copy := SMap.put (fioMask pa (w32 (resetNat pa))) b.copy pa v, ack := some (pa, v) }) s
    | none => s
  let u := modFio (fun b => { b with resynced := b.resynced || !f.cfgok, matched := b.matched || (f.cfgok && b.resynced) }) u
  configTurns s (if f.cfgok ∧ s.fio.resynced then causeGone 3 u else u)

/-- A good logic-to-field frame at the F-die; `sound` says that its oscillator and its configuration check pass
(R285, R287, R301) (log 131). -/
def downGood (f : DownFrame) (sound : Bool) (s : State) : State :=
  let before := s.fio.flastGood
  let s := modFio (fun b => { b with fgood := b.fgood + 1, flastGood := s.now, fbase := f.time, fnow := f.sent, flink := f.link }) s
  let s := copyArrives f s
  let s := if 2 ≤ s.fio.fgood then causeGone 2 s else s
  let s := if f.safe then enterSafe 1 (modScan (fun c => { c with sendSafe := false }) s) else s
  let s := if sound then causeGone 4 s else if bitAt s.fio.causes 3 then s else enterSafe 4 s
  evalRx (startArrives f (instantsArrive f before (cmdArrives f.cmd (bytesArrive f s))))

/-- The F-die receives the frame on its way (R17, R285). -/
def downRx (good sound : Bool) (s : State) : State :=
  match s.fio.down with
  | none => s
  | some f =>
    let s := modFio (fun b => { b with down := none }) s
    if !s.fio.on then s else
    if good then downGood f sound s else
    let s := modNews (fun n => { n with bad := n.bad + 1 }) (modFio (fun b => { b with fgood := 0 }) s)
    if sound ∨ bitAt s.fio.causes 3 then s else enterSafe 4 s

/-- The silence watchdog of the F-die (R301): no good frame for SWDTMO frame periods. -/
def silence (s : State) : State :=
  if s.fio.on ∧ !bitAt s.fio.causes 1 ∧ s.fio.flastGood + 2000 * fdF s F.FIO_CTL_SWDTMO ≤ s.now then
    enterSafe 2 (modFio (fun b => { b with fgood := 0 }) s)
  else s

/-- The state of the F-die right after VFIELD comes: outputs off, no copy, safe with cause POWERUP (R287). -/
def fdieReset (on : Bool) (b : Fio) : Fio :=
  { Fio.reset with on := on, restarted := on, pend := b.pend, sent := b.sent, cmd := b.cmd, cmdWait := b.cmdWait, edges := b.edges,
                   tag := b.tag, inst := b.inst, down := b.down, good := b.good, lastGood := b.lastGood, vok := b.vok }

/-- The F-die powers up from VFIELD: it reports the entry, and finds which VOUT is missing (R287, R298). -/
def fdieUp (s : State) : State :=
  if s.fio.on then s else
  let s := modFio (fdieReset true) s
  let s := modFio (fun b => { b with flastGood := s.now, fnow := s.now, drvAt := Vector.replicate 32 s.now, news := { b.news with entries := [3] } }) s
  each (List.range 32) (fun n s => if vok s (n / 16) then s else latchCode n 8 s) s

/-- VFIELD is lost: the F-die stops with its outputs off (R287, R509). -/
def fdieDown (s : State) : State := modFio (fdieReset false) s

/-! ### Inputs (R291 to R296) -/

/-- The filter times of R293 in ns, by code. -/
def filterNs (code : Nat) : Nat :=
  [0, 100, 200, 500, 1000, 2000, 5000, 10000, 20000, 50000, 100000, 200000, 500000, 1000000, 3000000, 10000000].getD (code % 16) 0

/-- The pulse periods of FIO_DIGRPg.PPER in ns. -/
def pulseNs (code : Nat) : Nat := [10000, 20000, 50000, 100000, 200000, 500000, 1000000, 2000000].getD (code % 8) 10000

/-- The filter time of input `i`. -/
def inputFilter (s : State) (i : Nat) : Nat := filterNs (bitsOf (fdWord s (A.FIO_DIFILT (i / 8))).toNat (4 * (i % 8)) 4)

/-- Whether the stretch of input `i` lets its filtered value change now (R293). -/
def stretchOver (s : State) (i : Nat) : Bool :=
  let st := fdF s (F.FIO_DIGRP_STRETCH (i / 8))
  st == 0 || decide (vget s.fio.accNow i + 1000000 * st ≤ s.now)

/-- Whether group `g` samples in pulses. -/
def pulsed (s : State) (g : Nat) : Bool := fdSet s (F.FIO_DIGRP_PULSED g)

/-- The comparator of input `i` changes state (R304). -/
def rawInput (i : Nat) (v : Bool) (s : State) : State :=
  if !s.fio.on ∨ pulsed s (i / 8) ∨ s.fio.raw.getLsbD i = v then s else
  evalRx (modFio (fun b => { b with raw := bvSet b.raw i v, rawNow := vset b.rawNow i s.now, rawTime := vset b.rawTime i (fieldTime s) }) s)

/-- An accepted edge of DI0 to DI15 forms an entry, or is lost where the F-die FIFO is full (R294, R295). -/
def stampEdge (i : Nat) (v : Bool) (s : State) : State :=
  if 16 ≤ i ∨ pulsed s (i / 8) ∨ !fdBit s A.FIO_EDGEEN (if v then i else 16 + i) then s else
  if s.fio.fedges.length < 64 then
    modFio (fun b => { b with fedges := b.fedges ++ [{ time := vget b.rawTime i, rise := v, input := i, lost := b.elost }], elost := false }) s
  else modNews (fun n => { n with lost := n.lost + 1 }) (modFio (fun b => { b with elost := true }) s)

/-- The filtered state of input `i` takes a new value (log 15). -/
def acceptInput (i : Nat) (v : Bool) (s : State) : State :=
  evalRx (stampEdge i v (modFio (fun b => { b with filt := bvSet b.filt i v, accNow := vset b.accNow i s.now }) s))

/-- The raw state of input `i` has held for the filter time (R293). -/
def filterAccept (i : Nat) (s : State) : State :=
  let v := s.fio.raw.getLsbD i
  if s.fio.on ∧ !pulsed s (i / 8) ∧ s.fio.filt.getLsbD i ≠ v ∧ vget s.fio.rawNow i + inputFilter s i ≤ s.now ∧ stretchOver s i then
    acceptInput i v s
  else s

/-- The pulse period of group `g` in ns. -/
def pulsePeriod (s : State) (g : Nat) : Nat := pulseNs (fdF s (F.FIO_DIGRP_PPER g))

/-- One input of a pulsed group is sampled (R292, R293). -/
def sampleInput (i : Nat) (v : Bool) (s : State) : State :=
  let p := pulsePeriod s (i / 8)
  let need := max 1 ((inputFilter s i + p - 1) / p)
  let n := if s.fio.raw.getLsbD i = v then vget s.fio.samples i + 1 else 1
  let s := modFio (fun b => { b with raw := bvSet b.raw i v, samples := vset b.samples i n }) s
  if need ≤ n ∧ s.fio.filt.getLsbD i ≠ v ∧ stretchOver s i then acceptInput i v s else s

/-- Whether group `g` draws input current: always in continuous sampling, else in the window of 10 µs that ends at each sample
instant (R292). -/
def windowOpen (s : State) (g : Nat) : Bool :=
  s.fio.on && (!pulsed s g || decide (pulsePeriod s g ≤ fieldTime s % pulsePeriod s g + 10000))

/-- Whether the current of group `g` is the wetting current: the first 5 µs of a window where WET is 1 (R292). -/
def wetting (s : State) (g : Nat) : Bool :=
  windowOpen s g && pulsed s g && fdSet s (F.FIO_DIGRP_WET g) && decide (fieldTime s % pulsePeriod s g + 5000 < pulsePeriod s g)

/-- Whether the sample instant of pulsed group `g` has come: a multiple of PPER of the field counter, once (R292) (log 135). -/
def sampleDue (s : State) (g : Nat) : Bool :=
  decide (fieldTime s % pulsePeriod s g ≤ 10) && vget s.fio.sampleAt g != fieldTime s / pulsePeriod s g + 1

/-- The sample instant of a pulsed group (log 135). -/
def pulsedSample (g : Nat) (levels : BitVec 8) (s : State) : State :=
  if !s.fio.on ∨ !pulsed s g ∨ !sampleDue s g then s else
  each (List.range 8) (fun j => sampleInput (8 * g + j) (levels.getLsbD j))
    (modFio (fun b => { b with sampleAt := vset b.sampleAt g (fieldTime s / pulsePeriod s g + 1) }) s)

/-- The high word of an edge entry (FIO_EDGE). -/
def edgeHigh (e : Edge) : Nat :=
  bit e.lost * 2 ^ 30 + bit e.rise * 2 ^ 29 + e.input % 16 * 2 ^ 24 + e.time / 2 ^ 32 % 2 ^ 24

/-- A read of the low word of FIO_EDGE pops one entry (R296). -/
def edgeRead (who : Who) (s : State) : State × Word :=
  let latch := fun (w : Nat) (s : State) =>
    { s with rshadow := SMap.ins s.rshadow (shadowKey A.FIO_EDGE who) (A.FIO_EDGE % 0x10000, w32 w) }
  match s.fio.edges with
  | [] => (latch (2 ^ 31) s, 0)
  | e :: t => (latch (edgeHigh e) (syncEdges (modFio (fun b => { b with edges := t }) s)), w32 e.time)

/-- EDGEFLUSH empties the FIO FIFO at once; the F-die's follows with the next frame (R295). -/
def edgeFlush (s : State) : State := syncEdges (modFio (fun b => { b with edges := [] }) s)

/-! ### Analog inputs (R305, R306) -/

/-- The mean of `n` conversions whose sum is given in µV (ranges 0 and 1) or nA (ranges 2 and 3), in counts, as numerator and denominator:
10 V, and 20 mA, read 32,000; in 4–20 mA, 4 mA reads 0 and 0 mA −8,000 (R305). -/
def aiCounts (range : Nat) (sum : Int) (n : Nat) : Int × Nat :=
  match range with
  | 2 => (sum - 4000000 * n, 500 * n)
  | 3 => (sum, 625 * n)
  | _ => (2 * sum, 625 * n)

/-- The reported value, over-range and wire-break of one measured input, whose counts are `num / den` before saturation (R305) (log 160). -/
def aiScale (range : Nat) (num : Int) (den : Nat) : BitVec 16 × Bool × Bool :=
  let lo : Int := if range = 1 then -32000 else 0
  let v := num / den + (if num % den ≠ 0 ∧ Config.aiRoundsUp num den then 1 else 0)
  (BitVec.ofInt 16 (max (-32768) (min 32767 v)), decide (num < (lo - 480) * den ∨ 32480 * den < num), decide (range = 2 ∧ num < -6000 * den))

/-- The sum of the first `n` conversions of a channel (log 160). -/
def aiSum (l : List Int) (n : Nat) : Int := ((List.range n).map (l.getD · 0)).foldl (· + ·) 0

/-- The length of a round in ns: 2 µs × 2^AVG for each enabled channel (R306). -/
def aiRoundNs (s : State) : Nat :=
  ((List.range 8).filter fun c => fdSet s (F.FIO_AI_EN c)).foldl (fun n c => n + 2000 * 2 ^ fdF s (F.FIO_AI_AVG c)) 0

/-- The unit of the analog inputs has matched. -/
def aiMatched (s : State) : State := modFio (fun b => { b with aiPrev := some (time s) }) s

/-- The owned compare unit `u` fires with target `t`: a round starts at the F-die. One nearer than 4.4 µs to the match before is late, and
acts with the first frame that carries it; one that falls while the link is down is not performed (R306, R281). -/
def aiFire (u t : Nat) (s : State) : State :=
  let late := s.fio.aiPrev.any fun p => decide (t < p + 4400)
  let s := modFio (fun b => { b with aiTarget := if late ∧ isSet s F.FIO_STATUS_LINK then some t else none }) (aiMatched s)
  if late then raise A.TMB_EVT 0 (setF (F.TMB_UNIT_STAT_LATE u) 1 s)
  else if isSet s F.FIO_STATUS_LINK then aiBegin s
  else s

/-- A round completes: each enabled channel reports the mean of its 2^AVG conversions, given in µV or nA; it goes in the next frame (R305,
R306). -/
def aiComplete (vals : List (List Int)) (s : State) : State :=
  if !aiBusy s ∨ s.now < s.fio.aiAt + aiRoundNs s then s else
  let s := each ((List.range 8).filter fun c => fdSet s (F.FIO_AI_EN c)) (fun c s =>
    let n := 2 ^ fdF s (F.FIO_AI_AVG c)
    let x := aiCounts (fdF s (F.FIO_AI_RANGE c)) (aiSum (vals.getD c []) n) n
    let r := aiScale (fdF s (F.FIO_AI_RANGE c)) x.1 x.2
    modFio (fun b => { b with ai := vset b.ai c r.1, aiOver := bvSet b.aiOver c r.2.1, aiBreak := bvSet b.aiBreak c r.2.2 }) s) s
  modNews (fun n => { n with rounds := n.rounds + 1 }) (modFio (fun b => { b with aiRun := false, aiAt := s.now }) s)

/-! ### Register writes -/

/-- A register that depends on another is made legal again after a change of the other (R71). -/
def reclamp (who : Who) (pa : Nat) (s : State) : State :=
  let v := (rd s pa).toNat
  let w := clampFio s pa v
  if v = w then s else fioPend pa (clampLog who pa (wr pa (w32 w) s))

/-- What a write to an FIO register starts (R285, R294, R300, R303; FIO_CMD). -/
def hookFio (i : WInfo) (s : State) : State :=
  if i.pa = A.FIO_CMD then
    modFio (fun b => { b with cmd := b.cmd ||| i.cmds }) (if bitAt i.cmds 2 then edgeFlush s else s)
  else
    let s := if i.old ≠ i.new ∨ fioConfig.contains i.pa then fioPend i.pa s else s
    let s := if A.FIO_DIGRP 0 ≤ i.pa ∧ i.pa < A.FIO_DIGRP 8 then
        each ((List.range 16).map A.FIO_RX) (reclamp i.who) (reclamp i.who A.FIO_EDGEEN s) else s
    if A.FIO_CH_CTL 0 ≤ i.pa ∧ i.pa < A.FIO_CH_CTL 4 then
      let moved := i.pa % 8 = 0 ∧ bitsOf i.old 24 8 ≠ bitsOf i.new 24 8
      let s := if moved then modFio (fun b => { b with inst := vset b.inst ((i.pa - A.FIO_CH_CTL 0) / 8) none }) s else s
      each ((List.range 4).map A.FIO_CH_CTL) (reclamp i.who) (resolveUnits s)
    else if i.pa = A.FIO_AICTL then
      let s := resolveUnits s
      let u := getF s F.FIO_AICTL_TMBUNIT
      if isSet s F.FIO_AICTL_TRIG ∧ getF s (F.TMB_UNIT_CTL_OWNER u) = 3 then programFor u 3 s else s
    else s

end Sys2Proof.Machine
end

