-- ==== Sys2Proof/Machine/Beetle.lean ====
section
/-! DEFINITION. The Beetle pin engines: pins, instructions, shifting, stalls, flags, DMA (15_beetles R400 to R418). An engine
instruction executes from the program store: each instruction's command names the engine, which fetches its next word. -/

namespace Sys2Proof.Machine

/-- What engine `e` holds. -/
def State.engine (s : State) (e : Nat) : Engine := vget s.btl e

/-- Change what engine `e` holds. -/
def modEng (e : Nat) (f : Engine → Engine) (s : State) : State := { s with btl := vset s.btl e (f (vget s.btl e)) }

/-- A field of engine `e` (cluster e / 8, engine e % 8). -/
def engF (f : Nat → Nat → FRef) (e : Nat) : FRef := f (e / 8) (e % 8)

/-- STATE of engine `e`: 0 OFF, 1 RUN, 2 STALL, 3 FAULT. -/
def engState (s : State) (e : Nat) : Nat := getF s (engF F.BTL_ENG_STAT_STATE e)

/-- Set STATE of engine `e`, in both registers that show it. -/
def setEngState (e v : Nat) (s : State) : State :=
  setF ⟨A.BTL_STATUS (e / 8), 2 * (e % 8), 2⟩ v (setF (engF F.BTL_ENG_STAT_STATE e) v s)

/-- The FIFO levels shown in STAT. -/
def syncLevels (e : Nat) (s : State) : State :=
  setF (engF F.BTL_ENG_STAT_TXLVL e) (s.engine e).tx.length (setF (engF F.BTL_ENG_STAT_RXLVL e) (s.engine e).rx.length s)

/-- The engine's source fires with its STAT (R405, R407). -/
def engSource (e : Nat) (s : State) : State := pend (520 + e) (rd s (A.BTL_ENG_STAT (e / 8) (e % 8))).toNat s

/-! ### Pins (R400, R401, R412, R413) -/


/-- The level of driver-enable pin `p`: 0 while the pin is an input (R401). -/
def driverOn (s : State) (p : Nat) : Bool := isSet s (F.BTL_PIN_DIR 0 p) && (isSet s (F.BTL_PIN_VAL 0 p) != isSet s (F.BTL_PIN_INV 0 p))

/-- The level pin `p` reads when the outside drives `ext` at its ball (R400, R401, R418) (log 82). -/
def pinRead (s : State) (p : Nat) (ext : Bool) : Bool :=
  let out := isSet s (F.BTL_PIN_DIR 0 p)
  let val := isSet s (F.BTL_PIN_VAL 0 p)
  let inv := isSet s (F.BTL_PIN_INV 0 p)
  let open' := isSet s (F.BTL_PIN_OD 0 p) && (val != inv)
  if p < 12 then
    if out && driverOn s (p + 12) then val else ext != inv
  else if p < 24 then driverOn s p != inv
  else if out && !open' then val else ext != inv

/-- The synchronised level of pin `p`. -/
def pinLevel (s : State) (p : Nat) : Bool := isSet s (F.BTL_PIN_LEVEL 0 (p % 64))

/-- LEVEL of pin `p` follows what the pin reads, and an engine that waits for such a change has seen it (R405). While the Beetle PLL is
unlocked pins and engines hold their state (R417). -/
def settlePin (p : Nat) (s : State) : State :=
  let v := pinRead s p (s.balls.getLsbD p)
  if !isSet s F.SYS_CLKSTAT_BTLLOCK ∨ v = pinLevel s p then s else
  let see := fun (x : Engine) => match x.await with
    | some (.edge q pol _) => if q = p ∧ pol = v then { x with await := some (.edge q pol true) } else x
    | _ => x
  setF (F.BTL_PIN_LEVEL 0 p) (bit v) { s with btl := s.btl.map see }

/-- Pin `p` has changed: its LEVEL settles, and that of the bus pin whose driver it enables (R401). -/
def settleFrom (p : Nat) (s : State) : State :=
  let s := settlePin p s
  if 12 ≤ p ∧ p < 24 then settlePin (p - 12) s else s

/-- The pins are sampled: the levels the outside drives at the balls reach LEVEL (log 82). -/
def setLevels (ext : BitVec 64) (s : State) : State :=
  if !isSet s F.SYS_CLKSTAT_BTLLOCK then s else each (List.range 64) settlePin { s with balls := ext }

/-- The outside drives one ball (log 82). -/
def setBall (p : Nat) (v : Bool) (s : State) : State :=
  settlePin p { s with balls := (s.balls &&& ~~~((1 : BitVec 64) <<< p)) ||| (BitVec.ofNat 64 (bit v) <<< p) }

/-- Engine `e` has changed pin `p`: the ball shows it, and LEVEL settles. -/
def pinMoved (e p : Nat) (s : State) : State :=
  settleFrom p (emit (.beetle e) [b8 p, b8 (getF s (F.BTL_PIN_DIR 0 p)), b8 (getF s (F.BTL_PIN_VAL 0 p))] s)

/-- Write the value of a pin as engine `e`. -/
def pinValue (e p : Nat) (v : Bool) (s : State) : State :=
  pinMoved e (p % 64) (setF (F.BTL_PIN_WRITER 0 (p % 64)) e (setF (F.BTL_PIN_VAL 0 (p % 64)) (bit v) s))

/-- Write the direction of a pin as engine `e`. -/
def pinDir (e p : Nat) (v : Bool) (s : State) : State :=
  pinMoved e (p % 64) (setF (F.BTL_PIN_WRITER 0 (p % 64)) e (setF (F.BTL_PIN_DIR 0 (p % 64)) (bit v) s))

/-- Engine `e` releases its pins: each becomes an input with no writer (R413). -/
def releasePins (e : Nat) (s : State) : State :=
  each (List.range 64) (fun p s =>
    if getF s (F.BTL_PIN_WRITER 0 p) = e then pinMoved e p (setF (F.BTL_PIN_WRITER 0 p) 31 (setF (F.BTL_PIN_DIR 0 p) 0 s)) else s) s

/-- Pin `k` of the engine's SET group. -/
def setPin (s : State) (e k : Nat) : Nat := (getF s (engF F.BTL_ENG_PINS_SETBASE e) + k) % 64

/-- Apply a mask and value to the SET group: values or directions (R405). -/
def setGroup (e : Nat) (dirs : Bool) (mask value : Nat) (s : State) : State :=
  each (List.range 5) (fun k s =>
    if bitAt mask k ∧ k < getF s (engF F.BTL_ENG_CTL_SETCNT e) then
      (if dirs then pinDir else pinValue) e (setPin s e k) (bitAt value k) s else s) s

/-! ### Starting, stopping, faults (R402, R407, R413) -/

/-- The quality of the RX DMA bytes of engine `e`, where its RX DMA runs (R415). -/
def dmaQuality (e code : Nat) (s : State) : State :=
  if isSet s (engF F.BTL_ENG_RXDMA_EN e) then
    engineQuality (50 + e / 8) code (getF s (engF F.BTL_ENG_RXDMA_INOFF e)) (4 * (getF s (engF F.BTL_ENG_RXDMA_NWM1 e) + 1)) s
  else s

/-- The bytes turn BAD until the next batch. -/
def dmaBad (e : Nat) (s : State) : State := dmaQuality e 2 (modEng e (fun x => { x with batch := none }) s)

/-- The engine starts at START (R402). -/
def engStart (e : Nat) (s : State) : State :=
  let c := e / 8
  let i := e % 8
  let s := modEng e (fun x => { Engine.reset with next := getF s (F.BTL_ENG_CTL_START c i), batch := x.batch }) s
  let s := wr (A.BTL_ENG_K c i) 0 (wr (A.BTL_ENG_STAT c i) (w32 (getF s (F.BTL_ENG_CTL_START c i))) s)
  let s := setEngState e 1 s
  let clk := getF s (F.BTL_ENG_PINS_CLKPIN c i)
  let s := if isSet s (F.BTL_ENG_PINS_CLKEN c i) then pinDir e clk true (pinValue e clk (isSet s (F.BTL_ENG_SHCFG_CPOL c i)) s) else s
  let out := getF s (F.BTL_ENG_PINS_OUTPIN c i)
  if isSet s (F.BTL_ENG_PINS_OUTEN c i) then pinDir e out true (pinValue e out false s) else s

/-- EN is written 0: the engine stops, its pins are released, a latched CLOCK is abandoned; in STALL its FIFOs are
discarded (R413, R417). -/
def engStop (e : Nat) (s : State) : State :=
  let stalled := engState s e == 2
  let keep := fun (l : List Word) => if stalled then [] else l
  let s := modEng e (fun x => { x with await := none, giveDue := false, takeDue := false, tx := keep x.tx, rx := keep x.rx }) s
  let s := setF (engF F.BTL_ENG_STAT_LEFT e) 0 (setF (engF F.BTL_ENG_STAT_STALLBY e) 0 (setF (engF F.BTL_ENG_STAT_FCAUSE e) 0 s))
  dmaBad e (syncLevels e (releasePins e (setEngState e 0 s)))

/-- RESTART: the pins are released, and the engine starts as by EN = 1, from any state (log 81). -/
def engRestart (e : Nat) (s : State) : State :=
  engStart e (setF ⟨A.BTL_CTL (e / 8), e % 8, 1⟩ 1 (releasePins e s))

/-- A start, a stop or a RESTART of engine `e`: while the Beetle PLL is unlocked it waits for the lock (R417). -/
def engAct (e : Nat) (a : EngAct) (s : State) : State :=
  if !isSet s F.SYS_CLKSTAT_BTLLOCK then modEng e (fun x => { x with due := x.due ++ [a] }) s else
  match a with
  | .start => engStart e s
  | .stop => engStop e s
  | .restart => engRestart e s

/-- ENGINE_FAULT: the fetched word cannot execute (R407) (log 81). -/
def engFault (e cause : Nat) (s : State) : State :=
  let s := setF (engF F.BTL_ENG_STAT_PC e) (s.engine e).next (setF (engF F.BTL_ENG_STAT_FCAUSE e) cause (setEngState e 3 s))
  engSource e (raise (A.BTL_EVT (e / 8)) (8 + e % 8) (dmaBad e (releasePins e s)))

/-- Why a word cannot execute: 0 none, 1 ILLEGAL, 2 TARGET, 3 INDEX (R404, R406, R407) (log 83). -/
def wordFault (w : Nat) : Nat :=
  let zero := fun (lo n : Nat) => bitsOf w lo n == 0
  match bitsOf w 12 4 with
  | 1 => if !zero 6 3 then 1 else if 48 ≤ bitsOf w 0 6 then 2 else 0
  | 2 => if !zero 6 5 then 1 else if 48 ≤ bitsOf w 0 6 then 2 else 0
  | 3 => if bitsOf w 10 2 = 3 ∨ !zero 0 4 then 1 else 0
  | 4 => if !zero 10 1 then 1 else 0
  | 5 => if bitsOf w 10 2 = 3 then 0 else if !zero 6 3 then 1 else if bitsOf w 10 2 = 2 ∧ 16 ≤ bitsOf w 0 6 then 3 else 0
  | 6 => if !zero 0 10 then 1 else 0
  | 7 => if 10 ≤ bitsOf w 8 4 ∨ !zero 0 8 then 1 else 0
  | 8 => if !zero 10 1 then 1 else 0
  | 9 => if !zero 4 6 then 1 else 0
  | _ => 1

/-- The word at store address `a` of the engine's cluster. -/
def storeWord (s : State) (e a : Nat) : Nat := getF s (F.BTL_STORE_INSTR (e / 8) (a % 48))

/-- An engine's instruction command: an engine in RUN that waits for nothing fetches its next word; a word that cannot
execute puts it into FAULT, a word of the command's kind is latched and executes (R402, R407). While the Beetle PLL is
unlocked every engine holds its state (R417) (log 83). -/
def engRun (e : Nat) (kind : Nat → Bool) (f : Nat → State → State) (s : State) : State :=
  let x := s.engine e
  let w := storeWord s e x.next
  if engState s e ≠ 1 ∨ x.await.isSome ∨ !isSet s F.SYS_CLKSTAT_BTLLOCK then s
  else if wordFault w ≠ 0 then engFault e (wordFault w) s
  else if !kind w then s
  else
    f w (setF (engF F.BTL_ENG_STAT_PC e) x.next
      (modEng e (fun x => { x with instr := w, next := (x.next + 1) % 48 }) s))

/-- Whether a word is of a type, with a value in some of its bits. -/
def ofType (type lo n v : Nat) (w : Nat) : Bool := bitsOf w 12 4 == type && bitsOf w lo n == v

/-! ### Branches and counters (R405) -/

/-- A counter of engine `e`. -/
def counterF (e ctr : Nat) : FRef := if ctr = 0 then engF F.BTL_ENG_K_K0 e else engF F.BTL_ENG_K_K1 e

/-- Whether the condition of a GOTO holds. -/
def btlCond (s : State) (e c : Nat) : Bool :=
  let x := s.engine e
  let j := pinLevel s (getF s (engF F.BTL_ENG_PINS_JPIN e))
  match c with
  | 0 => true
  | 1 => j
  | 2 => !j
  | 3 => x.tx.isEmpty
  | 4 => decide (4 ≤ x.rx.length)
  | 5 => x.sr.getLsbD 0
  | 6 => x.sr.getLsbD 31
  | _ => getF s (counterF e 1) == 0

/-- The next fetch is at a branch target. -/
def branch (e t : Nat) (s : State) : State := modEng e (fun x => { x with next := t }) s

/-- GOTO. -/
def btlGoto (e : Nat) (w : Nat) (s : State) : State := if btlCond s e (bitsOf w 9 3) then branch e (bitsOf w 0 6) s else s

/-- LOOP: decrement, branch when the result is not 0. -/
def btlLoop (e : Nat) (w : Nat) (s : State) : State :=
  let f := counterF e (bitsOf w 11 1)
  let s := setF f (getF s f + 65535) s
  if getF s f ≠ 0 then branch e (bitsOf w 0 6) s else s

/-- SETK. -/
def btlSetk (e : Nat) (w : Nat) (s : State) : State := setF (counterF e (bitsOf w 11 1)) (bitsOf w 0 10) s

/-! ### Shifting, takes and gives (R408 to R410) -/

/-- FRAMELEN, 0 meaning 32. -/
def frameLen (s : State) (e : Nat) : Nat :=
  let n := getF s (engF F.BTL_ENG_SHCFG_FRAMELEN e)
  if n = 0 then 32 else n

/-- MSBFIRST of engine `e`. -/
def msbFirst (s : State) (e : Nat) : Bool := isSet s (engF F.BTL_ENG_SHCFG_MSBFIRST e)

/-- BC of engine `e`. -/
def btlBc (s : State) (e : Nat) : Nat := getF s (engF F.BTL_ENG_STAT_BC e)

/-- Set BC of engine `e`. -/
def setBc (e n : Nat) (s : State) : State := setF (engF F.BTL_ENG_STAT_BC e) n s

/-- Set SR of engine `e`. -/
def setSr (e : Nat) (v : Word) (s : State) : State := modEng e (fun x => { x with sr := v }) s

/-- The word a give writes (R409). -/
def giveWord (s : State) (e : Nat) : Word :=
  let bc := btlBc s e
  let sr := (s.engine e).sr
  if bc = 0 then 0 else if msbFirst s e then w32 (sr.toNat % 2 ^ bc) else sr >>> (32 - bc)

/-- Give: the shifted bits enter the RX FIFO; nothing where it is full (log 106). -/
def give (e : Nat) (s : State) : State × Bool :=
  if 4 ≤ (s.engine e).rx.length then (s, false) else
  (syncLevels e (modEng e (fun x => { x with rx := x.rx ++ [giveWord s e] }) s), true)

/-- Take: the oldest TX word is placed in SR; nothing where there is none. -/
def take (e : Nat) (s : State) : State × Bool :=
  match (s.engine e).tx with
  | [] => (s, false)
  | v :: t =>
    let v := if msbFirst s e then v <<< (32 - frameLen s e) else v
    (syncLevels e (modEng e (fun x => { x with tx := t, sr := v }) s), true)

/-- The engine stalls: STALLBY 1 take, 2 give. -/
def stall (e by' : Nat) (s : State) : State := setF (engF F.BTL_ENG_STAT_STALLBY e) by' (setEngState e 2 s)

/-- FRAME_BOUNDARY, or what is left of it: give, take, BC = 0; it stalls where a FIFO does not let it (R409). -/
def boundary (e : Nat) (s : State) : State × Bool :=
  let (s, g) := if (s.engine e).giveDue then give e s else (s, true)
  if !g then (stall e 2 s, false) else
  let s := modEng e (fun x => { x with giveDue := false }) s
  let (s, t) := if (s.engine e).takeDue then take e s else (s, true)
  if !t then (stall e 1 s, false) else
  (setBc e 0 (modEng e (fun x => { x with takeDue := false }) s), true)

/-- A bit has moved: at FRAMELEN the frame closes. -/
def bitDone (e : Nat) (s : State) : State × Bool :=
  if isSet s (engF F.BTL_ENG_SHCFG_FRAMEEN e) ∧ btlBc s e = frameLen s e then
    boundary e (modEng e (fun x => { x with giveDue := isSet s (engF F.BTL_ENG_SHCFG_RXEN e), takeDue := isSet s (engF F.BTL_ENG_SHCFG_TXEN e) }) s)
  else (s, true)

/-- Move one bit of a CLOCK (R408): send, clock, sample, shift, count. `ext` is what the outside drives on INPIN. With CLK, CLKPIN goes
to the level opposite CPOL in the first tick and returns to CPOL in the second, each seen at the ball and in LEVEL; SAMPLE says which of
them samples. -/
def moveBit (e dir : Nat) (ext : Bool) (s : State) : State :=
  let x := s.engine e
  let msb := msbFirst s e
  let out := getF s (engF F.BTL_ENG_PINS_OUTPIN e)
  let inp := getF s (engF F.BTL_ENG_PINS_INPIN e)
  let sent := x.sr.getLsbD (if msb then 31 else 0)
  let clk := fun (v : Bool) (s : State) =>
    if bitAt x.instr 9 then pinValue e (getF s (engF F.BTL_ENG_PINS_CLKPIN e)) v s else s
  let cpol := isSet s (engF F.BTL_ENG_SHCFG_CPOL e)
  let s := if dir = 1 then s else pinValue e out sent s
  let s := if dir = 0 then s else setBall inp ext s
  let s := clk (!cpol) s
  let first := pinLevel s inp
  let s := clk cpol s
  let got := if dir = 0 then false
    else if bitAt x.instr 9 && !isSet s (engF F.BTL_ENG_SHCFG_SAMPLE e) then first else pinLevel s inp
  let sr := if msb then (x.sr <<< 1) ||| w32 (bit got) else (x.sr >>> 1) ||| w32 (bit got * 2 ^ 31)
  setBc e (min 32 (btlBc s e + 1)) (setSr e sr s)

/-- The bits left of the latched CLOCK, as long as no boundary stalls; bit k of `ext` is INPIN at sample k. -/
def moveBits (e dir : Nat) (ext : Word) : Nat → Nat → State → State
  | 0, _, s => setF (engF F.BTL_ENG_STAT_LEFT e) 0 s
  | n + 1, k, s =>
    let (s, go) := bitDone e (moveBit e dir (ext.getLsbD k) s)
    if go then moveBits e dir ext n (k + 1) s else setF (engF F.BTL_ENG_STAT_LEFT e) n s

/-- CLOCK of COUNTM1 + 1 bits. -/
def btlClock (e : Nat) (ext : Word) (w : Nat) (s : State) : State :=
  moveBits e (bitsOf w 10 2) ext (bitsOf w 4 5 + 1) 0 s

/-- FIFO TAKE (R405). -/
def btlTake (e : Nat) (w : Nat) (s : State) : State :=
  let (s, ok) := take e s
  if ok then setBc e 0 s else if bitAt w 10 then s else stall e 1 (modEng e (fun x => { x with takeDue := true }) s)

/-- FIFO GIVE (R405) (log 106). -/
def btlGive (e : Nat) (w : Nat) (s : State) : State :=
  let (s, ok) := give e s
  if ok then setBc e 0 s
  else if bitAt w 10 then
    raise (A.BTL_EVT (e / 8)) (e % 8) (satF (engF F.BTL_ENG_CNT_RXOVF e) 1 (setBc e 0 s))
  else stall e 2 (modEng e (fun x => { x with giveDue := true }) s)

/-- A stalled engine whose FIFO has gained a word or a place completes what is outstanding and goes on (R410). -/
def btlResume (e : Nat) (ext : Word) (s : State) : State :=
  if engState s e ≠ 2 ∨ !isSet s F.SYS_CLKSTAT_BTLLOCK then s else
  let (s, ok) := boundary e s
  if !ok then s else
  let s := setF (engF F.BTL_ENG_STAT_STALLBY e) 0 (setEngState e 1 s)
  let w := (s.engine e).instr
  if bitsOf w 12 4 = 3 then moveBits e (bitsOf w 10 2) ext (getF s (engF F.BTL_ENG_STAT_LEFT e)) 0 s else s

/-! ### XFORM (R406) -/

/-- Gray code to binary. -/
def ungray (g : Word) : Word :=
  let step := fun (k : Nat) (b : Word) => b ^^^ (b >>> k)
  step 16 (step 8 (step 4 (step 2 (step 1 g))))

/-- The bits of SR reversed. -/
def reversed (v : Word) : Word := w32 (bitsFrom 32 fun k => v.getLsbD (31 - k))

/-- JUSTIFY. -/
def justified (s : State) (e : Nat) : Word :=
  let sr := (s.engine e).sr
  if !msbFirst s e ∧ 1 ≤ btlBc s e ∧ btlBc s e ≤ 31 then sr >>> (32 - btlBc s e) else sr

/-- SAMPLE: 32 pins from INPIN, modulo 64. -/
def sampled (s : State) (e : Nat) : Word :=
  w32 (bitsFrom 32 fun k => pinLevel s ((getF s (engF F.BTL_ENG_PINS_INPIN e) + k) % 64))

/-! ### Waiting (R405) -/

/-- Whether what an engine waits for has come. -/
def awaited (s : State) (e : Nat) (a : Await) : Bool :=
  match a with
  | .level p pol => pinLevel s p == pol
  | .edge _ _ met => met
  | .flag k pol => isSet s ⟨A.BTL_FLAGS (e / 8), k, 1⟩ == pol
  | .until t => decide (t ≤ s.now)
  | .held _ => false

/-- The Beetle PLL loses lock: what is left of every WAITFOR TIME is held (R417). -/
def holdWaits (s : State) : State :=
  { s with btl := s.btl.map fun x => match x.await with
      | some (.until t) => { x with await := some (.held (t - s.now)) }
      | _ => x }

/-- The Beetle PLL has its lock again: every held WAITFOR TIME goes on, the starts and stops that waited take place, and the pins are
sampled. -/
def releaseWaits (s : State) : State :=
  let s := { s with btl := s.btl.map fun x => match x.await with
      | some (.held d) => { x with await := some (.until (s.now + d)) }
      | _ => x }
  let s := each (List.range 16) (fun e s => each (s.engine e).due (engAct e) (modEng e (fun x => { x with due := [] }) s)) s
  setLevels s.balls s

/-- Wait, unless the condition is met in the first tick (log 84). -/
def awaitFor (e : Nat) (a : Await) (s : State) : State :=
  if awaited s e a then s else modEng e (fun x => { x with await := some a }) s

/-- The instant a WAITFOR TIME ends: TICKSM1 + 1 ticks of DIV cycles of 5 ns (log 84). -/
def waitEnd (s : State) (e w : Nat) : Nat := s.now + (bitsOf w 0 10 + 1) * getF s (engF F.BTL_ENG_CTL_DIV e) * 5

/-- WAITFOR_MET: the condition is met, and the engine goes on. -/
def awaitMet (e : Nat) (s : State) : State :=
  match (s.engine e).await with
  | some a => if awaited s e a ∧ isSet s F.SYS_CLKSTAT_BTLLOCK then modEng e (fun x => { x with await := none }) s else s
  | none => s

/-! ### Flags (R405, R414) -/

/-- The flag a SIGNAL names. -/
def flagF (e w : Nat) : FRef := ⟨A.BTL_FLAGS (e / 8), bitsOf w 0 4, 1⟩

/-! ### Software and DMA (R415 to R417) -/

/-- A word written to TX is appended, or discarded where the FIFO is full (R417). -/
def txWrite (e : Nat) (v : Word) (s : State) : State :=
  if 4 ≤ (s.engine e).tx.length then raise (A.BTL_EVT (e / 8)) (e % 8) (satF (engF F.BTL_ENG_CNT_TXDROP e) 1 s)
  else syncLevels e (modEng e (fun x => { x with tx := x.tx ++ [v] }) s)

/-- A read of the low word of RX pops a word; EMPTY while the RX DMA runs (R415, R417). -/
def rxRead (e : Nat) (who : Who) (s : State) : State × Word :=
  let pa := A.BTL_ENG_RX (e / 8) (e % 8)
  let latch := fun (w : Nat) (s : State) =>
    { s with rshadow := SMap.ins s.rshadow (shadowKey pa who) (pa % 0x10000, w32 w) }
  if isSet s (engF F.BTL_ENG_RXDMA_EN e) then (latch (2 ^ 31) s, 0) else
  match (s.engine e).rx with
  | [] => (latch (2 ^ 31) s, 0)
  | v :: t => (latch t.length (syncLevels e (modEng e (fun x => { x with rx := t }) s)), v)

/-- A DMA access of engine `e` failed: DMAERR (R416). -/
def btlDmaErr (e : Nat) (addr : Nat) (isWr : Bool) (size : Nat) (b : BusErr) (s : State) : State :=
  raise (A.BTL_EVT (e / 8)) (16 + e % 8) (logBusErr ⟨50 + e / 8, false, none⟩ addr isWr size b 0 s)

/-- RX DMA: a batch of words goes into the input image with quality GOOD; the quality stays BAD while the engine is OFF or in FAULT
(R415). -/
def rxBatch (e : Nat) (s : State) : State :=
  let n := getF s (engF F.BTL_ENG_RXDMA_NWM1 e) + 1
  let off := getF s (engF F.BTL_ENG_RXDMA_INOFF e)
  if !isSet s (engF F.BTL_ENG_RXDMA_EN e) ∨ (s.engine e).rx.length < n then s else
  let bs := ((s.engine e).rx.take n).flatMap fun v => leBytes 4 v.toNat
  let s := syncLevels e (modEng e (fun x => { x with rx := x.rx.drop n }) s)
  match imageWrite off bs.length (leNat bs) ⟨50 + e / 8, false, none⟩ s with
  | (s, .error b) => btlDmaErr e (0x30000000 + off) true bs.length b s
  | (s, .ok _) =>
    if engState s e = 0 ∨ engState s e = 3 then s else dmaQuality e 0 (modEng e (fun x => { x with batch := some s.now }) s)

/-- AGE ms have passed without a batch (R415). -/
def rxAge (e : Nat) (s : State) : State :=
  let age := getF s (engF F.BTL_ENG_RXDMA_AGE e)
  match (s.engine e).batch with
  | some t => if age ≠ 0 ∧ t + 1000000 * age ≤ s.now then dmaQuality e 1 s else s
  | none => s

/-- TX DMA: a batch of output image words enters the TX FIFO, which has room for all of it (R416). -/
def txBatch (e : Nat) (s : State) : State :=
  let n := getF s (engF F.BTL_ENG_TXDMA_NWM1 e) + 1
  let a := 0x30020000 + getF s (engF F.BTL_ENG_TXDMA_OUTOFF e)
  if !isSet s (engF F.BTL_ENG_TXDMA_EN e) ∨ 4 < (s.engine e).tx.length + n then s else
  if eccOf s a (4 * n) = 2 then btlDmaErr e a false (4 * n) .ecc s else
  let ws := (List.range n).map fun k => w32 (memNat s (a + 4 * k) 4)
  syncLevels e (modEng e (fun x => { x with tx := x.tx ++ ws }) s)

/-- What a write to a BTL register starts. -/
def hookBtl (i : WInfo) (s : State) : State :=
  let c := instAt i.pa
  let o := i.pa % 0x10000
  if o = 0 then
    let s := each (List.range 8) (fun k s =>
      if bitAt i.new k ∧ !bitAt i.old k then engAct (8 * c + k) .start s
      else if !bitAt i.new k ∧ bitAt i.old k then engAct (8 * c + k) .stop s else s) s
    each ((List.range 8).filter fun k => bitAt i.cmds (16 + k)) (fun k => engAct (8 * c + k) .restart) s
  else if 0x400 ≤ o ∧ o < 0x600 then
    let e := 8 * c + (o - 0x400) / 0x40
    match o % 0x40 with
    | 0x10 => txWrite e (w32 i.written) s
    | 0x20 => if bitAt i.new 31 ∧ !bitAt i.old 31 then dmaBad e s else s
    | _ => s
  else if 0x800 ≤ o ∧ o < 0x900 then settleFrom ((o - 0x800) / 4) s
  else s

end Sys2Proof.Machine
end

