-- ==== Sys2Proof/Machine/Basin.lean ====
section
/-! DEFINITION. The Basin switch (11_basin R308 to R335). -/

namespace Sys2Proof.Machine

/-- Change what the Basin holds beside its registers. -/
def modBasin (f : Basin → Basin) (s : State) : State := { s with basin := f s.basin }

/-- Cells a frame of `len` bytes without FCS occupies (R309, R310). -/
def cellsOf (len : Nat) : Nat := (len + 4 + 63) / 64

/-- The big-endian number of a list of bytes, as an address appears on the wire. -/
def beNat (bs : List Byte) : Nat := bs.foldl (fun n b => 256 * n + b.toNat) 0

/-- The `n` big-endian bytes of a number. -/
def beBytes (n v : Nat) : List Byte := (leBytes n v).reverse

/-- `n` bytes of a frame from offset `o`. -/
def part (bs : List Byte) (o n : Nat) : List Byte := (bs.drop o).take n

/-- The EtherType of a frame; past an IEEE 802.1Q tag (R312). -/
def etherType (bs : List Byte) : Nat :=
  if beNat (part bs 12 2) = 0x8100 then beNat (part bs 16 2) else beNat (part bs 12 2)

/-- The PCP of a tagged frame. -/
def pcpOf (bs : List Byte) : Option Nat :=
  if beNat (part bs 12 2) = 0x8100 then some ((bs.getD 14 0).toNat / 32) else none

/-- Whether an address is a unicast address. -/
def unicast (a : Nat) : Bool := a / 2 ^ 40 % 2 == 0

/-! ### Class and destinations (R312 to R314) -/

/-- The EtherType of rule `k`: rule 0 is the TOW block's, rule 1 is 0x88B6 (R313) (log 136). -/
def ruleType (s : State) (k : Nat) : Nat :=
  if k = 0 then getF s F.TOW_CTL_ETYPE else if k = 1 then 0x88B6 else getF s (F.BAS_ETR_ETYPE k)

/-- The rule that decides the class of a frame from an ETH or Worri port. -/
def ruleOf (s : State) (f : InFrame) : Option Nat :=
  if 28 ≤ f.src then none else
  (List.range 8).find? fun k => (decide (k < 2) || isSet s (F.BAS_ETR_EN k)) && etherType f.bytes == ruleType s k

/-- The class of a frame (R312). -/
def classOf (s : State) (f : InFrame) : Nat :=
  match f.cls with
  | some c => c
  | none => match ruleOf s f with
    | some k => if k < 2 then 7 else getF s (F.BAS_ETR_CLASS k)
    | none => match pcpOf f.bytes with
      | some p => if isSet s (F.BAS_PORT_CFG_TRUSTPCP f.src) then p else getF s (F.BAS_PORT_CFG_DEFCLASS f.src)
      | none => getF s (F.BAS_PORT_CFG_DEFCLASS f.src)

/-- The port a frame is redirected to by its rule (R313, R314 step 2). -/
def redirect (s : State) (f : InFrame) : Option Nat :=
  match ruleOf s f with
  | some 0 => if f.src < 24 then some 34 else none
  | some 1 => none
  | some k => if isSet s (F.BAS_ETR_REDIR k) then some (getF s (F.BAS_ETR_PORT k)) else none
  | none => none

/-- Codes set in a 64-bit mask register. -/
def maskCodes (s : State) (a : Nat) : List Nat := (List.range 36).filter fun k => bitAt (rd64 s a) k

/-- The entry index of a bucket way (R326). -/
def macIndex (half bucket way : Nat) : Nat := half * 8192 + bucket * 4 + way

/-- The bucket of an address in a half (R326). -/
def bucketOf (s : State) (half addr : Nat) : Nat :=
  let c := crc32 (beBytes 6 (addr ^^^ rd64 s A.BAS_HSEED % 2 ^ 48))
  if half = 0 then c % 2048 else c / 2 ^ 16 % 2048

/-- The indices an address may stand at. -/
def macPlaces (s : State) (addr : Nat) : List Nat :=
  [0, 1].flatMap fun h => (List.range 4).map fun w => macIndex h (bucketOf s h addr) w

/-- The index of an address in the table. -/
def macFind (s : State) (addr : Nat) : Option Nat :=
  (macPlaces s addr).find? fun i => match SMap.get? s.basin.mac i with
    | some e => e.addr == addr
    | none => false

/-- The free way an address is inserted into: the half with more free ways, half 0 on a tie (R327). -/
def macFree (s : State) (addr : Nat) : Option Nat :=
  let free := fun h => ((List.range 4).map fun w => macIndex h (bucketOf s h addr) w).filter fun i => (SMap.get? s.basin.mac i).isNone
  if (free 0).length < (free 1).length then (free 1).head? else (free 0).head?

/-- Store a table entry; BAS_MACUSE follows. -/
def macPut (i : Nat) (e : MacEntry) (s : State) : State :=
  let s := modBasin (fun b => { b with mac := SMap.ins b.mac i e }) s
  setF F.BAS_MACUSE_VALID s.basin.mac.length s

/-- Keep the table entries that `p` selects. -/
def macKeep (p : MacEntry → Bool) (s : State) : State :=
  let s := modBasin (fun b => { b with mac := b.mac.filter fun e => p e.2 }) s
  setF F.BAS_MACUSE_VALID s.basin.mac.length s

/-- MAC_LEARN (R327). -/
def macLearn (src : Nat) (bs : List Byte) (s : State) : State :=
  let sa := beNat (part bs 6 6)
  if !isSet s (F.BAS_PORT_CFG_LEARN src) ∨ !unicast sa ∨ src = 32 then s else
  match macFind s sa with
  | some i => match SMap.get? s.basin.mac i with
    | some e =>
      if !e.static ∧ e.port ≠ src then satF F.BAS_MACSTAT_MOVES 1 (macPut i { e with port := src, hit := true } s)
      else macPut i { e with hit := true } s
    | none => s
  | none => match macFree s sa with
    | some i => macPut i { addr := sa, port := src, static := false, hit := true } s
    | none => raise A.BAS_EVT 2 (satF F.BAS_MACSTAT_LEARNFAIL 1 s)

/-- The device address base, its bits [2:0] taken as 0. -/
def roleMac (s : State) : Nat := rd64 s A.BAS_ROLEMAC % 2 ^ 48 / 8 * 8

/-- The destination set before masking, and whether the frame is flooded with a unicast DA (R314). -/
def rawDests (s : State) (f : InFrame) : List Nat × Bool × Bool :=
  let da := beNat (part f.bytes 0 6)
  let base := roleMac s
  match f.direct with
  | some p => ([p], false, true)
  | none => match redirect s f with
    | some p => ([p], false, false)
    | none =>
      if base ≤ da ∧ da < base + 6 then
        ([match da - base with | 4 => 35 | 5 => 33 | k => 28 + k], false, false)
      else match (if unicast da then macFind s da else none) with
        | some i => match SMap.get? s.basin.mac i with
          | some e => ([e.port], false, false)
          | none => ([], false, false)
        | none => (maskCodes s (A.BAS_PORT_FWD f.src), unicast da, false)

/-- The destination set of a frame (R314). -/
def destsOf (s : State) (f : InFrame) : List Nat :=
  let (ds, _, direct) := rawDests s f
  ds.filter fun d => d != 32 && d != f.src && decide (d < 36) && (direct || (maskCodes s (A.BAS_PORT_FWD f.src)).contains d)

/-! ### Cells and admission (R310, R315) -/

/-- Cells a class holds. -/
def clsUse (s : State) (c : Nat) : Nat := getF s (F.BAS_CLS_USE_CELLS c)

/-- Reserved cells of a class. -/
def clsResv (s : State) (c : Nat) : Nat := 16 * getF s (F.BAS_CLS_BUF_RESV c)

/-- The sum of a count over the classes. -/
def overClasses (f : Nat → Nat) : Nat := (List.range 8).foldl (fun n c => n + f c) 0

/-- Whether a frame of class `c` is admitted (R315). -/
def admits (s : State) (c : Nat) : Bool :=
  decide (clsUse s c + 32 ≤ clsResv s c) ||
    (decide (overClasses (fun k => clsUse s k - clsResv s k) + 32 ≤ 131072 - overClasses (clsResv s))
      && decide (clsUse s c < 16 * getF s (F.BAS_CLS_BUF_LIMIT c)))

/-- Charge cells to a class, or give them back. -/
def charge (c : Nat) (d : Int) (s : State) : State := setF (F.BAS_CLS_USE_CELLS c) ((clsUse s c : Int) + d).toNat s

/-- Take `n` cells from the free list, first in, first out (log 167). -/
def takeCells : Nat → Basin → Basin × List Nat
  | 0, b => (b, [])
  | n + 1, b =>
    if b.fresh < 131072 then
      let (b', cs) := takeCells n { b with fresh := b.fresh + 1 }
      (b', b.fresh :: cs)
    else match b.freed with
    | c :: t => let (b', cs) := takeCells n { b with freed := t }; (b', c :: cs)
    | [] => (b, [])

/-- The address of a cell (R311). -/
def cellAddr (c : Nat) : Nat := 0x20000000 + 64 * c

/-- Store the bytes of a frame into its cells. -/
def fillCells : List Nat → List Byte → State → State
  | [], _, s => s
  | c :: t, bs, s => fillCells t (bs.drop 64) (putBytes (cellAddr c) (bs.take 64) s)

/-- The bytes of a stored frame. -/
def frameBytes (s : State) (f : BFrame) : List Byte := (f.cells.flatMap fun c => bytesAt s (cellAddr c) 64).take f.len

/-- Whether a cell of a frame is marked bad (R310). -/
def frameBad (s : State) (f : BFrame) : Bool := f.cells.any fun c => s.ecc.any fun (w, d) => d && w / 64 == cellAddr c / 64

/-- Cells return to the free list, no longer marked bad (R310). -/
def giveCells (cs : List Nat) (s : State) : State :=
  let s := modBasin (fun b => { b with freed := b.freed ++ cs }) s
  let s := { s with ecc := s.ecc.filter fun (w, _) => !cs.any fun c => w / 64 == cellAddr c / 64 }
  setF F.BAS_STATUS_FREE (getF s F.BAS_STATUS_FREE + cs.length) s

/-- A copy of a frame has been delivered or discarded; with the last one its cells return (R310, R315). -/
def copyDone (id : Nat) (s : State) : State :=
  match s.basin.frames.find? (·.id == id) with
  | none => s
  | some f =>
    if 1 < f.todo then
      modBasin (fun b => { b with frames := b.frames.map fun g => if g.id = id then { g with todo := g.todo - 1 } else g }) s
    else
      charge f.cls (-(f.cells.length : Int)) (giveCells f.cells (modBasin (fun b => { b with frames := b.frames.filter (·.id != id) }) s))

/-! ### Rings of the Basin DMA (R330 to R335) -/

/-- Write bytes into the memory of a role as initiator `id`; every 8 bytes pass the bank gate (R330). -/
def dmaPutAs (id role : Nat) : List (Nat × List Byte) → State → State × Except BusErr Unit
  | [], s => (s, .ok ())
  | (off, bs) :: t, s =>
    let n := reachOf s role
    if 5 ≤ n then (s, .error .owner) else
    match reachWrite n (foldCW s n off) bs.length (leNat bs) ⟨id, false, none⟩ s with
    | (s, .error e) => (s, .error e)
    | (s, .ok _) => dmaPutAs id role t s

/-- Write bytes into the memory of a role as the Basin DMA. -/
def dmaPut (role : Nat) (ps : List (Nat × List Byte)) (s : State) : State × Except BusErr Unit := dmaPutAs 45 role ps s

/-- Cut bytes into groups of 8 placed in a ring of `lines` lines at `base`, from line `wp` on. -/
def ringPieces (base lines wp : Nat) (bs : List Byte) : List (Nat × List Byte) :=
  (List.range ((bs.length + 7) / 8)).map fun k => (64 * base + (64 * wp + 8 * k) % (64 * lines), part bs (8 * k) 8)

/-- Pad bytes to whole lines. -/
def padLines (bs : List Byte) : List Byte := bs ++ List.replicate ((64 - bs.length % 64) % 64) 0

/-- The number of records written to ring `k` so far (R330, R335). -/
def ringSeq (s : State) (k : Nat) : Nat := (SMap.get? s.basin.seqs k).getD 0

/-- A record has been written to ring `k`. -/
def countRecord (k : Nat) (s : State) : State := modBasin (fun b => { b with seqs := SMap.ins b.seqs k (ringSeq s k + 1) }) s

/-- The ring line base of a ring register word. -/
def ringBase (w : Word) : Nat := bitsOf w.toNat 6 14 / ringLines (bitsOf w.toNat 20 4) * ringLines (bitsOf w.toNat 20 4)

/-- Free lines of a ring: WP must not reach RP (R331). -/
def ringFree (lines wp rp : Nat) : Nat := (rp % lines + lines - wp % lines - 1) % lines

/-- The discard causes of R335. -/
inductive Drop where
  | none | noRoom | age | plane | ringFull | oversize | noDest | ecc | link
deriving DecidableEq, Repr

/-- The code of a discard cause (R335). -/
def Drop.code : Drop → Nat
  | .none => 0 | .noRoom => 1 | .age => 2 | .plane => 3 | .ringFull => 4 | .oversize => 5 | .noDest => 6 | .ecc => 7 | .link => 8

/-- A record is dropped for a full queue or a full ring (R334). -/
def mirDrop (s : State) : State := raise A.BAS_EVT 6 (satF F.BAS_MIRDROP_COUNT 1 s)

/-- MIRROR_RECORD: a record of a frame joins the queue of 64, or is dropped (R334, R335). -/
def mirror (port : Nat) (out : Bool) (cls : Nat) (d : Drop) (stamp : Nat) (bs : List Byte) (s : State) : State :=
  let chosen := bitAt (rd64 s (if out then A.BAS_MIROUT else A.BAS_MIRIN)) port
  if !isSet s F.BAS_MIRCTL_EN ∨ !chosen ∨ (d ≠ .none ∧ !isSet s F.BAS_MIRCTL_DROPS) then s else
  if 64 ≤ s.basin.mirQueue.length then mirDrop s else
  let word := port % 64 * 2 ^ 26 + bit out * 2 ^ 25 + cls % 8 * 2 ^ 22 + d.code * 2 ^ 18 + bs.length % 4096
  modBasin (fun b => { b with mirQueue := b.mirQueue ++ [⟨stamp, word, bs.take 112⟩] }) s

/-- Write a mirror record into the ring; one that finds the ring full is dropped (R334, R335). One whose write the ring's memory refuses (a
window, a bank gate) goes on waiting, with those behind it. -/
def writeMirror (x : MirRec) (s : State) : State :=
  if !s.basin.mirQueue.isEmpty then modBasin (fun b => { b with mirQueue := b.mirQueue ++ [x] }) s else
  let need := if isSet s F.BAS_MIRCTL_BIG then 2 else 1
  let w := rd s A.BAS_MIRCTL
  let lines := ringLines (bitsOf w.toNat 20 4)
  let wp := getF s F.BAS_MIRWP_INDEX
  if ringFree lines wp (getF s F.BAS_MIRRP_INDEX) < need then mirDrop s else
  let body := x.bytes.take (64 * need - 16)
  let line := leBytes 8 x.stamp ++ leBytes 4 x.word ++ leBytes 4 (ringSeq s 32 % 65536 * 65536) ++ body ++ List.replicate (64 * need - 16 - body.length) 0
  match dmaPut (getF s F.BAS_MIRCTL_ROLE) (ringPieces (ringBase w) lines wp line) s with
  | (s, .error _) => modBasin (fun b => { b with mirQueue := b.mirQueue ++ [x] }) s
  | (s, .ok _) => setF F.BAS_MIRWP_INDEX ((wp + need) % lines) (countRecord 32 s)

/-- The mirror queue empties into the ring, as it does while time passes (log 24). -/
def drainMirror (s : State) : State :=
  each s.basin.mirQueue writeMirror (modBasin (fun b => { b with mirQueue := [] }) s)

/-- A frame is discarded at ingress (R309, R314, R315). -/
def dropIn (src cls : Nat) (d : Drop) (bs : List Byte) (s : State) : State :=
  let s := satF (F.BAS_PORT_IDROP_COUNT src) 1 s
  let s := if d = .noRoom then raise A.BAS_EVT 3 (satF (F.BAS_CLS_DROP_ADMIT cls) 1 s) else s
  mirror src false cls d (time s) bs s

/-- A frame copy is discarded at egress (R317, R318, R321, R323, R331). -/
def dropOut (dest : Nat) (f : BFrame) (d : Drop) (s : State) : State :=
  let s := satF (F.BAS_PORT_EDROP_COUNT dest) 1 s
  let s := if d = .age then raise A.BAS_EVT 4 (satF (F.BAS_CLS_DROP_AGED f.cls) 1 s)
    else if d = .ringFull then raise A.BAS_EVT 5 s else s
  copyDone f.id (mirror dest true f.cls d (time s) (frameBytes s f) s)

/-- The ring of role `r` and class `c` enters ERROR on a bus error (R332). -/
def ringError (stat : FRef) (code : FRef) (e : BusErr) (s : State) : State :=
  raise A.BAS_EVT 7 (setF code e.code (setF stat 2 s))

/-- RX_RING_RECORD: a frame for role `r` is written into the ring of its class (R330, R331). -/
def rxRecord (r : Nat) (f : BFrame) (s : State) : State :=
  let k := 8 * r + f.cls
  let w := rd s (A.BAS_RX_RING k)
  let lines := ringLines (bitsOf w.toNat 20 4)
  let wp := getF s (F.BAS_RX_WP_INDEX k)
  let need := (16 + f.len + 63) / 64
  if !bitAt w.toNat 31 ∨ ringFree lines wp (getF s (F.BAS_RX_RP_INDEX k)) < need then dropOut (28 + r) f .ringFull s else
  let bs := frameBytes s f
  let head := leBytes 8 f.stamp ++ leBytes 4 (f.src % 64 * 2 ^ 26 + f.cls * 2 ^ 23 + f.len % 4096) ++ leBytes 4 (ringSeq s k % 65536 * 65536)
  match dmaPut r (ringPieces (ringBase w) lines wp (padLines (head ++ bs))) s with
  | (s, .error e) => copyDone f.id (ringError (F.BAS_RX_STAT_STATE k) (F.BAS_RX_STAT_CODE k) e s)
  | (s, .ok _) =>
    let wp' := (wp + need) % lines
    let s := setF (F.BAS_RX_WP_INDEX k) wp' (modBasin (fun b => { b with records := b.records ++ [(k, wp')] }) (countRecord k s))
    let s := incF (F.BAS_RX_STAT_COUNT k) 1 s
    let s := incF (F.BAS_PORT_TXCNT_COUNT (28 + r)) 1 (mirror (28 + r) true f.cls .none (time s) bs s)
    copyDone f.id (pend (128 + k) (getF s (F.BAS_RX_STAT_COUNT k)) s)

/-- Software has written RP of receive ring `k`: records wholly behind it are free (R331). -/
def rxFreed (k old : Nat) (s : State) : State :=
  let lines := ringLines (getF s (F.BAS_RX_RING_SIZE k))
  let rp := getF s (F.BAS_RX_RP_INDEX k)
  let dist := fun (x : Nat) => (x % lines + lines - old % lines) % lines
  let gone := fun (x : Nat × Nat) => x.1 == k && decide (0 < dist x.2 ∧ dist x.2 ≤ dist rp)
  let s := modBasin (fun b => { b with records := b.records.filter fun x => !gone x }) s
  setF (F.BAS_RX_STAT_COUNT k) (s.basin.records.filter fun x => x.1 == k).length s

/-- Read one record of the transmit ring of role `r` as the Basin DMA: `n` bytes from line `rp` on. -/
def txRead (role base lines rp n : Nat) : Nat → State → State × Except BusErr (List Byte)
  | 0, s => (s, .ok [])
  | m + 1, s =>
    let k := n - (m + 1)
    let reach := reachOf s role
    if 5 ≤ reach then (s, .error .owner) else
    match reachRead reach (foldCW s reach (64 * base + (64 * rp + 8 * k) % (64 * lines))) 8 ⟨45, false, none⟩ s with
    | (s, .error e) => (s, .error e)
    | (s, .ok v) => match txRead role base lines rp n m s with
      | (s, .error e) => (s, .error e)
      | (s, .ok t) => (s, .ok (leBytes 8 v ++ t))

/-- A frame enters the Basin's inbox. -/
def offerFrame (f : InFrame) (s : State) : State := modBasin (fun b => { b with inbox := b.inbox ++ [f] }) s

/-- The Basin DMA reads the records of role `r`'s transmit ring up to WP (R332). -/
def txDrain (r : Nat) : Nat → State → State
  | 0, s => s
  | fuel + 1, s =>
    let w := rd s (A.BAS_TX_RING r)
    let lines := ringLines (bitsOf w.toNat 20 4)
    let rp := getF s (F.BAS_TX_RP_INDEX r) % lines
    if !bitAt w.toNat 31 ∨ getF s (F.BAS_TX_STAT_STATE r) ≠ 1 ∨ rp = getF s (F.BAS_TX_WP_INDEX r) % lines then s else
    match txRead r (ringBase w) lines rp 2 2 s with
    | (s, .error e) => ringError (F.BAS_TX_STAT_STATE r) (F.BAS_TX_STAT_CODE r) e s
    | (s, .ok head) =>
      let w2 := leNat (part head 8 4)
      let len := w2 % 4096
      let next := (rp + (16 + len + 63) / 64) % lines
      if len < 60 ∨ 2044 < len then
        txDrain r fuel (setF (F.BAS_TX_RP_INDEX r) next (satF (F.BAS_TX_STAT_COUNT r) 1 s))
      else
        let words := (16 + len + 7) / 8
        match txRead r (ringBase w) lines rp words words s with
        | (s, .error e) => ringError (F.BAS_TX_STAT_STATE r) (F.BAS_TX_STAT_CODE r) e s
        | (s, .ok bs) =>
          let f : InFrame := { src := 28 + r, bytes := part bs 16 len, cls := some (bitsOf w2 28 3), direct := if bitAt w2 31 then some (min (bitsOf w2 22 6) 35) else none }
          txDrain r fuel (setF (F.BAS_TX_RP_INDEX r) next (offerFrame f s))

/-- Set the state of every ring of role `r` that is in state `a` to `b` (R333) (log 71). -/
def ringsState (r a b : Nat) (s : State) : State :=
  let one := fun (f : FRef) (s : State) => if getF s f = a then setF f b s else s
  each (List.range 8) (fun c => one (F.BAS_RX_STAT_STATE (8 * r + c))) (one (F.BAS_TX_STAT_STATE r) s)

/-- Pause the rings of a role (R333). -/
def pauseRings (r : Nat) (s : State) : State := ringsState r 1 3 s

/-- Resume the rings of a role against its reach (R333). -/
def resumeRings (r : Nat) (s : State) : State := txDrain r 1024 (ringsState r 3 1 s)

/-! ### Queues, age, dispatch (R316 to R320) -/

/-- Whether the port behind a destination code has its link up (R318). -/
def portUp (s : State) (d : Nat) : Bool :=
  if d < 24 then isSet s (F.ETH_STATUS_LINK d)
  else if d < 28 then getF s (F.WFB_LINK_STAT_STATE (d - 24)) == 2
  else true

/-- A stored frame by its identifier. -/
def frameById (s : State) (id : Nat) : Option BFrame := s.basin.frames.find? (·.id == id)

/-- Whether a frame has passed the age limit of its class (R317). -/
def tooOld (s : State) (f : BFrame) : Bool := decide (f.stamp + 1000 * getF s (F.BAS_CLS_AGE_AGE f.cls) < time s)

/-- The head of a queue. -/
def queueHead (s : State) (dest cls : Nat) : Option BFrame :=
  match s.basin.queues.find? fun q => q.dest == dest && q.cls == cls with
  | some q => frameById s q.id
  | none => none

/-- Take a frame copy out of its queue. -/
def unqueue (dest : Nat) (f : BFrame) (s : State) : State :=
  modBasin (fun b => { b with queues := b.queues.erase { dest := dest, cls := f.cls, id := f.id } }) s

/-- The head of a queue is checked for a link that is down and for age (R317, R318); true where it was discarded. -/
def checkHead (dest cls : Nat) (s : State) : State × Bool :=
  match queueHead s dest cls with
  | none => (s, false)
  | some f =>
    if !portUp s dest then (dropOut dest f .link (unqueue dest f s), true)
    else if tooOld s f then (dropOut dest f .age (unqueue dest f s), true)
    else (s, false)

/-- Heads of a queue are discarded until one may stay: each frame is checked as it reaches the head (R317, R318). -/
def clearHeads (dest cls : Nat) : Nat → State → State
  | 0, s => s
  | n + 1, s => match checkHead dest cls s with
    | (s, true) => clearHeads dest cls n s
    | (s, false) => s

/-- Frames waiting in a queue. -/
def waiting (s : State) (dest cls : Nat) : Nat := (s.basin.queues.filter fun q => q.dest == dest && q.cls == cls).length

/-- Once per µs every queue head is checked (R317). -/
def ageCheck (s : State) : State :=
  each (List.range 36) (fun d => each (List.range 8) (fun c s => clearHeads d c (waiting s d c) s)) s

/-- The classes of a lane, highest first (R316). -/
def laneClasses (hi : Bool) : List Nat := if hi then [7, 6] else [5, 4, 3, 2, 1, 0]

/-- Cells a destination's egress buffer holds or has reserved (R319). -/
def egressUse (s : State) (dest : Nat) : Nat :=
  (s.basin.flights.filter (·.dest == dest)).foldl (fun n x => n + (match frameById s x.id with | some f => f.cells.length | none => 0)) 0
    + (s.basin.egress.filter (·.dest == dest)).foldl (fun n x => n + cellsOf x.bytes.length) 0

/-- The state of plane `k`: 0 ACTIVE, 1 DRAINING, 2 OUT, 3 FAILED. -/
def planeState (s : State) (k : Nat) : Nat := getF s ⟨A.BAS_PLANE, 8 + 2 * k, 2⟩

/-- Set the state of plane `k`. -/
def setPlane (k v : Nat) (s : State) : State := setF ⟨A.BAS_PLANE, 8 + 2 * k, 2⟩ v s

/-! ### Ingress (R309, R314, R315) -/

/-- The first byte of the next frame from a port code arrives: it is admitted, and its cells are taken, or it is discarded (R310, R315)
(log 69, 72, 167). -/
def frameIngress (src : Nat) (s : State) : State :=
  match s.basin.inbox.find? (·.src == src) with
  | none => s
  | some f =>
    let c := classOf s f
    let s := modBasin (fun b => { b with inbox := b.inbox.erase f }) s
    let n := min (cellsOf f.bytes.length) 32
    if !admits s c ∨ getF s F.BAS_STATUS_FREE < n then dropIn src c .noRoom f.bytes s else
    let (b, cs) := takeCells n s.basin
    let s := { s with basin := { b with arriving := b.arriving ++ [(f, c, cs)] } }
    charge c 32 (incF (F.BAS_PORT_RXCNT_COUNT src) 1 (setF F.BAS_STATUS_FREE (getF s F.BAS_STATUS_FREE - n) (fillCells cs f.bytes s)))

/-- The whole frame has arrived and takes its stamp: it is mirrored, its source learnt, its destinations decided, and it is queued; one that
is discarded gives its cells back (R314, R317, R335) (log 69). -/
def frameEnqueue (src : Nat) (s : State) : State :=
  match s.basin.arriving.find? (·.1.src == src) with
  | none => s
  | some (f, c, cs) =>
    let s := charge c (-32) (modBasin (fun b => { b with arriving := b.arriving.erase (f, c, cs) }) s)
    let s := mirror src false c .none (time s) f.bytes s
    let len := f.bytes.length
    if 2044 < len then dropIn src c .oversize f.bytes (giveCells cs s) else
    if len < 60 then giveCells cs s else
    let s := macLearn src f.bytes s
    let (_, flood, _) := rawDests s f
    let s := if flood then satF F.BAS_FLOODCNT_COUNT 1 s else s
    let ds := destsOf s f
    if ds.isEmpty then dropIn src c .noDest f.bytes (giveCells cs s) else
    let id := s.basin.nextId
    let bf : BFrame := { id := id, src := src, cls := c, len := len, stamp := time s, cells := cs, todo := ds.length }
    let q := ds.map fun d => { dest := d, cls := c, id := id : Queued }
    let s := charge c cs.length (modBasin (fun b => { b with frames := b.frames ++ [bf], queues := b.queues ++ q, nextId := id + 1 }) s)
    let s := each ds (fun d s => clearHeads d c (waiting s d c) s) s
    each (ds.filter fun d => decide (28 ≤ d ∧ d < 32)) (fun d s =>
      if getF s (F.RCH_PWR_PSTATE (reachOf s (d - 28))) = 2 then
        pend (128 + 8 * (d - 28) + c) ((s.basin.queues.filter fun x => x.dest == d && x.cls == c).length) s else s) s

/-! ### Planes, spraying and resequencing (R319 to R321) -/

/-- Cells of a destination and lane that hold a credit of plane `k`: taken and not yet released (R319, R321). -/
def creditsUsed (fs : List Flight) (dest : Nat) (hi : Bool) (k : Nat) : Nat :=
  (fs.filter fun x => x.dest == dest && x.hi == hi).foldl (fun n x => n + (x.cells.filter fun c => c.plane == k).length) 0

/-- The plane the next cell of a lane goes to: the next ACTIVE one after `last` that holds a credit (R319) (log 70). -/
def nextPlane (s : State) (dest : Nat) (hi : Bool) (last : Nat) : Option Nat :=
  ([last + 1, last + 2, last + 3, last + 4].map (· % 4)).find? fun k =>
    planeState s k == 0 && decide (creditsUsed s.basin.flights dest hi k < if hi then 2 else 8)

/-- Replace a frame copy on its way. -/
def setFlight (old new : Flight) (s : State) : State :=
  modBasin (fun b => { b with flights := b.flights.map fun x => if x = old then new else x }) s

/-- Whether plane `k` holds cells of a frame copy that it has not carried. -/
def Flight.heldBy (x : Flight) (k : Nat) : Bool := x.cells.any fun c => c.plane == k && !c.carried

/-- Whether plane `k` holds cells. -/
def planeHolds (s : State) (k : Nat) : Bool := s.basin.flights.any (·.heldBy k)

/-- From now on the stall time of plane `k` runs (R323). -/
def planeMoves (k : Nat) (s : State) : State := modBasin (fun b => { b with planeAt := vset b.planeAt k s.now }) s

/-- A dispatcher sends the cells of a frame in order, as far as planes have credits; the others wait (R319) (log 70). -/
def sendCells (dest : Nat) (hi : Bool) : Nat → State → State
  | 0, s => s
  | n + 1, s =>
    match s.basin.flights.find? fun x => x.dest == dest && x.hi == hi && x.left != 0 with
    | none => s
    | some fl =>
      let last := (SMap.get? s.basin.lanes (2 * dest + bit hi)).getD (0, 3)
      match nextPlane s dest hi last.2 with
      | none => s
      | some k =>
        let s := if planeHolds s k then s else planeMoves k s
        let fl' := { fl with seq := (fl.seq + 1) % 256, left := fl.left - 1, cells := fl.cells ++ [⟨fl.seq, k, false⟩] }
        sendCells dest hi n (modBasin (fun b => { b with lanes := SMap.ins b.lanes (2 * dest + bit hi) ((fl.seq + 1) % 256, k) }) (setFlight fl fl' s))

/-- Whether plane `k` holds a cell for a destination and lane. -/
def planeWaits (s : State) (k dest : Nat) (hi : Bool) : Bool :=
  s.basin.flights.any fun x => x.dest == dest && x.hi == hi && x.cells.any fun c => c.plane == k && !c.carried

/-- The oldest cell of plane `k` in a list is carried. -/
def carryIn (k : Nat) : List Cell → List Cell
  | [] => []
  | c :: t => if c.plane = k ∧ !c.carried then { c with carried := true } :: t else c :: carryIn k t

/-- The oldest cell of plane `k` for a destination and lane is carried: each plane is first-in, first-out per destination and lane (R320). -/
def carryFlight (k dest : Nat) (hi : Bool) : List Flight → List Flight
  | [] => []
  | x :: t => if x.dest = dest ∧ x.hi = hi ∧ x.cells.any (fun c => c.plane == k && !c.carried) then { x with cells := carryIn k x.cells } :: t
    else x :: carryFlight k dest hi t

/-- The destination plane `k` serves next in a lane: round robin over destinations with a waiting cell (R320). -/
def nextTurn (s : State) (k : Nat) (hi : Bool) : Option Nat :=
  let last := vget s.basin.turns (2 * k + bit hi)
  ((List.range 36).map fun d => (last + 1 + d) % 36).find? fun d => planeWaits s k d hi

/-- One slot of plane `k`: it carries one cell to its resequencer, of lane H where one waits, else of lane N (R320). -/
def planeSlot (k : Nat) (s : State) : State :=
  if 2 ≤ planeState s k then s else
  match (nextTurn s k true).map (·, true) <|> (nextTurn s k false).map (·, false) with
  | some (d, hi) =>
    planeMoves k (modBasin (fun b => { b with turns := vset b.turns (2 * k + bit hi) d, flights := carryFlight k d hi b.flights }) s)
  | none => s

/-- The resequencers release, lane by lane, every cell whose predecessors have been released; the credits return (R321). -/
def releaseCells : List (Nat × Bool) → List Flight → List Flight
  | _, [] => []
  | held, x :: t =>
    if held.contains (x.dest, x.hi) then x :: releaseCells held t else
    let x' := { x with cells := x.cells.dropWhile (·.carried) }
    x' :: releaseCells (if x'.cells.isEmpty && x'.left == 0 then held else (x.dest, x.hi) :: held) t

/-- One slot of all planes: cells are carried and released, and dispatchers go on (R319 to R321). -/
def basinSlot (s : State) : State :=
  let s := each (List.range 4) planeSlot s
  let s := modBasin (fun b => { b with flights := releaseCells [] b.flights }) s
  each ((s.basin.flights.filter (·.left != 0)).map fun x => (x.dest, x.hi)) (fun x => sendCells x.1 x.2 32) s

/-- Whether every cell of a frame copy has been released. -/
def Flight.whole (x : Flight) : Bool := x.cells.isEmpty && x.left == 0

/-- The frame copy a lane hands over next: its oldest. -/
def laneFlight (s : State) (dest : Nat) (hi : Bool) : Option Flight := s.basin.flights.find? fun x => x.dest == dest && x.hi == hi

/-- Slots pass until the oldest frame of a lane is whole in the egress buffer, or no plane carries a cell any more (log 70). -/
def runPlanes (dest : Nat) (hi : Bool) : Nat → State → State
  | 0, s => s
  | n + 1, s =>
    match laneFlight s dest hi with
    | none => s
    | some x => if x.whole then s else
      let t := basinSlot s
      if t.basin.flights = s.basin.flights then s else runPlanes dest hi n t

/-- The slots that may pass before every cell on its way has been released. -/
def slotBound (s : State) : Nat := s.basin.flights.foldl (fun n x => n + 2 * (x.left + x.cells.length)) 1

/-- Whether the destination takes frames of a class: the rings of a role neither PAUSED nor in ERROR (R332, R333). -/
def destTakes (s : State) (dest cls : Nat) : Bool :=
  if 28 ≤ dest ∧ dest < 32 then
    decide (getF s (F.BAS_RX_STAT_STATE (8 * (dest - 28) + cls)) < 2) && decide (reachOf s (dest - 28) < 5)
  else true

/-- A dispatcher of a destination's lane that has sent the frame before starts the next one and sprays its cells over the planes (R316,
R319). -/
def frameDispatch (dest : Nat) (hi : Bool) (s : State) : State :=
  if s.basin.flights.any (fun x => x.dest == dest && x.hi == hi && x.left != 0) then s else
  match (laneClasses hi).find? fun c => (queueHead s dest c).isSome && destTakes s dest c with
  | none => s
  | some c =>
    let s := clearHeads dest c (waiting s dest c) s
    match queueHead s dest c with
    | none => s
    | some f =>
      let n := f.cells.length
      if (List.range 4).all (fun k => planeState s k != 0) ∨ 96 < egressUse s dest + n + (if hi then 0 else 32) then s else
      let seq := ((SMap.get? s.basin.lanes (2 * dest + bit hi)).getD (0, 3)).1
      let fl : Flight := { dest := dest, hi := hi, id := f.id, seq := seq, left := n, cells := [] }
      let s := clearHeads dest c (waiting s dest c) (unqueue dest f s)
      sendCells dest hi 33 (modBasin (fun b => { b with flights := b.flights ++ [fl] }) s)

/-- The planes carry the cells of the lane's oldest frame, and with the release of its last cell it passes to its destination (R320, R321)
(log 70). A role's frame goes into its ring, or waits while that is paused or in error (R332, R333); every other is answered. -/
def frameHandoff (dest : Nat) (hi : Bool) (s : State) : State × Option OutFrame :=
  let s := runPlanes dest hi (slotBound s) s
  match laneFlight s dest hi with
  | none => (s, none)
  | some fl => if !fl.whole then (s, none) else
    let waits := (frameById s fl.id).any fun f => !frameBad s f && !destTakes s dest f.cls
    if waits then (s, none) else
    let s := modBasin (fun b => { b with flights := b.flights.erase fl }) s
    match frameById s fl.id with
    | none => (s, none)
    | some f =>
      if frameBad s f then (dropOut dest f .ecc s, none)
      else if 28 ≤ dest ∧ dest < 32 then (rxRecord (dest - 28) f s, none)
      else
        let bs := frameBytes s f
        let s := mirror dest true f.cls .none (time s) bs (incF (F.BAS_PORT_TXCNT_COUNT dest) 1 s)
        (copyDone f.id s, some { dest := dest, src := f.src, cls := f.cls, stamp := f.stamp, bytes := bs })

/-! ### Planes (R322 to R324) -/

/-- A plane becomes FAILED: every cell it holds is lost, and every frame with one of them is discarded (R323), fault 0x20. -/
def planeFailed (k : Nat) (s : State) : State :=
  let lost := s.basin.flights.filter (·.heldBy k)
  let s := modBasin (fun b => { b with flights := b.flights.filter fun x => !x.heldBy k }) (setPlane k 3 s)
  let s := each lost (fun x s => match frameById s x.id with
    | some f => dropOut x.dest f .plane s
    | none => s) s
  logFault 0x20 k [k] (raise A.BAS_EVT 0 s)

/-- A plane that holds cells has delivered none for PSTALL (R323). `sound` says whether its datapath will pass RESTORE. -/
def planeStall (k : Nat) (sound : Bool) (s : State) : State :=
  if planeState s k = 3 ∨ !planeHolds s k ∨ s.now < vget s.basin.planeAt k + 100 * getF s F.BAS_CTL_PSTALL then s else
  planeFailed k (modBasin (fun b => { b with sound := bvSet b.sound k sound }) s)

/-- A plane leaves service in a planned way (R322). -/
def planeDrain (k : Nat) (s : State) : State := if planeState s k = 0 then setPlane k 1 s else s

/-- A plane returns to service where nothing holds it out (R322). -/
def planeReturn (k : Nat) (s : State) : State :=
  if isSet s ⟨A.BAS_PLANE, k, 1⟩ ∧ !isSet s ⟨A.BAS_PLANE, 4 + k, 1⟩ ∧ (planeState s k = 1 ∨ planeState s k = 2) then setPlane k 0 s else s

/-- Slots of plane `k` pass until it holds no cell. -/
def runPlane (k : Nat) : Nat → State → State
  | 0, s => s
  | n + 1, s => if planeHolds s k then runPlane k n (planeSlot k s) else s

/-- A DRAINING plane delivers the cells it holds and becomes OUT (R322). -/
def planeDrained (k : Nat) (s : State) : State :=
  if planeState s k = 1 then setPlane k 2 (runPlane k (slotBound s) s) else s

/-- RESTORE: FAILED planes that pass their check return; those not enabled become OUT (R323, R324). -/
def planeRestore (s : State) : State :=
  each (List.range 4) (fun k s =>
    if planeState s k = 3 ∧ s.basin.sound.getLsbD k then
      (if isSet s ⟨A.BAS_PLANE, k, 1⟩ then raise A.BAS_EVT 1 (setPlane k 0 s) else setPlane k 2 s)
    else s) s

/-! ### MAC table commands (R328, R329) -/

/-- The sweep of every AGETIME ÷ 2 (R328). -/
def macSweep (s : State) : State :=
  if s.now < s.basin.sweepAt + 500000000 * getF s F.BAS_CTL_AGETIME then s else
  let s := macKeep (fun e => e.static || e.hit) s
  modBasin (fun b => { b with mac := b.mac.map fun (i, e) => (i, { e with hit := false }), sweepAt := s.now }) s

/-- The result of a table command in BAS_MACDATA. -/
def macResult (r : Nat) (found : Option (Nat × MacEntry)) (s : State) : State :=
  let s := setF F.BAS_MACDATA_RESULT r s
  match found with
  | some (i, e) =>
    setF F.BAS_MACDATA_V 1 (setF F.BAS_MACDATA_STATIC (bit e.static) (setF F.BAS_MACDATA_HIT (bit e.hit)
      (setF F.BAS_MACDATA_PORT e.port (setF F.BAS_MACDATA_INDEX i s))))
  | none => setF F.BAS_MACDATA_V 0 s

/-- BAS_MACADDR as a number. -/
def macAddr (s : State) : Nat := rd64 s A.BAS_MACADDR % 2 ^ 48

/-- READ (R329). -/
def macRead (s : State) : State :=
  let i := getF s F.BAS_MACCMD_INDEX
  match SMap.get? s.basin.mac i with
  | some e => macResult 0 (some (i, e)) (wr64 A.BAS_MACADDR e.addr s)
  | none => setF F.BAS_MACDATA_STATIC 0 (setF F.BAS_MACDATA_HIT 0 (macResult 0 none (wr64 A.BAS_MACADDR 0 s)))

/-- LOOKUP (R329). -/
def macLookup (s : State) : State :=
  match macFind s (macAddr s) with
  | some i => macResult 0 ((SMap.get? s.basin.mac i).map fun e => (i, e)) s
  | none => macResult 1 none s

/-- WRITE: a static entry for MACDATA.PORT (R329). -/
def macWrite (s : State) : State :=
  let a := macAddr s
  match (macFind s a).orElse fun _ => macFree s a with
  | some i =>
    let e : MacEntry := { addr := a, port := getF s F.BAS_MACDATA_PORT, static := true, hit := false }
    macResult 0 (some (i, e)) (macPut i e s)
  | none => macResult 2 none s

/-- DELETE (R329). -/
def macDelete (s : State) : State :=
  match macFind s (macAddr s) with
  | some i =>
    let s := modBasin (fun b => { b with mac := SMap.del b.mac i }) s
    macResult 0 none (setF F.BAS_MACUSE_VALID s.basin.mac.length s)
  | none => macResult 1 none s

/-- FLUSH: dynamic entries, all or those of one port (R329). -/
def macFlush (s : State) : State :=
  let p := getF s F.BAS_MACDATA_PORT
  let all := isSet s F.BAS_MACCMD_ALL
  setF F.BAS_MACDATA_RESULT 0 (macKeep (fun e => e.static || (!all && e.port != p)) s)

/-- GO of BAS_MACCMD; codes 5 to 7 became 0 (R329) (log 22). -/
def macCommand (s : State) : State :=
  match getF s F.BAS_MACCMD_OP with
  | 1 => macLookup s
  | 2 => macWrite s
  | 3 => macDelete s
  | 4 => macFlush s
  | _ => macRead s

/-! ### Register writes -/

/-- A ring register has been written: EN starts or stops the ring, RESUME leaves ERROR (R332) (log 71). -/
def ringWritten (en resume : Bool) (stat code : FRef) (s : State) : State :=
  let st := getF s stat
  let s := if !en then setF stat 0 s else if st = 0 then setF stat 1 s else s
  if resume ∧ getF s stat = 2 then setF stat 1 (setF code 0 s) else s

/-- EN of BAS_PLANE has been written (R322, R324). -/
def planeEnWritten (s : State) : State :=
  each (List.range 4) (fun k s => if isSet s ⟨A.BAS_PLANE, k, 1⟩ then planeReturn k s else planeDrain k s) s

/-- What a write to a BAS register starts. -/
def hookBas (i : WInfo) (s : State) : State :=
  if i.pa = A.BAS_PLANE then
    let s := planeEnWritten s
    if bitAt i.cmds 16 then planeRestore s else s
  else if i.pa = A.BAS_MACCMD then (if bitAt i.cmds 31 then macCommand s else s)
  else match copyAt (A.BAS_RX_RING 0) 0x10 32 i.pa with
  | some k => ringWritten (bitAt i.new 31) (bitAt i.cmds 30) (F.BAS_RX_STAT_STATE k) (F.BAS_RX_STAT_CODE k) s
  | none =>
  match copyAt (A.BAS_TX_RING 0) 0x10 4 i.pa with
  | some r => txDrain r 1024 (ringWritten (bitAt i.new 31) (bitAt i.cmds 30) (F.BAS_TX_STAT_STATE r) (F.BAS_TX_STAT_CODE r) s)
  | none =>
  match copyAt (A.BAS_RX_RP 0) 0x10 32 i.pa with
  | some k => rxFreed k i.old s
  | none =>
  match copyAt (A.BAS_TX_WP 0) 0x10 4 i.pa with
  | some r => txDrain r 1024 s
  | none => s

end Sys2Proof.Machine
end

