-- ==== Sys2Proof/Machine/Can.lean ====
section
/-! DEFINITION. The CAN ports: receive ring, image slots, transmit buffers, errors, modes, stamps
(14_can R383 to R399; the error counters follow ISO 11898-1, which R388 names). -/

namespace Sys2Proof.Machine

/-- What CAN port `n` holds. -/
def State.canp (s : State) (n : Nat) : CanPort := vget s.can n

/-- Change what CAN port `n` holds. -/
def modCan (n : Nat) (f : CanPort → CanPort) (s : State) : State := { s with can := vset s.can n (f (vget s.can n)) }

/-! ### Frames -/

/-- The bytes a DLC stands for (R391); a Classical frame has at most 8. -/
def dlcBytes (fd : Bool) (dlc : Nat) : Nat :=
  if dlc ≤ 8 then dlc else if fd then [12, 16, 20, 24, 32, 48, 64].getD (dlc - 9) 64 else 8

/-- FDF of a frame. -/
def CanFrame.fd (f : CanFrame) : Bool := bitAt f.w0.toNat 29

/-- The data bytes of a frame: none for a remote frame. -/
def CanFrame.len (f : CanFrame) : Nat := if bitAt f.w0.toNat 30 && !f.fd then 0 else dlcBytes f.fd (bitsOf f.w1.toNat 28 4)

/-- The data of a frame, followed by zeros to 64 bytes. -/
def CanFrame.padded (f : CanFrame) : List Byte :=
  let d := f.data.take f.len
  d ++ List.replicate (64 - d.length) 0

/-- The arbitration field as a number: the lower wins on the bus (R394). -/
def arbKey (w0 : Nat) : Nat :=
  let rtr := bit (bitAt w0 30 && !bitAt w0 29)
  if bitAt w0 31 then bitsOf w0 18 11 * 2 ^ 21 + 2 ^ 20 + 2 ^ 19 + bitsOf w0 0 18 * 2 + rtr
  else bitsOf w0 18 11 * 2 ^ 21 + rtr * 2 ^ 20

/-- The frame in transmit buffer `b` of port `n`. -/
def txFrame (s : State) (n b : Nat) : CanFrame :=
  { w0 := rd s (A.CAN_TXBUF n b), w1 := rd s (A.CAN_TXBUF n b + 4),
    data := (List.range 16).flatMap fun k => leBytes 4 (rd s (A.CAN_TXBUF n b + 8 + 4 * k)).toNat }

/-! ### Ring and image slots (R390 to R392) -/

/-- Words of 8 bytes in the ring of port `n`. -/
def canRing (s : State) (n : Nat) : Nat := 16 * 2 ^ (min (getF s (F.CAN_RXRING_SIZE n)) 6 + 3)

/-- 8-byte words between RP and WP. -/
def canUsed (s : State) (n : Nat) : Nat :=
  let k := canRing s n
  (getF s (F.CAN_RXWP_INDEX n) % k + k - getF s (F.CAN_RXRP_INDEX n) % k) % k

/-- Write one record: 72 bytes if they do not carry WP up to RP, else the frame is lost (R390). -/
def canRecord (n : Nat) (f : CanFrame) (s : State) : State :=
  let k := canRing s n
  let wp := getF s (F.CAN_RXWP_INDEX n) % k
  if k ≤ canUsed s n + 9 then
    raise (A.CAN_EVT n) 2 (satF (F.CAN_RXSTAT_LOST n) 1 (modCan n (fun c => { c with lost := true }) s))
  else
    let w1 := putBits f.w1.toNat 25 1 (bit (s.canp n).lost)
    let bytes := leBytes 4 f.w0.toNat ++ leBytes 4 w1 ++ f.padded
    let base := ringBase (rd s (A.CAN_RXRING n)) * 64
    let pieces := (List.range 9).map fun j => (base + 8 * ((wp + j) % k), part bytes (8 * j) 8)
    match dmaPutAs 54 (getF s (F.CAN_RXRING_ROLE n)) pieces s with
    | (s, .error e) => raise (A.CAN_EVT n) 3 (setF (F.CAN_RXSTAT_CODE n) e.code (setF (F.CAN_RXSTAT_STATE n) 2 s))
    | (s, .ok _) =>
      let s := setF (F.CAN_RXWP_INDEX n) ((wp + 9) % k) (modCan n (fun c => { c with lost := false }) s)
      pend (192 + 2 * n) (canUsed s n / 9) s

/-- The role of the ring of port `n` lies in a parked reach. -/
def canParked (s : State) (n : Nat) : Bool :=
  let reach := reachOf s (getF s (F.CAN_RXRING_ROLE n))
  decide (reach < 5) && getF s (F.RCH_PWR_PSTATE reach) == 2

/-- A frame for the ring: written in state RUN, kept waiting in ERROR and PAUSED, nowhere in IDLE (R390, R333); one that waits for a
parked reach sets the port's source, which wakes it. -/
def canToRing (n : Nat) (f : CanFrame) (s : State) : State :=
  match getF s (F.CAN_RXSTAT_STATE n) with
  | 1 => canRecord n f s
  | 0 => s
  | _ =>
    let s := modCan n (fun c => { c with queue := c.queue ++ [f] }) s
    if canParked s n then pend (192 + 2 * n) (canUsed s n / 9 + (s.canp n).queue.length) s else s

/-- The frames that waited are written. -/
def canRelease (n : Nat) (s : State) : State :=
  let q := (s.canp n).queue
  each q (canToRing n) (modCan n (fun c => { c with queue := [] }) s)

/-- Pause the CAN rings of a role (R390, R333). -/
def canPause (r : Nat) (s : State) : State :=
  each (List.range 8) (fun n s => if getF s (F.CAN_RXRING_ROLE n) = r ∧ getF s (F.CAN_RXSTAT_STATE n) = 1 then setF (F.CAN_RXSTAT_STATE n) 3 s else s) s

/-- Resume the CAN rings of a role. -/
def canResume (r : Nat) (s : State) : State :=
  each (List.range 8) (fun n s =>
    if getF s (F.CAN_RXRING_ROLE n) = r ∧ getF s (F.CAN_RXSTAT_STATE n) = 3 then canRelease n (setF (F.CAN_RXSTAT_STATE n) 1 s) else s) s

/-- Image offset and length of slot `k` of port `n`. -/
def slotRange (s : State) (n k : Nat) : Nat × Nat :=
  (getF s (F.CAN_IMG_DST_INOFF n k), getF s (F.CAN_IMG_DST_LENM1 n k) + 1)

/-- Set the quality of a slot's bytes. -/
def slotQuality (n k code : Nat) (s : State) : State := engineQuality 54 code (slotRange s n k).1 (slotRange s n k).2 s

/-- A slot takes a frame: its bytes are written with quality GOOD; a refused write raises IMGERR (R392). -/
def slotTakes (n : Nat) (f : CanFrame) (k : Nat) (s : State) : State :=
  let (off, len) := slotRange s n k
  match imageWrite off len (leNat (f.padded.take len)) ⟨54, false, none⟩ s with
  | (s, .error e) => raise (A.CAN_EVT n) 4 (logBusErr ⟨54, false, none⟩ (0x30000000 + off) true len e 0 s)
  | (s, .ok _) => slotQuality n k 0 (modCan n (fun c => { c with hit := vset c.hit k (some s.now) }) s)

/-- The enabled slots of port `n` whose IDE and ID equal those of a frame. -/
def slotMatches (s : State) (n : Nat) (f : CanFrame) : List Nat :=
  (List.range 8).filter fun k => isSet s (F.CAN_IMG_ID_EN n k) &&
    (getF s (F.CAN_IMG_ID_IDE n k) == bitsOf f.w0.toNat 31 1) && (getF s (F.CAN_IMG_ID_ID n k) == bitsOf f.w0.toNat 0 29)

/-- The enabled slots of a port turn BAD until their next match (R392). -/
def slotsBad (n : Nat) (s : State) : State :=
  each ((List.range 8).filter fun k => isSet s (F.CAN_IMG_ID_EN n k)) (fun k => slotQuality n k 2)
    (modCan n (fun c => { c with hit := Vector.replicate 8 none }) s)

/-- AGE ms have passed without a match: the slot is UNCERTAIN (R392). -/
def slotAge (n k : Nat) (s : State) : State :=
  let age := getF s (F.CAN_IMG_DST_AGE n k)
  match vget (s.canp n).hit k with
  | some t => if age ≠ 0 ∧ isSet s (F.CAN_IMG_ID_EN n k) ∧ t + 1000000 * age ≤ s.now then slotQuality n k 1 s else s
  | none => s

/-! ### Error states (R388, R389) -/

/-- ESTATE of port `n`. -/
def estate (s : State) (n : Nat) : Nat := getF s (F.CAN_STATUS_ESTATE n)

/-- Change the error state; every change raises ESTATE. -/
def setEstate (n v : Nat) (s : State) : State :=
  if estate s n = v then s else raise (A.CAN_EVT n) 1 (setF (F.CAN_STATUS_ESTATE n) v s)

/-- The record of an ended request: RESULT and CANFAIL are written, the source fires (R396). -/
def txEnd (n b result : Nat) (canfail : Bool) (s : State) : State :=
  let s := setF ⟨A.CAN_TXPEND n, b, 1⟩ 0 s
  let s := setF (F.CAN_TXST_RESULT n b) result (setF (F.CAN_TXST_CANFAIL n b) (bit canfail) s)
  let s := if (s.canp n).chosen = some b then modCan n (fun c => { c with chosen := none, cancel := false }) s else s
  pend (193 + 2 * n) (rd s (A.CAN_TXST n b)).toNat s

/-- The pending buffers of port `n`. -/
def txPending (s : State) (n : Nat) : List Nat := (List.range 16).filter fun b => isSet s ⟨A.CAN_TXPEND n, b, 1⟩

/-- Every pending request ends ABORTED. -/
def txAbortAll (n : Nat) (s : State) : State := each (txPending s n) (fun b => txEnd n b 3 false) s

/-- BUS_OFF: requests abort, the slots turn BAD; recovery starts at once with AUTOREC (R389, R392). -/
def busOff (n : Nat) (s : State) : State :=
  let s := setF (F.CAN_STATUS_ACT n) 0 (setF (F.CAN_STATUS_TEC n) 255 (setEstate n 2 s))
  let s := slotsBad n (txAbortAll n s)
  if isSet s (F.CAN_CTL_AUTOREC n) then setEstate n 3 s else s

/-- The error counters after a change: passive above 127, bus-off when TEC exceeds 255 (R388, R389). -/
def setCounts (n tec rc : Nat) (s : State) : State :=
  let s := setF (F.CAN_STATUS_REC n) (min rc 255) s
  if 255 < tec then busOff n s else
  setEstate n (if 127 < tec ∨ 127 < rc then 1 else 0) (setF (F.CAN_STATUS_TEC n) tec s)

/-- Whether the error counters of a port count (R386) and it takes part in the bus. -/
def counts (s : State) (n : Nat) : Bool := ((s.canp n).mode == 0 || (s.canp n).mode == 3) && decide (estate s n < 2)

/-- A frame has been received well: REC falls by one, or to some value from 119 to 127 (ISO 11898-1) (log 63). -/
def recvOk (n : Nat) (s : State) : State :=
  let rc := getF s (F.CAN_STATUS_REC n)
  if !counts s n ∨ rc = 0 then s
  else if rc ≤ 127 then setCounts n (getF s (F.CAN_STATUS_TEC n)) (rc - 1) s
  else usedFree (setCounts n (getF s (F.CAN_STATUS_TEC n)) (119 + freeNat s % 9) s)

/-- What ISO 11898-1 adds to TEC for an error of kind `kind` at `place`, `runs` times followed by a run of dominant bits that counts
again: a transmitter counts 8, but nothing for an acknowledge error while error-passive nor for a stuff error of its arbitration field
where the standard excepts it (R388) (log 63). -/
def tecFor (kind estate : Nat) (place : CanErrAt) (runs : Nat) : Nat :=
  let spared := place = .excepted ∧ (kind = 1 ∨ (kind = 3 ∧ estate = 1))
  (if spared then 0 else 8) + 8 * runs

/-- What ISO 11898-1 adds to REC: a receiver counts 1 for an error, but 8 for a bit error while it sends an active error flag or an overload
flag, and 8 for each run of dominant bits after its flag that counts again (R388) (log 63). -/
def recFor (kind : Nat) (place : CanErrAt) (runs : Nat) : Nat :=
  (if place = .flag ∧ (kind = 4 ∨ kind = 5) then 8 else 1) + 8 * runs

/-- An error is detected: kind 1 STUFF, 2 FORM, 3 ACK, 4 BIT1, 5 BIT0, 6 CRC, in the data phase or not. The transmitter of the frame in
progress counts it in TEC, a receiver in REC (R388) (log 63); in RESTRICTED and MONITOR nothing is counted and the port waits for 11
recessive bits, as at an integration (R386) (log 162). -/
def canError (n kind : Nat) (dataPhase : Bool) (place : CanErrAt) (runs : Nat) (s : State) : State :=
  if !isSet s (F.CAN_STATUS_ACT n) ∨ kind = 0 ∨ 6 < kind then s else
  let s := setF (F.CAN_STATUS_LEC n) kind (setF (F.CAN_STATUS_LECDATA n) (bit dataPhase) s)
  let cnt := match kind with
    | 3 => F.CAN_ERRCNT_ACK n
    | 4 => F.CAN_ERRCNT_BIT n
    | 5 => F.CAN_ERRCNT_BIT n
    | 6 => F.CAN_ERRCNT_CRC n
    | _ => F.CAN_ERRCNT_FMT n
  let s := raise (A.CAN_EVT n) 0 (satF cnt 1 s)
  let tec := getF s (F.CAN_STATUS_TEC n)
  let rc := getF s (F.CAN_STATUS_REC n)
  if !counts s n then (if (s.canp n).mode = 1 ∨ (s.canp n).mode = 2 then setF (F.CAN_STATUS_ACT n) 0 s else s)
  else if (s.canp n).chosen.isSome then setCounts n (tec + tecFor kind (estate s n) place runs) rc s
  else setCounts n tec (rc + recFor kind place runs) s

/-- RECOVER starts the recovery from bus-off (R389). -/
def canRecover (n : Nat) (s : State) : State :=
  if estate s n = 2 then modCan n (fun c => { c with asked := true }) (setEstate n 3 s) else s

/-! ### Transmit buffers (R393 to R396) -/

/-- Whether port `n` may send a frame now (log 64). -/
def maySend (s : State) (n : Nat) : Bool :=
  let c := s.canp n
  isSet s (F.CAN_STATUS_ACT n) && isSet s (F.CAN_CTL_EN n) && (c.mode == 0 || c.mode == 3)
    && getF s (F.CAN_CTL_MODE n) == c.mode && decide (estate s n < 2) && c.chosen.isNone

/-- The buffer that wins among those pending; a frame in FD format waits while FDEN is 0 (R394). -/
def winner (s : State) (n : Nat) : Option Nat :=
  let ok := (txPending s n).filter fun b => isSet s (F.CAN_CTL_FDEN n) || !(txFrame s n b).fd
  ok.foldl (fun acc b => match acc with
    | none => some b
    | some c => if arbKey (rd s (A.CAN_TXBUF n b)).toNat < arbKey (rd s (A.CAN_TXBUF n c)).toNat then some b else some c) none

/-- A frame begins that the port may transmit: it chooses the buffer among those pending now (R394) (log 64). -/
def canChoose (n : Nat) (s : State) : State :=
  if maySend s n then modCan n (fun c => { c with chosen := winner s n, cancel := false }) s else s

/-- The buffers of a written mask become pending, their status cleared (R394); while EN = 0 is in effect they end ABORTED (R387). -/
def txRequest (n mask : Nat) (s : State) : State :=
  let new := (List.range 16).filter fun b => bitAt mask b && !isSet s ⟨A.CAN_TXPEND n, b, 1⟩
  let s := each new (fun b s => setF (F.CAN_TXST_CANFAIL n b) 0 (setF (F.CAN_TXST_ATTEMPTS n b) 0
    (setF (F.CAN_TXST_RESULT n b) 0 (setF ⟨A.CAN_TXPEND n, b, 1⟩ 1 s)))) s
  if (s.canp n).on then s else each new (fun b => txEnd n b 3 false) s

/-- A cancel of the buffers of a written mask: one of the frame in progress is noted, any other ends at once (R395). -/
def txCancel (n mask : Nat) (s : State) : State :=
  each ((List.range 16).filter fun b => bitAt mask b && isSet s ⟨A.CAN_TXPEND n, b, 1⟩) (fun b s =>
    if (s.canp n).chosen = some b then modCan n (fun c => { c with cancel := true }) s else txEnd n b 2 false s) s

/-- Word 0 of a record: a base-format identifier lies in [28:18] with [17:0] = 0, RTR is 0 with FDF = 1 (R391). -/
def recordId (w0 : Nat) : Nat :=
  bitsOf w0 31 1 * 2 ^ 31 + bit (bitAt w0 30 && !bitAt w0 29) * 2 ^ 30 + bitsOf w0 29 1 * 2 ^ 29 + bitsOf w0 18 11 * 2 ^ 18
    + (if bitAt w0 31 then bitsOf w0 0 18 else 0)

/-- The frame as it stands in a record, or goes out: ESI is the port's own, BRS and ESI exist only in an FD frame, the stamp is that of
its SOF, `ago` counts back. -/
def stamped (s : State) (n : Nat) (f : CanFrame) (self : Bool) (ago : Nat) : CanFrame :=
  let stamp := ((rd s (A.CAN_TSC n)).toNat + 2 ^ 32 - ago % 2 ^ 32) % 2 ^ 24
  let esi := f.fd && (if self then estate s n == 1 else bitAt f.w1.toNat 26)
  { f with
    w0 := w32 (recordId f.w0.toNat)
    w1 := w32 (bitsOf f.w1.toNat 28 4 * 2 ^ 28 + bit (f.fd && bitAt f.w1.toNat 27) * 2 ^ 27 + bit esi * 2 ^ 26 + bit self * 2 ^ 24 + stamp) }

/-- Whether a frame got past the edge between FDF and res, where the loop delay is measured (R385). -/
def TxResult.measured : TxResult → Bool
  | .sent => true
  | .error late => late
  | _ => false

/-- A frame of the port begins, or the frame of the chosen buffer ends (R394 to R396): sent, or lost to arbitration or an error, when it
is retried unless it was cancelled or is single. `tdcv` is the loop delay of an FD frame that was measured (R385). -/
def canTxEnd (n : Nat) (r : TxResult) (ago tdcv : Nat) (s : State) : State :=
  if r = .begun then canChoose n s else
  match (s.canp n).chosen with
  | none => s
  | some b =>
    let f := stamped s n (txFrame s n b) true ago
    let s := satF (F.CAN_TXST_ATTEMPTS n b) 1 s
    let s := if f.fd ∧ isSet s (F.CAN_CTL_TDCEN n) ∧ r.measured then setF (F.CAN_STATUS_TDCV n) tdcv s else s
    let c := s.canp n
    match r with
      | .sent =>
        let s := txEnd n b 1 c.cancel s
        let s := setCounts n (getF s (F.CAN_STATUS_TEC n) - 1) (getF s (F.CAN_STATUS_REC n)) s
        let s := if c.mode = 3 then s else
          emit (.can n) (leBytes 4 f.w0.toNat ++ leBytes 4 f.w1.toNat ++ f.data.take f.len) s
        if c.mode = 3 ∨ isSet s (F.CAN_CTL_SELFRX n) then canToRing n f s else s
      | _ =>
        if c.cancel then txEnd n b 2 false s
        else if bitAt (rd s (A.CAN_TXBUF n b + 4)).toNat 25 then txEnd n b 4 false s
        else modCan n (fun c => { c with chosen := none }) s

/-! ### Reception (R391) -/

/-- A frame becomes valid for the receiver; `ago` counts of CAN_TSC since its SOF. -/
def canValid (n : Nat) (f : CanFrame) (ago : Nat) (s : State) : State :=
  let c := s.canp n
  if !isSet s (F.CAN_STATUS_ACT n) ∨ c.mode = 3 ∨ (f.fd ∧ !isSet s (F.CAN_CTL_FDEN n)) then s else
  let f := stamped s n f false ago
  let s := recvOk n s
  let s := canToRing n f s
  each (slotMatches s n f) (slotTakes n f) s

/-- A protocol exception sends the port to bus integration without an error frame (R383). -/
def canException (n : Nat) (s : State) : State :=
  if !isSet s (F.CAN_STATUS_ACT n) then s else raise (A.CAN_EVT n) 5 (setF (F.CAN_STATUS_ACT n) 0 s)

/-! ### Enable and modes (R386, R387, R389) -/

/-- EN = 1 is written: the counters start at 0; a port left in bus-off keeps that state until it has recovered. A port whose EN = 0 has
not taken effect yet goes on in its mode (R386). -/
def canEnable (n : Nat) (s : State) : State :=
  let s := modCan n (fun c => { c with on := true, mode := if c.on then c.mode else getF s (F.CAN_CTL_MODE n) }) s
  let s := setF (F.CAN_STATUS_REC n) 0 (setF (F.CAN_STATUS_TEC n) 0 s)
  if estate s n < 2 then setEstate n 0 s
  else if estate s n = 2 ∧ isSet s (F.CAN_CTL_AUTOREC n) then setEstate n 3 s else s

/-- 11 recessive bits: the port is active on the bus (R387) (log 162). -/
def canIntegrated (n : Nat) (s : State) : State :=
  if (s.canp n).on ∧ estate s n < 2 then setF (F.CAN_STATUS_ACT n) 1 s else s

/-- EN = 0 takes effect: at bus idle, or at once in bus-off (R387). -/
def canDisable (n : Nat) (s : State) : State :=
  let c := s.canp n
  if isSet s (F.CAN_CTL_EN n) ∨ !c.on ∨ (c.chosen.isSome ∧ estate s n < 2) then s else
  slotsBad n (setF (F.CAN_STATUS_ACT n) 0 (txAbortAll n (modCan n (fun c => { c with on := false, mode := getF s (F.CAN_CTL_MODE n) }) s)))

/-- A new MODE takes effect at bus idle, or at once while EN = 0 (R386). -/
def canMode (n : Nat) (s : State) : State :=
  let c := s.canp n
  if c.on ∧ c.chosen.isSome then s else
  modCan n (fun c => { c with mode := getF s (F.CAN_CTL_MODE n) }) s

/-- 128 × 11 recessive bits end the recovery from bus-off (R389). -/
def canRecovered (n : Nat) (s : State) : State :=
  if estate s n ≠ 3 then s else
  let s := modCan n (fun c => { c with asked := false }) s
  let s := setF (F.CAN_STATUS_REC n) 0 (setF (F.CAN_STATUS_TEC n) 0 s)
  let s := raise (A.CAN_EVT n) 6 (setEstate n 0 s)
  if (s.canp n).on then setF (F.CAN_STATUS_ACT n) 1 s else s

/-! ### Stamp counter and cross-capture (R397, R398) -/

/-- Whether CAN_TSC of port `n` stands at a multiple of 2^(XPER + 16). -/
def crossAt (s : State) (n : Nat) : Bool := (rd s (A.CAN_TSC n)).toNat % 2 ^ (getF s (F.CAN_TSCFG_XPER n) + 16) == 0

/-- CAN_TSC of port `n` counts one edge of the CAN clock; a new TSDIV applies from the next advance (R397). -/
def canCycle (n : Nat) (s : State) : State :=
  if (s.canp n).per ≤ (s.canp n).div then
    let s := wr (A.CAN_TSC n) (rd s (A.CAN_TSC n) + 1) s
    modCan n (fun c => { c with div := 0, per := getF s (F.CAN_TSCFG_TSDIV n), passed := isSet s (F.CAN_TSCFG_XAUTO n) && crossAt s n }) s
  else modCan n (fun c => { c with div := c.div + 1 }) s

/-- The CAN clock advances by `t` half ns; its period is 12.5 ns. -/
def canAdvance (t : Nat) (s : State) : State :=
  let k := s.canClk + t
  if k < 25 then { s with canClk := k } else each (List.range 8) canCycle { s with canClk := k - 25 }

/-- A cross-capture latches CAN_TSC and pulses capture source 64 + n, whose capture lies 28 ± 4 ns later (R398). -/
def crossCapture (n : Nat) (s : State) : State :=
  let t := time s + 24 + freeNat s % 9
  let s := usedFree (wr (A.CAN_XCAPT n) (rd s (A.CAN_TSC n)) s)
  each ((List.range 32).filter fun u => unitMode s u == 3 && getF s (F.TMB_UNIT_CTL_SRC u) == 64 + n) (fun u => captureUnit u t) s

/-- CAN_TSC has passed a multiple of 2^(XPER + 16) with XAUTO = 1: one cross-capture each time. -/
def crossAuto (n : Nat) (s : State) : State :=
  if (s.canp n).passed ∧ crossAt s n then crossCapture n (modCan n (fun c => { c with passed := false }) s) else s

/-! ### Register writes -/

/-- CAN_CTL has been written. -/
def canCtl (n old : Nat) (s : State) : State :=
  let en := isSet s (F.CAN_CTL_EN n)
  if en ∧ !bitAt old 31 then canEnable n s
  else if !en ∧ bitAt old 31 then (if 2 ≤ estate s n then canDisable n s else s)
  else if !en ∧ !(s.canp n).on then canMode n s
  else s

/-- What a write to a CAN register starts. -/
def hookCan (i : WInfo) (s : State) : State :=
  let n := instAt i.pa
  match i.pa % 0x10000 with
  | 0x00 => canCtl n i.old s
  | 0x1C =>
    let s := if bitAt i.cmds 1 then canRecover n s else s
    if bitAt i.cmds 0 then crossCapture n s else s
  | 0x30 => canRelease n (ringWritten (bitAt i.new 31) (bitAt i.cmds 30) (F.CAN_RXSTAT_STATE n) (F.CAN_RXSTAT_CODE n) s)
  | 0x38 => s
  | 0x50 => txRequest n i.wo s
  | 0x54 => txCancel n i.wo s
  | o => if 0x100 ≤ o ∧ o < 0x140 ∧ o % 8 = 0 ∧ bitAt i.new 31 ∧ !bitAt i.old 31 then
      let k := (o - 0x100) / 8
      slotQuality n k 2 (modCan n (fun c => { c with hit := vset c.hit k none }) s)
    else if 0x100 ≤ o ∧ o < 0x140 ∧ o % 8 = 4 then
      let k := (o - 0x104) / 8
      if isSet s (F.CAN_IMG_ID_EN n k) ∧ vget (s.canp n).hit k = none then slotQuality n k 2 s else s
    else s

end Sys2Proof.Machine
end

