-- ==== Sys2Proof/Machine/Exc.lean ====
section
/-! DEFINITION. The Weevil core: lost items, core reset, exception entry and return (03_weevil_core R110 to R115;
07_lockkeeper R245). -/

namespace Sys2Proof.Machine

/-! ### Core reset (R110) -/

/-- A core right after RESET: registers, stacks and control registers other than ITEM and COREID cleared, fetching at
BOOT, running its boot code. -/
def Core.restart (k : Core) (boot : Word) : Core :=
  { Core.reset with st := .run, pc := boot, item := k.item, icache := k.icache, drainReq := k.drainReq }

/-- An item lost at a core reset: counted, traced, its instance freed; a general item is ready again where its slots allow
(R245) (log 48). -/
def loseItem (x : Running) (core level : Nat) (s : State) : State :=
  let s := raise A.LKP_EVT 4 (trace .lost (x.traced core level) 0 (satF F.LKP_LOST_COUNT 1 s))
  if x.segment.isSome then s else generalDone (x.ident / 2 ^ 27 % 4) (x.ident % 2 ^ 14) s

/-- The items of a core at its levels. -/
def Core.running (k : Core) : List (Nat × Running) :=
  (List.range 4).filterMap fun l => (k.items[l % 4]'(Nat.mod_lt _ (by decide))).map fun r => (l, r)

/-- Semaphores whose owner is selected are released, with BRG_EVT bit `bit` (R458). -/
def releaseSems (p : SemOwner → Bool) (bit : Nat) (s : State) : State :=
  if s.brg.sems.any (fun o => o.any p) then
    raise A.BRG_EVT bit { s with brg := { s.brg with sems := s.brg.sems.map fun o => if o.any p then none else o } }
  else s

/-- A load of a core that waits for the fabric is given up. -/
def dropReads (i : Nat) (s : State) : State :=
  let mine := fun (x : OutRead) => match x.use with
    | .core j .. => j == i
    | .bitop j .. => j == i
    | _ => false
  { s with brg := { s.brg with reads := s.brg.reads.filter fun x => !mine x } }

/-- RESET of a core (R110): its items are lost (R245), an open block it owns is cleared (R269), a semaphore
it owns is released (R458), the epoch of the role
its reach holds advances (R268), and it runs its boot code. -/
def coreReset (i : Nat) (s : State) : State :=
  let k := s.core i
  let s := s.setCore i (k.restart (rd s (A.RCH_CORE_BOOT (i / 8) (i % 8))))
  let s := modLkp (fun l => { l with offers := l.offers.filter (·.1 != i), idle := l.idle.filter (· != i) }) s
  let s := each k.running (fun (l, r) => loseItem r (i % 8) l) s
  let s := releaseSems (fun o => o.fid == 0 && o.id == i) 4 (dropReads i (clearBlocks (· == i) s))
  match roleOf s (i / 8) with
  | some r => epochBump r s
  | none => s

/-! ### Exceptions (R111 to R115) -/

/-- A double fault: the core enters FAULT, both causes are recorded, DFAULT is raised, the fault is logged (code 0x05),
and the fault sequencer resets the core (R115, R502). -/
def doubleFault (i : Nat) (first second : Cause) (s : State) : State :=
  let n := i / 8
  let c := i % 8
  let s := modCore i (fun k => { k with st := .fault }) s
  let s := setF (F.RCH_CORE_DFINFO_SECOND n c) second.code (setF (F.RCH_CORE_DFINFO_FIRST n c) first.code s)
  coreReset i (doubleFaultLog i (raise (A.RCH_CORE_EVT n) c s))

/-- Take an exception on core `i` with a saved PC (R111): the one shared entry (log 148). -/
def takeExc (i : Nat) (e : Exc) (saved : Word) (s : State) : State :=
  let k := s.core i
  if e.cause = .rstkOvf ∧ k.ovf then doubleFault i .rstkOvf .rstkOvf s else
  let low := if k.rsl.toNat + 16 ≤ k.rsp.toNat then 16 else 0
  match pushRets i low (k.frame 1 saved) s with
  | (s, .error x) => doubleFault i e.cause x.cause (logExc i x (s.setCore i k))
  | (s, .ok _) =>
    let s := modCore i (fun k => { k with
      ecause := w32 ((if e.cause = .buserrW then 2 ^ 31 else 0) + e.code * 2 ^ 16 + e.cause.code)
      eaddr := match e.addr with | some a => w32 a | none => k.eaddr
      ie := false, bacc := false, bopen := false, bstk := 0, sup := true
      ovf := k.ovf || e.cause == .rstkOvf
      pc := k.vbase + w32 (16 * e.cause.code), cyc := (k.flush.spend 4).cyc }) s
    s

/-- A fault of the instruction at the PC: no effect of it stays (R113), the exception is taken with its PC. -/
def faultAt (i : Nat) (e : Exc) (s : State) : State := takeExc i e (s.core i).pc s

/-- Every byte of memory, and every mark of a line written, as they stood in state `s0`. -/
def unwritten (s0 s : State) : State :=
  { s with mem := s0.mem, rot := { s.rot with fill := s0.rot.fill }, pair := { s.pair with track := s0.pair.track }
           scan := { s.scan with clean0 := s0.scan.clean0, clean1 := s0.scan.clean1 } }

/-- The bus error of a buffered store, as core `i` takes it (R114). -/
def storeError (code a : Nat) : Exc :=
  { cause := .buserrW, addr := some a, bus := (busErrOf code).map fun b => (b, a, true, 4) }

/-- A fault of the instruction at the PC, or in its place that of a buffered store whose error has come while the instruction waited,
which goes first (R112, R114). -/
def faultFirst (i : Nat) (e : Exc) (s : State) : State :=
  match (s.core i).pendW with
  | [] => faultAt i e s
  | (code, a) :: t => faultAt i (storeError code a) (modCore i (fun k => { k with pendW := t }) s)

/-- The instruction that core `i` began in state `s0` faults in state `s`: no effect of it stays (R113); where it met a bus error,
that is logged, with what the memory noted. Then the exception is taken (log 112). -/
def instrFault (i : Nat) (e : Exc) (s0 s : State) : State :=
  faultFirst i e (if e.bus.isSome then logExc i e (unwritten s0 (s.setCore i (s0.core i))) else s0)

/-- All entries of the return stack, top first: held ones, then those in memory (R89) (log 145). -/
def retEntries (i : Nat) (s : State) : List Word :=
  let k := s.core i
  k.rstack ++ (List.range ((k.rsb.toNat - k.rsp.toNat) / 4)).map fun j =>
    match (ownRead i (k.rsp.toNat + 4 * j) 4 s).2 with
    | .ok v => w32 v
    | .error _ => 0

/-- Position of the marker of the topmost exception frame in a list of entries, top first (R111): return addresses are
skipped one by one, frames four by four. -/
def findFrame : Nat → Nat → List Word → Option Nat
  | 0, _, _ => none
  | _, _, [] => none
  | f + 1, p, v :: t =>
    if bitsOf v.toNat 0 2 = 3 then
      if bitsOf v.toNat 4 4 = 1 then some p else findFrame f (p + 4) (t.drop 3)
    else findFrame f (p + 1) t

/-- Position of the topmost exception frame of core `i`. -/
def topFrame (i : Nat) (s : State) : Option Nat :=
  let es := retEntries i s
  findFrame es.length 0 es

/-- The entry at a position of the return stack. -/
def retEntry (i p : Nat) (s : State) : Word := (retEntries i s).getD p 0

/-- Replace the entry at a position of the return stack (log 145). -/
def setRetEntry (i p : Nat) (v : Word) (s : State) : State :=
  let k := s.core i
  if p < k.rstack.length then s.setCore i { k with rstack := k.rstack.set p v }
  else (ownWrite i (k.rsp.toNat + 4 * (p - k.rstack.length)) 4 v.toNat s).1

/-- Return from an exception (R92, R111): the frame is popped and PC, STAT and BSTK are restored from it. Any RFE ends 'before RFE' of
R115, also that of an exception nested in the handler of RSTK_OVF (log 148). -/
def returnExc (i : Nat) (s0 : State) : State :=
  match fillRet i s0 with
  | (s, .error e) => instrFault i e s0 s
  | (s, .ok m) =>
    if m ≠ marker 1 (s.core i).level.val then instrFault i { cause := .retmis } s0 s else
    match popRets i 4 s with
    | (s, .error e) => instrFault i e s0 s
    | (s, .ok [_, pc, st, bs]) =>
      modCore i (fun k => { (k.setFlags st) with
        ie := st.getLsbD 1, sup := st.getLsbD 0, bstk := cleanBstk bs, pc := pc &&& ~~~3#32, ovf := false, cyc := (k.flush.spend 4).cyc }) s
    | (s, .ok _) => s

end Sys2Proof.Machine
end

