-- ==== Sys2Proof/Machine/CoreCtl.lean ====
section
/-! DEFINITION. The commands of RCH_COREc_CTL and the drain of a core (03_weevil_core R103, R109, R116). -/

namespace Sys2Proof.Machine

/-- A core has nothing to run and enters DRAINED (R109). -/
def enterDrained (i : Nat) (s : State) : State :=
  let s := modCore i (fun k => { k with st := .drained, drainReq := false, wasIdle := false }) s
  modLkp (fun l => { l with idle := l.idle.filter (· != i), offers := l.offers.filter (·.1 != i) }) s

/-- DRAIN: an IDLE core drains at once, a running one at its DONE at level 0; offers to it are withdrawn (R109, R238) (log 47). -/
def drainCore (i : Nat) (s : State) : State :=
  let s := modLkp (fun l => { l with offers := l.offers.filter (·.1 != i) }) s
  match (s.core i).st with
  | .idle => enterDrained i s
  | .run => modCore i (fun k => { k with drainReq := true }) s
  | .halted => if (s.core i).wasIdle then enterDrained i s else modCore i (fun k => { k with drainReq := true }) s
  | _ => s

/-- RESUME: a HALTED core goes on, a DRAINED core asks for work, a drain not yet taken is dropped (R109, R116). -/
def resumeCore (i : Nat) (s : State) : State :=
  match (s.core i).st with
  | .halted =>
    if (s.core i).wasIdle then requestWork i (modCore i (fun k => { k with wasIdle := false }) s)
    else modCore i (fun k => { k with st := .run, haltReq := false }) s
  | .drained => requestWork i s
  | .run => modCore i (fun k => { k with drainReq := false }) s
  | _ => s

/-- Whether a load or bit operation of core `i` waits for the fabric (log 46). -/
def waitsRead (s : State) (i : Nat) : Bool :=
  s.brg.reads.any fun x => match x.use with
    | .core j .. => j == i
    | .bitop j .. => j == i
    | _ => false

/-- A core stops at an instruction boundary, with all state intact: one that is IDLE leaves those that wait for WAKE (R116) (log 47). -/
def stopCore (i : Nat) (s : State) : State :=
  match (s.core i).st with
  | .run => modCore i (fun k => { k with st := .halted, haltReq := false, stepping := false, wasIdle := false }) s
  | .idle => modLkp (fun l => { l with idle := l.idle.filter (· != i) })
      (modCore i (fun k => { k with st := .halted, haltReq := false, stepping := false, wasIdle := true }) s)
  | _ => modCore i (fun k => { k with haltReq := false, stepping := false }) s

/-- HALT stops a core that runs or is IDLE; one in the middle of a load from the fabric stops when that ends (R116) (log 47). A DRAINED
core stays DRAINED (log 151). -/
def haltCore (i : Nat) (s : State) : State :=
  match (s.core i).st with
  | .run => if waitsRead s i then modCore i (fun k => { k with haltReq := true }) s else stopCore i s
  | .idle => stopCore i s
  | _ => s

/-- STEP lets a HALTED core run one instruction (R116), which it does at the end of the command (`stepCores`); a core halted while
IDLE has none to run. -/
def stepCore (i : Nat) (s : State) : State :=
  let k := s.core i
  if k.st = .halted ∧ !k.wasIdle then s.setCore i { k with st := .run, haltReq := true, stepping := true } else s

/-- ICINV drops every line of a core's I-cache (R100). -/
def invalidateCore (i : Nat) (s : State) : State := modCore i (fun k => { k with icache := [] }) s

/-- What a write to RCH_COREc_CTL starts; the command bits are those of the register, taken from HALT up (log 115). -/
def coreCommand (i cmds : Nat) (s : State) : State :=
  let s := if bitAt cmds 0 then haltCore i s else s
  let s := if bitAt cmds 1 then resumeCore i s else s
  let s := if bitAt cmds 2 then stepCore i s else s
  let s := if bitAt cmds 3 then drainCore i s else s
  let s := if bitAt cmds 4 then invalidateCore i s else s
  if bitAt cmds 5 then coreReset i s else s

/-- Whether a core is in state DRAINED. -/
def drained (s : State) (i : Nat) : Bool := (s.core i).st == .drained

end Sys2Proof.Machine
end

