-- ==== Sys2Proof/Machine/Image.lean ====
section
/-! DEFINITION. The stave image in its slots: header, sections, the checks of R472, and what is read from it
(18_startup R471 to R474, R482). -/

namespace Sys2Proof.Machine

/-- The address of slot `n` (0 A, 1 B). -/
def slotAt (n : Nat) : Nat := 0x40000000 + 0x800000 * n

/-- A header field of slot `n`, little endian (R471). -/
def hdr (s : State) (n off len : Nat) : Nat := memNat s (slotAt n + off) len

/-- LENGTH of slot `n`. -/
def imgLength (s : State) (n : Nat) : Nat := hdr s n 0x0C 4

/-- One entry of the section table (R471). -/
structure Section where
  type : Nat
  off : Nat
  size : Nat
  dest : Nat
deriving DecidableEq, Repr

/-- The sections of slot `n`, in table order; at most 1,024. -/
def sections (s : State) (n : Nat) : List Section :=
  (List.range (min (hdr s n 0x16 2) 1024)).map fun k =>
    let e := fun j => hdr s n (0x80 + 16 * k + 4 * j) 4
    { type := e 0, off := e 1, size := e 2, dest := e 3 }

/-- The bytes of a section. -/
def sectionBytes (s : State) (n : Nat) (x : Section) : List Byte := bytesAt s (slotAt n + x.off) x.size

/-- Whether two byte ranges meet. -/
def meets (a n b m : Nat) : Bool := decide (a < b + m ∧ b < a + n ∧ 0 < n ∧ 0 < m)

/-- Check 4: every section has a known type and lies inside LENGTH, clear of header and the other sections. -/
def sectionsOk (s : State) (n : Nat) : Bool :=
  let k := hdr s n 0x16 2
  let xs := sections s n
  decide (1 ≤ k ∧ k ≤ 1024) && xs.zipIdx.all fun (x, i) =>
    decide (1 ≤ x.type ∧ x.type ≤ 4 ∧ 0x80 + 16 * k ≤ x.off ∧ x.off + x.size ≤ imgLength s n)
      && (xs.drop (i + 1)).all fun y => !meets x.off x.size y.off y.size

/-- The firmware section of a version in slot `n`. -/
def firmwareOf (s : State) (n v : Nat) : Option Section :=
  (sections s n).find? fun x => x.type == 3 && x.dest % 65536 == v

/-- The key slot of slot `n`'s image. -/
def keyIdx (s : State) (n : Nat) : Nat := hdr s n 0x14 1

/-- The hash that the signature covers: SHA-256 over LENGTH bytes (R472). -/
def imgHash (s : State) (n : Nat) : Nat := sha256 (bytesAt s (slotAt n) (imgLength s n))

/-- Check 9: the signature. -/
def signatureOk (s : State) (n : Nat) : Bool :=
  let at' := fun off => beVal (bytesAt s (slotAt n + off) 32)
  ecdsaOk (at' 0x20, at' 0x40) (imgHash s n) (at' (imgLength s n)) (at' (imgLength s n + 32))

/-- Checks 1 to 8 of R472: the number of the first that fails, 0 if none does. -/
def slotCheck (s : State) (n : Nat) : Nat :=
  let len := imgLength s n
  let k := keyIdx s n
  let prog := bitAt (getF s F.CFG_KEYSTAT_PROG) k
  if hdr s n 0 4 ≠ 0x31565453 then 1
  else if hdr s n 4 2 ≠ 1 then 2
  else if len < 0x400 ∨ 0x7FFFC0 < len ∨ len % 64 ≠ 0 then 3
  else if !sectionsOk s n then 4
  else if 4 ≤ k ∨ !prog ∨ sha256 (bytesAt s (slotAt n + 0x20) 64) ≠ s.cfg.fuses.keyHash[k % 4]'(Nat.mod_lt _ (by decide)) then 5
  else if bitAt (getF s F.CFG_KEYSTAT_REVOKED) k then 6
  else if hdr s n 0x15 1 < getF s F.CFG_KEYSTAT_ROLLCNT then 7
  else if (firmwareOf s n (hdr s n 0x10 2)).isNone ∨ (hdr s n 0x12 2 ≠ 0 ∧ (firmwareOf s n (hdr s n 0x12 2)).isNone) then 8
  else 0

/-- All nine checks: the number of the first that fails, 0 if none does (R472). A slot that a device reset cut off in a copy fails
the last (R482). -/
def slotVerify (s : State) (n : Nat) : Nat :=
  if s.cfg.torn = some n then 9 else
  match slotCheck s n with
  | 0 => if signatureOk s n then 0 else 9
  | e => e

/-- The slot registers show a header and the result of its checks. -/
def showSlot (n err : Nat) (valid : Bool) (s : State) : State :=
  let s := setF (F.CFG_SLOT_VALID n) (bit valid) (setF (F.CFG_SLOT_ERR n) err s)
  let s := setF (F.CFG_SLOT_ROLLBACK n) (hdr s n 0x15 1) (setF (F.CFG_SLOT_FWVER n) (hdr s n 0x10 2) s)
  wr (A.CFG_SLOT_SEQ n) (w32 (if hdr s n 0 4 = 0x31565453 then hdr s n 8 4 else 0)) s

/-- The slot that is loaded, if any (CFG_STATUS.IMG). -/
def loadedSlot (s : State) : Option Nat :=
  match getF s F.CFG_STATUS_IMG with
  | 1 => some 0
  | 2 => some 1
  | _ => none

/-- The (address, value) pairs of the REGS sections of slot `n`, in order (R471, R474). -/
def regPairs (s : State) (n : Nat) : List (Nat × Nat) :=
  ((sections s n).filter (·.type == 1)).flatMap fun x =>
    (List.range (x.size / 8)).map fun k => (memNat s (slotAt n + x.off + 8 * k) 4, memNat s (slotAt n + x.off + 8 * k + 4) 4)

/-- The initial bytes of a role's memory that slot `n` gives: own-reach offset and bytes (R471, ROLEMEM). -/
def roleMem (s : State) (n role : Nat) : List (Nat × List Byte) :=
  ((sections s n).filter fun x => x.type == 2 && x.dest / 2 ^ 30 == role).map fun x =>
    (x.dest % 2 ^ 20, (sectionBytes s n x).take (0xC0000 - x.dest % 2 ^ 20))

/-- The initial byte at an own-reach offset of a role: that of the last section that covers it, else 0. -/
def roleInit (mems : List (Nat × List Byte)) (a : Nat) : Byte :=
  match mems.reverse.find? fun (o, bs) => decide (o ≤ a ∧ a < o + bs.length) with
  | some (o, bs) => bs.getD (a - o) 0
  | none => 0

/-- Load a firmware section into a half of reach `n` (R202): the rest of the half reads 0. -/
def loadFirmware (n half slot v : Nat) (s : State) : State :=
  let base := reachAddr n (0xC0000 + 0x20000 * half)
  let bs := match firmwareOf s slot v with
    | some x => (sectionBytes s slot x).take 0x20000
    | none => []
  let s := { s with mem := s.mem.filter fun (a, _) => !decide (base ≤ a ∧ a < base + 0x20000),
                    ecc := s.ecc.filter fun (a, _) => !decide (base ≤ a ∧ a < base + 0x20000) }
  let s := putBytes base bs s
  let set5 := fun (l : Vector (Nat × Nat) 5) => l.set (n % 5) (v, slot) (Nat.mod_lt _ (by decide))
  { s with rot := if half = 0 then { s.rot with fw0 := set5 s.rot.fw0 } else { s.rot with fw1 := set5 s.rot.fw1 } }

/-- The Lockhouse writes the BOOT registers of reach `n` as the REGS sections of the loaded slot set them (R192, R474). -/
def writeBoots (n : Nat) (s : State) : State :=
  match loadedSlot s with
  | some k => each (regPairs s k) (fun (a, v) s =>
      if (List.range 8).any (fun c => A.RCH_CORE_BOOT n c == a) then wr a (w32 (v / 4 * 4)) s else s) s
  | none => s

end Sys2Proof.Machine
end

