-- ==== Sys2Proof/Machine/Rotation.lean ====
section
/-! DEFINITION. Reach rotation, tests of a DRY reach, reach failure and firmware switch (06_duplex_rotation R190 to R204;
01_architecture R22 to R29; 19_selftest_safety R487, R488, R493, R495). -/

namespace Sys2Proof.Machine

/-! ### Reaches and roles -/

/-- Change what the Lockhouse holds of rotation. -/
def modRot (f : Rot → Rot) (s : State) : State := { s with rot := f s.rot }

/-- An entry of a vector over the five reaches. -/
def at5 {α : Type} (v : Vector α 5) (n : Nat) : α := v[n % 5]'(Nat.mod_lt _ (by decide))

/-- Set an entry of a vector over the five reaches. -/
def set5 {α : Type} (v : Vector α 5) (n : Nat) (x : α) : Vector α 5 := v.set (n % 5) x (Nat.mod_lt _ (by decide))

/-- Whether a reach has failed. -/
def failed (s : State) (n : Nat) : Bool := reachState s n == 4

/-- Whether any reach has failed. -/
def anyFailed (s : State) : Bool := (List.range 5).any (failed s)

/-- Whether rotation runs: enabled, READY, no reach failed (R29, R191) (log 54). -/
def rotationRuns (s : State) : Bool := isSet s F.LKH_ROTCTL_EN && isSet s F.SYS_STATUS_READY && !anyFailed s

/-- SYS_STATUS.ROTATING follows. -/
def syncRotating (s : State) : State := setF F.SYS_STATUS_ROTATING (bit (rotationRuns s)) s

/-- The spare: the reach that holds no role and has not failed. -/
def spareOf (s : State) : Option Nat := (List.range 5).find? fun n => (roleOf s n).isNone && !failed s n

/-- Name the spare in LKH_ROLEMAP and SYS_STATUS; 7 if none. -/
def setSpare (n : Nat) (s : State) : State := setF F.LKH_ROLEMAP_SPARE n (setF F.SYS_STATUS_DRYREACH n s)

/-- The reach that holds a role changes. -/
def setRole (r n : Nat) (s : State) : State := setF ⟨A.LKH_ROLEMAP, 4 * (r % 4), 3⟩ n s

/-- The current phase of rotation. -/
def phase (s : State) : Nat := getF s F.LKH_ROTSTAT_PHASE

/-- Set the phase. -/
def setPhase (p : Nat) (s : State) : State := setF F.LKH_ROTSTAT_PHASE p (modRot (fun x => { x with phaseAt := time s }) s)

/-- The PLL lock bit of a reach (R526). -/
def setLock (n v : Nat) (s : State) : State := setF ⟨A.SYS_CLKSTAT, 8 + n, 1⟩ v s

/-- The reach released at a step: WET for the longest time, the lowest number on a tie (R25, R191). -/
def longestWet (s : State) : Option Nat :=
  ((List.range 5).filter fun n => reachState s n == 0 && (roleOf s n).isSome).foldl (fun acc n => match acc with
    | none => some n
    | some m => if at5 s.rot.wetAt n < at5 s.rot.wetAt m then some n else some m) none

/-! ### Copying a reach (R193, R194, R255) -/

/-- Whether a local address lies in banks 0 to 11 of reach `n`. -/
def inBanks (n a : Nat) : Bool := decide (reachAddr n 0 ≤ a ∧ a < reachAddr n 0xC0000)

/-- Banks 0 to 11 of a reach read 0 with good ECC. -/
def clearBanks (n : Nat) (s : State) : State :=
  { s with mem := s.mem.filter fun (a, _) => !inBanks n a, ecc := s.ecc.filter fun (a, _) => !inBanks n a }

/-- Banks 0 to 11 of reach `src` are copied into reach `dst`: errors met there are noted (R250), an uncorrectable word stays uncorrectable
(log 11). -/
def copyBanks (src dst : Nat) (s : State) : State :=
  let cells := s.mem.filter fun (a, _) => inBanks src a
  let bad := s.ecc.filter fun (a, d) => inBanks src a && d
  let s := noteWords src (s.ecc.filter fun (a, _) => inBanks src a) s
  let s := each cells (fun (a, b) => setByte (a - reachAddr src 0 + reachAddr dst 0) b) (clearBanks dst s)
  each bad (fun (a, d) s => { s with ecc := SMap.ins s.ecc (a - reachAddr src 0 + reachAddr dst 0) d }) s

/-- One 64-byte line is copied; errors met in it are noted (R250) (log 11). -/
def copyLine (src dst line : Nat) (s : State) : State :=
  let s := noteWords src (s.ecc.filter fun (a, _) => decide (reachAddr src (64 * line) ≤ a ∧ a < reachAddr src (64 * line) + 64)) s
  let s := putBytes (reachAddr dst (64 * line)) (bytesAt s (reachAddr src (64 * line)) 64) s
  each (List.range 8) (fun k s =>
    let a := reachAddr src (64 * line + 8 * k)
    let b := reachAddr dst (64 * line + 8 * k)
    match SMap.get? s.ecc a with
    | some true => { s with ecc := SMap.ins s.ecc b true }
    | _ => eccClear b s) s

/-- An initiator ID of reach `src` becomes that of the same core index or DMA of reach `dst` (R44, R194) (log 56). -/
def moveId (src dst id : Nat) : Nat :=
  if id < 40 ∧ id / 8 = src then 8 * dst + id % 8 else if id = 40 + src then 40 + dst else id

/-- A gate word with its IDs moved: GUEST always, OWNER in mode INIT (R253, R255). -/
def moveGate (src dst w : Nat) : Nat :=
  let w := putBits w 16 6 (moveId src dst (bitsOf w 16 6))
  if bitsOf w 8 2 = 2 then putBits w 0 6 (moveId src dst (bitsOf w 0 6)) else w

/-- The register state of R194 passes from reach `src` to reach `dst`: gates of every reach rewritten, then gates, circular
windows and DMA of `src` copied; open mailbox blocks of its cores pass on (R269) (log 56). -/
def copyRegs (src dst : Nat) (s : State) : State :=
  let s := each (List.range 5) (fun m => each (List.range 12) fun b s =>
    wr (A.RCH_GATE m b) (w32 (moveGate src dst (rd s (A.RCH_GATE m b)).toNat)) s) s
  let s := each (List.range 12) (fun b s => wr (A.RCH_GATE dst b) (rd s (A.RCH_GATE src b)) s) s
  let s := each (List.range 8) (fun w s => wr (A.RCH_CW dst w) (rd s (A.RCH_CW src w)) s) s
  let s := each [A.RCH_DMA_RING, A.RCH_DMA_TAIL, A.RCH_DMA_STAT, A.RCH_DMA_CTL, A.RCH_DMA_TOK] (fun r s => wr (r dst) (rd s (r src)) s) s
  let s := { s with dma := set5 s.dma dst (at5 s.dma src) }
  { s with mbox := s.mbox.map fun b => if b.bstate = .opened ∧ b.owner < 40 then { b with owner := moveId src dst b.owner } else b }

/-- The cores of a reach leave reset: they run their boot code (R110, R197). -/
def startCores (n : Nat) (s : State) : State :=
  if (loadedSlot s).isNone then s else
  each (List.range 8) (fun c s =>
    let i := 8 * n + c
    let s := modLkp (fun l => { l with idle := l.idle.filter (· != i), offers := l.offers.filter (·.1 != i) }) s
    modCore i (fun k => { (k.restart (rd s (A.RCH_CORE_BOOT n c))) with icache := [], drainReq := false, haltReq := false }) s) s

/-- The cores of a reach are reset and held: in state OFF, or HALTED while it fills (R192, R528). -/
def holdCores (n : Nat) (st : CoreState) (s : State) : State :=
  each (List.range 8) (fun c s =>
    let i := 8 * n + c
    let s := modLkp (fun l => { l with idle := l.idle.filter (· != i), offers := l.offers.filter (·.1 != i) }) (dropReads i s)
    modCore i (fun k => { Core.reset with st := st, pc := rd s (A.RCH_CORE_BOOT n c), item := k.item }) s) s

/-- Whether all cores of a reach have stopped for a handover; a core that is OFF counts (log 12). -/
def allDrained (s : State) (n : Nat) : Bool :=
  (List.range 8).all fun c => drained s (8 * n + c) || (s.core (8 * n + c)).st == .off

/-- Whether the DMA of a reach stands at a descriptor boundary. -/
def dmaStill (s : State) (n : Nat) : Bool := getF s (F.RCH_DMA_STAT_STATE n) != 1

/-! ### What ends a drain or a window (R196, R197, R203, R204) -/

/-- The DMA of a reach, stopped for a drain, goes on. -/
def dmaGoOn (n : Nat) (s : State) : State :=
  if s.rot.dmaHeld.contains n then setF (F.RCH_DMA_STAT_STATE n) 1 (modRot (fun x => { x with dmaHeld := x.dmaHeld.filter (· != n) }) s) else s

/-- The cores of a reach get RESUME. -/
def resumeCores (n : Nat) (s : State) : State := each (List.range 8) (fun c => resumeCore (8 * n + c)) s

/-- The drain of a handover is dropped: cores, DMA and rings of its reach go on (R196). -/
def cancelDrain (s : State) : State :=
  match s.rot.draining with
  | none => s
  | some n =>
    let s := modRot (fun x => { x with draining := none }) s
    if failed s n then s else
    let s := dmaGoOn n (resumeCores n s)
    match roleOf s n with
    | some r => canResume r (resumeRings r s)
    | none => s

/-- The drain of a firmware switch is dropped: cores and DMA of the group's reaches go on (R196, R204). -/
def cancelGap (s : State) : State :=
  match s.rot.gap with
  | none => s
  | some g => each g (fun r s => let n := reachOf s r; if 5 ≤ n ∨ failed s n then s else dmaGoOn n (resumeCores n s))
      (modRot (fun x => { x with gap := none }) s)

/-- The DMA of a reach that no longer holds its role has nothing left. -/
def dmaCleared (n : Nat) (s : State) : State :=
  setF (F.RCH_DMA_STAT_STATE n) 0 { s with dma := set5 s.dma n { sup := [], wait := none, owed := none, pos := 0, fail := none } }

/-- A reach enters phase POWER: its PLL is stopped, its cores are reset and held (R192, R526). -/
def toPower (n : Nat) (s : State) : State :=
  modRot (fun x => { x with testFrom := time s }) (setLock n 0 (setPhase 1 (holdCores n .off s)))

/-- The role map changes: the role of the open window passes to reach `n`, and `spare` is the new spare (R197). -/
def passRole (n spare : Nat) (s : State) : State :=
  raise A.LKH_EVT 0 (raise A.SYS_EVT 6 (setSpare spare (incF F.LKH_ROLEMAP_GEN 1 (setRole s.rot.winRole n s))))

/-- The window ends: the role map changes, the target is WET and boots, the source is DRY and enters phase POWER (R22, R23, R192, R197,
R201, R526); the rings of the role go on against the target (R37) (log 118). -/
def handoverEnd (s : State) : State :=
  match s.rot.window with
  | none => s
  | some (src, dst) =>
    if s.rot.emergency then s else
    let now := time s
    let s := startCores dst (setReachState dst 0 (passRole dst src s))
    let s := dmaGoOn dst (modRot (fun x => { x with dmaHeld := x.dmaHeld.map fun n => if n = src then dst else n }) s)
    let s := match roleOf s dst with | some r => canResume r (resumeRings r s) | none => s
    let s := toPower src (setReachState src 2 s)
    let s := dmaCleared src s
    let s := setF F.LKH_LASTH_LINES s.rot.delta (setF F.LKH_LASTH_WIN (min (now - s.rot.winAt) 65535) s)
    let s := modRot (fun x => { x with window := none, step := none, late := false, round0 := false, wetAt := set5 x.wetAt dst now }) s
    let h := rd64 s A.LKH_NEXTH
    if h < now + 100000000 then wr64 A.LKH_NEXTH (h + 200000000) s else s

/-- FIRMWARE_LOADED: the staged version is in every reach that has not failed (R203). -/
def fwReady (s : State) : State :=
  if getF s F.LKH_FWSTAT_STATE = 1 ∧ (List.range 5).all fun n => failed s n || bitAt (getF s F.LKH_FWSTAT_LOADED) n then
    raise A.LKH_EVT 6 (setF F.LKH_FWSTAT_STATE 2 s)
  else s

/-! ### Reach failure (R29, R190, R201) -/

/-- The cores of a failed reach are halted at once: their items are lost, the open blocks of its cores and DMA cleared (R201, R245, R269). -/
def haltFailed (n : Nat) (s : State) : State :=
  let s := each (List.range 8) (fun c s => each (s.core (8 * n + c)).running (fun (l, r) => loseItem r c l) s) s
  holdCores n .off (clearBlocks (fun o => decide ((o < 40 ∧ o / 8 = n) ∨ o = 40 + n)) s)

/-- The DMA of a failed reach stops amid its descriptor, which is to run again in the reach that takes the role (R194, R201). -/
def dmaFails (n : Nat) (s : State) : State :=
  { s with dma := set5 s.dma n { at5 s.dma n with wait := none, pos := 0, fail := none },
           brg := { s.brg with gathers := s.brg.gathers.filter (·.use != .dma n) } }

/-- No reach can hold a role any longer: control stops, also where it is about to start (R22, R29). -/
def dropRole (r : Nat) (s : State) : State := controlStop .reach none (setRole r 7 s)

/-- What every failure of a reach does: it is FAILED and off, its cores and DMA stop, rotation stops, a drain of its role or of another
is dropped (R29, R201) (log 55). -/
def failReach (n : Nat) (s : State) : State :=
  let role := roleOf s n
  let s := setFstat 2 (haltFailed n (setReachState n 4 s))
  let s := dmaFails n (setLock n 0 (setF ⟨A.SYS_STATUS, 24 + n, 1⟩ 1 s))
  let s := if getF s (F.RCH_PWR_PSTATE n) = 0 then s else setF (F.RCH_PWR_PSTATE n) 3 s
  let s := if (s.rot.gap.getD []).any (fun r => role == some r) then cancelGap s else s
  syncRotating (modRot (fun x => { x with step := none, fill := none }) (cancelDrain s))

/-- A reach is declared failed (R29, R201): a role it holds passes to the spare in an emergency window, or, where there is none or its
window is open already, no reach holds the role and control stops. A handover window that is open ends first. The spare may fail in the
emergency window: then the role that was to pass to it is dropped (log 55). -/
def reachFailed (n : Nat) (s : State) : State :=
  if 5 ≤ n ∨ failed s n then s else
  let s := if s.rot.emergency then s else handoverEnd s
  let spare := (spareOf s).filter (· != n)
  let role := roleOf s n
  let s := failReach n s
  fwReady (match role, s.rot.window, spare with
    | none, some _, _ => setPhase 0 (setSpare 7 (dropRole s.rot.winRole (modRot (fun x => { x with window := none, emergency := false }) s)))
    | none, none, _ => setPhase 0 (setSpare 7 s)
    | some r, some _, _ => dropRole r (dmaCleared n s)
    | some r, none, some m =>
      let s := setPhase 9 (modRot (fun x => { x with window := some (n, m), winRole := r, winAt := time s, emergency := true }) s)
      canPause r (pauseRings r s)
    | some r, none, none => setPhase 0 (dropRole r (dmaCleared n s)))

/-- A test or a lock of a reach fails: the fault log entry of its code, TESTFAIL for a DRY test, and R29. -/
def testFailed (n code : Nat) (data : List Nat) (s : State) : State :=
  reachFailed n (raise A.LKH_EVT 4 (logFault code n data s))

/-- The emergency copy ends: memory and registers of the failed reach are in the spare, which takes the role (R201); a spare that was
parked has woken for it (R262). -/
def emergencyEnd (s : State) : State :=
  match s.rot.window with
  | some (n, m) =>
    if !s.rot.emergency ∨ (sliceRunning s).isSome then s else
    let r := s.rot.winRole
    let bad := s.ecc.any fun (a, d) => inBanks n a && d
    let s := copyRegs n m (copyBanks n m s)
    let s := match loadedSlot s with
      | some _ => setLock m 1 (writeBoots m (loadFirmware m s.rot.fwHalf s.rot.fwFrom (getF s F.LKH_FWVER_ACTIVE) s))
      | none => s
    let s := if getF s (F.RCH_PWR_PSTATE m) = 0 then s else raise (A.RCH_MEM_EVT m) 4 (setF (F.RCH_PWR_PSTATE m) 0 s)
    let s := if bad then controlStop .ecc none s else s
    let s := passRole m 7 s
    let s := releaseSems (fun o => o.fid == 0 && o.id / 8 == n && decide (o.id < 40)) 4 (epochBump r s)
    let s := startCores m (setReachState m 0 s)
    let s := dmaGoOn m (modRot (fun x => { x with dmaHeld := x.dmaHeld.map fun k => if k = n then m else k }) (dmaCleared n s))
    let s := setF F.LKH_LASTH_LINES 12288 (setF F.LKH_LASTH_WIN (min (time s - s.rot.winAt) 65535) s)
    let s := modRot (fun x => { x with window := none, emergency := false, wetAt := set5 x.wetAt m (time s) }) s
    canResume r (resumeRings r (setPhase 0 s))
  | none => s

/-- The reaches that fail by a second mismatch fail (R190) (log 55). -/
def secondMismatch (ns : List Nat) (s : State) : State := each ns reachFailed s

/-! ### Steps and the drain (R191, R195, R196) -/

/-- A handover target is reached: the reach to release is chosen (R25, R191) (log 54). -/
def rotationTarget (s : State) : State :=
  let h := rd64 s A.LKH_NEXTH
  if !isSet s F.SYS_STATUS_READY ∨ time s < h ∨ s.faults.coreStopped then s else
  let src := match s.rot.fill with | some (n, _) => some n | none => longestWet s
  let s := wr64 A.LKH_NEXTH (h + 200000000) s
  if !rotationRuns s ∨ s.rot.step.isSome then s else
  match src.bind (roleOf s) with
  | some r => setF F.LKH_ROTSTAT_DEFERS 0 (setF F.LKH_ROTSTAT_ROLE r (modRot (fun x => { x with step := some (h, r), late := false }) s))
  | none => s

/-- The tasks that run on a role. -/
def tasksOf (s : State) (r : Nat) : List Nat := (List.range 32).filter fun t => (taskRoles s t).contains r

/-- Condition 2 of R195: every task of the role is OFF or WAIT. -/
def roleQuiet (s : State) (r : Nat) : Bool := (tasksOf s r).all fun t => taskState s t == 0 || taskState s t == 1

/-- Condition 3 of R195: no cyclic task of the role latches within the drain time and 25 µs. -/
def noLatchSoon (s : State) (r : Nat) : Bool :=
  !running s || (tasksOf s r).all fun t => decide (16 ≤ t) || !enabled s t ||
    decide (time s + 1000 * getF s F.LKH_ROTCTL_DRAINTMO + 25000 ≤ firstAfter (phaseBase s t) (periodNs s t) (time s))

/-- A drain is requested on the cores of a reach and its DMA (R195). -/
def requestDrain (n : Nat) (s : State) : State := each (List.range 8) (fun c => drainCore (8 * n + c)) s

/-- HANDOVER_ELIGIBLE: at the end of a commit or of a fill round the boundary is tested, and the drain requested (R195). -/
def tryHandover (s : State) : State :=
  match s.rot.step, s.rot.fill with
  | some (h, r), some (src, dirty) =>
    if !rotationRuns s ∨ s.faults.coreStopped ∨ s.rot.draining.isSome ∨ s.rot.window.isSome ∨ !s.rot.round0 ∨ phase s ≠ 6 ∨ reachOf s r ≠ src
      ∨ time s < h ∨ !roleQuiet s r ∨ !noLatchSoon s r ∨ getF s F.LKH_ROTCTL_DELTAMAX < dirty.length
      ∨ (s.rot.gap.getD []).contains r ∨ frozen s 1 then s else
    let s := modRot (fun x => { x with draining := some src, drainAt := time s }) s
    setF F.LKH_ROTSTAT_PHASE 7 (canPause r (pauseRings r (requestDrain src s)))
  | _, _ => s

/-- DRAINTMO in ns. -/
def drainTmo (s : State) : Nat := 1000 * getF s F.LKH_ROTCTL_DRAINTMO

/-- Whether every core of a reach has drained and its DMA stands. -/
def quietReach (s : State) (n : Nat) : Bool := allDrained s n && dmaStill s n

/-- A drain requested at `since` is given up: DRAINTMO has passed and it has not come to rest, or its window did not open in time (R196). -/
def drainLate (s : State) (since : Nat) (rest : Bool) : Bool :=
  decide (since + drainTmo s < time s) || (decide (since + drainTmo s = time s) && !rest)

/-- A deferral is counted and raised (R196). -/
def deferred (s : State) : State := raise A.LKH_EVT 1 (satF F.LKH_ROTSTAT_DEFERS 1 s)

/-- A drain that did not finish within DRAINTMO is given up (R196): of a handover, and of a firmware switch (R204). -/
def drainTimeout (s : State) : State :=
  let s := match s.rot.draining with
    | some n => if drainLate s s.rot.drainAt (quietReach s n) then deferred (setF F.LKH_ROTSTAT_PHASE 6 (cancelDrain s)) else s
    | none => s
  match s.rot.gap with
  | some g => if drainLate s s.rot.gapAt (g.all fun r => quietReach s (reachOf s r)) then deferred (cancelGap s) else s
  | none => s

/-! ### The window (R197, R199) -/

/-- All cores are DRAINED and the DMA has stopped, within DRAINTMO of the request (R196): the window opens, and the delta and the registers
are copied (R194, R197). The role map changes as the window ends (log 118). -/
def handoverWindow (s : State) : State :=
  match s.rot.draining, s.rot.fill, spareOf s with
  | some src, some (_, dirty), some dst =>
    if !quietReach s src ∨ s.rot.drainAt + drainTmo s < time s ∨ (sliceRunning s).isSome then s else
    match roleOf s src with
    | none => s
    | some r =>
      let s := setF F.LKH_ROTSTAT_PHASE 8 (setReachState src 1 s)
      let s := modRot (fun x => { x with window := some (src, dst), winRole := r, winAt := time s, delta := dirty.length, draining := none, fill := none, emergency := false }) s
      copyRegs src dst (each dirty (copyLine src dst) s)
  | _, _, _ => s

/-! ### Tests of a DRY reach (R192, R487, R488, R493, R495) -/

/-- The DRY reach under test, in the given phase. -/
def underTest (s : State) (p : Nat) : Option Nat :=
  if phase s ≠ p ∨ s.faults.coreStopped then none else (spareOf s).filter fun n => reachState s n == 2

/-- Phase POWER ends; `locked` and `powered` are the results of its checks. A PLL that was stopped and does not lock again has no fault
code (R526). -/
def dryPowerEnd (locked powered : Bool) (s : State) : State :=
  match underTest s 1 with
  | none => s
  | some n =>
    if !locked ∨ !powered then reachFailed n (raise A.LKH_EVT 4 s)
    else setPhase 2 (modRot (fun x => { x with lbist := 0 }) (setLock n 1 s))

/-- The next pair of LBIST slices ends: k and k + 32, each with whether its signature is right and what it was (R487). -/
def lbistSliceEnd (ok0 ok1 : Bool) (sig0 sig1 : Word) (s : State) : State :=
  match underTest s 2 with
  | none => s
  | some n =>
    let k := s.rot.lbist
    if !ok0 ∨ !ok1 then
      let slice := if ok0 then k + 32 else k
      let s := setF (F.BST_REACH_SLICE n) slice (setF (F.BST_REACH_LRESULT n) 2 s)
      testFailed n 1 [n, slice, (if ok0 then sig1 else sig0).toNat] s
    else
      let s := modRot (fun x => { x with lbist := k + 1 }) s
      if k = 31 then setPhase 3 (setF (F.BST_REACH_LRESULT n) 1 s) else s

/-- The spares of a unit that repairs use: 8 rows, 4 columns (R493). -/
def sparesUsed (s : State) (mem unit : Nat) (col : Bool) : Nat :=
  (s.cfg.repairs.filter fun x => x.mem == mem && x.unit == unit && x.col == col).length

/-- An entry of the repair log, written where it is not yet recorded and the log has room (R495). -/
def repairLog (x : Repair) (spare left : Nat) (s : State) : State :=
  let n := getF s F.BST_REPPTR_COUNT
  let w2 := x.mem * 2 ^ 24 + x.unit % 256 * 2 ^ 16 + bit x.fused * 2 ^ 14 + bit x.col * 2 ^ 13 + x.index % 2 ^ 13
  if (List.range (min n 4096)).any fun k => memNat s (0x41440000 + 16 * k + 8) 4 == w2 then s
  else if 4096 ≤ n then raise A.BST_EVT 3 s
  else
    let s := memPut (0x41440000 + 16 * n) 8 (time s) s
    let s := memPut (0x41440000 + 16 * n + 8) 4 w2 s
    let s := memPut (0x41440000 + 16 * n + 12) 4 (n % 65536 * 2 ^ 16 + spare % 256 * 2 ^ 8 + left % 256) s
    setF F.BST_REPPTR_COUNT (n + 1) s

/-- Repair one failing row or column of a unit; none where its spares are used up (R493). -/
def repairOne (mem unit : Nat) (col : Bool) (index : Nat) (s : State) : Option State :=
  if s.cfg.repairs.any fun x => x.mem == mem && x.unit == unit && x.col == col && x.index == index then some s else
  let used := sparesUsed s mem unit col
  let most := if col then 4 else 8
  if most ≤ used then none else
  let x : Repair := { mem := mem, unit := unit, col := col, index := index, fused := false }
  some (raise A.BST_EVT 2 (repairLog x used (most - used - 1) { s with cfg := { s.cfg with repairs := s.cfg.repairs ++ [x] } }))

/-- Repair the failing rows and columns MBIST found in a memory, (unit, column, index) each; the first unit that cannot be
repaired is answered. -/
def repairAll (mem : Nat) : List (Nat × Bool × Nat) → State → State × Option Nat
  | [], s => (s, none)
  | (u, c, i) :: t, s => match repairOne mem u c i s with
    | some s => repairAll mem t s
    | none => (s, some u)

/-- BST_REACHn counts the spares in use. -/
def syncSpares (n : Nat) (s : State) : State :=
  let count := fun (c : Bool) => (s.cfg.repairs.filter fun x => x.mem == n && x.col == c).length
  setF (F.BST_REACH_ROWS n) (min (count false) 255) (setF (F.BST_REACH_COLS n) (min (count true) 255) s)

/-- MBIST and soft repair of a DRY reach end; `bad` lists the failing rows and columns found (R488, R493). A reach that
passes has passed its DRY test: SUSPECT clears (R190). -/
def mbistEnd (bad : List (Nat × Bool × Nat)) (s : State) : State :=
  match underTest s 3 with
  | none => s
  | some n =>
    let before := s.cfg.repairs.length
    match repairAll n bad (clearBanks n s) with
    | (s, some u) =>
      let s := syncSpares n (setF (F.BST_REACH_BANK n) u (setF (F.BST_REACH_MRESULT n) 3 s))
      testFailed n 2 [n, u] s
    | (s, none) =>
      let s := syncSpares n (setF (F.BST_REACH_MRESULT n) (if before < s.cfg.repairs.length then 2 else 1) s)
      let s := setF ⟨A.LKH_REACHST, 16 + n, 1⟩ 0 s
      setPhase 4 (modRot (fun x => { x with mism := set5 x.mism n false, testAt := set5 x.testAt n (time s), latent := set5 x.latent n false }) s)

/-! ### Firmware (R202 to R204) -/

/-- RELOAD of a DRY reach ends: banks 0 to 11 read 0, the firmware versions are loaded, BOOT is written (R192, R202). -/
def reloadEnd (s : State) : State :=
  match underTest s 4 with
  | none => s
  | some n =>
    let s := clearBanks n s
    let h := s.rot.fwHalf
    let s := match loadedSlot s with
      | some _ => loadFirmware n h s.rot.fwFrom (getF s F.LKH_FWVER_ACTIVE) s
      | none => s
    let s := if getF s F.LKH_FWVER_STAGED ≠ 0 then
        setF ⟨A.LKH_FWSTAT, 8 + n, 1⟩ 1 (loadFirmware n (1 - h) s.rot.fwStaged (getF s F.LKH_FWVER_STAGED) s)
      else s
    setPhase 5 (fwReady (holdCores n .halted (writeBoots n s)))

/-- The version that STAGE names in a slot: FWNEXT, or FWVER where there is none; none where it is active (log 13). -/
def stageVersion (s : State) (k : Nat) : Option Nat :=
  let v := if hdr s k 0x12 2 ≠ 0 then hdr s k 0x12 2 else hdr s k 0x10 2
  if v = 0 ∨ v = getF s F.LKH_FWVER_ACTIVE then none else some v

/-- LKH_FWCTL.STAGE (R203, R483): nothing is staged from a slot that is not VALID, nor while a switch runs (log 13). -/
def fwStage (s : State) : State :=
  let k := getF s F.LKH_FWCTL_SRC
  if getF s F.LKH_FWSTAT_STATE = 3 ∨ !isSet s (F.CFG_SLOT_VALID k) then s else
  match stageVersion s k with
  | none => s
  | some v => fwReady (setF F.LKH_FWVER_STAGED v (setF F.LKH_FWSTAT_LOADED 0 (setF F.LKH_FWSTAT_STATE 1 (modRot (fun x => { x with fwStaged := k }) s))))

/-- LKH_FWCTL.SWITCH, accepted only in READY (R204). -/
def fwSwitch (s : State) : State :=
  if getF s F.LKH_FWSTAT_STATE ≠ 2 then s else setF F.LKH_FWSTAT_SWDONE 0 (setF F.LKH_FWSTAT_STATE 3 s)

/-- LKH_FWCTL.ABORT drops the staged version unless a switch has begun. -/
def fwAbort (s : State) : State :=
  if getF s F.LKH_FWSTAT_STATE = 3 then s else
  setF F.LKH_FWVER_STAGED 0 (setF F.LKH_FWSTAT_LOADED 0 (setF F.LKH_FWSTAT_STATE 0 s))

/-- The roles joined with the listed ones by an enabled duplex task. -/
def joinRoles (s : State) (rs : List Nat) : List Nat :=
  (List.range 4).filter fun r => rs.contains r || (List.range 32).any fun t =>
    enabled s t && duplex s t && (taskRoles s t).contains r && (taskRoles s t).any rs.contains

/-- The group of a role (R204). -/
def roleGroup (s : State) (r : Nat) : List Nat := (joinRoles s (joinRoles s (joinRoles s [r]))).filter fun r => decide (reachOf s r < 5)

/-- The halves of a drained group flip, its I-caches are dropped and its cores resume; after the last group the staged
version is the active one (R204). -/
def flipGroup (g : List Nat) (s : State) : State :=
  let flip := fun (v : Vector Nat 4) (r : Nat) => v.set (r % 4) (1 - v[r % 4]'(Nat.mod_lt _ (by decide))) (Nat.mod_lt _ (by decide))
  let s := modRot (fun x => { x with half := g.foldl flip x.half, gap := none }) s
  let s := each g (fun r s => setF ⟨A.LKH_FWSTAT, 4 + r, 1⟩ 1 (dropICaches (reachOf s r) s)) s
  let s := each g (fun r s => dmaGoOn (reachOf s r) (resumeCores (reachOf s r) s)) s
  if (List.range 4).all fun r => bitAt (getF s F.LKH_FWSTAT_SWDONE) r || decide (5 ≤ reachOf s r) then
    let s := setF F.LKH_FWVER_ACTIVE (getF s F.LKH_FWVER_STAGED) s
    let s := setF F.LKH_FWVER_STAGED 0 (setF F.LKH_FWSTAT_STATE 0 s)
    raise A.LKH_EVT 7 (modRot (fun x => { x with fwHalf := 1 - x.fwHalf, fwFrom := x.fwStaged }) s)
  else s

/-- Whether a handover of a role is in progress: its drain or its window (R204). -/
def handsOver (s : State) (r : Nat) : Bool :=
  (s.rot.window.isSome && s.rot.winRole == r) || (match s.rot.draining with | some n => reachOf s r == n | none => false)

/-- FW_SWITCH_GAP for the group of role `r`: at an eligible instant its cores are asked to drain; once all have, the
halves flip (R204). -/
def fwSwitchGap (r : Nat) (s : State) : State :=
  if getF s F.LKH_FWSTAT_STATE ≠ 3 ∨ bitAt (getF s F.LKH_FWSTAT_SWDONE) r ∨ s.faults.coreStopped then s else
  let g := roleGroup s r
  let ready := fun (s : State) => g.all fun r => quietReach s (reachOf s r)
  match s.rot.gap with
  | some g' => if g' = g ∧ ready s ∧ time s ≤ s.rot.gapAt + drainTmo s then flipGroup g s else s
  | none =>
    if g.any (handsOver s) ∨ !g.all (fun r => roleQuiet s r && noLatchSoon s r) then s else
    let s := modRot (fun x => { x with gap := some g, gapAt := time s }) s
    let s := each g (fun r s => requestDrain (reachOf s r) s) s
    if ready s then flipGroup g s else s

/-! ### Filling (R192, R193) -/

/-- At H − 20 ms the spare leaves WAITFILL and round 0 begins from the reach that will be released (R25, R192, R193). -/
def fillStart (s : State) : State :=
  if !rotationRuns s ∨ s.faults.coreStopped ∨ phase s ≠ 5 ∨ (s.rot.step.isNone ∧ time s + 20000000 < rd64 s A.LKH_NEXTH) then s else
  let src := match s.rot.step with | some (_, r) => some (reachOf s r) | none => longestWet s
  match spareOf s, src with
  | some n, some src =>
    if getF s (F.RCH_PWR_PSTATE n) ≠ 0 then s else
    let s := copyBanks src n (setPhase 6 (setReachState n 3 s))
    let s := setF F.LKH_ROTSTAT_ROLE ((roleOf s src).getD 0) s
    (modRot (fun x => { x with fill := some (src, []), round0 := false }) s)
  | _, _ => s

/-- A fill round ends: the boundary is tested; where no drain follows, the next round copies the dirty lines (R193, R195). -/
def fillRoundEnd (s : State) : State :=
  match s.rot.fill, spareOf s with
  | some (src, _), some n =>
    if phase s ≠ 6 then s else
    let s := tryHandover (modRot (fun x => { x with round0 := true }) s)
    if s.rot.draining.isSome then s else
    let dirty := match s.rot.fill with | some (_, l) => l | none => []
    (modRot (fun x => { x with fill := some (src, []) }) (each dirty (copyLine src n) s))
  | _, _ => s

/-- No step pends: the spare in WAITFILL is tested again, 200 ms after its last test began (R192). -/
def spareRetest (s : State) : State :=
  if phase s ≠ 5 ∨ s.rot.step.isSome ∨ time s < s.rot.testFrom + 200000000 ∨ anyFailed s ∨ s.faults.coreStopped then s else
  match spareOf s with
  | some n => toPower n s
  | none => s

/-! ### Lateness (R201) -/

/-- ROTLATE past the target with no handover (R201, fault 0x09). -/
def rotationLate (s : State) : State :=
  match s.rot.step with
  | some (h, r) =>
    if s.rot.late ∨ time s < h + 1000000 * getF s F.LKH_ROTCTL_ROTLATE then s else
    logFault 0x09 r [r, getF s F.LKH_ROTSTAT_DEFERS] (raise A.LKH_EVT 2 (modRot (fun x => { x with late := true }) s))
  | none => s

/-- A reach has gone more than 1.2 s without passing a test (R201, fault 0x08). -/
def reachLatent (n : Nat) (s : State) : State :=
  if failed s n ∨ at5 s.rot.latent n ∨ !isSet s F.SYS_STATUS_READY ∨ time s ≤ at5 s.rot.testAt n + 1200000000 then s else
  let age := (time s - at5 s.rot.testAt n) / 1000000
  logFault 0x08 n [n, age] (raise A.LKH_EVT 3 (modRot (fun x => { x with latent := set5 x.latent n true }) s))

/-- LKH_TESTOLD as it reads: the reach with the longest time since it passed a test, and that time in ms. -/
def testOld (s : State) : Nat :=
  let n := (List.range 5).foldl (fun m n => if at5 s.rot.testAt n < at5 s.rot.testAt m then n else m) 0
  n * 2 ^ 29 + min ((time s - at5 s.rot.testAt n) / 1000000) (2 ^ 21 - 1)

/-- The Lockhouse's reaction where the corrected errors of a reach come to exceed CETHR within one second: the reach is SUSPECT, fault
0x06 (R492). -/
def countCorrected (before : State) (n : Nat) (s : State) : State :=
  let t := getF s F.LKH_FCFG_CETHR
  let k := (recentCE s n).length
  if t ≠ 0 ∧ (recentCE before n).length ≤ t ∧ t < k then logFault 0x06 n [n, k] (markSuspect n s) else s

end Sys2Proof.Machine
end

