-- ==== Sys2Proof/Machine/Eth.lean ====
section
/-! DEFINITION. The single-pair Ethernet ports (12_ethernet_ports R336 to R354). -/

namespace Sys2Proof.Machine

/-- What port `p` holds. -/
def State.port (s : State) (p : Nat) : EthPort := vget s.eth p

/-- Change what port `p` holds. -/
def modPort (p : Nat) (f : EthPort → EthPort) (s : State) : State := { s with eth := vset s.eth p (f (vget s.eth p)) }

/-- Whether port `p` is a TS port. -/
def isTs (p : Nat) : Bool := decide (8 ≤ p)

/-! ### Statistics (R351) -/

/-- Add to a 32-bit statistics counter; it saturates. -/
def statAdd (p off n : Nat) (s : State) : State := satF ⟨A.ETH_CTL p + off, 0, 32⟩ n s

/-- Add to a 64-bit statistics counter; it saturates. -/
def statAdd64 (p off n : Nat) (s : State) : State :=
  wr64 (A.ETH_CTL p + off) (min (rd64 s (A.ETH_CTL p + off) + n) (2 ^ 64 - 1)) s

/-! ### Event messages and stamps (R348, R349) -/

/-- The PTP header of an event message, after at most one tag (R348). -/
def ptpHeader (s : State) (p : Nat) (bs : List Byte) : Option (List Byte) :=
  let o := if beNat (part bs 12 2) = 0x8100 then 18 else 14
  let ty := beNat (part bs (o - 2) 2)
  let body := bs.drop o
  let h :=
    if ty = 0x88F7 ∧ isSet s (F.ETH_PTPCFG_L2EN p) then some body
    else if ty = 0x0800 ∧ isSet s (F.ETH_PTPCFG_UDP4EN p) then
      let ihl := 4 * ((body.getD 0 0).toNat % 16)
      if body.getD 9 0 = 17 ∧ beNat (part body (ihl + 2) 2) = 319 then some (body.drop (ihl + 8)) else none
    else if ty = 0x86DD ∧ isSet s (F.ETH_PTPCFG_UDP6EN p) then
      if body.getD 6 0 = 17 ∧ beNat (part body 42 2) = 319 then some (body.drop 48) else none
    else none
  h.bind fun b => if (b.getD 0 0).toNat % 16 < 4 then some b else none

/-- The stamp of an event message at an instant. -/
def stampOf (h : List Byte) (t : Nat) (lost : Bool) : Stamp :=
  { time := t, msg := (h.getD 0 0).toNat % 16, domain := (h.getD 4 0).toNat, seqid := beNat (part h 30 2), lost := lost }

/-- The stamp FIFO counts of port `p` follow its FIFOs. -/
def syncStamps (p : Nat) (s : State) : State :=
  setF (F.ETH_TSSTAT_RXCNT p) (s.port p).rx.length (setF (F.ETH_TSSTAT_TXCNT p) (s.port p).tx.length s)

/-- The start-of-frame delimiter of an event message has passed between PHY and MAC of port `p` at time `t`: its stamp entry, and the capture
source (R349, R282). -/
def stampFrame (p : Nat) (out : Bool) (t : Nat) (bs : List Byte) (s : State) : State :=
  match ptpHeader s p bs with
  | none => s
  | some h =>
    let s := captureAt (if out then 40 + p else 8 + p) t s
    let k := s.port p
    if out then
      if k.tx.length < 16 then
        let s := syncStamps p (modPort p (fun k => { k with tx := k.tx ++ [stampOf h t k.txLost], txLost := false }) s)
        if k.tx.isEmpty then raise (A.ETH_EVT p) 2 s else s
      else raise (A.ETH_EVT p) 3 (modPort p (fun k => { k with txLost := true }) s)
    else
      if k.rx.length < 16 then
        let s := syncStamps p (modPort p (fun k => { k with rx := k.rx ++ [stampOf h t k.rxLost], rxLost := false }) s)
        if k.rx.isEmpty then raise (A.ETH_EVT p) 1 s else s
      else raise (A.ETH_EVT p) 3 (modPort p (fun k => { k with rxLost := true }) s)

/-- The high word of a stamp entry (ETH_TSRX, ETH_TSTX). -/
def stampHigh (e : Stamp) : Nat := bit e.lost * 2 ^ 30 + e.msg % 16 * 2 ^ 26 + e.domain % 256 * 2 ^ 16 + e.seqid % 65536

/-- A read of the low word of ETH_TSRX or ETH_TSTX pops one entry (R349). -/
def stampRead (p : Nat) (out : Bool) (who : Who) (s : State) : State × Word :=
  let pa := if out then A.ETH_TSTX p else A.ETH_TSRX p
  let latch := fun (w : Nat) (s : State) =>
    { s with rshadow := SMap.ins s.rshadow (shadowKey pa who) (pa % 0x10000, w32 w) }
  match (if out then (s.port p).tx else (s.port p).rx) with
  | [] => (latch (2 ^ 31) s, 0)
  | e :: t =>
    let s := modPort p (fun k => if out then { k with tx := t } else { k with rx := t }) s
    (latch (stampHigh e) (syncStamps p s), w32 e.time)

/-! ### Link (R339, R343, R353) -/

/-- LSTATE of a port: 0 OFF, 1 TRAINING, 2 UP, 3 TEST, 4 CABLE, 5 LOOP, 6 FAULT. -/
def lstate (s : State) (p : Nat) : Nat := getF s (F.ETH_STATUS_LSTATE p)

/-- One bit time of a port in ns. -/
def bitNs (s : State) (p : Nat) : Nat :=
  if isTs p then 100 else if isSet s (F.ETH_STATUS_SPDRES p) then 1 else 10

/-- A frame in transmission whose time has passed has been sent whole (R351: TXFRM, TXOCT). -/
def settle (p : Nat) (s : State) : State :=
  match (s.port p).sending with
  | some ((f, _), e) =>
    if e ≤ s.now then
      statAdd p 0x128 1 (statAdd64 p 0x120 (f.bytes.length + 4) (modPort p (fun k => { k with sending := none }) s))
    else s
  | none => s

/-- A frame in transmission is cut off (R343). -/
def cutOff (p : Nat) (s : State) : State :=
  let s := settle p s
  if (s.port p).sending.isSome then statAdd p 0x138 1 (modPort p (fun k => { k with sending := none, sfd := none }) s) else s

/-- Set LSTATE; LINK is 1 in UP and LOOP, and a change of it raises LINK (R339). -/
def setLstate (p v : Nat) (s : State) : State :=
  let was := isSet s (F.ETH_STATUS_LINK p)
  let on := v == 2 || v == 5
  let s := setF (F.ETH_STATUS_LSTATE p) v (setF (F.ETH_STATUS_LINK p) (bit on) s)
  if was == on then s else
  let s := if was then statAdd p 0x148 1 (cutOff p s) else s
  raise (A.ETH_EVT p) 0 s

/-- Set PLCASTAT.OK; a change raises PLCA (R347). Under PLCA a frame waits for an opportunity, and no longer for the end of a back-off. -/
def setPlcaOk (p : Nat) (b : Bool) (s : State) : State :=
  let s := if b ∧ (s.port p).backoff.isSome then modPort p (fun k => { k with backoff := none }) s else s
  if isSet s (F.ETH_PLCASTAT_OK p) == b then s else raise (A.ETH_EVT p) 4 (setF (F.ETH_PLCASTAT_OK p) (bit b) s)

/-- Whether port `p` is the PLCA coordinator. -/
def coordinator (s : State) (p : Nat) : Bool :=
  isTs p && isSet s (F.ETH_CTL_PLCAEN p) && getF s (F.ETH_PLCA_NODEID p) == 0

/-- PLCA status after a change of the configuration: a coordinator uses PLCA at once, without PLCAEN none does. -/
def plcaConfig (p : Nat) (s : State) : State :=
  if !isTs p then s else
  let on := isSet s (F.ETH_CTL_EN p) && isSet s (F.ETH_CTL_PLCAEN p)
  let s := setF (F.ETH_PLCASTAT_COORD p) (bit (on && coordinator s p)) s
  if !on then setPlcaOk p false s else if coordinator s p then setPlcaOk p true s else s

/-- ETH_CTL has been written (R339, R343, R353, R354). -/
def ethCtlWritten (p old : Nat) (s : State) : State :=
  let en := isSet s (F.ETH_CTL_EN p)
  let s :=
    if !en then
      (if lstate s p = 4 then s else modPort p (fun k => { k with backoff := none, burst := none }) (setLstate p 0 (cutOff p s)))
    else
      let s := if lstate s p = 4 then raise (A.ETH_EVT p) 7 (setF (F.ETH_CABLE_RESULT p) 6 s) else s
      if getF s (F.ETH_CTL_TESTMODE p) ≠ 0 then setLstate p 3 s
      else if isSet s (F.ETH_CTL_LPBK p) then setLstate p 5 s
      else if isTs p then (if lstate s p = 6 then s else setLstate p 2 s)
      else if bitAt old 31 ∧ (lstate s p = 1 ∨ lstate s p = 2) ∧ bitsOf old 10 11 = bitsOf (rd s (A.ETH_CTL p)).toNat 10 11 then s
      else setLstate p 1 s
  plcaConfig p s

/-- A port's link comes up: a GA port has trained, with what auto-negotiation resolved; a TS port's PHY finds no fault any
more (R339, R353). -/
def linkUp (p : Nat) (fast master : Bool) (s : State) : State :=
  if !isSet s (F.ETH_CTL_EN p) then s
  else if isTs p then (if lstate s p = 6 then setLstate p 2 s else s)
  else if lstate s p ≠ 1 then s else
  let ms := getF s (F.ETH_CTL_MS p)
  let aneg := isSet s (F.ETH_CTL_ANEG p)
  let spd := getF s (F.ETH_CTL_SPEED p) == 1 && (!aneg || fast)
  let m := if aneg ∧ ms = 2 then master else ms != 0
  setLstate p 2 (setF (F.ETH_STATUS_SPDRES p) (bit spd) (setF (F.ETH_STATUS_MSRES p) (bit m) s))

/-- The partner's signal is lost: the port retrains; on a TS port the PHY finds a fault at the MDI (R339, R353). -/
def linkLost (p : Nat) (s : State) : State :=
  if lstate s p = 2 then setLstate p (if isTs p then 6 else 1) s else s

/-- The signal quality of the last 1 ms (R353). -/
def sqiUpdate (p sqi : Nat) (s : State) : State :=
  if lstate s p ≠ 2 then s else
  let old := getF s (F.ETH_STATUS_SQI p)
  let min := getF s (F.ETH_CTL_SQIMIN p)
  let s := setF (F.ETH_STATUS_SQI p) sqi s
  if min ≠ 0 ∧ sqi < min ∧ min ≤ old then raise (A.ETH_EVT p) 8 (statAdd p 0x14C 1 s) else s

/-! ### Cable test (R354) -/

/-- ETH_CABLE.GO. -/
def cableGo (p : Nat) (s : State) : State :=
  if isSet s (F.ETH_CTL_EN p) ∨ isSet s (F.ETH_CTL_LPBK p) then setF (F.ETH_CABLE_RESULT p) 5 s
  else setF (F.ETH_CABLE_DIST p) 0 (setF (F.ETH_CABLE_RESULT p) 0 (setLstate p 4 s))

/-- A cable test ends with its result (1 OK, 2 OPEN, 3 SHORT, 4 NOISE) and distance. -/
def cableEnd (p result dist : Nat) (s : State) : State :=
  if lstate s p ≠ 4 ∨ result = 0 ∨ 4 < result then s else
  raise (A.ETH_EVT p) 7 (setF (F.ETH_CABLE_DIST p) (if result = 1 then 0 else dist)
    (setF (F.ETH_CABLE_RESULT p) result (setLstate p 0 s)))

/-! ### Receiving (R340, R352) -/

/-- STATION_STATUS_UPDATE: SEEN or MULTI of the station address of a Towpath frame (R352). -/
def stationSeen (p : Nat) (bs : List Byte) (s : State) : State :=
  if !isSet s (F.ETH_STNCFG_EN p) ∨ etherType bs ≠ getF s F.TOW_CTL_ETYPE then s else
  let o := getF s (F.ETH_STNCFG_OFFSET p) + (if (pcpOf bs).isSome then 4 else 0)
  let a := (bs.getD o 0).toNat
  let seen : FRef := ⟨A.ETH_STN p (a / 16), 2 * (a % 16), 1⟩
  if isSet s seen then setF ⟨A.ETH_STN p (a / 16), 2 * (a % 16) + 1, 1⟩ 1 s else setF seen 1 s

/-- Another node's frame ends under PLCA: the opportunity it was sent in ends 96 bit times later (R346). -/
def heardFrame (p : Nat) (s : State) : State :=
  if isTs p ∧ isSet s (F.ETH_PLCASTAT_OK p) then modPort p (fun k => { k with turnAt := max k.turnAt (s.now + 9600) }) s else s

/-- What the MAC of a port does with a frame, given without its FCS: `good` says that the FCS is good, `clean` that no symbol or coding
error or uncorrectable codeword occurred, `fec` counts corrected codewords; `stamp` stamps one that is good (R340) (log 72). -/
def takeFrame (p : Nat) (bs : List Byte) (good clean : Bool) (fec : Nat) (stamp : State → State) (s : State) : State :=
  let s := if isTs p ∨ fec = 0 then s else statAdd p 0x140 fec s
  if !clean then statAdd p 0x118 1 s
  else if bs.length + 4 < 64 then statAdd p 0x110 1 s
  else if !good then statAdd p 0x10C 1 s
  else if beNat (part bs 12 2) = 0x8808 then statAdd p 0x11C 1 s
  else
    let s := if 2048 < bs.length + 4 then statAdd p 0x114 1 s else s
    let s := statAdd p 0x108 1 (statAdd64 p 0x100 (bs.length + 4) s)
    offerFrame { src := p, bytes := bs, cls := none, direct := none } (stationSeen p bs (stamp s))

/-- A port has received a frame: its delimiter passed as long ago as its bytes and FCS have taken (R340, R349) (log 161, 72). -/
def frameRx (p : Nat) (bs : List Byte) (good clean : Bool) (fec : Nat) (s : State) : State :=
  if !isSet s (F.ETH_CTL_EN p) ∨ !isSet s (F.ETH_STATUS_LINK p) then s else
  takeFrame p bs good clean fec (fun s => stampFrame p false (timeBack s (8 * (bs.length + 4) * bitNs s p)) bs s) (heardFrame p s)

/-! ### Transmitting (R342 to R347) -/

/-- The frame a port sends next: the one that waits, else the oldest of the highest class in its egress buffer. -/
def nextFrame (s : State) (p : Nat) : Option (OutFrame × Nat) :=
  match (s.port p).next with
  | some x => some x
  | none =>
    let q := s.basin.egress.filter (·.dest == p)
    let top := q.foldl (fun n f => max n f.cls) 0
    (q.find? (·.cls == top)).map fun f => (f, 0)

/-- Whether a port may begin a frame now (log 74). -/
def canSend (s : State) (p : Nat) : Bool :=
  isSet s (F.ETH_CTL_EN p) && isSet s (F.ETH_STATUS_LINK p) && (s.port p).sending.isNone && decide ((s.port p).gapEnd ≤ s.now)

/-- The bytes of a frame on the wire: seven of preamble, the SFD, the frame, its FCS (R309, R343). -/
def onWire (bs : List Byte) : List Byte := List.replicate 7 0x55 ++ 0xD5 :: bs ++ leBytes 4 (crc32 bs)

/-- A port begins sending a frame: it leaves the egress buffer, its delimiter passes 64 bit times later (R343, R349). With LPBK the port
receives it, and nothing reaches the MDI (log 73). -/
def beginFrame (p : Nat) (x : OutFrame × Nat) (s : State) : State :=
  let f := x.1
  let bt := bitNs s p
  let fin := s.now + 8 * (f.bytes.length + 12) * bt
  let s := modBasin (fun b => { b with egress := b.egress.erase f }) s
  let s := modPort p (fun k => { k with sending := some (x, fin), sfd := some (s.now + 64 * bt, f.bytes), next := none, backoff := none,
                                        deferred := k.deferred && k.next.isSome, gapEnd := fin + 96 * bt }) s
  if lstate s p = 5 then takeFrame p f.bytes true true 0 id s
  else emit (.eth p) (onWire f.bytes) s

/-- The delimiter of the frame that port `p` sends passes, where its time has come: an event message is stamped; with LPBK it is received at
the same instant (R349) (log 73). -/
def sfdPasses (p : Nat) (s : State) : State :=
  match (s.port p).sfd with
  | none => s
  | some (t, bs) =>
    if s.now < t then s else
    let s := stampFrame p true (time s) bs (modPort p (fun k => { k with sfd := none }) s)
    if lstate s p = 5 then stampFrame p false (time s) bs s else s

/-- The delimiters whose time has come pass. -/
def ethTick (s : State) : State := each (List.range 24) sfdPasses s

/-- A frame defers: it stays the next frame, and is counted once (R342, R351). -/
def deferFrame (p : Nat) (x : OutFrame × Nat) (s : State) : State :=
  let k := s.port p
  let s := if k.next.isSome then s else modBasin (fun b => { b with egress := b.egress.erase x.1 }) s
  let s := modPort p (fun k => { k with next := some x, deferred := true }) s
  if k.next.isSome ∧ k.deferred then s else statAdd p 0x13C 1 s

/-- A port begins sending its next frame, or defers to a busy medium (R342 to R346) (log 73). -/
def frameTxEth (p : Nat) (busy : Bool) (s : State) : State :=
  let s := settle p s
  match nextFrame s p with
  | none => s
  | some x =>
    if !canSend s p ∨ (s.port p).backoff.isSome then s
    else if isTs p ∧ isSet s (F.ETH_PLCASTAT_OK p) then
      match (s.port p).burst with
      | some (n + 1) =>
        if s.now + 96 * bitNs s p ≤ (s.port p).gapEnd + getF s (F.ETH_PLCATMR_BTMR p) * bitNs s p then
          beginFrame p x (modPort p (fun k => { k with burst := some n }) s)
        else s
      | _ => deferFrame p x s
    else if isTs p ∧ busy then deferFrame p x s
    else beginFrame p x s

/-- The LFSR of a port draws the slots of a back-off after `n` collisions (R344) (log 75). -/
def drawSlots (p n : Nat) (s : State) : State × Nat :=
  let x := Config.lfsrNext (s.port p).lfsr % 65536
  (modPort p (fun k => { k with lfsr := x }) s, x % 2 ^ min n 10)

/-- The collision signal of the transceiver of port `p` is sampled. A collision of the frame in transmission is late more than
512 bit times after the start of the preamble; the jam of 32 bits follows, and the gap after it (R344 to R346) (log 75). -/
def collision (p : Nat) (cd : Bool) (s : State) : State :=
  if !cd then s else
  let s := settle p s
  match (s.port p).sending with
  | none => s
  | some ((f, met), fin) =>
    if !isTs p then s else
    let late := decide (fin + 51200 < s.now + 800 * (f.bytes.length + 12))
    let s := modPort p (fun k => { k with sending := none, sfd := none, burst := k.burst.map fun _ => 0, gapEnd := s.now + 3200 + 9600 }) (statAdd p 0x12C 1 s)
    if late then statAdd p 0x130 1 s else
    let n := met + 1
    if n = 16 then raise (A.ETH_EVT p) 6 (statAdd p 0x134 1 s) else
    if isSet s (F.ETH_PLCASTAT_OK p) then
      deferFrame p (f, n) (modPort p (fun k => { k with next := some (f, n) }) s) else
    let (s, r) := drawSlots p n s
    modPort p (fun k => { k with next := some (f, n), backoff := some (s.now + 3200 + 51200 * r) }) s

/-- A back-off ends and the frame is tried again (R344) (log 75). -/
def backoffEnd (p : Nat) (busy : Bool) (s : State) : State :=
  match (s.port p).backoff, (s.port p).next with
  | some t, some x =>
    if s.now < t ∨ !isSet s (F.ETH_CTL_EN p) ∨ !isSet s (F.ETH_STATUS_LINK p) then s else
    let s := modPort p (fun k => { k with backoff := none }) s
    if busy then deferFrame p x s else if s.now < (s.port p).gapEnd then s else beginFrame p x s
  | _, _ => s

/-- When the opportunity before that of `node` has ended: one port `p` uses, with the gap after what it has sent. The own opportunity of the
port comes no sooner than the gap after its last frame (R343, R346) (log 137). -/
def usedUntil (s : State) (p : Nat) (own : Bool) : Nat :=
  if (s.port p).burst.isSome ∨ own then max (s.port p).turnAt (s.port p).gapEnd else (s.port p).turnAt

/-- A coordinator opens a PLCA cycle with a BEACON of 20 bit times, once the opportunities of the last one have passed; with LPBK nothing
reaches the MDI (R346) (log 73). -/
def plcaBeacon (p : Nat) (s : State) : State :=
  let k := s.port p
  if coordinator s p ∧ isSet s (F.ETH_CTL_EN p) ∧ isSet s (F.ETH_STATUS_LINK p) ∧ usedUntil s p false ≤ s.now
      ∧ getF s (F.ETH_PLCA_NODECNT p) ≤ k.turn then
    let s := modPort p (fun k => { k with beacon := s.now, burst := none, turn := 0, turnAt := s.now + 2000 }) (setF (F.ETH_PLCASTAT_CURID p) 0 s)
    if lstate s p = 5 then s else emit (.eth p) [] s
  else s

/-- Whether the opportunity of a node may begin: it is the next in order, and the one before has lasted its time (R346) (log 137). -/
def turnComes (s : State) (p node : Nat) : Bool :=
  isTs p && isSet s (F.ETH_PLCASTAT_OK p) && (s.port p).turn == node && decide (usedUntil s p (node == getF s (F.ETH_PLCA_NODEID p)) ≤ s.now)
    && !(coordinator s p && decide (getF s (F.ETH_PLCA_NODECNT p) ≤ node))

/-- The transmit opportunity of a node begins: the port's own carries a frame that is ready; an idle one lasts TOTMR bit times (R346). -/
def plcaOpportunity (p node : Nat) (s : State) : State :=
  let s := settle p s
  if !turnComes s p node then s else
  let s := modPort p (fun k => { k with turn := node + 1, turnAt := s.now + getF s (F.ETH_PLCA_TOTMR p) * 100 }) (setF (F.ETH_PLCASTAT_CURID p) node s)
  if node ≠ getF s (F.ETH_PLCA_NODEID p) then modPort p (fun k => { k with burst := none }) s else
  match nextFrame s p with
  | some x =>
    if isSet s (F.ETH_STATUS_LINK p) ∧ (s.port p).sending.isNone then
      beginFrame p x (modPort p (fun k => { k with burst := some (getF s (F.ETH_PLCA_MAXBC p)) }) s)
    else s
  | none => modPort p (fun k => { k with burst := none }) s

/-- A BEACON is received: a follower counts from it; a coordinator counts a foreign one (R346, R347). -/
def beaconRx (p : Nat) (s : State) : State :=
  if !isTs p ∨ !isSet s (F.ETH_CTL_EN p) ∨ !isSet s (F.ETH_CTL_PLCAEN p) then s
  else if coordinator s p then raise (A.ETH_EVT p) 5 (statAdd p 0x144 1 s)
  else setPlcaOk p true (setF (F.ETH_PLCASTAT_CURID p) 0
    (modPort p (fun k => { k with beacon := s.now, burst := none, turn := 0, turnAt := s.now }) s))

/-- No BEACON for BCNTMO: the follower uses CSMA/CD (R347). -/
def beaconTimeout (p : Nat) (s : State) : State :=
  if isTs p ∧ isSet s (F.ETH_PLCASTAT_OK p) ∧ !coordinator s p ∧ (s.port p).beacon + 1000 * getF s (F.ETH_PLCATMR_BCNTMO p) ≤ s.now then
    statAdd p 0x144 1 (setPlcaOk p false s)
  else s

/-- What a write to an ETH register starts. -/
def hookEth (i : WInfo) (s : State) : State :=
  let p := instAt i.pa
  match i.pa % 0x10000 with
  | 0x00 => ethCtlWritten p i.old s
  | 0x10 => plcaConfig p s
  | 0x40 => if bitAt i.cmds 31 then cableGo p s else s
  | _ => s

/-- A privileged read of a statistics counter or a station status word clears it (R351, R352). -/
def statsRead (who : Who) (pa : Nat) (s : State) : State :=
  let o := pa % 0x10000
  if !isPriv s who then s
  else if o = 0x100 ∨ o = 0x120 then wr64 pa 0 s
  else if o = 0x104 ∨ o = 0x124 then s
  else if (0x108 ≤ o ∧ o < 0x150) ∨ (0x200 ≤ o ∧ o < 0x240) then wr pa 0 s
  else s

end Sys2Proof.Machine
end

