-- ==== Sys2Proof/Machine/Towpath.lean ====
section
/-! DEFINITION. The Towpath sequencer: frames, cycle, schedule, stations, claims, silent following
(13_towpath R355 to R373, R380, R382). -/

namespace Sys2Proof.Machine

/-- Change what the sequencer holds beside its registers. -/
def modTow (f : Tow → Tow) (s : State) : State := { s with tow := f s.tow }

/-- What the sequencer holds of station `a`. -/
def State.station (s : State) (a : Nat) : Station := vget s.tow.stn a

/-- Change what the sequencer holds of station `a`. -/
def modStn (a : Nat) (f : Station → Station) (s : State) : State :=
  modTow (fun b => { b with stn := vset b.stn a (f (vget b.stn a)) }) s

/-! ### Schedule entries (R362) -/

/-- A field of schedule entry `a`. -/
def sched (s : State) (a word lo w : Nat) : Nat := bitsOf (rd s (0x60081000 + 32 * (a % 256) + 4 * word)).toNat lo w

/-- Entry `a` is valid. -/
def entryValid (s : State) (a : Nat) : Bool := sched s a 0 31 1 == 1

/-- Entry `a` is a slot for a late-coming station. -/
def entrySpare (s : State) (a : Nat) : Bool := sched s a 0 30 1 == 1

/-- PORT of entry `a`. -/
def entryPort (s : State) (a : Nat) : Nat := sched s a 0 24 5

/-- INLEN of entry `a`. -/
def inLen (s : State) (a : Nat) : Nat := sched s a 2 24 7

/-- OUTLEN of entry `a`. -/
def outLen (s : State) (a : Nat) : Nat := sched s a 2 16 7

/-- INOFF of entry `a`, its range within the input area above the device's own bytes (R362). -/
def inOff (s : State) (a : Nat) : Nat := min (max (sched s a 3 0 17) 0x40) (0x20000 - inLen s a)

/-- UID of entry `a`. -/
def entryUid (s : State) (a : Nat) : Nat := rd64 s (0x60081018 + 32 * (a % 256))

/-- PHASE of entry `a`, modulo 2^RED. -/
def entryPhase (s : State) (a : Nat) : Nat := sched s a 0 14 7 % 2 ^ sched s a 0 21 3

/-- State of station `a` (R369). -/
def stnState (s : State) (a : Nat) : Nat := getF s (F.TOW_STN_STATE a)

/-- The stations with an entry. -/
def entries (s : State) : List Nat := (List.range 256).filter (entryValid s)

/-- The sequencer transmits, or is silent (R380). -/
def towRuns (s : State) : Bool := getF s F.TOW_STATUS_STATE == 1

/-- The sequencer is silent. -/
def towSilent (s : State) : Bool := getF s F.TOW_STATUS_STATE == 2

/-- The cycle counter. -/
def towCount (s : State) : Nat := rd64 s A.TOW_CYCNT

/-- Whether station `a` is due in the present cycle: its port is in Towpath use and its counter matches (R361) (log 79). -/
def due (s : State) (a : Nat) : Bool :=
  entryValid s a && isSet s (F.TOW_PORT_CFG_EN (entryPort s a)) && stnState s a != 6
    && towCount s % 2 ^ sched s a 0 21 3 == entryPhase s a

/-- The state counts of TOW_STATUS follow the stations. -/
def syncTow (s : State) : State :=
  setF F.TOW_STATUS_NVALID ((entries s).filter fun a => stnState s a == 2 || stnState s a == 3).length
    (setF F.TOW_STATUS_NLOST ((entries s).filter fun a => stnState s a == 4).length s)

/-! ### Frames (R355 to R360) -/

/-- Payload length the type demands, where it is fixed (R356). -/
def payloadFits (s : State) (a type len : Nat) : Bool :=
  match type with
  | 1 => len == 20
  | 2 => len == outLen s a
  | 3 => len == 0
  | 4 => decide (len ≤ 64)
  | 5 => len == 20
  | 6 => len == 28
  | _ => false

/-- The NETID that enters the SCRC of a type (R356). -/
def netidOf (s : State) (type : Nat) : Nat := if type = 1 ∨ type = 5 ∨ type = 6 then 0 else getF s F.TOW_NETID_NETID

/-- A Towpath frame from VER on: type, address, flags, cycle, consecutive number, payload (R355, R358). -/
def towBody (netid type addr flags cycle consec : Nat) (payload : List Byte) : List Byte :=
  let core := beBytes 1 type ++ beBytes 1 addr ++ beBytes 1 flags ++ beBytes 4 cycle ++ beBytes 2 consec
    ++ beBytes 2 payload.length ++ payload
  let body := b8 1 :: core ++ beBytes 4 (crc32c (beBytes 2 netid ++ core))
  body ++ List.replicate (46 - body.length) 0

/-- Hand a master frame to the Basin: class 7, directed to its port (R363). -/
def sendTow (da port type addr flags consec : Nat) (payload : List Byte) (s : State) : State :=
  let sa := roleMac s + 6
  let body := towBody (netidOf s type) type addr flags (towCount s) consec payload
  offerFrame { src := 34, bytes := beBytes 6 da ++ beBytes 6 sa ++ beBytes 2 (getF s F.TOW_CTL_ETYPE) ++ body,
               cls := some 7, direct := some port } s

/-- The multicast DA of master frames. -/
def towMulticast : Nat := 0x014830000000

/-- A received frame from VER on, after the tag it may carry: type, address, flags, cycle, consecutive number, payload,
the bytes the SCRC covers and the SCRC. -/
structure TowFrame where
  da : Nat
  sa : Nat
  port : Nat
  ver : Nat
  type : Nat
  addr : Nat
  flags : Nat
  cycle : Nat
  consec : Nat
  len : Nat
  payload : List Byte
  covered : List Byte
  scrc : Nat
  whole : Bool
deriving DecidableEq, Repr

/-- Read the fields of a frame handed to port 34. -/
def readTow (f : OutFrame) : TowFrame :=
  let o := if (pcpOf f.bytes).isSome then 4 else 0
  let num := fun (a n : Nat) => beNat (part f.bytes (a + o) n)
  let len := num 24 2
  { da := beNat (part f.bytes 0 6), sa := beNat (part f.bytes 6 6), port := f.src, ver := num 14 1, type := num 15 1,
    addr := num 16 1, flags := num 17 1, cycle := num 18 4, consec := num 22 2, len := len,
    payload := part f.bytes (26 + o) len, covered := part f.bytes (15 + o) (11 + len), scrc := num (26 + len) 4,
    whole := decide (len ≤ 64 ∧ 30 + len + o ≤ f.bytes.length) }

/-- A frame passes R356 and its SCRC. -/
def TowFrame.sound (s : State) (f : TowFrame) : Bool :=
  f.whole && f.ver == 1 && payloadFits s f.addr f.type f.len
    && crc32c (beBytes 2 (netidOf s f.type) ++ f.covered) == f.scrc

/-! ### Inputs of a station (R365, R369) -/

/-- Write the inputs of station `a` with a quality (R365). -/
def writeInputs (a : Nat) (bs : List Byte) (s : State) : State :=
  engineQuality 52 0 (inOff s a) (inLen s a) (if bs.isEmpty then s else engineWrite 52 (inOff s a) bs s)

/-- Change only the quality of the inputs of station `a`. -/
def inputQuality (a code : Nat) (s : State) : State := engineQuality 52 code (inOff s a) (inLen s a) s

/-- The substitute values of station `a`, with quality BAD (R362, R369). -/
def substitute (a : Nat) (s : State) : State :=
  let n := inLen s a
  let base := (rd s A.TOW_SUBBASE).toNat + 64 * a
  let fromTable := sched s a 0 29 1 == 1
  let bad := fromTable && eccOf s base n == 2
  let bs := if fromTable && !bad then bytesAt s base n else List.replicate n 0
  let s := if bad then logBusErr ⟨52, false, none⟩ base false n .ecc 0 s else s
  inputQuality a 2 (if n = 0 then s else engineWrite 52 (inOff s a) bs s)

/-- A station changes state: its source carries the new code (R370); entry to WAITING and LOST substitutes its inputs. -/
def enterState (a v : Nat) (s : State) : State :=
  let old := stnState s a
  let s := setF (F.TOW_STN_STATE a) v s
  let s := if old = v then s else pend (256 + a) v s
  syncTow (if v = 1 ∨ (v = 4 ∧ old ≠ 4) then substitute a s else s)

/-- The task that a lost station stops: one with STOPLOSS that snapshots one of its input bytes (R173 cause 5). -/
def lossTask (s : State) (a : Nat) : Option Nat :=
  (List.range 32).find? fun t =>
    enabled s t && taskF s t (F.SCN_TASK_CTL_STOPLOSS t) == 1 && (snapRanges s t).any fun r =>
      r.src == 0 && decide (r.off < inOff s a + inLen s a ∧ inOff s a < r.off + r.len)

/-- STATION_LOSS: a station enters LOST (R370). -/
def stationLost (a : Nat) (s : State) : State :=
  let s := raise A.TOW_EVT 0 (enterState a 4 s)
  match lossTask s a with
  | some t => controlStop .station (some t) s
  | none => s

/-! ### The cycle (R361, R363) -/

/-- Close the output epoch; forced bytes that waited for its journal are written (R157) (log 78). -/
def closeEpoch (s : State) : State := forcesGo (modScan (fun c => { c with epoch := false, journal := [] }) s)

/-- Due stations of the cycle whose frame has not been handed over. -/
def unsent (s : State) : List Nat := (entries s).filter fun a => due s a && !(s.station a).sent

/-- Whether a frame that can carry outputs, a POLL, is still to be built in this cycle (R361): one of a station in VALID or
MISSED (log 78). -/
def outputsAhead (s : State) : Bool := (unsent s).any fun a => stnState s a == 2 || stnState s a == 3

/-- The epoch closes when the last frame of the cycle that carries outputs has been built (R361) (log 78). -/
def settleEpoch (s : State) : State := if outputsAhead s then s else closeEpoch s

/-- MISWIRE_CHECK: at the cycle end the status bits of every port of the schedule are read and cleared (R371). -/
def miswireCheck (s : State) : State :=
  let ports := ((entries s).map (entryPort s)).eraseDups
  each ports (fun p s =>
    let wrong := (entries s).filter fun a => entryPort s a != p && isSet s ⟨A.ETH_STN p (a / 16), 2 * (a % 16), 1⟩
    let s := each (List.range 16) (fun w => wr (A.ETH_STN p w) 0) s
    each wrong (fun a s => raise A.TOW_EVT 6 (setF F.TOW_MISWIRE_LASTADDR a (satF F.TOW_MISWIRE_COUNT 1 s))) s) s

/-- The SYNC of port `p` (R360). -/
def sendSync (p : Nat) (s : State) : State :=
  let n := getF s (F.TOW_PORT_CFG_SYNCRED p)
  if !isSet s (F.TOW_PORT_CFG_EN p) ∨ towCount s % 2 ^ n ≠ 0 then s else
  sendTow towMulticast p 1 0 0 0 (beBytes 8 s.tow.start ++ beBytes 4 (towPeriod s) ++ beBytes 2 (getF s (F.TOW_PORT_CLAIM_CLAIMOFF p))
    ++ beBytes 2 (getF s (F.TOW_PORT_CLAIM_CLAIMLEN p)) ++ beBytes 1 (if isTs p then getF s (F.TOW_PORT_CFG_CLAIMID p) else 0)
    ++ beBytes 1 n ++ beBytes 2 0) s

/-- TOW_CYCLE_START: C_k at time `t` (R361), which is also the end of the cycle before it (R371) (log 79). A silent sequencer
follows the primary instead (R380). -/
def cycleStart (t : Nat) (s : State) : State :=
  if !towRuns s then s else
  let s := miswireCheck (closeEpoch s)
  let s := wr64 A.TOW_CYCNT ((towCount s + 1) % 2 ^ 64) s
  let s := pend 512 (towCount s) s
  let fresh := fun (x : Station) => { x with sent := false, got := none, payload := [], dup := false, decided := false }
  let s := modTow (fun b => { b with stn := b.stn.map fresh, start := t, done := false }) s
  each (List.range 24) sendSync (modScan (fun c => { c with epoch := outputsAhead s, journal := [] }) s)

/-- An output image byte as the open epoch sees it (R157). -/
def epochByte (s : State) (o : Nat) : Byte :=
  match (if s.scan.epoch then s.scan.journal.find? fun (l, _) => l == o / 64 else none) with
  | some (_, bs) => bs.getD (o % 64) 0
  | none => byteAt s (0x30020000 + o)

/-- The payload of a GRANT for station `a` (R360). -/
def grantPayload (s : State) (a : Nat) : List Byte :=
  let uid := if isSet s (F.TOW_STN_BOUND a) then (s.station a).uid else entryUid s a
  beBytes 8 uid ++ beBytes 4 (getF s F.TOW_HOLD_HOLD) ++ beBytes 2 (sched s a 5 16 16) ++ beBytes 2 (sched s a 5 0 16)
    ++ beBytes 1 (inLen s a) ++ beBytes 1 (outLen s a) ++ beBytes 1 (sched s a 0 21 3) ++ beBytes 1 (entryPhase s a)
    ++ beBytes 2 (getF s F.TOW_NETID_NETID) ++ beBytes 1 (if isTs (entryPort s a) then sched s a 2 0 8 else 0) ++ beBytes 5 0

/-- The type of master frame a station gets (R363): its state decides. -/
def frameType (s : State) (a : Nat) : Nat :=
  let st := stnState s a
  if st = 1 ∨ st = 4 then 6 else if (st = 2 ∨ st = 3) ∧ (s.station a).released then 2 else 3

/-- The next consecutive number: a seed that differs from the last number on the first GRANT, else one more (R359). The
seed is a free value (log 76). -/
def nextConsec (s : State) (a : Nat) : Nat :=
  let x := (s.station a).consec
  if (s.station a).seeded then x % 65535 + 1 else
  let v := freeNat s % 65535 + 1
  if v = x then v % 65535 + 1 else v

/-- TXOFF of entry `a` in ns. -/
def txOff (s : State) (a : Nat) : Nat := 250 * sched s a 1 16 16

/-- RDL of entry `a` in ns, at most PERIOD (R362). -/
def rdl (s : State) (a : Nat) : Nat := 250 * min (sched s a 1 0 16) (getF s F.TOW_PERIOD_PERIOD)

/-- At C_k + TXOFF the sequencer hands the frame of station `a` over; frames of one port and instant go in ascending
address order (R363) (log 76, 78). -/
def masterFrame (a : Nat) (s : State) : State :=
  let earlier := (unsent s).any fun b => decide (b < a) && entryPort s b == entryPort s a && txOff s b == txOff s a
  if !towRuns s ∨ !(unsent s).contains a ∨ earlier ∨ time s < s.tow.start + txOff s a then s else
  let type := frameType s a
  let consec := nextConsec s a
  let s := if (s.station a).seeded then s else usedFree s
  let (lo, n) := towOut s a
  let payload := match type with
    | 6 => grantPayload s a
    | 2 => (List.range n).map fun k => epochByte s (lo + k)
    | _ => []
  let flags := bit (type == 2 && getF s F.SCN_STATUS_CSTATE == 3)
  let da := if type = 6 then (s.station a).claimant.getD towMulticast else towMulticast
  let s := sendTow da (entryPort s a) type a flags consec payload s
  let s := modStn a (fun x => { x with consec := consec, seeded := true, kind := type, sent := true, claimant := if type = 6 then none else x.claimant }) s
  settleEpoch s

/-! ### Replies (R364, R365) -/

/-- Count a failed check in the TOW counters (R382) (log 62). -/
def countCause (cause : Nat) (s : State) : State :=
  match cause with
  | 1 => satF F.TOW_ENVERR_HI 1 s
  | 2 => satF F.TOW_ENVERR_LO 1 s
  | 3 => satF F.TOW_SEQERR_HI 1 s
  | 4 => satF F.TOW_SEQERR_LO 1 s
  | 5 => satF F.TOW_ENVERR_LO 1 s
  | 6 => satF F.TOW_LATECNT_LO 1 s
  | 7 => satF F.TOW_LATECNT_HI 1 s
  | _ => s

/-- The first check of R364 that a reply fails, in the order of the cause table; 0 for a good reply (log 62). -/
def replyCause (s : State) (f : TowFrame) : Nat :=
  let x := s.station f.addr
  if !f.sound s || !(f.type == 3 || f.type == 4) then 1
  else if !entryValid s f.addr || entryPort s f.addr != f.port then 2
  else if !due s f.addr || f.cycle != towCount s % 2 ^ 32 then 3
  else if !x.sent || f.consec != x.consec then 4
  else if f.type == 4 && f.len != inLen s f.addr then 5
  else if x.decided || decide (s.tow.start + rdl s f.addr < time s) then 6
  else if x.got.isSome then 7
  else 0

/-- Whether every due station has given a good reply, or the latest RDL of the cycle has come and every outcome is decided (R361). -/
def allAnswered (s : State) : Bool :=
  let ds := (entries s).filter (due s)
  ds.all (fun a => (s.station a).got.isSome) ||
    ds.all fun a => ((s.station a).got.isSome || (s.station a).decided) && decide (s.tow.start + rdl s a ≤ time s)

/-- Source 513 fires once in a cycle (R361) (log 79). -/
def cycleDone (s : State) : State :=
  if s.tow.done ∨ !allAnswered s then s else pend 513 (towCount s) (modTow (fun b => { b with done := true }) s)

/-- A reply fails a check: it is counted, and charged to the station its ADDR names (R364). -/
def replyFails (f : TowFrame) (cause : Nat) (s : State) : State :=
  let s := raise A.TOW_EVT (if cause = 7 then 5 else 4) (countCause cause s)
  if cause = 1 ∨ !entryValid s f.addr then s else
  modStn f.addr (fun x => { x with bad := (x.bad + 1) % 2 ^ 32, dup := x.dup || cause == 7 })
    (setF (F.TOW_STN_CAUSE f.addr) cause s)

/-- A good reply: counted and, from a station in VALID or MISSED, written to its inputs (R365). -/
def replyGood (f : TowFrame) (s : State) : State :=
  let s := modStn f.addr (fun x => { x with got := some f.type, payload := f.payload, good := (x.good + 1) % 2 ^ 32, lastCycle := f.cycle }) s
  let s := setF (F.TOW_STN_RFLAGS f.addr) f.flags s
  let s := if f.type = 4 ∧ (stnState s f.addr = 2 ∨ stnState s f.addr = 3) then writeInputs f.addr f.payload s else s
  cycleDone s

/-- The oldest frame handed to port 34, where its type is one a row deals with. -/
def towHead (s : State) (p : TowFrame → Bool) : Option TowFrame :=
  match s.tow.inbox with
  | f :: _ => if p (readTow f) then some (readTow f) else none
  | [] => none

/-- The oldest frame is taken from port 34. -/
def towPop (s : State) : State := modTow (fun b => { b with inbox := b.inbox.tail }) s

/-- A master frame, as a silent sequencer hears it: SYNC, POLL, GRANT, or NULL to the stations' group address. -/
def TowFrame.master (f : TowFrame) : Bool :=
  f.type == 1 || f.type == 2 || f.type == 6 || (f.type == 3 && f.da == towMulticast)

/-- A station's reply reaches the sequencer (R364, R380). -/
def towReply (s : State) : State :=
  match towHead s fun f => f.type != 5 && !(towSilent s && f.master) with
  | none => s
  | some f =>
    let s := towPop s
    if towSilent s then satF F.TOW_SILENTRX_COUNT 1 s
    else if !towRuns s then s
    else match replyCause s f with
      | 0 => replyGood f s
      | c => replyFails f c s

/-! ### Outcome of a cycle (R369 to R371) -/

/-- The diagnostic record of station `a` (R365). -/
def diagRecord (a : Nat) (s : State) : State :=
  let x := s.station a
  engineWrite 52 (0xD0000 + 16 * getF s F.TOW_DIAG_OFF + 16 * a)
    ([b8 (stnState s a), b8 (getF s (F.TOW_STN_RFLAGS a)), b8 (getF s (F.TOW_STN_MISSRUN a)), b8 (getF s (F.TOW_STN_CAUSE a))]
      ++ leBytes 4 x.good ++ leBytes 4 x.bad ++ leBytes 4 x.lastCycle) s

/-- What a cycle brought for a station: a good REPLY, a good NULL or a miss. -/
inductive Outcome where
  | reply | null | miss
deriving DecidableEq, Repr

/-- The outcome of the present cycle for station `a`: a second reply makes it a miss (R365). -/
def outcome (s : State) (a : Nat) : Outcome :=
  let x := s.station a
  if x.dup then .miss else match x.got with
  | some 4 => .reply
  | some _ => .null
  | none => .miss

/-- The state table of R369. -/
def stateTable (a : Nat) (o : Outcome) (s : State) : State :=
  let n := getF s (F.TOW_STN_MISSRUN a)
  let nmiss := sched s a 0 10 4
  let setN := fun (v : Nat) => setF (F.TOW_STN_MISSRUN a) v
  match stnState s a, o with
  | 1, .reply => enterState a 5 s
  | 1, .null => setN 0 s
  | 1, .miss => if nmiss ≤ n + 1 then stationLost a (setN (n + 1) s) else setN (n + 1) s
  | 2, .reply => s
  | 2, .null => inputQuality a 1 s
  | 2, .miss => if nmiss ≤ 1 then stationLost a (setN 1 s) else inputQuality a 1 (enterState a 3 (setN 1 s))
  | 3, .reply => enterState a 2 (setN 0 s)
  | 3, .null => inputQuality a 1 (enterState a 2 (setN 0 s))
  | 3, .miss => if nmiss ≤ n + 1 then stationLost a (setN (n + 1) s) else inputQuality a 1 (setN (n + 1) s)
  | 4, .reply => enterState a 5 s
  | 5, .reply => raise A.TOW_EVT 1 (enterState a 2 (writeInputs a (s.station a).payload (setN 0 s)))
  | 5, _ => stationLost a s
  | _, _ => s

/-- At the RDL of due station `a` the outcome of its cycle is decided (R365, R369). -/
def replyDeadline (a : Nat) (s : State) : State :=
  if !towRuns s ∨ !due s a ∨ (s.station a).decided ∨ time s < s.tow.start + rdl s a then s else
  let o := outcome s a
  let s := modStn a (fun x => { x with decided := true }) s
  cycleDone (diagRecord a (stateTable a o s))

/-! ### Claims (R372, R373) -/

/-- Record a refused claim (log 77). -/
def claimRefused (reason : Nat) (s : State) : State :=
  raise A.TOW_EVT 3 (setF F.TOW_CLAIMLOG_RESULT 2 (setF F.TOW_CLAIMLOG_REASON reason s))

/-- Why an entry does not take a claim: 0 where it does (R372) (log 77). -/
def claimReason (s : State) (a : Nat) (f : TowFrame) (uid : Nat) : Nat :=
  if !entryValid s a || !entrySpare s a || entryPort s a != f.port then 1
  else if isSet s (F.TOW_STN_BOUND a) && (s.station a).uid != uid then 2
  else if beNat (part f.payload 8 1) != inLen s a || beNat (part f.payload 9 1) != outLen s a then 3
  else if uid == 0 || (entryUid s a != 0 && entryUid s a != uid) then 4
  else 0

/-- A granted claim binds its entry, which enters WAITING (R372); where the entry's slot of this cycle has passed, the next cycle
in which it is due is its first. -/
def claimBinds (a uid sa : Nat) (s : State) : State :=
  let s := setF F.TOW_CLAIMLOG_RESULT 1 (setF F.TOW_CLAIMLOG_REASON 0 s)
  let past := decide (s.tow.start + txOff s a < time s)
  let s := modStn a (fun x => { x with uid := uid, claimant := some sa, sent := x.sent || past, decided := x.decided || past })
    (setF (F.TOW_STN_BOUND a) 1 s)
  enterState a 1 (setF (F.TOW_STN_MISSRUN a) 0 s)

/-- A CLAIM reaches the sequencer (R372). -/
def claimRx (s : State) : State :=
  match towHead s fun f => f.type == 5 with
  | none => s
  | some f =>
    let s := towPop s
    if !towRuns s then s else
    let uid := beNat (part f.payload 0 8)
    let s := raise A.TOW_EVT 2 (pend 514 f.addr s)
    let s := wr64 A.TOW_CLAIMUID uid (setF F.TOW_CLAIMPROD_PRODUCT (beNat (part f.payload 12 4)) s)
    let s := setF F.TOW_CLAIMLOG_ADDR f.addr (setF F.TOW_CLAIMLOG_PORT f.port s)
    if !f.sound s ∨ !(f.cycle = towCount s % 2 ^ 32 ∨ (f.cycle + 1) % 2 ^ 32 = towCount s % 2 ^ 32) then claimRefused 5 s
    else if bitAt f.flags 0 then
      match (entries s).find? fun a => !isSet s (F.TOW_STN_BOUND a) && claimReason s a f uid == 0 with
      | some a => claimBinds a uid f.sa s
      | none => claimRefused 1 s
    else match claimReason s f.addr f uid with
      | 0 => claimBinds f.addr uid f.sa s
      | r => claimRefused r s

/-- TOW_CMD REGRANT: the entry enters WAITING; an unbound spare is sent nothing and stays (R372). -/
def regrant (a : Nat) (s : State) : State :=
  if getF s F.TOW_STATUS_STATE = 0 ∨ !entryValid s a ∨ stnState s a = 6 then s else
  enterState a 1 (setF (F.TOW_STN_MISSRUN a) 0 s)

/-- TOW_CMD RELEASE: a bound spare returns to SPARE (R373). -/
def towRelease (a : Nat) (s : State) : State :=
  if getF s F.TOW_STATUS_STATE = 0 ∨ !isSet s (F.TOW_STN_BOUND a) then s else
  let s := modStn a (fun x => { x with uid := 0, claimant := none }) (setF (F.TOW_STN_BOUND a) 0 s)
  enterState a 6 (setF (F.TOW_STN_MISSRUN a) 0 s)

/-! ### Enabling, silence and takeover (R369, R380) -/

/-- The pair states in which the sequencer is silent (R206). -/
def pairSilent (s : State) : Bool := [1, 3, 4, 5].contains (getF s F.LKH_SBYSTAT_STATE)

/-- EN becomes 1: stations wait, their inputs substituted; the unit is taken (R361, R369). Nothing is due before the next C_k. -/
def towEnable (s : State) : State :=
  let s := setF F.TOW_STATUS_STATE (if pairSilent s then 2 else 1) s
  let fresh := fun (x : Station) =>
    { Station.reset with consec := x.consec, good := x.good, bad := x.bad, lastCycle := x.lastCycle, sent := true, decided := true }
  let s := modTow (fun b => { b with stn := b.stn.map fresh, done := false }) s
  let s := each (List.range 256) (fun a s =>
    let s := wr (A.TOW_STN a) 0 s
    if !entryValid s a then s else enterState a (if entrySpare s a then 6 else 1) s) s
  resolveUnits (syncTow s)

/-- EN becomes 0: the sequencer stops and lets its unit go. -/
def towDisable (s : State) : State := resolveUnits (closeEpoch (setF F.TOW_STATUS_STATE 0 s))

/-- The full counter whose low word a followed frame carries: the high word goes on where the low word has wrapped (log 80). -/
def followCount (old cycle : Nat) : Nat :=
  old / 2 ^ 32 * 2 ^ 32 + cycle + (if cycle + 2 ^ 31 ≤ old % 2 ^ 32 then 2 ^ 32 else 0)

/-- The UID a followed GRANT carries for a reserved slot, which that GRANT shows to be bound (log 80). -/
def heardUid (s : State) (f : TowFrame) (x : Station) : Nat :=
  if f.type = 6 ∧ entrySpare s f.addr then beNat (part f.payload 0 8) else x.uid

/-- A silent sequencer follows a master frame of the primary: its counter and, for a station, its number (R380) (log 80). -/
def silentFollow (s : State) : State :=
  match towHead s fun f => towSilent s && f.master with
  | none => s
  | some f =>
    let s := towPop s
    if !f.sound s then s else
    let s := wr64 A.TOW_CYCNT (followCount (towCount s) f.cycle) s
    if f.type = 1 then s else
    modStn f.addr (fun x => { x with consec := f.consec, seeded := true, kind := f.type, uid := heardUid s f x }) s

/-- A station starts under the new primary (R380): one last sent POLL in VALID with quality UNCERTAIN (R214), any other in
WAITING; a reserved slot that was sent nothing stays in SPARE, one that was sent frames is bound (log 80). -/
def takeStation (a : Nat) (s : State) : State :=
  let x := s.station a
  if stnState s a = 6 ∧ !x.seeded then s else
  let s := if stnState s a = 6 then setF (F.TOW_STN_BOUND a) 1 s else s
  let s := setF (F.TOW_STN_MISSRUN a) 0
    (modStn a (fun x => { x with consec := if x.seeded then x.consec % 65535 + 1 else x.consec, sent := true, decided := true }) s)
  if x.kind = 2 then inputQuality a 1 (enterState a 2 s) else enterState a 1 s

/-- The sequencer becomes the transmitting one (R380, R213), from the next C_k on; each number goes on with the last heard plus 2
(log 80). -/
def towTakeover (s : State) : State :=
  if !towSilent s then s else syncTow (each (entries s) takeStation (setF F.TOW_STATUS_STATE 1 s))

/-- The sequencer of a device that is no longer primary falls silent (R206). -/
def towSilence (s : State) : State := if towRuns s then closeEpoch (setF F.TOW_STATUS_STATE 2 s) else s

/-- What a write to a TOW register starts; the state of an entry that is not valid is OFF (R382). -/
def hookTow (i : WInfo) (s : State) : State :=
  if i.pa = A.TOW_CTL then
    if bitAt i.new 31 ∧ !bitAt i.old 31 then towEnable s
    else if !bitAt i.new 31 ∧ bitAt i.old 31 then towDisable s
    else resolveUnits s
  else if i.pa = A.TOW_PERIOD then
    let v := getF s F.TOW_PERIOD_PERIOD - 1
    if v < getF s F.TOW_PHASE_PHASE then clampLog i.who A.TOW_PHASE (setF F.TOW_PHASE_PHASE v s) else s
  else if i.pa = A.TOW_CMD ∧ bitAt i.cmds 31 then
    if getF s F.TOW_CMD_OP = 1 then towRelease (getF s F.TOW_CMD_ADDR) s else regrant (getF s F.TOW_CMD_ADDR) s
  else match copyAt 0x60081000 32 256 i.pa with
  | some a => if bitAt i.new 31 then s else syncTow (setF (F.TOW_STN_STATE a) 0 s)
  | none => s

end Sys2Proof.Machine
end

