-- ==== Sys2Proof/Machine/Restart.lean ====
section
/-! DEFINITION. Warm and cold restart, the abort timeout of a stop and the scan commands (05_scan_cycle R174 to R178). -/

namespace Sys2Proof.Machine

/-- The windows of a task in a role: (retentive, first byte, end) each. -/
def windowsOf (s : State) (t role : Nat) : List (Bool × Nat × Nat) :=
  let first := taskF s t (F.SCN_TASK_SEG_FIRST t)
  (List.range (taskF s t (F.SCN_TASK_SEG_COUNT t))).flatMap fun k =>
    match (readSegment 49 role (first + k) s).2 with
    | .ok (_, _, wins) => wins
    | .error _ => []

/-- The windows of a task in one of its roles are written with their initial values from slot `n` (R176 step 2). -/
def initWindows (n t role : Nat) (s : State) : State :=
  if 5 ≤ reachOf s role then s else
  let mems := roleMem s n role
  each (windowsOf s t role) (fun (_, lo, hi) s => roleWords role lo ((List.range (hi - lo)).map fun k => roleInit mems (lo + k)) s) s

/-- Every window of every role takes its initial values. -/
def initAllWindows (s : State) : State :=
  match loadedSlot s with
  | some n => each (List.range 32) (fun t s => each (taskRoles s t) (initWindows n t) s) s
  | none => s

/-- Write a retentive line of a task into the reaches of its roles. -/
def putRetLine (t line : Nat) (bs : List Byte) (s : State) : State :=
  each (taskRoles s t) (fun r s => roleWords r (64 * line) bs s) s

/-- Write a whole retentive buffer: the lines, then the header with a generation (R176). -/
def writeRetBuffer (b gen : Nat) (lines : List (List Byte)) (s : State) : State :=
  let s := each lines.zipIdx (fun (bs, k) => putBytes (retBase b + 0x40 + 64 * k) bs) s
  putBytes (retBase b) (retHeader gen) s

/-- The newest valid retentive buffer (R167). -/
def newestRet (s : State) : Option Nat :=
  match retValid s 0, retValid s 1 with
  | true, true => if retGen s 0 < retGen s 1 then some 1 else some 0
  | true, false => some 0
  | false, true => some 1
  | false, false => none

/-- Step 3 of a restart that keeps retentive data: the lines come from the newest buffer, which is copied into the other. -/
def restoreRet (b : Nat) (s : State) : State :=
  let ls := retLines s
  let data := ls.zipIdx.map fun (_, k) => bytesAt s (retBase b + 0x40 + 64 * k) 64
  let s := each (ls.zip data) (fun ((t, _, line), bs) => putRetLine t line bs) s
  writeRetBuffer (1 - b) (retGen s b + 1) data s

/-- Step 3 of a restart without retentive data: the initial values go into both buffers. -/
def freshRet (s : State) : State :=
  let data := (retLines s).map fun (_, role, line) => (lineCells line).map (staged s role)
  writeRetBuffer 1 2 data (writeRetBuffer 0 1 data s)

/-- A restart begins (R176 step 1 and 2): control stops where it runs, parked reaches wake (R262), CSTATE is STARTING. Where a role is held
by no reach it stops again at once (R29). -/
def restartStart (warm : Bool) (s : State) : State :=
  let s := controlStop .command none s
  let s := each (List.range 5) wakeReach s
  let s := setF F.SCN_STATUS_CSTATE 1 (modScan (fun c => { c with restart := some warm }) s)
  if (List.range 4).any fun r => decide (5 ≤ reachOf s r) then controlStop .reach none s else s

/-- A scan command is taken: 4 COLD, 2 WARM, 1 STOP. It waits before READY and while another runs; after READY in LOAD it
has no effect (log 169). -/
def scanCommand (op : Nat) (s : State) : State :=
  if !isSet s F.SYS_STATUS_READY ∨ (getF s F.SCN_STATUS_CSTATE = 1) then
    modScan (fun c => { c with waitCmd := c.waitCmd ++ [op] }) s
  else if getF s F.SCN_STATUS_CSTATE = 0 then s
  else if op = 1 then controlStop .command none s
  else restartStart (op == 2) s

/-- The highest-numbered command of a write to SCN_CMD. -/
def topCommand (cmds : Nat) : Nat := if bitAt cmds 2 then 4 else if bitAt cmds 1 then 2 else if bitAt cmds 0 then 1 else 0

/-- The commands that waited act in order, up to one that starts a restart, behind which the others go on waiting (log 169). -/
def takeWaiting (s : State) : State := each s.scan.waitCmd scanCommand (modScan (fun c => { c with waitCmd := [] }) s)

/-- A restart finishes its steps once no retentive write is running or queued and no reach of a role is waking (R176, R177, R262): windows,
retentive lines, force masks, then RUN with CYCNO 0; the unit of each cyclic task is programmed. Where a restart has been given up (R29), a
command that waited behind it acts. -/
def restartComplete (s : State) : State :=
  match s.scan.restart with
  | none => takeWaiting s
  | some warm =>
    if getF s F.SCN_STATUS_CSTATE ≠ 1 ∨ s.scan.retRun.isSome ∨ s.scan.retQueue.isSome
      ∨ (List.range 4).any (fun r => decide (2 ≤ getF s (F.RCH_PWR_PSTATE (reachOf s r)))) then s else
    let s := initAllWindows s
    let newest := if warm then newestRet s else none
    let bad := warm && newest.isNone
    let s := match newest with
      | some b => restoreRet b s
      | none => freshRet s
    let clean := (retLines s).map fun (_, role, line) => (role, line)
    let s := modScan (fun c => { c with clean0 := clean, clean1 := clean }) s
    let s := if bad then raise A.SCN_EVT 5 s else s
    let s := if warm then s else forceDone s (getF s F.SCN_FORCECMD_RESULT) (clearArea 1 (clearArea 0 s))
    let now := time s
    let start := fun (t : Nat) (s : State) =>
      let s := wr (A.SCN_TASK_CYCNO t) 0 s
      let s := modTask t (fun k => { k with held := false, first := true, warm := warm, retbad := bad, prevLatch := none, firstLatch := now + 100000, ahead := 0, lateRun := 0, lateCyc := 0 }) (setF (F.SCN_TASK_TSTAT_LATECNT t) 0 s)
      setTaskState t (if enabled s t then 1 else 0) s
    let s := each (List.range 32) start s
    let s := setF F.SCN_STATUS_CSTATE 2 (modScan (fun c => { c with restart := none }) s)
    let s := { s with fio := { s.fio with tag := Vector.replicate 16 0 } }
    let s := each ((List.range 16).filter (enabled s)) (fun t => programTask t (now + 100000)) (resolveUnits s)
    takeWaiting s

/-- ABORTTMO after a stop the cores still running a segment item are reset (R174) (log 53). -/
def abortTimeout (s : State) : State :=
  if !s.scan.aborting ∨ time s < rd64 s A.SCN_STOPTIME + 1000 * getF s F.SCN_WDCTL_ABORTTMO then s else
  let busy := fun (s : State) (i : Nat) => (s.core i).running.any fun (_, r) => r.segment.isSome
  each ((List.range 40).filter (busy s)) coreReset (modScan (fun c => { c with aborting := false }) s)

/-- What SCN_FORCECMD.GO starts: OP 0 SET, 1 CLR, 2 CLRALL, 3 LIST (R170). `n` is the number of list entries. -/
def forceCommand (s : State) : State :=
  let area := getF s F.SCN_FORCECMD_AREA
  let off := getF s F.SCN_FORCECMD_OFFSET
  let mask := getF s F.SCN_FORCEARG_MASK
  match getF s F.SCN_FORCECMD_OP with
  | 0 => forceSet area off mask (getF s F.SCN_FORCEARG_VALUE) s
  | 1 => forceClr area off mask s
  | 2 => forceClrAll area s
  | _ => forceList (8 * getF s F.SCN_FORCELIST_ADDR) off s

end Sys2Proof.Machine
end

