-- ==== Sys2Proof/Machine/Worri.lean ====
section
/-! DEFINITION. The Worri fabric: links, packets, discovery, forwarding, tunnelled frames, fabric time, last gasp
(16_worri R419 to R440). -/

namespace Sys2Proof.Machine

/-- Change what the WFB holds. -/
def modWfb (f : Wfb → Wfb) (s : State) : State := { s with wfb := f s.wfb }

/-- What link `n` holds. -/
def State.wl (s : State) (n : Nat) : WLink := vget s.wfb.links n

/-- Change what link `n` holds. -/
def modWl (n : Nat) (f : WLink → WLink) (s : State) : State :=
  modWfb (fun b => { b with links := vset b.links n (f (vget b.links n)) }) s

/-- The device's 128-bit unique ID. -/
def ownUid (s : State) : Nat := (List.range 4).foldl (fun n i => n + (rd s (A.SYS_UID i)).toNat * 2 ^ (32 * i)) 0

/-- The device's fabric ID. -/
def ownId (s : State) : Nat := getF s F.WFB_STATUS_OWNID

/-- State of link `n`: 0 DOWN, 1 TRAIN, 2 ACTIVE, 3 DISABLED. -/
def wlState (s : State) (n : Nat) : Nat := getF s (F.WFB_LINK_STAT_STATE n)

/-- The ACTIVE links. -/
def wlActive (s : State) : List Nat := (List.range 4).filter fun n => wlState s n == 2

/-- Change the state of a link; every change raises LINK (R420). -/
def setWl (n v : Nat) (s : State) : State :=
  if wlState s n = v then s else
  raise A.WFB_EVT 0 (setF ⟨A.WFB_STATUS, 12 + n, 1⟩ (bit (v == 2)) (setF (F.WFB_LINK_STAT_STATE n) v s))

/-- A link is enabled while EN and its LINKEN bit are 1 (R420). -/
def wlEnabled (s : State) (n : Nat) : Bool := isSet s F.WFB_CTL_EN && bitAt (getF s F.WFB_CTL_LINKEN) n

/-- STATIC mode (R430). -/
def staticMode (s : State) : Bool := isSet s F.WFB_CTL_MODE

/-- One HELLO period in ns (R425). -/
def helloNs (s : State) : Nat := 1000 * getF s F.WFB_TIMER_HELLO

/-- Periods without news after which a neighbour or a root is dropped, in ns. -/
def nbrNs (s : State) : Nat := getF s F.WFB_TIMER_NBRTMO * helloNs s

/-! ### Blocks and packets (R419, R421 to R424) -/

/-- A control block on link `n`: its type and the remaining 56 bits. -/
def emitBlock (n type v : Nat) (s : State) : State := emit (.worri n) (b8 type :: beBytes 7 v) s

/-- An LCTL block: OP and the bits below it. -/
def emitLctl (n op v : Nat) (s : State) : State := emitBlock n 0xC3 (op * 2 ^ 52 + v) s

/-- Data blocks of a packet. -/
def Packet.nblk (p : Packet) : Nat := max 1 ((p.payload.length + 7) / 8)

/-- All blocks of a packet. -/
def Packet.blocks (p : Packet) : Nat := p.nblk + 2

/-- The bytes of a packet on the wire: START, data, END with the CRC-32 and `blocks` credits returned to channel `vc` (R419, R421). -/
def Packet.wire (p : Packet) (vc : Nat := 0) (blocks : Nat := 0) : List Byte :=
  let padb := 8 * p.nblk - p.payload.length
  let head := beBytes 7 (p.vc * 2 ^ 53 + p.seq * 2 ^ 41 + p.nblk * 2 ^ 32 + p.dst * 2 ^ 20 + p.src * 2 ^ 8 + p.hops * 4 + 2 * bit p.epb)
  let body := p.payload ++ List.replicate padb 0
  b8 0xD2 :: head ++ body ++ b8 0xE1 :: beBytes 7 (padb * 2 ^ 53 + crc32 (head ++ body) * 2 ^ 21 + vc * 2 ^ 18 + blocks * 2 ^ 7)

/-- Whether a received block counts as an error: an invalid sync header, or a control block of a type that R419 does not list (log 164). -/
def RxBlock.bad (b : RxBlock) : Bool :=
  if b.sync = 1 then false else b.sync != 2 || !([0x1E, 0xD2, 0xE1, 0xC3, 0xB4].contains b.type)

/-- A time stamp goes into a message as its START block leaves: t1 of TIMEREQ, t3 of TIMERESP, the parent's TIME of TIMESYNC (R434). -/
def Packet.leaving (p : Packet) (t : Nat) : Packet :=
  let put := fun (k : Nat) => { p with payload := p.payload.take k ++ beBytes 8 t ++ p.payload.drop (k + 8) }
  if p.vc ≠ 0 then p else
  match beNat (part p.payload 0 1) with
  | 8 => put 1
  | 9 => put 17
  | 10 => put 1
  | _ => p

/-- A packet's START leaves on link `n`: a TIMEREQ is the one now in progress, with its stamp as t1. -/
def emitPacket (n : Nat) (p : Packet) (vc blocks : Nat) (s : State) : State :=
  let s := if p.vc = 0 ∧ beNat (part p.payload 0 1) = 8 then modWfb (fun b => { b with timeReq := some (time s) }) s else s
  emit (.worri n) (p.wire vc blocks) s

/-- `k` blocks of channel `vc` have left the receive buffer of link `n`; they are returned in the next END or CREDIT block (R422). -/
def release (n vc k : Nat) (s : State) : State :=
  if 4 ≤ n ∨ wlState s n ≠ 2 then s else modWl n (fun x => { x with owed := vset x.owed vc (vget x.owed vc + k) }) s

/-- The credits that no END block has returned go out in CREDIT blocks (R422). -/
def creditTick (s : State) : State :=
  each (wlActive s) (fun n s =>
    each ((List.range 5).filter fun vc => vget (s.wl n).owed vc != 0) (fun vc s =>
      modWl n (fun x => { x with owed := vset x.owed vc 0 }) (emitLctl n 3 (vc * 2 ^ 49 + vget (s.wl n).owed vc * 2 ^ 38) s)) s) s

/-- Buffer sizes of the virtual channels (R422). -/
def vcBlocks : List Nat := [64, 512, 128, 512, 768]

/-- Credits that a packet needs to start: all its blocks; a packet larger than the whole buffer of its channel starts once it holds all
credits of the channel (R422) (log 163). -/
def Packet.needs (p : Packet) : Nat := min p.blocks (vcBlocks.getD p.vc 0)

/-- The oldest waiting packet of a channel that the credits and the replay buffer let start (log 163). -/
def startable (s : State) (n vc : Nat) : Option Waiting :=
  let x := s.wl n
  match x.txq.find? (·.pkt.vc == vc) with
  | some q =>
    if q.pkt.needs ≤ vget x.credits vc ∧ x.replay.foldl (fun k u => k + u.pkt.blocks) 0 + q.pkt.blocks ≤ 2048 then some q else none
  | none => none

/-- The packet sent next: MGMT, RESP, then POSTED, READ and FRAME in turn (R423). -/
def nextPacket (s : State) (n : Nat) : Option Waiting :=
  let order := match (s.wl n).turn with
    | 1 => [0, 3, 2, 4, 1]
    | 2 => [0, 3, 4, 1, 2]
    | _ => [0, 3, 1, 2, 4]
  order.findSome? (startable s n)

/-- The channel with blocks to return, and how many. -/
def WLink.owes (x : WLink) : Nat × Nat :=
  match (List.range 5).find? fun vc => vget x.owed vc != 0 with
  | some vc => (vc, vget x.owed vc)
  | none => (0, 0)

/-- Send what can be sent on link `n`: each packet leaves the receive buffer it came in, and its END block returns credits. -/
def pump (n : Nat) : Nat → State → State
  | 0, s => s
  | fuel + 1, s =>
    if wlState s n ≠ 2 then s else
    match nextPacket s n with
    | none => s
    | some w =>
      let p := { w.pkt with seq := (s.wl n).txSeq }.leaving (time s)
      let turn := if p.vc = 0 ∨ p.vc = 3 then (s.wl n).turn else p.vc
      let take := fun (x : WLink) => { x with txq := x.txq.erase w, replay := x.replay ++ [⟨p, s.now⟩], txSeq := (x.txSeq + 1) % 4096 }
      let pay := fun (x : WLink) => { x with credits := vset x.credits p.vc (vget x.credits p.vc - p.needs), turn := turn }
      let s := release w.link p.vc p.blocks (modWl n (fun x => pay (take x)) s)
      let o := (s.wl n).owes
      pump n fuel (emitPacket n p o.1 o.2 (modWl n (fun x => { x with owed := vset x.owed o.1 0 }) s))

/-- Queue a packet on link `n` that came in on link `from'` (4: none), and send what can be sent. -/
def queueFrom (from' n : Nat) (p : Packet) (s : State) : State :=
  let s := modWl n (fun x => { x with txq := x.txq ++ [⟨p, from'⟩] }) s
  pump n (s.wl n).txq.length s

/-- Queue a packet on link `n` that holds no receive buffer. -/
def queuePacket (n : Nat) (p : Packet) (s : State) : State := queueFrom 4 n p s

/-- A packet of this device. -/
def ownPacket (s : State) (vc dst : Nat) (payload : List Byte) : Packet :=
  { vc := vc, seq := 0, dst := dst, src := ownId s, hops := 0, epb := bitAt (getF s F.WFB_EPOCH_EPOCH) 0, payload := payload }

/-- A management message on link `n`. -/
def sendMgmt (n dst : Nat) (payload : List Byte) (s : State) : State := queuePacket n (ownPacket s 0 dst payload) s

/-! ### The tree and the root (R425, R429, R430) -/

/-- The links that carry management messages along the tree: the parent link and those whose neighbour names this device
as parent. -/
def liveTree (s : State) : List Nat :=
  (wlActive s).filter fun n =>
    if staticMode s then isSet s (F.WFB_LINK_CTL_FRAMES n)
    else s.wfb.parent == some n || (match (s.wl n).nbr with | some x => x.parent == x.link | none => false)

/-- Neighbours whose root may be adopted: ACTIVE link, DIST within bounds, ROOTSEQ advancing. -/
def candidates (s : State) : List (Nat × Neighbour) :=
  (wlActive s).filterMap fun n => match (s.wl n).nbr with
    | some x => if x.dist + 1 ≤ 32 ∧ s.now ≤ x.advanced + nbrNs s then some (n, x) else none
    | none => none

/-- Whether (a, b) comes before (c, d). -/
def before (a b c d : Nat) : Bool := decide (a < c) || (decide (a = c) && decide (b < d))

/-- Choose root, distance and parent (R425). -/
def selectRoot (s : State) : State :=
  if staticMode s ∨ !isSet s F.WFB_CTL_EN then s else
  let own := (getF s F.WFB_CTL_PRIO, ownUid s)
  let cs := candidates s
  let best := cs.foldl (fun (b : Nat × Nat) (c : Nat × Neighbour) => if before c.2.rootPrio c.2.rootUid b.1 b.2 then (c.2.rootPrio, c.2.rootUid) else b) own
  let mine := cs.filter fun c => c.2.rootPrio == best.1 && c.2.rootUid == best.2
  let parent := if best = own then none else mine.foldl (fun (p : Option (Nat × Neighbour)) c => match p with
    | none => some c
    | some q => if before c.2.dist c.2.uid q.2.dist q.2.uid then some c else some q) none
  let dist := match parent with | some (_, x) => x.dist + 1 | none => 0
  let seq := match parent with | some (_, x) => x.rootSeq | none => s.wfb.rootSeq
  let moved := (s.wfb.rootPrio, s.wfb.rootUid) ≠ best
  let s := modWfb (fun b => { b with rootPrio := best.1, rootUid := best.2, rootSeq := seq, parent := parent.map (·.1) }) s
  let s := setF F.WFB_STATUS_DIST dist (setF F.WFB_STATUS_ROOT (bit parent.isNone) s)
  let s := setF F.WFB_TSTAT_MASTER (bit parent.isNone) (setF F.WFB_TSTAT_TLINK ((parent.map (·.1)).getD 0) s)
  let s := each (List.range 4) (fun i => wr (A.WFB_ROOTUID i) (w32 (best.2 / 2 ^ (32 * i)))) s
  let s := each (wlActive s) (fun n s => match (s.wl n).nbr with
    | some x => setF (F.WFB_LINK_STAT_UP n) (bit (before x.dist x.uid dist own.2)) s
    | none => s) s
  if moved then setF F.WFB_STATUS_DSTATE 1 (modWfb (fun b => { b with changed := s.now, collect := none, acks := none }) s) else s

/-- The device as its own TOPO reports it. -/
def ownTopo (s : State) : TopoDev :=
  { uid := ownUid s, prio := getF s F.WFB_CTL_PRIO, reqid := getF s F.WFB_CTL_REQID, id := ownId s, via := 4,
    links := (List.range 4).map fun n => match (s.wl n).nbr with
      | some x => { state := wlState s n, uid := x.uid, link := x.link }
      | none => { state := wlState s n, uid := 0, link := 0 } }

/-- A message up the tree: to the parent, if there is one. -/
def sendUp (payload : List Byte) (s : State) : State :=
  match s.wfb.parent with
  | some p => sendMgmt p 0 payload s
  | none => s

/-- A message of a device below goes on up the tree, its originator kept (R421, R427). -/
def passUp (m : Mgmt) (s : State) : State :=
  match s.wfb.parent with
  | some p => queuePacket p { m.pkt with hops := m.pkt.hops + 1 } s
  | none => s

/-- The device reports its links to the root (R426). -/
def sendTopo (s : State) : State :=
  let d := ownTopo s
  sendUp ([b8 2] ++ beBytes 16 d.uid ++ beBytes 1 d.prio ++ beBytes 2 d.reqid ++ beBytes 2 d.id
    ++ d.links.flatMap fun l => beBytes 1 l.state ++ beBytes 16 l.uid ++ beBytes 1 l.link) s

/-- The root starts a discovery round (R426). -/
def startRound (s : State) : State :=
  setF F.WFB_STATUS_DSTATE 2 (modWfb (fun b => { b with collect := some s.now, acks := none }) s)

/-- The state of a link changed: the root is told, or starts a round itself (R426). -/
def linkChanged (n uid : Nat) (s : State) : State :=
  if staticMode s then s
  else if isSet s F.WFB_STATUS_ROOT then startRound s
  else sendTopo (sendUp ([b8 3] ++ beBytes 16 (ownUid s) ++ beBytes 1 n ++ beBytes 1 (wlState s n) ++ beBytes 16 uid) s)

/-! ### Forwarding (R431) -/

/-- The route to a fabric ID: 12 local, 8 to 11 a link, 0 none. -/
def routeTo (s : State) (id : Nat) : Nat :=
  if id = ownId s ∧ id ≠ 0 then 12 else if id = 0 ∨ 4095 ≤ id then 0 else getF s ⟨A.WFB_RT (id / 8), 4 * (id % 8), 4⟩

/-- The link a packet for a fabric ID leaves on, if it is ACTIVE. -/
def linkTo (s : State) (id : Nat) : Option Nat :=
  let r := routeTo s id
  if 8 ≤ r ∧ r < 12 ∧ wlState s (r - 8) = 2 then some (r - 8) else none

/-- Send a packet of this device by the table; false where there is no way (log 86). -/
def sendRouted (vc dst : Nat) (payload : List Byte) (s : State) : State × Bool :=
  let p := ownPacket s vc dst payload
  if routeTo s dst = 12 then (modWfb (fun b => { b with bridge := b.bridge ++ [⟨p, 4⟩] }) s, true) else
  match linkTo s dst with
  | some n => (queuePacket n p s, true)
  | none => (s, false)

/-- A response of the bridge protocol: STATUS, TAG, ADDR, data (R448). -/
def respPayload (status tag addr len : Nat) (data : List Byte) : List Byte :=
  [b8 3, b8 status] ++ beBytes 2 tag ++ beBytes 4 addr ++ beBytes 2 len ++ beBytes 6 0 ++ data

/-- A posted-error message: CODE, ORIGID, ADDR, SEQ of the write (R448). -/
def pwerrPayload (code orig addr seq : Nat) : List Byte :=
  [b8 4, b8 code] ++ beBytes 2 (orig % 64) ++ beBytes 4 addr ++ beBytes 4 0 ++ beBytes 4 seq

/-- A forwarded packet is discarded: it is counted, and an error goes back to its source where a route exists (R431) (log 86). -/
def dropPacket (p : Packet) (hops : Bool) (s : State) : State :=
  let s := raise A.WFB_EVT 6 (satF (if hops then F.WFB_DROP_HOPS else F.WFB_DROP_ROUTE) 1 s)
  let num := fun (a n : Nat) => beNat (part p.payload a n)
  if p.vc = 2 then (sendRouted 3 p.src (respPayload 5 (num 2 2) (num 4 4) 0 []) s).1
  else if p.vc = 1 then (sendRouted 3 p.src (pwerrPayload 5 (num 1 1) (num 4 4) (num 12 4)) s).1
  else s

/-- A packet of POSTED, READ or RESP that came in on link `l` goes to the bridge, on by the table, or is discarded, which frees its
buffer (R422, R429, R431). -/
def forwardPacket (l : Nat) (p : Packet) (s : State) : State :=
  let gone := fun (hops : Bool) (s : State) => dropPacket p hops (release l p.vc p.blocks s)
  if p.epb ≠ bitAt (getF s F.WFB_EPOCH_EPOCH) 0 then gone false s
  else if routeTo s p.dst = 12 then modWfb (fun b => { b with bridge := b.bridge ++ [⟨p, l⟩] }) s
  else match linkTo s p.dst with
    | none => gone false s
    | some n => if 32 < p.hops + 1 then gone true s else queueFrom l n { p with hops := p.hops + 1 } s

/-- The link to the time parent. -/
def timeParent (s : State) : Option Nat :=
  if staticMode s then (wlActive s).find? fun n => isSet s (F.WFB_LINK_CTL_TPAR n) else s.wfb.parent

/-- MASTER and TLINK of a static device follow its time parent: one with no such link is a time master (R430). -/
def staticTime (s : State) : State :=
  if !staticMode s ∨ !isSet s F.WFB_CTL_EN then s else
  setF F.WFB_TSTAT_MASTER (bit (timeParent s).isNone) (setF F.WFB_TSTAT_TLINK ((timeParent s).getD 0) s)

/-! ### Link states (R420) -/

/-- Packets that wait for a link that is no longer ACTIVE are discarded (R426, R431). -/
def dropWaiting (ws : List Waiting) (s : State) : State :=
  each (ws.filter fun w => w.pkt.vc == 1 || w.pkt.vc == 2 || w.pkt.vc == 3) (fun w s =>
    dropPacket w.pkt false (release w.link w.pkt.vc w.pkt.blocks s)) s

/-- The receive buffers of link `n` are discarded: the messages and packets that came in on it and have not left (R424). -/
def dropReceived (n : Nat) (s : State) : State :=
  modWfb (fun b => { b with
    inbox := b.inbox.filter (·.link != n)
    bridge := b.bridge.filter (·.link != n)
    links := b.links.map fun x => { x with txq := x.txq.filter (·.link != n) } }) s

/-- An ACTIVE link takes a state in which it is not ACTIVE: its buffers are discarded, and a link that is enabled and DOWN trains again
at once (R420, R424). The tree and the root learn of it (R426) (log 85). -/
def linkLeaves (n v : Nat) (s : State) : State :=
  let uid := match (s.wl n).nbr with | some x => x.uid | none => 0
  let waits := (s.wl n).txq
  let s := setF (F.WFB_LINK_STAT_NBRID n) 0 (dropReceived n (modWl n (fun _ => WLink.reset) (setWl n v s)))
  let s := if v = 0 ∧ wlEnabled s n then setWl n 1 s else s
  if !isSet s F.WFB_CTL_EN then s else linkChanged n uid (staticTime (selectRoot (dropWaiting waits s)))

/-- An ACTIVE link goes DOWN (R420, R424) (log 85). -/
def linkDown (n : Nat) (s : State) : State := if wlState s n ≠ 2 then s else linkLeaves n 0 s

/-- The last blocks received on a link, at most 64: with 16 errors among them the link goes DOWN (R419, R420) (log 164). -/
def blocksRx (n : Nat) (bs : List RxBlock) (s : State) : State :=
  if bs.length ≤ 64 ∧ 16 ≤ (bs.filter RxBlock.bad).length then linkDown n s else s

/-- Enabling a link starts its training; taking the enable away disables it (log 85). -/
def wlEnable (n : Nat) (s : State) : State :=
  if wlEnabled s n then (if wlState s n = 0 ∨ wlState s n = 3 then setWl n 1 (modWl n (fun _ => WLink.reset) s) else s)
  else if wlState s n = 2 then linkLeaves n 3 s
  else setWl n 3 (modWl n (fun _ => WLink.reset) s)

/-- Block lock is gained in training (R419, R420). -/
def blockLock (n : Nat) (s : State) : State := if wlState s n = 1 then modWl n (fun x => { x with lock := true }) s else s

/-- A training link with block lock sends LINKUP (R420). -/
def linkupTx (n : Nat) (s : State) : State :=
  if wlState s n = 1 ∧ (s.wl n).lock then emitLctl n 4 (n * 2 ^ 50 + ownUid s % 2 ^ 32) s else s

/-- Block lock, a LINKUP received from the partner's link `m`, and the own LINKUP acknowledged: the link is ACTIVE with full
credits (R420, R422). The root learns of it with the neighbour's first HELLO, which names the neighbour (R426) (log 165). -/
def linkActive (n m : Nat) (polinv : Bool) (s : State) : State :=
  if wlState s n ≠ 1 ∨ !(s.wl n).lock then s else
  let s := modWl n (fun _ => { WLink.reset with lock := true, credits := #v[64, 512, 128, 512, 768], upAt := s.now }) (emitLctl n 1 (0xFFF * 2 ^ 40) s)
  let s := setF (F.WFB_LINK_STAT_NBRLINK n) m (setF (F.WFB_LINK_STAT_POLINV n) (bit polinv) s)
  staticTime (setWl n 2 s)

/-- RETRAIN takes a link DOWN and trains it again. -/
def retrain (n : Nat) (s : State) : State := linkDown n s

/-! ### Acknowledgement, credits, replay (R422, R424) -/

/-- An ACK frees the packets up to its SEQ. -/
def ackRx (n seq : Nat) (s : State) : State :=
  let x := s.wl n
  if wlState s n ≠ 2 ∨ !(x.replay.any (·.pkt.seq == seq)) then s else
  let rest := (x.replay.dropWhile (·.pkt.seq != seq)).tail
  pump n x.txq.length (modWl n (fun x => { x with replay := rest, replays := 0 }) s)

/-- Every unacknowledged packet is sent again; after 8 replays without progress the link fails (R424). -/
def replayAll (n : Nat) (s : State) : State :=
  let x := s.wl n
  if wlState s n ≠ 2 ∨ x.replay.isEmpty then s
  else if 8 ≤ x.replays then raise A.WFB_EVT 5 (linkDown n s)
  else
    let again := x.replay.map fun u => (⟨u.pkt.leaving (time s), s.now⟩ : Unacked)
    let s := each again (fun u => emitPacket n u.pkt 0 0) s
    satF (F.WFB_LINK_ERR_REPLAYS n) 1 (modWl n (fun x => { x with replays := x.replays + 1, replay := again }) s)

/-- A NAK acknowledges up to its SEQ and makes the transmitter replay the rest. -/
def nakRx (n seq : Nat) (s : State) : State := replayAll n (ackRx n seq s)

/-- The oldest packet has been unacknowledged for 2 µs. -/
def replayTimeout (n : Nat) (s : State) : State :=
  match (s.wl n).replay.head? with
  | some u => if u.sentAt + 2000 ≤ s.now then replayAll n s else s
  | none => s

/-- Credits come back for a channel. -/
def creditRx (n vc blocks : Nat) (s : State) : State :=
  if wlState s n ≠ 2 ∨ 5 ≤ vc then s else
  let s := modWl n (fun x => { x with credits := vset x.credits vc (min (vget x.credits vc + blocks) (vcBlocks.getD vc 0)) }) s
  pump n (s.wl n).txq.length s

/-- The receiver acknowledges the last accepted SEQ. -/
def ackTimer (n : Nat) (s : State) : State := if wlState s n = 2 then emitLctl n 1 ((s.wl n).rxSeq * 2 ^ 40) s else s

/-! ### Frames (R433) -/

/-- A tree link carries every frame; another only pair messages. -/
def treeLink (s : State) (n : Nat) : Bool := bitAt (getF s F.WFB_STATUS_TREE) n

/-- A frame handed to port 24 + n crosses to the neighbour, unless it is held back. -/
def tunnelTx (n : Nat) (bs : List Byte) (s : State) : State :=
  if !treeLink s n ∧ etherType bs ≠ 0x88B6 then satF (F.WFB_LINK_FDROP_COUNT n) 1 s
  else if wlState s n ≠ 2 then s
  else queuePacket n (ownPacket s 4 0 (bs ++ leBytes 4 (crc32 bs))) s

/-- FRAME_TUNNEL_RX: a tunnelled frame with a good FCS enters the Basin; a pair message without one counts as bad (R208). -/
def tunnelRx (n : Nat) (p : Packet) (s : State) : State :=
  let len := p.payload.length - 4
  let bs := p.payload.take len
  if p.epb ≠ bitAt (getF s F.WFB_EPOCH_EPOCH) 0 then raise A.WFB_EVT 6 (satF F.WFB_DROP_ROUTE 1 s)
  else if leNat (p.payload.drop len) ≠ crc32 bs then
    (if etherType bs = 0x88B6 ∧ getF s F.LKH_SBYSTAT_STATE ≠ 0 ∧ bitAt (getF s F.LKH_SBYCTL_LINKS) n then
      raise A.LKH_EVT 11 (satF F.LKH_SBYERR_BADMSG 1 s) else s)
  else if treeLink s n then offerFrame { src := 24 + n, bytes := bs, cls := none, direct := none } s
  else if etherType bs = 0x88B6 then offerFrame { src := 24 + n, bytes := bs, cls := some 7, direct := some 35 } s
  else s

/-! ### Reception (R424) -/

/-- An accepted packet is delivered; it keeps its receive buffer until it leaves (R422) (log 90). -/
def deliver (n : Nat) (p : Packet) (s : State) : State :=
  match p.vc with
  | 0 => modWfb (fun b => { b with inbox := b.inbox ++ [{ link := n, stamp := time s, pkt := p }] }) s
  | 4 => release n 4 p.blocks (tunnelRx n p s)
  | _ => forwardPacket n p s

/-- A packet arrives on link `n`; `good` says that its CRC is good and its blocks are free of errors (R424). -/
def packetRx (n : Nat) (p : Packet) (good : Bool) (s : State) : State :=
  if wlState s n ≠ 2 then s else
  let x := s.wl n
  let fine := good && decide (p.vc < 5 ∧ p.nblk ≤ 256)
  if fine ∧ p.seq = (x.rxSeq + 1) % 4096 then
    deliver n p (modWl n (fun x => { x with rxSeq := p.seq, nak := false }) s)
  else
    let s := if fine ∧ x.nak then s else satF (F.WFB_LINK_ERR_CRCERR n) 1 s
    if x.nak then s else emitLctl n 2 (x.rxSeq * 2 ^ 40) (modWl n (fun x => { x with nak := true }) s)

/-- The oldest management message of a type is taken (log 90). -/
def takeMgmt (type : Nat) (s : State) : State × Option Mgmt :=
  match s.wfb.inbox.find? fun m => beNat (part m.pkt.payload 0 1) == type with
  | none => (s, none)
  | some m => (release m.link 0 m.pkt.blocks (modWfb (fun b => { b with inbox := b.inbox.erase m }) s), some m)

/-- A field of a management message. -/
def Mgmt.num (m : Mgmt) (a n : Nat) : Nat := beNat (part m.pkt.payload a n)

/-- Pass a tree broadcast on every tree link but the one it came on (R427). -/
def passOn (m : Mgmt) (s : State) : State :=
  each ((liveTree s).filter (· != m.link)) (fun n => queuePacket n { m.pkt with hops := m.pkt.hops + 1 }) s

/-! ### HELLO (R425, R426) -/

/-- Every HELLO period each ACTIVE link sends a HELLO; the root advances ROOTSEQ, and any other electing device reports its TOPO, which the
root keeps for its next round (R425, R426) (log 165). -/
def helloTx (s : State) : State :=
  if !isSet s F.WFB_CTL_EN then s else
  let s := if s.wfb.parent.isNone then modWfb (fun b => { b with rootSeq := (b.rootSeq + 1) % 65536 }) s else s
  let w := s.wfb
  let own := ownUid s
  let prio := getF s F.WFB_CTL_PRIO
  let root := if w.parent.isNone then (prio, own) else (w.rootPrio, w.rootUid)
  let s := each (wlActive s) (fun n s => sendMgmt n 0 ([b8 1] ++ beBytes 1 root.1 ++ beBytes 16 root.2 ++ beBytes 2 w.rootSeq
    ++ beBytes 1 (getF s F.WFB_STATUS_DIST) ++ beBytes 1 prio ++ beBytes 16 own ++ beBytes 2 (ownId s)
    ++ beBytes 2 (getF s F.WFB_EPOCH_EPOCH) ++ beBytes 1 n ++ beBytes 1 (w.parent.getD 0xFF)) s) s
  if !staticMode s ∧ w.parent.isSome then sendTopo s else s

/-- Whether a ROOTSEQ has advanced from another, modulo 65,536. -/
def seqAhead (old new : Nat) : Bool := decide (0 < (new + 65536 - old) % 65536 ∧ (new + 65536 - old) % 65536 < 32768)

/-- A HELLO updates the neighbour, the root and the parent; the first on a link reports the link that came up (R426) (log 165). -/
def helloRx (s : State) : State :=
  match takeMgmt 1 s with
  | (s, none) => s
  | (s, some m) =>
    let n := m.link
    let adv := match (s.wl n).nbr with
      | some o => if o.rootUid = m.num 2 16 ∧ !seqAhead o.rootSeq (m.num 18 2) then o.advanced else s.now
      | none => s.now
    let x : Neighbour := { rootPrio := m.num 1 1, rootUid := m.num 2 16, rootSeq := m.num 18 2, dist := m.num 20 1, prio := m.num 21 1, uid := m.num 22 16, id := m.num 38 2, epoch := m.num 40 2, link := m.num 42 1, parent := m.num 43 1, heard := s.now, advanced := adv }
    let s := setF (F.WFB_LINK_STAT_NBRLINK n) x.link (setF (F.WFB_LINK_STAT_NBRID n) x.id s)
    let first := (s.wl n).nbr.isNone
    let s := selectRoot (modWl n (fun l => { l with nbr := some x }) s)
    if first then linkChanged n x.uid s else s

/-- No HELLO for NBRTMO periods: the link goes DOWN. -/
def nbrTimeout (n : Nat) (s : State) : State :=
  let since := match (s.wl n).nbr with | some x => x.heard | none => (s.wl n).upAt
  if wlState s n = 2 ∧ since + nbrNs s ≤ s.now then linkDown n s else s

/-- The root has seen no change of root for 4 HELLO periods. -/
def rootSettled (s : State) : State :=
  if isSet s F.WFB_CTL_EN ∧ !staticMode s ∧ isSet s F.WFB_STATUS_ROOT ∧ getF s F.WFB_STATUS_DSTATE = 1
    ∧ s.wfb.changed + 4 * helloNs s ≤ s.now then startRound s else s

/-! ### Rounds: TOPO, IDs, routes, COMMIT (R426 to R429) -/

/-- A LINKCHG reaches the root, or goes up. -/
def linkchgRx (s : State) : State :=
  match takeMgmt 3 s with
  | (s, none) => s
  | (s, some m) =>
    if staticMode s then s
    else if isSet s F.WFB_STATUS_ROOT then
      let fix := fun (d : TopoDev) =>
        if d.uid = m.num 1 16 then { d with links := d.links.set (m.num 17 1) { state := m.num 18 1, uid := m.num 19 16, link := 0 } } else d
      startRound (modWfb (fun b => { b with topo := b.topo.map fix }) s)
    else passUp m s

/-- A TOPO is noted, and passed up the tree. -/
def topoRx (s : State) : State :=
  match takeMgmt 2 s with
  | (s, none) => s
  | (s, some m) =>
    if staticMode s then s else
    let link := fun (k : Nat) => ({ state := m.num (22 + 18 * k) 1, uid := m.num (23 + 18 * k) 16, link := m.num (39 + 18 * k) 1 } : TopoLink)
    let d : TopoDev := { uid := m.num 1 16, prio := m.num 17 1, reqid := m.num 18 2, id := m.num 20 2, via := m.link, links := (List.range 4).map link }
    let s := modWfb (fun b => { b with topo := b.topo.filter (·.uid != d.uid) ++ [d] }) s
    if isSet s F.WFB_STATUS_ROOT then s
    else passUp m (if getF s F.WFB_STATUS_DSTATE = 3 then s else setF F.WFB_STATUS_DSTATE 2 s)

/-- Insert a device in ascending order of unique ID. -/
def insertDev (d : TopoDev) : List TopoDev → List TopoDev
  | [] => [d]
  | x :: t => if d.uid < x.uid then d :: x :: t else x :: insertDev d t

/-- The ID a device gets, given those already assigned and those that devices hold now, which are not free (R428) (log 138). -/
def assignId (taken held : List Nat) (d : TopoDev) : Nat :=
  let free := fun (i : Nat) => !taken.contains i && !held.contains i
  if d.id ≠ 0 ∧ !taken.contains d.id then d.id
  else if d.reqid ≠ 0 ∧ free d.reqid then d.reqid
  else (((List.range 2047).map (· + 2048) ++ (List.range 2047).map (· + 1)).find? free).getD 0

/-- The IDs of all devices, in ascending order of unique ID (R428) (log 138). -/
def assignAll (ds : List TopoDev) : List (Nat × Nat) :=
  ((ds.foldr insertDev []).foldl (fun (acc : List (Nat × Nat)) d =>
    (d.uid, assignId (acc.map (·.2)) (ds.map (·.id)) d) :: acc) []).reverse

/-- The links of a device that lead to known devices: link number and neighbour. -/
def edges (ds : List TopoDev) (d : TopoDev) : List (Nat × Nat) :=
  (d.links.zipIdx.filter fun (l, _) => l.state == 2 && ds.any (·.uid == l.uid)).map fun (l, k) => (k, l.uid)

/-- Distances from the root, relaxed `fuel` times. -/
def distances (ds : List TopoDev) (root : Nat) : Nat → List (Nat × Nat)
  | 0 => [(root, 0)]
  | fuel + 1 =>
    let old := distances ds root fuel
    ds.filterMap fun d =>
      if d.uid = root then some (root, 0) else
      let best := (edges ds d).foldl (fun (b : Option Nat) (_, u) => match old.find? (·.1 == u), b with
        | some (_, k), some m => some (min m (k + 1))
        | some (_, k), none => some (k + 1)
        | none, b => b) none
      best.map fun k => (d.uid, k)

/-- Whether the link from `a` to `b` points up: to the smaller DIST, or the lower unique ID (R429). -/
def pointsUp (dist : List (Nat × Nat)) (a b : Nat) : Bool :=
  let of := fun (u : Nat) => ((dist.find? (·.1 == u)).map (·.2)).getD 64
  before (of b) b (of a) a

/-- The lesser of two hop counts. -/
def minHops (a b : Option Nat) : Option Nat :=
  match a, b with
  | some x, some y => some (min x y)
  | some x, none => some x
  | none, y => y

/-- Hops to a destination from every device: going up still allowed, and only down (R429). -/
def hops (ds : List TopoDev) (dist : List (Nat × Nat)) (dst : Nat) : Nat → List (Nat × (Option Nat × Option Nat))
  | 0 => [(dst, (some 0, some 0))]
  | fuel + 1 =>
    let old := hops ds dist dst fuel
    ds.map fun d =>
      if d.uid = dst then (dst, (some 0, some 0)) else
      (d.uid, (edges ds d).foldl (fun (b : Option Nat × Option Nat) (_, u) =>
        let h := ((old.find? (·.1 == u)).map (·.2)).getD (none, none)
        if pointsUp dist d.uid u then (minHops b.1 (h.1.map (· + 1)), b.2)
        else (minHops b.1 (h.2.map (· + 1)), minHops b.2 (h.2.map (· + 1)))) (none, none))

/-- The outgoing link of the route with the fewest hops; ties go to the lowest link (R429). -/
def bestLink (ds : List TopoDev) (dist : List (Nat × Nat)) (h : List (Nat × (Option Nat × Option Nat))) (d : TopoDev) : Option Nat :=
  let cost := fun (u : Nat) =>
    let c := ((h.find? (·.1 == u)).map (·.2)).getD (none, none)
    if pointsUp dist d.uid u then c.1 else c.2
  ((edges ds d).foldl (fun (b : Option (Nat × Nat)) (k, u) => match cost u, b with
    | some c, some (m, l) => if c < m then some (c, k) else some (m, l)
    | some c, none => some (c, k)
    | none, b => b) none).map (·.2)

/-- The route entries of a device: fabric ID and code (R429). -/
def routesOf (ds : List TopoDev) (root : Nat) (ids : List (Nat × Nat)) (d : TopoDev) : List (Nat × Nat) :=
  let dist := distances ds root 33
  ids.filterMap fun (uid, id) =>
    if uid = d.uid then some (id, 12)
    else (bestLink ds dist (hops ds dist uid ds.length) d).map fun k => (id, 8 + k)

/-- The 512 words of WFB_RTw for a list of entries. -/
def routeWords (es : List (Nat × Nat)) : List Word :=
  (List.range 512).map fun w => w32 ((es.filter fun e => e.1 / 8 == w).foldl (fun v e => putBits v (4 * (e.1 % 8)) 4 e.2) 0)

/-- IDs of the next epoch are noted, in place of those an interrupted round of that epoch gave the same devices, and the parts of a ROUTE
that came before them are forgotten (R428, R432); a device refused its REQID raises IDCONF. -/
def noteIds (epoch : Nat) (es : List (Nat × Nat)) (s : State) : State :=
  let s := modWfb (fun b =>
    let kept := if b.nextEpoch = epoch then b.nextIds.filter fun o => !es.any fun e => e.1 == o.1 || e.2 == o.2 else []
    { b with nextEpoch := epoch, nextIds := kept ++ es, nextRt := [], parts := 0 }) s
  match es.find? (·.1 == ownUid s) with
  | some (_, id) =>
    let req := getF s F.WFB_CTL_REQID
    if req ≠ 0 ∧ id ≠ req ∧ id ≠ ownId s then raise A.WFB_EVT 3 s else s
  | none => s

/-- The new epoch, table, tree and ID take effect (R426, R428). -/
def applyCommit (epoch : Nat) (s : State) : State :=
  let w := s.wfb
  let own := ((w.nextIds.find? (·.1 == ownUid s)).map (·.2)).getD (ownId s)
  let s := setF F.WFB_EPOCH_EPOCH epoch s
  let s := each (List.range 512) (fun k => wr (A.WFB_RT k) ((SMap.get? w.nextRt k).getD 0)) s
  let s := if own = ownId s then s else epochBump 5 (raise A.WFB_EVT 2 (setF F.WFB_STATUS_OWNID own s))
  let tree := liveTree s
  let s := each (List.range 4) (fun n => setF ⟨A.WFB_STATUS, 16 + n, 1⟩ (bit (tree.contains n))) s
  let s := each (List.range 4) (fun n => setF (F.WFB_LINK_STAT_TREE n) (bit (tree.contains n))) s
  let s := modWfb (fun b => { b with collect := none, acks := none }) (setF F.WFB_STATUS_DSTATE 3 s)
  let s := { s with brg := { s.brg with pathTx := [], pathRx := [] } }
  raise A.WFB_EVT 1 (macKeep (fun e => e.static || decide (e.port < 24 ∨ 28 ≤ e.port)) s)

/-- Every device has acknowledged: the root broadcasts COMMIT (R426). -/
def rootCommit (s : State) : State :=
  let e := s.wfb.nextEpoch
  applyCommit e (each (liveTree s) (fun n => sendMgmt n 4095 ([b8 7] ++ beBytes 2 e)) s)

/-- Pieces of at most `k` elements. -/
def chunks {α : Type} (k : Nat) : Nat → List α → List (List α)
  | 0, _ => []
  | fuel + 1, l => if l.isEmpty then [] else l.take k :: chunks k fuel (l.drop k)

/-- One part of a device's ROUTE. -/
def routePart (epoch part' : Nat) (ws : List Word) : List Byte :=
  [b8 5] ++ beBytes 2 epoch ++ beBytes 1 part' ++ ((ws.drop (256 * part')).take 256).flatMap fun w => beBytes 4 w.toNat

/-- The TOPO collection ends: 10 µs per hop have passed; IDs and routes go out (R426). -/
def collectEnd (s : State) : State :=
  match s.wfb.collect with
  | none => s
  | some t =>
    let own := ownTopo s
    let all := own :: s.wfb.topo.filter (·.uid != own.uid)
    let dist := distances all own.uid 33
    let far := dist.foldl (fun m x => max m x.2) 0
    if !isSet s F.WFB_STATUS_ROOT ∨ s.now < t + 10000 * far then s else
    let ds := all.filter fun d => dist.any (·.1 == d.uid)
    let ids := assignAll ds
    let epoch := (getF s F.WFB_EPOCH_EPOCH + 1) % 65536
    let s := each (chunks 100 (ids.length + 1) ids) (fun es s => each (liveTree s) (fun n => sendMgmt n 4095
      ([b8 4] ++ beBytes 2 epoch ++ beBytes 2 es.length ++ es.flatMap fun e => beBytes 16 e.1 ++ beBytes 2 e.2)) s) s
    let s := modWfb (fun b => { b with nextEpoch := epoch, nextIds := [], collect := none, inbox := b.inbox.filter fun m => beNat (part m.pkt.payload 0 1) != 6 }) s
    let s := noteIds epoch ids s
    let s := modWfb (fun b => { b with nextRt := (routeWords (routesOf ds own.uid ids own)).zipIdx.map fun (w, k) => (k, w) }) s
    let others := ds.filter (·.uid != own.uid)
    let s := each others (fun d s =>
      let ws := routeWords (routesOf ds own.uid ids d)
      let id := ((ids.find? (·.1 == d.uid)).map (·.2)).getD 0
      sendMgmt d.via id (routePart epoch 1 ws) (sendMgmt d.via id (routePart epoch 0 ws) s)) s
    let s := modWfb (fun b => { b with acks := some others.length }) s
    if others.isEmpty then rootCommit s else s

/-- An ASSIGN gives the devices their IDs of the next epoch. -/
def assignRx (s : State) : State :=
  match takeMgmt 4 s with
  | (s, none) => s
  | (s, some m) =>
    if staticMode s then s else
    let es := (List.range (m.num 3 2)).map fun k => (m.num (5 + 18 * k) 16, m.num (21 + 18 * k) 2)
    setF F.WFB_STATUS_DSTATE 2 (noteIds (m.num 1 2) es (passOn m s))

/-- A ROUTE for this device is noted and answered with ROUTEACK when whole; another goes on along the tree. -/
def routeRx (s : State) : State :=
  match takeMgmt 5 s with
  | (s, none) => s
  | (s, some m) =>
    if staticMode s then s else
    match s.wfb.nextIds.find? (·.2 == m.pkt.dst) with
    | none => s
    | some (uid, _) =>
      if uid ≠ ownUid s then
        match s.wfb.topo.find? (·.uid == uid) with
        | some d => if d.via < 4 then queuePacket d.via { m.pkt with hops := m.pkt.hops + 1 } s else s
        | none => s
      else if m.num 1 2 ≠ s.wfb.nextEpoch ∨ 2 ≤ m.num 3 1 then s
      else
        let p := m.num 3 1
        let s := modWfb (fun b => { b with parts := b.parts ||| 2 ^ p, nextRt := (List.range 256).foldl (fun l k => SMap.ins l (256 * p + k) (w32 (m.num (4 + 4 * k) 4))) b.nextRt }) s
        if s.wfb.parts = 3 then sendUp ([b8 6] ++ beBytes 2 s.wfb.nextEpoch) s else s

/-- A ROUTEACK reaches the root, or goes up. -/
def routeackRx (s : State) : State :=
  match takeMgmt 6 s with
  | (s, none) => s
  | (s, some m) =>
    if staticMode s then s
    else if !isSet s F.WFB_STATUS_ROOT then passUp m s
    else if m.num 1 2 ≠ s.wfb.nextEpoch then s
    else match s.wfb.acks with
      | some (k + 1) =>
        let s := modWfb (fun b => { b with acks := some k }) s
        if k = 0 then rootCommit s else s
      | _ => s

/-- A COMMIT is passed on and applied. -/
def commitRx (s : State) : State :=
  match takeMgmt 7 s with
  | (s, none) => s
  | (s, some m) =>
    if staticMode s then s else
    let s := passOn m s
    if m.num 1 2 = s.wfb.nextEpoch then applyCommit (m.num 1 2) s else s

/-! ### Fabric time (R434, R435) -/

/-- Every TSYNC µs the delay of the parent link is measured; t1 is the stamp with which the TIMEREQ leaves (R434). -/
def tsyncTimer (s : State) : State :=
  match timeParent s with
  | some n =>
    let s := setF F.WFB_TSTAT_MASTER 0 (setF F.WFB_TSTAT_TLINK n s)
    sendMgmt n 0 ([b8 8] ++ beBytes 8 0) s
  | none => if isSet s F.WFB_CTL_EN then setF F.WFB_TSTAT_MASTER 1 s else s

/-- A TIMEREQ is answered with TIMERESP, and TIMESYNC follows; their own stamps go in as they leave (R434). -/
def timeReqRx (s : State) : State :=
  match takeMgmt 8 s with
  | (s, none) => s
  | (s, some m) =>
    let s := sendMgmt m.link 0 ([b8 9] ++ beBytes 8 (m.num 1 8) ++ beBytes 8 m.stamp ++ beBytes 8 0) s
    sendMgmt m.link 0 ([b8 10] ++ beBytes 8 0 ++ beBytes 1 (getF s F.WFB_TSTAT_LOCKED)) s

/-- A TIMERESP gives the link delay. -/
def timeRespRx (s : State) : State :=
  match takeMgmt 9 s with
  | (s, none) => s
  | (s, some m) =>
    if s.wfb.timeReq ≠ some (m.num 1 8) then s else
    let d : Int := (((m.stamp : Int) - (m.num 1 8 : Nat)) - ((m.num 17 8 : Int) - (m.num 9 8 : Nat))) / 2
    setF (F.WFB_LINK_DELAY_DELAY m.link) (min d.toNat 65535) (modWfb (fun b => { b with timeReq := none }) s)

/-- LOCKED changes raise TLOCK. -/
def setTlock (b : Bool) (s : State) : State :=
  if isSet s F.WFB_TSTAT_LOCKED == b then s else raise A.WFB_EVT 7 (setF F.WFB_TSTAT_LOCKED (bit b) s)

/-- The WFB steers the time base: INC within its range, by a rule the spec leaves open; the offset is stepped away while
control does not run, or slewed (R435) (log 87). -/
def steer (off : Int) (s : State) : State :=
  let cst := getF s F.SCN_STATUS_CSTATE
  let s := usedFree (wr64 A.TMB_INC (incMin + freeNat s % (incMax - incMin + 1)) s)
  if (cst = 0 ∨ cst = 3) ∧ (1000 < off ∨ off < -1000) then
    setSlewRem 0 (modTmb (fun b => { b with steps := b.steps ++ [-off] }) s)
  else setSlewRem (max (-2147483647) (min 2147483647 (-off))) s

/-- A TIMESYNC gives the offset against the parent (log 87). -/
def timeSyncRx (s : State) : State :=
  match takeMgmt 10 s with
  | (s, none) => s
  | (s, some m) =>
    if timeParent s ≠ some m.link then s else
    let off : Int := (m.stamp : Int) - (getF s (F.WFB_LINK_DELAY_DELAY m.link) : Nat) - (m.num 1 8 : Nat)
    let s := setF F.WFB_TOFF_OFF (wrap 32 (max (-2147483648) (min 2147483647 off))) s
    let near : Bool := decide (-50 ≤ off ∧ off ≤ 50)
    let s := setF F.WFB_TSTAT_LOCKCNT (if near then min 255 (getF s F.WFB_TSTAT_LOCKCNT + 1) else 0) s
    let s := if 16 ≤ getF s F.WFB_TSTAT_LOCKCNT then setTlock true s else if off < -1000 ∨ 1000 < off then setTlock false s else s
    if getF s F.TMB_CTL_SRC = 1 then steer off s else s

/-! ### Last gasp (R436, R437) -/

/-- Three LGASP blocks go out on every ACTIVE link (R436). -/
def lastGasp (cause : Nat) (s : State) : State :=
  if !isSet s F.WFB_CTL_LGEN then s else
  let v := ownId s * 2 ^ 44 + cause % 16 * 2 ^ 40 + ownUid s % 2 ^ 32 * 2 ^ 8
  let v := v + crc8 (beBytes 6 (v / 256))
  each (wlActive s) (fun n s => emitBlock n 0xB4 v (emitBlock n 0xB4 v (emitBlock n 0xB4 v s))) s

/-- A last gasp is recorded, once for copies of one sender within 10 µs (R437); true where it was new (log 88). -/
def noteGasp (sender cause link : Nat) (fwd : Bool) (s : State) : State × Bool :=
  if s.wfb.gasps.any fun (i, t) => i == sender && decide (s.now < t + 10000) then (s, false) else
  let s := modWfb (fun b => { b with gasps := (sender, s.now) :: b.gasps.filter fun (i, t) => i != sender && decide (s.now < t + 10000) }) s
  let s := setF F.WFB_LGLOG_SRCID sender (setF F.WFB_LGLOG_CAUSE cause (setF F.WFB_LGLOG_LINK link (setF F.WFB_LGLOG_FWD (bit fwd) s)))
  (raise A.WFB_EVT 4 (wr64 A.WFB_LGTIME (time s) (satF F.WFB_LGLOG_COUNT 1 s)), true)

/-- An LGASP block arrives: with a good CRC-8 its link goes DOWN, it is recorded and sent on as LGFWD; the sender is
answered where it is news (R437) (log 88). -/
def lgaspRx (n v : Nat) (s : State) : State × Option Nat :=
  if wlState s n ≠ 2 ∨ crc8 (beBytes 6 (v / 256)) ≠ v % 256 then (s, none) else
  let sender := bitsOf v 44 12
  let (s, new) := noteGasp sender (bitsOf v 40 4) n false (linkDown n s)
  if !new then (s, none) else
  let fwd := [b8 11] ++ beBytes 2 sender ++ beBytes 1 (bitsOf v 40 4) ++ beBytes 4 (bitsOf v 8 32) ++ beBytes 2 (ownId s)
  (each (liveTree s) (fun k => sendMgmt k 4095 fwd) s, some sender)

/-- An LGFWD message is recorded and passed on (R437). -/
def lgfwdRx (s : State) : State × Option Nat :=
  match takeMgmt 11 s with
  | (s, none) => (s, none)
  | (s, some m) =>
    let (s, new) := noteGasp (m.num 1 2) (m.num 3 1) m.link true (passOn m s)
    (s, if new then some (m.num 1 2) else none)

/-! ### Fabric-commanded reset (R438) -/

/-- WFB_RSTCMD.GO sends RESETREQ, to the device itself too; NOROUTE where there is no route. Where the device has not learnt the unique ID
of the target, what it sends in its place is free (log 89). -/
def resetCmd (s : State) : State :=
  let t := getF s F.WFB_RSTCMD_TARGET
  let known := (s.wfb.nextIds.find? (·.2 == t)).map (·.1)
  let near := ((List.range 4).filterMap fun n => match (s.wl n).nbr with | some x => if x.id = t then some x.uid else none | none => none).head?
  if routeTo s t = 12 then
    let p := ownPacket s 0 t ([b8 12] ++ beBytes 16 (ownUid s))
    setF F.WFB_RSTCMD_RESULT 0 (modWfb (fun b => { b with inbox := b.inbox ++ [{ link := 4, stamp := time s, pkt := p }] }) s)
  else match linkTo s t with
  | some n =>
    let uid := (known.or near).getD (freeNat s % 2 ^ 128)
    setF F.WFB_RSTCMD_RESULT 0 (sendMgmt n t ([b8 12] ++ beBytes 16 uid) (if (known.or near).isSome then s else usedFree s))
  | none => setF F.WFB_RSTCMD_RESULT 1 s

/-- A RESETREQ: true where it is for this device, enabled and of its unique ID; refused ones raise RESETREQ, those of other
devices go on (log 89). -/
def resetReqRx (s : State) : State × Bool :=
  match takeMgmt 12 s with
  | (s, none) => (s, false)
  | (s, some m) =>
    if m.pkt.dst ≠ ownId s then
      match linkTo s m.pkt.dst with
      | some n => (queuePacket n { m.pkt with hops := m.pkt.hops + 1 } s, false)
      | none => (raise A.WFB_EVT 6 (satF F.WFB_DROP_ROUTE 1 s), false)
    else if isSet s F.WFB_CTL_RSTEN ∧ m.num 1 16 = ownUid s then (s, true)
    else (raise A.WFB_EVT 8 s, false)

/-! ### Register writes -/

/-- The tree links of a static device are those with FRAMES = 1 (R430). -/
def staticTree (s : State) : State :=
  if !staticMode s then s else
  each (List.range 4) (fun n s =>
    setF ⟨A.WFB_STATUS, 16 + n, 1⟩ (getF s (F.WFB_LINK_CTL_FRAMES n)) (setF (F.WFB_LINK_STAT_TREE n) (getF s (F.WFB_LINK_CTL_FRAMES n)) s)) s

/-- A static device's ID is REQID from EN onward (R430); a change of the ID advances the mailbox epoch (R268). -/
def staticId (s : State) : State :=
  let id := getF s F.WFB_CTL_REQID
  if id = ownId s then s else epochBump 5 (setF F.WFB_STATUS_OWNID id s)

/-- WFB_CTL has been written. -/
def wfbCtl (old : Nat) (s : State) : State :=
  let en := isSet s F.WFB_CTL_EN
  let s := each (List.range 4) wlEnable s
  if en ∧ !bitAt old 31 then
    if staticMode s then staticTime (staticTree (setF F.WFB_STATUS_DSTATE 4 (staticId s)))
    else
      selectRoot (setF F.WFB_STATUS_DSTATE 1 (modWfb (fun b => { b with rootPrio := getF s F.WFB_CTL_PRIO, rootUid := ownUid s, changed := s.now }) s))
  else if !en ∧ bitAt old 31 then
    setF F.WFB_TSTAT_MASTER 0 (setF F.WFB_STATUS_DSTATE 0 (setF F.WFB_STATUS_ROOT 0
      (modWfb (fun b => { b with parent := none, collect := none, acks := none }) s)))
  else s

/-- What a write to a WFB register starts. -/
def hookWfb (i : WInfo) (s : State) : State :=
  if i.pa = A.WFB_CTL then wfbCtl i.old s
  else if i.pa = A.WFB_RSTCMD then (if bitAt i.cmds 31 then resetCmd s else s)
  else match copyAt (A.WFB_LINK_CTL 0) 0x20 4 i.pa with
    | some n =>
      let s := staticTime (staticTree s)
      if bitAt i.cmds 2 then retrain n s else s
    | none => s

end Sys2Proof.Machine
end

