-- ==== Sys2Proof/Machine/Pair.lean ====
section
/-! DEFINITION. Hot standby: messages, states and election, mirroring, loss and takeover, joining, splits and swaps
(06_duplex_rotation R205 to R217). -/

namespace Sys2Proof.Machine

/-- Change what the Lockhouse holds of the pair. -/
def modPair (f : Pair → Pair) (s : State) : State := { s with pair := f s.pair }

/-- The pair state (R206): 0 SINGLE, 1 SEEK, 2 PRIMARY, 3 JOINING, 4 HOT, 5 DETACHED. -/
def pairState (s : State) : Nat := getF s F.LKH_SBYSTAT_STATE

/-- Whether task `t` is mirrored (R205). -/
def mirrored (s : State) (t : Nat) : Bool := bitAt (rd s A.LKH_SBYMASK).toNat t

/-- The mirrored tasks that are enabled. -/
def mirroredTasks (s : State) : List Nat := (List.range 32).filter fun t => mirrored s t && enabled s t

/-- Whether a mirrored task has joined. -/
def hasJoined (s : State) (t : Nat) : Bool := bitAt s.pair.joined t

/-- A task joins. -/
def joinTask (t : Nat) (s : State) : State := modPair (fun p => { p with joined := p.joined ||| 2 ^ t }) s

/-- SBYDLY in ns. -/
def sbyDelay (s : State) : Nat := 1000 * getF s F.LKH_SBYTIME_SBYDLY

/-! ### Messages (R208, R209) -/

/-- The links that carry pair traffic. -/
def pairLinks (s : State) : List Nat := (List.range 4).filter fun n => bitAt (getF s F.LKH_SBYCTL_LINKS) n

/-- One frame of a pair message (R208), padded to the shortest frame. -/
def pairFrame (s : State) (type task cyc frag : Nat) (last : Bool) (pl : List Byte) : List Byte :=
  let head := beBytes 4 0x02483000 ++ beBytes 2 (getF s F.LKH_SBYPEER_PEERID) ++ beBytes 4 0x02483000 ++ beBytes 2 (ownId s) ++ beBytes 2 0x88B6
  let flags := 128 * bit last + 64 * bit (pairState s == 2)
  let body := [b8 1, b8 type, b8 flags, b8 task] ++ beBytes 4 s.pair.seqTx ++ beBytes 4 cyc ++ beBytes 2 frag ++ beBytes 2 pl.length ++ pl
  let bs := head ++ body ++ beBytes 4 (crc32 body)
  bs ++ List.replicate (60 - bs.length) 0

/-- The fragments of a payload, each of at most `n` bytes; at least one. -/
def fragments (n : Nat) : Nat → List Byte → List (List Byte)
  | 0, bs => [bs.take n]
  | f + 1, bs => if bs.length ≤ n then [bs] else bs.take n :: fragments n f (bs.drop n)

/-- Send a pair message in fragments of at most `n` payload bytes, on every pair link, through the Basin in class 7. -/
def pairSendBy (n type task cyc : Nat) (pl : List Byte) (s : State) : State :=
  let s := modPair (fun p => { p with seqTx := (p.seqTx + 1) % 2 ^ 32 }) s
  let fs := fragments n pl.length pl
  each fs.zipIdx (fun (bs, k) s => each (pairLinks s) (fun l s =>
    offerFrame { src := 35, bytes := pairFrame s type task cyc k (k + 1 == fs.length) bs, cls := some 7, direct := some (24 + l) } s) s) s

/-- Send a pair message. -/
def pairSend (type task cyc : Nat) (pl : List Byte) (s : State) : State := pairSendBy 1440 type task cyc pl s

/-- A received pair message, or one fragment of it. -/
structure PairMsg where
  type : Nat
  last : Bool
  task : Nat
  seq : Nat
  cyc : Nat
  frag : Nat
  payload : List Byte
deriving DecidableEq, Repr

/-- The message in a frame, if its form and PCRC are good; `none` otherwise (R208). -/
def parsePair (bs : List Byte) : Option PairMsg :=
  let v := fun o n => beNat (part bs o n)
  let len := v 28 2
  if v 14 1 ≠ 1 ∨ v 15 1 = 0 ∨ 10 < v 15 1 ∨ 1440 < len ∨ bs.length < 34 + len ∨ v (30 + len) 4 ≠ crc32 (part bs 14 (16 + len)) then none
  else some { type := v 15 1, last := 128 ≤ v 16 1, task := v 17 1, seq := v 18 4, cyc := v 22 4, frag := v 26 2, payload := part bs 30 len }

/-- The frame at the head of the pair's inbox goes. -/
def pairDrop (s : State) : State := modPair (fun p => { p with inbox := p.inbox.tail }) s

/-- A message in order, a copy of one already had, or one after a gap of so many messages (R208). -/
inductive Order where
  | next | copy | gap (missed : Nat)
deriving DecidableEq, Repr

/-- How a message stands to those received before (log 16). -/
def orderOf (s : State) (m : PairMsg) : Order :=
  match s.pair.seqRx with
  | none => .next
  | some (seq, frag, last) =>
    let d := (m.seq + 2 ^ 32 - seq) % 2 ^ 32
    if d = 0 then (if m.frag ≤ frag then .copy else if m.frag = frag + 1 then .next else .gap 0)
    else if 2 ^ 31 ≤ d then .copy
    else if d = 1 then (if last ∧ m.frag = 0 then .next else .gap 0)
    else .gap (d - 1)

/-- How a HELLO stands to the messages before it: one well behind them is the first of a peer that has begun anew (log 16). -/
def helloOrder (s : State) (m : PairMsg) : Order :=
  match s.pair.seqRx with
  | some (seq, _, _) => if 2 ^ 31 ≤ (m.seq + 2 ^ 32 - seq) % 2 ^ 32 ∧ (m.seq + 2 ^ 32 - seq) % 2 ^ 32 < 2 ^ 32 - 8 then .next else orderOf s m
  | none => .next

/-- A HEARTBEAT has come in on port `src` of the Basin: the time of the last one on a link in LINKS (R212). -/
def heardOn (src : Nat) (s : State) : State :=
  if (pairLinks s).any fun l => 24 + l == src then modPair (fun p => { p with hbAt := some (time s) }) s else s

/-- Take the head of the inbox as a message of a type. A bad frame is discarded and counted; every HEARTBEAT renews the time of the last
one, also a copy that comes over a further link (R212). The flag says that something before it was missed. -/
def pairTake (type : Nat) (s : State) : State × Option (PairMsg × Bool) :=
  match s.pair.inbox with
  | [] => (s, none)
  | (src, bs) :: _ => match parsePair bs with
    | none => (raise A.LKH_EVT 11 (satF F.LKH_SBYERR_BADMSG 1 (pairDrop s)), none)
    | some m =>
      if m.type ≠ type then (s, none) else
      let s := modPair (fun p => { p with heardAt := some (time s) }) (pairDrop s)
      let note := modPair (fun p => { p with seqRx := some (m.seq, m.frag, m.last) })
      let order := if type = 1 then helloOrder s m else orderOf s m
      let s := if type = 2 ∧ (order ≠ .copy ∨ s.pair.hbAt.isSome) then heardOn src s else s
      match order with
      | .copy => (s, none)
      | .next => (note s, some (m, false))
      | .gap n => (note (if n = 0 then s else raise A.LKH_EVT 11 (satF F.LKH_SBYERR_LOSTMSG n s)), some (m, true))

/-! ### States (R206, R207) -/

/-- The pair state changes: event, SYS_STATUS.STANDBY, the Towpath sequencer (R206). -/
def setPair (st : Nat) (s : State) : State :=
  if pairState s = st ∨ s.faults.coreStopped then s else
  let s := setF F.LKH_SBYSTAT_STATE st (modPair (fun p => { p with since := time s }) s)
  let s := setF F.SYS_STATUS_STANDBY (match st with | 2 => 1 | 3 => 2 | 4 => 2 | _ => 0) s
  let s := if st = 0 ∨ st = 2 then towTakeover (modPair (fun p => { p with silenceDue := false }) s)
    else if s.pair.silenceDue then s else towSilence s
  raise A.LKH_EVT 8 s

/-- Nothing received or joined stays from an earlier time. -/
def pairClear (s : State) : State :=
  modPair (fun p => { p with snaps := [], marksOwn := [], marksPeer := [], retsOwn := [], retsPeer := [], joined := 0, track := none, lost := false }) s

/-- The retentive lines of a task as they stand, by index in the buffer, with role and own-reach line. -/
def retLinesFrom (s : State) (t : Nat) : List (Nat × Nat × Nat) :=
  (retLines s).zipIdx.filterMap fun ((u, role, line), k) => if u = t then some (k, role, line) else none

/-- The standby's complete retentive data are queued for its MRAM (R215): no line is dirty for the buffer they go to, every line for the
other. -/
def queueAllRet (s : State) : State :=
  let ls := (retLines s).zipIdx.map fun ((_, role, line), k) => (k, (lineCells line).map (staged s role))
  if ls.isEmpty then s else
  let b := retTargetOf s
  let all := (retLines s).map (·.2)
  let s := each all (retClean b) (forgetClean all s)
  syncRetBusy (modScan (fun c => { c with retQueue := some (mergeCapture (c.retQueue.getD []) ls), retTarget := b }) s)

/-- Once every mirrored task has joined, a device in JOINING writes its complete retentive data and enters HOT (R206, R215). -/
def allJoined (s : State) : State :=
  if pairState s ≠ 3 ∨ s.faults.coreStopped ∨ !((mirroredTasks s).all (hasJoined s)) then s
  else setPair 4 (queueAllRet (setF F.SCN_STATUS_CSTATE 2 s))

/-- Enter JOINING and ask the primary to be joined (R215). Scan commands that waited are ignored (R207). -/
def startJoining (s : State) : State :=
  allJoined (pairSend 8 255 0 [] (setPair 3 (pairClear (modScan (fun c => { c with waitCmd := [] }) s))))

/-- Control stops and the device is DETACHED. -/
def detach (s : State) : State := setPair 5 (pairClear (controlStop .command none s))

/-- The standby leaves HOT (R211). -/
def diverge (s : State) : State := detach (raise A.LKH_EVT 10 s)

/-- The device becomes PRIMARY by election: the restart that AUTORUN deferred runs, and commands that waited act (R178, R207). PRIMEPOCH is
1 however it was elected, though R207 says so of the election by silence only (log 155). -/
def electPrimary (s : State) : State :=
  let s := setF F.LKH_SBYSTAT_PRIMEPOCH 1 (setPair 2 (pairClear s))
  let c := getF s F.SCN_STATUS_CSTATE
  if (c = 0 ∨ c = 3) ∧ (loadedSlot s).isSome ∧ isSet s F.SCN_CTL_AUTORUN then restartStart true s
  else takeWaiting (if c = 0 ∧ (loadedSlot s).isSome then setF F.SCN_STATUS_CSTATE 3 s else s)

/-- CFGHASH as 32 bytes. -/
def cfgHash (s : State) : List Byte := (List.range 8).flatMap fun i => beBytes 4 (rd s (A.CFG_HASH i)).toNat

/-- In SEEK a HELLO goes out every 1 ms, and so it does from a PRIMARY, whose CFGHASH a seeking device is to hear (R207) (log 127). -/
def pairHello (s : State) : State :=
  if pairState s ≠ 1 ∧ pairState s ≠ 2 then s else
  pairSend 1 255 0 (beBytes 16 (ownUid s) ++ [b8 (pairState s), 0, 0, 0] ++ beBytes 4 (getF s F.LKH_SBYSTAT_PRIMEPOCH) ++ cfgHash s) s

/-- Whether the time base runs from fabric time, or is its source (R205, R435) (log 125). -/
def fabricTimed (s : State) : Bool := getF s F.TMB_CTL_SRC == 1 || isSet s F.WFB_TSTAT_MASTER

/-- A message missed takes a HOT standby out of the pair (R206). -/
def afterGap (gap : Bool) (s : State) : State := if gap ∧ pairState s = 4 then diverge s else s

/-- A HELLO drives the election (R207). Its form has no place for PREF: `peerPref` says what the peer's PREF is (log 17, 125). -/
def helloPairRx (peerPref : Bool) (s : State) : State :=
  match pairTake 1 s with
  | (s, none) => s
  | (s, some (m, gap)) =>
    let uid := beNat (m.payload.take 16)
    let st := beNat (part m.payload 16 1)
    let s := modPair (fun p => { p with peerUid := uid, peerEpoch := beNat (part m.payload 20 4) }) s
    let s := if st = 2 then modPair (fun p => { p with primaryAt := some (time s) }) s else s
    if pairState s ≠ 1 ∨ s.faults.coreStopped then afterGap gap s
    else if part m.payload 24 32 ≠ cfgHash s then raise A.LKH_EVT 8 s
    else if !fabricTimed s then s
    else if st = 2 then startJoining s
    else if st = 1 then
      let pref := isSet s F.LKH_SBYCTL_PREF
      if (pref ∧ !peerPref) ∨ (pref = peerPref ∧ ownUid s < uid) then electPrimary s else startJoining s
    else s

/-- Nothing heard of a peer for 50 ms in SEEK: PRIMARY (R207). -/
def seekTimeout (s : State) : State :=
  if pairState s ≠ 1 ∨ time s < max s.pair.since (s.pair.heardAt.getD 0) + 50000000 ∨ s.faults.coreStopped then s else electPrimary s

/-- A restart under way is given up, and its command waits until the device is PRIMARY (R206, R207) (log 126). -/
def deferRestart (s : State) : State :=
  match s.scan.restart with
  | some warm => setF F.SCN_STATUS_CSTATE 3 (modScan (fun c => { c with restart := none, waitCmd := (if warm then 2 else 4) :: c.waitCmd }) s)
  | none => s

/-- LKH_SBYCTL.EN becomes 1: SEEK, with control stopped (R206, log 18). -/
def pairEnable (s : State) : State :=
  if s.sn ∨ pairState s ≠ 0 ∨ !isSet s F.SYS_STATUS_READY then s else
  setPair 1 (pairClear (deferRestart (controlStop .command none s)))

/-- LKH_SBYCTL.EN becomes 0: SINGLE; a device leaving PRIMARY or HOT keeps its control state, and a former standby its latch
instants (R206). What waited in SEEK acts. -/
def pairDisable (s : State) : State :=
  let hot := pairState s == 4
  let s := if hot then epochMoved (wr64 A.SCN_EPOCH (rd64 s A.SCN_EPOCH + sbyDelay s) s) else s
  let seek := pairState s == 1
  let s := modPair (fun p => { p with track := none, lost := p.lost || hot }) (setF F.LKH_SBYSTAT_PEERSTATE 7 (setPair 0 s))
  if seek then takeWaiting s else s

/-- The state of the peer changes (LKH_SBYSTAT.PEERSTATE). -/
def setPeer (st : Nat) (s : State) : State :=
  if getF s F.LKH_SBYSTAT_PEERSTATE = st then s else raise A.LKH_EVT 8 (setF F.LKH_SBYSTAT_PEERSTATE st s)

/-! ### Heartbeats, loss and takeover (R212 to R214, R216) -/

/-- A HEARTBEAT goes out (R209). -/
def heartbeatTx (s : State) : State :=
  if pairState s = 0 then s else
  pairSend 2 255 0 ([b8 (pairState s), 0, 0, 0] ++ beBytes 4 (getF s F.LKH_SBYSTAT_PRIMEPOCH) ++ beBytes 8 (time s)) s

/-- The input image bytes a task snapshots. -/
def inputBytesOf (s : State) (t : Nat) : List Nat :=
  ((snapRanges s t).filter (·.src == 0)).flatMap fun r => (List.range r.len).map (r.off + ·)

/-- A task that was not mirrored starts on the new primary (R214): initial windows, first cycle at its next latch. -/
def startOwn (t : Nat) (s : State) : State :=
  let s := match loadedSlot s with
    | some n => each (taskRoles s t) (initWindows n t) s
    | none => s
  let s := setTaskState t 1 (modTask t (fun k => { k with held := false, first := true, warm := false, retbad := false, prevLatch := none, firstLatch := time s }) s)
  if t < 16 then programTask t (time s) s else s

/-- The primary is lost at this instant T0: the standby takes over (R212 to R214). -/
def takeover (s : State) : State :=
  if pairState s ≠ 4 ∨ s.faults.coreStopped then s else
  let t0 := time s
  let dly := sbyDelay s
  let s := wr64 A.LKH_SBYSWT t0 (incF F.LKH_SBYSTAT_PRIMEPOCH 1 s)
  let s := each (mirroredTasks s) (fun t s => each (inputBytesOf s t) (setQuality 1) s) s
  let s := setPair 2 (wr64 A.SCN_EPOCH (rd64 s A.SCN_EPOCH + dly) s)
  let s := heartbeatTx (modPair (fun p => { p with lost := true, track := none }) (epochMoved s))
  let s := raise A.LKH_EVT 9 s
  each ((List.range 32).filter fun t => enabled s t && !mirrored s t) startOwn s

/-- What a standby does when the primary is gone: HOT takes over, JOINING gives up. -/
def primaryGone (s : State) : State :=
  match pairState s with
  | 4 => takeover s
  | 3 => detach s
  | _ => s

/-- HBTMO after the last HEARTBEAT the peer is lost; a primary stays one (R212). -/
def heartbeatTimeout (s : State) : State :=
  match s.pair.hbAt with
  | none => s
  | some t =>
    if time s < t + 1000 * getF s F.LKH_SBYTIME_HBTMO then s else
    primaryGone (setPeer 7 (modPair (fun p => { p with hbAt := none, track := none }) s))

/-- A HEARTBEAT arrives: the peer's state; two primaries resolve the split (R216), where their PRIMEPOCH is equal once the unique ID of
the other is known. -/
def heartbeatRx (s : State) : State :=
  match pairTake 2 s with
  | (s, none) => s
  | (s, some (m, gap)) =>
    let s := afterGap gap s
    let st := beNat (m.payload.take 1)
    let ep := beNat (part m.payload 4 4)
    let s := setPeer (st % 8) (modPair (fun p => { p with peerEpoch := ep }) s)
    if st ≠ 2 then s else
    let s := modPair (fun p => { p with primaryAt := some (time s) }) s
    if pairState s ≠ 2 then setF F.LKH_SBYSTAT_PRIMEPOCH ep s
    else
      let own := getF s F.LKH_SBYSTAT_PRIMEPOCH
      if !s.faults.coreStopped ∧ (own < ep ∨ (own = ep ∧ s.pair.peerUid ≠ 0 ∧ s.pair.peerUid < ownUid s)) then raise A.LKH_EVT 12 (detach s) else s

/-- A RELINQUISH is taken as a loss of the primary (R217). -/
def relinquishRx (s : State) : State :=
  match pairTake 7 s with
  | (s, none) => s
  | (s, some _) => primaryGone s

/-- The primary relinquishes: its sequencer falls silent at the end of the running Towpath cycle (R217). -/
def relinquish (cause : Nat) (s : State) : State :=
  let s := pairSend 7 255 0 [b8 cause] s
  setPair 5 (pairClear (modPair (fun p => { p with silenceDue := true }) s))

/-- LKH_SBYCTL.SWAP on a primary with a HOT standby (R217). -/
def swapPair (s : State) : State :=
  if pairState s ≠ 2 ∨ getF s F.LKH_SBYSTAT_PEERSTATE ≠ 4 ∨ s.faults.coreStopped then s
  else relinquish 0 (controlStop .command none s)

/-- Whether control has stopped since `before`: CSTATE was RUN, and is STOPPED or, by a restart command (R176), STARTING (log 126). -/
def stoppedSince (before s : State) : Bool :=
  getF before F.SCN_STATUS_CSTATE == 2 && (getF s F.SCN_STATUS_CSTATE == 3 || getF s F.SCN_STATUS_CSTATE == 1)

/-- A stop whose cause LKH_SBYSWO selects makes a primary relinquish (R217); a restart that stopped control is not gone on with, for the
device is DETACHED. A stop on a standby leads to DETACHED too (R206) (log 126). `before` is the state before the command. -/
def stopRelinquish (before s : State) : State :=
  let c := getF s F.SCN_STATUS_STOPCAUSE
  if !stoppedSince before s ∨ pairState s ≠ pairState before ∨ s.faults.coreStopped then s
  else if pairState s = 2 ∧ bitAt (rd s A.LKH_SBYSWO).toNat c then
    relinquish c (setF F.SCN_STATUS_CSTATE 3 (modScan (fun x => { x with restart := none }) s))
  else if pairState s = 3 ∨ pairState s = 4 then setPair 5 (pairClear s)
  else s

/-- LKH_SBYCTL.JOIN, and the 10 ms timer: from DETACHED to JOINING (R206). -/
def joinNow (s : State) : State := if pairState s = 5 ∧ isSet s F.LKH_SBYCTL_EN ∧ !s.faults.coreStopped then startJoining s else s

/-- After 10 ms in DETACHED a device that hears a primary enters JOINING. -/
def detachedTimer (s : State) : State :=
  if time s < s.pair.since + 10000000 ∨ getF s F.LKH_SBYSTAT_PEERSTATE ≠ 2 then s else joinNow s

/-! ### Mirroring on the primary (R210, R215) -/

/-- The own-reach lines of the context block and of each snapshot range of a task, with the range, in the order in which they are written
(R152, R209). -/
def snapLines (s : State) (t : Nat) : List (Nat × Option Range) :=
  (taskF s t (F.SCN_TASK_CTX_LINE t), none) ::
    (snapRanges s t).flatMap fun r => (List.range ((r.mem + r.len - 1) / 64 - r.mem / 64 + 1)).map fun k => (r.mem / 64 + k, some r)

/-- SNAPSHOT_COPY_END: the copy ends (R150), and the primary sends the lines of a mirrored cycle as written into ROLE0 (R210). -/
def snapshotEndPair (t : Nat) (s : State) : State :=
  let u := snapshotEnd t s
  if taskState s t ≠ 2 ∨ taskState u t ≠ 3 ∨ pairState u ≠ 2 ∨ !mirrored u t then u else
  pairSend 3 t (getF u (F.SCN_TASK_CYCNO_CYCNO t)) ((snapLines u t).flatMap fun (l, _) => (lineCells l).map (staged u (getF u (F.SCN_TASK_CTL_ROLE0 t)))) u

/-- The window lines of a task, by own-reach line. -/
def windowLines (s : State) (t : Nat) : List Nat :=
  (windowsOf s t (getF s (F.SCN_TASK_CTL_ROLE0 t))).flatMap fun (_, lo, hi) => (List.range ((hi - lo) / 64)).map (lo / 64 + ·)

/-- STATE messages for lines of a task, one line each. -/
def sendLines (t : Nat) (s : State) (ls : List Nat) : State :=
  let role := getF s (F.SCN_TASK_CTL_ROLE0 t)
  each ls (fun l s => pairSend 9 t 0 (beBytes 4 (64 * l) ++ (lineCells l).map (staged s role)) s) s

/-- The entry of a FORCE message for an output byte: the words of R172, most significant byte first (R208, R209). -/
def forceWords (clear : Bool) (off mask val : Nat) : List Byte :=
  beBytes 4 (2 ^ 31 + bit clear * 2 ^ 30 + off) ++ beBytes 4 (256 * mask + val)

/-- Output image offsets with a force mask or value that is not 0. -/
def forcedOffsets (s : State) : List Nat :=
  ((s.mem.filter fun (a, _) => decide (0x30080000 ≤ a ∧ a < 0x300C0000)).map fun (a, _) => (a - 0x30080000) % 0x20000).eraseDups

/-- The entries that take the output forces of one state to those of another. -/
def forceChanges (before s : State) : List Byte :=
  ((forcedOffsets before ++ forcedOffsets s).eraseDups).flatMap fun o =>
    let m0 := byteAt before (0x30080000 + o)
    let m := byteAt s (0x30080000 + o)
    let v := byteAt s (0x300A0000 + o)
    if m0 = m ∧ byteAt before (0x300A0000 + o) = v then [] else
    (if m0 &&& ~~~m = 0 then [] else forceWords true o (m0 &&& ~~~m).toNat 0) ++ (if m = 0 then [] else forceWords false o m.toNat v.toNat)

/-- The primary mirrors a change of its output forces. -/
def sendForces (before s : State) : State :=
  if pairState s ≠ 2 then s else
  match forceChanges before s with
  | [] => s
  | es => pairSend 6 255 0 es s

/-- JOINREQ: the primary streams every window line of every mirrored task and every forced output byte, and tracks writes
from now on (R215). -/
def joinreqRx (s : State) : State :=
  match pairTake 8 s with
  | (s, none) => s
  | (s, some _) =>
    if pairState s ≠ 2 then s else
    let s := modPair (fun p => { p with joined := 0, track := some [] }) s
    let s := each (mirroredTasks s) (fun t s => sendLines t s (windowLines s t)) s
    let es := (forcedOffsets s).flatMap fun o =>
      let m := byteAt s (0x30080000 + o)
      if m = 0 then [] else forceWords false o m.toNat (byteAt s (0x300A0000 + o)).toNat
    if es.isEmpty then s else pairSend 6 255 0 es s

/-- At a commit end of a task not yet joined its dirty lines go out; JOINED follows if they arrive in time (R215). An event task has no next
latch instant: its lines are to arrive within 1 ms (log 154). -/
def joinProgress (t : Nat) (s : State) : State :=
  match s.pair.track with
  | none => s
  | some dirty =>
    if pairState s ≠ 2 ∨ !mirrored s t ∨ hasJoined s t then s else
    let role := getF s (F.SCN_TASK_CTL_ROLE0 t)
    let ls := (windowLines s t).filter fun l => dirty.contains (role, l)
    let s := sendLines t (modPair (fun p => { p with track := some (dirty.filter fun (r, l) => !(r == role && ls.contains l)) }) s) ls
    let next := if t < 16 then firstAfter (phaseBase s t) (periodNs s t) (time s + 1) else time s + 1000000
    if time s + 68 * ls.length * 1000 / 1150 + 10000 < next + sbyDelay s then
      pairSend 10 t (getF s (F.SCN_TASK_CYCNO_CYCNO t)) [] (joinTask t s)
    else s

/-! ### Mirroring on the standby (R211) -/

/-- Whether the device runs mirrored tasks as a standby. -/
def isStandby (s : State) : Bool := pairState s == 3 || pairState s == 4

/-- The snapshot of a cycle, whole. -/
def snapOf (s : State) (t cyc : Nat) : Option Snap := s.pair.snaps.find? fun x => x.task == t && x.cycle == cyc && x.full

/-- Where a byte of SNAP goes: its own-reach address, and the area and offset of the image byte it shows; none for a byte of a line
outside its range. -/
def snapPlaces (s : State) (t : Nat) : List (Option (Nat × Option (Nat × Nat))) :=
  (snapLines s t).flatMap fun (l, r) => (List.range 64).map fun k =>
    match r with
    | none => some (64 * l + k, none)
    | some r => if r.mem ≤ 64 * l + k ∧ 64 * l + k < r.mem + r.len then some (64 * l + k, some (r.src, r.off + (64 * l + k - r.mem))) else none

/-- A mirrored input byte, or the quality codes of mirrored input bytes, go into the own input image (R30, R211). -/
def mirrorInput (src off : Nat) (b : Byte) (s : State) : State :=
  if src = 0 then (if mirroredByte s off then setByte (0x30000000 + off) b s else s)
  else if src = 1 ∨ 0x8000 ≤ off then s
  else each ((List.range 4).filter fun j => mirroredByte s (4 * off + j)) (fun j => setQuality (bitsOf b.toNat (2 * j) 2) (4 * off + j)) s

/-- A standby that misses a snapshot leaves the pair: HOT with DIVERGE (R211), JOINING without (R206). -/
def missedSnap (s : State) : State := if pairState s = 3 then detach s else diverge s

/-- The latch of a mirrored task on the standby: context block, snapshot, LATCHT and CYCNO are the primary's; the mirrored
input bytes go into the own image. Without the snapshot the standby leaves the pair (R211) (log 99). -/
def mirrorLatch (t l : Nat) (s : State) : State :=
  if isStandby s ∧ !hasJoined s t then s else
  let live := s.scan.editLive
  let cyc := nextCycle s t
  match snapOf s t cyc with
  | none => missedSnap s
  | some x =>
    let (s, _) := activateEdit t cyc l s
    let at' := leNat (x.bytes.take 8)
    let s := wr64 (A.SCN_TASK_LATCHT t) at' (setF (F.SCN_TASK_CYCNO_CYCNO t) cyc s)
    let cells := ((snapPlaces s t).zip x.bytes).filterMap fun (p, b) => p.map fun (a, im) => (a, im, b)
    let s := each cells (fun (_, im, b) s => match im with | some (src, off) => mirrorInput src off b s | none => s) s
    let s := modTask t (fun k => { k with first := false, prevLatch := some at', snap := cells.map fun (a, _, b) => (a, b), done0 := 0, done1 := 0, lastDone := l, shift := l - at' }) s
    let s := modPair (fun p => { p with snaps := p.snaps.filter fun y => y.task != t || decide (cyc < y.cycle) }) s
    afterLatch l live (setTaskState t 2 s)

/-- A cyclic task latches at its unit's target (R143, R211, R214): on a standby from the mirrored snapshot. -/
def taskLatch (t l : Nat) (s : State) : State :=
  match pairState s with
  | 0 => latch t l s
  | 2 =>
    if s.pair.lost ∧ mirrored s t then
      match snapOf s t (nextCycle s t) with
      | some _ => mirrorLatch t l s
      | none => latch t l s
    else latch t l s
  | 3 => if mirrored s t then mirrorLatch t l s else s
  | 4 => if mirrored s t then mirrorLatch t l s else s
  | _ => s

/-- HELD_TRIGGER_ACCEPT on a standby: a mirrored event task runs the primary's next cycle from SBYDLY after its latch; without the whole
snapshot by then the standby leaves the pair (R211) (log 99). -/
def mirrorEvent (t : Nat) (s : State) : State :=
  if t < 16 ∨ !mirrored s t ∨ !(taskState s t == 1 || taskState s t == 5) then s else
  match s.pair.snaps.find? fun x => x.task == t && x.cycle == nextCycle s t with
  | none => s
  | some x =>
    if x.bytes.length < 8 ∨ time s < leNat (x.bytes.take 8) + sbyDelay s then s
    else mirrorLatch t (leNat (x.bytes.take 8) + sbyDelay s) s

/-- A SNAP fragment: it joins those of its cycle (R210, R211). -/
def snapRx (s : State) : State :=
  match pairTake 3 s with
  | (s, none) => s
  | (s, some (m, gap)) =>
    if !isStandby s then s else
    let old := s.pair.snaps.find? fun x => x.task == m.task && x.cycle == m.cyc
    let x : Snap := match old with
      | some y => if m.frag = y.frag + 1 then { y with bytes := y.bytes ++ m.payload, frag := m.frag, full := m.last } else y
      | none => { task := m.task, cycle := m.cyc, bytes := m.payload, frag := 0, full := m.last && m.frag == 0 }
    let s := modPair (fun p => { p with snaps := x :: p.snaps.filter fun y => y.task != m.task || y.cycle != m.cyc }) s
    afterGap gap s

/-- Whether the retentive captures of one cycle differ: a line the primary captured is not as the own line stands at the commit, or one this
device captured, written since the capture before, is not among the primary's. Lines that stand in one capture only because the two MRAMs
differ in age are no difference (log 99). -/
def retDiffers (own peer : RetMark) : Bool :=
  peer.lines.any (fun x => !own.lines.contains x) || own.fresh.any fun i => !peer.lines.any (·.1 == i)

/-- Own and received marks of a cycle are compared once both are there (R211). -/
def compareMarks (t cyc : Nat) (s : State) : State :=
  let own := s.pair.marksOwn.find? fun m => m.task == t && m.cycle == cyc
  let peer := s.pair.marksPeer.find? fun m => m.task == t && m.cycle == cyc
  match own, peer with
  | some a, some b =>
    let r0 := s.pair.retsOwn.find? fun m => m.task == t && m.cycle == cyc
    let r1 := s.pair.retsPeer.find? fun m => m.task == t && m.cycle == cyc
    let bad := a != b || r0.any fun x => retDiffers x (r1.getD { task := t, cycle := cyc, lines := [], fresh := [] })
    let s := modPair (fun p => { p with marksOwn := p.marksOwn.filter (· != a), marksPeer := p.marksPeer.filter (· != b),
                                        retsOwn := p.retsOwn.filter (fun m => m.task != t || decide (cyc < m.cycle)),
                                        retsPeer := p.retsPeer.filter (fun m => m.task != t || decide (cyc < m.cycle)) }) s
    if bad then diverge s else s
  | _, _ => s

/-- The lines of a RET payload (R209). -/
def retRecords : Nat → List Byte → List (Nat × List Byte)
  | 0, _ => []
  | n + 1, bs => if bs.length < 66 then [] else (beNat (bs.take 2), (bs.drop 2).take 64) :: retRecords n (bs.drop 66)

/-- RET: the lines go into the standby's own next retentive write (R211). -/
def retRx (s : State) : State :=
  match pairTake 4 s with
  | (s, none) => s
  | (s, some (m, gap)) =>
    if !isStandby s then s else
    let ls := retRecords 21 m.payload
    let old := s.pair.retsPeer.find? fun x => x.task == m.task && x.cycle == m.cyc
    let x : RetMark := { task := m.task, cycle := m.cyc, lines := (match old with | some y => y.lines | none => []) ++ ls, fresh := [] }
    let s := modPair (fun p => { p with retsPeer := x :: p.retsPeer.filter fun y => y.task != m.task || y.cycle != m.cyc }) s
    let b := retTargetOf s
    afterGap gap (syncRetBusy (modScan (fun c => { c with retQueue := some (mergeCapture (c.retQueue.getD []) ls), retTarget := b }) s))

/-- COMMIT: checked against the own commit of the cycle (R211). -/
def commitMsgRx (s : State) : State :=
  match pairTake 5 s with
  | (s, none) => s
  | (s, some (m, gap)) =>
    if !isStandby s then s else
    let x : CommitMark := { task := m.task, cycle := m.cyc, crc := beNat (m.payload.take 4), len := beNat (part m.payload 4 4) }
    afterGap gap (compareMarks m.task m.cyc (modPair (fun p => { p with marksPeer := p.marksPeer ++ [x] }) s))

/-- The entries of a FORCE payload: pairs of words. -/
def forceEntries : Nat → List Byte → List (Nat × Nat)
  | 0, _ => []
  | n + 1, bs => if bs.length < 8 then [] else (beNat (bs.take 4), beNat ((bs.drop 4).take 4)) :: forceEntries n (bs.drop 8)

/-- FORCE: the output forces of the standby follow those of the primary (R211). -/
def forceMsgRx (s : State) : State :=
  match pairTake 6 s with
  | (s, none) => s
  | (s, some (m, gap)) =>
    if !isStandby s then s else
    let es := (forceEntries 180 m.payload).filter fun e => bitAt e.1 31
    afterGap gap (forceDone s (getF s F.SCN_FORCECMD_RESULT) (forceEntriesAct es s))

/-- STATE: window lines are written into the roles of a task of a joining device (R215). -/
def stateRx (s : State) : State :=
  match pairTake 9 s with
  | (s, none) => s
  | (s, some (m, _)) =>
    if pairState s ≠ 3 then s else
    let off := beNat (m.payload.take 4)
    let bs := m.payload.drop 4
    each (taskRoles s m.task) (fun r s => roleWords r off bs s) s

/-- The instant L of a cycle at the primary, which its SNAP brings in the context block (R159, R209). -/
def primaryLatch (s : State) (t cyc : Nat) : Option Nat :=
  (s.pair.snaps.find? fun x => x.task == t && x.cycle == cyc && decide (8 ≤ x.bytes.length)).map fun x => leNat (x.bytes.take 8)

/-- How far the latch instant `l` of the primary lies past the own latch grid of a cyclic task. -/
def gridAhead (s : State) (t l : Nat) : Nat :=
  let base := rd64 s A.SCN_EPOCH + 1000 * getF s (F.SCN_TASK_PHASE_PHASE t)
  let p := periodNs s t
  if base ≤ l then (l - base) % p else (p - (base - l) % p) % p

/-- A joined task is to run the cycle after `cyc`: a cyclic one from SBYDLY after the primary's next latch, as the SNAP of `cyc` shows its
latch grid (R214, R215); without that SNAP the own grid serves. -/
def programJoined (t cyc : Nat) (s : State) : State :=
  if 16 ≤ t then s else
  match primaryLatch s t cyc with
  | some l => programTask t (l + sbyDelay s + 1) (modTask t (fun k => { k with ahead := gridAhead s t l, firstLatch := l + sbyDelay s + 1 }) s)
  | none => programTask t (time s) s

/-- JOINED: the standby runs the task from the next cycle on; with the last mirrored task it enters HOT (R215). From now on the lines of the
task count as captured. -/
def joinedRx (s : State) : State :=
  match pairTake 10 s with
  | (s, none) => s
  | (s, some (m, _)) =>
    if pairState s ≠ 3 ∨ !mirrored s m.task ∨ s.faults.coreStopped then s else
    let t := m.task
    let s := joinTask t (wr (A.SCN_TASK_CYCNO t) (w32 m.cyc) s)
    let s := setTaskState t 1 (modTask t (fun k => { k with held := false, first := false, prevLatch := none, firstLatch := time s }) s)
    let s := each ((retLinesFrom s t).map (·.2)) (retClean (retTargetOf s)) s
    allJoined (programJoined t m.cyc (setF F.SCN_STATUS_CSTATE 2 s))

/-- The retentive lines of a task as they stand, by index in the buffer. -/
def ownRetLines (s : State) (t : Nat) : List (Nat × List Byte) :=
  (retLinesFrom s t).map fun (k, role, line) => (k, (lineCells line).map (staged s role))

/-- The captured lines of a task that were written since the capture before: those dirty for both buffers. They count where the capture is
one the primary takes too, whose cycle RETPER names (R165, R166). -/
def freshLines (s : State) (t : Nat) : List Nat :=
  if getF s (F.SCN_TASK_CYCNO_CYCNO t) % 2 ^ taskF s t (F.SCN_TASK_CTL_RETPER t) ≠ 0 then [] else
  ((s.task t).capture.zip (s.task t).capLines).filterMap fun ((i, _), (role, line)) =>
    if retDirty s 0 role line && retDirty s 1 role line then some i else none

/-- The end of a commit as pairs see it (R210, R211, R215): the primary sends RET and COMMIT, also where the next commit, which starts at
this end, stops control; the standby notes its own marks and keeps its capture out of its MRAM. -/
def commitEndPair (t : Nat) (s : State) : State × List Nat :=
  let buf := (s.task t).buffer
  let cap := (s.task t).capture
  let cyc := getF s (F.SCN_TASK_CYCNO_CYCNO t)
  let crc := crc32 (buf.map (·.2))
  let held := (s.scan.retQueue, s.scan.retTarget)
  let (u, bad) := commitEnd t s
  if !commitGoes t s ∨ !mirrored s t then (u, bad) else
  match pairState u with
  | 2 =>
    let u := if cap.isEmpty then u else pairSendBy 1386 4 t cyc (cap.flatMap fun (i, bs) => beBytes 2 i ++ bs) u
    let u := pairSend 5 t cyc (beBytes 4 crc ++ beBytes 4 buf.length) u
    (if running u then joinProgress t u else u, bad)
  | 0 => (u, bad)
  | _ =>
    let u := syncRetBusy (modScan (fun c => { c with retQueue := held.1, retTarget := held.2 }) u)
    let m : CommitMark := { task := t, cycle := cyc, crc := crc, len := buf.length }
    let r : RetMark := { task := t, cycle := cyc, lines := ownRetLines s t, fresh := freshLines s t }
    let u := modPair (fun p => { p with marksOwn := p.marksOwn ++ [m], retsOwn := p.retsOwn ++ [r] }) u
    (compareMarks t cyc u, bad)

/-- Scan commands as a member of a pair takes them (R207): HOT and JOINING leave on STOP and ignore WARM and COLD. In SEEK a restart waits
until the device is PRIMARY, as that of AUTORUN does, and in DETACHED it has no effect: no task runs in these states (R206) (log 126). -/
def pairScanCommand (op : Nat) (s : State) : State :=
  if op = 0 then s
  else if isStandby s then (if op = 1 then detach s else s)
  else if op ≠ 1 ∧ pairState s = 1 then modScan (fun c => { c with waitCmd := c.waitCmd ++ [op] }) s
  else if op ≠ 1 ∧ pairState s = 5 then s
  else scanCommand op s

/-- A force command as a member of a pair takes it: HOT and JOINING refuse (R207). -/
def pairForceCommand (s : State) : State :=
  if isStandby s then setF F.SCN_FORCECMD_RESULT 1 s else forceCommand s

/-- LKH_SBYMASK keeps only tasks that neither snapshot nor commit local field I/O (R205). -/
def legalMask (s : State) : Nat :=
  (List.range 32).foldl (fun m t =>
    let bad := (snapRanges s t).any (fun r => r.src == 0 && decide (r.off < 0x40)) || (commitRanges s t).any (fun r => decide (r.off < 0x10))
    if bad then m else putBits m t 1 (bitsOf (rd s A.LKH_SBYMASK).toNat t 1)) 0

end Sys2Proof.Machine
end

