-- ==== Sys2Proof/Machine/SelfTest.lean ====
section
/-! DEFINITION. Self-test of the shared blocks, watchdogs, clocks, the DEVICE reaction, fault status clear, the fault log
writer, scrub, and manual tests (19_selftest_safety R486 to R504, R531 to R533; 02_registers R526; 08_banks_mailboxes R251). -/

namespace Sys2Proof.Machine

/-- Change configuration data. -/
def modCfg (f : Cfg → Cfg) (s : State) : State := { s with cfg := f s.cfg }

/-- Change fault data. -/
def modFaults (f : Faults → Faults) (s : State) : State := { s with faults := f s.faults }

/-! ### The DEVICE reaction (R500) -/

/-- Last gasp as far as the links still have a clock: none with the MEMS reference lost (R503). -/
def deviceGasp (cause : Nat) (s : State) : State := if isSet s F.SYS_CLKSTAT_REFOK then lastGasp cause s else s

/-- What the fault sequencer does between detection and reset (R466, R500): safe state at the F-die, a running retentive
write completes and queued ones are abandoned, the entry of the fault is written (log 28). -/
def sequencerEnd (code source : Nat) (data : List Nat) (s : State) : State :=
  let e := faultEntry s code source data
  let s := setFstat 4 s
  let s := modScan (fun c => { c with retQueue := none }) (enterSafe 1 s)
  writeEntry e (retEnd s)

/-- A fault of class DEVICE: the sequence of R500, up to the device reset that it asks for: kind 3 for a watchdog, 7 for
another fault. -/
def deviceFault (code source : Nat) (data : List Nat) (s : State) : State :=
  if s.faults.wedged then s else
  let wd := decide ((0x40 ≤ code ∧ code ≤ 0x43) ∨ code = 0x58)
  let s := sequencerEnd code source data (deviceGasp (if wd then 2 else 5) s)
  modFaults (fun x => { x with wedged := true, due := some (if wd then 3 else 7) }) s

/-- A watchdog expires (R497): `n` is its LASTWD code, `data` word 7 of the entry (R532). -/
def watchdog (code n data : Nat) (s : State) : State :=
  if s.faults.wedged then s else deviceFault code 0 [n, data] (setF F.LKH_DEVRST_LASTWD n s)

/-! ### Watchdogs (R497) -/

/-- The Lockhouse core has missed its service loop for 2 ms, which it does only when it has stopped (R531). -/
def lwdExpire (s : State) : State := watchdog 0x40 1 0 s

/-- The check of the Lockhouse ROM every 100 ms; a failing one expires the LWD with code 0x58. -/
def romCheck (ok : Bool) (s : State) : State :=
  if ok ∨ s.faults.wedged then s else deviceFault 0x58 0 [] (setF F.LKH_DEVRST_LASTWD 1 s)

/-- An item ready for 50 µs while a core that may take it is IDLE (R497); `k` is its place in the ready set. -/
def lockkeeperWatchdog (k : Nat) (s : State) : State :=
  match s.lkp.ready[k]? with
  | none => s
  | some x =>
    let n := reachOf s x.role
    let idle := s.lkp.idle.any fun i => decide (i / 8 = n) && bitAt x.aff (i % 8)
    if n < 5 ∧ idle ∧ x.since + 50000 ≤ time s then watchdog 0x41 2 (itemId x.role x.seg x.task x.index) s else s

/-- A local access has had no response for 200 µs (R497). -/
def interconnectWatchdog (addr : Nat) (s : State) : State := watchdog 0x42 3 addr s

/-- The application watchdog's count reaches its timeout (R497). -/
def awdExpire (s : State) : State :=
  match s.faults.awd with
  | some (tmo, start) => if start + 1000000 * tmo ≤ s.now then watchdog 0x43 4 0 s else s
  | none => s

/-- The count of the application watchdog starts again, with the TMO now in force. -/
def awdStart (s : State) : State := modFaults (fun x => { x with awd := some (getF s F.LKH_AWD_TMO, s.now) }) s

/-- A write of LKH_AWDKICK. -/
def awdKick (key : Nat) (s : State) : State := if key = 0x5AA5 ∧ isSet s F.LKH_AWD_EN then awdStart s else s

/-- The two copies of TIME differ (R490, code 0x25). -/
def timeCopyMismatch (other : Nat) (s : State) : State :=
  deviceFault 0x25 0 [time s % 2 ^ 32, time s / 2 ^ 32, other % 2 ^ 32, other / 2 ^ 32] s

/-! ### Clocks (R526) -/

/-- The CLKSTAT bit of a PLL by the codes of SYS_CLKMEAS.SEL: reaches 0 to 4, 5 Basin, 6 time base, 7 Beetles, 8 CAN,
9 PCIe. -/
def pllBit (p : Nat) : Nat := if p < 5 then 8 + p else if p = 5 then 2 else if p = 6 then 1 else p - 4

/-- The time base goes into holdover (R273, fault 0x32). -/
def holdoverEntry (s : State) : State :=
  if isSet s F.TMB_STATUS_HOLDOVER then s else
  logFault 0x32 0 [] (setHoldover true (raise A.SYS_EVT 3 (setF F.SYS_CLKSTAT_TMBLOCK 0 s)))

/-- The time-base PLL has its lock again (R273). -/
def holdoverExit (s : State) : State :=
  if isSet s F.TMB_STATUS_HOLDOVER then setHoldover false (setF F.SYS_CLKSTAT_TMBLOCK 1 s) else s

/-- A running, locked PLL loses lock (R526): CLKFAIL and its fault (R502). -/
def pllLoss (p : Nat) (s : State) : State :=
  let f : FRef := ⟨A.SYS_CLKSTAT, pllBit p, 1⟩
  if !isSet s f then s
  else if p = 6 then holdoverEntry s
  else
    let s := raise A.SYS_EVT 3 (setF f 0 s)
    if p < 5 then reachFailed p (logFault 0x03 p [p] s)
    else logFault 0x31 0 [(rd s A.SYS_CLKSTAT).toNat] (if p = 7 then holdWaits s else s)

/-- A PLL that lost lock and was not stopped locks again; a failed reach's stays off (R29). -/
def pllRelock (p : Nat) (s : State) : State :=
  if p < 5 ∨ s.cfg.standby ∨ !isSet s F.SYS_STATUS_READY then s
  else if p = 6 then holdoverExit s
  else
    let back := p = 7 ∧ !isSet s F.SYS_CLKSTAT_BTLLOCK
    let s := setF ⟨A.SYS_CLKSTAT, pllBit p, 1⟩ 1 s
    if back then releaseWaits s else s

/-- The MEMS reference fails its check (R526): where the logic die has power, REFOK falls and CLKFAIL is raised (log 168). -/
def refLoss (s : State) : State :=
  let s := modCfg (fun c => { c with refBad := true }) s
  if !isSet s F.SYS_CLKSTAT_REFOK ∨ s.cfg.standby ∨ s.cfg.brownout then s else
  raise A.SYS_EVT 3 (modCfg (fun c => { c with refLost := some s.now }) (setF F.SYS_CLKSTAT_REFOK 0 s))

/-- REFOK has been 0 for 100 µs (code 0x30). -/
def refTimeout (s : State) : State :=
  match s.cfg.refLost with
  | some t => if t + 100000 ≤ s.now then deviceFault 0x30 0 [(rd s A.SYS_CLKSTAT).toNat] s else s
  | none => s

/-- The reference passes its check again (log 168). -/
def refRecovery (s : State) : State :=
  let s := modCfg (fun c => { c with refBad := false }) s
  if isSet s F.SYS_CLKSTAT_REFOK ∨ s.cfg.standby ∨ s.cfg.brownout then s
  else modCfg (fun c => { c with refLost := none }) (setF F.SYS_CLKSTAT_REFOK 1 s)

/-! ### Fault status (R498) -/

/-- Whether the condition of every DEGRADED fault has gone: each block is back in full service. -/
def fullService (s : State) : Bool :=
  (List.range 5).all (fun n => !at5 s.rot.latent n) && (List.range 4).all (fun k => planeState s k != 3)
    && (!bitAt (getF s F.BST_STATUS_FAILED) 3 || isSet s F.BRG_CTL_HEN) && (!bitAt (getF s F.BST_STATUS_FAILED) 4 || isSet s F.BRG_CTL_FEN)
    && s.cfg.blockLatent.toList.all (!·) && bitsOf (rd s A.SYS_CLKSTAT).toNat 2 4 == 15 && !isSet s F.TMB_STATUS_HOLDOVER
    && isSet s F.SYS_STATUS_FIELDOK && getF s F.FIO_STATUS_SAFECAUSE != 2 && getF s F.FIO_STATUS_SAFECAUSE != 4

/-- LKH_FCLR.GO. -/
def fclr (s : State) : State :=
  let clear := fun (b : Bool) (f : FRef) (s : State) => if b then setF f 0 s else s
  let s := clear (fullService s) F.LKH_FSTAT_DEGRADED s
  let s := clear (!anyFailed s) F.LKH_FSTAT_REACH s
  let s := clear (getF s F.SCN_STATUS_CSTATE == 2) F.LKH_FSTAT_STOP s
  syncFaultN (setF F.LKH_FSTAT_DEVRST 0 s)

/-- The Lockhouse writes the oldest fault log entry that waits, after any retentive write (R533); not while its core has
stopped (R531). -/
def faultLogWrite (s : State) : State :=
  if s.faults.coreStopped ∨ s.scan.retRun.isSome then s else
  match s.faults.queue with
  | e :: t => writeEntry e (modFaults (fun x => { x with queue := t }) s)
  | [] => s

/-! ### Slices of the shared blocks (R489 to R491) -/

/-- The slices of a shared block. -/
def slicesOf (b : Nat) : List Nat := (List.range 88).filter fun k => blockOfSlice k == b

/-- Whether a claim window of an enabled Towpath port is open. -/
def claimOpen (s : State) : Bool :=
  (List.range 24).any fun p =>
    let a := s.tow.start + 250 * getF s (F.TOW_PORT_CLAIM_CLAIMOFF p)
    isSet s (F.TOW_PORT_CFG_EN p) && decide (a ≤ time s ∧ time s < a + 250 * getF s (F.TOW_PORT_CLAIM_CLAIMLEN p))

/-- The gap the slices of a block need (R489). A Basin plane already taken out for its slice is tested also where another plane fails
meanwhile (R324). -/
def gapFor (s : State) (k : Nat) : Bool :=
  match blockOfSlice k with
  | 0 =>
    let p := k / 12
    planeState s p == 2 && (isSet s ⟨A.BAS_PLANE, 4 + p, 1⟩ || (List.range 4).all fun q => q == p || planeState s q == 0)
  | 1 =>
    (List.range 32).all (fun t => taskState s t == 0 || taskState s t == 1) && s.rot.gap.isNone
      && (!running s || (List.range 16).all fun t => !enabled s t || decide (time s + 25000 ≤ firstAfter (phaseBase s t) (periodNs s t) (time s)))
  | 2 => !towRuns s || (allAnswered s && decide (time s + 25000 ≤ s.tow.start + towPeriod s) && !claimOpen s)
  | 3 => s.brg.waits.isEmpty && (s.brg.gathers.all fun g => g.use != .host && g.use != .qspi) && s.rot.held.all fun h => h.who.id != 46
  | 4 => s.brg.reads.isEmpty && s.wfb.bridge.isEmpty && s.rot.held.all fun h => h.who.id != 47
  | _ => true

/-- SHARED_SLICE_START for slice `k`: a Basin plane is drained first; inside the gap the block is frozen. No slice starts while
control stops, in a handover window, or while the Lockhouse core has stopped (log 100). -/
def sliceStart (k : Nat) (s : State) : State :=
  if 88 ≤ k ∨ (sliceRunning s).isSome ∨ !isSet s F.SYS_STATUS_READY ∨ s.faults.coreStopped ∨ s.rot.window.isSome ∨ s.scan.aborting
    ∨ s.cfg.slices.contains k then s
  else if k < 48 ∧ planeState s (k / 12) = 0 then
    if (List.range 4).all fun q => planeState s q == 0 then planeDrain (k / 12) (setF ⟨A.BAS_PLANE, 4 + k / 12, 1⟩ 1 s) else s
  else if !gapFor s k then s
  else setF F.BST_STATUS_RUNNING k (if k < 48 then setF ⟨A.BAS_PLANE, 4 + k / 12, 1⟩ 1 s else s)

/-- A slice of block `b` has failed its signature (R502). -/
def sliceFails (k b : Nat) (sig : Word) (s : State) : State :=
  let s := satF (F.BST_BLK_FAILS b) 1 (setF ⟨A.BST_STATUS, b, 1⟩ 1 (raise A.BST_EVT 0 s))
  match b with
  | 0 => logFault 0x2A (k / 12) [k / 12, k] (raise A.BAS_EVT 0 (modBasin (fun x => { x with sound := bvSet x.sound (k / 12) false }) (setPlane (k / 12) 3 s)))
  | 1 => deviceFault 0x21 0 [k, sig.toNat] s
  | 2 => deviceFault 0x22 0 [k, sig.toNat] s
  | 3 => logFault 0x23 0 [k, sig.toNat] (setF F.BRG_CTL_HEN 0 s)
  | 4 => logFault 0x24 0 [k, sig.toNat] (setF F.BRG_CTL_FEN 0 s)
  | _ => deviceFault 0x25 0 [k] s

/-- Slice `k` of block `b` is done; a block all of whose slices are done has been tested, and its next round begins. -/
def sliceDone (k b : Nat) (s : State) : State :=
  let l := k :: s.cfg.slices
  if (slicesOf b).all l.contains then
    modCfg (fun c => { c with slices := l.filter fun x => blockOfSlice x != b, blockAt := vset c.blockAt b s.now,
                              blockLatent := vset c.blockLatent b false }) s
  else modCfg (fun c => { c with slices := l }) s

/-- The Lockkeeper goes on after a slice: due delays are released (R489), idle cores ask again, and items that became ready meanwhile are
offered. -/
def lkpThaw (s : State) : State :=
  let s := releaseDue (time s) s.lkp.delay.length s
  let s := each s.lkp.idle requestWork s
  each s.lkp.ready (fun x s => offerAgain (reachOf s x.role) x s) s

/-- SHARED_SLICE_END: whether the restored state matches its CRC, whether the signature is right, and the signature (log 100). -/
def sliceEnd (restoreOk sigOk : Bool) (sig : Word) (s : State) : State :=
  match sliceRunning s with
  | none => s
  | some k =>
    let b := blockOfSlice k
    let s := setF F.BST_STATUS_RUNNING 0xFF s
    let s := if k < 48 then setF ⟨A.BAS_PLANE, 4 + k / 12, 1⟩ 0 s else s
    if !restoreOk then deviceFault 0x27 b [b, k] (setF ⟨A.BST_STATUS, b, 1⟩ 1 s) else
    let s := if sigOk then setF ⟨A.BST_STATUS, b, 1⟩ 0 s else sliceFails k b sig s
    let s := if k < 48 then planeReturn (k / 12) s else s
    let s := if b = 1 then lkpThaw s else if b = 5 then passCaptures s else s
    sliceDone k b s

/-- A shared block has gone 1.2 s without completing its slices (R491, fault 0x26). -/
def sharedLatent (b : Nat) (s : State) : State :=
  if 6 ≤ b ∨ vget s.cfg.blockLatent b ∨ !isSet s F.SYS_STATUS_READY ∨ s.now ≤ vget s.cfg.blockAt b + 1200000000 then s else
  logFault 0x26 b [b, (s.now - vget s.cfg.blockAt b) / 1000000]
    (raise A.BST_EVT 1 (modCfg (fun c => { c with blockLatent := vset c.blockLatent b true }) s))

/-- BST_BLKb.AGE as it reads. -/
def blockAge (s : State) (b : Nat) : Nat := min ((s.now - vget s.cfg.blockAt b) / 1000000) (2 ^ 21 - 1)

/-! ### Scrub (R251, R492) -/

/-- The fault log data of a double-bit error found by scrub: memory and address. -/
def scrubLog (mem a : Nat) (s : State) : State := logFault 0x07 mem [mem, a] s

/-- Repair a line of the firmware area of reach `n` from the slot its half was loaded from, else from the same version in
another reach; else the reach is SUSPECT (R492). -/
def repairFirmware (n off : Nat) (s : State) : State :=
  let h := if off < 0xE0000 then 0 else 1
  let base := 0xC0000 + 0x20000 * h
  let line := (off - base) / 64 * 64
  let of := fun m i => if i = 0 then at5 s.rot.fw0 m else at5 s.rot.fw1 m
  let (v, slot) := of n h
  let fix := fun bs (s : State) =>
    each (List.range 8) (fun k => eccClear (reachAddr n (base + line) + 8 * k)) (putBytes (reachAddr n (base + line)) bs s)
  let other := ((List.range 5).flatMap fun m => [(m, 0), (m, 1)]).find? fun (m, i) =>
    m != n && !failed s m && (of m i).1 == v &&
      (List.range 8).all fun k => SMap.get? s.ecc (reachAddr m (0xC0000 + 0x20000 * i + line) + 8 * k) != some true
  match (if isSet s (F.CFG_SLOT_VALID slot) then firmwareOf s slot v else none) with
  | some x => fix ((sectionBytes s slot x ++ List.replicate 0x20000 0).drop line |>.take 64) s
  | none => match other with
    | some (m, i) => fix (bytesAt s (reachAddr m (0xC0000 + 0x20000 * i + line)) 64) s
    | none => markSuspect n s

/-- A bit error of a word comes to be: a double-bit error where it already had one (log 94). -/
def bitError (w : Nat) (double : Bool) (s : State) : State :=
  { s with ecc := SMap.ins s.ecc w (double || (SMap.get? s.ecc w).isSome) }

/-- The scrub reads the word of reach `n` at an own-reach offset (R251, R492): a single-bit error is corrected and counted, a
double-bit error counted, logged and, in a firmware area, repaired. It pauses while the reach is parked (R262), as `scrub` says. -/
def scrubReach (n off : Nat) (s : State) : State :=
  let w := reachAddr n (off / 8 * 8)
  match SMap.get? s.ecc w with
  | none => s
  | some false => eccClear w (eccNote n off false true 0 s)
  | some true =>
    let s := eccNote n off true true 0 s
    if off < 0xC0000 then scrubLog n w s
    else if s.faults.coreStopped then s
    else scrubLog n w (repairFirmware n off s)

/-- The scrub reads the word of the image store at an offset (R492). -/
def scrubImage (off : Nat) (s : State) : State :=
  let w := 0x30000000 + off / 8 * 8
  match SMap.get? s.ecc w with
  | none => s
  | some false => eccClear w s
  | some true => scrubLog 5 w s

/-- The scrub reads word `k` of a memory, coded as MEM of R495, and meets a bit error there: 0 none, 1 single, 2 double. A word of
the mailbox storage is word `k % 4096` of mailbox `k / 4096` (log 94). -/
def scrub (mem k err : Nat) (s : State) : State :=
  if mem < 5 then
    let off := 8 * k % 0x100000
    if reachState s mem = 2 ∨ reachState s mem = 4 ∨ 2 ≤ getF s (F.RCH_PWR_PSTATE mem) then s else
    scrubReach mem off (if err = 0 then s else bitError (reachAddr mem off) (err == 2) s)
  else if mem = 5 then
    let off := 8 * k % 0x100000
    scrubImage off (if err = 0 then s else bitError (0x30000000 + off) (err == 2) s)
  else if mem = 8 ∧ err = 2 then
    let b := s.mb (k / 4096)
    scrubLog 8 k (s.setMb (k / 4096) { b with words := b.words.mapIdx fun i x => if i = k % 4096 then { x with bad := true } else x })
  else if mem = 8 ∧ err = 1 then raise A.MBX_EVT 2 s
  else if mem = 7 ∧ err = 2 then scrubLog 7 k s
  else s

/-! ### Test access, fuse repair (R494, R496) -/

/-- Bytes that nothing constrains fill `n` bytes at `a` (log 103). -/
def freeBytes (a n : Nat) (s : State) : State :=
  let fill := (List.range n).filterMap fun k =>
    let b := (Config.freeWord (s.free + k)).setWidth 8
    if b = memReset (a + k) then none else some (a + k, b)
  { s with mem := s.mem.filter (fun c => decide (c.1 < a)) ++ fill ++ s.mem.filter (fun c => decide (a + n ≤ c.1)), free := s.free + n }

/-- The local memory a test destroys (R488): first byte and length, for the memories that have an address. -/
def testedMemory (mem : Nat) : Option (Nat × Nat) :=
  if mem < 5 then some (reachAddr mem 0, 0x100000) else if mem = 5 then some (0x30000000, 0x100000)
  else if mem = 6 then some (0x20000000, 0x800000) else none

/-- BST_MANCMD.GO: only in MANUFACTURE and RETURN, from a privileged initiator or the debug port; LBIST only of a reach. -/
def manualTest (s : State) : State :=
  let lcs := getF s F.SYS_STATUS_LCS
  let mem := getF s F.BST_MANCMD_MEM
  if !(lcs = 1 ∨ lcs = 3) ∨ 9 ≤ mem ∨ (isSet s F.BST_MANCMD_KIND ∧ 5 ≤ mem) then setF F.BST_MANCMD_RESULT 2 s
  else modCfg (fun c => { c with manual := some mem }) s

/-- The reserved parts of the diagnostics area (R148). -/
def reservedByte (a : Nat) : Bool := decide (0x300C8000 ≤ a ∧ a < 0x300D0000) || decide (0x300F0000 ≤ a ∧ a < 0x30100000)

/-- What MBIST leaves of a memory: bytes that nothing constrains, but for those that read 0 (R148); an empty matching store or mailbox
storage (log 103). -/
def destroy (mem : Nat) (s : State) : State :=
  match testedMemory mem with
  | some (a, n) =>
    let s := freeBytes a n { s with ecc := s.ecc.filter fun x => !decide (a ≤ x.1 ∧ x.1 < a + n) }
    { s with mem := s.mem.filter fun x => !reservedByte x.1 }
  | none => if mem = 7 then modLkp (fun l => { l with store := [], overflow := [] }) s else { s with mbox := Vector.replicate 64 Mbox.reset }

/-- MANUAL_TEST_END: LBIST with its result and first failing slice, or MBIST with the failing rows and columns found. -/
def manualTestEnd (pass : Bool) (slice : Nat) (bad : List (Nat × Bool × Nat)) (s : State) : State :=
  match s.cfg.manual with
  | none => s
  | some mem =>
    let s := modCfg (fun c => { c with manual := none }) s
    if isSet s F.BST_MANCMD_KIND then
      let s := setF (F.BST_REACH_LRESULT mem) (if pass then 1 else 2) s
      setF F.BST_MANCMD_RESULT (bit (!pass)) (if pass then s else setF (F.BST_REACH_SLICE mem) slice s)
    else
      let before := s.cfg.repairs.length
      let (s, u) := repairAll mem bad (destroy mem s)
      let s := if mem < 5 then
          let r := if u.isSome then 3 else if before < s.cfg.repairs.length then 2 else 1
          syncSpares mem (setF (F.BST_REACH_MRESULT mem) r (match u with | some b => setF (F.BST_REACH_BANK mem) b s | none => s))
        else s
      setF F.BST_MANCMD_RESULT (bit u.isSome) s

/-- BST_FUSECMD.GO: in MANUFACTURE and RETURN the fuses take the soft repairs not yet fused, as many as they still hold, which
the spec does not number (a free value). -/
def fuseRepair (s : State) : State :=
  let lcs := getF s F.SYS_STATUS_LCS
  if !(lcs = 1 ∨ lcs = 3) then setF F.BST_FUSECMD_RESULT 1 s else
  let todo := s.cfg.repairs.filter fun x => !x.fused
  let room := freeNat s
  let fuse := todo.take room
  let s := usedFree s
  let s := modCfg (fun c => { c with repairs := c.repairs.map fun x => if fuse.contains x then { x with fused := true } else x }) s
  let s := each fuse (fun x s =>
    let same := s.cfg.repairs.filter fun y => y.mem == x.mem && y.unit == x.unit && y.col == x.col
    let spare := same.findIdx fun y => y.index == x.index
    repairLog { x with fused := true } spare ((if x.col then 4 else 8) - same.length) s) s
  setF F.BST_FUSECMD_RESULT (if todo.length ≤ room then 0 else 2) s

/-! ### Register hooks -/

/-- What a write to a fault register of the LKH, or to a BST register, starts; the watchdog kick and its enable are the watchdog's own
(log 101). -/
def hookTest (i : WInfo) (s : State) : State :=
  if i.pa = A.LKH_AWD then (if bitAt i.new 31 ∧ !bitAt i.old 31 then awdStart s else s)
  else if i.pa = A.LKH_AWDKICK then (if i.wo ≠ 0 then awdKick i.wo s else s)
  else if i.pa = A.LKH_FCFG then syncFaultN s
  else if i.pa = A.LKH_FCLR ∧ i.cmds ≠ 0 then fclr s
  else if i.pa = A.BST_FUSECMD ∧ i.cmds ≠ 0 then fuseRepair s
  else if i.pa = A.BST_MANCMD ∧ i.cmds ≠ 0 then manualTest s
  else s

end Sys2Proof.Machine
end

