-- ==== Sys2Proof/Machine/Cfg.lean ====
section
/-! DEFINITION. The CFG block: supply monitors, calibration, verification, MRAM copy, life cycle and keys, attestation, block soft
reset, device standby (18_startup R463 to R466, R470, R476 to R485). -/

namespace Sys2Proof.Machine

/-! ### Supply monitors (R463 to R466) -/

/-- VIN_L falls below the warning level, to `vin` in 10 mV (R465). -/
def supplyWarning (vin : Nat) (s : State) : State :=
  if isSet s F.SYS_STATUS_PWRWARN then s else
  retStart (raise A.SYS_EVT 4 (setF F.SYS_STATUS_PWRWARN 1 (modCfg (fun c => { c with dip := some (s.now, vin) }) s)))

/-- VIN_L rises above 4.45 V before it reached the reset level; `vin` is the lowest voltage of the dip (R465, fault 0x38). -/
def supplyDipEnd (vin : Nat) (s : State) : State :=
  match s.cfg.dip with
  | none => s
  | some (t, v) =>
    let s := setF F.SYS_STATUS_PWRWARN 0 (modCfg (fun c => { c with dip := none }) s)
    let s := setF F.CFG_PWRLOG_DUR (min ((s.now - t) / 10000) 65535) (setF F.CFG_PWRLOG_MIN (min (min v vin) 511) (satF F.CFG_PWRLOG_COUNT 1 s))
    logFault 0x38 0 [(rd s A.CFG_PWRLOG).toNat] (raise A.CFG_EVT 5 s)

/-! ### Calibration (R470, R484) -/

/-- Calibration items end: bit k of `fail` for each item k of `items` that used its factory trim. -/
def calibrated (items fail : Nat) (s : State) : State :=
  let bad := fail &&& items
  let s := setF F.CFG_STATUS_CALFAIL ((getF s F.CFG_STATUS_CALFAIL &&& (0xFF ^^^ items)) ||| bad) s
  if bad = 0 then s else logFault 0x50 0 [getF s F.CFG_STATUS_CALFAIL] (raise A.CFG_EVT 0 s)

/-- Items 4 to 6 run over the field link: those that start-up left due, or a FRECAL. -/
def fieldCalibration (fail : Nat) (s : State) : State :=
  if !isSet s F.SYS_STATUS_FIELDOK ∨ (!s.cfg.calDue ∧ !s.cfg.recal) then s else
  calibrated 0x70 fail (modCfg (fun c => { c with calDue := false, recal := false }) s)

/-! ### Verification and the MRAM copy (R482, R483) -/

/-- CFG_CMD.VERIFY. -/
def verifyStart (s : State) : State :=
  if s.cfg.verify.isSome then s else
  setF F.CFG_STATUS_VBUSY 1 (modCfg (fun c => { c with verify := some (getF s F.CFG_CMD_VSLOT) }) s)

/-- A verification ends. -/
def verifyDone (s : State) : State :=
  match s.cfg.verify with
  | none => s
  | some n =>
    let e := slotVerify s n
    raise A.CFG_EVT 3 (setF F.CFG_STATUS_VBUSY 0 (showSlot n e (e == 0) (modCfg (fun c => { c with verify := none }) s)))

/-- Whether `n` bytes at MRAM offset `a` touch the part of `m` bytes at `b`. -/
def touches (a n b m : Nat) : Bool := decide (a < b + m ∧ b < a + n)

/-- Whether a copy to MRAM offset `dst` of `n` bytes is refused (R482). -/
def mcopyRefused (s : State) (dst n : Nat) : Bool :=
  (match loadedSlot s with | some k => touches dst n (0x800000 * k) 0x800000 | none => false)
    || (getF s F.LKH_FWSTAT_STATE != 0 && touches dst n (0x800000 * getF s F.LKH_FWCTL_SRC) 0x800000)
    || touches dst n 0x1000000 0x450000

/-- The slot that a line of a copy is written into loses VALID (log 35). -/
def touchSlots (dst n : Nat) (s : State) : State :=
  each (List.range 2) (fun k s => if touches dst n (0x800000 * k) 0x800000 then
    setF (F.CFG_SLOT_VALID k) 0 (modCfg (fun c => { c with torn := if c.torn = some k then none else c.torn }) s) else s) s

/-- CFG_MCOPY.GO. -/
def mcopyStart (s : State) : State :=
  if s.cfg.mcopy.isSome then s else
  let src := getF s F.CFG_MSRC_ADDR * 64
  let dst := getF s F.CFG_MDST_OFF * 64
  let n := getF s F.CFG_MCOPY_LINES
  if mcopyRefused s dst (64 * n) then raise A.CFG_EVT 4 (setF F.CFG_MCOPY_RESULT 1 s) else
  setF F.CFG_STATUS_MBUSY 1 (modCfg (fun c => { c with mcopy := some (src, dst, n) }) s)

/-- Copy `n` lines to MRAM offset `dst` with a reader of local lines: the RESULT code, or none where a line's reach must first wake; the
copy then goes on from that line. It stops at a read error, or at the end of the MRAM (log 35). -/
def copyLines (read : Nat → State → State × Option (Except BusErr (List Byte))) (src dst : Nat) : Nat → State → State × Option Nat
  | 0, s => (s, some 0)
  | n + 1, s =>
    if 0x2000000 ≤ dst then (s, some 3) else
    match read src s with
    | (s, some (.error .ecc)) => (s, some 2)
    | (s, some (.error _)) => (s, some 3)
    | (s, none) => (modCfg (fun c => { c with mcopy := some (src, dst, n + 1) }) s, none)
    | (s, some (.ok bs)) =>
      let s := each (List.range 8) (fun k => eccClear (0x40000000 + dst + 8 * k)) (putBytes (0x40000000 + dst) bs (touchSlots dst 64 s))
      copyLines read (src + 64) (dst + 64) n s

/-- An MRAM copy ends; it pauses while PWRWARN is 1, and behind retentive writes and fault log entries being written. -/
def mcopyDone (read : Nat → State → State × Option (Except BusErr (List Byte))) (s : State) : State :=
  match s.cfg.mcopy with
  | none => s
  | some (src, dst, n) =>
    if isSet s F.SYS_STATUS_PWRWARN ∨ s.scan.retRun.isSome ∨ (!s.faults.queue.isEmpty ∧ !s.faults.coreStopped) then s else
    match copyLines read src dst n s with
    | (s, some r) => raise A.CFG_EVT 4 (setF F.CFG_STATUS_MBUSY 0 (setF F.CFG_MCOPY_RESULT r (modCfg (fun c => { c with mcopy := none }) s)))
    | (s, none) => s

/-! ### Life cycle and keys (R476, R477) -/

/-- A free number of `32 × n` bits. -/
def freeWords : Nat → State → State × Nat
  | 0, s => (s, 0)
  | n + 1, s =>
    let v := (freeWord s).toNat
    let (s, r) := freeWords n (usedFree s)
    (s, v + 2 ^ 32 * r)

/-- The value of words `w` to `w + 7` of CFG_ATTBUF, word `w` most significant. -/
def attValue (s : State) (w : Nat) : Nat := (List.range 8).foldl (fun v i => v * 2 ^ 32 + (rd s (A.CFG_ATTBUF (w + i))).toNat) 0

/-- Store a 256-bit value in words `w` to `w + 7` of CFG_ATTBUF. -/
def putAtt (w v : Nat) (s : State) : State :=
  each (List.range 8) (fun i => wr (A.CFG_ATTBUF (w + i)) (w32 (v / 2 ^ (32 * (7 - i))))) s

/-- Whether slot `k` of the key store is programmed, and whether it is revoked. -/
def keyProgrammed (s : State) (k : Nat) : Bool := bitAt (getF s F.CFG_KEYSTAT_PROG) k

/-- Whether a slot of the key store is revoked. -/
def keyRevoked (s : State) (k : Nat) : Bool := bitAt (getF s F.CFG_KEYSTAT_REVOKED) k

/-- The condition of R477 for an operation. -/
def lcAccepts (s : State) (op key : Nat) : Bool :=
  let lcs := getF s F.SYS_STATUS_LCS
  match op with
  | 1 => lcs == 0
  | 2 => lcs == 1 && isSet s F.CFG_KEYSTAT_DSKPROG && getF s F.CFG_KEYSTAT_PROG != 0
  | 3 => lcs == 2 && (loadedSlot s).any fun n => bitAt (hdr s n 6 2) 0 && beVal (bytesAt s (slotAt n + 0x60) 16) == ownUid s
  | 4 => lcs != 4
  | 5 => lcs == 2 && !((loadedSlot s).any fun n => keyIdx s n == key)
      && (List.range 4).any fun k => k != key && keyProgrammed s k && !keyRevoked s k
  | 6 => lcs == 2 && (loadedSlot s).isSome
  | 7 => lcs == 1 && !keyProgrammed s key
  | 8 => lcs == 1 && !isSet s F.CFG_KEYSTAT_DSKPROG
  | _ => false

/-- What an accepted operation does: a life-cycle change begins, the other fuses are blown at once. -/
def lcPerform (op key : Nat) (s : State) : State :=
  match op with
  | 1 | 2 | 3 | 4 => setF F.CFG_LCCMD_RESULT 2 (modCfg (fun c => { c with lcChange := some op }) s)
  | 5 => setF ⟨A.CFG_KEYSTAT, 8 + key, 1⟩ 1 s
  | 6 => match loadedSlot s with
    | some n => setF F.CFG_KEYSTAT_ROLLCNT (max (getF s F.CFG_KEYSTAT_ROLLCNT) (hdr s n 0x15 1)) s
    | none => s
  | 7 => setF ⟨A.CFG_KEYSTAT, 4 + key, 1⟩ 1 (modCfg (fun c => { c with fuses := { c.fuses with
      keyHash := vset c.fuses.keyHash key (attValue s 0) } }) s)
  | _ =>
    let (s, v) := freeWords 8 s
    setF F.CFG_KEYSTAT_DSKPROG 1 (modCfg (fun c => { c with fuses := { c.fuses with dsk := v } }) s)

/-- CFG_LCCMD.GO with the CONFIRM byte of the same write (R477); BUSY while a life-cycle change blows its fuses (log 29). -/
def lcCommand (confirm : Nat) (s : State) : State :=
  let op := getF s F.CFG_LCCMD_OP
  let key := getF s F.CFG_LCCMD_KEY
  if s.cfg.lcChange.isSome then setF F.CFG_LCCMD_RESULT 2 s
  else if op = 0 then s
  else if confirm = 0xC5 ∧ lcAccepts s op key then lcPerform op key (setF F.CFG_LCCMD_RESULT 0 s)
  else setF F.CFG_LCCMD_RESULT 1 s

/-- A life-cycle change has blown its fuses (R477): the state applies from the next device reset; DSKKILL is blown on entry to
RETURN or SCRAPPED (R476). A blown state is never taken back (log 29). -/
def lcFuseDone (s : State) : State :=
  match s.cfg.lcChange with
  | none => s
  | some n =>
    let s := modCfg (fun c => { c with lcChange := none, fuses := { c.fuses with lcs := max c.fuses.lcs n } }) s
    let s := if 3 ≤ n then setF F.CFG_KEYSTAT_DSKKILL 1 s else s
    raise A.CFG_EVT 6 (setF F.CFG_LCCMD_RESULT 0 s)

/-! ### Attestation (R478) -/

/-- The message of an attestation. -/
def attMessage (s : State) : Nat :=
  sha256 (beOf 32 (attValue s 0) ++ beOf 16 (ownUid s) ++ ((List.range 4).flatMap fun i => beOf 4 (rd s (A.CFG_HASH i)).toNat)
    ++ [b8 (getF s F.SYS_STATUS_LCS)])

/-- CFG_ATTCMD.GO. -/
def attestStart (s : State) : State :=
  if s.cfg.fuses.key.isNone then setF F.CFG_ATTCMD_RESULT 1 s
  else if s.cfg.attest.isSome then s
  else modCfg (fun c => { c with attest := some (attMessage s) }) s

/-- The signature is ready; its nonce is a free value. -/
def attestDone (s : State) : State :=
  match s.cfg.attest, s.cfg.fuses.key with
  | some h, some d =>
    let (s, nonce) := freeWords 8 s
    let (r, v) := ecdsaSign d h nonce
    let (x, y) := (ecMul d g256).getD (0, 0)
    let s := putAtt 32 y (putAtt 24 x (putAtt 16 v (putAtt 8 r s)))
    raise A.CFG_EVT 7 (setF F.CFG_ATTCMD_RESULT 0 (modCfg (fun c => { c with attest := none }) s))
  | _, _ => modCfg (fun c => { c with attest := none }) s

/-! ### Block soft reset (R480) -/

/-- Every register of the 64 KiB block `hi` takes its reset value. -/
def clearBlock (hi : Nat) (s : State) : State :=
  { s with regs := s.regs.filter fun r => r.1 / 0x10000 != hi, evtLast := s.evtLast.filter fun r => r.1 / 32 / 0x10000 != hi,
           rshadow := s.rshadow.filter fun r => r.1 / 64 != hi, wshadow := s.wshadow.filter fun r => r.1 / 64 != hi }

/-- Reset one block's registers; the block acts as after a write of EN = 0 in its own chapter, and lets its compare units go. -/
def resetBlock (code : Nat) (s : State) : State :=
  if !blockCodes.contains code then s else
  let hi := 0x6000 + code
  if code = 0x08 then resolveUnits (clearBlock hi (towDisable s))
  else if code = 0x0A ∨ code = 0x0B then
    clearBlock hi (each (List.range 8) (fun e => engStop (8 * (code - 0x0A) + e)) s)
  else if code = 0x0D then resolveUnits (fioResend (clearBlock hi s))
  else if code = 0x0E then
    let old := (rd s A.WFB_CTL).toNat
    clearBlock hi (wfbCtl old (setF F.WFB_CTL_EN 0 s))
  else if code < 0x40 then
    let p := code - 0x20
    let old := (rd s (A.ETH_CTL p)).toNat
    clearBlock hi (ethCtlWritten p old (setF (F.ETH_CTL_EN p) 0 s))
  else
    let n := code - 0x40
    let old := (rd s (A.CAN_CTL n)).toNat
    clearBlock hi (canDisable n (canCtl n old (setF (F.CAN_CTL_EN n) 0 s)))

/-! ### Device standby (R481) -/

/-- The device enters standby: last gasp, SAFE, and everything off but the Lockhouse, the time base, the image store and the
mailbox storage. -/
def enterStandby (s : State) : State :=
  let s := enterSafe 1 (deviceGasp 4 s)
  let s := each (List.range 5) (fun n s => setLock n 0 (holdCores n .off s)) s
  let s := setF F.SYS_CLKSTAT_BASLOCK 0 (setF F.SYS_CLKSTAT_PCILOCK 0 s)
  let s := each (List.range 24) (fun p => setLstate p 0) (each (List.range 4) (fun n s => if wlState s n = 0 then s else linkDown n s) s)
  let s := each (List.range 8) canDisable s
  let s := setF F.PCI_STATUS_LINK 0 { s with basin := Basin.reset, brg := { s.brg with opened := false } }
  modCfg (fun c => { c with standby := true, standbyDue := false }) s

/-- CFG_CMD.STANDBY: accepted while CSTATE is LOAD or STOPPED; it waits for a running retentive write. -/
def standbyCommand (s : State) : State :=
  let c := getF s F.SCN_STATUS_CSTATE
  if (c ≠ 0 ∧ c ≠ 3) ∨ s.cfg.standby then s
  else if s.scan.retRun.isSome then modCfg (fun c => { c with standbyDue := true }) s
  else enterStandby s

/-- A retentive write has ended: a standby that waited for it is entered. -/
def standbyNow (s : State) : State := if s.cfg.standbyDue ∧ s.scan.retRun.isNone then enterStandby s else s

/-- What a write to a CFG register starts. -/
def hookCfg (i : WInfo) (s : State) : State :=
  if i.cmds = 0 then s
  else if i.pa = A.CFG_CMD then
    let s := if bitAt i.cmds 2 then verifyStart s else s
    let s := if bitAt i.cmds 4 ∧ !s.cfg.recal then modCfg (fun c => { c with recal := true }) s else s
    if bitAt i.cmds 31 then standbyCommand s else s
  else if i.pa = A.CFG_MCOPY then mcopyStart s
  else if i.pa = A.CFG_LCCMD then lcCommand (bitsOf i.wo 8 8) s
  else if i.pa = A.CFG_BLKRST then resetBlock (getF s F.CFG_BLKRST_BLOCK) s
  else if i.pa = A.CFG_ATTCMD then attestStart s
  else s

end Sys2Proof.Machine
end

