-- ==== Sys2Proof/Machine/BridgeBase.lean ====
section
/-! DEFINITION. What the bridges do beside performing accesses: sequence numbers, the posted-error log, fabric packets, line buffers,
semaphores, MSI-X (17_bridges R444, R447 to R453, R456 to R460). -/

namespace Sys2Proof.Machine

/-- Change bridge data. -/
def modBrg (f : Brg → Brg) (s : State) : State := { s with brg := f s.brg }

/-- A write passes through the host bridge: its line buffers, and the lines it is fetching, are dropped. -/
def dropHostLines (s : State) : State :=
  modBrg (fun b => { b with hostBufs := [], gathers := b.gathers.map fun g => { g with keep := [] } }) s

/-- A write passes through the fabric bridge: its line buffers, and the lines it is fetching, are dropped. -/
def dropFabLines (s : State) : State :=
  modBrg (fun b => { b with fabBufs := [], reads := b.reads.map fun r => { r with line := false } }) s

/-! ### Posted writes (R452, R453) -/

/-- The SEQ of an initiator's last posted write; 0 before its first (log 40). -/
def lastSeq (s : State) (id : Nat) : Nat := (SMap.get? s.brg.seqs id).getD 0

/-- Number a posted write of an initiator (log 40). -/
def nextSeq (id : Nat) (s : State) : State × Nat :=
  let n := (lastSeq s id + 1) % 2 ^ 32
  (modBrg (fun b => { b with seqs := SMap.ins b.seqs id n }) s, n)

/-- Write an entry of the posted-error log (R452): `bridge` 0 host, 1 fabric. -/
def pwerrLog (addr fid : Nat) (hostOff : Bool) (bridge id code seq : Nat) (s : State) : State :=
  let n := getF s F.BRG_PWERRPTR_NEXT
  let s := wr (A.BRG_PWERR_ADDR n) (w32 addr) s
  let s := wr (A.BRG_PWERR_INFO n) (w32 (fid * 2 ^ 20 + bit hostOff * 2 ^ 11 + bridge * 2 ^ 10 + id % 64 * 2 ^ 4 + code % 16)) s
  let s := wr (A.BRG_PWERR_SEQ n) (w32 seq) s
  let s := incF F.BRG_PWERRPTR_TOTAL 1 (setF F.BRG_PWERRPTR_NEXT ((n + 1) % 8) s)
  raise A.BRG_EVT 0 (modBrg (fun b => { b with fresh := true }) s)

/-- A posted write has failed at a local target (R452, R74): the host's is logged, a remote one's originator is told; the fabric
bridge's own, to this device's own ID (R55), is logged here. -/
def pwFail (who : Who) (addr code seq : Nat) (s : State) : State :=
  match who.remote with
  | some (fid, orig) =>
    if fid = ownId s then pwerrLog addr fid false 1 orig code seq s
    else (sendRouted 3 fid (pwerrPayload code orig addr seq) s).1
  | none => pwerrLog addr 0 false 0 who.id code seq s

/-! ### Fabric packets (R447, R448) -/

/-- The place a fabric window maps an offset to. -/
inductive FabricTarget where
  | refused
  | own (addr : Nat)
  | away (fid addr : Nat)
deriving DecidableEq, Repr

/-- Where an access through fabric window `w` goes (R53 to R55). -/
def fabricTarget (s : State) (w off : Nat) : FabricTarget :=
  let fid := getF s (F.BRG_FWIN_FID w)
  let a := getF s (F.BRG_FWIN_BASE w) * 0x4000000 + off
  if !isSet s (F.BRG_FWIN_EN w) ∨ fid = 0 ∨ fid = 4095 then .refused
  else if fid = ownId s then .own a
  else .away fid a

/-- Count a packet with no way, as a device on the path would (R431). -/
def noRoute (s : State) : State := raise A.WFB_EVT 6 (satF F.WFB_DROP_ROUTE 1 s)

/-- Privilege and originator as a request carries them. -/
def requestByte (s : State) (who : Who) : Byte := b8 (bit (isPriv s who) * 128 + who.id % 64)

/-- A write leaves for a remote device as a WRITE packet; the bridge's lines are dropped (R450). -/
def fabricWrite (who : Who) (fid addr : Nat) (bs : List Byte) (seq : Nat) (s : State) : State :=
  let n := ((SMap.get? s.brg.pathTx fid).getD 0 + 1) % 65536
  let payload := [1, requestByte s who] ++ beBytes 2 0 ++ beBytes 4 addr ++ beBytes 2 bs.length ++ beBytes 2 n ++ beBytes 4 seq ++ bs
  let s := modBrg (fun b => { b with pathTx := SMap.ins b.pathTx fid n }) (dropFabLines s)
  match sendRouted 1 fid payload s with
  | (s, true) => s
  | (s, false) => pwerrLog addr fid false 1 who.id 5 seq (noRoute s)

/-- Whether a fabric read may be issued (R451). -/
def readFree (s : State) : Bool := decide (s.brg.reads.length < 64)

/-- A read leaves for a remote device as a READ packet: its TAG, or none where it has no way. -/
def fabricRead (use : ReadFor) (who : Who) (laddr fid addr len : Nat) (line : Bool) (want : Nat × Nat) (s : State) : State × Option Nat :=
  let tag := s.brg.nextTag % 65536
  let n := (SMap.get? s.brg.pathTx fid).getD 0
  let payload := [2, requestByte s who] ++ beBytes 2 tag ++ beBytes 4 addr ++ beBytes 2 len ++ beBytes 2 n ++ beBytes 4 0
  match sendRouted 2 fid payload s with
  | (s, true) =>
    let x : OutRead := { tag := tag, use := use, who := who, laddr := laddr, addr := addr, len := len, fid := fid, since := s.now,
                         line := line, want := want }
    (modBrg (fun b => { b with reads := b.reads ++ [x], nextTag := tag + 1 }) s, some tag)
  | (s, false) => (noRoute s, none)

/-! ### Line buffers (R450) -/

/-- Lifetime of a line buffer in ns. -/
def pfAge (s : State) : Nat := 100 * getF s F.BRG_CTL_PFAGE

/-- The buffer that answers a read of a line, if one is young enough. -/
def bufHit (s : State) (bufs : List LineBuf) (fid line : Nat) : Option LineBuf :=
  bufs.find? fun b => b.fid == fid && b.line == line && decide (s.now < b.at' + pfAge s)

/-- The buffers with one used most recently. -/
def bufUse (b : LineBuf) (bufs : List LineBuf) : List LineBuf := (b :: bufs.filter fun x => !(x.fid == b.fid && x.line == b.line)).take 4

/-- Drop every line buffer older than PFAGE. -/
def prefetchExpire (s : State) : State :=
  let young := fun (l : List LineBuf) => l.filter fun x => decide (s.now < x.at' + pfAge s)
  modBrg (fun b => { b with hostBufs := young b.hostBufs, fabBufs := young b.fabBufs }) s

/-! ### Semaphores (R456 to R458) -/

/-- The owner of semaphore `k`. -/
def semOf (s : State) (k : Nat) : Option SemOwner := vget s.brg.sems k

/-- Set semaphore `k`. -/
def setSem (k : Nat) (o : Option SemOwner) (s : State) : State := modBrg (fun b => { b with sems := vset b.sems k o }) s

/-- A read of BRG_SEMk: acquires it while it is free, else returns its owner. -/
def semRead (k : Nat) (who : Who) (s : State) : State × Nat :=
  match semOf s k with
  | none => (setSem k (some { id := who.owner.1, fid := who.owner.2, since := s.now }) s, 0)
  | some o => (s, o.fid * 2 ^ 16 + o.id + 1)

/-- A write of BRG_SEMk: 0 releases it, by the owner or a privileged initiator, and ends with LOCKED for any other, also while it is
free; any other value is ignored (R458). -/
def semWrite (k : Nat) (who : Who) (v : Nat) (s : State) : State × Except BusErr Unit :=
  let owns := match semOf s k with
    | some o => decide ((o.id, o.fid) = who.owner)
    | none => false
  if v ≠ 0 then (s, .ok ())
  else if owns || isPriv s who then (setSem k none s, .ok ())
  else (s, .error .locked)

/-- The hold timer of semaphore `k` expires. -/
def semExpire (k : Nat) (s : State) : State :=
  match semOf s k with
  | some o => if o.since + 1000 * getF s F.BRG_SEMCFG_HOLD ≤ s.now then raise A.BRG_EVT 3 (setSem k none s) else s
  | none => s

/-! ### MSI-X (R443, R444, R460) -/

/-- Vector `v` is sent while it is pending, unmasked, and messages are enabled on a PCIe link that is up; its pending bit clears. -/
def msixSend (v : Nat) (s : State) : State :=
  let e := vget s.brg.msix v
  let f : FRef := ⟨A.PCI_MSIXPEND, v % 32, 1⟩
  if !isSet s f ∨ e.masked ∨ !isSet s F.PCI_STATUS_MSIXEN ∨ !isSet s F.PCI_STATUS_LINK ∨ isSet s F.PCI_STATUS_HOSTIF then s else
  emit (.msix (v % 32)) (leBytes 8 e.addr ++ leBytes 4 e.data.toNat) (setF f 0 s)

/-- Vector `v` becomes pending. -/
def msixPend (v : Nat) (s : State) : State := msixSend v (setF ⟨A.PCI_MSIXPEND, v % 32, 1⟩ 1 s)

/-! ### Register hooks -/

/-- A fabric window has been written: PF of a host window over it is forced to 0 where it now maps to registers (R52, R450). -/
def windowWritten (who : Who) (s : State) : State :=
  each (List.range 8) (fun h s =>
    let v := rd s (A.BRG_HWIN h)
    let w := w32 (clampFab s (A.BRG_HWIN h) v.toNat)
    if w = v then s else clampLog who (A.BRG_HWIN h) (wr (A.BRG_HWIN h) w s)) s

/-- What a write to a BRG register starts: a poll entry that is enabled begins its period and is armed. -/
def hookBrg (i : WInfo) (s : State) : State :=
  if A.BRG_FWIN 0 ≤ i.pa ∧ i.pa < A.BRG_FWIN 16 then windowWritten i.who s else
  match copyAt (A.BRG_IP_CFG 0) 0x10 16 i.pa with
  | some k => if bitAt i.new 31 ∧ !bitAt i.old 31 then
      modBrg (fun b => { b with pollAt := vset b.pollAt k s.now, polled := vset b.polled k none, disarmed := vset b.disarmed k false }) s else s
  | none => s

/-- What a write to a PCI register starts: MSI-X acknowledge, host-commanded reset with its key (R442, R444). -/
def hookPci (i : WInfo) (s : State) : State :=
  if i.pa = A.PCI_MSIXACK then wr A.PCI_MSIXPEND (w32 ((rd s A.PCI_MSIXPEND).toNat &&& (0xFFFFFFFF ^^^ i.wo))) s
  else if i.pa = A.PCI_DEVRST ∧ bitAt i.cmds 31 ∧ bitsOf i.wo 0 16 = 0xA5C3 then
    modFaults (fun x => { x with due := some 4 }) (deviceGasp 3 s)
  else s

end Sys2Proof.Machine
end

