-- ==== Sys2Proof/Machine/Reach.lean ====
section
/-! DEFINITION. The RCH block of a reach beside its memory: gates, core commands, the DMA's registers, parking
(03_weevil_core R116, R528; 08_banks_mailboxes R254, R259 to R262). -/

namespace Sys2Proof.Machine

/-! ### The DMA's registers (R259, R260) -/

/-- Descriptors in the ring of reach `n`. -/
def dmaSize (s : State) (n : Nat) : Nat := 2 ^ (getF s (F.RCH_DMA_RING_SIZE n) + 2)

/-- STATE of the DMA of reach `n`: 0 IDLE, 1 RUN, 2 ERROR, 3 STOPPED. -/
def dmaState (s : State) (n : Nat) : Nat := getF s (F.RCH_DMA_STAT_STATE n)

/-- Set STATE; STOP reads 0 once it is STOPPED. -/
def setDma (n v : Nat) (s : State) : State :=
  let s := setF (F.RCH_DMA_STAT_STATE n) v s
  if v = 3 then setF (F.RCH_DMA_CTL_STOP n) 0 s else s

/-- Whether the DMA of reach `n` has a descriptor to run. -/
def dmaWork (s : State) (n : Nat) : Bool := getF s (F.RCH_DMA_STAT_HEAD n) != getF s (F.RCH_DMA_TAIL_TAIL n) % dmaSize s n

/-- Whether a drain, a firmware switch or a park holds the DMA of reach `n` at a descriptor boundary (R195, R204, R261) (log 156). -/
def dmaHold (s : State) (n : Nat) : Bool :=
  s.rot.draining == some n || (s.rot.gap.getD []).any (fun r => reachOf s r == n) || getF s (F.RCH_PWR_PSTATE n) != 0

/-- At a descriptor boundary the DMA runs on, stops or is idle. -/
def dmaBoundary (n : Nat) (s : State) : State :=
  if isSet s (F.RCH_DMA_CTL_STOP n) then setDma n 3 s
  else if !dmaWork s n then setDma n 0 s
  else if dmaHold s n then setDma n 3 (modRot (fun x => { x with dmaHeld := n :: x.dmaHeld.filter (· != n) }) s)
  else setDma n 1 s

/-- A write of RCH_DMA_TAIL: the descriptors from the old tail to the new one are privileged exactly where a core in supervisor
mode wrote it (log 58). -/
def dmaTail (n old new : Nat) (who : Who) (s : State) : State :=
  let size := dmaSize s n
  let fresh := (List.range size).filter fun k => (k + size - old % size) % size < (new + size - old % size) % size
  let sup := decide (who.id < 40) && (s.core who.id).sup
  let d := at5 s.dma n
  let l := d.sup.filter fun k => !fresh.contains k
  let s := { s with dma := set5 s.dma n { d with sup := if sup then l ++ fresh else l } }
  if dmaState s n = 0 then dmaBoundary n s else s

/-- RCH_DMA_CTL.STOP: a DMA in RUN or ERROR stops at its next boundary, an idle one at once; one that is held STOPPED stays so when the
hold ends (R260). -/
def dmaStop (n : Nat) (s : State) : State :=
  match dmaState s n with
  | 0 => setDma n 3 s
  | 3 => modRot (fun x => { x with dmaHeld := x.dmaHeld.filter (· != n) }) s
  | _ => setF (F.RCH_DMA_CTL_STOP n) 1 s

/-- A write of RCH_DMA_CTL: RESUME leaves ERROR, past the descriptor that failed, or STOPPED; STOP acts at the next boundary. -/
def dmaCtl (n cmds : Nat) (s : State) : State :=
  let s := if bitAt cmds 1 then dmaStop n s else s
  if !bitAt cmds 0 then s
  else if dmaState s n = 2 then
    dmaBoundary n (setF (F.RCH_DMA_STAT_HEAD n) ((getF s (F.RCH_DMA_STAT_HEAD n) + 1) % dmaSize s n) s)
  else if dmaState s n = 3 then dmaBoundary n s
  else s

/-! ### Parking (R261, R262) -/

/-- Whether RCH_PWR.PARK is accepted (R261); not while the reach is parking, parked or waking (log 157). -/
def mayPark (s : State) (n : Nat) : Bool :=
  !isSet s F.LKH_ROTCTL_EN && (reachState s n == 0 || reachState s n == 2) && getF s (F.RCH_PWR_PSTATE n) == 0 &&
    match roleOf s n with
    | some r => (List.range 32).all fun t => !enabled s t || (getF s (F.SCN_TASK_CTL_ROLE0 t) != r && getF s (F.SCN_TASK_CTL_ROLE1 t) != r)
    | none => true

/-- A parking reach whose cores and DMA have stopped is powered down; its role's rings pause (R261, R333) (log 95). -/
def parkReady (n : Nat) (s : State) : State :=
  if getF s (F.RCH_PWR_PSTATE n) = 1 ∧ allDrained s n ∧ dmaStill s n then
    let s := setF (F.RCH_PWR_PSTATE n) 2 (setLock n 0 (holdCores n .off s))
    match roleOf s n with
    | some r => canPause r (pauseRings r s)
    | none => s
  else s

/-- RCH_PWR.PARK: the cores drain, and the DMA stops at its next boundary, as `dmaHold` says (log 95, 157). -/
def park (n : Nat) (s : State) : State :=
  if !mayPark s n then raise (A.RCH_MEM_EVT n) 3 s else
  parkReady n (requestDrain n (setF (F.RCH_PWR_PSTATE n) 1 s))

/-- The gate of a bank has been written: GEN counts a change of MODE, and of OWNER while MODE is CORE or INIT (R254). -/
def gateWritten (n b old new : Nat) (s : State) : State :=
  let mode := bitsOf new 8 2
  if bitsOf old 8 2 ≠ mode ∨ ((mode = 1 ∨ mode = 2) ∧ bitsOf old 0 6 ≠ bitsOf new 0 6) then incF (F.RCH_GATE_GEN n b) 1 s else s

/-- The commands of RCH_COREc_CTL that act in a reach that is not WET, where no core may run: RESUME, STEP and RESET have no effect
(R23) (log 123). -/
def stillCommands (cmds : Nat) : Nat := putBits (putBits cmds 1 2 0) 5 1 0

/-- What a write to an RCH register starts (log 123). -/
def hookRch (i : WInfo) (s : State) : State :=
  let n := instAt i.pa
  let off := i.pa % 0x10000
  if off < 0x30 then gateWritten n (off / 4) i.old i.new s
  else if off = 0x60 then
    let s := if bitAt i.cmds 1 then wakeReach n s else s
    if bitAt i.cmds 0 then park n s else s
  else if off = 0x204 then dmaTail n i.old i.new i.who s
  else if off = 0x20C then dmaCtl n i.cmds s
  else if 0x1000 ≤ off ∧ off < 0x1100 ∧ off % 0x20 = 0 then
    coreCommand (8 * n + (off - 0x1000) / 0x20) (if reachState s n = 0 then i.cmds else stillCommands i.cmds) s
  else s

/-! ### What the registers of an unpowered reach do (R528) -/

/-- Whether an RCH offset is one of the core control registers. -/
def coreReg (off : Nat) : Bool := decide (0x1000 ≤ off ∧ off < 0x1200)

/-- Whether the RCH register reads 0 and ignores writes: a FAILED reach; the core control registers of a DRY reach in the phases
POWER to RELOAD, and of a parked reach (R528), which one that is still waking counts as (log 150). A write to those of a parked reach is
held until the reach has woken (`holdAccess`). -/
def rchDead (s : State) (pa : Nat) : Bool :=
  let n := instAt pa
  let parked := getF s (F.RCH_PWR_PSTATE n) == 2 || getF s (F.RCH_PWR_PSTATE n) == 3
  reachState s n == 4 || (coreReg (pa % 0x10000) &&
    (parked || (reachState s n == 2 && decide (1 ≤ phase s ∧ phase s ≤ 4))))

/-- The registers of a core that show its state: control, status, PC, item, cycles. -/
def coreView (s : State) (i off : Nat) : Option Nat :=
  let k := s.core i
  match off with
  | 0x00 => some (bit k.drainReq * 8 + bit k.stepping * 4 + bit (k.haltReq && !k.stepping))
  | 0x04 => some (k.ecause.toNat % 32 * 256 + bit k.ie * 128 + bit k.sup * 64 + k.level.val * 16 + (match k.st with
      | .off => 0 | .idle => 1 | .run => 2 | .halted => 3 | .drained => 4 | .fault => 5))
  | 0x08 => some k.pc.toNat
  | 0x0C => some (match k.items.get k.level with | some r => if k.st = .idle then 0 else r.ident | none => 0)
  | 0x18 => some (k.cyc.count % 2 ^ 32)
  | 0x1C => some (k.cyc.count / 2 ^ 32 % 2 ^ 32)
  | _ => none

end Sys2Proof.Machine
end

