-- ==== Sys2Proof/Machine/Bus.lean ====
section
/-! DEFINITION. Accesses of initiators to local addresses: registers with what a read or write of each block does, memories, fabric
windows; accesses that a handover window or a parked reach holds (02_registers R46 to R75; 06_duplex_rotation R199;
08_banks_mailboxes R255, R262; 17_bridges R447 to R451). -/

namespace Sys2Proof.Machine

/-! ### What a write starts, block by block -/

/-- Cycles that SYS_CLKMEAS counts in 1,000 cycles of the reference: each PLL's ratio exactly while it is locked, the RC within its
trim of ±0.5 %; a reach PLL that is not locked is off, and what another unlocked PLL counts is free. -/
def clockCount (sel : Nat) (s : State) : State × Nat :=
  let nominal := if sel < 5 then 40000 else [20000, 20000, 8000, 3200, 10000].getD (sel - 5) 0
  if !isSet s F.SYS_CLKSTAT_REFOK then (s, 0)
  else if sel = 10 then (usedFree s, 3980 + freeNat s % 41)
  else if isSet s ⟨A.SYS_CLKSTAT, pllBit sel, 1⟩ then (s, nominal)
  else if sel < 5 then (s, 0)
  else (usedFree s, freeNat s % 2 ^ 24)

/-- SYS_CLKMEAS.GO: one measurement (R38). -/
def clockMeasure (s : State) : State :=
  let (s, n) := clockCount (getF s F.SYS_CLKMEAS_SEL) s
  setF F.SYS_CLKMEAS_COUNT n s

/-- SYS_BUSERRCTL.CLEAR (R75). -/
def busErrClear (s : State) : State :=
  let s := each (List.range 16) (fun n s => wr64 (A.SYS_BUSERR_TIME n) 0 (wr (A.SYS_BUSERR_INFO n) 0 (wr (A.SYS_BUSERR_ADDR n) 0 s))) s
  setF F.SYS_BUSERRPTR_TOTAL 0 (setF F.SYS_BUSERRPTR_NEXT 0 s)

/-- What a write to a SYS register starts. -/
def hookSys (i : WInfo) (s : State) : State :=
  if i.pa = A.SYS_CLKMEAS then (if i.cmds = 0 then s else clockMeasure s)
  else if i.pa = A.SYS_BUSERRCTL then (if i.cmds = 0 then s else busErrClear s)
  else s

/-- Commands in the LKH, CFG and BST registers wait while the Lockhouse core has stopped (R531) (log 101). -/
def lockhouseDoes (f : WInfo → State → State) (i : WInfo) (s : State) : State :=
  if s.faults.coreStopped ∧ i.cmds ≠ 0 then modFaults (fun x => { x with waits := x.waits ++ [(i.pa, i.cmds)] }) s else f i s

/-- What a write to an LKH register of rotation, firmware or pair starts (R191, R203 to R207, R217, R262). -/
def hookLkh (i : WInfo) (s : State) : State :=
  if i.pa = A.LKH_ROTCTL then
    let s := syncRotating s
    if bitAt i.new 31 then each (List.range 5) wakeReach s else s
  else if i.pa = A.LKH_FWCTL then
    let s := if bitAt i.cmds 0 then fwStage s else s
    let s := if bitAt i.cmds 1 then fwSwitch s else s
    if bitAt i.cmds 2 then fwAbort s else s
  else if i.pa = A.LKH_SBYCTL then
    let s := if s.faults.coreStopped then s
      else if bitAt i.new 0 ∧ !bitAt i.old 0 then pairEnable s else if !bitAt i.new 0 ∧ bitAt i.old 0 then pairDisable s else s
    let s := if bitAt i.cmds 1 then joinNow s else s
    if bitAt i.cmds 3 then swapPair s else s
  else if i.pa = A.LKH_SBYMASK then
    let m := legalMask s
    allJoined (if m = i.new then s else clampLog i.who A.LKH_SBYMASK (wr A.LKH_SBYMASK (w32 m) s))
  else s

/-- What a write to an LKP register starts: software sources, cancelled delays (R231, R242). -/
def hookLkp (i : WInfo) (s : State) : State :=
  if i.pa = A.LKP_SWSRC then each ((List.range 16).filter (bitAt i.wo)) (fun k => pend (768 + k) 0) s
  else if i.pa = A.LKP_DLYCMD then (if i.cmds = 0 then s else cancelDelayed s)
  else s

/-- PERIOD of a task has been written: PHASE and, for a cyclic task, COMMITDL are made legal (R142). -/
def periodWritten (t : Nat) (who : Who) (s : State) : State :=
  let p := getF s (F.SCN_TASK_PERIOD_PERIOD t)
  let fix := fun (pa v : Nat) (s : State) => if (rd s pa).toNat = v then s else clampLog who pa (wr pa (w32 v) s)
  let s := fix (A.SCN_TASK_PHASE t) (min (rd s (A.SCN_TASK_PHASE t)).toNat (maxPhase p)) s
  let dl := A.SCN_TASK_PHASE t + 4
  if t < 16 then fix dl (legalDL t p (rd s dl).toNat) s else s

/-- Word 0 of a range or safe table entry has been written: the length in word 1 is made legal for it (R160, R185). -/
def entryWritten (pa : Nat) (who : Who) (s : State) : State :=
  let old := rdBank s (pa + 4)
  let v := w32 (clampScn s (pa + 4) old.toNat)
  if v = old then s else clampLog who (pa + 4) (wrBank (pa + 4) v s)

/-- What a write to an SCN register starts (R142, R160, R170, R176, R180, R185, R277); of the commands of SCN_EDITCTL ABORT acts first,
then OPEN, then ARM (log 153). -/
def hookScn (i : WInfo) (s : State) : State :=
  if i.pa = A.SCN_CMD then pairScanCommand (topCommand i.cmds) s
  else if i.pa = A.SCN_FORCECMD then (if bitAt i.cmds 31 then pairForceCommand s else s)
  else if i.pa = A.SCN_EDITCTL then
    let s := if bitAt i.cmds 4 then editAbort s else s
    let s := if bitAt i.cmds 2 then editOpen s else s
    if bitAt i.cmds 3 then editArm s else s
  else if i.pa = A.SCN_EPOCH ∨ i.pa = A.SCN_EPOCH + 4 then epochMoved s
  else if 0x60031800 ≤ i.pa ∧ i.pa < 0x60034000 ∧ i.pa % 8 = 0 then entryWritten i.pa i.who s
  else match copyAt (A.SCN_TASK_CTL 0) 0x40 32 i.pa with
  | some _ => resolveUnits s
  | none => match copyAt (A.SCN_TASK_PERIOD 0) 0x40 32 i.pa with
    | some t => if s.scan.edit.isSome then s else periodWritten t i.who s
    | none => s

/-- What a write to an MBX register starts (R263 to R269); of the commands of MBX_CTLm GO acts first, then RELEASE, ABORT and FLUSH
(log 159). -/
def hookMbx (i : WInfo) (s : State) : State :=
  match copyAt (A.MBX_CTL 0) 0x10 64 i.pa with
  | some m =>
    let s := if bitAt i.cmds 0 then mbGo m i.who s else s
    let s := if bitAt i.cmds 1 then mbRelease m s else s
    let s := if bitAt i.cmds 2 then mbAbort m i.who s else s
    if bitAt i.cmds 3 then mbFlush m s else s
  | none => match copyAt (A.MBX_CFG 0) 0x10 64 i.pa with
    | some m => if bitAt i.new 31 then s else mbFlush m s
    | none => match copyAt (A.MBX_REPOCH 0) 4 6 i.pa with
      | some r => if bitAt i.cmds 16 then epochBump r s else s
      | none => s

/-- What a completed register write starts in its block. -/
def startBlock (i : WInfo) (s : State) : State :=
  match blockAt i.pa with
  | some .sys => hookSys i s
  | some .lkh => lockhouseDoes (fun i s => hookLkh i (hookTest i s)) i s
  | some .lkp => hookLkp i s
  | some .scn => hookScn i s
  | some .mbx => hookMbx i s
  | some .bas => hookBas i s
  | some .tow => hookTow i s
  | some .btl => hookBtl i s
  | some .tmb => hookTmb i s
  | some .fio => hookFio i s
  | some .wfb => hookWfb i s
  | some .brg => hookBrg i s
  | some .rch => hookRch i s
  | some .eth => hookEth i s
  | some .can => hookCan i s
  | some .bst => lockhouseDoes hookTest i s
  | some .cfg => lockhouseDoes hookCfg i s
  | some .pci => hookPci i s
  | none => s

/-! ### Registers -/

/-- The pins of the Beetles are one set of registers, seen in both clusters (R402). -/
def pinAlias (pa : Nat) : Nat := if 0x600B0800 ≤ pa ∧ pa < 0x600B0900 then pa - 0x10000 else pa

/-- The registers of a standby pair, which an HZ480-SN lacks (R524) (log 108). -/
def pairReg (pa : Nat) : Bool :=
  [A.LKH_SBYCTL, A.LKH_SBYSTAT, A.LKH_SBYPEER, A.LKH_SBYTIME, A.LKH_SBYSWO, A.LKH_SBYMASK, A.LKH_SBYERR].contains pa

/-- Whether a register reads 0 and ignores writes now (log 108). -/
def deadReg (s : State) (pa : Nat) : Bool :=
  (blockAt pa == some .rch && rchDead s pa) || (s.sn && pairReg pa)

/-- Whether a stopped start-up answers a register (R469) (log 31). -/
def answers (s : State) (pa : Nat) : Bool := !s.cfg.halted || [0x60000000, 0x60000010, 0x60000020, 0x60000024, 0x60000028, 0x6000002C].contains pa

/-- A register word with its CMD bits 0 (R59). -/
def uncommanded (a v : Nat) : Nat :=
  match descAt a with
  | some d => d.fields.foldl (fun acc f => if f.acc = .cmd then putBits acc f.lo f.w 0 else acc) v
  | none => v

/-- The CMD bits of a register whose commands wait because the Lockhouse core has stopped (R531) (log 101, 139). -/
def cmdWaits (s : State) (pa : Nat) : Nat := (s.faults.waits.filter (·.1 == pa)).foldl (fun m x => m ||| x.2) 0

/-- The CMD bits that read 1 because their command runs, for the registers whose commands take more than one step (R10) (log 139). -/
def cmdRuns (s : State) (pa : Nat) : Option Nat :=
  if !s.faults.waits.isEmpty ∧ cmdWaits s pa ≠ 0 then some (cmdWaits s pa)
  else if pa = A.SCN_CMD then
    some (s.scan.waitCmd.foldl (· ||| ·) (match s.scan.restart with | some true => 2 | some false => 4 | none => 0))
  else if pa = A.SCN_FORCECMD then some (bit (!s.scan.forceDue.isEmpty) * 2 ^ 31)
  else if pa = A.LKH_FWCTL then
    let st := getF s F.LKH_FWSTAT_STATE
    some (bit (st == 1) + 2 * bit (st == 3))
  else if pa = A.BST_MANCMD then some (bit s.cfg.manual.isSome * 2 ^ 31)
  else if pa = A.CFG_CMD then
    some (bit s.cfg.standbyDue * 2 ^ 31 + bit s.cfg.recal * 2 ^ 4 + bit s.cfg.verify.isSome * 2 ^ 2)
  else if pa = A.CFG_MCOPY then some (bit s.cfg.mcopy.isSome * 2 ^ 31)
  else if pa = A.CFG_LCCMD then some (bit s.cfg.lcChange.isSome * 2 ^ 31)
  else if pa = A.CFG_ATTCMD then some (bit s.cfg.attest.isSome * 2 ^ 31)
  else if pa = A.TMB_ADJCMD then some (bit (!s.tmb.steps.isEmpty))
  else if pa % 0x10000 = 0x40 ∧ blockAt pa = some .eth then some (bit (lstate s (instAt pa) == 4) * 2 ^ 31)
  else if pa = A.FIO_CMD then some (s.fio.cmd ||| s.fio.cmdWait)
  else if pa % 0x10000 = 0x1C ∧ blockAt pa = some .can then some (bit (vget s.can (instAt pa)).asked * 2)
  else if pa % 0x10000 = 0x60 ∧ blockAt pa = some .rch then
    let p := getF s (F.RCH_PWR_PSTATE (instAt pa))
    some (bit (p == 3) * 2 + bit (p == 1))
  else none

/-- The value of a register that shows other state (log 136). -/
def viewOf (s : State) (pa : Nat) : Option Nat :=
  if (cmdRuns s pa).isSome then (cmdRuns s pa).map fun m => uncommanded pa (rd s pa).toNat ||| m
  else if pa = A.LKP_STATUS then some (min s.lkp.store.length 8191 * 2 ^ 16 + min s.lkp.delay.length 2047)
  else if pa = A.LKH_TESTOLD then some (testOld s)
  else if pa = A.LKH_ROTSTAT then some (putBits (rd s pa).toNat 10 14 (match s.rot.fill with | some (_, l) => l.length | none => 0))
  else if pa = A.BAS_ETR 0 then some (putBits (rd s pa).toNat 0 16 (ruleType s 0))
  else if pa = A.PCI_ID then some ((if s.sn then 0x0481 else 0x0480) * 2 ^ 16 + 0x1EF7)
  else if pa = A.LKH_DEVRST then
    some (putBits (rd s pa).toNat 4 4 (min (s.faults.resets.filter fun t => decide (s.now < t + 60000000000)).length 15))
  else if pa = A.BRG_STATUS then some (s.brg.reads.length * 2 ^ 16 + (s.brg.sems.toList.filter Option.isSome).length)
  else match blockAt pa with
  | some .rch =>
    let off := pa % 0x10000
    if 0x1000 ≤ off ∧ off < 0x1100 then coreView s (8 * instAt pa + (off - 0x1000) / 0x20) (off % 0x20) else none
  | some .lkp => (copyAt (A.LKP_GRP_STAT 0) 4 16 pa).map fun g =>
      putBits (rd s pa).toNat 0 13 (min (s.lkp.ready.filter (·.group == g)).length 8191)
  | some .mbx => (copyAt (A.MBX_STAT 0) 0x10 64 pa).map fun m =>
      let b := s.mb m
      let st := if isSet s (F.MBX_CFG_MODE m) then (match b.bstate with | .empty => 0 | .opened => 1 | .committed => 2 | .reading => 3) else 0
      st * 2 ^ 30 + (if b.bstate = .opened then b.owner % 64 else 0) * 2 ^ 24
        + (if st = 3 then b.words.length - b.nread else b.words.length) % 2 ^ 15
  | some .bst => (copyAt (A.BST_BLK 0) 4 6 pa).map fun b => putBits (rd s pa).toNat 0 21 (blockAge s b)
  | _ => none

/-- Bring the register at a plain address, and its high word, up to the state they show. -/
def syncView (pa : Nat) (s : State) : State :=
  let s := match viewOf s pa with | some v => wr pa (w32 v) s | none => s
  match viewOf s (pa + 4) with | some v => if coreReg (pa % 0x10000) then wr (pa + 4) (w32 v) s else s | none => s

/-- A register whose low word pops an entry on a read (R525). -/
inductive Pop where
  | mailbox (m : Nat) | edge | stamp (p : Nat) (out : Bool) | beetle (e : Nat)
deriving DecidableEq, Repr

/-- The popping register with its low word at a plain address. -/
def popAt (pa : Nat) : Option Pop :=
  if pa = A.FIO_EDGE then some .edge else
  match blockAt pa with
  | some .mbx => (copyAt (A.MBX_RX 0) 8 64 pa).map .mailbox
  | some .eth => if pa = A.ETH_TSRX (instAt pa) then some (.stamp (instAt pa) false)
      else if pa = A.ETH_TSTX (instAt pa) then some (.stamp (instAt pa) true) else none
  | some .btl => (copyAt (A.BTL_ENG_RX (instAt pa) 0) 0x40 8 pa).map fun k => .beetle (8 * instAt pa + k)
  | _ => none

/-- Pop an entry: the low word; the high word goes into the reader's shadow. -/
def popRead (p : Pop) (who : Who) (s : State) : State × Word :=
  match p with
  | .mailbox m => mbRead m who s
  | .edge => edgeRead who s
  | .stamp p out => stampRead p out who s
  | .beetle e => rxRead e who s

/-- Whether an initiator may read some field of the register (R70). -/
def mayRead (s : State) (who : Who) (pa : Nat) : Bool :=
  match descAt pa with
  | some d => !readCounts d (dynPriv s pa) (isPriv s who)
  | none => true

/-- What a read does beyond returning the register: TIME latches the fraction (R272), a read of the high word of CAPT clears its
flags (R282), a privileged read of statistics clears them (R351). -/
def readEffect (who : Who) (pa : Nat) (s : State) : State :=
  match blockAt pa with
  | some .tmb =>
    if pa = A.TMB_TIME then modTmb (fun b => { b with fracSeen := SMap.ins b.fracSeen who.id (w32 b.frac) }) s
    else match copyAt (A.TMB_UNIT_CAPT 0 + 4) 0x20 32 pa with
      | some u => captRead u s
      | none => s
  | some .eth => statsRead who pa s
  | _ => s

/-- Read the register at a plain address. -/
def regRead (who : Who) (pa0 : Nat) (s : State) : State × Nat :=
  let pa := pinAlias pa0
  if deadReg s pa then (s, 0) else
  match popAt pa with
  | some p => if mayRead s who pa then (let r := popRead p who s; (r.1, r.2.toNat)) else regLoad who pa s
  | none =>
    if (popAt (pa - 4)).isSome then
      if !mayRead s who pa then regLoad who pa s else
      match SMap.get? s.rshadow (shadowKey pa who) with
      | some (tag, w) => if tag + 4 = pa % 0x10000 then
          ({ s with rshadow := SMap.del s.rshadow (shadowKey pa who) }, w.toNat) else (s, 2 ^ 31)
      | none => (s, 2 ^ 31)
    else if pa = A.TMB_FRAC then (s, ((SMap.get? s.tmb.fracSeen who.id).getD 0).toNat)
    else if pa = A.BRG_PWSEQ then (s, lastSeq s who.id)
    else match copyAt (A.BRG_SEM 0) 0x10 32 pa with
    | some k => semRead k who s
    | none =>
      let s := if blockAt pa = some .eth then settle (instAt pa) s else s
      let r := regLoad who pa (syncView pa s)
      (readEffect who pa r.1, r.2)

/-- Write the register at an offset of its block, which may be an alias, unless the range of a held semaphore covers it, under either
address (R457) (log 22, 143). -/
def regWrite (who : Who) (a v : Nat) (s : State) : State × Except BusErr Unit :=
  let al := a % 0x10000 / 0x4000
  let pa := pinAlias (a - al * 0x4000)
  let free := isPriv s who || !dynPriv s pa
  if semGuards s (a - al * 0x4000) 4 who ∨ semGuards s pa 4 who then (s, .error .locked) else
  if deadReg s pa then (s, .ok ()) else
  match copyAt (A.MBX_TX 0) 0x10 64 pa, copyAt (A.BRG_SEM 0) 0x10 32 pa with
  | some m, _ => if al = 0 ∧ free then mbWrite m who (w32 v) s else
      match regStore who (pa + al * 0x4000) v s with
      | (s, .error e) => (s, .error e)
      | (s, .ok _) => (s, .ok ())
  | none, some k => if al = 0 then semWrite k who v s else (s, .ok ())
  | none, none =>
    match regStore who (pa + al * 0x4000) v s with
    | (s, .error e) => (s, .error e)
    | (s, .ok none) => (s, .ok ())
    | (s, .ok (some i)) =>
      if blockAt pa = some .btl ∧ al ≠ 0 ∧ (copyAt (A.BTL_ENG_TX (instAt pa) 0) 0x40 8 pa).isSome then (s, .ok ())
      else (startBlock i s, .ok ())

/-! ### Held accesses (R199, R255, R262) -/

/-- Whether an access waits for the end of a handover window or for a parked reach to wake; the reach is told to wake (log 96, 150). -/
def holdAccess (who : Who) (a : Nat) (isWr : Bool) (s : State) : State × Bool :=
  let inWindow := fun n => who.id ≠ 49 && (match s.rot.window with | some (x, y) => n == x || n == y | none => false)
  let parked := fun n => (getF s (F.RCH_PWR_PSTATE n) == 2 || getF s (F.RCH_PWR_PSTATE n) == 3) && reachState s n != 4
  if 0x10000000 ≤ a ∧ a < 0x15000000 ∧ a % 0x1000000 < 0x100000 then
    let n := (a - 0x10000000) / 0x1000000
    if inWindow n then (s, true) else if parked n then (wakeReach n s, true) else (s, false)
  else if 0x60100000 ≤ a ∧ a < 0x60150000 then
    let n := instAt a
    let off := a % 0x4000
    if isWr ∧ inWindow n then (s, true)
    else if parked n ∧ off ≠ 0x60 ∧ !(coreReg off ∧ !isWr) then (wakeReach n s, true)
    else (s, false)
  else (s, false)

/-! ### Local accesses -/

/-- What an access ends with. -/
inductive Got (α : Type) where
  | ok (x : α)
  | err (e : BusErr)
  /-- A fabric read has been issued. -/
  | away
  /-- The access waits; nothing has been done. -/
  | held
deriving DecidableEq, Repr

/-- Read `n` bytes at a local address that is in no fabric window (R46 to R57). -/
def localLoad (who : Who) (a n : Nat) (s0 : State) : State × Got (List Byte) :=
  match holdAccess who a false s0 with
  | (s, true) => (s, .held)
  | (s, false) =>
    match target s who.id a with
    | .reg a =>
      let pa := a - a % 0x10000 / 0x4000 * 0x4000
      if n ≠ 4 ∨ a % 4 ≠ 0 ∨ !answers s pa then (s, .err .decode)
      else (let r := regRead who pa s; (r.1, .ok (leBytes 4 r.2)))
    | .fabric .. => (s, .err .decode)
    | .nothing => (s, .err .decode)
    | t => if s.cfg.halted then (s, .err .decode) else match memTargetRead t n who s with
      | (s, .ok v) => (s, .ok (leBytes n v))
      | (s, .error e) => (s, .err e)

/-- Write bytes at a local address that is in no fabric window. -/
def localStore (who : Who) (a : Nat) (bs : List Byte) (s0 : State) : State × Got Unit :=
  match holdAccess who a true s0 with
  | (s, true) => (s, .held)
  | (s, false) =>
    match target s who.id a with
    | .reg a =>
      let pa := a - a % 0x10000 / 0x4000 * 0x4000
      if bs.length ≠ 4 ∨ a % 4 ≠ 0 ∨ !answers s pa then (s, .err .decode)
      else match regWrite who a (leNat bs) s with
        | (s, .ok _) => (s, .ok ())
        | (s, .error e) => (s, .err e)
    | .fabric .. => (s, .err .decode)
    | .nothing => (s, .err .decode)
    | t => if s.cfg.halted then (s, .err .decode) else match memTargetWrite t bs.length (leNat bs) who s with
      | (s, .ok _) => (s, .ok ())
      | (s, .error e) => (s, .err e)

/-! ### Runs of local accesses (R449) -/

/-- Whether an address is in register space. -/
def inRegs (a : Nat) : Bool := decide (0x60000000 ≤ a ∧ a < 0x70000000)

/-- The accesses a request of `n` bytes at `a` is split into: aligned words of 4 bytes in register space, of 8 elsewhere. -/
def splitRun : Nat → Nat → Nat → List (Nat × Nat)
  | 0, _, _ => []
  | f + 1, a, n =>
    if n = 0 then [] else
    let u := if inRegs a then 4 else 8
    let k := min n (u - a % u)
    (a, k) :: splitRun f (a + k) (n - k)

/-- The accesses of `n` bytes at `a`, none crossing a boundary of `u` bytes. -/
def alignedRun (u : Nat) : Nat → Nat → Nat → List (Nat × Nat)
  | 0, _, _ => []
  | f + 1, a, n =>
    if n = 0 then [] else
    let k := min n (u - a % u)
    (a, k) :: alignedRun u f (a + k) (n - k)

/-- An access is held, behind those that came before it (R255). -/
def hold (h : HeldWrite) (s : State) : State := modRot (fun r => { r with held := r.held ++ [h] }) s

/-- A write of parts to be held. -/
def heldParts (who : Who) (seq : Nat) (l : List (Nat × List Byte)) : HeldWrite :=
  { who := who, seq := seq, parts := l.map fun (a, b) => (a, b.length, leNat b) }

/-- Whether an initiator is a bridge. -/
def Who.bridge (who : Who) : Bool := who.id == 46 || who.id == 47

/-- Whether a posted write of the same host or the same path is held, which later requests must not pass; a write of the host through a
window to the device's own fabric ID is held as one of that path (R55, R454). -/
def behind (who : Who) (s : State) : Bool :=
  who.bridge && s.rot.held.any fun h => !h.reads && ((h.who.id == who.id && h.who.remote.map (·.1) == who.remote.map (·.1))
    || (who.id == 46 && h.who.remote == some (ownId s, 46)))

/-- Perform posted accesses in order; the first that fails ends them, one that is held keeps the rest waiting (R199, R449, R452). -/
def postedRun (who : Who) (seq : Nat) : List (Nat × List Byte) → State → State
  | [], s => s
  | (a, bs) :: t, s =>
    match localStore who a bs s with
    | (s, .err e) => pwFail who a e.code seq s
    | (s, .held) => hold (heldParts who seq ((a, bs) :: t)) s
    | (s, _) => postedRun who seq t s

/-- Perform a posted write, or hold it behind an earlier one of its host or path that is held (R454). -/
def post (who : Who) (seq : Nat) (l : List (Nat × List Byte)) (s : State) : State :=
  if behind who s then hold (heldParts who seq l) s else postedRun who seq l s

/-- The accesses of a posted write of bytes at `a`. -/
def postedParts (a : Nat) (bs : List Byte) : List (Nat × List Byte) :=
  (splitRun bs.length a bs.length).map fun (x, k) => (x, (bs.drop (x - a)).take k)

/-! ### Accesses that may go through a fabric window -/

/-- The initiator that performs an access to the device's own fabric ID (R55). -/
def ownWho (s : State) (who : Who) : Who := { id := 47, flag := isPriv s who, remote := some (ownId s, who.id) }

/-- Perform the accesses of a read: every part, and it fails whole with the code of the first part that failed (R449). -/
def ownRun (who : Who) : List (Nat × Nat) → State → State × Got (List Byte)
  | [], s => (s, .ok [])
  | (a, n) :: t, s =>
    match localLoad who a n s with
    | (s, .ok bs) => match ownRun who t s with
      | (s, .ok r) => (s, .ok (bs ++ r))
      | r => r
    | (s, .err e) => ((ownRun who t s).1, .err e)
    | r => r

/-- Read `n` bytes at an address of the device's own map for the fabric bridge, as a run of local accesses (R449). -/
def ownLoad (who : Who) (a n : Nat) (s : State) : State × Got (List Byte) := ownRun who (splitRun n a n) s

/-- Whether an address is in a fabric window. -/
def inFabric (a : Nat) : Bool := decide (0x80000000 ≤ a ∧ a < 0xC0000000)

/-- Whether a local address lies in a prefetchable fabric window (R450). -/
def prefetches (s : State) (a : Nat) : Bool := inFabric a && isSet s (F.BRG_FWIN_PF ((a - 0x80000000) / 0x4000000 % 32))

/-- A read through a window to the device's own fabric ID; in a prefetchable window it is answered from the line's buffer, which a miss
fetches whole (R55, R450). Where the whole line cannot be read, the read itself is performed. -/
def windowRead (pf : Bool) (who : Who) (a n : Nat) (s : State) : State × Got (List Byte) :=
  if !pf then ownLoad who a n s else
  let line := a / 64
  match bufHit s s.brg.fabBufs (ownId s) line with
  | some b => (modBrg (fun x => { x with fabBufs := bufUse b x.fabBufs }) s, .ok ((b.bytes.drop (a % 64)).take n))
  | none => match ownLoad who (64 * line) 64 s with
    | (t, .ok bs) =>
      (modBrg (fun x => { x with fabBufs := bufUse { fid := ownId s, line := line, bytes := bs, at' := s.now } x.fabBufs }) t,
        .ok ((bs.drop (a % 64)).take n))
    | _ => ownLoad who a n s

/-- Read at a local address; a read for the fabric is issued for `use`, and waits while the fabric bridge is frozen (R489). -/
def load (who : Who) (use : ReadFor) (a n : Nat) (s : State) : State × Got (List Byte) :=
  match target s who.id a with
  | .fabric w off =>
    if s.cfg.halted then (s, .err .decode) else
    if frozen s 4 then (s, .held) else
    match fabricTarget s w off with
    | .refused => (s, .err .decode)
    | .own ra =>
      if behind (ownWho s who) s then (s, .held)
      else windowRead (isSet s (F.BRG_FWIN_PF w) && decide (ra % 64 + n ≤ 64)) (ownWho s who) ra n s
    | .away fid ra =>
      let pf := isSet s (F.BRG_FWIN_PF w) && decide (ra % 64 + n ≤ 64)
      match (if pf then bufHit s s.brg.fabBufs fid (ra / 64) else none) with
      | some b => (modBrg (fun x => { x with fabBufs := bufUse b x.fabBufs }) s, .ok ((b.bytes.drop (ra % 64)).take n))
      | none =>
        if !readFree s then (s, .held) else
        let issue := if pf then fabricRead use who a fid (ra / 64 * 64) 64 true (ra % 64, n) s else fabricRead use who a fid ra n false (0, n) s
        match issue with
        | (s, some _) => (s, .away)
        | (s, none) => (s, .err .remoteErr)
  | _ => localLoad who a n s

/-- Write at a local address; a write for the fabric is posted, and is complete when the bridge accepts it (R97, R452), for which it
waits while that is frozen (R489). -/
def store (who : Who) (a : Nat) (bs : List Byte) (s : State) : State × Got Unit :=
  match target s who.id a with
  | .fabric w off =>
    if s.cfg.halted then (s, .err .decode) else
    if frozen s 4 then (s, .held) else
    match fabricTarget s w off with
    | .refused => (s, .err .decode)
    | .own ra =>
      let (s, n) := nextSeq who.id s
      (post (ownWho s who) n (postedParts ra bs) (dropFabLines s), .ok ())
    | .away fid ra =>
      let (s, n) := nextSeq who.id s
      (fabricWrite who fid ra bs n s, .ok ())
  | _ => localStore who a bs s

/-- A bus error goes to the writer of a store it waited for (R114, R255): a core takes BUSERR_W at its next boundary, a reach DMA ends
its descriptor (R260). -/
def writeErr (who : Who) (a n : Nat) (e : BusErr) (seq : Nat) (s : State) : State :=
  if who.id = 46 ∨ who.id = 47 then pwFail who a e.code seq s else
  let s := logAccess who a true n e s
  if who.id < 40 then modCore who.id (fun k => { k with pendW := k.pendW ++ [(e.code, a)] }) s
  else if who.id < 45 then
    { s with dma := set5 s.dma (who.id - 40) { at5 s.dma (who.id - 40) with fail := some (a, n, e.code) } }
  else s

/-- Run a change with core `i` in the mode a buffered store was made in. -/
def inMode {α : Type} (i : Nat) (sup : Bool) (f : State → State × α) (s : State) : State × α :=
  let k := s.core i
  if k.sup = sup then f s else
  match f (modCore i (fun k => { k with sup := sup }) s) with
  | (t, r) => (if (t.core i).cyc = k.cyc ∧ (t.core i).pc = k.pc then modCore i (fun x => { x with sup := k.sup }) t else t, r)

/-- The initiator of an access that is about to be held: a core's carries its mode (R69). -/
def heldWho (s : State) (who : Who) : Who := if who.id < 40 then { who with flag := (s.core who.id).sup } else who

/-- A held access goes on as the initiator it came from. -/
def asHeld {α : Type} (who : Who) (f : State → State × α) (s : State) : State × α :=
  if who.id < 40 then inMode who.id who.flag f s else f s

/-- Read or write a word of a held access: one of this device as its initiator would, one that a bridge performs in the local map. -/
def heldLoad (who : Who) (a n : Nat) (s : State) : State × Got (List Byte) :=
  if who.bridge then localLoad who a n s else asHeld who (load who .access a n) s

@[inherit_doc heldLoad]
def heldStore (who : Who) (a : Nat) (bs : List Byte) (s : State) : State × Got Unit :=
  if who.bridge then localStore who a bs s else asHeld who (store who a bs) s

/-- Apply one held access where nothing holds it any longer, and no earlier write of its host or path does (R454). -/
def applyOne (h : HeldWrite) : List (Nat × Nat × Nat) → State → State
  | [], s => s
  | (a, n, v) :: t, s =>
    if h.reads then
      match heldLoad h.who a n s with
      | (s, .ok bs) => applyOne h t (emit (.reply h.who.id) bs s)
      | (s, .err e) => emit (.reply h.who.id) (leBytes n 0) (logAccess h.who a false n e s)
      | (s, .held) => hold { h with parts := (a, n, v) :: t } s
      | (s, .away) => s
    else if behind h.who s then hold { h with parts := (a, n, v) :: t } s
    else
      match heldStore h.who a (leBytes n v) s with
      | (s, .err e) => writeErr h.who a n e h.seq s
      | (s, .held) => hold { h with parts := (a, n, v) :: t } s
      | (s, _) => applyOne h t s

/-- Whether an initiator of this device has a write that is held (R255). -/
def heldFor (s : State) (id : Nat) : Bool := s.rot.held.any fun h => h.who.id == id && h.who.remote.isNone && !h.reads

/-- The held accesses go on in the order in which they came (R255); those still held stay, in order (log 96). -/
def applyHeld (s : State) : State :=
  let l := s.rot.held
  each l (fun h => applyOne h h.parts) (modRot (fun r => { r with held := [] }) s)

/-- A write of a word by an initiator, as one command of the interface: performed, posted to the fabric, held, or ended by a bus
error. The host's writes come as HOST_MEM_WRITE and QSPI_WRITE, which number and order them (R453, R454). -/
def busWrite (who : Who) (a v : Nat) (s : State) : State :=
  match store who a (leBytes 4 v) s with
  | (s, .err e) => writeErr who a 4 e (lastSeq s who.id) s
  | (s, .held) => hold { who := heldWho s who, seq := lastSeq s who.id, parts := [(a, 4, v)] } s
  | (s, _) => s

/-- A read of a word by an initiator, as one command of the interface: answered, with 0 where it ends with a bus error (R72), issued
to the fabric, or held (R199). -/
def busRead (who : Who) (a : Nat) (s : State) : State :=
  match load who .access a 4 s with
  | (s, .err e) => emit (.reply who.id) (leBytes 4 0) (logAccess who a false 4 e s)
  | (s, .ok bs) => emit (.reply who.id) bs s
  | (s, .held) => hold { who := heldWho s who, seq := 0, parts := [(a, 4, 0)], reads := true } s
  | (s, .away) => s


end Sys2Proof.Machine
end

