-- ==== Sys2Proof/Machine/Dma.lean ====
section
/-! DEFINITION. Reads that wait for the fabric, requests of several reads, and the reach DMA (08_banks_mailboxes R258 to R260;
17_bridges R446, R449 to R451). -/

namespace Sys2Proof.Machine

/-! ### Loads of cores -/

/-- A core's instruction has ended: a core that is to halt there halts (R116). -/
def instrDone (i : Nat) (s : State) : State := if (s.core i).haltReq then stopCore i s else s

/-- The value a load of `size` bytes gives a register, sign-extended or not (R133). -/
def loadValue (size : Nat) (sx : Bool) (bs : List Byte) : Word :=
  let v := leNat bs
  if sx ∧ 2 ^ (8 * size - 1) ≤ v then w32 (v + 2 ^ 32 - 2 ^ (8 * size)) else w32 v

/-- A load of core `i` has its data: the register is written, the PC goes on. -/
def loadEnd (i rd' size : Nat) (sx : Bool) (bs : List Byte) (s : State) : State :=
  instrDone i (modCore i (fun k => (((k.setReg ⟨rd' % 16, Nat.mod_lt _ (by decide)⟩ (loadValue size sx bs)).next).spend 2).flush) s)

/-- A load of core `i` has met a bus error: it is logged, and BUSERR_R taken (R75, R112). `addr` is the address at the target. -/
def loadErr (i laddr addr size fid : Nat) (e : BusErr) (s : State) : State :=
  let x : Exc := { cause := .buserrR, addr := some laddr, bus := some (e, addr, false, size) }
  instrDone i (faultFirst i x (logBusErr ⟨i, false, none⟩ addr false size e fid s))

/-! ### Bit operations of cores (R134 to R136) -/

/-- Whether an operation writes its bit, as far as its operation code goes (R135). -/
def BitFn.writes (f : BitFn) : Bool := f matches .bst | .bset | .brst | .bpos | .bneg

/-- The core after an operation whose operand bit is `b`, and the bit to write, if any (R134). -/
def bitLogic (f : BitFn) (b : Bool) (k : Core) : Core × Option Bool :=
  let check := fun (v combined : Bool) => ({ k with bacc := if k.bopen then combined else v, bopen := true }, (none : Option Bool))
  match f with
  | .bld => ({ k with bacc := b, bopen := true }, none)
  | .bldn => ({ k with bacc := !b, bopen := true }, none)
  | .band => check b (k.bacc && b)
  | .bandn => check (!b) (k.bacc && !b)
  | .bor => check b (k.bacc || b)
  | .born => check (!b) (k.bacc || !b)
  | .bxor => check b (k.bacc ^^ b)
  | .bxorn => check (!b) (k.bacc ^^ !b)
  | .bst => ({ k with bopen := false }, some k.bacc)
  | .bset => ({ k with bopen := false }, if k.bacc then some true else none)
  | .brst => ({ k with bopen := false }, if k.bacc then some false else none)
  | .bpos => ({ k with bacc := k.bacc && !b, bopen := true }, some k.bacc)
  | .bneg => ({ k with bacc := !k.bacc && b, bopen := true }, some k.bacc)

/-- A bit operation of core `i` outside the own-reach alias has its byte: it writes the modified byte, waits for the write, and ends
(R136). -/
def bitEnd (i : Nat) (f : BitFn) (bit' a : Nat) (old : Byte) (s0 : State) : State :=
  let (k, out) := bitLogic f (old.getLsbD bit') (s0.core i)
  match out with
  | none => instrDone i (s0.setCore i (k.next.spend 1))
  | some v =>
    match store ⟨i, false, none⟩ a [b8 (putBits old.toNat bit' 1 (bit v))] s0 with
    | (s, .ok _) => instrDone i (s.setCore i (k.next.spend 1))
    | (s, .err e) => instrDone i (instrFault i (excBus e a true 1) s0 s)
    | (s, _) => s

/-! ### Requests of several reads (R449) -/

/-- Change the gather with a number. -/
def modGather (g : Nat) (f : Gather → Gather) (s : State) : State :=
  modBrg (fun b => { b with gathers := b.gathers.map fun x => if x.id = g then f x else x }) s

/-- A part of a gather has come, with a bus error code or data. -/
def putPart (g k code : Nat) (bs : List Byte) (s : State) : State :=
  modGather g (fun x => { x with parts := x.parts.mapIdx fun i p => if i = k then { p with got := some (code, bs) } else p }) s

/-- Whether a part waits for the fabric. -/
def partAway (s : State) (g k : Nat) : Bool := s.brg.reads.any fun x => x.use == .gather g k

/-- Whether a part of a gather has bytes that were asked for: the rest of a line it fetches is not (R450). -/
def Gather.wants (g : Gather) (p : GPart) : Bool := decide (p.addr < g.lo + g.n ∧ g.lo < p.addr + p.len)

/-- Perform part `k` of a gather, or issue it. -/
def doPart (g : Gather) (k : Nat) (p : GPart) (s : State) : State :=
  match load g.who (.gather g.id k) p.addr p.len s with
  | (s, .ok bs) => putPart g.id k 0 bs s
  | (s, .err e) => putPart g.id k e.code [] (if g.wants p then logAccess g.who p.addr false p.len e s else s)
  | (s, _) => s

/-- Whether part `k` of a gather may go now: it has not come and is not on its way; a QSPI READ reads its words one after the other
and ends at the first that fails (R444). -/
def partReady (s : State) (g : Gather) (k : Nat) (p : GPart) : Bool :=
  p.got.isNone && !partAway s g.id k && (g.use != .qspi || (g.parts.take k).all fun q => q.got.any (·.1 == 0))

/-- Whether a gather has all it needs. -/
def Gather.full (g : Gather) : Bool :=
  g.parts.all (·.got.isSome) || (g.use == .qspi && g.parts.any fun p => p.got.any (·.1 != 0))

/-- The bus error code of the first part asked for that failed; 0 for none. -/
def Gather.code (g : Gather) : Nat := (((g.parts.filter g.wants).filterMap (·.got)).find? (·.1 != 0)).elim 0 (·.1)

/-- The bytes of a part that were asked for. -/
def Gather.clip (g : Gather) (p : GPart) (bs : List Byte) : List Byte :=
  (bs.take (g.lo + g.n - p.addr)).drop (g.lo - p.addr)

/-- The bytes asked for, up to the first part that failed. -/
def Gather.bytes (g : Gather) : List Byte :=
  ((g.parts.filter g.wants).takeWhile fun p => p.got.any (·.1 == 0)).flatMap fun p => g.clip p ((p.got.map (·.2)).getD [])

/-- The lines of a gather that have come whole go into buffers of the host bridge (R450). -/
def keepLines (g : Gather) (s : State) : State :=
  each g.keep (fun l s =>
    let ps := g.parts.filter fun p => p.addr / 64 == l
    if ps.all fun p => p.got.any (·.1 == 0) then
      modBrg (fun x => { x with hostBufs := bufUse { fid := 0, line := l, bytes := ps.flatMap fun p => (p.got.map (·.2)).getD [], at' := s.now } x.hostBufs }) s
    else s) s

/-- Completion status of a host read: 0 success, 1 Unsupported Request, 4 Completer Abort (R446). -/
def completion (code : Nat) : Nat := if code = 0 then 0 else if code = 1 then 1 else 4

/-- A host read completes: status, tag, data; one that fails raises ERRCPL. -/
def completeHost (code tag : Nat) (bs : List Byte) (s : State) : State :=
  let s := emit .host ([b8 (completion code), b8 tag] ++ (if code = 0 then bs else [])) s
  if code = 0 then s else raise A.PCI_EVT 3 s

/-- What a QSPI READ drives: the marker 0x5A and data, or 0xA5 and the code of the word that failed (R444). -/
def completeQspi (code : Nat) (bs : List Byte) (s : State) : State :=
  emit .host ((if bs.isEmpty ∧ code ≠ 0 then [] else 0x5A :: bs) ++ (if code = 0 then [] else [0xA5, b8 code])) s

/-- A gather that has all it needs ends, but for one of a DMA, which takes it itself. -/
def finishGather (g : Nat) (s : State) : State :=
  match s.brg.gathers.find? (·.id == g) with
  | none => s
  | some x =>
    if !x.full then s else
    let done := keepLines x (modBrg (fun b => { b with gathers := b.gathers.filter (·.id != g) }) s)
    match x.use with
    | .host => completeHost x.code x.tag x.bytes done
    | .qspi => completeQspi x.code x.bytes done
    | .dma _ => s
    | .mcopy => s

/-- Every part that may go goes, oldest request first (R451) (log 91). -/
def pumpGathers (s : State) : State :=
  each (s.brg.gathers.map (·.id)) (fun g s =>
    match s.brg.gathers.find? (·.id == g) with
    | none => s
    | some x => finishGather g (each x.parts.zipIdx (fun (p, k) s =>
        match s.brg.gathers.find? (·.id == g) with
        | some y => if partReady s y k p then doPart y k p s else s
        | none => s) s)) s

/-- Begin a request of several reads for `n` bytes at `lo` (log 91). -/
def startGather (use : Requester) (who : Who) (tag lo n : Nat) (parts : List GPart) (keep : List Nat) (s : State) : State × Nat :=
  let g := s.brg.nextReq
  let x : Gather := { id := g, use := use, who := who, tag := tag, parts := parts, lo := lo, n := n, keep := keep }
  (pumpGathers (modBrg (fun b => { b with gathers := b.gathers ++ [x], nextReq := g + 1 }) s), g)

/-- Reads at addresses as parts of a gather that have not come. -/
def asParts (l : List (Nat × Nat)) : List GPart := l.map fun (a, n) => { addr := a, len := n, got := none }

/-- An outstanding fabric read ends: with data, or with REMOTE_ERR or REMOTE_TIMEOUT (R451). -/
def endRead (x : OutRead) (e : Option BusErr) (bs : List Byte) (s : State) : State :=
  let s := modBrg (fun b => { b with reads := b.reads.filter (·.tag != x.tag) }) s
  let s := if e.isNone ∧ x.line then
      modBrg (fun b => { b with fabBufs := bufUse { fid := x.fid, line := x.addr / 64, bytes := bs, at' := s.now } b.fabBufs }) s else s
  let out := (bs.drop x.want.1).take x.want.2
  let code := match e with | some e => e.code | none => 0
  let s := match x.use, e with
    | .core i r size sx, none => loadEnd i r size sx out s
    | .core i _ size _, some e => loadErr i x.laddr x.addr size x.fid e s
    | .bitop i f k, none => bitEnd i f k x.laddr (out.headD 0) s
    | .bitop i _ _, some e => loadErr i x.laddr x.addr 1 x.fid e s
    | .gather g k, none => putPart g k 0 out s
    | .gather g k, some e =>
      let asked := s.brg.gathers.any fun y => y.id == g && (y.parts[k]?).any y.wants
      putPart g k e.code [] (if asked then logBusErr x.who x.addr false x.len e x.fid s else s)
    | .access, none => emit (.reply x.who.id) out s
    | .access, some e => emit (.reply x.who.id) (leBytes x.len 0) (logBusErr x.who x.addr false x.len e x.fid s)
    | .poll k, _ => modBrg (fun b => { b with polled := vset b.polled k (some (code, w32 (leNat out))) }) s
  pumpGathers s

/-! ### The reach DMA (R258 to R260) -/

/-- The initiator of the DMA of reach `n` for the descriptor at a ring index (log 58). -/
def dmaWho (s : State) (n k : Nat) : Who := ⟨40 + n, (at5 s.dma n).sup.contains k, none⟩

/-- The own-reach offset of the descriptor at ring index `k`. -/
def descAddr (s : State) (n k : Nat) : Nat :=
  let bytes := 16 * dmaSize s n
  16 * getF s (F.RCH_DMA_RING_BASE n) / bytes * bytes + 16 * k

/-- The first three words of a descriptor. -/
structure Descriptor where
  src : Nat
  dst : Nat
  ctl : Nat
deriving DecidableEq, Repr

/-- Bytes a descriptor moves. -/
def Descriptor.len (d : Descriptor) : Nat := min (bitsOf d.ctl 0 21) 1048576

/-- Whether it fills. -/
def Descriptor.fill (d : Descriptor) : Bool := bitAt d.ctl 29

/-- A failure of a descriptor: the access that failed, whether it wrote, its size, the error; whether it has been logged
already. -/
structure DmaFail where
  addr : Nat
  isWr : Bool
  size : Nat
  err : BusErr
  logged : Bool := false
deriving DecidableEq, Repr

/-- How far an access of a descriptor came: it is done, the descriptor waits (R199, R255), or it has failed. -/
inductive DmaGot (α : Type) where
  | ok (x : α)
  | waits
  | fails (e : DmaFail)
deriving DecidableEq, Repr

/-- Read a run of local accesses, stopping at the first that waits or fails. -/
def readRun (who : Who) : List (Nat × Nat) → State → State × DmaGot (List Byte)
  | [], s => (s, .ok [])
  | (a, n) :: t, s =>
    match localLoad who a n s with
    | (s, .ok bs) => match readRun who t s with
      | (s, .ok r) => (s, .ok (bs ++ r))
      | r => r
    | (s, .err e) => (s, .fails ⟨a, false, n, e, false⟩)
    | (s, _) => (s, .waits)

/-- The steps of a descriptor as (offset, bytes), from the offset that has been reached: words of 4 bytes at aligned register
addresses where register space takes part, packets of 256 into a fabric window, words of 8 elsewhere. -/
def dmaSteps (regs : Bool) (dst : Nat) : Nat → Nat → Nat → List (Nat × Nat)
  | 0, _, _ => []
  | f + 1, o, n =>
    if n = 0 then [] else
    let k := if regs then min n 4 else
      let u := if inFabric dst then 256 else 8
      min n (u - (dst + o) % u)
    (o, k) :: dmaSteps regs dst f (o + k) (n - k)

/-- Write the bytes of one step: a word at an address that is not aligned, which register space as the source can give, as the parts
of two words. -/
def dmaWrite (who : Who) : List (Nat × List Byte) → State → State × DmaGot Unit
  | [], s => (s, .ok ())
  | (a, bs) :: t, s =>
    match store who a bs s with
    | (s, .ok _) => dmaWrite who t s
    | (s, .err e) => (s, .fails ⟨a, true, bs.length, e, false⟩)
    | (s, _) => (hold { who := who, seq := 0, parts := ((a, bs) :: t).map fun (x, b) => (x, b.length, leNat b) } s, .waits)

/-- How many bytes of the descriptor at HEAD have been moved. -/
def setPos (n v : Nat) (s : State) : State := { s with dma := set5 s.dma n { at5 s.dma n with pos := v } }

/-- Move the bytes of a descriptor of reach `n` step by step; `fetch` gives the bytes at an offset. A step whose write is held has
been made; one whose read is held has not. -/
def dmaMove (n : Nat) (who : Who) (dst : Nat) (fetch : Nat → Nat → State → State × DmaGot (List Byte)) :
    List (Nat × Nat) → State → State × DmaGot Unit
  | [], s => (s, .ok ())
  | (o, m) :: t, s =>
    match fetch o m s with
    | (s, .fails e) => (s, .fails e)
    | (s, .waits) => (s, .waits)
    | (s, .ok bs) =>
      match dmaWrite who (if inFabric dst then [(dst + o, bs)] else postedParts (dst + o) bs) (setPos n (o + m) s) with
      | (s, .ok _) => dmaMove n who dst fetch t s
      | r => r

/-- The bytes of a fill at an offset. -/
def fillBytes (pattern o n : Nat) : List Byte := (List.range n).map fun k => b8 (pattern / 256 ^ ((o + k) % 4))

/-- Write word 3 of a descriptor; answers the bus error it meets, if any (log 57). -/
def putWord3 (n k v : Nat) (s : State) : State × Option BusErr :=
  match localStore (dmaWho s n k) (descAddr s n k + 12) (leBytes 4 v) s with
  | (s, .err e) => (s, some e)
  | (s, _) => (s, none)

/-- Deliver the completion token of ring index `k`, as a SIG of a core of the reach, or keep it as the token the DMA owes where
neither the matching store nor the overflow queue takes it (R227, R259) (log 57). -/
def dmaToken (n k : Nat) (s : State) : State :=
  let dst := rd s (A.RCH_DMA_TOK n) &&& 0xBFFFFFFF#32
  match tokenOf (8 * n) dst (w32 k) (roleOf s n) with
  | none => badToken false (40 + n) dst s
  | some t =>
    match matchToken { t with src := 40 + n } s with
    | (s, true) => s
    | (s, false) => { s with dma := set5 s.dma n { at5 s.dma n with owed := some k } }

/-- The boundary after a descriptor, once no token of it waits. -/
def dmaNext (n : Nat) (s : State) : State := if (at5 s.dma n).owed.isSome then s else dmaBoundary n s


/-- The token the DMA owes goes as soon as it is taken; the DMA then goes on (log 57). -/
def dmaOwed (n k : Nat) (s : State) : State :=
  dmaNext n (dmaToken n k { s with dma := set5 s.dma n { at5 s.dma n with owed := none } })

/-- A descriptor fails: CODE, state ERROR with HEAD left on it, DMAERR (R260). An error of the write of word 3 itself is logged. -/
def dmaError (n k : Nat) (e : DmaFail) (s : State) : State :=
  let s := if e.logged then s else logAccess (dmaWho s n k) e.addr e.isWr e.size e.err s
  let s := match putWord3 n k e.err.code s with
    | (s, some e) => logAccess (dmaWho s n k) (descAddr s n k + 12) true 4 e s
    | (s, none) => s
  let s := setDma n 2 (setF (F.RCH_DMA_STAT_CODE n) e.err.code s)
  let s := { s with dma := set5 s.dma n { at5 s.dma n with wait := none, pos := 0, fail := none } }
  raise (A.RCH_MEM_EVT n) 2 s

/-- A descriptor ends: word 3, HEAD, token, boundary (R259); a bus error of the write of word 3 ends it as one of its accesses (R260)
(log 57, 158). -/
def dmaDone (n k code : Nat) (tok : Bool) (s : State) : State :=
  match putWord3 n k (2 ^ 31 + code) s with
  | (s, some e) =>
    let s := logAccess (dmaWho s n k) (descAddr s n k + 12) true 4 e s
    let s := setDma n 2 (setF (F.RCH_DMA_STAT_CODE n) e.code s)
    raise (A.RCH_MEM_EVT n) 2 { s with dma := set5 s.dma n { at5 s.dma n with wait := none, pos := 0, fail := none } }
  | (s, none) =>
    let s := setF (F.RCH_DMA_STAT_HEAD n) ((k + 1) % dmaSize s n) s
    let s := { s with dma := set5 s.dma n { sup := (at5 s.dma n).sup.filter (· != k), wait := none, owed := none, pos := 0, fail := none } }
    dmaNext n (if tok then dmaToken n k s else s)

/-- Run a descriptor whose bytes can be had now, from where it has come; `got` holds those that came over the fabric, and the error
that ended them. It goes on later where an access of it is held. -/
def dmaPerform (n k : Nat) (d : Descriptor) (got : Option (List Byte × Option DmaFail)) (s : State) : State :=
  let who := dmaWho s n k
  let regs := inRegs d.dst || (!d.fill && inRegs d.src)
  let odd := (inRegs d.dst && (d.dst % 4 != 0 || d.len % 4 != 0)) || (!d.fill && inRegs d.src && (d.src % 4 != 0 || d.len % 4 != 0))
  if odd then dmaError n k ⟨if inRegs d.dst then d.dst else d.src, inRegs d.dst, 4, .decode, false⟩ s else
  let fetch := fun (o m : Nat) (s : State) =>
    if d.fill then (s, DmaGot.ok (fillBytes d.src o m)) else
    match got with
    | none => readRun who (splitRun m (d.src + o) m) s
    | some (bs, e) => if o + m ≤ bs.length then (s, .ok ((bs.drop o).take m)) else (s, .fails (e.getD ⟨d.src + o, false, m, .remoteErr, false⟩))
  let o := (at5 s.dma n).pos
  match dmaMove n who d.dst fetch (dmaSteps regs d.dst d.len o (d.len - o)) s with
  | (s, .ok _) => dmaDone n k 0 (bitAt d.ctl 30) s
  | (s, .fails e) => dmaError n k e s
  | (s, .waits) => s

/-- The reads of a descriptor whose source is in a fabric window: packets of up to 256 bytes, none crossing a 256-byte boundary
(R449); in a prefetchable window one for each line of 64 bytes (R450). -/
def dmaParts (s : State) (d : Descriptor) : List (Nat × Nat) := alignedRun (if prefetches s d.src then 64 else 256) d.len d.src d.len

/-- The error of a bus error code. -/
def errOf (code : Nat) : BusErr :=
  match code with
  | 1 => .decode
  | 2 => .owner
  | 3 => .mbxFull
  | 4 => .remoteTimeout
  | 6 => .ecc
  | 7 => .locked
  | _ => .remoteErr

/-- The reach DMA ends the descriptor at HEAD, begins to wait for its source over the fabric, or delivers the token it owes. A descriptor
with V = 0 gets DONE = 1 and no token, one that fails gets no DONE (log 158). -/
def dmaDescriptorEnd (n : Nat) (s : State) : State :=
  if dmaState s n ≠ 1 ∨ reachState s n = 4 ∨ heldFor s (40 + n) then s else
  match (at5 s.dma n).owed with
  | some k => dmaOwed n k s
  | none =>
  let k := getF s (F.RCH_DMA_STAT_HEAD n)
  match (at5 s.dma n).fail with
  | some (x, m, code) => dmaError n k ⟨x, true, m, errOf code, true⟩ s
  | none =>
  let who := dmaWho s n k
  let a := descAddr s n k
  match readRun who [(a, 8), (a + 8, 8)] s with
  | (s, .fails e) => dmaError n k e s
  | (s, .waits) => s
  | (s, .ok bs) =>
    let w := fun i => leNat ((bs.drop (4 * i)).take 4)
    let d : Descriptor := { src := w 0, dst := w 1, ctl := w 2 }
    if !bitAt d.ctl 31 then dmaDone n k 8 false s
    else if d.len = 0 then dmaDone n k 0 (bitAt d.ctl 30) s
    else
      let (s, h1) := if d.fill ∨ inFabric d.src then (s, false) else holdAccess who d.src false s
      let (s, h2) := if inFabric d.dst then (s, false) else holdAccess who d.dst true s
      if h1 ∨ h2 then s
      else if d.fill ∨ !inFabric d.src then dmaPerform n k d none s
      else match (at5 s.dma n).wait with
      | none =>
        let (s, g) := startGather (.dma n) who 0 d.src d.len (asParts (dmaParts s d)) [] s
        { s with dma := set5 s.dma n { at5 s.dma n with wait := some g } }
      | some g =>
        match s.brg.gathers.find? (·.id == g) with
        | none => { s with dma := set5 s.dma n { at5 s.dma n with wait := none } }
        | some x =>
          if !x.full then pumpGathers s else
          let e := (x.parts.find? fun p => p.got.any (·.1 != 0)).map fun p =>
            (⟨p.addr, false, p.len, errOf (p.got.elim 0 (·.1)), true⟩ : DmaFail)
          let s := dmaPerform n k d (some (x.bytes, e)) s
          if (at5 s.dma n).wait.isSome then s else modBrg (fun b => { b with gathers := b.gathers.filter (·.id != g) }) s

/-- Read a 64-byte line at a local address as the Lockhouse for an MRAM copy (R482): its bytes, the bus error, or none where it has to
wait: for the line's reach to wake (R262), or for the fabric (R54, R451). -/
def lockhouseLine (a : Nat) (s : State) : State × Option (Except BusErr (List Byte)) :=
  let who : Who := ⟨49, true, none⟩
  if !inFabric a then
    match readRun who (splitRun 64 a 64) s with
    | (s, .ok bs) => (s, some (.ok bs))
    | (s, .fails e) => (logAccess who e.addr false e.size e.err s, some (.error e.err))
    | (s, .waits) => (s, none)
  else match s.cfg.mline with
  | none =>
    let r := startGather .mcopy who 0 a 64 (asParts [(a, 64)]) [] s
    ({ r.1 with cfg := { r.1.cfg with mline := some r.2 } }, none)
  | some g =>
    let s1 := { s with cfg := { s.cfg with mline := none } }
    match s.brg.gathers.find? (·.id == g) with
    | none => (s1, none)
    | some x =>
      if !x.full then (pumpGathers s, none) else
      (modBrg (fun b => { b with gathers := b.gathers.filter (·.id != g) }) s1,
        some (if x.code = 0 then .ok x.bytes else .error (errOf x.code)))

end Sys2Proof.Machine
end

