-- ==== Sys2Proof/Machine/Bridge.lean ====
section
/-! DEFINITION. The commands of the host and fabric bridges (17_bridges R441 to R461, R527). -/

namespace Sys2Proof.Machine

/-! ### The host over PCIe (R442, R443, R446, R452) -/

/-- What a BAR0 offset reaches: its window's enable, prefetch bit and local address. -/
def hostWindow (s : State) (off : Nat) : Bool × Bool × Nat :=
  let n := off / 0x800000 % 8
  (isSet s (F.BRG_HWIN_EN n), isSet s (F.BRG_HWIN_PF n), getF s (F.BRG_HWIN_BASE n) * 0x800000 + off % 0x800000)

/-- Whether the PCIe link carries requests. -/
def pcieUp (s : State) : Bool := !isSet s F.PCI_STATUS_HOSTIF && isSet s F.PCI_STATUS_LINK

/-- Whether QSPI is the host interface. -/
def qspiOn (s : State) : Bool := isSet s F.PCI_STATUS_HOSTIF

/-- The host as an initiator. -/
def hostWho : Who := ⟨46, false, none⟩

/-- The lines of 64 bytes of a run, by address / 64. -/
def linesOf (a n : Nat) : List Nat := (List.range ((a % 64 + n + 63) / 64)).map (a / 64 + ·)

/-- A read of `n` bytes through a prefetchable host window (R450): its lines, each answered from a young buffer or fetched whole. -/
def lineGather (a n tag : Nat) (s : State) : State :=
  let lines := linesOf a n
  let hit := fun l => bufHit s s.brg.hostBufs 0 l
  let parts := lines.flatMap fun l => match hit l with
    | some b => [{ addr := 64 * l, len := 64, got := some (0, b.bytes) : GPart }]
    | none => asParts (splitRun 64 (64 * l) 64)
  let s := each (lines.filterMap hit) (fun b => modBrg fun x => { x with hostBufs := bufUse b x.hostBufs }) s
  (startGather .host hostWho tag a n parts (lines.filter fun l => (hit l).isNone) s).1

/-- Perform a PCIe memory read of `n` bytes at a BAR0 offset (log 92). -/
def doMemRead (off n tag : Nat) (s : State) : State :=
  let (en, pf, a) := hostWindow s off
  if !en ∨ !isSet s F.BRG_CTL_HEN then completeHost 1 tag [] s
  else if pf then lineGather a n tag s
  else (startGather .host hostWho tag a n (asParts (splitRun n a n)) [] s).1

/-- A posted write of the host at a local address goes on: through a fabric window as a packet per access, else as a run of local
accesses; the host bridge drops its line buffers. -/
def hostPost (a : Nat) (bs : List Byte) (s : State) : State :=
  let (s, n) := nextSeq 46 (dropHostLines s)
  if !isSet s F.BRG_CTL_HEN then pwerrLog a 0 false 0 46 1 n s
  else if !inFabric a then postedRun hostWho n (postedParts a bs) s
  else match fabricTarget s ((a - 0x80000000) / 0x4000000) ((a - 0x80000000) % 0x4000000) with
    | .refused => pwerrLog a 0 false 0 46 1 n s
    | .own ra => post (ownWho s hostWho) n (postedParts ra bs) (dropFabLines s)
    | .away fid ra => each (postedParts ra bs) (fun (x, b) => fabricWrite hostWho fid x b n) s

/-- Perform a PCIe memory write of bytes at a BAR0 offset (log 92). -/
def doMemWrite (off : Nat) (bs : List Byte) (s : State) : State :=
  let (en, _, a) := hostWindow s off
  if en then hostPost a bs s
  else
    let (s, n) := nextSeq 46 (dropHostLines s)
    pwerrLog off 0 true 0 46 1 n s

/-! ### The host over QSPI (R444, R445) -/

/-- The aligned words of 4 bytes that `n` bytes at `a` lie in. -/
def wordsOf (a n : Nat) : List (Nat × Nat) := (List.range ((a % 4 + n + 3) / 4)).map fun k => (a / 4 * 4 + 4 * k, 4)

/-- Perform a QSPI READ of `n` bytes at a local address: whole aligned words are read, and the bytes asked for are sent (R444). -/
def doQspiRead (a n : Nat) (s : State) : State :=
  if !isSet s F.BRG_CTL_HEN then completeQspi 1 [] s
  else (startGather .qspi hostWho 0 a n (asParts (wordsOf a n)) [] s).1

/-- The aligned words of a QSPI WRITE; bytes after the last complete word are left over. -/
def qspiWords : Nat → Nat → List Byte → List (Nat × List Byte) × List Byte
  | 0, _, bs => ([], bs)
  | f + 1, a, bs =>
    let k := 4 - a % 4
    if bs.length < k then ([], bs) else
    let r := qspiWords f (a + k) (bs.drop k)
    ((a, bs.take k) :: r.1, r.2)

/-- Perform a QSPI WRITE: each complete word is a posted write; bytes of an incomplete one are discarded and logged as DECODE. -/
def doQspiWrite (a : Nat) (bs : List Byte) (s : State) : State :=
  let (ws, rest) := qspiWords bs.length a bs
  let s := each ws (fun (x, b) => hostPost x b) s
  if rest.isEmpty then s else
  let (s, n) := nextSeq 46 s
  pwerrLog (a + bs.length - rest.length) 0 false 0 46 1 n s

/-! ### Requests of the host in order (R454, R489) -/

/-- The local address a request of the host begins at. -/
def HostReq.start (s : State) : HostReq → Nat
  | .memRead off _ _ => (hostWindow s off).2.2
  | .memWrite off _ => (hostWindow s off).2.2
  | .qspiRead a _ => a
  | .qspiWrite a _ => a

/-- Host reads that are not complete. -/
def hostReads (s : State) : Nat := (s.brg.gathers.filter fun g => g.use == .host).length

/-- Whether a request of the host may be performed: neither bridge it uses is frozen (R489), no write of the host is held
(R454), and a read has one of the 32 tags (R442) (log 147). -/
def hostMayGo (s : State) (q : HostReq) : Bool :=
  !frozen s 3 && !behind hostWho s && !(frozen s 4 && inFabric (q.start s)) && !((q matches .memRead ..) && decide (32 ≤ hostReads s))

/-- Whether a request of the host is a write. -/
def HostReq.writes (q : HostReq) : Bool := q matches .memWrite .. | .qspiWrite ..

/-- Perform a request of the host. -/
def hostDo : HostReq → State → State
  | .memRead off n tag => doMemRead off n tag
  | .memWrite off bs => doMemWrite off bs
  | .qspiRead a n => doQspiRead a n
  | .qspiWrite a bs => doQspiWrite a bs

/-- A request of the host is performed, or waits; none passes a write that waits, and any passes a read (R454) (log 147). -/
def hostAsks (q : HostReq) (s : State) : State :=
  if !s.brg.waits.any HostReq.writes && hostMayGo s q then hostDo q s else modBrg (fun b => { b with waits := b.waits ++ [q] }) s

/-- Requests of the host that have waited are performed, in order, as far as they may. -/
def hostGoes (s : State) : State :=
  each s.brg.waits hostAsks (modBrg (fun b => { b with waits := [] }) s)

/-- The word at a BAR2 offset: the MSI-X table, four words an entry, and the pending bits at 0x1000 (R443). -/
def bar2Word (s : State) (off : Nat) : Word :=
  if off / 4 = 0x400 then rd s A.PCI_MSIXPEND
  else if 512 ≤ off then 0 else
  let e := vget s.brg.msix (off / 16)
  match off / 4 % 4 with
  | 0 => w32 e.addr
  | 1 => w32 (e.addr / 2 ^ 32)
  | 2 => e.data
  | _ => w32 (bit e.masked)

/-- A PCIe memory read of `n` bytes at an offset of BAR0, or of BAR2, which keeps its state across device resets (R443, R527). -/
def hostMemRead (a : BarAddr) (n tag : Nat) (s : State) : State :=
  if !pcieUp s then s else
  match a with
  | .bar2 off =>
    completeHost 0 tag (((List.range ((off % 4 + n + 3) / 4)).flatMap fun k => leBytes 4 (bar2Word s (off / 4 * 4 + 4 * k)).toNat).drop (off % 4) |>.take n) s
  | .bar0 off => if !s.brg.opened then completeHost 4 tag [] s else hostAsks (.memRead off n tag) s

/-- A PCIe memory write of bytes at a BAR0 offset. -/
def hostMemWrite (off : Nat) (bs : List Byte) (s : State) : State :=
  if !pcieUp s ∨ !s.brg.opened then s else hostAsks (.memWrite off bs) s

/-- A QSPI READ of `n` bytes at a local address; while the bridge is frozen it drives 0xFF. -/
def qspiRead (a n : Nat) (s : State) : State :=
  if !qspiOn s then s
  else if !s.brg.opened then completeQspi 1 [] s
  else hostAsks (.qspiRead a n) (if frozen s 3 then emit .host [0xFF] s else s)

/-- A QSPI WRITE of bytes at a local address. -/
def qspiWrite (a : Nat) (bs : List Byte) (s : State) : State :=
  if !qspiOn s ∨ !s.brg.opened then s else hostAsks (.qspiWrite a bs) s

/-- The level of HOSTINT_N: low while QSPI is the host interface and an MSI-X bit is pending (R444). -/
def hostIntN (s : State) : Bool := !(qspiOn s && rd s A.PCI_MSIXPEND != 0)

/-- A QSPI STATUS. -/
def qspiStatus (s : State) : State :=
  if !qspiOn s then s
  else if !s.brg.opened then emit .host [0] s
  else
    let v := bit s.brg.fresh + 2 * bit (rd s A.PCI_MSIXPEND != 0)
    modBrg (fun b => { b with fresh := false }) (emit .host [b8 v] s)

/-! ### Requests of remote devices (R447, R449, R451, R454) -/

/-- The oldest packet for the bridge of a type that meets a condition. -/
def bridgePacket (s : State) (type : Nat) (p : Packet → Bool) : Option Packet :=
  (s.wfb.bridge.find? fun x => beNat (part x.pkt.payload 0 1) == type && p x.pkt).map (·.pkt)

/-- Take a packet from the bridge's queue, which frees the receive buffer it came in (R422). -/
def takePacket (x : Packet) (s : State) : State :=
  match s.wfb.bridge.find? (·.pkt == x) with
  | some q => release q.link x.vc x.blocks (modWfb (fun b => { b with bridge := b.bridge.erase q }) s)
  | none => s

/-- A number in a packet's payload. -/
def Packet.num (x : Packet) (a n : Nat) : Nat := beNat (part x.payload a n)

/-- The initiator a remote request is performed as (R55, R447). -/
def Packet.who (x : Packet) : Who := ⟨47, bitAt (x.num 1 1) 7, some (x.src, x.num 1 1 % 64)⟩

/-- An incoming WRITE is performed, or answered with PWERR; one waits behind a write of its path that is held (R454). -/
def remoteWriteRx (s : State) : State :=
  match (if frozen s 4 then none else bridgePacket s 1 fun x => !behind x.who s) with
  | none => s
  | some x =>
    let s := takePacket x s
    let s := modBrg (fun b => { b with pathRx := SMap.ins b.pathRx x.src (x.num 10 2) }) (dropFabLines s)
    let a := x.num 4 4
    let bs := part x.payload 16 (x.num 8 2)
    if !isSet s F.BRG_CTL_FEN then pwFail x.who a 5 (x.num 12 4) s
    else postedRun x.who (x.num 12 4) (postedParts a bs) s

/-- Whether the write that a READ names has been performed: it has come, and none of its path is held. -/
def readMayGo (s : State) (x : Packet) : Bool :=
  decide (((SMap.get? s.brg.pathRx x.src).getD 0 + 65536 - x.num 10 2) % 65536 < 32768) && !behind x.who s

/-- Perform every part of a remote read: its data, and the code of the first part that failed. -/
def remoteRun (who : Who) : List (Nat × Nat) → State → State × List Byte × Nat
  | [], s => (s, [], 0)
  | (a, n) :: t, s =>
    let (s, bs, c) := match localLoad who a n s with
      | (s, .ok bs) => (s, bs, 0)
      | (s, .err e) => (s, [], e.code)
      | (s, _) => (s, [], BusErr.code .remoteErr)
    let (s, r, d) := remoteRun who t s
    (s, bs ++ r, if c ≠ 0 then c else d)

/-- An incoming READ is performed after the write it names, and answered; it waits while an access of it is held. -/
def remoteReadRx (s : State) : State :=
  match (if frozen s 4 then none else bridgePacket s 2 (readMayGo s)) with
  | none => s
  | some x =>
    let a := x.num 4 4
    let n := x.num 8 2
    let tag := x.num 2 2
    let answer := fun (c : Nat) (bs : List Byte) (s : State) =>
      (sendRouted 3 x.src (respPayload c tag a (if c = 0 then n else 0) bs) (takePacket x s)).1
    if !isSet s F.BRG_CTL_FEN then answer 5 [] s else
    match holdAccess x.who a false s with
    | (s, true) => s
    | (s, false) =>
      let (s, bs, c) := remoteRun x.who (splitRun n a n) s
      answer c (if c = 0 then bs else []) s

/-- A RESP arrives: it ends the read with its TAG, or is counted as late (R451). -/
def readResponseRx (s : State) : State :=
  match (if frozen s 4 then none else bridgePacket s 3 fun _ => true) with
  | none => s
  | some p =>
    let s := takePacket p s
    match s.brg.reads.find? fun r => r.tag == p.num 2 2 with
    | none => raise A.BRG_EVT 2 (satF F.BRG_LATECNT_LATE 1 s)
    | some r => if p.num 1 1 = 0 then endRead r none (part p.payload 16 (p.num 8 2)) s else endRead r (some .remoteErr) [] s

/-- A PWERR message is logged (R452). -/
def pwerrRx (s : State) : State :=
  match (if frozen s 4 then none else bridgePacket s 4 fun _ => true) with
  | none => s
  | some p => pwerrLog (p.num 4 4) p.src false 1 (p.num 2 2 % 64) (p.num 1 1) (p.num 12 4) (takePacket p s)

/-- The oldest fabric read unanswered for BRG_RDTMO ends with REMOTE_TIMEOUT (R451). -/
def readTimeout (s : State) : State :=
  match s.brg.reads.find? fun r => decide (r.since + 1000 * getF s F.BRG_RDTMO_TMO ≤ s.now) with
  | none => s
  | some r => endRead r (some .remoteTimeout) [] (raise A.BRG_EVT 1 (satF F.BRG_LATECNT_TIMEOUT 1 s))

/-! ### Polling (R459, R460) -/

/-- A poll entry reads its source, once its period has passed and no poll of it is open (log 93). -/
def pollTimer (k : Nat) (s : State) : State :=
  let busy := s.brg.reads.any fun r => r.use == .poll k
  if !isSet s (F.BRG_IP_CFG_EN k) ∨ busy ∨ (vget s.brg.polled k).isSome
    ∨ s.now < vget s.brg.pollAt k + 1000 * getF s (F.BRG_IP_CFG_PERIOD k) then s else
  let who : Who := ⟨47, isSet s (F.BRG_IP_CFG_PRIV k), none⟩
  let a := 4 * getF s (F.BRG_IP_SRC_ADDR k)
  let put := fun (c : Nat) (bs : List Byte) (s : State) =>
    modBrg (fun b => { b with polled := vset b.polled k (some (c, w32 (leNat bs))) }) s
  let mark := fun (s : State) => modBrg (fun b => { b with pollAt := vset b.pollAt k s.now }) s
  match load who (.poll k) a 4 s with
  | (s, .ok bs) => put 0 bs (mark s)
  | (s, .err e) => put e.code [] (mark (logAccess who a false 4 e s))
  | (s, .away) => mark s
  | (s, .held) => s

/-- A firing of a poll entry is delivered (R460): to a mailbox, whose refusal raises IPDROP and re-arms a LEVEL entry, or to an
MSI-X vector. -/
def pollFire (k : Nat) (v : Word) (s : State) : State :=
  let dest := getF s (F.BRG_IP_CFG_DEST k)
  if isSet s (F.BRG_IP_CFG_MSIX k) then msixPend (min dest 31) s else
  match mbWrite dest ⟨47, isSet s (F.BRG_IP_CFG_PRIV k), none⟩ v s with
  | (s, .ok _) => s
  | (s, .error _) => raise A.BRG_EVT 6 (modBrg (fun b => { b with disarmed := vset b.disarmed k false }) s)

/-- A poll read has returned (R459) (log 93). -/
def pollResponse (k : Nat) (s : State) : State :=
  match vget s.brg.polled k with
  | none => s
  | some (c, w) =>
    let s := modBrg (fun b => { b with polled := vset b.polled k none }) s
    if c ≠ 0 then raise A.BRG_EVT 5 (satF (F.BRG_IP_CFG_ERRCNT k) 1 s) else
    let v := w &&& rd s (A.BRG_IP_MASK k)
    let prev := rd s (A.BRG_IP_LAST k)
    let s := wr (A.BRG_IP_LAST k) v s
    if isSet s (F.BRG_IP_CFG_EDGE k) then (if v = prev then s else pollFire k v s)
    else if v = 0 then modBrg (fun b => { b with disarmed := vset b.disarmed k false }) s
    else if vget s.brg.disarmed k then s
    else pollFire k v (modBrg (fun b => { b with disarmed := vset b.disarmed k true }) s)

/-! ### The PCIe endpoint (R442, R443, R461, R527) -/

/-- What a hot reset, a link down or an FLR does to the host's side of the bridge (R461); the epoch does not advance on an FLR
alone (R268). -/
def dropHost (epoch : Bool) (s : State) : State :=
  let mine := fun (g : Gather) => g.use == .host
  let ids := (s.brg.gathers.filter mine).map (·.id)
  let s := modBrg (fun b => { b with
    gathers := b.gathers.filter fun g => !mine g
    reads := b.reads.filter fun r => match r.use with | .gather g _ => !ids.contains g | _ => true
    waits := b.waits.filter fun q => !(q matches .memRead ..)
    hostBufs := [] }) s
  let s := releaseSems (fun o => o.fid == 0 && o.id == 46) 4 s
  clearBlocks (· == 46) (if epoch then epochBump 4 s else s)

/-- The link is down: PCI_STATUS shows it. -/
def pcieDown (s : State) : State :=
  setF F.PCI_STATUS_LINK 0 (setF F.PCI_STATUS_SPEED 0 (setF F.PCI_STATUS_WIDTH 0 s))

/-- PCIE_HOT_RESET: a hot reset, a link down, or an FLR. Register state of PCI survives (R461) (log 34). -/
def pcieHotReset (kind : Nat) (s : State) : State :=
  if !pcieUp s then s
  else if kind = 1 then raise A.PCI_EVT 1 (dropHost true (pcieDown s))
  else raise A.PCI_EVT 2 (dropHost (kind == 0) s)

/-- The level of PERST_N: low is a conventional reset that takes the link down; high lets the endpoint train (log 34). -/
def perstChange (high : Bool) (s : State) : State :=
  let s := modBrg (fun b => { b with perst := high }) s
  if high ∨ isSet s F.PCI_STATUS_HOSTIF then s
  else
    let was := isSet s F.PCI_STATUS_LINK
    let s := pcieDown s
    if was then raise A.PCI_EVT 1 (dropHost true s) else s

/-- The link trains up while PERST_N is high and the PCIe PLL is locked. -/
def pcieLinkUp (speed width : Nat) (s : State) : State :=
  if isSet s F.PCI_STATUS_HOSTIF ∨ isSet s F.PCI_STATUS_LINK ∨ !s.brg.perst ∨ !isSet s F.SYS_CLKSTAT_PCILOCK ∨ speed = 0 ∨ 3 < speed ∨ width = 0 ∨ 2 < width then s
  else raise A.PCI_EVT 0 (setF F.PCI_STATUS_LINK 1 (setF F.PCI_STATUS_SPEED speed (setF F.PCI_STATUS_WIDTH width s)))

/-- A host memory write of a word in the MSI-X table in BAR2. -/
def msixTableWrite (v word : Nat) (x : Word) (s : State) : State :=
  if !pcieUp s then s else
  let e := vget s.brg.msix v
  let e := match word % 4 with
    | 0 => { e with addr := e.addr / 2 ^ 32 * 2 ^ 32 + x.toNat / 4 * 4 }
    | 1 => { e with addr := e.addr % 2 ^ 32 + x.toNat * 2 ^ 32 }
    | 2 => { e with data := x }
    | _ => { e with masked := bitAt x.toNat 0 }
  msixSend v (modBrg (fun b => { b with msix := vset b.msix v e }) s)

/-- A word of configuration space: the identity that R442 gives; of the rest the spec gives none, and the value is free (log 166). -/
def configWord (word : Nat) (s : State) : State × Word :=
  match word with
  | 0 => (s, w32 ((if s.sn then 0x0481 else 0x0480) * 2 ^ 16 + 0x1EF7))
  | 2 => (s, w32 (0x088000 * 2 ^ 8 + getF s F.SYS_IDENT_MODREV))
  | _ => (usedFree s, w32 (freeNat s))

/-- A configuration request: answered with Configuration Request Retry Status until the bridge is open (R527); a request of a type that
the endpoint does not support completes with Unsupported Request (R442) (log 166). -/
def pcieConfig (q : CfgReq) (s : State) : State :=
  if !pcieUp s then s else
  match q with
  | .unsupported => emit .host [1] s
  | _ =>
    if !s.brg.opened then emit .host [2] s else
    match q with
    | .read w => let r := configWord w s; emit .host (0 :: leBytes 4 r.2.toNat) r.1
    | .msixEnable b => each (List.range 32) msixSend (setF F.PCI_STATUS_MSIXEN (bit b) (emit .host [0] s))
    | .unsupported => s

end Sys2Proof.Machine
end

