-- ==== Sys2Proof/Machine/Startup.lean ====
section
/-! DEFINITION. Device resets and start-up (18_startup R466 to R475, R479 to R481; 19_selftest_safety R493, R498, R500, R501;
17_bridges R527). Reset kinds are those of SYS_STATUS.LASTRST: 0 power-on, 1 brownout, 2 RESET_N, 3 watchdog, 4 host, 5 fabric, 6 wake
from standby, 7 another DEVICE fault. -/

namespace Sys2Proof.Machine

/-! ### What a device reset keeps (R479) -/

/-- Whether a reset of a kind is one of power-on or brownout. -/
def coldKind (kind : Nat) : Bool := kind == 0 || kind == 1

/-- Whether the PCIe link, configuration space and MSI-X table keep their state across a reset of a kind (R479, R527). -/
def keepsPci (kind : Nat) : Bool := !(coldKind kind || kind == 6)

/-- Whether forces stay (R479): CFG_CTL.FKEEP, and one of RESET_N, host, fabric and wake. -/
def keepsForces (kind : Nat) (s : State) : Bool := isSet s F.CFG_CTL_FKEEP && (kind == 2 || kind == 4 || kind == 5 || kind == 6)

/-- Whether a register word stays across a reset of a kind: the log pointers and the key store, which follow MRAM and fuses; the time
base, the DEVICE reset count, PCIe as R479 says. -/
def keepsWord (kind pa : Nat) : Bool :=
  [A.LKH_FLOGPTR, A.BST_REPPTR, A.CFG_KEYSTAT].contains pa
    || (!coldKind kind && [A.TMB_TIME, A.TMB_TIME + 4, A.TMB_INC, A.TMB_INC + 4, A.TMB_SLEWREM, A.LKH_DEVRST].contains pa)
    || (keepsPci kind && [A.PCI_STATUS, A.PCI_MSIXPEND].contains pa)

/-- Memory after a reset: the MRAM and forces that are kept; every other byte reads as after power-on, every quality code BAD. -/
def resetMemory (forces : Bool) (s : State) : State :=
  let keep := fun (a : Nat) => decide (0x40000000 ≤ a) || (forces && decide (0x30040000 ≤ a ∧ a < 0x300C0000))
  { s with mem := s.mem.filter fun c => keep c.1, ecc := s.ecc.filter fun c => keep c.1 }

/-- Mailboxes after a reset: emptied by a power-on reset or brownout, else kept but for open blocks (R269). -/
def resetMailboxes (kind : Nat) (s : State) : State :=
  if coldKind kind then { s with mbox := Vector.replicate 64 Mbox.reset } else
  { s with mbox := s.mbox.map fun b => if b.bstate = .opened then Mbox.reset else b }

/-- What the MBX block has to report after a reset that keeps mailbox storage: open blocks cleared, epochs advanced (R268, R269). -/
def reportMailboxes (before : State) (s : State) : State :=
  let s := if before.mbox.any (·.bstate == .opened) then raise A.MBX_EVT 1 s else s
  each (List.range 6) (fun r s => epochBump r (setF (F.MBX_REPOCH_EPOCH r) (getF before (F.MBX_REPOCH_EPOCH r)) s)) s

/-- An F-die that runs on from VFIELD through a power-on reset: its outputs are off and it has no configuration, with cause POWERUP, as after
its own power-up (R287, R479); its inputs, counters, supplies and latched faults stay (R15) (log 33). -/
def fdieHolds (b : Fio) : Fio :=
  { b with copy := [], matched := false, restarted := true, resynced := false, safe := Vector.replicate 16 true,
           fresh := Vector.replicate 16 false, cmt := Vector.replicate 16 0, finst := Vector.replicate 4 none, causes := 4, cause := 3,
           rxHeld := 0, rxR := 0, rxSeen := 0, hit := 0, aiRun := false, fgood := 0, news := { b.news with entries := b.news.entries ++ [3] } }

/-- The field side after a reset: the L-die's half begins anew; the F-die goes on from VFIELD (R15), in its safe state (R479) (log 33). -/
def resetField (kind : Nat) (s : State) : State :=
  let b := s.fio
  let fresh := { b with down := none, up := none, good := 0, lastGood := 0, pend := [], sent := [], cmd := 0, cmdWait := 0, edges := [],
                        tag := Vector.replicate 16 0, inst := Vector.replicate 4 none, fgood := 0, fsent := 0, aiPrev := none, aiTarget := none }
  noteDrive { s with fio := if kind = 0 ∧ b.on then fdieHolds fresh else fresh }

/-- Every register takes its reset value but those kept; all else begins anew but what R479 keeps. -/
def resetState (kind : Nat) (s0 : State) : State :=
  let forces := keepsForces kind s0

  let fstat := if coldKind kind then 0 else bitsOf (rd s0 A.LKH_FSTAT).toNat 1 4
  let fid := ownId s0
  let brg := s0.brg
  let cfg := s0.cfg
  let faults := s0.faults
  let s := { s0 with
    regs := s0.regs.filter (fun r => keepsWord kind r.1), evtLast := [], rshadow := [], wshadow := [],
    cores := State.reset.cores, lkp := Lkp.reset, scan := Scan.reset, rot := Rot.reset,
    faults := { Faults.reset with last := faults.last, seq := faults.seq, resets := if coldKind kind then [] else faults.resets },
    tmb := if coldKind kind then Tmb.reset else { Tmb.reset with frac := s0.tmb.frac, slewed := s0.tmb.slewed, steps := s0.tmb.steps },
    basin := { Basin.reset with sweepAt := s0.now }, eth := ethReset (rd s0 (A.SYS_UID 0)).toNat, tow := Tow.reset, can := State.reset.can, canClk := 0, btl := State.reset.btl,
    wfb := Wfb.reset,
    brg := { Brg.reset with perst := brg.perst, qspi := brg.qspi, msix := if keepsPci kind then brg.msix else Brg.reset.msix },
    cfg := { Cfg.reset with fuses := { cfg.fuses with dskClosed := cfg.fuses.dskClosed && kind != 0 }, repairs := if coldKind kind then cfg.repairs.filter (·.fused) else cfg.repairs,
                            dip := if coldKind kind then none else cfg.dip, lcChange := cfg.lcChange, torn := cfg.torn,
                            testAsked := cfg.testAsked && kind != 0, refBad := cfg.refBad },
    dma := State.reset.dma, pair := Pair.reset }
  let s := resetField kind (resetMailboxes kind (resetMemory forces s))
  let s := if coldKind kind then s else reportMailboxes s0 (setSlewRem (slewRem s) (setF F.WFB_STATUS_OWNID fid s))
  let s := wr A.LKH_FSTAT (w32 (2 * fstat + 1)) s
  let s := if forces then syncForced (setF F.CFG_CTL_FKEEP 1 s) else s
  let s := setF F.SYS_STATUS_PWRWARN (bit s.cfg.dip.isSome) s
  syncFaultN (setF F.PCI_STATUS_HOSTIF (bit brg.qspi) (setF F.SYS_STATUS_LASTRST kind s))

/-- A copy into a slot that a reset cuts off leaves the slot invalid; what it wrote so far is open (R482). -/
def tearCopy (s : State) : State :=
  match s.cfg.mcopy with
  | none => s
  | some (_, dst, n) =>
    let s := freeBytes (0x40000000 + dst) (min (64 * n) (0x2000000 - dst)) s
    each (List.range 2) (fun k s => if touches dst (64 * n) (0x800000 * k) 0x800000 then modCfg (fun c => { c with torn := some k }) s else s) s

/-- The device enters reset. -/
def enterReset (kind : Nat) (s : State) : State :=
  let on := s.fio.on
  let s := resetState kind (tearCopy s)
  if kind ≠ 0 ∧ on then enterSafe 2 s else s

/-! ### Start-up steps 2 to 4 (R467 to R470) -/

/-- The fuses are read: life-cycle state, key store, the test decision (R468); true where external test access opens (log 38). -/
def readFuses (b : Boot) (s : State) : State × Bool :=
  let lcs := s.cfg.fuses.lcs
  let s := setF F.SYS_STATUS_LCS lcs s
  let open' := (lcs == 1 || lcs == 3) && (b.test || s.cfg.testAsked)
  let s := modCfg (fun c => { c with testAsked := false }) s
  let setKey := fun (k : Option Nat) (x : Cfg) => { x with fuses := { x.fuses with key := k } }
  if open' then
    let s := modCfg (fun c => { setKey none c with fuses := { c.fuses with key := none, dskClosed := true } }) s
    (syncFaultN (modFaults (fun x => { x with testOpen := true }) s), true)
  else
    let load := lcs == 2 && !isSet s F.CFG_KEYSTAT_DSKKILL && !s.cfg.fuses.dskClosed && isSet s F.CFG_KEYSTAT_DSKPROG
    let s := modCfg (setKey (if load then some s.cfg.fuses.dsk else none)) s
    (setF F.CFG_STATUS_KEYLOADED (bit load) s, false)

/-- Start-up stops: the device answers only what R469 names (log 30, 31). -/
def stopStartup (s : State) : State := modCfg (fun c => { c with halted := true }) s

/-- DEVICE resets within the last 60 s are counted; true where RSTMAX of them stop start-up (R501). `limit` is RSTMAX as it stood
before the reset (log 30). -/
def countResets (kind limit : Nat) (s : State) : State × Bool :=
  let recent := (s.faults.resets.filter fun t => decide (s.now < t + 60000000000)) ++ (if kind = 3 ∨ kind = 7 then [s.now] else [])
  let s := modFaults (fun x => { x with resets := recent }) s
  let s := setF F.LKH_DEVRST_WINDOW (min recent.length 15) s
  (s, (kind == 3 || kind == 7) && limit != 0 && decide (limit ≤ recent.length))

/-- The failing rows and columns of one memory. -/
def badOf (b : Boot) (mem : Nat) : List (Nat × Bool × Nat) := (b.bad.filter fun x => x.1 == mem).map (·.2)

/-- MBIST and soft repair of the shared memories: the first that cannot be repaired, as (memory, unit); mailbox storage only after
power-on or brownout (R467, R493). -/
def testShared (b : Boot) (kind : Nat) (s : State) : State × Option (Nat × Nat) :=
  ([5, 6, 7] ++ (if coldKind kind then [8] else [])).foldl (fun r mem =>
    match r.2 with
    | some _ => r
    | none => match repairAll mem (badOf b mem) r.1 with
      | (s, some u) => (s, some (mem, u))
      | (s, none) => (s, none)) (s, none)

/-- The roles are held by the four lowest-numbered reaches that have not failed, and the fifth is DRY (R22, R191). -/
def assignRoles (s : State) : State :=
  let good := (List.range 5).filter fun n => !failed s n
  let s := each (List.range 4) (fun r => setRole r (good.getD r 7)) s
  let s := each good.zipIdx (fun (n, k) => setReachState n (if k < 4 then 0 else 2)) s
  setSpare (good.getD 4 7) s

/-- MBIST and soft repair of the reaches: one that cannot be repaired fails (R493), and the roles go to the others. -/
def testReaches (b : Boot) (s : State) : State :=
  assignRoles (each (List.range 5) (fun n s =>
    let before := s.cfg.repairs.length
    match repairAll n (badOf b n) s with
    | (s, some u) =>
      failReach n (raise A.LKH_EVT 4 (logFault 2 n [n, u] (syncSpares n (setF (F.BST_REACH_BANK n) u (setF (F.BST_REACH_MRESULT n) 3 s)))))
    | (s, none) => syncSpares n (setF (F.BST_REACH_MRESULT n) (if before < s.cfg.repairs.length then 2 else 1) s)) s)

/-- The PLLs lock, and REFOK goes on showing the check of the reference (R526); a failed reach's PLL stays off. -/
def lockClocks (s : State) : State :=
  let s := wr A.SYS_CLKSTAT (w32 (0x3E + bit (!s.cfg.refBad))) s
  each ((List.range 5).filter fun n => !failed s n) (fun n => setLock n 1) s

/-- Calibration: items 4 to 6 wait for VFIELD where it is absent (R470). -/
def startCalibration (b : Boot) (s : State) : State :=
  if b.field then calibrated 0x7F b.calFail s else calibrated 0x0F b.calFail (modCfg (fun c => { c with calDue := true }) s)

/-! ### The stave image (R473 to R475) -/

/-- Whether two block numbers name one block (R46). -/
def blocksOf (l : List (Nat × Nat)) : List Nat := (l.map fun (a, _) => a / 0x10000).eraseDups

/-- The writes of REGS, in order, as initiator 49: those done, and the one that ended with a bus error. -/
def writeRegs : List (Nat × Nat) → List (Nat × Nat) → State → State × List (Nat × Nat) × Option (Nat × BusErr)
  | [], done, s => (s, done, none)
  | (a, v) :: t, done, s =>
    match store ⟨49, true, none⟩ a (leBytes 4 v) s with
    | (s, .err e) => (logAccess ⟨49, true, none⟩ a true 4 e s, done, some (a, e))
    | (s, _) => writeRegs t (done ++ [(a, v)]) s

/-- A load that ended with a bus error is taken back: every block written returns to its reset values (log 32). -/
def undoRegs (before : State) (blocks : List Nat) (s : State) : State :=
  let s := { before with regs := s.regs.filter fun r => !blocks.contains (r.1 / 0x10000) }
  resolveUnits (each (before.regs.filter fun r => blocks.contains (r.1 / 0x10000)) (fun (a, v) => wr a v) s)

/-- USER sections: only words that differ are written, inside the user area of the MRAM. -/
def loadUser (n : Nat) (s : State) : State :=
  each ((sections s n).filter (·.type == 4)) (fun x s =>
    let a := 0x41450000 + x.dest
    if 0x42000000 < a + x.size then s else putBytes a (sectionBytes s n x) s) s

/-- The output image takes the safe table's values; this is no commit (R469). -/
def safeFill (s : State) : State := each (safeTable s) fillOut (clearOut s)

/-- CFG_HASHi show CFGHASH, most significant word first. -/
def showHash (h : Nat) (s : State) : State := each (List.range 8) (fun i => wr (A.CFG_HASH i) (w32 (h / 2 ^ (32 * (7 - i))))) s

/-- A slot failed at start-up (R473, fault 0x51). -/
def slotFailed (n e : Nat) (s : State) : State := logFault 0x51 n [n, e] (raise A.CFG_EVT 2 (showSlot n e false s))

/-- Whether the commit maps of two tasks cover one output byte (R149) (log 124). -/
def mapsClash (s : State) : Bool :=
  (List.range 32).any fun t => (commitRanges s t).any fun r => (List.range t).any fun u => (commitRanges s u).any fun q =>
    decide (r.off < q.off + q.len ∧ q.off < r.off + r.len)

/-- Load slot `n`, which has passed every check, up to the start of the cores (R474); false where REGS ended with a bus error (log 32), or
its commit maps overlap (R149) (log 124). -/
def loadSlot (n : Nat) (b : Boot) (s : State) : State × Bool :=
  match writeRegs (regPairs s n) [] s with
  | (u, done, some _) => (slotFailed n 10 (undoRegs s (blocksOf done) u), false)
  | (u, done, none) =>
    if mapsClash u then (slotFailed n 10 (undoRegs s (blocksOf done) u), false) else
    let s := each (List.range 4) (fun r s => if 5 ≤ reachOf s r then s else
      each (roleMem s n r) (fun (o, bs) s => reachWords (reachOf s r) o bs s) s) u
    let v := hdr s n 0x10 2
    let s := each ((List.range 5).filter fun m => (roleOf s m).isSome) (fun m => loadFirmware m 0 n v) s
    let s := showHash (imgHash s n) (safeFill (loadUser n (setF F.LKH_FWVER_ACTIVE v s)))
    let s := modRot (fun x => { x with fwFrom := n }) (modScan (fun c => { c with sources := b.sources }) s)
    (setF F.SYS_STATUS_CFGSLOT n (setF F.CFG_STATUS_IMG (n + 1) s), true)

/-- Verify a slot that has passed checks 1 to 8, and load it. -/
def trySlot (n : Nat) (b : Boot) (s : State) : State × Bool :=
  match slotVerify s n with
  | 0 => loadSlot n b (showSlot n 0 true s)
  | e => (slotFailed n e s, false)

/-- The order in which slots that pass checks 1 to 8 are tried: the higher SEQ first, slot A on a tie (R473). -/
def slotOrder (s : State) : List Nat :=
  ((if hdr s 0 8 4 < hdr s 1 8 4 then [1, 0] else [0, 1]).filter fun n => slotCheck s n == 0)

/-- Slot selection, verification and loading; true where an image is loaded (R473). -/
def loadImage (b : Boot) (s : State) : State × Bool :=
  let s := each (List.range 2) (fun n s => match slotCheck s n with | 0 => showSlot n 0 false s | e => slotFailed n e s) s
  (slotOrder s).foldl (fun r n => if r.2 then r else trySlot n b r.1) (s, false)

/-- Without an image: IMG reads NONE, and the host bridge is privileged (R475). -/
def noImage (s : State) : State :=
  setF F.SYS_PRIVCTL_LOCK 0 (setF F.SYS_PRIVCTL_HOST 1 (raise A.CFG_EVT 1 (setF F.CFG_STATUS_IMG 0 (safeFill s))))

/-! ### READY (R178, R191, R474) -/

/-- READY is reached: the fifth reach enters DRY, the control state is LOAD without an image and STOPPED with one, AUTORUN or a
command that waited acts. -/
def reachReady (image : Bool) (s : State) : State :=
  let s := raise A.SYS_EVT 5 (setF F.SYS_STATUS_READY 1 s)
  let s := syncFaultN (setF F.LKH_FSTAT_INIT 0 s)
  let now := s.now
  let s := modCfg (fun c => { c with blockAt := Vector.replicate 6 now }) s
  let t := time s
  let s := wr64 A.LKH_NEXTH (t + 200000000) (modRot (fun x => { x with wetAt := Vector.replicate 5 t, testAt := Vector.replicate 5 t }) s)
  let s := match spareOf s with
    | some n => if reachState s n = 2 then modRot (fun x => { x with testFrom := t }) (setLock n 0 (setPhase 1 s)) else s
    | none => s
  let s := syncRotating s
  if !image then takeWaiting s else
  let s := setF F.SCN_STATUS_CSTATE 3 s
  if isSet s F.LKH_SBYCTL_EN ∧ !s.sn then pairEnable s
  else takeWaiting (if isSet s F.SCN_CTL_AUTORUN then restartStart true s else s)

/-- The cores of the WET reaches leave reset (R474 step 6) (log 109). -/
def startWet (s : State) : State :=
  each ((List.range 5).filter fun n => reachState s n == 0 && (roleOf s n).isSome) startCores s

/-- Steps 3 to 6. -/
def startLater (kind : Nat) (b : Boot) (s : State) : State :=
  let s := lockClocks s
  match testShared b kind s with
  | (s, some (mem, u)) =>
    let s := writeEntry (faultEntry s 0x28 mem [mem, u]) (setFstat 4 s)
    stopStartup (modFaults (fun x => { x with stopped := true }) s)
  | (s, none) =>
    let s := startCalibration b (modBrg (fun x => { x with opened := true }) (testReaches b s))
    if getF s F.SYS_STATUS_LCS = 0 then reachReady false (noImage s) else
    match loadImage b s with
    | (s, true) => reachReady true (startWet s)
    | (s, false) => reachReady false (noImage s)

/-- Start-up from step 2 on, after a device reset of a kind. `limit` is LKH_FCFG.RSTMAX as it stood before the reset (log 109). -/
def startUp (kind limit : Nat) (b : Boot) (s : State) : State :=
  let s := modCfg (fun c => { c with halted := false, brownout := false }) { s with boot := b }
  let s := setF F.SYS_CLKSTAT_REFOK (bit (!s.cfg.refBad)) s
  let s := if kind = 0 then (if b.field then fdieUp s else fdieDown s) else s
  let s := if kind = 1 then setFstat 4 s else s
  let (s, stop) := countResets kind limit s
  match readFuses b s with
  | (s, true) => stopStartup s
  | (s, false) =>
    let s := if kind = 3 then raise A.LKH_FEVT 1 s else s
    if getF s F.SYS_STATUS_LCS = 4 then stopStartup s
    else if stop then stopStartup (modFaults (fun x => { x with stopped := true }) s)
    else startLater kind b s

/-- A device reset of a kind, through start-up. External test access is left only by a power-on reset (R468); a start-up that
RSTMAX stopped, by a power-on reset or RESET_N (R501) (log 28). -/
def deviceReset (kind : Nat) (b : Boot) (s : State) : State :=
  if s.faults.testOpen ∧ kind ≠ 0 then s
  else if s.faults.stopped ∧ kind ≠ 0 ∧ kind ≠ 2 then s
  else
    let limit := getF s F.LKH_FCFG_RSTMAX
    startUp kind limit b (enterReset kind s)

/-- A device reset that no command of the environment brings: what the environment offers is as at the last start-up. -/
def deviceResetNow (kind : Nat) (s : State) : State := deviceReset kind s.boot s

/-! ### The rows of power and reset -/

/-- Held in reset since before READY: VIN_L reached the reset level then, and the next start is a power-on reset (R508) (log 170). -/
def heldCold (s : State) : Bool := s.cfg.brownout && getF s F.SYS_STATUS_LASTRST != 1

/-- POWER_ON: VIN_L is valid. After a brownout within the hold-up the reset is a brownout; after a longer one, power-on (log 36). -/
def powerOn (lost : Bool) (b : Boot) (s : State) : State :=
  let kind := if s.cfg.brownout ∧ !lost ∧ !heldCold s then 1 else 0
  let s := if kind = 1 ∨ heldCold s then s else enterReset 0 s
  startUp kind 0 b (setF F.PCI_STATUS_HOSTIF (bit b.hostsel) (modBrg (fun x => { x with qspi := b.hostsel }) s))

/-- BROWNOUT: VIN_L reaches the reset level (R466, fault 0x39); before READY the device is held in reset without the sequence of R466
(R508) (log 170). -/
def brownout (vin : Nat) (s : State) : State :=
  if s.cfg.brownout then s else
  let hold := modCfg fun c => { c with brownout := true, halted := true }
  if !isSet s F.SYS_STATUS_READY then hold (enterReset 0 s)
  else hold (enterReset 1 (sequencerEnd 0x39 0 [vin] (deviceGasp 1 s)))

/-- RESET_N: a device reset of kind 2, or a wake from standby (R481, R516); without effect while VIN_L holds the device in reset (log 37). -/
def resetN (b : Boot) (s : State) : State :=
  if s.cfg.brownout then s else deviceReset 2 b (if s.cfg.standby then s else deviceGasp 3 s)

/-- A low of RESET_N for `low` ns (R516): under 0.2 µs it is ignored; from 1 µs it resets; between, whether it does is open (log 36, 37). -/
def resetPulse (low : Nat) (b : Boot) (s : State) : State :=
  if low < 200 then s
  else if 1000 ≤ low then resetN b s
  else if freeNat s % 2 = 1 then resetN b (usedFree s) else usedFree s

/-- The level of the READY ball (R516). -/
def readyPin (s : State) : Bool := isSet s F.SYS_STATUS_READY

/-- The level of the FAULT_N ball (R499, R516): low while it is asserted, and while VIN_L holds the device in reset. -/
def faultPin (s : State) : Bool := !(faultN s || s.cfg.brownout)

/-- WAKE_N wakes a device in standby (R481). -/
def wakeN (b : Boot) (s : State) : State := if s.cfg.standby then deviceReset 6 b s else s

end Sys2Proof.Machine
end

