-- ==== Sys2Proof/Machine/Weevil.lean ====
section
/-! DEFINITION. What a Weevil core does at an instruction boundary: pending bus errors, fetch, execution, the end of a work item,
preemption (03_weevil_core R81 to R116; 04_weevil_instructions R122 to R140). -/

namespace Sys2Proof.Machine

/-! ### Fetch (R98 to R100) -/

/-- Whether core `i` may fetch at an address: the own-reach alias, and the MRAM window as far as its mode may read it. -/
def fetchable (s : State) (i a : Nat) : Bool :=
  decide (a < 0x100000) || (decide (0x40000000 ≤ a ∧ a < 0x42000000) && ((s.core i).sup || !mramPriv (a - 0x40000000)))

/-- Read a line for the I-cache, 8 bytes at a time. -/
def readLine (i a : Nat) (s : State) : State × Except Exc (List Word) :=
  (List.range 4).foldl (fun r k =>
    match r with
    | (s, .error e) => (s, .error e)
    | (s, .ok ws) => match ownRead i (a + 8 * k) 8 s with
      | (s, .error e) => (s, .error { cause := .ifetch, bus := some (e, a + 8 * k, false, 8) })
      | (s, .ok v) => (s, .ok (ws ++ [w32 v, w32 (v / 2 ^ 32)]))) (s, .ok [])

/-- The key of an I-cache line of core `i` among the stored words with an error: a line so marked has a parity error (R99). -/
def lineKey (i a : Nat) : Nat := 2 ^ 40 + i * 2 ^ 32 + a / 32 * 32

/-- A line enters the I-cache of core `i`: 256 sets of two lines, the older of a set leaves (log 41). -/
def cacheLine (i a : Nat) (ws : List Word) (s : State) : State :=
  eccClear (lineKey i a) (modCore i (fun k =>
    let same := k.icache.filter fun x => x.1 / 32 % 256 == a / 32 % 256
    let keep := if same.length < 2 then k.icache else k.icache.filter fun x => some x.1 != (same.head?.map (·.1))
    { k with icache := keep ++ [(a, ws)] }) s)

/-- The line of an address in the I-cache of core `i`. -/
def cached (s : State) (i a : Nat) : Option (List Word) := ((s.core i).icache.find? fun x => x.1 == a / 32 * 32).map (·.2)

/-- A hit meets a parity error: the line is invalidated, the error counted and recorded (R99). -/
def parityError (i a : Nat) (s : State) : State :=
  let s := modCore i (fun k => { k with icache := k.icache.filter fun x => x.1 != a / 32 * 32 }) s
  raise (A.RCH_CORE_EVT (i / 8)) (8 + i % 8) (satF (F.RCH_CORE_ICPCNT_COUNT (i / 8)) 1 (eccClear (lineKey i a) s))

/-- Core `i` fills the line of an address, and has its word. -/
def fetchLine (i a : Nat) (s : State) : State × Except Exc Word :=
  match readLine i (a / 32 * 32) s with
  | (s, .error e) => (s, .error e)
  | (s, .ok ws) => (cacheLine i (a / 32 * 32) ws s, .ok (ws.getD (a % 32 / 4) 0))

/-- Core `i` fetches the word at its PC (log 112, 146). -/
def fetch (i : Nat) (s : State) : State × Except Exc Word :=
  let a := (s.core i).pc.toNat
  if !fetchable s i a then (s, .error { cause := .ifetch }) else
  match cached s i a, SMap.get? s.ecc (lineKey i a) with
  | some ws, none => (s, .ok (ws.getD (a % 32 / 4) 0))
  | some _, some _ => fetchLine i a (parityError i a s)
  | none, _ => fetchLine i a s

/-! ### Ends of instructions -/

/-- An instruction ends with a change of the core and `n` cycles; the PC goes on (log 6). -/
def finish (i n : Nat) (f : Core → Core) (s : State) : State := modCore i (fun k => ((f k).next).spend n) s

/-- An instruction ends with a jump. -/
def jump (i : Nat) (target : Word) (s : State) : State := modCore i (fun k => { k.spend 2 with pc := target &&& ~~~3#32 }) s

/-- A branch: taken, two cycles; else one (R132). -/
def wBranch (i : Nat) (taken : Bool) (disp : Word) (s : State) : State :=
  if taken then jump i ((s.core i).pc + disp * 4) s else finish i 1 id s

/-! ### The checks of loads, stores and bit operations (R86, R90, R112, R162) -/

/-- The own-reach offset that an address of core `i` reaches, through the alias or the absolute address of its reach. -/
def ownOffset (s : State) (i a : Nat) : Option Nat :=
  match target s i a with
  | .reach n off => if n = i / 8 then some off else none
  | _ => none

/-- The own-reach alias offsets that may reach the memory at folded offset `o` of reach `n`: itself, its mirror in each circular
window, the other firmware half (R202, R256). -/
def aliasesOf (s : State) (n o : Nat) : List Nat :=
  (o :: (List.range 8).map fun w => o + 2 ^ (getF s (F.RCH_CW_SIZE n w) + 6)) ++ [o + 0x20000, o - 0x20000]

/-- Whether an access of `n` bytes touches the return-only region: the bytes that the own-reach addresses from RSL to RSB reach,
through whatever address the core names them (R90). -/
def touchesReturn (s : State) (i a n : Nat) : Bool :=
  let k := s.core i
  let inside := fun (x : Nat) => decide (x < k.rsb.toNat ∧ k.rsl.toNat < x + n)
  match ownOffset s i a with
  | some o => (aliasesOf s (i / 8) o).any fun x => inside x && ownOffset s i x == some o
  | none => false

/-- Whether the windows of a running segment item keep core `i` from writing (R162). -/
def outsideWindows (s : State) (i a n : Nat) : Bool :=
  let k := s.core i
  match k.items.get k.level with
  | some r => r.segment.isSome && !r.windows.any fun (lo, hi) => decide (lo ≤ a ∧ a + n ≤ hi ∧ a < 0x100000)
  | none => false

/-- The first check that an access of core `i` fails. -/
def accessCheck (s : State) (i a n : Nat) (writes : Bool) : Option Exc :=
  if a % n ≠ 0 then some { cause := .align, addr := some a }
  else if touchesReturn s i a n ∧ (writes ∨ !(s.core i).sup) then some { cause := .retonly, addr := some a }
  else if writes ∧ outsideWindows s i a n then some { cause := .window, addr := some a }
  else none

/-- An access check has failed; a WINDOW exception stops control (R162, R173). -/
def accessFault (i : Nat) (e : Exc) (s : State) : State :=
  let k := s.core i
  let s := faultAt i e s
  if e.cause = .window then
    controlStop .window (match k.items.get k.level with | some r => r.segment.map (·.1) | none => none) s
  else s

/-! ### The store buffer (R95 to R97, R114) -/

/-- The oldest buffered store of core `i` goes to its target: false where it must wait, behind a store of the core that is held, or as
one that is held from now on (R95, R255) (log 45). -/
def drainOne (i : Nat) (s : State) : State × Bool :=
  if heldFor s i then (s, false) else
  match (s.core i).sbuf with
  | [] => (s, true)
  | x :: t =>
    match inMode i x.sup (store ⟨i, false, none⟩ x.addr (leBytes x.size x.data)) (modCore i (fun k => { k with sbuf := t }) s) with
    | (s, .ok _) => (s, true)
    | (s, .err e) => (writeErr ⟨i, false, none⟩ x.addr x.size e 0 s, true)
    | (s, _) => (hold { who := ⟨i, x.sup, none⟩, seq := 0, parts := [(x.addr, x.size, x.data)] } s, false)

/-- Whether core `i` still stands at the instruction it had begun in state `s0`: none of its own stores has reset it (R110). -/
def sameInstr (i : Nat) (s0 s : State) : Bool :=
  (s.core i).pc == (s0.core i).pc && (s.core i).cyc == (s0.core i).cyc && (s.core i).level == (s0.core i).level

/-- The store buffer of core `i` drains; `n` bounds its entries. The answer is false where the instruction that waits for it does not
go on: a store must wait, or has reset or halted the core (log 45). -/
def drainAll (i : Nat) : Nat → State → State × Bool
  | 0, s => (s, true)
  | n + 1, s => match drainOne i s with
    | (t, true) =>
      if !sameInstr i s t ∨ (t.core i).st ≠ .run then (t, false)
      else if (t.core i).sbuf.isEmpty then (t, true) else drainAll i n t
    | (t, false) => (t, false)

/-- STORE_COMPLETE. -/
def storeComplete (i : Nat) (s : State) : State := (drainOne i s).1

/-! ### Loads and stores (R129, R130) -/

/-- Bytes of a load. -/
def LoadOp.size : LoadOp → Nat
  | .ldw => 4 | .ldh | .ldhu => 2 | .ldb | .ldbu => 1

/-- Whether a load sign-extends. -/
def LoadOp.sx : LoadOp → Bool
  | .ldh | .ldb => true
  | _ => false

/-- Bytes of a store. -/
def StoreOp.size : StoreOp → Nat
  | .stw => 4 | .sth => 2 | .stb => 1

/-- A load. -/
def doLoad (i : Nat) (op : LoadOp) (d : Fin 16) (ea : Nat) (s0 : State) : State :=
  let n := op.size
  match accessCheck s0 i ea n false with
  | some e => accessFault i e s0
  | none =>
    if ea < 0x100000 then
      match ownRead i ea n s0 with
      | (s, .ok v) => finish i 2 (fun k => k.setReg d (loadValue n op.sx (leBytes n v))) s
      | (s, .error e) => instrFault i (excBus e ea false n) s0 s
    else
      match drainAll i 4 s0 with
      | (s, false) => s
      | (s1, true) =>
        match load ⟨i, false, none⟩ (.core i d.val n op.sx) ea n s1 with
        | (s, .ok bs) => finish i 2 (fun k => k.setReg d (loadValue n op.sx bs)) s
        | (s, .err e) => instrFault i (excBus e ea false n) s1 s
        | (s, _) => s

/-- A store. -/
def doStore (i : Nat) (op : StoreOp) (r : Fin 16) (ea : Nat) (s0 : State) : State :=
  let n := op.size
  let v := ((s0.core i).reg r).toNat % 256 ^ n
  match accessCheck s0 i ea n true with
  | some e => accessFault i e s0
  | none =>
    if ea < 0x100000 then
      match ownWrite i ea n v s0 with
      | (s, .ok _) => finish i 1 id s
      | (s, .error e) => instrFault i (excBus e ea true n) s0 s
    else if 4 ≤ (s0.core i).sbuf.length + bit (heldFor s0 i) then s0
    else finish i 1 (fun k => { k with sbuf := k.sbuf ++ [{ addr := ea, size := n, data := v, sup := k.sup }] }) s0

/-- A bit operation (R134 to R136). -/
def doBit (i : Nat) (f : BitFn) (bit' ea : Nat) (s0 : State) : State :=
  match accessCheck s0 i ea 1 f.writes with
  | some e => accessFault i e s0
  | none =>
    if ea < 0x100000 then
      match ownRead i ea 1 s0 with
      | (s, .error e) => instrFault i (excBus e ea false 1) s0 s
      | (s, .ok v) =>
        let (k, out) := bitLogic f (bitAt v bit') (s.core i)
        match out with
        | none => s.setCore i (k.next.spend 1)
        | some b =>
          match ownWrite i ea 1 (putBits v bit' 1 (bit b)) s with
          | (t, .ok _) => t.setCore i (k.next.spend 1)
          | (t, .error e) => instrFault i (excBus e ea true 1) s0 t
    else
      match drainAll i 4 s0 with
      | (s, false) => s
      | (s1, true) =>
        match load ⟨i, false, none⟩ (.bitop i f bit') ea 1 s1 with
        | (s, .ok bs) => bitEnd i f bit' ea (bs.headD 0) s
        | (s, .err e) => instrFault i (excBus e ea false 1) s1 s
        | (s, _) => s

/-! ### Bit nesting (R79, R137) -/

/-- BNEST: the string so far is saved and a branch opens. -/
def nest (i : Nat) (op : NestOp) (s : State) : State :=
  let k := s.core i
  if k.bnd = 8 then instrFault i { cause := .bnest } s s else
  let e := bit k.bacc * 8 + bit k.bopen * 4 + op.code
  finish i 1 (fun k => { k with bstk := w32 (putBits k.bstk.toNat (4 * k.bnd) 4 e), bopen := false }) s

/-- The operation of an entry on two bits. -/
def nestApply (op : Nat) (a b : Bool) : Bool := if op = 1 then a && b else if op = 2 then a || b else a ^^ b

/-- BUNNEST: the branch is combined with the saved string. -/
def unnest (i : Nat) (s : State) : State :=
  let k := s.core i
  if k.bnd = 0 then instrFault i { cause := .bnest } s s else
  let e := bitsOf k.bstk.toNat (4 * (k.bnd - 1)) 4
  finish i 1 (fun k => { k with
    bstk := w32 (putBits k.bstk.toNat (4 * (k.bnd - 1)) 4 0)
    bacc := if bitAt e 2 then nestApply (e % 4) (bitAt e 3) k.bacc else k.bacc
    bopen := true }) s

/-! ### Control registers (R78 to R84) -/

/-- Whether user mode may name a control register. -/
def userMay (c : Nat) : Bool := [0, 5, 6, 7, 8, 13, 14].contains c

/-- The value of a control register (log 144). -/
def readControl (i c : Nat) (s : State) : Word :=
  let k := s.core i
  match c with
  | 0 => k.stat
  | 1 => match topFrame i s with | some p => retEntry i (p + 1) s | none => 0
  | 2 => match topFrame i s with | some p => retEntry i (p + 2) s | none => 0
  | 3 => k.ecause
  | 4 => k.eaddr
  | 5 => k.bstk
  | 6 => k.dsp
  | 7 => k.dsb
  | 8 => k.dsl
  | 9 => k.rsp
  | 10 => k.rsb
  | 11 => k.rsl
  | 12 => k.vbase
  | 13 => k.item
  | 14 => w32 (((roleOf s (i / 8)).getD 0) * 2 ^ 16 + i / 8 * 2 ^ 8 + i)
  | _ => k.sscr

/-- Spill the oldest entry of the data stack, with the check of R88 (log 44). -/
def spillData (i : Nat) : Nat → State → State × Except Exc Unit
  | 0, s => (s, .ok ())
  | n + 1, s =>
    let k := s.core i
    if k.dstack.isEmpty then (s, .ok ()) else
    if k.dsp.toNat < k.dsl.toNat + 4 then (s, .error { cause := .dstkOvf }) else
    let a := k.dsp.toNat - 4
    match ownWrite i a 4 (k.dstack.getLastD 0).toNat s with
    | (s, .error e) => (s, .error (excBus e a true 4))
    | (s, .ok _) => spillData i n (s.setCore i { k.spend 1 with dstack := k.dstack.dropLast, dsp := w32 a })

/-- Spill the oldest entry of the return stack, with the check of R89 (log 44). -/
def spillRet (i : Nat) : Nat → State → State × Except Exc Unit
  | 0, s => (s, .ok ())
  | n + 1, s =>
    let k := s.core i
    if k.rstack.isEmpty then (s, .ok ()) else
    if k.rsp.toNat < k.rsl.toNat + 20 then (s, .error { cause := .rstkOvf }) else
    let a := k.rsp.toNat - 4
    match ownWrite i a 4 (k.rstack.getLastD 0).toNat s with
    | (s, .error e) => (s, .error (excBus e a true 4))
    | (s, .ok _) => spillRet i n (s.setCore i { k.spend 1 with rstack := k.rstack.dropLast, rsp := w32 a })

/-- A stack pointer as it is held: clamped into the own-reach alias, bits [1:0] 0 (R82). -/
def pointer (v : Word) : Word := w32 (min v.toNat 0xFFFFF / 4 * 4)

/-- MTC puts a value into a pointer register; a value outside the alias is a clamp. -/
def putPointer (i c : Nat) (v : Word) (f : Word → Core → Core) (s : State) : State :=
  let s := modCore i (f (pointer v)) s
  if 0xFFFFF < v.toNat then clampCore i c s else s

/-- MTC in supervisor mode. -/
def writeControl (i c : Nat) (v : Word) (s : State) : State × Except Exc Unit :=
  match c with
  | 0 => (modCore i (fun k => { k.setFlags v with ie := v.getLsbD 1, sup := v.getLsbD 0 }) s, .ok ())
  | 1 => match topFrame i s with | some p => (setRetEntry i (p + 1) v s, .ok ()) | none => (s, .ok ())
  | 2 => match topFrame i s with | some p => (setRetEntry i (p + 2) v s, .ok ()) | none => (s, .ok ())
  | 5 =>
    let s := modCore i (fun k => { k with bstk := cleanBstk v }) s
    (if cleanBstk v = v then s else clampCore i 5 s, .ok ())
  | 6 => match spillData i 16 s with
    | (s, .error e) => (s, .error e)
    | (s, .ok _) => (putPointer i 6 v (fun p k => { k with dsp := p }) s, .ok ())
  | 7 => (putPointer i 7 v (fun p k => { k with dsb := p }) s, .ok ())
  | 8 => (putPointer i 8 v (fun p k => { k with dsl := p }) s, .ok ())
  | 9 => match spillRet i 32 s with
    | (s, .error e) => (s, .error e)
    | (s, .ok _) => (putPointer i 9 v (fun p k => { k with rsp := p }) s, .ok ())
  | 10 => (putPointer i 10 v (fun p k => { k with rsb := p }) s, .ok ())
  | 11 => (putPointer i 11 v (fun p k => { k with rsl := p }) s, .ok ())
  | 12 => (modCore i (fun k => { k with vbase := w32 (v.toNat / 256 * 256) }) s, .ok ())
  | 15 => (modCore i (fun k => { k with sscr := v }) s, .ok ())
  | _ => (s, .ok ())

/-- MFC. -/
def doMfc (i : Nat) (d : Fin 16) (c : Nat) (s : State) : State :=
  if 16 ≤ c then instrFault i { cause := .illegal } s s
  else if !(s.core i).sup ∧ !userMay c then instrFault i { cause := .privop } s s
  else
    let v := readControl i c s
    finish i 1 (fun k => k.setReg d v) s

/-- MTC. -/
def doMtc (i : Nat) (c : Nat) (a : Fin 16) (s0 : State) : State :=
  let v := (s0.core i).reg a
  if 16 ≤ c then instrFault i { cause := .illegal } s0 s0
  else if !(s0.core i).sup then
    if !userMay c then instrFault i { cause := .privop } s0 s0
    else finish i 1 (fun k => if c = 0 then k.setFlags v else k) s0
  else match writeControl i c v s0 with
    | (s, .ok _) => finish i 1 id s
    | (s, .error e) => instrFault i e s0 s

/-! ### Work items (R104 to R109) -/

/-- The item of a level has executed DONE: traced, counted, freed. -/
def itemDone (i level : Nat) (r : Running) (s : State) : State :=
  let role := r.ident / 2 ^ 27 % 4
  let s := trace .done (r.traced (i % 8) level) (time s - r.start) s
  match r.segment with
  | some (t, _) => if r.counted then countDone t role s else s
  | none => generalDone role (r.ident % 2 ^ 14) s

/-- The core without the item of its level, its stacks cut to the start marks (R107). -/
def Core.endItem (k : Core) : Core :=
  match k.items.get k.level with
  | some r => { (k.truncate r.dmark r.rmark) with items := k.items.set k.level.val none k.level.isLt }
  | none => k

/-- DONE above level 0: the preemption frame is popped and the item below resumes (R107). -/
def resumeBelow (i : Nat) (was : Option Running) (s0 s : State) : State :=
  match popRets i 4 s with
  | (s, .ok [_, pc, st, bs]) =>
    let below : Fin 4 := ⟨((s.core i).level.val - 1) % 4, Nat.mod_lt _ (by decide)⟩
    let s := modCore i (fun k =>
      let x := k.setFlags st
      { x with ie := st.getLsbD 1, sup := st.getLsbD 0, bstk := cleanBstk bs, pc := pc &&& ~~~3#32, level := below,
               item := match k.items.get below with | some r => w32 r.ident | none => k.item, cyc := (k.flush.spend 4).cyc }) s
    let s := match was with | some r => itemDone i (below.val + 1) r s | none => s
    let s := match (s.core i).items.get below with
      | some r => trace .resume (r.traced (i % 8) below.val) (match was with | some x => time s - x.start | none => 0) s
      | none => s
    each s.lkp.ready (offerAgain (i / 8)) s
  | (s, .error e) => instrFault i e s0 s
  | (s, .ok _) => s

/-- DONE (R107, R109). -/
def doDone (i : Nat) (s0 : State) : State :=
  match drainAll i 4 s0 with
  | (s, false) => s
  | (s, true) =>
    match (s.core i).pendW with
    | (code, a) :: t => faultAt i (storeError code a) (modCore i (fun k => { k with pendW := t }) s)
    | [] =>
      let was := (s.core i).items.get (s.core i).level
      let level := (s.core i).level.val
      let s1 := modCore i Core.endItem s
      if 0 < level then resumeBelow i was s s1 else
      let s := modCore i (fun k => k.next.spend 1) s1
      let s := match was with | some r => itemDone i 0 r s | none => s
      if (s.core i).drainReq then enterDrained i s else requestWork i s

/-- Whether core `i` accepts an offer now (R105, R106, R116): it runs and is not to halt, IE is 1, the level is below 3, and the frame
needs no spill below RSL + 16. -/
def acceptsOffer (k : Core) : Bool :=
  k.st == .run && !k.haltReq && k.ie && decide (k.level.val < 3) && decide (k.rstack.length + 4 ≤ 32 ∨ k.rsl.toNat + 16 + 4 * (k.rstack.length + 4 - 32) ≤ k.rsp.toNat)

/-- PREEMPT_ACCEPT: the core takes the item offered to it at an instruction boundary, one level up (R105, R108). A spill of the frame
that ends with a bus error raises BUSERR_R at the interrupted PC, and nothing of the preemption stays (log 116). -/
def preemptAccept (i : Nat) (s0 : State) : State :=
  let k := s0.core i
  match s0.lkp.offers.find? (·.1 == i) with
  | none => s0
  | some (_, x) =>
    if !acceptsOffer k ∨ !k.pendW.isEmpty ∨ waitsRead s0 i ∨ !dispatches s0 (i / 8) then s0 else
    match pushRets i 0 (k.frame 2 k.pc) s0 with
    | (s, .error e) => instrFault i e s0 s
    | (s, .ok _) =>
      let up : Fin 4 := ⟨(k.level.val + 1) % 4, Nat.mod_lt _ (by decide)⟩
      match handOver x i up .preempt (modCore i (fun k => k.flush.spend 3) s) with
      | (s, true) => s
      | (s, false) => s.setCore i { k with items := (s.core i).items }

/-! ### Instructions -/

/-- The effective address of a base register and a displacement (R85). -/
def effAddr (k : Core) (b : Fin 16) (disp : Word) : Nat := (k.reg b + disp).toNat

/-- A privileged instruction raises PRIVOP in user mode. -/
def privileged (i : Nat) (f : State → State) (s : State) : State :=
  if (s.core i).sup then f s else instrFault i { cause := .privop } s s

/-- Whether core `i` runs a segment item whose cycle has been closed: its tokens to segments are discarded (R226, R244). -/
def strayToken (s : State) (i : Nat) (dst : Word) : Bool :=
  dst.toNat.testBit 31 && match (s.core i).items.get (s.core i).level with
    | some r => r.segment.isSome && !r.counted
    | none => false

/-- SIG: the token waits in the core's port, unless it holds two (R139). -/
def doSig (i : Nat) (dst value : Word) (s0 : State) : State :=
  let port := s0.lkp.ports[i % 40]'(Nat.mod_lt _ (by decide))
  if 2 ≤ port.length then s0 else
  match drainAll i 4 s0 with
  | (s, false) => s
  | (s, true) =>
    if strayToken s i dst then finish i 1 id s else
    let x := (dst, value, roleOf s (i / 8))
    finish i 1 id (modLkp (fun l => { l with ports := l.ports.set (i % 40) (l.ports[i % 40]'(Nat.mod_lt _ (by decide)) ++ [x]) (Nat.mod_lt _ (by decide)) }) s)

/-- Execute one instruction on core `i`. -/
def execOp (i : Nat) (op : WOp) (s : State) : State :=
  let k := s.core i
  match op with
  | .alu op f d a b =>
    let x := op.apply (k.reg a) (k.reg b) k.c
    finish i (op.cycles (k.reg a) (k.reg b)) (fun k => (k.setReg d x.r).flagIf f x) s
  | .imm op f d a n =>
    let x := op.apply (k.reg a) n
    finish i 1 (fun k => (k.setReg d x.r).flagIf f x) s
  | .cmpi a n => finish i 1 (fun k => k.flag (add3 (k.reg a) (~~~(n.signExtend 32)) true)) s
  | .lui d n => finish i 1 (fun k => k.setReg d (n.setWidth 32 <<< 16)) s
  | .shift op f d a n =>
    let x := op.apply (k.reg a) n.val
    finish i 1 (fun k => (k.setReg d x.r).flagIf f x) s
  | .clz d a => finish i 1 (fun k => k.setReg d (clz (k.reg a))) s
  | .bfx sx d a p l => finish i 1 (fun k => k.setReg d (bitField sx (k.reg a) p.val l.val)) s
  | .bfi d a p l => finish i 1 (fun k => k.setReg d (insertField (k.reg d) (k.reg a) p.val l.val)) s
  | .bperm d a b sel => finish i 1 (fun k => k.setReg d (permute (k.reg a) (k.reg b) sel)) s
  | .load op d b x => doLoad i op d (effAddr k b (x.signExtend 32)) s
  | .store op r b x => doStore i op r (effAddr k b (x.signExtend 32)) s
  | .bcc c x => wBranch i (k.holds c) (x.signExtend 32) s
  | .call x => match pushRet i (k.pc + 4) 0 s with
    | (t, .ok _) => jump i (k.pc + x.signExtend 32 * 4) t
    | (t, .error e) => instrFault i e s t
  | .jmp a => jump i (k.reg a) s
  | .callr a => match pushRet i (k.pc + 4) 0 s with
    | (t, .ok _) => jump i (k.reg a) t
    | (t, .error e) => instrFault i e s t
  | .ret => match popRet i s with
    | (t, .ok v) => if v.toNat % 4 = 0 then jump i v t else instrFault i { cause := .retmis } s t
    | (t, .error e) => instrFault i e s t
  | .bj v x => wBranch i (k.bacc == v) (x.signExtend 32) s
  | .push a => match pushData i (k.reg a) s with
    | (t, .ok _) => finish i 1 id t
    | (t, .error e) => instrFault i e s t
  | .pop d => match popData i s with
    | (t, .ok v) => finish i 1 (fun k => k.setReg d v) t
    | (t, .error e) => instrFault i e s t
  | .bitm f b x n => doBit i f n.val (effAddr k b (x.signExtend 32)) s
  | .bnest op => nest i op s
  | .bunnest => unnest i s
  | .bnot => finish i 1 (fun k => { k with bacc := !k.bacc }) s
  | .nop => finish i 1 id s
  | .fence => match drainAll i 4 s with
    | (t, true) => finish i 1 id t
    | (t, false) => t
  | .sig a b => doSig i (k.reg a) (k.reg b) s
  | .done => doDone i s
  | .trap n => takeExc i { cause := .trap, addr := some n.toNat } (k.pc + 4) s
  | .brk => takeExc i { cause := .brk } (k.pc + 4) s
  | .rfe => privileged i (returnExc i) s
  | .mfc d c => doMfc i d c.toNat s
  | .mtc c a => doMtc i c.toNat a s
  | .icinv => privileged i (fun s => finish i 64 (fun k => { k with icache := [] }) s) s

/-! ### The instruction boundary -/

/-- The registers an instruction reads. -/
def WOp.reads (op : WOp) : List (Fin 16) :=
  match op with
  | .alu _ _ _ a b | .bperm _ a b _ | .sig a b => [a, b]
  | .imm _ _ _ a _ | .cmpi a _ | .shift _ _ _ a _ | .clz _ a | .bfx _ _ a _ _ | .load _ _ a _ | .jmp a | .callr a | .push a
  | .bitm _ a _ _ | .mtc _ a => [a]
  | .bfi d a _ _ => [d, a]
  | .store _ r b _ => [r, b]
  | _ => []

/-- The register an instruction writes. -/
def WOp.writes (op : WOp) : Option (Fin 16) :=
  match op with
  | .alu _ _ d _ _ | .imm _ _ d _ _ | .lui d _ | .shift _ _ d _ _ | .clz d _ | .bfx _ d _ _ _ | .bfi d _ _ _ | .bperm d _ _ _
  | .load _ d _ _ | .pop d | .mfc d _ => some d
  | _ => none

/-- Whether an instruction is one of the bit logic (R134 to R137). -/
def WOp.isBit (op : WOp) : Bool := op matches .bitm .. | .bnest _ | .bunnest | .bnot

/-- The register that a multiply of core `k` leaves late, with its bank (R126). -/
def Core.lateReg (k : Core) (op : WOp) : Option Nat :=
  match op with
  | .alu .mul _ d _ _ | .alu .mulhs _ d _ _ | .alu .mulhu _ d _ _ => if d = 0 then none else some (16 * k.level.val + d.val)
  | _ => none

/-- The stall cycles of R101 that an instruction meets on core `k`: the result of a multiply before it, BJT or BJF directly after a
bit instruction, an MTC before it. -/
def Core.stall (k : Core) (op : WOp) : Nat :=
  let uses := fun (l : Option Nat) => op.reads.any fun r => l == some (16 * k.level.val + r.val)
  (if uses k.cyc.mul1 then 2 else if uses k.cyc.mul2 then 1 else 0)
    + (if k.cyc.bitLast && op matches .bj .. then 1 else 0) + (if k.cyc.mtcLast then 2 else 0)

/-- What an instruction that core `k` has issued leaves behind in the pipeline (R101): a register it writes no longer holds the result of
the multiply before it. -/
def Core.issued (k : Core) (op : WOp) (c : Cycles) : Cycles :=
  { count := c.count + k.stall op, mul1 := k.lateReg op,
    mul2 := k.cyc.mul1.filter fun r => op.writes.map (16 * k.level.val + ·.val) != some r,
    bitLast := op.isBit, mtcLast := op matches .mtc .. }

/-- An instruction that began on core `k` has ended in state `s`, or waits for the fabric: its stalls count (R101). An exception, a
return and a new item find the pipeline empty. -/
def settlePipe (i : Nat) (op : WOp) (k : Core) (s : State) : State :=
  let x := s.core i
  if x.cyc.count < k.cyc.count then s
  else if x.level = k.level ∧ !(op matches .done | .rfe | .trap _ | .brk) ∧ x.rstack.take 2 ≠ [marker 1 k.level.val, k.pc]
  then s.setCore i { x with cyc := k.issued op x.cyc }
  else s.setCore i (x.spend (k.stall op))

/-- Core `i` runs one instruction, where it runs and waits for nothing: a bus error of a buffered store is taken first (R114), a
fetch that fails raises IFETCH, a word that is no instruction raises ILLEGAL, any other is executed where `want` admits it (log 46). -/
def runCore (i : Nat) (want : WOp → Bool) (s : State) : State :=
  let k := s.core i
  if k.st ≠ .run ∨ waitsRead s i then s else
  match k.pendW with
  | (code, a) :: t => instrDone i (faultAt i (storeError code a) (modCore i (fun k => { k with pendW := t }) s))
  | [] =>
    match fetch i s with
    | (t, .error e) => instrDone i (faultAt i e (logExc i e t))
    | (t, .ok w) =>
      match decodeW w with
      | none => instrDone i (instrFault i { cause := .illegal } t t)
      | some op => if !want op then s else
        let u := execOp i op t
        if sameInstr i t u then (if waitsRead u i then settlePipe i op (t.core i) u else u)
        else instrDone i (settlePipe i op (t.core i) u)

/-- A command that core `i` executes a given instruction: it acts where that instruction stands at the core's PC. -/
def weevil (i : Nat) (op : WOp) (s : State) : State := runCore i (· == op) s

/-- Core `i` executes whatever stands at its PC. -/
def runAny (i : Nat) (s : State) : State := runCore i (fun _ => true) s

end Sys2Proof.Machine
end

