-- ==== Sys2Proof/Machine/RowBase.lean ====
section
/-! DEFINITION. What every command of the interface shares: when the device takes it, and what the Lockhouse does at its end; with
the commands that join several blocks (time base, scan, Towpath, field I/O). -/

namespace Sys2Proof.Machine

/-- The outcome of a command. -/
abbrev Out := Host.Outcome State Fault Refusal

/-- The logic die has power: neither in standby (R481) nor held by a brownout (R466). -/
def powered (s : State) : Bool := !s.cfg.standby && !s.cfg.brownout

/-- The logic die runs: powered, and not stopped in start-up (R469, R501) nor under test access (R468). -/
def live (s : State) : Bool := powered s && !s.cfg.halted

/-- A device reset that the command has brought about begins (R479, R499) (log 20). -/
def dueReset (s : State) : State :=
  match s.faults.due with
  | none => s
  | some kind => deviceResetNow kind (modFaults (fun x => { x with due := none, wedged := false }) s)

/-- Each core that a STEP has set running executes its instruction (R116). -/
def stepCores (s : State) : State :=
  if s.cores.any (·.stepping) then each (List.range 40) (fun i s => if (s.core i).stepping then runAny i s else s) s else s

/-- Accesses that a handover window, a sleeping reach or a frozen bridge held go on, then requests of the host (R255, R262, R489). -/
def goOn (s : State) : State := hostGoes (pumpGathers (applyHeld s))

/-- Whether a command has ended what may hold accesses: a handover window, a slice of a shared block, the wait for a free fabric read
(R199, R451, R489). -/
def releases (before s : State) : Bool :=
  s.rot.window.isNone && (before.rot.window.isSome || ((sliceRunning before).isSome && (sliceRunning s).isNone)
    || decide (s.brg.reads.length < before.brg.reads.length))

/-- What follows a command: a stepped core runs its instruction (R116); the Lockhouse counts corrected errors (R492), powers down a
reach that has finished draining for a park (R261), lets a stopped primary relinquish (R217), mirrors force changes (R216), lets
accesses held in a window that has closed go on (R199), resets the device (log 20). -/
def wrapUp (before s : State) : State :=
  let s := each (List.range 5) parkReady (each (List.range 5) (countCorrected before) (stepCores s))
  let s := if releases before s then goOn s else s
  dueReset (sendForces before (stopRelinquish before s))

/-- A command changes neither the queue of those that wait nor which module the device is (R524). -/
def settled (before after : State) : State := { after with pending := before.pending, sn := before.sn }

/-- A command that acts whatever the state of the device, and on its own block alone. -/
def anyTime (f : State → State) (s : State) : Out := .next (settled s (f (quiet s)))

/-- A command that acts whatever the state of the device. -/
def always (f : State → State) (s : State) : Out := .next (settled s (wrapUp (quiet s) (f (quiet s))))

/-- A command that acts while the logic die has power: an access over a bus (log 1). -/
def onBus (f : State → State) (s : State) : Out :=
  .next (settled s (wrapUp (quiet s) (if powered s then f (quiet s) else quiet s)))

/-- An access over a bus to registers whose effect stays in their block (log 1). -/
def onRegs (f : State → State) (s : State) : Out := .next (settled s (if powered s then f (quiet s) else quiet s))

/-- A command that acts while the logic die runs. -/
def onDie (f : State → State) (s : State) : Out :=
  .next (settled s (wrapUp (quiet s) (if live s then f (quiet s) else quiet s)))

/-- A command that acts while the logic die runs, and whose effect stays in its block. -/
def inBlock (f : State → State) (s : State) : Out := .next (settled s (if live s then f (quiet s) else quiet s))

/-! ### Time -/

/-- One tick of the time base, and the CAN clock that runs from the same source (R270, R397); start-of-frame delimiters pass (R349); the trace
queue and the mirror queue empty while time passes (log 24); links return their credits (R422). -/
def clockTick (s : State) : State :=
  let hold := isSet s F.TMB_STATUS_HOLDOVER
  creditTick (drainMirror (drainTrace (ethTick (canAdvance (if hold then 20 else 4) (tick s)))))

/-- The tasks whose cycle number has changed arm the field channels that name them (R300). -/
def armChannels (before s : State) : State :=
  each ((List.range 32).filter fun t => getF before (F.SCN_TASK_CYCNO_CYCNO t) != getF s (F.SCN_TASK_CYCNO_CYCNO t)) fioLatched s

/-- The cyclic tasks that latch when compare unit `u` fires with target `t` (R143). -/
def unitTasks (s : State) (u t : Nat) : List Nat :=
  if running s then (List.range 16).filter fun x => enabled s x && getF s (F.SCN_TASK_CTL_TMBUNIT x) == u && onGrid s x t else []

/-- The cyclic tasks of compare unit `u` latch at its target `t`, where that is one of their latch instants (R143). -/
def latchUnit (u t : Nat) (s : State) : State := armChannels s (each (unitTasks s u t) (fun x s => if running s then taskLatch x t s else s) s)

/-- Whether the unit of the SCN must wait: a cycle of a task that is to latch now is still open, whose commit end or stop comes first
(R143, R155) (log 122). -/
def latchWaits (s : State) (u : Nat) : Bool :=
  getF s (F.TMB_UNIT_CTL_OWNER u) == 1 && isSet s (F.TMB_UNIT_STAT_ARMED u) && unitDue s u
    && (unitTasks s u (targetTime s u)).any fun x => decide (2 ≤ taskState s x ∧ taskState s x ≤ 4)

/-- What the owner of compare unit `u` does when it fires with target `t` (R277, R143, R362, R306). -/
def ownerFires (u t : Nat) (s : State) : State :=
  match getF s (F.TMB_UNIT_CTL_OWNER u) with
  | 1 => latchUnit u t s
  | 2 => if s.pair.silenceDue then towSilence s else if towBase s ≤ t then cycleStart t s else s
  | 3 => if isSet s F.FIO_AICTL_TRIG ∧ getF s F.FIO_AICTL_TMBUNIT = u then aiFire u t s else s
  | _ => s

/-- COMPARE_MATCH: an armed unit whose target has come matches, fires its destinations and its owner (R278 to R280) (log 122). -/
def compareMatch (u : Nat) (s : State) : State :=
  if latchWaits s u then s else
  match matchUnit u s with
  | (s, .reached t true) => ownerFires u t (fireUnit u t s)
  | (s, .skipped) => if getF s (F.TMB_UNIT_CTL_OWNER u) = 3 then aiMatched s else s
  | (s, _) => s

/-- EVENT_TRIGGER: a source fires, as the SCN sees it (R144). A standby's tasks follow those of the primary (R211), and in SEEK and DETACHED
none runs (R206) (log 99). -/
def eventTrigger (src : Nat) (s : State) : State :=
  if pairState s = 0 ∨ pairState s = 2 then armChannels s (triggerSource src s) else s

/-- HELD_TRIGGER_ACCEPT (R144); on a standby, and for the last cycles mirrored by a lost primary, the latch of a mirrored event task (R211,
R213). -/
def heldTrigger (t : Nat) (s : State) : State :=
  armChannels s (if isStandby s || mirroredNext s t then mirrorEvent t s else acceptHeld t s)

/-- COMMIT_START: reaches that a second mismatch condemns fail (R155, R190). -/
def commitStarts (t : Nat) (s : State) : State :=
  let r := commitStart t s
  secondMismatch r.2 r.1

/-- COMMIT_END: the commit ends, also as pairs see it; a handover of a role of the task may then begin (R155, R190, R195, R210). -/
def commitEnds (t : Nat) (s : State) : State :=
  let r := commitEndPair t s
  let ended := s.scan.committing == some t && running r.1 && taskState r.1 t != 4
  let u := secondMismatch r.2 r.1
  if ended && u.rot.step.any (fun x => (taskRoles u t).contains x.2) then tryHandover u else u

/-- REACH_WAKE: the cores of a waking reach start from BOOT where it is WET (R262). One that has failed meanwhile stays off (R23). A DMA
that the park stopped stays STOPPED until RESUME (log 156). -/
def reachWakes (n : Nat) (s : State) : State :=
  if getF s (F.RCH_PWR_PSTATE n) ≠ 3 then s else
  let s := setF (F.RCH_PWR_PSTATE n) 0 s
  if failed s n then goOn s else
  let s := setLock n 1 s
  let s := if reachState s n = 0 then startCores n s else s
  let s := match roleOf s n with
    | some r => canResume r (resumeRings r s)
    | none => s
  goOn (raise (A.RCH_MEM_EVT n) 4 s)

/-- STARVE: the ready item at a place of the ready set may be starving (R235). -/
def starves (k : Nat) (s : State) : State :=
  match s.lkp.ready[k]? with
  | some x => starveItem x s
  | none => s


/-- The word a register holds, with one of its bits written (log 21). -/
def withBit (a k : Nat) (v : Bool) (s : State) : Nat := putBits (uncommanded a (rd s a).toNat) k 1 (bit v)

/-- A write of one bit of a register that leaves its other fields (log 21). -/
def writeBit (who : Who) (a k : Nat) (v : Bool) (s : State) : State := busWrite who a (withBit a k v s) s

/-- FRAME_HANDOFF: where the frame goes: an egress buffer, a Worri link, the host, the Towpath sequencer, the pair (R309, R321). -/
def handedTo (f : OutFrame) (s : State) : State :=
  if f.dest < 24 then modBasin (fun b => { b with egress := b.egress ++ [f] }) s
  else if f.dest < 28 then tunnelTx (f.dest - 24) f.bytes s
  else if f.dest = 33 then emit .host f.bytes s
  else if f.dest = 34 then modTow (fun b => { b with inbox := b.inbox ++ [f] }) s
  else if f.dest = 35 ∧ etherType f.bytes = 0x88B6 then modPair (fun p => { p with inbox := p.inbox ++ [(f.src, f.bytes)] }) s
  else s

/-- The last cell of a frame is released (R321). -/
def handsOff (dest : Nat) (hi : Bool) (s : State) : State :=
  match frameHandoff dest hi s with
  | (s, some f) => handedTo f s
  | (s, none) => s

/-- The pair peer is declared lost (R212) (log 98). -/
def peerLost (s : State) : State :=
  if pairState s = 0 then s else primaryGone (setPeer 7 (modPair (fun p => { p with hbAt := none, track := none }) s))

/-- A last gasp of the pair peer declares its loss (R437) (log 98). -/
def gaspOf (r : State × Option Nat) : State :=
  match r.2 with
  | some x => if x = getF r.1 F.LKH_SBYPEER_PEERID then peerLost r.1 else r.1
  | none => r.1

/-- RESETREQ_RX: one for this device resets it with kind 5 (R438). -/
def resetRequested (s : State) : State :=
  match resetReqRx s with
  | (s, true) => modFaults (fun x => { x with due := some 5 }) (deviceGasp 3 s)
  | (s, false) => s

/-- The word of a life-cycle command (R477). -/
def lcWord (op confirm key : Nat) : Nat := 2 ^ 31 + op * 2 ^ 16 + confirm * 256 + key

/-- The status register of an engine (XFORM STATUS). -/
def engStatAt (e : Nat) : Nat := A.BTL_ENG_STAT (e / 8) (e % 8)

/-- The register of a statistics counter of a port (R351). -/
def statAt (p r : Nat) : Nat := A.ETH_CTL p + 0x100 + 4 * r

/-- An access of the debug port (R69), or its request for test access at start-up step 2 (R468) (log 38). -/
def debugAccess (test isWr : Bool) (a v : Word) (s : State) : State :=
  if test then modCfg (fun c => { c with testAsked := true }) s
  else if isWr then busWrite ⟨55, false, none⟩ a.toNat v.toNat s else busRead ⟨55, false, none⟩ a.toNat s

/-- What the Lockkeeper does, held while a self-test slice freezes it (R490). -/
def unfrozen (f : State → State) (s : State) : State := if frozen s 1 then s else f s

/-- Whether a bus address is that of an event status register (R64). -/
def isEvent (a : Nat) : Bool := (evtOffsets (a / 0x10000)).contains (a % 0x10000)

/-- The address of word `r` of the registers of block copy `hi`. -/
def wordAt (hi r : Nat) : Nat := hi * 0x10000 + 4 * r

end Sys2Proof.Machine
end

