-- ==== Sys2Proof/Machine/RowsArith.lean ====
section
/-! DEFINITION. The arithmetic, logic, shift and bit-field instructions of a Weevil core (04_weevil_instructions). -/

namespace Sys2Proof.Machine

/-- ADD (R122). Adds two registers. -/
def execAdd (i : Fin 40) (f : Bool) (d a b : Fin 16) (s : State) : Out := onDie (weevil i (.alu .add f d a b)) s

/-- SUB (R122). Subtracts one register from another. -/
def execSub (i : Fin 40) (f : Bool) (d a b : Fin 16) (s : State) : Out := onDie (weevil i (.alu .sub f d a b)) s

/-- ADC (R122). Adds two registers and the carry. -/
def execAdc (i : Fin 40) (f : Bool) (d a b : Fin 16) (s : State) : Out := onDie (weevil i (.alu .adc f d a b)) s

/-- SBC (R122). Subtracts with borrow. -/
def execSbc (i : Fin 40) (f : Bool) (d a b : Fin 16) (s : State) : Out := onDie (weevil i (.alu .sbc f d a b)) s

/-- AND (R122). Bitwise AND of two registers. -/
def execAnd (i : Fin 40) (f : Bool) (d a b : Fin 16) (s : State) : Out := onDie (weevil i (.alu .and f d a b)) s

/-- OR (R122). Bitwise OR of two registers. -/
def execOr (i : Fin 40) (f : Bool) (d a b : Fin 16) (s : State) : Out := onDie (weevil i (.alu .or f d a b)) s

/-- XOR (R122). Bitwise XOR of two registers. -/
def execXor (i : Fin 40) (f : Bool) (d a b : Fin 16) (s : State) : Out := onDie (weevil i (.alu .xor f d a b)) s

/-- ANDN (R122). AND with the complement of the second register. -/
def execAndn (i : Fin 40) (f : Bool) (d a b : Fin 16) (s : State) : Out := onDie (weevil i (.alu .andn f d a b)) s

/-- SHL (R123). Shifts left by a register amount. -/
def execShl (i : Fin 40) (f : Bool) (d a b : Fin 16) (s : State) : Out := onDie (weevil i (.alu .shl f d a b)) s

/-- SHR (R123). Shifts right with zero fill by a register amount. -/
def execShr (i : Fin 40) (f : Bool) (d a b : Fin 16) (s : State) : Out := onDie (weevil i (.alu .shr f d a b)) s

/-- SAR (R123). Shifts right with sign fill by a register amount. -/
def execSar (i : Fin 40) (f : Bool) (d a b : Fin 16) (s : State) : Out := onDie (weevil i (.alu .sar f d a b)) s

/-- ROR (R123). Rotates right by a register amount. -/
def execRor (i : Fin 40) (f : Bool) (d a b : Fin 16) (s : State) : Out := onDie (weevil i (.alu .ror f d a b)) s

/-- ADDI (R122). Adds a sign-extended immediate. -/
def execAddi (i : Fin 40) (f : Bool) (d a : Fin 16) (x : BitVec 16) (s : State) : Out :=
  onDie (weevil i (.imm .addi f d a x)) s

/-- ANDI (R122). ANDs a zero-extended immediate. -/
def execAndi (i : Fin 40) (f : Bool) (d a : Fin 16) (x : BitVec 16) (s : State) : Out :=
  onDie (weevil i (.imm .andi f d a x)) s

/-- ORI (R122). ORs a zero-extended immediate. -/
def execOri (i : Fin 40) (f : Bool) (d a : Fin 16) (x : BitVec 16) (s : State) : Out :=
  onDie (weevil i (.imm .ori f d a x)) s

/-- XORI (R122). XORs a zero-extended immediate. -/
def execXori (i : Fin 40) (f : Bool) (d a : Fin 16) (x : BitVec 16) (s : State) : Out :=
  onDie (weevil i (.imm .xori f d a x)) s

/-- CMPI (R122). Compares a register with an immediate and sets the flags. -/
def execCmpi (i : Fin 40) (a : Fin 16) (x : BitVec 16) (s : State) : Out := onDie (weevil i (.cmpi a x)) s

/-- LUI (R122). Loads an immediate into the upper half of a register. -/
def execLui (i : Fin 40) (d : Fin 16) (x : BitVec 16) (s : State) : Out := onDie (weevil i (.lui d x)) s

/-- SHLI (R123). Shifts left by an immediate amount. -/
def execShli (i : Fin 40) (f : Bool) (d a : Fin 16) (n : Fin 32) (s : State) : Out :=
  onDie (weevil i (.shift .shli f d a n)) s

/-- SHRI (R123). Shifts right with zero fill by an immediate amount. -/
def execShri (i : Fin 40) (f : Bool) (d a : Fin 16) (n : Fin 32) (s : State) : Out :=
  onDie (weevil i (.shift .shri f d a n)) s

/-- SARI (R123). Shifts right with sign fill by an immediate amount. -/
def execSari (i : Fin 40) (f : Bool) (d a : Fin 16) (n : Fin 32) (s : State) : Out :=
  onDie (weevil i (.shift .sari f d a n)) s

/-- RORI (R123). Rotates right by an immediate amount. -/
def execRori (i : Fin 40) (f : Bool) (d a : Fin 16) (n : Fin 32) (s : State) : Out :=
  onDie (weevil i (.shift .rori f d a n)) s

/-- CLZ (R124). Counts leading zeros of a register. -/
def execClz (i : Fin 40) (d a : Fin 16) (s : State) : Out := onDie (weevil i (.clz d a)) s

/-- BFX (R125). Extracts a zero-extended bit field. -/
def execBfx (i : Fin 40) (d a : Fin 16) (pos lenM1 : Fin 32) (s : State) : Out :=
  onDie (weevil i (.bfx false d a pos lenM1)) s

/-- BFXS (R125). Extracts a sign-extended bit field. -/
def execBfxs (i : Fin 40) (d a : Fin 16) (pos lenM1 : Fin 32) (s : State) : Out :=
  onDie (weevil i (.bfx true d a pos lenM1)) s

/-- BFI (R125). Inserts a bit field into a register. -/
def execBfi (i : Fin 40) (d a : Fin 16) (pos lenM1 : Fin 32) (s : State) : Out := onDie (weevil i (.bfi d a pos lenM1)) s

/-- BPERM (R124). Permutes bytes of two registers by selector. -/
def execBperm (i : Fin 40) (d a b : Fin 16) (sel : BitVec 12) (s : State) : Out := onDie (weevil i (.bperm d a b sel)) s

/-- MUL (R126). Low 32 bits of a product. -/
def execMul (i : Fin 40) (f : Bool) (d a b : Fin 16) (s : State) : Out := onDie (weevil i (.alu .mul f d a b)) s

/-- MULHS (R126). High 32 bits of a signed product. -/
def execMulhs (i : Fin 40) (f : Bool) (d a b : Fin 16) (s : State) : Out := onDie (weevil i (.alu .mulhs f d a b)) s

/-- MULHU (R126). High 32 bits of an unsigned product. -/
def execMulhu (i : Fin 40) (f : Bool) (d a b : Fin 16) (s : State) : Out := onDie (weevil i (.alu .mulhu f d a b)) s

/-- DIVS (R127). Signed division with defined results for zero and overflow. -/
def execDivs (i : Fin 40) (f : Bool) (d a b : Fin 16) (s : State) : Out := onDie (weevil i (.alu .divs f d a b)) s

/-- DIVU (R127). Unsigned division. -/
def execDivu (i : Fin 40) (f : Bool) (d a b : Fin 16) (s : State) : Out := onDie (weevil i (.alu .divu f d a b)) s

/-- REMS (R127). Signed remainder. -/
def execRems (i : Fin 40) (f : Bool) (d a b : Fin 16) (s : State) : Out := onDie (weevil i (.alu .rems f d a b)) s

/-- REMU (R127). Unsigned remainder. -/
def execRemu (i : Fin 40) (f : Bool) (d a b : Fin 16) (s : State) : Out := onDie (weevil i (.alu .remu f d a b)) s

end Sys2Proof.Machine
end

