-- ==== Sys2Proof/Machine/RowsBasin.lean ====
section
/-! DEFINITION. The commands of the Basin (11_basin). -/

namespace Sys2Proof.Machine

/-- FRAME_INGRESS (R315). A frame's first byte arrives at the Basin and is admitted or discarded with cause ADMIT. -/
def execFrameIngress (src : Fin 36) (s : State) : Out := onDie (frameIngress src) s

/-- FRAME_ENQUEUE (R314). A whole frame is classified, its destination set decided and it is queued. -/
def execFrameEnqueue (src : Fin 36) (s : State) : Out := onDie (frameEnqueue src) s

/-- FRAME_DISPATCH (R319). A dispatcher starts a frame when egress room exists and sprays its cells over the planes. -/
def execFrameDispatch (dest : Fin 36) (hi : Bool) (s : State) : Out := onDie (frameDispatch dest hi) s

/-- FRAME_HANDOFF (R321). A frame whose last cell is released passes from the egress buffer to its destination. -/
def execFrameHandoff (dest : Fin 36) (hi : Bool) (s : State) : Out := onDie (handsOff dest hi) s

/-- AGE_CHECK (R317). Once per µs queue heads are checked, and frames past their class age limit are discarded. -/
def execAgeCheck (s : State) : Out := onDie ageCheck s

/-- PLANE_STALL (R323). A plane that delivers no cells for PSTALL becomes FAILED and its lost frames are discarded. -/
def execPlaneStall (k : Fin 4) (sound : Bool) (s : State) : Out := onDie (planeStall k sound) s

/-- PLANE_EN_WRITE (R322). A write of BAS_PLANE.EN takes planes out of service or back into service. -/
def execPlaneEnWrite (who : Who) (v : Word) (s : State) : Out := onRegs (busWrite who A.BAS_PLANE v.toNat) s

/-- PLANE_DRAINED (R322). A DRAINING plane has delivered its cells and becomes OUT. -/
def execPlaneDrained (k : Fin 4) (s : State) : Out := inBlock (planeDrained k) s

/-- PLANE_RESTORE (R323). BAS_PLANE.RESTORE resets and checks FAILED planes. -/
def execPlaneRestore (who : Who) (s : State) : Out := onRegs (writeBit who A.BAS_PLANE 16 true) s

/-- MAC_AGE_SWEEP (R328). Every AGETIME ÷ 2 dynamic entries without HIT are removed and HIT is cleared in the rest. -/
def execMacAgeSweep (s : State) : Out := inBlock macSweep s

/-- MAC_READ (R329). BAS_MACCMD READ returns an entry by index. -/
def execMacRead (who : Who) (i : Fin 16384) (s : State) : Out := onRegs (busWrite who A.BAS_MACCMD (2 ^ 31 + i)) s

/-- MAC_LOOKUP (R329). BAS_MACCMD LOOKUP finds an address. -/
def execMacLookup (who : Who) (s : State) : Out := onRegs (busWrite who A.BAS_MACCMD (2 ^ 31 + 2 ^ 28)) s

/-- MAC_WRITE (R329). BAS_MACCMD WRITE makes a static entry. -/
def execMacWrite (who : Who) (s : State) : Out := onRegs (busWrite who A.BAS_MACCMD (2 ^ 31 + 2 * 2 ^ 28)) s

/-- MAC_DELETE (R329). BAS_MACCMD DELETE removes an address. -/
def execMacDelete (who : Who) (s : State) : Out := onRegs (busWrite who A.BAS_MACCMD (2 ^ 31 + 3 * 2 ^ 28)) s

/-- MAC_FLUSH (R329). BAS_MACCMD FLUSH removes dynamic entries. -/
def execMacFlush (who : Who) (all : Bool) (s : State) : Out :=
  onRegs (busWrite who A.BAS_MACCMD (2 ^ 31 + 4 * 2 ^ 28 + bit all * 2 ^ 27)) s

/-- HSEED_WRITE (R328). Writing the high word of BAS_HSEED sets the hash seed only while no entry is valid. -/
def execHseedWrite (who : Who) (v : Word) (s : State) : Out := onRegs (busWrite who (A.BAS_HSEED + 4) v.toNat) s

/-- RING_RP_WRITE (R331). Writing a ring's RP frees records, with out-of-range values replaced by WP. -/
def execRingRpWrite (who : Who) (k : Fin 32) (v : Word) (s : State) : Out := onBus (busWrite who (A.BAS_RX_RP k) v.toNat) s

/-- TX_RING_WP_WRITE (R332). Writing a transmit ring's WP lets the Basin DMA read the records and enter the frames. -/
def execTxRingWpWrite (who : Who) (r : Fin 4) (v : Word) (s : State) : Out := onBus (busWrite who (A.BAS_TX_WP r) v.toNat) s

/-- RING_RESUME (R332). A ring's RESUME leaves ERROR. -/
def execRingResume (who : Who) (tx : Bool) (k : Fin 32) (s : State) : Out :=
  onBus (writeBit who (if tx then A.BAS_TX_RING (k % 4) else A.BAS_RX_RING k) 30 true) s

end Sys2Proof.Machine
end

