-- ==== Sys2Proof/Machine/RowsBeetle.lean ====
section
/-! DEFINITION. The commands of the Beetle clusters (15_beetles). -/

namespace Sys2Proof.Machine

/-- GOTO (R405). Beetle branch on a condition. -/
def execGoto (e : Fin 16) (ext : BitVec 64) (s : State) : Out :=
  inBlock (fun s => engRun e (ofType 1 0 0 0) (btlGoto e) (setLevels ext s)) s

/-- LOOP (R405). Decrements a loop counter and branches while not 0. -/
def execLoop (e : Fin 16) (s : State) : Out := inBlock (engRun e (ofType 2 0 0 0) (btlLoop e)) s

/-- CLOCK_OUT (R408). Shifts bits out of SR onto OUTPIN. -/
def execClockOut (e : Fin 16) (ext : Word) (s : State) : Out := inBlock (engRun e (ofType 3 10 2 0) (btlClock e ext)) s

/-- CLOCK_IN (R408). Shifts bits from INPIN into SR. -/
def execClockIn (e : Fin 16) (ext : Word) (s : State) : Out := inBlock (engRun e (ofType 3 10 2 1) (btlClock e ext)) s

/-- CLOCK_DUPLEX (R408). Shifts bits out and in at once through SR. -/
def execClockDuplex (e : Fin 16) (ext : Word) (s : State) : Out := inBlock (engRun e (ofType 3 10 2 2) (btlClock e ext)) s

/-- PINSET_VALUES (R405). Sets values of pins of the SET group. -/
def execPinsetValues (e : Fin 16) (s : State) : Out :=
  inBlock (engRun e (ofType 4 11 1 0) (fun w => setGroup e false (bitsOf w 5 5) (bitsOf w 0 5))) s

/-- PINSET_DIRECTIONS (R405). Sets directions of pins of the SET group. -/
def execPinsetDirections (e : Fin 16) (s : State) : Out :=
  inBlock (engRun e (ofType 4 11 1 1) (fun w => setGroup e true (bitsOf w 5 5) (bitsOf w 0 5))) s

/-- WAITFOR_LEVEL (R405). Waits until a pin reads a level. -/
def execWaitforLevel (e : Fin 16) (ext : BitVec 64) (s : State) : Out :=
  inBlock (fun s => engRun e (ofType 5 10 2 0) (fun w => awaitFor e (.level (bitsOf w 0 6) (bitAt w 9))) (setLevels ext s)) s

/-- WAITFOR_EDGE (R405). Waits for a pin change to a level. -/
def execWaitforEdge (e : Fin 16) (ext : BitVec 64) (s : State) : Out :=
  inBlock (fun s => engRun e (ofType 5 10 2 1) (fun w => awaitFor e (.edge (bitsOf w 0 6) (bitAt w 9) false)) (setLevels ext s)) s

/-- WAITFOR_FLAG (R405). Waits until a cluster flag has a value. -/
def execWaitforFlag (e : Fin 16) (s : State) : Out :=
  inBlock (engRun e (ofType 5 10 2 2) (fun w => awaitFor e (.flag (bitsOf w 0 6) (bitAt w 9)))) s

/-- WAITFOR_TIME (R405). Waits a number of ticks. -/
def execWaitforTime (e : Fin 16) (s : State) : Out :=
  inBlock (engRun e (ofType 5 10 2 3) (fun w s => awaitFor e (.until (waitEnd s e w)) s)) s

/-- WAITFOR_MET (R405). A WAITFOR condition is met and the engine goes on. -/
def execWaitforMet (e : Fin 16) (ext : BitVec 64) (s : State) : Out := inBlock (fun s => awaitMet e (setLevels ext s)) s

/-- FIFO_TAKE (R405). Moves the oldest TX FIFO word into SR, stalling on an empty FIFO. -/
def execFifoTake (e : Fin 16) (s : State) : Out := inBlock (engRun e (ofType 6 11 1 0) (btlTake e)) s

/-- FIFO_GIVE (R405). Writes the shifted bits of SR into the RX FIFO, stalling on a full FIFO. -/
def execFifoGive (e : Fin 16) (s : State) : Out := inBlock (engRun e (ofType 6 11 1 1) (btlGive e)) s

/-- BEETLE_STALL_RESUME (R410). A stalled engine resumes once its FIFO gains a word or a free place. -/
def execBeetleStallResume (e : Fin 16) (ext : Word) (s : State) : Out := inBlock (btlResume e ext) s

/-- XFORM_CLEAR (R406). Clears SR and BC. -/
def execXformClear (e : Fin 16) (s : State) : Out :=
  inBlock (engRun e (ofType 7 8 4 0) (fun _ s => setBc e 0 (setSr e 0 s))) s

/-- XFORM_INVERT (R406). Inverts SR. -/
def execXformInvert (e : Fin 16) (s : State) : Out :=
  inBlock (engRun e (ofType 7 8 4 1) (fun _ s => setSr e (~~~(s.engine e).sr) s)) s

/-- XFORM_REVERSE (R406). Reverses the bit order of SR. -/
def execXformReverse (e : Fin 16) (s : State) : Out :=
  inBlock (engRun e (ofType 7 8 4 2) (fun _ s => setSr e (reversed (s.engine e).sr) s)) s

/-- XFORM_GRAY (R406). Converts SR from Gray code to binary. -/
def execXformGray (e : Fin 16) (s : State) : Out :=
  inBlock (engRun e (ofType 7 8 4 3) (fun _ s => setSr e (ungray (s.engine e).sr) s)) s

/-- XFORM_JUSTIFY (R406). Right-justifies SR by BC when shifting right. -/
def execXformJustify (e : Fin 16) (s : State) : Out :=
  inBlock (engRun e (ofType 7 8 4 4) (fun _ s => setSr e (justified s e) s)) s

/-- XFORM_SAMPLE (R406). Loads SR with 32 pins from INPIN. -/
def execXformSample (e : Fin 16) (ext : BitVec 64) (s : State) : Out :=
  inBlock (fun s => engRun e (ofType 7 8 4 5) (fun _ s => setBc e 0 (setSr e (sampled s e) s)) (setLevels ext s)) s

/-- XFORM_DRIVE (R406). Sets the SET group pins from SR. -/
def execXformDrive (e : Fin 16) (s : State) : Out :=
  inBlock (engRun e (ofType 7 8 4 6) (fun _ s => setGroup e false 31 ((s.engine e).sr.toNat % 32) s)) s

/-- XFORM_STATUS (R406). Loads SR with the engine status. -/
def execXformStatus (e : Fin 16) (s : State) : Out :=
  inBlock (engRun e (ofType 7 8 4 7) (fun _ s => setSr e (rd s (engStatAt e)) s)) s

/-- XFORM_TOK0 (R406). Loads K0 from SR. -/
def execXformTok0 (e : Fin 16) (s : State) : Out :=
  inBlock (engRun e (ofType 7 8 4 8) (fun _ s => setF (counterF e 0) ((s.engine e).sr.toNat % 65536) s)) s

/-- XFORM_TOK1 (R406). Loads K1 from SR. -/
def execXformTok1 (e : Fin 16) (s : State) : Out :=
  inBlock (engRun e (ofType 7 8 4 9) (fun _ s => setF (counterF e 1) ((s.engine e).sr.toNat % 65536) s)) s

/-- SETK (R405). Loads a loop counter with an immediate. -/
def execSetk (e : Fin 16) (s : State) : Out := inBlock (engRun e (ofType 8 0 0 0) (btlSetk e)) s

/-- SIGNAL_SET (R405). Sets a cluster flag. -/
def execSignalSet (e : Fin 16) (s : State) : Out := inBlock (engRun e (ofType 9 10 2 0) (fun w => setF (flagF e w) 1)) s

/-- SIGNAL_CLR (R405). Clears a cluster flag. -/
def execSignalClr (e : Fin 16) (s : State) : Out := inBlock (engRun e (ofType 9 10 2 1) (fun w => setF (flagF e w) 0)) s

/-- SIGNAL_EVENT (R405). Raises the engine's Lockkeeper source. -/
def execSignalEvent (e : Fin 16) (s : State) : Out := inBlock (engRun e (ofType 9 10 2 2) (fun _ => engSource e)) s

/-- SIGNAL_TOGGLE (R405). Toggles a cluster flag. -/
def execSignalToggle (e : Fin 16) (s : State) : Out :=
  inBlock (engRun e (ofType 9 10 2 3) (fun w s => setF (flagF e w) (1 - getF s (flagF e w)) s)) s

/-- BTL_ENABLE (R402). Writing an engine's EN bit 1 starts it at START. -/
def execBtlEnable (who : Who) (e : Fin 16) (s : State) : Out := onRegs (writeBit who (A.BTL_CTL (e / 8)) (e % 8) true) s

/-- BTL_DISABLE (R413). Writing an engine's EN bit 0 stops it and releases its pins. -/
def execBtlDisable (who : Who) (e : Fin 16) (s : State) : Out := onRegs (writeBit who (A.BTL_CTL (e / 8)) (e % 8) false) s

/-- BTL_RESTART (R402). BTL_CTL.RESTART restarts an engine from any state. -/
def execBtlRestart (who : Who) (e : Fin 16) (s : State) : Out :=
  onRegs (writeBit who (A.BTL_CTL (e / 8)) (16 + e % 8) true) s

/-- BTL_TX_WRITE (R417). A write of BTL_ENGe_TX appends a word to the TX FIFO, or discards it when full. -/
def execBtlTxWrite (who : Who) (e : Fin 16) (v : Word) (s : State) : Out :=
  onRegs (busWrite who (A.BTL_ENG_TX (e / 8) (e % 8)) v.toNat) s

/-- BTL_RX_READ (R417). A read of the BTL_ENGe_RX low word pops an RX FIFO word. -/
def execBtlRxRead (who : Who) (e : Fin 16) (s : State) : Out := onRegs (busRead who (A.BTL_ENG_RX (e / 8) (e % 8))) s

/-- BTL_STORE_WRITE (R411). A write to the program store changes only later fetches. -/
def execBtlStoreWrite (who : Who) (c : Fin 2) (a : Fin 48) (v : BitVec 16) (s : State) : Out :=
  onRegs (busWrite who (A.BTL_STORE c a) v.toNat) s

/-- BTL_FLAGS_WRITE (R414). A write of BTL_FLAGS sets the cluster flags after engine operations of that cycle. -/
def execBtlFlagsWrite (who : Who) (c : Fin 2) (v : BitVec 16) (s : State) : Out :=
  onRegs (busWrite who (A.BTL_FLAGS c) v.toNat) s

/-- BTL_RXDMA_BATCH (R415). The cluster DMA writes a batch of RX FIFO words to the input image with quality GOOD. -/
def execBtlRxdmaBatch (e : Fin 16) (s : State) : Out := inBlock (rxBatch e) s

/-- BTL_RXDMA_AGE (R415). AGE ms without a batch makes the RX DMA bytes UNCERTAIN. -/
def execBtlRxdmaAge (e : Fin 16) (s : State) : Out := inBlock (rxAge e) s

/-- BTL_TXDMA_BATCH (R416). The cluster DMA pushes a batch of output image words into the TX FIFO when room exists. -/
def execBtlTxdmaBatch (e : Fin 16) (s : State) : Out := inBlock (txBatch e) s

end Sys2Proof.Machine
end

