-- ==== Sys2Proof/Machine/RowsBridge.lean ====
section
/-! DEFINITION. The commands of the host and fabric bridges (17_bridges). -/

namespace Sys2Proof.Machine

/-- HOST_MEM_READ (R446). A PCIe memory read of BAR0 is performed through a host window and completes with data or an error.
-/
def execHostMemRead (a : BarAddr) (n tag : Nat) (s : State) : Out := onBus (hostMemRead a n tag) s

/-- HOST_MEM_WRITE (R452). A PCIe memory write of BAR0 is posted through a host window, with failures logged. -/
def execHostMemWrite (off : Nat) (bs : List Byte) (s : State) : Out := onBus (hostMemWrite off bs) s

/-- QSPI_READ (R444). A QSPI READ or QREAD reads words at an address while CS_N stays low. -/
def execQspiRead (a : Word) (n : Nat) (s : State) : Out := onBus (qspiRead a.toNat n) s

/-- QSPI_WRITE (R444). A QSPI WRITE or QWRITE posts each complete word. -/
def execQspiWrite (a : Word) (bs : List Byte) (s : State) : Out := onBus (qspiWrite a.toNat bs) s

/-- QSPI_STATUS (R444). A QSPI STATUS returns the posted-error and MSI-X pending bits. -/
def execQspiStatus (s : State) : Out := onRegs qspiStatus s

/-- REMOTE_WRITE_RX (R447). An incoming fabric WRITE is performed as initiator 47, or answered with PWERR. -/
def execRemoteWriteRx (s : State) : Out := onDie remoteWriteRx s

/-- REMOTE_READ_RX (R454). An incoming fabric READ is performed after its PSEQ write and answered with RESP. -/
def execRemoteReadRx (s : State) : Out := onDie remoteReadRx s

/-- READ_RESPONSE_RX (R451). A RESP completes an outstanding fabric read, or is discarded as late. -/
def execReadResponseRx (s : State) : Out := onDie readResponseRx s

/-- PWERR_RX (R452). A PWERR message is logged in BRG_PWERR. -/
def execPwerrRx (s : State) : Out := inBlock pwerrRx s

/-- READ_TIMEOUT (R451). A fabric read unanswered for BRG_RDTMO ends with REMOTE_TIMEOUT. -/
def execReadTimeout (s : State) : Out := onDie readTimeout s

/-- PREFETCH_EXPIRE (R450). A prefetched line buffer older than PFAGE is dropped. -/
def execPrefetchExpire (s : State) : Out := inBlock prefetchExpire s

/-- SEM_READ (R456). A read of BRG_SEMk acquires a free semaphore or returns its owner. -/
def execSemRead (who : Who) (k : Fin 32) (s : State) : Out := onRegs (busRead who (A.BRG_SEM k)) s

/-- SEM_WRITE (R458). A write of 0 to BRG_SEMk by the owner or a privileged initiator releases it. -/
def execSemWrite (who : Who) (k : Fin 32) (v : Word) (s : State) : Out := onRegs (busWrite who (A.BRG_SEM k) v.toNat) s

/-- SEM_HOLD_EXPIRE (R458). A semaphore held longer than HOLD is released. -/
def execSemHoldExpire (k : Fin 32) (s : State) : Out := inBlock (semExpire k) s

/-- POLL_TIMER (R459). Every PERIOD µs a poll entry reads its source word. -/
def execPollTimer (k : Fin 16) (s : State) : Out := onDie (pollTimer k) s

/-- POLL_RESPONSE (R460). A poll read returns and may fire into a mailbox or an MSI-X vector. -/
def execPollResponse (k : Fin 16) (s : State) : Out := inBlock (pollResponse k) s

/-- PCIE_HOT_RESET (R461). A PCIe hot reset, link down or FLR ends host reads, drops buffers and releases host resources. -/
def execPcieHotReset (kind : Fin 3) (s : State) : Out := onRegs (pcieHotReset kind) s

/-- PERST_N (R527). PERST_N low puts the endpoint in conventional reset and takes the link down. -/
def execPerstN (high : Bool) (s : State) : Out := anyTime (perstChange high) s

/-- MSIX_ACK (R444). A write of PCI_MSIXACK clears MSI-X pending bits. -/
def execMsixAck (who : Who) (v : Word) (s : State) : Out := onRegs (busWrite who A.PCI_MSIXACK v.toNat) s

/-- PCIE_LINK_UP (R527). The PCIe link trains up while PERST_N is high, which sets PCI_STATUS.LINK and raises PCI_EVT.LINKUP.
-/
def execPcieLinkUp (speed width : Fin 4) (s : State) : Out := onRegs (pcieLinkUp speed width) s

/-- MSIX_TABLE_WRITE (R460). A host memory write to BAR2 changes the MSI-X table, and unmasking a vector with a pending bit
sends its message. -/
def execMsixTableWrite (v : Fin 32) (word : Fin 4) (x : Word) (s : State) : Out := onRegs (msixTableWrite v word x) s

/-- PCIE_CONFIG_REQUEST (R527). A PCIe configuration request is answered, with Retry Status during a reset, and can set the
MSI-X message enable. -/
def execPcieConfigRequest (q : CfgReq) (s : State) : Out := onRegs (pcieConfig q) s

end Sys2Proof.Machine
end

