-- ==== Sys2Proof/Machine/RowsCan.lean ====
section
/-! DEFINITION. The commands of the CAN ports (14_can). -/

namespace Sys2Proof.Machine

/-- CAN_FRAME_VALID (R391). A received frame becomes valid and is written to the receive ring and matching image slots. -/
def execCanFrameValid (n : Fin 8) (f : CanFrame) (ago : Nat) (s : State) : Out := onDie (canValid n f ago) s

/-- IMAGE_SLOT_AGE (R392). AGE ms without a match makes an image slot's quality UNCERTAIN. -/
def execImageSlotAge (n k : Fin 8) (s : State) : Out := inBlock (slotAge n k) s

/-- CAN_TXREQ (R394). Writing CAN_TXREQ makes transmit buffers pending. -/
def execCanTxreq (who : Who) (n : Fin 8) (mask : BitVec 16) (s : State) : Out :=
  onRegs (busWrite who (A.CAN_TXREQ n) mask.toNat) s

/-- CAN_TXCAN (R395). Writing CAN_TXCAN cancels a pending or chosen buffer. -/
def execCanTxcan (who : Who) (n : Fin 8) (mask : BitVec 16) (s : State) : Out :=
  onRegs (busWrite who (A.CAN_TXCAN n) mask.toNat) s

/-- CAN_TX_END (R396). A transmit request ends, writing CAN_TXSTb and raising source 193 + 2n. -/
def execCanTxEnd (n : Fin 8) (r : TxResult) (ago tdcv : Nat) (s : State) : Out := onDie (canTxEnd n r ago tdcv) s

/-- CAN_ERROR (R388). A bus error is detected, updating LEC, counts and error state. -/
def execCanError (n : Fin 8) (kind : Fin 8) (data : Bool) (place : CanErrAt) (runs : Nat) (s : State) : Out :=
  inBlock (canError n kind data place runs) s

/-- BUS_OFF_RECOVERY_END (R389). 128 occurrences of 11 recessive bits end bus-off recovery. -/
def execBusOffRecoveryEnd (n : Fin 8) (s : State) : Out := inBlock (canRecovered n) s

/-- CAN_RECOVER (R389). CAN_CMD.RECOVER starts bus-off recovery. -/
def execCanRecover (who : Who) (n : Fin 8) (s : State) : Out := onRegs (busWrite who (A.CAN_CMD n) 2) s

/-- PROTOCOL_EXCEPTION (R383). A recessive res bit, or FDF without FDEN, sends the port to bus integration. -/
def execProtocolException (n : Fin 8) (s : State) : Out := inBlock (canException n) s

/-- CAN_ENABLE (R387). Writing CAN_CTL.EN = 1 clears TEC and REC and integrates on the bus. -/
def execCanEnable (who : Who) (n : Fin 8) (s : State) : Out := onRegs (writeBit who (A.CAN_CTL n) 31 true) s

/-- CAN_DISABLE (R387). CAN_CTL.EN = 0 takes effect at bus idle, aborting pending requests. -/
def execCanDisable (n : Fin 8) (s : State) : Out := inBlock (canDisable n) s

/-- CAN_MODE_CHANGE (R386). A new CAN_CTL.MODE takes effect at the next bus idle. -/
def execCanModeChange (n : Fin 8) (s : State) : Out := inBlock (canMode n) s

/-- XCAP (R398). CAN_CMD.XCAP latches CAN_TSC and pulses the time-base capture source. -/
def execXcap (who : Who) (n : Fin 8) (s : State) : Out := onRegs (busWrite who (A.CAN_CMD n) 1) s

/-- XCAP_AUTO (R398). CAN_TSC passing a multiple of 2^(XPER+16) makes a cross-capture. -/
def execXcapAuto (n : Fin 8) (s : State) : Out := inBlock (crossAuto n) s

/-- BUS_INTEGRATION (R387). After 11 recessive bits a CAN port integrates on the bus and becomes active. -/
def execBusIntegration (n : Fin 8) (s : State) : Out := inBlock (canIntegrated n) s

end Sys2Proof.Machine
end

