-- ==== Sys2Proof/Machine/RowsCfg.lean ====
section
/-! DEFINITION. The commands of configuration, life cycle and attestation (18_startup). -/

namespace Sys2Proof.Machine

/-- FRECAL (R484). CFG_CMD.FRECAL recalibrates field I/O items 4–6. -/
def execFrecal (who : Who) (s : State) : Out := onRegs (busWrite who A.CFG_CMD 16) s

/-- RCTRIM (R484). CFG_CMD.RCTRIM retrims the Lockhouse RC oscillator. -/
def execRctrim (who : Who) (s : State) : Out := onRegs (busWrite who A.CFG_CMD 8) s

/-- VERIFY (R483). CFG_CMD.VERIFY checks a slot in the background. -/
def execVerify (who : Who) (slot : Fin 2) (s : State) : Out := onRegs (busWrite who A.CFG_CMD (4 + slot)) s

/-- VERIFY_DONE (R483). A slot verification ends, setting VALID and ERR. -/
def execVerifyDone (s : State) : Out := inBlock verifyDone s

/-- MCOPY (R482). CFG_MCOPY.GO starts copying lines into MRAM, or is refused. -/
def execMcopy (who : Who) (lines : Fin 262144) (s : State) : Out := onRegs (busWrite who A.CFG_MCOPY (2 ^ 31 + lines)) s

/-- MCOPY_DONE (R482). An MRAM copy ends with DONE, ECC or BUSERR. -/
def execMcopyDone (s : State) : Out := onDie (mcopyDone lockhouseLine) s

/-- LC_TO_MANUFACTURE (R477). CFG_LCCMD BLANK → MANUFACTURE. -/
def execLcToManufacture (who : Who) (confirm : BitVec 8) (key : Fin 4) (s : State) : Out :=
  onRegs (busWrite who A.CFG_LCCMD (lcWord 1 confirm.toNat key)) s

/-- LC_TO_FIELD (R477). CFG_LCCMD MANUFACTURE → FIELD. -/
def execLcToField (who : Who) (confirm : BitVec 8) (key : Fin 4) (s : State) : Out :=
  onRegs (busWrite who A.CFG_LCCMD (lcWord 2 confirm.toNat key)) s

/-- LC_TO_RETURN (R477). CFG_LCCMD FIELD → RETURN. -/
def execLcToReturn (who : Who) (confirm : BitVec 8) (key : Fin 4) (s : State) : Out :=
  onRegs (busWrite who A.CFG_LCCMD (lcWord 3 confirm.toNat key)) s

/-- LC_TO_SCRAPPED (R477). CFG_LCCMD any state → SCRAPPED. -/
def execLcToScrapped (who : Who) (confirm : BitVec 8) (key : Fin 4) (s : State) : Out :=
  onRegs (busWrite who A.CFG_LCCMD (lcWord 4 confirm.toNat key)) s

/-- REVOKE (R477). CFG_LCCMD revokes a key slot. -/
def execRevoke (who : Who) (confirm : BitVec 8) (key : Fin 4) (s : State) : Out :=
  onRegs (busWrite who A.CFG_LCCMD (lcWord 5 confirm.toNat key)) s

/-- ROLLUP (R477). CFG_LCCMD raises ROLLCNT to the loaded image's ROLLBACK. -/
def execRollup (who : Who) (confirm : BitVec 8) (key : Fin 4) (s : State) : Out :=
  onRegs (busWrite who A.CFG_LCCMD (lcWord 6 confirm.toNat key)) s

/-- KEYPROG (R477). CFG_LCCMD programs a key hash into a slot. -/
def execKeyprog (who : Who) (confirm : BitVec 8) (key : Fin 4) (s : State) : Out :=
  onRegs (busWrite who A.CFG_LCCMD (lcWord 7 confirm.toNat key)) s

/-- DSKGEN (R477). CFG_LCCMD generates and fuses the device secret key. -/
def execDskgen (who : Who) (confirm : BitVec 8) (key : Fin 4) (s : State) : Out :=
  onRegs (busWrite who A.CFG_LCCMD (lcWord 8 confirm.toNat key)) s

/-- LC_FUSE_DONE (R477). A life-cycle change has blown its fuses and raises LCDONE. -/
def execLcFuseDone (s : State) : Out := inBlock lcFuseDone s

/-- ATTEST (R478). CFG_ATTCMD.GO starts signing an attestation with DSK, or is refused. -/
def execAttest (who : Who) (s : State) : Out := onRegs (busWrite who A.CFG_ATTCMD (2 ^ 31)) s

/-- ATTEST_DONE (R478). The attestation signature is ready and ATTDONE is raised. -/
def execAttestDone (s : State) : Out := inBlock attestDone s

/-- BLKRST (R480). CFG_BLKRST.GO resets one block's registers. -/
def execBlkrst (who : Who) (block : BitVec 8) (s : State) : Out := onBus (busWrite who A.CFG_BLKRST (2 ^ 31 + block.toNat)) s

end Sys2Proof.Machine
end

