-- ==== Sys2Proof/Machine/RowsCore.lean ====
section
/-! DEFINITION. The commands of core control and the Lockkeeper (03_weevil_core, 07_lockkeeper). -/

namespace Sys2Proof.Machine

/-- STORE_COMPLETE (R95). A buffered store completes at its target, or returns a bus error that raises BUSERR_W. -/
def execStoreComplete (i : Fin 40) (s : State) : Out := onDie (storeComplete i) s

/-- PREEMPT_ACCEPT (R105). At an instruction boundary the core accepts an offered item, pushes a preemption frame and
dispatches it one level up. -/
def execPreemptAccept (i : Fin 40) (s : State) : Out := onDie (preemptAccept i) s

/-- CORE_RESET (R110). RCH_COREc_CTL.RESET or the Lockhouse aborts the core and restarts it at BOOT. -/
def execCoreReset (who : Who) (i : Fin 40) (s : State) : Out := onBus (busWrite who (A.RCH_CORE_CTL (i / 8) (i % 8)) 32) s

/-- CORE_ICINV (R100). RCH_COREc_CTL.ICINV invalidates a core's I-cache. -/
def execCoreIcinv (who : Who) (i : Fin 40) (s : State) : Out := onBus (busWrite who (A.RCH_CORE_CTL (i / 8) (i % 8)) 16) s

/-- CORE_DRAIN (R109). RCH_COREc_CTL.DRAIN stops the core at the next item boundary in DRAINED. -/
def execCoreDrain (who : Who) (i : Fin 40) (s : State) : Out := onBus (busWrite who (A.RCH_CORE_CTL (i / 8) (i % 8)) 8) s

/-- CORE_STEP (R116). RCH_COREc_CTL.STEP executes one instruction in HALTED. -/
def execCoreStep (who : Who) (i : Fin 40) (s : State) : Out := onBus (busWrite who (A.RCH_CORE_CTL (i / 8) (i % 8)) 4) s

/-- CORE_RESUME (R116). RCH_COREc_CTL.RESUME leaves HALTED or DRAINED. -/
def execCoreResume (who : Who) (i : Fin 40) (s : State) : Out := onBus (busWrite who (A.RCH_CORE_CTL (i / 8) (i % 8)) 2) s

/-- CORE_HALT (R116). RCH_COREc_CTL.HALT halts the core at the next instruction boundary. -/
def execCoreHalt (who : Who) (i : Fin 40) (s : State) : Out := onBus (busWrite who (A.RCH_CORE_CTL (i / 8) (i % 8)) 1) s

/-- TOKEN_ACCEPT (R225). The Lockkeeper takes a token from a SIG port and matches it into an operand slot, or discards it. -/
def execTokenAccept (i : Fin 40) (s : State) : Out := onDie (unfrozen (acceptToken i)) s

/-- OVERFLOW_MATCH (R227). A token waiting in the overflow queue is matched when a matching-store entry frees. -/
def execOverflowMatch (s : State) : Out := onDie (unfrozen matchOverflow) s

/-- SOURCE_ACCEPT (R230). The Lockkeeper accepts a pending hardware event source and sends its routed token. -/
def execSourceAccept (s : State) : Out := onDie (unfrozen acceptSource) s

/-- STARVE (R235). An item ready longer than STARVE × 10 µs is counted, raises STARVE and is traced. -/
def execStarve (k : Nat) (s : State) : Out := inBlock (starves k) s

/-- DELAY_RELEASE (R241). At a 1 µs tick, due delay-list entries are released as tokens. -/
def execDelayRelease (s : State) : Out := onDie (unfrozen delayRelease) s

/-- DLYCMD_GO (R242). LKP_DLYCMD.GO removes every delay-list entry whose destination matches LKP_DLYDST. -/
def execDlycmdGo (who : Who) (s : State) : Out := onRegs (busWrite who A.LKP_DLYCMD (2 ^ 31)) s

/-- SWSRC_RAISE (R231). A write of 1 to a bit of LKP_SWSRC raises a software event source. -/
def execSwsrcRaise (who : Who) (bits : BitVec 16) (s : State) : Out := onRegs (busWrite who A.LKP_SWSRC bits.toNat) s

end Sys2Proof.Machine
end

