-- ==== Sys2Proof/Machine/RowsEth.lean ====
section
/-! DEFINITION. The commands of the Ethernet ports (12_ethernet_ports). -/

namespace Sys2Proof.Machine

/-- ETH_ENABLE (R339). Writing ETH_CTL.EN = 1 starts link training or auto-negotiation. -/
def execEthEnable (who : Who) (p : Fin 24) (s : State) : Out := onRegs (writeBit who (A.ETH_CTL p) 31 true) s

/-- ETH_DISABLE (R343). Writing ETH_CTL.EN = 0 cuts off transmission and stops reception. -/
def execEthDisable (who : Who) (p : Fin 24) (s : State) : Out := onRegs (writeBit who (A.ETH_CTL p) 31 false) s

/-- LINK_UP (R339). A port's link comes up, setting LINK and raising ETH_EVT.LINK. -/
def execLinkUp (p : Fin 24) (fast master : Bool) (s : State) : Out := inBlock (linkUp p fast master) s

/-- LINK_LOSS (R339). The partner's signal is lost and LINK becomes 0, and the port retrains. -/
def execLinkLoss (p : Fin 24) (s : State) : Out := inBlock (linkLost p) s

/-- MAC_FRAME_RX (R340). A port receives a frame, checks it, stamps event messages and passes good frames to the Basin. -/
def execMacFrameRx (p : Fin 24) (bs : List Byte) (good clean : Bool) (fec : Nat) (s : State) : Out :=
  inBlock (frameRx p bs good clean fec) s

/-- MAC_FRAME_TX (R343). A port begins sending the highest-class complete frame from its egress buffer. -/
def execMacFrameTx (p : Fin 24) (busy : Bool) (s : State) : Out := inBlock (frameTxEth p busy) s

/-- COLLISION (R344). A TS port detects a collision, sends the jam and backs off, or discards the frame. -/
def execCollision (p : Fin 24) (cd : Bool) (s : State) : Out := inBlock (collision p cd) s

/-- BACKOFF_END (R344). A TS port's back-off ends and it retries the frame. -/
def execBackoffEnd (p : Fin 24) (busy : Bool) (s : State) : Out := inBlock (backoffEnd p busy) s

/-- PLCA_BEACON (R346). A coordinator opens a PLCA cycle with a BEACON. -/
def execPlcaBeacon (p : Fin 24) (s : State) : Out := inBlock (plcaBeacon p) s

/-- PLCA_OPPORTUNITY (R346). A PLCA transmit opportunity begins, idles out after TOTMR or carries the node's frames. -/
def execPlcaOpportunity (p : Fin 24) (node : Fin 256) (s : State) : Out := inBlock (plcaOpportunity p node) s

/-- BEACON_TIMEOUT (R347). A follower receives no BEACON for BCNTMO and falls back to CSMA/CD. -/
def execBeaconTimeout (p : Fin 24) (s : State) : Out := inBlock (beaconTimeout p) s

/-- TS_FIFO_READ (R349). A read of the ETH_TSRX or ETH_TSTX low word pops a stamp entry. -/
def execTsFifoRead (who : Who) (p : Fin 24) (tx : Bool) (s : State) : Out :=
  onRegs (busRead who (if tx then A.ETH_TSTX p else A.ETH_TSRX p)) s

/-- STATS_READ (R351). A privileged read of an ETH statistics counter returns and clears it. -/
def execStatsRead (who : Who) (p : Fin 24) (r : Fin 64) (s : State) : Out := onRegs (busRead who (statAt p r)) s

/-- STN_READ (R352). A read of ETH_STNw returns and clears station status bits. -/
def execStnRead (who : Who) (p : Fin 24) (w : Fin 16) (s : State) : Out := onRegs (busRead who (A.ETH_STN p w)) s

/-- SQI_UPDATE (R353). Every 1 ms SQI is updated and SQILOW raised on a fall below SQIMIN. -/
def execSqiUpdate (p : Fin 24) (sqi : Fin 8) (s : State) : Out := inBlock (sqiUpdate p sqi) s

/-- CABLE_TEST (R354). ETH_CABLE.GO starts a reflectometry test, or is refused. -/
def execCableTest (who : Who) (p : Fin 24) (s : State) : Out := onRegs (busWrite who (A.ETH_CABLE p) (2 ^ 31)) s

/-- CABLE_TEST_END (R354). A cable test ends with its result and distance. -/
def execCableTestEnd (p : Fin 24) (result : Fin 8) (dist : BitVec 16) (s : State) : Out :=
  inBlock (cableEnd p result dist.toNat) s

/-- BEACON_RX (R347). A PLCA follower receives a BEACON, counts opportunities from it and returns from CSMA/CD to PLCA. -/
def execBeaconRx (p : Fin 24) (s : State) : Out := inBlock (beaconRx p) s

end Sys2Proof.Machine
end

