-- ==== Sys2Proof/Machine/RowsFio.lean ====
section
/-! DEFINITION. The commands of the field link and the F-die (10_field_io). -/

namespace Sys2Proof.Machine

/-- FIELD_LINK_FRAME_TX (R17). Every 2 µs each side of the field link sends a frame with outputs, a pending register and time
alignment, or with inputs and status. -/
def execFieldLinkFrameTx (pins : BitVec 32) (ia ib : Nat) (s : State) : Out := inBlock (frameTx pins ia ib) s

/-- FIELD_LINK_FRAME_RX (R288). The L-die receives a field-to-logic frame and writes input bytes, quality, edge entries and
analog results, or discards it on a bad CRC. -/
def execFieldLinkFrameRx (good : Bool) (s : State) : Out := onDie (upRx good) s

/-- FIELD_LINK_LOSS (R19). With no good frame for 4 frame periods the L-die sets DI and AI quality BAD and raises an FIO
event. -/
def execFieldLinkLoss (s : State) : Out := inBlock linkLoss s

/-- F_DIE_FRAME_RX (R285). The F-die receives a logic-to-field frame carrying outputs, a configuration register, SAFE and the
time base. -/
def execFDieFrameRx (good sound : Bool) (s : State) : Out := inBlock (downRx good sound) s

/-- SILENCE_WATCHDOG (R301). With no good frame for SWDTMO frame periods the F-die enters the safe state with cause SILENCE.
-/
def execSilenceWatchdog (s : State) : Out := anyTime silence s

/-- F_DIE_POWER_UP (R287). The F-die powers up from VFIELD with outputs off and the safe state with cause POWERUP until its
configuration copy matches. -/
def execFDiePowerUp (s : State) : Out := anyTime fdieUp s

/-- F_DIE_COMMIT_INSTANT (R300). At a channel's commit instant the F-die applies that channel's held bytes, or keeps the
previous outputs when the commit is late. -/
def execFDieCommitInstant (c : Fin 4) (s : State) : Out := anyTime (commitInstantReached c) s

/-- FIO_REGISTER_WRITE (R285). A write to an FIO register takes effect in the FIO block and is queued as pending for the
F-die. -/
def execFioRegisterWrite (who : Who) (r : Fin 4096) (v : Word) (s : State) : Out :=
  onRegs (busWrite who (wordAt 0x600D r) v.toNat) s

/-- RAW_INPUT_TRANSITION (R304). The comparator of a digital input changes state, which drives raw reflex rules and starts
the filter. -/
def execRawInputTransition (i : Fin 64) (v : Bool) (s : State) : Out := anyTime (rawInput i v) s

/-- FILTER_ACCEPT (R293). A raw state that has held for the filter time becomes the filtered state of the input. -/
def execFilterAccept (i : Fin 64) (s : State) : Out := anyTime (filterAccept i) s

/-- PULSED_SAMPLE (R292). At each pulse instant a pulsed input group draws current in its window and samples its inputs. -/
def execPulsedSample (g : Fin 8) (levels : BitVec 8) (s : State) : Out := anyTime (pulsedSample g levels) s

/-- FIO_EDGE_READ (R296). A read of the FIO_EDGE low word pops one stamp entry and latches its high word. -/
def execFioEdgeRead (who : Who) (s : State) : Out := onRegs (busRead who A.FIO_EDGE) s

/-- OUTPUT_FAULT (R298). An output fault condition lasts its detection time, latches its code and applies its reaction. -/
def execOutputFault (n : Fin 32) (code : Fin 16) (present : Bool) (s : State) : Out := anyTime (outputFault n code present) s

/-- GROUP_TRIP (R297). A group's summed current exceeds ILIM for 100 µs, or a tested output fails, and the group switch
opens. -/
def execGroupTrip (load : Fin 2 × Nat) (s : State) : Out := anyTime (groupCurrent load.1 load.2) s

/-- AUTO_RESTART_RETRY (R298). Every 10 ms a channel switched off by overcurrent or thermal shutdown with AUTORST retries
while commanded on. -/
def execAutoRestartRetry (n : Fin 32) (s : State) : Out := anyTime (autoRetry n) s

/-- DARK_TEST_PULSE (R299). An on output with DTEN is switched off for DTW at its offset in DTPER and checked against the off
threshold. -/
def execDarkTestPulse (n : Fin 32) (low : Bool) (s : State) : Out := anyTime (darkTest n low) s

/-- EDGEFLUSH (R295). FIO_CMD.EDGEFLUSH empties both edge-stamp FIFOs. -/
def execEdgeflush (who : Who) (s : State) : Out := onRegs (busWrite who A.FIO_CMD 4) s

/-- GRPRST (R297). FIO_CMD.GRPRST closes tripped group switches whose cause has gone. -/
def execGrprst (who : Who) (s : State) : Out := onRegs (busWrite who A.FIO_CMD 2) s

/-- FAULTACK (R298). FIO_CMD.FAULTACK clears latched output faults whose condition has gone. -/
def execFaultack (who : Who) (s : State) : Out := onRegs (busWrite who A.FIO_CMD 1) s

/-- AI_ROUND_COMPLETE (R306). An analog round completes, is sent in the next frame and raises source 546. -/
def execAiRoundComplete (vals : List (List Int)) (s : State) : Out := anyTime (aiComplete vals) s

/-- VOUT_CHANGE (R507). VOUT_A or VOUT_B appears or vanishes, changing VOK and the NOVOUT fault. -/
def execVoutChange (g : Fin 2) (present : Bool) (s : State) : Out := anyTime (voutChange g present) s

end Sys2Proof.Machine
end

