-- ==== Sys2Proof/Machine/RowsPair.lean ====
section
/-! DEFINITION. The commands of a standby pair (06_duplex_rotation). -/

namespace Sys2Proof.Machine

/-- SBY_ENABLE (R206). LKH_SBYCTL.EN = 1 enters SEEK, and EN = 0 returns to SINGLE. -/
def execSbyEnable (who : Who) (en : Bool) (s : State) : Out := onBus (writeBit who A.LKH_SBYCTL 0 en) s

/-- SWAP (R217). LKH_SBYCTL.SWAP makes a primary with a HOT standby relinquish. -/
def execSwap (who : Who) (s : State) : Out := onBus (writeBit who A.LKH_SBYCTL 3 true) s

/-- JOIN (R206). LKH_SBYCTL.JOIN enters JOINING from DETACHED at once. -/
def execJoin (who : Who) (s : State) : Out := onBus (writeBit who A.LKH_SBYCTL 1 true) s

/-- PAIR_HELLO_TX (R207). In SEEK the device sends HELLO every 1 ms. -/
def execPairHelloTx (s : State) : Out := inBlock pairHello s

/-- PAIR_HELLO_RX (R207). A pair HELLO drives election to PRIMARY or JOINING, or a hash mismatch. -/
def execPairHelloRx (peerPref : Bool) (s : State) : Out := onDie (helloPairRx peerPref) s

/-- SEEK_TIMEOUT (R207). Hearing nothing for 50 ms in SEEK, the device becomes PRIMARY. -/
def execSeekTimeout (s : State) : Out := onDie seekTimeout s

/-- HEARTBEAT_TX (R209). Every HBPER the device sends a HEARTBEAT. -/
def execHeartbeatTx (s : State) : Out := inBlock heartbeatTx s

/-- HEARTBEAT_RX (R216). A HEARTBEAT updates the peer state, and two primaries resolve a split. -/
def execHeartbeatRx (s : State) : Out := onDie heartbeatRx s

/-- HEARTBEAT_TIMEOUT (R212). HBTMO after the last HEARTBEAT the peer is declared lost. -/
def execHeartbeatTimeout (s : State) : Out := onDie heartbeatTimeout s

/-- SNAP_RX (R211). A SNAP fragment delivers mirrored snapshot lines to the standby. -/
def execSnapRx (s : State) : Out := onDie snapRx s

/-- RET_RX (R211). A RET fragment delivers retentive lines to the standby. -/
def execRetRx (s : State) : Out := onDie retRx s

/-- COMMIT_MSG_RX (R211). A COMMIT message is checked against the standby's own commit CRC. -/
def execCommitMsgRx (s : State) : Out := onDie commitMsgRx s

/-- FORCE_MSG_RX (R211). A FORCE message mirrors the primary's output forces. -/
def execForceMsgRx (s : State) : Out := onDie forceMsgRx s

/-- RELINQUISH_RX (R217). A RELINQUISH is taken as loss of the primary. -/
def execRelinquishRx (s : State) : Out := onDie relinquishRx s

/-- JOINREQ_RX (R215). A JOINREQ makes the primary stream STATE and FORCE messages. -/
def execJoinreqRx (s : State) : Out := onDie joinreqRx s

/-- STATE_RX (R215). A STATE message writes window lines into the joining device. -/
def execStateRx (s : State) : Out := inBlock stateRx s

/-- JOINED_RX (R215). A JOINED message lets the standby run a task, entering HOT when all have joined. -/
def execJoinedRx (s : State) : Out := onDie joinedRx s

/-- DETACHED_TIMER (R206). After 10 ms in DETACHED a device that hears a primary enters JOINING. -/
def execDetachedTimer (s : State) : Out := inBlock detachedTimer s

end Sys2Proof.Machine
end

