-- ==== Sys2Proof/Machine/RowsPower.lean ====
section
/-! DEFINITION. The commands of power, reset and standby (18_startup). -/

namespace Sys2Proof.Machine

/-- POWER_ON (R467). VIN_L becomes valid and start-up runs from step 1 through fuse read, memory test, calibration, image
load and READY. -/
def execPowerOn (lost : Bool) (b : Boot) (s : State) : Out := always (powerOn lost b) s

/-- FIELD_CALIBRATION (R470). Calibration items 4–6 run after the field link's first good frame when VFIELD was absent at
step 4. -/
def execFieldCalibration (fail : Nat) (s : State) : Out := inBlock (fieldCalibration fail) s

/-- SUPPLY_WARNING (R465). VIN_L falls below the warning level, which sets PWRWARN, starts queued retentive writes and pauses
MRAM copies. -/
def execSupplyWarning (vin : Nat) (s : State) : Out := inBlock (supplyWarning vin) s

/-- SUPPLY_DIP_END (R465). VIN_L rises above 4.45 V before the reset level, which clears PWRWARN and logs the dip in
CFG_PWRLOG and the fault log. -/
def execSupplyDipEnd (vin : Nat) (s : State) : Out := inBlock (supplyDipEnd vin) s

/-- BROWNOUT (R466). VIN_L reaches the reset level, and the brownout sequence sends last gasp, goes safe, finishes retentive
and log writes and holds the device in reset. -/
def execBrownout (vin : Nat) (s : State) : Out := anyTime (brownout vin) s

/-- RESET_N (R516). A low of at least 1 µs on RESET_N gives a device reset of kind RESET_N, or a wake from standby. -/
def execResetN (low : Nat) (b : Boot) (s : State) : Out := always (resetPulse low b) s

/-- WAKE_N (R481). A falling edge on WAKE_N wakes the device from standby with reset kind 6. -/
def execWakeN (b : Boot) (s : State) : Out := always (wakeN b) s

/-- STANDBY (R481). CFG_CMD.STANDBY sends last gasp and SAFE and powers off all blocks except the always-on ones. -/
def execStandby (who : Who) (s : State) : Out := onBus (busWrite who A.CFG_CMD (2 ^ 31)) s

/-- PCI_DEVRST (R479). A write of PCI_DEVRST.GO with the correct KEY performs a host-commanded device reset. -/
def execPciDevrst (who : Who) (key : BitVec 16) (s : State) : Out := onBus (busWrite who A.PCI_DEVRST (2 ^ 31 + key.toNat)) s

end Sys2Proof.Machine
end

