-- ==== Sys2Proof/Machine/RowsReach.lean ====
section
/-! DEFINITION. The commands of reach memory, DMA, parking and mailboxes (08_banks_mailboxes). -/

namespace Sys2Proof.Machine

/-- GATE_WRITE (R254). A write to RCH_GATEb changes a bank's owner or guest once the old owner's granted accesses complete.
-/
def execGateWrite (who : Who) (n : Fin 5) (b : Fin 12) (v : Word) (s : State) : Out :=
  onRegs (busWrite who (A.RCH_GATE n b) v.toNat) s

/-- CIRCULAR_WINDOW_WRITE (R257). A write to RCH_CWw sets a circular window, with EN substituted to 0 on overlap or overrun.
-/
def execCircularWindowWrite (who : Who) (n : Fin 5) (w : Fin 8) (v : Word) (s : State) : Out :=
  onRegs (busWrite who (A.RCH_CW n w) v.toNat) s

/-- SCRUB (R251). Background scrub reads and corrects words of memory once in every 100 ms. -/
def execScrub (mem k : Nat) (err : Fin 3) (s : State) : Out := onDie (scrub mem k err) s

/-- DMA_TAIL_WRITE (R259). A write of RCH_DMA_TAIL queues descriptors for the reach DMA with their privilege. -/
def execDmaTailWrite (who : Who) (n : Fin 5) (v : Word) (s : State) : Out :=
  onBus (busWrite who (A.RCH_DMA_TAIL n) v.toNat) s

/-- DMA_DESCRIPTOR_END (R259). The reach DMA completes or fails a descriptor, writes word 3 and advances HEAD. -/
def execDmaDescriptorEnd (n : Fin 5) (s : State) : Out := onDie (dmaDescriptorEnd n) s

/-- DMA_STOP (R260). RCH_DMA_CTL.STOP stops the DMA at the next descriptor boundary. -/
def execDmaStop (who : Who) (n : Fin 5) (s : State) : Out := onBus (busWrite who (A.RCH_DMA_CTL n) 2) s

/-- DMA_RESUME (R260). RCH_DMA_CTL.RESUME leaves ERROR or STOPPED. -/
def execDmaResume (who : Who) (n : Fin 5) (s : State) : Out := onBus (busWrite who (A.RCH_DMA_CTL n) 1) s

/-- PARK (R261). RCH_PWR.PARK drains the reach and powers it down with memory in retention, or is refused. -/
def execPark (who : Who) (n : Fin 5) (s : State) : Out := onBus (busWrite who (A.RCH_PWR n) 1) s

/-- REACH_WAKE (R262). RCH_PWR.WAKE or a wake event restarts a parked reach's cores from BOOT. -/
def execReachWake (n : Fin 5) (s : State) : Out := onDie (reachWakes n) s

/-- MBX_TX_WRITE (R263). A write to MBX_TXm appends a message word or opens a block, or ends with MBX_FULL. -/
def execMbxTxWrite (who : Who) (m : Fin 64) (v : Word) (s : State) : Out := onRegs (busWrite who (A.MBX_TX m) v.toNat) s

/-- MBX_RX_READ (R265). A read of the MBX_RXm low word pops or advances to the next word and latches its status. -/
def execMbxRxRead (who : Who) (m : Fin 64) (s : State) : Out := onRegs (busRead who (A.MBX_RX m)) s

/-- MBX_GO (R263). MBX_CTLm.GO by the owner commits the open block. -/
def execMbxGo (who : Who) (m : Fin 64) (s : State) : Out := onRegs (busWrite who (A.MBX_CTL m) 1) s

/-- MBX_RELEASE (R265). MBX_CTLm.RELEASE empties a committed block. -/
def execMbxRelease (who : Who) (m : Fin 64) (s : State) : Out := onRegs (busWrite who (A.MBX_CTL m) 2) s

/-- MBX_ABORT (R263). MBX_CTLm.ABORT discards the open block. -/
def execMbxAbort (who : Who) (m : Fin 64) (s : State) : Out := onRegs (busWrite who (A.MBX_CTL m) 4) s

/-- MBX_FLUSH (R263). MBX_CTLm.FLUSH discards every word and any block. -/
def execMbxFlush (who : Who) (m : Fin 64) (s : State) : Out := onRegs (busWrite who (A.MBX_CTL m) 8) s

/-- MBX_CFG_WRITE (R263). A write to MBX_CFGm enables, reconfigures or disables a mailbox, discarding contents when disabled.
-/
def execMbxCfgWrite (who : Who) (m : Fin 64) (v : Word) (s : State) : Out := onRegs (busWrite who (A.MBX_CFG m) v.toNat) s

/-- EPOCH_BUMP (R268). MBX_REPOCHr.BUMP advances a receiver's epoch. -/
def execEpochBump (who : Who) (r : Fin 6) (s : State) : Out := onRegs (busWrite who (A.MBX_REPOCH r) 0x10000) s

end Sys2Proof.Machine
end

