-- ==== Sys2Proof/Machine/RowsRotation.lean ====
section
/-! DEFINITION. The commands of rotation and firmware switching (06_duplex_rotation). -/

namespace Sys2Proof.Machine

/-- ROTATION_TARGET (R191). A handover target H_j is reached and the reach to release is chosen. -/
def execRotationTarget (s : State) : Out := inBlock rotationTarget s

/-- DRAIN_TIMEOUT (R196). The drain does not finish within DRAINTMO, so the cores resume and the handover is deferred. -/
def execDrainTimeout (s : State) : Out := onDie drainTimeout s

/-- HANDOVER_WINDOW (R197). All source cores are DRAINED and the DMA stopped, and the window copies the delta and changes the
role map. -/
def execHandoverWindow (s : State) : Out := onDie handoverWindow s

/-- HANDOVER_END (R197). The window ends: target WET, source DRY, held RCH writes applied. -/
def execHandoverEnd (s : State) : Out := onDie (fun s => goOn (handoverEnd s)) s

/-- DRY_POWER_END (R192). Phase POWER of a DRY reach ends after the PLL restart and power checks. -/
def execDryPowerEnd (locked powered : Bool) (s : State) : Out := onDie (dryPowerEnd locked powered) s

/-- LBIST_SLICE_END (R487). A pair of LBIST slices of a DRY reach ends and its signatures are compared. -/
def execLbistSliceEnd (ok0 ok1 : Bool) (sig0 sig1 : Word) (s : State) : Out := onDie (lbistSliceEnd ok0 ok1 sig0 sig1) s

/-- MBIST_END (R488). MBIST and soft repair of a DRY reach end. -/
def execMbistEnd (bad : List (Nat × Bool × Nat)) (s : State) : Out := onDie (mbistEnd bad) s

/-- RELOAD_END (R192). RELOAD of a DRY reach ends with memory initialised and firmware loaded. -/
def execReloadEnd (s : State) : Out := inBlock reloadEnd s

/-- FILL_START (R192). At H_(j+1) − 20 ms the spare leaves WAITFILL and becomes FILLING. -/
def execFillStart (s : State) : Out := inBlock fillStart s

/-- FILL_ROUND_END (R193). A fill round copying dirty lines to the FILLING reach ends. -/
def execFillRoundEnd (s : State) : Out := onDie fillRoundEnd s

/-- ROTATION_LATE (R201). No handover by the target plus ROTLATE raises ROTLATE. -/
def execRotationLate (s : State) : Out := inBlock rotationLate s

/-- REACH_LATENT (R201). A reach goes more than 1.2 s without passing a test. -/
def execReachLatent (n : Fin 5) (s : State) : Out := inBlock (reachLatent n) s

/-- EMERGENCY_HANDOVER_END (R201). The emergency copy ends and the role map changes. -/
def execEmergencyHandoverEnd (s : State) : Out := onDie (fun s => goOn (emergencyEnd s)) s

/-- FW_STAGE (R203). LKH_FWCTL.STAGE names a firmware version to load into inactive halves. -/
def execFwStage (who : Who) (src : Fin 2) (s : State) : Out := onRegs (busWrite who A.LKH_FWCTL (1 + 256 * src)) s

/-- FW_SWITCH (R204). LKH_FWCTL.SWITCH starts switching firmware halves group by group. -/
def execFwSwitch (who : Who) (s : State) : Out := onRegs (writeBit who A.LKH_FWCTL 1 true) s

/-- FW_ABORT (R203). LKH_FWCTL.ABORT drops the staged version unless a switch has begun. -/
def execFwAbort (who : Who) (s : State) : Out := onRegs (writeBit who A.LKH_FWCTL 2 true) s

/-- FW_SWITCH_GAP (R204). At an eligible instant a role group is drained, its halves flipped and its cores resumed. -/
def execFwSwitchGap (r : Fin 4) (s : State) : Out := onDie (fwSwitchGap r) s

/-- SPARE_RETEST (R192). With no step pending, a spare in WAITFILL starts its POWER to RELOAD phases again every 200 ms. -/
def execSpareRetest (s : State) : Out := inBlock spareRetest s

end Sys2Proof.Machine
end

