-- ==== Sys2Proof/Machine/RowsScan.lean ====
section
/-! DEFINITION. The commands of the scan cycle (05_scan_cycle). -/

namespace Sys2Proof.Machine

/-- COMPARE_MATCH (R278). An armed compare unit matches its target and fires its destinations, advancing CMP when periodic.
-/
def execCompareMatch (u : Fin 32) (s : State) : Out := onDie (compareMatch u) s

/-- EVENT_TRIGGER (R144). An event source fires for an event task, which latches, holds the trigger or loses it. -/
def execEventTrigger (src : Fin 1024) (s : State) : Out := inBlock (eventTrigger src) s

/-- HELD_TRIGGER_ACCEPT (R144). A held event trigger is accepted at the first instant the task is in WAIT and its minimum
interval has passed. -/
def execHeldTriggerAccept (t : Fin 32) (s : State) : Out := onDie (heldTrigger t) s

/-- SNAPSHOT_COPY_END (R150). The Lockhouse finishes copying the context block and snapshot ranges into the task's roles. -/
def execSnapshotCopyEnd (t : Fin 32) (s : State) : Out := onDie (snapshotEndPair t) s

/-- COMMIT_START (R155). At S the SCN checks every role's DONE count and then reads, compares and forces the commit ranges.
-/
def execCommitStart (t : Fin 32) (s : State) : Out := onDie (commitStarts t) s

/-- COMMIT_END (R155). The commit buffer has been written into the output image through the journal, and the commit ends. -/
def execCommitEnd (t : Fin 32) (s : State) : Out := onDie (commitEnds t) s

/-- COMMIT_DEADLINE (R155). A commit not ended at D stops control with cause COMMIT. -/
def execCommitDeadline (t : Fin 32) (s : State) : Out := onDie (commitDeadline t) s

/-- RETENTIVE_WRITE_START (R167). A queued retentive write begins by invalidating the target buffer's header. -/
def execRetentiveWriteStart (s : State) : Out := inBlock retStart s

/-- RETENTIVE_WRITE_END (R167). A retentive write ends by writing the new header with the next generation. -/
def execRetentiveWriteEnd (s : State) : Out := onDie (fun s => standbyNow (retEnd s)) s

/-- ABORT_TIMEOUT (R174). ABORTTMO after a stop, cores still running segment items are reset. -/
def execAbortTimeout (s : State) : Out := onDie abortTimeout s

/-- SCN_CMD_STOP (R173). SCN_CMD.STOP stops control with cause COMMAND. -/
def execScnCmdStop (who : Who) (s : State) : Out := onBus (busWrite who A.SCN_CMD 1) s

/-- WARM (R176). SCN_CMD.WARM restarts control, keeping forces and restoring retentive data from the newest valid buffer. -/
def execWarm (who : Who) (s : State) : Out := onBus (busWrite who A.SCN_CMD 2) s

/-- COLD (R176). SCN_CMD.COLD restarts control with initial values, cleared forces and freshly written retentive buffers. -/
def execCold (who : Who) (s : State) : Out := onBus (busWrite who A.SCN_CMD 4) s

/-- FORCE_SET (R170). SCN_FORCECMD SET forces the masked bits of one byte, or is refused on duplex bytes without SAFEEN. -/
def execForceSet (who : Who) (area : Fin 2) (off : Fin 0x20000) (s : State) : Out :=
  onBus (busWrite who A.SCN_FORCECMD (2 ^ 31 + area * 2 ^ 28 + off)) s

/-- FORCE_CLR (R170). SCN_FORCECMD CLR clears the masked force bits of one byte. -/
def execForceClr (who : Who) (area : Fin 2) (off : Fin 0x20000) (s : State) : Out :=
  onBus (busWrite who A.SCN_FORCECMD (2 ^ 31 + 2 ^ 29 + area * 2 ^ 28 + off)) s

/-- FORCE_CLRALL (R170). SCN_FORCECMD CLRALL clears every force of the selected area. -/
def execForceClrall (who : Who) (area : Fin 2) (s : State) : Out :=
  onBus (busWrite who A.SCN_FORCECMD (2 ^ 31 + 2 * 2 ^ 29 + area * 2 ^ 28)) s

/-- FORCE_LIST (R170). SCN_FORCECMD LIST applies a list of force entries read from memory as a whole, or changes nothing. -/
def execForceList (who : Who) (n : Fin 0x20000) (s : State) : Out :=
  onBus (busWrite who A.SCN_FORCECMD (2 ^ 31 + 3 * 2 ^ 29 + n)) s

/-- EDIT_OPEN (R180). SCN_EDITCTL.OPEN copies the active descriptor bank into the edit bank. -/
def execEditOpen (who : Who) (t : Fin 32) (s : State) : Out := onRegs (busWrite who A.SCN_EDITCTL (4 + 256 * t)) s

/-- EDIT_ARM (R181). SCN_EDITCTL.ARM arms the edit for SCN_EDITCYC, or marks it LATE. -/
def execEditArm (who : Who) (t : Fin 32) (s : State) : Out := onRegs (busWrite who A.SCN_EDITCTL (8 + 256 * t)) s

/-- EDIT_ABORT (R183). SCN_EDITCTL.ABORT discards an open or armed edit. -/
def execEditAbort (who : Who) (t : Fin 32) (s : State) : Out := onRegs (busWrite who A.SCN_EDITCTL (16 + 256 * t)) s

/-- TASK_PERIOD_WRITE (R142). A write of SCN_TASKn_PERIOD clamps the period and clamps PHASE and COMMITDL against it again.
-/
def execTaskPeriodWrite (who : Who) (t : Fin 32) (v : Word) (s : State) : Out :=
  onRegs (busWrite who (A.SCN_TASK_PERIOD t) v.toNat) s

end Sys2Proof.Machine
end

