-- ==== Sys2Proof/Machine/RowsSelf.lean ====
section
/-! DEFINITION. The commands of self-test and fault reaction (19_selftest_safety). -/

namespace Sys2Proof.Machine

/-- SHARED_SLICE_START (R489). A gap allows a shared block slice to freeze the block and save its state. -/
def execSharedSliceStart (k : Fin 88) (s : State) : Out := inBlock (sliceStart k) s

/-- SHARED_SLICE_END (R489). A shared slice ends, restoring and checking the state and comparing the signature. -/
def execSharedSliceEnd (restoreOk sigOk : Bool) (sig : Word) (s : State) : Out := onDie (sliceEnd restoreOk sigOk sig) s

/-- SHARED_LATENT (R491). A shared block goes 1.2 s without completing its slices. -/
def execSharedLatent (b : Fin 6) (s : State) : Out := inBlock (sharedLatent b) s

/-- LWD_EXPIRE (R497). The Lockhouse core misses its service loop for 2 ms. -/
def execLwdExpire (s : State) : Out := onDie lwdExpire s

/-- ROM_CRC_CHECK (R497). Every 100 ms the Lockhouse ROM CRC is checked. -/
def execRomCrcCheck (ok : Bool) (s : State) : Out := onDie (romCheck ok) s

/-- LOCKKEEPER_WATCHDOG (R497). An item ready 50 µs with an eligible core IDLE throughout. -/
def execLockkeeperWatchdog (k : Nat) (s : State) : Out := onDie (lockkeeperWatchdog k) s

/-- INTERCONNECT_WATCHDOG (R497). A local access receives no response for 200 µs. -/
def execInterconnectWatchdog (a : Word) (s : State) : Out := onDie (interconnectWatchdog a.toNat) s

/-- AWD_EXPIRE (R497). The application watchdog is not kicked within TMO ms. -/
def execAwdExpire (s : State) : Out := onDie awdExpire s

/-- AWD_KICK (R497). Writing 0x0000_5AA5 to LKH_AWDKICK restarts the application watchdog count. -/
def execAwdKick (who : Who) (key : Word) (s : State) : Out := onRegs (busWrite who A.LKH_AWDKICK key.toNat) s

/-- FCLR (R498). LKH_FCLR.GO clears each fault status bit whose condition has gone. -/
def execFclr (who : Who) (s : State) : Out := onRegs (busWrite who A.LKH_FCLR 1) s

/-- FUSE_REPAIR (R494). BST_FUSECMD fuses the unfused soft repairs, or is refused. -/
def execFuseRepair (who : Who) (s : State) : Out := onRegs (busWrite who A.BST_FUSECMD (2 ^ 31)) s

/-- MANUAL_TEST (R496). BST_MANCMD runs MBIST or LBIST on a named reach or memory, or is refused. -/
def execManualTest (who : Who) (kind : Fin 2) (mem : BitVec 8) (s : State) : Out :=
  onRegs (busWrite who A.BST_MANCMD (2 ^ 31 + kind * 2 ^ 24 + mem.toNat * 2 ^ 16)) s

/-- FAULT_LOG_WRITE (R533). A fault log entry's write completes in MRAM, advancing the pointer and raising LOGGED. -/
def execFaultLogWrite (s : State) : Out := inBlock faultLogWrite s

/-- RESTART_COMPLETE (R176). A warm or cold restart finishes its steps, and CSTATE goes from STARTING to RUN with CYCNO
reset. -/
def execRestartComplete (s : State) : Out := onDie restartComplete s

/-- MANUAL_TEST_END (R496). A manual MBIST or LBIST run started by BST_MANCMD ends and sets RESULT to PASS or FAIL. -/
def execManualTestEnd (pass : Bool) (slice : Nat) (bad : List (Nat × Bool × Nat)) (s : State) : Out :=
  inBlock (manualTestEnd pass slice bad) s

/-- DEBUG_PORT_ACCESS (R69). The debug port (initiator 55) makes an access, privileged in MANUFACTURE or RETURN, or requests
test at step 2. -/
def execDebugPortAccess (test isWr : Bool) (a v : Word) (s : State) : Out := onBus (debugAccess test isWr a v) s

/-- LOCKHOUSE_CORE_STOP (R531). The Lockhouse core stops, so rotation choices, new tests, staging and LKH, CFG and BST
commands halt while hardware engines go on. -/
def execLockhouseCoreStop (s : State) : Out := inBlock (modFaults (fun x => { x with coreStopped := true })) s

/-- TIME_COPY_MISMATCH (R490). The two copies of TIME differ at a tick, which is fault code 0x25 of class DEVICE. -/
def execTimeCopyMismatch (other : Nat) (s : State) : Out := onDie (timeCopyMismatch other) s

end Sys2Proof.Machine
end

