-- ==== Sys2Proof/Machine/RowsSys.lean ====
section
/-! DEFINITION. The commands of the system registers and clocks (02_registers). -/

namespace Sys2Proof.Machine

/-- REGISTER_WRITE (R58). A write to a register with no row of its own, at its plain or alias offset, with privilege,
clamping, locks and shadows applied. -/
def execRegisterWrite (who : Who) (a v : Word) (s : State) : Out := onBus (busWrite who a.toNat v.toNat) s

/-- EVENT_WRITE_BACK (R65). A write to an event status register clears the written event bits only when its EVSEQ matches. -/
def execEventWriteBack (who : Who) (a v : Word) (s : State) : Out :=
  onBus (fun s => if isEvent a.toNat then busWrite who a.toNat v.toNat s else s) s

/-- CLKMEAS_GO (R38). SYS_CLKMEAS.GO counts cycles of the selected clock over 1,000 reference cycles. -/
def execClkmeasGo (who : Who) (sel : Fin 16) (s : State) : Out := onRegs (busWrite who A.SYS_CLKMEAS (16 + sel)) s

/-- BUSERR_CLEAR (R75). SYS_BUSERRCTL.CLEAR zeroes the bus error log entries, NEXT and TOTAL. -/
def execBuserrClear (who : Who) (s : State) : Out := onRegs (busWrite who A.SYS_BUSERRCTL 1) s

/-- PLL_LOCK_LOSS (R526). A running, locked PLL loses lock, raising CLKFAIL and its fault reaction. -/
def execPllLockLoss (p : Fin 10) (s : State) : Out := onDie (pllLoss p) s

/-- REFOK_LOSS (R526). The MEMS reference fails its check and REFOK falls to 0. -/
def execRefokLoss (s : State) : Out := anyTime refLoss s

/-- REFERENCE_FAIL_TIMEOUT (R502). REFOK has been 0 for 100 µs, a DEVICE fault. -/
def execReferenceFailTimeout (s : State) : Out := onDie refTimeout s

/-- VFIELD_LOSS (R509). VFIELD is interrupted for longer than 1 ms, so the F-die stops with its outputs off and later
restarts under R287. -/
def execVfieldLoss (s : State) : Out := anyTime fdieDown s

/-- PLL_RELOCK (R417). A PLL that lost lock locks again, so the Beetles resume and the DEGRADED clock condition goes. -/
def execPllRelock (p : Fin 10) (s : State) : Out := inBlock (pllRelock p) s

/-- REFERENCE_RECOVERY (R526). The MEMS reference passes its check again and REFOK returns to 1, which cancels the 100 µs
DEVICE timer. -/
def execReferenceRecovery (s : State) : Out := anyTime refRecovery s

end Sys2Proof.Machine
end

