-- ==== Sys2Proof/Machine/RowsTime.lean ====
section
/-! DEFINITION. The commands of the time base (09_time_base). -/

namespace Sys2Proof.Machine

/-- SLEW_STEP (R274). After each multiple of 10,000 ns a tick applies 1 ns of the remaining slew, raising SLEWDONE at 0. -/
def execSlewStep (s : State) : Out := inBlock (fun s => if slewTick s then clockTick s else s) s

/-- TMB_INC_WRITE (R271). Writing the high word of TMB_INC sets a new clamped increment from the next tick. -/
def execTmbIncWrite (who : Who) (v : Word) (s : State) : Out := onRegs (busWrite who (A.TMB_INC + 4) v.toNat) s

/-- ADJ_SLEW (R274). TMB_ADJCMD.SLEW adds ADJ to SLEWREM. -/
def execAdjSlew (who : Who) (s : State) : Out := onRegs (busWrite who A.TMB_ADJCMD 2) s

/-- ADJ_STEP (R274). TMB_ADJCMD.STEP adds ADJ to TIME at the next tick, or ends with LOCKED. -/
def execAdjStep (who : Who) (s : State) : Out := onRegs (busWrite who A.TMB_ADJCMD 1) s

/-- HOLDOVER_ENTRY (R273). The time-base PLL loses lock and the counter advances from the Lockhouse RC. -/
def execHoldoverEntry (s : State) : Out := inBlock holdoverEntry s

/-- HOLDOVER_EXIT (R273). The time-base PLL regains lock and holdover ends. -/
def execHoldoverExit (s : State) : Out := inBlock holdoverExit s

/-- UNIT_CMP_WRITE (R278). A write of TMB_UNITu_CMP stores the target and arms a ONESHOT or PERIODIC unit, late when already
passed. -/
def execUnitCmpWrite (who : Who) (u : Fin 32) (v : Word) (s : State) : Out :=
  onRegs (busWrite who (A.TMB_UNIT_CMP u) v.toNat) s

/-- UNIT_CTL_WRITE (R278). A write of TMB_UNITu_CTL sets mode and destinations, arming the unit when it enters ONESHOT or
PERIODIC. -/
def execUnitCtlWrite (who : Who) (u : Fin 32) (v : Word) (s : State) : Out :=
  onRegs (busWrite who (A.TMB_UNIT_CTL u) v.toNat) s

/-- CAPNOW (R282). TMB_UNITu_CTL.CAPNOW captures TIME in a unit in CAPTURE with SRC 2. -/
def execCapnow (who : Who) (u : Fin 32) (s : State) : Out := onRegs (writeBit who (A.TMB_UNIT_CTL u) 8 true) s

/-- CAPTURE_EVENT (R282). A selected SYNC_IN edge, PTP SFD or CAN pulse copies TIME into a capture unit. -/
def execCaptureEvent (src : Fin 256) (s : State) : Out := inBlock (captureEvent src) s

/-- CAPT_HIGH_READ (R282). Reading the high word of CAPT clears VALID and OVR. -/
def execCaptHighRead (who : Who) (u : Fin 32) (s : State) : Out := onRegs (busRead who (A.TMB_UNIT_CAPT u + 4)) s

end Sys2Proof.Machine
end

