-- ==== Sys2Proof/Machine/RowsTow.lean ====
section
/-! DEFINITION. The commands of the Towpath sequencer (13_towpath). -/

namespace Sys2Proof.Machine

/-- TOW_ENABLE (R369). TOW_CTL.EN = 1 starts the sequencer with stations in WAITING and substitutes written. -/
def execTowEnable (who : Who) (s : State) : Out := onRegs (writeBit who A.TOW_CTL 31 true) s

/-- MASTER_FRAME_TX (R363). At C_k + TXOFF the sequencer hands a GRANT, NULL or POLL for a due station to the Basin. -/
def execMasterFrameTx (a : Fin 256) (s : State) : Out := inBlock (masterFrame a) s

/-- TOW_REPLY_RX (R364). A station reply reaches the sequencer and is checked, with good REPLY inputs written to the image.
-/
def execTowReplyRx (s : State) : Out := inBlock towReply s

/-- REPLY_DEADLINE (R369). At a due station's RDL the cycle outcome moves its dropout state and quality. -/
def execReplyDeadline (a : Fin 256) (s : State) : Out := onDie (replyDeadline a) s

/-- CLAIM_RX (R372). A CLAIM arrives and binds a spare entry or is refused. -/
def execClaimRx (s : State) : Out := inBlock claimRx s

/-- REGRANT (R372). TOW_CMD REGRANT puts a station entry into WAITING. -/
def execRegrant (who : Who) (a : Fin 256) (s : State) : Out := onRegs (busWrite who A.TOW_CMD (2 ^ 31 + a)) s

/-- TOW_RELEASE (R373). TOW_CMD RELEASE returns a bound spare to SPARE. -/
def execTowRelease (who : Who) (a : Fin 256) (s : State) : Out := onRegs (busWrite who A.TOW_CMD (2 ^ 31 + 2 ^ 29 + a)) s

/-- SILENT_FOLLOW (R380). A silent sequencer follows a primary master frame's cycle counter and CONSEC. -/
def execSilentFollow (s : State) : Out := inBlock silentFollow s

end Sys2Proof.Machine
end

