-- ==== Sys2Proof/Machine/RowsWeevil.lean ====
section
/-! DEFINITION. The memory, branch, stack, bit, item and control instructions of a Weevil core (04_weevil_instructions). -/

namespace Sys2Proof.Machine

/-- LDW (R129). Loads a word. -/
def execLdw (i : Fin 40) (d b : Fin 16) (disp : BitVec 16) (s : State) : Out := onDie (weevil i (.load .ldw d b disp)) s

/-- LDH (R129). Loads a sign-extended half-word. -/
def execLdh (i : Fin 40) (d b : Fin 16) (disp : BitVec 16) (s : State) : Out := onDie (weevil i (.load .ldh d b disp)) s

/-- LDHU (R129). Loads a zero-extended half-word. -/
def execLdhu (i : Fin 40) (d b : Fin 16) (disp : BitVec 16) (s : State) : Out := onDie (weevil i (.load .ldhu d b disp)) s

/-- LDB (R129). Loads a sign-extended byte. -/
def execLdb (i : Fin 40) (d b : Fin 16) (disp : BitVec 16) (s : State) : Out := onDie (weevil i (.load .ldb d b disp)) s

/-- LDBU (R129). Loads a zero-extended byte. -/
def execLdbu (i : Fin 40) (d b : Fin 16) (disp : BitVec 16) (s : State) : Out := onDie (weevil i (.load .ldbu d b disp)) s

/-- STW (R129). Stores a word, at once to the own-reach alias or through the store buffer. -/
def execStw (i : Fin 40) (r b : Fin 16) (disp : BitVec 16) (s : State) : Out := onDie (weevil i (.store .stw r b disp)) s

/-- STH (R129). Stores a half-word. -/
def execSth (i : Fin 40) (r b : Fin 16) (disp : BitVec 16) (s : State) : Out := onDie (weevil i (.store .sth r b disp)) s

/-- STB (R129). Stores a byte. -/
def execStb (i : Fin 40) (r b : Fin 16) (disp : BitVec 16) (s : State) : Out := onDie (weevil i (.store .stb r b disp)) s

/-- BCC (R131). Branches when the condition holds. -/
def execBcc (i : Fin 40) (cond : Fin 15) (disp : BitVec 22) (s : State) : Out := onDie (weevil i (.bcc cond disp)) s

/-- CALL (R132). Pushes the return address and branches. -/
def execCall (i : Fin 40) (disp : BitVec 26) (s : State) : Out := onDie (weevil i (.call disp)) s

/-- JMP (R132). Jumps to a register address. -/
def execJmp (i : Fin 40) (a : Fin 16) (s : State) : Out := onDie (weevil i (.jmp a)) s

/-- CALLR (R132). Pushes the return address and jumps to a register address. -/
def execCallr (i : Fin 40) (a : Fin 16) (s : State) : Out := onDie (weevil i (.callr a)) s

/-- RET (R92). Pops and checks a return address and returns. -/
def execRet (i : Fin 40) (s : State) : Out := onDie (weevil i .ret) s

/-- BJT (R133). Branches when BACC is 1. -/
def execBjt (i : Fin 40) (disp : BitVec 22) (s : State) : Out := onDie (weevil i (.bj true disp)) s

/-- BJF (R133). Branches when BACC is 0. -/
def execBjf (i : Fin 40) (disp : BitVec 22) (s : State) : Out := onDie (weevil i (.bj false disp)) s

/-- PUSH (R87). Pushes a register onto the data stack, spilling when full. -/
def execPush (i : Fin 40) (a : Fin 16) (s : State) : Out := onDie (weevil i (.push a)) s

/-- POP (R87). Pops the data stack, filling when empty. -/
def execPop (i : Fin 40) (d : Fin 16) (s : State) : Out := onDie (weevil i (.pop d)) s

/-- BLD (R134). Loads a bit into BACC and opens a string. -/
def execBld (i : Fin 40) (b : Fin 16) (disp : BitVec 13) (k : Fin 8) (s : State) : Out :=
  onDie (weevil i (.bitm .bld b disp k)) s

/-- BLDN (R134). Loads an inverted bit into BACC. -/
def execBldn (i : Fin 40) (b : Fin 16) (disp : BitVec 13) (k : Fin 8) (s : State) : Out :=
  onDie (weevil i (.bitm .bldn b disp k)) s

/-- BAND (R134). ANDs a bit into BACC or loads it. -/
def execBand (i : Fin 40) (b : Fin 16) (disp : BitVec 13) (k : Fin 8) (s : State) : Out :=
  onDie (weevil i (.bitm .band b disp k)) s

/-- BANDN (R134). ANDs an inverted bit into BACC or loads it. -/
def execBandn (i : Fin 40) (b : Fin 16) (disp : BitVec 13) (k : Fin 8) (s : State) : Out :=
  onDie (weevil i (.bitm .bandn b disp k)) s

/-- BOR (R134). ORs a bit into BACC or loads it. -/
def execBor (i : Fin 40) (b : Fin 16) (disp : BitVec 13) (k : Fin 8) (s : State) : Out :=
  onDie (weevil i (.bitm .bor b disp k)) s

/-- BORN (R134). ORs an inverted bit into BACC or loads it. -/
def execBorn (i : Fin 40) (b : Fin 16) (disp : BitVec 13) (k : Fin 8) (s : State) : Out :=
  onDie (weevil i (.bitm .born b disp k)) s

/-- BXOR (R134). XORs a bit into BACC or loads it. -/
def execBxor (i : Fin 40) (b : Fin 16) (disp : BitVec 13) (k : Fin 8) (s : State) : Out :=
  onDie (weevil i (.bitm .bxor b disp k)) s

/-- BXORN (R134). XORs an inverted bit into BACC or loads it. -/
def execBxorn (i : Fin 40) (b : Fin 16) (disp : BitVec 13) (k : Fin 8) (s : State) : Out :=
  onDie (weevil i (.bitm .bxorn b disp k)) s

/-- BST (R134). Writes BACC to a bit and closes the string. -/
def execBst (i : Fin 40) (b : Fin 16) (disp : BitVec 13) (k : Fin 8) (s : State) : Out :=
  onDie (weevil i (.bitm .bst b disp k)) s

/-- BSET (R135). Sets a bit when BACC is 1 and closes the string. -/
def execBset (i : Fin 40) (b : Fin 16) (disp : BitVec 13) (k : Fin 8) (s : State) : Out :=
  onDie (weevil i (.bitm .bset b disp k)) s

/-- BRST (R135). Clears a bit when BACC is 1 and closes the string. -/
def execBrst (i : Fin 40) (b : Fin 16) (disp : BitVec 13) (k : Fin 8) (s : State) : Out :=
  onDie (weevil i (.bitm .brst b disp k)) s

/-- BPOS (R134). Rising-edge detector using an edge memory bit. -/
def execBpos (i : Fin 40) (b : Fin 16) (disp : BitVec 13) (k : Fin 8) (s : State) : Out :=
  onDie (weevil i (.bitm .bpos b disp k)) s

/-- BNEG (R134). Falling-edge detector using an edge memory bit. -/
def execBneg (i : Fin 40) (b : Fin 16) (disp : BitVec 13) (k : Fin 8) (s : State) : Out :=
  onDie (weevil i (.bitm .bneg b disp k)) s

/-- BNEST_A (R137). Opens an AND branch on the bit nesting stack. -/
def execBnestA (i : Fin 40) (s : State) : Out := onDie (weevil i (.bnest .and)) s

/-- BNEST_O (R137). Opens an OR branch on the bit nesting stack. -/
def execBnestO (i : Fin 40) (s : State) : Out := onDie (weevil i (.bnest .or)) s

/-- BNEST_X (R137). Opens an XOR branch on the bit nesting stack. -/
def execBnestX (i : Fin 40) (s : State) : Out := onDie (weevil i (.bnest .xor)) s

/-- BUNNEST (R137). Closes a branch and combines it with the saved string. -/
def execBunnest (i : Fin 40) (s : State) : Out := onDie (weevil i .bunnest) s

/-- BNOT (R137). Inverts BACC. -/
def execBnot (i : Fin 40) (s : State) : Out := onDie (weevil i .bnot) s

/-- NOP (R138). Does nothing. -/
def execNop (i : Fin 40) (s : State) : Out := onDie (weevil i .nop) s

/-- FENCE (R97). Waits until every buffered store has completed. -/
def execFence (i : Fin 40) (s : State) : Out := onDie (weevil i .fence) s

/-- SIG (R139). Waits for stores and sends a token to the Lockkeeper, or places it on the delay list. -/
def execSig (i : Fin 40) (a b : Fin 16) (s : State) : Out := onDie (weevil i (.sig a b)) s

/-- DONE (R107). Ends the work item, truncates the stacks and resumes a preempted item or requests the next one. -/
def execDone (i : Fin 40) (s : State) : Out := onDie (weevil i .done) s

/-- TRAP (R138). Raises TRAP with ARG8 in EADDR. -/
def execTrap (i : Fin 40) (n : BitVec 8) (s : State) : Out := onDie (weevil i (.trap n)) s

/-- BREAK (R138). Raises BREAK. -/
def execBreak (i : Fin 40) (s : State) : Out := onDie (weevil i .brk) s

/-- RFE (R111). Returns from an exception, restoring PC, STAT and BSTK. -/
def execRfe (i : Fin 40) (s : State) : Out := onDie (weevil i .rfe) s

/-- MFC (R81). Reads a control register. -/
def execMfc (i : Fin 40) (d : Fin 16) (c : BitVec 8) (s : State) : Out := onDie (weevil i (.mfc d c)) s

/-- MTC (R81). Writes a control register, with spills for stack pointers and substitution for BSTK. -/
def execMtc (i : Fin 40) (c : BitVec 8) (a : Fin 16) (s : State) : Out := onDie (weevil i (.mtc c a)) s

/-- ICINV (R138). Invalidates the core's I-cache. -/
def execIcinv (i : Fin 40) (s : State) : Out := onDie (weevil i .icinv) s

/-- UNDEFINED_ENCODING (R118). A Weevil core executes a word with an unlisted opcode, FUNC, BFN or COND, and ILLEGAL is
raised. -/
def execUndefinedEncoding (i : Fin 40) (s : State) : Out := onDie (runCore i (fun _ => false)) s

end Sys2Proof.Machine
end

