-- ==== Sys2Proof/Machine/RowsWorri.lean ====
section
/-! DEFINITION. The commands of the Worri fabric (16_worri). -/

namespace Sys2Proof.Machine

/-- WORRI_LINK_ENABLE (R420). Enabling a link starts training and LINKUP exchange. -/
def execWorriLinkEnable (who : Who) (n : Fin 4) (s : State) : Out :=
  onRegs (fun s => busWrite who A.WFB_CTL (putBits (withBit A.WFB_CTL 31 true s) (24 + n) 1 1) s) s

/-- LINKUP_TX (R420). Every 1 µs a training link sends LINKUP. -/
def execLinkupTx (n : Fin 4) (s : State) : Out := inBlock (linkupTx n) s

/-- LINK_ACTIVE (R420). A link with block lock, a received LINKUP and its own LINKUP acknowledged becomes ACTIVE. -/
def execLinkActive (n m : Fin 4) (polinv : Bool) (s : State) : Out := inBlock (linkActive n m polinv) s

/-- WORRI_LINK_DOWN (R420). Block errors, retrain, retry failure, LGASP or HELLO timeout take a link DOWN and it retrains. -/
def execWorriLinkDown (n : Fin 4 × List RxBlock) (s : State) : Out := inBlock (blocksRx n.1 n.2) s

/-- RETRAIN (R420). WFB_LINKn_CTL.RETRAIN takes a link DOWN and retrains it. -/
def execRetrain (who : Who) (n : Fin 4) (s : State) : Out := onRegs (writeBit who (A.WFB_LINK_CTL n) 2 true) s

/-- WORRI_PACKET_RX (R424). A packet arrives and is accepted in sequence, or NAKed and discarded. -/
def execWorriPacketRx (n : Fin 4) (p : Packet) (good : Bool) (s : State) : Out := inBlock (packetRx n p good) s

/-- ACK_TIMER (R424). After 64 received blocks or 500 ns the receiver sends ACK. -/
def execAckTimer (n : Fin 4) (s : State) : Out := inBlock (ackTimer n) s

/-- WORRI_ACK_RX (R424). An ACK frees acknowledged packets from the replay buffer. -/
def execWorriAckRx (n : Fin 4) (seq : Fin 4096) (s : State) : Out := inBlock (ackRx n seq) s

/-- WORRI_NAK_RX (R424). A NAK makes the transmitter replay unacknowledged packets. -/
def execWorriNakRx (n : Fin 4) (seq : Fin 4096) (s : State) : Out := inBlock (nakRx n seq) s

/-- WORRI_CREDIT_RX (R422). A CREDIT block or END returns channel credits to the transmitter. -/
def execWorriCreditRx (n : Fin 4) (vc : Fin 5) (blocks : Nat) (s : State) : Out := inBlock (creditRx n vc blocks) s

/-- REPLAY_TIMEOUT (R424). The oldest unacknowledged packet reaches 2 µs and is replayed, or the link fails after 8 replays.
-/
def execReplayTimeout (n : Fin 4) (s : State) : Out := inBlock (replayTimeout n) s

/-- LGASP_RX (R437). A good LGASP block takes the link DOWN, is logged and forwarded as LGFWD, and may declare the pair peer
lost. -/
def execLgaspRx (n : Fin 4) (v : BitVec 56) (s : State) : Out := onDie (fun s => gaspOf (lgaspRx n v.toNat s)) s

/-- LGFWD_RX (R437). An LGFWD message is logged, passed on along the tree and checked against the pair peer. -/
def execLgfwdRx (s : State) : Out := onDie (fun s => gaspOf (lgfwdRx s)) s

/-- HELLO_TX (R425). Every HELLO period each ACTIVE link sends a HELLO. -/
def execHelloTx (s : State) : Out := inBlock helloTx s

/-- HELLO_RX (R425). A HELLO updates the neighbour, root choice and parent link (log 17). -/
def execHelloRx (s : State) : Out := inBlock helloRx s

/-- NEIGHBOUR_TIMEOUT (R426). No HELLO for NBRTMO periods loses the neighbour and takes its link DOWN. -/
def execNeighbourTimeout (n : Fin 4) (s : State) : Out := inBlock (nbrTimeout n) s

/-- ROOT_SETTLED (R426). The root has seen no change of root for 4 HELLO periods and starts a discovery round. -/
def execRootSettled (s : State) : Out := inBlock rootSettled s

/-- LINKCHG_RX (R426). A LINKCHG reaches the root and starts a discovery round. -/
def execLinkchgRx (s : State) : Out := inBlock linkchgRx s

/-- TOPO_RX (R426). A TOPO message is passed up the tree or collected by the root. -/
def execTopoRx (s : State) : Out := inBlock topoRx s

/-- TOPO_COLLECT_END (R426). The root's TOPO collection time ends and it assigns IDs, computes routes and sends ROUTE. -/
def execTopoCollectEnd (s : State) : Out := inBlock collectEnd s

/-- ASSIGN_RX (R428). An ASSIGN message gives devices their IDs for the next epoch. -/
def execAssignRx (s : State) : Out := inBlock assignRx s

/-- ROUTE_RX (R429). A ROUTE message delivers a device's next routing table, answered by ROUTEACK. -/
def execRouteRx (s : State) : Out := inBlock routeRx s

/-- ROUTEACK_RX (R426). A ROUTEACK reaches the root, which broadcasts COMMIT once all have answered. -/
def execRouteackRx (s : State) : Out := inBlock routeackRx s

/-- COMMIT_RX (R426). COMMIT applies the new table, tree links and epoch and flushes Worri MAC entries. -/
def execCommitRx (s : State) : Out := inBlock commitRx s

/-- TSYNC_TIMER (R434). Every TSYNC µs a device measures its parent link delay with TIMEREQ. -/
def execTsyncTimer (s : State) : Out := inBlock tsyncTimer s

/-- TIMEREQ_RX (R434). A TIMEREQ is answered with TIMERESP. -/
def execTimereqRx (s : State) : Out := inBlock timeReqRx s

/-- TIMERESP_RX (R434). A TIMERESP gives the link delay, and the parent sends TIMESYNC. -/
def execTimerespRx (s : State) : Out := inBlock timeRespRx s

/-- TIMESYNC_RX (R435). A TIMESYNC gives the offset against the parent, and the WFB steers the time base. -/
def execTimesyncRx (s : State) : Out := inBlock timeSyncRx s

/-- RESETREQ_RX (R438). A RESETREQ resets the device when enabled and its UID matches, or is refused. -/
def execResetreqRx (s : State) : Out := onDie resetRequested s

/-- WFB_RSTCMD (R438). WFB_RSTCMD.GO sends RESETREQ to a target fabric ID. -/
def execWfbRstcmd (who : Who) (target : Fin 4096) (s : State) : Out := onRegs (busWrite who A.WFB_RSTCMD (2 ^ 31 + target)) s

/-- BLOCK_LOCK (R420). A training Worri link gains block lock on the incoming 64b/66b stream and starts sending LINKUP. -/
def execBlockLock (n : Fin 4) (s : State) : Out := inBlock (blockLock n) s

end Sys2Proof.Machine
end

