-- ==== Sys2Proof/Machine/Dispatch.lean ====
section
/-! DEFINITION. One arm per command. -/

namespace Sys2Proof.Machine

def exec (i : Instr) (s : State) : Host.Outcome State Fault Refusal :=
  match i with
  | .powerOn lost b => Sys2Proof.Machine.execPowerOn lost b s
  | .fieldCalibration fail => Sys2Proof.Machine.execFieldCalibration fail s
  | .supplyWarning vin => Sys2Proof.Machine.execSupplyWarning vin s
  | .supplyDipEnd vin => Sys2Proof.Machine.execSupplyDipEnd vin s
  | .brownout vin => Sys2Proof.Machine.execBrownout vin s
  | .resetN low b => Sys2Proof.Machine.execResetN low b s
  | .wakeN b => Sys2Proof.Machine.execWakeN b s
  | .standby who => Sys2Proof.Machine.execStandby who s
  | .pciDevrst who key => Sys2Proof.Machine.execPciDevrst who key s
  | .fieldLinkFrameTx pins ia ib => Sys2Proof.Machine.execFieldLinkFrameTx pins ia ib s
  | .fieldLinkFrameRx good => Sys2Proof.Machine.execFieldLinkFrameRx good s
  | .fieldLinkLoss => Sys2Proof.Machine.execFieldLinkLoss s
  | .fDieFrameRx good sound => Sys2Proof.Machine.execFDieFrameRx good sound s
  | .silenceWatchdog => Sys2Proof.Machine.execSilenceWatchdog s
  | .fDiePowerUp => Sys2Proof.Machine.execFDiePowerUp s
  | .fDieCommitInstant c => Sys2Proof.Machine.execFDieCommitInstant c s
  | .fioRegisterWrite who r v => Sys2Proof.Machine.execFioRegisterWrite who r v s
  | .rawInputTransition i1 v => Sys2Proof.Machine.execRawInputTransition i1 v s
  | .filterAccept i1 => Sys2Proof.Machine.execFilterAccept i1 s
  | .pulsedSample g levels => Sys2Proof.Machine.execPulsedSample g levels s
  | .fioEdgeRead who => Sys2Proof.Machine.execFioEdgeRead who s
  | .outputFault n code present => Sys2Proof.Machine.execOutputFault n code present s
  | .groupTrip load => Sys2Proof.Machine.execGroupTrip load s
  | .autoRestartRetry n => Sys2Proof.Machine.execAutoRestartRetry n s
  | .darkTestPulse n low => Sys2Proof.Machine.execDarkTestPulse n low s
  | .edgeflush who => Sys2Proof.Machine.execEdgeflush who s
  | .grprst who => Sys2Proof.Machine.execGrprst who s
  | .faultack who => Sys2Proof.Machine.execFaultack who s
  | .aiRoundComplete vals => Sys2Proof.Machine.execAiRoundComplete vals s
  | .voutChange g present => Sys2Proof.Machine.execVoutChange g present s
  | .compareMatch u => Sys2Proof.Machine.execCompareMatch u s
  | .eventTrigger src => Sys2Proof.Machine.execEventTrigger src s
  | .heldTriggerAccept t => Sys2Proof.Machine.execHeldTriggerAccept t s
  | .snapshotCopyEnd t => Sys2Proof.Machine.execSnapshotCopyEnd t s
  | .commitStart t => Sys2Proof.Machine.execCommitStart t s
  | .commitEnd t => Sys2Proof.Machine.execCommitEnd t s
  | .commitDeadline t => Sys2Proof.Machine.execCommitDeadline t s
  | .retentiveWriteStart => Sys2Proof.Machine.execRetentiveWriteStart s
  | .retentiveWriteEnd => Sys2Proof.Machine.execRetentiveWriteEnd s
  | .abortTimeout => Sys2Proof.Machine.execAbortTimeout s
  | .scnCmdStop who => Sys2Proof.Machine.execScnCmdStop who s
  | .warm who => Sys2Proof.Machine.execWarm who s
  | .cold who => Sys2Proof.Machine.execCold who s
  | .forceSet who area off => Sys2Proof.Machine.execForceSet who area off s
  | .forceClr who area off => Sys2Proof.Machine.execForceClr who area off s
  | .forceClrall who area => Sys2Proof.Machine.execForceClrall who area s
  | .forceList who n => Sys2Proof.Machine.execForceList who n s
  | .editOpen who t => Sys2Proof.Machine.execEditOpen who t s
  | .editArm who t => Sys2Proof.Machine.execEditArm who t s
  | .editAbort who t => Sys2Proof.Machine.execEditAbort who t s
  | .taskPeriodWrite who t v => Sys2Proof.Machine.execTaskPeriodWrite who t v s
  | .registerWrite who a v => Sys2Proof.Machine.execRegisterWrite who a v s
  | .eventWriteBack who a v => Sys2Proof.Machine.execEventWriteBack who a v s
  | .clkmeasGo who sel => Sys2Proof.Machine.execClkmeasGo who sel s
  | .buserrClear who => Sys2Proof.Machine.execBuserrClear who s
  | .pllLockLoss p => Sys2Proof.Machine.execPllLockLoss p s
  | .refokLoss => Sys2Proof.Machine.execRefokLoss s
  | .referenceFailTimeout => Sys2Proof.Machine.execReferenceFailTimeout s
  | .add i1 f d a b => Sys2Proof.Machine.execAdd i1 f d a b s
  | .sub i1 f d a b => Sys2Proof.Machine.execSub i1 f d a b s
  | .adc i1 f d a b => Sys2Proof.Machine.execAdc i1 f d a b s
  | .sbc i1 f d a b => Sys2Proof.Machine.execSbc i1 f d a b s
  | .and i1 f d a b => Sys2Proof.Machine.execAnd i1 f d a b s
  | .or i1 f d a b => Sys2Proof.Machine.execOr i1 f d a b s
  | .xor i1 f d a b => Sys2Proof.Machine.execXor i1 f d a b s
  | .andn i1 f d a b => Sys2Proof.Machine.execAndn i1 f d a b s
  | .shl i1 f d a b => Sys2Proof.Machine.execShl i1 f d a b s
  | .shr i1 f d a b => Sys2Proof.Machine.execShr i1 f d a b s
  | .sar i1 f d a b => Sys2Proof.Machine.execSar i1 f d a b s
  | .ror i1 f d a b => Sys2Proof.Machine.execRor i1 f d a b s
  | .addi i1 f d a x => Sys2Proof.Machine.execAddi i1 f d a x s
  | .andi i1 f d a x => Sys2Proof.Machine.execAndi i1 f d a x s
  | .ori i1 f d a x => Sys2Proof.Machine.execOri i1 f d a x s
  | .xori i1 f d a x => Sys2Proof.Machine.execXori i1 f d a x s
  | .cmpi i1 a x => Sys2Proof.Machine.execCmpi i1 a x s
  | .lui i1 d x => Sys2Proof.Machine.execLui i1 d x s
  | .shli i1 f d a n => Sys2Proof.Machine.execShli i1 f d a n s
  | .shri i1 f d a n => Sys2Proof.Machine.execShri i1 f d a n s
  | .sari i1 f d a n => Sys2Proof.Machine.execSari i1 f d a n s
  | .rori i1 f d a n => Sys2Proof.Machine.execRori i1 f d a n s
  | .clz i1 d a => Sys2Proof.Machine.execClz i1 d a s
  | .bfx i1 d a pos lenM1 => Sys2Proof.Machine.execBfx i1 d a pos lenM1 s
  | .bfxs i1 d a pos lenM1 => Sys2Proof.Machine.execBfxs i1 d a pos lenM1 s
  | .bfi i1 d a pos lenM1 => Sys2Proof.Machine.execBfi i1 d a pos lenM1 s
  | .bperm i1 d a b sel => Sys2Proof.Machine.execBperm i1 d a b sel s
  | .mul i1 f d a b => Sys2Proof.Machine.execMul i1 f d a b s
  | .mulhs i1 f d a b => Sys2Proof.Machine.execMulhs i1 f d a b s
  | .mulhu i1 f d a b => Sys2Proof.Machine.execMulhu i1 f d a b s
  | .divs i1 f d a b => Sys2Proof.Machine.execDivs i1 f d a b s
  | .divu i1 f d a b => Sys2Proof.Machine.execDivu i1 f d a b s
  | .rems i1 f d a b => Sys2Proof.Machine.execRems i1 f d a b s
  | .remu i1 f d a b => Sys2Proof.Machine.execRemu i1 f d a b s
  | .ldw i1 d b disp => Sys2Proof.Machine.execLdw i1 d b disp s
  | .ldh i1 d b disp => Sys2Proof.Machine.execLdh i1 d b disp s
  | .ldhu i1 d b disp => Sys2Proof.Machine.execLdhu i1 d b disp s
  | .ldb i1 d b disp => Sys2Proof.Machine.execLdb i1 d b disp s
  | .ldbu i1 d b disp => Sys2Proof.Machine.execLdbu i1 d b disp s
  | .stw i1 r b disp => Sys2Proof.Machine.execStw i1 r b disp s
  | .sth i1 r b disp => Sys2Proof.Machine.execSth i1 r b disp s
  | .stb i1 r b disp => Sys2Proof.Machine.execStb i1 r b disp s
  | .bcc i1 cond disp => Sys2Proof.Machine.execBcc i1 cond disp s
  | .call i1 disp => Sys2Proof.Machine.execCall i1 disp s
  | .jmp i1 a => Sys2Proof.Machine.execJmp i1 a s
  | .callr i1 a => Sys2Proof.Machine.execCallr i1 a s
  | .ret i1 => Sys2Proof.Machine.execRet i1 s
  | .bjt i1 disp => Sys2Proof.Machine.execBjt i1 disp s
  | .bjf i1 disp => Sys2Proof.Machine.execBjf i1 disp s
  | .push i1 a => Sys2Proof.Machine.execPush i1 a s
  | .pop i1 d => Sys2Proof.Machine.execPop i1 d s
  | .bld i1 b disp k => Sys2Proof.Machine.execBld i1 b disp k s
  | .bldn i1 b disp k => Sys2Proof.Machine.execBldn i1 b disp k s
  | .band i1 b disp k => Sys2Proof.Machine.execBand i1 b disp k s
  | .bandn i1 b disp k => Sys2Proof.Machine.execBandn i1 b disp k s
  | .bor i1 b disp k => Sys2Proof.Machine.execBor i1 b disp k s
  | .born i1 b disp k => Sys2Proof.Machine.execBorn i1 b disp k s
  | .bxor i1 b disp k => Sys2Proof.Machine.execBxor i1 b disp k s
  | .bxorn i1 b disp k => Sys2Proof.Machine.execBxorn i1 b disp k s
  | .bst i1 b disp k => Sys2Proof.Machine.execBst i1 b disp k s
  | .bset i1 b disp k => Sys2Proof.Machine.execBset i1 b disp k s
  | .brst i1 b disp k => Sys2Proof.Machine.execBrst i1 b disp k s
  | .bpos i1 b disp k => Sys2Proof.Machine.execBpos i1 b disp k s
  | .bneg i1 b disp k => Sys2Proof.Machine.execBneg i1 b disp k s
  | .bnestA i1 => Sys2Proof.Machine.execBnestA i1 s
  | .bnestO i1 => Sys2Proof.Machine.execBnestO i1 s
  | .bnestX i1 => Sys2Proof.Machine.execBnestX i1 s
  | .bunnest i1 => Sys2Proof.Machine.execBunnest i1 s
  | .bnot i1 => Sys2Proof.Machine.execBnot i1 s
  | .nop i1 => Sys2Proof.Machine.execNop i1 s
  | .fence i1 => Sys2Proof.Machine.execFence i1 s
  | .sig i1 a b => Sys2Proof.Machine.execSig i1 a b s
  | .done i1 => Sys2Proof.Machine.execDone i1 s
  | .trap i1 n => Sys2Proof.Machine.execTrap i1 n s
  | .breakI i1 => Sys2Proof.Machine.execBreak i1 s
  | .rfe i1 => Sys2Proof.Machine.execRfe i1 s
  | .mfc i1 d c => Sys2Proof.Machine.execMfc i1 d c s
  | .mtc i1 c a => Sys2Proof.Machine.execMtc i1 c a s
  | .icinv i1 => Sys2Proof.Machine.execIcinv i1 s
  | .storeComplete i1 => Sys2Proof.Machine.execStoreComplete i1 s
  | .preemptAccept i1 => Sys2Proof.Machine.execPreemptAccept i1 s
  | .coreReset who i1 => Sys2Proof.Machine.execCoreReset who i1 s
  | .coreIcinv who i1 => Sys2Proof.Machine.execCoreIcinv who i1 s
  | .coreDrain who i1 => Sys2Proof.Machine.execCoreDrain who i1 s
  | .coreStep who i1 => Sys2Proof.Machine.execCoreStep who i1 s
  | .coreResume who i1 => Sys2Proof.Machine.execCoreResume who i1 s
  | .coreHalt who i1 => Sys2Proof.Machine.execCoreHalt who i1 s
  | .tokenAccept i1 => Sys2Proof.Machine.execTokenAccept i1 s
  | .overflowMatch => Sys2Proof.Machine.execOverflowMatch s
  | .sourceAccept => Sys2Proof.Machine.execSourceAccept s
  | .starve k => Sys2Proof.Machine.execStarve k s
  | .delayRelease => Sys2Proof.Machine.execDelayRelease s
  | .dlycmdGo who => Sys2Proof.Machine.execDlycmdGo who s
  | .swsrcRaise who bits => Sys2Proof.Machine.execSwsrcRaise who bits s
  | .gateWrite who n b v => Sys2Proof.Machine.execGateWrite who n b v s
  | .circularWindowWrite who n w v => Sys2Proof.Machine.execCircularWindowWrite who n w v s
  | .scrub mem k err => Sys2Proof.Machine.execScrub mem k err s
  | .dmaTailWrite who n v => Sys2Proof.Machine.execDmaTailWrite who n v s
  | .dmaDescriptorEnd n => Sys2Proof.Machine.execDmaDescriptorEnd n s
  | .dmaStop who n => Sys2Proof.Machine.execDmaStop who n s
  | .dmaResume who n => Sys2Proof.Machine.execDmaResume who n s
  | .park who n => Sys2Proof.Machine.execPark who n s
  | .reachWake n => Sys2Proof.Machine.execReachWake n s
  | .mbxTxWrite who m v => Sys2Proof.Machine.execMbxTxWrite who m v s
  | .mbxRxRead who m => Sys2Proof.Machine.execMbxRxRead who m s
  | .mbxGo who m => Sys2Proof.Machine.execMbxGo who m s
  | .mbxRelease who m => Sys2Proof.Machine.execMbxRelease who m s
  | .mbxAbort who m => Sys2Proof.Machine.execMbxAbort who m s
  | .mbxFlush who m => Sys2Proof.Machine.execMbxFlush who m s
  | .mbxCfgWrite who m v => Sys2Proof.Machine.execMbxCfgWrite who m v s
  | .epochBump who r => Sys2Proof.Machine.execEpochBump who r s
  | .slewStep => Sys2Proof.Machine.execSlewStep s
  | .tmbIncWrite who v => Sys2Proof.Machine.execTmbIncWrite who v s
  | .adjSlew who => Sys2Proof.Machine.execAdjSlew who s
  | .adjStep who => Sys2Proof.Machine.execAdjStep who s
  | .holdoverEntry => Sys2Proof.Machine.execHoldoverEntry s
  | .holdoverExit => Sys2Proof.Machine.execHoldoverExit s
  | .unitCmpWrite who u v => Sys2Proof.Machine.execUnitCmpWrite who u v s
  | .unitCtlWrite who u v => Sys2Proof.Machine.execUnitCtlWrite who u v s
  | .capnow who u => Sys2Proof.Machine.execCapnow who u s
  | .captureEvent src => Sys2Proof.Machine.execCaptureEvent src s
  | .captHighRead who u => Sys2Proof.Machine.execCaptHighRead who u s
  | .frameIngress src => Sys2Proof.Machine.execFrameIngress src s
  | .frameEnqueue src => Sys2Proof.Machine.execFrameEnqueue src s
  | .frameDispatch dest hi => Sys2Proof.Machine.execFrameDispatch dest hi s
  | .frameHandoff dest hi => Sys2Proof.Machine.execFrameHandoff dest hi s
  | .ageCheck => Sys2Proof.Machine.execAgeCheck s
  | .planeStall k sound => Sys2Proof.Machine.execPlaneStall k sound s
  | .planeEnWrite who v => Sys2Proof.Machine.execPlaneEnWrite who v s
  | .planeDrained k => Sys2Proof.Machine.execPlaneDrained k s
  | .planeRestore who => Sys2Proof.Machine.execPlaneRestore who s
  | .macAgeSweep => Sys2Proof.Machine.execMacAgeSweep s
  | .macRead who i1 => Sys2Proof.Machine.execMacRead who i1 s
  | .macLookup who => Sys2Proof.Machine.execMacLookup who s
  | .macWrite who => Sys2Proof.Machine.execMacWrite who s
  | .macDelete who => Sys2Proof.Machine.execMacDelete who s
  | .macFlush who all => Sys2Proof.Machine.execMacFlush who all s
  | .hseedWrite who v => Sys2Proof.Machine.execHseedWrite who v s
  | .ringRpWrite who k v => Sys2Proof.Machine.execRingRpWrite who k v s
  | .txRingWpWrite who r v => Sys2Proof.Machine.execTxRingWpWrite who r v s
  | .ringResume who tx k => Sys2Proof.Machine.execRingResume who tx k s
  | .ethEnable who p => Sys2Proof.Machine.execEthEnable who p s
  | .ethDisable who p => Sys2Proof.Machine.execEthDisable who p s
  | .linkUp p fast master => Sys2Proof.Machine.execLinkUp p fast master s
  | .linkLoss p => Sys2Proof.Machine.execLinkLoss p s
  | .macFrameRx p bs good clean fec => Sys2Proof.Machine.execMacFrameRx p bs good clean fec s
  | .macFrameTx p busy => Sys2Proof.Machine.execMacFrameTx p busy s
  | .collision p cd => Sys2Proof.Machine.execCollision p cd s
  | .backoffEnd p busy => Sys2Proof.Machine.execBackoffEnd p busy s
  | .plcaBeacon p => Sys2Proof.Machine.execPlcaBeacon p s
  | .plcaOpportunity p node => Sys2Proof.Machine.execPlcaOpportunity p node s
  | .beaconTimeout p => Sys2Proof.Machine.execBeaconTimeout p s
  | .tsFifoRead who p tx => Sys2Proof.Machine.execTsFifoRead who p tx s
  | .statsRead who p r => Sys2Proof.Machine.execStatsRead who p r s
  | .stnRead who p w => Sys2Proof.Machine.execStnRead who p w s
  | .sqiUpdate p sqi => Sys2Proof.Machine.execSqiUpdate p sqi s
  | .cableTest who p => Sys2Proof.Machine.execCableTest who p s
  | .cableTestEnd p result dist => Sys2Proof.Machine.execCableTestEnd p result dist s
  | .towEnable who => Sys2Proof.Machine.execTowEnable who s
  | .masterFrameTx a => Sys2Proof.Machine.execMasterFrameTx a s
  | .towReplyRx => Sys2Proof.Machine.execTowReplyRx s
  | .replyDeadline a => Sys2Proof.Machine.execReplyDeadline a s
  | .claimRx => Sys2Proof.Machine.execClaimRx s
  | .regrant who a => Sys2Proof.Machine.execRegrant who a s
  | .towRelease who a => Sys2Proof.Machine.execTowRelease who a s
  | .silentFollow => Sys2Proof.Machine.execSilentFollow s
  | .canFrameValid n f ago => Sys2Proof.Machine.execCanFrameValid n f ago s
  | .imageSlotAge n k => Sys2Proof.Machine.execImageSlotAge n k s
  | .canTxreq who n mask => Sys2Proof.Machine.execCanTxreq who n mask s
  | .canTxcan who n mask => Sys2Proof.Machine.execCanTxcan who n mask s
  | .canTxEnd n r ago tdcv => Sys2Proof.Machine.execCanTxEnd n r ago tdcv s
  | .canError n kind data place runs => Sys2Proof.Machine.execCanError n kind data place runs s
  | .busOffRecoveryEnd n => Sys2Proof.Machine.execBusOffRecoveryEnd n s
  | .canRecover who n => Sys2Proof.Machine.execCanRecover who n s
  | .protocolException n => Sys2Proof.Machine.execProtocolException n s
  | .canEnable who n => Sys2Proof.Machine.execCanEnable who n s
  | .canDisable n => Sys2Proof.Machine.execCanDisable n s
  | .canModeChange n => Sys2Proof.Machine.execCanModeChange n s
  | .xcap who n => Sys2Proof.Machine.execXcap who n s
  | .xcapAuto n => Sys2Proof.Machine.execXcapAuto n s
  | .goto e ext => Sys2Proof.Machine.execGoto e ext s
  | .loop e => Sys2Proof.Machine.execLoop e s
  | .clockOut e ext => Sys2Proof.Machine.execClockOut e ext s
  | .clockIn e ext => Sys2Proof.Machine.execClockIn e ext s
  | .clockDuplex e ext => Sys2Proof.Machine.execClockDuplex e ext s
  | .pinsetValues e => Sys2Proof.Machine.execPinsetValues e s
  | .pinsetDirections e => Sys2Proof.Machine.execPinsetDirections e s
  | .waitforLevel e ext => Sys2Proof.Machine.execWaitforLevel e ext s
  | .waitforEdge e ext => Sys2Proof.Machine.execWaitforEdge e ext s
  | .waitforFlag e => Sys2Proof.Machine.execWaitforFlag e s
  | .waitforTime e => Sys2Proof.Machine.execWaitforTime e s
  | .waitforMet e ext => Sys2Proof.Machine.execWaitforMet e ext s
  | .fifoTake e => Sys2Proof.Machine.execFifoTake e s
  | .fifoGive e => Sys2Proof.Machine.execFifoGive e s
  | .beetleStallResume e ext => Sys2Proof.Machine.execBeetleStallResume e ext s
  | .xformClear e => Sys2Proof.Machine.execXformClear e s
  | .xformInvert e => Sys2Proof.Machine.execXformInvert e s
  | .xformReverse e => Sys2Proof.Machine.execXformReverse e s
  | .xformGray e => Sys2Proof.Machine.execXformGray e s
  | .xformJustify e => Sys2Proof.Machine.execXformJustify e s
  | .xformSample e ext => Sys2Proof.Machine.execXformSample e ext s
  | .xformDrive e => Sys2Proof.Machine.execXformDrive e s
  | .xformStatus e => Sys2Proof.Machine.execXformStatus e s
  | .xformTok0 e => Sys2Proof.Machine.execXformTok0 e s
  | .xformTok1 e => Sys2Proof.Machine.execXformTok1 e s
  | .setk e => Sys2Proof.Machine.execSetk e s
  | .signalSet e => Sys2Proof.Machine.execSignalSet e s
  | .signalClr e => Sys2Proof.Machine.execSignalClr e s
  | .signalEvent e => Sys2Proof.Machine.execSignalEvent e s
  | .signalToggle e => Sys2Proof.Machine.execSignalToggle e s
  | .btlEnable who e => Sys2Proof.Machine.execBtlEnable who e s
  | .btlDisable who e => Sys2Proof.Machine.execBtlDisable who e s
  | .btlRestart who e => Sys2Proof.Machine.execBtlRestart who e s
  | .btlTxWrite who e v => Sys2Proof.Machine.execBtlTxWrite who e v s
  | .btlRxRead who e => Sys2Proof.Machine.execBtlRxRead who e s
  | .btlStoreWrite who c a v => Sys2Proof.Machine.execBtlStoreWrite who c a v s
  | .btlFlagsWrite who c v => Sys2Proof.Machine.execBtlFlagsWrite who c v s
  | .btlRxdmaBatch e => Sys2Proof.Machine.execBtlRxdmaBatch e s
  | .btlRxdmaAge e => Sys2Proof.Machine.execBtlRxdmaAge e s
  | .btlTxdmaBatch e => Sys2Proof.Machine.execBtlTxdmaBatch e s
  | .worriLinkEnable who n => Sys2Proof.Machine.execWorriLinkEnable who n s
  | .linkupTx n => Sys2Proof.Machine.execLinkupTx n s
  | .linkActive n m polinv => Sys2Proof.Machine.execLinkActive n m polinv s
  | .worriLinkDown n => Sys2Proof.Machine.execWorriLinkDown n s
  | .retrain who n => Sys2Proof.Machine.execRetrain who n s
  | .worriPacketRx n p good => Sys2Proof.Machine.execWorriPacketRx n p good s
  | .ackTimer n => Sys2Proof.Machine.execAckTimer n s
  | .worriAckRx n seq => Sys2Proof.Machine.execWorriAckRx n seq s
  | .worriNakRx n seq => Sys2Proof.Machine.execWorriNakRx n seq s
  | .worriCreditRx n vc blocks => Sys2Proof.Machine.execWorriCreditRx n vc blocks s
  | .replayTimeout n => Sys2Proof.Machine.execReplayTimeout n s
  | .lgaspRx n v => Sys2Proof.Machine.execLgaspRx n v s
  | .lgfwdRx => Sys2Proof.Machine.execLgfwdRx s
  | .helloTx => Sys2Proof.Machine.execHelloTx s
  | .helloRx => Sys2Proof.Machine.execHelloRx s
  | .neighbourTimeout n => Sys2Proof.Machine.execNeighbourTimeout n s
  | .rootSettled => Sys2Proof.Machine.execRootSettled s
  | .linkchgRx => Sys2Proof.Machine.execLinkchgRx s
  | .topoRx => Sys2Proof.Machine.execTopoRx s
  | .topoCollectEnd => Sys2Proof.Machine.execTopoCollectEnd s
  | .assignRx => Sys2Proof.Machine.execAssignRx s
  | .routeRx => Sys2Proof.Machine.execRouteRx s
  | .routeackRx => Sys2Proof.Machine.execRouteackRx s
  | .commitRx => Sys2Proof.Machine.execCommitRx s
  | .tsyncTimer => Sys2Proof.Machine.execTsyncTimer s
  | .timereqRx => Sys2Proof.Machine.execTimereqRx s
  | .timerespRx => Sys2Proof.Machine.execTimerespRx s
  | .timesyncRx => Sys2Proof.Machine.execTimesyncRx s
  | .resetreqRx => Sys2Proof.Machine.execResetreqRx s
  | .wfbRstcmd who target => Sys2Proof.Machine.execWfbRstcmd who target s
  | .hostMemRead a n tag => Sys2Proof.Machine.execHostMemRead a n tag s
  | .hostMemWrite off bs => Sys2Proof.Machine.execHostMemWrite off bs s
  | .qspiRead a n => Sys2Proof.Machine.execQspiRead a n s
  | .qspiWrite a bs => Sys2Proof.Machine.execQspiWrite a bs s
  | .qspiStatus => Sys2Proof.Machine.execQspiStatus s
  | .remoteWriteRx => Sys2Proof.Machine.execRemoteWriteRx s
  | .remoteReadRx => Sys2Proof.Machine.execRemoteReadRx s
  | .readResponseRx => Sys2Proof.Machine.execReadResponseRx s
  | .pwerrRx => Sys2Proof.Machine.execPwerrRx s
  | .readTimeout => Sys2Proof.Machine.execReadTimeout s
  | .prefetchExpire => Sys2Proof.Machine.execPrefetchExpire s
  | .semRead who k => Sys2Proof.Machine.execSemRead who k s
  | .semWrite who k v => Sys2Proof.Machine.execSemWrite who k v s
  | .semHoldExpire k => Sys2Proof.Machine.execSemHoldExpire k s
  | .pollTimer k => Sys2Proof.Machine.execPollTimer k s
  | .pollResponse k => Sys2Proof.Machine.execPollResponse k s
  | .pcieHotReset kind => Sys2Proof.Machine.execPcieHotReset kind s
  | .perstN high => Sys2Proof.Machine.execPerstN high s
  | .msixAck who v => Sys2Proof.Machine.execMsixAck who v s
  | .frecal who => Sys2Proof.Machine.execFrecal who s
  | .rctrim who => Sys2Proof.Machine.execRctrim who s
  | .verify who slot => Sys2Proof.Machine.execVerify who slot s
  | .verifyDone => Sys2Proof.Machine.execVerifyDone s
  | .mcopy who lines => Sys2Proof.Machine.execMcopy who lines s
  | .mcopyDone => Sys2Proof.Machine.execMcopyDone s
  | .lcToManufacture who confirm key => Sys2Proof.Machine.execLcToManufacture who confirm key s
  | .lcToField who confirm key => Sys2Proof.Machine.execLcToField who confirm key s
  | .lcToReturn who confirm key => Sys2Proof.Machine.execLcToReturn who confirm key s
  | .lcToScrapped who confirm key => Sys2Proof.Machine.execLcToScrapped who confirm key s
  | .revoke who confirm key => Sys2Proof.Machine.execRevoke who confirm key s
  | .rollup who confirm key => Sys2Proof.Machine.execRollup who confirm key s
  | .keyprog who confirm key => Sys2Proof.Machine.execKeyprog who confirm key s
  | .dskgen who confirm key => Sys2Proof.Machine.execDskgen who confirm key s
  | .lcFuseDone => Sys2Proof.Machine.execLcFuseDone s
  | .attest who => Sys2Proof.Machine.execAttest who s
  | .attestDone => Sys2Proof.Machine.execAttestDone s
  | .blkrst who block => Sys2Proof.Machine.execBlkrst who block s
  | .rotationTarget => Sys2Proof.Machine.execRotationTarget s
  | .drainTimeout => Sys2Proof.Machine.execDrainTimeout s
  | .handoverWindow => Sys2Proof.Machine.execHandoverWindow s
  | .handoverEnd => Sys2Proof.Machine.execHandoverEnd s
  | .dryPowerEnd locked powered => Sys2Proof.Machine.execDryPowerEnd locked powered s
  | .lbistSliceEnd ok0 ok1 sig0 sig1 => Sys2Proof.Machine.execLbistSliceEnd ok0 ok1 sig0 sig1 s
  | .mbistEnd bad => Sys2Proof.Machine.execMbistEnd bad s
  | .reloadEnd => Sys2Proof.Machine.execReloadEnd s
  | .fillStart => Sys2Proof.Machine.execFillStart s
  | .fillRoundEnd => Sys2Proof.Machine.execFillRoundEnd s
  | .rotationLate => Sys2Proof.Machine.execRotationLate s
  | .reachLatent n => Sys2Proof.Machine.execReachLatent n s
  | .emergencyHandoverEnd => Sys2Proof.Machine.execEmergencyHandoverEnd s
  | .fwStage who src => Sys2Proof.Machine.execFwStage who src s
  | .fwSwitch who => Sys2Proof.Machine.execFwSwitch who s
  | .fwAbort who => Sys2Proof.Machine.execFwAbort who s
  | .fwSwitchGap r => Sys2Proof.Machine.execFwSwitchGap r s
  | .sbyEnable who en => Sys2Proof.Machine.execSbyEnable who en s
  | .swap who => Sys2Proof.Machine.execSwap who s
  | .join who => Sys2Proof.Machine.execJoin who s
  | .pairHelloTx => Sys2Proof.Machine.execPairHelloTx s
  | .pairHelloRx peerPref => Sys2Proof.Machine.execPairHelloRx peerPref s
  | .seekTimeout => Sys2Proof.Machine.execSeekTimeout s
  | .heartbeatTx => Sys2Proof.Machine.execHeartbeatTx s
  | .heartbeatRx => Sys2Proof.Machine.execHeartbeatRx s
  | .heartbeatTimeout => Sys2Proof.Machine.execHeartbeatTimeout s
  | .snapRx => Sys2Proof.Machine.execSnapRx s
  | .retRx => Sys2Proof.Machine.execRetRx s
  | .commitMsgRx => Sys2Proof.Machine.execCommitMsgRx s
  | .forceMsgRx => Sys2Proof.Machine.execForceMsgRx s
  | .relinquishRx => Sys2Proof.Machine.execRelinquishRx s
  | .joinreqRx => Sys2Proof.Machine.execJoinreqRx s
  | .stateRx => Sys2Proof.Machine.execStateRx s
  | .joinedRx => Sys2Proof.Machine.execJoinedRx s
  | .detachedTimer => Sys2Proof.Machine.execDetachedTimer s
  | .sharedSliceStart k => Sys2Proof.Machine.execSharedSliceStart k s
  | .sharedSliceEnd restoreOk sigOk sig => Sys2Proof.Machine.execSharedSliceEnd restoreOk sigOk sig s
  | .sharedLatent b => Sys2Proof.Machine.execSharedLatent b s
  | .lwdExpire => Sys2Proof.Machine.execLwdExpire s
  | .romCrcCheck ok => Sys2Proof.Machine.execRomCrcCheck ok s
  | .lockkeeperWatchdog k => Sys2Proof.Machine.execLockkeeperWatchdog k s
  | .interconnectWatchdog a => Sys2Proof.Machine.execInterconnectWatchdog a s
  | .awdExpire => Sys2Proof.Machine.execAwdExpire s
  | .awdKick who key => Sys2Proof.Machine.execAwdKick who key s
  | .fclr who => Sys2Proof.Machine.execFclr who s
  | .fuseRepair who => Sys2Proof.Machine.execFuseRepair who s
  | .manualTest who kind mem => Sys2Proof.Machine.execManualTest who kind mem s
  | .faultLogWrite => Sys2Proof.Machine.execFaultLogWrite s
  | .vfieldLoss => Sys2Proof.Machine.execVfieldLoss s
  | .pllRelock p => Sys2Proof.Machine.execPllRelock p s
  | .referenceRecovery => Sys2Proof.Machine.execReferenceRecovery s
  | .restartComplete => Sys2Proof.Machine.execRestartComplete s
  | .manualTestEnd pass slice bad => Sys2Proof.Machine.execManualTestEnd pass slice bad s
  | .pcieLinkUp speed width => Sys2Proof.Machine.execPcieLinkUp speed width s
  | .msixTableWrite v word x => Sys2Proof.Machine.execMsixTableWrite v word x s
  | .pcieConfigRequest q => Sys2Proof.Machine.execPcieConfigRequest q s
  | .blockLock n => Sys2Proof.Machine.execBlockLock n s
  | .busIntegration n => Sys2Proof.Machine.execBusIntegration n s
  | .beaconRx p => Sys2Proof.Machine.execBeaconRx p s
  | .debugPortAccess test isWr a v => Sys2Proof.Machine.execDebugPortAccess test isWr a v s
  | .lockhouseCoreStop => Sys2Proof.Machine.execLockhouseCoreStop s
  | .timeCopyMismatch other => Sys2Proof.Machine.execTimeCopyMismatch other s
  | .spareRetest => Sys2Proof.Machine.execSpareRetest s
  | .undefinedEncoding i1 => Sys2Proof.Machine.execUndefinedEncoding i1 s

end Sys2Proof.Machine
end

