-- ==== Sys2Proof/Machine/Step.lean ====
section
/-! DEFINITION. One step: the command at the front of the queue, or, where none waits, one tick of the time base. -/

namespace Sys2Proof.Machine

/-- Time passes while no command waits: one tick of the time base while VIN_L is good, in standby and where start-up has stopped too
(R270, R479, R481, log 4) (log 14). -/
def idle (s : State) : State :=
  settled s (if live s then clockTick s else if !s.cfg.brownout then tick s else { s with now := s.now + 2 })

/-- One step (log 4, 14). -/
def step (s : State) : Host.Outcome State Fault Refusal :=
  match s.pending with
  | [] => .next (idle (quiet s))
  | i :: rest => exec i { s with pending := rest }

/-- The state with the command a word spells put at the front of its queue; unchanged where the word spells none. -/
def State.withFetchWord (s : State) (nbits w : Nat) : State :=
  match decodeTableWord nbits w with
  | some i => { s with pending := i :: s.pending }
  | none => s

end Sys2Proof.Machine
end

