-- ==== Sys2Proof/WellFormed.lean ====
section
/-! DEFINITION. Which commands are well formed: initiators, frames, packets and fields within what the interface can carry. -/

namespace Sys2Proof

open Sys2Proof.Machine

/-- An initiator ID has six bits; only the fabric bridge (47) acts for a remote initiator (R68, R69), and the host (46) accesses the device
by the commands of PCIe and QSPI (R443, R444, R453). -/
def whoWf (w : Who) : Bool :=
  decide (w.id < 64 ∧ w.id ≠ 46) && match w.remote with
    | none => true
    | some (f, i) => w.id == 47 && decide (f < 4096 ∧ i < 64)

/-- A run of bytes that a port or the host hands over at once. -/
def bytesWf (bs : List Byte) : Bool := decide (bs.length ≤ 4096)

/-- A packet as R421 lays it out. -/
def packetWf (p : Packet) : Bool :=
  decide (p.vc < 5) && decide (p.seq < 4096) && decide (p.dst < 4096) && decide (p.src < 4096) && decide (p.hops < 256)
    && decide (p.payload.length ≤ 2048)

/-- A CAN frame holds at most 64 data bytes (R390). -/
def canFrameWf (f : CanFrame) : Bool := decide (f.data.length ≤ 64)

/-- What the environment offers at a start-up: eight calibration items, source ranges inside the input image. -/
def bootWf (b : Boot) : Bool := decide (b.calFail < 256) && b.sources.all fun (_, o, n) => decide (o + n ≤ 0x20000)

/-- Whether the operands of a command are such as its sender can give. -/
def Instr.wf (i : Instr) : Bool :=
  match i with
  | .powerOn _ b => bootWf b
  | .fieldCalibration _ => true
  | .supplyWarning _ => true
  | .supplyDipEnd _ => true
  | .brownout _ => true
  | .resetN _ b => bootWf b
  | .wakeN b => bootWf b
  | .standby who => whoWf who
  | .pciDevrst who _ => whoWf who
  | .fieldLinkFrameTx _ _ _ => true
  | .fieldLinkFrameRx _ => true
  | .fieldLinkLoss => true
  | .fDieFrameRx _ _ => true
  | .silenceWatchdog => true
  | .fDiePowerUp => true
  | .fDieCommitInstant _ => true
  | .fioRegisterWrite who _ _ => whoWf who
  | .rawInputTransition _ _ => true
  | .filterAccept _ => true
  | .pulsedSample _ _ => true
  | .fioEdgeRead who => whoWf who
  | .outputFault _ _ _ => true
  | .groupTrip _ => true
  | .autoRestartRetry _ => true
  | .darkTestPulse _ _ => true
  | .edgeflush who => whoWf who
  | .grprst who => whoWf who
  | .faultack who => whoWf who
  | .aiRoundComplete _ => true
  | .voutChange _ _ => true
  | .compareMatch _ => true
  | .eventTrigger _ => true
  | .heldTriggerAccept _ => true
  | .snapshotCopyEnd _ => true
  | .commitStart _ => true
  | .commitEnd _ => true
  | .commitDeadline _ => true
  | .retentiveWriteStart => true
  | .retentiveWriteEnd => true
  | .abortTimeout => true
  | .scnCmdStop who => whoWf who
  | .warm who => whoWf who
  | .cold who => whoWf who
  | .forceSet who _ _ => whoWf who
  | .forceClr who _ _ => whoWf who
  | .forceClrall who _ => whoWf who
  | .forceList who _ => whoWf who
  | .editOpen who _ => whoWf who
  | .editArm who _ => whoWf who
  | .editAbort who _ => whoWf who
  | .taskPeriodWrite who _ _ => whoWf who
  | .registerWrite who _ _ => whoWf who
  | .eventWriteBack who _ _ => whoWf who
  | .clkmeasGo who _ => whoWf who
  | .buserrClear who => whoWf who
  | .pllLockLoss _ => true
  | .refokLoss => true
  | .referenceFailTimeout => true
  | .add _ _ _ _ _ => true
  | .sub _ _ _ _ _ => true
  | .adc _ _ _ _ _ => true
  | .sbc _ _ _ _ _ => true
  | .and _ _ _ _ _ => true
  | .or _ _ _ _ _ => true
  | .xor _ _ _ _ _ => true
  | .andn _ _ _ _ _ => true
  | .shl _ _ _ _ _ => true
  | .shr _ _ _ _ _ => true
  | .sar _ _ _ _ _ => true
  | .ror _ _ _ _ _ => true
  | .addi _ _ _ _ _ => true
  | .andi _ _ _ _ _ => true
  | .ori _ _ _ _ _ => true
  | .xori _ _ _ _ _ => true
  | .cmpi _ _ _ => true
  | .lui _ _ _ => true
  | .shli _ _ _ _ _ => true
  | .shri _ _ _ _ _ => true
  | .sari _ _ _ _ _ => true
  | .rori _ _ _ _ _ => true
  | .clz _ _ _ => true
  | .bfx _ _ _ pos lenM1 => decide (pos.val + lenM1.val ≤ 31)
  | .bfxs _ _ _ pos lenM1 => decide (pos.val + lenM1.val ≤ 31)
  | .bfi _ _ _ pos lenM1 => decide (pos.val + lenM1.val ≤ 31)
  | .bperm _ _ _ _ _ => true
  | .mul _ _ _ _ _ => true
  | .mulhs _ _ _ _ _ => true
  | .mulhu _ _ _ _ _ => true
  | .divs _ _ _ _ _ => true
  | .divu _ _ _ _ _ => true
  | .rems _ _ _ _ _ => true
  | .remu _ _ _ _ _ => true
  | .ldw _ _ _ _ => true
  | .ldh _ _ _ _ => true
  | .ldhu _ _ _ _ => true
  | .ldb _ _ _ _ => true
  | .ldbu _ _ _ _ => true
  | .stw _ _ _ _ => true
  | .sth _ _ _ _ => true
  | .stb _ _ _ _ => true
  | .bcc _ _ _ => true
  | .call _ _ => true
  | .jmp _ _ => true
  | .callr _ _ => true
  | .ret _ => true
  | .bjt _ _ => true
  | .bjf _ _ => true
  | .push _ _ => true
  | .pop _ _ => true
  | .bld _ _ _ _ => true
  | .bldn _ _ _ _ => true
  | .band _ _ _ _ => true
  | .bandn _ _ _ _ => true
  | .bor _ _ _ _ => true
  | .born _ _ _ _ => true
  | .bxor _ _ _ _ => true
  | .bxorn _ _ _ _ => true
  | .bst _ _ _ _ => true
  | .bset _ _ _ _ => true
  | .brst _ _ _ _ => true
  | .bpos _ _ _ _ => true
  | .bneg _ _ _ _ => true
  | .bnestA _ => true
  | .bnestO _ => true
  | .bnestX _ => true
  | .bunnest _ => true
  | .bnot _ => true
  | .nop _ => true
  | .fence _ => true
  | .sig _ _ _ => true
  | .done _ => true
  | .trap _ _ => true
  | .breakI _ => true
  | .rfe _ => true
  | .mfc _ _ _ => true
  | .mtc _ _ _ => true
  | .icinv _ => true
  | .storeComplete _ => true
  | .preemptAccept _ => true
  | .coreReset who _ => whoWf who
  | .coreIcinv who _ => whoWf who
  | .coreDrain who _ => whoWf who
  | .coreStep who _ => whoWf who
  | .coreResume who _ => whoWf who
  | .coreHalt who _ => whoWf who
  | .tokenAccept _ => true
  | .overflowMatch => true
  | .sourceAccept => true
  | .starve _ => true
  | .delayRelease => true
  | .dlycmdGo who => whoWf who
  | .swsrcRaise who _ => whoWf who
  | .gateWrite who _ _ _ => whoWf who
  | .circularWindowWrite who _ _ _ => whoWf who
  | .scrub _ _ _ => true
  | .dmaTailWrite who _ _ => whoWf who
  | .dmaDescriptorEnd _ => true
  | .dmaStop who _ => whoWf who
  | .dmaResume who _ => whoWf who
  | .park who _ => whoWf who
  | .reachWake _ => true
  | .mbxTxWrite who _ _ => whoWf who
  | .mbxRxRead who _ => whoWf who
  | .mbxGo who _ => whoWf who
  | .mbxRelease who _ => whoWf who
  | .mbxAbort who _ => whoWf who
  | .mbxFlush who _ => whoWf who
  | .mbxCfgWrite who _ _ => whoWf who
  | .epochBump who _ => whoWf who
  | .slewStep => true
  | .tmbIncWrite who _ => whoWf who
  | .adjSlew who => whoWf who
  | .adjStep who => whoWf who
  | .holdoverEntry => true
  | .holdoverExit => true
  | .unitCmpWrite who _ _ => whoWf who
  | .unitCtlWrite who _ _ => whoWf who
  | .capnow who _ => whoWf who
  | .captureEvent _ => true
  | .captHighRead who _ => whoWf who
  | .frameIngress _ => true
  | .frameEnqueue _ => true
  | .frameDispatch _ _ => true
  | .frameHandoff _ _ => true
  | .ageCheck => true
  | .planeStall _ _ => true
  | .planeEnWrite who _ => whoWf who
  | .planeDrained _ => true
  | .planeRestore who => whoWf who
  | .macAgeSweep => true
  | .macRead who _ => whoWf who
  | .macLookup who => whoWf who
  | .macWrite who => whoWf who
  | .macDelete who => whoWf who
  | .macFlush who _ => whoWf who
  | .hseedWrite who _ => whoWf who
  | .ringRpWrite who _ _ => whoWf who
  | .txRingWpWrite who _ _ => whoWf who
  | .ringResume who _ _ => whoWf who
  | .ethEnable who _ => whoWf who
  | .ethDisable who _ => whoWf who
  | .linkUp _ _ _ => true
  | .linkLoss _ => true
  | .macFrameRx _ bs _ _ _ => bytesWf bs
  | .macFrameTx _ _ => true
  | .collision _ _ => true
  | .backoffEnd _ _ => true
  | .plcaBeacon _ => true
  | .plcaOpportunity _ _ => true
  | .beaconTimeout _ => true
  | .tsFifoRead who _ _ => whoWf who
  | .statsRead who _ _ => whoWf who
  | .stnRead who _ _ => whoWf who
  | .sqiUpdate _ _ => true
  | .cableTest who _ => whoWf who
  | .cableTestEnd _ _ _ => true
  | .towEnable who => whoWf who
  | .masterFrameTx _ => true
  | .towReplyRx => true
  | .replyDeadline _ => true
  | .claimRx => true
  | .regrant who _ => whoWf who
  | .towRelease who _ => whoWf who
  | .silentFollow => true
  | .canFrameValid _ f _ => canFrameWf f
  | .imageSlotAge _ _ => true
  | .canTxreq who _ _ => whoWf who
  | .canTxcan who _ _ => whoWf who
  | .canTxEnd _ _ _ _ => true
  | .canError _ _ _ _ _ => true
  | .busOffRecoveryEnd _ => true
  | .canRecover who _ => whoWf who
  | .protocolException _ => true
  | .canEnable who _ => whoWf who
  | .canDisable _ => true
  | .canModeChange _ => true
  | .xcap who _ => whoWf who
  | .xcapAuto _ => true
  | .goto _ _ => true
  | .loop _ => true
  | .clockOut _ _ => true
  | .clockIn _ _ => true
  | .clockDuplex _ _ => true
  | .pinsetValues _ => true
  | .pinsetDirections _ => true
  | .waitforLevel _ _ => true
  | .waitforEdge _ _ => true
  | .waitforFlag _ => true
  | .waitforTime _ => true
  | .waitforMet _ _ => true
  | .fifoTake _ => true
  | .fifoGive _ => true
  | .beetleStallResume _ _ => true
  | .xformClear _ => true
  | .xformInvert _ => true
  | .xformReverse _ => true
  | .xformGray _ => true
  | .xformJustify _ => true
  | .xformSample _ _ => true
  | .xformDrive _ => true
  | .xformStatus _ => true
  | .xformTok0 _ => true
  | .xformTok1 _ => true
  | .setk _ => true
  | .signalSet _ => true
  | .signalClr _ => true
  | .signalEvent _ => true
  | .signalToggle _ => true
  | .btlEnable who _ => whoWf who
  | .btlDisable who _ => whoWf who
  | .btlRestart who _ => whoWf who
  | .btlTxWrite who _ _ => whoWf who
  | .btlRxRead who _ => whoWf who
  | .btlStoreWrite who _ _ _ => whoWf who
  | .btlFlagsWrite who _ _ => whoWf who
  | .btlRxdmaBatch _ => true
  | .btlRxdmaAge _ => true
  | .btlTxdmaBatch _ => true
  | .worriLinkEnable who _ => whoWf who
  | .linkupTx _ => true
  | .linkActive _ _ _ => true
  | .worriLinkDown _ => true
  | .retrain who _ => whoWf who
  | .worriPacketRx _ p _ => packetWf p
  | .ackTimer _ => true
  | .worriAckRx _ _ => true
  | .worriNakRx _ _ => true
  | .worriCreditRx _ _ _ => true
  | .replayTimeout _ => true
  | .lgaspRx _ _ => true
  | .lgfwdRx => true
  | .helloTx => true
  | .helloRx => true
  | .neighbourTimeout _ => true
  | .rootSettled => true
  | .linkchgRx => true
  | .topoRx => true
  | .topoCollectEnd => true
  | .assignRx => true
  | .routeRx => true
  | .routeackRx => true
  | .commitRx => true
  | .tsyncTimer => true
  | .timereqRx => true
  | .timerespRx => true
  | .timesyncRx => true
  | .resetreqRx => true
  | .wfbRstcmd who _ => whoWf who
  | .hostMemRead _ n tag => decide (1 ≤ n ∧ n ≤ 512) && decide (tag < 32)
  | .hostMemWrite _ bs => decide (1 ≤ bs.length ∧ bs.length ≤ 256)
  | .qspiRead _ n => decide (1 ≤ n ∧ n ≤ 4096)
  | .qspiWrite _ bs => bytesWf bs
  | .qspiStatus => true
  | .remoteWriteRx => true
  | .remoteReadRx => true
  | .readResponseRx => true
  | .pwerrRx => true
  | .readTimeout => true
  | .prefetchExpire => true
  | .semRead who _ => whoWf who
  | .semWrite who _ _ => whoWf who
  | .semHoldExpire _ => true
  | .pollTimer _ => true
  | .pollResponse _ => true
  | .pcieHotReset _ => true
  | .perstN _ => true
  | .msixAck who _ => whoWf who
  | .frecal who => whoWf who
  | .rctrim who => whoWf who
  | .verify who _ => whoWf who
  | .verifyDone => true
  | .mcopy who _ => whoWf who
  | .mcopyDone => true
  | .lcToManufacture who _ _ => whoWf who
  | .lcToField who _ _ => whoWf who
  | .lcToReturn who _ _ => whoWf who
  | .lcToScrapped who _ _ => whoWf who
  | .revoke who _ _ => whoWf who
  | .rollup who _ _ => whoWf who
  | .keyprog who _ _ => whoWf who
  | .dskgen who _ _ => whoWf who
  | .lcFuseDone => true
  | .attest who => whoWf who
  | .attestDone => true
  | .blkrst who _ => whoWf who
  | .rotationTarget => true
  | .drainTimeout => true
  | .handoverWindow => true
  | .handoverEnd => true
  | .dryPowerEnd _ _ => true
  | .lbistSliceEnd _ _ _ _ => true
  | .mbistEnd _ => true
  | .reloadEnd => true
  | .fillStart => true
  | .fillRoundEnd => true
  | .rotationLate => true
  | .reachLatent _ => true
  | .emergencyHandoverEnd => true
  | .fwStage who _ => whoWf who
  | .fwSwitch who => whoWf who
  | .fwAbort who => whoWf who
  | .fwSwitchGap _ => true
  | .sbyEnable who _ => whoWf who
  | .swap who => whoWf who
  | .join who => whoWf who
  | .pairHelloTx => true
  | .pairHelloRx _ => true
  | .seekTimeout => true
  | .heartbeatTx => true
  | .heartbeatRx => true
  | .heartbeatTimeout => true
  | .snapRx => true
  | .retRx => true
  | .commitMsgRx => true
  | .forceMsgRx => true
  | .relinquishRx => true
  | .joinreqRx => true
  | .stateRx => true
  | .joinedRx => true
  | .detachedTimer => true
  | .sharedSliceStart _ => true
  | .sharedSliceEnd _ _ _ => true
  | .sharedLatent _ => true
  | .lwdExpire => true
  | .romCrcCheck _ => true
  | .lockkeeperWatchdog _ => true
  | .interconnectWatchdog _ => true
  | .awdExpire => true
  | .awdKick who _ => whoWf who
  | .fclr who => whoWf who
  | .fuseRepair who => whoWf who
  | .manualTest who _ _ => whoWf who
  | .faultLogWrite => true
  | .vfieldLoss => true
  | .pllRelock _ => true
  | .referenceRecovery => true
  | .restartComplete => true
  | .manualTestEnd _ _ _ => true
  | .pcieLinkUp _ _ => true
  | .msixTableWrite _ _ _ => true
  | .pcieConfigRequest _ => true
  | .blockLock _ => true
  | .busIntegration _ => true
  | .beaconRx _ => true
  | .debugPortAccess _ _ _ _ => true
  | .lockhouseCoreStop => true
  | .timeCopyMismatch _ => true
  | .spareRetest => true
  | .undefinedEncoding _ => true

end Sys2Proof
end

