-- ==== Sys2Proof/Safety.lean ====
section
/-! DEFINITION. What claims call a good state: canonical memories, a queue of well-formed commands, and a device at rest beside the
command under consideration. -/

namespace Sys2Proof.Machine

/-- The memory list is canonical: addresses strictly rising, no entry equal to what an unlisted address reads as. -/
def Memory.wf (m : List Host.Cell) : Bool := SMap.wf memReset m

/-- The register list is canonical in the same sense: an unlisted register reads as its reset value. -/
def Registers.wf (m : List (Nat × Word)) : Bool := SMap.wf (fun a => w32 (resetNat a)) m

/-- Both lists of a state are canonical. -/
def State.canonical (s : State) : Bool := Memory.wf s.mem && Registers.wf s.regs

/-- Every waiting command is well formed. -/
def State.queueWf (s : State) : Bool := s.pending.all Instr.wf

/-- The end of a command finds nothing to do on state `s` after state `before`: no core to step, no corrected error counted, no reach
draining for a park, no held access that may go on, no primary of a pair, no standby whose control has stopped, no device
reset due. -/
def calm (before s : State) : Bool :=
  !s.cores.any (·.stepping) && (List.range 5).all (fun n => decide ((recentCE s n).length ≤ (recentCE before n).length))
    && (List.range 5).all (fun n => getF s (F.RCH_PWR_PSTATE n) != 1)
    && (!releases before s || (s.rot.held.isEmpty && s.brg.gathers.isEmpty && s.brg.waits.isEmpty))
    && !(stoppedSince before s && (pairState s == 3 || pairState s == 4)) && pairState s != 2 && s.faults.due.isNone

/-- No held semaphore guards a register against an initiator (R457). -/
def unguarded (s : State) (who : Who) : Bool :=
  (List.range 32).all fun k =>
    match s.brg.sems.toList.getD k none with
    | none => true
    | some o =>
      let (lo, n) := semRange s k
      (o.id, o.fid) == who.owner || !bitAt (rd s (A.BRG_SEM_SIZE k)).toNat 31 || decide (0x70000000 ≤ lo ∨ lo + n ≤ 0x60000000)

/-- A command completes on a state: it answers a next state, of which `P` holds. -/
def Completes (i : Instr) (s : State) (P : State → Prop) : Prop := ∃ t, exec i s = .next t ∧ P t

/-- Nothing but register words and what was sent differs. -/
def regsOnly (s t : State) : Prop := t = { s with regs := t.regs, sent := t.sent }

/-- Nothing but register words, the record of events, the values of event sources and what was sent differs. -/
def eventsOnly (s t : State) : Prop :=
  t = { s with regs := t.regs, evtLast := t.evtLast, lkp := { s.lkp with srcVal := t.lkp.srcVal }, sent := t.sent }

/-- Every register word outside a list reads as before. -/
def sameRegs (l : List Nat) (s t : State) : Prop := ∀ a, a ∉ l → rd t a = rd s a

/-- The words of LKP_PEND, which show the event sources that fired. -/
def pendWords : List Nat := (List.range 32).map A.LKP_PEND

/-- Every byte of memory outside `n` bytes at `a` reads as before. -/
def sameBytes (a n : Nat) (s t : State) : Prop := ∀ b, ¬ (a ≤ b ∧ b < a + n) → byteAt t b = byteAt s b

/-- Every byte of memory whose address is not in a list reads as before. -/
def sameBytesBut (l : List Nat) (s t : State) : Prop := ∀ b, b ∉ l → byteAt t b = byteAt s b

/-- An event that has been recorded: its bit is 1, and EVSEQ has advanced by one (R64). -/
def hasEvent (s t : State) (evt k : Nat) : Prop :=
  getF t ⟨evt, k, 1⟩ = 1 ∧ getF t ⟨evt, 24, 8⟩ = (getF s ⟨evt, 24, 8⟩ + 1) % 256

/-- Core `i` stands at an instruction and runs it now: the logic die is live and at rest, the core runs, waits for no read and no bus
error, and what it fetches decodes to the instruction. -/
def atInstr (i : Nat) (op : WOp) (s : State) : Prop :=
  live s = true ∧ (s.core i).st = .run ∧ (s.core i).haltReq = false ∧ (s.core i).pendW = [] ∧ waitsRead s i = false ∧
    calm s (fetch i (quiet s)).1 = true ∧ (fetch i (quiet s)).2.toOption.bind decodeW = some op

/-- The device after core `i` has fetched. -/
def fetched (i : Nat) (s : State) : State := (fetch i (quiet s)).1

/-- Beside core `i` nothing has changed since its fetch. -/
def coreOnly (i : Nat) (s t : State) : Prop :=
  t = { fetched i s with cores := t.cores, pending := t.pending, sn := t.sn } ∧ ∀ j : Fin 40, j.val ≠ i → t.core j = s.core j

/-- An instruction has written register `d` with `v`, where `d` is not w0, and gone on to the next word: no other register of any
bank has changed, and nothing else of the core but flags and cycles (R76). -/
def wrote (d : Fin 16) (v : Word) (k k' : Core) : Prop :=
  k'.reg d = (if d = 0 then 0 else v) ∧ (∀ r : Fin 64, r.val ≠ 16 * k.level.val + d.val → k'.w.get r = k.w.get r) ∧
    k' = { k with w := k'.w, n := k'.n, z := k'.z, c := k'.c, v := k'.v, pc := k.pc + 4, icache := k'.icache, cyc := k'.cyc }

/-- The flags after an instruction: N and Z of its result, C and V as given, where F is 1; else as before (R120, R121). -/
def flagged (f : Bool) (r : Word) (c v : Bool) (k k' : Core) : Prop :=
  if f then k'.n = r.msb ∧ k'.z = (r == 0) ∧ k'.c = c ∧ k'.v = v else k'.n = k.n ∧ k'.z = k.z ∧ k'.c = k.c ∧ k'.v = k.v

/-- A core has taken an exception of a cause with a saved PC (R111): the frame of BSTK, STAT, PC and marker is on its return stack,
it runs in supervisor mode without interrupts at VBASE + 16 × cause, with a closed bit string and an empty nesting stack. -/
def excTaken (cause : Nat) (saved : Word) (k k' : Core) : Prop :=
  k'.pc = k.vbase + w32 (16 * cause) ∧ k'.ecause = w32 cause ∧
    k' = { k with pc := k'.pc, ecause := k'.ecause, eaddr := k'.eaddr, ovf := k'.ovf, icache := k'.icache, cyc := k'.cyc,
                  rstack := marker 1 k.level.val :: saved :: k.stat :: k.bstk :: k.rstack,
                  ie := false, sup := true, bacc := false, bopen := false, bstk := 0 }

/-- An access of core `i` to `n` bytes at an own-reach address passes every check: alignment, regions, windows, gate, ECC, semaphores
(R86, R90, R162, R250, R253, R457). -/
def ownClear (s : State) (i a n : Nat) (writes : Bool) (off : Nat) : Prop :=
  accessCheck s i a n writes = none ∧ a < 0x100000 ∧ target s i a = .reach (i / 8) off ∧ off + n ≤ 0xC0000 ∧
    reachState s (i / 8) = 0 ∧ getF s (F.RCH_PWR_PSTATE (i / 8)) = 0 ∧ gateAdmits s (i / 8) (off / 0x10000) i = true ∧
    eccOf s (reachAddr (i / 8) off) n = 0 ∧ semGuards s (reachAddr (i / 8) off) n ⟨i, false, none⟩ = false

/-- Engine `e` of a Beetle cluster executes the word `w` at its next tick: the logic die is live, the engine is in RUN and waits for
nothing, the Beetle clock is locked, and `w` stands where it fetches (R402, R417). -/
def atWord (e w : Nat) (s : State) : Prop :=
  live s = true ∧ engState s e = 1 ∧ (s.engine e).await = none ∧ isSet s F.SYS_CLKSTAT_BTLLOCK = true ∧
    storeWord s e (s.engine e).next = w

/-- An engine is as it was, but for having seen the edge it waits for (R405). -/
def sawEdge (x y : Engine) : Prop :=
  y = x ∨ y = (match x.await with | some (.edge p pol _) => { x with await := some (.edge p pol true) } | _ => x)

/-- The registers that a change of pin `p` may change: its own, and that of the bus pin whose driver it enables (R401). -/
def pinWords (p : Nat) : List Nat := A.BTL_PIN 0 p :: if 12 ≤ p ∧ p < 24 then [A.BTL_PIN 0 (p - 12)] else []

/-- Beside registers, what was sent, what the outside drives at the balls and engine `e`, nothing has changed but for edges that other
engines have seen. -/
def engBalls (e : Nat) (s t : State) : Prop :=
  t = { s with regs := t.regs, btl := t.btl, sent := t.sent, balls := t.balls } ∧ ∀ j : Fin 16, j.val ≠ e → sawEdge (s.engine j) (t.engine j)

/-- The same, with the balls as they were. -/
def engOnly (e : Nat) (s t : State) : Prop := engBalls e s t ∧ t.balls = s.balls

/-- The engine after it has latched `w` and gone on to the next address. -/
def latched (w : Nat) (x : Engine) : Engine := { x with instr := w, next := (x.next + 1) % 48 }

/-- A step is safe: it answers a next state. -/
def State.safeStep (s : State) : Prop := ∃ t, step s = .next t

end Sys2Proof.Machine
end

