-- ==== Sys2Proof/Certificates/Slice0/Obligations.lean ====
section
/-! DEFINITION. The statements for the provers, by family of commands. -/

open Sys2Proof Sys2Proof.Machine

/-- A step takes the command at the front of the queue and answers what that command answers on the state with the rest of the queue.
On an empty queue the device idles for one tick (log 4). The model's own choices that clauses rest on: log 4 and 14. -/
def Obligations.StepRunsFront : Prop :=
  (∀ (c : Instr) (rest : List Instr) (s : State), step { s with pending := c :: rest } = exec c { s with pending := rest }) ∧
  (∀ s : State, s.pending = [] → ∃ t, step s = .next t ∧ t.pending = [] ∧ (live s = false → (s.cfg.standby = false ∨ s.cfg.brownout = true) → t = { s with now := s.now + 2, sent := [] }))

/-- Every step, whatever the command, answers a next state: exec answers a next state for every command, with every operand, on every
state, so no command faults or is refused; it leaves the queue as it is. The queue after it is the queue before without its front,
so commands that are well formed stay so, and the device stays the module it is. The model's own choices that clauses rest on: log
1 and 14. -/
def Obligations.StepKeepsQueue : Prop :=
  (∀ s : State, s.safeStep ∧ ∀ t, step s = .next t → t.pending = s.pending.tail ∧ t.sn = s.sn ∧ (s.queueWf = true → t.queueWf = true)) ∧
  (∀ (c : Instr) (s : State), ∃ t, Sys2Proof.Machine.exec c s = .next t ∧ t.pending = s.pending ∧ t.sn = s.sn)

/-- Every step from a state whose memory list and register list are canonical (addresses strictly rising, no entry equal to what an
unlisted address reads as) leaves both canonical, so equal contents are equal data. The model's own choices that clauses rest on:
log 2 and 3. -/
def Obligations.CanonicalKept : Prop :=
  ∀ s t : State, s.canonical = true → step s = .next t → t.canonical = true

/-- Right after reset the queue is empty, both lists are canonical, every byte of the quality codes reads 0xAA, so that each code is
BAD (R146), and every other byte of memory reads 0 (the model's choice, log 2), every register word reads its reset value, no core
runs an item, every mailbox is empty, the matching store is empty and nothing has been sent. The model's own choices that clauses
rest on: log 2, 3, 14 and 113. -/
def Obligations.ResetState : Prop :=
  State.reset.pending = [] ∧ State.reset.canonical = true ∧ State.reset.queueWf = true ∧ State.reset.sent = [] ∧ (∀ a, byteAt State.reset a = if 0x300C0000 ≤ a ∧ a < 0x300C8000 then 0xAA else 0) ∧ (∀ a, rd State.reset a = w32 (resetNat a)) ∧ (∀ i : Fin 40, (State.reset.core i).items.get 0 = none ∧ (State.reset.core i).dstack = [] ∧ (State.reset.core i).rstack = []) ∧ (∀ m : Fin 64, (State.reset.mbox.get m).words = []) ∧ State.reset.lkp.store = []

/-- Every Weevil instruction that has an encoding, with every operand at every value, is what the decoder reads from its word; and a
word that decodes to an instruction is the word of that instruction, so no two words mean the same and no reserved bit is passed
over. -/
def Obligations.WeevilRoundTrip : Prop :=
  (∀ x : WOp, x.encodable = true → decodeW (encodeW x) = some x) ∧
  (∀ (w : Word) (x : WOp), decodeW w = some x → x.encodable = true ∧ encodeW x = w)

/-- The own-reach alias selects reach n for the cores of reach n and for reach DMA n; an access of any other initiator to it ends with
DECODE. Within each 16 MiB stride of reach memory only the first 1 MiB decodes, and 0x15000000 to 0x1FFFFFFF does not. -/
def Obligations.OwnReachAlias : Prop :=
  (∀ (s : State) (who : Who) (a n : Nat) (bs : List Byte), a < 0x100000 → (who.id < 40 → ∃ off, target s who.id a = .reach (who.id / 8) off) ∧ (40 ≤ who.id → who.id < 45 → ∃ off, target s who.id a = .reach (who.id - 40) off) ∧ (45 ≤ who.id → (localLoad who a n s).2 = .err .decode ∧ (localStore who a bs s).2 = .err .decode)) ∧
  (∀ (s : State) (who : Who) (n : Fin 5) (off : Nat), off < 0x1000000 → if off < 0x100000 then ∃ x, target s who.id (0x10000000 + 0x1000000 * n + off) = .reach n x else ∀ k bs, (localLoad who (0x10000000 + 0x1000000 * n + off) k s).2 = .err .decode ∧ (localStore who (0x10000000 + 0x1000000 * n + off) bs s).2 = .err .decode) ∧
  (∀ (s : State) (who : Who) (a n : Nat) (bs : List Byte), 0x15000000 ≤ a → a < 0x20000000 → (localLoad who a n s).2 = .err .decode ∧ (localStore who a bs s).2 = .err .decode)

/-- The word at an address has byte 0 as its bits 7 to 0, and so on upwards. A number stored in n bytes has its low byte at the lowest
address and reads back as what was stored, modulo 256 to the n; every other byte reads as before, and nothing else of the state
changes. -/
def Obligations.LittleEndianMemory : Prop :=
  (∀ (s : State) (a : Nat) (k : Fin 32), (w32 (memNat s a 4)).getLsbD k = (byteAt s (a + k.val / 8)).getLsbD (k.val % 8)) ∧
  (∀ (s : State) (a n v : Nat), memNat (memPut a n v s) a n = v % 256 ^ n ∧ (∀ k, k < n → byteAt (memPut a n v s) (a + k) = BitVec.ofNat 8 (v / 256 ^ k)) ∧ sameBytes a n s (memPut a n v s) ∧ memPut a n v s = { s with mem := (memPut a n v s).mem })

/-- Under conditions on the state and the operands alone, exec answers a next state for each command named here. A privileged write of
a word with legal fields to a register whose write starts nothing gives every RW field the written bits and changes no other
register; a write-back with the current EVSEQ clears exactly the written event bits; SYS_CLKMEAS.GO with a locked PLL counts that
PLL's ratio to the reference; SYS_BUSERRCTL.CLEAR zeroes every entry, NEXT and TOTAL. Nothing else of the device changes. The
model's own choices that clauses rest on: log 5, 21, 22 and 117. Each clause answers a next state by its conditions on the state
and the operands alone: so REGISTER_WRITE, EVENT_WRITE_BACK, CLKMEAS_GO and BUSERR_CLEAR complete. -/
def Obligations.RegisterWrites : Prop :=
  (∀ (who : Who) (a v : Word) (d : RegDesc) (f : FieldDesc) (s : State), live s = true → calm s s = true → isPriv s who = true → a.toNat ∈ [A.SYS_PRIVCTL, A.LKP_CTL, A.LKP_HWM, A.LKP_TRCCTL, A.SCN_WDCTL, A.SCN_FORCEARG] → descAt a.toNat = some d → lockedReg s a.toNat 0 v.toNat = false → ((d.fields.all fun g => g.acc != .rw || g.clamp.apply (bitsOf v.toNat g.lo g.w) == bitsOf v.toNat g.lo g.w) = true) → f ∈ d.fields → f.acc = .rw → unguarded s who = true → 
      ∃ t, Sys2Proof.Machine.exec (.registerWrite who a v) s = .next t ∧
        getF t ⟨a.toNat, f.lo, f.w⟩ = bitsOf v.toNat f.lo f.w ∧
        sameRegs [a.toNat] s t ∧
        t = { s with regs := t.regs, sent := t.sent }) ∧
  (∀ (who : Who) (a v : Word) (s : State), live s = true → calm s s = true → isPriv s who = true → a.toNat ∈ [A.SYS_EVT, A.LKH_EVT, A.LKP_EVT, A.SCN_EVT, A.BAS_EVT, A.TMB_EVT, A.CFG_EVT] → v.toNat / 2 ^ 24 = (rd s a.toNat).toNat / 2 ^ 24 → unguarded s who = true → 
      ∃ t, Sys2Proof.Machine.exec (.eventWriteBack who a v) s = .next t ∧
        rd t a.toNat = (rd s a.toNat &&& (0xFF000000#32 ||| ~~~v)) ∧
        sameRegs (a.toNat :: pendWords) s t ∧
        t = { s with evtLast := t.evtLast, regs := t.regs, sent := t.sent, lkp := { s.lkp with srcVal := t.lkp.srcVal } }) ∧
  (∀ (who : Who) (sel : Fin 16) (s : State), live s = true → isSet s F.SYS_CLKSTAT_REFOK = true → sel.val < 10 → isSet s ⟨A.SYS_CLKSTAT, pllBit sel, 1⟩ = true → unguarded s who = true → 
      ∃ t, Sys2Proof.Machine.exec (.clkmeasGo who sel) s = .next t ∧
        (getF t F.SYS_CLKMEAS_COUNT = if sel.val < 5 then 40000 else [20000, 20000, 8000, 3200, 10000].getD (sel.val - 5) 0) ∧
        getF t F.SYS_CLKMEAS_SEL = sel.val ∧
        sameRegs [A.SYS_CLKMEAS] s t ∧
        t = { s with regs := t.regs, sent := t.sent }) ∧
  (∀ (who : Who) (n : Fin 16) (s : State), live s = true → isPriv s who = true → unguarded s who = true → 
      ∃ t, Sys2Proof.Machine.exec (.buserrClear who) s = .next t ∧
        getF t F.SYS_BUSERRPTR_NEXT = 0 ∧
        getF t F.SYS_BUSERRPTR_TOTAL = 0 ∧
        rd t (A.SYS_BUSERR_ADDR n) = 0 ∧
        rd t (A.SYS_BUSERR_INFO n) = 0 ∧
        rd64 t (A.SYS_BUSERR_TIME n) = 0 ∧
        (sameRegs (A.SYS_BUSERRPTR :: (List.range 64).map (fun k => A.SYS_BUSERR_ADDR 0 + 4 * k)) s t) ∧
        t = { s with regs := t.regs, sent := t.sent })

/-- Under conditions on the state and the operands alone, exec answers a next state for each command named here. A PLL that loses lock
clears its SYS_CLKSTAT bit; where it is not that of a reach or the time base, CLKFAIL is recorded and fault 0x31 is queued for the
fault log. The time-base PLL takes the time base into holdover, and its relock out of it. A lost reference clears REFOK and
records CLKFAIL; after 100 µs it is a DEVICE fault that begins the fault log entry 0x30 and a device reset of kind 7; its recovery
in time cancels that. A loss of VFIELD stops the F-die. The model's own choices that clauses rest on: log 15, 20 and 168. Each
clause answers a next state by its conditions on the state and the operands alone: so PLL_LOCK_LOSS, PLL_RELOCK, REFOK_LOSS,
REFERENCE_RECOVERY and VFIELD_LOSS complete. -/
def Obligations.ClocksAndReference : Prop :=
  (∀ (p : Fin 10) (s : State), live s = true → calm s s = true → 5 ≤ p.val → p.val ≠ 6 → isSet s ⟨A.SYS_CLKSTAT, pllBit p, 1⟩ = true → 
      ∃ t, Sys2Proof.Machine.exec (.pllLockLoss p) s = .next t ∧
        isSet t ⟨A.SYS_CLKSTAT, pllBit p, 1⟩ = false ∧
        hasEvent s t A.SYS_EVT 3 ∧
        t.faults.queue.map (·.code) = s.faults.queue.map (·.code) ++ [0x31] ∧
        isSet t F.LKH_FSTAT_DEGRADED = true ∧
        sameRegs ([A.SYS_CLKSTAT, A.SYS_EVT, A.LKH_FSTAT, A.LKH_FEVT, A.SYS_STATUS] ++ pendWords) s t ∧
        t = { s with evtLast := t.evtLast, regs := t.regs, faults := t.faults, sent := t.sent, lkp := { s.lkp with srcVal := t.lkp.srcVal } }) ∧
  (∀ (s : State), live s = true → calm s s = true → isSet s F.SYS_CLKSTAT_TMBLOCK = true → isSet s F.TMB_STATUS_HOLDOVER = false → 
      ∃ t, Sys2Proof.Machine.exec (.pllLockLoss 6) s = .next t ∧
        isSet t F.SYS_CLKSTAT_TMBLOCK = false ∧
        isSet t F.TMB_STATUS_HOLDOVER = true ∧
        t.faults.queue.map (·.code) = s.faults.queue.map (·.code) ++ [0x32] ∧
        t = { s with evtLast := t.evtLast, regs := t.regs, faults := t.faults, sent := t.sent, lkp := { s.lkp with srcVal := t.lkp.srcVal } }) ∧
  (∀ (p : Fin 10) (s : State), live s = true → calm s s = true → p.val < 5 → isSet s ⟨A.SYS_CLKSTAT, pllBit p, 1⟩ = true → failed s p = false → 
      ∃ t, Sys2Proof.Machine.exec (.pllLockLoss p) s = .next t ∧
        isSet t ⟨A.SYS_CLKSTAT, pllBit p, 1⟩ = false ∧
        failed t p = true ∧
        (t.faults.queue.any (·.code == 3)) = true ∧
        t.mem = s.mem) ∧
  (∀ (p : Fin 10) (s : State), live s = true → isSet s F.SYS_STATUS_READY = true → 5 ≤ p.val → (p.val ≠ 7 ∨ isSet s F.SYS_CLKSTAT_BTLLOCK = true) → (p.val ≠ 6 ∨ isSet s F.TMB_STATUS_HOLDOVER = true) → 
      ∃ t, Sys2Proof.Machine.exec (.pllRelock p) s = .next t ∧
        isSet t ⟨A.SYS_CLKSTAT, pllBit p, 1⟩ = true ∧
        (p.val ≠ 6 ∨ isSet t F.TMB_STATUS_HOLDOVER = false) ∧
        t = { s with evtLast := t.evtLast, regs := t.regs, sent := t.sent, lkp := { s.lkp with srcVal := t.lkp.srcVal } }) ∧
  (∀ (s : State), live s = true → isSet s F.SYS_STATUS_READY = true → isSet s F.SYS_CLKSTAT_BTLLOCK = false → 
      ∃ t, Sys2Proof.Machine.exec (.pllRelock 7) s = .next t ∧
        isSet t F.SYS_CLKSTAT_BTLLOCK = true ∧
        (∀ e : Fin 16, (t.engine e).due = [])) ∧
  (∀ (s : State), live s = true → isSet s F.SYS_CLKSTAT_REFOK = true → 
      ∃ t, Sys2Proof.Machine.exec (.refokLoss) s = .next t ∧
        isSet t F.SYS_CLKSTAT_REFOK = false ∧
        t.cfg.refLost = some s.now ∧
        hasEvent s t A.SYS_EVT 3 ∧
        sameRegs ([A.SYS_CLKSTAT, A.SYS_EVT] ++ pendWords) s t ∧
        t = { s with evtLast := t.evtLast, regs := t.regs, cfg := t.cfg, sent := t.sent, lkp := { s.lkp with srcVal := t.lkp.srcVal } }) ∧
  (∀ (s : State), live s = true → isSet s F.SYS_CLKSTAT_REFOK = false → 
      ∃ t, Sys2Proof.Machine.exec (.referenceRecovery) s = .next t ∧
        isSet t F.SYS_CLKSTAT_REFOK = true ∧
        t.cfg.refLost = none ∧
        sameRegs [A.SYS_CLKSTAT] s t ∧
        t = { s with regs := t.regs, cfg := t.cfg, sent := t.sent }) ∧
  (∀ (s : State), 
      ∃ t, Sys2Proof.Machine.exec (.vfieldLoss) s = .next t ∧
        t.fio.on = false ∧
        t = { s with fio := t.fio, sent := t.sent })

/-- Under conditions on the state and the operands alone, exec answers a next state for each command named here. On a module whose
fuses are blank and whose memories have no bad rows, POWER_ON, a low of RESET_N of 1 µs or more, WAKE_N in standby and PCI_DEVRST
with the right key each start the device up to READY without an image: SYS_STATUS shows READY and the kind of the reset,
CFG_STATUS.IMG reads NONE, and the fuses stand. A low of RESET_N under 0.2 µs changes nothing. The model's own choices that
clauses rest on: log 7, 36, 37 and 109. Each clause answers a next state by its conditions on the state and the operands alone: so
POWER_ON, RESET_N, WAKE_N and PCI_DEVRST complete. -/
def Obligations.PowerAndReset : Prop :=
  (∀ (lost : Bool) (b : Boot) (s : State), s.cfg.brownout = false → s.cfg.fuses.lcs = 0 → b.bad = [] → b.calFail = 0 → 
      ∃ t, Sys2Proof.Machine.exec (.powerOn lost b) s = .next t ∧
        isSet t F.SYS_STATUS_READY = true ∧
        getF t F.SYS_STATUS_LASTRST = 0 ∧
        getF t F.CFG_STATUS_IMG = 0 ∧
        live t = true ∧
        t.cfg.fuses.keyHash = s.cfg.fuses.keyHash) ∧
  (∀ (low : Nat) (b : Boot) (s : State), 1000 ≤ low → s.cfg.brownout = false → s.faults.testOpen = false → s.cfg.fuses.lcs = 0 → b.bad = [] → b.calFail = 0 → 
      ∃ t, Sys2Proof.Machine.exec (.resetN low b) s = .next t ∧
        isSet t F.SYS_STATUS_READY = true ∧
        getF t F.SYS_STATUS_LASTRST = 2 ∧
        getF t F.CFG_STATUS_IMG = 0 ∧
        live t = true ∧
        t.cfg.fuses.keyHash = s.cfg.fuses.keyHash) ∧
  (∀ (low : Nat) (b : Boot) (s : State), low < 200 → calm s s = true → 
      ∃ t, Sys2Proof.Machine.exec (.resetN low b) s = .next t ∧
        t = { s with sent := t.sent }) ∧
  (∀ (b : Boot) (s : State), s.cfg.standby = true → s.faults.testOpen = false → s.faults.stopped = false → s.cfg.fuses.lcs = 0 → b.bad = [] → b.calFail = 0 → 
      ∃ t, Sys2Proof.Machine.exec (.wakeN b) s = .next t ∧
        isSet t F.SYS_STATUS_READY = true ∧
        getF t F.SYS_STATUS_LASTRST = 6 ∧
        getF t F.CFG_STATUS_IMG = 0 ∧
        live t = true ∧
        t.cfg.fuses.keyHash = s.cfg.fuses.keyHash) ∧
  (∀ (who : Who) (key : BitVec 16) (s : State), live s = true → calm s s = true → isPriv s who = true → key = 0xA5C3#16 → s.faults.testOpen = false → s.faults.stopped = false → s.cfg.fuses.lcs = 0 → s.boot.bad = [] → s.boot.calFail = 0 → unguarded s who = true → 
      ∃ t, Sys2Proof.Machine.exec (.pciDevrst who key) s = .next t ∧
        isSet t F.SYS_STATUS_READY = true ∧
        getF t F.SYS_STATUS_LASTRST = 4 ∧
        getF t F.CFG_STATUS_IMG = 0 ∧
        live t = true ∧
        t.cfg.fuses.keyHash = s.cfg.fuses.keyHash)

/-- Under conditions on the state and the operands alone, exec answers a next state for each command named here. A supply warning sets
PWRWARN, records PWRWARN and notes the dip; its end clears PWRWARN, counts the dip in CFG_PWRLOG with its lowest voltage, and
queues fault 0x38. A brownout holds the device in reset with LASTRST 1, and before READY with LASTRST 0 (log 170); VIN_L valid
again within the hold-up starts it up to READY with LASTRST 1. Standby is entered from LOAD or STOPPED, and no block but the
always-on ones has power. A field calibration that start-up left due ends with the items that failed in CALFAIL. The model's own
choices that clauses rest on: log 15 and 33. Each clause answers a next state by its conditions on the state and the operands
alone: so SUPPLY_WARNING, SUPPLY_DIP_END, BROWNOUT, POWER_ON, STANDBY and FIELD_CALIBRATION complete. -/
def Obligations.SupplyAndStandby : Prop :=
  (∀ (vin : Nat) (s : State), live s = true → isSet s F.SYS_STATUS_PWRWARN = false → s.scan.retRun.isSome = true → 
      ∃ t, Sys2Proof.Machine.exec (.supplyWarning vin) s = .next t ∧
        isSet t F.SYS_STATUS_PWRWARN = true ∧
        t.cfg.dip = some (s.now, vin) ∧
        hasEvent s t A.SYS_EVT 4 ∧
        sameRegs ([A.SYS_STATUS, A.SYS_EVT] ++ pendWords) s t ∧
        t = { s with evtLast := t.evtLast, regs := t.regs, cfg := t.cfg, sent := t.sent, lkp := { s.lkp with srcVal := t.lkp.srcVal } }) ∧
  (∀ (vin t0 v0 : Nat) (s : State), live s = true → s.cfg.dip = some (t0, v0) → 
      ∃ t, Sys2Proof.Machine.exec (.supplyDipEnd vin) s = .next t ∧
        isSet t F.SYS_STATUS_PWRWARN = false ∧
        t.cfg.dip = none ∧
        getF t F.CFG_PWRLOG_COUNT = min (getF s F.CFG_PWRLOG_COUNT + 1) (2 ^ F.CFG_PWRLOG_COUNT.w - 1) ∧
        getF t F.CFG_PWRLOG_MIN = min (min v0 vin) 511 ∧
        getF t F.CFG_PWRLOG_DUR = min ((s.now - t0) / 10000) 65535 ∧
        t.faults.queue.map (·.code) = s.faults.queue.map (·.code) ++ [0x38] ∧
        sameRegs ([A.SYS_STATUS, A.CFG_PWRLOG, A.CFG_EVT] ++ pendWords) s t ∧
        t = { s with evtLast := t.evtLast, regs := t.regs, cfg := t.cfg, faults := t.faults, sent := t.sent, lkp := { s.lkp with srcVal := t.lkp.srcVal } }) ∧
  (∀ (vin : Nat) (s : State), s.cfg.brownout = false → isSet s F.SYS_STATUS_READY = true → 
      ∃ t, Sys2Proof.Machine.exec (.brownout vin) s = .next t ∧
        t.cfg.brownout = true ∧
        t.cfg.halted = true ∧
        getF t F.SYS_STATUS_LASTRST = 1 ∧
        isSet t F.SYS_STATUS_READY = false ∧
        t.cfg.fuses.keyHash = s.cfg.fuses.keyHash) ∧
  (∀ (vin : Nat) (s : State), s.cfg.brownout = false → isSet s F.SYS_STATUS_READY = false → 
      ∃ t, Sys2Proof.Machine.exec (.brownout vin) s = .next t ∧
        t.cfg.brownout = true ∧
        t.cfg.halted = true ∧
        getF t F.SYS_STATUS_LASTRST = 0 ∧
        isSet t F.SYS_STATUS_READY = false ∧
        t.faults.testOpen = false ∧
        t.cfg.fuses.keyHash = s.cfg.fuses.keyHash) ∧
  (∀ (lost : Bool) (b : Boot) (s : State), s.cfg.brownout = true → getF s F.SYS_STATUS_LASTRST = 1 → lost = false → s.cfg.fuses.lcs = 0 → b.bad = [] → b.calFail = 0 → 
      ∃ t, Sys2Proof.Machine.exec (.powerOn lost b) s = .next t ∧
        isSet t F.SYS_STATUS_READY = true ∧
        getF t F.SYS_STATUS_LASTRST = 1 ∧
        getF t F.CFG_STATUS_IMG = 0 ∧
        live t = true ∧
        t.cfg.fuses.keyHash = s.cfg.fuses.keyHash) ∧
  (∀ (who : Who) (s : State), live s = true → calm s s = true → isPriv s who = true → s.faults.coreStopped = false → (getF s F.SCN_STATUS_CSTATE = 0 ∨ getF s F.SCN_STATUS_CSTATE = 3) → s.scan.retRun = none → unguarded s who = true → 
      ∃ t, Sys2Proof.Machine.exec (.standby who) s = .next t ∧
        t.cfg.standby = true ∧
        powered t = false ∧
        ((List.range 40).all (fun i => (t.core i).st == .off) = true) ∧
        t.basin = Basin.reset ∧
        isSet t F.SYS_CLKSTAT_BASLOCK = false) ∧
  (∀ (fail : Nat) (s : State), live s = true → isSet s F.SYS_STATUS_FIELDOK = true → (s.cfg.calDue = true ∨ s.cfg.recal = true) → 
      ∃ t, Sys2Proof.Machine.exec (.fieldCalibration fail) s = .next t ∧
        getF t F.CFG_STATUS_CALFAIL = (getF s F.CFG_STATUS_CALFAIL &&& 0x8F) ||| (fail &&& 0x70) ∧
        t.cfg.calDue = false ∧
        t.cfg.recal = false ∧
        t = { s with evtLast := t.evtLast, regs := t.regs, cfg := t.cfg, faults := t.faults, sent := t.sent, lkp := { s.lkp with srcVal := t.lkp.srcVal } })

/-- Under conditions on the state and the operands alone, exec answers a next state for each command named here. Each CFG command of a
privileged initiator, while the Lockhouse core runs, starts what its rule says: FRECAL makes a recalibration due, RCTRIM changes
nothing but the command register, VERIFY names the slot and sets VBUSY, MCOPY keeps source, target and lines and sets MBUSY,
ATTEST is refused without a key and else keeps the message it signs, BLKRST gives every register of a Beetle cluster its reset
value. The commands that end a verification, a copy or an attestation clear what was in progress and record their event. The
model's own choices that clauses rest on: log 22, 35 and 139. Each clause answers a next state by its conditions on the state and
the operands alone: so FRECAL, RCTRIM, VERIFY, VERIFY_DONE, MCOPY, MCOPY_DONE, ATTEST, ATTEST_DONE and BLKRST complete. -/
def Obligations.ConfigurationCommands : Prop :=
  (∀ (who : Who) (s : State), live s = true → isPriv s who = true → s.faults.coreStopped = false → unguarded s who = true → 
      ∃ t, Sys2Proof.Machine.exec (.frecal who) s = .next t ∧
        t.cfg = { s.cfg with recal := true } ∧
        sameRegs [A.CFG_CMD] s t ∧
        t = { s with regs := t.regs, cfg := t.cfg, sent := t.sent }) ∧
  (∀ (who : Who) (s : State), live s = true → isPriv s who = true → s.faults.coreStopped = false → unguarded s who = true → 
      ∃ t, Sys2Proof.Machine.exec (.rctrim who) s = .next t ∧
        sameRegs [A.CFG_CMD] s t ∧
        t = { s with regs := t.regs, sent := t.sent }) ∧
  (∀ (who : Who) (slot : Fin 2) (s : State), live s = true → isPriv s who = true → s.faults.coreStopped = false → s.cfg.verify = none → unguarded s who = true → 
      ∃ t, Sys2Proof.Machine.exec (.verify who slot) s = .next t ∧
        t.cfg = { s.cfg with verify := some slot.val } ∧
        isSet t F.CFG_STATUS_VBUSY = true ∧
        sameRegs [A.CFG_CMD, A.CFG_STATUS] s t ∧
        t = { s with regs := t.regs, cfg := t.cfg, sent := t.sent }) ∧
  (∀ (n : Fin 2) (s : State), live s = true → s.cfg.verify = some n.val → merges s A.CFG_EVT 3 = false → 
      ∃ t, Sys2Proof.Machine.exec (.verifyDone) s = .next t ∧
        isSet t F.CFG_STATUS_VBUSY = false ∧
        t.cfg.verify = none ∧
        getF t (F.CFG_SLOT_ERR n) = slotVerify s n ∧
        isSet t (F.CFG_SLOT_VALID n) = (slotVerify s n == 0) ∧
        hasEvent s t A.CFG_EVT 3 ∧
        t = { s with evtLast := t.evtLast, regs := t.regs, cfg := t.cfg, sent := t.sent, lkp := { s.lkp with srcVal := t.lkp.srcVal } }) ∧
  (∀ (who : Who) (lines : Fin 262144) (s : State), live s = true → isPriv s who = true → s.faults.coreStopped = false → s.cfg.mcopy = none → 1 ≤ lines.val → lines.val ≤ 131071 → mcopyRefused s (64 * getF s F.CFG_MDST_OFF) (64 * lines.val) = false → unguarded s who = true → 
      ∃ t, Sys2Proof.Machine.exec (.mcopy who lines) s = .next t ∧
        t.cfg = { s.cfg with mcopy := some (getF s F.CFG_MSRC_ADDR * 64, getF s F.CFG_MDST_OFF * 64, lines.val) } ∧
        isSet t F.CFG_STATUS_MBUSY = true ∧
        sameRegs [A.CFG_MCOPY, A.CFG_STATUS] s t ∧
        t = { s with regs := t.regs, cfg := t.cfg, sent := t.sent }) ∧
  (∀ (who : Who) (lines : Fin 262144) (s : State), live s = true → isPriv s who = true → s.faults.coreStopped = false → s.cfg.mcopy = none → 1 ≤ lines.val → lines.val ≤ 131071 → mcopyRefused s (64 * getF s F.CFG_MDST_OFF) (64 * lines.val) = true → merges s A.CFG_EVT 4 = false → unguarded s who = true → 
      ∃ t, Sys2Proof.Machine.exec (.mcopy who lines) s = .next t ∧
        getF t F.CFG_MCOPY_RESULT = 1 ∧
        hasEvent s t A.CFG_EVT 4 ∧
        sameRegs ([A.CFG_MCOPY, A.CFG_EVT] ++ pendWords) s t ∧
        t = { s with evtLast := t.evtLast, regs := t.regs, sent := t.sent, lkp := { s.lkp with srcVal := t.lkp.srcVal } }) ∧
  (∀ (src dst : Nat) (s : State), live s = true → calm s s = true → s.cfg.mcopy = some (src, dst, 0) → isSet s F.SYS_STATUS_PWRWARN = false → s.scan.retRun = none → merges s A.CFG_EVT 4 = false → 
      ∃ t, Sys2Proof.Machine.exec (.mcopyDone) s = .next t ∧
        t.cfg = { s.cfg with mcopy := none } ∧
        isSet t F.CFG_STATUS_MBUSY = false ∧
        getF t F.CFG_MCOPY_RESULT = 0 ∧
        hasEvent s t A.CFG_EVT 4 ∧
        sameRegs ([A.CFG_MCOPY, A.CFG_STATUS, A.CFG_EVT] ++ pendWords) s t ∧
        t = { s with evtLast := t.evtLast, regs := t.regs, cfg := t.cfg, sent := t.sent, lkp := { s.lkp with srcVal := t.lkp.srcVal } }) ∧
  (∀ (who : Who) (k : Nat) (s : State), live s = true → isPriv s who = true → s.faults.coreStopped = false → s.cfg.fuses.key = some k → s.cfg.attest = none → unguarded s who = true → 
      ∃ t, Sys2Proof.Machine.exec (.attest who) s = .next t ∧
        t.cfg = { s.cfg with attest := some (attMessage s) } ∧
        sameRegs [A.CFG_ATTCMD] s t ∧
        t = { s with regs := t.regs, cfg := t.cfg, sent := t.sent }) ∧
  (∀ (who : Who) (s : State), live s = true → isPriv s who = true → s.faults.coreStopped = false → s.cfg.fuses.key = none → unguarded s who = true → 
      ∃ t, Sys2Proof.Machine.exec (.attest who) s = .next t ∧
        getF t F.CFG_ATTCMD_RESULT = 1 ∧
        sameRegs [A.CFG_ATTCMD] s t ∧
        t = { s with regs := t.regs, sent := t.sent }) ∧
  (∀ (h d : Nat) (s : State), live s = true → s.cfg.attest = some h → s.cfg.fuses.key = some d → merges s A.CFG_EVT 7 = false → 
      ∃ t, Sys2Proof.Machine.exec (.attestDone) s = .next t ∧
        t.cfg = { s.cfg with attest := none } ∧
        getF t F.CFG_ATTCMD_RESULT = 0 ∧
        hasEvent s t A.CFG_EVT 7 ∧
        t.free = s.free + 8 ∧
        t = { s with evtLast := t.evtLast, regs := t.regs, cfg := t.cfg, free := t.free, sent := t.sent, lkp := { s.lkp with srcVal := t.lkp.srcVal } }) ∧
  (∀ (who : Who) (block : BitVec 8) (a : Fin 0x4000) (s : State), live s = true → calm s s = true → isPriv s who = true → s.faults.coreStopped = false → (block = 0x0A#8 ∨ block = 0x0B#8) → unguarded s who = true → 
      ∃ t, Sys2Proof.Machine.exec (.blkrst who block) s = .next t ∧
        rd t ((0x6000 + block.toNat) * 0x10000 + a.val) = w32 (resetNat ((0x6000 + block.toNat) * 0x10000 + a.val)) ∧
        t.mem = s.mem)

/-- Under conditions on the state and the operands alone, exec answers a next state for each command named here. A CFG_LCCMD operation
with CONFIRM 0xC5 whose condition R477 holds is performed: the four life-cycle changes begin and read BUSY, REVOKE, ROLLUP,
KEYPROG and DSKGEN blow their fuses at once and read OK. Without the confirmation, or where the condition does not hold, every one
of them reads REFUSED and changes nothing but CFG_LCCMD. A change that has blown its fuses stands in the fuses, kills the device
secret on entry to RETURN or SCRAPPED, and records LCDONE. The model's own choices that clauses rest on: log 29 and 139. Each
clause answers a next state by its conditions on the state and the operands alone: so LC_TO_MANUFACTURE, LC_TO_FIELD,
LC_TO_RETURN, LC_TO_SCRAPPED, REVOKE, ROLLUP, KEYPROG, DSKGEN and LC_FUSE_DONE complete. -/
def Obligations.LifeCycle : Prop :=
  (∀ (who : Who) (confirm : BitVec 8) (key : Fin 4) (s : State), live s = true → isPriv s who = true → s.faults.coreStopped = false → s.cfg.lcChange = none → (confirm = 0xC5#8 ∧ lcAccepts s 1 key = true) → unguarded s who = true → 
      ∃ t, Sys2Proof.Machine.exec (.lcToManufacture who confirm key) s = .next t ∧
        t.cfg = { s.cfg with lcChange := some 1 } ∧
        getF t F.CFG_LCCMD_RESULT = 2 ∧
        sameRegs [A.CFG_LCCMD] s t ∧
        t = { s with regs := t.regs, cfg := t.cfg, sent := t.sent }) ∧
  (∀ (who : Who) (confirm : BitVec 8) (key : Fin 4) (s : State), live s = true → isPriv s who = true → s.faults.coreStopped = false → s.cfg.lcChange = none → (¬ (confirm = 0xC5#8 ∧ lcAccepts s 1 key = true)) → unguarded s who = true → 
      ∃ t, Sys2Proof.Machine.exec (.lcToManufacture who confirm key) s = .next t ∧
        getF t F.CFG_LCCMD_RESULT = 1 ∧
        t.cfg = s.cfg ∧
        sameRegs [A.CFG_LCCMD] s t ∧
        t = { s with regs := t.regs, cfg := t.cfg, sent := t.sent }) ∧
  (∀ (who : Who) (confirm : BitVec 8) (key : Fin 4) (s : State), live s = true → isPriv s who = true → s.faults.coreStopped = false → s.cfg.lcChange = none → (confirm = 0xC5#8 ∧ lcAccepts s 2 key = true) → unguarded s who = true → 
      ∃ t, Sys2Proof.Machine.exec (.lcToField who confirm key) s = .next t ∧
        t.cfg = { s.cfg with lcChange := some 2 } ∧
        getF t F.CFG_LCCMD_RESULT = 2 ∧
        sameRegs [A.CFG_LCCMD] s t ∧
        t = { s with regs := t.regs, cfg := t.cfg, sent := t.sent }) ∧
  (∀ (who : Who) (confirm : BitVec 8) (key : Fin 4) (s : State), live s = true → isPriv s who = true → s.faults.coreStopped = false → s.cfg.lcChange = none → (¬ (confirm = 0xC5#8 ∧ lcAccepts s 2 key = true)) → unguarded s who = true → 
      ∃ t, Sys2Proof.Machine.exec (.lcToField who confirm key) s = .next t ∧
        getF t F.CFG_LCCMD_RESULT = 1 ∧
        t.cfg = s.cfg ∧
        sameRegs [A.CFG_LCCMD] s t ∧
        t = { s with regs := t.regs, cfg := t.cfg, sent := t.sent }) ∧
  (∀ (who : Who) (confirm : BitVec 8) (key : Fin 4) (s : State), live s = true → isPriv s who = true → s.faults.coreStopped = false → s.cfg.lcChange = none → (confirm = 0xC5#8 ∧ lcAccepts s 3 key = true) → unguarded s who = true → 
      ∃ t, Sys2Proof.Machine.exec (.lcToReturn who confirm key) s = .next t ∧
        t.cfg = { s.cfg with lcChange := some 3 } ∧
        getF t F.CFG_LCCMD_RESULT = 2 ∧
        sameRegs [A.CFG_LCCMD] s t ∧
        t = { s with regs := t.regs, cfg := t.cfg, sent := t.sent }) ∧
  (∀ (who : Who) (confirm : BitVec 8) (key : Fin 4) (s : State), live s = true → isPriv s who = true → s.faults.coreStopped = false → s.cfg.lcChange = none → (¬ (confirm = 0xC5#8 ∧ lcAccepts s 3 key = true)) → unguarded s who = true → 
      ∃ t, Sys2Proof.Machine.exec (.lcToReturn who confirm key) s = .next t ∧
        getF t F.CFG_LCCMD_RESULT = 1 ∧
        t.cfg = s.cfg ∧
        sameRegs [A.CFG_LCCMD] s t ∧
        t = { s with regs := t.regs, cfg := t.cfg, sent := t.sent }) ∧
  (∀ (who : Who) (confirm : BitVec 8) (key : Fin 4) (s : State), live s = true → isPriv s who = true → s.faults.coreStopped = false → s.cfg.lcChange = none → (confirm = 0xC5#8 ∧ lcAccepts s 4 key = true) → unguarded s who = true → 
      ∃ t, Sys2Proof.Machine.exec (.lcToScrapped who confirm key) s = .next t ∧
        t.cfg = { s.cfg with lcChange := some 4 } ∧
        getF t F.CFG_LCCMD_RESULT = 2 ∧
        sameRegs [A.CFG_LCCMD] s t ∧
        t = { s with regs := t.regs, cfg := t.cfg, sent := t.sent }) ∧
  (∀ (who : Who) (confirm : BitVec 8) (key : Fin 4) (s : State), live s = true → isPriv s who = true → s.faults.coreStopped = false → s.cfg.lcChange = none → (confirm = 0xC5#8 ∧ lcAccepts s 5 key = true) → unguarded s who = true → 
      ∃ t, Sys2Proof.Machine.exec (.revoke who confirm key) s = .next t ∧
        bitAt (getF t F.CFG_KEYSTAT_REVOKED) key = true ∧
        getF t F.CFG_LCCMD_RESULT = 0 ∧
        sameRegs [A.CFG_LCCMD, A.CFG_KEYSTAT] s t ∧
        t = { s with regs := t.regs, sent := t.sent }) ∧
  (∀ (who : Who) (confirm : BitVec 8) (key : Fin 4) (n : Fin 2) (s : State), live s = true → isPriv s who = true → s.faults.coreStopped = false → s.cfg.lcChange = none → (confirm = 0xC5#8 ∧ lcAccepts s 6 key = true) → loadedSlot s = some n.val → unguarded s who = true → 
      ∃ t, Sys2Proof.Machine.exec (.rollup who confirm key) s = .next t ∧
        getF t F.CFG_KEYSTAT_ROLLCNT = max (getF s F.CFG_KEYSTAT_ROLLCNT) (hdr s n 0x15 1) ∧
        getF t F.CFG_LCCMD_RESULT = 0 ∧
        sameRegs [A.CFG_LCCMD, A.CFG_KEYSTAT] s t ∧
        t = { s with regs := t.regs, sent := t.sent }) ∧
  (∀ (who : Who) (confirm : BitVec 8) (key : Fin 4) (s : State), live s = true → isPriv s who = true → s.faults.coreStopped = false → s.cfg.lcChange = none → (confirm = 0xC5#8 ∧ lcAccepts s 7 key = true) → unguarded s who = true → 
      ∃ t, Sys2Proof.Machine.exec (.keyprog who confirm key) s = .next t ∧
        bitAt (getF t F.CFG_KEYSTAT_PROG) key = true ∧
        t.cfg.fuses.keyHash[key.val] = attValue s 0 ∧
        getF t F.CFG_LCCMD_RESULT = 0 ∧
        sameRegs [A.CFG_LCCMD, A.CFG_KEYSTAT] s t ∧
        t = { s with regs := t.regs, cfg := t.cfg, sent := t.sent }) ∧
  (∀ (who : Who) (confirm : BitVec 8) (key : Fin 4) (s : State), live s = true → isPriv s who = true → s.faults.coreStopped = false → s.cfg.lcChange = none → (confirm = 0xC5#8 ∧ lcAccepts s 8 key = true) → unguarded s who = true → 
      ∃ t, Sys2Proof.Machine.exec (.dskgen who confirm key) s = .next t ∧
        isSet t F.CFG_KEYSTAT_DSKPROG = true ∧
        getF t F.CFG_LCCMD_RESULT = 0 ∧
        t.free = s.free + 8 ∧
        sameRegs [A.CFG_LCCMD, A.CFG_KEYSTAT] s t ∧
        t = { s with regs := t.regs, cfg := t.cfg, free := t.free, sent := t.sent }) ∧
  (∀ (n : Fin 5) (s : State), live s = true → s.cfg.lcChange = some n.val → merges s A.CFG_EVT 6 = false → 
      ∃ t, Sys2Proof.Machine.exec (.lcFuseDone) s = .next t ∧
        t.cfg = { s.cfg with lcChange := none, fuses := { s.cfg.fuses with lcs := max s.cfg.fuses.lcs n } } ∧
        (n.val < 3 ∨ isSet t F.CFG_KEYSTAT_DSKKILL = true) ∧
        getF t F.CFG_LCCMD_RESULT = 0 ∧
        hasEvent s t A.CFG_EVT 6 ∧
        sameRegs ([A.CFG_LCCMD, A.CFG_KEYSTAT, A.CFG_EVT] ++ pendWords) s t ∧
        t = { s with evtLast := t.evtLast, regs := t.regs, cfg := t.cfg, sent := t.sent, lkp := { s.lkp with srcVal := t.lkp.srcVal } })

/-- A slice outside the Basin starts in its gap and shows in BST_STATUS.RUNNING. One that ends with its state restored and its
signature right leaves RUNNING at NONE and no failure mark, and counts as done; captures of the shadow unit then pass into CAPT,
and a request of the host that has waited for the bridge is answered (log 100). A block that has gone 1.2 s without its slices is
LATENT: BST_EVT.LATENT and fault 0x26. The Lockhouse writes the oldest waiting fault into MRAM at NEXT, advances NEXT and TOTAL
and records LOGGED. The model's own choices that clauses rest on: log 15 and 100. Each clause answers a next state by its
conditions on the state and the operands alone: so SHARED_SLICE_START, SHARED_SLICE_END, SHARED_LATENT and FAULT_LOG_WRITE
complete. -/
def Obligations.SharedSlices : Prop :=
  (∀ (k : Fin 88) (s : State), live s = true → 48 ≤ k.val → sliceRunning s = none → isSet s F.SYS_STATUS_READY = true → s.faults.coreStopped = false → s.rot.window = none → s.scan.aborting = false → s.cfg.slices.contains k.val = false → gapFor s k = true → 
      ∃ t, Sys2Proof.Machine.exec (.sharedSliceStart k) s = .next t ∧
        sliceRunning t = some k.val ∧
        sameRegs [A.BST_STATUS] s t ∧
        t = { s with regs := t.regs, sent := t.sent }) ∧
  (∀ (sig : Word) (k : Fin 88) (s : State), live s = true → calm s s = true → 64 ≤ k.val → sliceRunning s = some k.val → s.rot.held = [] → s.brg.gathers = [] → s.brg.waits = [] → s.tmb.shadow = [] → 
      ∃ t, Sys2Proof.Machine.exec (.sharedSliceEnd true true sig) s = .next t ∧
        getF t F.BST_STATUS_RUNNING = 0xFF ∧
        getF t ⟨A.BST_STATUS, blockOfSlice k, 1⟩ = 0 ∧
        sameRegs [A.BST_STATUS] s t ∧
        t = { s with regs := t.regs, cfg := t.cfg, sent := t.sent }) ∧
  (∀ (sig : Word) (k : Fin 88) (u : Fin 32) (h : Nat) (s : State), live s = true → calm s s = true → 80 ≤ k.val → sliceRunning s = some k.val → s.rot.held = [] → s.brg.gathers = [] → s.brg.waits = [] → s.tmb.shadow = [(u.val, h)] → isSet s (F.TMB_UNIT_STAT_VALID u) = false → h < 2 ^ 64 → 
      ∃ t, Sys2Proof.Machine.exec (.sharedSliceEnd true true sig) s = .next t ∧
        getF t F.BST_STATUS_RUNNING = 0xFF ∧
        t.tmb = { s.tmb with shadow := [] } ∧
        rd64 t (A.TMB_UNIT_CAPT u) = h ∧
        isSet t (F.TMB_UNIT_STAT_VALID u) = true ∧
        sameRegs [A.BST_STATUS, A.TMB_UNIT_CAPT u, A.TMB_UNIT_CAPT u + 4, A.TMB_UNIT_STAT u] s t ∧
        t = { s with regs := t.regs, cfg := t.cfg, tmb := t.tmb, sent := t.sent }) ∧
  (∀ (sig : Word) (k : Fin 88) (off tag : Nat) (s : State), live s = true → calm s s = true → 64 ≤ k.val → k.val < 80 → sliceRunning s = some k.val → s.rot.window = none → s.rot.held = [] → s.brg.gathers = [] → s.brg.waits = [.memRead off 4 tag] → s.brg.reads = [] → isSet s F.BRG_CTL_HEN = false → 
      ∃ t, Sys2Proof.Machine.exec (.sharedSliceEnd true true sig) s = .next t ∧
        getF t F.BST_STATUS_RUNNING = 0xFF ∧
        t.brg = { s.brg with waits := [] } ∧
        t.sent = [{ chan := .host, bytes := [1, b8 tag] }] ∧
        isSet t ⟨A.PCI_EVT, 3, 1⟩ = true ∧
        sameRegs ([A.BST_STATUS, A.PCI_EVT] ++ pendWords) s t) ∧
  (∀ (b : Fin 6) (s : State), live s = true → vget s.cfg.blockLatent b = false → isSet s F.SYS_STATUS_READY = true → vget s.cfg.blockAt b + 1200000000 < s.now → merges s A.BST_EVT 1 = false → 
      ∃ t, Sys2Proof.Machine.exec (.sharedLatent b) s = .next t ∧
        vget t.cfg.blockLatent b = true ∧
        hasEvent s t A.BST_EVT 1 ∧
        t.faults.queue.map (·.code) = s.faults.queue.map (·.code) ++ [0x26] ∧
        isSet t F.LKH_FSTAT_DEGRADED = true ∧
        sameRegs ([A.BST_EVT, A.LKH_FSTAT, A.LKH_FEVT, A.SYS_STATUS] ++ pendWords) s t ∧
        t = { s with evtLast := t.evtLast, regs := t.regs, cfg := t.cfg, faults := t.faults, sent := t.sent, lkp := { s.lkp with srcVal := t.lkp.srcVal } }) ∧
  (∀ (e : FaultEntry) (l : List FaultEntry) (s : State), live s = true → s.faults.coreStopped = false → s.scan.retRun = none → s.faults.queue = e :: l → s.faults.last = none → merges s A.LKH_FEVT 2 = false → 
      ∃ t, Sys2Proof.Machine.exec (.faultLogWrite) s = .next t ∧
        t.faults = { s.faults with queue := l, last := some (getF s F.LKH_FLOGPTR_NEXT, e, e.time, 0), seq := s.faults.seq + 1 } ∧
        bytesAt t (0x41400000 + 64 * getF s F.LKH_FLOGPTR_NEXT) 64 = (entryWords e s.faults.seq 0).flatMap (leBytes 4) ∧
        getF t F.LKH_FLOGPTR_NEXT = (getF s F.LKH_FLOGPTR_NEXT + 1) % 2 ^ F.LKH_FLOGPTR_NEXT.w ∧
        getF t F.LKH_FLOGPTR_TOTAL = (getF s F.LKH_FLOGPTR_TOTAL + 1) % 2 ^ F.LKH_FLOGPTR_TOTAL.w ∧
        hasEvent s t A.LKH_FEVT 2 ∧
        sameRegs ([A.LKH_FLOGPTR, A.LKH_FEVT] ++ pendWords) s t ∧
        sameBytes (0x41400000 + 64 * getF s F.LKH_FLOGPTR_NEXT) 64 s t ∧
        t = { s with evtLast := t.evtLast, regs := t.regs, faults := t.faults, mem := t.mem, ecc := t.ecc, sent := t.sent, lkp := { s.lkp with srcVal := t.lkp.srcVal } })

/-- On a module with blank fuses, each watchdog resets the device with kind 3 and a mismatch of the two copies of TIME, a failing ROM
check and a reference lost for 100 µs reset it with the kind of their fault, after which the fault log holds one entry more and
READY is reached. The ROM check that passes changes nothing. A kick with the key restarts the count of an enabled application
watchdog. FCLR clears DEVRST and STOP where control has restarted. A stopped Lockhouse core is remembered. The model's own choices
that clauses rest on: log 20, 28 and 36. Each clause answers a next state by its conditions on the state and the operands alone:
so LWD_EXPIRE, INTERCONNECT_WATCHDOG, LOCKKEEPER_WATCHDOG, AWD_EXPIRE, ROM_CRC_CHECK, TIME_COPY_MISMATCH, REFERENCE_FAIL_TIMEOUT,
AWD_KICK, FCLR and LOCKHOUSE_CORE_STOP complete. -/
def Obligations.WatchdogsAndDeviceFaults : Prop :=
  (∀ (s : State), live s = true → calm s s = true → s.faults.wedged = false → s.faults.testOpen = false → s.faults.stopped = false → getF s F.LKH_FCFG_RSTMAX = 0 → s.faults.last = none → s.cfg.fuses.lcs = 0 → s.boot.bad = [] → s.boot.calFail = 0 → 
      ∃ t, Sys2Proof.Machine.exec (.lwdExpire) s = .next t ∧
        isSet t F.SYS_STATUS_READY = true ∧
        getF t F.SYS_STATUS_LASTRST = 3 ∧
        isSet t F.LKH_FSTAT_DEVRST = true ∧
        t.faults.seq = s.faults.seq + 1) ∧
  (∀ (a : Word) (s : State), live s = true → calm s s = true → s.faults.wedged = false → s.faults.testOpen = false → s.faults.stopped = false → getF s F.LKH_FCFG_RSTMAX = 0 → s.faults.last = none → s.cfg.fuses.lcs = 0 → s.boot.bad = [] → s.boot.calFail = 0 → 
      ∃ t, Sys2Proof.Machine.exec (.interconnectWatchdog a) s = .next t ∧
        isSet t F.SYS_STATUS_READY = true ∧
        getF t F.SYS_STATUS_LASTRST = 3 ∧
        isSet t F.LKH_FSTAT_DEVRST = true ∧
        t.faults.seq = s.faults.seq + 1) ∧
  (∀ (k : Nat) (x : Ready) (s : State), live s = true → calm s s = true → s.faults.wedged = false → s.faults.testOpen = false → s.faults.stopped = false → getF s F.LKH_FCFG_RSTMAX = 0 → s.faults.last = none → s.cfg.fuses.lcs = 0 → s.boot.bad = [] → s.boot.calFail = 0 → s.lkp.ready[k]? = some x → reachOf s x.role < 5 → ((s.lkp.idle.any fun i => decide (i / 8 = reachOf s x.role) && bitAt x.aff (i % 8)) = true) → x.since + 50000 ≤ time s → 
      ∃ t, Sys2Proof.Machine.exec (.lockkeeperWatchdog k) s = .next t ∧
        isSet t F.SYS_STATUS_READY = true ∧
        getF t F.SYS_STATUS_LASTRST = 3 ∧
        isSet t F.LKH_FSTAT_DEVRST = true ∧
        t.faults.seq = s.faults.seq + 1) ∧
  (∀ (tmo t0 : Nat) (s : State), live s = true → calm s s = true → s.faults.wedged = false → s.faults.testOpen = false → s.faults.stopped = false → getF s F.LKH_FCFG_RSTMAX = 0 → s.faults.last = none → s.cfg.fuses.lcs = 0 → s.boot.bad = [] → s.boot.calFail = 0 → s.faults.awd = some (tmo, t0) → t0 + 1000000 * tmo ≤ s.now → 
      ∃ t, Sys2Proof.Machine.exec (.awdExpire) s = .next t ∧
        isSet t F.SYS_STATUS_READY = true ∧
        getF t F.SYS_STATUS_LASTRST = 3 ∧
        isSet t F.LKH_FSTAT_DEVRST = true ∧
        t.faults.seq = s.faults.seq + 1) ∧
  (∀ (s : State), live s = true → calm s s = true → s.faults.wedged = false → s.faults.testOpen = false → s.faults.stopped = false → getF s F.LKH_FCFG_RSTMAX = 0 → s.faults.last = none → s.cfg.fuses.lcs = 0 → s.boot.bad = [] → s.boot.calFail = 0 → 
      ∃ t, Sys2Proof.Machine.exec (.romCrcCheck false) s = .next t ∧
        isSet t F.SYS_STATUS_READY = true ∧
        getF t F.SYS_STATUS_LASTRST = 3 ∧
        isSet t F.LKH_FSTAT_DEVRST = true ∧
        t.faults.seq = s.faults.seq + 1) ∧
  (∀ (s : State), live s = true → calm s s = true → 
      ∃ t, Sys2Proof.Machine.exec (.romCrcCheck true) s = .next t ∧
        t = { s with sent := t.sent }) ∧
  (∀ (other : Nat) (s : State), live s = true → calm s s = true → s.faults.wedged = false → s.faults.testOpen = false → s.faults.stopped = false → getF s F.LKH_FCFG_RSTMAX = 0 → s.faults.last = none → s.cfg.fuses.lcs = 0 → s.boot.bad = [] → s.boot.calFail = 0 → 
      ∃ t, Sys2Proof.Machine.exec (.timeCopyMismatch other) s = .next t ∧
        isSet t F.SYS_STATUS_READY = true ∧
        getF t F.SYS_STATUS_LASTRST = 7 ∧
        isSet t F.LKH_FSTAT_DEVRST = true ∧
        t.faults.seq = s.faults.seq + 1) ∧
  (∀ (t0 : Nat) (s : State), live s = true → calm s s = true → s.faults.wedged = false → s.faults.testOpen = false → s.faults.stopped = false → getF s F.LKH_FCFG_RSTMAX = 0 → s.faults.last = none → s.cfg.fuses.lcs = 0 → s.boot.bad = [] → s.boot.calFail = 0 → s.cfg.refLost = some t0 → t0 + 100000 ≤ s.now → 
      ∃ t, Sys2Proof.Machine.exec (.referenceFailTimeout) s = .next t ∧
        isSet t F.SYS_STATUS_READY = true ∧
        getF t F.SYS_STATUS_LASTRST = 7 ∧
        isSet t F.LKH_FSTAT_DEVRST = true ∧
        t.faults.seq = s.faults.seq + 1) ∧
  (∀ (who : Who) (key : Word) (s : State), live s = true → isPriv s who = true → isSet s F.LKH_AWD_EN = true → key = 0x5AA5#32 → unguarded s who = true → 
      ∃ t, Sys2Proof.Machine.exec (.awdKick who key) s = .next t ∧
        t.faults = { s.faults with awd := some (getF s F.LKH_AWD_TMO, s.now) } ∧
        sameRegs [] s t ∧
        t = { s with faults := t.faults, regs := t.regs, sent := t.sent }) ∧
  (∀ (who : Who) (key : Word) (s : State), live s = true → isPriv s who = true → key ≠ 0x5AA5#32 → unguarded s who = true → 
      ∃ t, Sys2Proof.Machine.exec (.awdKick who key) s = .next t ∧
        sameRegs [] s t ∧
        t = { s with regs := t.regs, sent := t.sent }) ∧
  (∀ (who : Who) (s : State), live s = true → isPriv s who = true → s.faults.coreStopped = false → unguarded s who = true → 
      ∃ t, Sys2Proof.Machine.exec (.fclr who) s = .next t ∧
        isSet t F.LKH_FSTAT_DEVRST = false ∧
        isSet t F.LKH_FSTAT_STOP = (isSet s F.LKH_FSTAT_STOP && getF s F.SCN_STATUS_CSTATE != 2) ∧
        isSet t F.LKH_FSTAT_REACH = (isSet s F.LKH_FSTAT_REACH && anyFailed s) ∧
        isSet t F.LKH_FSTAT_DEGRADED = (isSet s F.LKH_FSTAT_DEGRADED && !fullService s) ∧
        sameRegs [A.LKH_FSTAT, A.SYS_STATUS, A.LKH_FCLR] s t ∧
        t = { s with regs := t.regs, sent := t.sent }) ∧
  (∀ (s : State), live s = true → 
      ∃ t, Sys2Proof.Machine.exec (.lockhouseCoreStop) s = .next t ∧
        t.faults = { s.faults with coreStopped := true } ∧
        t = { s with faults := t.faults, sent := t.sent })

/-- Fuse repair and a manual test are refused outside MANUFACTURE and RETURN; a manual test there begins with the memory it names, and
an MBIST of the matching store that finds nothing bad ends with PASS and an empty store. The debug port's writes have the effect
of a write of initiator 55, and a request for test access is kept for the next start-up. A restart that has no write to wait for
ends in RUN with every CYCNO 0 and every enabled task in WAIT. The model's own choices that clauses rest on: log 5, 38 and 103.
Each clause answers a next state by its conditions on the state and the operands alone: so FUSE_REPAIR, MANUAL_TEST,
MANUAL_TEST_END, DEBUG_PORT_ACCESS and RESTART_COMPLETE complete. -/
def Obligations.ManualTests : Prop :=
  (∀ (who : Who) (s : State), live s = true → isPriv s who = true → s.faults.coreStopped = false → getF s F.SYS_STATUS_LCS ≠ 1 → getF s F.SYS_STATUS_LCS ≠ 3 → unguarded s who = true → 
      ∃ t, Sys2Proof.Machine.exec (.fuseRepair who) s = .next t ∧
        getF t F.BST_FUSECMD_RESULT = 1 ∧
        sameRegs [A.BST_FUSECMD] s t ∧
        t = { s with regs := t.regs, sent := t.sent }) ∧
  (∀ (who : Who) (s : State), live s = true → isPriv s who = true → s.faults.coreStopped = false → getF s F.SYS_STATUS_LCS = 1 → s.cfg.repairs = [] → unguarded s who = true → 
      ∃ t, Sys2Proof.Machine.exec (.fuseRepair who) s = .next t ∧
        getF t F.BST_FUSECMD_RESULT = 0 ∧
        t.free = s.free + 1 ∧
        sameRegs [A.BST_FUSECMD] s t ∧
        t = { s with regs := t.regs, free := t.free, cfg := t.cfg, sent := t.sent } ∧
        t.cfg = s.cfg) ∧
  (∀ (who : Who) (kind : Fin 2) (mem : BitVec 8) (s : State), live s = true → isPriv s who = true → s.faults.coreStopped = false → (getF s F.SYS_STATUS_LCS = 1 ∨ getF s F.SYS_STATUS_LCS = 3) → (mem.toNat < 5 ∨ (mem.toNat < 9 ∧ kind = 0)) → unguarded s who = true → 
      ∃ t, Sys2Proof.Machine.exec (.manualTest who kind mem) s = .next t ∧
        t.cfg = { s.cfg with manual := some mem.toNat } ∧
        sameRegs [A.BST_MANCMD] s t ∧
        t = { s with regs := t.regs, cfg := t.cfg, sent := t.sent }) ∧
  (∀ (who : Who) (kind : Fin 2) (mem : BitVec 8) (s : State), live s = true → isPriv s who = true → s.faults.coreStopped = false → getF s F.SYS_STATUS_LCS ≠ 1 → getF s F.SYS_STATUS_LCS ≠ 3 → unguarded s who = true → 
      ∃ t, Sys2Proof.Machine.exec (.manualTest who kind mem) s = .next t ∧
        getF t F.BST_MANCMD_RESULT = 2 ∧
        sameRegs [A.BST_MANCMD] s t ∧
        t = { s with regs := t.regs, sent := t.sent }) ∧
  (∀ (pass : Bool) (slice : Nat) (s : State), live s = true → s.cfg.manual = some 7 → isSet s F.BST_MANCMD_KIND = false → 
      ∃ t, Sys2Proof.Machine.exec (.manualTestEnd pass slice []) s = .next t ∧
        getF t F.BST_MANCMD_RESULT = 0 ∧
        t.cfg = { s.cfg with manual := none } ∧
        t.lkp = { s.lkp with store := [], overflow := [] } ∧
        sameRegs [A.BST_MANCMD] s t ∧
        t = { s with regs := t.regs, cfg := t.cfg, lkp := t.lkp, sent := t.sent }) ∧
  (∀ (isWr : Bool) (a v : Word) (s : State), live s = true → calm s s = true → 
      ∃ t, Sys2Proof.Machine.exec (.debugPortAccess true isWr a v) s = .next t ∧
        t.cfg = { s.cfg with testAsked := true } ∧
        t = { s with cfg := t.cfg, sent := t.sent }) ∧
  (∀ (a v : Word) (s : State), live s = true → calm s s = true → (getF s F.SYS_STATUS_LCS = 1 ∨ getF s F.SYS_STATUS_LCS = 3) → a.toNat = A.LKP_HWM → unguarded s ⟨55, false, none⟩ = true → 
      ∃ t, Sys2Proof.Machine.exec (.debugPortAccess false true a v) s = .next t ∧
        rd t A.LKP_HWM &&& 0x1FFF07FF#32 = v &&& 0x1FFF07FF#32 ∧
        sameRegs [A.LKP_HWM] s t ∧
        t = { s with regs := t.regs, sent := t.sent }) ∧
  (∀ (k : Fin 32) (s : State), live s = true → calm s s = true → s.scan.restart = some false → getF s F.SCN_STATUS_CSTATE = 1 → s.scan.retRun = none → s.scan.retQueue = none → s.scan.waitCmd = [] → loadedSlot s = none → (∀ r : Fin 4, getF s (F.RCH_PWR_PSTATE (reachOf s r)) < 2) → (((List.range 16).all fun t => !enabled s t) = true) → (((List.range 32).all fun t => getF s (F.TMB_UNIT_CTL_OWNER t) == 0 && ownerOf s t == 0) = true) → 
      ∃ t, Sys2Proof.Machine.exec (.restartComplete) s = .next t ∧
        getF t F.SCN_STATUS_CSTATE = 2 ∧
        t.scan.restart = none ∧
        rd t (A.SCN_TASK_CYCNO k) = 0 ∧
        (taskState t k = if enabled s k then 1 else 0) ∧
        (t.task k).first = true)

/-- A privileged initiator that writes RCH_COREc_CTL of a core whose reach is powered, has not failed and is in no window: HALT stops
a running core with all its state intact, RESUME sets a halted one running, STEP lets it execute the one instruction at its PC
(shown for NOP and POP) after which it is HALTED again, DRAIN of an IDLE core drains it at once and that of a running one at its
next item boundary, ICINV empties its I-cache, RESET leaves it running its boot code from BOOT with its registers cleared. No byte
of memory changes, and no other core does. In a reach that is not WET, RESUME, STEP and RESET leave every core as it is (the
model's choice, log 123). The model's own choices that clauses rest on: log 12, 47, 115, 123 and 151. Each clause answers a next
state by its conditions on the state and the operands alone: so CORE_HALT, CORE_RESUME, CORE_STEP, CORE_DRAIN, CORE_ICINV and
CORE_RESET complete. -/
def Obligations.CoreControl : Prop :=
  (∀ (who : Who) (i j : Fin 40) (s : State), live s = true → calm s s = true → isPriv s who = true → s.rot.window = none → getF s (F.RCH_PWR_PSTATE (i / 8)) = 0 → rchDead s (A.RCH_CORE_CTL (i / 8) (i % 8)) = false → (s.core i).st = .run → unguarded s who = true → 
      ∃ t, Sys2Proof.Machine.exec (.coreHalt who i) s = .next t ∧
        t.core i = { s.core i with st := .halted, haltReq := false } ∧
        (j = i ∨ t.core j = s.core j) ∧
        sameRegs [] s t ∧
        t = { s with cores := t.cores, regs := t.regs, sent := t.sent }) ∧
  (∀ (who : Who) (i j : Fin 40) (s : State), live s = true → calm s s = true → isPriv s who = true → s.rot.window = none → getF s (F.RCH_PWR_PSTATE (i / 8)) = 0 → reachState s (i / 8) = 0 → rchDead s (A.RCH_CORE_CTL (i / 8) (i % 8)) = false → (s.core i).st = .halted → (s.core i).wasIdle = false → unguarded s who = true → 
      ∃ t, Sys2Proof.Machine.exec (.coreResume who i) s = .next t ∧
        t.core i = { s.core i with st := .run, haltReq := false } ∧
        (j = i ∨ t.core j = s.core j) ∧
        sameRegs [] s t ∧
        t = { s with cores := t.cores, regs := t.regs, sent := t.sent }) ∧
  (∀ (who : Who) (i j : Fin 40) (s : State), calm s s = true → isPriv s who = true → s.rot.window = none → getF s (F.RCH_PWR_PSTATE (i / 8)) = 0 → reachState s (i / 8) = 0 → rchDead s (A.RCH_CORE_CTL (i / 8) (i % 8)) = false → (s.core i).st = .halted → (s.core i).wasIdle = false → atInstr i .nop (s.setCore i { s.core i with st := .run, haltReq := false }) → unguarded s who = true → 
      ∃ t, Sys2Proof.Machine.exec (.coreStep who i) s = .next t ∧
        t.core i = { s.core i with haltReq := false, stepping := false, pc := (s.core i).pc + 4, icache := (t.core i).icache, cyc := (t.core i).cyc } ∧
        (j = i ∨ t.core j = s.core j) ∧
        t = { fetched i s with cores := t.cores, pending := t.pending, sn := t.sn }) ∧
  (∀ (who : Who) (i j : Fin 40) (v : Word) (l : List Word) (d : Fin 16) (s : State), calm s s = true → isPriv s who = true → s.rot.window = none → getF s (F.RCH_PWR_PSTATE (i / 8)) = 0 → reachState s (i / 8) = 0 → rchDead s (A.RCH_CORE_CTL (i / 8) (i % 8)) = false → (s.core i).st = .halted → (s.core i).wasIdle = false → atInstr i (.pop d) (s.setCore i { s.core i with st := .run, haltReq := false }) → (s.core i).dstack = v :: l → unguarded s who = true → 
      ∃ t, Sys2Proof.Machine.exec (.coreStep who i) s = .next t ∧
        (t.core i).st = .halted ∧
        ((t.core i).reg d = (if d = 0 then 0 else v)) ∧
        (t.core i).pc = (s.core i).pc + 4 ∧
        (t.core i).dstack = l ∧
        (j = i ∨ t.core j = s.core j)) ∧
  (∀ (who : Who) (i j : Fin 40) (s : State), live s = true → calm s s = true → isPriv s who = true → s.rot.window = none → getF s (F.RCH_PWR_PSTATE (i / 8)) = 0 → rchDead s (A.RCH_CORE_CTL (i / 8) (i % 8)) = false → (s.core i).st = .idle → unguarded s who = true → 
      ∃ t, Sys2Proof.Machine.exec (.coreDrain who i) s = .next t ∧
        t.core i = { s.core i with st := .drained, drainReq := false, wasIdle := false } ∧
        (j = i ∨ t.core j = s.core j) ∧
        t.lkp.idle.contains i.val = false ∧
        sameRegs [] s t ∧
        t = { s with cores := t.cores, regs := t.regs, lkp := t.lkp, sent := t.sent }) ∧
  (∀ (who : Who) (i j : Fin 40) (s : State), live s = true → calm s s = true → isPriv s who = true → s.rot.window = none → getF s (F.RCH_PWR_PSTATE (i / 8)) = 0 → rchDead s (A.RCH_CORE_CTL (i / 8) (i % 8)) = false → (s.core i).st = .run → unguarded s who = true → 
      ∃ t, Sys2Proof.Machine.exec (.coreDrain who i) s = .next t ∧
        t.core i = { s.core i with drainReq := true } ∧
        (j = i ∨ t.core j = s.core j) ∧
        sameRegs [] s t ∧
        t = { s with cores := t.cores, regs := t.regs, lkp := t.lkp, sent := t.sent }) ∧
  (∀ (who : Who) (i j : Fin 40) (s : State), live s = true → calm s s = true → isPriv s who = true → s.rot.window = none → getF s (F.RCH_PWR_PSTATE (i / 8)) = 0 → rchDead s (A.RCH_CORE_CTL (i / 8) (i % 8)) = false → unguarded s who = true → 
      ∃ t, Sys2Proof.Machine.exec (.coreIcinv who i) s = .next t ∧
        t.core i = { s.core i with icache := [] } ∧
        (j = i ∨ t.core j = s.core j) ∧
        sameRegs [] s t ∧
        t = { s with cores := t.cores, regs := t.regs, sent := t.sent }) ∧
  (∀ (who : Who) (i : Fin 40) (s : State), live s = true → calm s s = true → isPriv s who = true → s.rot.window = none → getF s (F.RCH_PWR_PSTATE (i / 8)) = 0 → reachState s (i / 8) = 0 → rchDead s (A.RCH_CORE_CTL (i / 8) (i % 8)) = false → unguarded s who = true → 
      ∃ t, Sys2Proof.Machine.exec (.coreReset who i) s = .next t ∧
        t.core i = (s.core i).restart (rd s (A.RCH_CORE_BOOT (i / 8) (i % 8))) ∧
        (t.mem = s.mem ∨ (s.core i).running ≠ [])) ∧
  (∀ (who : Who) (i : Fin 40) (s : State), live s = true → calm s s = true → isPriv s who = true → s.rot.window = none → getF s (F.RCH_PWR_PSTATE (i / 8)) = 0 → reachState s (i / 8) ≠ 0 → rchDead s (A.RCH_CORE_CTL (i / 8) (i % 8)) = false → unguarded s who = true → 
      ∃ t, Sys2Proof.Machine.exec (.coreResume who i) s = .next t ∧
        t.cores = s.cores ∧
        sameRegs [] s t) ∧
  (∀ (who : Who) (i : Fin 40) (s : State), live s = true → calm s s = true → isPriv s who = true → s.rot.window = none → getF s (F.RCH_PWR_PSTATE (i / 8)) = 0 → reachState s (i / 8) ≠ 0 → rchDead s (A.RCH_CORE_CTL (i / 8) (i % 8)) = false → unguarded s who = true → 
      ∃ t, Sys2Proof.Machine.exec (.coreStep who i) s = .next t ∧
        t.cores = s.cores ∧
        sameRegs [] s t) ∧
  (∀ (who : Who) (i : Fin 40) (s : State), live s = true → calm s s = true → isPriv s who = true → s.rot.window = none → getF s (F.RCH_PWR_PSTATE (i / 8)) = 0 → reachState s (i / 8) ≠ 0 → rchDead s (A.RCH_CORE_CTL (i / 8) (i % 8)) = false → unguarded s who = true → 
      ∃ t, Sys2Proof.Machine.exec (.coreReset who i) s = .next t ∧
        t.cores = s.cores ∧
        sameRegs [] s t)

/-- The oldest buffered store of a core leaves the buffer and its bytes stand at its target in a reach whose gate admits the core, all
other memory as before; one to an address where nothing is leaves the buffer and waits as a BUSERR_W of the core, logged as a bus
error. A core with an offer standing and room on its return stack pushes a preemption frame of BSTK, STAT and PC and runs the item
one level up. The model's own choices that clauses rest on: log 45 and 47. Each clause answers a next state by its conditions on
the state and the operands alone: so STORE_COMPLETE and PREEMPT_ACCEPT complete. -/
def Obligations.StoresAndPreemption : Prop :=
  (∀ (i : Fin 40) (x : Store) (l : List Store) (n off : Nat) (s : State), live s = true → calm s s = true → (s.core i).sbuf = x :: l → (s.core i).sup = x.sup → (x.size = 1 ∨ x.size = 2 ∨ x.size = 4) → 0x10000000 ≤ x.addr → target s i x.addr = .reach n off → off + x.size ≤ 0xC0000 → s.rot.window = none → getF s (F.RCH_PWR_PSTATE n) = 0 → reachState s n = 0 → gateAdmits s n (off / 0x10000) i = true → semGuards s (reachAddr n off) x.size ⟨i, false, none⟩ = false → eccOf s (reachAddr n off) x.size = 0 → 
      ∃ t, Sys2Proof.Machine.exec (.storeComplete i) s = .next t ∧
        (t.core i).sbuf = l ∧
        bytesAt t (reachAddr n off) x.size = leBytes x.size x.data ∧
        sameBytes (reachAddr n off) x.size s t ∧
        sameRegs [] s t ∧
        t = { s with cores := t.cores, mem := t.mem, ecc := t.ecc, rot := t.rot, scan := t.scan, pair := t.pair, sent := t.sent }) ∧
  (∀ (i : Fin 40) (x : Store) (l : List Store) (s : State), live s = true → calm s s = true → (s.core i).sbuf = x :: l → (s.core i).sup = x.sup → target s i x.addr = .nothing → (x.addr < 0x10000000 ∨ 0x70000000 ≤ x.addr) → 
      ∃ t, Sys2Proof.Machine.exec (.storeComplete i) s = .next t ∧
        (t.core i).sbuf = l ∧
        (t.core i).pendW = (s.core i).pendW ++ [(1, x.addr)] ∧
        hasEvent s t A.SYS_EVT 0 ∧
        t = { s with evtLast := t.evtLast, regs := t.regs, cores := t.cores, sent := t.sent, lkp := { s.lkp with srcVal := t.lkp.srcVal } }) ∧
  (∀ (i : Fin 40) (x : Ready) (e : Entry) (s : State), live s = true → calm s s = true → s.lkp.offers.find? (·.1 == i.val) = some (i.val, x) → acceptsOffer (s.core i) = true → (s.core i).rstack.length ≤ 28 → (s.core i).pendW = [] → dispatches s (i / 8) = true → x.seg = false → s.lkp.store.find? (·.is x.role false x.index) = some e → isSet s F.LKP_TRCCTL_EN = false → 
      ∃ t, Sys2Proof.Machine.exec (.preemptAccept i) s = .next t ∧
        (t.core i).level.val = (s.core i).level.val + 1 ∧
        (t.core i).rstack = ((s.core i).frame 2 (s.core i).pc).reverse ++ (s.core i).rstack ∧
        (t.core i).pc = (e.desc.entry &&& ~~~3#32) ∧
        (t.core i).reg 1 = e.desc.arg ∧
        (t.core i).reg 2 = e.values.get 0 ∧
        (t.core i).st = .run ∧
        t = { s with cores := t.cores, lkp := t.lkp, sent := t.sent })

/-- The Lockkeeper takes the oldest token of a SIG port into the slot it names of the stored entry of a general item that runs, whose
other slots stay; an invalid one is discarded, counted and recorded. The first token of the overflow queue is matched likewise. A
pending source whose route is off is accepted and sends nothing. An item ready too long is counted and marked once. A due delay
becomes a token at the first tick after a multiple of 1,000 ns, its value TIME of that tick (log 121), and no row does so at
another instant; DLYCMD removes every delay for the destination and says how many; a write to LKP_SWSRC makes each named software
source pending. The model's own choices that clauses rest on: log 23, 24, 25, 119 and 121. Each clause answers a next state by its
conditions on the state and the operands alone: so TOKEN_ACCEPT, OVERFLOW_MATCH, SOURCE_ACCEPT, STARVE, DELAY_RELEASE, DLYCMD_GO
and SWSRC_RAISE complete. -/
def Obligations.LockkeeperTokens : Prop :=
  (∀ (i : Fin 40) (dst v : Word) (own : Option Nat) (l : List (Word × Word × Option Nat)) (tok : Token) (e : Entry) (s : State), live s = true → calm s s = true → frozen s 1 = false → s.lkp.ports.get i = (dst, v, own) :: l → dst.getLsbD 30 = false → tokenOf i dst v own = some tok → roleAway s tok.role = false → tok.seg = false → tok.index ≤ 4095 → s.lkp.store = [e] → e.is tok.role false tok.index = true → bitAt e.desc.need tok.slot = true → e.running = true → e.counts.get tok.at < 15 → 1 ≤ getF s F.LKP_HWM_LIVEMAX → 
      ∃ t, Sys2Proof.Machine.exec (.tokenAccept i) s = .next t ∧
        t.lkp.store = [e.put tok.at v] ∧
        t.lkp.ports.get i = l ∧
        sameRegs [] s t ∧
        t = { s with lkp := t.lkp, sent := t.sent }) ∧
  (∀ (i : Fin 40) (dst v : Word) (own : Option Nat) (l : List (Word × Word × Option Nat)) (s : State), live s = true → calm s s = true → frozen s 1 = false → s.lkp.ports.get i = (dst, v, own) :: l → tokenOf i dst v own = none → merges s A.LKP_EVT 0 = false → 
      ∃ t, Sys2Proof.Machine.exec (.tokenAccept i) s = .next t ∧
        t.lkp.ports.get i = l ∧
        getF t F.LKP_BADTOK_COUNT = min (getF s F.LKP_BADTOK_COUNT + 1) 65535 ∧
        getF t F.LKP_BADTOK_SRC = i.val ∧
        rd t A.LKP_BADDST = dst ∧
        hasEvent s t A.LKP_EVT 0 ∧
        sameRegs ([A.LKP_BADTOK, A.LKP_BADDST, A.LKP_EVT] ++ pendWords) s t ∧
        t = { s with evtLast := t.evtLast, regs := t.regs, lkp := t.lkp, sent := t.sent }) ∧
  (∀ (tok : Token) (l : List Token) (e : Entry) (s : State), live s = true → calm s s = true → frozen s 1 = false → s.lkp.overflow = tok :: l → roleAway s tok.role = false → tok.seg = false → tok.index ≤ 4095 → s.lkp.store = [e] → e.is tok.role false tok.index = true → bitAt e.desc.need tok.slot = true → e.running = true → e.counts.get tok.at < 15 → 1 ≤ getF s F.LKP_HWM_LIVEMAX → 
      ∃ t, Sys2Proof.Machine.exec (.overflowMatch) s = .next t ∧
        t.lkp = { s.lkp with store := [e.put tok.at tok.value], overflow := l } ∧
        t = { s with lkp := t.lkp, sent := t.sent }) ∧
  (∀ (k : Fin 1024) (s : State), live s = true → calm s s = true → frozen s 1 = false → (List.range 1024).find? (isPending s) = some k.val → isSet s (F.LKP_ROUTE_EN k) = false → 
      ∃ t, Sys2Proof.Machine.exec (.sourceAccept) s = .next t ∧
        isPending t k = false ∧
        sameRegs [A.LKP_PEND (k / 32)] s t ∧
        t = { s with regs := t.regs, sent := t.sent }) ∧
  (∀ (k : Nat) (x : Ready) (s : State), live s = true → s.lkp.ready[k]? = some x → x.group < 16 → x.starved = false → getF s (F.LKP_GRP_CFG_STARVE x.group) ≠ 0 → x.since + 10000 * getF s (F.LKP_GRP_CFG_STARVE x.group) < time s → isSet s F.LKP_TRCCTL_EN = false → merges s A.LKP_EVT 5 = false → 
      ∃ t, Sys2Proof.Machine.exec (.starve k) s = .next t ∧
        getF t (F.LKP_GRP_STAT_STARVED x.group) = min (getF s (F.LKP_GRP_STAT_STARVED x.group) + 1) 65535 ∧
        (t.lkp.ready[k]?).map (·.starved) = some true ∧
        hasEvent s t A.LKP_EVT 5 ∧
        sameRegs ([A.LKP_GRP_STAT x.group, A.LKP_EVT] ++ pendWords) s t ∧
        t = { s with evtLast := t.evtLast, regs := t.regs, lkp := t.lkp, sent := t.sent }) ∧
  (∀ (d : Delayed) (l : List Delayed) (s : State), live s = true → calm s s = true → frozen s 1 = false → s.lkp.delay = [d] → s.lkp.delayTick = some s.now → d.due ≤ time s → 4095 < bitsOf d.dst.toNat 0 14 → isSet s F.LKP_TRCCTL_EN = false → merges s A.LKP_EVT 0 = false → 
      ∃ t, Sys2Proof.Machine.exec (.delayRelease) s = .next t ∧
        t.lkp.delay = [] ∧
        rd t A.LKP_BADDST = d.dst ∧
        hasEvent s t A.LKP_EVT 0 ∧
        t = { s with evtLast := t.evtLast, regs := t.regs, lkp := t.lkp, sent := t.sent }) ∧
  (∀ (d : Delayed) (e : Entry) (s : State), live s = true → calm s s = true → frozen s 1 = false → s.lkp.delay = [d] → s.lkp.delayTick = some s.now → d.due ≤ time s → bitsOf d.dst.toNat 0 14 ≤ 4095 → roleAway s d.role = false → s.lkp.store = [e] → e.is d.role false (bitsOf d.dst.toNat 0 14) = true → bitAt e.desc.need (bitsOf d.dst.toNat 24 3) = true → e.running = true → (e.counts.get ⟨bitsOf d.dst.toNat 24 3 % 8, Nat.mod_lt _ (by decide)⟩) < 15 → 1 ≤ getF s F.LKP_HWM_LIVEMAX → isSet s F.LKP_TRCCTL_EN = false → 
      ∃ t, Sys2Proof.Machine.exec (.delayRelease) s = .next t ∧
        t.lkp = { s.lkp with delay := [], delayTick := none, store := [e.put ⟨bitsOf d.dst.toNat 24 3 % 8, Nat.mod_lt _ (by decide)⟩ (w32 (time s))] } ∧
        t = { s with lkp := t.lkp, sent := t.sent }) ∧
  (∀ (s : State), live s = true → calm s s = true → frozen s 1 = false → s.lkp.delayTick ≠ some s.now → 
      ∃ t, Sys2Proof.Machine.exec (.delayRelease) s = .next t ∧
        t = { s with sent := t.sent }) ∧
  (∀ (who : Who) (s : State), live s = true → isPriv s who = true → s.lkp.delay.length < 2048 → unguarded s who = true → 
      ∃ t, Sys2Proof.Machine.exec (.dlycmdGo who) s = .next t ∧
        (t.lkp = { s.lkp with delay := s.lkp.delay.filter fun d => putBits d.dst.toNat 29 2 0 != putBits (rd s A.LKP_DLYDST).toNat 29 2 0 }) ∧
        (getF t F.LKP_DLYCMD_CANCELLED = (s.lkp.delay.filter fun d => putBits d.dst.toNat 29 2 0 == putBits (rd s A.LKP_DLYDST).toNat 29 2 0).length) ∧
        sameRegs [A.LKP_DLYCMD] s t ∧
        t = { s with regs := t.regs, lkp := t.lkp, sent := t.sent }) ∧
  (∀ (who : Who) (bits : BitVec 16) (k : Fin 16) (s : State), live s = true → unguarded s who = true → 
      ∃ t, Sys2Proof.Machine.exec (.swsrcRaise who bits) s = .next t ∧
        isPending t (768 + k) = (isPending s (768 + k) || bits.getLsbD k) ∧
        sameRegs [A.LKP_PEND 24] s t ∧
        t = { s with evtLast := t.evtLast, regs := t.regs, sent := t.sent, lkp := { s.lkp with srcVal := t.lkp.srcVal } })

/-- A write of a bank's gate by a privileged initiator sets owner, mode and guest, and GEN counts a change of mode or owner. A
circular window is set as written where it overlaps no enabled one and fits, and with EN 0 where it does not fit. The scrub leaves
a good word alone, corrects and counts a word with a single-bit error, and counts and logs one with a double-bit error as fault
0x07. The model's own choices that clauses rest on: log 94. Each clause answers a next state by its conditions on the state and
the operands alone: so GATE_WRITE, CIRCULAR_WINDOW_WRITE and SCRUB complete. -/
def Obligations.ReachMemoryCommands : Prop :=
  (∀ (who : Who) (n : Fin 5) (b : Fin 12) (v : Word) (s : State), live s = true → isPriv s who = true → s.rot.window = none → getF s (F.RCH_PWR_PSTATE n) = 0 → reachState s n ≠ 4 → v.toNat / 256 % 4 = 0 → v.toNat / 65536 % 64 < 56 → unguarded s who = true → 
      ∃ t, Sys2Proof.Machine.exec (.gateWrite who n b v) s = .next t ∧
        getF t (F.RCH_GATE_MODE n b) = 0 ∧
        getF t (F.RCH_GATE_OWNER n b) = v.toNat % 64 ∧
        getF t (F.RCH_GATE_GUEST n b) = v.toNat / 65536 % 64 ∧
        getF t (F.RCH_GATE_GEN n b) = (getF s (F.RCH_GATE_GEN n b) + bit (getF s (F.RCH_GATE_MODE n b) != 0)) % 2 ^ (F.RCH_GATE_GEN n b).w ∧
        sameRegs [A.RCH_GATE n b] s t ∧
        t = { s with regs := t.regs, sent := t.sent }) ∧
  (∀ (who : Who) (n : Fin 5) (b : Fin 12) (v : Word) (s : State), live s = true → isPriv s who = true → s.rot.window = none → getF s (F.RCH_PWR_PSTATE n) = 0 → reachState s n ≠ 4 → v.toNat / 256 % 4 = 1 → v.toNat % 64 ≤ 7 → unguarded s who = true → 
      ∃ t, Sys2Proof.Machine.exec (.gateWrite who n b v) s = .next t ∧
        getF t (F.RCH_GATE_MODE n b) = 1 ∧
        getF t (F.RCH_GATE_OWNER n b) = v.toNat % 64 ∧
        getF t (F.RCH_GATE_GEN n b) = (getF s (F.RCH_GATE_GEN n b) + bit (getF s (F.RCH_GATE_MODE n b) != 1 || getF s (F.RCH_GATE_OWNER n b) != v.toNat % 64)) % 2 ^ (F.RCH_GATE_GEN n b).w ∧
        sameRegs [A.RCH_GATE n b] s t ∧
        t = { s with regs := t.regs, sent := t.sent }) ∧
  (∀ (who : Who) (n : Fin 5) (w : Fin 8) (v : Word) (s : State), live s = true → isPriv s who = true → s.rot.window = none → getF s (F.RCH_PWR_PSTATE n) = 0 → reachState s n ≠ 4 → v.getLsbD 31 = true → bitsOf v.toNat 20 4 ≤ 10 → clampRch s (A.RCH_CW n w) (v.toNat &&& 0x80FFFFC0) = v.toNat &&& 0x80FFFFC0 → ((List.range 8).all (fun k => !isSet s (F.RCH_CW_EN n k)) = true) → unguarded s who = true → 
      ∃ t, Sys2Proof.Machine.exec (.circularWindowWrite who n w v) s = .next t ∧
        isSet t (F.RCH_CW_EN n w) = true ∧
        getF t (F.RCH_CW_SIZE n w) = bitsOf v.toNat 20 4 ∧
        getF t (F.RCH_CW_BASE n w) = bitsOf v.toNat 6 14 ∧
        sameRegs [A.RCH_CW n w] s t ∧
        t = { s with regs := t.regs, sent := t.sent }) ∧
  (∀ (who : Who) (n : Fin 5) (w : Fin 8) (v : Word) (s : State), live s = true → isPriv s who = true → s.rot.window = none → getF s (F.RCH_PWR_PSTATE n) = 0 → reachState s n ≠ 4 → v.getLsbD 31 = true → bitsOf v.toNat 20 4 ≤ 10 → 0xC0000 < bitsOf v.toNat 6 14 * 64 / 2 ^ (bitsOf v.toNat 20 4 + 6) * 2 ^ (bitsOf v.toNat 20 4 + 6) + 2 * 2 ^ (bitsOf v.toNat 20 4 + 6) → unguarded s who = true → 
      ∃ t, Sys2Proof.Machine.exec (.circularWindowWrite who n w v) s = .next t ∧
        isSet t (F.RCH_CW_EN n w) = false ∧
        getF t (F.RCH_CW_SIZE n w) = bitsOf v.toNat 20 4 ∧
        hasEvent s t A.SYS_EVT 1 ∧
        getF t F.SYS_CLAMPLOG_ID = who.id % 64 ∧
        sameRegs ([A.RCH_CW n w, A.SYS_CLAMPLOG, A.SYS_EVT] ++ pendWords) s t ∧
        t = { s with evtLast := t.evtLast, regs := t.regs, sent := t.sent, lkp := { s.lkp with srcVal := t.lkp.srcVal } }) ∧
  (∀ (mem k : Nat) (err : Fin 3) (s : State), live s = true → calm s s = true → err.val = 0 → s.ecc = [] → 
      ∃ t, Sys2Proof.Machine.exec (.scrub mem k err) s = .next t ∧
        t = { s with sent := t.sent }) ∧
  (∀ (mem k : Nat) (err : Fin 3) (s : State), live s = true → calm s s = true → err.val = 1 → mem < 5 → getF s (F.RCH_PWR_PSTATE mem) < 2 → s.ecc = [] → (reachState s mem ≠ 2 ∧ reachState s mem ≠ 4) → getF s F.LKH_FCFG_CETHR = 0 → merges s (A.RCH_MEM_EVT mem) 0 = false → 
      ∃ t, Sys2Proof.Machine.exec (.scrub mem k err) s = .next t ∧
        getF t (F.RCH_ECCCNT_CE mem) = min (getF s (F.RCH_ECCCNT_CE mem) + 1) 65535 ∧
        isSet t (F.RCH_ECCLOG_SCRUB mem) = true ∧
        isSet t (F.RCH_ECCLOG_UE mem) = false ∧
        t.ecc = [] ∧
        hasEvent s t (A.RCH_MEM_EVT mem) 0 ∧
        sameRegs ([A.RCH_ECCCNT mem, A.RCH_ECCLOG mem, A.RCH_MEM_EVT mem] ++ pendWords) s t ∧
        t = { s with evtLast := t.evtLast, regs := t.regs, rot := t.rot, sent := t.sent, lkp := { s.lkp with srcVal := t.lkp.srcVal } }) ∧
  (∀ (mem k : Nat) (err : Fin 3) (s : State), live s = true → calm s s = true → err.val = 2 → mem < 5 → getF s (F.RCH_PWR_PSTATE mem) < 2 → 8 * k < 0xC0000 → s.ecc = [] → (reachState s mem ≠ 2 ∧ reachState s mem ≠ 4) → merges s (A.RCH_MEM_EVT mem) 1 = false → 
      ∃ t, Sys2Proof.Machine.exec (.scrub mem k err) s = .next t ∧
        getF t (F.RCH_ECCCNT_UE mem) = min (getF s (F.RCH_ECCCNT_UE mem) + 1) 65535 ∧
        t.ecc = [(reachAddr mem (8 * k), true)] ∧
        t.faults.queue.map (·.code) = s.faults.queue.map (·.code) ++ [7] ∧
        hasEvent s t (A.RCH_MEM_EVT mem) 1 ∧
        t = { s with evtLast := t.evtLast, regs := t.regs, ecc := t.ecc, faults := t.faults, sent := t.sent, lkp := { s.lkp with srcVal := t.lkp.srcVal } })

/-- A TAIL write of a core in supervisor mode to an idle DMA sets TAIL, gives the new descriptors its privilege and starts the DMA;
STOP ends in STOPPED from IDLE and waits for the boundary while it runs; RESUME leaves ERROR past the failed descriptor. A
descriptor without V ends with code 8 in word 3 and HEAD one further. PARK is refused with PARKERR while rotation is enabled and
else begins to drain the reach. A WAKING reach becomes powered. The model's own choices that clauses rest on: log 57, 58, 95, 150,
156, 157 and 158. Each clause answers a next state by its conditions on the state and the operands alone: so DMA_TAIL_WRITE,
DMA_DESCRIPTOR_END, DMA_STOP, DMA_RESUME, PARK and REACH_WAKE complete. -/
def Obligations.DmaAndPark : Prop :=
  (∀ (who : Who) (n : Fin 5) (v : Word) (s : State), live s = true → calm s s = true → isPriv s who = true → s.rot.window = none → getF s (F.RCH_PWR_PSTATE n) = 0 → reachState s n ≠ 4 → who.id < 40 → dmaState s n = 0 → isSet s (F.RCH_DMA_CTL_STOP n) = false → v.toNat % dmaSize s n ≠ getF s (F.RCH_DMA_STAT_HEAD n) → v.toNat < 2 ^ (F.RCH_DMA_TAIL_TAIL n).w → dmaHold s n = false → (s.core who.id).sup = true → unguarded s who = true → 
      ∃ t, Sys2Proof.Machine.exec (.dmaTailWrite who n v) s = .next t ∧
        getF t (F.RCH_DMA_TAIL_TAIL n) = v.toNat ∧
        dmaState t n = 1 ∧
        sameRegs [A.RCH_DMA_TAIL n, A.RCH_DMA_STAT n] s t ∧
        t = { s with regs := t.regs, dma := t.dma, sent := t.sent }) ∧
  (∀ (n : Fin 5) (s : State), live s = true → calm s s = true → dmaState s n = 1 → reachState s n = 0 → (at5 s.dma n).owed = none → (at5 s.dma n).wait = none → (at5 s.dma n).fail = none → (at5 s.dma n).pos = 0 → s.ecc = [] → s.mem = [] → ((List.range 12).all (fun b => getF s (F.RCH_GATE_MODE n b) == 0) = true) → ((List.range 8).all (fun w => !isSet s (F.RCH_CW_EN n w)) = true) → s.brg.sems.all (·.isNone) = true → isSet s (F.RCH_DMA_CTL_STOP n) = false → dmaHold s n = false → descAddr s n (getF s (F.RCH_DMA_STAT_HEAD n)) + 16 ≤ 0xC0000 → 
      ∃ t, Sys2Proof.Machine.exec (.dmaDescriptorEnd n) s = .next t ∧
        getF t (F.RCH_DMA_STAT_HEAD n) = (getF s (F.RCH_DMA_STAT_HEAD n) + 1) % dmaSize s n ∧
        (dmaState t n = if getF t (F.RCH_DMA_STAT_HEAD n) = getF s (F.RCH_DMA_TAIL_TAIL n) % dmaSize s n then 0 else 1) ∧
        memNat t (reachAddr n (descAddr s n (getF s (F.RCH_DMA_STAT_HEAD n))) + 12) 4 = 2 ^ 31 + 8 ∧
        sameBytes (reachAddr n (descAddr s n (getF s (F.RCH_DMA_STAT_HEAD n))) + 12) 4 s t ∧
        sameRegs [A.RCH_DMA_STAT n] s t) ∧
  (∀ (who : Who) (n : Fin 5) (s : State), live s = true → calm s s = true → isPriv s who = true → s.rot.window = none → getF s (F.RCH_PWR_PSTATE n) = 0 → reachState s n ≠ 4 → dmaState s n = 0 → unguarded s who = true → 
      ∃ t, Sys2Proof.Machine.exec (.dmaStop who n) s = .next t ∧
        dmaState t n = 3 ∧
        isSet t (F.RCH_DMA_CTL_STOP n) = false ∧
        sameRegs [A.RCH_DMA_CTL n, A.RCH_DMA_STAT n] s t ∧
        t = { s with regs := t.regs, sent := t.sent }) ∧
  (∀ (who : Who) (n : Fin 5) (s : State), live s = true → calm s s = true → isPriv s who = true → s.rot.window = none → getF s (F.RCH_PWR_PSTATE n) = 0 → reachState s n ≠ 4 → dmaState s n = 1 → unguarded s who = true → 
      ∃ t, Sys2Proof.Machine.exec (.dmaStop who n) s = .next t ∧
        dmaState t n = 1 ∧
        isSet t (F.RCH_DMA_CTL_STOP n) = true ∧
        sameRegs [A.RCH_DMA_CTL n] s t ∧
        t = { s with regs := t.regs, sent := t.sent }) ∧
  (∀ (who : Who) (n : Fin 5) (s : State), live s = true → calm s s = true → isPriv s who = true → s.rot.window = none → getF s (F.RCH_PWR_PSTATE n) = 0 → reachState s n ≠ 4 → dmaState s n = 2 → isSet s (F.RCH_DMA_CTL_STOP n) = false → dmaHold s n = false → unguarded s who = true → 
      ∃ t, Sys2Proof.Machine.exec (.dmaResume who n) s = .next t ∧
        getF t (F.RCH_DMA_STAT_HEAD n) = (getF s (F.RCH_DMA_STAT_HEAD n) + 1) % dmaSize s n ∧
        (dmaState t n = if getF t (F.RCH_DMA_STAT_HEAD n) = getF s (F.RCH_DMA_TAIL_TAIL n) % dmaSize s n then 0 else 1) ∧
        sameRegs [A.RCH_DMA_STAT n] s t ∧
        t = { s with regs := t.regs, sent := t.sent }) ∧
  (∀ (who : Who) (n : Fin 5) (s : State), live s = true → calm s s = true → isPriv s who = true → s.rot.window = none → getF s (F.RCH_PWR_PSTATE n) = 0 → reachState s n ≠ 4 → mayPark s n = false → merges s (A.RCH_MEM_EVT n) 3 = false → unguarded s who = true → 
      ∃ t, Sys2Proof.Machine.exec (.park who n) s = .next t ∧
        hasEvent s t (A.RCH_MEM_EVT n) 3 ∧
        sameRegs (A.RCH_MEM_EVT n :: pendWords) s t ∧
        t = { s with evtLast := t.evtLast, regs := t.regs, sent := t.sent, lkp := { s.lkp with srcVal := t.lkp.srcVal } }) ∧
  (∀ (who : Who) (n : Fin 5) (s : State), live s = true → calm s s = true → isPriv s who = true → s.rot.window = none → getF s (F.RCH_PWR_PSTATE n) = 0 → reachState s n ≠ 4 → mayPark s n = true → (s.core (8 * n)).st = .run → dmaState s n = 0 → unguarded s who = true → 
      ∃ t, Sys2Proof.Machine.exec (.park who n) s = .next t ∧
        getF t (F.RCH_PWR_PSTATE n) = 1 ∧
        (t.core (8 * n)).drainReq = true ∧
        sameRegs [A.RCH_PWR n] s t ∧
        t = { s with regs := t.regs, cores := t.cores, lkp := t.lkp, sent := t.sent }) ∧
  (∀ (n : Fin 5) (s : State), live s = true → calm s s = true → getF s (F.RCH_PWR_PSTATE n) = 3 → reachState s n = 2 → roleOf s n = none → s.rot.held = [] → s.brg.gathers = [] → s.brg.waits = [] → merges s (A.RCH_MEM_EVT n) 4 = false → 
      ∃ t, Sys2Proof.Machine.exec (.reachWake n) s = .next t ∧
        getF t (F.RCH_PWR_PSTATE n) = 0 ∧
        isSet t ⟨A.SYS_CLKSTAT, 8 + n, 1⟩ = true ∧
        hasEvent s t (A.RCH_MEM_EVT n) 4 ∧
        sameRegs ([A.RCH_PWR n, A.SYS_CLKSTAT, A.RCH_MEM_EVT n] ++ pendWords) s t ∧
        t = { s with evtLast := t.evtLast, regs := t.regs, sent := t.sent, lkp := { s.lkp with srcVal := t.lkp.srcVal } })

/-- A word written to an enabled message mailbox with room is appended with its sender and the epoch of its receiver, and the
mailbox's source becomes pending; to a full one nothing is written and FULL is recorded with a bus error. A block mailbox opens
with its first word, is committed by GO of its owner, emptied by RELEASE, and ABORT by its owner discards the open block. A read
of an enabled message mailbox takes the oldest word. FLUSH empties a mailbox, as does disabling it. BUMP advances the epoch of a
receiver. The model's own choices that clauses rest on: log 8, 22 and 159. Each clause answers a next state by its conditions on
the state and the operands alone: so MBX_TX_WRITE, MBX_RX_READ, MBX_GO, MBX_RELEASE, MBX_ABORT, MBX_FLUSH, MBX_CFG_WRITE and
EPOCH_BUMP complete. -/
def Obligations.Mailboxes : Prop :=
  (∀ (who : Who) (m : Fin 64) (v : Word) (s : State), live s = true → isPriv s who = true → isSet s (F.MBX_CFG_EN m) = true → isSet s (F.MBX_CFG_MODE m) = false → isSet s (F.MBX_CFG_WAKE m) = false → (s.mb m).words.length < mbSize s m → unguarded s who = true → 
      ∃ t, Sys2Proof.Machine.exec (.mbxTxWrite who m v) s = .next t ∧
        t.mb m = { s.mb m with words := (s.mb m).words ++ [{ data := v, sender := who.id, stamp := mbEpoch s m, bad := false }] } ∧
        isPending t (64 + m) = true ∧
        sameRegs [A.LKP_PEND 2, A.LKP_PEND 3] s t ∧
        t = { s with evtLast := t.evtLast, regs := t.regs, mbox := t.mbox, sent := t.sent, lkp := { s.lkp with srcVal := t.lkp.srcVal } }) ∧
  (∀ (who : Who) (m : Fin 64) (v : Word) (n : Fin 5) (s : State), live s = true → isPriv s who = true → isSet s (F.MBX_CFG_EN m) = true → isSet s (F.MBX_CFG_MODE m) = false → mbSize s m ≤ (s.mb m).words.length → 40 ≤ who.id → (who.id ≠ 46 ∧ who.id ≠ 47) → merges s A.MBX_EVT 0 = false → unguarded s who = true → 
      ∃ t, Sys2Proof.Machine.exec (.mbxTxWrite who m v) s = .next t ∧
        t.mbox = s.mbox ∧
        hasEvent s t A.MBX_EVT 0 ∧
        hasEvent s t A.SYS_EVT 0 ∧
        bitsOf (rd t (A.SYS_BUSERR_INFO (getF s F.SYS_BUSERRPTR_NEXT))).toNat 0 4 = 3 ∧
        (who.id = 40 + n.val ∨ t.dma.get n = s.dma.get n) ∧
        t = { s with evtLast := t.evtLast, regs := t.regs, dma := t.dma, sent := t.sent, lkp := { s.lkp with srcVal := t.lkp.srcVal } }) ∧
  (∀ (who : Who) (m : Fin 64) (v : Word) (s : State), live s = true → isPriv s who = true → isSet s (F.MBX_CFG_EN m) = true → isSet s (F.MBX_CFG_MODE m) = true → (s.mb m).bstate = .empty → unguarded s who = true → 
      ∃ t, Sys2Proof.Machine.exec (.mbxTxWrite who m v) s = .next t ∧
        t.mb m = { words := [{ data := v, sender := who.id, stamp := mbEpoch s m, bad := false }], bstate := .opened, owner := who.id, nread := 0 } ∧
        sameRegs [] s t ∧
        t = { s with regs := t.regs, mbox := t.mbox, sent := t.sent }) ∧
  (∀ (who : Who) (m : Fin 64) (w : MboxWord) (l : List MboxWord) (s : State), live s = true → isPriv s who = true → isSet s (F.MBX_CFG_MODE m) = false → (s.mb m).words = w :: l → w.bad = false → 
      ∃ t, Sys2Proof.Machine.exec (.mbxRxRead who m) s = .next t ∧
        t.mb m = { s.mb m with words := l } ∧
        t.sent = [{ chan := .reply who.id, bytes := leBytes 4 w.data.toNat }] ∧
        sameRegs [] s t ∧
        t = { s with regs := t.regs, mbox := t.mbox, rshadow := t.rshadow, sent := t.sent }) ∧
  (∀ (who : Who) (m : Fin 64) (s : State), live s = true → isPriv s who = true → isSet s (F.MBX_CFG_WAKE m) = false → (s.mb m).bstate = .opened → (s.mb m).owner = who.id → unguarded s who = true → 
      ∃ t, Sys2Proof.Machine.exec (.mbxGo who m) s = .next t ∧
        (t.mb m = { s.mb m with bstate := .committed, nread := 0, words := (s.mb m).words.map fun w => { w with stamp := mbEpoch s m } }) ∧
        isPending t (64 + m) = true ∧
        sameRegs [A.LKP_PEND 2, A.LKP_PEND 3] s t ∧
        t = { s with evtLast := t.evtLast, regs := t.regs, mbox := t.mbox, sent := t.sent, lkp := { s.lkp with srcVal := t.lkp.srcVal } }) ∧
  (∀ (who : Who) (m : Fin 64) (s : State), live s = true → isPriv s who = true → ((s.mb m).bstate = .committed ∨ (s.mb m).bstate = .reading) → unguarded s who = true → 
      ∃ t, Sys2Proof.Machine.exec (.mbxRelease who m) s = .next t ∧
        t.mb m = Mbox.reset ∧
        sameRegs [] s t ∧
        t = { s with regs := t.regs, mbox := t.mbox, sent := t.sent }) ∧
  (∀ (who : Who) (m : Fin 64) (s : State), live s = true → isPriv s who = true → (s.mb m).bstate = .opened → unguarded s who = true → 
      ∃ t, Sys2Proof.Machine.exec (.mbxAbort who m) s = .next t ∧
        t.mb m = Mbox.reset ∧
        sameRegs [] s t ∧
        t = { s with regs := t.regs, mbox := t.mbox, sent := t.sent }) ∧
  (∀ (who : Who) (m : Fin 64) (s : State), live s = true → isPriv s who = true → unguarded s who = true → 
      ∃ t, Sys2Proof.Machine.exec (.mbxFlush who m) s = .next t ∧
        t.mb m = Mbox.reset ∧
        sameRegs [] s t ∧
        t = { s with regs := t.regs, mbox := t.mbox, sent := t.sent }) ∧
  (∀ (who : Who) (m : Fin 64) (v : Word) (s : State), live s = true → isPriv s who = true → v = rd s (A.MBX_CFG m) &&& 0x7FFFFFFF#32 → getF s (F.MBX_CFG_RECV m) ≤ 5 → unguarded s who = true → 
      ∃ t, Sys2Proof.Machine.exec (.mbxCfgWrite who m v) s = .next t ∧
        isSet t (F.MBX_CFG_EN m) = false ∧
        t.mb m = Mbox.reset ∧
        sameRegs [A.MBX_CFG m] s t ∧
        t = { s with regs := t.regs, mbox := t.mbox, sent := t.sent }) ∧
  (∀ (who : Who) (m : Fin 64) (v : Word) (s : State), live s = true → isPriv s who = true → v.getLsbD 31 = true → (((List.range 64).all fun k => !isSet s (F.MBX_CFG_EN k)) = true) → bitsOf v.toNat 0 10 + bitsOf v.toNat 12 10 < 1024 → bitsOf v.toNat 25 3 ≤ 4 → unguarded s who = true → 
      ∃ t, Sys2Proof.Machine.exec (.mbxCfgWrite who m v) s = .next t ∧
        isSet t (F.MBX_CFG_EN m) = true ∧
        getF t (F.MBX_CFG_BASE m) = bitsOf v.toNat 0 10 ∧
        getF t (F.MBX_CFG_SIZEM1 m) = bitsOf v.toNat 12 10 ∧
        getF t (F.MBX_CFG_RECV m) = bitsOf v.toNat 25 3 ∧
        sameRegs [A.MBX_CFG m] s t ∧
        t = { s with regs := t.regs, sent := t.sent }) ∧
  (∀ (who : Who) (r : Fin 6) (s : State), live s = true → isPriv s who = true → merges s A.MBX_EVT 4 = false → unguarded s who = true → 
      ∃ t, Sys2Proof.Machine.exec (.epochBump who r) s = .next t ∧
        getF t (F.MBX_REPOCH_EPOCH r) = (getF s (F.MBX_REPOCH_EPOCH r) + 1) % 2 ^ (F.MBX_REPOCH_EPOCH r).w ∧
        hasEvent s t A.MBX_EVT 4 ∧
        sameRegs ([A.MBX_REPOCH r, A.MBX_EVT] ++ pendWords) s t ∧
        t = { s with evtLast := t.evtLast, regs := t.regs, sent := t.sent, lkp := { s.lkp with srcVal := t.lkp.srcVal } })

/-- An addition, subtraction, comparison or logic instruction at the PC of a running core writes its result to the destination
register, or nothing to w0, and with F the flags: N and Z of the result, C the carry or the absence of a borrow, V the signed
overflow; the logic operations leave C and V. The PC goes on by 4; every other register, every other core and the rest of the
device stay as the fetch left them. The model's own choices that clauses rest on: log 14. Each clause answers a next state by its
conditions on the state and the operands alone: so ADD, SUB, ADC, SBC, ADDI, CMPI, AND, OR, XOR, ANDN, ANDI, ORI, XORI and LUI
complete. -/
def Obligations.ArithmeticAndLogic : Prop :=
  (∀ (i : Fin 40) (f : Bool) (d a b : Fin 16) (s : State), atInstr i (.alu .add f d a b) s → 
      ∃ t, Sys2Proof.Machine.exec (.add i f d a b) s = .next t ∧
        wrote d ((s.core i).reg a + (s.core i).reg b) (s.core i) (t.core i) ∧
        flagged f ((s.core i).reg a + (s.core i).reg b) (decide (2 ^ 32 ≤ ((s.core i).reg a).toNat + ((s.core i).reg b).toNat)) (((s.core i).reg a).msb == ((s.core i).reg b).msb && ((s.core i).reg a + (s.core i).reg b).msb != ((s.core i).reg a).msb) (s.core i) (t.core i) ∧
        coreOnly i s t) ∧
  (∀ (i : Fin 40) (f : Bool) (d a b : Fin 16) (s : State), atInstr i (.alu .sub f d a b) s → 
      ∃ t, Sys2Proof.Machine.exec (.sub i f d a b) s = .next t ∧
        wrote d ((s.core i).reg a - (s.core i).reg b) (s.core i) (t.core i) ∧
        flagged f ((s.core i).reg a - (s.core i).reg b) (decide (((s.core i).reg b).toNat ≤ ((s.core i).reg a).toNat)) (((s.core i).reg a).msb != ((s.core i).reg b).msb && ((s.core i).reg a - (s.core i).reg b).msb != ((s.core i).reg a).msb) (s.core i) (t.core i) ∧
        coreOnly i s t) ∧
  (∀ (i : Fin 40) (f : Bool) (d a b : Fin 16) (s : State), atInstr i (.alu .adc f d a b) s → 
      ∃ t, Sys2Proof.Machine.exec (.adc i f d a b) s = .next t ∧
        wrote d ((s.core i).reg a + (s.core i).reg b + w32 (bit (s.core i).c)) (s.core i) (t.core i) ∧
        flagged f ((s.core i).reg a + (s.core i).reg b + w32 (bit (s.core i).c)) (decide (2 ^ 32 ≤ ((s.core i).reg a).toNat + ((s.core i).reg b).toNat + bit (s.core i).c)) (((s.core i).reg a).msb == ((s.core i).reg b).msb && ((s.core i).reg a + (s.core i).reg b + w32 (bit (s.core i).c)).msb != ((s.core i).reg a).msb) (s.core i) (t.core i) ∧
        coreOnly i s t) ∧
  (∀ (i : Fin 40) (f : Bool) (d a b : Fin 16) (s : State), atInstr i (.alu .sbc f d a b) s → 
      ∃ t, Sys2Proof.Machine.exec (.sbc i f d a b) s = .next t ∧
        wrote d ((s.core i).reg a - (s.core i).reg b - w32 (1 - bit (s.core i).c)) (s.core i) (t.core i) ∧
        flagged f ((s.core i).reg a - (s.core i).reg b - w32 (1 - bit (s.core i).c)) (decide (((s.core i).reg b).toNat + (1 - bit (s.core i).c) ≤ ((s.core i).reg a).toNat)) (((s.core i).reg a).msb != ((s.core i).reg b).msb && ((s.core i).reg a - (s.core i).reg b - w32 (1 - bit (s.core i).c)).msb != ((s.core i).reg a).msb) (s.core i) (t.core i) ∧
        coreOnly i s t) ∧
  (∀ (i : Fin 40) (f : Bool) (d a : Fin 16) (x : BitVec 16) (s : State), atInstr i (.imm .addi f d a x) s → 
      ∃ t, Sys2Proof.Machine.exec (.addi i f d a x) s = .next t ∧
        wrote d ((s.core i).reg a + x.signExtend 32) (s.core i) (t.core i) ∧
        flagged f ((s.core i).reg a + x.signExtend 32) (decide (2 ^ 32 ≤ ((s.core i).reg a).toNat + (x.signExtend 32).toNat)) (((s.core i).reg a).msb == (x.signExtend 32).msb && ((s.core i).reg a + x.signExtend 32).msb != ((s.core i).reg a).msb) (s.core i) (t.core i) ∧
        coreOnly i s t) ∧
  (∀ (i : Fin 40) (a : Fin 16) (x : BitVec 16) (s : State), atInstr i (.cmpi a x) s → 
      ∃ t, Sys2Proof.Machine.exec (.cmpi i a x) s = .next t ∧
        wrote 0 0 (s.core i) (t.core i) ∧
        flagged true ((s.core i).reg a - x.signExtend 32) (decide ((x.signExtend 32).toNat ≤ ((s.core i).reg a).toNat)) (((s.core i).reg a).msb != (x.signExtend 32).msb && ((s.core i).reg a - x.signExtend 32).msb != ((s.core i).reg a).msb) (s.core i) (t.core i) ∧
        coreOnly i s t) ∧
  (∀ (i : Fin 40) (f : Bool) (d a b : Fin 16) (s : State), atInstr i (.alu .and f d a b) s → 
      ∃ t, Sys2Proof.Machine.exec (.and i f d a b) s = .next t ∧
        wrote d ((s.core i).reg a &&& (s.core i).reg b) (s.core i) (t.core i) ∧
        flagged f ((s.core i).reg a &&& (s.core i).reg b) ((s.core i).c) ((s.core i).v) (s.core i) (t.core i) ∧
        coreOnly i s t) ∧
  (∀ (i : Fin 40) (f : Bool) (d a b : Fin 16) (s : State), atInstr i (.alu .or f d a b) s → 
      ∃ t, Sys2Proof.Machine.exec (.or i f d a b) s = .next t ∧
        wrote d ((s.core i).reg a ||| (s.core i).reg b) (s.core i) (t.core i) ∧
        flagged f ((s.core i).reg a ||| (s.core i).reg b) ((s.core i).c) ((s.core i).v) (s.core i) (t.core i) ∧
        coreOnly i s t) ∧
  (∀ (i : Fin 40) (f : Bool) (d a b : Fin 16) (s : State), atInstr i (.alu .xor f d a b) s → 
      ∃ t, Sys2Proof.Machine.exec (.xor i f d a b) s = .next t ∧
        wrote d ((s.core i).reg a ^^^ (s.core i).reg b) (s.core i) (t.core i) ∧
        flagged f ((s.core i).reg a ^^^ (s.core i).reg b) ((s.core i).c) ((s.core i).v) (s.core i) (t.core i) ∧
        coreOnly i s t) ∧
  (∀ (i : Fin 40) (f : Bool) (d a b : Fin 16) (s : State), atInstr i (.alu .andn f d a b) s → 
      ∃ t, Sys2Proof.Machine.exec (.andn i f d a b) s = .next t ∧
        wrote d ((s.core i).reg a &&& ~~~((s.core i).reg b)) (s.core i) (t.core i) ∧
        flagged f ((s.core i).reg a &&& ~~~((s.core i).reg b)) ((s.core i).c) ((s.core i).v) (s.core i) (t.core i) ∧
        coreOnly i s t) ∧
  (∀ (i : Fin 40) (f : Bool) (d a : Fin 16) (x : BitVec 16) (s : State), atInstr i (.imm .andi f d a x) s → 
      ∃ t, Sys2Proof.Machine.exec (.andi i f d a x) s = .next t ∧
        wrote d ((s.core i).reg a &&& x.setWidth 32) (s.core i) (t.core i) ∧
        flagged f ((s.core i).reg a &&& x.setWidth 32) (s.core i).c (s.core i).v (s.core i) (t.core i) ∧
        coreOnly i s t) ∧
  (∀ (i : Fin 40) (f : Bool) (d a : Fin 16) (x : BitVec 16) (s : State), atInstr i (.imm .ori f d a x) s → 
      ∃ t, Sys2Proof.Machine.exec (.ori i f d a x) s = .next t ∧
        wrote d ((s.core i).reg a ||| x.setWidth 32) (s.core i) (t.core i) ∧
        flagged f ((s.core i).reg a ||| x.setWidth 32) (s.core i).c (s.core i).v (s.core i) (t.core i) ∧
        coreOnly i s t) ∧
  (∀ (i : Fin 40) (f : Bool) (d a : Fin 16) (x : BitVec 16) (s : State), atInstr i (.imm .xori f d a x) s → 
      ∃ t, Sys2Proof.Machine.exec (.xori i f d a x) s = .next t ∧
        wrote d ((s.core i).reg a ^^^ x.setWidth 32) (s.core i) (t.core i) ∧
        flagged f ((s.core i).reg a ^^^ x.setWidth 32) (s.core i).c (s.core i).v (s.core i) (t.core i) ∧
        coreOnly i s t) ∧
  (∀ (i : Fin 40) (d : Fin 16) (x : BitVec 16) (s : State), atInstr i (.lui d x) s → 
      ∃ t, Sys2Proof.Machine.exec (.lui i d x) s = .next t ∧
        wrote d (x ++ 0#16) (s.core i) (t.core i) ∧
        flagged false 0 false false (s.core i) (t.core i) ∧
        coreOnly i s t)

/-- A shift by a register takes its amount modulo 32; with F, C is the last bit shifted out and stays where the amount is 0, and V
stays. CLZ counts leading zeros, 32 for 0. BFX and BFXS extract a field with zero or sign extension, BFI inserts one, BPERM picks
each byte from eight; they leave the flags. Nothing else of the core but PC and cycles, and nothing of the device, changes. The
model's own choices that clauses rest on: log 14. Each clause answers a next state by its conditions on the state and the operands
alone: so SHL, SHR, SAR, ROR, SHLI, SHRI, SARI, RORI, CLZ, BFX, BFXS, BFI and BPERM complete. -/
def Obligations.ShiftsAndBitFields : Prop :=
  (∀ (i : Fin 40) (f : Bool) (d a b : Fin 16) (s : State), atInstr i (.alu .shl f d a b) s → 
      ∃ t, Sys2Proof.Machine.exec (.shl i f d a b) s = .next t ∧
        wrote d ((s.core i).reg a <<< (((s.core i).reg b).toNat % 32)) (s.core i) (t.core i) ∧
        (flagged f ((s.core i).reg a <<< (((s.core i).reg b).toNat % 32)) (if (((s.core i).reg b).toNat % 32) = 0 then (s.core i).c else ((s.core i).reg a).getLsbD (32 - (((s.core i).reg b).toNat % 32))) ((s.core i).v) (s.core i) (t.core i)) ∧
        coreOnly i s t) ∧
  (∀ (i : Fin 40) (f : Bool) (d a b : Fin 16) (s : State), atInstr i (.alu .shr f d a b) s → 
      ∃ t, Sys2Proof.Machine.exec (.shr i f d a b) s = .next t ∧
        wrote d ((s.core i).reg a >>> (((s.core i).reg b).toNat % 32)) (s.core i) (t.core i) ∧
        (flagged f ((s.core i).reg a >>> (((s.core i).reg b).toNat % 32)) (if (((s.core i).reg b).toNat % 32) = 0 then (s.core i).c else ((s.core i).reg a).getLsbD ((((s.core i).reg b).toNat % 32) - 1)) ((s.core i).v) (s.core i) (t.core i)) ∧
        coreOnly i s t) ∧
  (∀ (i : Fin 40) (f : Bool) (d a b : Fin 16) (s : State), atInstr i (.alu .sar f d a b) s → 
      ∃ t, Sys2Proof.Machine.exec (.sar i f d a b) s = .next t ∧
        wrote d (((s.core i).reg a).sshiftRight (((s.core i).reg b).toNat % 32)) (s.core i) (t.core i) ∧
        (flagged f (((s.core i).reg a).sshiftRight (((s.core i).reg b).toNat % 32)) (if (((s.core i).reg b).toNat % 32) = 0 then (s.core i).c else ((s.core i).reg a).getLsbD ((((s.core i).reg b).toNat % 32) - 1)) ((s.core i).v) (s.core i) (t.core i)) ∧
        coreOnly i s t) ∧
  (∀ (i : Fin 40) (f : Bool) (d a b : Fin 16) (s : State), atInstr i (.alu .ror f d a b) s → 
      ∃ t, Sys2Proof.Machine.exec (.ror i f d a b) s = .next t ∧
        wrote d (((s.core i).reg a).rotateRight (((s.core i).reg b).toNat % 32)) (s.core i) (t.core i) ∧
        (flagged f (((s.core i).reg a).rotateRight (((s.core i).reg b).toNat % 32)) (if (((s.core i).reg b).toNat % 32) = 0 then (s.core i).c else (((s.core i).reg a).rotateRight (((s.core i).reg b).toNat % 32)).msb) ((s.core i).v) (s.core i) (t.core i)) ∧
        coreOnly i s t) ∧
  (∀ (i : Fin 40) (f : Bool) (d a : Fin 16) (n : Fin 32) (s : State), atInstr i (.shift .shli f d a n) s → 
      ∃ t, Sys2Proof.Machine.exec (.shli i f d a n) s = .next t ∧
        wrote d ((s.core i).reg a <<< n.val) (s.core i) (t.core i) ∧
        (flagged f ((s.core i).reg a <<< n.val) (if n.val = 0 then (s.core i).c else ((s.core i).reg a).getLsbD (32 - n.val)) (s.core i).v (s.core i) (t.core i)) ∧
        coreOnly i s t) ∧
  (∀ (i : Fin 40) (f : Bool) (d a : Fin 16) (n : Fin 32) (s : State), atInstr i (.shift .shri f d a n) s → 
      ∃ t, Sys2Proof.Machine.exec (.shri i f d a n) s = .next t ∧
        wrote d ((s.core i).reg a >>> n.val) (s.core i) (t.core i) ∧
        (flagged f ((s.core i).reg a >>> n.val) (if n.val = 0 then (s.core i).c else ((s.core i).reg a).getLsbD (n.val - 1)) (s.core i).v (s.core i) (t.core i)) ∧
        coreOnly i s t) ∧
  (∀ (i : Fin 40) (f : Bool) (d a : Fin 16) (n : Fin 32) (s : State), atInstr i (.shift .sari f d a n) s → 
      ∃ t, Sys2Proof.Machine.exec (.sari i f d a n) s = .next t ∧
        wrote d (((s.core i).reg a).sshiftRight n.val) (s.core i) (t.core i) ∧
        (flagged f (((s.core i).reg a).sshiftRight n.val) (if n.val = 0 then (s.core i).c else ((s.core i).reg a).getLsbD (n.val - 1)) (s.core i).v (s.core i) (t.core i)) ∧
        coreOnly i s t) ∧
  (∀ (i : Fin 40) (f : Bool) (d a : Fin 16) (n : Fin 32) (s : State), atInstr i (.shift .rori f d a n) s → 
      ∃ t, Sys2Proof.Machine.exec (.rori i f d a n) s = .next t ∧
        wrote d (((s.core i).reg a).rotateRight n.val) (s.core i) (t.core i) ∧
        (flagged f (((s.core i).reg a).rotateRight n.val) (if n.val = 0 then (s.core i).c else (((s.core i).reg a).rotateRight n.val).msb) (s.core i).v (s.core i) (t.core i)) ∧
        coreOnly i s t) ∧
  (∀ (i : Fin 40) (d a : Fin 16) (s : State), atInstr i (.clz d a) s → 
      ∃ t, Sys2Proof.Machine.exec (.clz i d a) s = .next t ∧
        wrote d (((s.core i).reg a).clz) (s.core i) (t.core i) ∧
        flagged false 0 false false (s.core i) (t.core i) ∧
        coreOnly i s t) ∧
  (∀ (i : Fin 40) (d a : Fin 16) (pos lenM1 : Fin 32) (s : State), atInstr i (.bfx false d a pos lenM1) s → 
      ∃ t, Sys2Proof.Machine.exec (.bfx i d a pos lenM1) s = .next t ∧
        wrote d ((((s.core i).reg a >>> pos.val) <<< (31 - lenM1.val)) >>> (31 - lenM1.val)) (s.core i) (t.core i) ∧
        flagged false 0 false false (s.core i) (t.core i) ∧
        coreOnly i s t) ∧
  (∀ (i : Fin 40) (d a : Fin 16) (pos lenM1 : Fin 32) (s : State), atInstr i (.bfx true d a pos lenM1) s → 
      ∃ t, Sys2Proof.Machine.exec (.bfxs i d a pos lenM1) s = .next t ∧
        wrote d ((((s.core i).reg a >>> pos.val) <<< (31 - lenM1.val)).sshiftRight (31 - lenM1.val)) (s.core i) (t.core i) ∧
        flagged false 0 false false (s.core i) (t.core i) ∧
        coreOnly i s t) ∧
  (∀ (i : Fin 40) (d a : Fin 16) (pos lenM1 : Fin 32) (s : State), atInstr i (.bfi d a pos lenM1) s → 
      ∃ t, Sys2Proof.Machine.exec (.bfi i d a pos lenM1) s = .next t ∧
        wrote d ((t.core i).reg d) (s.core i) (t.core i) ∧
        (∀ j : Fin 32, d = 0 ∨ ((t.core i).reg d).getLsbD j = if pos.val ≤ j.val ∧ j.val ≤ pos.val + lenM1.val then ((s.core i).reg a).getLsbD (j.val - pos.val) else ((s.core i).reg d).getLsbD j) ∧
        flagged false 0 false false (s.core i) (t.core i) ∧
        coreOnly i s t) ∧
  (∀ (i : Fin 40) (d a b : Fin 16) (sel : BitVec 12) (s : State), atInstr i (.bperm d a b sel) s → 
      ∃ t, Sys2Proof.Machine.exec (.bperm i d a b sel) s = .next t ∧
        wrote d ((t.core i).reg d) (s.core i) (t.core i) ∧
        (∀ j : Fin 4, d = 0 ∨ ((t.core i).reg d).extractLsb' (8 * j.val) 8 = ((s.core i).reg b ++ (s.core i).reg a).extractLsb' (8 * (sel.extractLsb' (3 * j.val) 3).toNat) 8) ∧
        flagged false 0 false false (s.core i) (t.core i) ∧
        coreOnly i s t)

/-- MUL gives the low word of the product, MULHS and MULHU the high word of the signed and unsigned product; they leave C and V. A
division by zero gives all ones, a remainder by zero the dividend, with C 1; the most negative number divided by −1 gives itself
with remainder 0 and V 1. Nothing else of the core but PC and cycles, and nothing of the device, changes. The model's own choices
that clauses rest on: log 14. Each clause answers a next state by its conditions on the state and the operands alone: so MUL,
MULHS, MULHU, DIVS, DIVU, REMS and REMU complete. -/
def Obligations.MultiplyAndDivide : Prop :=
  (∀ (i : Fin 40) (f : Bool) (d a b : Fin 16) (s : State), atInstr i (.alu .mul f d a b) s → 
      ∃ t, Sys2Proof.Machine.exec (.mul i f d a b) s = .next t ∧
        wrote d ((s.core i).reg a * (s.core i).reg b) (s.core i) (t.core i) ∧
        flagged f ((s.core i).reg a * (s.core i).reg b) ((s.core i).c) ((s.core i).v) (s.core i) (t.core i) ∧
        coreOnly i s t) ∧
  (∀ (i : Fin 40) (f : Bool) (d a b : Fin 16) (s : State), atInstr i (.alu .mulhs f d a b) s → 
      ∃ t, Sys2Proof.Machine.exec (.mulhs i f d a b) s = .next t ∧
        wrote d ((((s.core i).reg a).signExtend 64 * ((s.core i).reg b).signExtend 64).extractLsb' 32 32) (s.core i) (t.core i) ∧
        flagged f ((((s.core i).reg a).signExtend 64 * ((s.core i).reg b).signExtend 64).extractLsb' 32 32) ((s.core i).c) ((s.core i).v) (s.core i) (t.core i) ∧
        coreOnly i s t) ∧
  (∀ (i : Fin 40) (f : Bool) (d a b : Fin 16) (s : State), atInstr i (.alu .mulhu f d a b) s → 
      ∃ t, Sys2Proof.Machine.exec (.mulhu i f d a b) s = .next t ∧
        wrote d ((((s.core i).reg a).setWidth 64 * ((s.core i).reg b).setWidth 64).extractLsb' 32 32) (s.core i) (t.core i) ∧
        flagged f ((((s.core i).reg a).setWidth 64 * ((s.core i).reg b).setWidth 64).extractLsb' 32 32) ((s.core i).c) ((s.core i).v) (s.core i) (t.core i) ∧
        coreOnly i s t) ∧
  (∀ (i : Fin 40) (f : Bool) (d a b : Fin 16) (s : State), atInstr i (.alu .divs f d a b) s → 
      ∃ t, Sys2Proof.Machine.exec (.divs i f d a b) s = .next t ∧
        (wrote d (if (s.core i).reg b = 0 then 0xFFFFFFFF else ((s.core i).reg a).sdiv ((s.core i).reg b)) (s.core i) (t.core i)) ∧
        (flagged f (if (s.core i).reg b = 0 then 0xFFFFFFFF else ((s.core i).reg a).sdiv ((s.core i).reg b)) ((s.core i).reg b == 0) ((s.core i).reg a == 0x80000000 && (s.core i).reg b == 0xFFFFFFFF) (s.core i) (t.core i)) ∧
        coreOnly i s t) ∧
  (∀ (i : Fin 40) (f : Bool) (d a b : Fin 16) (s : State), atInstr i (.alu .divu f d a b) s → 
      ∃ t, Sys2Proof.Machine.exec (.divu i f d a b) s = .next t ∧
        (wrote d (if (s.core i).reg b = 0 then 0xFFFFFFFF else (s.core i).reg a / (s.core i).reg b) (s.core i) (t.core i)) ∧
        (flagged f (if (s.core i).reg b = 0 then 0xFFFFFFFF else (s.core i).reg a / (s.core i).reg b) ((s.core i).reg b == 0) (false) (s.core i) (t.core i)) ∧
        coreOnly i s t) ∧
  (∀ (i : Fin 40) (f : Bool) (d a b : Fin 16) (s : State), atInstr i (.alu .rems f d a b) s → 
      ∃ t, Sys2Proof.Machine.exec (.rems i f d a b) s = .next t ∧
        (wrote d (if (s.core i).reg b = 0 then (s.core i).reg a else ((s.core i).reg a).srem ((s.core i).reg b)) (s.core i) (t.core i)) ∧
        (flagged f (if (s.core i).reg b = 0 then (s.core i).reg a else ((s.core i).reg a).srem ((s.core i).reg b)) ((s.core i).reg b == 0) ((s.core i).reg a == 0x80000000 && (s.core i).reg b == 0xFFFFFFFF) (s.core i) (t.core i)) ∧
        coreOnly i s t) ∧
  (∀ (i : Fin 40) (f : Bool) (d a b : Fin 16) (s : State), atInstr i (.alu .remu f d a b) s → 
      ∃ t, Sys2Proof.Machine.exec (.remu i f d a b) s = .next t ∧
        (wrote d (if (s.core i).reg b = 0 then (s.core i).reg a else (s.core i).reg a % (s.core i).reg b) (s.core i) (t.core i)) ∧
        (flagged f (if (s.core i).reg b = 0 then (s.core i).reg a else (s.core i).reg a % (s.core i).reg b) ((s.core i).reg b == 0) (false) (s.core i) (t.core i)) ∧
        coreOnly i s t)

/-- A load whose address passes every check writes the little-endian value at its address to the destination register, LDH and LDB
with sign extension, LDHU and LDBU with zeros, and leaves flags, memory and the rest of the device; the same holds of a word load
from the image store with an empty store buffer. The model's own choices that clauses rest on: log 14. Each clause answers a next
state by its conditions on the state and the operands alone: so LDW, LDH, LDHU, LDB and LDBU complete. -/
def Obligations.Loads : Prop :=
  (∀ (i : Fin 40) (d b : Fin 16) (disp : BitVec 16) (off : Nat) (s : State), atInstr i (.load .ldw d b disp) s → ownClear (fetched i s) i (effAddr (s.core i) b (disp.signExtend 32)) 4 false off → 
      ∃ t, Sys2Proof.Machine.exec (.ldw i d b disp) s = .next t ∧
        wrote d (w32 (memNat s (reachAddr (i / 8) off) 4)) (s.core i) (t.core i) ∧
        flagged false 0 false false (s.core i) (t.core i) ∧
        coreOnly i s t) ∧
  (∀ (i : Fin 40) (d b : Fin 16) (disp : BitVec 16) (off : Nat) (s : State), atInstr i (.load .ldh d b disp) s → ownClear (fetched i s) i (effAddr (s.core i) b (disp.signExtend 32)) 2 false off → 
      ∃ t, Sys2Proof.Machine.exec (.ldh i d b disp) s = .next t ∧
        wrote d ((BitVec.ofNat 16 (memNat s (reachAddr (i / 8) off) 2)).signExtend 32) (s.core i) (t.core i) ∧
        flagged false 0 false false (s.core i) (t.core i) ∧
        coreOnly i s t) ∧
  (∀ (i : Fin 40) (d b : Fin 16) (disp : BitVec 16) (off : Nat) (s : State), atInstr i (.load .ldhu d b disp) s → ownClear (fetched i s) i (effAddr (s.core i) b (disp.signExtend 32)) 2 false off → 
      ∃ t, Sys2Proof.Machine.exec (.ldhu i d b disp) s = .next t ∧
        wrote d (w32 (memNat s (reachAddr (i / 8) off) 2)) (s.core i) (t.core i) ∧
        flagged false 0 false false (s.core i) (t.core i) ∧
        coreOnly i s t) ∧
  (∀ (i : Fin 40) (d b : Fin 16) (disp : BitVec 16) (off : Nat) (s : State), atInstr i (.load .ldb d b disp) s → ownClear (fetched i s) i (effAddr (s.core i) b (disp.signExtend 32)) 1 false off → 
      ∃ t, Sys2Proof.Machine.exec (.ldb i d b disp) s = .next t ∧
        wrote d ((byteAt s (reachAddr (i / 8) off)).signExtend 32) (s.core i) (t.core i) ∧
        flagged false 0 false false (s.core i) (t.core i) ∧
        coreOnly i s t) ∧
  (∀ (i : Fin 40) (d b : Fin 16) (disp : BitVec 16) (off : Nat) (s : State), atInstr i (.load .ldbu d b disp) s → ownClear (fetched i s) i (effAddr (s.core i) b (disp.signExtend 32)) 1 false off → 
      ∃ t, Sys2Proof.Machine.exec (.ldbu i d b disp) s = .next t ∧
        wrote d ((byteAt s (reachAddr (i / 8) off)).setWidth 32) (s.core i) (t.core i) ∧
        flagged false 0 false false (s.core i) (t.core i) ∧
        coreOnly i s t) ∧
  (∀ (i : Fin 40) (d b : Fin 16) (disp : BitVec 16) (s : State), atInstr i (.load .ldw d b disp) s → (s.core i).sbuf = [] → heldFor s i = false → (0x30000000 ≤ (effAddr (s.core i) b (disp.signExtend 32)) ∧ (effAddr (s.core i) b (disp.signExtend 32)) < 0x30100000) → accessCheck (fetched i s) i (effAddr (s.core i) b (disp.signExtend 32)) 4 false = none → eccOf (fetched i s) (effAddr (s.core i) b (disp.signExtend 32)) 4 = 0 → 
      ∃ t, Sys2Proof.Machine.exec (.ldw i d b disp) s = .next t ∧
        wrote d (w32 (memNat s (effAddr (s.core i) b (disp.signExtend 32)) 4)) (s.core i) (t.core i) ∧
        flagged false 0 false false (s.core i) (t.core i) ∧
        coreOnly i s t)

/-- A store to own-reach memory that passes every check leaves the low bytes of the register at its address and every other byte of
memory as it was; one elsewhere waits in the store buffer, behind those that wait there, with the mode it was made in. Flags and
registers stay. The model's own choices that clauses rest on: log 14 and 45. Each clause answers a next state by its conditions on
the state and the operands alone: so STW, STH and STB complete. -/
def Obligations.Stores : Prop :=
  (∀ (i : Fin 40) (r b : Fin 16) (disp : BitVec 16) (off : Nat) (s : State), atInstr i (.store .stw r b disp) s → ownClear (fetched i s) i (effAddr (s.core i) b (disp.signExtend 32)) 4 true off → 
      ∃ t, Sys2Proof.Machine.exec (.stw i r b disp) s = .next t ∧
        bytesAt t (reachAddr (i / 8) off) 4 = leBytes 4 ((s.core i).reg r).toNat ∧
        sameBytes (reachAddr (i / 8) off) 4 (fetched i s) t ∧
        (t.core i) = { (s.core i) with pc := (s.core i).pc + 4, icache := (t.core i).icache, cyc := (t.core i).cyc } ∧
        sameRegs [] (fetched i s) t ∧
        t = { fetched i s with mem := t.mem, ecc := t.ecc, regs := t.regs, cores := t.cores, rot := { (fetched i s).rot with fill := t.rot.fill }, scan := { (fetched i s).scan with clean0 := t.scan.clean0, clean1 := t.scan.clean1 }, pair := { (fetched i s).pair with track := t.pair.track }, pending := t.pending, sn := t.sn }) ∧
  (∀ (i : Fin 40) (r b : Fin 16) (disp : BitVec 16) (s : State), atInstr i (.store .stw r b disp) s → accessCheck (fetched i s) i (effAddr (s.core i) b (disp.signExtend 32)) 4 true = none → 0x100000 ≤ (effAddr (s.core i) b (disp.signExtend 32)) → (s.core i).sbuf.length + bit (heldFor s i) < 4 → 
      ∃ t, Sys2Proof.Machine.exec (.stw i r b disp) s = .next t ∧
        (t.core i) = { (s.core i) with sbuf := (s.core i).sbuf ++ [{ addr := (effAddr (s.core i) b (disp.signExtend 32)), size := 4, data := ((s.core i).reg r).toNat % 256 ^ 4, sup := (s.core i).sup }], pc := (s.core i).pc + 4, icache := (t.core i).icache, cyc := (t.core i).cyc } ∧
        coreOnly i s t) ∧
  (∀ (i : Fin 40) (r b : Fin 16) (disp : BitVec 16) (off : Nat) (s : State), atInstr i (.store .sth r b disp) s → ownClear (fetched i s) i (effAddr (s.core i) b (disp.signExtend 32)) 2 true off → 
      ∃ t, Sys2Proof.Machine.exec (.sth i r b disp) s = .next t ∧
        bytesAt t (reachAddr (i / 8) off) 2 = leBytes 2 ((s.core i).reg r).toNat ∧
        sameBytes (reachAddr (i / 8) off) 2 (fetched i s) t ∧
        (t.core i) = { (s.core i) with pc := (s.core i).pc + 4, icache := (t.core i).icache, cyc := (t.core i).cyc } ∧
        sameRegs [] (fetched i s) t ∧
        t = { fetched i s with mem := t.mem, ecc := t.ecc, regs := t.regs, cores := t.cores, rot := { (fetched i s).rot with fill := t.rot.fill }, scan := { (fetched i s).scan with clean0 := t.scan.clean0, clean1 := t.scan.clean1 }, pair := { (fetched i s).pair with track := t.pair.track }, pending := t.pending, sn := t.sn }) ∧
  (∀ (i : Fin 40) (r b : Fin 16) (disp : BitVec 16) (s : State), atInstr i (.store .sth r b disp) s → accessCheck (fetched i s) i (effAddr (s.core i) b (disp.signExtend 32)) 2 true = none → 0x100000 ≤ (effAddr (s.core i) b (disp.signExtend 32)) → (s.core i).sbuf.length + bit (heldFor s i) < 4 → 
      ∃ t, Sys2Proof.Machine.exec (.sth i r b disp) s = .next t ∧
        (t.core i) = { (s.core i) with sbuf := (s.core i).sbuf ++ [{ addr := (effAddr (s.core i) b (disp.signExtend 32)), size := 2, data := ((s.core i).reg r).toNat % 256 ^ 2, sup := (s.core i).sup }], pc := (s.core i).pc + 4, icache := (t.core i).icache, cyc := (t.core i).cyc } ∧
        coreOnly i s t) ∧
  (∀ (i : Fin 40) (r b : Fin 16) (disp : BitVec 16) (off : Nat) (s : State), atInstr i (.store .stb r b disp) s → ownClear (fetched i s) i (effAddr (s.core i) b (disp.signExtend 32)) 1 true off → 
      ∃ t, Sys2Proof.Machine.exec (.stb i r b disp) s = .next t ∧
        bytesAt t (reachAddr (i / 8) off) 1 = leBytes 1 ((s.core i).reg r).toNat ∧
        sameBytes (reachAddr (i / 8) off) 1 (fetched i s) t ∧
        (t.core i) = { (s.core i) with pc := (s.core i).pc + 4, icache := (t.core i).icache, cyc := (t.core i).cyc } ∧
        sameRegs [] (fetched i s) t ∧
        t = { fetched i s with mem := t.mem, ecc := t.ecc, regs := t.regs, cores := t.cores, rot := { (fetched i s).rot with fill := t.rot.fill }, scan := { (fetched i s).scan with clean0 := t.scan.clean0, clean1 := t.scan.clean1 }, pair := { (fetched i s).pair with track := t.pair.track }, pending := t.pending, sn := t.sn }) ∧
  (∀ (i : Fin 40) (r b : Fin 16) (disp : BitVec 16) (s : State), atInstr i (.store .stb r b disp) s → accessCheck (fetched i s) i (effAddr (s.core i) b (disp.signExtend 32)) 1 true = none → 0x100000 ≤ (effAddr (s.core i) b (disp.signExtend 32)) → (s.core i).sbuf.length + bit (heldFor s i) < 4 → 
      ∃ t, Sys2Proof.Machine.exec (.stb i r b disp) s = .next t ∧
        (t.core i) = { (s.core i) with sbuf := (s.core i).sbuf ++ [{ addr := (effAddr (s.core i) b (disp.signExtend 32)), size := 1, data := ((s.core i).reg r).toNat % 256 ^ 1, sup := (s.core i).sup }], pc := (s.core i).pc + 4, icache := (t.core i).icache, cyc := (t.core i).cyc } ∧
        coreOnly i s t)

/-- BCC goes to PC + 4 × disp where its condition on N, Z, C, V holds, and on by 4 where not; BJT and BJF look at BACC; JMP goes to a
register's value; CALL and CALLR push PC + 4 on the return stack first; RET pops its target, and where the entry is no return
address raises RETMIS with the stack as it was. Nothing else changes. The model's own choices that clauses rest on: log 14. Each
clause answers a next state by its conditions on the state and the operands alone: so BCC, BJT, BJF, JMP, CALL, CALLR and RET
complete. -/
def Obligations.BranchesAndCalls : Prop :=
  (∀ (i : Fin 40) (cond : Fin 15) (disp : BitVec 22) (s : State), atInstr i (.bcc cond disp) s → 
      ∃ t, Sys2Proof.Machine.exec (.bcc i cond disp) s = .next t ∧
        ((t.core i) = { (s.core i) with pc := if [(s.core i).z, !(s.core i).z, (s.core i).c, !(s.core i).c, (s.core i).n, !(s.core i).n, (s.core i).v, !(s.core i).v, (s.core i).c && !(s.core i).z, !((s.core i).c && !(s.core i).z), (s.core i).n == (s.core i).v, (s.core i).n != (s.core i).v, !(s.core i).z && (s.core i).n == (s.core i).v, !(!(s.core i).z && (s.core i).n == (s.core i).v), true].getD cond.val false then ((s.core i).pc + disp.signExtend 32 * 4) &&& 0xFFFFFFFC#32 else (s.core i).pc + 4, icache := (t.core i).icache, cyc := (t.core i).cyc }) ∧
        coreOnly i s t) ∧
  (∀ (i : Fin 40) (disp : BitVec 22) (s : State), atInstr i (.bj true disp) s → 
      ∃ t, Sys2Proof.Machine.exec (.bjt i disp) s = .next t ∧
        ((t.core i) = { (s.core i) with pc := if (s.core i).bacc = true then ((s.core i).pc + disp.signExtend 32 * 4) &&& 0xFFFFFFFC#32 else (s.core i).pc + 4, icache := (t.core i).icache, cyc := (t.core i).cyc }) ∧
        coreOnly i s t) ∧
  (∀ (i : Fin 40) (disp : BitVec 22) (s : State), atInstr i (.bj false disp) s → 
      ∃ t, Sys2Proof.Machine.exec (.bjf i disp) s = .next t ∧
        ((t.core i) = { (s.core i) with pc := if (s.core i).bacc = false then ((s.core i).pc + disp.signExtend 32 * 4) &&& 0xFFFFFFFC#32 else (s.core i).pc + 4, icache := (t.core i).icache, cyc := (t.core i).cyc }) ∧
        coreOnly i s t) ∧
  (∀ (i : Fin 40) (a : Fin 16) (s : State), atInstr i (.jmp a) s → 
      ∃ t, Sys2Proof.Machine.exec (.jmp i a) s = .next t ∧
        (t.core i) = { (s.core i) with pc := (s.core i).reg a &&& 0xFFFFFFFC#32, icache := (t.core i).icache, cyc := (t.core i).cyc } ∧
        coreOnly i s t) ∧
  (∀ (i : Fin 40) (disp : BitVec 26) (s : State), atInstr i (.call disp) s → (s.core i).rstack.length < 32 → 
      ∃ t, Sys2Proof.Machine.exec (.call i disp) s = .next t ∧
        (t.core i) = { (s.core i) with pc := ((s.core i).pc + disp.signExtend 32 * 4) &&& 0xFFFFFFFC#32, rstack := ((s.core i).pc + 4) :: (s.core i).rstack, icache := (t.core i).icache, cyc := (t.core i).cyc } ∧
        coreOnly i s t) ∧
  (∀ (i : Fin 40) (a : Fin 16) (s : State), atInstr i (.callr a) s → (s.core i).rstack.length < 32 → 
      ∃ t, Sys2Proof.Machine.exec (.callr i a) s = .next t ∧
        (t.core i) = { (s.core i) with pc := (s.core i).reg a &&& 0xFFFFFFFC#32, rstack := ((s.core i).pc + 4) :: (s.core i).rstack, icache := (t.core i).icache, cyc := (t.core i).cyc } ∧
        coreOnly i s t) ∧
  (∀ (i : Fin 40) (v : Word) (l : List Word) (s : State), atInstr i .ret s → (s.core i).rstack = v :: l → v.toNat % 4 = 0 → 
      ∃ t, Sys2Proof.Machine.exec (.ret i) s = .next t ∧
        (t.core i) = { (s.core i) with pc := v, rstack := l, icache := (t.core i).icache, cyc := (t.core i).cyc } ∧
        coreOnly i s t) ∧
  (∀ (i : Fin 40) (v : Word) (l : List Word) (s : State), atInstr i .ret s → (s.core i).rstack = v :: l → v.toNat % 4 ≠ 0 → (s.core i).rstack.length ≤ 28 → 
      ∃ t, Sys2Proof.Machine.exec (.ret i) s = .next t ∧
        excTaken 15 (s.core i).pc (s.core i) (t.core i) ∧
        coreOnly i s t)

/-- PUSH and POP move a word between a register and the data stack; NOP, and FENCE with an empty store buffer, only go on; SIG puts
its token behind those in the core's SIG port; DONE of a general item at level 0 on a core asked to drain frees the item's entry,
cuts the data stack to its start mark and leaves the core DRAINED; ICINV in supervisor mode empties the I-cache. An I-cache hit
with a parity error is counted and recorded, and the instruction executes from the line fetched anew. Nothing else changes. The
model's own choices that clauses rest on: log 14, 45, 94 and 114. Each clause answers a next state by its conditions on the state
and the operands alone: so PUSH, POP, NOP, FENCE, SIG, DONE and ICINV complete. -/
def Obligations.StackTokensAndItems : Prop :=
  (∀ (i : Fin 40) (a : Fin 16) (s : State), atInstr i (.push a) s → (s.core i).dstack.length < 16 → 
      ∃ t, Sys2Proof.Machine.exec (.push i a) s = .next t ∧
        (t.core i) = { (s.core i) with dstack := (s.core i).reg a :: (s.core i).dstack, pc := (s.core i).pc + 4, icache := (t.core i).icache, cyc := (t.core i).cyc } ∧
        coreOnly i s t) ∧
  (∀ (i : Fin 40) (d : Fin 16) (v : Word) (l : List Word) (s : State), atInstr i (.pop d) s → (s.core i).dstack = v :: l → 
      ∃ t, Sys2Proof.Machine.exec (.pop i d) s = .next t ∧
        wrote d v { (s.core i) with dstack := l } (t.core i) ∧
        flagged false 0 false false (s.core i) (t.core i) ∧
        coreOnly i s t) ∧
  (∀ (i : Fin 40)  (s : State), atInstr i .nop s → 
      ∃ t, Sys2Proof.Machine.exec (.nop i) s = .next t ∧
        (t.core i) = { (s.core i) with pc := (s.core i).pc + 4, icache := (t.core i).icache, cyc := (t.core i).cyc } ∧
        coreOnly i s t) ∧
  (∀ (i : Fin 40) (w : List Word) (p : Bool) (s : State), atInstr i .nop s → cached s i (s.core i).pc.toNat = some w → SMap.get? s.ecc (lineKey i (s.core i).pc.toNat) = some p → 
      ∃ t, Sys2Proof.Machine.exec (.nop i) s = .next t ∧
        getF t (F.RCH_CORE_ICPCNT_COUNT (i / 8)) = min 65535 (getF s (F.RCH_CORE_ICPCNT_COUNT (i / 8)) + 1) ∧
        hasEvent s t (A.RCH_CORE_EVT (i / 8)) (8 + i % 8) ∧
        (cached t i (s.core i).pc.toNat).isSome = true ∧
        SMap.get? t.ecc (lineKey i (s.core i).pc.toNat) = none ∧
        (t.core i).pc = (s.core i).pc + 4) ∧
  (∀ (i : Fin 40)  (s : State), atInstr i .fence s → (s.core i).sbuf = [] → heldFor s i = false → 
      ∃ t, Sys2Proof.Machine.exec (.fence i) s = .next t ∧
        (t.core i) = { (s.core i) with pc := (s.core i).pc + 4, icache := (t.core i).icache, cyc := (t.core i).cyc } ∧
        coreOnly i s t) ∧
  (∀ (i : Fin 40) (a b : Fin 16) (s : State), atInstr i (.sig a b) s → (s.core i).sbuf = [] → heldFor s i = false → (s.lkp.ports.get i).length < 2 → strayToken s i ((s.core i).reg a) = false → 
      ∃ t, Sys2Proof.Machine.exec (.sig i a b) s = .next t ∧
        (t.core i) = { (s.core i) with pc := (s.core i).pc + 4, icache := (t.core i).icache, cyc := (t.core i).cyc } ∧
        t.lkp.ports.get i = s.lkp.ports.get i ++ [((s.core i).reg a, (s.core i).reg b, roleOf s (i / 8))] ∧
        (∀ j : Fin 40, j ≠ i → t.lkp.ports.get j = s.lkp.ports.get j) ∧
        t = { fetched i s with cores := t.cores, lkp := { (fetched i s).lkp with ports := t.lkp.ports }, pending := t.pending, sn := t.sn }) ∧
  (∀ (i : Fin 40) (r : Running) (e : Entry) (s : State), atInstr i .done s → (s.core i).sbuf = [] → heldFor s i = false → (s.core i).level = 0 → (s.core i).items.get 0 = some r → r.dmark = 0 → r.segment = none → (s.core i).dsp = (s.core i).dsb → isSet s F.LKP_TRCCTL_EN = false → s.lkp.store = [e] → e.is (r.ident / 2 ^ 27 % 4) false (r.ident % 2 ^ 14) = true → e.counts = Vector.replicate 8 0 → 1 ≤ e.desc.need → (s.core i).drainReq = true → e.desc.need < 256 → 
      ∃ t, Sys2Proof.Machine.exec (.done i) s = .next t ∧
        (t.core i).st = .drained ∧
        (t.core i).items.get (s.core i).level = none ∧
        (t.core i).dstack = [] ∧
        t.lkp.store = []) ∧
  (∀ (i : Fin 40)  (s : State), atInstr i .icinv s → (s.core i).sup = true → 
      ∃ t, Sys2Proof.Machine.exec (.icinv i) s = .next t ∧
        (t.core i) = { (s.core i) with pc := (s.core i).pc + 4, icache := [], cyc := (t.core i).cyc } ∧
        coreOnly i s t)

/-- BLD, BAND, BOR, BXOR and their negated forms combine the addressed bit, or its complement, with BACC where the bit string is open,
and begin a string with it where not; the string is then open. Memory, flags, registers and the rest of the device stay. The
model's own choices that clauses rest on: log 14. Each clause answers a next state by its conditions on the state and the operands
alone: so BLD, BLDN, BAND, BANDN, BOR, BORN, BXOR and BXORN complete. -/
def Obligations.BitChecks : Prop :=
  (∀ (i : Fin 40) (b : Fin 16) (disp : BitVec 13) (k : Fin 8) (off : Nat) (s : State), atInstr i (.bitm .bld b disp k) s → ownClear (fetched i s) i (effAddr (s.core i) b (disp.signExtend 32)) 1 false off → 
      ∃ t, Sys2Proof.Machine.exec (.bld i b disp k) s = .next t ∧
        (t.core i) = { (s.core i) with bacc := ((bitAt (byteAt s (reachAddr (i / 8) off)).toNat k.val)), bopen := true, pc := (s.core i).pc + 4, icache := (t.core i).icache, cyc := (t.core i).cyc } ∧
        coreOnly i s t) ∧
  (∀ (i : Fin 40) (b : Fin 16) (disp : BitVec 13) (k : Fin 8) (off : Nat) (s : State), atInstr i (.bitm .bldn b disp k) s → ownClear (fetched i s) i (effAddr (s.core i) b (disp.signExtend 32)) 1 false off → 
      ∃ t, Sys2Proof.Machine.exec (.bldn i b disp k) s = .next t ∧
        (t.core i) = { (s.core i) with bacc := (!(bitAt (byteAt s (reachAddr (i / 8) off)).toNat k.val)), bopen := true, pc := (s.core i).pc + 4, icache := (t.core i).icache, cyc := (t.core i).cyc } ∧
        coreOnly i s t) ∧
  (∀ (i : Fin 40) (b : Fin 16) (disp : BitVec 13) (k : Fin 8) (off : Nat) (s : State), atInstr i (.bitm .band b disp k) s → ownClear (fetched i s) i (effAddr (s.core i) b (disp.signExtend 32)) 1 false off → 
      ∃ t, Sys2Proof.Machine.exec (.band i b disp k) s = .next t ∧
        ((t.core i) = { (s.core i) with bacc := (if (s.core i).bopen then (s.core i).bacc && (bitAt (byteAt s (reachAddr (i / 8) off)).toNat k.val) else (bitAt (byteAt s (reachAddr (i / 8) off)).toNat k.val)), bopen := true, pc := (s.core i).pc + 4, icache := (t.core i).icache, cyc := (t.core i).cyc }) ∧
        coreOnly i s t) ∧
  (∀ (i : Fin 40) (b : Fin 16) (disp : BitVec 13) (k : Fin 8) (off : Nat) (s : State), atInstr i (.bitm .bandn b disp k) s → ownClear (fetched i s) i (effAddr (s.core i) b (disp.signExtend 32)) 1 false off → 
      ∃ t, Sys2Proof.Machine.exec (.bandn i b disp k) s = .next t ∧
        ((t.core i) = { (s.core i) with bacc := (if (s.core i).bopen then (s.core i).bacc && !(bitAt (byteAt s (reachAddr (i / 8) off)).toNat k.val) else !(bitAt (byteAt s (reachAddr (i / 8) off)).toNat k.val)), bopen := true, pc := (s.core i).pc + 4, icache := (t.core i).icache, cyc := (t.core i).cyc }) ∧
        coreOnly i s t) ∧
  (∀ (i : Fin 40) (b : Fin 16) (disp : BitVec 13) (k : Fin 8) (off : Nat) (s : State), atInstr i (.bitm .bor b disp k) s → ownClear (fetched i s) i (effAddr (s.core i) b (disp.signExtend 32)) 1 false off → 
      ∃ t, Sys2Proof.Machine.exec (.bor i b disp k) s = .next t ∧
        ((t.core i) = { (s.core i) with bacc := (if (s.core i).bopen then (s.core i).bacc || (bitAt (byteAt s (reachAddr (i / 8) off)).toNat k.val) else (bitAt (byteAt s (reachAddr (i / 8) off)).toNat k.val)), bopen := true, pc := (s.core i).pc + 4, icache := (t.core i).icache, cyc := (t.core i).cyc }) ∧
        coreOnly i s t) ∧
  (∀ (i : Fin 40) (b : Fin 16) (disp : BitVec 13) (k : Fin 8) (off : Nat) (s : State), atInstr i (.bitm .born b disp k) s → ownClear (fetched i s) i (effAddr (s.core i) b (disp.signExtend 32)) 1 false off → 
      ∃ t, Sys2Proof.Machine.exec (.born i b disp k) s = .next t ∧
        ((t.core i) = { (s.core i) with bacc := (if (s.core i).bopen then (s.core i).bacc || !(bitAt (byteAt s (reachAddr (i / 8) off)).toNat k.val) else !(bitAt (byteAt s (reachAddr (i / 8) off)).toNat k.val)), bopen := true, pc := (s.core i).pc + 4, icache := (t.core i).icache, cyc := (t.core i).cyc }) ∧
        coreOnly i s t) ∧
  (∀ (i : Fin 40) (b : Fin 16) (disp : BitVec 13) (k : Fin 8) (off : Nat) (s : State), atInstr i (.bitm .bxor b disp k) s → ownClear (fetched i s) i (effAddr (s.core i) b (disp.signExtend 32)) 1 false off → 
      ∃ t, Sys2Proof.Machine.exec (.bxor i b disp k) s = .next t ∧
        ((t.core i) = { (s.core i) with bacc := (if (s.core i).bopen then (s.core i).bacc != (bitAt (byteAt s (reachAddr (i / 8) off)).toNat k.val) else (bitAt (byteAt s (reachAddr (i / 8) off)).toNat k.val)), bopen := true, pc := (s.core i).pc + 4, icache := (t.core i).icache, cyc := (t.core i).cyc }) ∧
        coreOnly i s t) ∧
  (∀ (i : Fin 40) (b : Fin 16) (disp : BitVec 13) (k : Fin 8) (off : Nat) (s : State), atInstr i (.bitm .bxorn b disp k) s → ownClear (fetched i s) i (effAddr (s.core i) b (disp.signExtend 32)) 1 false off → 
      ∃ t, Sys2Proof.Machine.exec (.bxorn i b disp k) s = .next t ∧
        ((t.core i) = { (s.core i) with bacc := (if (s.core i).bopen then (s.core i).bacc != !(bitAt (byteAt s (reachAddr (i / 8) off)).toNat k.val) else !(bitAt (byteAt s (reachAddr (i / 8) off)).toNat k.val)), bopen := true, pc := (s.core i).pc + 4, icache := (t.core i).icache, cyc := (t.core i).cyc }) ∧
        coreOnly i s t)

/-- BST writes BACC to the addressed bit, BSET sets it and BRST clears it where BACC is 1; BPOS and BNEG leave the rising or falling
edge against the stored bit in BACC and store the old BACC. Only the addressed bit of memory changes. BNEST saves BACC and BOPEN
with its operation in the next entry of the nesting stack, and raises BNEST where the stack is full; BUNNEST combines them back;
BNOT complements BACC. The model's own choices that clauses rest on: log 14. Each clause answers a next state by its conditions on
the state and the operands alone: so BST, BSET, BRST, BPOS, BNEG, BNEST_A, BNEST_O, BNEST_X, BUNNEST and BNOT complete. -/
def Obligations.BitWritesAndNesting : Prop :=
  (∀ (i : Fin 40) (b : Fin 16) (disp : BitVec 13) (k : Fin 8) (off : Nat) (s : State), atInstr i (.bitm .bst b disp k) s → ownClear (fetched i s) i (effAddr (s.core i) b (disp.signExtend 32)) 1 true off → 
      ∃ t, Sys2Proof.Machine.exec (.bst i b disp k) s = .next t ∧
        (t.core i) = { (s.core i) with bacc := ((s.core i).bacc), bopen := false, pc := (s.core i).pc + 4, icache := (t.core i).icache, cyc := (t.core i).cyc } ∧
        (∀ j : Fin 8, bitAt (byteAt t (reachAddr (i / 8) off)).toNat j.val = if j = k then ((s.core i).bacc) else bitAt (byteAt s (reachAddr (i / 8) off)).toNat j.val) ∧
        sameBytes (reachAddr (i / 8) off) 1 (fetched i s) t ∧
        sameRegs [] (fetched i s) t) ∧
  (∀ (i : Fin 40) (b : Fin 16) (disp : BitVec 13) (k : Fin 8) (off : Nat) (s : State), atInstr i (.bitm .bset b disp k) s → ownClear (fetched i s) i (effAddr (s.core i) b (disp.signExtend 32)) 1 true off → 
      ∃ t, Sys2Proof.Machine.exec (.bset i b disp k) s = .next t ∧
        (t.core i) = { (s.core i) with bacc := ((s.core i).bacc), bopen := false, pc := (s.core i).pc + 4, icache := (t.core i).icache, cyc := (t.core i).cyc } ∧
        (∀ j : Fin 8, bitAt (byteAt t (reachAddr (i / 8) off)).toNat j.val = if j = k then ((s.core i).bacc || (bitAt (byteAt s (reachAddr (i / 8) off)).toNat k.val)) else bitAt (byteAt s (reachAddr (i / 8) off)).toNat j.val) ∧
        sameBytes (reachAddr (i / 8) off) 1 (fetched i s) t ∧
        sameRegs [] (fetched i s) t) ∧
  (∀ (i : Fin 40) (b : Fin 16) (disp : BitVec 13) (k : Fin 8) (off : Nat) (s : State), atInstr i (.bitm .brst b disp k) s → ownClear (fetched i s) i (effAddr (s.core i) b (disp.signExtend 32)) 1 true off → 
      ∃ t, Sys2Proof.Machine.exec (.brst i b disp k) s = .next t ∧
        (t.core i) = { (s.core i) with bacc := ((s.core i).bacc), bopen := false, pc := (s.core i).pc + 4, icache := (t.core i).icache, cyc := (t.core i).cyc } ∧
        (∀ j : Fin 8, bitAt (byteAt t (reachAddr (i / 8) off)).toNat j.val = if j = k then (!(s.core i).bacc && (bitAt (byteAt s (reachAddr (i / 8) off)).toNat k.val)) else bitAt (byteAt s (reachAddr (i / 8) off)).toNat j.val) ∧
        sameBytes (reachAddr (i / 8) off) 1 (fetched i s) t ∧
        sameRegs [] (fetched i s) t) ∧
  (∀ (i : Fin 40) (b : Fin 16) (disp : BitVec 13) (k : Fin 8) (off : Nat) (s : State), atInstr i (.bitm .bpos b disp k) s → ownClear (fetched i s) i (effAddr (s.core i) b (disp.signExtend 32)) 1 true off → 
      ∃ t, Sys2Proof.Machine.exec (.bpos i b disp k) s = .next t ∧
        (t.core i) = { (s.core i) with bacc := ((s.core i).bacc && !(bitAt (byteAt s (reachAddr (i / 8) off)).toNat k.val)), bopen := true, pc := (s.core i).pc + 4, icache := (t.core i).icache, cyc := (t.core i).cyc } ∧
        (∀ j : Fin 8, bitAt (byteAt t (reachAddr (i / 8) off)).toNat j.val = if j = k then ((s.core i).bacc) else bitAt (byteAt s (reachAddr (i / 8) off)).toNat j.val) ∧
        sameBytes (reachAddr (i / 8) off) 1 (fetched i s) t ∧
        sameRegs [] (fetched i s) t) ∧
  (∀ (i : Fin 40) (b : Fin 16) (disp : BitVec 13) (k : Fin 8) (off : Nat) (s : State), atInstr i (.bitm .bneg b disp k) s → ownClear (fetched i s) i (effAddr (s.core i) b (disp.signExtend 32)) 1 true off → 
      ∃ t, Sys2Proof.Machine.exec (.bneg i b disp k) s = .next t ∧
        (t.core i) = { (s.core i) with bacc := (!(s.core i).bacc && (bitAt (byteAt s (reachAddr (i / 8) off)).toNat k.val)), bopen := true, pc := (s.core i).pc + 4, icache := (t.core i).icache, cyc := (t.core i).cyc } ∧
        (∀ j : Fin 8, bitAt (byteAt t (reachAddr (i / 8) off)).toNat j.val = if j = k then ((s.core i).bacc) else bitAt (byteAt s (reachAddr (i / 8) off)).toNat j.val) ∧
        sameBytes (reachAddr (i / 8) off) 1 (fetched i s) t ∧
        sameRegs [] (fetched i s) t) ∧
  (∀ (i : Fin 40)  (s : State), atInstr i (.bnest .and) s → (s.core i).bnd < 8 → 
      ∃ t, Sys2Proof.Machine.exec (.bnestA i) s = .next t ∧
        (t.core i) = { (s.core i) with bstk := w32 (putBits (s.core i).bstk.toNat (4 * (s.core i).bnd) 4 (8 * bit (s.core i).bacc + 4 * bit (s.core i).bopen + 1)), bacc := (s.core i).bacc, bopen := false, pc := (s.core i).pc + 4, icache := (t.core i).icache, cyc := (t.core i).cyc } ∧
        coreOnly i s t) ∧
  (∀ (i : Fin 40)  (s : State), atInstr i (.bnest .or) s → (s.core i).bnd < 8 → 
      ∃ t, Sys2Proof.Machine.exec (.bnestO i) s = .next t ∧
        (t.core i) = { (s.core i) with bstk := w32 (putBits (s.core i).bstk.toNat (4 * (s.core i).bnd) 4 (8 * bit (s.core i).bacc + 4 * bit (s.core i).bopen + 2)), bacc := (s.core i).bacc, bopen := false, pc := (s.core i).pc + 4, icache := (t.core i).icache, cyc := (t.core i).cyc } ∧
        coreOnly i s t) ∧
  (∀ (i : Fin 40)  (s : State), atInstr i (.bnest .xor) s → (s.core i).bnd < 8 → 
      ∃ t, Sys2Proof.Machine.exec (.bnestX i) s = .next t ∧
        (t.core i) = { (s.core i) with bstk := w32 (putBits (s.core i).bstk.toNat (4 * (s.core i).bnd) 4 (8 * bit (s.core i).bacc + 4 * bit (s.core i).bopen + 3)), bacc := (s.core i).bacc, bopen := false, pc := (s.core i).pc + 4, icache := (t.core i).icache, cyc := (t.core i).cyc } ∧
        coreOnly i s t) ∧
  (∀ (i : Fin 40)  (s : State), atInstr i (.bnest .and) s → (s.core i).bnd = 8 → (s.core i).rstack.length ≤ 28 → 
      ∃ t, Sys2Proof.Machine.exec (.bnestA i) s = .next t ∧
        excTaken 16 (s.core i).pc (s.core i) (t.core i) ∧
        coreOnly i s t) ∧
  (∀ (i : Fin 40)  (s : State), atInstr i .bunnest s → (s.core i).bnd ≠ 0 → 
      ∃ t, Sys2Proof.Machine.exec (.bunnest i) s = .next t ∧
        ((t.core i) = { (s.core i) with bstk := w32 (putBits (s.core i).bstk.toNat (4 * ((s.core i).bnd - 1)) 4 0), bacc := (if bitAt (bitsOf (s.core i).bstk.toNat (4 * ((s.core i).bnd - 1)) 4) 2 then (match (bitsOf (s.core i).bstk.toNat (4 * ((s.core i).bnd - 1)) 4) % 4 with | 1 => bitAt (bitsOf (s.core i).bstk.toNat (4 * ((s.core i).bnd - 1)) 4) 3 && (s.core i).bacc | 2 => bitAt (bitsOf (s.core i).bstk.toNat (4 * ((s.core i).bnd - 1)) 4) 3 || (s.core i).bacc | _ => bitAt (bitsOf (s.core i).bstk.toNat (4 * ((s.core i).bnd - 1)) 4) 3 != (s.core i).bacc) else (s.core i).bacc), bopen := true, pc := (s.core i).pc + 4, icache := (t.core i).icache, cyc := (t.core i).cyc }) ∧
        coreOnly i s t) ∧
  (∀ (i : Fin 40)  (s : State), atInstr i .bnot s → 
      ∃ t, Sys2Proof.Machine.exec (.bnot i) s = .next t ∧
        (t.core i) = { (s.core i) with bstk := (s.core i).bstk, bacc := !(s.core i).bacc, bopen := (s.core i).bopen, pc := (s.core i).pc + 4, icache := (t.core i).icache, cyc := (t.core i).cyc } ∧
        coreOnly i s t)

/-- TRAP and BREAK save PC + 4, an undefined encoding and a privileged instruction in user mode save their own PC; each pushes the
exception frame on the return stack, records its cause, enters supervisor mode without interrupts and goes to VBASE + 16 × cause.
RFE in supervisor mode on a frame of its level restores PC, STAT and BSTK from it and pops it. Nothing else of the core or the
device changes. The model's own choices that clauses rest on: log 14, 112 and 148. Each clause answers a next state by its
conditions on the state and the operands alone: so TRAP, BREAK, RFE, ICINV and UNDEFINED_ENCODING complete. -/
def Obligations.ExceptionsAndReturn : Prop :=
  (∀ (i : Fin 40) (n : BitVec 8) (s : State), atInstr i (.trap n) s → (s.core i).rstack.length ≤ 28 → 
      ∃ t, Sys2Proof.Machine.exec (.trap i n) s = .next t ∧
        excTaken 5 ((s.core i).pc + 4) (s.core i) (t.core i) ∧
        (t.core i).eaddr = w32 n.toNat ∧
        coreOnly i s t) ∧
  (∀ (i : Fin 40)  (s : State), atInstr i .brk s → (s.core i).rstack.length ≤ 28 → 
      ∃ t, Sys2Proof.Machine.exec (.breakI i) s = .next t ∧
        excTaken 6 ((s.core i).pc + 4) (s.core i) (t.core i) ∧
        coreOnly i s t) ∧
  (∀ (i : Fin 40) (m pc st bs : Word) (l : List Word) (s : State), atInstr i .rfe s → (s.core i).sup = true → (s.core i).rstack = m :: pc :: st :: bs :: l → m = marker 1 (s.core i).level.val → 
      ∃ t, Sys2Proof.Machine.exec (.rfe i) s = .next t ∧
        (t.core i).pc = pc &&& 0xFFFFFFFC#32 ∧
        (t.core i).rstack = l ∧
        (t.core i).ie = st.getLsbD 1 ∧
        (t.core i).sup = st.getLsbD 0 ∧
        (t.core i).n = st.getLsbD 31 ∧
        (t.core i).z = st.getLsbD 30 ∧
        (t.core i).c = st.getLsbD 29 ∧
        (t.core i).v = st.getLsbD 28 ∧
        (t.core i).bacc = st.getLsbD 23 ∧
        (t.core i).bopen = st.getLsbD 22 ∧
        (t.core i).bstk = cleanBstk bs ∧
        (t.core i).ovf = false ∧
        (t.core i).w = (s.core i).w ∧
        (t.core i).dstack = (s.core i).dstack ∧
        coreOnly i s t) ∧
  (∀ (i : Fin 40)  (s : State), atInstr i .rfe s → (s.core i).sup = false → (s.core i).rstack.length ≤ 28 → 
      ∃ t, Sys2Proof.Machine.exec (.rfe i) s = .next t ∧
        excTaken 4 (s.core i).pc (s.core i) (t.core i) ∧
        coreOnly i s t) ∧
  (∀ (i : Fin 40)  (s : State), atInstr i .icinv s → (s.core i).sup = false → (s.core i).rstack.length ≤ 28 → 
      ∃ t, Sys2Proof.Machine.exec (.icinv i) s = .next t ∧
        excTaken 4 (s.core i).pc (s.core i) (t.core i) ∧
        coreOnly i s t) ∧
  (∀ (i : Fin 40) (w : Word) (s : State), live s = true → calm s (fetched i s) = true → (s.core i).st = .run → (s.core i).haltReq = false → (s.core i).pendW = [] → waitsRead s i = false → (fetch i (quiet s)).2.toOption = some w → decodeW w = none → (s.core i).rstack.length ≤ 28 → 
      ∃ t, Sys2Proof.Machine.exec (.undefinedEncoding i) s = .next t ∧
        excTaken 3 (s.core i).pc (s.core i) (t.core i) ∧
        coreOnly i s t)

/-- MFC writes the named control register's value to its destination, MTC in supervisor mode writes the register's value to the
control register with the bits it holds; a number that names none raises ILLEGAL, and a register that user mode may not name
raises PRIVOP there. Nothing else changes. The model's own choices that clauses rest on: log 14, 44 and 144. Each clause answers a
next state by its conditions on the state and the operands alone: so MFC and MTC complete. -/
def Obligations.ControlRegisters : Prop :=
  (∀ (i : Fin 40) (d : Fin 16) (c : BitVec 8) (s : State), atInstr i (.mfc d c) s → ((s.core i).sup = true ∨ userMay c.toNat = true) → (c.toNat < 16 ∧ c.toNat ≠ 1 ∧ c.toNat ≠ 2 ∧ c.toNat ≠ 14) → 
      ∃ t, Sys2Proof.Machine.exec (.mfc i d c) s = .next t ∧
        wrote d ([(s.core i).stat, 0, 0, (s.core i).ecause, (s.core i).eaddr, (s.core i).bstk, (s.core i).dsp, (s.core i).dsb, (s.core i).dsl, (s.core i).rsp, (s.core i).rsb, (s.core i).rsl, (s.core i).vbase, (s.core i).item, 0, (s.core i).sscr].getD c.toNat 0) (s.core i) (t.core i) ∧
        flagged false 0 false false (s.core i) (t.core i) ∧
        coreOnly i s t) ∧
  (∀ (i : Fin 40) (d : Fin 16) (c : BitVec 8) (s : State), atInstr i (.mfc d c) s → 16 ≤ c.toNat → (s.core i).rstack.length ≤ 28 → 
      ∃ t, Sys2Proof.Machine.exec (.mfc i d c) s = .next t ∧
        excTaken 3 (s.core i).pc (s.core i) (t.core i) ∧
        coreOnly i s t) ∧
  (∀ (i : Fin 40) (d : Fin 16) (c : BitVec 8) (s : State), atInstr i (.mfc d c) s → c.toNat < 16 → (s.core i).sup = false → userMay c.toNat = false → (s.core i).rstack.length ≤ 28 → 
      ∃ t, Sys2Proof.Machine.exec (.mfc i d c) s = .next t ∧
        excTaken 4 (s.core i).pc (s.core i) (t.core i) ∧
        coreOnly i s t) ∧
  (∀ (i : Fin 40) (c : BitVec 8) (a : Fin 16) (s : State), atInstr i (.mtc c a) s → (s.core i).sup = true → c = 0#8 → 
      ∃ t, Sys2Proof.Machine.exec (.mtc i c a) s = .next t ∧
        (t.core i) = { (s.core i) with n := ((s.core i).reg a).getLsbD 31, z := ((s.core i).reg a).getLsbD 30, c := ((s.core i).reg a).getLsbD 29, v := ((s.core i).reg a).getLsbD 28, bacc := ((s.core i).reg a).getLsbD 23, bopen := ((s.core i).reg a).getLsbD 22, ie := ((s.core i).reg a).getLsbD 1, sup := ((s.core i).reg a).getLsbD 0, pc := (s.core i).pc + 4, icache := (t.core i).icache, cyc := (t.core i).cyc } ∧
        coreOnly i s t) ∧
  (∀ (i : Fin 40) (c : BitVec 8) (a : Fin 16) (s : State), atInstr i (.mtc c a) s → (s.core i).sup = true → c = 5#8 → cleanBstk ((s.core i).reg a) = (s.core i).reg a → 
      ∃ t, Sys2Proof.Machine.exec (.mtc i c a) s = .next t ∧
        (t.core i) = { (s.core i) with bstk := (s.core i).reg a, pc := (s.core i).pc + 4, icache := (t.core i).icache, cyc := (t.core i).cyc } ∧
        coreOnly i s t) ∧
  (∀ (i : Fin 40) (c : BitVec 8) (a : Fin 16) (s : State), atInstr i (.mtc c a) s → (s.core i).sup = true → c = 6#8 → (s.core i).dstack = [] → ((s.core i).reg a).toNat ≤ 0xFFFFF → 
      ∃ t, Sys2Proof.Machine.exec (.mtc i c a) s = .next t ∧
        (t.core i) = { (s.core i) with dsp := (s.core i).reg a &&& 0xFFFFFFFC#32, pc := (s.core i).pc + 4, icache := (t.core i).icache, cyc := (t.core i).cyc } ∧
        coreOnly i s t) ∧
  (∀ (i : Fin 40) (c : BitVec 8) (a : Fin 16) (s : State), atInstr i (.mtc c a) s → (s.core i).sup = true → c = 7#8 → ((s.core i).reg a).toNat ≤ 0xFFFFF → 
      ∃ t, Sys2Proof.Machine.exec (.mtc i c a) s = .next t ∧
        (t.core i) = { (s.core i) with dsb := (s.core i).reg a &&& 0xFFFFFFFC#32, pc := (s.core i).pc + 4, icache := (t.core i).icache, cyc := (t.core i).cyc } ∧
        coreOnly i s t) ∧
  (∀ (i : Fin 40) (c : BitVec 8) (a : Fin 16) (s : State), atInstr i (.mtc c a) s → (s.core i).sup = true → c = 8#8 → ((s.core i).reg a).toNat ≤ 0xFFFFF → 
      ∃ t, Sys2Proof.Machine.exec (.mtc i c a) s = .next t ∧
        (t.core i) = { (s.core i) with dsl := (s.core i).reg a &&& 0xFFFFFFFC#32, pc := (s.core i).pc + 4, icache := (t.core i).icache, cyc := (t.core i).cyc } ∧
        coreOnly i s t) ∧
  (∀ (i : Fin 40) (c : BitVec 8) (a : Fin 16) (s : State), atInstr i (.mtc c a) s → (s.core i).sup = true → c = 9#8 → (s.core i).rstack = [] → ((s.core i).reg a).toNat ≤ 0xFFFFF → 
      ∃ t, Sys2Proof.Machine.exec (.mtc i c a) s = .next t ∧
        (t.core i) = { (s.core i) with rsp := (s.core i).reg a &&& 0xFFFFFFFC#32, pc := (s.core i).pc + 4, icache := (t.core i).icache, cyc := (t.core i).cyc } ∧
        coreOnly i s t) ∧
  (∀ (i : Fin 40) (c : BitVec 8) (a : Fin 16) (s : State), atInstr i (.mtc c a) s → (s.core i).sup = true → c = 10#8 → ((s.core i).reg a).toNat ≤ 0xFFFFF → 
      ∃ t, Sys2Proof.Machine.exec (.mtc i c a) s = .next t ∧
        (t.core i) = { (s.core i) with rsb := (s.core i).reg a &&& 0xFFFFFFFC#32, pc := (s.core i).pc + 4, icache := (t.core i).icache, cyc := (t.core i).cyc } ∧
        coreOnly i s t) ∧
  (∀ (i : Fin 40) (c : BitVec 8) (a : Fin 16) (s : State), atInstr i (.mtc c a) s → (s.core i).sup = true → c = 11#8 → ((s.core i).reg a).toNat ≤ 0xFFFFF → 
      ∃ t, Sys2Proof.Machine.exec (.mtc i c a) s = .next t ∧
        (t.core i) = { (s.core i) with rsl := (s.core i).reg a &&& 0xFFFFFFFC#32, pc := (s.core i).pc + 4, icache := (t.core i).icache, cyc := (t.core i).cyc } ∧
        coreOnly i s t) ∧
  (∀ (i : Fin 40) (c : BitVec 8) (a : Fin 16) (s : State), atInstr i (.mtc c a) s → (s.core i).sup = true → c = 12#8 → 
      ∃ t, Sys2Proof.Machine.exec (.mtc i c a) s = .next t ∧
        (t.core i) = { (s.core i) with vbase := (s.core i).reg a &&& 0xFFFFFF00#32, pc := (s.core i).pc + 4, icache := (t.core i).icache, cyc := (t.core i).cyc } ∧
        coreOnly i s t) ∧
  (∀ (i : Fin 40) (c : BitVec 8) (a : Fin 16) (s : State), atInstr i (.mtc c a) s → (s.core i).sup = true → c = 15#8 → 
      ∃ t, Sys2Proof.Machine.exec (.mtc i c a) s = .next t ∧
        (t.core i) = { (s.core i) with sscr := (s.core i).reg a, pc := (s.core i).pc + 4, icache := (t.core i).icache, cyc := (t.core i).cyc } ∧
        coreOnly i s t) ∧
  (∀ (i : Fin 40) (c : BitVec 8) (a : Fin 16) (s : State), atInstr i (.mtc c a) s → c.toNat < 16 → (s.core i).sup = false → userMay c.toNat = false → (s.core i).rstack.length ≤ 28 → 
      ∃ t, Sys2Proof.Machine.exec (.mtc i c a) s = .next t ∧
        excTaken 4 (s.core i).pc (s.core i) (t.core i) ∧
        coreOnly i s t)

/-- An armed compare unit whose target has come disarms in ONESHOT, and in PERIODIC adds PER to CMP; a match that fires for the
Lockkeeper sets the pending bit of the unit. A trigger of a free event task latches it: LATCHT is the time, CYCNO the next cycle,
the task is in SNAP; a trigger of a busy task is held, and one more is lost and counted. A held trigger is accepted when the task
is free. The model's own choices that clauses rest on: log 25 and 61. Each clause answers a next state by its conditions on the
state and the operands alone: so COMPARE_MATCH, EVENT_TRIGGER and HELD_TRIGGER_ACCEPT complete. -/
def Obligations.TriggersAndLatch : Prop :=
  (∀ (u : Fin 32) (s : State), live s = true → calm s s = true → isSet s (F.TMB_UNIT_STAT_ARMED u) = true → unitDue s u = true → unitMode s u = 1 → getF s (F.TMB_UNIT_CTL_OWNER u) = 0 → isSet s (F.TMB_UNIT_CTL_DLKP u) = true → isSet s (F.TMB_UNIT_CTL_DSYNC u) = false → 
      ∃ t, Sys2Proof.Machine.exec (.compareMatch u) s = .next t ∧
        isSet t (F.TMB_UNIT_STAT_ARMED u) = false ∧
        isSet t ⟨A.LKP_PEND 0, u, 1⟩ = true ∧
        sameRegs [A.TMB_UNIT_STAT u, A.LKP_PEND 0] s t ∧
        t = { s with evtLast := t.evtLast, regs := t.regs, sent := t.sent, lkp := { s.lkp with srcVal := t.lkp.srcVal } }) ∧
  (∀ (u : Fin 32) (s : State), live s = true → calm s s = true → isSet s (F.TMB_UNIT_STAT_ARMED u) = true → unitDue s u = true → unitMode s u = 2 → getF s (F.TMB_UNIT_CTL_OWNER u) = 0 → isSet s (F.TMB_UNIT_CTL_DLKP u) = false → isSet s (F.TMB_UNIT_CTL_DSYNC u) = false → at32 s.tmb.skip u = false → 
      ∃ t, Sys2Proof.Machine.exec (.compareMatch u) s = .next t ∧
        rd t (A.TMB_UNIT_CMP u) = rd s (A.TMB_UNIT_CMP u) + rd s (A.TMB_UNIT_PER u) ∧
        isSet t (F.TMB_UNIT_STAT_ARMED u) = true ∧
        at32 t.tmb.sub u = at32 s.tmb.sub u + 1 ∧
        sameRegs [A.TMB_UNIT_CMP u] s t ∧
        t = { s with regs := t.regs, tmb := t.tmb, sent := t.sent }) ∧
  (∀ (src : Fin 1024) (tk : Fin 32) (s : State), live s = true → (pairState s = 0 ∨ pairState s = 2) → (((List.range 16).map (· + 16)).filter (fun u => getF s (F.SCN_TASK_CTL_TRIG u) == src.val) = [tk.val]) → running s = true → enabled s tk = true → canTrigger s tk = true → (s.task tk).held = false → getF s F.SCN_EDITCTL_EDSTAT = 0 → s.scan.edit = none → ((List.range 4).all (fun c => !isSet s (F.FIO_CH_CTL_EN c)) = true) → 
      ∃ t, Sys2Proof.Machine.exec (.eventTrigger src) s = .next t ∧
        taskState t tk = 2 ∧
        latchTime t tk = time s ∧
        (getF t (F.SCN_TASK_CYCNO_CYCNO tk) = (if getF s (F.SCN_TASK_CYCNO_CYCNO tk) = 0xFFFFFFFF then 1 else getF s (F.SCN_TASK_CYCNO_CYCNO tk) + 1)) ∧
        (t.task tk).prevLatch = some (time s) ∧
        (t.task tk).first = false ∧
        sameRegs [A.SCN_TASK_TSTAT tk, A.SCN_TASK_LATCHT tk, A.SCN_TASK_LATCHT tk + 4, A.SCN_TASK_CYCNO tk] s t ∧
        t = { s with regs := t.regs, scan := t.scan, sent := t.sent }) ∧
  (∀ (src : Fin 1024) (tk : Fin 32) (s : State), live s = true → (pairState s = 0 ∨ pairState s = 2) → (((List.range 16).map (· + 16)).filter (fun u => getF s (F.SCN_TASK_CTL_TRIG u) == src.val) = [tk.val]) → running s = true → enabled s tk = true → canTrigger s tk = false → (s.task tk).held = false → taskState s tk ≠ 1 → 
      ∃ t, Sys2Proof.Machine.exec (.eventTrigger src) s = .next t ∧
        (t.task tk).held = true ∧
        t = { s with scan := t.scan, sent := t.sent }) ∧
  (∀ (src : Fin 1024) (tk : Fin 32) (s : State), live s = true → (pairState s = 0 ∨ pairState s = 2) → (((List.range 16).map (· + 16)).filter (fun u => getF s (F.SCN_TASK_CTL_TRIG u) == src.val) = [tk.val]) → running s = true → enabled s tk = true → (s.task tk).held = true → merges s A.SCN_EVT 2 = false → 
      ∃ t, Sys2Proof.Machine.exec (.eventTrigger src) s = .next t ∧
        getF t (F.SCN_TASK_LOST_COUNT tk) = satAdd (F.SCN_TASK_LOST_COUNT tk).w (getF s (F.SCN_TASK_LOST_COUNT tk)) 1 ∧
        hasEvent s t A.SCN_EVT 2 ∧
        sameRegs ([A.SCN_TASK_LOST tk, A.SCN_EVT] ++ pendWords) s t ∧
        t = { s with evtLast := t.evtLast, regs := t.regs, sent := t.sent, lkp := { s.lkp with srcVal := t.lkp.srcVal } }) ∧
  (∀ (tk : Fin 32) (s : State), live s = true → running s = true → pairState s = 0 → (s.task tk).held = true → canTrigger s tk = true → getF s F.SCN_EDITCTL_EDSTAT = 0 → s.scan.edit = none → ((List.range 4).all (fun c => !isSet s (F.FIO_CH_CTL_EN c)) = true) → 
      ∃ t, Sys2Proof.Machine.exec (.heldTriggerAccept tk) s = .next t ∧
        (t.task tk).held = false ∧
        taskState t tk = 2 ∧
        latchTime t tk = time s ∧
        (t.task tk).prevLatch = some (time s) ∧
        sameRegs [A.SCN_TASK_TSTAT tk, A.SCN_TASK_LATCHT tk, A.SCN_TASK_LATCHT tk + 4, A.SCN_TASK_CYCNO tk] s t ∧
        t = { s with regs := t.regs, scan := t.scan, sent := t.sent })

/-- The end of a snapshot copy writes the snapshot into the reach of the task's role, opens the task's cycle there and puts a segment
that needs only its start token into the ready set. A commit whose segments have all executed DONE reads and forces its ranges
into the commit buffer; it waits while another commits. Its end writes the buffer into the output image, queues what was captured
of retentive windows, raises the task's commit source and lets the task wait for its next trigger; every other output byte stays.
A commit past D stops control. A retentive write invalidates the header of its buffer, and ends with a header of the next
generation. After the abort timeout the core that still runs a segment item is reset to its boot address, and no other core is
touched. The model's own choices that clauses rest on: log 9, 50, 110, 120 and 122. Each clause answers a next state by its
conditions on the state and the operands alone: so SNAPSHOT_COPY_END, COMMIT_START, COMMIT_END, COMMIT_DEADLINE,
RETENTIVE_WRITE_START, RETENTIVE_WRITE_END and ABORT_TIMEOUT complete. -/
def Obligations.SnapshotAndCommit : Prop :=
  (∀ (tk : Fin 32) (a : Fin 0x10000) (b : Byte) (s : State), live s = true → calm s s = true → running s = true → taskState s tk = 2 → ((List.range tk).all (fun u => taskState s u != 2) = true) → duplex s tk = false → roleBusy s (getF s (F.SCN_TASK_CTL_ROLE0 tk)) = false → s.ecc = [] → s.rot.fill = none → s.rot.window = none → taskF s tk (F.SCN_TASK_SEG_COUNT tk) = 0 → (s.task tk).snap = [(a.val, b)] → foldCW s (reachOf s (getF s (F.SCN_TASK_CTL_ROLE0 tk))) a.val = a.val → 
      ∃ t, Sys2Proof.Machine.exec (.snapshotCopyEnd tk) s = .next t ∧
        taskState t tk = 3 ∧
        (t.task tk).snap = [] ∧
        byteAt t (reachAddr (reachOf s (getF s (F.SCN_TASK_CTL_ROLE0 tk))) a.val) = b ∧
        t.lkp.opened = s.lkp.opened ++ [{ task := tk.val, role := getF s (F.SCN_TASK_CTL_ROLE0 tk), seen := [] }] ∧
        sameBytes (reachAddr (reachOf s (getF s (F.SCN_TASK_CTL_ROLE0 tk))) a.val) 1 s t ∧
        sameRegs [A.SCN_TASK_TSTAT tk] s t ∧
        t.pair = { s.pair with track := t.pair.track } ∧
        t = { s with regs := t.regs, mem := t.mem, scan := t.scan, lkp := t.lkp, pair := t.pair, sent := t.sent }) ∧
  (∀ (tk : Fin 32) (x : Ready) (s : State), live s = true → calm s s = true → running s = true → taskState s tk = 2 → ((List.range tk).all (fun u => taskState s u != 2) = true) → pairState s = 0 → duplex s tk = false → roleBusy s (getF s (F.SCN_TASK_CTL_ROLE0 tk)) = false → s.ecc = [] → taskF s tk (F.SCN_TASK_SEG_COUNT tk) = 1 → x = ⟨getF s (F.SCN_TASK_CTL_ROLE0 tk), true, taskF s tk (F.SCN_TASK_SEG_FIRST tk), tk.val, 0xFF, segGroup s tk, false, time s, false⟩ → (readMask x.role x.index s).2.toOption = some 1 → (s.task tk).snap = [] → s.lkp.idle = [] → s.lkp.offers = [] → s.lkp.ready = [] → (((List.range 40).all fun i => (s.core i).st != .run) = true) → 
      ∃ t, Sys2Proof.Machine.exec (.snapshotCopyEnd tk) s = .next t ∧
        taskState t tk = 3 ∧
        t.lkp.opened = s.lkp.opened ++ [{ task := tk.val, role := x.role, seen := [] }] ∧
        t.lkp.ready = [x] ∧
        sameBytes 0 0 s t ∧
        sameRegs [A.SCN_TASK_TSTAT tk] s t) ∧
  (∀ (tk : Fin 32) (s : State), live s = true → calm s s = true → running s = true → taskState s tk = 3 → commitInstant s tk ≤ time s → (s.task tk).done0 = taskF s tk (F.SCN_TASK_SEG_COUNT tk) → duplex s tk = false → s.rot.window = none → s.scan.committing = none → s.ecc = [] → (∀ u : Fin 32, u ≠ tk → (s.task u).waiting = false ∧ (commitDue s u = false ∨ commitsBefore s tk u = true)) → 
      ∃ t, Sys2Proof.Machine.exec (.commitStart tk) s = .next t ∧
        taskState t tk = 4 ∧
        t.scan.committing = some tk.val ∧
        ((t.task tk).buffer = (commitRanges s tk).flatMap fun r => (List.range r.len).map fun j => (r.off + j, forced (staged s (getF s (F.SCN_TASK_CTL_ROLE0 tk)) (r.mem + j)) (byteAt s (0x30080000 + (r.off + j))) (byteAt s (0x300A0000 + (r.off + j))))) ∧
        sameRegs [A.SCN_TASK_TSTAT tk, A.SCN_TASK_SLACK tk] s t ∧
        t = { s with regs := t.regs, scan := t.scan, lkp := t.lkp, sent := t.sent }) ∧
  (∀ (tk : Fin 32) (u : Fin 32) (s : State), live s = true → calm s s = true → running s = true → taskState s tk = 3 → commitInstant s tk ≤ time s → (s.task tk).done0 = taskF s tk (F.SCN_TASK_SEG_COUNT tk) → duplex s tk = false → s.rot.window = none → s.scan.committing = some u.val → 
      ∃ t, Sys2Proof.Machine.exec (.commitStart tk) s = .next t ∧
        taskState t tk = 4 ∧
        (t.task tk).waiting = true ∧
        t.scan.committing = some u.val ∧
        sameRegs [A.SCN_TASK_TSTAT tk, A.SCN_TASK_SLACK tk] s t ∧
        t = { s with regs := t.regs, scan := t.scan, lkp := t.lkp, sent := t.sent }) ∧
  (∀ (tk : Fin 32) (o : Fin 0x20000) (b : Byte) (s : State), live s = true → calm s s = true → pairState s = 0 → s.scan.committing = some tk.val → time s ≤ deadline s tk → (s.task tk).buffer = [(o.val, b)] → (s.task tk).capture = [] → (s.task tk).held = false → ((List.range 32).all (fun u => !(s.task u).waiting) = true) → s.rot.step = none → 
      ∃ t, Sys2Proof.Machine.exec (.commitEnd tk) s = .next t ∧
        byteAt t (0x30020000 + o.val) = b ∧
        sameBytes (0x30020000 + o.val) 1 s t ∧
        taskState t tk = 1 ∧
        t.scan.committing = none ∧
        (t.task tk).buffer = [] ∧
        isSet t ⟨A.LKP_PEND (18 + tk.val / 32), tk.val % 32, 1⟩ = true ∧
        sameRegs [A.SCN_TASK_TSTAT tk, A.LKP_PEND (18 + tk.val / 32)] s t ∧
        t = { s with evtLast := t.evtLast, regs := t.regs, mem := t.mem, scan := t.scan, tow := t.tow, sent := t.sent, lkp := { s.lkp with srcVal := t.lkp.srcVal } }) ∧
  (∀ (tk : Fin 32) (o : Fin 0x20000) (s : State), live s = true → calm s s = true → pairState s = 0 → s.scan.committing = some tk.val → time s ≤ deadline s tk → journalRoom (s.task tk).buffer s = true → (s.task tk).held = false → ((List.range 32).all (fun u => !(s.task u).waiting) = true) → s.rot.step = none → 
      ∃ t, Sys2Proof.Machine.exec (.commitEnd tk) s = .next t ∧
        (byteAt t (0x30020000 + o.val) = (((s.task tk).buffer.reverse.find? fun x => x.1 == o.val).map (·.2)).getD (byteAt s (0x30020000 + o.val))) ∧
        taskState t tk = 1 ∧
        t.scan.committing = none ∧
        (t.task tk).buffer = [] ∧
        (t.task tk).capture = [] ∧
        ((s.task tk).capture = [] ∨ t.scan.retQueue = some (mergeCapture (s.scan.retQueue.getD []) (s.task tk).capture)) ∧
        isSet t ⟨A.LKP_PEND (18 + tk.val / 32), tk.val % 32, 1⟩ = true ∧
        t.cores = s.cores ∧
        t.lkp.store = s.lkp.store) ∧
  (∀ (tk : Fin 32) (s : State), live s = true → calm s s = true → running s = true → taskState s tk = 4 → deadline s tk ≤ time s → s.faults.coreStopped = false → 
      ∃ t, Sys2Proof.Machine.exec (.commitDeadline tk) s = .next t ∧
        getF t F.SCN_STATUS_CSTATE = 3 ∧
        getF t F.SCN_STATUS_STOPCAUSE = 9 ∧
        getF t F.SCN_STATUS_STOPTASK = tk.val ∧
        isSet t F.SCN_STATUS_TASKV = true ∧
        taskState t tk = 0 ∧
        t.scan.committing = none ∧
        rd64 t A.SCN_STOPTIME = time s) ∧
  (∀ (b : Fin 2) (o : Fin 64) (s : State), live s = true → s.scan.retRun = none → s.scan.retQueue.isSome = true → s.scan.retTarget = b.val → 
      ∃ t, Sys2Proof.Machine.exec (.retentiveWriteStart) s = .next t ∧
        t.scan.retRun = s.scan.retQueue ∧
        t.scan.retQueue = none ∧
        t.scan.retRunTarget = b.val ∧
        byteAt t (retBase b.val + o.val) = 0 ∧
        sameBytes (retBase b.val) 64 s t ∧
        t = { s with mem := t.mem, scan := t.scan, sent := t.sent }) ∧
  (∀ (b : Fin 2) (s : State), live s = true → calm s s = true → s.scan.retRun = some [] → s.scan.retQueue = none → s.scan.retRunTarget = b.val → s.cfg.standbyDue = false → 
      ∃ t, Sys2Proof.Machine.exec (.retentiveWriteEnd) s = .next t ∧
        bytesAt t (retBase b.val) 64 = retHeader (retGen s (1 - b.val) + 1) ∧
        t.scan.retRun = none ∧
        isSet t F.SCN_STATUS_RETBUSY = false ∧
        sameBytes (retBase b.val) 64 s t ∧
        sameRegs [A.SCN_STATUS] s t ∧
        t = { s with regs := t.regs, mem := t.mem, scan := t.scan, sent := t.sent }) ∧
  (∀ (s : State), live s = true → calm s s = true → s.scan.aborting = true → rd64 s A.SCN_STOPTIME + 1000 * getF s F.SCN_WDCTL_ABORTTMO ≤ time s → ((List.range 40).all (fun i => !(s.core i).running.any (fun (_, r) => r.segment.isSome)) = true) → 
      ∃ t, Sys2Proof.Machine.exec (.abortTimeout) s = .next t ∧
        t.scan = { s.scan with aborting := false } ∧
        t = { s with scan := t.scan, sent := t.sent }) ∧
  (∀ (i : Fin 40) (s : State), live s = true → calm s s = true → s.scan.aborting = true → rd64 s A.SCN_STOPTIME + 1000 * getF s F.SCN_WDCTL_ABORTTMO ≤ time s → ((List.range 40).filter (fun j => (s.core j).running.any fun (_, r) => r.segment.isSome) = [i.val]) → s.brg.reads = [] → 
      ∃ t, Sys2Proof.Machine.exec (.abortTimeout) s = .next t ∧
        t.scan.aborting = false ∧
        t.core i = (s.core i).restart (rd s (A.RCH_CORE_BOOT (i / 8) (i % 8))) ∧
        (∀ j : Fin 40, j ≠ i → t.core j = s.core j) ∧
        t.lkp.idle.contains i.val = false)

/-- SCN_CMD.STOP stops control with cause COMMAND, every task OFF and every output byte at the value of the safe table. WARM and COLD
of stopped control begin a restart. SET and CLR of a byte that no duplex task covers change its mask and value and nothing else;
CLRALL clears every mask bit of its area; a LIST that cannot be read changes nothing but RESULT; a LIST of more than 256 entries
is made one of 256, with CLAMP. OPEN copies the active descriptors into the edit bank, ARM arms an edit that is two cycles ahead
and marks any other LATE, ABORT discards it. A legal period is written as it is. The model's own choices that clauses rest on: log
26, 53, 149, 152 and 153. Each clause answers a next state by its conditions on the state and the operands alone: so SCN_CMD_STOP,
WARM, COLD, FORCE_SET, FORCE_CLR, FORCE_CLRALL, FORCE_LIST, EDIT_OPEN, EDIT_ARM, EDIT_ABORT and TASK_PERIOD_WRITE complete. -/
def Obligations.StopForceAndEdit : Prop :=
  (∀ (who : Who) (tk : Fin 32) (o : Fin 0x20000) (s : State), live s = true → calm s s = true → isPriv s who = true → isStandby s = false → isSet s F.SYS_STATUS_READY = true → running s = true → unguarded s who = true → 
      ∃ t, Sys2Proof.Machine.exec (.scnCmdStop who) s = .next t ∧
        getF t F.SCN_STATUS_CSTATE = 3 ∧
        getF t F.SCN_STATUS_STOPCAUSE = 7 ∧
        isSet t F.SCN_STATUS_TASKV = false ∧
        taskState t tk = 0 ∧
        rd64 t A.SCN_STOPTIME = time s ∧
        (byteAt t (0x30020000 + o.val) = (match (safeTable s).reverse.find? fun e => decide (e.1 ≤ o.val ∧ o.val < e.1 + e.2.1) with | some e => b8 e.2.2 | none => 0))) ∧
  (∀ (who : Who) (s : State), live s = true → calm s s = true → isPriv s who = true → pairState s = 0 → isSet s F.SYS_STATUS_READY = true → getF s F.SCN_STATUS_CSTATE = 3 → (∀ r : Fin 4, reachOf s r < 5) → ((List.range 5).all (fun n => getF s (F.RCH_PWR_PSTATE n) == 0) = true) → unguarded s who = true → 
      ∃ t, Sys2Proof.Machine.exec (.warm who) s = .next t ∧
        getF t F.SCN_STATUS_CSTATE = 1 ∧
        t.scan = { s.scan with restart := some true } ∧
        sameRegs [A.SCN_STATUS, A.SCN_CMD] s t ∧
        t = { s with regs := t.regs, scan := t.scan, sent := t.sent }) ∧
  (∀ (who : Who) (s : State), live s = true → calm s s = true → isPriv s who = true → pairState s = 0 → isSet s F.SYS_STATUS_READY = true → getF s F.SCN_STATUS_CSTATE = 3 → (∀ r : Fin 4, reachOf s r < 5) → ((List.range 5).all (fun n => getF s (F.RCH_PWR_PSTATE n) == 0) = true) → unguarded s who = true → 
      ∃ t, Sys2Proof.Machine.exec (.cold who) s = .next t ∧
        getF t F.SCN_STATUS_CSTATE = 1 ∧
        t.scan = { s.scan with restart := some false } ∧
        sameRegs [A.SCN_STATUS, A.SCN_CMD] s t ∧
        t = { s with regs := t.regs, scan := t.scan, sent := t.sent }) ∧
  (∀ (who : Who) (area : Fin 2) (off : Fin 0x20000) (s : State), live s = true → calm s s = true → isPriv s who = true → isStandby s = false → ((List.range 32).all (fun tk => !enabled s tk) = true) → area.val = 0 → unguarded s who = true → 
      ∃ t, Sys2Proof.Machine.exec (.forceSet who area off) s = .next t ∧
        byteAt t (0x30040000 + off.val) = byteAt s (0x30040000 + off.val) ||| b8 (getF s F.SCN_FORCEARG_MASK) ∧
        byteAt t (0x30060000 + off.val) = forced (byteAt s (0x30060000 + off.val)) (b8 (getF s F.SCN_FORCEARG_MASK)) (b8 (getF s F.SCN_FORCEARG_VALUE)) ∧
        getF t F.SCN_FORCECMD_RESULT = 0 ∧
        sameBytesBut [0x30040000 + off.val, 0x30060000 + off.val] s t ∧
        sameRegs ([A.SCN_FORCECMD, A.SCN_FORCEIN, A.SCN_FORCEOUT, A.SCN_STATUS, A.SCN_EVT] ++ pendWords) s t ∧
        t = { s with evtLast := t.evtLast, regs := t.regs, mem := t.mem, sent := t.sent, lkp := { s.lkp with srcVal := t.lkp.srcVal } }) ∧
  (∀ (who : Who) (area : Fin 2) (off : Fin 0x20000) (s : State), live s = true → calm s s = true → isPriv s who = true → isStandby s = false → ((List.range 32).all (fun tk => !enabled s tk) = true) → area.val = 1 → unguarded s who = true → 
      ∃ t, Sys2Proof.Machine.exec (.forceSet who area off) s = .next t ∧
        byteAt t (0x30080000 + off.val) = byteAt s (0x30080000 + off.val) ||| b8 (getF s F.SCN_FORCEARG_MASK) ∧
        byteAt t (0x300A0000 + off.val) = forced (byteAt s (0x300A0000 + off.val)) (b8 (getF s F.SCN_FORCEARG_MASK)) (b8 (getF s F.SCN_FORCEARG_VALUE)) ∧
        byteAt t (0x30020000 + off.val) = forced (byteAt s (0x30020000 + off.val)) (byteAt t (0x30080000 + off.val)) (byteAt t (0x300A0000 + off.val)) ∧
        getF t F.SCN_FORCECMD_RESULT = 0 ∧
        sameBytesBut [0x30080000 + off.val, 0x300A0000 + off.val, 0x30020000 + off.val] s t ∧
        sameRegs ([A.SCN_FORCECMD, A.SCN_FORCEIN, A.SCN_FORCEOUT, A.SCN_STATUS, A.SCN_EVT] ++ pendWords) s t ∧
        t = { s with evtLast := t.evtLast, regs := t.regs, mem := t.mem, scan := t.scan, tow := t.tow, sent := t.sent, lkp := { s.lkp with srcVal := t.lkp.srcVal } }) ∧
  (∀ (who : Who) (area : Fin 2) (off : Fin 0x20000) (s : State), live s = true → calm s s = true → isPriv s who = true → isStandby s = false → unguarded s who = true → 
      ∃ t, Sys2Proof.Machine.exec (.forceClr who area off) s = .next t ∧
        byteAt t (forceMaskAt area.val + off.val) = byteAt s (forceMaskAt area.val + off.val) &&& ~~~(b8 (getF s F.SCN_FORCEARG_MASK)) ∧
        getF t F.SCN_FORCECMD_RESULT = 0 ∧
        sameBytes (forceMaskAt area.val + off.val) 1 s t ∧
        sameRegs ([A.SCN_FORCECMD, A.SCN_FORCEIN, A.SCN_FORCEOUT, A.SCN_STATUS, A.SCN_EVT] ++ pendWords) s t ∧
        t = { s with evtLast := t.evtLast, regs := t.regs, mem := t.mem, sent := t.sent, lkp := { s.lkp with srcVal := t.lkp.srcVal } }) ∧
  (∀ (who : Who) (area : Fin 2) (off : Fin 0x20000) (s : State), live s = true → calm s s = true → isPriv s who = true → isStandby s = false → unguarded s who = true → 
      ∃ t, Sys2Proof.Machine.exec (.forceClrall who area) s = .next t ∧
        byteAt t (forceMaskAt area.val + off.val) = 0 ∧
        getF t F.SCN_FORCECMD_RESULT = 0 ∧
        sameBytes (forceMaskAt area.val) 0x20000 s t ∧
        sameRegs ([A.SCN_FORCECMD, A.SCN_FORCEIN, A.SCN_FORCEOUT, A.SCN_STATUS, A.SCN_EVT] ++ pendWords) s t ∧
        t = { s with evtLast := t.evtLast, regs := t.regs, mem := t.mem, sent := t.sent, lkp := { s.lkp with srcVal := t.lkp.srcVal } }) ∧
  (∀ (who : Who) (n : Fin 0x20000) (s : State), live s = true → calm s s = true → isPriv s who = true → isStandby s = false → n.val = 1 → s.ecc = [] → 0x41450000 ≤ 8 * getF s F.SCN_FORCELIST_ADDR → target s 49 (8 * getF s F.SCN_FORCELIST_ADDR) = .mram (8 * getF s F.SCN_FORCELIST_ADDR - 0x40000000) → bitAt (memNat s (8 * getF s F.SCN_FORCELIST_ADDR) 4) 30 = true → bitAt (memNat s (8 * getF s F.SCN_FORCELIST_ADDR) 4) 31 = false → unguarded s who = true → 
      ∃ t, Sys2Proof.Machine.exec (.forceList who n) s = .next t ∧
        byteAt t (0x30040000 + memNat s (8 * getF s F.SCN_FORCELIST_ADDR) 4 % 2 ^ 17) = byteAt s (0x30040000 + memNat s (8 * getF s F.SCN_FORCELIST_ADDR) 4 % 2 ^ 17) &&& ~~~(b8 (memNat s (8 * getF s F.SCN_FORCELIST_ADDR + 4) 4 / 256)) ∧
        getF t F.SCN_FORCECMD_RESULT = 0 ∧
        sameBytes (0x30040000 + memNat s (8 * getF s F.SCN_FORCELIST_ADDR) 4 % 2 ^ 17) 1 s t ∧
        t = { s with evtLast := t.evtLast, regs := t.regs, mem := t.mem, sent := t.sent, lkp := { s.lkp with srcVal := t.lkp.srcVal } }) ∧
  (∀ (who : Who) (n : Fin 0x20000) (s : State), live s = true → calm s s = true → isPriv s who = true → isStandby s = false → 1 ≤ n.val → n.val ≤ 256 → 8 * getF s F.SCN_FORCELIST_ADDR < 0x40000000 → 0x20000000 ≤ 8 * getF s F.SCN_FORCELIST_ADDR → unguarded s who = true → 
      ∃ t, Sys2Proof.Machine.exec (.forceList who n) s = .next t ∧
        getF t F.SCN_FORCECMD_RESULT = 2 ∧
        sameRegs [A.SCN_FORCECMD] s t ∧
        t = { s with regs := t.regs, sent := t.sent }) ∧
  (∀ (who : Who) (n : Fin 0x20000) (s : State), live s = true → calm s s = true → isPriv s who = true → isStandby s = false → 256 < n.val → 8 * getF s F.SCN_FORCELIST_ADDR < 0x40000000 → 0x20000000 ≤ 8 * getF s F.SCN_FORCELIST_ADDR → merges s A.SYS_EVT 1 = false → unguarded s who = true → 
      ∃ t, Sys2Proof.Machine.exec (.forceList who n) s = .next t ∧
        getF t F.SCN_FORCECMD_OFFSET = 256 ∧
        getF t F.SCN_FORCECMD_RESULT = 2 ∧
        hasEvent s t A.SYS_EVT 1) ∧
  (∀ (who : Who) (tk : Fin 32) (s : State), live s = true → isPriv s who = true → getF s F.SCN_EDITCTL_EDSTAT = 0 → unguarded s who = true → 
      ∃ t, Sys2Proof.Machine.exec (.editOpen who tk) s = .next t ∧
        getF t F.SCN_EDITCTL_EDSTAT = 1 ∧
        getF t F.SCN_STATUS_EDSTAT = 1 ∧
        getF t F.SCN_EDITCTL_TASK = tk.val ∧
        (t.scan = { s.scan with edit := some (s.regs.filter fun (a, _) => isDescriptor a), editLive := false }) ∧
        sameRegs [A.SCN_EDITCTL, A.SCN_STATUS] s t ∧
        t = { s with regs := t.regs, scan := t.scan, sent := t.sent }) ∧
  (∀ (who : Who) (tk : Fin 32) (s : State), live s = true → isPriv s who = true → getF s F.SCN_EDITCTL_EDSTAT = 1 → getF s (F.SCN_TASK_CYCNO_CYCNO tk) + 2 ≤ (rd s A.SCN_EDITCYC).toNat → unguarded s who = true → 
      ∃ t, Sys2Proof.Machine.exec (.editArm who tk) s = .next t ∧
        getF t F.SCN_EDITCTL_EDSTAT = 2 ∧
        getF t F.SCN_STATUS_EDSTAT = 2 ∧
        getF t F.SCN_EDITCTL_TASK = tk.val ∧
        sameRegs [A.SCN_EDITCTL, A.SCN_STATUS] s t ∧
        t = { s with regs := t.regs, sent := t.sent }) ∧
  (∀ (who : Who) (tk : Fin 32) (s : State), live s = true → isPriv s who = true → getF s F.SCN_EDITCTL_EDSTAT = 1 → (rd s A.SCN_EDITCYC).toNat < getF s (F.SCN_TASK_CYCNO_CYCNO tk) + 2 → merges s A.SCN_EVT 4 = false → unguarded s who = true → 
      ∃ t, Sys2Proof.Machine.exec (.editArm who tk) s = .next t ∧
        getF t F.SCN_EDITCTL_EDSTAT = 3 ∧
        hasEvent s t A.SCN_EVT 4 ∧
        sameRegs ([A.SCN_EDITCTL, A.SCN_STATUS, A.SCN_EVT] ++ pendWords) s t ∧
        t = { s with evtLast := t.evtLast, regs := t.regs, sent := t.sent, lkp := { s.lkp with srcVal := t.lkp.srcVal } }) ∧
  (∀ (who : Who) (tk : Fin 32) (s : State), live s = true → isPriv s who = true → getF s F.SCN_EDITCTL_EDSTAT ≠ 0 → s.scan.editLive = false → unguarded s who = true → 
      ∃ t, Sys2Proof.Machine.exec (.editAbort who tk) s = .next t ∧
        getF t F.SCN_EDITCTL_EDSTAT = 0 ∧
        t.scan = { s.scan with edit := none } ∧
        sameRegs [A.SCN_EDITCTL, A.SCN_STATUS] s t ∧
        t = { s with regs := t.regs, scan := t.scan, sent := t.sent }) ∧
  (∀ (who : Who) (tk : Fin 32) (v : Word) (s : State), live s = true → isPriv s who = true → s.scan.edit = none → (getF s F.SCN_STATUS_CSTATE = 0 ∨ getF s F.SCN_STATUS_CSTATE = 3) → 126 ≤ v.toNat → v.toNat ≤ 20000000 → v.toNat % 2 = 0 → (rd s (A.SCN_TASK_PHASE tk)).toNat ≤ (v.toNat - 1) / 2 → (rd s (A.SCN_TASK_DL tk)).toNat = legalDL tk v.toNat (rd s (A.SCN_TASK_DL tk)).toNat → unguarded s who = true → 
      ∃ t, Sys2Proof.Machine.exec (.taskPeriodWrite who tk v) s = .next t ∧
        getF t (F.SCN_TASK_PERIOD_PERIOD tk) = v.toNat ∧
        sameRegs [A.SCN_TASK_PERIOD tk] s t ∧
        t = { s with regs := t.regs, sent := t.sent })

/-- A slew tick applies 1 ns of the remaining slew, and the last one raises SLEWDONE. A write of the high word of TMB_INC that makes a
legal value sets it. SLEW adds ADJ to SLEWREM within ±2147483647, STEP outside RUN adds ADJ at the next tick. Loss of the
time-base PLL enters holdover with TMBLOCK 0 and a fault log entry 0x32, its return ends holdover. The model's own choices that
clauses rest on: log 4, 59 and 128. Each clause answers a next state by its conditions on the state and the operands alone: so
SLEW_STEP, TMB_INC_WRITE, ADJ_SLEW, ADJ_STEP, HOLDOVER_ENTRY and HOLDOVER_EXIT complete. -/
def Obligations.TimeBaseCommands : Prop :=
  (∀ (s : State), live s = true → slewTick s = true → s.tmb.steps = [] → 1 < slewRem s → isSet s F.TMB_STATUS_HOLDOVER = false → time s * 2 ^ 32 + s.tmb.frac + incNow s + 2 ^ 32 < 2 ^ 96 → ((List.range 8).all (fun p => (s.can[p % 8]'(Nat.mod_lt _ (by decide))).on == false) = true) → 
      ∃ t, Sys2Proof.Machine.exec (.slewStep) s = .next t ∧
        time t * 2 ^ 32 + t.tmb.frac = time s * 2 ^ 32 + s.tmb.frac + incNow s + 2 ^ 32 ∧
        slewRem t = slewRem s - 1 ∧
        isSet t F.TMB_STATUS_SLEWING = true ∧
        t.now = s.now + 2) ∧
  (∀ (who : Who) (v : Word) (s : State), live s = true → isPriv s who = true → SMap.get? s.wshadow (shadowKey A.TMB_INC who) = none → getF s F.TMB_CTL_SRC ≠ 1 → v = 2 → (rd s A.TMB_INC).toNat ≤ 0x83126F → unguarded s who = true → 
      ∃ t, Sys2Proof.Machine.exec (.tmbIncWrite who v) s = .next t ∧
        incNow t = (rd s A.TMB_INC).toNat + 2 ^ 33 ∧
        sameRegs [A.TMB_INC + 4] s t ∧
        t = { s with regs := t.regs, sent := t.sent }) ∧
  (∀ (who : Who) (s : State), live s = true → isPriv s who = true → getF s F.TMB_CTL_SRC ≠ 1 → unguarded s who = true → 
      ∃ t, Sys2Proof.Machine.exec (.adjSlew who) s = .next t ∧
        slewRem t = max (-2147483647) (min 2147483647 (slewRem s + signed 32 (rd s A.TMB_ADJ).toNat)) ∧
        isSet t F.TMB_STATUS_SLEWING = (slewRem t != 0) ∧
        sameRegs [A.TMB_SLEWREM, A.TMB_STATUS, A.TMB_ADJCMD] s t ∧
        t = { s with regs := t.regs, sent := t.sent }) ∧
  (∀ (who : Who) (s : State), live s = true → isPriv s who = true → getF s F.TMB_CTL_SRC ≠ 1 → (getF s F.SCN_STATUS_CSTATE = 0 ∨ getF s F.SCN_STATUS_CSTATE = 3) → unguarded s who = true → 
      ∃ t, Sys2Proof.Machine.exec (.adjStep who) s = .next t ∧
        t.tmb = { s.tmb with steps := s.tmb.steps ++ [signed 32 (rd s A.TMB_ADJ).toNat] } ∧
        sameRegs [A.TMB_ADJCMD] s t ∧
        t = { s with regs := t.regs, tmb := t.tmb, sent := t.sent }) ∧
  (∀ (s : State), live s = true → isSet s F.TMB_STATUS_HOLDOVER = false → merges s A.TMB_EVT 3 = false → 
      ∃ t, Sys2Proof.Machine.exec (.holdoverEntry) s = .next t ∧
        isSet t F.TMB_STATUS_HOLDOVER = true ∧
        isSet t F.SYS_CLKSTAT_TMBLOCK = false ∧
        hasEvent s t A.SYS_EVT 3 ∧
        hasEvent s t A.TMB_EVT 3 ∧
        (t.faults.queue.map (·.code)) = (s.faults.queue.map (·.code)) ++ [0x32] ∧
        t = { s with evtLast := t.evtLast, regs := t.regs, faults := t.faults, sent := t.sent, lkp := { s.lkp with srcVal := t.lkp.srcVal } }) ∧
  (∀ (s : State), live s = true → isSet s F.TMB_STATUS_HOLDOVER = true → merges s A.TMB_EVT 3 = false → 
      ∃ t, Sys2Proof.Machine.exec (.holdoverExit) s = .next t ∧
        isSet t F.TMB_STATUS_HOLDOVER = false ∧
        isSet t F.SYS_CLKSTAT_TMBLOCK = true ∧
        hasEvent s t A.TMB_EVT 3 ∧
        sameRegs ([A.TMB_STATUS, A.SYS_CLKSTAT, A.TMB_EVT] ++ pendWords) s t ∧
        t = { s with evtLast := t.evtLast, regs := t.regs, sent := t.sent, lkp := { s.lkp with srcVal := t.lkp.srcVal } })

/-- A write of CMP stores the target; in ONESHOT or PERIODIC it arms the unit, and a target that has passed sets LATE and raises its
event. A write of CTL that names OFF or CAPTURE disarms. CAPNOW and a capture event copy the time into CAPT and set VALID, and OVR
where VALID was set; an edge of SYNC_IN counts 4 ns earlier. A second event in the tick is nothing; one during a self-test slice
of the unit's group waits in the shadow unit. A read of the high word of CAPT clears both. The model's own choices that clauses
rest on: log 60 and 107. Each clause answers a next state by its conditions on the state and the operands alone: so
UNIT_CMP_WRITE, UNIT_CTL_WRITE, CAPNOW, CAPTURE_EVENT and CAPT_HIGH_READ complete. -/
def Obligations.CompareAndCaptureUnits : Prop :=
  (∀ (who : Who) (u : Fin 32) (v : Word) (s : State), live s = true → isPriv s who = true → getF s (F.TMB_UNIT_CTL_OWNER u) = 0 → (unitMode s u = 1 ∨ unitMode s u = 2) → 2 ^ 31 ≤ (time s + 2 ^ 32 - v.toNat) % 2 ^ 32 → unguarded s who = true → 
      ∃ t, Sys2Proof.Machine.exec (.unitCmpWrite who u v) s = .next t ∧
        rd t (A.TMB_UNIT_CMP u) = v ∧
        isSet t (F.TMB_UNIT_STAT_ARMED u) = true ∧
        isSet t (F.TMB_UNIT_STAT_LATE u) = false ∧
        at32 t.tmb.sub u = 0 ∧
        sameRegs [A.TMB_UNIT_CMP u, A.TMB_UNIT_STAT u] s t ∧
        t = { s with regs := t.regs, tmb := t.tmb, sent := t.sent }) ∧
  (∀ (who : Who) (u : Fin 32) (v : Word) (s : State), live s = true → isPriv s who = true → getF s (F.TMB_UNIT_CTL_OWNER u) = 0 → (unitMode s u = 1 ∨ unitMode s u = 2) → (time s + 2 ^ 32 - v.toNat) % 2 ^ 32 < 2 ^ 31 → merges s A.TMB_EVT 0 = false → unguarded s who = true → 
      ∃ t, Sys2Proof.Machine.exec (.unitCmpWrite who u v) s = .next t ∧
        rd t (A.TMB_UNIT_CMP u) = v ∧
        isSet t (F.TMB_UNIT_STAT_ARMED u) = true ∧
        isSet t (F.TMB_UNIT_STAT_LATE u) = true ∧
        hasEvent s t A.TMB_EVT 0 ∧
        sameRegs ([A.TMB_UNIT_CMP u, A.TMB_UNIT_STAT u, A.TMB_EVT] ++ pendWords) s t ∧
        t = { s with evtLast := t.evtLast, regs := t.regs, tmb := t.tmb, sent := t.sent, lkp := { s.lkp with srcVal := t.lkp.srcVal } }) ∧
  (∀ (who : Who) (u : Fin 32) (v : Word) (s : State), live s = true → isPriv s who = true → getF s (F.TMB_UNIT_CTL_OWNER u) = 0 → (v.toNat = 3 ∨ v.toNat = 0) → unguarded s who = true → 
      ∃ t, Sys2Proof.Machine.exec (.unitCtlWrite who u v) s = .next t ∧
        getF t (F.TMB_UNIT_CTL_MODE u) = v.toNat ∧
        isSet t (F.TMB_UNIT_STAT_ARMED u) = false ∧
        sameRegs [A.TMB_UNIT_CTL u, A.TMB_UNIT_STAT u] s t ∧
        t = { s with regs := t.regs, sent := t.sent }) ∧
  (∀ (who : Who) (u : Fin 32) (v : Word) (s : State), live s = true → isPriv s who = true → getF s (F.TMB_UNIT_CTL_OWNER u) = 0 → (v.toNat = 1 ∨ v.toNat = 2) → 2 ^ 31 ≤ (time s + 2 ^ 32 - (rd s (A.TMB_UNIT_CMP u)).toNat) % 2 ^ 32 → unguarded s who = true → 
      ∃ t, Sys2Proof.Machine.exec (.unitCtlWrite who u v) s = .next t ∧
        getF t (F.TMB_UNIT_CTL_MODE u) = v.toNat ∧
        isSet t (F.TMB_UNIT_STAT_ARMED u) = true ∧
        isSet t (F.TMB_UNIT_STAT_LATE u) = false ∧
        sameRegs [A.TMB_UNIT_CTL u, A.TMB_UNIT_STAT u] s t ∧
        t = { s with regs := t.regs, tmb := t.tmb, sent := t.sent }) ∧
  (∀ (who : Who) (u : Fin 32) (s : State), live s = true → isPriv s who = true → getF s (F.TMB_UNIT_CTL_OWNER u) = 0 → unitMode s u = 3 → getF s (F.TMB_UNIT_CTL_SRC u) = 2 → isSet s (F.TMB_UNIT_STAT_VALID u) = false → isSet s (F.TMB_UNIT_CTL_DLKP u) = false → at32 s.tmb.capAt u ≠ s.now + 1 → sliceRunning s ≠ some (80 + u.val / 4) → unguarded s who = true → 
      ∃ t, Sys2Proof.Machine.exec (.capnow who u) s = .next t ∧
        rd64 t (A.TMB_UNIT_CAPT u) = time s ∧
        unitMode t u = 3 ∧
        t.tmb = { s.tmb with capAt := set32 s.tmb.capAt u (s.now + 1) } ∧
        isSet t (F.TMB_UNIT_STAT_VALID u) = true ∧
        sameRegs [A.TMB_UNIT_CAPT u, A.TMB_UNIT_CAPT u + 4, A.TMB_UNIT_STAT u, A.TMB_UNIT_CTL u] s t ∧
        t = { s with regs := t.regs, tmb := t.tmb, sent := t.sent }) ∧
  (∀ (src : Fin 256) (u : Fin 32) (s : State), live s = true → src.val ≠ 2 → at32 s.tmb.capAt u ≠ s.now + 1 → sliceRunning s ≠ some (80 + u.val / 4) → ((List.range 32).filter (fun u => unitMode s u == 3 && getF s (F.TMB_UNIT_CTL_SRC u) == src.val) = [u.val]) → isSet s (F.TMB_UNIT_STAT_VALID u) = true → isSet s (F.TMB_UNIT_CTL_DLKP u) = true → merges s A.TMB_EVT 2 = false → 
      ∃ t, Sys2Proof.Machine.exec (.captureEvent src) s = .next t ∧
        (rd64 t (A.TMB_UNIT_CAPT u) = (if src.val < 2 then time s - 4 else time s)) ∧
        isSet t (F.TMB_UNIT_STAT_VALID u) = true ∧
        isSet t (F.TMB_UNIT_STAT_OVR u) = true ∧
        isSet t ⟨A.LKP_PEND 0, u, 1⟩ = true ∧
        hasEvent s t A.TMB_EVT 2 ∧
        sameRegs ([A.TMB_UNIT_CAPT u, A.TMB_UNIT_CAPT u + 4, A.TMB_UNIT_STAT u, A.TMB_EVT] ++ pendWords) s t ∧
        t.tmb = { s.tmb with capAt := set32 s.tmb.capAt u (s.now + 1) } ∧
        t = { s with evtLast := t.evtLast, regs := t.regs, tmb := t.tmb, sent := t.sent, lkp := { s.lkp with srcVal := t.lkp.srcVal } }) ∧
  (∀ (src : Fin 256) (u : Fin 32) (s : State), live s = true → src.val ≠ 2 → at32 s.tmb.capAt u ≠ s.now + 1 → sliceRunning s ≠ some (80 + u.val / 4) → ((List.range 32).filter (fun u => unitMode s u == 3 && getF s (F.TMB_UNIT_CTL_SRC u) == src.val) = [u.val]) → isSet s (F.TMB_UNIT_STAT_VALID u) = false → isSet s (F.TMB_UNIT_CTL_DLKP u) = false → 
      ∃ t, Sys2Proof.Machine.exec (.captureEvent src) s = .next t ∧
        (rd64 t (A.TMB_UNIT_CAPT u) = (if src.val < 2 then time s - 4 else time s)) ∧
        isSet t (F.TMB_UNIT_STAT_VALID u) = true ∧
        getF t (F.TMB_UNIT_STAT_OVR u) = getF s (F.TMB_UNIT_STAT_OVR u) ∧
        sameRegs [A.TMB_UNIT_CAPT u, A.TMB_UNIT_CAPT u + 4, A.TMB_UNIT_STAT u] s t ∧
        t.tmb = { s.tmb with capAt := set32 s.tmb.capAt u (s.now + 1) } ∧
        t = { s with regs := t.regs, tmb := t.tmb, sent := t.sent }) ∧
  (∀ (src : Fin 256) (u : Fin 32) (s : State), live s = true → src.val ≠ 2 → ((List.range 32).filter (fun u => unitMode s u == 3 && getF s (F.TMB_UNIT_CTL_SRC u) == src.val) = [u.val]) → at32 s.tmb.capAt u = s.now + 1 → 
      ∃ t, Sys2Proof.Machine.exec (.captureEvent src) s = .next t ∧
        t = { s with sent := t.sent }) ∧
  (∀ (src : Fin 256) (u : Fin 32) (s : State), live s = true → src.val ≠ 2 → ((List.range 32).filter (fun u => unitMode s u == 3 && getF s (F.TMB_UNIT_CTL_SRC u) == src.val) = [u.val]) → isSet s (F.TMB_UNIT_CTL_DLKP u) = false → at32 s.tmb.capAt u ≠ s.now + 1 → sliceRunning s = some (80 + u.val / 4) → 
      ∃ t, Sys2Proof.Machine.exec (.captureEvent src) s = .next t ∧
        (t.tmb = { s.tmb with capAt := set32 s.tmb.capAt u (s.now + 1), shadow := s.tmb.shadow ++ [(u.val, if src.val < 2 then time s - 4 else time s)] }) ∧
        t = { s with tmb := t.tmb, sent := t.sent }) ∧
  (∀ (who : Who) (u : Fin 32) (s : State), live s = true → 
      ∃ t, Sys2Proof.Machine.exec (.captHighRead who u) s = .next t ∧
        isSet t (F.TMB_UNIT_STAT_VALID u) = false ∧
        isSet t (F.TMB_UNIT_STAT_OVR u) = false ∧
        sameRegs [A.TMB_UNIT_STAT u] s t ∧
        t = { s with regs := t.regs, rshadow := t.rshadow, sent := t.sent })

/-- At a handover target the step for the role of the reach to release begins and the next target lies 200 ms later. A drain that runs
out of time is given up: the cores go on and DEFERS counts. A window opens when the source is drained: the source is DRAINING and
the role map stands as before; its end gives the role to the spare, which is WET, advances GEN, raises ROTATE and leaves the
source DRY in phase POWER. A late step and a reach not tested are logged once. The end of an emergency handover gives the role to
the spare and ends rotation. The model's own choices that clauses rest on: log 11, 12, 56, 118 and 119. Each clause answers a next
state by its conditions on the state and the operands alone: so ROTATION_TARGET, DRAIN_TIMEOUT, HANDOVER_WINDOW, HANDOVER_END,
ROTATION_LATE, REACH_LATENT and EMERGENCY_HANDOVER_END complete. -/
def Obligations.RotationSteps : Prop :=
  (∀ (n : Fin 5) (r : Fin 4) (s : State), live s = true → rotationRuns s = true → rd64 s A.LKH_NEXTH ≤ time s → s.faults.coreStopped = false → s.rot.step = none → s.rot.fill = some (n.val, []) → roleOf s n = some r.val → rd64 s A.LKH_NEXTH < 2 ^ 63 → 
      ∃ t, Sys2Proof.Machine.exec (.rotationTarget) s = .next t ∧
        rd64 t A.LKH_NEXTH = rd64 s A.LKH_NEXTH + 200000000 ∧
        t.rot = { s.rot with step := some (rd64 s A.LKH_NEXTH, r.val), late := false } ∧
        getF t F.LKH_ROTSTAT_ROLE = r.val ∧
        getF t F.LKH_ROTSTAT_DEFERS = 0 ∧
        sameRegs [A.LKH_NEXTH, A.LKH_NEXTH + 4, A.LKH_ROTSTAT] s t ∧
        t = { s with regs := t.regs, rot := t.rot, sent := t.sent }) ∧
  (∀ (n : Fin 5) (c : Fin 8) (s : State), live s = true → calm s s = true → s.rot.draining = some n.val → s.rot.drainAt + 1000 * getF s F.LKH_ROTCTL_DRAINTMO ≤ time s → (s.core (8 * n + c)).st = .run → s.faults.coreStopped = false → merges s A.LKH_EVT 1 = false → 
      ∃ t, Sys2Proof.Machine.exec (.drainTimeout) s = .next t ∧
        t.rot.draining = none ∧
        (t.core (8 * n + c)).drainReq = false ∧
        getF t F.LKH_ROTSTAT_PHASE = 6 ∧
        getF t F.LKH_ROTSTAT_DEFERS = satAdd F.LKH_ROTSTAT_DEFERS.w (getF s F.LKH_ROTSTAT_DEFERS) 1 ∧
        hasEvent s t A.LKH_EVT 1) ∧
  (∀ (src dst : Fin 5) (r : Fin 4) (s : State), live s = true → calm s s = true → s.rot.draining = some src.val → s.rot.fill = some (src.val, []) → spareOf s = some dst.val → sliceRunning s = none → time s ≤ s.rot.drainAt + drainTmo s → allDrained s src = true → dmaStill s src = true → roleOf s src = some r.val → 
      ∃ t, Sys2Proof.Machine.exec (.handoverWindow) s = .next t ∧
        t.rot.window = some (src.val, dst.val) ∧
        t.rot.draining = none ∧
        t.rot.fill = none ∧
        t.rot.winRole = r.val ∧
        rd t A.LKH_ROLEMAP = rd s A.LKH_ROLEMAP ∧
        getF t F.LKH_ROTSTAT_PHASE = 8 ∧
        reachState t src = 1 ∧
        (reachState t dst = reachState s dst ∨ src = dst)) ∧
  (∀ (s : State), live s = true → calm s s = true → sliceRunning s ≠ none → 
      ∃ t, Sys2Proof.Machine.exec (.handoverWindow) s = .next t ∧
        t = { s with sent := t.sent }) ∧
  (∀ (src dst : Fin 5) (r : Fin 4) (s : State), live s = true → calm s s = true → s.rot.window = some (src.val, dst.val) → src.val ≠ dst.val → s.rot.emergency = false → s.rot.winRole = r.val → merges s A.LKH_EVT 0 = false → failed s src = false → loadedSlot s = none → s.rot.held = [] → s.brg.gathers = [] → s.brg.waits = [] → 
      ∃ t, Sys2Proof.Machine.exec (.handoverEnd) s = .next t ∧
        t.rot.window = none ∧
        t.rot.step = none ∧
        at5 t.rot.wetAt dst = time s ∧
        reachOf t r = dst.val ∧
        getF t F.LKH_ROLEMAP_SPARE = src.val ∧
        getF t F.LKH_ROLEMAP_GEN = (getF s F.LKH_ROLEMAP_GEN + 1) % 2 ^ F.LKH_ROLEMAP_GEN.w ∧
        hasEvent s t A.LKH_EVT 0 ∧
        isSet t ⟨A.SYS_EVT, 6, 1⟩ = true ∧
        reachState t dst = 0 ∧
        reachState t src = 2 ∧
        getF t F.LKH_ROTSTAT_PHASE = 1 ∧
        isSet t ⟨A.SYS_CLKSTAT, 8 + src.val, 1⟩ = false) ∧
  (∀ (h : Nat) (r : Fin 4) (s : State), live s = true → s.rot.step = some (h, r.val) → s.rot.late = false → h + 1000000 * getF s F.LKH_ROTCTL_ROTLATE ≤ time s → merges s A.LKH_EVT 2 = false → 
      ∃ t, Sys2Proof.Machine.exec (.rotationLate) s = .next t ∧
        t.rot = { s.rot with late := true } ∧
        hasEvent s t A.LKH_EVT 2 ∧
        t.faults.queue.map (·.code) = s.faults.queue.map (·.code) ++ [9] ∧
        t = { s with evtLast := t.evtLast, regs := t.regs, rot := t.rot, faults := t.faults, sent := t.sent, lkp := { s.lkp with srcVal := t.lkp.srcVal } }) ∧
  (∀ (n : Fin 5) (s : State), live s = true → failed s n = false → at5 s.rot.latent n = false → isSet s F.SYS_STATUS_READY = true → at5 s.rot.testAt n + 1200000000 < time s → merges s A.LKH_EVT 3 = false → 
      ∃ t, Sys2Proof.Machine.exec (.reachLatent n) s = .next t ∧
        at5 t.rot.latent n = true ∧
        hasEvent s t A.LKH_EVT 3 ∧
        t.faults.queue.map (·.code) = s.faults.queue.map (·.code) ++ [8] ∧
        t = { s with evtLast := t.evtLast, regs := t.regs, rot := t.rot, faults := t.faults, sent := t.sent, lkp := { s.lkp with srcVal := t.lkp.srcVal } }) ∧
  (∀ (n m : Fin 5) (r : Fin 4) (s : State), live s = true → calm s s = true → s.rot.window = some (n.val, m.val) → n.val ≠ m.val → s.rot.emergency = true → s.rot.winRole = r.val → loadedSlot s = none → s.ecc = [] → s.rot.held = [] → s.brg.gathers = [] → s.brg.waits = [] → sliceRunning s = none → merges s A.LKH_EVT 0 = false → 
      ∃ t, Sys2Proof.Machine.exec (.emergencyHandoverEnd) s = .next t ∧
        t.rot.window = none ∧
        t.rot.emergency = false ∧
        reachOf t r = m.val ∧
        reachState t m = 0 ∧
        getF t F.LKH_ROLEMAP_SPARE = 7 ∧
        getF t F.LKH_ROLEMAP_GEN = (getF s F.LKH_ROLEMAP_GEN + 1) % 2 ^ F.LKH_ROLEMAP_GEN.w ∧
        getF t F.LKH_ROTSTAT_PHASE = 0 ∧
        hasEvent s t A.LKH_EVT 0 ∧
        isSet t ⟨A.SYS_EVT, 6, 1⟩ = true)

/-- A DRY reach passes through POWER, LBIST, MBIST, RELOAD to WAITFILL: good checks end POWER, 32 good pairs of slices end LBIST with
result PASS, a clean MBIST leaves banks 0 to 11 at zero and clears SUSPECT, the end of RELOAD leaves the cores halted. Filling
copies banks 0 to 11 of the reach to release; a round copies the lines dirtied since. A spare that no step needs is tested again
after 200 ms. The model's own choices that clauses rest on: log 15, 54 and 55. Each clause answers a next state by its conditions
on the state and the operands alone: so DRY_POWER_END, LBIST_SLICE_END, MBIST_END, RELOAD_END, FILL_START, FILL_ROUND_END and
SPARE_RETEST complete. -/
def Obligations.DryReachAndFill : Prop :=
  (∀ (locked powered : Bool) (n : Fin 5) (s : State), live s = true → calm s s = true → underTest s 1 = some n.val → locked = true → powered = true → 
      ∃ t, Sys2Proof.Machine.exec (.dryPowerEnd locked powered) s = .next t ∧
        getF t F.LKH_ROTSTAT_PHASE = 2 ∧
        isSet t ⟨A.SYS_CLKSTAT, 8 + n.val, 1⟩ = true ∧
        t.rot = { s.rot with lbist := 0, phaseAt := time s } ∧
        sameRegs [A.LKH_ROTSTAT, A.SYS_CLKSTAT] s t ∧
        t = { s with regs := t.regs, rot := t.rot, sent := t.sent }) ∧
  (∀ (ok0 ok1 : Bool) (sig0 sig1 : Word) (n : Fin 5) (s : State), live s = true → calm s s = true → underTest s 2 = some n.val → ok0 = true → ok1 = true → s.rot.lbist < 31 → 
      ∃ t, Sys2Proof.Machine.exec (.lbistSliceEnd ok0 ok1 sig0 sig1) s = .next t ∧
        t.rot = { s.rot with lbist := s.rot.lbist + 1 } ∧
        t = { s with rot := t.rot, sent := t.sent }) ∧
  (∀ (ok0 ok1 : Bool) (sig0 sig1 : Word) (n : Fin 5) (s : State), live s = true → calm s s = true → underTest s 2 = some n.val → ok0 = true → ok1 = true → s.rot.lbist = 31 → 
      ∃ t, Sys2Proof.Machine.exec (.lbistSliceEnd ok0 ok1 sig0 sig1) s = .next t ∧
        getF t F.LKH_ROTSTAT_PHASE = 3 ∧
        getF t (F.BST_REACH_LRESULT n) = 1 ∧
        t.rot = { s.rot with lbist := 32, phaseAt := time s } ∧
        sameRegs [A.LKH_ROTSTAT, A.BST_REACH n] s t ∧
        t = { s with regs := t.regs, rot := t.rot, sent := t.sent }) ∧
  (∀ (bad : List (Nat × Bool × Nat)) (n : Fin 5) (o : Fin 0xC0000) (s : State), live s = true → calm s s = true → underTest s 3 = some n.val → bad = [] → 
      ∃ t, Sys2Proof.Machine.exec (.mbistEnd bad) s = .next t ∧
        getF t F.LKH_ROTSTAT_PHASE = 4 ∧
        getF t (F.BST_REACH_MRESULT n) = 1 ∧
        isSet t ⟨A.LKH_REACHST, 16 + n.val, 1⟩ = false ∧
        at5 t.rot.testAt n = time s ∧
        at5 t.rot.latent n = false ∧
        byteAt t (reachAddr n o.val) = 0 ∧
        sameBytes (reachAddr n 0) 0xC0000 s t ∧
        sameRegs [A.LKH_ROTSTAT, A.BST_REACH n, A.LKH_REACHST] s t ∧
        t = { s with regs := t.regs, mem := t.mem, ecc := t.ecc, rot := t.rot, sent := t.sent }) ∧
  (∀ (n : Fin 5) (o : Fin 0xC0000) (c : Fin 8) (s : State), live s = true → underTest s 4 = some n.val → loadedSlot s = none → getF s F.LKH_FWVER_STAGED = 0 → getF s F.LKH_FWSTAT_STATE = 0 → 
      ∃ t, Sys2Proof.Machine.exec (.reloadEnd) s = .next t ∧
        getF t F.LKH_ROTSTAT_PHASE = 5 ∧
        byteAt t (reachAddr n o.val) = 0 ∧
        (t.core (8 * n + c)).st = .halted ∧
        (t.core (8 * n + c)).pc = rd s (A.RCH_CORE_BOOT n c) ∧
        sameBytes (reachAddr n 0) 0xC0000 s t) ∧
  (∀ (src n : Fin 5) (o : Fin 0xC0000) (s : State), live s = true → rotationRuns s = true → s.faults.coreStopped = false → phase s = 5 → s.rot.step = none → rd64 s A.LKH_NEXTH ≤ time s + 20000000 → spareOf s = some n.val → longestWet s = some src.val → src.val ≠ n.val → s.ecc = [] → 
      ∃ t, Sys2Proof.Machine.exec (.fillStart) s = .next t ∧
        getF t F.LKH_ROTSTAT_PHASE = 6 ∧
        reachState t n = 3 ∧
        t.rot.fill = some (src.val, []) ∧
        t.rot.round0 = false ∧
        byteAt t (reachAddr n o.val) = byteAt s (reachAddr src o.val) ∧
        sameBytes (reachAddr n 0) 0xC0000 s t ∧
        sameRegs [A.LKH_ROTSTAT, A.LKH_REACHST] s t ∧
        t = { s with regs := t.regs, mem := t.mem, ecc := t.ecc, rot := t.rot, sent := t.sent }) ∧
  (∀ (src n : Fin 5) (line : Fin 12288) (o : Fin 64) (s : State), live s = true → calm s s = true → s.rot.fill = some (src.val, [line.val]) → spareOf s = some n.val → src.val ≠ n.val → phase s = 6 → s.rot.step = none → s.rot.draining = none → s.ecc = [] → 
      ∃ t, Sys2Proof.Machine.exec (.fillRoundEnd) s = .next t ∧
        t.rot = { s.rot with fill := some (src.val, []), round0 := true } ∧
        byteAt t (reachAddr n (64 * line + o)) = byteAt s (reachAddr src (64 * line + o)) ∧
        sameBytes (reachAddr n (64 * line)) 64 s t ∧
        bitsOf ((viewOf t A.LKH_ROTSTAT).getD 0) 10 14 = 0 ∧
        sameRegs [A.LKH_ROTSTAT] s t ∧
        t = { s with regs := t.regs, mem := t.mem, rot := t.rot, sent := t.sent }) ∧
  (∀ (n : Fin 5) (c : Fin 8) (s : State), live s = true → phase s = 5 → s.rot.step = none → s.rot.testFrom + 200000000 ≤ time s → anyFailed s = false → s.faults.coreStopped = false → spareOf s = some n.val → 
      ∃ t, Sys2Proof.Machine.exec (.spareRetest) s = .next t ∧
        getF t F.LKH_ROTSTAT_PHASE = 1 ∧
        isSet t ⟨A.SYS_CLKSTAT, 8 + n.val, 1⟩ = false ∧
        (t.core (8 * n + c)).st = .off ∧
        t.rot = { s.rot with phaseAt := time s, testFrom := time s } ∧
        sameRegs [A.LKH_ROTSTAT, A.SYS_CLKSTAT] s t)

/-- STAGE from a valid slot whose version is not active records the version and no reach as loaded; SWITCH of a READY version begins a
switch; ABORT before it drops the version. At an eligible instant the cores of a role group are asked to drain; once they have
drained, the half of the group flips and SWDONE shows it. The model's own choices that clauses rest on: log 13. Each clause
answers a next state by its conditions on the state and the operands alone: so FW_STAGE, FW_SWITCH, FW_ABORT and FW_SWITCH_GAP
complete. -/
def Obligations.FirmwareSwitch : Prop :=
  (∀ (who : Who) (src : Fin 2) (ver : Fin 65536) (s : State), live s = true → isPriv s who = true → s.faults.coreStopped = false → getF s F.LKH_FWSTAT_STATE ≠ 3 → isSet s (F.CFG_SLOT_VALID src) = true → stageVersion s src = some ver.val → anyFailed s = false → unguarded s who = true → 
      ∃ t, Sys2Proof.Machine.exec (.fwStage who src) s = .next t ∧
        getF t F.LKH_FWVER_STAGED = ver.val ∧
        getF t F.LKH_FWSTAT_LOADED = 0 ∧
        getF t F.LKH_FWSTAT_STATE = 1 ∧
        getF t F.LKH_FWCTL_SRC = src.val ∧
        sameRegs [A.LKH_FWCTL, A.LKH_FWSTAT, A.LKH_FWVER] s t ∧
        t = { s with regs := t.regs, sent := t.sent }) ∧
  (∀ (who : Who) (s : State), live s = true → isPriv s who = true → s.faults.coreStopped = false → getF s F.LKH_FWSTAT_STATE = 2 → unguarded s who = true → 
      ∃ t, Sys2Proof.Machine.exec (.fwSwitch who) s = .next t ∧
        getF t F.LKH_FWSTAT_STATE = 3 ∧
        getF t F.LKH_FWSTAT_SWDONE = 0 ∧
        sameRegs [A.LKH_FWCTL, A.LKH_FWSTAT] s t ∧
        t = { s with regs := t.regs, sent := t.sent }) ∧
  (∀ (who : Who) (s : State), live s = true → isPriv s who = true → s.faults.coreStopped = false → getF s F.LKH_FWSTAT_STATE ≠ 3 → unguarded s who = true → 
      ∃ t, Sys2Proof.Machine.exec (.fwAbort who) s = .next t ∧
        getF t F.LKH_FWSTAT_STATE = 0 ∧
        getF t F.LKH_FWSTAT_LOADED = 0 ∧
        getF t F.LKH_FWVER_STAGED = 0 ∧
        sameRegs [A.LKH_FWCTL, A.LKH_FWSTAT, A.LKH_FWVER] s t ∧
        t = { s with regs := t.regs, sent := t.sent }) ∧
  (∀ (r : Fin 4) (c : Fin 8) (s : State), live s = true → calm s s = true → getF s F.LKH_FWSTAT_STATE = 3 → bitAt (getF s F.LKH_FWSTAT_SWDONE) r = false → s.faults.coreStopped = false → s.rot.gap = none → s.rot.window = none → s.rot.draining = none → roleGroup s r = [r.val] → roleQuiet s r = true → noLatchSoon s r = true → (s.core (8 * reachOf s r + c)).st = .run → 
      ∃ t, Sys2Proof.Machine.exec (.fwSwitchGap r) s = .next t ∧
        t.rot = { s.rot with gap := some [r.val], gapAt := time s } ∧
        (t.core (8 * reachOf s r + c)).drainReq = true ∧
        t = { s with rot := t.rot, cores := t.cores, lkp := t.lkp, sent := t.sent }) ∧
  (∀ (r : Fin 4) (s : State), live s = true → calm s s = true → getF s F.LKH_FWSTAT_STATE = 3 → getF s F.LKH_FWSTAT_SWDONE = 0 → s.faults.coreStopped = false → s.rot.gap = some [r.val] → roleGroup s r = [r.val] → allDrained s (reachOf s r) = true → dmaStill s (reachOf s r) = true → ((List.range 4).all (fun q => decide (reachOf s q < 5)) = true) → 
      ∃ t, Sys2Proof.Machine.exec (.fwSwitchGap r) s = .next t ∧
        t.rot.gap = none ∧
        t.rot.half.get r = 1 - s.rot.half.get r ∧
        getF t F.LKH_FWSTAT_SWDONE = 2 ^ r.val ∧
        getF t F.LKH_FWSTAT_STATE = 3)

/-- EN enters SEEK with its event and leaves to SINGLE with the peer unknown; SWAP makes a primary with a HOT standby DETACHED; JOIN
takes a detached device to JOINING, and where no task is mirrored to HOT at once. A HELLO and a HEARTBEAT go out as frames of R208
with the next SEQ. A HELLO of a primary with the same configuration leads from SEEK to JOINING where the time base runs from
fabric time, and changes nothing but what was heard where it does not; 50 ms of silence to PRIMARY. A HEARTBEAT sets PEERSTATE;
HBTMO without one sets it unknown, and a HOT standby takes over, as it does on RELINQUISH. The model's own choices that clauses
rest on: log 16, 17, 18, 98, 125, 126, 127, 154 and 155. Each clause answers a next state by its conditions on the state and the
operands alone: so SBY_ENABLE, SWAP, JOIN, PAIR_HELLO_TX, PAIR_HELLO_RX, SEEK_TIMEOUT, HEARTBEAT_TX, HEARTBEAT_RX,
HEARTBEAT_TIMEOUT, RELINQUISH_RX and DETACHED_TIMER complete. -/
def Obligations.PairElection : Prop :=
  (∀ (who : Who) (en : Bool) (s : State), live s = true → calm s s = true → isPriv s who = true → en = true → s.sn = false → s.scan.restart = none → s.faults.coreStopped = false → isSet s F.LKH_SBYCTL_EN = false → pairState s = 0 → isSet s F.SYS_STATUS_READY = true → running s = false → towRuns s = false → merges s A.LKH_EVT 8 = false → unguarded s who = true → 
      ∃ t, Sys2Proof.Machine.exec (.sbyEnable who en) s = .next t ∧
        isSet t F.LKH_SBYCTL_EN = true ∧
        pairState t = 1 ∧
        t.pair.since = time s ∧
        getF t F.SYS_STATUS_STANDBY = 0 ∧
        hasEvent s t A.LKH_EVT 8 ∧
        sameRegs ([A.LKH_SBYCTL, A.LKH_SBYSTAT, A.SYS_STATUS, A.LKH_EVT] ++ pendWords) s t ∧
        t = { s with evtLast := t.evtLast, regs := t.regs, pair := t.pair, sent := t.sent, lkp := { s.lkp with srcVal := t.lkp.srcVal } }) ∧
  (∀ (who : Who) (en : Bool) (s : State), live s = true → calm s s = true → isPriv s who = true → en = false → s.sn = false → s.faults.coreStopped = false → isSet s F.LKH_SBYCTL_EN = true → pairState s = 5 → towSilent s = false → merges s A.LKH_EVT 8 = false → unguarded s who = true → 
      ∃ t, Sys2Proof.Machine.exec (.sbyEnable who en) s = .next t ∧
        isSet t F.LKH_SBYCTL_EN = false ∧
        pairState t = 0 ∧
        getF t F.LKH_SBYSTAT_PEERSTATE = 7 ∧
        hasEvent s t A.LKH_EVT 8 ∧
        sameRegs ([A.LKH_SBYCTL, A.LKH_SBYSTAT, A.SYS_STATUS, A.LKH_EVT] ++ pendWords) s t ∧
        t = { s with evtLast := t.evtLast, regs := t.regs, pair := t.pair, sent := t.sent, lkp := { s.lkp with srcVal := t.lkp.srcVal } }) ∧
  (∀ (who : Who) (s : State), live s = true → isPriv s who = true → s.sn = false → s.faults.coreStopped = false → s.faults.due = none → pairState s = 2 → getF s F.LKH_SBYSTAT_PEERSTATE = 4 → unguarded s who = true → 
      ∃ t, Sys2Proof.Machine.exec (.swap who) s = .next t ∧
        pairState t = 5 ∧
        t.pair.silenceDue = true ∧
        running t = false ∧
        t.pair.seqTx = (s.pair.seqTx + 1) % 2 ^ 32) ∧
  (∀ (who : Who) (s : State), live s = true → mirroredTasks s ≠ [] → calm s s = true → isPriv s who = true → s.sn = false → s.faults.coreStopped = false → isSet s F.LKH_SBYCTL_EN = true → pairState s = 5 → towRuns s = false → getF s F.LKH_SBYCTL_LINKS = 0 → merges s A.LKH_EVT 8 = false → unguarded s who = true → 
      ∃ t, Sys2Proof.Machine.exec (.join who) s = .next t ∧
        pairState t = 3 ∧
        getF t F.SYS_STATUS_STANDBY = 2 ∧
        t.pair.seqTx = (s.pair.seqTx + 1) % 2 ^ 32 ∧
        t.pair.joined = 0 ∧
        hasEvent s t A.LKH_EVT 8 ∧
        sameRegs ([A.LKH_SBYCTL, A.LKH_SBYSTAT, A.SYS_STATUS, A.LKH_EVT] ++ pendWords) s t ∧
        t.scan = { s.scan with waitCmd := [] } ∧
        t = { s with evtLast := t.evtLast, regs := t.regs, pair := t.pair, scan := t.scan, sent := t.sent, lkp := { s.lkp with srcVal := t.lkp.srcVal } }) ∧
  (∀ (who : Who) (s : State), live s = true → mirroredTasks s = [] → calm s s = true → isPriv s who = true → s.sn = false → s.faults.coreStopped = false → isSet s F.LKH_SBYCTL_EN = true → pairState s = 5 → towRuns s = false → getF s F.LKH_SBYCTL_LINKS = 0 → unguarded s who = true → 
      ∃ t, Sys2Proof.Machine.exec (.join who) s = .next t ∧
        pairState t = 4 ∧
        getF t F.SYS_STATUS_STANDBY = 2 ∧
        t.pair.seqTx = (s.pair.seqTx + 1) % 2 ^ 32 ∧
        getF t F.SCN_STATUS_CSTATE = 2 ∧
        isSet t F.LKH_SBYCTL_EN = true) ∧
  (∀ (l : Fin 4) (s : State), live s = true → pairState s = 1 → pairLinks s = [l.val] → 
      ∃ t, Sys2Proof.Machine.exec (.pairHelloTx) s = .next t ∧
        t.pair = { s.pair with seqTx := (s.pair.seqTx + 1) % 2 ^ 32 } ∧
        t.basin.inbox.length = s.basin.inbox.length + 1 ∧
        ((t.basin.inbox.getLast?).map (fun f => (f.src, f.cls, f.direct)) = some (35, some 7, some (24 + l.val))) ∧
        (((t.basin.inbox.getLast?).bind (fun f => parsePair f.bytes)).map (fun m => (m.type, m.seq, m.payload.take 16)) = some (1, (s.pair.seqTx + 1) % 2 ^ 32, beBytes 16 (ownUid s))) ∧
        t = { s with pair := t.pair, basin := { s.basin with inbox := t.basin.inbox }, sent := [] }) ∧
  (∀ (l : Nat) (peerPref : Bool) (bs : List Byte) (m : PairMsg) (s : State), live s = true → mirroredTasks s ≠ [] → calm s s = true → s.faults.coreStopped = false → s.pair.inbox = [(l, bs)] → parsePair bs = some m → m.type = 1 → helloOrder s m = .next → beNat (part m.payload 16 1) = 2 → part m.payload 24 32 = cfgHash s → pairState s = 1 → towRuns s = false → fabricTimed s = true → getF s F.LKH_SBYCTL_LINKS = 0 → merges s A.LKH_EVT 8 = false → 
      ∃ t, Sys2Proof.Machine.exec (.pairHelloRx peerPref) s = .next t ∧
        pairState t = 3 ∧
        t.pair.inbox = [] ∧
        t.pair.primaryAt = some (time s) ∧
        t.pair.peerUid = beNat (m.payload.take 16) ∧
        hasEvent s t A.LKH_EVT 8 ∧
        sameRegs ([A.LKH_SBYSTAT, A.SYS_STATUS, A.LKH_EVT] ++ pendWords) s t ∧
        t.scan = { s.scan with waitCmd := [] } ∧
        t = { s with evtLast := t.evtLast, regs := t.regs, pair := t.pair, scan := t.scan, sent := t.sent, lkp := { s.lkp with srcVal := t.lkp.srcVal } }) ∧
  (∀ (l : Nat) (peerPref : Bool) (bs : List Byte) (m : PairMsg) (s : State), live s = true → calm s s = true → s.pair.inbox = [(l, bs)] → parsePair bs = some m → m.type = 1 → helloOrder s m = .next → pairState s = 1 → part m.payload 24 32 = cfgHash s → fabricTimed s = false → 
      ∃ t, Sys2Proof.Machine.exec (.pairHelloRx peerPref) s = .next t ∧
        pairState t = 1 ∧
        t.pair.heardAt = some (time s) ∧
        sameRegs [] s t ∧
        t = { s with pair := t.pair, sent := t.sent }) ∧
  (∀ (s : State), live s = true → calm s s = true → s.faults.coreStopped = false → pairState s = 1 → max s.pair.since (s.pair.heardAt.getD 0) + 50000000 ≤ time s → loadedSlot s = none → towSilent s = false → s.scan.waitCmd = [] → merges s A.LKH_EVT 8 = false → 
      ∃ t, Sys2Proof.Machine.exec (.seekTimeout) s = .next t ∧
        pairState t = 2 ∧
        getF t F.LKH_SBYSTAT_PRIMEPOCH = 1 ∧
        getF t F.SYS_STATUS_STANDBY = 1 ∧
        hasEvent s t A.LKH_EVT 8 ∧
        sameRegs ([A.LKH_SBYSTAT, A.SYS_STATUS, A.LKH_EVT] ++ pendWords) s t ∧
        t = { s with evtLast := t.evtLast, regs := t.regs, pair := t.pair, sent := t.sent, lkp := { s.lkp with srcVal := t.lkp.srcVal } }) ∧
  (∀ (l : Fin 4) (s : State), live s = true → pairState s ≠ 0 → pairLinks s = [l.val] → 
      ∃ t, Sys2Proof.Machine.exec (.heartbeatTx) s = .next t ∧
        t.pair = { s.pair with seqTx := (s.pair.seqTx + 1) % 2 ^ 32 } ∧
        t.basin.inbox.length = s.basin.inbox.length + 1 ∧
        ((t.basin.inbox.getLast?).map (fun f => (f.src, f.cls, f.direct)) = some (35, some 7, some (24 + l.val))) ∧
        (((t.basin.inbox.getLast?).bind (fun f => parsePair f.bytes)).map (fun m => (m.type, m.seq, m.payload)) = some (2, (s.pair.seqTx + 1) % 2 ^ 32, [b8 (pairState s), 0, 0, 0] ++ beBytes 4 (getF s F.LKH_SBYSTAT_PRIMEPOCH) ++ beBytes 8 (time s))) ∧
        t = { s with pair := t.pair, basin := { s.basin with inbox := t.basin.inbox }, sent := [] }) ∧
  (∀ (l : Nat) (bs : List Byte) (m : PairMsg) (s : State), live s = true → calm s s = true → s.pair.inbox = [(l, bs)] → parsePair bs = some m → m.type = 2 → orderOf s m = .next → beNat (m.payload.take 1) = 4 → getF s F.LKH_SBYSTAT_PEERSTATE ≠ 4 → merges s A.LKH_EVT 8 = false → 
      ∃ t, Sys2Proof.Machine.exec (.heartbeatRx) s = .next t ∧
        getF t F.LKH_SBYSTAT_PEERSTATE = 4 ∧
        (t.pair = { s.pair with inbox := [], hbAt := if (pairLinks s).any (fun k => 24 + k == l) then some (time s) else s.pair.hbAt, heardAt := some (time s), peerEpoch := beNat (part m.payload 4 4), seqRx := some (m.seq, m.frag, m.last) }) ∧
        hasEvent s t A.LKH_EVT 8 ∧
        sameRegs ([A.LKH_SBYSTAT, A.LKH_EVT] ++ pendWords) s t ∧
        t = { s with evtLast := t.evtLast, regs := t.regs, pair := t.pair, sent := t.sent, lkp := { s.lkp with srcVal := t.lkp.srcVal } }) ∧
  (∀ (h : Nat) (s : State), live s = true → s.faults.due = none → ((List.range 5).all (fun n => getF s (F.RCH_PWR_PSTATE n) != 1) = true) → pairState s = 2 → s.pair.hbAt = some h → h + 1000 * getF s F.LKH_SBYTIME_HBTMO ≤ time s → getF s F.LKH_SBYSTAT_PEERSTATE ≠ 7 → merges s A.LKH_EVT 8 = false → 
      ∃ t, Sys2Proof.Machine.exec (.heartbeatTimeout) s = .next t ∧
        getF t F.LKH_SBYSTAT_PEERSTATE = 7 ∧
        pairState t = 2 ∧
        t.pair = { s.pair with hbAt := none, track := none } ∧
        hasEvent s t A.LKH_EVT 8 ∧
        sameRegs ([A.LKH_SBYSTAT, A.LKH_EVT] ++ pendWords) s t ∧
        t = { s with evtLast := t.evtLast, regs := t.regs, pair := t.pair, sent := t.sent, lkp := { s.lkp with srcVal := t.lkp.srcVal } }) ∧
  (∀ (h : Nat) (s : State), live s = true → calm s s = true → pairState s = 4 → s.faults.coreStopped = false → s.pair.hbAt = some h → h + 1000 * getF s F.LKH_SBYTIME_HBTMO ≤ time s → merges s A.LKH_EVT 9 = false → ((List.range 32).all (fun q => !enabled s q) = true) → rd64 s A.SCN_EPOCH < 2 ^ 63 → 
      ∃ t, Sys2Proof.Machine.exec (.heartbeatTimeout) s = .next t ∧
        pairState t = 2 ∧
        getF t F.SYS_STATUS_STANDBY = 1 ∧
        getF t F.LKH_SBYSTAT_PEERSTATE = 7 ∧
        getF t F.LKH_SBYSTAT_PRIMEPOCH = (getF s F.LKH_SBYSTAT_PRIMEPOCH + 1) % 65536 ∧
        rd64 t A.SCN_EPOCH = rd64 s A.SCN_EPOCH + 1000 * getF s F.LKH_SBYTIME_SBYDLY ∧
        rd64 t A.LKH_SBYSWT = time s ∧
        t.pair.lost = true ∧
        isSet t ⟨A.LKH_EVT, 9, 1⟩ = true) ∧
  (∀ (l : Nat) (bs : List Byte) (m : PairMsg) (s : State), live s = true → calm s s = true → s.faults.coreStopped = false → s.pair.inbox = [(l, bs)] → parsePair bs = some m → m.type = 7 → s.pair.seqRx = none → pairState s = 4 → ((List.range 32).all (fun q => !enabled s q) = true) → 
      ∃ t, Sys2Proof.Machine.exec (.relinquishRx) s = .next t ∧
        pairState t = 2 ∧
        getF t F.LKH_SBYSTAT_PRIMEPOCH = (getF s F.LKH_SBYSTAT_PRIMEPOCH + 1) % 65536 ∧
        rd64 t A.LKH_SBYSWT = time s ∧
        t.pair.lost = true ∧
        t.pair.inbox = []) ∧
  (∀ (s : State), live s = true → mirroredTasks s ≠ [] → s.faults.coreStopped = false → s.pair.since + 10000000 ≤ time s → getF s F.LKH_SBYSTAT_PEERSTATE = 2 → isSet s F.LKH_SBYCTL_EN = true → pairState s = 5 → towRuns s = false → getF s F.LKH_SBYCTL_LINKS = 0 → merges s A.LKH_EVT 8 = false → 
      ∃ t, Sys2Proof.Machine.exec (.detachedTimer) s = .next t ∧
        pairState t = 3 ∧
        getF t F.SYS_STATUS_STANDBY = 2 ∧
        hasEvent s t A.LKH_EVT 8 ∧
        sameRegs ([A.LKH_SBYSTAT, A.SYS_STATUS, A.LKH_EVT] ++ pendWords) s t ∧
        t.scan = { s.scan with waitCmd := [] } ∧
        t = { s with evtLast := t.evtLast, regs := t.regs, pair := t.pair, scan := t.scan, sent := t.sent, lkp := { s.lkp with srcVal := t.lkp.srcVal } })

/-- On a standby a SNAP fragment joins the snapshot of its task and cycle, a RET message queues its lines for the next retentive
write, a COMMIT message waits as the primary's mark of its cycle, a FORCE entry changes mask and value of its byte. JOINREQ makes
a primary track what it writes. STATE lines go into the reach of the task's role, and JOINED gives a mirrored task its cycle and,
as the last, makes the device HOT. The model's own choices that clauses rest on: log 20, 99 and 126. Each clause answers a next
state by its conditions on the state and the operands alone: so SNAP_RX, RET_RX, COMMIT_MSG_RX, FORCE_MSG_RX, JOINREQ_RX, STATE_RX
and JOINED_RX complete. -/
def Obligations.PairMirroring : Prop :=
  (∀ (l : Nat) (bs : List Byte) (m : PairMsg) (s : State), live s = true → calm s s = true → s.pair.inbox = [(l, bs)] → parsePair bs = some m → m.type = 3 → m.frag = 0 → orderOf s m = .next → isStandby s = true → s.pair.snaps = [] → 
      ∃ t, Sys2Proof.Machine.exec (.snapRx) s = .next t ∧
        t.pair = { s.pair with inbox := [], heardAt := some (time s), seqRx := some (m.seq, 0, m.last), snaps := [{ task := m.task, cycle := m.cyc, bytes := m.payload, frag := 0, full := m.last }] } ∧
        t = { s with pair := t.pair, sent := t.sent }) ∧
  (∀ (l : Nat) (bs : List Byte) (m : PairMsg) (s : State), live s = true → calm s s = true → s.pair.inbox = [(l, bs)] → parsePair bs = some m → m.type = 4 → orderOf s m = .next → isStandby s = true → m.payload.length = 66 → s.scan.retQueue = none → 
      ∃ t, Sys2Proof.Machine.exec (.retRx) s = .next t ∧
        t.scan.retQueue = some [(beNat (m.payload.take 2), m.payload.drop 2)] ∧
        (t.scan.retTarget = (if retGen s 1 < retGen s 0 then 1 else 0)) ∧
        isSet t F.SCN_STATUS_RETBUSY = true ∧
        t.pair.inbox = [] ∧
        sameRegs [A.SCN_STATUS] s t ∧
        t = { s with regs := t.regs, pair := t.pair, scan := t.scan, sent := t.sent }) ∧
  (∀ (l : Nat) (bs : List Byte) (m : PairMsg) (s : State), live s = true → calm s s = true → s.pair.inbox = [(l, bs)] → parsePair bs = some m → m.type = 5 → orderOf s m = .next → isStandby s = true → s.pair.marksOwn = [] → 
      ∃ t, Sys2Proof.Machine.exec (.commitMsgRx) s = .next t ∧
        t.pair = { s.pair with inbox := [], heardAt := some (time s), seqRx := some (m.seq, m.frag, m.last), marksPeer := s.pair.marksPeer ++ [{ task := m.task, cycle := m.cyc, crc := beNat (m.payload.take 4), len := beNat (part m.payload 4 4) }] } ∧
        t = { s with pair := t.pair, sent := t.sent }) ∧
  (∀ (l : Nat) (bs : List Byte) (m : PairMsg) (own : CommitMark) (s : State), live s = true → calm s s = true → s.faults.coreStopped = false → s.pair.inbox = [(l, bs)] → parsePair bs = some m → m.type = 5 → orderOf s m = .next → pairState s = 4 → s.pair.marksOwn = [own] → s.pair.marksPeer = [] → merges s A.LKH_EVT 10 = false → own.task = m.task → own.cycle = m.cyc → own.crc ≠ beNat (m.payload.take 4) → 
      ∃ t, Sys2Proof.Machine.exec (.commitMsgRx) s = .next t ∧
        pairState t = 5 ∧
        isSet t ⟨A.LKH_EVT, 10, 1⟩ = true ∧
        running t = false) ∧
  (∀ (l : Nat) (bs : List Byte) (m : PairMsg) (off : Fin 0x20000) (mask : Byte) (s : State), live s = true → calm s s = true → s.pair.inbox = [(l, bs)] → parsePair bs = some m → m.type = 6 → orderOf s m = .next → isStandby s = true → m.payload = forceWords true off mask.toNat 0 → 
      ∃ t, Sys2Proof.Machine.exec (.forceMsgRx) s = .next t ∧
        byteAt t (0x30080000 + off.val) = byteAt s (0x30080000 + off.val) &&& ~~~mask ∧
        sameBytes (0x30080000 + off.val) 1 s t ∧
        t.pair = { s.pair with inbox := [], heardAt := some (time s), seqRx := some (m.seq, m.frag, m.last) } ∧
        sameRegs ([A.SCN_FORCECMD, A.SCN_FORCEIN, A.SCN_FORCEOUT, A.SCN_STATUS, A.SCN_EVT] ++ pendWords) s t ∧
        t = { s with evtLast := t.evtLast, regs := t.regs, mem := t.mem, pair := t.pair, sent := t.sent, lkp := { s.lkp with srcVal := t.lkp.srcVal } }) ∧
  (∀ (l : Nat) (bs : List Byte) (m : PairMsg) (s : State), live s = true → s.faults.due = none → ((List.range 5).all (fun n => getF s (F.RCH_PWR_PSTATE n) != 1) = true) → s.pair.inbox = [(l, bs)] → parsePair bs = some m → m.type = 8 → orderOf s m = .next → pairState s = 2 → mirroredTasks s = [] → forcedOffsets s = [] → 
      ∃ t, Sys2Proof.Machine.exec (.joinreqRx) s = .next t ∧
        t.pair = { s.pair with inbox := [], heardAt := some (time s), seqRx := some (m.seq, m.frag, m.last), joined := 0, track := some [] } ∧
        t = { s with pair := t.pair, sent := t.sent }) ∧
  (∀ (l : Nat) (bs pl : List Byte) (m : PairMsg) (off : Fin 0xC0000) (n : Fin 5) (s : State), live s = true → s.pair.inbox = [(l, bs)] → parsePair bs = some m → m.type = 9 → orderOf s m = .next → pairState s = 3 → taskRoles s m.task = [0] → reachOf s 0 = n.val → m.payload = beBytes 4 off.val ++ pl → off.val + pl.length ≤ 0xC0000 → s.ecc = [] → s.rot.fill = none → s.rot.window = none → getF s (F.RCH_PWR_PSTATE n) ≠ 2 → ((List.range pl.length).all (fun k => foldCW s n (off.val + k) == off.val + k) = true) → s.pair.track = none → 
      ∃ t, Sys2Proof.Machine.exec (.stateRx) s = .next t ∧
        bytesAt t (reachAddr n off.val) pl.length = pl ∧
        sameBytes (reachAddr n off.val) pl.length s t ∧
        t.pair.inbox = [] ∧
        sameRegs [] s t) ∧
  (∀ (l : Nat) (bs : List Byte) (m : PairMsg) (tk : Fin 32) (s : State), live s = true → calm s s = true → s.faults.coreStopped = false → s.pair.inbox = [(l, bs)] → parsePair bs = some m → m.type = 10 → orderOf s m = .next → pairState s = 3 → m.task = tk.val → mirrored s tk = true → 16 ≤ tk.val → mirroredTasks s = [tk.val] → m.cyc < 2 ^ 32 → 
      ∃ t, Sys2Proof.Machine.exec (.joinedRx) s = .next t ∧
        rd t (A.SCN_TASK_CYCNO tk) = w32 m.cyc ∧
        taskState t tk = 1 ∧
        hasJoined t tk = true ∧
        running t = true ∧
        pairState t = 4 ∧
        getF t F.SYS_STATUS_STANDBY = 2)

/-- A frame to the F-die carries the local outputs and, of the pending registers none of which has been sent, the oldest; a frame from
it carries status and what it has to report. A good frame from the F-die writes the input bytes, their quality and the status
registers; a bad one counts and changes nothing else; an entry into the safe state and bad frames that the F-die reports are
recorded, the entry by SILENCE as fault 0x49. Loss of the link makes field quality BAD, clears LINK and logs fault 0x48. A good
frame to the F-die updates its copy and acknowledges; a bad one counts there. Silence puts the F-die into the safe state with
cause SILENCE; power up leaves it safe with cause POWERUP and all outputs off, whatever the logic die does. At a commit instant
held bytes of the cycle are applied, those of an earlier cycle are reported late, and none is where the link is down. The model's
own choices that clauses rest on: log 52, 65, 67, 129, 130, 131 and 133. Each clause answers a next state by its conditions on the
state and the operands alone: so FIELD_LINK_FRAME_TX, FIELD_LINK_FRAME_RX, FIELD_LINK_LOSS, F_DIE_FRAME_RX, SILENCE_WATCHDOG,
F_DIE_POWER_UP and F_DIE_COMMIT_INSTANT complete. -/
def Obligations.FieldLink : Prop :=
  (∀ (pins : BitVec 32) (ia ib : Nat) (o : Fin 16) (s : State), live s = true → s.fio.on = true → s.scan.localNew = [] → 
      ∃ t, Sys2Proof.Machine.exec (.fieldLinkFrameTx pins ia ib) s = .next t ∧
        ((t.fio.down.map fun f => vget f.out o) = some (byteAt s (0x30020000 + o.val))) ∧
        (s.fio.sent ≠ [] ∨ (t.fio.down.map fun f => f.reg) = some (s.fio.pend.head?.map fun pa => (pa, fioMask pa (rd s pa)))) ∧
        ((t.fio.down.map fun f => f.safe) = some s.scan.sendSafe) ∧
        ((t.fio.down.map fun f => f.time) = some (time s)) ∧
        ((t.fio.up.map fun f => f.bytes.length) = some 64) ∧
        ((t.fio.up.map fun f => f.bytes.take 16) = some (leBytes 8 s.fio.filt.toNat ++ leBytes 8 s.fio.raw.toNat)) ∧
        ((t.fio.up.map fun f => (f.status.ia, f.status.ib)) = some (ia, ib)) ∧
        ((t.fio.up.map fun f => f.status.codes) = some s.fio.codes) ∧
        ((t.fio.up.map fun f => f.news) = some s.fio.news) ∧
        t.fio.frames = s.fio.frames + 1 ∧
        t = { s with fio := t.fio, scan := t.scan, sent := t.sent }) ∧
  (∀ (pins : BitVec 32) (ia ib : Nat) (o : Fin 16) (s : State), live s = true → s.fio.on = false → s.scan.localNew = [] → 
      ∃ t, Sys2Proof.Machine.exec (.fieldLinkFrameTx pins ia ib) s = .next t ∧
        ((t.fio.down.map fun f => vget f.out o) = some (byteAt s (0x30020000 + o.val))) ∧
        t.fio.up = s.fio.up ∧
        t.fio.frames = s.fio.frames ∧
        t = { s with fio := t.fio, scan := t.scan, sent := t.sent }) ∧
  (∀ (good : Bool) (f : UpFrame) (kk : Fin 64) (n : Fin 32) (s : State), live s = true → calm s s = true → good = true → s.fio.up = some f → isSet s F.FIO_STATUS_LINK = true → f.bytes.length = 64 → f.quality.length = 64 → f.edges = [] → f.ack = none → f.crc = none → f.restart = false → f.news = FdNews.none → 
      ∃ t, Sys2Proof.Machine.exec (.fieldLinkFrameRx good) s = .next t ∧
        bytesAt t 0x30000000 48 = f.bytes.take 48 ∧
        bytesAt t 0x30000030 4 = leBytes 4 (getF s F.FIO_AIROUND_ROUND) ∧
        bytesAt t 0x30000034 12 = f.bytes.drop 52 ∧
        bitsOf (byteAt t (0x300C0000 + kk.val / 4)).toNat (2 * (kk.val % 4)) 2 = max (f.quality.getD kk 0) (pendQuality s kk) % 4 ∧
        isSet t ⟨A.FIO_DOFAULT, n, 1⟩ = (f.status.codes.get n != 0) ∧
        isSet t ⟨A.FIO_GRP, F.FIO_GRP_TRIPA.lo, 1⟩ = f.status.trip.getLsbD 0 ∧
        isSet t F.FIO_GRP_VOKB = f.status.vok.getLsbD 1 ∧
        getF t F.FIO_RXSTAT_HIT = f.status.hit.toNat ∧
        isSet t F.FIO_STATUS_SAFE = f.status.safe ∧
        getF t F.FIO_GRPI_IA = f.status.ia % 2 ^ F.FIO_GRPI_IA.w ∧
        t.fio = { s.fio with up := none, good := s.fio.good + 1, lastGood := s.now, cmdWait := s.fio.cmdWait &&& 7, news := { s.fio.news with done := s.fio.news.done &&& 7 } } ∧
        sameBytesBut ((List.range 64).map (0x30000000 + ·) ++ (List.range 16).map (0x300C0000 + ·)) s t ∧
        sameRegs [A.FIO_DOFAULT, A.FIO_DOCODE 0, A.FIO_DOCODE 1, A.FIO_DOCODE 2, A.FIO_DOCODE 3, A.FIO_GRP, A.FIO_GRPI, A.FIO_RXSTAT, A.FIO_STATUS] s t ∧
        t = { s with regs := t.regs, mem := t.mem, fio := t.fio, sent := t.sent }) ∧
  (∀ (good : Bool) (f : UpFrame) (s : State), live s = true → calm s s = true → good = false → s.fio.up = some f → 
      ∃ t, Sys2Proof.Machine.exec (.fieldLinkFrameRx good) s = .next t ∧
        t.fio = { s.fio with up := none, good := 0 } ∧
        getF t F.FIO_LINKERR_LCRC = satAdd F.FIO_LINKERR_LCRC.w (getF s F.FIO_LINKERR_LCRC) 1 ∧
        sameRegs [A.FIO_LINKERR] s t ∧
        t = { s with regs := t.regs, fio := t.fio, sent := t.sent }) ∧
  (∀ (good : Bool) (f : UpFrame) (k : Nat) (s : State), live s = true → calm s s = true → good = true → s.fio.up = some f → isSet s F.FIO_STATUS_LINK = true → f.edges = [] → f.ack = none → f.crc = none → f.restart = false → f.news = { FdNews.none with entries := [2], bad := k } → merges s A.FIO_EVT 1 = false → 
      ∃ t, Sys2Proof.Machine.exec (.fieldLinkFrameRx good) s = .next t ∧
        hasEvent s t A.FIO_EVT 1 ∧
        t.faults.queue.map (·.code) = s.faults.queue.map (·.code) ++ [0x49] ∧
        getF t F.FIO_LINKERR_FCRC = satAdd F.FIO_LINKERR_FCRC.w (getF s F.FIO_LINKERR_FCRC) k ∧
        t.fio.news.bad = s.fio.news.bad - k ∧
        t.fio.news.entries = s.fio.news.entries.drop 1 ∧
        t = { s with evtLast := t.evtLast, regs := t.regs, mem := t.mem, fio := t.fio, faults := t.faults, sent := t.sent, lkp := { s.lkp with srcVal := t.lkp.srcVal } }) ∧
  (∀ (kk : Fin 64) (s : State), live s = true → isSet s F.FIO_STATUS_LINK = true → s.fio.lastGood + 8000 ≤ s.now → merges s A.FIO_EVT 0 = false → 
      ∃ t, Sys2Proof.Machine.exec (.fieldLinkLoss) s = .next t ∧
        isSet t F.FIO_STATUS_LINK = false ∧
        isSet t F.SYS_STATUS_FIELDOK = false ∧
        hasEvent s t A.FIO_EVT 0 ∧
        bitsOf (byteAt t (0x300C0000 + kk.val / 4)).toNat (2 * (kk.val % 4)) 2 = 2 ∧
        sameBytes 0x300C0000 16 s t ∧
        t.faults.queue.map (·.code) = s.faults.queue.map (·.code) ++ [0x48] ∧
        t.fio = { s.fio with good := 0 } ∧
        t = { s with evtLast := t.evtLast, regs := t.regs, mem := t.mem, fio := t.fio, faults := t.faults, sent := t.sent, lkp := { s.lkp with srcVal := t.lkp.srcVal } }) ∧
  (∀ (good sound : Bool) (f : DownFrame) (pa : Nat) (v : Word) (s : State), live s = true → good = true → sound = true → s.fio.on = true → s.fio.down = some f → f.reg = some (pa, v) → f.safe = false → f.cfgok = false → pa = A.FIO_DTEN → ((List.range 16).all (fun i => byteSafe s i) = true) → bitAt s.fio.causes 2 = true → 
      ∃ t, Sys2Proof.Machine.exec (.fDieFrameRx good sound) s = .next t ∧
        fdCopy t pa = v ∧
        t.fio.ack = some (pa, v) ∧
        t.fio.fgood = s.fio.fgood + 1 ∧
        t.fio.flastGood = s.now ∧
        fieldTime t = f.time + (s.now - f.sent) ∧
        t.fio.down = none ∧
        bitAt t.fio.causes 2 = true ∧
        t.fio.safe = s.fio.safe ∧
        t.fio.cmt = s.fio.cmt ∧
        t = { s with fio := t.fio, sent := t.sent }) ∧
  (∀ (good sound : Bool) (f : DownFrame) (s : State), live s = true → good = false → sound = true → s.fio.on = true → s.fio.down = some f → 
      ∃ t, Sys2Proof.Machine.exec (.fDieFrameRx good sound) s = .next t ∧
        t.fio = { s.fio with down := none, fgood := 0, news := { s.fio.news with bad := s.fio.news.bad + 1 } } ∧
        t = { s with fio := t.fio, sent := t.sent }) ∧
  (∀ (good sound : Bool) (f : DownFrame) (i : Fin 7) (s : State), live s = true → good = true → sound = true → s.fio.on = true → s.fio.down = some f → f.safe = true → f.reg = none → f.cfgok = false → ((List.range 16).all (fun i => vget f.tag i == vget s.fio.gotTag i || vget f.tag i == 0 || !vget s.fio.fresh i) = true) → 
      ∃ t, Sys2Proof.Machine.exec (.fDieFrameRx good sound) s = .next t ∧
        byteSafe t i = true ∧
        t.fio.cause = 1 ∧
        t.scan = { s.scan with sendSafe := false } ∧
        t = { s with fio := t.fio, scan := t.scan, sent := t.sent }) ∧
  (∀ (i : Fin 7) (s : State), s.fio.on = true → bitAt s.fio.causes 1 = false → s.fio.flastGood + 2000 * fdF s F.FIO_CTL_SWDTMO ≤ s.now → 
      ∃ t, Sys2Proof.Machine.exec (.silenceWatchdog) s = .next t ∧
        byteSafe t i = true ∧
        t.fio.cause = 2 ∧
        bitAt t.fio.causes 1 = true ∧
        t.fio.fgood = 0 ∧
        t.fio.news.entries = s.fio.news.entries ++ [2] ∧
        t = { s with fio := t.fio, sent := t.sent }) ∧
  (∀ (n : Fin 32) (i : Fin 7) (s : State), s.fio.on = false → 
      ∃ t, Sys2Proof.Machine.exec (.fDiePowerUp) s = .next t ∧
        t.fio.on = true ∧
        t.fio.matched = false ∧
        t.fio.cause = 3 ∧
        byteSafe t i = true ∧
        bitAt t.fio.causes 2 = true ∧
        outputOn t n = false ∧
        t.fio.news.entries = [3] ∧
        (outCode t n = (if vok s (n / 16) then 0 else 8)) ∧
        t = { s with fio := t.fio, sent := t.sent }) ∧
  (∀ (c : Fin 4) (x : Instant) (s : State), vget s.fio.finst c = some x → x.target ≤ fieldTime s → s.fio.on = true → fieldUp s = true → fdF s (F.FIO_CH_CTL_BYTES c) = 1 → x.cyc ≤ vget s.fio.gotTag 0 → byteSafe s 0 = false → 
      ∃ t, Sys2Proof.Machine.exec (.fDieCommitInstant c) s = .next t ∧
        vget t.fio.cmt 0 = vget s.fio.got 0 ∧
        vget t.fio.finst c = none ∧
        vget t.fio.fdone c = x.target + 1 ∧
        byteSafe t 0 = false ∧
        t.fio.news.late = s.fio.news.late ∧
        t = { s with fio := t.fio, sent := t.sent }) ∧
  (∀ (c : Fin 4) (x : Instant) (s : State), vget s.fio.finst c = some x → x.target ≤ fieldTime s → s.fio.on = true → fieldUp s = true → fdF s (F.FIO_CH_CTL_BYTES c) = 1 → vget s.fio.gotTag 0 < x.cyc → 
      ∃ t, Sys2Proof.Machine.exec (.fDieCommitInstant c) s = .next t ∧
        t.fio.cmt = s.fio.cmt ∧
        vget t.fio.finst c = none ∧
        t.fio.news.late = s.fio.news.late ++ [(fdF s (F.FIO_CH_CTL_TASK c), x.cyc)] ∧
        t = { s with fio := t.fio, sent := t.sent }) ∧
  (∀ (c : Fin 4) (x : Instant) (s : State), vget s.fio.finst c = some x → x.target ≤ fieldTime s → s.fio.on = true → fieldUp s = false → 
      ∃ t, Sys2Proof.Machine.exec (.fDieCommitInstant c) s = .next t ∧
        t.fio = { s.fio with finst := vset s.fio.finst c none, fdone := vset s.fio.fdone c (x.target + 1) } ∧
        t = { s with fio := t.fio, sent := t.sent })

/-- A write of FIO_DTEN takes the word and makes it pending for the F-die. A raw transition sets the raw state and its time; a raw
state that has held for the filter time becomes the filtered state, with a stamp where the edge is enabled; at its instant a
pulsed sample takes the levels of its group, at another time nothing. A read of the FIO_EDGE low word pops the oldest stamp; an
EDGEFLUSH empties the FIO FIFO and is sent to the F-die, whose FIFO the frame that brings it empties. A completed analog round
stores for each enabled channel the mean of its conversions in counts of its range (10 V and 20 mA read 32,000; in 4–20 mA, 4 mA
reads 0), with the wire break of 4–20 mA, and is to be reported. The rows of the F-die act whether or not the logic die runs. The
model's own choices that clauses rest on: log 15, 65, 134, 135 and 160. Each clause answers a next state by its conditions on the
state and the operands alone: so FIO_REGISTER_WRITE, RAW_INPUT_TRANSITION, FILTER_ACCEPT, PULSED_SAMPLE, FIO_EDGE_READ, EDGEFLUSH,
F_DIE_FRAME_RX and AI_ROUND_COMPLETE complete. -/
def Obligations.FieldInputs : Prop :=
  (∀ (who : Who) (r : Fin 4096) (v : Word) (s : State), live s = true → isPriv s who = true → wordAt 0x600D r = A.FIO_DTEN → isSet s F.FIO_CTL_LOCK = false → unguarded s who = true → 
      ∃ t, Sys2Proof.Machine.exec (.fioRegisterWrite who r v) s = .next t ∧
        rd t A.FIO_DTEN = v ∧
        (t.fio.pend = (if s.fio.pend.contains A.FIO_DTEN then s.fio.pend else s.fio.pend ++ [A.FIO_DTEN])) ∧
        t.fio.sent = s.fio.sent.filter (· != A.FIO_DTEN) ∧
        getF t F.FIO_STATUS_PEND = t.fio.pend.length % 2 ^ F.FIO_STATUS_PEND.w ∧
        sameRegs [A.FIO_DTEN, A.FIO_STATUS] s t ∧
        t = { s with regs := t.regs, fio := t.fio, sent := t.sent }) ∧
  (∀ (i : Fin 64) (v : Bool) (s : State), s.fio.on = true → pulsed s (i / 8) = false → s.fio.raw.getLsbD i ≠ v → 
      ∃ t, Sys2Proof.Machine.exec (.rawInputTransition i v) s = .next t ∧
        t.fio.raw.getLsbD i = v ∧
        vget t.fio.rawNow i = s.now ∧
        vget t.fio.rawTime i = fieldTime s ∧
        t.fio.filt = s.fio.filt ∧
        t = { s with fio := t.fio, sent := t.sent }) ∧
  (∀ (i : Fin 64) (s : State), s.fio.on = true → pulsed s (i / 8) = false → s.fio.filt.getLsbD i ≠ s.fio.raw.getLsbD i → vget s.fio.rawNow i + inputFilter s i ≤ s.now → stretchOver s i = true → 16 ≤ i.val → 
      ∃ t, Sys2Proof.Machine.exec (.filterAccept i) s = .next t ∧
        t.fio.filt.getLsbD i = s.fio.raw.getLsbD i ∧
        vget t.fio.accNow i = s.now ∧
        t.fio.raw = s.fio.raw ∧
        t.fio.fedges = s.fio.fedges ∧
        t = { s with fio := t.fio, sent := t.sent }) ∧
  (∀ (i : Fin 64) (s : State), s.fio.on = true → pulsed s (i / 8) = false → s.fio.filt.getLsbD i = false → s.fio.raw.getLsbD i = true → vget s.fio.rawNow i + inputFilter s i ≤ s.now → stretchOver s i = true → i.val < 16 → fdBit s A.FIO_EDGEEN i = true → s.fio.fedges.length < 64 → 
      ∃ t, Sys2Proof.Machine.exec (.filterAccept i) s = .next t ∧
        t.fio.filt.getLsbD i = true ∧
        t.fio.fedges = s.fio.fedges ++ [{ time := vget s.fio.rawTime i, rise := true, input := i.val, lost := s.fio.elost }] ∧
        t.fio.elost = false ∧
        t = { s with fio := t.fio, sent := t.sent }) ∧
  (∀ (g : Fin 8) (levels : BitVec 8) (j : Fin 8) (s : State), s.fio.on = true → pulsed s g = true → sampleDue s g = true → 
      ∃ t, Sys2Proof.Machine.exec (.pulsedSample g levels) s = .next t ∧
        t.fio.raw.getLsbD (8 * g.val + j.val) = levels.getLsbD j ∧
        sampleDue t g = false ∧
        t = { s with fio := t.fio, sent := t.sent }) ∧
  (∀ (g : Fin 8) (levels : BitVec 8) (s : State), sampleDue s g = false → 
      ∃ t, Sys2Proof.Machine.exec (.pulsedSample g levels) s = .next t ∧
        t = { s with sent := t.sent }) ∧
  (∀ (who : Who) (e : Edge) (s : State), live s = true → s.fio.edges = [e] → 
      ∃ t, Sys2Proof.Machine.exec (.fioEdgeRead who) s = .next t ∧
        t.fio = { s.fio with edges := [] } ∧
        getF t F.FIO_EDGESTAT_COUNT = 0 ∧
        SMap.get? t.rshadow (shadowKey A.FIO_EDGE who) = some (A.FIO_EDGE % 0x10000, w32 (edgeHigh e)) ∧
        sameRegs [A.FIO_EDGESTAT] s t ∧
        t = { s with regs := t.regs, fio := t.fio, rshadow := t.rshadow, sent := t.sent }) ∧
  (∀ (who : Who) (s : State), live s = true → isPriv s who = true → unguarded s who = true → 
      ∃ t, Sys2Proof.Machine.exec (.edgeflush who) s = .next t ∧
        t.fio = { s.fio with edges := [], cmd := s.fio.cmd ||| 4 } ∧
        getF t F.FIO_EDGESTAT_COUNT = 0 ∧
        sameRegs [A.FIO_EDGESTAT, A.FIO_CMD] s t ∧
        t = { s with regs := t.regs, fio := t.fio, sent := t.sent }) ∧
  (∀ (good sound : Bool) (f : DownFrame) (s : State), live s = true → good = true → sound = true → s.fio.on = true → s.fio.down = some f → f.safe = false → bitAt f.cmd 2 = true → 
      ∃ t, Sys2Proof.Machine.exec (.fDieFrameRx good sound) s = .next t ∧
        t.fio.fedges = [] ∧
        t = { s with fio := t.fio, sent := t.sent }) ∧
  (∀ (vals : List (List Int)) (c : Fin 8) (n : Nat) (s : State), aiBusy s = true → s.fio.aiAt + aiRoundNs s ≤ s.now → fdSet s (F.FIO_AI_EN c) = true → fdF s (F.FIO_AI_RANGE c) ≤ 1 → n = 2 ^ fdF s (F.FIO_AI_AVG c) → (2 * aiSum (vals.getD c []) n) % (625 * (n : Int)) = 0 → 
      ∃ t, Sys2Proof.Machine.exec (.aiRoundComplete vals) s = .next t ∧
        vget t.fio.ai c = BitVec.ofInt 16 (max (-32768) (min 32767 (2 * aiSum (vals.getD c []) n / (625 * (n : Int))))) ∧
        t.fio.news = { s.fio.news with rounds := s.fio.news.rounds + 1 } ∧
        t.fio.aiRun = false ∧
        t.fio.aiBreak.getLsbD c = false ∧
        t = { s with fio := t.fio, sent := t.sent }) ∧
  (∀ (vals : List (List Int)) (c : Fin 8) (n : Nat) (s : State), aiBusy s = true → s.fio.aiAt + aiRoundNs s ≤ s.now → fdSet s (F.FIO_AI_EN c) = true → fdF s (F.FIO_AI_RANGE c) = 2 → n = 2 ^ fdF s (F.FIO_AI_AVG c) → (aiSum (vals.getD c []) n - 4000000 * (n : Int)) % (500 * (n : Int)) = 0 → 
      ∃ t, Sys2Proof.Machine.exec (.aiRoundComplete vals) s = .next t ∧
        vget t.fio.ai c = BitVec.ofInt 16 (max (-32768) (min 32767 ((aiSum (vals.getD c []) n - 4000000 * (n : Int)) / (500 * (n : Int))))) ∧
        t.fio.aiBreak.getLsbD c = decide (aiSum (vals.getD c []) n < 1000000 * (n : Int)) ∧
        t.fio.aiRun = false ∧
        t = { s with fio := t.fio, sent := t.sent })

/-- A thermal shutdown, or an overcurrent of an output that has been driven for 1 ms, latches its code, is reported as DOFAULT and
switches the output off; an off output that reads on latches its code RBDLY after it was switched, and nothing before. A group
current above ILIM begins a count of 100 µs, after which the group switch opens with GROUP latched on its outputs that have no
code; a current within ILIM ends the count. A retry of AUTORST, 10 ms after the last, switches an output on again. A dark test
that does not reach the threshold latches its code and trips the group; one that does ends the condition. GRPRST and FAULTACK go
to the F-die; the frame that brings GRPRST closes a group whose cause has gone, FAULTACK clears codes whose condition has gone.
The loss of VOUT ends VOK and latches NOVOUT. All this happens at the F-die, whether or not the logic die runs. The model's own
choices that clauses rest on: log 66, 68 and 132. Each clause answers a next state by its conditions on the state and the operands
alone: so OUTPUT_FAULT, GROUP_TRIP, AUTO_RESTART_RETRY, DARK_TEST_PULSE, GRPRST, FAULTACK, F_DIE_FRAME_RX and VOUT_CHANGE
complete. -/
def Obligations.FieldOutputs : Prop :=
  (∀ (n : Fin 32) (code : Fin 16) (present : Bool) (s : State), s.fio.on = true → present = true → (code.val = 2 ∨ (code.val = 1 ∧ driven s n = true ∧ vget s.fio.drvAt n + 1000000 ≤ s.now)) → outCode s n = 0 → 
      ∃ t, Sys2Proof.Machine.exec (.outputFault n code present) s = .next t ∧
        outCode t n = code.val ∧
        t.fio.off.getLsbD n = true ∧
        condOf t n code = true ∧
        outputOn t n = false ∧
        t.fio.news = { s.fio.news with events := s.fio.news.events ++ [2] } ∧
        t = { s with fio := t.fio, sent := t.sent }) ∧
  (∀ (n : Fin 32) (code : Fin 16) (present : Bool) (s : State), s.fio.on = true → present = true → code.val = 4 → driven s n = false → vget s.fio.drvAt n + readDelay s ≤ s.now → outCode s n = 0 → 
      ∃ t, Sys2Proof.Machine.exec (.outputFault n code present) s = .next t ∧
        outCode t n = 4 ∧
        condOf t n 4 = true ∧
        t.fio.off = s.fio.off ∧
        t.fio.news = { s.fio.news with events := s.fio.news.events ++ [2] } ∧
        t = { s with fio := t.fio, sent := t.sent }) ∧
  (∀ (n : Fin 32) (code : Fin 16) (present : Bool) (s : State), s.fio.on = true → present = true → code.val = 4 → s.now < vget s.fio.drvAt n + readDelay s → 
      ∃ t, Sys2Proof.Machine.exec (.outputFault n code present) s = .next t ∧
        t = { s with sent := t.sent }) ∧
  (∀ (n : Fin 32) (code : Fin 16) (present : Bool) (s : State), s.fio.on = true → present = false → 
      ∃ t, Sys2Proof.Machine.exec (.outputFault n code present) s = .next t ∧
        condOf t n code = false ∧
        t.fio = { s.fio with conds := t.fio.conds } ∧
        t = { s with fio := t.fio, sent := t.sent }) ∧
  (∀ (g : Fin 2) (ma h : Nat) (j : Fin 16) (s : State), s.fio.on = true → tripped s g = false → groupLimit s g < ma → vget s.fio.overAt g = some h → h + 100000 ≤ s.now → outCode s (16 * g + j) = 0 → 
      ∃ t, Sys2Proof.Machine.exec (.groupTrip (g, ma)) s = .next t ∧
        tripped t g = true ∧
        outCode t (16 * g + j) = 7 ∧
        t.fio.news.events.getLast? = some 3 ∧
        outputOn t (16 * g + j) = false ∧
        t = { s with fio := t.fio, sent := t.sent }) ∧
  (∀ (g : Fin 2) (ma : Nat) (s : State), s.fio.on = true → tripped s g = false → groupLimit s g < ma → vget s.fio.overAt g = none → 
      ∃ t, Sys2Proof.Machine.exec (.groupTrip (g, ma)) s = .next t ∧
        t.fio = { s.fio with overAt := vset s.fio.overAt g (some s.now) } ∧
        t = { s with fio := t.fio, sent := t.sent }) ∧
  (∀ (g : Fin 2) (ma : Nat) (s : State), s.fio.on = true → tripped s g = false → ma ≤ groupLimit s g → 
      ∃ t, Sys2Proof.Machine.exec (.groupTrip (g, ma)) s = .next t ∧
        t.fio = { s.fio with overAt := vset s.fio.overAt g none } ∧
        t = { s with fio := t.fio, sent := t.sent }) ∧
  (∀ (n : Fin 32) (s : State), s.fio.on = true → s.fio.off.getLsbD n = true → fdBit s A.FIO_AUTORST n = true → commanded s n = true → overloaded s n = false → vget s.fio.offAt n + 10000000 ≤ s.now → 
      ∃ t, Sys2Proof.Machine.exec (.autoRestartRetry n) s = .next t ∧
        t.fio.off.getLsbD n = false ∧
        t.fio = { s.fio with off := t.fio.off, offAt := vset s.fio.offAt n s.now, conds := t.fio.conds, drv := t.fio.drv, drvAt := t.fio.drvAt } ∧
        condOf t n 1 = false ∧
        t = { s with fio := t.fio, sent := t.sent }) ∧
  (∀ (n : Fin 32) (low : Bool) (s : State), low = false → driven s n = true → fdBit s A.FIO_DTEN n = true → darkWidth s ≤ darkPos s n + 10 → darkPos s n ≤ darkWidth s → outCode s n = 0 → 
      ∃ t, Sys2Proof.Machine.exec (.darkTestPulse n low) s = .next t ∧
        outCode t n = 6 ∧
        tripped t (n / 16) = true ∧
        outputOn t n = false ∧
        condOf t n 6 = true ∧
        t = { s with fio := t.fio, sent := t.sent }) ∧
  (∀ (n : Fin 32) (low : Bool) (s : State), low = true → driven s n = true → fdBit s A.FIO_DTEN n = true → darkWidth s ≤ darkPos s n + 10 → darkPos s n ≤ darkWidth s → 
      ∃ t, Sys2Proof.Machine.exec (.darkTestPulse n low) s = .next t ∧
        condOf t n 6 = false ∧
        t.fio = { s.fio with conds := t.fio.conds } ∧
        t = { s with fio := t.fio, sent := t.sent }) ∧
  (∀ (n : Fin 32) (low : Bool) (s : State), (fdBit s A.FIO_DTEN n = false ∨ driven s n = false) → 
      ∃ t, Sys2Proof.Machine.exec (.darkTestPulse n low) s = .next t ∧
        t = { s with sent := t.sent }) ∧
  (∀ (who : Who) (s : State), live s = true → isPriv s who = true → unguarded s who = true → 
      ∃ t, Sys2Proof.Machine.exec (.grprst who) s = .next t ∧
        t.fio = { s.fio with cmd := s.fio.cmd ||| 2 } ∧
        sameRegs [A.FIO_CMD] s t ∧
        t = { s with regs := t.regs, fio := t.fio, sent := t.sent }) ∧
  (∀ (who : Who) (s : State), live s = true → isPriv s who = true → unguarded s who = true → 
      ∃ t, Sys2Proof.Machine.exec (.faultack who) s = .next t ∧
        t.fio = { s.fio with cmd := s.fio.cmd ||| 1 } ∧
        sameRegs [A.FIO_CMD] s t ∧
        t = { s with regs := t.regs, fio := t.fio, sent := t.sent }) ∧
  (∀ (good sound : Bool) (f : DownFrame) (g : Fin 2) (s : State), live s = true → good = true → sound = true → s.fio.on = true → s.fio.down = some f → f.safe = false → f.reg = none → f.cfgok = false → bitAt f.cmd 1 = true → tripCause s g = false → 
      ∃ t, Sys2Proof.Machine.exec (.fDieFrameRx good sound) s = .next t ∧
        tripped t g = false ∧
        t = { s with fio := t.fio, sent := t.sent }) ∧
  (∀ (good sound : Bool) (f : DownFrame) (n : Fin 32) (s : State), live s = true → good = true → sound = true → s.fio.on = true → s.fio.down = some f → f.safe = false → f.reg = none → f.cfgok = false → bitAt f.cmd 0 = true → condPresent s n = false → overloaded s n = false → 
      ∃ t, Sys2Proof.Machine.exec (.fDieFrameRx good sound) s = .next t ∧
        outCode t n = 0 ∧
        t.fio.off.getLsbD n = false ∧
        t = { s with fio := t.fio, sent := t.sent }) ∧
  (∀ (g : Fin 2) (present : Bool) (j : Fin 16) (s : State), s.fio.on = true → present = false → vok s g = true → outCode s (16 * g + j) = 0 → 
      ∃ t, Sys2Proof.Machine.exec (.voutChange g present) s = .next t ∧
        vok t g = false ∧
        outCode t (16 * g + j) = 8 ∧
        outputOn t (16 * g + j) = false ∧
        t.fio.news.events.getLast? = some 8 ∧
        t = { s with fio := t.fio, sent := t.sent }) ∧
  (∀ (g : Fin 2) (present : Bool) (s : State), s.fio.on = true → present = true → vok s g = false → 
      ∃ t, Sys2Proof.Machine.exec (.voutChange g present) s = .next t ∧
        vok t g = true ∧
        t.fio.codes = s.fio.codes ∧
        t.fio.news = { s.fio.news with events := s.fio.news.events ++ [8] } ∧
        t = { s with fio := t.fio, sent := t.sent })

/-- An admitted frame charges 32 cells to its class, takes its cells from the free list, is stored byte for byte and counts; one that
is not admitted is discarded, counted and raises its event. A whole frame with one destination gives the charge back, is charged
with its cells and joins the queue of its destination and class, or is discarded and counted there, its cells returned, where the
destination's link is down. A dispatched frame leaves its queue and its cells lie on ACTIVE planes, no more than two of lane H per
plane and destination. Hand-off passes the bytes of a frame whose cells the planes have carried to the destination, counts it and
frees its cells; before a cell of lane N a plane carries one of lane H that waits. An aged head of a queue is discarded with its
counts. The model's own choices that clauses rest on: log 69, 70 and 167. Each clause answers a next state by its conditions on
the state and the operands alone: so FRAME_INGRESS, FRAME_ENQUEUE, FRAME_DISPATCH, FRAME_HANDOFF and AGE_CHECK complete. -/
def Obligations.FramesThroughTheBasin : Prop :=
  (∀ (src : Fin 36) (f : InFrame) (c : Fin 8) (s : State), live s = true → calm s s = true → s.basin.inbox = [f] → f.src = src.val → f.cls = some c.val → admits s c = true → isSet s F.BAS_MIRCTL_EN = false → clsUse s c + 32 < 2 ^ 18 → f.bytes.length ≤ 2044 → cellsOf f.bytes.length ≤ getF s F.BAS_STATUS_FREE → s.basin.fresh + 32 < 131072 → 
      ∃ t, Sys2Proof.Machine.exec (.frameIngress src) s = .next t ∧
        t.basin = { s.basin with inbox := [], arriving := s.basin.arriving ++ [(f, c.val, (List.range (cellsOf f.bytes.length)).map (s.basin.fresh + ·))], fresh := s.basin.fresh + cellsOf f.bytes.length } ∧
        ((((List.range (cellsOf f.bytes.length)).map (s.basin.fresh + ·)).flatMap fun k => bytesAt t (cellAddr k) 64).take f.bytes.length = f.bytes) ∧
        getF t F.BAS_STATUS_FREE = getF s F.BAS_STATUS_FREE - cellsOf f.bytes.length ∧
        clsUse t c = clsUse s c + 32 ∧
        getF t (F.BAS_PORT_RXCNT_COUNT src) = (getF s (F.BAS_PORT_RXCNT_COUNT src) + 1) % 2 ^ (F.BAS_PORT_RXCNT_COUNT src).w ∧
        sameRegs [A.BAS_STATUS, A.BAS_CLS_USE c, A.BAS_PORT_RXCNT src] s t ∧
        sameBytes (cellAddr s.basin.fresh) (64 * cellsOf f.bytes.length) s t ∧
        t = { s with regs := t.regs, mem := t.mem, basin := t.basin, sent := t.sent }) ∧
  (∀ (src : Fin 36) (f : InFrame) (c : Fin 8) (s : State), live s = true → calm s s = true → s.basin.inbox = [f] → f.src = src.val → f.cls = some c.val → admits s c = false → isSet s F.BAS_MIRCTL_EN = false → merges s A.BAS_EVT 3 = false → 
      ∃ t, Sys2Proof.Machine.exec (.frameIngress src) s = .next t ∧
        t.basin = { s.basin with inbox := [] } ∧
        getF t (F.BAS_PORT_IDROP_COUNT src) = satAdd (F.BAS_PORT_IDROP_COUNT src).w (getF s (F.BAS_PORT_IDROP_COUNT src)) 1 ∧
        getF t (F.BAS_CLS_DROP_ADMIT c) = satAdd (F.BAS_CLS_DROP_ADMIT c).w (getF s (F.BAS_CLS_DROP_ADMIT c)) 1 ∧
        hasEvent s t A.BAS_EVT 3 ∧
        sameRegs ([A.BAS_PORT_IDROP src, A.BAS_CLS_DROP c, A.BAS_EVT] ++ pendWords) s t ∧
        t = { s with evtLast := t.evtLast, regs := t.regs, basin := t.basin, sent := t.sent, lkp := { s.lkp with srcVal := t.lkp.srcVal } }) ∧
  (∀ (src d : Fin 36) (f : InFrame) (c : Fin 8) (cs : List Nat) (s : State), live s = true → calm s s = true → s.basin.arriving = [(f, c.val, cs)] → f.src = src.val → f.direct = some d.val → d.val ≠ 32 → d.val ≠ src.val → (¬ (28 ≤ d.val ∧ d.val < 32)) → portUp s d = true → 60 ≤ f.bytes.length → f.bytes.length ≤ 2044 → isSet s (F.BAS_PORT_CFG_LEARN src) = false → cs.length = cellsOf f.bytes.length → s.basin.frames = [] → 32 ≤ clsUse s c → 
      ∃ t, Sys2Proof.Machine.exec (.frameEnqueue src) s = .next t ∧
        t.basin.arriving = [] ∧
        t.basin.queues = s.basin.queues ++ [{ dest := d.val, cls := c.val, id := s.basin.nextId }] ∧
        t.basin.nextId = s.basin.nextId + 1 ∧
        ((frameById t s.basin.nextId).map (fun x => (x.src, x.cls, x.len, x.stamp, x.todo)) = some (src.val, c.val, f.bytes.length, time s, 1)) ∧
        (frameById t s.basin.nextId).map (·.cells) = some cs ∧
        t.basin.freed = s.basin.freed ∧
        clsUse t c = (clsUse s c - 32 + cellsOf f.bytes.length) % 2 ^ (F.BAS_CLS_USE_CELLS c).w ∧
        sameRegs [A.BAS_CLS_USE c] s t ∧
        t = { s with regs := t.regs, basin := t.basin, sent := t.sent }) ∧
  (∀ (src d : Fin 36) (f : InFrame) (c : Fin 8) (cs : List Nat) (s : State), live s = true → calm s s = true → s.basin.arriving = [(f, c.val, cs)] → f.src = src.val → f.direct = some d.val → d.val ≠ 32 → d.val ≠ src.val → (¬ (28 ≤ d.val ∧ d.val < 32)) → portUp s d = false → s.basin.queues = [] → isSet s F.BAS_MIRCTL_EN = false → 60 ≤ f.bytes.length → f.bytes.length ≤ 2044 → isSet s (F.BAS_PORT_CFG_LEARN src) = false → cs.length = cellsOf f.bytes.length → getF s F.BAS_STATUS_FREE + cs.length < 2 ^ 18 → s.basin.frames = [] → 32 ≤ clsUse s c → 
      ∃ t, Sys2Proof.Machine.exec (.frameEnqueue src) s = .next t ∧
        t.basin.arriving = [] ∧
        t.basin.freed = s.basin.freed ++ cs ∧
        t.basin.queues = [] ∧
        t.basin.frames = [] ∧
        t.basin.nextId = s.basin.nextId + 1 ∧
        getF t F.BAS_STATUS_FREE = getF s F.BAS_STATUS_FREE + cs.length ∧
        clsUse t c = clsUse s c - 32 ∧
        getF t (F.BAS_PORT_EDROP_COUNT d) = satAdd (F.BAS_PORT_EDROP_COUNT d).w (getF s (F.BAS_PORT_EDROP_COUNT d)) 1 ∧
        sameRegs [A.BAS_STATUS, A.BAS_CLS_USE c, A.BAS_PORT_EDROP d] s t ∧
        t = { s with regs := t.regs, basin := t.basin, ecc := t.ecc, sent := t.sent }) ∧
  (∀ (dest : Fin 36) (hi : Bool) (f : BFrame) (s : State), live s = true → calm s s = true → hi = true → 32 ≤ dest.val → s.basin.queues = [{ dest := dest.val, cls := 7, id := f.id }] → s.basin.frames = [f] → f.cls = 7 → tooOld s f = false → s.basin.flights = [] → s.basin.egress = [] → f.cells.length ≤ 8 → planeState s 0 = 0 → 
      ∃ t, Sys2Proof.Machine.exec (.frameDispatch dest hi) s = .next t ∧
        t.basin.queues = [] ∧
        t.basin.flights.length = 1 ∧
        (t.basin.flights.all (fun x => x.dest == dest.val && x.hi && x.id == f.id && x.left + x.cells.length == f.cells.length && x.cells.all fun p => planeState s p.plane == 0 && !p.carried) = true) ∧
        (2 < f.cells.length ∨ t.basin.flights.all (fun x => x.left == 0) = true) ∧
        ((List.range 4).all (fun k => decide (creditsUsed t.basin.flights dest true k ≤ 2)) = true) ∧
        t = { s with basin := { s.basin with queues := [], lanes := t.basin.lanes, flights := t.basin.flights, planeAt := t.basin.planeAt }, sent := [] }) ∧
  (∀ (dest : Fin 36) (hi : Bool) (f : BFrame) (fl : Flight) (s : State), live s = true → calm s s = true → dest.val < 24 → s.basin.flights = [fl] → fl.dest = dest.val → fl.hi = hi → fl.id = f.id → fl.whole = true → s.basin.frames = [f] → f.todo = 1 → s.ecc = [] → isSet s F.BAS_MIRCTL_EN = false → f.cls < 8 → f.cells.length ≤ clsUse s f.cls → getF s F.BAS_STATUS_FREE + f.cells.length < 2 ^ 18 → 
      ∃ t, Sys2Proof.Machine.exec (.frameHandoff dest hi) s = .next t ∧
        t.basin.flights = [] ∧
        t.basin.frames = [] ∧
        t.basin.egress = s.basin.egress ++ [{ dest := dest.val, src := f.src, cls := f.cls, stamp := f.stamp, bytes := frameBytes s f }] ∧
        t.basin.freed = s.basin.freed ++ f.cells ∧
        clsUse t f.cls = clsUse s f.cls - f.cells.length ∧
        getF t F.BAS_STATUS_FREE = getF s F.BAS_STATUS_FREE + f.cells.length ∧
        getF t (F.BAS_PORT_TXCNT_COUNT dest) = (getF s (F.BAS_PORT_TXCNT_COUNT dest) + 1) % 2 ^ (F.BAS_PORT_TXCNT_COUNT dest).w ∧
        sameRegs [A.BAS_STATUS, A.BAS_CLS_USE f.cls, A.BAS_PORT_TXCNT dest] s t ∧
        t = { s with regs := t.regs, basin := t.basin, sent := t.sent }) ∧
  (∀ (dest : Fin 36) (hi : Bool) (f : BFrame) (fl : Flight) (k : Fin 4) (n : Nat) (s : State), live s = true → calm s s = true → dest.val < 24 → s.basin.flights = [fl] → fl.dest = dest.val → fl.hi = hi → fl.id = f.id → fl.left = 0 → fl.cells = [⟨n, k.val, false⟩] → planeState s k < 2 → s.basin.frames = [f] → f.todo = 1 → s.ecc = [] → isSet s F.BAS_MIRCTL_EN = false → f.cls < 8 → f.cells.length ≤ clsUse s f.cls → getF s F.BAS_STATUS_FREE + f.cells.length < 2 ^ 18 → 
      ∃ t, Sys2Proof.Machine.exec (.frameHandoff dest hi) s = .next t ∧
        t.basin.flights = [] ∧
        t.basin.frames = [] ∧
        t.basin.egress = s.basin.egress ++ [{ dest := dest.val, src := f.src, cls := f.cls, stamp := f.stamp, bytes := frameBytes s f }] ∧
        t.basin.freed = s.basin.freed ++ f.cells ∧
        clsUse t f.cls = clsUse s f.cls - f.cells.length ∧
        getF t F.BAS_STATUS_FREE = getF s F.BAS_STATUS_FREE + f.cells.length ∧
        getF t (F.BAS_PORT_TXCNT_COUNT dest) = (getF s (F.BAS_PORT_TXCNT_COUNT dest) + 1) % 2 ^ (F.BAS_PORT_TXCNT_COUNT dest).w ∧
        sameRegs [A.BAS_STATUS, A.BAS_CLS_USE f.cls, A.BAS_PORT_TXCNT dest] s t ∧
        t = { s with regs := t.regs, basin := t.basin, sent := t.sent }) ∧
  (∀ (dest : Fin 36) (hi : Bool) (f : BFrame) (fl gl : Flight) (k : Fin 4) (n m : Nat) (s : State), live s = true → calm s s = true → dest.val < 24 → s.basin.flights = [fl, gl] → fl.dest = dest.val → fl.hi = hi → hi = false → gl.hi = true → gl.dest < 36 → fl.id = f.id → gl.id ≠ f.id → fl.left = 0 → fl.cells = [⟨n, k.val, false⟩] → gl.left = 0 → gl.cells = [⟨m, k.val, false⟩] → planeState s k < 2 → s.basin.frames = [f] → f.todo = 1 → s.ecc = [] → isSet s F.BAS_MIRCTL_EN = false → 
      ∃ t, Sys2Proof.Machine.exec (.frameHandoff dest hi) s = .next t ∧
        t.basin.flights = [{ gl with cells := [] }] ∧
        t.basin.frames = [] ∧
        t.basin.egress = s.basin.egress ++ [{ dest := dest.val, src := f.src, cls := f.cls, stamp := f.stamp, bytes := frameBytes s f }] ∧
        t = { s with regs := t.regs, basin := t.basin, sent := t.sent }) ∧
  (∀ (f : BFrame) (d : Fin 36) (s : State), live s = true → calm s s = true → s.basin.queues = [{ dest := d.val, cls := f.cls, id := f.id }] → s.basin.frames = [f] → f.todo = 1 → f.cls < 8 → portUp s d = true → tooOld s f = true → isSet s F.BAS_MIRCTL_EN = false → merges s A.BAS_EVT 4 = false → 
      ∃ t, Sys2Proof.Machine.exec (.ageCheck) s = .next t ∧
        t.basin = { s.basin with queues := [], frames := [], freed := s.basin.freed ++ f.cells } ∧
        getF t (F.BAS_PORT_EDROP_COUNT d) = satAdd (F.BAS_PORT_EDROP_COUNT d).w (getF s (F.BAS_PORT_EDROP_COUNT d)) 1 ∧
        getF t (F.BAS_CLS_DROP_AGED f.cls) = satAdd (F.BAS_CLS_DROP_AGED f.cls).w (getF s (F.BAS_CLS_DROP_AGED f.cls)) 1 ∧
        hasEvent s t A.BAS_EVT 4 ∧
        sameRegs ([A.BAS_STATUS, A.BAS_CLS_USE f.cls, A.BAS_CLS_DROP f.cls, A.BAS_PORT_EDROP d, A.BAS_EVT] ++ pendWords) s t ∧
        t = { s with evtLast := t.evtLast, regs := t.regs, basin := t.basin, ecc := t.ecc, sent := t.sent, lkp := { s.lkp with srcVal := t.lkp.srcVal } })

/-- A plane that holds cells and has delivered none for PSTALL becomes FAILED, its frames are lost and fault 0x20 is logged. Clearing
a bit of EN drains an ACTIVE plane, setting it returns an OUT one; a DRAINING plane delivers its cells and becomes OUT; RESTORE
returns a FAILED plane whose check passes. A write of RP frees the records wholly behind it. A write of WP enters nothing where
the ring is disabled. RESUME leaves ERROR. The model's own choices that clauses rest on: log 71. Each clause answers a next state
by its conditions on the state and the operands alone: so PLANE_STALL, PLANE_EN_WRITE, PLANE_DRAINED, PLANE_RESTORE,
RING_RP_WRITE, TX_RING_WP_WRITE and RING_RESUME complete. -/
def Obligations.PlanesAndRings : Prop :=
  (∀ (kk : Fin 4) (sound : Bool) (fl : Flight) (s : State), live s = true → calm s s = true → planeState s kk ≠ 3 → s.basin.flights = [fl] → fl.heldBy kk = true → s.basin.frames = [] → vget s.basin.planeAt kk + 100 * getF s F.BAS_CTL_PSTALL ≤ s.now → merges s A.BAS_EVT 0 = false → 
      ∃ t, Sys2Proof.Machine.exec (.planeStall kk sound) s = .next t ∧
        planeState t kk = 3 ∧
        t.basin.flights = [] ∧
        t.basin.sound.getLsbD kk = sound ∧
        hasEvent s t A.BAS_EVT 0 ∧
        t.faults.queue.map (·.code) = s.faults.queue.map (·.code) ++ [0x20] ∧
        t = { s with evtLast := t.evtLast, regs := t.regs, basin := t.basin, faults := t.faults, sent := t.sent, lkp := { s.lkp with srcVal := t.lkp.srcVal } }) ∧
  (∀ (kk : Fin 4) (sound : Bool) (s : State), live s = true → calm s s = true → s.now < vget s.basin.planeAt kk + 100 * getF s F.BAS_CTL_PSTALL → 
      ∃ t, Sys2Proof.Machine.exec (.planeStall kk sound) s = .next t ∧
        t = { s with sent := t.sent }) ∧
  (∀ (who : Who) (v : Word) (kk : Fin 4) (s : State), live s = true → isPriv s who = true → v.toNat < 16 → v.toNat ≠ 0 → bitAt v.toNat kk = false → planeState s kk = 0 → unguarded s who = true → 
      ∃ t, Sys2Proof.Machine.exec (.planeEnWrite who v) s = .next t ∧
        planeState t kk = 1 ∧
        getF t ⟨A.BAS_PLANE, 0, 4⟩ = v.toNat ∧
        sameRegs [A.BAS_PLANE] s t ∧
        t = { s with regs := t.regs, sent := t.sent }) ∧
  (∀ (who : Who) (v : Word) (kk : Fin 4) (s : State), live s = true → isPriv s who = true → v.toNat < 16 → bitAt v.toNat kk = true → planeState s kk = 2 → isSet s ⟨A.BAS_PLANE, 4 + kk.val, 1⟩ = false → unguarded s who = true → 
      ∃ t, Sys2Proof.Machine.exec (.planeEnWrite who v) s = .next t ∧
        planeState t kk = 0 ∧
        getF t ⟨A.BAS_PLANE, 0, 4⟩ = v.toNat ∧
        sameRegs [A.BAS_PLANE] s t ∧
        t = { s with regs := t.regs, sent := t.sent }) ∧
  (∀ (kk : Fin 4) (s : State), live s = true → planeState s kk = 1 → planeHolds s kk = false → 
      ∃ t, Sys2Proof.Machine.exec (.planeDrained kk) s = .next t ∧
        planeState t kk = 2 ∧
        sameRegs [A.BAS_PLANE] s t ∧
        t = { s with regs := t.regs, sent := t.sent }) ∧
  (∀ (kk : Fin 4) (fl : Flight) (n m : Nat) (s : State), live s = true → planeState s kk = 1 → s.basin.flights = [fl] → fl.dest < 36 → fl.cells = [⟨n, kk.val, false⟩, ⟨m, kk.val, false⟩] → 
      ∃ t, Sys2Proof.Machine.exec (.planeDrained kk) s = .next t ∧
        planeState t kk = 2 ∧
        t.basin.flights = [{ fl with cells := [⟨n, kk.val, true⟩, ⟨m, kk.val, true⟩] }] ∧
        sameRegs [A.BAS_PLANE] s t ∧
        t = { s with regs := t.regs, basin := t.basin, sent := t.sent }) ∧
  (∀ (who : Who) (kk : Fin 4) (s : State), live s = true → isPriv s who = true → planeState s kk = 3 → s.basin.sound.getLsbD kk = true → isSet s ⟨A.BAS_PLANE, kk, 1⟩ = true → merges s A.BAS_EVT 1 = false → unguarded s who = true → 
      ∃ t, Sys2Proof.Machine.exec (.planeRestore who) s = .next t ∧
        planeState t kk = 0 ∧
        isSet t ⟨A.BAS_EVT, 1, 1⟩ = true ∧
        sameRegs ([A.BAS_PLANE, A.BAS_EVT] ++ pendWords) s t ∧
        t = { s with evtLast := t.evtLast, regs := t.regs, sent := t.sent, lkp := { s.lkp with srcVal := t.lkp.srcVal } }) ∧
  (∀ (who : Who) (kk : Fin 32) (v : Word) (s : State), live s = true → calm s s = true → isPriv s who = true → v.toNat = getF s (F.BAS_RX_WP_INDEX kk) → v.toNat < ringLines (getF s (F.BAS_RX_RING_SIZE kk)) → v.toNat ≠ getF s (F.BAS_RX_RP_INDEX kk) → getF s (F.BAS_RX_RP_INDEX kk) < ringLines (getF s (F.BAS_RX_RING_SIZE kk)) → s.basin.records = [(kk.val, v.toNat)] → unguarded s who = true → 
      ∃ t, Sys2Proof.Machine.exec (.ringRpWrite who kk v) s = .next t ∧
        getF t (F.BAS_RX_RP_INDEX kk) = v.toNat ∧
        t.basin = { s.basin with records := [] } ∧
        getF t (F.BAS_RX_STAT_COUNT kk) = 0 ∧
        sameRegs [A.BAS_RX_RP kk, A.BAS_RX_STAT kk] s t ∧
        t = { s with regs := t.regs, basin := t.basin, sent := t.sent }) ∧
  (∀ (who : Who) (r : Fin 4) (v : Word) (s : State), live s = true → calm s s = true → isPriv s who = true → getF s (F.BAS_TX_STAT_STATE r) ≠ 1 → v.toNat < 8 → unguarded s who = true → 
      ∃ t, Sys2Proof.Machine.exec (.txRingWpWrite who r v) s = .next t ∧
        getF t (F.BAS_TX_WP_INDEX r) = v.toNat ∧
        sameRegs [A.BAS_TX_WP r] s t ∧
        t = { s with regs := t.regs, sent := t.sent }) ∧
  (∀ (who : Who) (r : Fin 4) (v : Word) (n : Fin 5) (s : State), live s = true → calm s s = true → isPriv s who = true → rd s (A.BAS_TX_RING r) = 0x80000000#32 → getF s (F.BAS_TX_STAT_STATE r) = 1 → getF s (F.BAS_TX_RP_INDEX r) = 0 → v.toNat = 2 → reachOf s r = n.val → gateAdmits s n 0 45 = true → ((List.range 10).all (fun q => foldCW s n (8 * q) == 8 * q) = true) → reachState s n = 0 → getF s (F.RCH_PWR_PSTATE n) = 0 → s.ecc = [] → memNat s (reachAddr n 8) 4 = 60 → unguarded s who = true → 
      ∃ t, Sys2Proof.Machine.exec (.txRingWpWrite who r v) s = .next t ∧
        getF t (F.BAS_TX_WP_INDEX r) = 2 ∧
        getF t (F.BAS_TX_RP_INDEX r) = 2 ∧
        t.basin = { s.basin with inbox := s.basin.inbox ++ [{ src := 28 + r.val, bytes := bytesAt s (reachAddr n 16) 60, cls := some 0, direct := none }] } ∧
        sameRegs [A.BAS_TX_WP r, A.BAS_TX_RP r] s t ∧
        t = { s with regs := t.regs, basin := t.basin, sent := t.sent }) ∧
  (∀ (who : Who) (tx : Bool) (kk : Fin 32) (s : State), live s = true → calm s s = true → isPriv s who = true → tx = false → isSet s (F.BAS_RX_RING_EN kk) = true → getF s (F.BAS_RX_RING_SIZE kk) ≤ 6 → getF s (F.BAS_RX_STAT_STATE kk) = 2 → unguarded s who = true → 
      ∃ t, Sys2Proof.Machine.exec (.ringResume who tx kk) s = .next t ∧
        getF t (F.BAS_RX_STAT_STATE kk) = 1 ∧
        getF t (F.BAS_RX_STAT_CODE kk) = 0 ∧
        sameRegs [A.BAS_RX_RING kk, A.BAS_RX_STAT kk] s t ∧
        t = { s with regs := t.regs, sent := t.sent })

/-- A sweep, AGETIME ÷ 2 after the last, keeps static entries and those with HIT, and clears HIT. READ returns the entry of its index,
LOOKUP the entry of BAS_MACADDR or RESULT 1, WRITE makes a static entry for MACDATA.PORT, DELETE removes an entry, FLUSH removes
the dynamic ones of a port or all. The seed is set only while the table is empty. The model's own choices that clauses rest on:
log 22. Each clause answers a next state by its conditions on the state and the operands alone: so MAC_AGE_SWEEP, MAC_READ,
MAC_LOOKUP, MAC_WRITE, MAC_DELETE, MAC_FLUSH and HSEED_WRITE complete. -/
def Obligations.MacTable : Prop :=
  (∀ (i : Nat) (e : MacEntry) (s : State), live s = true → s.basin.mac = [(i, e)] → s.basin.sweepAt + 500000000 * getF s F.BAS_CTL_AGETIME ≤ s.now → (e.static = true ∨ e.hit = true) → 
      ∃ t, Sys2Proof.Machine.exec (.macAgeSweep) s = .next t ∧
        t.basin = { s.basin with mac := [(i, { e with hit := false })], sweepAt := s.now } ∧
        getF t F.BAS_MACUSE_VALID = 1 ∧
        sameRegs [A.BAS_MACUSE] s t ∧
        t = { s with regs := t.regs, basin := t.basin, sent := t.sent }) ∧
  (∀ (i : Nat) (e : MacEntry) (s : State), live s = true → s.basin.mac = [(i, e)] → s.basin.sweepAt + 500000000 * getF s F.BAS_CTL_AGETIME ≤ s.now → e.static = false → e.hit = false → 
      ∃ t, Sys2Proof.Machine.exec (.macAgeSweep) s = .next t ∧
        t.basin = { s.basin with mac := [], sweepAt := s.now } ∧
        getF t F.BAS_MACUSE_VALID = 0 ∧
        sameRegs [A.BAS_MACUSE] s t ∧
        t = { s with regs := t.regs, basin := t.basin, sent := t.sent }) ∧
  (∀ (s : State), live s = true → s.now < s.basin.sweepAt + 500000000 * getF s F.BAS_CTL_AGETIME → 
      ∃ t, Sys2Proof.Machine.exec (.macAgeSweep) s = .next t ∧
        t = { s with sent := t.sent }) ∧
  (∀ (who : Who) (i : Fin 16384) (e : MacEntry) (s : State), live s = true → isPriv s who = true → SMap.get? s.basin.mac i.val = some e → e.addr < 2 ^ 48 → e.port < 36 → unguarded s who = true → 
      ∃ t, Sys2Proof.Machine.exec (.macRead who i) s = .next t ∧
        rd64 t A.BAS_MACADDR = e.addr ∧
        getF t F.BAS_MACDATA_PORT = e.port ∧
        isSet t F.BAS_MACDATA_V = true ∧
        isSet t F.BAS_MACDATA_STATIC = e.static ∧
        isSet t F.BAS_MACDATA_HIT = e.hit ∧
        getF t F.BAS_MACDATA_RESULT = 0 ∧
        sameRegs [A.BAS_MACADDR, A.BAS_MACADDR + 4, A.BAS_MACDATA, A.BAS_MACCMD] s t ∧
        t = { s with regs := t.regs, sent := t.sent }) ∧
  (∀ (who : Who) (s : State), live s = true → isPriv s who = true → s.basin.mac = [] → unguarded s who = true → 
      ∃ t, Sys2Proof.Machine.exec (.macLookup who) s = .next t ∧
        getF t F.BAS_MACDATA_RESULT = 1 ∧
        isSet t F.BAS_MACDATA_V = false ∧
        sameRegs [A.BAS_MACDATA, A.BAS_MACCMD] s t ∧
        t = { s with regs := t.regs, sent := t.sent }) ∧
  (∀ (who : Who) (i : Fin 16384) (e : MacEntry) (s : State), live s = true → isPriv s who = true → macFind s (rd64 s A.BAS_MACADDR % 2 ^ 48) = some i.val → SMap.get? s.basin.mac i.val = some e → e.port < 36 → unguarded s who = true → 
      ∃ t, Sys2Proof.Machine.exec (.macLookup who) s = .next t ∧
        getF t F.BAS_MACDATA_RESULT = 0 ∧
        isSet t F.BAS_MACDATA_V = true ∧
        getF t F.BAS_MACDATA_PORT = e.port ∧
        getF t F.BAS_MACDATA_INDEX = i.val ∧
        sameRegs [A.BAS_MACDATA, A.BAS_MACCMD] s t ∧
        t = { s with regs := t.regs, sent := t.sent }) ∧
  (∀ (who : Who) (s : State), live s = true → isPriv s who = true → s.basin.mac = [] → (rd s (A.BAS_MACADDR + 4)).toNat < 65536 → unguarded s who = true → 
      ∃ t, Sys2Proof.Machine.exec (.macWrite who) s = .next t ∧
        t.basin.mac.map (·.2) = [{ addr := rd64 s A.BAS_MACADDR, port := getF s F.BAS_MACDATA_PORT, static := true, hit := false }] ∧
        getF t F.BAS_MACDATA_RESULT = 0 ∧
        isSet t F.BAS_MACDATA_V = true ∧
        getF t F.BAS_MACUSE_VALID = 1 ∧
        sameRegs [A.BAS_MACDATA, A.BAS_MACCMD, A.BAS_MACUSE] s t ∧
        t = { s with regs := t.regs, basin := t.basin, sent := t.sent }) ∧
  (∀ (who : Who) (i : Fin 16384) (e : MacEntry) (s : State), live s = true → isPriv s who = true → macFind s (rd64 s A.BAS_MACADDR % 2 ^ 48) = some i.val → s.basin.mac = [(i.val, e)] → unguarded s who = true → 
      ∃ t, Sys2Proof.Machine.exec (.macDelete who) s = .next t ∧
        t.basin = { s.basin with mac := [] } ∧
        getF t F.BAS_MACDATA_RESULT = 0 ∧
        isSet t F.BAS_MACDATA_V = false ∧
        getF t F.BAS_MACUSE_VALID = 0 ∧
        sameRegs [A.BAS_MACDATA, A.BAS_MACCMD, A.BAS_MACUSE] s t ∧
        t = { s with regs := t.regs, basin := t.basin, sent := t.sent }) ∧
  (∀ (who : Who) (all : Bool) (i j : Nat) (e e' : MacEntry) (s : State), live s = true → isPriv s who = true → all = true → s.basin.mac = [(i, e), (j, e')] → e.static = false → e'.static = true → unguarded s who = true → 
      ∃ t, Sys2Proof.Machine.exec (.macFlush who all) s = .next t ∧
        t.basin = { s.basin with mac := [(j, e')] } ∧
        getF t F.BAS_MACDATA_RESULT = 0 ∧
        getF t F.BAS_MACUSE_VALID = 1 ∧
        sameRegs [A.BAS_MACDATA, A.BAS_MACCMD, A.BAS_MACUSE] s t ∧
        t = { s with regs := t.regs, basin := t.basin, sent := t.sent }) ∧
  (∀ (who : Who) (v : Word) (s : State), live s = true → isPriv s who = true → SMap.get? s.wshadow (shadowKey A.BAS_HSEED who) = none → getF s F.BAS_MACUSE_VALID = 0 → v.toNat < 65536 → unguarded s who = true → 
      ∃ t, Sys2Proof.Machine.exec (.hseedWrite who v) s = .next t ∧
        rd t (A.BAS_HSEED + 4) &&& 0xFFFF#32 = v ∧
        sameRegs [A.BAS_HSEED + 4] s t ∧
        t = { s with regs := t.regs, sent := t.sent })

/-- Enabling a GA port starts training and a TS port is up at once; disabling makes LINK 0 with its event. Training ends with LINK 1
and the event; loss of the signal makes a GA port train again. SQI takes its value and a fall below SQIMIN is counted and raised.
A cable test of a disabled port starts, one of an enabled port is refused, and its end leaves result and distance. A privileged
read of a statistics counter or a station word clears it. The model's own choices that clauses rest on: log 15 and 74. Each clause
answers a next state by its conditions on the state and the operands alone: so ETH_ENABLE, ETH_DISABLE, LINK_UP, LINK_LOSS,
SQI_UPDATE, CABLE_TEST, CABLE_TEST_END, STATS_READ and STN_READ complete. -/
def Obligations.EthernetLink : Prop :=
  (∀ (who : Who) (p : Fin 24) (s : State), live s = true → isPriv s who = true → p.val < 8 → rd s (A.ETH_CTL p) = 0 → lstate s p = 0 → isSet s (F.ETH_STATUS_LINK p) = false → unguarded s who = true → 
      ∃ t, Sys2Proof.Machine.exec (.ethEnable who p) s = .next t ∧
        isSet t (F.ETH_CTL_EN p) = true ∧
        lstate t p = 1 ∧
        isSet t (F.ETH_STATUS_LINK p) = false ∧
        sameRegs [A.ETH_CTL p, A.ETH_STATUS p] s t ∧
        t = { s with regs := t.regs, sent := t.sent }) ∧
  (∀ (who : Who) (p : Fin 24) (s : State), live s = true → isPriv s who = true → 8 ≤ p.val → rd s (A.ETH_CTL p) = 0 → lstate s p = 0 → isSet s (F.ETH_STATUS_LINK p) = false → isSet s (F.ETH_PLCASTAT_OK p) = false → isSet s (F.ETH_PLCASTAT_COORD p) = false → merges s (A.ETH_EVT p) 0 = false → unguarded s who = true → 
      ∃ t, Sys2Proof.Machine.exec (.ethEnable who p) s = .next t ∧
        isSet t (F.ETH_CTL_EN p) = true ∧
        lstate t p = 2 ∧
        isSet t (F.ETH_STATUS_LINK p) = true ∧
        hasEvent s t (A.ETH_EVT p) 0 ∧
        sameRegs ([A.ETH_CTL p, A.ETH_STATUS p, A.ETH_EVT p] ++ pendWords) s t ∧
        t = { s with evtLast := t.evtLast, regs := t.regs, sent := t.sent, lkp := { s.lkp with srcVal := t.lkp.srcVal } }) ∧
  (∀ (who : Who) (p : Fin 24) (s : State), live s = true → isPriv s who = true → p.val < 8 → rd s (A.ETH_CTL p) = 0x80000000#32 → lstate s p = 2 → isSet s (F.ETH_STATUS_LINK p) = true → (s.port p).sending = none → merges s (A.ETH_EVT p) 0 = false → unguarded s who = true → 
      ∃ t, Sys2Proof.Machine.exec (.ethDisable who p) s = .next t ∧
        isSet t (F.ETH_CTL_EN p) = false ∧
        lstate t p = 0 ∧
        isSet t (F.ETH_STATUS_LINK p) = false ∧
        hasEvent s t (A.ETH_EVT p) 0 ∧
        (t.port p).next = none ∧
        (t.port p).backoff = none ∧
        t = { s with evtLast := t.evtLast, regs := t.regs, eth := t.eth, sent := t.sent, lkp := { s.lkp with srcVal := t.lkp.srcVal } }) ∧
  (∀ (p : Fin 24) (fast master : Bool) (s : State), live s = true → p.val < 8 → isSet s (F.ETH_CTL_EN p) = true → lstate s p = 1 → isSet s (F.ETH_STATUS_LINK p) = false → getF s (F.ETH_CTL_SPEED p) = 1 → isSet s (F.ETH_CTL_ANEG p) = true → getF s (F.ETH_CTL_MS p) = 2 → merges s (A.ETH_EVT p) 0 = false → 
      ∃ t, Sys2Proof.Machine.exec (.linkUp p fast master) s = .next t ∧
        lstate t p = 2 ∧
        isSet t (F.ETH_STATUS_LINK p) = true ∧
        isSet t (F.ETH_STATUS_SPDRES p) = fast ∧
        isSet t (F.ETH_STATUS_MSRES p) = master ∧
        hasEvent s t (A.ETH_EVT p) 0 ∧
        sameRegs ([A.ETH_STATUS p, A.ETH_EVT p] ++ pendWords) s t ∧
        t = { s with evtLast := t.evtLast, regs := t.regs, sent := t.sent, lkp := { s.lkp with srcVal := t.lkp.srcVal } }) ∧
  (∀ (p : Fin 24) (s : State), live s = true → lstate s p = 2 → isSet s (F.ETH_STATUS_LINK p) = true → (s.port p).sending = none → merges s (A.ETH_EVT p) 0 = false → 
      ∃ t, Sys2Proof.Machine.exec (.linkLoss p) s = .next t ∧
        (lstate t p = (if isTs p then 6 else 1)) ∧
        isSet t (F.ETH_STATUS_LINK p) = false ∧
        hasEvent s t (A.ETH_EVT p) 0 ∧
        sameRegs ([A.ETH_STATUS p, A.ETH_EVT p, A.ETH_CTL p + 0x148] ++ pendWords) s t ∧
        t = { s with evtLast := t.evtLast, regs := t.regs, sent := t.sent, lkp := { s.lkp with srcVal := t.lkp.srcVal } }) ∧
  (∀ (p : Fin 24) (sqi : Fin 8) (s : State), live s = true → lstate s p = 2 → getF s (F.ETH_CTL_SQIMIN p) = 5 → 5 ≤ getF s (F.ETH_STATUS_SQI p) → sqi.val < 5 → merges s (A.ETH_EVT p) 8 = false → 
      ∃ t, Sys2Proof.Machine.exec (.sqiUpdate p sqi) s = .next t ∧
        getF t (F.ETH_STATUS_SQI p) = sqi.val ∧
        hasEvent s t (A.ETH_EVT p) 8 ∧
        sameRegs ([A.ETH_STATUS p, A.ETH_EVT p, A.ETH_CTL p + 0x14C] ++ pendWords) s t ∧
        t = { s with evtLast := t.evtLast, regs := t.regs, sent := t.sent, lkp := { s.lkp with srcVal := t.lkp.srcVal } }) ∧
  (∀ (who : Who) (p : Fin 24) (s : State), live s = true → isPriv s who = true → isSet s (F.ETH_CTL_EN p) = false → isSet s (F.ETH_CTL_LPBK p) = false → isSet s (F.ETH_STATUS_LINK p) = false → unguarded s who = true → 
      ∃ t, Sys2Proof.Machine.exec (.cableTest who p) s = .next t ∧
        lstate t p = 4 ∧
        getF t (F.ETH_CABLE_RESULT p) = 0 ∧
        getF t (F.ETH_CABLE_DIST p) = 0 ∧
        sameRegs [A.ETH_CABLE p, A.ETH_STATUS p] s t ∧
        t = { s with regs := t.regs, sent := t.sent }) ∧
  (∀ (who : Who) (p : Fin 24) (s : State), live s = true → isPriv s who = true → isSet s (F.ETH_CTL_EN p) = true → unguarded s who = true → 
      ∃ t, Sys2Proof.Machine.exec (.cableTest who p) s = .next t ∧
        getF t (F.ETH_CABLE_RESULT p) = 5 ∧
        sameRegs [A.ETH_CABLE p] s t ∧
        t = { s with regs := t.regs, sent := t.sent }) ∧
  (∀ (p : Fin 24) (result : Fin 8) (dist : BitVec 16) (s : State), live s = true → lstate s p = 4 → isSet s (F.ETH_STATUS_LINK p) = false → 2 ≤ result.val → result.val ≤ 4 → merges s (A.ETH_EVT p) 7 = false → 
      ∃ t, Sys2Proof.Machine.exec (.cableTestEnd p result dist) s = .next t ∧
        lstate t p = 0 ∧
        getF t (F.ETH_CABLE_RESULT p) = result.val ∧
        getF t (F.ETH_CABLE_DIST p) = dist.toNat % 2 ^ (F.ETH_CABLE_DIST p).w ∧
        hasEvent s t (A.ETH_EVT p) 7 ∧
        sameRegs ([A.ETH_STATUS p, A.ETH_CABLE p, A.ETH_EVT p] ++ pendWords) s t ∧
        t = { s with evtLast := t.evtLast, regs := t.regs, sent := t.sent, lkp := { s.lkp with srcVal := t.lkp.srcVal } }) ∧
  (∀ (who : Who) (p : Fin 24) (r : Fin 64) (s : State), live s = true → isPriv s who = true → 2 ≤ r.val → r.val < 8 → (s.port p).sending = none → 
      ∃ t, Sys2Proof.Machine.exec (.statsRead who p r) s = .next t ∧
        rd t (statAt p r) = 0 ∧
        sameRegs [statAt p r] s t ∧
        t = { s with regs := t.regs, sent := t.sent }) ∧
  (∀ (who : Who) (p : Fin 24) (w : Fin 16) (s : State), live s = true → isPriv s who = true → (s.port p).sending = none → 
      ∃ t, Sys2Proof.Machine.exec (.stnRead who p w) s = .next t ∧
        rd t (A.ETH_STN p w) = 0 ∧
        sameRegs [A.ETH_STN p w] s t ∧
        t = { s with regs := t.regs, sent := t.sent })

/-- A good frame is counted and passes to the Basin; one with a bad FCS is counted and discarded. A frame that begins leaves the
egress buffer and is sent with preamble, delimiter and FCS, its delimiter 64 bit times later. A collision that the transceiver
detects ends a transmission and backs off by a number of slots that the port's shift register draws (log 75), under PLCA it waits
for the next opportunity, a late one discards the frame; at the end of a back-off the frame is sent again, or waits for the
medium. A coordinator whose cycle is over sends a BEACON and begins with node 0; an opportunity that is due of another node only
shows it, one out of turn is nothing; a BEACON makes a follower use PLCA, its absence ends that. A read of a stamp FIFO pops its
oldest entry. The model's own choices that clauses rest on: log 72, 73, 75, 137 and 161. Each clause answers a next state by its
conditions on the state and the operands alone: so MAC_FRAME_RX, MAC_FRAME_TX, COLLISION, BACKOFF_END, PLCA_BEACON,
PLCA_OPPORTUNITY, BEACON_TIMEOUT, BEACON_RX and TS_FIFO_READ complete. -/
def Obligations.EthernetFrames : Prop :=
  (∀ (p : Fin 24) (bs : List Byte) (good clean : Bool) (fec : Nat) (s : State), live s = true → isSet s (F.ETH_CTL_EN p) = true → isSet s (F.ETH_STATUS_LINK p) = true → good = true → clean = true → fec = 0 → 60 ≤ bs.length → bs.length ≤ 2044 → etherType bs = 0x1234 → beNat (part bs 12 2) = 0x1234 → getF s F.TOW_CTL_ETYPE ≠ 0x1234 → 
      ∃ t, Sys2Proof.Machine.exec (.macFrameRx p bs good clean fec) s = .next t ∧
        t.basin = { s.basin with inbox := s.basin.inbox ++ [{ src := p.val, bytes := bs, cls := none, direct := none }] } ∧
        rd64 t (A.ETH_CTL p + 0x100) = min (rd64 s (A.ETH_CTL p + 0x100) + (bs.length + 4)) (2 ^ 64 - 1) ∧
        (rd t (A.ETH_CTL p + 0x108)).toNat = satAdd 32 (rd s (A.ETH_CTL p + 0x108)).toNat 1 ∧
        sameRegs [A.ETH_CTL p + 0x100, A.ETH_CTL p + 0x104, A.ETH_CTL p + 0x108] s t ∧
        t = { s with regs := t.regs, basin := t.basin, sent := t.sent }) ∧
  (∀ (p : Fin 24) (bs : List Byte) (good clean : Bool) (fec : Nat) (s : State), live s = true → isSet s (F.ETH_CTL_EN p) = true → isSet s (F.ETH_STATUS_LINK p) = true → good = false → clean = true → fec = 0 → 60 ≤ bs.length → 
      ∃ t, Sys2Proof.Machine.exec (.macFrameRx p bs good clean fec) s = .next t ∧
        (rd t (A.ETH_CTL p + 0x10C)).toNat = satAdd 32 (rd s (A.ETH_CTL p + 0x10C)).toNat 1 ∧
        sameRegs [A.ETH_CTL p + 0x10C] s t ∧
        t = { s with regs := t.regs, sent := t.sent }) ∧
  (∀ (p : Fin 24) (busy : Bool) (f : OutFrame) (s : State), live s = true → p.val < 8 → s.basin.egress = [f] → f.dest = p.val → beNat (part f.bytes 12 2) = 0x1234 → canSend s p = true → (s.port p).next = none → (s.port p).backoff = none → lstate s p = 2 → 
      ∃ t, Sys2Proof.Machine.exec (.macFrameTx p busy) s = .next t ∧
        t.basin = { s.basin with egress := [] } ∧
        t.sent = [{ chan := .eth p, bytes := onWire f.bytes }] ∧
        (t.port p).sending.map (·.1) = some (f, 0) ∧
        (t.port p).sfd = some (s.now + 64 * bitNs s p, f.bytes) ∧
        sameRegs [] s t ∧
        t = { s with basin := t.basin, eth := t.eth, sent := t.sent }) ∧
  (∀ (p : Fin 24) (busy : Bool) (f : OutFrame) (s : State), live s = true → 8 ≤ p.val → busy = true → s.basin.egress = [f] → f.dest = p.val → canSend s p = true → (s.port p).next = none → (s.port p).backoff = none → isSet s (F.ETH_PLCASTAT_OK p) = false → 
      ∃ t, Sys2Proof.Machine.exec (.macFrameTx p busy) s = .next t ∧
        t.basin = { s.basin with egress := [] } ∧
        (t.port p).next = some (f, 0) ∧
        (rd t (A.ETH_CTL p + 0x13C)).toNat = satAdd 32 (rd s (A.ETH_CTL p + 0x13C)).toNat 1 ∧
        sameRegs [A.ETH_CTL p + 0x13C] s t ∧
        t = { s with regs := t.regs, basin := t.basin, eth := t.eth, sent := t.sent }) ∧
  (∀ (p : Fin 24) (cd : Bool) (f : OutFrame) (met e : Nat) (s : State), live s = true → cd = true → 8 ≤ p.val → (s.port p).sending = some ((f, met), e) → s.now < e → s.now + 800 * (f.bytes.length + 12) ≤ e + 51200 → met < 15 → isSet s (F.ETH_PLCASTAT_OK p) = false → 
      ∃ t, Sys2Proof.Machine.exec (.collision p cd) s = .next t ∧
        (t.port p).sending = none ∧
        (t.port p).next = some (f, met + 1) ∧
        (t.port p).backoff = some (s.now + 3200 + 51200 * ((t.port p).lfsr % 2 ^ min (met + 1) 10)) ∧
        (t.port p).lfsr = Config.lfsrNext (s.port p).lfsr % 65536 ∧
        (t.port p).gapEnd = s.now + 3200 + 9600 ∧
        (rd t (A.ETH_CTL p + 0x12C)).toNat = satAdd 32 (rd s (A.ETH_CTL p + 0x12C)).toNat 1 ∧
        sameRegs [A.ETH_CTL p + 0x12C] s t ∧
        t = { s with regs := t.regs, eth := t.eth, sent := t.sent }) ∧
  (∀ (p : Fin 24) (cd : Bool) (f : OutFrame) (met e : Nat) (s : State), live s = true → cd = true → 8 ≤ p.val → (s.port p).sending = some ((f, met), e) → s.now < e → e + 51200 < s.now + 800 * (f.bytes.length + 12) → 
      ∃ t, Sys2Proof.Machine.exec (.collision p cd) s = .next t ∧
        (t.port p).sending = none ∧
        (t.port p).next = (s.port p).next ∧
        (t.port p).backoff = (s.port p).backoff ∧
        (t.port p).gapEnd = s.now + 3200 + 9600 ∧
        (rd t (A.ETH_CTL p + 0x12C)).toNat = satAdd 32 (rd s (A.ETH_CTL p + 0x12C)).toNat 1 ∧
        (rd t (A.ETH_CTL p + 0x130)).toNat = satAdd 32 (rd s (A.ETH_CTL p + 0x130)).toNat 1 ∧
        sameRegs [A.ETH_CTL p + 0x12C, A.ETH_CTL p + 0x130] s t ∧
        t = { s with regs := t.regs, eth := t.eth, sent := t.sent }) ∧
  (∀ (p : Fin 24) (cd : Bool) (f : OutFrame) (met e : Nat) (s : State), live s = true → cd = true → 8 ≤ p.val → (s.port p).sending = some ((f, met), e) → s.now < e → s.now + 800 * (f.bytes.length + 12) ≤ e + 51200 → met < 15 → isSet s (F.ETH_PLCASTAT_OK p) = true → (s.port p).deferred = true → 
      ∃ t, Sys2Proof.Machine.exec (.collision p cd) s = .next t ∧
        (t.port p).sending = none ∧
        (t.port p).sfd = none ∧
        (t.port p).next = some (f, met + 1) ∧
        (t.port p).lfsr = (s.port p).lfsr ∧
        (t.port p).gapEnd = s.now + 3200 + 9600 ∧
        (rd t (A.ETH_CTL p + 0x12C)).toNat = satAdd 32 (rd s (A.ETH_CTL p + 0x12C)).toNat 1 ∧
        sameRegs [A.ETH_CTL p + 0x12C] s t ∧
        t = { s with regs := t.regs, eth := t.eth, sent := t.sent }) ∧
  (∀ (p : Fin 24) (cd : Bool) (s : State), live s = true → cd = false → 
      ∃ t, Sys2Proof.Machine.exec (.collision p cd) s = .next t ∧
        t = s) ∧
  (∀ (p : Fin 24) (busy : Bool) (f : OutFrame) (met h : Nat) (s : State), live s = true → busy = false → (s.port p).backoff = some h → (s.port p).next = some (f, met) → h ≤ s.now → (s.port p).gapEnd ≤ s.now → isSet s (F.ETH_CTL_EN p) = true → isSet s (F.ETH_STATUS_LINK p) = true → lstate s p = 2 → beNat (part f.bytes 12 2) = 0x1234 → 
      ∃ t, Sys2Proof.Machine.exec (.backoffEnd p busy) s = .next t ∧
        (t.port p).backoff = none ∧
        (t.port p).next = none ∧
        (t.port p).sending.map (·.1) = some (f, met) ∧
        t.sent = [{ chan := .eth p, bytes := onWire f.bytes }] ∧
        sameRegs [] s t ∧
        t = { s with basin := t.basin, eth := t.eth, sent := t.sent }) ∧
  (∀ (p : Fin 24) (busy : Bool) (f : OutFrame) (met h : Nat) (s : State), live s = true → busy = true → (s.port p).backoff = some h → (s.port p).next = some (f, met) → (s.port p).deferred = false → h ≤ s.now → isSet s (F.ETH_CTL_EN p) = true → isSet s (F.ETH_STATUS_LINK p) = true → 
      ∃ t, Sys2Proof.Machine.exec (.backoffEnd p busy) s = .next t ∧
        (t.port p).backoff = none ∧
        (t.port p).next = some (f, met) ∧
        (t.port p).sending = (s.port p).sending ∧
        (rd t (A.ETH_CTL p + 0x13C)).toNat = satAdd 32 (rd s (A.ETH_CTL p + 0x13C)).toNat 1 ∧
        sameRegs [A.ETH_CTL p + 0x13C] s t ∧
        t = { s with regs := t.regs, eth := t.eth, sent := t.sent }) ∧
  (∀ (p : Fin 24) (s : State), live s = true → coordinator s p = true → isSet s (F.ETH_CTL_EN p) = true → isSet s (F.ETH_STATUS_LINK p) = true → usedUntil s p false ≤ s.now → getF s (F.ETH_PLCA_NODECNT p) ≤ (s.port p).turn → lstate s p ≠ 5 → 
      ∃ t, Sys2Proof.Machine.exec (.plcaBeacon p) s = .next t ∧
        getF t (F.ETH_PLCASTAT_CURID p) = 0 ∧
        (t.port p).turn = 0 ∧
        (t.port p).turnAt = s.now + 2000 ∧
        t.sent = [{ chan := .eth p, bytes := [] }] ∧
        (t.port p).beacon = s.now ∧
        (t.port p).burst = none ∧
        sameRegs [A.ETH_PLCASTAT p] s t ∧
        t = { s with regs := t.regs, eth := t.eth, sent := t.sent }) ∧
  (∀ (p : Fin 24) (node : Fin 256) (s : State), live s = true → 8 ≤ p.val → turnComes s p node = true → node.val ≠ getF s (F.ETH_PLCA_NODEID p) → (s.port p).sending = none → 
      ∃ t, Sys2Proof.Machine.exec (.plcaOpportunity p node) s = .next t ∧
        getF t (F.ETH_PLCASTAT_CURID p) = node.val ∧
        (t.port p).turn = node.val + 1 ∧
        (t.port p).burst = none ∧
        (t.port p).turnAt = s.now + getF s (F.ETH_PLCA_TOTMR p) * 100 ∧
        sameRegs [A.ETH_PLCASTAT p] s t ∧
        t = { s with regs := t.regs, eth := t.eth, sent := t.sent }) ∧
  (∀ (p : Fin 24) (node : Fin 256) (f : OutFrame) (s : State), live s = true → 8 ≤ p.val → turnComes s p node = true → node.val = getF s (F.ETH_PLCA_NODEID p) → (s.port p).sending = none → (s.port p).next = none → isSet s (F.ETH_STATUS_LINK p) = true → lstate s p = 2 → s.basin.egress = [f] → f.dest = p.val → beNat (part f.bytes 12 2) = 0x1234 → 
      ∃ t, Sys2Proof.Machine.exec (.plcaOpportunity p node) s = .next t ∧
        getF t (F.ETH_PLCASTAT_CURID p) = node.val ∧
        (t.port p).turn = node.val + 1 ∧
        (t.port p).burst = some (getF s (F.ETH_PLCA_MAXBC p)) ∧
        t.sent = [{ chan := .eth p, bytes := onWire f.bytes }] ∧
        t.basin.egress = [] ∧
        sameRegs [A.ETH_PLCASTAT p] s t ∧
        t = { s with regs := t.regs, basin := t.basin, eth := t.eth, sent := t.sent }) ∧
  (∀ (p : Fin 24) (node : Fin 256) (s : State), live s = true → (s.port p).sending = none → turnComes s p node = false → 
      ∃ t, Sys2Proof.Machine.exec (.plcaOpportunity p node) s = .next t ∧
        t = { s with sent := t.sent }) ∧
  (∀ (p : Fin 24) (s : State), live s = true → 8 ≤ p.val → isSet s (F.ETH_PLCASTAT_OK p) = true → coordinator s p = false → (s.port p).beacon + 1000 * getF s (F.ETH_PLCATMR_BCNTMO p) ≤ s.now → merges s (A.ETH_EVT p) 4 = false → 
      ∃ t, Sys2Proof.Machine.exec (.beaconTimeout p) s = .next t ∧
        isSet t (F.ETH_PLCASTAT_OK p) = false ∧
        (rd t (A.ETH_CTL p + 0x144)).toNat = satAdd 32 (rd s (A.ETH_CTL p + 0x144)).toNat 1 ∧
        hasEvent s t (A.ETH_EVT p) 4 ∧
        sameRegs ([A.ETH_PLCASTAT p, A.ETH_CTL p + 0x144, A.ETH_EVT p] ++ pendWords) s t ∧
        t = { s with evtLast := t.evtLast, regs := t.regs, sent := t.sent, lkp := { s.lkp with srcVal := t.lkp.srcVal } }) ∧
  (∀ (p : Fin 24) (s : State), live s = true → 8 ≤ p.val → isSet s (F.ETH_CTL_EN p) = true → isSet s (F.ETH_CTL_PLCAEN p) = true → getF s (F.ETH_PLCA_NODEID p) ≠ 0 → isSet s (F.ETH_PLCASTAT_OK p) = false → merges s (A.ETH_EVT p) 4 = false → 
      ∃ t, Sys2Proof.Machine.exec (.beaconRx p) s = .next t ∧
        isSet t (F.ETH_PLCASTAT_OK p) = true ∧
        getF t (F.ETH_PLCASTAT_CURID p) = 0 ∧
        (t.port p).beacon = s.now ∧
        hasEvent s t (A.ETH_EVT p) 4 ∧
        sameRegs ([A.ETH_PLCASTAT p, A.ETH_EVT p] ++ pendWords) s t ∧
        t = { s with evtLast := t.evtLast, regs := t.regs, eth := t.eth, sent := t.sent, lkp := { s.lkp with srcVal := t.lkp.srcVal } }) ∧
  (∀ (who : Who) (p : Fin 24) (tx : Bool) (e : Stamp) (s : State), live s = true → tx = false → (s.port p).rx = [e] → (s.port p).tx = [] → 
      ∃ t, Sys2Proof.Machine.exec (.tsFifoRead who p tx) s = .next t ∧
        (t.port p).rx = [] ∧
        getF t (F.ETH_TSSTAT_RXCNT p) = 0 ∧
        SMap.get? t.rshadow (shadowKey (A.ETH_TSRX p) who) = some (A.ETH_TSRX p % 0x10000, w32 (stampHigh e)) ∧
        sameRegs [A.ETH_TSSTAT p] s t ∧
        t = { s with regs := t.regs, eth := t.eth, rshadow := t.rshadow, sent := t.sent })

/-- EN starts the sequencer and gives every station of the schedule its first state. A due station gets the frame its state asks for,
with the next number. A good reply is counted and its inputs are written with quality GOOD where the station is VALID; a bad one
is counted with its cause. At the deadline of a due VALID station a missed cycle makes it MISSED with quality UNCERTAIN. A claim
of a spare entry binds it; REGRANT puts an entry into WAITING, RELEASE returns a bound spare. A silent sequencer follows the
primary's counter and numbers. The model's own choices that clauses rest on: log 62, 76, 77, 78, 79 and 80. Each clause answers a
next state by its conditions on the state and the operands alone: so TOW_ENABLE, MASTER_FRAME_TX, TOW_REPLY_RX, REPLY_DEADLINE,
CLAIM_RX, REGRANT, TOW_RELEASE and SILENT_FOLLOW complete. -/
def Obligations.TowpathCommands : Prop :=
  (∀ (who : Who) (a : Fin 256) (s : State), live s = true → isPriv s who = true → isSet s F.TOW_CTL_EN = false → getF s F.LKH_SBYSTAT_STATE = 0 → entries s = [] → unguarded s who = true → 
      ∃ t, Sys2Proof.Machine.exec (.towEnable who) s = .next t ∧
        isSet t F.TOW_CTL_EN = true ∧
        towRuns t = true ∧
        rd t (A.TOW_STN a) = 0 ∧
        (t.station a).seeded = false ∧
        (t.station a).consec = (s.station a).consec ∧
        t.tow.done = false) ∧
  (∀ (a : Fin 256) (s : State), live s = true → towRuns s = true → unsent s = [a.val] → s.tow.start + txOff s a ≤ time s → stnState s a = 1 → (s.station a).seeded = true → 
      ∃ t, Sys2Proof.Machine.exec (.masterFrameTx a) s = .next t ∧
        (t.station a).sent = true ∧
        (t.station a).kind = 6 ∧
        (t.station a).consec = (s.station a).consec % 65535 + 1 ∧
        t.basin.inbox.length = s.basin.inbox.length + 1 ∧
        ((t.basin.inbox.getLast?).map (fun f => (f.src, f.cls, f.direct)) = some (34, some 7, some (entryPort s a))) ∧
        ((t.basin.inbox.getLast?).map (fun f => (part f.bytes 15 2, beNat (part f.bytes 22 2), part f.bytes 26 28)) = some ([6, b8 a.val], (t.station a).consec, grantPayload s a)) ∧
        t.scan.epoch = false ∧
        sameRegs [] s t ∧
        t = { s with basin := t.basin, tow := t.tow, scan := t.scan, sent := t.sent }) ∧
  (∀ (f : OutFrame) (a : Fin 256) (s : State), live s = true → s.tow.inbox = [f] → towRuns s = true → (readTow f).type = 4 → (readTow f).addr = a.val → replyCause s (readTow f) = 0 → stnState s a = 2 → (readTow f).len = 2 → (readTow f).payload.length = 2 → inLen s a = 2 → inOff s a = 0x100 → s.scan.sources = [(0x100, 0x102, 52)] → s.brg.sems = Vector.replicate 32 none → 
      ∃ t, Sys2Proof.Machine.exec (.towReplyRx) s = .next t ∧
        (t.station a).got = some 4 ∧
        (t.station a).payload = (readTow f).payload ∧
        (t.station a).good = ((s.station a).good + 1) % 2 ^ 32 ∧
        (t.station a).lastCycle = (readTow f).cycle ∧
        getF t (F.TOW_STN_RFLAGS a) = (readTow f).flags % 256 ∧
        bytesAt t 0x30000100 2 = (readTow f).payload ∧
        qualityOf t 0x100 = 0 ∧
        qualityOf t 0x101 = 0 ∧
        t.tow.inbox = [] ∧
        sameBytesBut [0x30000100, 0x30000101, 0x300C0040] s t ∧
        sameRegs [A.TOW_STN a, A.LKP_PEND 16] s t ∧
        t = { s with evtLast := t.evtLast, regs := t.regs, mem := t.mem, ecc := t.ecc, tow := t.tow, sent := t.sent, lkp := { s.lkp with srcVal := t.lkp.srcVal } }) ∧
  (∀ (f : OutFrame) (a : Fin 256) (s : State), live s = true → s.tow.inbox = [f] → towRuns s = true → (readTow f).type = 4 → (readTow f).addr = a.val → replyCause s (readTow f) = 4 → merges s A.TOW_EVT 4 = false → 
      ∃ t, Sys2Proof.Machine.exec (.towReplyRx) s = .next t ∧
        getF t (F.TOW_STN_CAUSE a) = 4 ∧
        (t.station a).bad = ((s.station a).bad + 1) % 2 ^ 32 ∧
        getF t F.TOW_SEQERR_LO = satAdd F.TOW_SEQERR_LO.w (getF s F.TOW_SEQERR_LO) 1 ∧
        hasEvent s t A.TOW_EVT 4 ∧
        sameRegs ([A.TOW_STN a, A.TOW_SEQERR, A.TOW_EVT] ++ pendWords) s t ∧
        t = { s with evtLast := t.evtLast, regs := t.regs, tow := t.tow, sent := t.sent, lkp := { s.lkp with srcVal := t.lkp.srcVal } }) ∧
  (∀ (a : Fin 256) (s : State), live s = true → calm s s = true → towRuns s = true → due s a = true → (s.station a).decided = false → s.tow.start + rdl s a ≤ time s → (s.station a).got = none → stnState s a = 2 → sched s a 0 10 4 = 3 → 
      ∃ t, Sys2Proof.Machine.exec (.replyDeadline a) s = .next t ∧
        stnState t a = 3 ∧
        (t.station a).decided = true ∧
        getF t (F.TOW_STN_MISSRUN a) = 1 ∧
        isSet t ⟨A.LKP_PEND ((256 + a.val) / 32), a.val % 32, 1⟩ = true) ∧
  (∀ (f : OutFrame) (a : Fin 256) (uid : Nat) (s : State), live s = true → s.tow.inbox = [f] → towRuns s = true → (readTow f).type = 5 → (readTow f).sound s = true → (readTow f).cycle = towCount s % 2 ^ 32 → (readTow f).flags = 0 → (readTow f).addr = a.val → beNat (part (readTow f).payload 0 8) = uid → claimReason s a (readTow f) uid = 0 → inLen s a = 0 → 
      ∃ t, Sys2Proof.Machine.exec (.claimRx) s = .next t ∧
        isSet t (F.TOW_STN_BOUND a) = true ∧
        (t.station a).uid = uid ∧
        (t.station a).claimant = some (readTow f).sa ∧
        stnState t a = 1 ∧
        getF t (F.TOW_STN_MISSRUN a) = 0 ∧
        getF t F.TOW_CLAIMLOG_RESULT = 1 ∧
        getF t F.TOW_CLAIMLOG_ADDR = a.val ∧
        isSet t ⟨A.LKP_PEND 16, 2, 1⟩ = true ∧
        t.tow.inbox = []) ∧
  (∀ (who : Who) (a : Fin 256) (s : State), live s = true → isPriv s who = true → getF s F.TOW_STATUS_STATE ≠ 0 → entryValid s a = true → stnState s a = 4 → inLen s a = 0 → unguarded s who = true → 
      ∃ t, Sys2Proof.Machine.exec (.regrant who a) s = .next t ∧
        stnState t a = 1 ∧
        getF t (F.TOW_STN_MISSRUN a) = 0 ∧
        isSet t ⟨A.LKP_PEND ((256 + a.val) / 32), a.val % 32, 1⟩ = true ∧
        sameRegs ([A.TOW_CMD, A.TOW_STN a, A.TOW_STATUS] ++ pendWords) s t ∧
        t = { s with evtLast := t.evtLast, regs := t.regs, sent := t.sent, lkp := { s.lkp with srcVal := t.lkp.srcVal } }) ∧
  (∀ (who : Who) (a : Fin 256) (s : State), live s = true → isPriv s who = true → getF s F.TOW_STATUS_STATE ≠ 0 → isSet s (F.TOW_STN_BOUND a) = true → stnState s a = 2 → unguarded s who = true → 
      ∃ t, Sys2Proof.Machine.exec (.towRelease who a) s = .next t ∧
        stnState t a = 6 ∧
        isSet t (F.TOW_STN_BOUND a) = false ∧
        (t.station a).uid = 0 ∧
        (t.station a).claimant = none ∧
        sameRegs ([A.TOW_CMD, A.TOW_STN a, A.TOW_STATUS] ++ pendWords) s t ∧
        t = { s with evtLast := t.evtLast, regs := t.regs, tow := t.tow, sent := t.sent, lkp := { s.lkp with srcVal := t.lkp.srcVal } }) ∧
  (∀ (f : OutFrame) (a : Fin 256) (s : State), live s = true → s.tow.inbox = [f] → towSilent s = true → (readTow f).type = 2 → (readTow f).addr = a.val → (readTow f).sound s = true → towCount s < 2 ^ 32 → towCount s ≤ (readTow f).cycle → (readTow f).cycle < 2 ^ 32 → 
      ∃ t, Sys2Proof.Machine.exec (.silentFollow) s = .next t ∧
        towCount t = (readTow f).cycle ∧
        (t.station a).consec = (readTow f).consec ∧
        (t.station a).seeded = true ∧
        (t.station a).kind = 2 ∧
        t.tow.inbox = [] ∧
        sameRegs [A.TOW_CYCNT, A.TOW_CYCNT + 4] s t ∧
        t = { s with regs := t.regs, tow := t.tow, sent := t.sent })

/-- A valid frame is written into the receive ring of a port whose ring runs. A slot not matched for AGE turns UNCERTAIN. TXREQ makes
buffers pending, ended ABORTED while EN is 0; as a frame begins the port chooses among those pending the one that wins
arbitration; TXCAN ends a pending buffer that is not in transmission CANCELLED; a sent frame goes out, its buffer ends with result
1 and its source fires; one that loses arbitration stays pending. A bus error counts and shows in LEC; it adds 1 to REC of a
receiver and 8 to TEC of a transmitter (log 63), and nothing in RESTRICTED and MONITOR, where the port waits to be integrated
again (log 162). Bus-off recovery begins with RECOVER and ends error active. EN clears the error counts; its end takes a port off
the bus; a new mode takes effect at bus idle. A cross-capture latches CAN_TSC. The model's own choices that clauses rest on: log
63, 64 and 162. Each clause answers a next state by its conditions on the state and the operands alone: so CAN_FRAME_VALID,
IMAGE_SLOT_AGE, CAN_TXREQ, CAN_TXCAN, CAN_TX_END, CAN_ERROR, BUS_OFF_RECOVERY_END, CAN_RECOVER, PROTOCOL_EXCEPTION, CAN_ENABLE,
CAN_DISABLE, CAN_MODE_CHANGE, XCAP, XCAP_AUTO and BUS_INTEGRATION complete. -/
def Obligations.CanCommands : Prop :=
  (∀ (n : Fin 8) (f : CanFrame) (ago : Nat) (m : Fin 5) (s : State), live s = true → calm s s = true → isSet s (F.CAN_STATUS_ACT n) = true → (s.canp n).mode = 0 → f.fd = false → getF s (F.CAN_STATUS_REC n) = 0 → slotMatches s n f = [] → getF s (F.CAN_RXSTAT_STATE n) = 1 → rd s (A.CAN_RXRING n) = 0x80000000#32 → getF s (F.CAN_RXWP_INDEX n) = 0 → getF s (F.CAN_RXRP_INDEX n) = 0 → reachOf s 0 = m.val → reachState s m = 0 → getF s (F.RCH_PWR_PSTATE m) = 0 → gateAdmits s m 0 54 = true → ((List.range 9).all (fun q => foldCW s m (8 * q) == 8 * q) = true) → s.brg.sems = Vector.replicate 32 none → s.rot.fill = none → s.pair.track = none → s.ecc = [] → (s.canp n).lost = false → 
      ∃ t, Sys2Proof.Machine.exec (.canFrameValid n f ago) s = .next t ∧
        getF t (F.CAN_RXWP_INDEX n) = 9 ∧
        bytesAt t (reachAddr m 0) 4 = leBytes 4 (recordId f.w0.toNat) ∧
        bytesAt t (reachAddr m 8) 64 = f.padded ∧
        isSet t ⟨A.LKP_PEND 6, 2 * n.val, 1⟩ = true ∧
        sameBytes (reachAddr m 0) 72 s t ∧
        sameRegs [A.CAN_RXWP n, A.LKP_PEND 6] s t) ∧
  (∀ (n kk : Fin 8) (h : Nat) (s : State), live s = true → vget (s.canp n).hit kk = some h → isSet s (F.CAN_IMG_ID_EN n kk) = true → getF s (F.CAN_IMG_DST_AGE n kk) ≠ 0 → h + 1000000 * getF s (F.CAN_IMG_DST_AGE n kk) ≤ s.now → slotRange s n kk = (0x100, 1) → sourceOf s 0x100 = some 54 → 
      ∃ t, Sys2Proof.Machine.exec (.imageSlotAge n kk) s = .next t ∧
        qualityOf t 0x100 = 1 ∧
        sameBytes 0x300C0040 1 s t ∧
        sameRegs [] s t ∧
        t = { s with mem := t.mem, sent := t.sent }) ∧
  (∀ (who : Who) (n : Fin 8) (mask : BitVec 16) (s : State), live s = true → isPriv s who = true → mask = 1#16 → getF s (F.CAN_TXPEND_BUF n) = 0 → (s.canp n).on = true → unguarded s who = true → 
      ∃ t, Sys2Proof.Machine.exec (.canTxreq who n mask) s = .next t ∧
        isSet t ⟨A.CAN_TXPEND n, 0, 1⟩ = true ∧
        getF t (F.CAN_TXST_RESULT n 0) = 0 ∧
        getF t (F.CAN_TXST_ATTEMPTS n 0) = 0 ∧
        sameRegs [A.CAN_TXREQ n, A.CAN_TXPEND n, A.CAN_TXST n 0] s t ∧
        t = { s with regs := t.regs, sent := t.sent }) ∧
  (∀ (who : Who) (n : Fin 8) (mask : BitVec 16) (s : State), live s = true → isPriv s who = true → mask = 1#16 → getF s (F.CAN_TXPEND_BUF n) = 0 → (s.canp n).on = false → unguarded s who = true → 
      ∃ t, Sys2Proof.Machine.exec (.canTxreq who n mask) s = .next t ∧
        isSet t ⟨A.CAN_TXPEND n, 0, 1⟩ = false ∧
        getF t (F.CAN_TXST_RESULT n 0) = 3 ∧
        isSet t ⟨A.LKP_PEND 6, 2 * n.val + 1, 1⟩ = true ∧
        sameRegs [A.CAN_TXREQ n, A.CAN_TXPEND n, A.CAN_TXST n 0, A.LKP_PEND 6] s t) ∧
  (∀ (who : Who) (n : Fin 8) (mask : BitVec 16) (s : State), live s = true → isPriv s who = true → mask = 0x8000#16 → isSet s ⟨A.CAN_TXPEND n, 15, 1⟩ = true → (s.canp n).chosen = none → unguarded s who = true → 
      ∃ t, Sys2Proof.Machine.exec (.canTxcan who n mask) s = .next t ∧
        isSet t ⟨A.CAN_TXPEND n, 15, 1⟩ = false ∧
        getF t (F.CAN_TXST_RESULT n 15) = 2 ∧
        isSet t ⟨A.LKP_PEND 6, 2 * n.val + 1, 1⟩ = true ∧
        sameRegs [A.CAN_TXCAN n, A.CAN_TXPEND n, A.CAN_TXST n 15, A.LKP_PEND 6] s t ∧
        t = { s with evtLast := t.evtLast, regs := t.regs, sent := t.sent, lkp := { s.lkp with srcVal := t.lkp.srcVal } }) ∧
  (∀ (n : Fin 8) (r : TxResult) (ago tdcv : Nat) (b : Fin 16) (s : State), live s = true → calm s s = true → r = .begun → maySend s n = true → getF s (F.CAN_TXPEND_BUF n) = 2 ^ b.val → (txFrame s n b).fd = false → 
      ∃ t, Sys2Proof.Machine.exec (.canTxEnd n r ago tdcv) s = .next t ∧
        t.canp n = { s.canp n with chosen := some b.val, cancel := false } ∧
        (∀ j : Fin 8, j ≠ n → t.canp j = s.canp j) ∧
        t = { s with can := t.can, sent := t.sent }) ∧
  (∀ (n : Fin 8) (r : TxResult) (ago tdcv : Nat) (b c : Fin 16) (s : State), live s = true → calm s s = true → r = .begun → maySend s n = true → b ≠ c → getF s (F.CAN_TXPEND_BUF n) = 2 ^ b.val + 2 ^ c.val → (txFrame s n b).fd = false → (txFrame s n c).fd = false → arbKey (rd s (A.CAN_TXBUF n b)).toNat < arbKey (rd s (A.CAN_TXBUF n c)).toNat → 
      ∃ t, Sys2Proof.Machine.exec (.canTxEnd n r ago tdcv) s = .next t ∧
        (t.canp n).chosen = some b.val ∧
        t = { s with can := t.can, sent := t.sent }) ∧
  (∀ (n : Fin 8) (r : TxResult) (ago tdcv : Nat) (b : Fin 16) (s : State), live s = true → calm s s = true → r = .lostArb → (s.canp n).chosen = some b.val → (s.canp n).cancel = false → bitAt (rd s (A.CAN_TXBUF n b + 4)).toNat 25 = false → 
      ∃ t, Sys2Proof.Machine.exec (.canTxEnd n r ago tdcv) s = .next t ∧
        t.canp n = { s.canp n with chosen := none } ∧
        getF t (F.CAN_TXPEND_BUF n) = getF s (F.CAN_TXPEND_BUF n) ∧
        getF t (F.CAN_TXST_ATTEMPTS n b) = satAdd (F.CAN_TXST_ATTEMPTS n b).w (getF s (F.CAN_TXST_ATTEMPTS n b)) 1 ∧
        sameRegs [A.CAN_TXST n b] s t ∧
        t = { s with regs := t.regs, can := t.can, sent := t.sent }) ∧
  (∀ (n : Fin 8) (r : TxResult) (ago tdcv : Nat) (b : Fin 16) (s : State), live s = true → calm s s = true → r = .sent → (s.canp n).chosen = some b.val → (s.canp n).cancel = false → (s.canp n).mode = 0 → isSet s (F.CAN_CTL_SELFRX n) = false → getF s (F.CAN_CTL_MODE n) ≠ 0 → (txFrame s n b).fd = false → estate s n = 0 → getF s (F.CAN_STATUS_REC n) ≤ 127 → getF s (F.CAN_STATUS_TEC n) ≤ 127 → 
      ∃ t, Sys2Proof.Machine.exec (.canTxEnd n r ago tdcv) s = .next t ∧
        isSet t ⟨A.CAN_TXPEND n, b, 1⟩ = false ∧
        getF t (F.CAN_TXST_RESULT n b) = 1 ∧
        (t.canp n).chosen = none ∧
        getF t (F.CAN_STATUS_TEC n) = getF s (F.CAN_STATUS_TEC n) - 1 ∧
        t.sent.map (·.chan) = [.can n] ∧
        (t.sent.map (fun x => x.bytes.take 4) = [leBytes 4 (recordId (rd s (A.CAN_TXBUF n b)).toNat)]) ∧
        isSet t ⟨A.LKP_PEND 6, 2 * n.val + 1, 1⟩ = true ∧
        sameRegs [A.CAN_TXPEND n, A.CAN_TXST n b, A.CAN_STATUS n, A.LKP_PEND 6] s t ∧
        t = { s with evtLast := t.evtLast, regs := t.regs, can := t.can, sent := t.sent, lkp := { s.lkp with srcVal := t.lkp.srcVal } }) ∧
  (∀ (n kind : Fin 8) (data : Bool) (place : CanErrAt) (runs : Nat) (s : State), live s = true → isSet s (F.CAN_STATUS_ACT n) = true → kind.val = 6 → place = .frame → runs = 0 → (s.canp n).mode = 0 → (s.canp n).chosen = none → estate s n = 0 → getF s (F.CAN_STATUS_TEC n) ≤ 127 → getF s (F.CAN_STATUS_REC n) ≤ 126 → merges s (A.CAN_EVT n) 0 = false → 
      ∃ t, Sys2Proof.Machine.exec (.canError n kind data place runs) s = .next t ∧
        getF t (F.CAN_STATUS_LEC n) = 6 ∧
        isSet t (F.CAN_STATUS_LECDATA n) = data ∧
        getF t (F.CAN_ERRCNT_CRC n) = satAdd (F.CAN_ERRCNT_CRC n).w (getF s (F.CAN_ERRCNT_CRC n)) 1 ∧
        getF t (F.CAN_STATUS_TEC n) = getF s (F.CAN_STATUS_TEC n) ∧
        getF t (F.CAN_STATUS_REC n) = getF s (F.CAN_STATUS_REC n) + 1 ∧
        hasEvent s t (A.CAN_EVT n) 0 ∧
        sameRegs ([A.CAN_STATUS n, A.CAN_ERRCNT n, A.CAN_EVT n] ++ pendWords) s t ∧
        t = { s with evtLast := t.evtLast, regs := t.regs, sent := t.sent, lkp := { s.lkp with srcVal := t.lkp.srcVal } }) ∧
  (∀ (n kind : Fin 8) (data : Bool) (place : CanErrAt) (runs : Nat) (b : Nat) (s : State), live s = true → isSet s (F.CAN_STATUS_ACT n) = true → kind.val = 4 → place = .frame → (s.canp n).mode = 0 → (s.canp n).chosen = some b → estate s n = 0 → getF s (F.CAN_STATUS_TEC n) + 8 + 8 * runs ≤ 127 → getF s (F.CAN_STATUS_REC n) ≤ 127 → merges s (A.CAN_EVT n) 0 = false → 
      ∃ t, Sys2Proof.Machine.exec (.canError n kind data place runs) s = .next t ∧
        getF t (F.CAN_STATUS_LEC n) = 4 ∧
        getF t (F.CAN_STATUS_TEC n) = getF s (F.CAN_STATUS_TEC n) + 8 + 8 * runs ∧
        getF t (F.CAN_STATUS_REC n) = getF s (F.CAN_STATUS_REC n) ∧
        getF t (F.CAN_ERRCNT_BIT n) = satAdd (F.CAN_ERRCNT_BIT n).w (getF s (F.CAN_ERRCNT_BIT n)) 1 ∧
        sameRegs ([A.CAN_STATUS n, A.CAN_ERRCNT n, A.CAN_EVT n] ++ pendWords) s t ∧
        t = { s with evtLast := t.evtLast, regs := t.regs, sent := t.sent, lkp := { s.lkp with srcVal := t.lkp.srcVal } }) ∧
  (∀ (n kind : Fin 8) (data : Bool) (place : CanErrAt) (runs : Nat) (s : State), live s = true → isSet s (F.CAN_STATUS_ACT n) = true → 1 ≤ kind.val → kind.val ≤ 6 → ((s.canp n).mode = 1 ∨ (s.canp n).mode = 2) → merges s (A.CAN_EVT n) 0 = false → 
      ∃ t, Sys2Proof.Machine.exec (.canError n kind data place runs) s = .next t ∧
        isSet t (F.CAN_STATUS_ACT n) = false ∧
        getF t (F.CAN_STATUS_LEC n) = kind.val ∧
        getF t (F.CAN_STATUS_TEC n) = getF s (F.CAN_STATUS_TEC n) ∧
        getF t (F.CAN_STATUS_REC n) = getF s (F.CAN_STATUS_REC n) ∧
        sameRegs ([A.CAN_STATUS n, A.CAN_ERRCNT n, A.CAN_EVT n] ++ pendWords) s t ∧
        t = { s with evtLast := t.evtLast, regs := t.regs, sent := t.sent, lkp := { s.lkp with srcVal := t.lkp.srcVal } }) ∧
  (∀ (n : Fin 8) (s : State), live s = true → estate s n = 3 → (s.canp n).on = true → getF s (F.CAN_TXPEND_BUF n) = 0 → merges s (A.CAN_EVT n) 6 = false → merges s (A.CAN_EVT n) 1 = false → 
      ∃ t, Sys2Proof.Machine.exec (.busOffRecoveryEnd n) s = .next t ∧
        estate t n = 0 ∧
        getF t (F.CAN_STATUS_TEC n) = 0 ∧
        getF t (F.CAN_STATUS_REC n) = 0 ∧
        isSet t (F.CAN_STATUS_ACT n) = true ∧
        isSet t ⟨A.CAN_EVT n, 6, 1⟩ = true ∧
        isSet t ⟨A.CAN_EVT n, 1, 1⟩ = true ∧
        sameRegs ([A.CAN_STATUS n, A.CAN_EVT n] ++ pendWords) s t ∧
        t = { s with evtLast := t.evtLast, regs := t.regs, can := t.can, sent := t.sent, lkp := { s.lkp with srcVal := t.lkp.srcVal } }) ∧
  (∀ (who : Who) (n : Fin 8) (s : State), live s = true → isPriv s who = true → estate s n = 2 → merges s (A.CAN_EVT n) 1 = false → unguarded s who = true → 
      ∃ t, Sys2Proof.Machine.exec (.canRecover who n) s = .next t ∧
        estate t n = 3 ∧
        hasEvent s t (A.CAN_EVT n) 1 ∧
        t.canp n = { s.canp n with asked := true } ∧
        (∀ j : Fin 8, j ≠ n → t.canp j = s.canp j) ∧
        sameRegs ([A.CAN_CMD n, A.CAN_STATUS n, A.CAN_EVT n] ++ pendWords) s t ∧
        t = { s with evtLast := t.evtLast, regs := t.regs, can := t.can, sent := t.sent, lkp := { s.lkp with srcVal := t.lkp.srcVal } }) ∧
  (∀ (n : Fin 8) (s : State), live s = true → isSet s (F.CAN_STATUS_ACT n) = true → merges s (A.CAN_EVT n) 5 = false → 
      ∃ t, Sys2Proof.Machine.exec (.protocolException n) s = .next t ∧
        isSet t (F.CAN_STATUS_ACT n) = false ∧
        hasEvent s t (A.CAN_EVT n) 5 ∧
        sameRegs ([A.CAN_STATUS n, A.CAN_EVT n] ++ pendWords) s t ∧
        t = { s with evtLast := t.evtLast, regs := t.regs, sent := t.sent, lkp := { s.lkp with srcVal := t.lkp.srcVal } }) ∧
  (∀ (who : Who) (n : Fin 8) (s : State), live s = true → isPriv s who = true → isSet s (F.CAN_CTL_EN n) = false → estate s n = 0 → unguarded s who = true → 
      ∃ t, Sys2Proof.Machine.exec (.canEnable who n) s = .next t ∧
        isSet t (F.CAN_CTL_EN n) = true ∧
        (t.canp n).on = true ∧
        (t.canp n).mode = getF s (F.CAN_CTL_MODE n) ∧
        getF t (F.CAN_STATUS_TEC n) = 0 ∧
        getF t (F.CAN_STATUS_REC n) = 0 ∧
        estate t n = 0 ∧
        sameRegs [A.CAN_CTL n, A.CAN_STATUS n] s t ∧
        t = { s with regs := t.regs, can := t.can, sent := t.sent }) ∧
  (∀ (n : Fin 8) (s : State), live s = true → isSet s (F.CAN_CTL_EN n) = false → (s.canp n).on = true → (s.canp n).chosen = none → getF s (F.CAN_TXPEND_BUF n) = 0 → ((List.range 8).all (fun q => !isSet s (F.CAN_IMG_ID_EN n q)) = true) → 
      ∃ t, Sys2Proof.Machine.exec (.canDisable n) s = .next t ∧
        (t.canp n).on = false ∧
        isSet t (F.CAN_STATUS_ACT n) = false ∧
        sameRegs [A.CAN_STATUS n] s t ∧
        t = { s with regs := t.regs, can := t.can, sent := t.sent }) ∧
  (∀ (n : Fin 8) (s : State), live s = true → (s.canp n).chosen = none → getF s (F.CAN_TXPEND_BUF n) = 0 → 
      ∃ t, Sys2Proof.Machine.exec (.canModeChange n) s = .next t ∧
        (t.canp n).mode = getF s (F.CAN_CTL_MODE n) ∧
        (t.canp n).chosen = none ∧
        sameRegs [] s t ∧
        t = { s with can := t.can, sent := t.sent }) ∧
  (∀ (who : Who) (n : Fin 8) (s : State), live s = true → isPriv s who = true → ((List.range 32).all (fun u => unitMode s u != 3) = true) → unguarded s who = true → 
      ∃ t, Sys2Proof.Machine.exec (.xcap who n) s = .next t ∧
        rd t (A.CAN_XCAPT n) = rd s (A.CAN_TSC n) ∧
        t.free = s.free + 1 ∧
        sameRegs [A.CAN_CMD n, A.CAN_XCAPT n] s t ∧
        t = { s with regs := t.regs, free := t.free, sent := t.sent }) ∧
  (∀ (n : Fin 8) (u : Fin 32) (s : State), live s = true → (s.canp n).passed = true → (rd s (A.CAN_TSC n)).toNat % 2 ^ (getF s (F.CAN_TSCFG_XPER n) + 16) = 0 → at32 s.tmb.capAt u ≠ s.now + 1 → sliceRunning s ≠ some (80 + u.val / 4) → ((List.range 32).filter (fun u => unitMode s u == 3 && getF s (F.TMB_UNIT_CTL_SRC u) == 64 + n.val) = [u.val]) → isSet s (F.TMB_UNIT_STAT_VALID u) = false → isSet s (F.TMB_UNIT_CTL_DLKP u) = false → time s < 2 ^ 63 → 
      ∃ t, Sys2Proof.Machine.exec (.xcapAuto n) s = .next t ∧
        rd t (A.CAN_XCAPT n) = rd s (A.CAN_TSC n) ∧
        rd64 t (A.TMB_UNIT_CAPT u) = time s + 24 + freeNat s % 9 ∧
        isSet t (F.TMB_UNIT_STAT_VALID u) = true ∧
        t.free = s.free + 1 ∧
        sameRegs [A.CAN_XCAPT n, A.TMB_UNIT_CAPT u, A.TMB_UNIT_CAPT u + 4, A.TMB_UNIT_STAT u] s t ∧
        t.canp n = { s.canp n with passed := false } ∧
        (∀ j : Fin 8, j ≠ n → t.canp j = s.canp j) ∧
        t.tmb = { s.tmb with capAt := set32 s.tmb.capAt u (s.now + 1) } ∧
        t = { s with regs := t.regs, free := t.free, can := t.can, tmb := t.tmb, sent := t.sent }) ∧
  (∀ (n : Fin 8) (s : State), live s = true → (s.canp n).passed = false → 
      ∃ t, Sys2Proof.Machine.exec (.xcapAuto n) s = .next t ∧
        t = { s with sent := t.sent }) ∧
  (∀ (n : Fin 8) (s : State), live s = true → (s.canp n).on = true → estate s n < 2 → isSet s (F.CAN_STATUS_ACT n) = false → getF s (F.CAN_TXPEND_BUF n) = 0 → 
      ∃ t, Sys2Proof.Machine.exec (.busIntegration n) s = .next t ∧
        isSet t (F.CAN_STATUS_ACT n) = true ∧
        sameRegs [A.CAN_STATUS n] s t ∧
        t = { s with regs := t.regs, can := t.can, sent := t.sent })

/-- An engine in RUN latches the word at its next address and goes on: GOTO and LOOP branch where their condition holds or their
counter has not reached 0; CLOCK shifts its bits out of SR, into it, or both at once, each value of a pin seen at its ball, CLKPIN
going to the level opposite CPOL and back for every bit, and at FRAMELEN a frame gives, takes, or stalls; PINSET and XFORM DRIVE
set pins of the SET group within SETCNT; WAITFOR waits unless its condition holds at once; FIFO takes and gives a word, or stalls,
or with NOWAIT leaves or discards it; XFORM transforms SR; SETK and SIGNAL write a counter and a flag, SIGNAL EVENT fires the
engine's source. STAT.PC shows the address; no other engine changes but for having seen the edge it waits for, and no other
register or part of the device. The model's own choices that clauses rest on: log 82, 83 and 106. Each clause answers a next state
by its conditions on the state and the operands alone: so GOTO, LOOP, CLOCK_OUT, CLOCK_IN, CLOCK_DUPLEX, PINSET_VALUES,
PINSET_DIRECTIONS, WAITFOR_LEVEL, WAITFOR_EDGE, WAITFOR_FLAG, WAITFOR_TIME, FIFO_TAKE, FIFO_GIVE, XFORM_CLEAR, XFORM_INVERT,
XFORM_REVERSE, XFORM_GRAY, XFORM_JUSTIFY, XFORM_SAMPLE, XFORM_DRIVE, XFORM_STATUS, XFORM_TOK0, XFORM_TOK1, SETK, SIGNAL_SET,
SIGNAL_CLR, SIGNAL_TOGGLE and SIGNAL_EVENT complete. -/
def Obligations.BeetleInstructions : Prop :=
  (∀ (e : Fin 16) (ext : BitVec 64) (c : Fin 8) (a : Fin 48) (s : State), atWord e (0x1000 + 512 * c.val + a.val) s → 
      ∃ t, Sys2Proof.Machine.exec (.goto e ext) s = .next t ∧
        ((t.engine e) = { latched (0x1000 + 512 * c.val + a.val) (s.engine e) with next := if [true, pinLevel t (getF s (engF F.BTL_ENG_PINS_JPIN e)), !pinLevel t (getF s (engF F.BTL_ENG_PINS_JPIN e)), (s.engine e).tx.isEmpty, decide (4 ≤ (s.engine e).rx.length), (s.engine e).sr.getLsbD 0, (s.engine e).sr.getLsbD 31, getF s (engF F.BTL_ENG_K_K1 e) == 0].getD c.val false then a.val else ((s.engine e).next + 1) % 48 }) ∧
        (∀ p : Fin 64, pinLevel t p = pinRead s p (ext.getLsbD p)) ∧
        getF t (engF F.BTL_ENG_STAT_PC e) = (s.engine e).next % 64 ∧
        sameRegs ([A.BTL_ENG_STAT (e / 8) (e % 8)] ++ (List.range 64).map (A.BTL_PIN 0)) s t ∧
        t.balls = ext ∧
        engBalls e s t) ∧
  (∀ (e : Fin 16) (c : Fin 2) (a : Fin 48) (s : State), atWord e (0x2000 + 2048 * c.val + a.val) s → 
      ∃ t, Sys2Proof.Machine.exec (.loop e) s = .next t ∧
        getF t (counterF e c) = (getF s (counterF e c) + 65535) % 65536 ∧
        ((t.engine e) = { latched (0x2000 + 2048 * c.val + a.val) (s.engine e) with next := if getF s (counterF e c) = 1 then ((s.engine e).next + 1) % 48 else a.val }) ∧
        getF t (counterF e (1 - c.val)) = getF s (counterF e (1 - c.val)) ∧
        getF t (engF F.BTL_ENG_STAT_PC e) = (s.engine e).next % 64 ∧
        sameRegs ([A.BTL_ENG_STAT (e / 8) (e % 8), A.BTL_ENG_K (e / 8) (e % 8)]) s t ∧
        engOnly e s t) ∧
  (∀ (e : Fin 16) (ext : Word) (c : Fin 2) (m : Fin 32) (s : State), atWord e (0x3000 + 512 * c.val + 16 * m.val) s → isSet s (engF F.BTL_ENG_SHCFG_FRAMEEN e) = false → 
      ∃ t, Sys2Proof.Machine.exec (.clockOut e ext) s = .next t ∧
        ((t.engine e) = { latched (0x3000 + 512 * c.val + 16 * m.val) (s.engine e) with sr := if isSet s (engF F.BTL_ENG_SHCFG_MSBFIRST e) then (s.engine e).sr <<< (m.val + 1) else (s.engine e).sr >>> (m.val + 1) }) ∧
        getF t (engF F.BTL_ENG_STAT_BC e) = min 32 (getF s (engF F.BTL_ENG_STAT_BC e) + m.val + 1) ∧
        getF t (engF F.BTL_ENG_STAT_LEFT e) = 0 ∧
        (t.sent = (List.range (m.val + 1)).flatMap fun n => [{ chan := .beetle e, bytes := [b8 (getF s (engF F.BTL_ENG_PINS_OUTPIN e)), b8 (getF s (F.BTL_PIN_DIR 0 (getF s (engF F.BTL_ENG_PINS_OUTPIN e)))), b8 (bit ((s.engine e).sr.getLsbD (if isSet s (engF F.BTL_ENG_SHCFG_MSBFIRST e) then 31 - n else n)))] }] ++ if c = 0 then [] else [!isSet s (engF F.BTL_ENG_SHCFG_CPOL e), isSet s (engF F.BTL_ENG_SHCFG_CPOL e)].map fun v => { chan := .beetle e, bytes := [b8 (getF s (engF F.BTL_ENG_PINS_CLKPIN e)), b8 (getF s (F.BTL_PIN_DIR 0 (getF s (engF F.BTL_ENG_PINS_CLKPIN e)))), b8 (bit v)] }) ∧
        getF t (F.BTL_PIN_WRITER 0 (getF s (engF F.BTL_ENG_PINS_OUTPIN e))) = e ∧
        (c = 1 ∧ getF s (engF F.BTL_ENG_PINS_OUTPIN e) = getF s (engF F.BTL_ENG_PINS_CLKPIN e) ∨ isSet t (F.BTL_PIN_VAL 0 (getF s (engF F.BTL_ENG_PINS_OUTPIN e))) = (s.engine e).sr.getLsbD (if isSet s (engF F.BTL_ENG_SHCFG_MSBFIRST e) then 31 - m.val else m.val)) ∧
        (c = 0 ∨ isSet t (F.BTL_PIN_VAL 0 (getF s (engF F.BTL_ENG_PINS_CLKPIN e))) = isSet s (engF F.BTL_ENG_SHCFG_CPOL e)) ∧
        (c = 0 ∨ getF t (F.BTL_PIN_WRITER 0 (getF s (engF F.BTL_ENG_PINS_CLKPIN e))) = e) ∧
        getF t (engF F.BTL_ENG_STAT_PC e) = (s.engine e).next % 64 ∧
        (sameRegs ([A.BTL_ENG_STAT (e / 8) (e % 8)] ++ pinWords (getF s (engF F.BTL_ENG_PINS_OUTPIN e)) ++ (if c = 1 then pinWords (getF s (engF F.BTL_ENG_PINS_CLKPIN e)) else [])) s t) ∧
        engOnly e s t) ∧
  (∀ (e : Fin 16) (ext : Word) (c : Fin 2) (m : Fin 32) (s : State), atWord e (0x3400 + 512 * c.val + 16 * m.val) s → isSet s (engF F.BTL_ENG_SHCFG_FRAMEEN e) = false → (c = 0 ∨ (getF s (engF F.BTL_ENG_PINS_INPIN e) ≠ getF s (engF F.BTL_ENG_PINS_CLKPIN e) ∧ getF s (engF F.BTL_ENG_PINS_INPIN e) + 12 ≠ getF s (engF F.BTL_ENG_PINS_CLKPIN e))) → 
      ∃ t, Sys2Proof.Machine.exec (.clockIn e ext) s = .next t ∧
        (t.engine e) = { latched (0x3400 + 512 * c.val + 16 * m.val) (s.engine e) with sr := (t.engine e).sr } ∧
        (∀ n : Fin 32, n.val ≤ m.val → (t.engine e).sr.getLsbD (if isSet s (engF F.BTL_ENG_SHCFG_MSBFIRST e) then m.val - n.val else 31 - m.val + n.val) = pinRead t (getF s (engF F.BTL_ENG_PINS_INPIN e)) (ext.getLsbD n)) ∧
        getF t (engF F.BTL_ENG_STAT_BC e) = min 32 (getF s (engF F.BTL_ENG_STAT_BC e) + m.val + 1) ∧
        getF t (engF F.BTL_ENG_STAT_LEFT e) = 0 ∧
        getF t (engF F.BTL_ENG_STAT_PC e) = (s.engine e).next % 64 ∧
        (sameRegs ([A.BTL_ENG_STAT (e / 8) (e % 8)] ++ [A.BTL_PIN 0 (getF s (engF F.BTL_ENG_PINS_INPIN e))] ++ (if c = 1 then pinWords (getF s (engF F.BTL_ENG_PINS_CLKPIN e)) else [])) s t) ∧
        (∀ p : Fin 64, p.val ≠ getF s (engF F.BTL_ENG_PINS_INPIN e) → t.balls.getLsbD p = s.balls.getLsbD p) ∧
        engBalls e s t) ∧
  (∀ (e : Fin 16) (ext : Word) (c : Fin 2) (m : Fin 32) (s : State), atWord e (0x3400 + 512 * c.val + 16 * m.val) s → isSet s (engF F.BTL_ENG_SHCFG_FRAMEEN e) = true → isSet s (engF F.BTL_ENG_SHCFG_RXEN e) = true → isSet s (engF F.BTL_ENG_SHCFG_TXEN e) = false → getF s (engF F.BTL_ENG_STAT_BC e) = 0 → frameLen s e = m.val + 1 → (s.engine e).rx.length < 4 → (c = 0 ∨ (getF s (engF F.BTL_ENG_PINS_INPIN e) ≠ getF s (engF F.BTL_ENG_PINS_CLKPIN e) ∧ getF s (engF F.BTL_ENG_PINS_INPIN e) + 12 ≠ getF s (engF F.BTL_ENG_PINS_CLKPIN e))) → 
      ∃ t, Sys2Proof.Machine.exec (.clockIn e ext) s = .next t ∧
        getF t (engF F.BTL_ENG_STAT_BC e) = 0 ∧
        getF t (engF F.BTL_ENG_STAT_LEFT e) = 0 ∧
        (t.engine e).rx = (s.engine e).rx ++ [(t.engine e).rx.getLast?.getD 0] ∧
        (∀ n : Fin 32, ((t.engine e).rx.getLast?.getD 0).getLsbD n = (decide (n.val ≤ m.val) && pinRead t (getF s (engF F.BTL_ENG_PINS_INPIN e)) (ext.getLsbD (if isSet s (engF F.BTL_ENG_SHCFG_MSBFIRST e) then m.val - n.val else n.val)))) ∧
        getF t (engF F.BTL_ENG_STAT_RXLVL e) = (s.engine e).rx.length + 1 ∧
        getF t (engF F.BTL_ENG_STAT_PC e) = (s.engine e).next % 64 ∧
        (sameRegs ([A.BTL_ENG_STAT (e / 8) (e % 8)] ++ [A.BTL_PIN 0 (getF s (engF F.BTL_ENG_PINS_INPIN e))] ++ (if c = 1 then pinWords (getF s (engF F.BTL_ENG_PINS_CLKPIN e)) else [])) s t) ∧
        (∀ p : Fin 64, p.val ≠ getF s (engF F.BTL_ENG_PINS_INPIN e) → t.balls.getLsbD p = s.balls.getLsbD p) ∧
        engBalls e s t) ∧
  (∀ (e : Fin 16) (ext : Word) (c : Fin 2) (m : Fin 32) (s : State), atWord e (0x3000 + 512 * c.val + 16 * m.val) s → isSet s (engF F.BTL_ENG_SHCFG_FRAMEEN e) = true → isSet s (engF F.BTL_ENG_SHCFG_RXEN e) = false → isSet s (engF F.BTL_ENG_SHCFG_TXEN e) = true → getF s (engF F.BTL_ENG_STAT_BC e) = 0 → frameLen s e = m.val + 1 → (s.engine e).tx = [] → 
      ∃ t, Sys2Proof.Machine.exec (.clockOut e ext) s = .next t ∧
        engState t e = 2 ∧
        getF t (engF F.BTL_ENG_STAT_STALLBY e) = 1 ∧
        getF t (engF F.BTL_ENG_STAT_LEFT e) = 0 ∧
        (t.engine e).takeDue = true ∧
        (t.engine e).giveDue = false ∧
        getF t (engF F.BTL_ENG_STAT_PC e) = (s.engine e).next % 64 ∧
        (sameRegs ([A.BTL_ENG_STAT (e / 8) (e % 8), A.BTL_STATUS (e / 8)] ++ pinWords (getF s (engF F.BTL_ENG_PINS_OUTPIN e)) ++ (if c = 1 then pinWords (getF s (engF F.BTL_ENG_PINS_CLKPIN e)) else [])) s t) ∧
        engOnly e s t) ∧
  (∀ (e : Fin 16) (ext : Word) (c : Fin 2) (m : Fin 32) (s : State), atWord e (0x3800 + 512 * c.val + 16 * m.val) s → isSet s (engF F.BTL_ENG_SHCFG_FRAMEEN e) = false → getF s (engF F.BTL_ENG_PINS_INPIN e) ≠ getF s (engF F.BTL_ENG_PINS_OUTPIN e) → getF s (engF F.BTL_ENG_PINS_INPIN e) + 12 ≠ getF s (engF F.BTL_ENG_PINS_OUTPIN e) → (c = 0 ∨ (getF s (engF F.BTL_ENG_PINS_INPIN e) ≠ getF s (engF F.BTL_ENG_PINS_CLKPIN e) ∧ getF s (engF F.BTL_ENG_PINS_INPIN e) + 12 ≠ getF s (engF F.BTL_ENG_PINS_CLKPIN e))) → 
      ∃ t, Sys2Proof.Machine.exec (.clockDuplex e ext) s = .next t ∧
        (t.engine e) = { latched (0x3800 + 512 * c.val + 16 * m.val) (s.engine e) with sr := (t.engine e).sr } ∧
        (∀ n : Fin 32, n.val ≤ m.val → (t.engine e).sr.getLsbD (if isSet s (engF F.BTL_ENG_SHCFG_MSBFIRST e) then m.val - n.val else 31 - m.val + n.val) = pinRead t (getF s (engF F.BTL_ENG_PINS_INPIN e)) (ext.getLsbD n)) ∧
        (m.val = 31 ∨ ∀ n : Fin 32, n.val + m.val < 31 → (t.engine e).sr.getLsbD (if isSet s (engF F.BTL_ENG_SHCFG_MSBFIRST e) then n.val + m.val + 1 else n.val) = (s.engine e).sr.getLsbD (if isSet s (engF F.BTL_ENG_SHCFG_MSBFIRST e) then n.val else n.val + m.val + 1)) ∧
        getF t (engF F.BTL_ENG_STAT_BC e) = min 32 (getF s (engF F.BTL_ENG_STAT_BC e) + m.val + 1) ∧
        getF t (engF F.BTL_ENG_STAT_LEFT e) = 0 ∧
        (t.sent = (List.range (m.val + 1)).flatMap fun n => [{ chan := .beetle e, bytes := [b8 (getF s (engF F.BTL_ENG_PINS_OUTPIN e)), b8 (getF s (F.BTL_PIN_DIR 0 (getF s (engF F.BTL_ENG_PINS_OUTPIN e)))), b8 (bit ((s.engine e).sr.getLsbD (if isSet s (engF F.BTL_ENG_SHCFG_MSBFIRST e) then 31 - n else n)))] }] ++ if c = 0 then [] else [!isSet s (engF F.BTL_ENG_SHCFG_CPOL e), isSet s (engF F.BTL_ENG_SHCFG_CPOL e)].map fun v => { chan := .beetle e, bytes := [b8 (getF s (engF F.BTL_ENG_PINS_CLKPIN e)), b8 (getF s (F.BTL_PIN_DIR 0 (getF s (engF F.BTL_ENG_PINS_CLKPIN e)))), b8 (bit v)] }) ∧
        getF t (engF F.BTL_ENG_STAT_PC e) = (s.engine e).next % 64 ∧
        (sameRegs ([A.BTL_ENG_STAT (e / 8) (e % 8)] ++ pinWords (getF s (engF F.BTL_ENG_PINS_OUTPIN e)) ++ [A.BTL_PIN 0 (getF s (engF F.BTL_ENG_PINS_INPIN e))] ++ (if c = 1 then pinWords (getF s (engF F.BTL_ENG_PINS_CLKPIN e)) else [])) s t) ∧
        (∀ p : Fin 64, p.val ≠ getF s (engF F.BTL_ENG_PINS_INPIN e) → t.balls.getLsbD p = s.balls.getLsbD p) ∧
        engBalls e s t) ∧
  (∀ (e : Fin 16) (mask value : BitVec 5) (s : State), atWord e (0x4000 + 32 * mask.toNat + value.toNat) s → 
      ∃ t, Sys2Proof.Machine.exec (.pinsetValues e) s = .next t ∧
        (t.engine e) = latched (0x4000 + 32 * mask.toNat + value.toNat) (s.engine e) ∧
        (∀ n : Fin 5, n.val < getF s (engF F.BTL_ENG_CTL_SETCNT e) → mask.getLsbD n = true → isSet t (F.BTL_PIN_VAL 0 (setPin s e n)) = value.getLsbD n ∧ getF t (F.BTL_PIN_WRITER 0 (setPin s e n)) = e) ∧
        (∀ n : Fin 5, mask.getLsbD n = false → rd t (A.BTL_PIN 0 (setPin s e n)) = rd s (A.BTL_PIN 0 (setPin s e n))) ∧
        getF t (engF F.BTL_ENG_STAT_PC e) = (s.engine e).next % 64 ∧
        (sameRegs ([A.BTL_ENG_STAT (e / 8) (e % 8)] ++ ((List.range 5).flatMap fun n => pinWords (setPin s e n))) s t) ∧
        engOnly e s t) ∧
  (∀ (e : Fin 16) (mask value : BitVec 5) (s : State), atWord e (0x4800 + 32 * mask.toNat + value.toNat) s → 
      ∃ t, Sys2Proof.Machine.exec (.pinsetDirections e) s = .next t ∧
        (t.engine e) = latched (0x4800 + 32 * mask.toNat + value.toNat) (s.engine e) ∧
        (∀ n : Fin 5, n.val < getF s (engF F.BTL_ENG_CTL_SETCNT e) → mask.getLsbD n = true → isSet t (F.BTL_PIN_DIR 0 (setPin s e n)) = value.getLsbD n ∧ getF t (F.BTL_PIN_WRITER 0 (setPin s e n)) = e) ∧
        (∀ n : Fin 5, mask.getLsbD n = false → rd t (A.BTL_PIN 0 (setPin s e n)) = rd s (A.BTL_PIN 0 (setPin s e n))) ∧
        getF t (engF F.BTL_ENG_STAT_PC e) = (s.engine e).next % 64 ∧
        (sameRegs ([A.BTL_ENG_STAT (e / 8) (e % 8)] ++ ((List.range 5).flatMap fun n => pinWords (setPin s e n))) s t) ∧
        engOnly e s t) ∧
  (∀ (e : Fin 16) (ext : BitVec 64) (pol : Bool) (p : Fin 64) (s : State), atWord e (0x5000 + 512 * bit pol + p.val) s → 
      ∃ t, Sys2Proof.Machine.exec (.waitforLevel e ext) s = .next t ∧
        ((t.engine e) = { latched (0x5000 + 512 * bit pol + p.val) (s.engine e) with await := if pinLevel t p = pol then none else some (.level p pol) }) ∧
        (∀ p : Fin 64, pinLevel t p = pinRead s p (ext.getLsbD p)) ∧
        getF t (engF F.BTL_ENG_STAT_PC e) = (s.engine e).next % 64 ∧
        sameRegs ([A.BTL_ENG_STAT (e / 8) (e % 8)] ++ (List.range 64).map (A.BTL_PIN 0)) s t ∧
        t.balls = ext ∧
        engBalls e s t) ∧
  (∀ (e : Fin 16) (ext : BitVec 64) (pol : Bool) (p : Fin 64) (s : State), atWord e (0x5400 + 512 * bit pol + p.val) s → 
      ∃ t, Sys2Proof.Machine.exec (.waitforEdge e ext) s = .next t ∧
        (t.engine e) = { latched (0x5400 + 512 * bit pol + p.val) (s.engine e) with await := some (.edge p pol false) } ∧
        (∀ p : Fin 64, pinLevel t p = pinRead s p (ext.getLsbD p)) ∧
        getF t (engF F.BTL_ENG_STAT_PC e) = (s.engine e).next % 64 ∧
        sameRegs ([A.BTL_ENG_STAT (e / 8) (e % 8)] ++ (List.range 64).map (A.BTL_PIN 0)) s t ∧
        t.balls = ext ∧
        engBalls e s t) ∧
  (∀ (e : Fin 16) (pol : Bool) (p : Fin 16) (s : State), atWord e (0x5800 + 512 * bit pol + p.val) s → 
      ∃ t, Sys2Proof.Machine.exec (.waitforFlag e) s = .next t ∧
        ((t.engine e) = { latched (0x5800 + 512 * bit pol + p.val) (s.engine e) with await := if (rd s (A.BTL_FLAGS (e / 8))).getLsbD p = pol then none else some (.flag p pol) }) ∧
        getF t (engF F.BTL_ENG_STAT_PC e) = (s.engine e).next % 64 ∧
        sameRegs ([A.BTL_ENG_STAT (e / 8) (e % 8)]) s t ∧
        engOnly e s t) ∧
  (∀ (e : Fin 16) (n : Fin 1024) (s : State), atWord e (0x5C00 + n.val) s → 
      ∃ t, Sys2Proof.Machine.exec (.waitforTime e) s = .next t ∧
        ((t.engine e) = { latched (0x5C00 + n.val) (s.engine e) with await := if getF s (engF F.BTL_ENG_CTL_DIV e) = 0 then none else some (.until (s.now + (n.val + 1) * getF s (engF F.BTL_ENG_CTL_DIV e) * 5)) }) ∧
        getF t (engF F.BTL_ENG_STAT_PC e) = (s.engine e).next % 64 ∧
        sameRegs ([A.BTL_ENG_STAT (e / 8) (e % 8)]) s t ∧
        engOnly e s t) ∧
  (∀ (e : Fin 16) (c : Fin 2) (v : Word) (l : List Word) (s : State), atWord e (0x6000 + 1024 * c.val) s → (s.engine e).tx = v :: l → (s.engine e).tx.length ≤ 4 → (s.engine e).rx.length ≤ 4 → 
      ∃ t, Sys2Proof.Machine.exec (.fifoTake e) s = .next t ∧
        ((t.engine e) = { latched (0x6000 + 1024 * c.val) (s.engine e) with tx := l, sr := if isSet s (engF F.BTL_ENG_SHCFG_MSBFIRST e) then v <<< (32 - frameLen s e) else v }) ∧
        getF t (engF F.BTL_ENG_STAT_BC e) = 0 ∧
        getF t (engF F.BTL_ENG_STAT_TXLVL e) = l.length ∧
        getF t (engF F.BTL_ENG_STAT_PC e) = (s.engine e).next % 64 ∧
        sameRegs ([A.BTL_ENG_STAT (e / 8) (e % 8)]) s t ∧
        engOnly e s t) ∧
  (∀ (e : Fin 16) (c : Fin 2) (s : State), atWord e (0x6000 + 1024 * c.val) s → (s.engine e).tx = [] → 
      ∃ t, Sys2Proof.Machine.exec (.fifoTake e) s = .next t ∧
        (t.engine e) = { latched (0x6000 + 1024 * c.val) (s.engine e) with takeDue := c == 0 || (s.engine e).takeDue } ∧
        (engState t e = if c = 0 then 2 else 1) ∧
        (c = 1 ∨ getF t (engF F.BTL_ENG_STAT_STALLBY e) = 1) ∧
        getF t (engF F.BTL_ENG_STAT_BC e) = getF s (engF F.BTL_ENG_STAT_BC e) ∧
        getF t (engF F.BTL_ENG_STAT_PC e) = (s.engine e).next % 64 ∧
        sameRegs ([A.BTL_ENG_STAT (e / 8) (e % 8), A.BTL_STATUS (e / 8)]) s t ∧
        engOnly e s t) ∧
  (∀ (e : Fin 16) (c : Fin 2) (s : State), atWord e (0x6800 + 1024 * c.val) s → (s.engine e).rx.length < 4 → getF s (engF F.BTL_ENG_STAT_BC e) ≤ 32 → 
      ∃ t, Sys2Proof.Machine.exec (.fifoGive e) s = .next t ∧
        ((t.engine e) = { latched (0x6800 + 1024 * c.val) (s.engine e) with rx := (s.engine e).rx ++ [if getF s (engF F.BTL_ENG_STAT_BC e) = 0 then 0 else if isSet s (engF F.BTL_ENG_SHCFG_MSBFIRST e) then (s.engine e).sr &&& ((1#32 <<< (getF s (engF F.BTL_ENG_STAT_BC e))) - 1#32) else (s.engine e).sr >>> (32 - getF s (engF F.BTL_ENG_STAT_BC e))] }) ∧
        getF t (engF F.BTL_ENG_STAT_BC e) = 0 ∧
        getF t (engF F.BTL_ENG_STAT_RXLVL e) = (s.engine e).rx.length + 1 ∧
        getF t (engF F.BTL_ENG_STAT_PC e) = (s.engine e).next % 64 ∧
        sameRegs ([A.BTL_ENG_STAT (e / 8) (e % 8)]) s t ∧
        engOnly e s t) ∧
  (∀ (e : Fin 16)  (s : State), atWord e (0x6800) s → 4 ≤ (s.engine e).rx.length → 
      ∃ t, Sys2Proof.Machine.exec (.fifoGive e) s = .next t ∧
        (t.engine e) = { latched (0x6800) (s.engine e) with giveDue := true } ∧
        engState t e = 2 ∧
        getF t (engF F.BTL_ENG_STAT_STALLBY e) = 2 ∧
        getF t (engF F.BTL_ENG_STAT_BC e) = getF s (engF F.BTL_ENG_STAT_BC e) ∧
        getF t (engF F.BTL_ENG_STAT_PC e) = (s.engine e).next % 64 ∧
        sameRegs ([A.BTL_ENG_STAT (e / 8) (e % 8), A.BTL_STATUS (e / 8)]) s t ∧
        engOnly e s t) ∧
  (∀ (e : Fin 16)  (s : State), atWord e (0x6C00) s → 4 ≤ (s.engine e).rx.length → merges s (A.BTL_EVT (e / 8)) (e % 8) = false → 
      ∃ t, Sys2Proof.Machine.exec (.fifoGive e) s = .next t ∧
        (t.engine e) = latched (0x6C00) (s.engine e) ∧
        engState t e = 1 ∧
        getF t (engF F.BTL_ENG_STAT_BC e) = 0 ∧
        getF t (engF F.BTL_ENG_CNT_RXOVF e) = min 65535 (getF s (engF F.BTL_ENG_CNT_RXOVF e) + 1) ∧
        hasEvent s t (A.BTL_EVT (e / 8)) (e % 8) ∧
        getF t (engF F.BTL_ENG_STAT_PC e) = (s.engine e).next % 64 ∧
        sameRegs ([A.BTL_ENG_STAT (e / 8) (e % 8), A.BTL_EVT (e / 8), A.BTL_ENG_CNT (e / 8) (e % 8)] ++ pendWords) s t ∧
        t = { s with regs := t.regs, btl := t.btl, evtLast := t.evtLast, lkp := { s.lkp with srcVal := t.lkp.srcVal }, sent := t.sent }) ∧
  (∀ (e : Fin 16)  (s : State), atWord e (0x7000) s → 
      ∃ t, Sys2Proof.Machine.exec (.xformClear e) s = .next t ∧
        (t.engine e) = { latched (0x7000) (s.engine e) with sr := 0 } ∧
        getF t (engF F.BTL_ENG_STAT_BC e) = 0 ∧
        getF t (engF F.BTL_ENG_STAT_PC e) = (s.engine e).next % 64 ∧
        sameRegs ([A.BTL_ENG_STAT (e / 8) (e % 8)]) s t ∧
        engOnly e s t) ∧
  (∀ (e : Fin 16)  (s : State), atWord e (0x7100) s → 
      ∃ t, Sys2Proof.Machine.exec (.xformInvert e) s = .next t ∧
        (t.engine e) = { latched (0x7100) (s.engine e) with sr := ~~~(s.engine e).sr } ∧
        getF t (engF F.BTL_ENG_STAT_BC e) = getF s (engF F.BTL_ENG_STAT_BC e) ∧
        getF t (engF F.BTL_ENG_STAT_PC e) = (s.engine e).next % 64 ∧
        sameRegs ([A.BTL_ENG_STAT (e / 8) (e % 8)]) s t ∧
        engOnly e s t) ∧
  (∀ (e : Fin 16)  (s : State), atWord e (0x7200) s → 
      ∃ t, Sys2Proof.Machine.exec (.xformReverse e) s = .next t ∧
        (t.engine e) = { latched (0x7200) (s.engine e) with sr := (t.engine e).sr } ∧
        getF t (engF F.BTL_ENG_STAT_BC e) = getF s (engF F.BTL_ENG_STAT_BC e) ∧
        (∀ n : Fin 32, (t.engine e).sr.getLsbD n = (s.engine e).sr.getLsbD (31 - n.val)) ∧
        getF t (engF F.BTL_ENG_STAT_PC e) = (s.engine e).next % 64 ∧
        sameRegs ([A.BTL_ENG_STAT (e / 8) (e % 8)]) s t ∧
        engOnly e s t) ∧
  (∀ (e : Fin 16)  (s : State), atWord e (0x7300) s → 
      ∃ t, Sys2Proof.Machine.exec (.xformGray e) s = .next t ∧
        (t.engine e) = { latched (0x7300) (s.engine e) with sr := (t.engine e).sr } ∧
        getF t (engF F.BTL_ENG_STAT_BC e) = getF s (engF F.BTL_ENG_STAT_BC e) ∧
        (t.engine e).sr ^^^ ((t.engine e).sr >>> 1) = (s.engine e).sr ∧
        getF t (engF F.BTL_ENG_STAT_PC e) = (s.engine e).next % 64 ∧
        sameRegs ([A.BTL_ENG_STAT (e / 8) (e % 8)]) s t ∧
        engOnly e s t) ∧
  (∀ (e : Fin 16)  (s : State), atWord e (0x7400) s → 
      ∃ t, Sys2Proof.Machine.exec (.xformJustify e) s = .next t ∧
        ((t.engine e) = { latched (0x7400) (s.engine e) with sr := if isSet s (engF F.BTL_ENG_SHCFG_MSBFIRST e) = false ∧ 1 ≤ getF s (engF F.BTL_ENG_STAT_BC e) ∧ getF s (engF F.BTL_ENG_STAT_BC e) ≤ 31 then (s.engine e).sr >>> (32 - getF s (engF F.BTL_ENG_STAT_BC e)) else (s.engine e).sr }) ∧
        getF t (engF F.BTL_ENG_STAT_BC e) = getF s (engF F.BTL_ENG_STAT_BC e) ∧
        getF t (engF F.BTL_ENG_STAT_PC e) = (s.engine e).next % 64 ∧
        sameRegs ([A.BTL_ENG_STAT (e / 8) (e % 8)]) s t ∧
        engOnly e s t) ∧
  (∀ (e : Fin 16) (ext : BitVec 64) (s : State), atWord e (0x7500) s → 
      ∃ t, Sys2Proof.Machine.exec (.xformSample e ext) s = .next t ∧
        (t.engine e) = { latched (0x7500) (s.engine e) with sr := (t.engine e).sr } ∧
        (∀ n : Fin 32, (t.engine e).sr.getLsbD n = pinLevel t ((getF s (engF F.BTL_ENG_PINS_INPIN e) + n.val) % 64)) ∧
        (∀ p : Fin 64, pinLevel t p = pinRead s p (ext.getLsbD p)) ∧
        getF t (engF F.BTL_ENG_STAT_BC e) = 0 ∧
        getF t (engF F.BTL_ENG_STAT_PC e) = (s.engine e).next % 64 ∧
        sameRegs ([A.BTL_ENG_STAT (e / 8) (e % 8)] ++ (List.range 64).map (A.BTL_PIN 0)) s t ∧
        t.balls = ext ∧
        engBalls e s t) ∧
  (∀ (e : Fin 16)  (s : State), atWord e (0x7600) s → 
      ∃ t, Sys2Proof.Machine.exec (.xformDrive e) s = .next t ∧
        (t.engine e) = latched (0x7600) (s.engine e) ∧
        getF t (engF F.BTL_ENG_STAT_BC e) = getF s (engF F.BTL_ENG_STAT_BC e) ∧
        (∀ n : Fin 5, n.val < getF s (engF F.BTL_ENG_CTL_SETCNT e) → isSet t (F.BTL_PIN_VAL 0 (setPin s e n)) = (s.engine e).sr.getLsbD n ∧ getF t (F.BTL_PIN_WRITER 0 (setPin s e n)) = e) ∧
        getF t (engF F.BTL_ENG_STAT_PC e) = (s.engine e).next % 64 ∧
        (sameRegs ([A.BTL_ENG_STAT (e / 8) (e % 8)] ++ ((List.range 5).flatMap fun n => pinWords (setPin s e n))) s t) ∧
        engOnly e s t) ∧
  (∀ (e : Fin 16)  (s : State), atWord e (0x7700) s → 
      ∃ t, Sys2Proof.Machine.exec (.xformStatus e) s = .next t ∧
        (t.engine e) = { latched (0x7700) (s.engine e) with sr := rd t (engStatAt e) } ∧
        getF t (engF F.BTL_ENG_STAT_BC e) = getF s (engF F.BTL_ENG_STAT_BC e) ∧
        getF t (engF F.BTL_ENG_STAT_PC e) = (s.engine e).next % 64 ∧
        sameRegs ([A.BTL_ENG_STAT (e / 8) (e % 8)]) s t ∧
        engOnly e s t) ∧
  (∀ (e : Fin 16)  (s : State), atWord e (0x7800) s → 
      ∃ t, Sys2Proof.Machine.exec (.xformTok0 e) s = .next t ∧
        (t.engine e) = latched (0x7800) (s.engine e) ∧
        getF t (engF F.BTL_ENG_STAT_BC e) = getF s (engF F.BTL_ENG_STAT_BC e) ∧
        getF t (counterF e 0) = (s.engine e).sr.toNat % 65536 ∧
        getF t (counterF e 1) = getF s (counterF e 1) ∧
        getF t (engF F.BTL_ENG_STAT_PC e) = (s.engine e).next % 64 ∧
        sameRegs ([A.BTL_ENG_STAT (e / 8) (e % 8), A.BTL_ENG_K (e / 8) (e % 8)]) s t ∧
        engOnly e s t) ∧
  (∀ (e : Fin 16)  (s : State), atWord e (0x7900) s → 
      ∃ t, Sys2Proof.Machine.exec (.xformTok1 e) s = .next t ∧
        (t.engine e) = latched (0x7900) (s.engine e) ∧
        getF t (engF F.BTL_ENG_STAT_BC e) = getF s (engF F.BTL_ENG_STAT_BC e) ∧
        getF t (counterF e 1) = (s.engine e).sr.toNat % 65536 ∧
        getF t (counterF e 0) = getF s (counterF e 0) ∧
        getF t (engF F.BTL_ENG_STAT_PC e) = (s.engine e).next % 64 ∧
        sameRegs ([A.BTL_ENG_STAT (e / 8) (e % 8), A.BTL_ENG_K (e / 8) (e % 8)]) s t ∧
        engOnly e s t) ∧
  (∀ (e : Fin 16) (c : Fin 2) (n : Fin 1024) (s : State), atWord e (0x8000 + 2048 * c.val + n.val) s → 
      ∃ t, Sys2Proof.Machine.exec (.setk e) s = .next t ∧
        (t.engine e) = latched (0x8000 + 2048 * c.val + n.val) (s.engine e) ∧
        getF t (counterF e c) = n.val ∧
        getF t (counterF e (1 - c.val)) = getF s (counterF e (1 - c.val)) ∧
        getF t (engF F.BTL_ENG_STAT_PC e) = (s.engine e).next % 64 ∧
        sameRegs ([A.BTL_ENG_STAT (e / 8) (e % 8), A.BTL_ENG_K (e / 8) (e % 8)]) s t ∧
        engOnly e s t) ∧
  (∀ (e : Fin 16) (p : Fin 16) (s : State), atWord e (0x9000 + p.val) s → 
      ∃ t, Sys2Proof.Machine.exec (.signalSet e) s = .next t ∧
        (t.engine e) = latched (0x9000 + p.val) (s.engine e) ∧
        (rd t (A.BTL_FLAGS (e / 8))).getLsbD p = (true) ∧
        (∀ q : Fin 32, q.val ≠ p.val → (rd t (A.BTL_FLAGS (e / 8))).getLsbD q = (rd s (A.BTL_FLAGS (e / 8))).getLsbD q) ∧
        getF t (engF F.BTL_ENG_STAT_PC e) = (s.engine e).next % 64 ∧
        sameRegs ([A.BTL_ENG_STAT (e / 8) (e % 8), A.BTL_FLAGS (e / 8)]) s t ∧
        engOnly e s t) ∧
  (∀ (e : Fin 16) (p : Fin 16) (s : State), atWord e (0x9400 + p.val) s → 
      ∃ t, Sys2Proof.Machine.exec (.signalClr e) s = .next t ∧
        (t.engine e) = latched (0x9400 + p.val) (s.engine e) ∧
        (rd t (A.BTL_FLAGS (e / 8))).getLsbD p = (false) ∧
        (∀ q : Fin 32, q.val ≠ p.val → (rd t (A.BTL_FLAGS (e / 8))).getLsbD q = (rd s (A.BTL_FLAGS (e / 8))).getLsbD q) ∧
        getF t (engF F.BTL_ENG_STAT_PC e) = (s.engine e).next % 64 ∧
        sameRegs ([A.BTL_ENG_STAT (e / 8) (e % 8), A.BTL_FLAGS (e / 8)]) s t ∧
        engOnly e s t) ∧
  (∀ (e : Fin 16) (p : Fin 16) (s : State), atWord e (0x9c00 + p.val) s → 
      ∃ t, Sys2Proof.Machine.exec (.signalToggle e) s = .next t ∧
        (t.engine e) = latched (0x9c00 + p.val) (s.engine e) ∧
        (rd t (A.BTL_FLAGS (e / 8))).getLsbD p = (!(rd s (A.BTL_FLAGS (e / 8))).getLsbD p) ∧
        (∀ q : Fin 32, q.val ≠ p.val → (rd t (A.BTL_FLAGS (e / 8))).getLsbD q = (rd s (A.BTL_FLAGS (e / 8))).getLsbD q) ∧
        getF t (engF F.BTL_ENG_STAT_PC e) = (s.engine e).next % 64 ∧
        sameRegs ([A.BTL_ENG_STAT (e / 8) (e % 8), A.BTL_FLAGS (e / 8)]) s t ∧
        engOnly e s t) ∧
  (∀ (e : Fin 16) (p : Fin 16) (s : State), atWord e (0x9800 + p.val) s → 
      ∃ t, Sys2Proof.Machine.exec (.signalEvent e) s = .next t ∧
        (t.engine e) = latched (0x9800 + p.val) (s.engine e) ∧
        isSet t ⟨A.LKP_PEND ((520 + e.val) / 32), (520 + e.val) % 32, 1⟩ = true ∧
        getF t (engF F.BTL_ENG_STAT_PC e) = (s.engine e).next % 64 ∧
        sameRegs ([A.BTL_ENG_STAT (e / 8) (e % 8)] ++ pendWords) s t ∧
        t = { s with regs := t.regs, btl := t.btl, evtLast := t.evtLast, lkp := { s.lkp with srcVal := t.lkp.srcVal }, sent := t.sent })

/-- EN 0 to 1, or RESTART in any state, starts an engine at START with its registers at 0 and its enabled pins as outputs; EN 1 to 0
stops it, releases its pins, and discards its FIFOs where it was stalled; while the Beetle PLL is unlocked each of them waits for
the lock. A stalled engine goes on once its FIFO lets it; a wait ends when its condition holds. A word written to TX is appended,
or counted and dropped on a full FIFO; a read of RX pops one. The RX DMA writes a batch into the input image with quality GOOD,
and AGE ms later turns it UNCERTAIN; the TX DMA appends a batch of output words where there is room. The model's own choices that
clauses rest on: log 81, 82 and 84. Each clause answers a next state by its conditions on the state and the operands alone: so
BTL_ENABLE, BTL_DISABLE, BTL_RESTART, BEETLE_STALL_RESUME, WAITFOR_MET, BTL_TX_WRITE, BTL_RX_READ, BTL_STORE_WRITE,
BTL_FLAGS_WRITE, BTL_RXDMA_BATCH, BTL_RXDMA_AGE and BTL_TXDMA_BATCH complete. -/
def Obligations.BeetleEnginesAndDma : Prop :=
  (∀ (who : Who) (e : Fin 16) (s : State), live s = true → isPriv s who = true → isSet s F.SYS_CLKSTAT_BTLLOCK = true → isSet s ⟨A.BTL_CTL (e / 8), e % 8, 1⟩ = false → unguarded s who = true → 
      ∃ t, Sys2Proof.Machine.exec (.btlEnable who e) s = .next t ∧
        engState t e = 1 ∧
        isSet t ⟨A.BTL_CTL (e / 8), e % 8, 1⟩ = true ∧
        (t.engine e) = { Engine.reset with next := getF s (engF F.BTL_ENG_CTL_START e), batch := (s.engine e).batch } ∧
        getF t (engF F.BTL_ENG_STAT_PC e) = getF s (engF F.BTL_ENG_CTL_START e) ∧
        getF t (engF F.BTL_ENG_STAT_BC e) = 0 ∧
        (getF t (counterF e 0) = 0 ∧ getF t (counterF e 1) = 0) ∧
        (isSet s (engF F.BTL_ENG_PINS_OUTEN e) = false ∨ isSet t (F.BTL_PIN_DIR 0 (getF s (engF F.BTL_ENG_PINS_OUTPIN e))) = true ∧ isSet t (F.BTL_PIN_VAL 0 (getF s (engF F.BTL_ENG_PINS_OUTPIN e))) = false ∧ getF t (F.BTL_PIN_WRITER 0 (getF s (engF F.BTL_ENG_PINS_OUTPIN e))) = e) ∧
        (isSet s (engF F.BTL_ENG_PINS_CLKEN e) = false ∨ getF s (engF F.BTL_ENG_PINS_OUTPIN e) = getF s (engF F.BTL_ENG_PINS_CLKPIN e) ∨ isSet t (F.BTL_PIN_DIR 0 (getF s (engF F.BTL_ENG_PINS_CLKPIN e))) = true ∧ isSet t (F.BTL_PIN_VAL 0 (getF s (engF F.BTL_ENG_PINS_CLKPIN e))) = isSet s (engF F.BTL_ENG_SHCFG_CPOL e) ∧ getF t (F.BTL_PIN_WRITER 0 (getF s (engF F.BTL_ENG_PINS_CLKPIN e))) = e) ∧
        sameRegs ([A.BTL_CTL (e / 8), A.BTL_STATUS (e / 8), A.BTL_ENG_STAT (e / 8) (e % 8), A.BTL_ENG_K (e / 8) (e % 8)] ++ pinWords (getF s (engF F.BTL_ENG_PINS_CLKPIN e)) ++ pinWords (getF s (engF F.BTL_ENG_PINS_OUTPIN e))) s t ∧
        engOnly e s t) ∧
  (∀ (who : Who) (e : Fin 16) (s : State), live s = true → isPriv s who = true → isSet s F.SYS_CLKSTAT_BTLLOCK = false → isSet s ⟨A.BTL_CTL (e / 8), e % 8, 1⟩ = false → unguarded s who = true → 
      ∃ t, Sys2Proof.Machine.exec (.btlEnable who e) s = .next t ∧
        t.engine e = { s.engine e with due := (s.engine e).due ++ [.start] } ∧
        isSet t ⟨A.BTL_CTL (e / 8), e % 8, 1⟩ = true ∧
        sameRegs [A.BTL_CTL (e / 8)] s t ∧
        engOnly e s t) ∧
  (∀ (who : Who) (e : Fin 16) (s : State), live s = true → isPriv s who = true → isSet s F.SYS_CLKSTAT_BTLLOCK = true → isSet s ⟨A.BTL_CTL (e / 8), e % 8, 1⟩ = true → isSet s (engF F.BTL_ENG_RXDMA_EN e) = false → unguarded s who = true → 
      ∃ t, Sys2Proof.Machine.exec (.btlDisable who e) s = .next t ∧
        engState t e = 0 ∧
        isSet t ⟨A.BTL_CTL (e / 8), e % 8, 1⟩ = false ∧
        (∀ p : Fin 64, getF s (F.BTL_PIN_WRITER 0 p) = e.val → getF t (F.BTL_PIN_WRITER 0 p) = 31 ∧ isSet t (F.BTL_PIN_DIR 0 p) = false) ∧
        (∀ p : Fin 64, getF s (F.BTL_PIN_WRITER 0 p) ≠ e.val → getF t (F.BTL_PIN_WRITER 0 p) = getF s (F.BTL_PIN_WRITER 0 p) ∧ isSet t (F.BTL_PIN_DIR 0 p) = isSet s (F.BTL_PIN_DIR 0 p) ∧ isSet t (F.BTL_PIN_VAL 0 p) = isSet s (F.BTL_PIN_VAL 0 p)) ∧
        (t.engine e).await = none ∧
        ((t.engine e).tx = if engState s e = 2 then [] else (s.engine e).tx) ∧
        ((t.engine e).rx = if engState s e = 2 then [] else (s.engine e).rx) ∧
        getF t (engF F.BTL_ENG_STAT_LEFT e) = 0 ∧
        sameRegs ([A.BTL_CTL (e / 8), A.BTL_STATUS (e / 8), A.BTL_ENG_STAT (e / 8) (e % 8)] ++ (List.range 64).map (A.BTL_PIN 0)) s t ∧
        engOnly e s t) ∧
  (∀ (who : Who) (e : Fin 16) (s : State), live s = true → isPriv s who = true → isSet s F.SYS_CLKSTAT_BTLLOCK = false → isSet s ⟨A.BTL_CTL (e / 8), e % 8, 1⟩ = true → unguarded s who = true → 
      ∃ t, Sys2Proof.Machine.exec (.btlDisable who e) s = .next t ∧
        t.engine e = { s.engine e with due := (s.engine e).due ++ [.stop] } ∧
        isSet t ⟨A.BTL_CTL (e / 8), e % 8, 1⟩ = false ∧
        sameRegs [A.BTL_CTL (e / 8)] s t ∧
        engOnly e s t) ∧
  (∀ (who : Who) (e : Fin 16) (s : State), live s = true → isPriv s who = true → isSet s F.SYS_CLKSTAT_BTLLOCK = true → unguarded s who = true → 
      ∃ t, Sys2Proof.Machine.exec (.btlRestart who e) s = .next t ∧
        engState t e = 1 ∧
        isSet t ⟨A.BTL_CTL (e / 8), e % 8, 1⟩ = true ∧
        (t.engine e) = { Engine.reset with next := getF s (engF F.BTL_ENG_CTL_START e), batch := (s.engine e).batch } ∧
        getF t (engF F.BTL_ENG_STAT_PC e) = getF s (engF F.BTL_ENG_CTL_START e) ∧
        getF t (engF F.BTL_ENG_STAT_BC e) = 0 ∧
        (getF t (counterF e 0) = 0 ∧ getF t (counterF e 1) = 0) ∧
        (isSet s (engF F.BTL_ENG_PINS_OUTEN e) = false ∨ isSet t (F.BTL_PIN_DIR 0 (getF s (engF F.BTL_ENG_PINS_OUTPIN e))) = true ∧ isSet t (F.BTL_PIN_VAL 0 (getF s (engF F.BTL_ENG_PINS_OUTPIN e))) = false ∧ getF t (F.BTL_PIN_WRITER 0 (getF s (engF F.BTL_ENG_PINS_OUTPIN e))) = e) ∧
        (isSet s (engF F.BTL_ENG_PINS_CLKEN e) = false ∨ getF s (engF F.BTL_ENG_PINS_OUTPIN e) = getF s (engF F.BTL_ENG_PINS_CLKPIN e) ∨ isSet t (F.BTL_PIN_DIR 0 (getF s (engF F.BTL_ENG_PINS_CLKPIN e))) = true ∧ isSet t (F.BTL_PIN_VAL 0 (getF s (engF F.BTL_ENG_PINS_CLKPIN e))) = isSet s (engF F.BTL_ENG_SHCFG_CPOL e) ∧ getF t (F.BTL_PIN_WRITER 0 (getF s (engF F.BTL_ENG_PINS_CLKPIN e))) = e) ∧
        sameRegs ([A.BTL_CTL (e / 8), A.BTL_STATUS (e / 8), A.BTL_ENG_STAT (e / 8) (e % 8), A.BTL_ENG_K (e / 8) (e % 8), A.BTL_PIN 0 (getF s (engF F.BTL_ENG_PINS_CLKPIN e)), A.BTL_PIN 0 (getF s (engF F.BTL_ENG_PINS_OUTPIN e))] ++ (List.range 64).map (A.BTL_PIN 0)) s t ∧
        engOnly e s t) ∧
  (∀ (who : Who) (e : Fin 16) (s : State), live s = true → isPriv s who = true → isSet s F.SYS_CLKSTAT_BTLLOCK = false → unguarded s who = true → 
      ∃ t, Sys2Proof.Machine.exec (.btlRestart who e) s = .next t ∧
        t.engine e = { s.engine e with due := (s.engine e).due ++ [.restart] } ∧
        sameRegs [A.BTL_CTL (e / 8)] s t ∧
        engOnly e s t) ∧
  (∀ (e : Fin 16) (ext : Word) (v : Word) (l : List Word) (s : State), live s = true → engState s e = 2 → isSet s F.SYS_CLKSTAT_BTLLOCK = true → (s.engine e).giveDue = false → (s.engine e).takeDue = true → (s.engine e).tx = v :: l → (s.engine e).instr / 4096 = 6 → (s.engine e).tx.length ≤ 4 → (s.engine e).rx.length ≤ 4 → 
      ∃ t, Sys2Proof.Machine.exec (.beetleStallResume e ext) s = .next t ∧
        engState t e = 1 ∧
        getF t (engF F.BTL_ENG_STAT_STALLBY e) = 0 ∧
        getF t (engF F.BTL_ENG_STAT_BC e) = 0 ∧
        ((t.engine e) = { (s.engine e) with tx := l, takeDue := false, sr := if isSet s (engF F.BTL_ENG_SHCFG_MSBFIRST e) then v <<< (32 - frameLen s e) else v }) ∧
        sameRegs [A.BTL_ENG_STAT (e / 8) (e % 8), A.BTL_STATUS (e / 8)] s t ∧
        engOnly e s t) ∧
  (∀ (e : Fin 16) (ext : Word) (s : State), live s = true → engState s e = 2 → (s.engine e).giveDue = true → 4 ≤ (s.engine e).rx.length → 
      ∃ t, Sys2Proof.Machine.exec (.beetleStallResume e ext) s = .next t ∧
        engState t e = 2 ∧
        (t.engine e) = (s.engine e) ∧
        engOnly e s t) ∧
  (∀ (e : Fin 16) (ext : BitVec 64) (p : Fin 64) (pol : Bool) (s : State), live s = true → (s.engine e).await = some (.level p pol) → pinRead s p (ext.getLsbD p) = pol → isSet s F.SYS_CLKSTAT_BTLLOCK = true → 
      ∃ t, Sys2Proof.Machine.exec (.waitforMet e ext) s = .next t ∧
        (t.engine e) = { (s.engine e) with await := none } ∧
        sameRegs ((List.range 64).map (A.BTL_PIN 0)) s t ∧
        t.balls = ext ∧
        engBalls e s t) ∧
  (∀ (e : Fin 16) (ext : BitVec 64) (n : Nat) (s : State), live s = true → (s.engine e).await = some (.until n) → n ≤ s.now → isSet s F.SYS_CLKSTAT_BTLLOCK = true → 
      ∃ t, Sys2Proof.Machine.exec (.waitforMet e ext) s = .next t ∧
        (t.engine e) = { (s.engine e) with await := none } ∧
        sameRegs ((List.range 64).map (A.BTL_PIN 0)) s t ∧
        t.balls = ext ∧
        engBalls e s t) ∧
  (∀ (e : Fin 16) (ext : BitVec 64) (p : Fin 16) (pol : Bool) (s : State), live s = true → (s.engine e).await = some (.flag p pol) → isSet s ⟨A.BTL_FLAGS (e / 8), p.val, 1⟩ = pol → isSet s F.SYS_CLKSTAT_BTLLOCK = true → 
      ∃ t, Sys2Proof.Machine.exec (.waitforMet e ext) s = .next t ∧
        (t.engine e) = { (s.engine e) with await := none } ∧
        sameRegs ((List.range 64).map (A.BTL_PIN 0)) s t ∧
        t.balls = ext ∧
        engBalls e s t) ∧
  (∀ (e : Fin 16) (ext : BitVec 64) (n : Nat) (s : State), live s = true → (s.engine e).await = some (.until n) → s.now < n → 
      ∃ t, Sys2Proof.Machine.exec (.waitforMet e ext) s = .next t ∧
        (t.engine e) = (s.engine e)) ∧
  (∀ (e : Fin 16) (ext : BitVec 64) (p : Fin 64) (pol : Bool) (s : State), live s = true → (s.engine e).await = some (.edge p pol false) → isSet s F.SYS_CLKSTAT_BTLLOCK = true → 
      ∃ t, Sys2Proof.Machine.exec (.waitforMet e ext) s = .next t ∧
        ((t.engine e).await = if pinLevel s p ≠ pol ∧ pinRead s p (ext.getLsbD p) = pol then none else some (.edge p pol false)) ∧
        sameRegs ((List.range 64).map (A.BTL_PIN 0)) s t ∧
        t.balls = ext ∧
        engBalls e s t) ∧
  (∀ (who : Who) (e : Fin 16) (v : Word) (s : State), live s = true → isPriv s who = true → (s.engine e).tx.length < 4 → (s.engine e).rx.length ≤ 4 → unguarded s who = true → 
      ∃ t, Sys2Proof.Machine.exec (.btlTxWrite who e v) s = .next t ∧
        (t.engine e) = { (s.engine e) with tx := (s.engine e).tx ++ [v] } ∧
        getF t (engF F.BTL_ENG_STAT_TXLVL e) = (s.engine e).tx.length + 1 ∧
        sameRegs [A.BTL_ENG_STAT (e / 8) (e % 8), A.BTL_ENG_TX (e / 8) (e % 8)] s t ∧
        engOnly e s t) ∧
  (∀ (who : Who) (e : Fin 16) (v : Word) (s : State), live s = true → isPriv s who = true → 4 ≤ (s.engine e).tx.length → merges s (A.BTL_EVT (e / 8)) (e % 8) = false → unguarded s who = true → 
      ∃ t, Sys2Proof.Machine.exec (.btlTxWrite who e v) s = .next t ∧
        (t.engine e) = (s.engine e) ∧
        getF t (engF F.BTL_ENG_CNT_TXDROP e) = min 65535 (getF s (engF F.BTL_ENG_CNT_TXDROP e) + 1) ∧
        hasEvent s t (A.BTL_EVT (e / 8)) (e % 8) ∧
        sameRegs ([A.BTL_EVT (e / 8), A.BTL_ENG_CNT (e / 8) (e % 8), A.BTL_ENG_TX (e / 8) (e % 8)] ++ pendWords) s t ∧
        t = { s with evtLast := t.evtLast, regs := t.regs, sent := t.sent, lkp := { s.lkp with srcVal := t.lkp.srcVal } }) ∧
  (∀ (who : Who) (e : Fin 16) (v : Word) (l : List Word) (s : State), live s = true → isPriv s who = true → isSet s (engF F.BTL_ENG_RXDMA_EN e) = false → (s.engine e).rx = v :: l → (s.engine e).rx.length ≤ 4 → (s.engine e).tx.length ≤ 4 → 
      ∃ t, Sys2Proof.Machine.exec (.btlRxRead who e) s = .next t ∧
        (t.engine e) = { (s.engine e) with rx := l } ∧
        t.sent = [{ chan := .reply who.id, bytes := leBytes 4 v.toNat }] ∧
        getF t (engF F.BTL_ENG_STAT_RXLVL e) = l.length ∧
        sameRegs [A.BTL_ENG_STAT (e / 8) (e % 8)] s t ∧
        t = { s with regs := t.regs, btl := t.btl, rshadow := t.rshadow, sent := t.sent } ∧
        (∀ j : Fin 16, j ≠ e → t.engine j = s.engine j)) ∧
  (∀ (who : Who) (c : Fin 2) (a : Fin 48) (v : BitVec 16) (s : State), live s = true → isPriv s who = true → unguarded s who = true → 
      ∃ t, Sys2Proof.Machine.exec (.btlStoreWrite who c a v) s = .next t ∧
        storeWord t (8 * c.val) a = v.toNat ∧
        sameRegs [A.BTL_STORE c a] s t ∧
        t = { s with regs := t.regs, sent := t.sent }) ∧
  (∀ (who : Who) (c : Fin 2) (v : BitVec 16) (s : State), live s = true → isPriv s who = true → unguarded s who = true → 
      ∃ t, Sys2Proof.Machine.exec (.btlFlagsWrite who c v) s = .next t ∧
        getF t (F.BTL_FLAGS_FLAG c) = v.toNat ∧
        sameRegs [A.BTL_FLAGS c] s t ∧
        t = { s with regs := t.regs, sent := t.sent }) ∧
  (∀ (e : Fin 16) (v : Word) (l : List Word) (s : State), live s = true → isSet s (engF F.BTL_ENG_RXDMA_EN e) = true → getF s (engF F.BTL_ENG_RXDMA_NWM1 e) = 0 → (s.engine e).rx = v :: l → (s.engine e).rx.length ≤ 4 → (s.engine e).tx.length ≤ 4 → getF s (engF F.BTL_ENG_RXDMA_INOFF e) = 0x100 → (engState s e = 1 ∨ engState s e = 2) → s.scan.sources = [(0x100, 0x104, 50 + e.val / 8)] → s.brg.sems = Vector.replicate 32 none → 
      ∃ t, Sys2Proof.Machine.exec (.btlRxdmaBatch e) s = .next t ∧
        bytesAt t 0x30000100 4 = leBytes 4 v.toNat ∧
        (t.engine e) = { (s.engine e) with rx := l, batch := some s.now } ∧
        getF t (engF F.BTL_ENG_STAT_RXLVL e) = l.length ∧
        (∀ n : Fin 4, qualityOf t (0x100 + n.val) = 0) ∧
        sameBytesBut [0x30000100, 0x30000101, 0x30000102, 0x30000103, 0x300C0040] s t ∧
        sameRegs [A.BTL_ENG_STAT (e / 8) (e % 8)] s t ∧
        (∀ j : Fin 16, j ≠ e → t.engine j = s.engine j) ∧
        t = { s with regs := t.regs, btl := t.btl, mem := t.mem, ecc := t.ecc, sent := t.sent }) ∧
  (∀ (e : Fin 16) (n : Nat) (s : State), live s = true → isSet s (engF F.BTL_ENG_RXDMA_EN e) = true → (s.engine e).batch = some n → getF s (engF F.BTL_ENG_RXDMA_AGE e) ≠ 0 → n + 1000000 * getF s (engF F.BTL_ENG_RXDMA_AGE e) ≤ s.now → getF s (engF F.BTL_ENG_RXDMA_NWM1 e) = 0 → getF s (engF F.BTL_ENG_RXDMA_INOFF e) = 0x100 → s.scan.sources = [(0x100, 0x104, 50 + e.val / 8)] → 
      ∃ t, Sys2Proof.Machine.exec (.btlRxdmaAge e) s = .next t ∧
        (∀ n : Fin 4, qualityOf t (0x100 + n.val) = 1) ∧
        (t.engine e) = (s.engine e) ∧
        sameBytes 0x300C0040 1 s t ∧
        sameRegs [] s t ∧
        t = { s with mem := t.mem, ecc := t.ecc, sent := t.sent }) ∧
  (∀ (e : Fin 16) (s : State), live s = true → isSet s (engF F.BTL_ENG_TXDMA_EN e) = true → (s.engine e).tx.length + (getF s (engF F.BTL_ENG_TXDMA_NWM1 e) + 1) ≤ 4 → (s.engine e).rx.length ≤ 4 → eccOf s (0x30020000 + getF s (engF F.BTL_ENG_TXDMA_OUTOFF e)) (4 * (getF s (engF F.BTL_ENG_TXDMA_NWM1 e) + 1)) ≠ 2 → 
      ∃ t, Sys2Proof.Machine.exec (.btlTxdmaBatch e) s = .next t ∧
        ((t.engine e) = { (s.engine e) with tx := (s.engine e).tx ++ (List.range (getF s (engF F.BTL_ENG_TXDMA_NWM1 e) + 1)).map fun n => w32 (memNat s ((0x30020000 + getF s (engF F.BTL_ENG_TXDMA_OUTOFF e)) + 4 * n) 4) }) ∧
        getF t (engF F.BTL_ENG_STAT_TXLVL e) = (s.engine e).tx.length + (getF s (engF F.BTL_ENG_TXDMA_NWM1 e) + 1) ∧
        sameRegs [A.BTL_ENG_STAT (e / 8) (e % 8)] s t ∧
        engOnly e s t)

/-- An enabled link trains: with block lock it sends LINKUP, and with its LINKUP acknowledged it becomes ACTIVE with full credits.
Taken down by 16 bad blocks among 64, or told to retrain, it forgets its packets, those received on it and not passed on among
them, and trains again while it is enabled. A good packet in sequence is delivered and holds its receive buffer; a bad one or one
out of sequence is discarded with one NAK. An ACK frees packets, a NAK or 2 µs without one makes the rest go out again, and after
8 replays the link fails. A packet that waits goes out when its channel has the credits, with the credits owed in its END block,
and a forwarded one frees the buffer of the link it came in on. The model's own choices that clauses rest on: log 85, 163 and 164.
Each clause answers a next state by its conditions on the state and the operands alone: so WORRI_LINK_ENABLE, BLOCK_LOCK,
LINKUP_TX, LINK_ACTIVE, WORRI_LINK_DOWN, RETRAIN, WORRI_PACKET_RX, ACK_TIMER, WORRI_ACK_RX, WORRI_NAK_RX, WORRI_CREDIT_RX and
REPLAY_TIMEOUT complete. -/
def Obligations.WorriLinks : Prop :=
  (∀ (who : Who) (n : Fin 4) (s : State), live s = true → isPriv s who = true → isSet s F.WFB_CTL_EN = true → wlState s n = 3 → (∀ m : Fin 4, m = n ∨ wlEnabled s m = true ∧ (wlState s m = 1 ∨ wlState s m = 2)) → merges s A.WFB_EVT 0 = false → unguarded s who = true → 
      ∃ t, Sys2Proof.Machine.exec (.worriLinkEnable who n) s = .next t ∧
        wlEnabled t n = true ∧
        wlState t n = 1 ∧
        t.wl n = WLink.reset ∧
        hasEvent s t A.WFB_EVT 0 ∧
        (∀ m : Fin 4, m ≠ n → t.wl m = s.wl m) ∧
        (sameRegs ([A.WFB_CTL, A.WFB_STATUS, A.WFB_LINK_STAT n] ++ ([A.WFB_EVT] ++ pendWords) ++ if getF s F.WFB_CTL_REQID = 4095 then [A.WFB_CTL, A.SYS_CLAMPLOG, A.SYS_EVT] else []) s t) ∧
        t = { s with regs := t.regs, wfb := { s.wfb with links := t.wfb.links }, evtLast := t.evtLast, lkp := { s.lkp with srcVal := t.lkp.srcVal }, sent := t.sent }) ∧
  (∀ (n : Fin 4) (s : State), live s = true → wlState s n = 1 → 
      ∃ t, Sys2Proof.Machine.exec (.blockLock n) s = .next t ∧
        t.wl n = { s.wl n with lock := true } ∧
        (∀ m : Fin 4, m ≠ n → t.wl m = s.wl m) ∧
        t = { s with wfb := { s.wfb with links := t.wfb.links }, sent := t.sent }) ∧
  (∀ (n : Fin 4) (s : State), live s = true → wlState s n = 1 → (s.wl n).lock = true → 
      ∃ t, Sys2Proof.Machine.exec (.linkupTx n) s = .next t ∧
        t.sent = [{ chan := .worri n, bytes := b8 0xC3 :: beBytes 7 (4 * 2 ^ 52 + n.val * 2 ^ 50 + ownUid s % 2 ^ 32) }] ∧
        t = { s with sent := t.sent }) ∧
  (∀ (n : Fin 4) (s : State), live s = true → (wlState s n ≠ 1 ∨ (s.wl n).lock = false) → 
      ∃ t, Sys2Proof.Machine.exec (.linkupTx n) s = .next t ∧
        t.sent = [] ∧
        t = { s with sent := t.sent }) ∧
  (∀ (n m : Fin 4) (polinv : Bool) (s : State), live s = true → wlState s n = 1 → (s.wl n).lock = true → merges s A.WFB_EVT 0 = false → 
      ∃ t, Sys2Proof.Machine.exec (.linkActive n m polinv) s = .next t ∧
        wlState t n = 2 ∧
        t.wl n = { WLink.reset with lock := true, credits := #v[64, 512, 128, 512, 768], upAt := s.now } ∧
        getF t (F.WFB_LINK_STAT_NBRLINK n) = m ∧
        isSet t (F.WFB_LINK_STAT_POLINV n) = polinv ∧
        hasEvent s t A.WFB_EVT 0 ∧
        t.sent = [{ chan := .worri n, bytes := b8 0xC3 :: beBytes 7 (2 ^ 52 + 0xFFF * 2 ^ 40) }] ∧
        (∀ j : Fin 4, j ≠ n → t.wl j = s.wl j) ∧
        (∀ m : Fin 4, m ≠ n → wlState t m = wlState s m) ∧
        sameRegs ([A.WFB_TSTAT, A.WFB_STATUS, A.WFB_LINK_STAT 0, A.WFB_LINK_STAT 1, A.WFB_LINK_STAT 2, A.WFB_LINK_STAT 3] ++ ([A.WFB_EVT] ++ pendWords)) s t ∧
        t = { s with regs := t.regs, wfb := { s.wfb with links := t.wfb.links }, evtLast := t.evtLast, lkp := { s.lkp with srcVal := t.lkp.srcVal }, sent := t.sent }) ∧
  (∀ (n : Fin 4) (bs : List RxBlock) (s : State), live s = true → bs.length ≤ 64 → 16 ≤ (bs.filter RxBlock.bad).length → wlState s n = 2 → wlEnabled s n = true → staticMode s = true → (s.wl n).txq = [] → 
      ∃ t, Sys2Proof.Machine.exec (.worriLinkDown (n, bs)) s = .next t ∧
        wlState t n = 1 ∧
        t.wl n = WLink.reset ∧
        getF t (F.WFB_LINK_STAT_NBRID n) = 0 ∧
        getF t F.WFB_EVT_LINK = 1 ∧
        (∀ m : Fin 4, m ≠ n → t.wl m = { s.wl m with txq := (s.wl m).txq.filter (·.link != n.val) }) ∧
        (∀ m : Fin 4, m ≠ n → wlState t m = wlState s m) ∧
        sameRegs ([A.WFB_TSTAT, A.WFB_STATUS, A.WFB_LINK_STAT 0, A.WFB_LINK_STAT 1, A.WFB_LINK_STAT 2, A.WFB_LINK_STAT 3] ++ ([A.WFB_EVT] ++ pendWords)) s t ∧
        t = { s with regs := t.regs, wfb := { s.wfb with links := t.wfb.links, inbox := s.wfb.inbox.filter (·.link != n.val), bridge := s.wfb.bridge.filter (·.link != n.val) }, evtLast := t.evtLast, lkp := { s.lkp with srcVal := t.lkp.srcVal }, sent := t.sent }) ∧
  (∀ (n : Fin 4) (bs : List RxBlock) (s : State), live s = true → bs.length ≤ 64 → 16 ≤ (bs.filter RxBlock.bad).length → wlState s n = 2 → wlEnabled s n = false → staticMode s = true → (s.wl n).txq = [] → merges s A.WFB_EVT 0 = false → 
      ∃ t, Sys2Proof.Machine.exec (.worriLinkDown (n, bs)) s = .next t ∧
        wlState t n = 0 ∧
        t.wl n = WLink.reset ∧
        hasEvent s t A.WFB_EVT 0 ∧
        (∀ m : Fin 4, m ≠ n → t.wl m = { s.wl m with txq := (s.wl m).txq.filter (·.link != n.val) }) ∧
        (∀ m : Fin 4, m ≠ n → wlState t m = wlState s m) ∧
        sameRegs ([A.WFB_TSTAT, A.WFB_STATUS, A.WFB_LINK_STAT 0, A.WFB_LINK_STAT 1, A.WFB_LINK_STAT 2, A.WFB_LINK_STAT 3] ++ ([A.WFB_EVT] ++ pendWords)) s t ∧
        t = { s with regs := t.regs, wfb := { s.wfb with links := t.wfb.links, inbox := s.wfb.inbox.filter (·.link != n.val), bridge := s.wfb.bridge.filter (·.link != n.val) }, evtLast := t.evtLast, lkp := { s.lkp with srcVal := t.lkp.srcVal }, sent := t.sent }) ∧
  (∀ (n : Fin 4) (bs : List RxBlock) (p : Packet) (s : State), live s = true → bs.length ≤ 64 → 16 ≤ (bs.filter RxBlock.bad).length → wlState s n = 2 → wlEnabled s n = true → staticMode s = true → isSet s F.WFB_CTL_EN = true → (s.wl n).txq = [⟨p, 4⟩] → p.vc = 3 → 
      ∃ t, Sys2Proof.Machine.exec (.worriLinkDown (n, bs)) s = .next t ∧
        wlState t n = 1 ∧
        t.wl n = WLink.reset ∧
        getF t F.WFB_DROP_ROUTE = satAdd F.WFB_DROP_ROUTE.w (getF s F.WFB_DROP_ROUTE) 1 ∧
        isSet t ⟨A.WFB_EVT, 6, 1⟩ = true ∧
        (∀ m : Fin 4, m ≠ n → t.wl m = { s.wl m with txq := (s.wl m).txq.filter (·.link != n.val) }) ∧
        (∀ m : Fin 4, m ≠ n → wlState t m = wlState s m) ∧
        sameRegs ([A.WFB_TSTAT, A.WFB_STATUS, A.WFB_LINK_STAT 0, A.WFB_LINK_STAT 1, A.WFB_LINK_STAT 2, A.WFB_LINK_STAT 3, F.WFB_DROP_ROUTE.addr] ++ ([A.WFB_EVT] ++ pendWords)) s t) ∧
  (∀ (n : Fin 4) (bs : List RxBlock) (s : State), live s = true → (bs.filter RxBlock.bad).length < 16 → 
      ∃ t, Sys2Proof.Machine.exec (.worriLinkDown (n, bs)) s = .next t ∧
        t = { s with sent := t.sent }) ∧
  (∀ (who : Who) (n : Fin 4) (s : State), live s = true → isPriv s who = true → wlState s n = 2 → wlEnabled s n = true → staticMode s = true → (s.wl n).txq = [] → unguarded s who = true → 
      ∃ t, Sys2Proof.Machine.exec (.retrain who n) s = .next t ∧
        wlState t n = 1 ∧
        t.wl n = WLink.reset ∧
        getF t (F.WFB_LINK_STAT_NBRID n) = 0 ∧
        getF t F.WFB_EVT_LINK = 1 ∧
        (∀ m : Fin 4, m ≠ n → t.wl m = { s.wl m with txq := (s.wl m).txq.filter (·.link != n.val) }) ∧
        (∀ m : Fin 4, m ≠ n → wlState t m = wlState s m) ∧
        sameRegs ([A.WFB_TSTAT, A.WFB_STATUS, A.WFB_LINK_STAT 0, A.WFB_LINK_STAT 1, A.WFB_LINK_STAT 2, A.WFB_LINK_STAT 3, A.WFB_LINK_CTL n] ++ ([A.WFB_EVT] ++ pendWords)) s t ∧
        t = { s with regs := t.regs, wfb := { s.wfb with links := t.wfb.links, inbox := s.wfb.inbox.filter (·.link != n.val), bridge := s.wfb.bridge.filter (·.link != n.val) }, evtLast := t.evtLast, lkp := { s.lkp with srcVal := t.lkp.srcVal }, sent := t.sent }) ∧
  (∀ (n : Fin 4) (p : Packet) (good : Bool) (s : State), live s = true → wlState s n = 2 → good = true → p.vc = 0 → p.payload.length ≤ 2048 → p.seq = ((s.wl n).rxSeq + 1) % 4096 → 
      ∃ t, Sys2Proof.Machine.exec (.worriPacketRx n p good) s = .next t ∧
        t.wfb.inbox = s.wfb.inbox ++ [{ link := n, stamp := time s, pkt := p }] ∧
        t.wl n = { s.wl n with rxSeq := p.seq, nak := false } ∧
        (∀ m : Fin 4, m ≠ n → t.wl m = s.wl m) ∧
        t = { s with wfb := { s.wfb with links := t.wfb.links, inbox := t.wfb.inbox }, sent := [] }) ∧
  (∀ (n : Fin 4) (p : Packet) (good : Bool) (s : State), live s = true → wlState s n = 2 → good = true → p.payload.length ≤ 2048 → (p.vc = 1 ∨ p.vc = 2 ∨ p.vc = 3) → p.seq = ((s.wl n).rxSeq + 1) % 4096 → p.epb = (rd s A.WFB_EPOCH).getLsbD 0 → p.dst = ownId s → p.dst ≠ 0 → 
      ∃ t, Sys2Proof.Machine.exec (.worriPacketRx n p good) s = .next t ∧
        t.wfb.bridge = s.wfb.bridge ++ [⟨p, n⟩] ∧
        t.wl n = { s.wl n with rxSeq := p.seq, nak := false } ∧
        (∀ m : Fin 4, m ≠ n → t.wl m = s.wl m) ∧
        t = { s with wfb := { s.wfb with links := t.wfb.links, bridge := t.wfb.bridge }, sent := [] }) ∧
  (∀ (n : Fin 4) (p : Packet) (good : Bool) (s : State), live s = true → wlState s n = 2 → (good = false ∨ 5 ≤ p.vc ∨ 256 < p.nblk ∨ p.seq ≠ ((s.wl n).rxSeq + 1) % 4096) → (s.wl n).nak = false → 
      ∃ t, Sys2Proof.Machine.exec (.worriPacketRx n p good) s = .next t ∧
        t.wl n = { s.wl n with nak := true } ∧
        getF t (F.WFB_LINK_ERR_CRCERR n) = min 65535 (getF s (F.WFB_LINK_ERR_CRCERR n) + 1) ∧
        t.sent = [{ chan := .worri n, bytes := b8 0xC3 :: beBytes 7 (2 * 2 ^ 52 + (s.wl n).rxSeq * 2 ^ 40) }] ∧
        sameRegs [A.WFB_LINK_ERR n] s t ∧
        (∀ m : Fin 4, m ≠ n → t.wl m = s.wl m) ∧
        t = { s with regs := t.regs, wfb := { s.wfb with links := t.wfb.links }, sent := t.sent }) ∧
  (∀ (n : Fin 4) (s : State), live s = true → wlState s n = 2 → 
      ∃ t, Sys2Proof.Machine.exec (.ackTimer n) s = .next t ∧
        t.sent = [{ chan := .worri n, bytes := b8 0xC3 :: beBytes 7 (2 ^ 52 + (s.wl n).rxSeq * 2 ^ 40) }] ∧
        t = { s with sent := t.sent }) ∧
  (∀ (n : Fin 4) (seq : Fin 4096) (p : Unacked) (l : List Unacked) (s : State), live s = true → wlState s n = 2 → (s.wl n).replay = p :: l → p.pkt.seq = seq → (s.wl n).txq = [] → 
      ∃ t, Sys2Proof.Machine.exec (.worriAckRx n seq) s = .next t ∧
        t.wl n = { s.wl n with replay := l, replays := 0 } ∧
        t.sent = [] ∧
        (∀ m : Fin 4, m ≠ n → t.wl m = s.wl m) ∧
        t = { s with wfb := { s.wfb with links := t.wfb.links }, sent := t.sent }) ∧
  (∀ (n : Fin 4) (seq : Fin 4096) (p : Unacked) (l : List Unacked) (s : State), live s = true → wlState s n = 2 → (s.wl n).replay = p :: l → p.pkt.seq = seq → (s.wl n).txq = [] → l ≠ [] → 
      ∃ t, Sys2Proof.Machine.exec (.worriNakRx n seq) s = .next t ∧
        (t.wl n = { s.wl n with replay := l.map fun u => ⟨u.pkt.leaving (time s), s.now⟩, replays := 1 }) ∧
        (t.sent = l.map fun q => { chan := .worri n, bytes := (q.pkt.leaving (time s)).wire }) ∧
        getF t (F.WFB_LINK_ERR_REPLAYS n) = satAdd (F.WFB_LINK_ERR_REPLAYS n).w (getF s (F.WFB_LINK_ERR_REPLAYS n)) 1 ∧
        sameRegs [A.WFB_LINK_ERR n] s t ∧
        (∀ m : Fin 4, m ≠ n → t.wl m = s.wl m) ∧
        t = { s with regs := t.regs, wfb := { s.wfb with links := t.wfb.links, timeReq := t.wfb.timeReq }, sent := t.sent }) ∧
  (∀ (n : Fin 4) (vc : Fin 5) (blocks : Nat) (s : State), live s = true → wlState s n = 2 → (s.wl n).txq = [] → 
      ∃ t, Sys2Proof.Machine.exec (.worriCreditRx n vc blocks) s = .next t ∧
        t.wl n = { s.wl n with credits := t.wfb.links.get n |>.credits } ∧
        (t.wl n).credits.get vc = min ((s.wl n).credits.get vc + blocks) ([64, 512, 128, 512, 768].getD vc 0) ∧
        (∀ v : Fin 5, v ≠ vc → (t.wl n).credits.get v = (s.wl n).credits.get v) ∧
        t.sent = [] ∧
        (∀ m : Fin 4, m ≠ n → t.wl m = s.wl m) ∧
        t = { s with wfb := { s.wfb with links := t.wfb.links }, sent := t.sent }) ∧
  (∀ (n : Fin 4) (vc : Fin 5) (blocks : Nat) (p : Packet) (s : State), live s = true → wlState s n = 2 → (s.wl n).txq = [⟨p, 4⟩] → p.vc = vc → (s.wl n).replay = [] → p.blocks ≤ 2048 → p.needs ≤ min ((s.wl n).credits.get vc + blocks) ([64, 512, 128, 512, 768].getD vc 0) → 
      ∃ t, Sys2Proof.Machine.exec (.worriCreditRx n vc blocks) s = .next t ∧
        (t.wl n).txq = [] ∧
        (t.wl n).replay = [⟨Packet.leaving { p with seq := (s.wl n).txSeq } (time s), s.now⟩] ∧
        (t.wl n).txSeq = ((s.wl n).txSeq + 1) % 4096 ∧
        (t.wl n).credits.get vc = min ((s.wl n).credits.get vc + blocks) ([64, 512, 128, 512, 768].getD vc 0) - p.needs ∧
        t.sent = [{ chan := .worri n, bytes := (Packet.leaving { p with seq := (s.wl n).txSeq } (time s)).wire (s.wl n).owes.1 (s.wl n).owes.2 }] ∧
        (∀ v : Fin 5, (t.wl n).owed.get v = if v.val = (s.wl n).owes.1 then 0 else (s.wl n).owed.get v) ∧
        (∀ m : Fin 4, m ≠ n → t.wl m = s.wl m) ∧
        t = { s with wfb := { s.wfb with links := t.wfb.links, timeReq := t.wfb.timeReq }, sent := t.sent }) ∧
  (∀ (n : Fin 4) (vc : Fin 5) (blocks : Nat) (p : Packet) (k : Fin 4) (s : State), live s = true → wlState s n = 2 → k ≠ n → wlState s k = 2 → (s.wl n).txq = [⟨p, k⟩] → p.vc = vc → (s.wl n).replay = [] → p.blocks ≤ 2048 → p.needs ≤ min ((s.wl n).credits.get vc + blocks) ([64, 512, 128, 512, 768].getD vc 0) → 
      ∃ t, Sys2Proof.Machine.exec (.worriCreditRx n vc blocks) s = .next t ∧
        (t.wl n).txq = [] ∧
        (t.wl k).owed.get vc = (s.wl k).owed.get vc + p.blocks ∧
        (∀ v : Fin 5, v ≠ vc → (t.wl k).owed.get v = (s.wl k).owed.get v) ∧
        t.wl k = { s.wl k with owed := (t.wl k).owed } ∧
        (∀ m : Fin 4, m ≠ n → m ≠ k → t.wl m = s.wl m) ∧
        t = { s with wfb := { s.wfb with links := t.wfb.links, timeReq := t.wfb.timeReq }, sent := t.sent }) ∧
  (∀ (n : Fin 4) (p : Unacked) (l : List Unacked) (s : State), live s = true → wlState s n = 2 → (s.wl n).replay = p :: l → p.sentAt + 2000 ≤ s.now → (s.wl n).replays < 8 → 
      ∃ t, Sys2Proof.Machine.exec (.replayTimeout n) s = .next t ∧
        (t.wl n = { s.wl n with replays := (s.wl n).replays + 1, replay := (p :: l).map fun u => ⟨u.pkt.leaving (time s), s.now⟩ }) ∧
        (t.sent = (p :: l).map fun q => { chan := .worri n, bytes := (q.pkt.leaving (time s)).wire }) ∧
        sameRegs [A.WFB_LINK_ERR n] s t ∧
        (∀ m : Fin 4, m ≠ n → t.wl m = s.wl m) ∧
        t = { s with regs := t.regs, wfb := { s.wfb with links := t.wfb.links, timeReq := t.wfb.timeReq }, sent := t.sent }) ∧
  (∀ (n : Fin 4) (p : Unacked) (l : List Unacked) (s : State), live s = true → (s.wl n).replay = p :: l → s.now < p.sentAt + 2000 → 
      ∃ t, Sys2Proof.Machine.exec (.replayTimeout n) s = .next t ∧
        t = { s with sent := t.sent }) ∧
  (∀ (n : Fin 4) (p : Unacked) (l : List Unacked) (s : State), live s = true → wlState s n = 2 → wlEnabled s n = true → staticMode s = true → (s.wl n).txq = [] → (s.wl n).replay = p :: l → p.sentAt + 2000 ≤ s.now → 8 ≤ (s.wl n).replays → 
      ∃ t, Sys2Proof.Machine.exec (.replayTimeout n) s = .next t ∧
        wlState t n = 1 ∧
        t.wl n = WLink.reset ∧
        getF t (F.WFB_LINK_STAT_NBRID n) = 0 ∧
        getF t F.WFB_EVT_LINK = 1 ∧
        getF t F.WFB_EVT_RETRYFAIL = 1 ∧
        (∀ m : Fin 4, m ≠ n → t.wl m = { s.wl m with txq := (s.wl m).txq.filter (·.link != n.val) }) ∧
        (∀ m : Fin 4, m ≠ n → wlState t m = wlState s m) ∧
        sameRegs ([A.WFB_TSTAT, A.WFB_STATUS, A.WFB_LINK_STAT 0, A.WFB_LINK_STAT 1, A.WFB_LINK_STAT 2, A.WFB_LINK_STAT 3] ++ ([A.WFB_EVT] ++ pendWords)) s t ∧
        t = { s with regs := t.regs, wfb := { s.wfb with links := t.wfb.links, inbox := s.wfb.inbox.filter (·.link != n.val), bridge := s.wfb.bridge.filter (·.link != n.val) }, evtLast := t.evtLast, lkp := { s.lkp with srcVal := t.lkp.srcVal }, sent := t.sent })

/-- Each HELLO period HELLO goes out on the ACTIVE links with the root, its sequence number, DIST and the device's own identity; a
HELLO received gives the neighbour, and a better root through it. A neighbour not heard for NBRTMO periods loses its link. The
root that has seen no change for 4 HELLO periods, or hears of a changed link, starts a round; TOPO is collected, ASSIGN and ROUTE
are noted for the next epoch, and after the last ROUTEACK, or on COMMIT, epoch, routing table and tree take effect and the Worri
entries of the MAC table go. The model's own choices that clauses rest on: log 90 and 165. Each clause answers a next state by its
conditions on the state and the operands alone: so HELLO_TX, HELLO_RX, NEIGHBOUR_TIMEOUT, ROOT_SETTLED, LINKCHG_RX, TOPO_RX,
TOPO_COLLECT_END, ASSIGN_RX, ROUTE_RX, ROUTEACK_RX and COMMIT_RX complete. -/
def Obligations.WorriDiscovery : Prop :=
  (∀ (n : Fin 4) (s : State), live s = true → isSet s F.WFB_CTL_EN = true → s.wfb.parent = none → wlActive s = [n.val] → (s.wl n).txq = [] → (s.wl n).replay = [] → 8 ≤ (s.wl n).credits.get 0 → 
      ∃ t, Sys2Proof.Machine.exec (.helloTx) s = .next t ∧
        t.wfb.rootSeq = (s.wfb.rootSeq + 1) % 65536 ∧
        t.sent.length = 1 ∧
        ((t.wl n).replay.map (fun u => (u.pkt.vc, u.pkt.dst, u.pkt.payload)) = [(0, 0, [b8 1] ++ beBytes 1 (getF s F.WFB_CTL_PRIO) ++ beBytes 16 (ownUid s) ++ beBytes 2 t.wfb.rootSeq ++ beBytes 1 (getF s F.WFB_STATUS_DIST) ++ beBytes 1 (getF s F.WFB_CTL_PRIO) ++ beBytes 16 (ownUid s) ++ beBytes 2 (ownId s) ++ beBytes 2 (getF s F.WFB_EPOCH_EPOCH) ++ beBytes 1 n ++ [0xFF#8])]) ∧
        sameRegs [] s t ∧
        t = { s with regs := t.regs, wfb := t.wfb, sent := t.sent }) ∧
  (∀ (m : Mgmt)  (s : State), live s = true → s.wfb.inbox = [m] → m.num 0 1 = 1 → m.link < 4 → staticMode s = true → (s.wl m.link).nbr = none → 
      ∃ t, Sys2Proof.Machine.exec (.helloRx) s = .next t ∧
        (t.wl m.link).nbr = some { rootPrio := m.num 1 1, rootUid := m.num 2 16, rootSeq := m.num 18 2, dist := m.num 20 1, prio := m.num 21 1, uid := m.num 22 16, id := m.num 38 2, epoch := m.num 40 2, link := m.num 42 1, parent := m.num 43 1, heard := s.now, advanced := s.now } ∧
        getF t (F.WFB_LINK_STAT_NBRID m.link) = m.num 38 2 % 4096 ∧
        getF t (F.WFB_LINK_STAT_NBRLINK m.link) = m.num 42 1 % 4 ∧
        sameRegs [A.WFB_LINK_STAT m.link] s t ∧
        t = { s with regs := t.regs, wfb := t.wfb, sent := t.sent } ∧
        t.wfb.inbox = []) ∧
  (∀ (m : Mgmt)  (s : State), live s = true → s.wfb.inbox = [m] → m.num 0 1 = 1 → m.link < 4 → staticMode s = false → isSet s F.WFB_CTL_EN = true → wlActive s = [m.link] → (s.wl m.link).nbr = none → m.num 20 1 + 1 ≤ 32 → before (m.num 1 1) (m.num 2 16) (getF s F.WFB_CTL_PRIO) (ownUid s) = true → (s.wfb.rootPrio, s.wfb.rootUid) ≠ (m.num 1 1, m.num 2 16) → 
      ∃ t, Sys2Proof.Machine.exec (.helloRx) s = .next t ∧
        t.wfb.parent = some m.link ∧
        t.wfb.rootPrio = m.num 1 1 ∧
        t.wfb.rootUid = m.num 2 16 ∧
        t.wfb.rootSeq = m.num 18 2 ∧
        getF t F.WFB_STATUS_DIST = m.num 20 1 + 1 ∧
        isSet t F.WFB_STATUS_ROOT = false ∧
        isSet t F.WFB_TSTAT_MASTER = false ∧
        getF t F.WFB_STATUS_DSTATE = 1 ∧
        t.wfb.changed = s.now ∧
        rd t (A.WFB_ROOTUID 0) = w32 (m.num 2 16) ∧
        t = { s with regs := t.regs, wfb := t.wfb, sent := t.sent } ∧
        t.wfb.inbox = []) ∧
  (∀ (m : Mgmt)  (s : State), live s = true → s.wfb.inbox = [m] → m.num 0 1 = 1 → m.link < 4 → staticMode s = false → isSet s F.WFB_CTL_EN = true → wlActive s = [m.link] → (s.wl m.link).nbr = none → m.num 20 1 + 1 ≤ 32 → isSet s F.WFB_STATUS_ROOT = true → before (m.num 1 1) (m.num 2 16) (getF s F.WFB_CTL_PRIO) (ownUid s) = false → (s.wfb.rootPrio, s.wfb.rootUid) = (getF s F.WFB_CTL_PRIO, ownUid s) → 
      ∃ t, Sys2Proof.Machine.exec (.helloRx) s = .next t ∧
        t.wfb.parent = none ∧
        isSet t F.WFB_STATUS_ROOT = true ∧
        getF t F.WFB_STATUS_DSTATE = 2 ∧
        t.wfb.collect = some s.now ∧
        (((t.wl m.link).nbr.map fun x => (x.uid, x.link)) = some (m.num 22 16, m.num 42 1)) ∧
        t = { s with regs := t.regs, wfb := t.wfb, sent := t.sent } ∧
        t.wfb.inbox = []) ∧
  (∀ (n : Fin 4) (x : Neighbour) (s : State), live s = true → wlState s n = 2 → wlEnabled s n = true → staticMode s = true → (s.wl n).txq = [] → (s.wl n).nbr = some x → x.heard + nbrNs s ≤ s.now → 
      ∃ t, Sys2Proof.Machine.exec (.neighbourTimeout n) s = .next t ∧
        wlState t n = 1 ∧
        t.wl n = WLink.reset ∧
        (∀ m : Fin 4, m ≠ n → wlState t m = wlState s m) ∧
        sameRegs ([A.WFB_TSTAT, A.WFB_STATUS, A.WFB_LINK_STAT 0, A.WFB_LINK_STAT 1, A.WFB_LINK_STAT 2, A.WFB_LINK_STAT 3] ++ ([A.WFB_EVT] ++ pendWords)) s t ∧
        (∀ m : Fin 4, m ≠ n → t.wl m = { s.wl m with txq := (s.wl m).txq.filter (·.link != n.val) }) ∧
        t = { s with regs := t.regs, wfb := { s.wfb with links := t.wfb.links, inbox := s.wfb.inbox.filter (·.link != n.val), bridge := s.wfb.bridge.filter (·.link != n.val) }, evtLast := t.evtLast, lkp := { s.lkp with srcVal := t.lkp.srcVal }, sent := t.sent }) ∧
  (∀ (n : Fin 4) (x : Neighbour) (s : State), live s = true → (s.wl n).nbr = some x → s.now < x.heard + nbrNs s → 
      ∃ t, Sys2Proof.Machine.exec (.neighbourTimeout n) s = .next t ∧
        t = { s with sent := t.sent }) ∧
  (∀ (s : State), live s = true → isSet s F.WFB_CTL_EN = true → staticMode s = false → isSet s F.WFB_STATUS_ROOT = true → getF s F.WFB_STATUS_DSTATE = 1 → s.wfb.changed + 4000 * getF s F.WFB_TIMER_HELLO ≤ s.now → 
      ∃ t, Sys2Proof.Machine.exec (.rootSettled) s = .next t ∧
        getF t F.WFB_STATUS_DSTATE = 2 ∧
        t.wfb.collect = some s.now ∧
        t.wfb.acks = none ∧
        sameRegs [A.WFB_STATUS] s t ∧
        t = { s with regs := t.regs, wfb := t.wfb, sent := t.sent }) ∧
  (∀ (s : State), live s = true → s.now < s.wfb.changed + 4000 * getF s F.WFB_TIMER_HELLO → 
      ∃ t, Sys2Proof.Machine.exec (.rootSettled) s = .next t ∧
        t = { s with sent := t.sent }) ∧
  (∀ (m : Mgmt)  (s : State), live s = true → s.wfb.inbox = [m] → m.num 0 1 = 3 → m.link < 4 → staticMode s = false → isSet s F.WFB_STATUS_ROOT = true → 
      ∃ t, Sys2Proof.Machine.exec (.linkchgRx) s = .next t ∧
        getF t F.WFB_STATUS_DSTATE = 2 ∧
        t.wfb.collect = some s.now ∧
        sameRegs [A.WFB_STATUS] s t ∧
        t = { s with regs := t.regs, wfb := t.wfb, sent := t.sent } ∧
        t.wfb.inbox = []) ∧
  (∀ (m : Mgmt)  (s : State), live s = true → s.wfb.inbox = [m] → m.num 0 1 = 2 → m.link < 4 → staticMode s = false → isSet s F.WFB_STATUS_ROOT = true → s.wfb.topo = [] → 
      ∃ t, Sys2Proof.Machine.exec (.topoRx) s = .next t ∧
        (t.wfb.topo.map (fun d => (d.uid, d.prio, d.reqid, d.id, d.via)) = [(m.num 1 16, m.num 17 1, m.num 18 2, m.num 20 2, m.link)]) ∧
        (t.wfb.topo.map (fun d => d.links.map fun l => (l.state, l.uid, l.link)) = [(List.range 4).map fun n => (m.num (22 + 18 * n) 1, m.num (23 + 18 * n) 16, m.num (39 + 18 * n) 1)]) ∧
        sameRegs [] s t ∧
        t = { s with regs := t.regs, wfb := t.wfb, sent := t.sent } ∧
        t.wfb.inbox = []) ∧
  (∀ (d : Nat) (s : State), live s = true → s.wfb.collect = some d → d ≤ s.now → s.wfb.topo = [] → isSet s F.WFB_STATUS_ROOT = true → liveTree s = [] → wlActive s = [] → ownId s ≠ 0 → 
      ∃ t, Sys2Proof.Machine.exec (.topoCollectEnd) s = .next t ∧
        getF t F.WFB_EPOCH_EPOCH = (getF s F.WFB_EPOCH_EPOCH + 1) % 65536 ∧
        getF t F.WFB_STATUS_DSTATE = 3 ∧
        getF t F.WFB_STATUS_TREE = 0 ∧
        ownId t = ownId s ∧
        routeTo t (ownId s) = 12 ∧
        t.wfb.collect = none ∧
        t.wfb.acks = none ∧
        getF t F.WFB_EVT_TOPO = 1) ∧
  (∀ (m : Mgmt)  (s : State), live s = true → s.wfb.inbox = [m] → m.num 0 1 = 4 → m.link < 4 → staticMode s = false → m.num 3 2 = 1 → liveTree s = [] → s.wfb.nextEpoch ≠ m.num 1 2 → m.num 5 16 ≠ ownUid s → 
      ∃ t, Sys2Proof.Machine.exec (.assignRx) s = .next t ∧
        t.wfb.nextEpoch = m.num 1 2 ∧
        t.wfb.nextIds = [(m.num 5 16, m.num 21 2)] ∧
        t.wfb.nextRt = [] ∧
        getF t F.WFB_STATUS_DSTATE = 2 ∧
        sameRegs [A.WFB_STATUS] s t ∧
        t = { s with regs := t.regs, wfb := t.wfb, sent := t.sent } ∧
        t.wfb.inbox = []) ∧
  (∀ (m : Mgmt)  (s : State), live s = true → s.wfb.inbox = [m] → m.num 0 1 = 5 → m.link < 4 → staticMode s = false → s.wfb.nextIds = [(ownUid s, m.pkt.dst)] → m.num 1 2 = s.wfb.nextEpoch → m.num 3 1 = 0 → s.wfb.parts = 0 → 
      ∃ t, Sys2Proof.Machine.exec (.routeRx) s = .next t ∧
        t.wfb.parts = 1 ∧
        (∀ n : Fin 256, SMap.get? t.wfb.nextRt n = some (w32 (m.num (4 + 4 * n) 4))) ∧
        t.wfb.nextEpoch = s.wfb.nextEpoch ∧
        t.wfb.nextIds = s.wfb.nextIds ∧
        t.sent = [] ∧
        sameRegs [] s t ∧
        t = { s with regs := t.regs, wfb := t.wfb, sent := t.sent } ∧
        t.wfb.inbox = []) ∧
  (∀ (m : Mgmt) (c : Nat) (s : State), live s = true → s.wfb.inbox = [m] → m.num 0 1 = 6 → m.link < 4 → staticMode s = false → isSet s F.WFB_STATUS_ROOT = true → m.num 1 2 = s.wfb.nextEpoch → s.wfb.acks = some (c + 2) → 
      ∃ t, Sys2Proof.Machine.exec (.routeackRx) s = .next t ∧
        t.wfb.acks = some (c + 1) ∧
        sameRegs [] s t ∧
        t = { s with regs := t.regs, wfb := t.wfb, sent := t.sent } ∧
        t.wfb.inbox = []) ∧
  (∀ (m : Mgmt)  (s : State), live s = true → s.wfb.inbox = [m] → m.num 0 1 = 6 → m.link < 4 → staticMode s = false → isSet s F.WFB_STATUS_ROOT = true → m.num 1 2 = s.wfb.nextEpoch → s.wfb.acks = some 1 → liveTree s = [] → s.wfb.nextIds = [] → 
      ∃ t, Sys2Proof.Machine.exec (.routeackRx) s = .next t ∧
        getF t F.WFB_EPOCH_EPOCH = s.wfb.nextEpoch % 65536 ∧
        getF t F.WFB_STATUS_DSTATE = 3 ∧
        getF t F.WFB_STATUS_TREE = 0 ∧
        ownId t = ownId s ∧
        (∀ n : Fin 512, rd t (A.WFB_RT n) = (SMap.get? s.wfb.nextRt n).getD 0) ∧
        t.wfb.acks = none ∧
        (t.brg.pathTx = [] ∧ t.brg.pathRx = []) ∧
        (t.basin.mac = s.basin.mac.filter fun e => e.2.static || decide (e.2.port < 24 ∨ 28 ≤ e.2.port)) ∧
        getF t F.WFB_EVT_TOPO = 1 ∧
        t.wfb.inbox = []) ∧
  (∀ (m : Mgmt)  (s : State), live s = true → s.wfb.inbox = [m] → m.num 0 1 = 7 → m.link < 4 → staticMode s = false → m.num 1 2 = s.wfb.nextEpoch → liveTree s = [] → s.wfb.nextIds = [] → 
      ∃ t, Sys2Proof.Machine.exec (.commitRx) s = .next t ∧
        getF t F.WFB_EPOCH_EPOCH = s.wfb.nextEpoch % 65536 ∧
        getF t F.WFB_STATUS_DSTATE = 3 ∧
        getF t F.WFB_STATUS_TREE = 0 ∧
        ownId t = ownId s ∧
        (∀ n : Fin 512, rd t (A.WFB_RT n) = (SMap.get? s.wfb.nextRt n).getD 0) ∧
        t.wfb.acks = none ∧
        (t.brg.pathTx = [] ∧ t.brg.pathRx = []) ∧
        (t.basin.mac = s.basin.mac.filter fun e => e.2.static || decide (e.2.port < 24 ∨ 28 ≤ e.2.port)) ∧
        getF t F.WFB_EVT_TOPO = 1 ∧
        t.wfb.inbox = [])

/-- Every TSYNC a TIMEREQ goes to the time parent, or the device is master without one; a TIMEREQ is answered with TIMERESP and
TIMESYNC; a TIMERESP gives the link delay, and a TIMESYNC the offset, with 16 near offsets in a row locking and a far one
unlocking. A good last gasp takes its link down and is recorded once; a forwarded one is recorded. A RESETREQ resets the device
where RSTEN is set and its unique ID matches, and is refused otherwise; a reset command to a target without a route ends with
NOROUTE. The model's own choices that clauses rest on: log 87, 88, 89 and 98. Each clause answers a next state by its conditions
on the state and the operands alone: so TSYNC_TIMER, TIMEREQ_RX, TIMERESP_RX, TIMESYNC_RX, LGASP_RX, LGFWD_RX, RESETREQ_RX and
WFB_RSTCMD complete. -/
def Obligations.WorriTimeGaspAndReset : Prop :=
  (∀ (n : Fin 4) (s : State), live s = true → timeParent s = some n.val → wlState s n = 2 → (s.wl n).txq = [] → (s.wl n).replay = [] → 4 ≤ (s.wl n).credits.get 0 → 
      ∃ t, Sys2Proof.Machine.exec (.tsyncTimer) s = .next t ∧
        t.wfb.timeReq = some (time s) ∧
        getF t F.WFB_TSTAT_TLINK = n ∧
        isSet t F.WFB_TSTAT_MASTER = false ∧
        (t.wl n).replay.map (·.pkt.payload) = [[b8 8] ++ beBytes 8 (time s)] ∧
        sameRegs [A.WFB_TSTAT] s t ∧
        t = { s with regs := t.regs, wfb := t.wfb, sent := t.sent }) ∧
  (∀ (s : State), live s = true → timeParent s = none → isSet s F.WFB_CTL_EN = true → 
      ∃ t, Sys2Proof.Machine.exec (.tsyncTimer) s = .next t ∧
        isSet t F.WFB_TSTAT_MASTER = true ∧
        sameRegs [A.WFB_TSTAT] s t ∧
        t = { s with regs := t.regs, sent := t.sent }) ∧
  (∀ (m : Mgmt) (n : Fin 4) (s : State), live s = true → s.wfb.inbox = [m] → m.num 0 1 = 8 → m.link < 4 → m.link = n.val → wlState s n = 2 → (s.wl n).txq = [] → (s.wl n).replay = [] → 10 ≤ (s.wl n).credits.get 0 → 
      ∃ t, Sys2Proof.Machine.exec (.timereqRx) s = .next t ∧
        (t.wl n).replay.map (·.pkt.payload) = [[b8 9] ++ beBytes 8 (m.num 1 8) ++ beBytes 8 m.stamp ++ beBytes 8 (time s), [b8 10] ++ beBytes 8 (time s) ++ beBytes 1 (getF s F.WFB_TSTAT_LOCKED)] ∧
        t.sent.length = 2 ∧
        sameRegs [] s t ∧
        t = { s with regs := t.regs, wfb := t.wfb, sent := t.sent } ∧
        t.wfb.inbox = []) ∧
  (∀ (m : Mgmt)  (s : State), live s = true → s.wfb.inbox = [m] → m.num 0 1 = 9 → m.link < 4 → s.wfb.timeReq = some (m.num 1 8) → m.num 1 8 ≤ m.stamp → m.num 9 8 ≤ m.num 17 8 → m.num 17 8 - m.num 9 8 ≤ m.stamp - m.num 1 8 → 
      ∃ t, Sys2Proof.Machine.exec (.timerespRx) s = .next t ∧
        getF t (F.WFB_LINK_DELAY_DELAY m.link) = min 65535 ((m.stamp - m.num 1 8 - (m.num 17 8 - m.num 9 8)) / 2) ∧
        t.wfb.timeReq = none ∧
        sameRegs [A.WFB_LINK_DELAY m.link] s t ∧
        t = { s with regs := t.regs, wfb := t.wfb, sent := t.sent } ∧
        t.wfb.inbox = []) ∧
  (∀ (m : Mgmt) (d : Int) (s : State), live s = true → s.wfb.inbox = [m] → m.num 0 1 = 10 → m.link < 4 → timeParent s = some m.link → d = (m.stamp : Int) - (getF s (F.WFB_LINK_DELAY_DELAY m.link) : Nat) - (m.num 1 8 : Nat) → (-50 ≤ d ∧ d ≤ 50) → getF s F.WFB_TSTAT_LOCKCNT < 15 → getF s F.TMB_CTL_SRC ≠ 1 → 
      ∃ t, Sys2Proof.Machine.exec (.timesyncRx) s = .next t ∧
        rd t A.WFB_TOFF = BitVec.ofInt 32 d ∧
        getF t F.WFB_TSTAT_LOCKCNT = getF s F.WFB_TSTAT_LOCKCNT + 1 ∧
        isSet t F.WFB_TSTAT_LOCKED = isSet s F.WFB_TSTAT_LOCKED ∧
        sameRegs [A.WFB_TOFF, A.WFB_TSTAT] s t ∧
        t = { s with regs := t.regs, wfb := t.wfb, sent := t.sent } ∧
        t.wfb.inbox = []) ∧
  (∀ (m : Mgmt) (d : Int) (s : State), live s = true → s.wfb.inbox = [m] → m.num 0 1 = 10 → m.link < 4 → timeParent s = some m.link → d = (m.stamp : Int) - (getF s (F.WFB_LINK_DELAY_DELAY m.link) : Nat) - (m.num 1 8 : Nat) → (-50 ≤ d ∧ d ≤ 50) → getF s F.WFB_TSTAT_LOCKCNT = 15 → isSet s F.WFB_TSTAT_LOCKED = false → getF s F.TMB_CTL_SRC ≠ 1 → merges s A.WFB_EVT 7 = false → 
      ∃ t, Sys2Proof.Machine.exec (.timesyncRx) s = .next t ∧
        isSet t F.WFB_TSTAT_LOCKED = true ∧
        getF t F.WFB_TSTAT_LOCKCNT = 16 ∧
        hasEvent s t A.WFB_EVT 7 ∧
        sameRegs ([A.WFB_TOFF, A.WFB_TSTAT] ++ ([A.WFB_EVT] ++ pendWords)) s t ∧
        t = { s with regs := t.regs, wfb := t.wfb, evtLast := t.evtLast, lkp := { s.lkp with srcVal := t.lkp.srcVal }, sent := t.sent } ∧
        t.wfb.inbox = []) ∧
  (∀ (m : Mgmt) (d : Int) (s : State), live s = true → s.wfb.inbox = [m] → m.num 0 1 = 10 → m.link < 4 → timeParent s = some m.link → d = (m.stamp : Int) - (getF s (F.WFB_LINK_DELAY_DELAY m.link) : Nat) - (m.num 1 8 : Nat) → (d < -1000 ∨ 1000 < d) → (-2147483648 ≤ d ∧ d ≤ 2147483647) → isSet s F.WFB_TSTAT_LOCKED = true → getF s F.TMB_CTL_SRC ≠ 1 → merges s A.WFB_EVT 7 = false → 
      ∃ t, Sys2Proof.Machine.exec (.timesyncRx) s = .next t ∧
        isSet t F.WFB_TSTAT_LOCKED = false ∧
        getF t F.WFB_TSTAT_LOCKCNT = 0 ∧
        rd t A.WFB_TOFF = BitVec.ofInt 32 d ∧
        hasEvent s t A.WFB_EVT 7 ∧
        sameRegs ([A.WFB_TOFF, A.WFB_TSTAT] ++ ([A.WFB_EVT] ++ pendWords)) s t ∧
        t = { s with regs := t.regs, wfb := t.wfb, evtLast := t.evtLast, lkp := { s.lkp with srcVal := t.lkp.srcVal }, sent := t.sent } ∧
        t.wfb.inbox = []) ∧
  (∀ (n : Fin 4) (v : BitVec 56) (s : State), live s = true → calm s s = true → wlState s n = 2 → wlEnabled s n = true → staticMode s = true → (s.wl n).txq = [] → crc8 (beBytes 6 (v.toNat / 256)) = v.toNat % 256 → s.wfb.gasps = [] → v.toNat / 2 ^ 44 ≠ getF s F.LKH_SBYPEER_PEERID → 
      ∃ t, Sys2Proof.Machine.exec (.lgaspRx n v) s = .next t ∧
        wlState t n = 1 ∧
        t.wl n = WLink.reset ∧
        getF t F.WFB_LGLOG_SRCID = v.toNat / 2 ^ 44 ∧
        getF t F.WFB_LGLOG_CAUSE = v.toNat / 2 ^ 40 % 16 ∧
        getF t F.WFB_LGLOG_LINK = n ∧
        isSet t F.WFB_LGLOG_FWD = false ∧
        getF t F.WFB_LGLOG_COUNT = min 8191 (getF s F.WFB_LGLOG_COUNT + 1) ∧
        getF t F.WFB_EVT_LASTGASP = 1 ∧
        t.wfb.gasps = [(v.toNat / 2 ^ 44, s.now)] ∧
        (∀ m : Fin 4, m ≠ n → wlState t m = wlState s m) ∧
        sameRegs ([A.WFB_TSTAT, A.WFB_STATUS, A.WFB_LINK_STAT 0, A.WFB_LINK_STAT 1, A.WFB_LINK_STAT 2, A.WFB_LINK_STAT 3, A.WFB_LGLOG, A.WFB_LGTIME, A.WFB_LGTIME + 4] ++ ([A.WFB_EVT] ++ pendWords)) s t ∧
        t = { s with regs := t.regs, wfb := t.wfb, evtLast := t.evtLast, lkp := { s.lkp with srcVal := t.lkp.srcVal }, sent := t.sent }) ∧
  (∀ (n : Fin 4) (v : BitVec 56) (s : State), live s = true → calm s s = true → crc8 (beBytes 6 (v.toNat / 256)) ≠ v.toNat % 256 → 
      ∃ t, Sys2Proof.Machine.exec (.lgaspRx n v) s = .next t ∧
        t = { s with sent := t.sent }) ∧
  (∀ (m : Mgmt)  (s : State), live s = true → s.wfb.inbox = [m] → m.num 0 1 = 11 → m.link < 4 → calm s s = true → liveTree s = [] → s.wfb.gasps = [] → m.num 1 2 < 4096 → m.num 3 1 < 16 → m.num 1 2 ≠ getF s F.LKH_SBYPEER_PEERID → 
      ∃ t, Sys2Proof.Machine.exec (.lgfwdRx) s = .next t ∧
        getF t F.WFB_LGLOG_SRCID = m.num 1 2 ∧
        getF t F.WFB_LGLOG_CAUSE = m.num 3 1 ∧
        getF t F.WFB_LGLOG_LINK = m.link ∧
        isSet t F.WFB_LGLOG_FWD = true ∧
        getF t F.WFB_LGLOG_COUNT = min 8191 (getF s F.WFB_LGLOG_COUNT + 1) ∧
        getF t F.WFB_EVT_LASTGASP = 1 ∧
        t.wfb.gasps = [(m.num 1 2, s.now)] ∧
        sameRegs ([A.WFB_LGLOG, A.WFB_LGTIME, A.WFB_LGTIME + 4] ++ ([A.WFB_EVT] ++ pendWords)) s t ∧
        t = { s with regs := t.regs, wfb := t.wfb, evtLast := t.evtLast, lkp := { s.lkp with srcVal := t.lkp.srcVal }, sent := t.sent } ∧
        t.wfb.inbox = []) ∧
  (∀ (m : Mgmt)  (s : State), live s = true → s.wfb.inbox = [m] → m.num 0 1 = 12 → m.link < 4 → calm s s = true → m.pkt.dst = ownId s → (isSet s F.WFB_CTL_RSTEN = false ∨ m.num 1 16 ≠ ownUid s) → merges s A.WFB_EVT 8 = false → 
      ∃ t, Sys2Proof.Machine.exec (.resetreqRx) s = .next t ∧
        hasEvent s t A.WFB_EVT 8 ∧
        sameRegs ([A.WFB_EVT] ++ pendWords) s t ∧
        t = { s with regs := t.regs, wfb := t.wfb, evtLast := t.evtLast, lkp := { s.lkp with srcVal := t.lkp.srcVal }, sent := t.sent } ∧
        t.wfb.inbox = []) ∧
  (∀ (m : Mgmt)  (s : State), live s = true → s.wfb.inbox = [m] → m.num 0 1 = 12 → m.link < 4 → calm s s = true → m.pkt.dst = ownId s → isSet s F.WFB_CTL_RSTEN = true → m.num 1 16 = ownUid s → 
      ∃ t, Sys2Proof.Machine.exec (.resetreqRx) s = .next t ∧
        getF t F.SYS_STATUS_LASTRST = 5 ∧
        t.wfb.inbox = []) ∧
  (∀ (who : Who) (target : Fin 4096) (s : State), live s = true → isPriv s who = true → linkTo s target = none → routeTo s target ≠ 12 → unguarded s who = true → 
      ∃ t, Sys2Proof.Machine.exec (.wfbRstcmd who target) s = .next t ∧
        getF t F.WFB_RSTCMD_RESULT = 1 ∧
        getF t F.WFB_RSTCMD_TARGET = target ∧
        sameRegs [A.WFB_RSTCMD] s t ∧
        t = { s with regs := t.regs, sent := t.sent }) ∧
  (∀ (who : Who) (target : Fin 4096) (u : Nat) (n : Fin 4) (s : State), live s = true → isPriv s who = true → linkTo s target = some n.val → s.wfb.nextIds = [(u, target.val)] → (s.wl n).txq = [] → (s.wl n).replay = [] → 5 ≤ (s.wl n).credits.get 0 → unguarded s who = true → 
      ∃ t, Sys2Proof.Machine.exec (.wfbRstcmd who target) s = .next t ∧
        getF t F.WFB_RSTCMD_RESULT = 0 ∧
        ((t.wl n).replay.map (fun u => (u.pkt.dst, u.pkt.payload)) = [(target.val, [b8 12] ++ beBytes 16 u)]) ∧
        sameRegs [A.WFB_RSTCMD] s t ∧
        t = { s with regs := t.regs, wfb := t.wfb, sent := t.sent }) ∧
  (∀ (who : Who) (target : Fin 4096) (n : Fin 4) (s : State), live s = true → isPriv s who = true → linkTo s target = some n.val → s.wfb.nextIds = [] → (∀ m : Fin 4, (s.wl m).nbr = none) → (s.wl n).txq = [] → (s.wl n).replay = [] → 5 ≤ (s.wl n).credits.get 0 → unguarded s who = true → 
      ∃ t, Sys2Proof.Machine.exec (.wfbRstcmd who target) s = .next t ∧
        getF t F.WFB_RSTCMD_RESULT = 0 ∧
        ((t.wl n).replay.map (fun u => (u.pkt.dst, u.pkt.payload.take 1, u.pkt.payload.length)) = [(target.val, [b8 12], 17)]) ∧
        sameRegs [A.WFB_RSTCMD] s t ∧
        t = { s with regs := t.regs, wfb := t.wfb, free := s.free + 1, sent := t.sent })

/-- A host read through an enabled window answers the bytes, or Unsupported Request where the window or the bridge is disabled, or
Completer Abort before start-up step 3; BAR2 answers the MSI-X table and the pending bits; a posted write is numbered and
performed, or logged with its code in BRG_PWERR. QSPI READ drives the marker and the bytes or the error code; WRITE posts each
complete word and logs an incomplete one; STATUS shows and clears what is fresh. A configuration request answers the identity,
Retry Status before step 3, or Unsupported Request for a type the endpoint lacks. MSI-X: an acknowledge clears pending bits, a
table write changes one word and an unmasked pending vector is sent. Link up, link down, hot reset and PERST_N do what R461 and
R527 say of PCI_STATUS, events and line buffers. The model's own choices that clauses rest on: log 34, 91, 92, 147 and 166. Each
clause answers a next state by its conditions on the state and the operands alone: so HOST_MEM_READ, HOST_MEM_WRITE, QSPI_READ,
QSPI_WRITE, QSPI_STATUS, MSIX_ACK, MSIX_TABLE_WRITE, PCIE_CONFIG_REQUEST, PCIE_LINK_UP, PCIE_HOT_RESET and PERST_N complete. -/
def Obligations.HostBridge : Prop :=
  (∀ (w : Fin 8) (x : Fin 0x100) (tag : Nat) (s : State), live s = true → calm s s = true → pcieUp s = true → s.brg.opened = true → frozen s 3 = false → isSet s (F.BRG_HWIN_EN w) = true → getF s (F.BRG_HWIN_BASE w) = 0x60 → isSet s (F.BRG_HWIN_PF w) = false → isSet s F.BRG_CTL_HEN = true → s.brg.gathers = [] → eccOf s (0x30000000 + x.val * 8) 8 = 0 → s.brg.sems = Vector.replicate 32 none → s.brg.waits = [] → behind hostWho s = false → frozen s 4 = false → 
      ∃ t, Sys2Proof.Machine.exec (.hostMemRead (.bar0 (w.val * 0x800000 + x.val * 8)) 8 tag) s = .next t ∧
        t.sent = [{ chan := .host, bytes := [0, b8 tag] ++ bytesAt s (0x30000000 + x.val * 8) 8 }] ∧
        sameRegs [] s t ∧
        t = { s with regs := t.regs, brg := { s.brg with nextReq := t.brg.nextReq }, sent := t.sent }) ∧
  (∀ (off n tag : Nat) (s : State), live s = true → s.faults.due = none → calm s s = true → pcieUp s = true → s.brg.opened = true → frozen s 3 = false → (isSet s F.BRG_CTL_HEN = false ∨ isSet s (F.BRG_HWIN_EN (off / 0x800000 % 8)) = false) → merges s A.PCI_EVT 3 = false → s.brg.waits = [] → hostReads s < 32 → behind hostWho s = false → frozen s 4 = false → 
      ∃ t, Sys2Proof.Machine.exec (.hostMemRead (.bar0 off) n tag) s = .next t ∧
        t.sent = [{ chan := .host, bytes := [1, b8 tag] }] ∧
        hasEvent s t A.PCI_EVT 3 ∧
        sameRegs ([A.PCI_EVT] ++ pendWords) s t ∧
        t = { s with evtLast := t.evtLast, regs := t.regs, sent := t.sent, lkp := { s.lkp with srcVal := t.lkp.srcVal } }) ∧
  (∀ (off n tag : Nat) (s : State), powered s = true → calm s s = true → pcieUp s = true → s.brg.opened = false → merges s A.PCI_EVT 3 = false → 
      ∃ t, Sys2Proof.Machine.exec (.hostMemRead (.bar0 off) n tag) s = .next t ∧
        t.sent = [{ chan := .host, bytes := [4, b8 tag] }] ∧
        hasEvent s t A.PCI_EVT 3 ∧
        t = { s with evtLast := t.evtLast, regs := t.regs, sent := t.sent, lkp := { s.lkp with srcVal := t.lkp.srcVal } }) ∧
  (∀ (v : Fin 32) (q : Fin 4) (tag : Nat) (s : State), powered s = true → calm s s = true → pcieUp s = true → 
      ∃ t, Sys2Proof.Machine.exec (.hostMemRead (.bar2 (16 * v + 4 * q)) 4 tag) s = .next t ∧
        (t.sent = [{ chan := .host, bytes := [0, b8 tag] ++ leBytes 4 (match q.val with | 0 => (s.brg.msix.get v).addr % 2 ^ 32 | 1 => (s.brg.msix.get v).addr / 2 ^ 32 % 2 ^ 32 | 2 => (s.brg.msix.get v).data.toNat | _ => bit (s.brg.msix.get v).masked) }]) ∧
        t = { s with sent := t.sent }) ∧
  (∀ (tag : Nat) (s : State), powered s = true → calm s s = true → pcieUp s = true → 
      ∃ t, Sys2Proof.Machine.exec (.hostMemRead (.bar2 0x1000) 4 tag) s = .next t ∧
        t.sent = [{ chan := .host, bytes := [0, b8 tag] ++ leBytes 4 (rd s A.PCI_MSIXPEND).toNat }] ∧
        t = { s with sent := t.sent }) ∧
  (∀ (w : Fin 8) (off : Nat) (bs : List Byte) (s : State), live s = true → calm s s = true → pcieUp s = true → s.brg.opened = true → frozen s 3 = false → isSet s (F.BRG_HWIN_EN w) = false → off < 0x800000 → merges s A.BRG_EVT 0 = false → s.brg.waits = [] → behind hostWho s = false → frozen s 4 = false → 
      ∃ t, Sys2Proof.Machine.exec (.hostMemWrite (w.val * 0x800000 + off) bs) s = .next t ∧
        rd t (A.BRG_PWERR_ADDR (getF s F.BRG_PWERRPTR_NEXT)) = w32 (w.val * 0x800000 + off) ∧
        getF t (F.BRG_PWERR_INFO_CODE (getF s F.BRG_PWERRPTR_NEXT)) = 1 ∧
        rd t (A.BRG_PWERR_SEQ (getF s F.BRG_PWERRPTR_NEXT)) = w32 (lastSeq t 46) ∧
        getF t F.BRG_PWERRPTR_NEXT = (getF s F.BRG_PWERRPTR_NEXT + 1) % 8 ∧
        lastSeq t 46 = (lastSeq s 46 + 1) % 2 ^ 32 ∧
        t.brg.hostBufs = [] ∧
        t.brg.fresh = true ∧
        hasEvent s t A.BRG_EVT 0 ∧
        t = { s with regs := t.regs, brg := t.brg, evtLast := t.evtLast, lkp := { s.lkp with srcVal := t.lkp.srcVal }, sent := t.sent }) ∧
  (∀ (w : Fin 8) (off : Nat) (bs : List Byte) (s : State), live s = true → calm s s = true → pcieUp s = true → s.brg.opened = true → frozen s 3 = false → isSet s (F.BRG_HWIN_EN w) = true → getF s (F.BRG_HWIN_BASE w) = 0xC0 → off < 0x800000 → off = A.PCI_MSIXACK - 0x60000000 → isSet s F.BRG_CTL_HEN = true → bs.length = 4 → s.brg.waits = [] → unguarded s hostWho = true → behind hostWho s = false → frozen s 4 = false → 
      ∃ t, Sys2Proof.Machine.exec (.hostMemWrite (w.val * 0x800000 + off) bs) s = .next t ∧
        lastSeq t 46 = (lastSeq s 46 + 1) % 2 ^ 32 ∧
        t.brg.hostBufs = [] ∧
        rd t A.PCI_MSIXPEND = rd s A.PCI_MSIXPEND &&& ~~~(w32 (leNat bs)) ∧
        sameRegs [A.PCI_MSIXPEND] s t ∧
        t = { s with regs := t.regs, brg := t.brg, sent := t.sent }) ∧
  (∀ (a : Word) (n : Nat) (x : Fin 0x100) (s : State), live s = true → calm s s = true → qspiOn s = true → s.brg.opened = true → frozen s 3 = false → isSet s F.BRG_CTL_HEN = true → a.toNat = (0x30000000 + x.val * 8) → n = 8 → s.brg.gathers = [] → eccOf s (0x30000000 + x.val * 8) 8 = 0 → s.brg.sems = Vector.replicate 32 none → s.brg.waits = [] → behind hostWho s = false → frozen s 4 = false → 
      ∃ t, Sys2Proof.Machine.exec (.qspiRead a n) s = .next t ∧
        t.sent = [{ chan := .host, bytes := 0x5A :: bytesAt s (0x30000000 + x.val * 8) 8 }] ∧
        sameRegs [] s t ∧
        t = { s with regs := t.regs, brg := { s.brg with nextReq := t.brg.nextReq }, sent := t.sent }) ∧
  (∀ (a : Word) (n : Nat) (s : State), live s = true → calm s s = true → qspiOn s = true → isSet s F.BRG_CTL_HEN = false → s.brg.opened = true → s.brg.waits = [] → behind hostWho s = false → frozen s 3 = false → frozen s 4 = false → 
      ∃ t, Sys2Proof.Machine.exec (.qspiRead a n) s = .next t ∧
        t.sent = [{ chan := .host, bytes := [0xA5, 1] }] ∧
        t = { s with sent := t.sent }) ∧
  (∀ (a : Word) (n : Nat) (s : State), powered s = true → calm s s = true → qspiOn s = true → s.brg.opened = false → 
      ∃ t, Sys2Proof.Machine.exec (.qspiRead a n) s = .next t ∧
        t.sent = [{ chan := .host, bytes := [0xA5, 1] }] ∧
        t = { s with sent := t.sent }) ∧
  (∀ (a : Word) (bs : List Byte) (s : State), live s = true → calm s s = true → qspiOn s = true → s.brg.opened = true → frozen s 3 = false → isSet s F.BRG_CTL_HEN = true → a.toNat = A.PCI_MSIXACK → bs.length = 4 → s.brg.waits = [] → unguarded s hostWho = true → behind hostWho s = false → frozen s 4 = false → 
      ∃ t, Sys2Proof.Machine.exec (.qspiWrite a bs) s = .next t ∧
        lastSeq t 46 = (lastSeq s 46 + 1) % 2 ^ 32 ∧
        t.brg.hostBufs = [] ∧
        rd t A.PCI_MSIXPEND = rd s A.PCI_MSIXPEND &&& ~~~(w32 (leNat bs)) ∧
        sameRegs [A.PCI_MSIXPEND] s t ∧
        t = { s with regs := t.regs, brg := t.brg, sent := t.sent }) ∧
  (∀ (a : Word) (bs : List Byte) (s : State), live s = true → calm s s = true → qspiOn s = true → s.brg.opened = true → frozen s 3 = false → a.toNat % 4 = 0 → (0 < bs.length ∧ bs.length < 4) → merges s A.BRG_EVT 0 = false → s.brg.waits = [] → behind hostWho s = false → frozen s 4 = false → 
      ∃ t, Sys2Proof.Machine.exec (.qspiWrite a bs) s = .next t ∧
        getF t (F.BRG_PWERR_INFO_CODE (getF s F.BRG_PWERRPTR_NEXT)) = 1 ∧
        rd t (A.BRG_PWERR_ADDR (getF s F.BRG_PWERRPTR_NEXT)) = a ∧
        hasEvent s t A.BRG_EVT 0 ∧
        t = { s with regs := t.regs, brg := t.brg, evtLast := t.evtLast, lkp := { s.lkp with srcVal := t.lkp.srcVal }, sent := t.sent }) ∧
  (∀ (s : State), live s = true → qspiOn s = true → s.brg.opened = true → 
      ∃ t, Sys2Proof.Machine.exec (.qspiStatus) s = .next t ∧
        t.sent = [{ chan := .host, bytes := [b8 (bit s.brg.fresh + 2 * bit (rd s A.PCI_MSIXPEND != 0))] }] ∧
        t = { s with brg := { s.brg with fresh := false }, sent := t.sent }) ∧
  (∀ (s : State), powered s = true → qspiOn s = true → s.brg.opened = false → 
      ∃ t, Sys2Proof.Machine.exec (.qspiStatus) s = .next t ∧
        t.sent = [{ chan := .host, bytes := [0] }] ∧
        t = { s with sent := t.sent }) ∧
  (∀ (who : Who) (v : Word) (s : State), live s = true → isPriv s who = true → unguarded s who = true → 
      ∃ t, Sys2Proof.Machine.exec (.msixAck who v) s = .next t ∧
        rd t A.PCI_MSIXPEND = rd s A.PCI_MSIXPEND &&& ~~~v ∧
        sameRegs [A.PCI_MSIXPEND] s t ∧
        t = { s with regs := t.regs, sent := t.sent }) ∧
  (∀ (v : Fin 32) (word : Fin 4) (x : Word) (s : State), live s = true → pcieUp s = true → word = 0 → isSet s ⟨A.PCI_MSIXPEND, v.val, 1⟩ = false → 
      ∃ t, Sys2Proof.Machine.exec (.msixTableWrite v word x) s = .next t ∧
        t.brg.msix.get v = { (s.brg.msix.get v) with addr := (s.brg.msix.get v).addr / 2 ^ 32 * 2 ^ 32 + x.toNat / 4 * 4 } ∧
        (∀ j : Fin 32, j ≠ v → t.brg.msix.get j = s.brg.msix.get j) ∧
        t.sent = [] ∧
        t = { s with brg := { s.brg with msix := t.brg.msix }, sent := t.sent }) ∧
  (∀ (v : Fin 32) (word : Fin 4) (x : Word) (s : State), live s = true → pcieUp s = true → word = 1 → isSet s ⟨A.PCI_MSIXPEND, v.val, 1⟩ = false → 
      ∃ t, Sys2Proof.Machine.exec (.msixTableWrite v word x) s = .next t ∧
        t.brg.msix.get v = { (s.brg.msix.get v) with addr := (s.brg.msix.get v).addr % 2 ^ 32 + x.toNat * 2 ^ 32 } ∧
        (∀ j : Fin 32, j ≠ v → t.brg.msix.get j = s.brg.msix.get j) ∧
        t.sent = [] ∧
        t = { s with brg := { s.brg with msix := t.brg.msix }, sent := t.sent }) ∧
  (∀ (v : Fin 32) (word : Fin 4) (x : Word) (s : State), live s = true → pcieUp s = true → word = 2 → isSet s ⟨A.PCI_MSIXPEND, v.val, 1⟩ = false → 
      ∃ t, Sys2Proof.Machine.exec (.msixTableWrite v word x) s = .next t ∧
        t.brg.msix.get v = { (s.brg.msix.get v) with data := x } ∧
        (∀ j : Fin 32, j ≠ v → t.brg.msix.get j = s.brg.msix.get j) ∧
        t.sent = [] ∧
        t = { s with brg := { s.brg with msix := t.brg.msix }, sent := t.sent }) ∧
  (∀ (v : Fin 32) (word : Fin 4) (x : Word) (s : State), live s = true → pcieUp s = true → word = 3 → isSet s ⟨A.PCI_MSIXPEND, v.val, 1⟩ = false → 
      ∃ t, Sys2Proof.Machine.exec (.msixTableWrite v word x) s = .next t ∧
        t.brg.msix.get v = { (s.brg.msix.get v) with masked := x.getLsbD 0 } ∧
        (∀ j : Fin 32, j ≠ v → t.brg.msix.get j = s.brg.msix.get j) ∧
        t.sent = [] ∧
        t = { s with brg := { s.brg with msix := t.brg.msix }, sent := t.sent }) ∧
  (∀ (v : Fin 32) (word : Fin 4) (x : Word) (s : State), live s = true → pcieUp s = true → word = 3 → x.getLsbD 0 = false → isSet s ⟨A.PCI_MSIXPEND, v.val, 1⟩ = true → isSet s F.PCI_STATUS_MSIXEN = true → 
      ∃ t, Sys2Proof.Machine.exec (.msixTableWrite v word x) s = .next t ∧
        t.brg.msix.get v = { (s.brg.msix.get v) with masked := false } ∧
        isSet t ⟨A.PCI_MSIXPEND, v.val, 1⟩ = false ∧
        t.sent = [{ chan := .msix v, bytes := leBytes 8 (s.brg.msix.get v).addr ++ leBytes 4 (s.brg.msix.get v).data.toNat }] ∧
        sameRegs [A.PCI_MSIXPEND] s t ∧
        t = { s with regs := t.regs, brg := { s.brg with msix := t.brg.msix }, sent := t.sent }) ∧
  (∀ (q : CfgReq) (s : State), powered s = true → pcieUp s = true → s.brg.opened = false → q ≠ .unsupported → 
      ∃ t, Sys2Proof.Machine.exec (.pcieConfigRequest q) s = .next t ∧
        t.sent = [{ chan := .host, bytes := [2] }] ∧
        t = { s with sent := t.sent }) ∧
  (∀ (s : State), powered s = true → pcieUp s = true → 
      ∃ t, Sys2Proof.Machine.exec (.pcieConfigRequest .unsupported) s = .next t ∧
        t.sent = [{ chan := .host, bytes := [1] }] ∧
        t = { s with sent := t.sent }) ∧
  (∀ (v : Bool) (s : State), powered s = true → pcieUp s = true → s.brg.opened = true → rd s A.PCI_MSIXPEND = 0 → 
      ∃ t, Sys2Proof.Machine.exec (.pcieConfigRequest (.msixEnable v)) s = .next t ∧
        t.sent = [{ chan := .host, bytes := [0] }] ∧
        isSet t F.PCI_STATUS_MSIXEN = v ∧
        sameRegs [A.PCI_STATUS] s t ∧
        t = { s with regs := t.regs, sent := t.sent }) ∧
  (∀ (s : State), powered s = true → pcieUp s = true → s.brg.opened = true → 
      ∃ t, Sys2Proof.Machine.exec (.pcieConfigRequest (.read 0)) s = .next t ∧
        (t.sent = [{ chan := .host, bytes := [0, 0xF7, 0x1E, if s.sn then 0x81 else 0x80, 0x04] }]) ∧
        t = { s with sent := t.sent }) ∧
  (∀ (s : State), powered s = true → pcieUp s = true → s.brg.opened = true → 
      ∃ t, Sys2Proof.Machine.exec (.pcieConfigRequest (.read 2)) s = .next t ∧
        t.sent = [{ chan := .host, bytes := [0, b8 (getF s F.SYS_IDENT_MODREV), 0x00, 0x80, 0x08] }] ∧
        t = { s with sent := t.sent }) ∧
  (∀ (k : Nat) (s : State), powered s = true → pcieUp s = true → s.brg.opened = true → (k ≠ 0 ∧ k ≠ 2) → 
      ∃ t, Sys2Proof.Machine.exec (.pcieConfigRequest (.read k)) s = .next t ∧
        t.sent.length = 1 ∧
        t = { s with free := s.free + 1, sent := t.sent }) ∧
  (∀ (speed width : Fin 4) (s : State), live s = true → isSet s F.PCI_STATUS_HOSTIF = false → isSet s F.PCI_STATUS_LINK = false → s.brg.perst = true → isSet s F.SYS_CLKSTAT_PCILOCK = true → 1 ≤ speed.val → (width = 1 ∨ width = 2) → merges s A.PCI_EVT 0 = false → 
      ∃ t, Sys2Proof.Machine.exec (.pcieLinkUp speed width) s = .next t ∧
        isSet t F.PCI_STATUS_LINK = true ∧
        getF t F.PCI_STATUS_SPEED = speed ∧
        getF t F.PCI_STATUS_WIDTH = width ∧
        hasEvent s t A.PCI_EVT 0 ∧
        sameRegs ([A.PCI_STATUS, A.PCI_EVT] ++ pendWords) s t ∧
        t = { s with evtLast := t.evtLast, regs := t.regs, sent := t.sent, lkp := { s.lkp with srcVal := t.lkp.srcVal } }) ∧
  (∀ (kind : Fin 3) (s : State), live s = true → pcieUp s = true → kind = 1 → s.brg.gathers = [] → s.brg.sems = Vector.replicate 32 none → merges s A.PCI_EVT 1 = false → 
      ∃ t, Sys2Proof.Machine.exec (.pcieHotReset kind) s = .next t ∧
        isSet t F.PCI_STATUS_LINK = false ∧
        getF t F.PCI_STATUS_SPEED = 0 ∧
        getF t F.PCI_STATUS_WIDTH = 0 ∧
        t.brg.hostBufs = [] ∧
        hasEvent s t A.PCI_EVT 1) ∧
  (∀ (kind : Fin 3) (s : State), live s = true → pcieUp s = true → kind ≠ 1 → s.brg.gathers = [] → s.brg.sems = Vector.replicate 32 none → merges s A.PCI_EVT 2 = false → 
      ∃ t, Sys2Proof.Machine.exec (.pcieHotReset kind) s = .next t ∧
        pcieUp t = true ∧
        t.brg.hostBufs = [] ∧
        hasEvent s t A.PCI_EVT 2 ∧
        (∀ v : Fin 32, t.brg.msix.get v = s.brg.msix.get v)) ∧
  (∀ (high : Bool) (s : State), live s = true → high = true → 
      ∃ t, Sys2Proof.Machine.exec (.perstN high) s = .next t ∧
        t = { s with brg := { s.brg with perst := true }, sent := t.sent }) ∧
  (∀ (high : Bool) (s : State), live s = true → high = false → pcieUp s = true → merges s A.PCI_EVT 1 = false → s.brg.gathers = [] → s.brg.sems = Vector.replicate 32 none → 
      ∃ t, Sys2Proof.Machine.exec (.perstN high) s = .next t ∧
        t.brg.perst = false ∧
        t.brg.hostBufs = [] ∧
        isSet t F.PCI_STATUS_LINK = false ∧
        getF t F.PCI_STATUS_SPEED = 0 ∧
        getF t F.PCI_STATUS_WIDTH = 0 ∧
        hasEvent s t A.PCI_EVT 1) ∧
  (∀ (off n tag : Nat) (s : State), live s = true → calm s s = true → pcieUp s = true → s.brg.opened = true → frozen s 3 = true → 
      ∃ t, Sys2Proof.Machine.exec (.hostMemRead (.bar0 off) n tag) s = .next t ∧
        t.brg = { s.brg with waits := s.brg.waits ++ [.memRead off n tag] } ∧
        t = { s with brg := t.brg, sent := t.sent }) ∧
  (∀ (off : Nat) (bs : List Byte) (s : State), live s = true → calm s s = true → pcieUp s = true → s.brg.opened = true → frozen s 3 = true → 
      ∃ t, Sys2Proof.Machine.exec (.hostMemWrite off bs) s = .next t ∧
        t.brg = { s.brg with waits := s.brg.waits ++ [.memWrite off bs] } ∧
        t = { s with brg := t.brg, sent := t.sent })

/-- A remote write is performed with the initiator it names, or answered with PWERR; a remote read waits for the write it names and is
answered with its bytes. A packet taken frees the receive buffer it held. A response ends the read with its tag, one without a
read is counted as late; a PWERR is logged; a read unanswered for BRG_RDTMO ends with REMOTE_TIMEOUT; line buffers older than
PFAGE go. A read takes a free semaphore or shows its owner; the owner or a privileged initiator releases it with 0, any other such
write ends with LOCKED, also while it is free, and HOLD does after its time. A poll entry reads its word each period; a result
that calls for it sets a vector or a mailbox, and an error is counted. The model's own choices that clauses rest on: log 40, 86,
91 and 93. Each clause answers a next state by its conditions on the state and the operands alone: so REMOTE_WRITE_RX,
REMOTE_READ_RX, READ_RESPONSE_RX, PWERR_RX, READ_TIMEOUT, PREFETCH_EXPIRE, SEM_READ, SEM_WRITE, SEM_HOLD_EXPIRE, POLL_TIMER and
POLL_RESPONSE complete. -/
def Obligations.FabricBridge : Prop :=
  (∀ (p : Packet) (k : Nat)  (s : State), live s = true → calm s s = true → frozen s 4 = false → s.wfb.bridge = [⟨p, k⟩] → p.num 0 1 = 1 → p.num 4 4 = A.PCI_MSIXACK → p.num 8 2 = 4 → p.payload.length = 20 → isSet s F.BRG_CTL_FEN = true → isPriv s p.who = true → unguarded s p.who = true → 
      ∃ t, Sys2Proof.Machine.exec (.remoteWriteRx) s = .next t ∧
        t.brg.pathRx = SMap.ins s.brg.pathRx p.src (p.num 10 2) ∧
        t.brg.fabBufs = [] ∧
        rd t A.PCI_MSIXPEND = rd s A.PCI_MSIXPEND &&& ~~~(w32 (leNat (p.payload.drop 16))) ∧
        sameRegs [A.PCI_MSIXPEND] s t ∧
        t.sent = [] ∧
        t.wfb.bridge = []) ∧
  (∀ (p : Packet) (k : Nat) (n : Fin 4) (s : State), live s = true → calm s s = true → frozen s 4 = false → s.wfb.bridge = [⟨p, k⟩] → p.num 0 1 = 1 → isSet s F.BRG_CTL_FEN = false → p.src ≠ ownId s → linkTo s p.src = some n.val → (s.wl n).txq = [] → (s.wl n).replay = [] → (16 ≤ (s.wl n).credits.get 3 ∧ 16 ≤ (s.wl n).credits.get 1) → 
      ∃ t, Sys2Proof.Machine.exec (.remoteWriteRx) s = .next t ∧
        ((t.wl n).replay.map (fun u => (u.pkt.vc, u.pkt.dst, u.pkt.payload)) = [(3, p.src, [4, 5] ++ beBytes 2 (p.num 1 1 % 64) ++ beBytes 4 (p.num 4 4) ++ beBytes 4 0 ++ beBytes 4 (p.num 12 4))]) ∧
        sameRegs [] s t ∧
        t.wfb.bridge = []) ∧
  (∀ (p : Packet) (k : Nat) (n : Fin 4) (x : Fin 0x100) (s : State), live s = true → calm s s = true → frozen s 4 = false → s.wfb.bridge = [⟨p, k⟩] → p.num 0 1 = 2 → p.num 4 4 = (0x30000000 + x.val * 8) → p.num 8 2 = 8 → readMayGo s p = true → isSet s F.BRG_CTL_FEN = true → eccOf s (0x30000000 + x.val * 8) 8 = 0 → s.brg.sems = Vector.replicate 32 none → linkTo s p.src = some n.val → (s.wl n).txq = [] → (s.wl n).replay = [] → (16 ≤ (s.wl n).credits.get 3 ∧ 16 ≤ (s.wl n).credits.get 1) → 
      ∃ t, Sys2Proof.Machine.exec (.remoteReadRx) s = .next t ∧
        ((t.wl n).replay.map (fun u => (u.pkt.vc, u.pkt.dst, u.pkt.payload)) = [(3, p.src, [3, 0] ++ beBytes 2 (p.num 2 2) ++ beBytes 4 (p.num 4 4) ++ beBytes 2 8 ++ beBytes 6 0 ++ bytesAt s (0x30000000 + x.val * 8) 8)]) ∧
        sameRegs [] s t ∧
        t.wfb.bridge = []) ∧
  (∀ (p : Packet) (k : Nat) (s : State), live s = true → calm s s = true → s.wfb.bridge = [⟨p, k⟩] → readMayGo s p = false → 
      ∃ t, Sys2Proof.Machine.exec (.remoteReadRx) s = .next t ∧
        t = { s with sent := t.sent }) ∧
  (∀ (p : Packet) (k : Nat) (r : OutRead) (x : Fin 16) (s : State), live s = true → calm s s = true → frozen s 4 = false → s.wfb.bridge = [⟨p, k⟩] → p.num 0 1 = 3 → s.brg.reads = [r] → r.use = .poll x → r.want = (0, 4) → r.line = false → s.brg.gathers = [] → s.brg.waits = [] → s.rot.held = [] → p.num 2 2 = r.tag → p.num 1 1 = 0 → p.num 8 2 = 4 → p.payload.length = 20 → 
      ∃ t, Sys2Proof.Machine.exec (.readResponseRx) s = .next t ∧
        t.brg.reads = [] ∧
        t.brg.polled.get x = some (0, w32 (leNat (p.payload.drop 16))) ∧
        sameRegs [] s t ∧
        t = { s with regs := t.regs, wfb := { s.wfb with bridge := [], links := t.wfb.links }, brg := { s.brg with reads := [], polled := t.brg.polled }, sent := t.sent } ∧
        t.wfb.bridge = []) ∧
  (∀ (p : Packet) (k : Nat)  (s : State), live s = true → calm s s = true → frozen s 4 = false → s.wfb.bridge = [⟨p, k⟩] → p.num 0 1 = 3 → (s.brg.reads.all (fun r => r.tag != p.num 2 2) = true) → merges s A.BRG_EVT 2 = false → 
      ∃ t, Sys2Proof.Machine.exec (.readResponseRx) s = .next t ∧
        getF t F.BRG_LATECNT_LATE = satAdd F.BRG_LATECNT_LATE.w (getF s F.BRG_LATECNT_LATE) 1 ∧
        hasEvent s t A.BRG_EVT 2 ∧
        sameRegs ([A.BRG_EVT, A.BRG_LATECNT] ++ pendWords) s t ∧
        t = { s with regs := t.regs, wfb := { s.wfb with bridge := [], links := t.wfb.links }, evtLast := t.evtLast, lkp := { s.lkp with srcVal := t.lkp.srcVal }, sent := t.sent } ∧
        t.wfb.bridge = []) ∧
  (∀ (p : Packet) (k : Nat)  (s : State), live s = true → frozen s 4 = false → s.wfb.bridge = [⟨p, k⟩] → p.num 0 1 = 4 → merges s A.BRG_EVT 0 = false → 
      ∃ t, Sys2Proof.Machine.exec (.pwerrRx) s = .next t ∧
        rd t (A.BRG_PWERR_ADDR (getF s F.BRG_PWERRPTR_NEXT)) = w32 (p.num 4 4) ∧
        rd t (A.BRG_PWERR_SEQ (getF s F.BRG_PWERRPTR_NEXT)) = w32 (p.num 12 4) ∧
        getF t (F.BRG_PWERR_INFO_CODE (getF s F.BRG_PWERRPTR_NEXT)) = p.num 1 1 % 16 ∧
        getF t F.BRG_PWERRPTR_NEXT = ((getF s F.BRG_PWERRPTR_NEXT) + 1) % 8 ∧
        hasEvent s t A.BRG_EVT 0 ∧
        sameRegs ([A.BRG_PWERR_ADDR (getF s F.BRG_PWERRPTR_NEXT), A.BRG_PWERR_INFO (getF s F.BRG_PWERRPTR_NEXT), A.BRG_PWERR_SEQ (getF s F.BRG_PWERRPTR_NEXT), A.BRG_PWERRPTR, A.BRG_EVT] ++ pendWords) s t ∧
        t = { s with regs := t.regs, brg := t.brg, wfb := t.wfb, evtLast := t.evtLast, lkp := { s.lkp with srcVal := t.lkp.srcVal }, sent := t.sent } ∧
        (∀ n : Fin 4, n.val ≠ k → t.wl n = s.wl n) ∧
        (∀ n : Fin 4, n.val = k → wlState s n = 2 → t.wl n = { s.wl n with owed := vset (s.wl n).owed p.vc (vget (s.wl n).owed p.vc + p.blocks) }) ∧
        t.wfb.bridge = []) ∧
  (∀ (r : OutRead) (x : Fin 16) (s : State), live s = true → calm s s = true → s.brg.reads = [r] → r.use = .poll x → r.want = (0, 4) → r.line = false → s.brg.gathers = [] → s.brg.waits = [] → s.rot.held = [] → r.since + 1000 * getF s F.BRG_RDTMO_TMO ≤ s.now → merges s A.BRG_EVT 1 = false → 
      ∃ t, Sys2Proof.Machine.exec (.readTimeout) s = .next t ∧
        t.brg.reads = [] ∧
        t.brg.polled.get x = some (BusErr.code .remoteTimeout, 0) ∧
        getF t F.BRG_LATECNT_TIMEOUT = satAdd F.BRG_LATECNT_TIMEOUT.w (getF s F.BRG_LATECNT_TIMEOUT) 1 ∧
        hasEvent s t A.BRG_EVT 1 ∧
        sameRegs ([A.BRG_EVT, A.BRG_LATECNT] ++ pendWords) s t ∧
        t = { s with regs := t.regs, brg := t.brg, evtLast := t.evtLast, lkp := { s.lkp with srcVal := t.lkp.srcVal }, sent := t.sent }) ∧
  (∀ (s : State), live s = true → calm s s = true → (s.brg.reads.all (fun r => decide (s.now < r.since + 1000 * getF s F.BRG_RDTMO_TMO)) = true) → 
      ∃ t, Sys2Proof.Machine.exec (.readTimeout) s = .next t ∧
        t = { s with sent := t.sent }) ∧
  (∀ (s : State), live s = true → 
      ∃ t, Sys2Proof.Machine.exec (.prefetchExpire) s = .next t ∧
        (t = { s with brg := { s.brg with hostBufs := s.brg.hostBufs.filter fun x => decide (s.now < x.at' + 100 * getF s F.BRG_CTL_PFAGE), fabBufs := s.brg.fabBufs.filter fun x => decide (s.now < x.at' + 100 * getF s F.BRG_CTL_PFAGE) }, sent := t.sent })) ∧
  (∀ (who : Who) (kk : Fin 32) (s : State), live s = true → who.remote = none → s.brg.sems.get kk = none → 
      ∃ t, Sys2Proof.Machine.exec (.semRead who kk) s = .next t ∧
        t.brg.sems.get kk = some { id := who.id, fid := 0, since := s.now } ∧
        t.sent = [{ chan := .reply who.id, bytes := [0, 0, 0, 0] }] ∧
        (∀ j : Fin 32, j ≠ kk → t.brg.sems.get j = s.brg.sems.get j) ∧
        t = { s with brg := { s.brg with sems := t.brg.sems }, sent := t.sent }) ∧
  (∀ (who : Who) (kk : Fin 32) (o : SemOwner) (s : State), live s = true → who.remote = none → s.brg.sems.get kk = some o → 
      ∃ t, Sys2Proof.Machine.exec (.semRead who kk) s = .next t ∧
        t.sent = [{ chan := .reply who.id, bytes := leBytes 4 (w32 (o.fid * 2 ^ 16 + o.id + 1)).toNat }] ∧
        t = { s with sent := t.sent }) ∧
  (∀ (who : Who) (kk : Fin 32) (v : Word) (o : SemOwner) (s : State), live s = true → s.brg.sems.get kk = some o → ((o.id, o.fid) = who.owner ∨ isPriv s who = true) → v = 0 → unguarded s who = true → 
      ∃ t, Sys2Proof.Machine.exec (.semWrite who kk v) s = .next t ∧
        t.brg.sems.get kk = none ∧
        (∀ j : Fin 32, j ≠ kk → t.brg.sems.get j = s.brg.sems.get j) ∧
        t = { s with brg := { s.brg with sems := t.brg.sems }, sent := t.sent }) ∧
  (∀ (who : Who) (kk : Fin 32) (v : Word) (s : State), live s = true → v ≠ 0 → unguarded s who = true → 
      ∃ t, Sys2Proof.Machine.exec (.semWrite who kk v) s = .next t ∧
        t = { s with sent := t.sent }) ∧
  (∀ (who : Who) (kk : Fin 32) (v : Word) (o : SemOwner) (s : State), live s = true → s.brg.sems.get kk = some o → (o.id, o.fid) ≠ who.owner → isPriv s who = false → v = 0 → who.remote = none → (who.id ≠ 46 ∧ who.id ≠ 47) → unguarded s who = true → 
      ∃ t, Sys2Proof.Machine.exec (.semWrite who kk v) s = .next t ∧
        t.brg.sems = s.brg.sems ∧
        rd t (A.SYS_BUSERR_ADDR (getF s F.SYS_BUSERRPTR_NEXT)) = w32 (A.BRG_SEM kk) ∧
        getF t (F.SYS_BUSERR_INFO_CODE (getF s F.SYS_BUSERRPTR_NEXT)) = 7 ∧
        getF t (F.SYS_BUSERR_INFO_ID (getF s F.SYS_BUSERRPTR_NEXT)) = who.id % 64) ∧
  (∀ (who : Who) (kk : Fin 32) (v : Word) (s : State), live s = true → s.brg.sems.get kk = none → isPriv s who = false → v = 0 → who.remote = none → (who.id ≠ 46 ∧ who.id ≠ 47) → unguarded s who = true → 
      ∃ t, Sys2Proof.Machine.exec (.semWrite who kk v) s = .next t ∧
        t.brg.sems = s.brg.sems ∧
        rd t (A.SYS_BUSERR_ADDR (getF s F.SYS_BUSERRPTR_NEXT)) = w32 (A.BRG_SEM kk) ∧
        getF t (F.SYS_BUSERR_INFO_CODE (getF s F.SYS_BUSERRPTR_NEXT)) = 7 ∧
        getF t (F.SYS_BUSERR_INFO_ID (getF s F.SYS_BUSERRPTR_NEXT)) = who.id % 64) ∧
  (∀ (kk : Fin 32) (o : SemOwner) (s : State), live s = true → s.brg.sems.get kk = some o → o.since + 1000 * getF s F.BRG_SEMCFG_HOLD ≤ s.now → merges s A.BRG_EVT 3 = false → 
      ∃ t, Sys2Proof.Machine.exec (.semHoldExpire kk) s = .next t ∧
        t.brg.sems.get kk = none ∧
        (∀ j : Fin 32, j ≠ kk → t.brg.sems.get j = s.brg.sems.get j) ∧
        hasEvent s t A.BRG_EVT 3 ∧
        sameRegs ([A.BRG_EVT] ++ pendWords) s t ∧
        t = { s with regs := t.regs, brg := t.brg, evtLast := t.evtLast, lkp := { s.lkp with srcVal := t.lkp.srcVal }, sent := t.sent }) ∧
  (∀ (kk : Fin 32) (o : SemOwner) (s : State), live s = true → s.brg.sems.get kk = some o → s.now < o.since + 1000 * getF s F.BRG_SEMCFG_HOLD → 
      ∃ t, Sys2Proof.Machine.exec (.semHoldExpire kk) s = .next t ∧
        t = { s with sent := t.sent }) ∧
  (∀ (kk : Fin 16) (x : Fin 0x100) (s : State), live s = true → calm s s = true → isSet s (F.BRG_IP_CFG_EN kk) = true → s.brg.reads = [] → s.brg.polled.get kk = none → s.brg.pollAt.get kk + 1000 * getF s (F.BRG_IP_CFG_PERIOD kk) ≤ s.now → getF s (F.BRG_IP_SRC_ADDR kk) = 0xC000000 + x.val → eccOf s (0x30000000 + 4 * x.val) 4 = 0 → s.brg.sems = Vector.replicate 32 none → 
      ∃ t, Sys2Proof.Machine.exec (.pollTimer kk) s = .next t ∧
        t.brg.polled.get kk = some (0, w32 (memNat s (0x30000000 + 4 * x.val) 4)) ∧
        t.brg.pollAt.get kk = s.now ∧
        sameRegs [] s t ∧
        t = { s with regs := t.regs, brg := { s.brg with polled := t.brg.polled, pollAt := t.brg.pollAt }, sent := t.sent }) ∧
  (∀ (kk : Fin 16) (s : State), live s = true → calm s s = true → (isSet s (F.BRG_IP_CFG_EN kk) = false ∨ s.now < s.brg.pollAt.get kk + 1000 * getF s (F.BRG_IP_CFG_PERIOD kk)) → 
      ∃ t, Sys2Proof.Machine.exec (.pollTimer kk) s = .next t ∧
        t = { s with sent := t.sent }) ∧
  (∀ (kk : Fin 16) (w : Word) (s : State), live s = true → s.brg.polled.get kk = some (0, w) → isSet s (F.BRG_IP_CFG_EDGE kk) = true → (w &&& rd s (A.BRG_IP_MASK kk)) = rd s (A.BRG_IP_LAST kk) → 
      ∃ t, Sys2Proof.Machine.exec (.pollResponse kk) s = .next t ∧
        t = { s with brg := { s.brg with polled := t.brg.polled }, sent := t.sent } ∧
        t.brg.polled.get kk = none) ∧
  (∀ (kk : Fin 16) (w : Word) (s : State), live s = true → s.brg.polled.get kk = some (0, w) → isSet s (F.BRG_IP_CFG_EDGE kk) = false → (w &&& rd s (A.BRG_IP_MASK kk)) = 0 → 
      ∃ t, Sys2Proof.Machine.exec (.pollResponse kk) s = .next t ∧
        rd t (A.BRG_IP_LAST kk) = 0 ∧
        t.brg.disarmed.get kk = false ∧
        t.brg.polled.get kk = none ∧
        sameRegs [A.BRG_IP_LAST kk] s t ∧
        t = { s with regs := t.regs, brg := t.brg, sent := t.sent }) ∧
  (∀ (kk : Fin 16) (w : Word) (v : Fin 32) (s : State), live s = true → s.brg.polled.get kk = some (0, w) → isSet s (F.BRG_IP_CFG_EDGE kk) = false → (w &&& rd s (A.BRG_IP_MASK kk)) ≠ 0 → s.brg.disarmed.get kk = false → isSet s (F.BRG_IP_CFG_MSIX kk) = true → getF s (F.BRG_IP_CFG_DEST kk) = v → (s.brg.msix.get v).masked = true → 
      ∃ t, Sys2Proof.Machine.exec (.pollResponse kk) s = .next t ∧
        rd t (A.BRG_IP_LAST kk) = (w &&& rd s (A.BRG_IP_MASK kk)) ∧
        t.brg.disarmed.get kk = true ∧
        isSet t ⟨A.PCI_MSIXPEND, v.val, 1⟩ = true ∧
        sameRegs [A.BRG_IP_LAST kk, A.PCI_MSIXPEND] s t ∧
        t = { s with regs := t.regs, brg := t.brg, sent := t.sent }) ∧
  (∀ (kk : Fin 16) (c : Nat) (w : Word) (s : State), live s = true → s.brg.polled.get kk = some (c, w) → c ≠ 0 → merges s A.BRG_EVT 5 = false → 
      ∃ t, Sys2Proof.Machine.exec (.pollResponse kk) s = .next t ∧
        getF t (F.BRG_IP_CFG_ERRCNT kk) = satAdd (F.BRG_IP_CFG_ERRCNT kk).w (getF s (F.BRG_IP_CFG_ERRCNT kk)) 1 ∧
        t.brg.polled.get kk = none ∧
        hasEvent s t A.BRG_EVT 5 ∧
        sameRegs ([A.BRG_EVT, A.BRG_IP_CFG kk] ++ pendWords) s t ∧
        t = { s with regs := t.regs, brg := t.brg, evtLast := t.evtLast, lkp := { s.lkp with srcVal := t.lkp.srcVal }, sent := t.sent })
end

