-- ==== Sys2Proof/Laws/Bits.lean ====
section
/-! SUPPORT. Lemmas about fields of words: what a field reads after it is written, and that other bits stay. -/

namespace Sys2Proof

theorem bitsOf_lt (v lo w : Nat) : bitsOf v lo w < 2 ^ w := Nat.mod_lt _ (Nat.two_pow_pos w)

theorem testBit_bitsOf (v lo w i : Nat) : (bitsOf v lo w).testBit i = (decide (i < w) && v.testBit (lo + i)) := by
  simp [bitsOf, Nat.testBit_mod_two_pow, Nat.testBit_div_two_pow, Nat.add_comm]

theorem putBits_eq_or (v lo w x : Nat) :
    putBits v lo w x = v % 2 ^ lo + (x % 2 ^ w + v / 2 ^ (lo + w) * 2 ^ w) * 2 ^ lo := by
  simp only [putBits, pow_add]; ring

theorem testBit_putBits (v lo w x i : Nat) :
    (putBits v lo w x).testBit i = if i < lo then v.testBit i else if i < lo + w then x.testBit (i - lo) else v.testBit i := by
  rw [putBits_eq_or, Nat.add_comm, Nat.mul_comm (_ + _) (2 ^ lo), Nat.testBit_two_pow_mul_add _ (Nat.mod_lt _ (Nat.two_pow_pos lo))]
  by_cases h : i < lo
  · simp [h, Nat.testBit_mod_two_pow]
  · rw [if_neg h, if_neg h, Nat.add_comm (x % 2 ^ w), Nat.mul_comm _ (2 ^ w), Nat.testBit_two_pow_mul_add _ (Nat.mod_lt _ (Nat.two_pow_pos w))]
    by_cases g : i < lo + w
    · rw [if_pos g, if_pos (by omega), Nat.testBit_mod_two_pow]
      simp; omega
    · rw [if_neg g, if_neg (by omega), Nat.testBit_div_two_pow]
      congr 1; omega

/-- A field reads what was written to it. -/
theorem bitsOf_putBits_same (v lo w x : Nat) : bitsOf (putBits v lo w x) lo w = x % 2 ^ w := by
  apply Nat.eq_of_testBit_eq; intro i
  rw [testBit_bitsOf, testBit_putBits, Nat.testBit_mod_two_pow]
  by_cases h : i < w
  · simp [h]
  · simp [h]

/-- A field that shares no bit with the one written keeps its value. -/
theorem bitsOf_putBits_other (v lo w x lo' w' : Nat) (h : lo' + w' ≤ lo ∨ lo + w ≤ lo') :
    bitsOf (putBits v lo w x) lo' w' = bitsOf v lo' w' := by
  apply Nat.eq_of_testBit_eq; intro i
  rw [testBit_bitsOf, testBit_bitsOf, testBit_putBits]
  by_cases g : i < w'
  · rcases h with h | h
    · rw [if_pos (by omega)]
    · rw [if_neg (by omega), if_neg (by omega)]
  · simp [g]

/-- A field written into a 32-bit word leaves a 32-bit word. -/
theorem putBits_lt (v lo w x : Nat) (hv : v < 2 ^ 32) (h : lo + w ≤ 32) : putBits v lo w x < 2 ^ 32 := by
  apply Nat.lt_pow_two_of_testBit; intro i hi
  rw [testBit_putBits, if_neg (by omega), if_neg (by omega)]
  exact Nat.testBit_lt_two_pow (lt_of_lt_of_le hv (Nat.pow_le_pow_right (by norm_num) hi))

@[simp] theorem w32_toNat (w : Word) : w32 w.toNat = w := by simp [w32]

theorem toNat_w32 (n : Nat) : (w32 n).toNat = n % 2 ^ 32 := by simp [w32]

theorem toNat_w32_lt (n : Nat) (h : n < 2 ^ 32) : (w32 n).toNat = n := by rw [toNat_w32, Nat.mod_eq_of_lt h]

@[simp] theorem toNat_w32_putBits (w : Word) (lo n x : Nat) (h : lo + n ≤ 32) :
    (w32 (putBits w.toNat lo n x)).toNat = putBits w.toNat lo n x :=
  toNat_w32_lt _ (putBits_lt _ _ _ _ w.isLt h)

theorem bitAt_eq_testBit (v k : Nat) : bitAt v k = v.testBit k := by
  simp [bitAt, Nat.testBit, Nat.shiftRight_eq_div_pow]

theorem bitAt_putBits (v lo w x k : Nat) :
    bitAt (putBits v lo w x) k = if k < lo then bitAt v k else if k < lo + w then bitAt x (k - lo) else bitAt v k := by
  simp only [bitAt_eq_testBit, testBit_putBits]

@[simp] theorem bit_true : bit true = 1 := rfl

@[simp] theorem bit_false : bit false = 0 := rfl

end Sys2Proof
end

