-- ==== Sys2Proof/Laws/SMap.lean ====
section
/-! SUPPORT. Lemmas about sparse maps: what a key reads after a write or a removal, and that the canonical form is kept. -/

namespace Sys2Proof.Machine

variable {α : Type}

theorem SMap.get?_ins_same (m : List (Nat × α)) (k : Nat) (v : α) : SMap.get? (SMap.ins m k v) k = some v := by
  induction m with
  | nil => simp [SMap.ins, SMap.get?]
  | cons x t ih =>
    obtain ⟨a, y⟩ := x
    simp only [SMap.ins]
    split
    · simp [SMap.get?]
    · split
      · simp [SMap.get?]
      · rename_i h; simp [SMap.get?, h, ih]

theorem SMap.get?_ins_other (m : List (Nat × α)) (k j : Nat) (v : α) (h : j ≠ k) :
    SMap.get? (SMap.ins m k v) j = SMap.get? m j := by
  induction m with
  | nil => simp [SMap.ins, SMap.get?, Ne.symm h]
  | cons x t ih =>
    obtain ⟨a, y⟩ := x
    simp only [SMap.ins]
    split
    · simp [SMap.get?, Ne.symm h]
    · split
      · rename_i g; subst g; simp [SMap.get?, Ne.symm h]
      · simp [SMap.get?, ih]

theorem SMap.get?_del_same (m : List (Nat × α)) (k : Nat) : SMap.get? (SMap.del m k) k = none := by
  induction m with
  | nil => rfl
  | cons x t ih =>
    obtain ⟨a, y⟩ := x
    simp only [SMap.del]
    split
    · exact ih
    · rename_i h; simp [SMap.get?, h, ih]

theorem SMap.get?_del_other (m : List (Nat × α)) (k j : Nat) (h : j ≠ k) : SMap.get? (SMap.del m k) j = SMap.get? m j := by
  induction m with
  | nil => rfl
  | cons x t ih =>
    obtain ⟨a, y⟩ := x
    simp only [SMap.del]
    split
    · rename_i g; subst g; simp [SMap.get?, Ne.symm h, ih]
    · simp [SMap.get?, ih]

variable [DecidableEq α]

/-- A key reads the value written to it. -/
theorem SMap.read_put_same (d : α) (m : List (Nat × α)) (k : Nat) (v : α) : (SMap.get? (SMap.put d m k v) k).getD d = v := by
  unfold SMap.put; split
  · rename_i h; simp [SMap.get?_del_same, h]
  · simp [SMap.get?_ins_same]

/-- Every other key reads as before. -/
theorem SMap.get?_put_other (d : α) (m : List (Nat × α)) (k j : Nat) (v : α) (h : j ≠ k) :
    SMap.get? (SMap.put d m k v) j = SMap.get? m j := by
  unfold SMap.put; split
  · exact SMap.get?_del_other m k j h
  · exact SMap.get?_ins_other m k j v h

theorem SMap.wfFrom_mono (d : Nat → α) {lo hi : Nat} {m : List (Nat × α)} (h : lo ≤ hi) (w : SMap.wfFrom d hi m = true) :
    SMap.wfFrom d lo m = true := by
  cases m with
  | nil => rfl
  | cons x t =>
    obtain ⟨a, y⟩ := x
    simp only [SMap.wfFrom, Bool.and_eq_true, decide_eq_true_eq] at w ⊢
    exact ⟨⟨by omega, w.1.2⟩, w.2⟩

theorem SMap.wfFrom_del (d : Nat → α) (k : Nat) (m : List (Nat × α)) : ∀ lo, SMap.wfFrom d lo m = true → SMap.wfFrom d lo (SMap.del m k) = true := by
  induction m with
  | nil => intro lo h; exact h
  | cons x t ih =>
    obtain ⟨a, y⟩ := x
    intro lo h
    simp [SMap.wfFrom] at h
    simp only [SMap.del]
    split
    · exact SMap.wfFrom_mono d (by omega) (ih _ h.2)
    · simp [SMap.wfFrom, h.1, ih _ h.2]

theorem SMap.wfFrom_ins (d : Nat → α) (k : Nat) (v : α) (hv : v ≠ d k) (m : List (Nat × α)) :
    ∀ lo, lo ≤ k → SMap.wfFrom d lo m = true → SMap.wfFrom d lo (SMap.ins m k v) = true := by
  induction m with
  | nil => intro lo h _; simp [SMap.ins, SMap.wfFrom, hv, h]
  | cons x t ih =>
    obtain ⟨a, y⟩ := x
    intro lo hlo h
    simp [SMap.wfFrom] at h
    simp only [SMap.ins]
    split
    · simp [SMap.wfFrom, hv, hlo, h]; omega
    · split
      · rename_i g; subst g; simp [SMap.wfFrom, hv, h]
      · simp [SMap.wfFrom, h.1, ih (a + 1) (by omega) h.2]

/-- A write keeps the canonical form. -/
theorem SMap.wf_put (d : Nat → α) (m : List (Nat × α)) (k : Nat) (v : α) (h : SMap.wf d m = true) :
    SMap.wf d (SMap.put (d k) m k v) = true := by
  unfold SMap.put SMap.wf; split
  · exact SMap.wfFrom_del d k m 0 h
  · rename_i g; exact SMap.wfFrom_ins d k v g m 0 (Nat.zero_le _) h

theorem SMap.wfFrom_filter (d : Nat → α) (p : Nat × α → Bool) (m : List (Nat × α)) :
    ∀ lo, SMap.wfFrom d lo m = true → SMap.wfFrom d lo (m.filter p) = true := by
  induction m with
  | nil => intro lo h; exact h
  | cons x t ih =>
    obtain ⟨a, y⟩ := x
    intro lo h
    simp [SMap.wfFrom] at h
    simp only [List.filter]
    split
    · simp [SMap.wfFrom, h.1, ih _ h.2]
    · exact SMap.wfFrom_mono d (by omega) (ih _ h.2)

/-- Dropping entries keeps the canonical form. -/
theorem SMap.wf_filter (d : Nat → α) (p : Nat × α → Bool) (m : List (Nat × α)) (h : SMap.wf d m = true) :
    SMap.wf d (m.filter p) = true := SMap.wfFrom_filter d p m 0 h

end Sys2Proof.Machine
end

