-- ==== Sys2Proof/Laws/Regs.lean ====
section
/-! SUPPORT. Register words and fields: what each reads after a write (02_registers R10, R56, R58). -/

namespace Sys2Proof.Machine

/-- A word reads what was written to it. -/
@[simp] theorem rd_wr_same (a : Nat) (v : Word) (s : State) : rd (wr a v s) a = v := SMap.read_put_same _ _ _ _

/-- Writing a word leaves every other word. -/
theorem rd_wr_other (a b : Nat) (v : Word) (s : State) (h : b ≠ a) : rd (wr a v s) b = rd s b := by
  simp [rd, wr, SMap.get?_put_other _ _ _ _ _ h]

theorem rd_wr (a b : Nat) (v : Word) (s : State) : rd (wr a v s) b = if b = a then v else rd s b := by
  split
  · rename_i h; subst h; simp
  · rename_i h; exact rd_wr_other a b v s h

/-- A word depends on the register list alone. -/
theorem rd_congr {s t : State} (h : s.regs = t.regs) (a : Nat) : rd s a = rd t a := by simp [rd, h]

theorem getF_congr {s t : State} (h : s.regs = t.regs) (f : FRef) : getF s f = getF t f := by simp [getF, rd, h]

theorem isSet_congr {s t : State} (h : s.regs = t.regs) (f : FRef) : isSet s f = isSet t f := by simp [isSet, getF, rd, h]

theorem getF_lt (s : State) (f : FRef) : getF s f < 2 ^ f.w := bitsOf_lt _ _ _

theorem rd_setF (f : FRef) (v : Nat) (s : State) (a : Nat) :
    rd (setF f v s) a = if a = f.addr then w32 (putBits (rd s f.addr).toNat f.lo f.w v) else rd s a := by
  unfold setF; rw [rd_wr]

theorem rd_setF_other (f : FRef) (v : Nat) (s : State) (a : Nat) (h : a ≠ f.addr) : rd (setF f v s) a = rd s a := by
  rw [rd_setF, if_neg h]

/-- A field reads what was written to it. -/
theorem getF_setF_same (f : FRef) (v : Nat) (s : State) (h : f.lo + f.w ≤ 32) : getF (setF f v s) f = v % 2 ^ f.w := by
  simp only [getF, rd_setF, if_true]
  rw [toNat_w32_putBits _ _ _ _ h, bitsOf_putBits_same]

/-- Two fields that share no bit. -/
def FRef.apart (f g : FRef) : Prop := f.addr ≠ g.addr ∨ f.lo + f.w ≤ g.lo ∨ g.lo + g.w ≤ f.lo

/-- Writing a field leaves every field that shares no bit with it. -/
theorem getF_setF_other (f g : FRef) (v : Nat) (s : State) (h : f.lo + f.w ≤ 32) (d : f.apart g) :
    getF (setF f v s) g = getF s g := by
  simp only [getF, rd_setF]
  split
  · rename_i e
    rw [toNat_w32_putBits _ _ _ _ h, bitsOf_putBits_other, e]
    rcases d with d | d | d
    · exact absurd e.symm d
    · exact Or.inr d
    · exact Or.inl d
  · rfl

theorem isSet_setF_same (f : FRef) (v : Nat) (s : State) (h : f.lo + f.w ≤ 32) : isSet (setF f v s) f = (v % 2 ^ f.w == 1) := by
  simp [isSet, getF_setF_same f v s h]

theorem isSet_setF_other (f g : FRef) (v : Nat) (s : State) (h : f.lo + f.w ≤ 32) (d : f.apart g) :
    isSet (setF f v s) g = isSet s g := by
  simp [isSet, getF_setF_other f g v s h d]

theorem getF_wr_other (a : Nat) (v : Word) (s : State) (g : FRef) (h : g.addr ≠ a) : getF (wr a v s) g = getF s g := by
  simp [getF, rd_wr_other a _ v s h]

theorem isSet_wr_other (a : Nat) (v : Word) (s : State) (g : FRef) (h : g.addr ≠ a) : isSet (wr a v s) g = isSet s g := by
  simp [isSet, getF_wr_other a v s g h]

/-- The register list stays canonical under a write. -/
theorem wr_wf (a : Nat) (v : Word) (s : State) (h : SMap.wf (fun a => w32 (resetNat a)) s.regs = true) :
    SMap.wf (fun a => w32 (resetNat a)) (wr a v s).regs = true := SMap.wf_put (fun a => w32 (resetNat a)) _ _ _ h

theorem setF_wf (f : FRef) (v : Nat) (s : State) (h : SMap.wf (fun a => w32 (resetNat a)) s.regs = true) :
    SMap.wf (fun a => w32 (resetNat a)) (setF f v s).regs = true := wr_wf _ _ _ h

/-- A write of one word is a change of the register list alone. -/
theorem wr_regs (a : Nat) (v : Word) (s : State) : { wr a v s with regs := s.regs } = s := rfl

theorem setF_eq (f : FRef) (v : Nat) (s : State) : ∃ r, setF f v s = { s with regs := r } := ⟨_, rfl⟩

end Sys2Proof.Machine
end

