-- ==== Sys2Proof/Laws/State.lean ====
section
/-! SUPPORT. What each named update of the state leaves as it is: one lemma per field per update, true by rfl. -/

namespace Sys2Proof.Machine

@[simp] theorem wr_pending (a : Nat) (v : Word) (s : State) : (wr a v s).pending = s.pending := (rfl)
@[simp] theorem wr_now (a : Nat) (v : Word) (s : State) : (wr a v s).now = s.now := (rfl)
@[simp] theorem wr_sn (a : Nat) (v : Word) (s : State) : (wr a v s).sn = s.sn := (rfl)
@[simp] theorem wr_free (a : Nat) (v : Word) (s : State) : (wr a v s).free = s.free := (rfl)
@[simp] theorem wr_mem (a : Nat) (v : Word) (s : State) : (wr a v s).mem = s.mem := (rfl)
@[simp] theorem wr_ecc (a : Nat) (v : Word) (s : State) : (wr a v s).ecc = s.ecc := (rfl)
@[simp] theorem wr_evtLast (a : Nat) (v : Word) (s : State) : (wr a v s).evtLast = s.evtLast := (rfl)
@[simp] theorem wr_rshadow (a : Nat) (v : Word) (s : State) : (wr a v s).rshadow = s.rshadow := (rfl)
@[simp] theorem wr_wshadow (a : Nat) (v : Word) (s : State) : (wr a v s).wshadow = s.wshadow := (rfl)
@[simp] theorem wr_cores (a : Nat) (v : Word) (s : State) : (wr a v s).cores = s.cores := (rfl)
@[simp] theorem wr_mbox (a : Nat) (v : Word) (s : State) : (wr a v s).mbox = s.mbox := (rfl)
@[simp] theorem wr_lkp (a : Nat) (v : Word) (s : State) : (wr a v s).lkp = s.lkp := (rfl)
@[simp] theorem wr_scan (a : Nat) (v : Word) (s : State) : (wr a v s).scan = s.scan := (rfl)
@[simp] theorem wr_rot (a : Nat) (v : Word) (s : State) : (wr a v s).rot = s.rot := (rfl)
@[simp] theorem wr_faults (a : Nat) (v : Word) (s : State) : (wr a v s).faults = s.faults := (rfl)
@[simp] theorem wr_tmb (a : Nat) (v : Word) (s : State) : (wr a v s).tmb = s.tmb := (rfl)
@[simp] theorem wr_fio (a : Nat) (v : Word) (s : State) : (wr a v s).fio = s.fio := (rfl)
@[simp] theorem wr_basin (a : Nat) (v : Word) (s : State) : (wr a v s).basin = s.basin := (rfl)
@[simp] theorem wr_eth (a : Nat) (v : Word) (s : State) : (wr a v s).eth = s.eth := (rfl)
@[simp] theorem wr_tow (a : Nat) (v : Word) (s : State) : (wr a v s).tow = s.tow := (rfl)
@[simp] theorem wr_can (a : Nat) (v : Word) (s : State) : (wr a v s).can = s.can := (rfl)
@[simp] theorem wr_canClk (a : Nat) (v : Word) (s : State) : (wr a v s).canClk = s.canClk := (rfl)
@[simp] theorem wr_btl (a : Nat) (v : Word) (s : State) : (wr a v s).btl = s.btl := (rfl)
@[simp] theorem wr_balls (a : Nat) (v : Word) (s : State) : (wr a v s).balls = s.balls := (rfl)
@[simp] theorem wr_wfb (a : Nat) (v : Word) (s : State) : (wr a v s).wfb = s.wfb := (rfl)
@[simp] theorem wr_brg (a : Nat) (v : Word) (s : State) : (wr a v s).brg = s.brg := (rfl)
@[simp] theorem wr_cfg (a : Nat) (v : Word) (s : State) : (wr a v s).cfg = s.cfg := (rfl)
@[simp] theorem wr_dma (a : Nat) (v : Word) (s : State) : (wr a v s).dma = s.dma := (rfl)
@[simp] theorem wr_pair (a : Nat) (v : Word) (s : State) : (wr a v s).pair = s.pair := (rfl)
@[simp] theorem wr_boot (a : Nat) (v : Word) (s : State) : (wr a v s).boot = s.boot := (rfl)
@[simp] theorem wr_sent (a : Nat) (v : Word) (s : State) : (wr a v s).sent = s.sent := (rfl)

@[simp] theorem setF_pending (f : FRef) (v : Nat) (s : State) : (setF f v s).pending = s.pending := (rfl)
@[simp] theorem setF_now (f : FRef) (v : Nat) (s : State) : (setF f v s).now = s.now := (rfl)
@[simp] theorem setF_sn (f : FRef) (v : Nat) (s : State) : (setF f v s).sn = s.sn := (rfl)
@[simp] theorem setF_free (f : FRef) (v : Nat) (s : State) : (setF f v s).free = s.free := (rfl)
@[simp] theorem setF_mem (f : FRef) (v : Nat) (s : State) : (setF f v s).mem = s.mem := (rfl)
@[simp] theorem setF_ecc (f : FRef) (v : Nat) (s : State) : (setF f v s).ecc = s.ecc := (rfl)
@[simp] theorem setF_evtLast (f : FRef) (v : Nat) (s : State) : (setF f v s).evtLast = s.evtLast := (rfl)
@[simp] theorem setF_rshadow (f : FRef) (v : Nat) (s : State) : (setF f v s).rshadow = s.rshadow := (rfl)
@[simp] theorem setF_wshadow (f : FRef) (v : Nat) (s : State) : (setF f v s).wshadow = s.wshadow := (rfl)
@[simp] theorem setF_cores (f : FRef) (v : Nat) (s : State) : (setF f v s).cores = s.cores := (rfl)
@[simp] theorem setF_mbox (f : FRef) (v : Nat) (s : State) : (setF f v s).mbox = s.mbox := (rfl)
@[simp] theorem setF_lkp (f : FRef) (v : Nat) (s : State) : (setF f v s).lkp = s.lkp := (rfl)
@[simp] theorem setF_scan (f : FRef) (v : Nat) (s : State) : (setF f v s).scan = s.scan := (rfl)
@[simp] theorem setF_rot (f : FRef) (v : Nat) (s : State) : (setF f v s).rot = s.rot := (rfl)
@[simp] theorem setF_faults (f : FRef) (v : Nat) (s : State) : (setF f v s).faults = s.faults := (rfl)
@[simp] theorem setF_tmb (f : FRef) (v : Nat) (s : State) : (setF f v s).tmb = s.tmb := (rfl)
@[simp] theorem setF_fio (f : FRef) (v : Nat) (s : State) : (setF f v s).fio = s.fio := (rfl)
@[simp] theorem setF_basin (f : FRef) (v : Nat) (s : State) : (setF f v s).basin = s.basin := (rfl)
@[simp] theorem setF_eth (f : FRef) (v : Nat) (s : State) : (setF f v s).eth = s.eth := (rfl)
@[simp] theorem setF_tow (f : FRef) (v : Nat) (s : State) : (setF f v s).tow = s.tow := (rfl)
@[simp] theorem setF_can (f : FRef) (v : Nat) (s : State) : (setF f v s).can = s.can := (rfl)
@[simp] theorem setF_canClk (f : FRef) (v : Nat) (s : State) : (setF f v s).canClk = s.canClk := (rfl)
@[simp] theorem setF_btl (f : FRef) (v : Nat) (s : State) : (setF f v s).btl = s.btl := (rfl)
@[simp] theorem setF_balls (f : FRef) (v : Nat) (s : State) : (setF f v s).balls = s.balls := (rfl)
@[simp] theorem setF_wfb (f : FRef) (v : Nat) (s : State) : (setF f v s).wfb = s.wfb := (rfl)
@[simp] theorem setF_brg (f : FRef) (v : Nat) (s : State) : (setF f v s).brg = s.brg := (rfl)
@[simp] theorem setF_cfg (f : FRef) (v : Nat) (s : State) : (setF f v s).cfg = s.cfg := (rfl)
@[simp] theorem setF_dma (f : FRef) (v : Nat) (s : State) : (setF f v s).dma = s.dma := (rfl)
@[simp] theorem setF_pair (f : FRef) (v : Nat) (s : State) : (setF f v s).pair = s.pair := (rfl)
@[simp] theorem setF_boot (f : FRef) (v : Nat) (s : State) : (setF f v s).boot = s.boot := (rfl)
@[simp] theorem setF_sent (f : FRef) (v : Nat) (s : State) : (setF f v s).sent = s.sent := (rfl)

@[simp] theorem satF_pending (f : FRef) (v : Nat) (s : State) : (satF f v s).pending = s.pending := (rfl)
@[simp] theorem satF_now (f : FRef) (v : Nat) (s : State) : (satF f v s).now = s.now := (rfl)
@[simp] theorem satF_sn (f : FRef) (v : Nat) (s : State) : (satF f v s).sn = s.sn := (rfl)
@[simp] theorem satF_free (f : FRef) (v : Nat) (s : State) : (satF f v s).free = s.free := (rfl)
@[simp] theorem satF_mem (f : FRef) (v : Nat) (s : State) : (satF f v s).mem = s.mem := (rfl)
@[simp] theorem satF_ecc (f : FRef) (v : Nat) (s : State) : (satF f v s).ecc = s.ecc := (rfl)
@[simp] theorem satF_evtLast (f : FRef) (v : Nat) (s : State) : (satF f v s).evtLast = s.evtLast := (rfl)
@[simp] theorem satF_rshadow (f : FRef) (v : Nat) (s : State) : (satF f v s).rshadow = s.rshadow := (rfl)
@[simp] theorem satF_wshadow (f : FRef) (v : Nat) (s : State) : (satF f v s).wshadow = s.wshadow := (rfl)
@[simp] theorem satF_cores (f : FRef) (v : Nat) (s : State) : (satF f v s).cores = s.cores := (rfl)
@[simp] theorem satF_mbox (f : FRef) (v : Nat) (s : State) : (satF f v s).mbox = s.mbox := (rfl)
@[simp] theorem satF_lkp (f : FRef) (v : Nat) (s : State) : (satF f v s).lkp = s.lkp := (rfl)
@[simp] theorem satF_scan (f : FRef) (v : Nat) (s : State) : (satF f v s).scan = s.scan := (rfl)
@[simp] theorem satF_rot (f : FRef) (v : Nat) (s : State) : (satF f v s).rot = s.rot := (rfl)
@[simp] theorem satF_faults (f : FRef) (v : Nat) (s : State) : (satF f v s).faults = s.faults := (rfl)
@[simp] theorem satF_tmb (f : FRef) (v : Nat) (s : State) : (satF f v s).tmb = s.tmb := (rfl)
@[simp] theorem satF_fio (f : FRef) (v : Nat) (s : State) : (satF f v s).fio = s.fio := (rfl)
@[simp] theorem satF_basin (f : FRef) (v : Nat) (s : State) : (satF f v s).basin = s.basin := (rfl)
@[simp] theorem satF_eth (f : FRef) (v : Nat) (s : State) : (satF f v s).eth = s.eth := (rfl)
@[simp] theorem satF_tow (f : FRef) (v : Nat) (s : State) : (satF f v s).tow = s.tow := (rfl)
@[simp] theorem satF_can (f : FRef) (v : Nat) (s : State) : (satF f v s).can = s.can := (rfl)
@[simp] theorem satF_canClk (f : FRef) (v : Nat) (s : State) : (satF f v s).canClk = s.canClk := (rfl)
@[simp] theorem satF_btl (f : FRef) (v : Nat) (s : State) : (satF f v s).btl = s.btl := (rfl)
@[simp] theorem satF_balls (f : FRef) (v : Nat) (s : State) : (satF f v s).balls = s.balls := (rfl)
@[simp] theorem satF_wfb (f : FRef) (v : Nat) (s : State) : (satF f v s).wfb = s.wfb := (rfl)
@[simp] theorem satF_brg (f : FRef) (v : Nat) (s : State) : (satF f v s).brg = s.brg := (rfl)
@[simp] theorem satF_cfg (f : FRef) (v : Nat) (s : State) : (satF f v s).cfg = s.cfg := (rfl)
@[simp] theorem satF_dma (f : FRef) (v : Nat) (s : State) : (satF f v s).dma = s.dma := (rfl)
@[simp] theorem satF_pair (f : FRef) (v : Nat) (s : State) : (satF f v s).pair = s.pair := (rfl)
@[simp] theorem satF_boot (f : FRef) (v : Nat) (s : State) : (satF f v s).boot = s.boot := (rfl)
@[simp] theorem satF_sent (f : FRef) (v : Nat) (s : State) : (satF f v s).sent = s.sent := (rfl)

@[simp] theorem incF_pending (f : FRef) (v : Nat) (s : State) : (incF f v s).pending = s.pending := (rfl)
@[simp] theorem incF_now (f : FRef) (v : Nat) (s : State) : (incF f v s).now = s.now := (rfl)
@[simp] theorem incF_sn (f : FRef) (v : Nat) (s : State) : (incF f v s).sn = s.sn := (rfl)
@[simp] theorem incF_free (f : FRef) (v : Nat) (s : State) : (incF f v s).free = s.free := (rfl)
@[simp] theorem incF_mem (f : FRef) (v : Nat) (s : State) : (incF f v s).mem = s.mem := (rfl)
@[simp] theorem incF_ecc (f : FRef) (v : Nat) (s : State) : (incF f v s).ecc = s.ecc := (rfl)
@[simp] theorem incF_evtLast (f : FRef) (v : Nat) (s : State) : (incF f v s).evtLast = s.evtLast := (rfl)
@[simp] theorem incF_rshadow (f : FRef) (v : Nat) (s : State) : (incF f v s).rshadow = s.rshadow := (rfl)
@[simp] theorem incF_wshadow (f : FRef) (v : Nat) (s : State) : (incF f v s).wshadow = s.wshadow := (rfl)
@[simp] theorem incF_cores (f : FRef) (v : Nat) (s : State) : (incF f v s).cores = s.cores := (rfl)
@[simp] theorem incF_mbox (f : FRef) (v : Nat) (s : State) : (incF f v s).mbox = s.mbox := (rfl)
@[simp] theorem incF_lkp (f : FRef) (v : Nat) (s : State) : (incF f v s).lkp = s.lkp := (rfl)
@[simp] theorem incF_scan (f : FRef) (v : Nat) (s : State) : (incF f v s).scan = s.scan := (rfl)
@[simp] theorem incF_rot (f : FRef) (v : Nat) (s : State) : (incF f v s).rot = s.rot := (rfl)
@[simp] theorem incF_faults (f : FRef) (v : Nat) (s : State) : (incF f v s).faults = s.faults := (rfl)
@[simp] theorem incF_tmb (f : FRef) (v : Nat) (s : State) : (incF f v s).tmb = s.tmb := (rfl)
@[simp] theorem incF_fio (f : FRef) (v : Nat) (s : State) : (incF f v s).fio = s.fio := (rfl)
@[simp] theorem incF_basin (f : FRef) (v : Nat) (s : State) : (incF f v s).basin = s.basin := (rfl)
@[simp] theorem incF_eth (f : FRef) (v : Nat) (s : State) : (incF f v s).eth = s.eth := (rfl)
@[simp] theorem incF_tow (f : FRef) (v : Nat) (s : State) : (incF f v s).tow = s.tow := (rfl)
@[simp] theorem incF_can (f : FRef) (v : Nat) (s : State) : (incF f v s).can = s.can := (rfl)
@[simp] theorem incF_canClk (f : FRef) (v : Nat) (s : State) : (incF f v s).canClk = s.canClk := (rfl)
@[simp] theorem incF_btl (f : FRef) (v : Nat) (s : State) : (incF f v s).btl = s.btl := (rfl)
@[simp] theorem incF_balls (f : FRef) (v : Nat) (s : State) : (incF f v s).balls = s.balls := (rfl)
@[simp] theorem incF_wfb (f : FRef) (v : Nat) (s : State) : (incF f v s).wfb = s.wfb := (rfl)
@[simp] theorem incF_brg (f : FRef) (v : Nat) (s : State) : (incF f v s).brg = s.brg := (rfl)
@[simp] theorem incF_cfg (f : FRef) (v : Nat) (s : State) : (incF f v s).cfg = s.cfg := (rfl)
@[simp] theorem incF_dma (f : FRef) (v : Nat) (s : State) : (incF f v s).dma = s.dma := (rfl)
@[simp] theorem incF_pair (f : FRef) (v : Nat) (s : State) : (incF f v s).pair = s.pair := (rfl)
@[simp] theorem incF_boot (f : FRef) (v : Nat) (s : State) : (incF f v s).boot = s.boot := (rfl)
@[simp] theorem incF_sent (f : FRef) (v : Nat) (s : State) : (incF f v s).sent = s.sent := (rfl)

@[simp] theorem wr64_pending (a v : Nat) (s : State) : (wr64 a v s).pending = s.pending := (rfl)
@[simp] theorem wr64_now (a v : Nat) (s : State) : (wr64 a v s).now = s.now := (rfl)
@[simp] theorem wr64_sn (a v : Nat) (s : State) : (wr64 a v s).sn = s.sn := (rfl)
@[simp] theorem wr64_free (a v : Nat) (s : State) : (wr64 a v s).free = s.free := (rfl)
@[simp] theorem wr64_mem (a v : Nat) (s : State) : (wr64 a v s).mem = s.mem := (rfl)
@[simp] theorem wr64_ecc (a v : Nat) (s : State) : (wr64 a v s).ecc = s.ecc := (rfl)
@[simp] theorem wr64_evtLast (a v : Nat) (s : State) : (wr64 a v s).evtLast = s.evtLast := (rfl)
@[simp] theorem wr64_rshadow (a v : Nat) (s : State) : (wr64 a v s).rshadow = s.rshadow := (rfl)
@[simp] theorem wr64_wshadow (a v : Nat) (s : State) : (wr64 a v s).wshadow = s.wshadow := (rfl)
@[simp] theorem wr64_cores (a v : Nat) (s : State) : (wr64 a v s).cores = s.cores := (rfl)
@[simp] theorem wr64_mbox (a v : Nat) (s : State) : (wr64 a v s).mbox = s.mbox := (rfl)
@[simp] theorem wr64_lkp (a v : Nat) (s : State) : (wr64 a v s).lkp = s.lkp := (rfl)
@[simp] theorem wr64_scan (a v : Nat) (s : State) : (wr64 a v s).scan = s.scan := (rfl)
@[simp] theorem wr64_rot (a v : Nat) (s : State) : (wr64 a v s).rot = s.rot := (rfl)
@[simp] theorem wr64_faults (a v : Nat) (s : State) : (wr64 a v s).faults = s.faults := (rfl)
@[simp] theorem wr64_tmb (a v : Nat) (s : State) : (wr64 a v s).tmb = s.tmb := (rfl)
@[simp] theorem wr64_fio (a v : Nat) (s : State) : (wr64 a v s).fio = s.fio := (rfl)
@[simp] theorem wr64_basin (a v : Nat) (s : State) : (wr64 a v s).basin = s.basin := (rfl)
@[simp] theorem wr64_eth (a v : Nat) (s : State) : (wr64 a v s).eth = s.eth := (rfl)
@[simp] theorem wr64_tow (a v : Nat) (s : State) : (wr64 a v s).tow = s.tow := (rfl)
@[simp] theorem wr64_can (a v : Nat) (s : State) : (wr64 a v s).can = s.can := (rfl)
@[simp] theorem wr64_canClk (a v : Nat) (s : State) : (wr64 a v s).canClk = s.canClk := (rfl)
@[simp] theorem wr64_btl (a v : Nat) (s : State) : (wr64 a v s).btl = s.btl := (rfl)
@[simp] theorem wr64_balls (a v : Nat) (s : State) : (wr64 a v s).balls = s.balls := (rfl)
@[simp] theorem wr64_wfb (a v : Nat) (s : State) : (wr64 a v s).wfb = s.wfb := (rfl)
@[simp] theorem wr64_brg (a v : Nat) (s : State) : (wr64 a v s).brg = s.brg := (rfl)
@[simp] theorem wr64_cfg (a v : Nat) (s : State) : (wr64 a v s).cfg = s.cfg := (rfl)
@[simp] theorem wr64_dma (a v : Nat) (s : State) : (wr64 a v s).dma = s.dma := (rfl)
@[simp] theorem wr64_pair (a v : Nat) (s : State) : (wr64 a v s).pair = s.pair := (rfl)
@[simp] theorem wr64_boot (a v : Nat) (s : State) : (wr64 a v s).boot = s.boot := (rfl)
@[simp] theorem wr64_sent (a v : Nat) (s : State) : (wr64 a v s).sent = s.sent := (rfl)

@[simp] theorem emit_pending (c : Chan) (bs : List Byte) (s : State) : (emit c bs s).pending = s.pending := (rfl)
@[simp] theorem emit_now (c : Chan) (bs : List Byte) (s : State) : (emit c bs s).now = s.now := (rfl)
@[simp] theorem emit_sn (c : Chan) (bs : List Byte) (s : State) : (emit c bs s).sn = s.sn := (rfl)
@[simp] theorem emit_free (c : Chan) (bs : List Byte) (s : State) : (emit c bs s).free = s.free := (rfl)
@[simp] theorem emit_regs (c : Chan) (bs : List Byte) (s : State) : (emit c bs s).regs = s.regs := (rfl)
@[simp] theorem emit_mem (c : Chan) (bs : List Byte) (s : State) : (emit c bs s).mem = s.mem := (rfl)
@[simp] theorem emit_ecc (c : Chan) (bs : List Byte) (s : State) : (emit c bs s).ecc = s.ecc := (rfl)
@[simp] theorem emit_evtLast (c : Chan) (bs : List Byte) (s : State) : (emit c bs s).evtLast = s.evtLast := (rfl)
@[simp] theorem emit_rshadow (c : Chan) (bs : List Byte) (s : State) : (emit c bs s).rshadow = s.rshadow := (rfl)
@[simp] theorem emit_wshadow (c : Chan) (bs : List Byte) (s : State) : (emit c bs s).wshadow = s.wshadow := (rfl)
@[simp] theorem emit_cores (c : Chan) (bs : List Byte) (s : State) : (emit c bs s).cores = s.cores := (rfl)
@[simp] theorem emit_mbox (c : Chan) (bs : List Byte) (s : State) : (emit c bs s).mbox = s.mbox := (rfl)
@[simp] theorem emit_lkp (c : Chan) (bs : List Byte) (s : State) : (emit c bs s).lkp = s.lkp := (rfl)
@[simp] theorem emit_scan (c : Chan) (bs : List Byte) (s : State) : (emit c bs s).scan = s.scan := (rfl)
@[simp] theorem emit_rot (c : Chan) (bs : List Byte) (s : State) : (emit c bs s).rot = s.rot := (rfl)
@[simp] theorem emit_faults (c : Chan) (bs : List Byte) (s : State) : (emit c bs s).faults = s.faults := (rfl)
@[simp] theorem emit_tmb (c : Chan) (bs : List Byte) (s : State) : (emit c bs s).tmb = s.tmb := (rfl)
@[simp] theorem emit_fio (c : Chan) (bs : List Byte) (s : State) : (emit c bs s).fio = s.fio := (rfl)
@[simp] theorem emit_basin (c : Chan) (bs : List Byte) (s : State) : (emit c bs s).basin = s.basin := (rfl)
@[simp] theorem emit_eth (c : Chan) (bs : List Byte) (s : State) : (emit c bs s).eth = s.eth := (rfl)
@[simp] theorem emit_tow (c : Chan) (bs : List Byte) (s : State) : (emit c bs s).tow = s.tow := (rfl)
@[simp] theorem emit_can (c : Chan) (bs : List Byte) (s : State) : (emit c bs s).can = s.can := (rfl)
@[simp] theorem emit_canClk (c : Chan) (bs : List Byte) (s : State) : (emit c bs s).canClk = s.canClk := (rfl)
@[simp] theorem emit_btl (c : Chan) (bs : List Byte) (s : State) : (emit c bs s).btl = s.btl := (rfl)
@[simp] theorem emit_balls (c : Chan) (bs : List Byte) (s : State) : (emit c bs s).balls = s.balls := (rfl)
@[simp] theorem emit_wfb (c : Chan) (bs : List Byte) (s : State) : (emit c bs s).wfb = s.wfb := (rfl)
@[simp] theorem emit_brg (c : Chan) (bs : List Byte) (s : State) : (emit c bs s).brg = s.brg := (rfl)
@[simp] theorem emit_cfg (c : Chan) (bs : List Byte) (s : State) : (emit c bs s).cfg = s.cfg := (rfl)
@[simp] theorem emit_dma (c : Chan) (bs : List Byte) (s : State) : (emit c bs s).dma = s.dma := (rfl)
@[simp] theorem emit_pair (c : Chan) (bs : List Byte) (s : State) : (emit c bs s).pair = s.pair := (rfl)
@[simp] theorem emit_boot (c : Chan) (bs : List Byte) (s : State) : (emit c bs s).boot = s.boot := (rfl)

@[simp] theorem quiet_pending (s : State) : (quiet s).pending = s.pending := (rfl)
@[simp] theorem quiet_now (s : State) : (quiet s).now = s.now := (rfl)
@[simp] theorem quiet_sn (s : State) : (quiet s).sn = s.sn := (rfl)
@[simp] theorem quiet_free (s : State) : (quiet s).free = s.free := (rfl)
@[simp] theorem quiet_regs (s : State) : (quiet s).regs = s.regs := (rfl)
@[simp] theorem quiet_mem (s : State) : (quiet s).mem = s.mem := (rfl)
@[simp] theorem quiet_ecc (s : State) : (quiet s).ecc = s.ecc := (rfl)
@[simp] theorem quiet_evtLast (s : State) : (quiet s).evtLast = s.evtLast := (rfl)
@[simp] theorem quiet_rshadow (s : State) : (quiet s).rshadow = s.rshadow := (rfl)
@[simp] theorem quiet_wshadow (s : State) : (quiet s).wshadow = s.wshadow := (rfl)
@[simp] theorem quiet_cores (s : State) : (quiet s).cores = s.cores := (rfl)
@[simp] theorem quiet_mbox (s : State) : (quiet s).mbox = s.mbox := (rfl)
@[simp] theorem quiet_lkp (s : State) : (quiet s).lkp = s.lkp := (rfl)
@[simp] theorem quiet_scan (s : State) : (quiet s).scan = s.scan := (rfl)
@[simp] theorem quiet_rot (s : State) : (quiet s).rot = s.rot := (rfl)
@[simp] theorem quiet_faults (s : State) : (quiet s).faults = s.faults := (rfl)
@[simp] theorem quiet_tmb (s : State) : (quiet s).tmb = s.tmb := (rfl)
@[simp] theorem quiet_fio (s : State) : (quiet s).fio = s.fio := (rfl)
@[simp] theorem quiet_basin (s : State) : (quiet s).basin = s.basin := (rfl)
@[simp] theorem quiet_eth (s : State) : (quiet s).eth = s.eth := (rfl)
@[simp] theorem quiet_tow (s : State) : (quiet s).tow = s.tow := (rfl)
@[simp] theorem quiet_can (s : State) : (quiet s).can = s.can := (rfl)
@[simp] theorem quiet_canClk (s : State) : (quiet s).canClk = s.canClk := (rfl)
@[simp] theorem quiet_btl (s : State) : (quiet s).btl = s.btl := (rfl)
@[simp] theorem quiet_balls (s : State) : (quiet s).balls = s.balls := (rfl)
@[simp] theorem quiet_wfb (s : State) : (quiet s).wfb = s.wfb := (rfl)
@[simp] theorem quiet_brg (s : State) : (quiet s).brg = s.brg := (rfl)
@[simp] theorem quiet_cfg (s : State) : (quiet s).cfg = s.cfg := (rfl)
@[simp] theorem quiet_dma (s : State) : (quiet s).dma = s.dma := (rfl)
@[simp] theorem quiet_pair (s : State) : (quiet s).pair = s.pair := (rfl)
@[simp] theorem quiet_boot (s : State) : (quiet s).boot = s.boot := (rfl)

@[simp] theorem usedFree_pending (s : State) : (usedFree s).pending = s.pending := (rfl)
@[simp] theorem usedFree_now (s : State) : (usedFree s).now = s.now := (rfl)
@[simp] theorem usedFree_sn (s : State) : (usedFree s).sn = s.sn := (rfl)
@[simp] theorem usedFree_regs (s : State) : (usedFree s).regs = s.regs := (rfl)
@[simp] theorem usedFree_mem (s : State) : (usedFree s).mem = s.mem := (rfl)
@[simp] theorem usedFree_ecc (s : State) : (usedFree s).ecc = s.ecc := (rfl)
@[simp] theorem usedFree_evtLast (s : State) : (usedFree s).evtLast = s.evtLast := (rfl)
@[simp] theorem usedFree_rshadow (s : State) : (usedFree s).rshadow = s.rshadow := (rfl)
@[simp] theorem usedFree_wshadow (s : State) : (usedFree s).wshadow = s.wshadow := (rfl)
@[simp] theorem usedFree_cores (s : State) : (usedFree s).cores = s.cores := (rfl)
@[simp] theorem usedFree_mbox (s : State) : (usedFree s).mbox = s.mbox := (rfl)
@[simp] theorem usedFree_lkp (s : State) : (usedFree s).lkp = s.lkp := (rfl)
@[simp] theorem usedFree_scan (s : State) : (usedFree s).scan = s.scan := (rfl)
@[simp] theorem usedFree_rot (s : State) : (usedFree s).rot = s.rot := (rfl)
@[simp] theorem usedFree_faults (s : State) : (usedFree s).faults = s.faults := (rfl)
@[simp] theorem usedFree_tmb (s : State) : (usedFree s).tmb = s.tmb := (rfl)
@[simp] theorem usedFree_fio (s : State) : (usedFree s).fio = s.fio := (rfl)
@[simp] theorem usedFree_basin (s : State) : (usedFree s).basin = s.basin := (rfl)
@[simp] theorem usedFree_eth (s : State) : (usedFree s).eth = s.eth := (rfl)
@[simp] theorem usedFree_tow (s : State) : (usedFree s).tow = s.tow := (rfl)
@[simp] theorem usedFree_can (s : State) : (usedFree s).can = s.can := (rfl)
@[simp] theorem usedFree_canClk (s : State) : (usedFree s).canClk = s.canClk := (rfl)
@[simp] theorem usedFree_btl (s : State) : (usedFree s).btl = s.btl := (rfl)
@[simp] theorem usedFree_balls (s : State) : (usedFree s).balls = s.balls := (rfl)
@[simp] theorem usedFree_wfb (s : State) : (usedFree s).wfb = s.wfb := (rfl)
@[simp] theorem usedFree_brg (s : State) : (usedFree s).brg = s.brg := (rfl)
@[simp] theorem usedFree_cfg (s : State) : (usedFree s).cfg = s.cfg := (rfl)
@[simp] theorem usedFree_dma (s : State) : (usedFree s).dma = s.dma := (rfl)
@[simp] theorem usedFree_pair (s : State) : (usedFree s).pair = s.pair := (rfl)
@[simp] theorem usedFree_boot (s : State) : (usedFree s).boot = s.boot := (rfl)
@[simp] theorem usedFree_sent (s : State) : (usedFree s).sent = s.sent := (rfl)

@[simp] theorem State_setCore_pending (i : Nat) (k : Core) (s : State) : (s.setCore i k).pending = s.pending := (rfl)
@[simp] theorem State_setCore_now (i : Nat) (k : Core) (s : State) : (s.setCore i k).now = s.now := (rfl)
@[simp] theorem State_setCore_sn (i : Nat) (k : Core) (s : State) : (s.setCore i k).sn = s.sn := (rfl)
@[simp] theorem State_setCore_free (i : Nat) (k : Core) (s : State) : (s.setCore i k).free = s.free := (rfl)
@[simp] theorem State_setCore_regs (i : Nat) (k : Core) (s : State) : (s.setCore i k).regs = s.regs := (rfl)
@[simp] theorem State_setCore_mem (i : Nat) (k : Core) (s : State) : (s.setCore i k).mem = s.mem := (rfl)
@[simp] theorem State_setCore_ecc (i : Nat) (k : Core) (s : State) : (s.setCore i k).ecc = s.ecc := (rfl)
@[simp] theorem State_setCore_evtLast (i : Nat) (k : Core) (s : State) : (s.setCore i k).evtLast = s.evtLast := (rfl)
@[simp] theorem State_setCore_rshadow (i : Nat) (k : Core) (s : State) : (s.setCore i k).rshadow = s.rshadow := (rfl)
@[simp] theorem State_setCore_wshadow (i : Nat) (k : Core) (s : State) : (s.setCore i k).wshadow = s.wshadow := (rfl)
@[simp] theorem State_setCore_mbox (i : Nat) (k : Core) (s : State) : (s.setCore i k).mbox = s.mbox := (rfl)
@[simp] theorem State_setCore_lkp (i : Nat) (k : Core) (s : State) : (s.setCore i k).lkp = s.lkp := (rfl)
@[simp] theorem State_setCore_scan (i : Nat) (k : Core) (s : State) : (s.setCore i k).scan = s.scan := (rfl)
@[simp] theorem State_setCore_rot (i : Nat) (k : Core) (s : State) : (s.setCore i k).rot = s.rot := (rfl)
@[simp] theorem State_setCore_faults (i : Nat) (k : Core) (s : State) : (s.setCore i k).faults = s.faults := (rfl)
@[simp] theorem State_setCore_tmb (i : Nat) (k : Core) (s : State) : (s.setCore i k).tmb = s.tmb := (rfl)
@[simp] theorem State_setCore_fio (i : Nat) (k : Core) (s : State) : (s.setCore i k).fio = s.fio := (rfl)
@[simp] theorem State_setCore_basin (i : Nat) (k : Core) (s : State) : (s.setCore i k).basin = s.basin := (rfl)
@[simp] theorem State_setCore_eth (i : Nat) (k : Core) (s : State) : (s.setCore i k).eth = s.eth := (rfl)
@[simp] theorem State_setCore_tow (i : Nat) (k : Core) (s : State) : (s.setCore i k).tow = s.tow := (rfl)
@[simp] theorem State_setCore_can (i : Nat) (k : Core) (s : State) : (s.setCore i k).can = s.can := (rfl)
@[simp] theorem State_setCore_canClk (i : Nat) (k : Core) (s : State) : (s.setCore i k).canClk = s.canClk := (rfl)
@[simp] theorem State_setCore_btl (i : Nat) (k : Core) (s : State) : (s.setCore i k).btl = s.btl := (rfl)
@[simp] theorem State_setCore_balls (i : Nat) (k : Core) (s : State) : (s.setCore i k).balls = s.balls := (rfl)
@[simp] theorem State_setCore_wfb (i : Nat) (k : Core) (s : State) : (s.setCore i k).wfb = s.wfb := (rfl)
@[simp] theorem State_setCore_brg (i : Nat) (k : Core) (s : State) : (s.setCore i k).brg = s.brg := (rfl)
@[simp] theorem State_setCore_cfg (i : Nat) (k : Core) (s : State) : (s.setCore i k).cfg = s.cfg := (rfl)
@[simp] theorem State_setCore_dma (i : Nat) (k : Core) (s : State) : (s.setCore i k).dma = s.dma := (rfl)
@[simp] theorem State_setCore_pair (i : Nat) (k : Core) (s : State) : (s.setCore i k).pair = s.pair := (rfl)
@[simp] theorem State_setCore_boot (i : Nat) (k : Core) (s : State) : (s.setCore i k).boot = s.boot := (rfl)
@[simp] theorem State_setCore_sent (i : Nat) (k : Core) (s : State) : (s.setCore i k).sent = s.sent := (rfl)

@[simp] theorem modCore_pending (i : Nat) (g : Core → Core) (s : State) : (modCore i g s).pending = s.pending := (rfl)
@[simp] theorem modCore_now (i : Nat) (g : Core → Core) (s : State) : (modCore i g s).now = s.now := (rfl)
@[simp] theorem modCore_sn (i : Nat) (g : Core → Core) (s : State) : (modCore i g s).sn = s.sn := (rfl)
@[simp] theorem modCore_free (i : Nat) (g : Core → Core) (s : State) : (modCore i g s).free = s.free := (rfl)
@[simp] theorem modCore_regs (i : Nat) (g : Core → Core) (s : State) : (modCore i g s).regs = s.regs := (rfl)
@[simp] theorem modCore_mem (i : Nat) (g : Core → Core) (s : State) : (modCore i g s).mem = s.mem := (rfl)
@[simp] theorem modCore_ecc (i : Nat) (g : Core → Core) (s : State) : (modCore i g s).ecc = s.ecc := (rfl)
@[simp] theorem modCore_evtLast (i : Nat) (g : Core → Core) (s : State) : (modCore i g s).evtLast = s.evtLast := (rfl)
@[simp] theorem modCore_rshadow (i : Nat) (g : Core → Core) (s : State) : (modCore i g s).rshadow = s.rshadow := (rfl)
@[simp] theorem modCore_wshadow (i : Nat) (g : Core → Core) (s : State) : (modCore i g s).wshadow = s.wshadow := (rfl)
@[simp] theorem modCore_mbox (i : Nat) (g : Core → Core) (s : State) : (modCore i g s).mbox = s.mbox := (rfl)
@[simp] theorem modCore_lkp (i : Nat) (g : Core → Core) (s : State) : (modCore i g s).lkp = s.lkp := (rfl)
@[simp] theorem modCore_scan (i : Nat) (g : Core → Core) (s : State) : (modCore i g s).scan = s.scan := (rfl)
@[simp] theorem modCore_rot (i : Nat) (g : Core → Core) (s : State) : (modCore i g s).rot = s.rot := (rfl)
@[simp] theorem modCore_faults (i : Nat) (g : Core → Core) (s : State) : (modCore i g s).faults = s.faults := (rfl)
@[simp] theorem modCore_tmb (i : Nat) (g : Core → Core) (s : State) : (modCore i g s).tmb = s.tmb := (rfl)
@[simp] theorem modCore_fio (i : Nat) (g : Core → Core) (s : State) : (modCore i g s).fio = s.fio := (rfl)
@[simp] theorem modCore_basin (i : Nat) (g : Core → Core) (s : State) : (modCore i g s).basin = s.basin := (rfl)
@[simp] theorem modCore_eth (i : Nat) (g : Core → Core) (s : State) : (modCore i g s).eth = s.eth := (rfl)
@[simp] theorem modCore_tow (i : Nat) (g : Core → Core) (s : State) : (modCore i g s).tow = s.tow := (rfl)
@[simp] theorem modCore_can (i : Nat) (g : Core → Core) (s : State) : (modCore i g s).can = s.can := (rfl)
@[simp] theorem modCore_canClk (i : Nat) (g : Core → Core) (s : State) : (modCore i g s).canClk = s.canClk := (rfl)
@[simp] theorem modCore_btl (i : Nat) (g : Core → Core) (s : State) : (modCore i g s).btl = s.btl := (rfl)
@[simp] theorem modCore_balls (i : Nat) (g : Core → Core) (s : State) : (modCore i g s).balls = s.balls := (rfl)
@[simp] theorem modCore_wfb (i : Nat) (g : Core → Core) (s : State) : (modCore i g s).wfb = s.wfb := (rfl)
@[simp] theorem modCore_brg (i : Nat) (g : Core → Core) (s : State) : (modCore i g s).brg = s.brg := (rfl)
@[simp] theorem modCore_cfg (i : Nat) (g : Core → Core) (s : State) : (modCore i g s).cfg = s.cfg := (rfl)
@[simp] theorem modCore_dma (i : Nat) (g : Core → Core) (s : State) : (modCore i g s).dma = s.dma := (rfl)
@[simp] theorem modCore_pair (i : Nat) (g : Core → Core) (s : State) : (modCore i g s).pair = s.pair := (rfl)
@[simp] theorem modCore_boot (i : Nat) (g : Core → Core) (s : State) : (modCore i g s).boot = s.boot := (rfl)
@[simp] theorem modCore_sent (i : Nat) (g : Core → Core) (s : State) : (modCore i g s).sent = s.sent := (rfl)

@[simp] theorem keepValue_pending (n v : Nat) (s : State) : (keepValue n v s).pending = s.pending := (rfl)
@[simp] theorem keepValue_now (n v : Nat) (s : State) : (keepValue n v s).now = s.now := (rfl)
@[simp] theorem keepValue_sn (n v : Nat) (s : State) : (keepValue n v s).sn = s.sn := (rfl)
@[simp] theorem keepValue_free (n v : Nat) (s : State) : (keepValue n v s).free = s.free := (rfl)
@[simp] theorem keepValue_mem (n v : Nat) (s : State) : (keepValue n v s).mem = s.mem := (rfl)
@[simp] theorem keepValue_ecc (n v : Nat) (s : State) : (keepValue n v s).ecc = s.ecc := (rfl)
@[simp] theorem keepValue_evtLast (n v : Nat) (s : State) : (keepValue n v s).evtLast = s.evtLast := (rfl)
@[simp] theorem keepValue_rshadow (n v : Nat) (s : State) : (keepValue n v s).rshadow = s.rshadow := (rfl)
@[simp] theorem keepValue_wshadow (n v : Nat) (s : State) : (keepValue n v s).wshadow = s.wshadow := (rfl)
@[simp] theorem keepValue_cores (n v : Nat) (s : State) : (keepValue n v s).cores = s.cores := (rfl)
@[simp] theorem keepValue_mbox (n v : Nat) (s : State) : (keepValue n v s).mbox = s.mbox := (rfl)
@[simp] theorem keepValue_scan (n v : Nat) (s : State) : (keepValue n v s).scan = s.scan := (rfl)
@[simp] theorem keepValue_rot (n v : Nat) (s : State) : (keepValue n v s).rot = s.rot := (rfl)
@[simp] theorem keepValue_faults (n v : Nat) (s : State) : (keepValue n v s).faults = s.faults := (rfl)
@[simp] theorem keepValue_tmb (n v : Nat) (s : State) : (keepValue n v s).tmb = s.tmb := (rfl)
@[simp] theorem keepValue_fio (n v : Nat) (s : State) : (keepValue n v s).fio = s.fio := (rfl)
@[simp] theorem keepValue_basin (n v : Nat) (s : State) : (keepValue n v s).basin = s.basin := (rfl)
@[simp] theorem keepValue_eth (n v : Nat) (s : State) : (keepValue n v s).eth = s.eth := (rfl)
@[simp] theorem keepValue_tow (n v : Nat) (s : State) : (keepValue n v s).tow = s.tow := (rfl)
@[simp] theorem keepValue_can (n v : Nat) (s : State) : (keepValue n v s).can = s.can := (rfl)
@[simp] theorem keepValue_canClk (n v : Nat) (s : State) : (keepValue n v s).canClk = s.canClk := (rfl)
@[simp] theorem keepValue_btl (n v : Nat) (s : State) : (keepValue n v s).btl = s.btl := (rfl)
@[simp] theorem keepValue_balls (n v : Nat) (s : State) : (keepValue n v s).balls = s.balls := (rfl)
@[simp] theorem keepValue_wfb (n v : Nat) (s : State) : (keepValue n v s).wfb = s.wfb := (rfl)
@[simp] theorem keepValue_brg (n v : Nat) (s : State) : (keepValue n v s).brg = s.brg := (rfl)
@[simp] theorem keepValue_cfg (n v : Nat) (s : State) : (keepValue n v s).cfg = s.cfg := (rfl)
@[simp] theorem keepValue_dma (n v : Nat) (s : State) : (keepValue n v s).dma = s.dma := (rfl)
@[simp] theorem keepValue_pair (n v : Nat) (s : State) : (keepValue n v s).pair = s.pair := (rfl)
@[simp] theorem keepValue_boot (n v : Nat) (s : State) : (keepValue n v s).boot = s.boot := (rfl)
@[simp] theorem keepValue_sent (n v : Nat) (s : State) : (keepValue n v s).sent = s.sent := (rfl)
@[simp] theorem keepValue_regs (n v : Nat) (s : State) : (keepValue n v s).regs = s.regs := (rfl)

@[simp] theorem pend_pending (n v : Nat) (s : State) : (pend n v s).pending = s.pending := by simp only [pend, keepValue_pending, setF_pending]
@[simp] theorem pend_now (n v : Nat) (s : State) : (pend n v s).now = s.now := by simp only [pend, keepValue_now, setF_now]
@[simp] theorem pend_sn (n v : Nat) (s : State) : (pend n v s).sn = s.sn := by simp only [pend, keepValue_sn, setF_sn]
@[simp] theorem pend_free (n v : Nat) (s : State) : (pend n v s).free = s.free := by simp only [pend, keepValue_free, setF_free]
@[simp] theorem pend_mem (n v : Nat) (s : State) : (pend n v s).mem = s.mem := by simp only [pend, keepValue_mem, setF_mem]
@[simp] theorem pend_ecc (n v : Nat) (s : State) : (pend n v s).ecc = s.ecc := by simp only [pend, keepValue_ecc, setF_ecc]
@[simp] theorem pend_evtLast (n v : Nat) (s : State) : (pend n v s).evtLast = s.evtLast := by simp only [pend, keepValue_evtLast, setF_evtLast]
@[simp] theorem pend_rshadow (n v : Nat) (s : State) : (pend n v s).rshadow = s.rshadow := by simp only [pend, keepValue_rshadow, setF_rshadow]
@[simp] theorem pend_wshadow (n v : Nat) (s : State) : (pend n v s).wshadow = s.wshadow := by simp only [pend, keepValue_wshadow, setF_wshadow]
@[simp] theorem pend_cores (n v : Nat) (s : State) : (pend n v s).cores = s.cores := by simp only [pend, keepValue_cores, setF_cores]
@[simp] theorem pend_mbox (n v : Nat) (s : State) : (pend n v s).mbox = s.mbox := by simp only [pend, keepValue_mbox, setF_mbox]
@[simp] theorem pend_scan (n v : Nat) (s : State) : (pend n v s).scan = s.scan := by simp only [pend, keepValue_scan, setF_scan]
@[simp] theorem pend_rot (n v : Nat) (s : State) : (pend n v s).rot = s.rot := by simp only [pend, keepValue_rot, setF_rot]
@[simp] theorem pend_faults (n v : Nat) (s : State) : (pend n v s).faults = s.faults := by simp only [pend, keepValue_faults, setF_faults]
@[simp] theorem pend_tmb (n v : Nat) (s : State) : (pend n v s).tmb = s.tmb := by simp only [pend, keepValue_tmb, setF_tmb]
@[simp] theorem pend_fio (n v : Nat) (s : State) : (pend n v s).fio = s.fio := by simp only [pend, keepValue_fio, setF_fio]
@[simp] theorem pend_basin (n v : Nat) (s : State) : (pend n v s).basin = s.basin := by simp only [pend, keepValue_basin, setF_basin]
@[simp] theorem pend_eth (n v : Nat) (s : State) : (pend n v s).eth = s.eth := by simp only [pend, keepValue_eth, setF_eth]
@[simp] theorem pend_tow (n v : Nat) (s : State) : (pend n v s).tow = s.tow := by simp only [pend, keepValue_tow, setF_tow]
@[simp] theorem pend_can (n v : Nat) (s : State) : (pend n v s).can = s.can := by simp only [pend, keepValue_can, setF_can]
@[simp] theorem pend_canClk (n v : Nat) (s : State) : (pend n v s).canClk = s.canClk := by simp only [pend, keepValue_canClk, setF_canClk]
@[simp] theorem pend_btl (n v : Nat) (s : State) : (pend n v s).btl = s.btl := by simp only [pend, keepValue_btl, setF_btl]
@[simp] theorem pend_balls (n v : Nat) (s : State) : (pend n v s).balls = s.balls := by simp only [pend, keepValue_balls, setF_balls]
@[simp] theorem pend_wfb (n v : Nat) (s : State) : (pend n v s).wfb = s.wfb := by simp only [pend, keepValue_wfb, setF_wfb]
@[simp] theorem pend_brg (n v : Nat) (s : State) : (pend n v s).brg = s.brg := by simp only [pend, keepValue_brg, setF_brg]
@[simp] theorem pend_cfg (n v : Nat) (s : State) : (pend n v s).cfg = s.cfg := by simp only [pend, keepValue_cfg, setF_cfg]
@[simp] theorem pend_dma (n v : Nat) (s : State) : (pend n v s).dma = s.dma := by simp only [pend, keepValue_dma, setF_dma]
@[simp] theorem pend_pair (n v : Nat) (s : State) : (pend n v s).pair = s.pair := by simp only [pend, keepValue_pair, setF_pair]
@[simp] theorem pend_boot (n v : Nat) (s : State) : (pend n v s).boot = s.boot := by simp only [pend, keepValue_boot, setF_boot]
@[simp] theorem pend_sent (n v : Nat) (s : State) : (pend n v s).sent = s.sent := by simp only [pend, keepValue_sent, setF_sent]

end Sys2Proof.Machine
end

