-- ==== Sys2Proof/Laws/Access.lean ====
section
/-! SUPPORT. What a write of an initiator to a register does, once and for all registers that are one plain word
(02_registers R56 to R73). -/

namespace Sys2Proof.Machine

/-- The word a write of 4 bytes carries. -/
theorem leNat_leBytes4 (v : Nat) (h : v < 2 ^ 32) : leNat (leBytes 4 v) = v := by
  simp [leNat, leBytes, List.range, List.range.loop, b8]
  omega

/-- Whether a plain address is that of a register of one word with description `d` that no block treats apart: no event status
register, no half of a 64-bit value, no mailbox port, no semaphore, no register of a reach. -/
def plainWord (a : Nat) (d : RegDesc) : Bool :=
  decide (0x60000000 ≤ a ∧ a < 0x70000000 ∧ a % 4 = 0 ∧ a % 0x10000 < 0x4000) && descAt a == some d && d.wide == .one
    && !(d.fields.any fun f => decide (f.acc = .sq)) && (copyAt (A.MBX_TX 0) 0x10 64 a).isNone && (copyAt (A.BRG_SEM 0) 0x10 32 a).isNone
    && pinAlias a == a && !(decide (0x60100000 ≤ a ∧ a < 0x60150000)) && (blockAt a).isSome

/-- The assertion of an event output depends on the event registers alone. -/
theorem asserted_congr (s t : State) (hi : Nat)
    (h : ∀ o ∈ evtOffsets hi, rd t (hi * 0x10000 + o) = rd s (hi * 0x10000 + o) ∧ rd t (hi * 0x10000 + o + 4) = rd s (hi * 0x10000 + o + 4)) :
    asserted t hi = asserted s hi := by
  have e : ∀ o ∈ evtOffsets hi, evtActive t (hi * 0x10000 + o) = evtActive s (hi * 0x10000 + o) := by
    intro o ho; simp [evtActive, (h o ho).1, (h o ho).2]
  unfold asserted
  generalize evtOffsets hi = l at e
  induction l with
  | nil => rfl
  | cons x t ih => simp only [List.any_cons, e x (by simp), ih (fun o ho => e o (by simp [ho]))]

/-- A write to a plain word, by an initiator that may write it and that no semaphore keeps from it, sets the word and starts what its block starts. -/
theorem busWrite_plain (who : Who) (a v : Nat) (s : State) (d : RegDesc) (hd : plainWord a d = true) (hv : v < 2 ^ 32)
    (hh : s.cfg.halted = false) (dead : deadReg s a = false) (free : lockedReg s a 0 v = false)
    (open' : semGuards s a 4 who = false) :
    busWrite who a v s =
      startBlock (applyWord who 0 a d v s).2
        (if asserted (applyWord who 0 a d v s).1 (a / 0x10000) && !asserted s (a / 0x10000)
          then pend (outSource (a / 0x10000)) 0 (applyWord who 0 a d v s).1 else (applyWord who 0 a d v s).1) := by
  simp only [plainWord, Bool.and_eq_true, decide_eq_true_eq, beq_iff_eq, Bool.not_eq_true', decide_eq_false_iff_not,
    Option.isNone_iff_eq_none] at hd
  obtain ⟨⟨⟨⟨⟨⟨⟨⟨⟨h1, h2, h3, h4⟩, hdesc⟩, hone⟩, hsq⟩, hmb⟩, hsem⟩, hpin⟩, hrch⟩, hblk⟩ := hd
  have hal : a % 0x10000 / 0x4000 = 0 := by omega
  have hold : holdAccess who a true s = (s, false) := by
    unfold holdAccess
    rw [if_neg (by omega), if_neg hrch]
  have htgt : target s who.id a = .reg a := by
    unfold target
    rw [if_neg (by omega), if_neg (by omega), if_neg (by omega), if_neg (by omega), if_neg (by omega), if_pos (by omega), if_pos hblk]
  have hans : answers s a = true := by simp [answers, hh]
  have hstore : regStore who a v s = (if asserted (applyWord who 0 a d v s).1 (a / 0x10000) && !asserted s (a / 0x10000)
          then pend (outSource (a / 0x10000)) 0 (applyWord who 0 a d v s).1 else (applyWord who 0 a d v s).1,
        .ok (some (applyWord who 0 a d v s).2)) := by
    unfold regStore
    simp only [hal, Nat.zero_mul, Nat.sub_zero, hdesc, free, hsq, hone, Bool.false_eq_true, false_and, if_false]
  unfold busWrite store
  simp only [htgt]
  unfold localStore
  simp only [hold, htgt, hal, Nat.zero_mul, Nat.sub_zero, hans]
  rw [if_neg (by simp [leBytes, h3]), leNat_leBytes4 v hv]
  unfold regWrite
  simp only [hal, Nat.zero_mul, Nat.sub_zero, hpin, dead, hmb, hsem, Nat.add_zero, hstore, open', or_self, Bool.false_eq_true, if_false]
  simp

end Sys2Proof.Machine
end

