-- ==== Sys2Proof/Laws/Events.lean ====
section
/-! SUPPORT. What recording an event, firing a source and logging change, and what they leave (02_registers R64 to R75, R529). -/

namespace Sys2Proof.Machine

/-- Firing a source writes its pending word alone. -/
theorem rd_pend (src val : Nat) (s : State) (a : Nat) (h : a ≠ A.LKP_PEND (src / 32)) : rd (pend src val s) a = rd s a := by
  unfold pend; exact rd_setF_other _ _ s a h

/-- The pending bit of a source that fires is 1. -/
theorem isSet_pend (src val : Nat) (s : State) : isSet (pend src val s) ⟨A.LKP_PEND (src / 32), src % 32, 1⟩ = true := by
  have h := isSet_setF_same ⟨A.LKP_PEND (src / 32), src % 32, 1⟩ 1 s (by show src % 32 + 1 ≤ 32; omega)
  simpa [pend, isSet, getF, rd] using h

/-- An event that merges changes nothing. -/
theorem raise_merged (evt k : Nat) (s : State) (h : merges s evt k = true) : raise evt k s = s := by
  unfold raise; rw [if_pos h]

/-- An event that does not merge is recorded; the block's source fires where its output becomes asserted. -/
theorem raise_fresh (evt k : Nat) (s : State) (h : merges s evt k = false) :
    raise evt k s = if !asserted s (evt / 0x10000) && asserted (record evt k s) (evt / 0x10000)
      then pend (outSource (evt / 0x10000)) 0 (record evt k s) else record evt k s := by
  unfold raise; rw [if_neg (by simp [h])]; unfold withOutput; rfl

@[simp] theorem evtStamp_pending (k : Nat) (s : State) : (evtStamp k s).pending = s.pending := (rfl)
@[simp] theorem evtStamp_now (k : Nat) (s : State) : (evtStamp k s).now = s.now := (rfl)
@[simp] theorem evtStamp_sn (k : Nat) (s : State) : (evtStamp k s).sn = s.sn := (rfl)
@[simp] theorem evtStamp_free (k : Nat) (s : State) : (evtStamp k s).free = s.free := (rfl)
@[simp] theorem evtStamp_regs (k : Nat) (s : State) : (evtStamp k s).regs = s.regs := (rfl)
@[simp] theorem evtStamp_mem (k : Nat) (s : State) : (evtStamp k s).mem = s.mem := (rfl)
@[simp] theorem evtStamp_ecc (k : Nat) (s : State) : (evtStamp k s).ecc = s.ecc := (rfl)
@[simp] theorem evtStamp_rshadow (k : Nat) (s : State) : (evtStamp k s).rshadow = s.rshadow := (rfl)
@[simp] theorem evtStamp_wshadow (k : Nat) (s : State) : (evtStamp k s).wshadow = s.wshadow := (rfl)
@[simp] theorem evtStamp_cores (k : Nat) (s : State) : (evtStamp k s).cores = s.cores := (rfl)
@[simp] theorem evtStamp_mbox (k : Nat) (s : State) : (evtStamp k s).mbox = s.mbox := (rfl)
@[simp] theorem evtStamp_lkp (k : Nat) (s : State) : (evtStamp k s).lkp = s.lkp := (rfl)
@[simp] theorem evtStamp_scan (k : Nat) (s : State) : (evtStamp k s).scan = s.scan := (rfl)
@[simp] theorem evtStamp_rot (k : Nat) (s : State) : (evtStamp k s).rot = s.rot := (rfl)
@[simp] theorem evtStamp_faults (k : Nat) (s : State) : (evtStamp k s).faults = s.faults := (rfl)
@[simp] theorem evtStamp_tmb (k : Nat) (s : State) : (evtStamp k s).tmb = s.tmb := (rfl)
@[simp] theorem evtStamp_fio (k : Nat) (s : State) : (evtStamp k s).fio = s.fio := (rfl)
@[simp] theorem evtStamp_basin (k : Nat) (s : State) : (evtStamp k s).basin = s.basin := (rfl)
@[simp] theorem evtStamp_eth (k : Nat) (s : State) : (evtStamp k s).eth = s.eth := (rfl)
@[simp] theorem evtStamp_tow (k : Nat) (s : State) : (evtStamp k s).tow = s.tow := (rfl)
@[simp] theorem evtStamp_can (k : Nat) (s : State) : (evtStamp k s).can = s.can := (rfl)
@[simp] theorem evtStamp_canClk (k : Nat) (s : State) : (evtStamp k s).canClk = s.canClk := (rfl)
@[simp] theorem evtStamp_btl (k : Nat) (s : State) : (evtStamp k s).btl = s.btl := (rfl)
@[simp] theorem evtStamp_balls (k : Nat) (s : State) : (evtStamp k s).balls = s.balls := (rfl)
@[simp] theorem evtStamp_wfb (k : Nat) (s : State) : (evtStamp k s).wfb = s.wfb := (rfl)
@[simp] theorem evtStamp_brg (k : Nat) (s : State) : (evtStamp k s).brg = s.brg := (rfl)
@[simp] theorem evtStamp_cfg (k : Nat) (s : State) : (evtStamp k s).cfg = s.cfg := (rfl)
@[simp] theorem evtStamp_dma (k : Nat) (s : State) : (evtStamp k s).dma = s.dma := (rfl)
@[simp] theorem evtStamp_pair (k : Nat) (s : State) : (evtStamp k s).pair = s.pair := (rfl)
@[simp] theorem evtStamp_boot (k : Nat) (s : State) : (evtStamp k s).boot = s.boot := (rfl)
@[simp] theorem evtStamp_sent (k : Nat) (s : State) : (evtStamp k s).sent = s.sent := (rfl)
@[simp] theorem keepValue_lkp_store (n v : Nat) (s : State) : (keepValue n v s).lkp.store = s.lkp.store := (rfl)
@[simp] theorem keepValue_lkp_ready (n v : Nat) (s : State) : (keepValue n v s).lkp.ready = s.lkp.ready := (rfl)
@[simp] theorem keepValue_lkp_opened (n v : Nat) (s : State) : (keepValue n v s).lkp.opened = s.lkp.opened := (rfl)
@[simp] theorem keepValue_lkp_ports (n v : Nat) (s : State) : (keepValue n v s).lkp.ports = s.lkp.ports := (rfl)
@[simp] theorem keepValue_lkp_overflow (n v : Nat) (s : State) : (keepValue n v s).lkp.overflow = s.lkp.overflow := (rfl)
@[simp] theorem keepValue_lkp_delay (n v : Nat) (s : State) : (keepValue n v s).lkp.delay = s.lkp.delay := (rfl)
@[simp] theorem keepValue_lkp_offers (n v : Nat) (s : State) : (keepValue n v s).lkp.offers = s.lkp.offers := (rfl)
@[simp] theorem keepValue_lkp_credit (n v : Nat) (s : State) : (keepValue n v s).lkp.credit = s.lkp.credit := (rfl)
@[simp] theorem keepValue_lkp_last (n v : Nat) (s : State) : (keepValue n v s).lkp.last = s.lkp.last := (rfl)
@[simp] theorem keepValue_lkp_idle (n v : Nat) (s : State) : (keepValue n v s).lkp.idle = s.lkp.idle := (rfl)
@[simp] theorem keepValue_lkp_trcSeq (n v : Nat) (s : State) : (keepValue n v s).lkp.trcSeq = s.lkp.trcSeq := (rfl)
@[simp] theorem keepValue_lkp_trcDropped (n v : Nat) (s : State) : (keepValue n v s).lkp.trcDropped = s.lkp.trcDropped := (rfl)

theorem record_regs (evt k : Nat) (s : State) : (record evt k s).regs = (setF ⟨evt, k, 1⟩ 1 (incF ⟨evt, 24, 8⟩ 1 s)).regs := by
  unfold record; exact evtStamp_regs _ _

@[simp] theorem record_pending (e k : Nat) (s : State) : (record e k s).pending = s.pending := by simp only [record, evtStamp_pending, setF_pending, incF_pending]
@[simp] theorem record_now (e k : Nat) (s : State) : (record e k s).now = s.now := by simp only [record, evtStamp_now, setF_now, incF_now]
@[simp] theorem record_sn (e k : Nat) (s : State) : (record e k s).sn = s.sn := by simp only [record, evtStamp_sn, setF_sn, incF_sn]
@[simp] theorem record_free (e k : Nat) (s : State) : (record e k s).free = s.free := by simp only [record, evtStamp_free, setF_free, incF_free]
@[simp] theorem record_mem (e k : Nat) (s : State) : (record e k s).mem = s.mem := by simp only [record, evtStamp_mem, setF_mem, incF_mem]
@[simp] theorem record_ecc (e k : Nat) (s : State) : (record e k s).ecc = s.ecc := by simp only [record, evtStamp_ecc, setF_ecc, incF_ecc]
@[simp] theorem record_rshadow (e k : Nat) (s : State) : (record e k s).rshadow = s.rshadow := by simp only [record, evtStamp_rshadow, setF_rshadow, incF_rshadow]
@[simp] theorem record_wshadow (e k : Nat) (s : State) : (record e k s).wshadow = s.wshadow := by simp only [record, evtStamp_wshadow, setF_wshadow, incF_wshadow]
@[simp] theorem record_cores (e k : Nat) (s : State) : (record e k s).cores = s.cores := by simp only [record, evtStamp_cores, setF_cores, incF_cores]
@[simp] theorem record_mbox (e k : Nat) (s : State) : (record e k s).mbox = s.mbox := by simp only [record, evtStamp_mbox, setF_mbox, incF_mbox]
@[simp] theorem record_lkp (e k : Nat) (s : State) : (record e k s).lkp = s.lkp := by simp only [record, evtStamp_lkp, setF_lkp, incF_lkp]
@[simp] theorem record_scan (e k : Nat) (s : State) : (record e k s).scan = s.scan := by simp only [record, evtStamp_scan, setF_scan, incF_scan]
@[simp] theorem record_rot (e k : Nat) (s : State) : (record e k s).rot = s.rot := by simp only [record, evtStamp_rot, setF_rot, incF_rot]
@[simp] theorem record_faults (e k : Nat) (s : State) : (record e k s).faults = s.faults := by simp only [record, evtStamp_faults, setF_faults, incF_faults]
@[simp] theorem record_tmb (e k : Nat) (s : State) : (record e k s).tmb = s.tmb := by simp only [record, evtStamp_tmb, setF_tmb, incF_tmb]
@[simp] theorem record_fio (e k : Nat) (s : State) : (record e k s).fio = s.fio := by simp only [record, evtStamp_fio, setF_fio, incF_fio]
@[simp] theorem record_basin (e k : Nat) (s : State) : (record e k s).basin = s.basin := by simp only [record, evtStamp_basin, setF_basin, incF_basin]
@[simp] theorem record_eth (e k : Nat) (s : State) : (record e k s).eth = s.eth := by simp only [record, evtStamp_eth, setF_eth, incF_eth]
@[simp] theorem record_tow (e k : Nat) (s : State) : (record e k s).tow = s.tow := by simp only [record, evtStamp_tow, setF_tow, incF_tow]
@[simp] theorem record_can (e k : Nat) (s : State) : (record e k s).can = s.can := by simp only [record, evtStamp_can, setF_can, incF_can]
@[simp] theorem record_canClk (e k : Nat) (s : State) : (record e k s).canClk = s.canClk := by simp only [record, evtStamp_canClk, setF_canClk, incF_canClk]
@[simp] theorem record_btl (e k : Nat) (s : State) : (record e k s).btl = s.btl := by simp only [record, evtStamp_btl, setF_btl, incF_btl]
@[simp] theorem record_balls (e k : Nat) (s : State) : (record e k s).balls = s.balls := by simp only [record, evtStamp_balls, setF_balls, incF_balls]
@[simp] theorem record_wfb (e k : Nat) (s : State) : (record e k s).wfb = s.wfb := by simp only [record, evtStamp_wfb, setF_wfb, incF_wfb]
@[simp] theorem record_brg (e k : Nat) (s : State) : (record e k s).brg = s.brg := by simp only [record, evtStamp_brg, setF_brg, incF_brg]
@[simp] theorem record_cfg (e k : Nat) (s : State) : (record e k s).cfg = s.cfg := by simp only [record, evtStamp_cfg, setF_cfg, incF_cfg]
@[simp] theorem record_dma (e k : Nat) (s : State) : (record e k s).dma = s.dma := by simp only [record, evtStamp_dma, setF_dma, incF_dma]
@[simp] theorem record_pair (e k : Nat) (s : State) : (record e k s).pair = s.pair := by simp only [record, evtStamp_pair, setF_pair, incF_pair]
@[simp] theorem record_boot (e k : Nat) (s : State) : (record e k s).boot = s.boot := by simp only [record, evtStamp_boot, setF_boot, incF_boot]
@[simp] theorem record_sent (e k : Nat) (s : State) : (record e k s).sent = s.sent := by simp only [record, evtStamp_sent, setF_sent, incF_sent]
@[simp] theorem pend_lkp_store (n v : Nat) (s : State) : (pend n v s).lkp.store = s.lkp.store := by simp only [pend, keepValue_lkp_store, setF_lkp]
@[simp] theorem pend_lkp_ready (n v : Nat) (s : State) : (pend n v s).lkp.ready = s.lkp.ready := by simp only [pend, keepValue_lkp_ready, setF_lkp]
@[simp] theorem pend_lkp_opened (n v : Nat) (s : State) : (pend n v s).lkp.opened = s.lkp.opened := by simp only [pend, keepValue_lkp_opened, setF_lkp]
@[simp] theorem pend_lkp_ports (n v : Nat) (s : State) : (pend n v s).lkp.ports = s.lkp.ports := by simp only [pend, keepValue_lkp_ports, setF_lkp]
@[simp] theorem pend_lkp_overflow (n v : Nat) (s : State) : (pend n v s).lkp.overflow = s.lkp.overflow := by simp only [pend, keepValue_lkp_overflow, setF_lkp]
@[simp] theorem pend_lkp_delay (n v : Nat) (s : State) : (pend n v s).lkp.delay = s.lkp.delay := by simp only [pend, keepValue_lkp_delay, setF_lkp]
@[simp] theorem pend_lkp_offers (n v : Nat) (s : State) : (pend n v s).lkp.offers = s.lkp.offers := by simp only [pend, keepValue_lkp_offers, setF_lkp]
@[simp] theorem pend_lkp_credit (n v : Nat) (s : State) : (pend n v s).lkp.credit = s.lkp.credit := by simp only [pend, keepValue_lkp_credit, setF_lkp]
@[simp] theorem pend_lkp_last (n v : Nat) (s : State) : (pend n v s).lkp.last = s.lkp.last := by simp only [pend, keepValue_lkp_last, setF_lkp]
@[simp] theorem pend_lkp_idle (n v : Nat) (s : State) : (pend n v s).lkp.idle = s.lkp.idle := by simp only [pend, keepValue_lkp_idle, setF_lkp]
@[simp] theorem pend_lkp_trcSeq (n v : Nat) (s : State) : (pend n v s).lkp.trcSeq = s.lkp.trcSeq := by simp only [pend, keepValue_lkp_trcSeq, setF_lkp]
@[simp] theorem pend_lkp_trcDropped (n v : Nat) (s : State) : (pend n v s).lkp.trcDropped = s.lkp.trcDropped := by simp only [pend, keepValue_lkp_trcDropped, setF_lkp]
/-- What an event can be: nothing, a recording, or a recording and a source. -/
theorem raise_cases (evt k : Nat) (s : State) :
    raise evt k s = s ∨ raise evt k s = record evt k s ∨ raise evt k s = pend (outSource (evt / 0x10000)) 0 (record evt k s) := by
  cases h : merges s evt k
  · rw [raise_fresh evt k s h]; split
    · exact Or.inr (Or.inr rfl)
    · exact Or.inr (Or.inl rfl)
  · exact Or.inl (raise_merged evt k s h)

theorem rd_record (evt k : Nat) (s : State) (a : Nat) (h : a ≠ evt) : rd (record evt k s) a = rd s a := by
  rw [rd_congr (record_regs evt k s), rd_setF_other _ _ _ _ h]; unfold incF; exact rd_setF_other _ _ _ _ h

/-- The word of a recorded event: the bit is 1 and EVSEQ has advanced. -/
theorem rd_record_same (evt k : Nat) (s : State) (hk : k < 24) :
    rd (record evt k s) evt = w32 (putBits (putBits (rd s evt).toNat 24 8 (getF s ⟨evt, 24, 8⟩ + 1)) k 1 1) := by
  rw [rd_congr (record_regs evt k s), rd_setF, if_pos rfl]
  unfold incF
  rw [rd_setF, if_pos rfl, toNat_w32_putBits _ _ _ _ (by norm_num)]

/-- An event writes its status word and pending words of the Lockkeeper alone. -/
theorem rd_raise (evt k : Nat) (s : State) (a : Nat) (h : a ≠ evt) (hp : a ≠ A.LKP_PEND (outSource (evt / 0x10000) / 32)) :
    rd (raise evt k s) a = rd s a := by
  rcases raise_cases evt k s with e | e | e <;> rw [e]
  · exact rd_record evt k s a h
  · rw [rd_pend _ _ _ _ hp]; exact rd_record evt k s a h

/-- A recorded event sets its bit and advances EVSEQ (R64). -/
theorem raise_sets (evt k : Nat) (s : State) (hk : k < 24) (h : merges s evt k = false)
    (hp : evt ≠ A.LKP_PEND (outSource (evt / 0x10000) / 32)) :
    getF (raise evt k s) ⟨evt, k, 1⟩ = 1 ∧ getF (raise evt k s) ⟨evt, 24, 8⟩ = (getF s ⟨evt, 24, 8⟩ + 1) % 256 := by
  have e : rd (raise evt k s) evt = rd (record evt k s) evt := by
    rw [raise_fresh evt k s h]; split
    · exact rd_pend _ _ _ _ hp
    · rfl
  constructor
  · simp only [getF, e, rd_record_same evt k s hk]
    rw [toNat_w32_lt _ (putBits_lt _ _ _ _ (putBits_lt _ _ _ _ (rd s evt).isLt (by norm_num)) (by omega)), bitsOf_putBits_same]; norm_num
  · simp only [getF, e, rd_record_same evt k s hk]
    rw [toNat_w32_lt _ (putBits_lt _ _ _ _ (putBits_lt _ _ _ _ (rd s evt).isLt (by norm_num)) (by omega)),
      bitsOf_putBits_other _ _ _ _ _ _ (Or.inr (by omega)), bitsOf_putBits_same]
    norm_num [getF]

@[simp] theorem raise_pending (e k : Nat) (s : State) : (raise e k s).pending = s.pending := by rcases raise_cases e k s with h | h | h <;> simp [h]
@[simp] theorem raise_now (e k : Nat) (s : State) : (raise e k s).now = s.now := by rcases raise_cases e k s with h | h | h <;> simp [h]
@[simp] theorem raise_sn (e k : Nat) (s : State) : (raise e k s).sn = s.sn := by rcases raise_cases e k s with h | h | h <;> simp [h]
@[simp] theorem raise_free (e k : Nat) (s : State) : (raise e k s).free = s.free := by rcases raise_cases e k s with h | h | h <;> simp [h]
@[simp] theorem raise_mem (e k : Nat) (s : State) : (raise e k s).mem = s.mem := by rcases raise_cases e k s with h | h | h <;> simp [h]
@[simp] theorem raise_ecc (e k : Nat) (s : State) : (raise e k s).ecc = s.ecc := by rcases raise_cases e k s with h | h | h <;> simp [h]
@[simp] theorem raise_rshadow (e k : Nat) (s : State) : (raise e k s).rshadow = s.rshadow := by rcases raise_cases e k s with h | h | h <;> simp [h]
@[simp] theorem raise_wshadow (e k : Nat) (s : State) : (raise e k s).wshadow = s.wshadow := by rcases raise_cases e k s with h | h | h <;> simp [h]
@[simp] theorem raise_cores (e k : Nat) (s : State) : (raise e k s).cores = s.cores := by rcases raise_cases e k s with h | h | h <;> simp [h]
@[simp] theorem raise_mbox (e k : Nat) (s : State) : (raise e k s).mbox = s.mbox := by rcases raise_cases e k s with h | h | h <;> simp [h]
@[simp] theorem raise_scan (e k : Nat) (s : State) : (raise e k s).scan = s.scan := by rcases raise_cases e k s with h | h | h <;> simp [h]
@[simp] theorem raise_rot (e k : Nat) (s : State) : (raise e k s).rot = s.rot := by rcases raise_cases e k s with h | h | h <;> simp [h]
@[simp] theorem raise_faults (e k : Nat) (s : State) : (raise e k s).faults = s.faults := by rcases raise_cases e k s with h | h | h <;> simp [h]
@[simp] theorem raise_tmb (e k : Nat) (s : State) : (raise e k s).tmb = s.tmb := by rcases raise_cases e k s with h | h | h <;> simp [h]
@[simp] theorem raise_fio (e k : Nat) (s : State) : (raise e k s).fio = s.fio := by rcases raise_cases e k s with h | h | h <;> simp [h]
@[simp] theorem raise_basin (e k : Nat) (s : State) : (raise e k s).basin = s.basin := by rcases raise_cases e k s with h | h | h <;> simp [h]
@[simp] theorem raise_eth (e k : Nat) (s : State) : (raise e k s).eth = s.eth := by rcases raise_cases e k s with h | h | h <;> simp [h]
@[simp] theorem raise_tow (e k : Nat) (s : State) : (raise e k s).tow = s.tow := by rcases raise_cases e k s with h | h | h <;> simp [h]
@[simp] theorem raise_can (e k : Nat) (s : State) : (raise e k s).can = s.can := by rcases raise_cases e k s with h | h | h <;> simp [h]
@[simp] theorem raise_canClk (e k : Nat) (s : State) : (raise e k s).canClk = s.canClk := by rcases raise_cases e k s with h | h | h <;> simp [h]
@[simp] theorem raise_btl (e k : Nat) (s : State) : (raise e k s).btl = s.btl := by rcases raise_cases e k s with h | h | h <;> simp [h]
@[simp] theorem raise_balls (e k : Nat) (s : State) : (raise e k s).balls = s.balls := by rcases raise_cases e k s with h | h | h <;> simp [h]
@[simp] theorem raise_wfb (e k : Nat) (s : State) : (raise e k s).wfb = s.wfb := by rcases raise_cases e k s with h | h | h <;> simp [h]
@[simp] theorem raise_brg (e k : Nat) (s : State) : (raise e k s).brg = s.brg := by rcases raise_cases e k s with h | h | h <;> simp [h]
@[simp] theorem raise_cfg (e k : Nat) (s : State) : (raise e k s).cfg = s.cfg := by rcases raise_cases e k s with h | h | h <;> simp [h]
@[simp] theorem raise_dma (e k : Nat) (s : State) : (raise e k s).dma = s.dma := by rcases raise_cases e k s with h | h | h <;> simp [h]
@[simp] theorem raise_pair (e k : Nat) (s : State) : (raise e k s).pair = s.pair := by rcases raise_cases e k s with h | h | h <;> simp [h]
@[simp] theorem raise_boot (e k : Nat) (s : State) : (raise e k s).boot = s.boot := by rcases raise_cases e k s with h | h | h <;> simp [h]
@[simp] theorem raise_sent (e k : Nat) (s : State) : (raise e k s).sent = s.sent := by rcases raise_cases e k s with h | h | h <;> simp [h]
@[simp] theorem raise_lkp_store (e k : Nat) (s : State) : (raise e k s).lkp.store = s.lkp.store := by rcases raise_cases e k s with h | h | h <;> simp [h]
@[simp] theorem raise_lkp_ready (e k : Nat) (s : State) : (raise e k s).lkp.ready = s.lkp.ready := by rcases raise_cases e k s with h | h | h <;> simp [h]
@[simp] theorem raise_lkp_opened (e k : Nat) (s : State) : (raise e k s).lkp.opened = s.lkp.opened := by rcases raise_cases e k s with h | h | h <;> simp [h]
@[simp] theorem raise_lkp_ports (e k : Nat) (s : State) : (raise e k s).lkp.ports = s.lkp.ports := by rcases raise_cases e k s with h | h | h <;> simp [h]
@[simp] theorem raise_lkp_overflow (e k : Nat) (s : State) : (raise e k s).lkp.overflow = s.lkp.overflow := by rcases raise_cases e k s with h | h | h <;> simp [h]
@[simp] theorem raise_lkp_delay (e k : Nat) (s : State) : (raise e k s).lkp.delay = s.lkp.delay := by rcases raise_cases e k s with h | h | h <;> simp [h]
@[simp] theorem raise_lkp_offers (e k : Nat) (s : State) : (raise e k s).lkp.offers = s.lkp.offers := by rcases raise_cases e k s with h | h | h <;> simp [h]
@[simp] theorem raise_lkp_credit (e k : Nat) (s : State) : (raise e k s).lkp.credit = s.lkp.credit := by rcases raise_cases e k s with h | h | h <;> simp [h]
@[simp] theorem raise_lkp_last (e k : Nat) (s : State) : (raise e k s).lkp.last = s.lkp.last := by rcases raise_cases e k s with h | h | h <;> simp [h]
@[simp] theorem raise_lkp_idle (e k : Nat) (s : State) : (raise e k s).lkp.idle = s.lkp.idle := by rcases raise_cases e k s with h | h | h <;> simp [h]
@[simp] theorem raise_lkp_trcSeq (e k : Nat) (s : State) : (raise e k s).lkp.trcSeq = s.lkp.trcSeq := by rcases raise_cases e k s with h | h | h <;> simp [h]
@[simp] theorem raise_lkp_trcDropped (e k : Nat) (s : State) : (raise e k s).lkp.trcDropped = s.lkp.trcDropped := by rcases raise_cases e k s with h | h | h <;> simp [h]

@[simp] theorem privAttempt_pending (who : Who) (s : State) : (privAttempt who s).pending = s.pending := by simp [privAttempt]
@[simp] theorem privAttempt_now (who : Who) (s : State) : (privAttempt who s).now = s.now := by simp [privAttempt]
@[simp] theorem privAttempt_sn (who : Who) (s : State) : (privAttempt who s).sn = s.sn := by simp [privAttempt]
@[simp] theorem privAttempt_free (who : Who) (s : State) : (privAttempt who s).free = s.free := by simp [privAttempt]
@[simp] theorem privAttempt_mem (who : Who) (s : State) : (privAttempt who s).mem = s.mem := by simp [privAttempt]
@[simp] theorem privAttempt_ecc (who : Who) (s : State) : (privAttempt who s).ecc = s.ecc := by simp [privAttempt]
@[simp] theorem privAttempt_rshadow (who : Who) (s : State) : (privAttempt who s).rshadow = s.rshadow := by simp [privAttempt]
@[simp] theorem privAttempt_wshadow (who : Who) (s : State) : (privAttempt who s).wshadow = s.wshadow := by simp [privAttempt]
@[simp] theorem privAttempt_cores (who : Who) (s : State) : (privAttempt who s).cores = s.cores := by simp [privAttempt]
@[simp] theorem privAttempt_mbox (who : Who) (s : State) : (privAttempt who s).mbox = s.mbox := by simp [privAttempt]
@[simp] theorem privAttempt_scan (who : Who) (s : State) : (privAttempt who s).scan = s.scan := by simp [privAttempt]
@[simp] theorem privAttempt_rot (who : Who) (s : State) : (privAttempt who s).rot = s.rot := by simp [privAttempt]
@[simp] theorem privAttempt_faults (who : Who) (s : State) : (privAttempt who s).faults = s.faults := by simp [privAttempt]
@[simp] theorem privAttempt_tmb (who : Who) (s : State) : (privAttempt who s).tmb = s.tmb := by simp [privAttempt]
@[simp] theorem privAttempt_fio (who : Who) (s : State) : (privAttempt who s).fio = s.fio := by simp [privAttempt]
@[simp] theorem privAttempt_basin (who : Who) (s : State) : (privAttempt who s).basin = s.basin := by simp [privAttempt]
@[simp] theorem privAttempt_eth (who : Who) (s : State) : (privAttempt who s).eth = s.eth := by simp [privAttempt]
@[simp] theorem privAttempt_tow (who : Who) (s : State) : (privAttempt who s).tow = s.tow := by simp [privAttempt]
@[simp] theorem privAttempt_can (who : Who) (s : State) : (privAttempt who s).can = s.can := by simp [privAttempt]
@[simp] theorem privAttempt_canClk (who : Who) (s : State) : (privAttempt who s).canClk = s.canClk := by simp [privAttempt]
@[simp] theorem privAttempt_btl (who : Who) (s : State) : (privAttempt who s).btl = s.btl := by simp [privAttempt]
@[simp] theorem privAttempt_balls (who : Who) (s : State) : (privAttempt who s).balls = s.balls := by simp [privAttempt]
@[simp] theorem privAttempt_wfb (who : Who) (s : State) : (privAttempt who s).wfb = s.wfb := by simp [privAttempt]
@[simp] theorem privAttempt_brg (who : Who) (s : State) : (privAttempt who s).brg = s.brg := by simp [privAttempt]
@[simp] theorem privAttempt_cfg (who : Who) (s : State) : (privAttempt who s).cfg = s.cfg := by simp [privAttempt]
@[simp] theorem privAttempt_dma (who : Who) (s : State) : (privAttempt who s).dma = s.dma := by simp [privAttempt]
@[simp] theorem privAttempt_pair (who : Who) (s : State) : (privAttempt who s).pair = s.pair := by simp [privAttempt]
@[simp] theorem privAttempt_boot (who : Who) (s : State) : (privAttempt who s).boot = s.boot := by simp [privAttempt]
@[simp] theorem privAttempt_sent (who : Who) (s : State) : (privAttempt who s).sent = s.sent := by simp [privAttempt]
@[simp] theorem privAttempt_lkp_store (who : Who) (s : State) : (privAttempt who s).lkp.store = s.lkp.store := by simp [privAttempt]
@[simp] theorem privAttempt_lkp_ready (who : Who) (s : State) : (privAttempt who s).lkp.ready = s.lkp.ready := by simp [privAttempt]
@[simp] theorem privAttempt_lkp_opened (who : Who) (s : State) : (privAttempt who s).lkp.opened = s.lkp.opened := by simp [privAttempt]
@[simp] theorem privAttempt_lkp_ports (who : Who) (s : State) : (privAttempt who s).lkp.ports = s.lkp.ports := by simp [privAttempt]
@[simp] theorem privAttempt_lkp_overflow (who : Who) (s : State) : (privAttempt who s).lkp.overflow = s.lkp.overflow := by simp [privAttempt]
@[simp] theorem privAttempt_lkp_delay (who : Who) (s : State) : (privAttempt who s).lkp.delay = s.lkp.delay := by simp [privAttempt]
@[simp] theorem privAttempt_lkp_offers (who : Who) (s : State) : (privAttempt who s).lkp.offers = s.lkp.offers := by simp [privAttempt]
@[simp] theorem privAttempt_lkp_credit (who : Who) (s : State) : (privAttempt who s).lkp.credit = s.lkp.credit := by simp [privAttempt]
@[simp] theorem privAttempt_lkp_last (who : Who) (s : State) : (privAttempt who s).lkp.last = s.lkp.last := by simp [privAttempt]
@[simp] theorem privAttempt_lkp_idle (who : Who) (s : State) : (privAttempt who s).lkp.idle = s.lkp.idle := by simp [privAttempt]
@[simp] theorem privAttempt_lkp_trcSeq (who : Who) (s : State) : (privAttempt who s).lkp.trcSeq = s.lkp.trcSeq := by simp [privAttempt]
@[simp] theorem privAttempt_lkp_trcDropped (who : Who) (s : State) : (privAttempt who s).lkp.trcDropped = s.lkp.trcDropped := by simp [privAttempt]

@[simp] theorem clampLog_pending (who : Who) (a : Nat) (s : State) : (clampLog who a s).pending = s.pending := by simp [clampLog]
@[simp] theorem clampLog_now (who : Who) (a : Nat) (s : State) : (clampLog who a s).now = s.now := by simp [clampLog]
@[simp] theorem clampLog_sn (who : Who) (a : Nat) (s : State) : (clampLog who a s).sn = s.sn := by simp [clampLog]
@[simp] theorem clampLog_free (who : Who) (a : Nat) (s : State) : (clampLog who a s).free = s.free := by simp [clampLog]
@[simp] theorem clampLog_mem (who : Who) (a : Nat) (s : State) : (clampLog who a s).mem = s.mem := by simp [clampLog]
@[simp] theorem clampLog_ecc (who : Who) (a : Nat) (s : State) : (clampLog who a s).ecc = s.ecc := by simp [clampLog]
@[simp] theorem clampLog_rshadow (who : Who) (a : Nat) (s : State) : (clampLog who a s).rshadow = s.rshadow := by simp [clampLog]
@[simp] theorem clampLog_wshadow (who : Who) (a : Nat) (s : State) : (clampLog who a s).wshadow = s.wshadow := by simp [clampLog]
@[simp] theorem clampLog_cores (who : Who) (a : Nat) (s : State) : (clampLog who a s).cores = s.cores := by simp [clampLog]
@[simp] theorem clampLog_mbox (who : Who) (a : Nat) (s : State) : (clampLog who a s).mbox = s.mbox := by simp [clampLog]
@[simp] theorem clampLog_scan (who : Who) (a : Nat) (s : State) : (clampLog who a s).scan = s.scan := by simp [clampLog]
@[simp] theorem clampLog_rot (who : Who) (a : Nat) (s : State) : (clampLog who a s).rot = s.rot := by simp [clampLog]
@[simp] theorem clampLog_faults (who : Who) (a : Nat) (s : State) : (clampLog who a s).faults = s.faults := by simp [clampLog]
@[simp] theorem clampLog_tmb (who : Who) (a : Nat) (s : State) : (clampLog who a s).tmb = s.tmb := by simp [clampLog]
@[simp] theorem clampLog_fio (who : Who) (a : Nat) (s : State) : (clampLog who a s).fio = s.fio := by simp [clampLog]
@[simp] theorem clampLog_basin (who : Who) (a : Nat) (s : State) : (clampLog who a s).basin = s.basin := by simp [clampLog]
@[simp] theorem clampLog_eth (who : Who) (a : Nat) (s : State) : (clampLog who a s).eth = s.eth := by simp [clampLog]
@[simp] theorem clampLog_tow (who : Who) (a : Nat) (s : State) : (clampLog who a s).tow = s.tow := by simp [clampLog]
@[simp] theorem clampLog_can (who : Who) (a : Nat) (s : State) : (clampLog who a s).can = s.can := by simp [clampLog]
@[simp] theorem clampLog_canClk (who : Who) (a : Nat) (s : State) : (clampLog who a s).canClk = s.canClk := by simp [clampLog]
@[simp] theorem clampLog_btl (who : Who) (a : Nat) (s : State) : (clampLog who a s).btl = s.btl := by simp [clampLog]
@[simp] theorem clampLog_balls (who : Who) (a : Nat) (s : State) : (clampLog who a s).balls = s.balls := by simp [clampLog]
@[simp] theorem clampLog_wfb (who : Who) (a : Nat) (s : State) : (clampLog who a s).wfb = s.wfb := by simp [clampLog]
@[simp] theorem clampLog_brg (who : Who) (a : Nat) (s : State) : (clampLog who a s).brg = s.brg := by simp [clampLog]
@[simp] theorem clampLog_cfg (who : Who) (a : Nat) (s : State) : (clampLog who a s).cfg = s.cfg := by simp [clampLog]
@[simp] theorem clampLog_dma (who : Who) (a : Nat) (s : State) : (clampLog who a s).dma = s.dma := by simp [clampLog]
@[simp] theorem clampLog_pair (who : Who) (a : Nat) (s : State) : (clampLog who a s).pair = s.pair := by simp [clampLog]
@[simp] theorem clampLog_boot (who : Who) (a : Nat) (s : State) : (clampLog who a s).boot = s.boot := by simp [clampLog]
@[simp] theorem clampLog_sent (who : Who) (a : Nat) (s : State) : (clampLog who a s).sent = s.sent := by simp [clampLog]
@[simp] theorem clampLog_lkp_store (who : Who) (a : Nat) (s : State) : (clampLog who a s).lkp.store = s.lkp.store := by simp [clampLog]
@[simp] theorem clampLog_lkp_ready (who : Who) (a : Nat) (s : State) : (clampLog who a s).lkp.ready = s.lkp.ready := by simp [clampLog]
@[simp] theorem clampLog_lkp_opened (who : Who) (a : Nat) (s : State) : (clampLog who a s).lkp.opened = s.lkp.opened := by simp [clampLog]
@[simp] theorem clampLog_lkp_ports (who : Who) (a : Nat) (s : State) : (clampLog who a s).lkp.ports = s.lkp.ports := by simp [clampLog]
@[simp] theorem clampLog_lkp_overflow (who : Who) (a : Nat) (s : State) : (clampLog who a s).lkp.overflow = s.lkp.overflow := by simp [clampLog]
@[simp] theorem clampLog_lkp_delay (who : Who) (a : Nat) (s : State) : (clampLog who a s).lkp.delay = s.lkp.delay := by simp [clampLog]
@[simp] theorem clampLog_lkp_offers (who : Who) (a : Nat) (s : State) : (clampLog who a s).lkp.offers = s.lkp.offers := by simp [clampLog]
@[simp] theorem clampLog_lkp_credit (who : Who) (a : Nat) (s : State) : (clampLog who a s).lkp.credit = s.lkp.credit := by simp [clampLog]
@[simp] theorem clampLog_lkp_last (who : Who) (a : Nat) (s : State) : (clampLog who a s).lkp.last = s.lkp.last := by simp [clampLog]
@[simp] theorem clampLog_lkp_idle (who : Who) (a : Nat) (s : State) : (clampLog who a s).lkp.idle = s.lkp.idle := by simp [clampLog]
@[simp] theorem clampLog_lkp_trcSeq (who : Who) (a : Nat) (s : State) : (clampLog who a s).lkp.trcSeq = s.lkp.trcSeq := by simp [clampLog]
@[simp] theorem clampLog_lkp_trcDropped (who : Who) (a : Nat) (s : State) : (clampLog who a s).lkp.trcDropped = s.lkp.trcDropped := by simp [clampLog]

@[simp] theorem logBusErr_pending (who : Who) (a : Nat) (w : Bool) (n : Nat) (e : BusErr) (f : Nat) (s : State) : (logBusErr who a w n e f s).pending = s.pending := by simp [logBusErr]
@[simp] theorem logBusErr_now (who : Who) (a : Nat) (w : Bool) (n : Nat) (e : BusErr) (f : Nat) (s : State) : (logBusErr who a w n e f s).now = s.now := by simp [logBusErr]
@[simp] theorem logBusErr_sn (who : Who) (a : Nat) (w : Bool) (n : Nat) (e : BusErr) (f : Nat) (s : State) : (logBusErr who a w n e f s).sn = s.sn := by simp [logBusErr]
@[simp] theorem logBusErr_free (who : Who) (a : Nat) (w : Bool) (n : Nat) (e : BusErr) (f : Nat) (s : State) : (logBusErr who a w n e f s).free = s.free := by simp [logBusErr]
@[simp] theorem logBusErr_mem (who : Who) (a : Nat) (w : Bool) (n : Nat) (e : BusErr) (f : Nat) (s : State) : (logBusErr who a w n e f s).mem = s.mem := by simp [logBusErr]
@[simp] theorem logBusErr_ecc (who : Who) (a : Nat) (w : Bool) (n : Nat) (e : BusErr) (f : Nat) (s : State) : (logBusErr who a w n e f s).ecc = s.ecc := by simp [logBusErr]
@[simp] theorem logBusErr_rshadow (who : Who) (a : Nat) (w : Bool) (n : Nat) (e : BusErr) (f : Nat) (s : State) : (logBusErr who a w n e f s).rshadow = s.rshadow := by simp [logBusErr]
@[simp] theorem logBusErr_wshadow (who : Who) (a : Nat) (w : Bool) (n : Nat) (e : BusErr) (f : Nat) (s : State) : (logBusErr who a w n e f s).wshadow = s.wshadow := by simp [logBusErr]
@[simp] theorem logBusErr_cores (who : Who) (a : Nat) (w : Bool) (n : Nat) (e : BusErr) (f : Nat) (s : State) : (logBusErr who a w n e f s).cores = s.cores := by simp [logBusErr]
@[simp] theorem logBusErr_mbox (who : Who) (a : Nat) (w : Bool) (n : Nat) (e : BusErr) (f : Nat) (s : State) : (logBusErr who a w n e f s).mbox = s.mbox := by simp [logBusErr]
@[simp] theorem logBusErr_scan (who : Who) (a : Nat) (w : Bool) (n : Nat) (e : BusErr) (f : Nat) (s : State) : (logBusErr who a w n e f s).scan = s.scan := by simp [logBusErr]
@[simp] theorem logBusErr_rot (who : Who) (a : Nat) (w : Bool) (n : Nat) (e : BusErr) (f : Nat) (s : State) : (logBusErr who a w n e f s).rot = s.rot := by simp [logBusErr]
@[simp] theorem logBusErr_faults (who : Who) (a : Nat) (w : Bool) (n : Nat) (e : BusErr) (f : Nat) (s : State) : (logBusErr who a w n e f s).faults = s.faults := by simp [logBusErr]
@[simp] theorem logBusErr_tmb (who : Who) (a : Nat) (w : Bool) (n : Nat) (e : BusErr) (f : Nat) (s : State) : (logBusErr who a w n e f s).tmb = s.tmb := by simp [logBusErr]
@[simp] theorem logBusErr_fio (who : Who) (a : Nat) (w : Bool) (n : Nat) (e : BusErr) (f : Nat) (s : State) : (logBusErr who a w n e f s).fio = s.fio := by simp [logBusErr]
@[simp] theorem logBusErr_basin (who : Who) (a : Nat) (w : Bool) (n : Nat) (e : BusErr) (f : Nat) (s : State) : (logBusErr who a w n e f s).basin = s.basin := by simp [logBusErr]
@[simp] theorem logBusErr_eth (who : Who) (a : Nat) (w : Bool) (n : Nat) (e : BusErr) (f : Nat) (s : State) : (logBusErr who a w n e f s).eth = s.eth := by simp [logBusErr]
@[simp] theorem logBusErr_tow (who : Who) (a : Nat) (w : Bool) (n : Nat) (e : BusErr) (f : Nat) (s : State) : (logBusErr who a w n e f s).tow = s.tow := by simp [logBusErr]
@[simp] theorem logBusErr_can (who : Who) (a : Nat) (w : Bool) (n : Nat) (e : BusErr) (f : Nat) (s : State) : (logBusErr who a w n e f s).can = s.can := by simp [logBusErr]
@[simp] theorem logBusErr_canClk (who : Who) (a : Nat) (w : Bool) (n : Nat) (e : BusErr) (f : Nat) (s : State) : (logBusErr who a w n e f s).canClk = s.canClk := by simp [logBusErr]
@[simp] theorem logBusErr_btl (who : Who) (a : Nat) (w : Bool) (n : Nat) (e : BusErr) (f : Nat) (s : State) : (logBusErr who a w n e f s).btl = s.btl := by simp [logBusErr]
@[simp] theorem logBusErr_balls (who : Who) (a : Nat) (w : Bool) (n : Nat) (e : BusErr) (f : Nat) (s : State) : (logBusErr who a w n e f s).balls = s.balls := by simp [logBusErr]
@[simp] theorem logBusErr_wfb (who : Who) (a : Nat) (w : Bool) (n : Nat) (e : BusErr) (f : Nat) (s : State) : (logBusErr who a w n e f s).wfb = s.wfb := by simp [logBusErr]
@[simp] theorem logBusErr_brg (who : Who) (a : Nat) (w : Bool) (n : Nat) (e : BusErr) (f : Nat) (s : State) : (logBusErr who a w n e f s).brg = s.brg := by simp [logBusErr]
@[simp] theorem logBusErr_cfg (who : Who) (a : Nat) (w : Bool) (n : Nat) (e : BusErr) (f : Nat) (s : State) : (logBusErr who a w n e f s).cfg = s.cfg := by simp [logBusErr]
@[simp] theorem logBusErr_dma (who : Who) (a : Nat) (w : Bool) (n : Nat) (e : BusErr) (f : Nat) (s : State) : (logBusErr who a w n e f s).dma = s.dma := by simp [logBusErr]
@[simp] theorem logBusErr_pair (who : Who) (a : Nat) (w : Bool) (n : Nat) (e : BusErr) (f : Nat) (s : State) : (logBusErr who a w n e f s).pair = s.pair := by simp [logBusErr]
@[simp] theorem logBusErr_boot (who : Who) (a : Nat) (w : Bool) (n : Nat) (e : BusErr) (f : Nat) (s : State) : (logBusErr who a w n e f s).boot = s.boot := by simp [logBusErr]
@[simp] theorem logBusErr_sent (who : Who) (a : Nat) (w : Bool) (n : Nat) (e : BusErr) (f : Nat) (s : State) : (logBusErr who a w n e f s).sent = s.sent := by simp [logBusErr]
@[simp] theorem logBusErr_lkp_store (who : Who) (a : Nat) (w : Bool) (n : Nat) (e : BusErr) (f : Nat) (s : State) : (logBusErr who a w n e f s).lkp.store = s.lkp.store := by simp [logBusErr]
@[simp] theorem logBusErr_lkp_ready (who : Who) (a : Nat) (w : Bool) (n : Nat) (e : BusErr) (f : Nat) (s : State) : (logBusErr who a w n e f s).lkp.ready = s.lkp.ready := by simp [logBusErr]
@[simp] theorem logBusErr_lkp_opened (who : Who) (a : Nat) (w : Bool) (n : Nat) (e : BusErr) (f : Nat) (s : State) : (logBusErr who a w n e f s).lkp.opened = s.lkp.opened := by simp [logBusErr]
@[simp] theorem logBusErr_lkp_ports (who : Who) (a : Nat) (w : Bool) (n : Nat) (e : BusErr) (f : Nat) (s : State) : (logBusErr who a w n e f s).lkp.ports = s.lkp.ports := by simp [logBusErr]
@[simp] theorem logBusErr_lkp_overflow (who : Who) (a : Nat) (w : Bool) (n : Nat) (e : BusErr) (f : Nat) (s : State) : (logBusErr who a w n e f s).lkp.overflow = s.lkp.overflow := by simp [logBusErr]
@[simp] theorem logBusErr_lkp_delay (who : Who) (a : Nat) (w : Bool) (n : Nat) (e : BusErr) (f : Nat) (s : State) : (logBusErr who a w n e f s).lkp.delay = s.lkp.delay := by simp [logBusErr]
@[simp] theorem logBusErr_lkp_offers (who : Who) (a : Nat) (w : Bool) (n : Nat) (e : BusErr) (f : Nat) (s : State) : (logBusErr who a w n e f s).lkp.offers = s.lkp.offers := by simp [logBusErr]
@[simp] theorem logBusErr_lkp_credit (who : Who) (a : Nat) (w : Bool) (n : Nat) (e : BusErr) (f : Nat) (s : State) : (logBusErr who a w n e f s).lkp.credit = s.lkp.credit := by simp [logBusErr]
@[simp] theorem logBusErr_lkp_last (who : Who) (a : Nat) (w : Bool) (n : Nat) (e : BusErr) (f : Nat) (s : State) : (logBusErr who a w n e f s).lkp.last = s.lkp.last := by simp [logBusErr]
@[simp] theorem logBusErr_lkp_idle (who : Who) (a : Nat) (w : Bool) (n : Nat) (e : BusErr) (f : Nat) (s : State) : (logBusErr who a w n e f s).lkp.idle = s.lkp.idle := by simp [logBusErr]
@[simp] theorem logBusErr_lkp_trcSeq (who : Who) (a : Nat) (w : Bool) (n : Nat) (e : BusErr) (f : Nat) (s : State) : (logBusErr who a w n e f s).lkp.trcSeq = s.lkp.trcSeq := by simp [logBusErr]
@[simp] theorem logBusErr_lkp_trcDropped (who : Who) (a : Nat) (w : Bool) (n : Nat) (e : BusErr) (f : Nat) (s : State) : (logBusErr who a w n e f s).lkp.trcDropped = s.lkp.trcDropped := by simp [logBusErr]

end Sys2Proof.Machine
end

