-- ==== Sys2Proof/Laws/Fields.lean ====
section
/-! SUPPORT. What a write asks of the fields of a register: RW fields take the written bits, all else stays; a legal value is not
clamped (02_registers R10, R58, R59, R71). -/

namespace Sys2Proof

/-- Writing a field with the value it has changes nothing. -/
theorem putBits_self (v lo w : Nat) : putBits v lo w (bitsOf v lo w) = v := by
  apply Nat.eq_of_testBit_eq; intro i
  rw [testBit_putBits]
  split
  · rfl
  · split
    · rw [testBit_bitsOf, show lo + (i - lo) = i by omega, decide_eq_true (by omega), Bool.true_and]
    · rfl

end Sys2Proof

namespace Sys2Proof.Machine

/-- The fields of a register share no bits and lie in one word. -/
def RegDesc.tidy (d : RegDesc) : Bool :=
  d.fields.all (fun f => decide (f.lo + f.w ≤ 32)) &&
    decide (d.fields.Pairwise fun f g => f.lo + f.w ≤ g.lo ∨ g.lo + g.w ≤ f.lo)

/-- The bits that a fold over fields leaves alone. -/
theorem foldl_putBits_other (p : FieldDesc → Prop) [DecidablePred p] (x : FieldDesc → Nat) (lo w : Nat) (l : List FieldDesc)
    (h : ∀ f ∈ l, p f → lo + w ≤ f.lo ∨ f.lo + f.w ≤ lo) (v : Nat) :
    bitsOf (l.foldl (fun acc f => if p f then putBits acc f.lo f.w (x f) else acc) v) lo w = bitsOf v lo w := by
  induction l generalizing v with
  | nil => rfl
  | cons g t ih =>
    rw [List.foldl_cons, ih (fun f hf => h f (by simp [hf]))]
    split
    · rename_i hp; exact bitsOf_putBits_other _ _ _ _ _ _ (h g (by simp) hp)
    · rfl

/-- A field that a fold writes reads what was written. -/
theorem foldl_putBits_same (p : FieldDesc → Prop) [DecidablePred p] (x : FieldDesc → Nat) (l : List FieldDesc)
    (hl : l.Pairwise fun f g => f.lo + f.w ≤ g.lo ∨ g.lo + g.w ≤ f.lo) (f : FieldDesc) (hf : f ∈ l) (hp : p f) (v : Nat) :
    bitsOf (l.foldl (fun acc f => if p f then putBits acc f.lo f.w (x f) else acc) v) f.lo f.w = x f % 2 ^ f.w := by
  induction l generalizing v with
  | nil => simp at hf
  | cons g t ih =>
    rw [List.foldl_cons]
    rw [List.pairwise_cons] at hl
    rcases List.mem_cons.mp hf with e | e
    · subst e
      rw [if_pos hp, foldl_putBits_other p x _ _ t (fun k hk _ => hl.1 k hk), bitsOf_putBits_same]
    · exact ih hl.2 e _

/-- An RW field takes the bits of a plain write of an initiator that may write it. -/
theorem rawNew_same (d : RegDesc) (dyn : Bool) (old v : Nat) (hd : d.tidy = true) (f : FieldDesc) (hf : f ∈ d.fields) (ha : f.acc = .rw) :
    bitsOf (rawNew d dyn true 0 old v) f.lo f.w = bitsOf v f.lo f.w := by
  simp only [RegDesc.tidy, Bool.and_eq_true, decide_eq_true_eq] at hd
  unfold rawNew
  rw [foldl_putBits_same (fun f => f.acc = .rw ∧ (true = true ∨ (!fieldPriv dyn f) = true)) (fun f => bitsOf (aliasOp 0 old v) f.lo f.w)
    d.fields hd.2 f hf ⟨ha, Or.inl rfl⟩]
  simp [aliasOp, bitsOf]

/-- A part of the word that no RW field covers keeps its value. -/
theorem rawNew_other (d : RegDesc) (dyn p : Bool) (al old v lo w : Nat)
    (h : ∀ f ∈ d.fields, f.acc = .rw → lo + w ≤ f.lo ∨ f.lo + f.w ≤ lo) :
    bitsOf (rawNew d dyn p al old v) lo w = bitsOf old lo w := by
  unfold rawNew
  exact foldl_putBits_other (fun f => f.acc = .rw ∧ (p = true ∨ (!fieldPriv dyn f) = true)) _ _ _ _ (fun f hf hp => h f hf hp.1) _

theorem rawNew_lt (d : RegDesc) (dyn p : Bool) (al old v : Nat) (hd : d.tidy = true) (ho : old < 2 ^ 32) :
    rawNew d dyn p al old v < 2 ^ 32 := by
  simp only [RegDesc.tidy, Bool.and_eq_true, List.all_eq_true, decide_eq_true_eq] at hd
  have h := hd.1
  have key : ∀ (l : List FieldDesc) (x : Nat), (∀ f ∈ l, f.lo + f.w ≤ 32) → x < 2 ^ 32 →
      l.foldl (fun acc f => if f.acc = .rw ∧ (p = true ∨ (!fieldPriv dyn f) = true) then
        putBits acc f.lo f.w (bitsOf (aliasOp al old v) f.lo f.w) else acc) x < 2 ^ 32 := by
    intro l
    induction l with
    | nil => intro x _ hx; simpa
    | cons g t ih =>
      intro x hl hx
      rw [List.foldl_cons]
      refine ih _ (fun f hf => hl f (by simp [hf])) ?_
      split
      · exact putBits_lt _ _ _ _ hx (hl g (by simp))
      · exact hx
  exact key _ _ h ho

/-- A word whose RW fields hold legal values is not clamped. -/
theorem clampFields_legal (d : RegDesc) (v : Nat)
    (h : ∀ f ∈ d.fields, f.acc = .rw → f.clamp.apply (bitsOf v f.lo f.w) = bitsOf v f.lo f.w) : clampFields d v = v := by
  unfold clampFields
  generalize d.fields = l at h
  induction l with
  | nil => rfl
  | cons g t ih =>
    rw [List.foldl_cons]
    split
    · rename_i ha; rw [h g (by simp) ha, putBits_self]; exact ih (fun f hf => h f (by simp [hf]))
    · exact ih (fun f hf => h f (by simp [hf]))

/-- A word that stays as it was written has no clamped field. -/
theorem clampedFields_self (d : RegDesc) (v : Nat) : clampedFields d v v = [] := by
  simp [clampedFields]

/-- A legal write of an initiator that may write the register: the RW fields take the written bits, and nothing is clamped. -/
theorem applyWord_legal (who : Who) (pa : Nat) (d : RegDesc) (v : Nat) (s : State) (hd : d.tidy = true) (hp : isPriv s who = true)
    (he : isDescriptor pa = false) (hk : lockMask pa = 0) (hz : ∀ x, zeroBits pa x = x)
    (hs : (copyAt (A.SCN_TASK_CTL 0) 0x40 32 pa).isSome = false)
    (hf : ∀ f ∈ d.fields, f.acc = .rw → f.clamp.apply (bitsOf v f.lo f.w) = bitsOf v f.lo f.w)
    (hc : clampWord s pa (rawNew d (dynPriv s pa) true 0 (rd s pa).toNat v) = rawNew d (dynPriv s pa) true 0 (rd s pa).toNat v) :
    applyWord who 0 pa d v s =
      (wr pa (w32 (rawNew d (dynPriv s pa) true 0 (rd s pa).toNat v)) s,
        { who := who, pa := pa, old := (rd s pa).toNat, new := rawNew d (dynPriv s pa) true 0 (rd s pa).toNat v,
          cmds := cmdBits d (dynPriv s pa) true 0 v, wo := woBits d (dynPriv s pa) true 0 v, written := v }) := by
  have hb : rdBank s pa = rd s pa := by unfold rdBank; split <;> simp [he]
  have hcl : clampFields d (rawNew d (dynPriv s pa) true 0 (rd s pa).toNat v) = rawNew d (dynPriv s pa) true 0 (rd s pa).toNat v := by
    apply clampFields_legal
    intro f h1 h2; rw [rawNew_same d _ _ _ hd f h1 h2]; exact hf f h1 h2
  have hw : ∀ w t, wrBank pa w t = wr pa w t := by intro w t; unfold wrBank; split <;> simp [he]
  simp [applyWord, hp, hb, writeCounts, keepLock, hk, hz, hs, hcl, hc, hw, clampedFields_self, each]

end Sys2Proof.Machine
end

