-- ==== Sys2Proof/Laws/Memory.lean ====
section
/-! SUPPORT. The laws of memory: what an address reads after a store, what a store leaves, and that every operation that changes the
memory list keeps its canonical form (00_scope R7, 02_registers R46). -/

namespace Sys2Proof.Machine

/-! ### One byte -/

/-- A byte reads what was stored there. -/
@[simp] theorem byteAt_setByte_same (a : Nat) (b : Byte) (s : State) : byteAt (setByte a b s) a = b := SMap.read_put_same _ _ _ _

/-- A store leaves every other byte. -/
theorem byteAt_setByte_other (a c : Nat) (b : Byte) (s : State) (h : c ≠ a) : byteAt (setByte a b s) c = byteAt s c := by
  unfold byteAt setByte
  exact congrArg (fun x => Option.getD x (memReset c)) (SMap.get?_put_other _ _ _ _ _ h)

theorem setByte_eq (a : Nat) (b : Byte) (s : State) : setByte a b s = { s with mem := SMap.put (memReset a) s.mem a b } := rfl

/-- What a byte reads depends on the memory list alone. -/
theorem byteAt_congr {s t : State} (h : t.mem = s.mem) (a : Nat) : byteAt t a = byteAt s a := by unfold byteAt; rw [h]

/-! ### Runs of bytes -/

/-- A run of bytes leaves every byte outside it. -/
theorem byteAt_putBytes_outside (bs : List Byte) : ∀ (a c : Nat) (s : State), c < a ∨ a + bs.length ≤ c →
    byteAt (putBytes a bs s) c = byteAt s c := by
  induction bs with
  | nil => intro a c s _; rfl
  | cons b t ih =>
    intro a c s h
    simp only [List.length_cons] at h
    rw [putBytes, ih (a + 1) c _ (by omega), byteAt_setByte_other _ _ _ _ (by omega)]

/-- Byte `k` of a run reads what was stored. -/
theorem byteAt_putBytes_inside (bs : List Byte) : ∀ (a k : Nat) (s : State) (h : k < bs.length),
    byteAt (putBytes a bs s) (a + k) = bs[k] := by
  induction bs with
  | nil => intro a k s h; exact absurd h (by simp)
  | cons b t ih =>
    intro a k s h
    cases k with
    | zero => rw [putBytes, byteAt_putBytes_outside _ _ _ _ (by omega)]; simp
    | succ j =>
      have := ih (a + 1) j (setByte a b s) (by simpa using h)
      rw [putBytes, show a + (j + 1) = a + 1 + j by omega, this]; rfl

/-- A run of bytes changes the memory list and nothing else. -/
theorem putBytes_eq (bs : List Byte) : ∀ (a : Nat) (s : State), ∃ m, putBytes a bs s = { s with mem := m } := by
  induction bs with
  | nil => intro a s; exact ⟨s.mem, rfl⟩
  | cons b t ih => intro a s; obtain ⟨m, h⟩ := ih (a + 1) (setByte a b s); exact ⟨m, by rw [putBytes, h]; rfl⟩

/-! ### The canonical form -/

/-- The memory list of a state is canonical. -/
def memOk (s : State) : Prop := Memory.wf s.mem = true

/-- Right after reset the memory list is canonical. -/
theorem reset_memOk : memOk State.reset := by unfold memOk; decide +kernel

theorem memOk_congr {s t : State} (h : t.mem = s.mem) (w : memOk s) : memOk t := by unfold memOk at *; rw [h]; exact w

/-- A store keeps the canonical form. -/
theorem setByte_memOk (a : Nat) (b : Byte) (s : State) (w : memOk s) : memOk (setByte a b s) :=
  SMap.wf_put memReset s.mem a b w

theorem putBytes_memOk (bs : List Byte) : ∀ (a : Nat) (s : State), memOk s → memOk (putBytes a bs s) := by
  induction bs with
  | nil => intro a s w; exact w
  | cons b t ih => intro a s w; exact ih (a + 1) _ (setByte_memOk a b s w)

/-- What `each` does one by one it keeps as a whole. -/
theorem each_keeps {α : Type} (P : State → Prop) (l : List α) (f : α → State → State) (h : ∀ x s, P s → P (f x s)) :
    ∀ s, P s → P (each l f s) := by
  unfold each
  induction l with
  | nil => intro s w; exact w
  | cons x t ih => intro s w; exact ih (f x s) (h x s w)

/-- Removing bytes keeps the canonical form. -/
theorem filter_memOk (p : Host.Cell → Bool) (s : State) (w : memOk s) : Memory.wf (s.mem.filter p) = true :=
  SMap.wf_filter memReset p s.mem w

theorem clearBanks_memOk (n : Nat) (s : State) (w : memOk s) : memOk (clearBanks n s) := filter_memOk _ s w

theorem clearArea_memOk (area : Nat) (s : State) (w : memOk s) : memOk (clearArea area s) := filter_memOk _ s w

theorem clearOut_memOk (s : State) (w : memOk s) : memOk (clearOut s) := filter_memOk _ s w

theorem eccClear_mem (w : Nat) (s : State) : (eccClear w s).mem = s.mem := rfl

theorem noteCorrected_mem (n : Nat) (s : State) : (noteCorrected n s).mem = s.mem := rfl

theorem eccNote_mem (n off : Nat) (ue scrub : Bool) (who : Nat) (s : State) : (eccNote n off ue scrub who s).mem = s.mem := by
  unfold eccNote; cases ue <;> simp [noteCorrected_mem]

/-- Noting errors of words keeps the memory list. -/
theorem noteWords_memOk (n : Nat) (met : List (Nat × Bool)) (s : State) (w : memOk s) : memOk (noteWords n met s) := by
  refine each_keeps memOk _ _ (fun x s w => ?_) _ w
  dsimp only
  split
  · exact memOk_congr (eccNote_mem ..) w
  · exact memOk_congr ((eccClear_mem ..).trans (eccNote_mem ..)) w

theorem copyBanks_memOk (src dst : Nat) (s : State) (w : memOk s) : memOk (copyBanks src dst s) := by
  unfold copyBanks
  refine each_keeps memOk _ _ (fun x s w => ?_) _
    (each_keeps memOk _ _ (fun x s w => setByte_memOk _ _ s w) _ (clearBanks_memOk dst _ (noteWords_memOk src _ s w)))
  exact memOk_congr (s := s) rfl w

theorem copyLine_memOk (src dst line : Nat) (s : State) (w : memOk s) : memOk (copyLine src dst line s) := by
  unfold copyLine
  refine each_keeps memOk _ _ (fun k s w => ?_) _ (putBytes_memOk _ _ _ (noteWords_memOk src _ s w))
  dsimp only
  split
  · exact memOk_congr (s := s) rfl w
  · exact memOk_congr (eccClear_mem _ s) w

theorem loadFirmware_memOk (n half slot v : Nat) (s : State) (w : memOk s) : memOk (loadFirmware n half slot v s) := by
  unfold loadFirmware
  refine memOk_congr rfl (putBytes_memOk _ _ _ ?_)
  exact filter_memOk _ s w

/-- Every key of a canonical list is at least its bound. -/
theorem SMap.wfFrom_ge {α : Type} [DecidableEq α] (d : Nat → α) (m : List (Nat × α)) :
    ∀ lo, SMap.wfFrom d lo m = true → ∀ x ∈ m, lo ≤ x.1 := by
  induction m with
  | nil => intro lo _ x hx; cases hx
  | cons y t ih =>
    intro lo h x hx
    obtain ⟨a, v⟩ := y
    simp only [SMap.wfFrom, Bool.and_eq_true, decide_eq_true_eq] at h
    rcases List.mem_cons.mp hx with rfl | hx
    · exact h.1.1
    · exact Nat.le_trans h.1.1 (Nat.le_of_lt (Nat.lt_of_succ_le (ih (a + 1) h.2 x hx)))

/-- Two canonical lists, one below a bound and one from it on, are one. -/
theorem SMap.wfFrom_append {α : Type} [DecidableEq α] (d : Nat → α) (l : List (Nat × α)) (k : Nat) (m : List (Nat × α)) :
    ∀ lo, lo ≤ k → SMap.wfFrom d lo l = true → (∀ x ∈ l, x.1 < k) → SMap.wfFrom d k m = true → SMap.wfFrom d lo (l ++ m) = true := by
  induction l with
  | nil => intro lo hk _ _ hm; exact SMap.wfFrom_mono d hk hm
  | cons y t ih =>
    intro lo hk h hl hm
    obtain ⟨a, v⟩ := y
    simp only [List.cons_append, SMap.wfFrom, Bool.and_eq_true, decide_eq_true_eq] at h ⊢
    exact ⟨h.1, ih (a + 1) (hl (a, v) (by simp)) h.2 (fun x hx => hl x (by simp [hx])) hm⟩

/-- A canonical list whose keys are at least `k` is canonical from `k` on. -/
theorem SMap.wfFrom_raise {α : Type} [DecidableEq α] (d : Nat → α) (m : List (Nat × α)) (lo k : Nat) (h : SMap.wfFrom d lo m = true)
    (hk : ∀ x ∈ m, k ≤ x.1) : SMap.wfFrom d k m = true := by
  cases m with
  | nil => rfl
  | cons y t =>
    obtain ⟨a, v⟩ := y
    simp only [SMap.wfFrom, Bool.and_eq_true, decide_eq_true_eq] at h ⊢
    exact ⟨⟨hk (a, v) (by simp), h.1.2⟩, h.2⟩

/-- A run of bytes given by a function, without those that an unlisted address reads as, is canonical. -/
theorem SMap.wfFrom_run (a : Nat) (f : Nat → Byte) : ∀ n : Nat,
    SMap.wfFrom memReset a ((List.range n).filterMap fun k => if f k = memReset (a + k) then none else some (a + k, f k)) = true
      ∧ ∀ x ∈ (List.range n).filterMap (fun k => if f k = memReset (a + k) then none else some (a + k, f k)), a ≤ x.1 ∧ x.1 < a + n := by
  intro n
  induction n with
  | zero => exact ⟨rfl, fun x hx => by simp at hx⟩
  | succ n ih =>
    rw [List.range_succ, List.filterMap_append]
    by_cases h : f n = memReset (a + n)
    · have e : List.filterMap (fun k => if f k = memReset (a + k) then none else some (a + k, f k)) [n] = [] := by simp [h]
      rw [e, List.append_nil]
      exact ⟨ih.1, fun x hx => ⟨(ih.2 x hx).1, Nat.lt_succ_of_lt (ih.2 x hx).2⟩⟩
    · have e : List.filterMap (fun k => if f k = memReset (a + k) then none else some (a + k, f k)) [n] = [(a + n, f n)] := by
        rw [List.filterMap_cons, if_neg h]; rfl
      rw [e]
      refine ⟨SMap.wfFrom_append _ _ (a + n) _ a (by omega) ih.1 (fun x hx => (ih.2 x hx).2) (by simpa [SMap.wfFrom] using h), ?_⟩
      intro x hx
      rcases List.mem_append.mp hx with hx | hx
      · exact ⟨(ih.2 x hx).1, Nat.lt_succ_of_lt (ih.2 x hx).2⟩
      · rw [List.mem_singleton] at hx; subst hx; exact ⟨by simp, by simp⟩

/-- Free bytes keep the canonical form. -/
theorem freeBytes_memOk (a n : Nat) (s : State) (w : memOk s) : memOk (freeBytes a n s) := by
  have r := SMap.wfFrom_run a (fun k => (Config.freeWord (s.free + k)).setWidth 8) n
  have hi : SMap.wfFrom memReset (a + n) (s.mem.filter (fun c => decide (a + n ≤ c.1))) = true :=
    SMap.wfFrom_raise _ _ 0 _ (filter_memOk _ s w) (fun x hx => by simpa using (List.mem_filter.mp hx).2)
  have mid := SMap.wfFrom_append _ _ (a + n) _ a (by omega) r.1 (fun x hx => (r.2 x hx).2) hi
  have low : SMap.wfFrom memReset 0 (s.mem.filter (fun c => decide (c.1 < a))) = true := filter_memOk _ s w
  have all := SMap.wfFrom_append _ _ a _ 0 (by omega) low (fun x hx => by simpa using (List.mem_filter.mp hx).2) mid
  rw [← List.append_assoc] at all
  exact all

/-- Memory after a device reset is canonical. -/
theorem resetMemory_memOk (forces : Bool) (s : State) (w : memOk s) : memOk (resetMemory forces s) := filter_memOk _ s w

end Sys2Proof.Machine
end

