-- ==== Sys2Proof/Laws/Parts.lean ====
section
/-! SUPPORT. What each update of a part of the state leaves as it is, and what it gives that part: one lemma per field per update, true
by rfl; with what an element of a vector of parts reads after an update of one of them. -/

namespace Sys2Proof.Machine

/-! ### Elements of vectors -/

/-- The element replaced reads the new value. -/
@[simp] theorem vget_vset_same {α : Type} {n : Nat} [NeZero n] (v : Vector α n) (i : Nat) (x : α) : vget (vset v i x) i = x := by
  simp [vget, vset]

/-- Every other element reads as before. -/
theorem vget_vset_other {α : Type} {n : Nat} [NeZero n] (v : Vector α n) (i j : Nat) (x : α) (h : j % n ≠ i % n) :
    vget (vset v i x) j = vget v j := by
  simp [vget, vset, Vector.getElem_set, Ne.symm h]

/-- A core reads what it was set to. -/
@[simp] theorem core_setCore_same (s : State) (i : Nat) (k : Core) : (s.setCore i k).core i = k := by
  simp [State.core, State.setCore]

/-- Every other core stays. -/
theorem core_setCore_other (s : State) (i j : Nat) (k : Core) (h : j % 40 ≠ i % 40) : (s.setCore i k).core j = s.core j := by
  simp [State.core, State.setCore, Vector.getElem_set, Ne.symm h]

@[simp] theorem core_modCore_same (i : Nat) (f : Core → Core) (s : State) : (modCore i f s).core i = f (s.core i) :=
  core_setCore_same s i _

theorem core_modCore_other (i j : Nat) (f : Core → Core) (s : State) (h : j % 40 ≠ i % 40) : (modCore i f s).core j = s.core j :=
  core_setCore_other s i j _ h

/-- A mailbox reads what it was set to. -/
@[simp] theorem mb_setMb_same (s : State) (m : Nat) (b : Mbox) : (s.setMb m b).mb m = b := by
  simp [State.mb, State.setMb]

theorem mb_setMb_other (s : State) (m j : Nat) (b : Mbox) (h : j % 64 ≠ m % 64) : (s.setMb m b).mb j = s.mb j := by
  simp [State.mb, State.setMb, Vector.getElem_set, Ne.symm h]

@[simp] theorem task_modTask_same (t : Nat) (f : Task → Task) (s : State) : (modTask t f s).task t = f (s.task t) := by
  simp [State.task, modTask, modScan]

theorem task_modTask_other (t j : Nat) (f : Task → Task) (s : State) (h : j % 32 ≠ t % 32) : (modTask t f s).task j = s.task j := by
  simp [State.task, modTask, modScan, Vector.getElem_set, Ne.symm h]

@[simp] theorem engine_modEng_same (i : Nat) (f) (s : State) : (modEng i f s).engine i = f (s.engine i) := vget_vset_same _ _ _

theorem engine_modEng_other (i j : Nat) (f) (s : State) (h : j % 16 ≠ i % 16) : (modEng i f s).engine j = s.engine j :=
  vget_vset_other _ _ _ _ h

@[simp] theorem port_modPort_same (i : Nat) (f) (s : State) : (modPort i f s).port i = f (s.port i) := vget_vset_same _ _ _

theorem port_modPort_other (i j : Nat) (f) (s : State) (h : j % 24 ≠ i % 24) : (modPort i f s).port j = s.port j :=
  vget_vset_other _ _ _ _ h

@[simp] theorem canp_modCan_same (i : Nat) (f) (s : State) : (modCan i f s).canp i = f (s.canp i) := vget_vset_same _ _ _

theorem canp_modCan_other (i j : Nat) (f) (s : State) (h : j % 8 ≠ i % 8) : (modCan i f s).canp j = s.canp j :=
  vget_vset_other _ _ _ _ h

@[simp] theorem station_modStn_same (i : Nat) (f) (s : State) : (modStn i f s).station i = f (s.station i) := vget_vset_same _ _ _

theorem station_modStn_other (i j : Nat) (f) (s : State) (h : j % 256 ≠ i % 256) : (modStn i f s).station j = s.station j :=
  vget_vset_other _ _ _ _ h

@[simp] theorem wl_modWl_same (i : Nat) (f) (s : State) : (modWl i f s).wl i = f (s.wl i) := vget_vset_same _ _ _

theorem wl_modWl_other (i j : Nat) (f) (s : State) (h : j % 4 ≠ i % 4) : (modWl i f s).wl j = s.wl j :=
  vget_vset_other _ _ _ _ h

/-! ### Fields -/

@[simp] theorem modLkp_lkp (f : Lkp → Lkp) (s : State) : (modLkp f s).lkp = f s.lkp := (rfl)
@[simp] theorem modLkp_pending (f : Lkp → Lkp) (s : State) : (modLkp f s).pending = s.pending := (rfl)
@[simp] theorem modLkp_now (f : Lkp → Lkp) (s : State) : (modLkp f s).now = s.now := (rfl)
@[simp] theorem modLkp_sn (f : Lkp → Lkp) (s : State) : (modLkp f s).sn = s.sn := (rfl)
@[simp] theorem modLkp_free (f : Lkp → Lkp) (s : State) : (modLkp f s).free = s.free := (rfl)
@[simp] theorem modLkp_regs (f : Lkp → Lkp) (s : State) : (modLkp f s).regs = s.regs := (rfl)
@[simp] theorem modLkp_mem (f : Lkp → Lkp) (s : State) : (modLkp f s).mem = s.mem := (rfl)
@[simp] theorem modLkp_ecc (f : Lkp → Lkp) (s : State) : (modLkp f s).ecc = s.ecc := (rfl)
@[simp] theorem modLkp_evtLast (f : Lkp → Lkp) (s : State) : (modLkp f s).evtLast = s.evtLast := (rfl)
@[simp] theorem modLkp_rshadow (f : Lkp → Lkp) (s : State) : (modLkp f s).rshadow = s.rshadow := (rfl)
@[simp] theorem modLkp_wshadow (f : Lkp → Lkp) (s : State) : (modLkp f s).wshadow = s.wshadow := (rfl)
@[simp] theorem modLkp_cores (f : Lkp → Lkp) (s : State) : (modLkp f s).cores = s.cores := (rfl)
@[simp] theorem modLkp_mbox (f : Lkp → Lkp) (s : State) : (modLkp f s).mbox = s.mbox := (rfl)
@[simp] theorem modLkp_scan (f : Lkp → Lkp) (s : State) : (modLkp f s).scan = s.scan := (rfl)
@[simp] theorem modLkp_rot (f : Lkp → Lkp) (s : State) : (modLkp f s).rot = s.rot := (rfl)
@[simp] theorem modLkp_faults (f : Lkp → Lkp) (s : State) : (modLkp f s).faults = s.faults := (rfl)
@[simp] theorem modLkp_tmb (f : Lkp → Lkp) (s : State) : (modLkp f s).tmb = s.tmb := (rfl)
@[simp] theorem modLkp_fio (f : Lkp → Lkp) (s : State) : (modLkp f s).fio = s.fio := (rfl)
@[simp] theorem modLkp_basin (f : Lkp → Lkp) (s : State) : (modLkp f s).basin = s.basin := (rfl)
@[simp] theorem modLkp_eth (f : Lkp → Lkp) (s : State) : (modLkp f s).eth = s.eth := (rfl)
@[simp] theorem modLkp_tow (f : Lkp → Lkp) (s : State) : (modLkp f s).tow = s.tow := (rfl)
@[simp] theorem modLkp_can (f : Lkp → Lkp) (s : State) : (modLkp f s).can = s.can := (rfl)
@[simp] theorem modLkp_canClk (f : Lkp → Lkp) (s : State) : (modLkp f s).canClk = s.canClk := (rfl)
@[simp] theorem modLkp_btl (f : Lkp → Lkp) (s : State) : (modLkp f s).btl = s.btl := (rfl)
@[simp] theorem modLkp_balls (f : Lkp → Lkp) (s : State) : (modLkp f s).balls = s.balls := (rfl)
@[simp] theorem modLkp_wfb (f : Lkp → Lkp) (s : State) : (modLkp f s).wfb = s.wfb := (rfl)
@[simp] theorem modLkp_brg (f : Lkp → Lkp) (s : State) : (modLkp f s).brg = s.brg := (rfl)
@[simp] theorem modLkp_cfg (f : Lkp → Lkp) (s : State) : (modLkp f s).cfg = s.cfg := (rfl)
@[simp] theorem modLkp_dma (f : Lkp → Lkp) (s : State) : (modLkp f s).dma = s.dma := (rfl)
@[simp] theorem modLkp_pair (f : Lkp → Lkp) (s : State) : (modLkp f s).pair = s.pair := (rfl)
@[simp] theorem modLkp_boot (f : Lkp → Lkp) (s : State) : (modLkp f s).boot = s.boot := (rfl)
@[simp] theorem modLkp_sent (f : Lkp → Lkp) (s : State) : (modLkp f s).sent = s.sent := (rfl)
@[simp] theorem modScan_scan (f : Scan → Scan) (s : State) : (modScan f s).scan = f s.scan := (rfl)
@[simp] theorem modScan_pending (f : Scan → Scan) (s : State) : (modScan f s).pending = s.pending := (rfl)
@[simp] theorem modScan_now (f : Scan → Scan) (s : State) : (modScan f s).now = s.now := (rfl)
@[simp] theorem modScan_sn (f : Scan → Scan) (s : State) : (modScan f s).sn = s.sn := (rfl)
@[simp] theorem modScan_free (f : Scan → Scan) (s : State) : (modScan f s).free = s.free := (rfl)
@[simp] theorem modScan_regs (f : Scan → Scan) (s : State) : (modScan f s).regs = s.regs := (rfl)
@[simp] theorem modScan_mem (f : Scan → Scan) (s : State) : (modScan f s).mem = s.mem := (rfl)
@[simp] theorem modScan_ecc (f : Scan → Scan) (s : State) : (modScan f s).ecc = s.ecc := (rfl)
@[simp] theorem modScan_evtLast (f : Scan → Scan) (s : State) : (modScan f s).evtLast = s.evtLast := (rfl)
@[simp] theorem modScan_rshadow (f : Scan → Scan) (s : State) : (modScan f s).rshadow = s.rshadow := (rfl)
@[simp] theorem modScan_wshadow (f : Scan → Scan) (s : State) : (modScan f s).wshadow = s.wshadow := (rfl)
@[simp] theorem modScan_cores (f : Scan → Scan) (s : State) : (modScan f s).cores = s.cores := (rfl)
@[simp] theorem modScan_mbox (f : Scan → Scan) (s : State) : (modScan f s).mbox = s.mbox := (rfl)
@[simp] theorem modScan_lkp (f : Scan → Scan) (s : State) : (modScan f s).lkp = s.lkp := (rfl)
@[simp] theorem modScan_rot (f : Scan → Scan) (s : State) : (modScan f s).rot = s.rot := (rfl)
@[simp] theorem modScan_faults (f : Scan → Scan) (s : State) : (modScan f s).faults = s.faults := (rfl)
@[simp] theorem modScan_tmb (f : Scan → Scan) (s : State) : (modScan f s).tmb = s.tmb := (rfl)
@[simp] theorem modScan_fio (f : Scan → Scan) (s : State) : (modScan f s).fio = s.fio := (rfl)
@[simp] theorem modScan_basin (f : Scan → Scan) (s : State) : (modScan f s).basin = s.basin := (rfl)
@[simp] theorem modScan_eth (f : Scan → Scan) (s : State) : (modScan f s).eth = s.eth := (rfl)
@[simp] theorem modScan_tow (f : Scan → Scan) (s : State) : (modScan f s).tow = s.tow := (rfl)
@[simp] theorem modScan_can (f : Scan → Scan) (s : State) : (modScan f s).can = s.can := (rfl)
@[simp] theorem modScan_canClk (f : Scan → Scan) (s : State) : (modScan f s).canClk = s.canClk := (rfl)
@[simp] theorem modScan_btl (f : Scan → Scan) (s : State) : (modScan f s).btl = s.btl := (rfl)
@[simp] theorem modScan_balls (f : Scan → Scan) (s : State) : (modScan f s).balls = s.balls := (rfl)
@[simp] theorem modScan_wfb (f : Scan → Scan) (s : State) : (modScan f s).wfb = s.wfb := (rfl)
@[simp] theorem modScan_brg (f : Scan → Scan) (s : State) : (modScan f s).brg = s.brg := (rfl)
@[simp] theorem modScan_cfg (f : Scan → Scan) (s : State) : (modScan f s).cfg = s.cfg := (rfl)
@[simp] theorem modScan_dma (f : Scan → Scan) (s : State) : (modScan f s).dma = s.dma := (rfl)
@[simp] theorem modScan_pair (f : Scan → Scan) (s : State) : (modScan f s).pair = s.pair := (rfl)
@[simp] theorem modScan_boot (f : Scan → Scan) (s : State) : (modScan f s).boot = s.boot := (rfl)
@[simp] theorem modScan_sent (f : Scan → Scan) (s : State) : (modScan f s).sent = s.sent := (rfl)
@[simp] theorem modTask_pending (n : Nat) (f : Task → Task) (s : State) : (modTask n f s).pending = s.pending := (rfl)
@[simp] theorem modTask_now (n : Nat) (f : Task → Task) (s : State) : (modTask n f s).now = s.now := (rfl)
@[simp] theorem modTask_sn (n : Nat) (f : Task → Task) (s : State) : (modTask n f s).sn = s.sn := (rfl)
@[simp] theorem modTask_free (n : Nat) (f : Task → Task) (s : State) : (modTask n f s).free = s.free := (rfl)
@[simp] theorem modTask_regs (n : Nat) (f : Task → Task) (s : State) : (modTask n f s).regs = s.regs := (rfl)
@[simp] theorem modTask_mem (n : Nat) (f : Task → Task) (s : State) : (modTask n f s).mem = s.mem := (rfl)
@[simp] theorem modTask_ecc (n : Nat) (f : Task → Task) (s : State) : (modTask n f s).ecc = s.ecc := (rfl)
@[simp] theorem modTask_evtLast (n : Nat) (f : Task → Task) (s : State) : (modTask n f s).evtLast = s.evtLast := (rfl)
@[simp] theorem modTask_rshadow (n : Nat) (f : Task → Task) (s : State) : (modTask n f s).rshadow = s.rshadow := (rfl)
@[simp] theorem modTask_wshadow (n : Nat) (f : Task → Task) (s : State) : (modTask n f s).wshadow = s.wshadow := (rfl)
@[simp] theorem modTask_cores (n : Nat) (f : Task → Task) (s : State) : (modTask n f s).cores = s.cores := (rfl)
@[simp] theorem modTask_mbox (n : Nat) (f : Task → Task) (s : State) : (modTask n f s).mbox = s.mbox := (rfl)
@[simp] theorem modTask_lkp (n : Nat) (f : Task → Task) (s : State) : (modTask n f s).lkp = s.lkp := (rfl)
@[simp] theorem modTask_rot (n : Nat) (f : Task → Task) (s : State) : (modTask n f s).rot = s.rot := (rfl)
@[simp] theorem modTask_faults (n : Nat) (f : Task → Task) (s : State) : (modTask n f s).faults = s.faults := (rfl)
@[simp] theorem modTask_tmb (n : Nat) (f : Task → Task) (s : State) : (modTask n f s).tmb = s.tmb := (rfl)
@[simp] theorem modTask_fio (n : Nat) (f : Task → Task) (s : State) : (modTask n f s).fio = s.fio := (rfl)
@[simp] theorem modTask_basin (n : Nat) (f : Task → Task) (s : State) : (modTask n f s).basin = s.basin := (rfl)
@[simp] theorem modTask_eth (n : Nat) (f : Task → Task) (s : State) : (modTask n f s).eth = s.eth := (rfl)
@[simp] theorem modTask_tow (n : Nat) (f : Task → Task) (s : State) : (modTask n f s).tow = s.tow := (rfl)
@[simp] theorem modTask_can (n : Nat) (f : Task → Task) (s : State) : (modTask n f s).can = s.can := (rfl)
@[simp] theorem modTask_canClk (n : Nat) (f : Task → Task) (s : State) : (modTask n f s).canClk = s.canClk := (rfl)
@[simp] theorem modTask_btl (n : Nat) (f : Task → Task) (s : State) : (modTask n f s).btl = s.btl := (rfl)
@[simp] theorem modTask_balls (n : Nat) (f : Task → Task) (s : State) : (modTask n f s).balls = s.balls := (rfl)
@[simp] theorem modTask_wfb (n : Nat) (f : Task → Task) (s : State) : (modTask n f s).wfb = s.wfb := (rfl)
@[simp] theorem modTask_brg (n : Nat) (f : Task → Task) (s : State) : (modTask n f s).brg = s.brg := (rfl)
@[simp] theorem modTask_cfg (n : Nat) (f : Task → Task) (s : State) : (modTask n f s).cfg = s.cfg := (rfl)
@[simp] theorem modTask_dma (n : Nat) (f : Task → Task) (s : State) : (modTask n f s).dma = s.dma := (rfl)
@[simp] theorem modTask_pair (n : Nat) (f : Task → Task) (s : State) : (modTask n f s).pair = s.pair := (rfl)
@[simp] theorem modTask_boot (n : Nat) (f : Task → Task) (s : State) : (modTask n f s).boot = s.boot := (rfl)
@[simp] theorem modTask_sent (n : Nat) (f : Task → Task) (s : State) : (modTask n f s).sent = s.sent := (rfl)
@[simp] theorem modRot_rot (f : Rot → Rot) (s : State) : (modRot f s).rot = f s.rot := (rfl)
@[simp] theorem modRot_pending (f : Rot → Rot) (s : State) : (modRot f s).pending = s.pending := (rfl)
@[simp] theorem modRot_now (f : Rot → Rot) (s : State) : (modRot f s).now = s.now := (rfl)
@[simp] theorem modRot_sn (f : Rot → Rot) (s : State) : (modRot f s).sn = s.sn := (rfl)
@[simp] theorem modRot_free (f : Rot → Rot) (s : State) : (modRot f s).free = s.free := (rfl)
@[simp] theorem modRot_regs (f : Rot → Rot) (s : State) : (modRot f s).regs = s.regs := (rfl)
@[simp] theorem modRot_mem (f : Rot → Rot) (s : State) : (modRot f s).mem = s.mem := (rfl)
@[simp] theorem modRot_ecc (f : Rot → Rot) (s : State) : (modRot f s).ecc = s.ecc := (rfl)
@[simp] theorem modRot_evtLast (f : Rot → Rot) (s : State) : (modRot f s).evtLast = s.evtLast := (rfl)
@[simp] theorem modRot_rshadow (f : Rot → Rot) (s : State) : (modRot f s).rshadow = s.rshadow := (rfl)
@[simp] theorem modRot_wshadow (f : Rot → Rot) (s : State) : (modRot f s).wshadow = s.wshadow := (rfl)
@[simp] theorem modRot_cores (f : Rot → Rot) (s : State) : (modRot f s).cores = s.cores := (rfl)
@[simp] theorem modRot_mbox (f : Rot → Rot) (s : State) : (modRot f s).mbox = s.mbox := (rfl)
@[simp] theorem modRot_lkp (f : Rot → Rot) (s : State) : (modRot f s).lkp = s.lkp := (rfl)
@[simp] theorem modRot_scan (f : Rot → Rot) (s : State) : (modRot f s).scan = s.scan := (rfl)
@[simp] theorem modRot_faults (f : Rot → Rot) (s : State) : (modRot f s).faults = s.faults := (rfl)
@[simp] theorem modRot_tmb (f : Rot → Rot) (s : State) : (modRot f s).tmb = s.tmb := (rfl)
@[simp] theorem modRot_fio (f : Rot → Rot) (s : State) : (modRot f s).fio = s.fio := (rfl)
@[simp] theorem modRot_basin (f : Rot → Rot) (s : State) : (modRot f s).basin = s.basin := (rfl)
@[simp] theorem modRot_eth (f : Rot → Rot) (s : State) : (modRot f s).eth = s.eth := (rfl)
@[simp] theorem modRot_tow (f : Rot → Rot) (s : State) : (modRot f s).tow = s.tow := (rfl)
@[simp] theorem modRot_can (f : Rot → Rot) (s : State) : (modRot f s).can = s.can := (rfl)
@[simp] theorem modRot_canClk (f : Rot → Rot) (s : State) : (modRot f s).canClk = s.canClk := (rfl)
@[simp] theorem modRot_btl (f : Rot → Rot) (s : State) : (modRot f s).btl = s.btl := (rfl)
@[simp] theorem modRot_balls (f : Rot → Rot) (s : State) : (modRot f s).balls = s.balls := (rfl)
@[simp] theorem modRot_wfb (f : Rot → Rot) (s : State) : (modRot f s).wfb = s.wfb := (rfl)
@[simp] theorem modRot_brg (f : Rot → Rot) (s : State) : (modRot f s).brg = s.brg := (rfl)
@[simp] theorem modRot_cfg (f : Rot → Rot) (s : State) : (modRot f s).cfg = s.cfg := (rfl)
@[simp] theorem modRot_dma (f : Rot → Rot) (s : State) : (modRot f s).dma = s.dma := (rfl)
@[simp] theorem modRot_pair (f : Rot → Rot) (s : State) : (modRot f s).pair = s.pair := (rfl)
@[simp] theorem modRot_boot (f : Rot → Rot) (s : State) : (modRot f s).boot = s.boot := (rfl)
@[simp] theorem modRot_sent (f : Rot → Rot) (s : State) : (modRot f s).sent = s.sent := (rfl)
@[simp] theorem modFaults_faults (f : Faults → Faults) (s : State) : (modFaults f s).faults = f s.faults := (rfl)
@[simp] theorem modFaults_pending (f : Faults → Faults) (s : State) : (modFaults f s).pending = s.pending := (rfl)
@[simp] theorem modFaults_now (f : Faults → Faults) (s : State) : (modFaults f s).now = s.now := (rfl)
@[simp] theorem modFaults_sn (f : Faults → Faults) (s : State) : (modFaults f s).sn = s.sn := (rfl)
@[simp] theorem modFaults_free (f : Faults → Faults) (s : State) : (modFaults f s).free = s.free := (rfl)
@[simp] theorem modFaults_regs (f : Faults → Faults) (s : State) : (modFaults f s).regs = s.regs := (rfl)
@[simp] theorem modFaults_mem (f : Faults → Faults) (s : State) : (modFaults f s).mem = s.mem := (rfl)
@[simp] theorem modFaults_ecc (f : Faults → Faults) (s : State) : (modFaults f s).ecc = s.ecc := (rfl)
@[simp] theorem modFaults_evtLast (f : Faults → Faults) (s : State) : (modFaults f s).evtLast = s.evtLast := (rfl)
@[simp] theorem modFaults_rshadow (f : Faults → Faults) (s : State) : (modFaults f s).rshadow = s.rshadow := (rfl)
@[simp] theorem modFaults_wshadow (f : Faults → Faults) (s : State) : (modFaults f s).wshadow = s.wshadow := (rfl)
@[simp] theorem modFaults_cores (f : Faults → Faults) (s : State) : (modFaults f s).cores = s.cores := (rfl)
@[simp] theorem modFaults_mbox (f : Faults → Faults) (s : State) : (modFaults f s).mbox = s.mbox := (rfl)
@[simp] theorem modFaults_lkp (f : Faults → Faults) (s : State) : (modFaults f s).lkp = s.lkp := (rfl)
@[simp] theorem modFaults_scan (f : Faults → Faults) (s : State) : (modFaults f s).scan = s.scan := (rfl)
@[simp] theorem modFaults_rot (f : Faults → Faults) (s : State) : (modFaults f s).rot = s.rot := (rfl)
@[simp] theorem modFaults_tmb (f : Faults → Faults) (s : State) : (modFaults f s).tmb = s.tmb := (rfl)
@[simp] theorem modFaults_fio (f : Faults → Faults) (s : State) : (modFaults f s).fio = s.fio := (rfl)
@[simp] theorem modFaults_basin (f : Faults → Faults) (s : State) : (modFaults f s).basin = s.basin := (rfl)
@[simp] theorem modFaults_eth (f : Faults → Faults) (s : State) : (modFaults f s).eth = s.eth := (rfl)
@[simp] theorem modFaults_tow (f : Faults → Faults) (s : State) : (modFaults f s).tow = s.tow := (rfl)
@[simp] theorem modFaults_can (f : Faults → Faults) (s : State) : (modFaults f s).can = s.can := (rfl)
@[simp] theorem modFaults_canClk (f : Faults → Faults) (s : State) : (modFaults f s).canClk = s.canClk := (rfl)
@[simp] theorem modFaults_btl (f : Faults → Faults) (s : State) : (modFaults f s).btl = s.btl := (rfl)
@[simp] theorem modFaults_balls (f : Faults → Faults) (s : State) : (modFaults f s).balls = s.balls := (rfl)
@[simp] theorem modFaults_wfb (f : Faults → Faults) (s : State) : (modFaults f s).wfb = s.wfb := (rfl)
@[simp] theorem modFaults_brg (f : Faults → Faults) (s : State) : (modFaults f s).brg = s.brg := (rfl)
@[simp] theorem modFaults_cfg (f : Faults → Faults) (s : State) : (modFaults f s).cfg = s.cfg := (rfl)
@[simp] theorem modFaults_dma (f : Faults → Faults) (s : State) : (modFaults f s).dma = s.dma := (rfl)
@[simp] theorem modFaults_pair (f : Faults → Faults) (s : State) : (modFaults f s).pair = s.pair := (rfl)
@[simp] theorem modFaults_boot (f : Faults → Faults) (s : State) : (modFaults f s).boot = s.boot := (rfl)
@[simp] theorem modFaults_sent (f : Faults → Faults) (s : State) : (modFaults f s).sent = s.sent := (rfl)
@[simp] theorem modTmb_tmb (f : Tmb → Tmb) (s : State) : (modTmb f s).tmb = f s.tmb := (rfl)
@[simp] theorem modTmb_pending (f : Tmb → Tmb) (s : State) : (modTmb f s).pending = s.pending := (rfl)
@[simp] theorem modTmb_now (f : Tmb → Tmb) (s : State) : (modTmb f s).now = s.now := (rfl)
@[simp] theorem modTmb_sn (f : Tmb → Tmb) (s : State) : (modTmb f s).sn = s.sn := (rfl)
@[simp] theorem modTmb_free (f : Tmb → Tmb) (s : State) : (modTmb f s).free = s.free := (rfl)
@[simp] theorem modTmb_regs (f : Tmb → Tmb) (s : State) : (modTmb f s).regs = s.regs := (rfl)
@[simp] theorem modTmb_mem (f : Tmb → Tmb) (s : State) : (modTmb f s).mem = s.mem := (rfl)
@[simp] theorem modTmb_ecc (f : Tmb → Tmb) (s : State) : (modTmb f s).ecc = s.ecc := (rfl)
@[simp] theorem modTmb_evtLast (f : Tmb → Tmb) (s : State) : (modTmb f s).evtLast = s.evtLast := (rfl)
@[simp] theorem modTmb_rshadow (f : Tmb → Tmb) (s : State) : (modTmb f s).rshadow = s.rshadow := (rfl)
@[simp] theorem modTmb_wshadow (f : Tmb → Tmb) (s : State) : (modTmb f s).wshadow = s.wshadow := (rfl)
@[simp] theorem modTmb_cores (f : Tmb → Tmb) (s : State) : (modTmb f s).cores = s.cores := (rfl)
@[simp] theorem modTmb_mbox (f : Tmb → Tmb) (s : State) : (modTmb f s).mbox = s.mbox := (rfl)
@[simp] theorem modTmb_lkp (f : Tmb → Tmb) (s : State) : (modTmb f s).lkp = s.lkp := (rfl)
@[simp] theorem modTmb_scan (f : Tmb → Tmb) (s : State) : (modTmb f s).scan = s.scan := (rfl)
@[simp] theorem modTmb_rot (f : Tmb → Tmb) (s : State) : (modTmb f s).rot = s.rot := (rfl)
@[simp] theorem modTmb_faults (f : Tmb → Tmb) (s : State) : (modTmb f s).faults = s.faults := (rfl)
@[simp] theorem modTmb_fio (f : Tmb → Tmb) (s : State) : (modTmb f s).fio = s.fio := (rfl)
@[simp] theorem modTmb_basin (f : Tmb → Tmb) (s : State) : (modTmb f s).basin = s.basin := (rfl)
@[simp] theorem modTmb_eth (f : Tmb → Tmb) (s : State) : (modTmb f s).eth = s.eth := (rfl)
@[simp] theorem modTmb_tow (f : Tmb → Tmb) (s : State) : (modTmb f s).tow = s.tow := (rfl)
@[simp] theorem modTmb_can (f : Tmb → Tmb) (s : State) : (modTmb f s).can = s.can := (rfl)
@[simp] theorem modTmb_canClk (f : Tmb → Tmb) (s : State) : (modTmb f s).canClk = s.canClk := (rfl)
@[simp] theorem modTmb_btl (f : Tmb → Tmb) (s : State) : (modTmb f s).btl = s.btl := (rfl)
@[simp] theorem modTmb_balls (f : Tmb → Tmb) (s : State) : (modTmb f s).balls = s.balls := (rfl)
@[simp] theorem modTmb_wfb (f : Tmb → Tmb) (s : State) : (modTmb f s).wfb = s.wfb := (rfl)
@[simp] theorem modTmb_brg (f : Tmb → Tmb) (s : State) : (modTmb f s).brg = s.brg := (rfl)
@[simp] theorem modTmb_cfg (f : Tmb → Tmb) (s : State) : (modTmb f s).cfg = s.cfg := (rfl)
@[simp] theorem modTmb_dma (f : Tmb → Tmb) (s : State) : (modTmb f s).dma = s.dma := (rfl)
@[simp] theorem modTmb_pair (f : Tmb → Tmb) (s : State) : (modTmb f s).pair = s.pair := (rfl)
@[simp] theorem modTmb_boot (f : Tmb → Tmb) (s : State) : (modTmb f s).boot = s.boot := (rfl)
@[simp] theorem modTmb_sent (f : Tmb → Tmb) (s : State) : (modTmb f s).sent = s.sent := (rfl)
@[simp] theorem modFio_fio (f : Fio → Fio) (s : State) : (modFio f s).fio = f s.fio := (rfl)
@[simp] theorem modFio_pending (f : Fio → Fio) (s : State) : (modFio f s).pending = s.pending := (rfl)
@[simp] theorem modFio_now (f : Fio → Fio) (s : State) : (modFio f s).now = s.now := (rfl)
@[simp] theorem modFio_sn (f : Fio → Fio) (s : State) : (modFio f s).sn = s.sn := (rfl)
@[simp] theorem modFio_free (f : Fio → Fio) (s : State) : (modFio f s).free = s.free := (rfl)
@[simp] theorem modFio_regs (f : Fio → Fio) (s : State) : (modFio f s).regs = s.regs := (rfl)
@[simp] theorem modFio_mem (f : Fio → Fio) (s : State) : (modFio f s).mem = s.mem := (rfl)
@[simp] theorem modFio_ecc (f : Fio → Fio) (s : State) : (modFio f s).ecc = s.ecc := (rfl)
@[simp] theorem modFio_evtLast (f : Fio → Fio) (s : State) : (modFio f s).evtLast = s.evtLast := (rfl)
@[simp] theorem modFio_rshadow (f : Fio → Fio) (s : State) : (modFio f s).rshadow = s.rshadow := (rfl)
@[simp] theorem modFio_wshadow (f : Fio → Fio) (s : State) : (modFio f s).wshadow = s.wshadow := (rfl)
@[simp] theorem modFio_cores (f : Fio → Fio) (s : State) : (modFio f s).cores = s.cores := (rfl)
@[simp] theorem modFio_mbox (f : Fio → Fio) (s : State) : (modFio f s).mbox = s.mbox := (rfl)
@[simp] theorem modFio_lkp (f : Fio → Fio) (s : State) : (modFio f s).lkp = s.lkp := (rfl)
@[simp] theorem modFio_scan (f : Fio → Fio) (s : State) : (modFio f s).scan = s.scan := (rfl)
@[simp] theorem modFio_rot (f : Fio → Fio) (s : State) : (modFio f s).rot = s.rot := (rfl)
@[simp] theorem modFio_faults (f : Fio → Fio) (s : State) : (modFio f s).faults = s.faults := (rfl)
@[simp] theorem modFio_tmb (f : Fio → Fio) (s : State) : (modFio f s).tmb = s.tmb := (rfl)
@[simp] theorem modFio_basin (f : Fio → Fio) (s : State) : (modFio f s).basin = s.basin := (rfl)
@[simp] theorem modFio_eth (f : Fio → Fio) (s : State) : (modFio f s).eth = s.eth := (rfl)
@[simp] theorem modFio_tow (f : Fio → Fio) (s : State) : (modFio f s).tow = s.tow := (rfl)
@[simp] theorem modFio_can (f : Fio → Fio) (s : State) : (modFio f s).can = s.can := (rfl)
@[simp] theorem modFio_canClk (f : Fio → Fio) (s : State) : (modFio f s).canClk = s.canClk := (rfl)
@[simp] theorem modFio_btl (f : Fio → Fio) (s : State) : (modFio f s).btl = s.btl := (rfl)
@[simp] theorem modFio_balls (f : Fio → Fio) (s : State) : (modFio f s).balls = s.balls := (rfl)
@[simp] theorem modFio_wfb (f : Fio → Fio) (s : State) : (modFio f s).wfb = s.wfb := (rfl)
@[simp] theorem modFio_brg (f : Fio → Fio) (s : State) : (modFio f s).brg = s.brg := (rfl)
@[simp] theorem modFio_cfg (f : Fio → Fio) (s : State) : (modFio f s).cfg = s.cfg := (rfl)
@[simp] theorem modFio_dma (f : Fio → Fio) (s : State) : (modFio f s).dma = s.dma := (rfl)
@[simp] theorem modFio_pair (f : Fio → Fio) (s : State) : (modFio f s).pair = s.pair := (rfl)
@[simp] theorem modFio_boot (f : Fio → Fio) (s : State) : (modFio f s).boot = s.boot := (rfl)
@[simp] theorem modFio_sent (f : Fio → Fio) (s : State) : (modFio f s).sent = s.sent := (rfl)
@[simp] theorem modBasin_basin (f : Basin → Basin) (s : State) : (modBasin f s).basin = f s.basin := (rfl)
@[simp] theorem modBasin_pending (f : Basin → Basin) (s : State) : (modBasin f s).pending = s.pending := (rfl)
@[simp] theorem modBasin_now (f : Basin → Basin) (s : State) : (modBasin f s).now = s.now := (rfl)
@[simp] theorem modBasin_sn (f : Basin → Basin) (s : State) : (modBasin f s).sn = s.sn := (rfl)
@[simp] theorem modBasin_free (f : Basin → Basin) (s : State) : (modBasin f s).free = s.free := (rfl)
@[simp] theorem modBasin_regs (f : Basin → Basin) (s : State) : (modBasin f s).regs = s.regs := (rfl)
@[simp] theorem modBasin_mem (f : Basin → Basin) (s : State) : (modBasin f s).mem = s.mem := (rfl)
@[simp] theorem modBasin_ecc (f : Basin → Basin) (s : State) : (modBasin f s).ecc = s.ecc := (rfl)
@[simp] theorem modBasin_evtLast (f : Basin → Basin) (s : State) : (modBasin f s).evtLast = s.evtLast := (rfl)
@[simp] theorem modBasin_rshadow (f : Basin → Basin) (s : State) : (modBasin f s).rshadow = s.rshadow := (rfl)
@[simp] theorem modBasin_wshadow (f : Basin → Basin) (s : State) : (modBasin f s).wshadow = s.wshadow := (rfl)
@[simp] theorem modBasin_cores (f : Basin → Basin) (s : State) : (modBasin f s).cores = s.cores := (rfl)
@[simp] theorem modBasin_mbox (f : Basin → Basin) (s : State) : (modBasin f s).mbox = s.mbox := (rfl)
@[simp] theorem modBasin_lkp (f : Basin → Basin) (s : State) : (modBasin f s).lkp = s.lkp := (rfl)
@[simp] theorem modBasin_scan (f : Basin → Basin) (s : State) : (modBasin f s).scan = s.scan := (rfl)
@[simp] theorem modBasin_rot (f : Basin → Basin) (s : State) : (modBasin f s).rot = s.rot := (rfl)
@[simp] theorem modBasin_faults (f : Basin → Basin) (s : State) : (modBasin f s).faults = s.faults := (rfl)
@[simp] theorem modBasin_tmb (f : Basin → Basin) (s : State) : (modBasin f s).tmb = s.tmb := (rfl)
@[simp] theorem modBasin_fio (f : Basin → Basin) (s : State) : (modBasin f s).fio = s.fio := (rfl)
@[simp] theorem modBasin_eth (f : Basin → Basin) (s : State) : (modBasin f s).eth = s.eth := (rfl)
@[simp] theorem modBasin_tow (f : Basin → Basin) (s : State) : (modBasin f s).tow = s.tow := (rfl)
@[simp] theorem modBasin_can (f : Basin → Basin) (s : State) : (modBasin f s).can = s.can := (rfl)
@[simp] theorem modBasin_canClk (f : Basin → Basin) (s : State) : (modBasin f s).canClk = s.canClk := (rfl)
@[simp] theorem modBasin_btl (f : Basin → Basin) (s : State) : (modBasin f s).btl = s.btl := (rfl)
@[simp] theorem modBasin_balls (f : Basin → Basin) (s : State) : (modBasin f s).balls = s.balls := (rfl)
@[simp] theorem modBasin_wfb (f : Basin → Basin) (s : State) : (modBasin f s).wfb = s.wfb := (rfl)
@[simp] theorem modBasin_brg (f : Basin → Basin) (s : State) : (modBasin f s).brg = s.brg := (rfl)
@[simp] theorem modBasin_cfg (f : Basin → Basin) (s : State) : (modBasin f s).cfg = s.cfg := (rfl)
@[simp] theorem modBasin_dma (f : Basin → Basin) (s : State) : (modBasin f s).dma = s.dma := (rfl)
@[simp] theorem modBasin_pair (f : Basin → Basin) (s : State) : (modBasin f s).pair = s.pair := (rfl)
@[simp] theorem modBasin_boot (f : Basin → Basin) (s : State) : (modBasin f s).boot = s.boot := (rfl)
@[simp] theorem modBasin_sent (f : Basin → Basin) (s : State) : (modBasin f s).sent = s.sent := (rfl)
@[simp] theorem modPort_eth (n : Nat) (f : EthPort → EthPort) (s : State) : (modPort n f s).eth = vset s.eth n (f (vget s.eth n)) := (rfl)
@[simp] theorem modPort_pending (n : Nat) (f : EthPort → EthPort) (s : State) : (modPort n f s).pending = s.pending := (rfl)
@[simp] theorem modPort_now (n : Nat) (f : EthPort → EthPort) (s : State) : (modPort n f s).now = s.now := (rfl)
@[simp] theorem modPort_sn (n : Nat) (f : EthPort → EthPort) (s : State) : (modPort n f s).sn = s.sn := (rfl)
@[simp] theorem modPort_free (n : Nat) (f : EthPort → EthPort) (s : State) : (modPort n f s).free = s.free := (rfl)
@[simp] theorem modPort_regs (n : Nat) (f : EthPort → EthPort) (s : State) : (modPort n f s).regs = s.regs := (rfl)
@[simp] theorem modPort_mem (n : Nat) (f : EthPort → EthPort) (s : State) : (modPort n f s).mem = s.mem := (rfl)
@[simp] theorem modPort_ecc (n : Nat) (f : EthPort → EthPort) (s : State) : (modPort n f s).ecc = s.ecc := (rfl)
@[simp] theorem modPort_evtLast (n : Nat) (f : EthPort → EthPort) (s : State) : (modPort n f s).evtLast = s.evtLast := (rfl)
@[simp] theorem modPort_rshadow (n : Nat) (f : EthPort → EthPort) (s : State) : (modPort n f s).rshadow = s.rshadow := (rfl)
@[simp] theorem modPort_wshadow (n : Nat) (f : EthPort → EthPort) (s : State) : (modPort n f s).wshadow = s.wshadow := (rfl)
@[simp] theorem modPort_cores (n : Nat) (f : EthPort → EthPort) (s : State) : (modPort n f s).cores = s.cores := (rfl)
@[simp] theorem modPort_mbox (n : Nat) (f : EthPort → EthPort) (s : State) : (modPort n f s).mbox = s.mbox := (rfl)
@[simp] theorem modPort_lkp (n : Nat) (f : EthPort → EthPort) (s : State) : (modPort n f s).lkp = s.lkp := (rfl)
@[simp] theorem modPort_scan (n : Nat) (f : EthPort → EthPort) (s : State) : (modPort n f s).scan = s.scan := (rfl)
@[simp] theorem modPort_rot (n : Nat) (f : EthPort → EthPort) (s : State) : (modPort n f s).rot = s.rot := (rfl)
@[simp] theorem modPort_faults (n : Nat) (f : EthPort → EthPort) (s : State) : (modPort n f s).faults = s.faults := (rfl)
@[simp] theorem modPort_tmb (n : Nat) (f : EthPort → EthPort) (s : State) : (modPort n f s).tmb = s.tmb := (rfl)
@[simp] theorem modPort_fio (n : Nat) (f : EthPort → EthPort) (s : State) : (modPort n f s).fio = s.fio := (rfl)
@[simp] theorem modPort_basin (n : Nat) (f : EthPort → EthPort) (s : State) : (modPort n f s).basin = s.basin := (rfl)
@[simp] theorem modPort_tow (n : Nat) (f : EthPort → EthPort) (s : State) : (modPort n f s).tow = s.tow := (rfl)
@[simp] theorem modPort_can (n : Nat) (f : EthPort → EthPort) (s : State) : (modPort n f s).can = s.can := (rfl)
@[simp] theorem modPort_canClk (n : Nat) (f : EthPort → EthPort) (s : State) : (modPort n f s).canClk = s.canClk := (rfl)
@[simp] theorem modPort_btl (n : Nat) (f : EthPort → EthPort) (s : State) : (modPort n f s).btl = s.btl := (rfl)
@[simp] theorem modPort_balls (n : Nat) (f : EthPort → EthPort) (s : State) : (modPort n f s).balls = s.balls := (rfl)
@[simp] theorem modPort_wfb (n : Nat) (f : EthPort → EthPort) (s : State) : (modPort n f s).wfb = s.wfb := (rfl)
@[simp] theorem modPort_brg (n : Nat) (f : EthPort → EthPort) (s : State) : (modPort n f s).brg = s.brg := (rfl)
@[simp] theorem modPort_cfg (n : Nat) (f : EthPort → EthPort) (s : State) : (modPort n f s).cfg = s.cfg := (rfl)
@[simp] theorem modPort_dma (n : Nat) (f : EthPort → EthPort) (s : State) : (modPort n f s).dma = s.dma := (rfl)
@[simp] theorem modPort_pair (n : Nat) (f : EthPort → EthPort) (s : State) : (modPort n f s).pair = s.pair := (rfl)
@[simp] theorem modPort_boot (n : Nat) (f : EthPort → EthPort) (s : State) : (modPort n f s).boot = s.boot := (rfl)
@[simp] theorem modPort_sent (n : Nat) (f : EthPort → EthPort) (s : State) : (modPort n f s).sent = s.sent := (rfl)
@[simp] theorem modTow_tow (f : Tow → Tow) (s : State) : (modTow f s).tow = f s.tow := (rfl)
@[simp] theorem modTow_pending (f : Tow → Tow) (s : State) : (modTow f s).pending = s.pending := (rfl)
@[simp] theorem modTow_now (f : Tow → Tow) (s : State) : (modTow f s).now = s.now := (rfl)
@[simp] theorem modTow_sn (f : Tow → Tow) (s : State) : (modTow f s).sn = s.sn := (rfl)
@[simp] theorem modTow_free (f : Tow → Tow) (s : State) : (modTow f s).free = s.free := (rfl)
@[simp] theorem modTow_regs (f : Tow → Tow) (s : State) : (modTow f s).regs = s.regs := (rfl)
@[simp] theorem modTow_mem (f : Tow → Tow) (s : State) : (modTow f s).mem = s.mem := (rfl)
@[simp] theorem modTow_ecc (f : Tow → Tow) (s : State) : (modTow f s).ecc = s.ecc := (rfl)
@[simp] theorem modTow_evtLast (f : Tow → Tow) (s : State) : (modTow f s).evtLast = s.evtLast := (rfl)
@[simp] theorem modTow_rshadow (f : Tow → Tow) (s : State) : (modTow f s).rshadow = s.rshadow := (rfl)
@[simp] theorem modTow_wshadow (f : Tow → Tow) (s : State) : (modTow f s).wshadow = s.wshadow := (rfl)
@[simp] theorem modTow_cores (f : Tow → Tow) (s : State) : (modTow f s).cores = s.cores := (rfl)
@[simp] theorem modTow_mbox (f : Tow → Tow) (s : State) : (modTow f s).mbox = s.mbox := (rfl)
@[simp] theorem modTow_lkp (f : Tow → Tow) (s : State) : (modTow f s).lkp = s.lkp := (rfl)
@[simp] theorem modTow_scan (f : Tow → Tow) (s : State) : (modTow f s).scan = s.scan := (rfl)
@[simp] theorem modTow_rot (f : Tow → Tow) (s : State) : (modTow f s).rot = s.rot := (rfl)
@[simp] theorem modTow_faults (f : Tow → Tow) (s : State) : (modTow f s).faults = s.faults := (rfl)
@[simp] theorem modTow_tmb (f : Tow → Tow) (s : State) : (modTow f s).tmb = s.tmb := (rfl)
@[simp] theorem modTow_fio (f : Tow → Tow) (s : State) : (modTow f s).fio = s.fio := (rfl)
@[simp] theorem modTow_basin (f : Tow → Tow) (s : State) : (modTow f s).basin = s.basin := (rfl)
@[simp] theorem modTow_eth (f : Tow → Tow) (s : State) : (modTow f s).eth = s.eth := (rfl)
@[simp] theorem modTow_can (f : Tow → Tow) (s : State) : (modTow f s).can = s.can := (rfl)
@[simp] theorem modTow_canClk (f : Tow → Tow) (s : State) : (modTow f s).canClk = s.canClk := (rfl)
@[simp] theorem modTow_btl (f : Tow → Tow) (s : State) : (modTow f s).btl = s.btl := (rfl)
@[simp] theorem modTow_balls (f : Tow → Tow) (s : State) : (modTow f s).balls = s.balls := (rfl)
@[simp] theorem modTow_wfb (f : Tow → Tow) (s : State) : (modTow f s).wfb = s.wfb := (rfl)
@[simp] theorem modTow_brg (f : Tow → Tow) (s : State) : (modTow f s).brg = s.brg := (rfl)
@[simp] theorem modTow_cfg (f : Tow → Tow) (s : State) : (modTow f s).cfg = s.cfg := (rfl)
@[simp] theorem modTow_dma (f : Tow → Tow) (s : State) : (modTow f s).dma = s.dma := (rfl)
@[simp] theorem modTow_pair (f : Tow → Tow) (s : State) : (modTow f s).pair = s.pair := (rfl)
@[simp] theorem modTow_boot (f : Tow → Tow) (s : State) : (modTow f s).boot = s.boot := (rfl)
@[simp] theorem modTow_sent (f : Tow → Tow) (s : State) : (modTow f s).sent = s.sent := (rfl)
@[simp] theorem modStn_pending (n : Nat) (f : Station → Station) (s : State) : (modStn n f s).pending = s.pending := (rfl)
@[simp] theorem modStn_now (n : Nat) (f : Station → Station) (s : State) : (modStn n f s).now = s.now := (rfl)
@[simp] theorem modStn_sn (n : Nat) (f : Station → Station) (s : State) : (modStn n f s).sn = s.sn := (rfl)
@[simp] theorem modStn_free (n : Nat) (f : Station → Station) (s : State) : (modStn n f s).free = s.free := (rfl)
@[simp] theorem modStn_regs (n : Nat) (f : Station → Station) (s : State) : (modStn n f s).regs = s.regs := (rfl)
@[simp] theorem modStn_mem (n : Nat) (f : Station → Station) (s : State) : (modStn n f s).mem = s.mem := (rfl)
@[simp] theorem modStn_ecc (n : Nat) (f : Station → Station) (s : State) : (modStn n f s).ecc = s.ecc := (rfl)
@[simp] theorem modStn_evtLast (n : Nat) (f : Station → Station) (s : State) : (modStn n f s).evtLast = s.evtLast := (rfl)
@[simp] theorem modStn_rshadow (n : Nat) (f : Station → Station) (s : State) : (modStn n f s).rshadow = s.rshadow := (rfl)
@[simp] theorem modStn_wshadow (n : Nat) (f : Station → Station) (s : State) : (modStn n f s).wshadow = s.wshadow := (rfl)
@[simp] theorem modStn_cores (n : Nat) (f : Station → Station) (s : State) : (modStn n f s).cores = s.cores := (rfl)
@[simp] theorem modStn_mbox (n : Nat) (f : Station → Station) (s : State) : (modStn n f s).mbox = s.mbox := (rfl)
@[simp] theorem modStn_lkp (n : Nat) (f : Station → Station) (s : State) : (modStn n f s).lkp = s.lkp := (rfl)
@[simp] theorem modStn_scan (n : Nat) (f : Station → Station) (s : State) : (modStn n f s).scan = s.scan := (rfl)
@[simp] theorem modStn_rot (n : Nat) (f : Station → Station) (s : State) : (modStn n f s).rot = s.rot := (rfl)
@[simp] theorem modStn_faults (n : Nat) (f : Station → Station) (s : State) : (modStn n f s).faults = s.faults := (rfl)
@[simp] theorem modStn_tmb (n : Nat) (f : Station → Station) (s : State) : (modStn n f s).tmb = s.tmb := (rfl)
@[simp] theorem modStn_fio (n : Nat) (f : Station → Station) (s : State) : (modStn n f s).fio = s.fio := (rfl)
@[simp] theorem modStn_basin (n : Nat) (f : Station → Station) (s : State) : (modStn n f s).basin = s.basin := (rfl)
@[simp] theorem modStn_eth (n : Nat) (f : Station → Station) (s : State) : (modStn n f s).eth = s.eth := (rfl)
@[simp] theorem modStn_can (n : Nat) (f : Station → Station) (s : State) : (modStn n f s).can = s.can := (rfl)
@[simp] theorem modStn_canClk (n : Nat) (f : Station → Station) (s : State) : (modStn n f s).canClk = s.canClk := (rfl)
@[simp] theorem modStn_btl (n : Nat) (f : Station → Station) (s : State) : (modStn n f s).btl = s.btl := (rfl)
@[simp] theorem modStn_balls (n : Nat) (f : Station → Station) (s : State) : (modStn n f s).balls = s.balls := (rfl)
@[simp] theorem modStn_wfb (n : Nat) (f : Station → Station) (s : State) : (modStn n f s).wfb = s.wfb := (rfl)
@[simp] theorem modStn_brg (n : Nat) (f : Station → Station) (s : State) : (modStn n f s).brg = s.brg := (rfl)
@[simp] theorem modStn_cfg (n : Nat) (f : Station → Station) (s : State) : (modStn n f s).cfg = s.cfg := (rfl)
@[simp] theorem modStn_dma (n : Nat) (f : Station → Station) (s : State) : (modStn n f s).dma = s.dma := (rfl)
@[simp] theorem modStn_pair (n : Nat) (f : Station → Station) (s : State) : (modStn n f s).pair = s.pair := (rfl)
@[simp] theorem modStn_boot (n : Nat) (f : Station → Station) (s : State) : (modStn n f s).boot = s.boot := (rfl)
@[simp] theorem modStn_sent (n : Nat) (f : Station → Station) (s : State) : (modStn n f s).sent = s.sent := (rfl)
@[simp] theorem modCan_can (n : Nat) (f : CanPort → CanPort) (s : State) : (modCan n f s).can = vset s.can n (f (vget s.can n)) := (rfl)
@[simp] theorem modCan_pending (n : Nat) (f : CanPort → CanPort) (s : State) : (modCan n f s).pending = s.pending := (rfl)
@[simp] theorem modCan_now (n : Nat) (f : CanPort → CanPort) (s : State) : (modCan n f s).now = s.now := (rfl)
@[simp] theorem modCan_sn (n : Nat) (f : CanPort → CanPort) (s : State) : (modCan n f s).sn = s.sn := (rfl)
@[simp] theorem modCan_free (n : Nat) (f : CanPort → CanPort) (s : State) : (modCan n f s).free = s.free := (rfl)
@[simp] theorem modCan_regs (n : Nat) (f : CanPort → CanPort) (s : State) : (modCan n f s).regs = s.regs := (rfl)
@[simp] theorem modCan_mem (n : Nat) (f : CanPort → CanPort) (s : State) : (modCan n f s).mem = s.mem := (rfl)
@[simp] theorem modCan_ecc (n : Nat) (f : CanPort → CanPort) (s : State) : (modCan n f s).ecc = s.ecc := (rfl)
@[simp] theorem modCan_evtLast (n : Nat) (f : CanPort → CanPort) (s : State) : (modCan n f s).evtLast = s.evtLast := (rfl)
@[simp] theorem modCan_rshadow (n : Nat) (f : CanPort → CanPort) (s : State) : (modCan n f s).rshadow = s.rshadow := (rfl)
@[simp] theorem modCan_wshadow (n : Nat) (f : CanPort → CanPort) (s : State) : (modCan n f s).wshadow = s.wshadow := (rfl)
@[simp] theorem modCan_cores (n : Nat) (f : CanPort → CanPort) (s : State) : (modCan n f s).cores = s.cores := (rfl)
@[simp] theorem modCan_mbox (n : Nat) (f : CanPort → CanPort) (s : State) : (modCan n f s).mbox = s.mbox := (rfl)
@[simp] theorem modCan_lkp (n : Nat) (f : CanPort → CanPort) (s : State) : (modCan n f s).lkp = s.lkp := (rfl)
@[simp] theorem modCan_scan (n : Nat) (f : CanPort → CanPort) (s : State) : (modCan n f s).scan = s.scan := (rfl)
@[simp] theorem modCan_rot (n : Nat) (f : CanPort → CanPort) (s : State) : (modCan n f s).rot = s.rot := (rfl)
@[simp] theorem modCan_faults (n : Nat) (f : CanPort → CanPort) (s : State) : (modCan n f s).faults = s.faults := (rfl)
@[simp] theorem modCan_tmb (n : Nat) (f : CanPort → CanPort) (s : State) : (modCan n f s).tmb = s.tmb := (rfl)
@[simp] theorem modCan_fio (n : Nat) (f : CanPort → CanPort) (s : State) : (modCan n f s).fio = s.fio := (rfl)
@[simp] theorem modCan_basin (n : Nat) (f : CanPort → CanPort) (s : State) : (modCan n f s).basin = s.basin := (rfl)
@[simp] theorem modCan_eth (n : Nat) (f : CanPort → CanPort) (s : State) : (modCan n f s).eth = s.eth := (rfl)
@[simp] theorem modCan_tow (n : Nat) (f : CanPort → CanPort) (s : State) : (modCan n f s).tow = s.tow := (rfl)
@[simp] theorem modCan_canClk (n : Nat) (f : CanPort → CanPort) (s : State) : (modCan n f s).canClk = s.canClk := (rfl)
@[simp] theorem modCan_btl (n : Nat) (f : CanPort → CanPort) (s : State) : (modCan n f s).btl = s.btl := (rfl)
@[simp] theorem modCan_balls (n : Nat) (f : CanPort → CanPort) (s : State) : (modCan n f s).balls = s.balls := (rfl)
@[simp] theorem modCan_wfb (n : Nat) (f : CanPort → CanPort) (s : State) : (modCan n f s).wfb = s.wfb := (rfl)
@[simp] theorem modCan_brg (n : Nat) (f : CanPort → CanPort) (s : State) : (modCan n f s).brg = s.brg := (rfl)
@[simp] theorem modCan_cfg (n : Nat) (f : CanPort → CanPort) (s : State) : (modCan n f s).cfg = s.cfg := (rfl)
@[simp] theorem modCan_dma (n : Nat) (f : CanPort → CanPort) (s : State) : (modCan n f s).dma = s.dma := (rfl)
@[simp] theorem modCan_pair (n : Nat) (f : CanPort → CanPort) (s : State) : (modCan n f s).pair = s.pair := (rfl)
@[simp] theorem modCan_boot (n : Nat) (f : CanPort → CanPort) (s : State) : (modCan n f s).boot = s.boot := (rfl)
@[simp] theorem modCan_sent (n : Nat) (f : CanPort → CanPort) (s : State) : (modCan n f s).sent = s.sent := (rfl)
@[simp] theorem modEng_btl (n : Nat) (f : Engine → Engine) (s : State) : (modEng n f s).btl = vset s.btl n (f (vget s.btl n)) := (rfl)
@[simp] theorem modEng_pending (n : Nat) (f : Engine → Engine) (s : State) : (modEng n f s).pending = s.pending := (rfl)
@[simp] theorem modEng_now (n : Nat) (f : Engine → Engine) (s : State) : (modEng n f s).now = s.now := (rfl)
@[simp] theorem modEng_sn (n : Nat) (f : Engine → Engine) (s : State) : (modEng n f s).sn = s.sn := (rfl)
@[simp] theorem modEng_free (n : Nat) (f : Engine → Engine) (s : State) : (modEng n f s).free = s.free := (rfl)
@[simp] theorem modEng_regs (n : Nat) (f : Engine → Engine) (s : State) : (modEng n f s).regs = s.regs := (rfl)
@[simp] theorem modEng_mem (n : Nat) (f : Engine → Engine) (s : State) : (modEng n f s).mem = s.mem := (rfl)
@[simp] theorem modEng_ecc (n : Nat) (f : Engine → Engine) (s : State) : (modEng n f s).ecc = s.ecc := (rfl)
@[simp] theorem modEng_evtLast (n : Nat) (f : Engine → Engine) (s : State) : (modEng n f s).evtLast = s.evtLast := (rfl)
@[simp] theorem modEng_rshadow (n : Nat) (f : Engine → Engine) (s : State) : (modEng n f s).rshadow = s.rshadow := (rfl)
@[simp] theorem modEng_wshadow (n : Nat) (f : Engine → Engine) (s : State) : (modEng n f s).wshadow = s.wshadow := (rfl)
@[simp] theorem modEng_cores (n : Nat) (f : Engine → Engine) (s : State) : (modEng n f s).cores = s.cores := (rfl)
@[simp] theorem modEng_mbox (n : Nat) (f : Engine → Engine) (s : State) : (modEng n f s).mbox = s.mbox := (rfl)
@[simp] theorem modEng_lkp (n : Nat) (f : Engine → Engine) (s : State) : (modEng n f s).lkp = s.lkp := (rfl)
@[simp] theorem modEng_scan (n : Nat) (f : Engine → Engine) (s : State) : (modEng n f s).scan = s.scan := (rfl)
@[simp] theorem modEng_rot (n : Nat) (f : Engine → Engine) (s : State) : (modEng n f s).rot = s.rot := (rfl)
@[simp] theorem modEng_faults (n : Nat) (f : Engine → Engine) (s : State) : (modEng n f s).faults = s.faults := (rfl)
@[simp] theorem modEng_tmb (n : Nat) (f : Engine → Engine) (s : State) : (modEng n f s).tmb = s.tmb := (rfl)
@[simp] theorem modEng_fio (n : Nat) (f : Engine → Engine) (s : State) : (modEng n f s).fio = s.fio := (rfl)
@[simp] theorem modEng_basin (n : Nat) (f : Engine → Engine) (s : State) : (modEng n f s).basin = s.basin := (rfl)
@[simp] theorem modEng_eth (n : Nat) (f : Engine → Engine) (s : State) : (modEng n f s).eth = s.eth := (rfl)
@[simp] theorem modEng_tow (n : Nat) (f : Engine → Engine) (s : State) : (modEng n f s).tow = s.tow := (rfl)
@[simp] theorem modEng_can (n : Nat) (f : Engine → Engine) (s : State) : (modEng n f s).can = s.can := (rfl)
@[simp] theorem modEng_canClk (n : Nat) (f : Engine → Engine) (s : State) : (modEng n f s).canClk = s.canClk := (rfl)
@[simp] theorem modEng_balls (n : Nat) (f : Engine → Engine) (s : State) : (modEng n f s).balls = s.balls := (rfl)
@[simp] theorem modEng_wfb (n : Nat) (f : Engine → Engine) (s : State) : (modEng n f s).wfb = s.wfb := (rfl)
@[simp] theorem modEng_brg (n : Nat) (f : Engine → Engine) (s : State) : (modEng n f s).brg = s.brg := (rfl)
@[simp] theorem modEng_cfg (n : Nat) (f : Engine → Engine) (s : State) : (modEng n f s).cfg = s.cfg := (rfl)
@[simp] theorem modEng_dma (n : Nat) (f : Engine → Engine) (s : State) : (modEng n f s).dma = s.dma := (rfl)
@[simp] theorem modEng_pair (n : Nat) (f : Engine → Engine) (s : State) : (modEng n f s).pair = s.pair := (rfl)
@[simp] theorem modEng_boot (n : Nat) (f : Engine → Engine) (s : State) : (modEng n f s).boot = s.boot := (rfl)
@[simp] theorem modEng_sent (n : Nat) (f : Engine → Engine) (s : State) : (modEng n f s).sent = s.sent := (rfl)
@[simp] theorem modWfb_wfb (f : Wfb → Wfb) (s : State) : (modWfb f s).wfb = f s.wfb := (rfl)
@[simp] theorem modWfb_pending (f : Wfb → Wfb) (s : State) : (modWfb f s).pending = s.pending := (rfl)
@[simp] theorem modWfb_now (f : Wfb → Wfb) (s : State) : (modWfb f s).now = s.now := (rfl)
@[simp] theorem modWfb_sn (f : Wfb → Wfb) (s : State) : (modWfb f s).sn = s.sn := (rfl)
@[simp] theorem modWfb_free (f : Wfb → Wfb) (s : State) : (modWfb f s).free = s.free := (rfl)
@[simp] theorem modWfb_regs (f : Wfb → Wfb) (s : State) : (modWfb f s).regs = s.regs := (rfl)
@[simp] theorem modWfb_mem (f : Wfb → Wfb) (s : State) : (modWfb f s).mem = s.mem := (rfl)
@[simp] theorem modWfb_ecc (f : Wfb → Wfb) (s : State) : (modWfb f s).ecc = s.ecc := (rfl)
@[simp] theorem modWfb_evtLast (f : Wfb → Wfb) (s : State) : (modWfb f s).evtLast = s.evtLast := (rfl)
@[simp] theorem modWfb_rshadow (f : Wfb → Wfb) (s : State) : (modWfb f s).rshadow = s.rshadow := (rfl)
@[simp] theorem modWfb_wshadow (f : Wfb → Wfb) (s : State) : (modWfb f s).wshadow = s.wshadow := (rfl)
@[simp] theorem modWfb_cores (f : Wfb → Wfb) (s : State) : (modWfb f s).cores = s.cores := (rfl)
@[simp] theorem modWfb_mbox (f : Wfb → Wfb) (s : State) : (modWfb f s).mbox = s.mbox := (rfl)
@[simp] theorem modWfb_lkp (f : Wfb → Wfb) (s : State) : (modWfb f s).lkp = s.lkp := (rfl)
@[simp] theorem modWfb_scan (f : Wfb → Wfb) (s : State) : (modWfb f s).scan = s.scan := (rfl)
@[simp] theorem modWfb_rot (f : Wfb → Wfb) (s : State) : (modWfb f s).rot = s.rot := (rfl)
@[simp] theorem modWfb_faults (f : Wfb → Wfb) (s : State) : (modWfb f s).faults = s.faults := (rfl)
@[simp] theorem modWfb_tmb (f : Wfb → Wfb) (s : State) : (modWfb f s).tmb = s.tmb := (rfl)
@[simp] theorem modWfb_fio (f : Wfb → Wfb) (s : State) : (modWfb f s).fio = s.fio := (rfl)
@[simp] theorem modWfb_basin (f : Wfb → Wfb) (s : State) : (modWfb f s).basin = s.basin := (rfl)
@[simp] theorem modWfb_eth (f : Wfb → Wfb) (s : State) : (modWfb f s).eth = s.eth := (rfl)
@[simp] theorem modWfb_tow (f : Wfb → Wfb) (s : State) : (modWfb f s).tow = s.tow := (rfl)
@[simp] theorem modWfb_can (f : Wfb → Wfb) (s : State) : (modWfb f s).can = s.can := (rfl)
@[simp] theorem modWfb_canClk (f : Wfb → Wfb) (s : State) : (modWfb f s).canClk = s.canClk := (rfl)
@[simp] theorem modWfb_btl (f : Wfb → Wfb) (s : State) : (modWfb f s).btl = s.btl := (rfl)
@[simp] theorem modWfb_balls (f : Wfb → Wfb) (s : State) : (modWfb f s).balls = s.balls := (rfl)
@[simp] theorem modWfb_brg (f : Wfb → Wfb) (s : State) : (modWfb f s).brg = s.brg := (rfl)
@[simp] theorem modWfb_cfg (f : Wfb → Wfb) (s : State) : (modWfb f s).cfg = s.cfg := (rfl)
@[simp] theorem modWfb_dma (f : Wfb → Wfb) (s : State) : (modWfb f s).dma = s.dma := (rfl)
@[simp] theorem modWfb_pair (f : Wfb → Wfb) (s : State) : (modWfb f s).pair = s.pair := (rfl)
@[simp] theorem modWfb_boot (f : Wfb → Wfb) (s : State) : (modWfb f s).boot = s.boot := (rfl)
@[simp] theorem modWfb_sent (f : Wfb → Wfb) (s : State) : (modWfb f s).sent = s.sent := (rfl)
@[simp] theorem modWl_pending (n : Nat) (f : WLink → WLink) (s : State) : (modWl n f s).pending = s.pending := (rfl)
@[simp] theorem modWl_now (n : Nat) (f : WLink → WLink) (s : State) : (modWl n f s).now = s.now := (rfl)
@[simp] theorem modWl_sn (n : Nat) (f : WLink → WLink) (s : State) : (modWl n f s).sn = s.sn := (rfl)
@[simp] theorem modWl_free (n : Nat) (f : WLink → WLink) (s : State) : (modWl n f s).free = s.free := (rfl)
@[simp] theorem modWl_regs (n : Nat) (f : WLink → WLink) (s : State) : (modWl n f s).regs = s.regs := (rfl)
@[simp] theorem modWl_mem (n : Nat) (f : WLink → WLink) (s : State) : (modWl n f s).mem = s.mem := (rfl)
@[simp] theorem modWl_ecc (n : Nat) (f : WLink → WLink) (s : State) : (modWl n f s).ecc = s.ecc := (rfl)
@[simp] theorem modWl_evtLast (n : Nat) (f : WLink → WLink) (s : State) : (modWl n f s).evtLast = s.evtLast := (rfl)
@[simp] theorem modWl_rshadow (n : Nat) (f : WLink → WLink) (s : State) : (modWl n f s).rshadow = s.rshadow := (rfl)
@[simp] theorem modWl_wshadow (n : Nat) (f : WLink → WLink) (s : State) : (modWl n f s).wshadow = s.wshadow := (rfl)
@[simp] theorem modWl_cores (n : Nat) (f : WLink → WLink) (s : State) : (modWl n f s).cores = s.cores := (rfl)
@[simp] theorem modWl_mbox (n : Nat) (f : WLink → WLink) (s : State) : (modWl n f s).mbox = s.mbox := (rfl)
@[simp] theorem modWl_lkp (n : Nat) (f : WLink → WLink) (s : State) : (modWl n f s).lkp = s.lkp := (rfl)
@[simp] theorem modWl_scan (n : Nat) (f : WLink → WLink) (s : State) : (modWl n f s).scan = s.scan := (rfl)
@[simp] theorem modWl_rot (n : Nat) (f : WLink → WLink) (s : State) : (modWl n f s).rot = s.rot := (rfl)
@[simp] theorem modWl_faults (n : Nat) (f : WLink → WLink) (s : State) : (modWl n f s).faults = s.faults := (rfl)
@[simp] theorem modWl_tmb (n : Nat) (f : WLink → WLink) (s : State) : (modWl n f s).tmb = s.tmb := (rfl)
@[simp] theorem modWl_fio (n : Nat) (f : WLink → WLink) (s : State) : (modWl n f s).fio = s.fio := (rfl)
@[simp] theorem modWl_basin (n : Nat) (f : WLink → WLink) (s : State) : (modWl n f s).basin = s.basin := (rfl)
@[simp] theorem modWl_eth (n : Nat) (f : WLink → WLink) (s : State) : (modWl n f s).eth = s.eth := (rfl)
@[simp] theorem modWl_tow (n : Nat) (f : WLink → WLink) (s : State) : (modWl n f s).tow = s.tow := (rfl)
@[simp] theorem modWl_can (n : Nat) (f : WLink → WLink) (s : State) : (modWl n f s).can = s.can := (rfl)
@[simp] theorem modWl_canClk (n : Nat) (f : WLink → WLink) (s : State) : (modWl n f s).canClk = s.canClk := (rfl)
@[simp] theorem modWl_btl (n : Nat) (f : WLink → WLink) (s : State) : (modWl n f s).btl = s.btl := (rfl)
@[simp] theorem modWl_balls (n : Nat) (f : WLink → WLink) (s : State) : (modWl n f s).balls = s.balls := (rfl)
@[simp] theorem modWl_brg (n : Nat) (f : WLink → WLink) (s : State) : (modWl n f s).brg = s.brg := (rfl)
@[simp] theorem modWl_cfg (n : Nat) (f : WLink → WLink) (s : State) : (modWl n f s).cfg = s.cfg := (rfl)
@[simp] theorem modWl_dma (n : Nat) (f : WLink → WLink) (s : State) : (modWl n f s).dma = s.dma := (rfl)
@[simp] theorem modWl_pair (n : Nat) (f : WLink → WLink) (s : State) : (modWl n f s).pair = s.pair := (rfl)
@[simp] theorem modWl_boot (n : Nat) (f : WLink → WLink) (s : State) : (modWl n f s).boot = s.boot := (rfl)
@[simp] theorem modWl_sent (n : Nat) (f : WLink → WLink) (s : State) : (modWl n f s).sent = s.sent := (rfl)
@[simp] theorem modBrg_brg (f : Brg → Brg) (s : State) : (modBrg f s).brg = f s.brg := (rfl)
@[simp] theorem modBrg_pending (f : Brg → Brg) (s : State) : (modBrg f s).pending = s.pending := (rfl)
@[simp] theorem modBrg_now (f : Brg → Brg) (s : State) : (modBrg f s).now = s.now := (rfl)
@[simp] theorem modBrg_sn (f : Brg → Brg) (s : State) : (modBrg f s).sn = s.sn := (rfl)
@[simp] theorem modBrg_free (f : Brg → Brg) (s : State) : (modBrg f s).free = s.free := (rfl)
@[simp] theorem modBrg_regs (f : Brg → Brg) (s : State) : (modBrg f s).regs = s.regs := (rfl)
@[simp] theorem modBrg_mem (f : Brg → Brg) (s : State) : (modBrg f s).mem = s.mem := (rfl)
@[simp] theorem modBrg_ecc (f : Brg → Brg) (s : State) : (modBrg f s).ecc = s.ecc := (rfl)
@[simp] theorem modBrg_evtLast (f : Brg → Brg) (s : State) : (modBrg f s).evtLast = s.evtLast := (rfl)
@[simp] theorem modBrg_rshadow (f : Brg → Brg) (s : State) : (modBrg f s).rshadow = s.rshadow := (rfl)
@[simp] theorem modBrg_wshadow (f : Brg → Brg) (s : State) : (modBrg f s).wshadow = s.wshadow := (rfl)
@[simp] theorem modBrg_cores (f : Brg → Brg) (s : State) : (modBrg f s).cores = s.cores := (rfl)
@[simp] theorem modBrg_mbox (f : Brg → Brg) (s : State) : (modBrg f s).mbox = s.mbox := (rfl)
@[simp] theorem modBrg_lkp (f : Brg → Brg) (s : State) : (modBrg f s).lkp = s.lkp := (rfl)
@[simp] theorem modBrg_scan (f : Brg → Brg) (s : State) : (modBrg f s).scan = s.scan := (rfl)
@[simp] theorem modBrg_rot (f : Brg → Brg) (s : State) : (modBrg f s).rot = s.rot := (rfl)
@[simp] theorem modBrg_faults (f : Brg → Brg) (s : State) : (modBrg f s).faults = s.faults := (rfl)
@[simp] theorem modBrg_tmb (f : Brg → Brg) (s : State) : (modBrg f s).tmb = s.tmb := (rfl)
@[simp] theorem modBrg_fio (f : Brg → Brg) (s : State) : (modBrg f s).fio = s.fio := (rfl)
@[simp] theorem modBrg_basin (f : Brg → Brg) (s : State) : (modBrg f s).basin = s.basin := (rfl)
@[simp] theorem modBrg_eth (f : Brg → Brg) (s : State) : (modBrg f s).eth = s.eth := (rfl)
@[simp] theorem modBrg_tow (f : Brg → Brg) (s : State) : (modBrg f s).tow = s.tow := (rfl)
@[simp] theorem modBrg_can (f : Brg → Brg) (s : State) : (modBrg f s).can = s.can := (rfl)
@[simp] theorem modBrg_canClk (f : Brg → Brg) (s : State) : (modBrg f s).canClk = s.canClk := (rfl)
@[simp] theorem modBrg_btl (f : Brg → Brg) (s : State) : (modBrg f s).btl = s.btl := (rfl)
@[simp] theorem modBrg_balls (f : Brg → Brg) (s : State) : (modBrg f s).balls = s.balls := (rfl)
@[simp] theorem modBrg_wfb (f : Brg → Brg) (s : State) : (modBrg f s).wfb = s.wfb := (rfl)
@[simp] theorem modBrg_cfg (f : Brg → Brg) (s : State) : (modBrg f s).cfg = s.cfg := (rfl)
@[simp] theorem modBrg_dma (f : Brg → Brg) (s : State) : (modBrg f s).dma = s.dma := (rfl)
@[simp] theorem modBrg_pair (f : Brg → Brg) (s : State) : (modBrg f s).pair = s.pair := (rfl)
@[simp] theorem modBrg_boot (f : Brg → Brg) (s : State) : (modBrg f s).boot = s.boot := (rfl)
@[simp] theorem modBrg_sent (f : Brg → Brg) (s : State) : (modBrg f s).sent = s.sent := (rfl)
@[simp] theorem modCfg_cfg (f : Cfg → Cfg) (s : State) : (modCfg f s).cfg = f s.cfg := (rfl)
@[simp] theorem modCfg_pending (f : Cfg → Cfg) (s : State) : (modCfg f s).pending = s.pending := (rfl)
@[simp] theorem modCfg_now (f : Cfg → Cfg) (s : State) : (modCfg f s).now = s.now := (rfl)
@[simp] theorem modCfg_sn (f : Cfg → Cfg) (s : State) : (modCfg f s).sn = s.sn := (rfl)
@[simp] theorem modCfg_free (f : Cfg → Cfg) (s : State) : (modCfg f s).free = s.free := (rfl)
@[simp] theorem modCfg_regs (f : Cfg → Cfg) (s : State) : (modCfg f s).regs = s.regs := (rfl)
@[simp] theorem modCfg_mem (f : Cfg → Cfg) (s : State) : (modCfg f s).mem = s.mem := (rfl)
@[simp] theorem modCfg_ecc (f : Cfg → Cfg) (s : State) : (modCfg f s).ecc = s.ecc := (rfl)
@[simp] theorem modCfg_evtLast (f : Cfg → Cfg) (s : State) : (modCfg f s).evtLast = s.evtLast := (rfl)
@[simp] theorem modCfg_rshadow (f : Cfg → Cfg) (s : State) : (modCfg f s).rshadow = s.rshadow := (rfl)
@[simp] theorem modCfg_wshadow (f : Cfg → Cfg) (s : State) : (modCfg f s).wshadow = s.wshadow := (rfl)
@[simp] theorem modCfg_cores (f : Cfg → Cfg) (s : State) : (modCfg f s).cores = s.cores := (rfl)
@[simp] theorem modCfg_mbox (f : Cfg → Cfg) (s : State) : (modCfg f s).mbox = s.mbox := (rfl)
@[simp] theorem modCfg_lkp (f : Cfg → Cfg) (s : State) : (modCfg f s).lkp = s.lkp := (rfl)
@[simp] theorem modCfg_scan (f : Cfg → Cfg) (s : State) : (modCfg f s).scan = s.scan := (rfl)
@[simp] theorem modCfg_rot (f : Cfg → Cfg) (s : State) : (modCfg f s).rot = s.rot := (rfl)
@[simp] theorem modCfg_faults (f : Cfg → Cfg) (s : State) : (modCfg f s).faults = s.faults := (rfl)
@[simp] theorem modCfg_tmb (f : Cfg → Cfg) (s : State) : (modCfg f s).tmb = s.tmb := (rfl)
@[simp] theorem modCfg_fio (f : Cfg → Cfg) (s : State) : (modCfg f s).fio = s.fio := (rfl)
@[simp] theorem modCfg_basin (f : Cfg → Cfg) (s : State) : (modCfg f s).basin = s.basin := (rfl)
@[simp] theorem modCfg_eth (f : Cfg → Cfg) (s : State) : (modCfg f s).eth = s.eth := (rfl)
@[simp] theorem modCfg_tow (f : Cfg → Cfg) (s : State) : (modCfg f s).tow = s.tow := (rfl)
@[simp] theorem modCfg_can (f : Cfg → Cfg) (s : State) : (modCfg f s).can = s.can := (rfl)
@[simp] theorem modCfg_canClk (f : Cfg → Cfg) (s : State) : (modCfg f s).canClk = s.canClk := (rfl)
@[simp] theorem modCfg_btl (f : Cfg → Cfg) (s : State) : (modCfg f s).btl = s.btl := (rfl)
@[simp] theorem modCfg_balls (f : Cfg → Cfg) (s : State) : (modCfg f s).balls = s.balls := (rfl)
@[simp] theorem modCfg_wfb (f : Cfg → Cfg) (s : State) : (modCfg f s).wfb = s.wfb := (rfl)
@[simp] theorem modCfg_brg (f : Cfg → Cfg) (s : State) : (modCfg f s).brg = s.brg := (rfl)
@[simp] theorem modCfg_dma (f : Cfg → Cfg) (s : State) : (modCfg f s).dma = s.dma := (rfl)
@[simp] theorem modCfg_pair (f : Cfg → Cfg) (s : State) : (modCfg f s).pair = s.pair := (rfl)
@[simp] theorem modCfg_boot (f : Cfg → Cfg) (s : State) : (modCfg f s).boot = s.boot := (rfl)
@[simp] theorem modCfg_sent (f : Cfg → Cfg) (s : State) : (modCfg f s).sent = s.sent := (rfl)
@[simp] theorem modPair_pair (f : Pair → Pair) (s : State) : (modPair f s).pair = f s.pair := (rfl)
@[simp] theorem modPair_pending (f : Pair → Pair) (s : State) : (modPair f s).pending = s.pending := (rfl)
@[simp] theorem modPair_now (f : Pair → Pair) (s : State) : (modPair f s).now = s.now := (rfl)
@[simp] theorem modPair_sn (f : Pair → Pair) (s : State) : (modPair f s).sn = s.sn := (rfl)
@[simp] theorem modPair_free (f : Pair → Pair) (s : State) : (modPair f s).free = s.free := (rfl)
@[simp] theorem modPair_regs (f : Pair → Pair) (s : State) : (modPair f s).regs = s.regs := (rfl)
@[simp] theorem modPair_mem (f : Pair → Pair) (s : State) : (modPair f s).mem = s.mem := (rfl)
@[simp] theorem modPair_ecc (f : Pair → Pair) (s : State) : (modPair f s).ecc = s.ecc := (rfl)
@[simp] theorem modPair_evtLast (f : Pair → Pair) (s : State) : (modPair f s).evtLast = s.evtLast := (rfl)
@[simp] theorem modPair_rshadow (f : Pair → Pair) (s : State) : (modPair f s).rshadow = s.rshadow := (rfl)
@[simp] theorem modPair_wshadow (f : Pair → Pair) (s : State) : (modPair f s).wshadow = s.wshadow := (rfl)
@[simp] theorem modPair_cores (f : Pair → Pair) (s : State) : (modPair f s).cores = s.cores := (rfl)
@[simp] theorem modPair_mbox (f : Pair → Pair) (s : State) : (modPair f s).mbox = s.mbox := (rfl)
@[simp] theorem modPair_lkp (f : Pair → Pair) (s : State) : (modPair f s).lkp = s.lkp := (rfl)
@[simp] theorem modPair_scan (f : Pair → Pair) (s : State) : (modPair f s).scan = s.scan := (rfl)
@[simp] theorem modPair_rot (f : Pair → Pair) (s : State) : (modPair f s).rot = s.rot := (rfl)
@[simp] theorem modPair_faults (f : Pair → Pair) (s : State) : (modPair f s).faults = s.faults := (rfl)
@[simp] theorem modPair_tmb (f : Pair → Pair) (s : State) : (modPair f s).tmb = s.tmb := (rfl)
@[simp] theorem modPair_fio (f : Pair → Pair) (s : State) : (modPair f s).fio = s.fio := (rfl)
@[simp] theorem modPair_basin (f : Pair → Pair) (s : State) : (modPair f s).basin = s.basin := (rfl)
@[simp] theorem modPair_eth (f : Pair → Pair) (s : State) : (modPair f s).eth = s.eth := (rfl)
@[simp] theorem modPair_tow (f : Pair → Pair) (s : State) : (modPair f s).tow = s.tow := (rfl)
@[simp] theorem modPair_can (f : Pair → Pair) (s : State) : (modPair f s).can = s.can := (rfl)
@[simp] theorem modPair_canClk (f : Pair → Pair) (s : State) : (modPair f s).canClk = s.canClk := (rfl)
@[simp] theorem modPair_btl (f : Pair → Pair) (s : State) : (modPair f s).btl = s.btl := (rfl)
@[simp] theorem modPair_balls (f : Pair → Pair) (s : State) : (modPair f s).balls = s.balls := (rfl)
@[simp] theorem modPair_wfb (f : Pair → Pair) (s : State) : (modPair f s).wfb = s.wfb := (rfl)
@[simp] theorem modPair_brg (f : Pair → Pair) (s : State) : (modPair f s).brg = s.brg := (rfl)
@[simp] theorem modPair_cfg (f : Pair → Pair) (s : State) : (modPair f s).cfg = s.cfg := (rfl)
@[simp] theorem modPair_dma (f : Pair → Pair) (s : State) : (modPair f s).dma = s.dma := (rfl)
@[simp] theorem modPair_boot (f : Pair → Pair) (s : State) : (modPair f s).boot = s.boot := (rfl)
@[simp] theorem modPair_sent (f : Pair → Pair) (s : State) : (modPair f s).sent = s.sent := (rfl)
@[simp] theorem State_setMb_pending (n : Nat) (b : Mbox) (s : State) : (s.setMb n b).pending = s.pending := (rfl)
@[simp] theorem State_setMb_now (n : Nat) (b : Mbox) (s : State) : (s.setMb n b).now = s.now := (rfl)
@[simp] theorem State_setMb_sn (n : Nat) (b : Mbox) (s : State) : (s.setMb n b).sn = s.sn := (rfl)
@[simp] theorem State_setMb_free (n : Nat) (b : Mbox) (s : State) : (s.setMb n b).free = s.free := (rfl)
@[simp] theorem State_setMb_regs (n : Nat) (b : Mbox) (s : State) : (s.setMb n b).regs = s.regs := (rfl)
@[simp] theorem State_setMb_mem (n : Nat) (b : Mbox) (s : State) : (s.setMb n b).mem = s.mem := (rfl)
@[simp] theorem State_setMb_ecc (n : Nat) (b : Mbox) (s : State) : (s.setMb n b).ecc = s.ecc := (rfl)
@[simp] theorem State_setMb_evtLast (n : Nat) (b : Mbox) (s : State) : (s.setMb n b).evtLast = s.evtLast := (rfl)
@[simp] theorem State_setMb_rshadow (n : Nat) (b : Mbox) (s : State) : (s.setMb n b).rshadow = s.rshadow := (rfl)
@[simp] theorem State_setMb_wshadow (n : Nat) (b : Mbox) (s : State) : (s.setMb n b).wshadow = s.wshadow := (rfl)
@[simp] theorem State_setMb_cores (n : Nat) (b : Mbox) (s : State) : (s.setMb n b).cores = s.cores := (rfl)
@[simp] theorem State_setMb_lkp (n : Nat) (b : Mbox) (s : State) : (s.setMb n b).lkp = s.lkp := (rfl)
@[simp] theorem State_setMb_scan (n : Nat) (b : Mbox) (s : State) : (s.setMb n b).scan = s.scan := (rfl)
@[simp] theorem State_setMb_rot (n : Nat) (b : Mbox) (s : State) : (s.setMb n b).rot = s.rot := (rfl)
@[simp] theorem State_setMb_faults (n : Nat) (b : Mbox) (s : State) : (s.setMb n b).faults = s.faults := (rfl)
@[simp] theorem State_setMb_tmb (n : Nat) (b : Mbox) (s : State) : (s.setMb n b).tmb = s.tmb := (rfl)
@[simp] theorem State_setMb_fio (n : Nat) (b : Mbox) (s : State) : (s.setMb n b).fio = s.fio := (rfl)
@[simp] theorem State_setMb_basin (n : Nat) (b : Mbox) (s : State) : (s.setMb n b).basin = s.basin := (rfl)
@[simp] theorem State_setMb_eth (n : Nat) (b : Mbox) (s : State) : (s.setMb n b).eth = s.eth := (rfl)
@[simp] theorem State_setMb_tow (n : Nat) (b : Mbox) (s : State) : (s.setMb n b).tow = s.tow := (rfl)
@[simp] theorem State_setMb_can (n : Nat) (b : Mbox) (s : State) : (s.setMb n b).can = s.can := (rfl)
@[simp] theorem State_setMb_canClk (n : Nat) (b : Mbox) (s : State) : (s.setMb n b).canClk = s.canClk := (rfl)
@[simp] theorem State_setMb_btl (n : Nat) (b : Mbox) (s : State) : (s.setMb n b).btl = s.btl := (rfl)
@[simp] theorem State_setMb_balls (n : Nat) (b : Mbox) (s : State) : (s.setMb n b).balls = s.balls := (rfl)
@[simp] theorem State_setMb_wfb (n : Nat) (b : Mbox) (s : State) : (s.setMb n b).wfb = s.wfb := (rfl)
@[simp] theorem State_setMb_brg (n : Nat) (b : Mbox) (s : State) : (s.setMb n b).brg = s.brg := (rfl)
@[simp] theorem State_setMb_cfg (n : Nat) (b : Mbox) (s : State) : (s.setMb n b).cfg = s.cfg := (rfl)
@[simp] theorem State_setMb_dma (n : Nat) (b : Mbox) (s : State) : (s.setMb n b).dma = s.dma := (rfl)
@[simp] theorem State_setMb_pair (n : Nat) (b : Mbox) (s : State) : (s.setMb n b).pair = s.pair := (rfl)
@[simp] theorem State_setMb_boot (n : Nat) (b : Mbox) (s : State) : (s.setMb n b).boot = s.boot := (rfl)
@[simp] theorem State_setMb_sent (n : Nat) (b : Mbox) (s : State) : (s.setMb n b).sent = s.sent := (rfl)
@[simp] theorem setByte_mem (n : Nat) (b : Byte) (s : State) : (setByte n b s).mem = SMap.put (memReset n) s.mem n b := (rfl)
@[simp] theorem setByte_pending (n : Nat) (b : Byte) (s : State) : (setByte n b s).pending = s.pending := (rfl)
@[simp] theorem setByte_now (n : Nat) (b : Byte) (s : State) : (setByte n b s).now = s.now := (rfl)
@[simp] theorem setByte_sn (n : Nat) (b : Byte) (s : State) : (setByte n b s).sn = s.sn := (rfl)
@[simp] theorem setByte_free (n : Nat) (b : Byte) (s : State) : (setByte n b s).free = s.free := (rfl)
@[simp] theorem setByte_regs (n : Nat) (b : Byte) (s : State) : (setByte n b s).regs = s.regs := (rfl)
@[simp] theorem setByte_ecc (n : Nat) (b : Byte) (s : State) : (setByte n b s).ecc = s.ecc := (rfl)
@[simp] theorem setByte_evtLast (n : Nat) (b : Byte) (s : State) : (setByte n b s).evtLast = s.evtLast := (rfl)
@[simp] theorem setByte_rshadow (n : Nat) (b : Byte) (s : State) : (setByte n b s).rshadow = s.rshadow := (rfl)
@[simp] theorem setByte_wshadow (n : Nat) (b : Byte) (s : State) : (setByte n b s).wshadow = s.wshadow := (rfl)
@[simp] theorem setByte_cores (n : Nat) (b : Byte) (s : State) : (setByte n b s).cores = s.cores := (rfl)
@[simp] theorem setByte_mbox (n : Nat) (b : Byte) (s : State) : (setByte n b s).mbox = s.mbox := (rfl)
@[simp] theorem setByte_lkp (n : Nat) (b : Byte) (s : State) : (setByte n b s).lkp = s.lkp := (rfl)
@[simp] theorem setByte_scan (n : Nat) (b : Byte) (s : State) : (setByte n b s).scan = s.scan := (rfl)
@[simp] theorem setByte_rot (n : Nat) (b : Byte) (s : State) : (setByte n b s).rot = s.rot := (rfl)
@[simp] theorem setByte_faults (n : Nat) (b : Byte) (s : State) : (setByte n b s).faults = s.faults := (rfl)
@[simp] theorem setByte_tmb (n : Nat) (b : Byte) (s : State) : (setByte n b s).tmb = s.tmb := (rfl)
@[simp] theorem setByte_fio (n : Nat) (b : Byte) (s : State) : (setByte n b s).fio = s.fio := (rfl)
@[simp] theorem setByte_basin (n : Nat) (b : Byte) (s : State) : (setByte n b s).basin = s.basin := (rfl)
@[simp] theorem setByte_eth (n : Nat) (b : Byte) (s : State) : (setByte n b s).eth = s.eth := (rfl)
@[simp] theorem setByte_tow (n : Nat) (b : Byte) (s : State) : (setByte n b s).tow = s.tow := (rfl)
@[simp] theorem setByte_can (n : Nat) (b : Byte) (s : State) : (setByte n b s).can = s.can := (rfl)
@[simp] theorem setByte_canClk (n : Nat) (b : Byte) (s : State) : (setByte n b s).canClk = s.canClk := (rfl)
@[simp] theorem setByte_btl (n : Nat) (b : Byte) (s : State) : (setByte n b s).btl = s.btl := (rfl)
@[simp] theorem setByte_balls (n : Nat) (b : Byte) (s : State) : (setByte n b s).balls = s.balls := (rfl)
@[simp] theorem setByte_wfb (n : Nat) (b : Byte) (s : State) : (setByte n b s).wfb = s.wfb := (rfl)
@[simp] theorem setByte_brg (n : Nat) (b : Byte) (s : State) : (setByte n b s).brg = s.brg := (rfl)
@[simp] theorem setByte_cfg (n : Nat) (b : Byte) (s : State) : (setByte n b s).cfg = s.cfg := (rfl)
@[simp] theorem setByte_dma (n : Nat) (b : Byte) (s : State) : (setByte n b s).dma = s.dma := (rfl)
@[simp] theorem setByte_pair (n : Nat) (b : Byte) (s : State) : (setByte n b s).pair = s.pair := (rfl)
@[simp] theorem setByte_boot (n : Nat) (b : Byte) (s : State) : (setByte n b s).boot = s.boot := (rfl)
@[simp] theorem setByte_sent (n : Nat) (b : Byte) (s : State) : (setByte n b s).sent = s.sent := (rfl)

end Sys2Proof.Machine
end

