-- ==== Sys2Proof/Laws/WrapUp.lean ====
section
/-! SUPPORT. The end of a command: where it finds nothing to do (R261, R492, R216, R217, R479), and what every command leaves of the
queue. -/

namespace Sys2Proof.Machine

@[simp] theorem settled_pending (a b : State) : (settled a b).pending = a.pending := rfl

@[simp] theorem settled_sn (a b : State) : (settled a b).sn = a.sn := rfl

theorem each_id {α : Type} (l : List α) (f : α → State → State) (s : State) (h : ∀ x ∈ l, f x s = s) : each l f s = s := by
  unfold each
  induction l with
  | nil => rfl
  | cons x t ih => rw [List.foldl_cons, h x (by simp)]; exact ih (fun y hy => h y (by simp [hy]))

/-- Where nothing is held, gathered or waits, nothing goes on. -/
theorem goOn_idle (s : State) (h : s.rot.held = []) (g : s.brg.gathers = []) (w : s.brg.waits = []) : goOn s = s := by
  have e : applyHeld s = s := by unfold applyHeld each modRot; rw [h]; simp only [List.foldl_nil]; rw [← h]
  have e2 : pumpGathers s = s := by unfold pumpGathers each; rw [g]; rfl
  unfold goOn hostGoes each modBrg
  rw [e, e2, w]
  simp only [List.foldl_nil]
  rw [← w]

/-- No command releases an access on the state it began with. -/
theorem releases_self (s : State) : releases s s = false := by
  unfold releases
  cases s.rot.window <;> cases sliceRunning s <;> simp

/-- Control has not stopped since the state itself. -/
theorem stoppedSince_self (s : State) : stoppedSince s s = false := by
  unfold stoppedSince
  by_cases h : getF s F.SCN_STATUS_CSTATE = 2 <;> simp [h]

/-- The end of a command that finds nothing to do does nothing. -/
theorem wrapUp_calm (before s : State) (h : calm before s = true) : wrapUp before s = s := by
  simp only [calm, Bool.and_eq_true, List.all_eq_true, decide_eq_true_eq, bne_iff_ne, Option.isNone_iff_eq_none, List.mem_range] at h
  obtain ⟨⟨⟨⟨⟨⟨hk, hc⟩, hp⟩, hg⟩, hr⟩, hs⟩, hd⟩ := h
  have h0 : stepCores s = s := by
    unfold stepCores
    rw [if_neg (by simpa using hk)]
  have h1 : each (List.range 5) (countCorrected before) s = s := by
    apply each_id
    intro n hn
    have := hc n (List.mem_range.mp hn)
    unfold countCorrected
    simp only
    rw [if_neg]
    omega
  have h2 : each (List.range 5) parkReady s = s := by
    apply each_id
    intro n hn
    unfold parkReady
    rw [if_neg (fun x => hp n (List.mem_range.mp hn) x.1)]
  have h3 : stopRelinquish before s = s := by
    unfold stopRelinquish
    split
    · rfl
    · rename_i c
      simp only [not_or, Bool.not_eq_true', Bool.not_eq_false] at c
      simp only [c.1, Bool.true_and, Bool.not_eq_true', Bool.or_eq_false_iff, beq_eq_false_iff_ne] at hr
      simp [hs, hr.1, hr.2]
  have h4 : sendForces before s = s := by
    unfold sendForces
    rw [if_pos hs]
  have h5 : (if releases before s then goOn s else s) = s := by
    by_cases r : releases before s = true
    · simp only [r, Bool.not_true, Bool.false_or, Bool.and_eq_true, List.isEmpty_iff] at hg
      rw [if_pos r, goOn_idle s hg.1.1 hg.1.2 hg.2]
    · rw [if_neg r]
  unfold wrapUp
  simp only [h0, h1, h2, h5, h3, h4]
  simp [dueReset, hd]

/-- A command ends as its effect leaves the device, where the device is calm and the effect disturbs nothing that the end of a
command looks at. -/
theorem always_calm (f : State → State) (s : State) (h : calm (quiet s) (f (quiet s)) = true) :
    always f s = .next (settled s (f (quiet s))) := by
  simp only [always, wrapUp_calm _ _ h]

theorem onBus_calm (f : State → State) (s : State) (p : powered s = true) (h : calm (quiet s) (f (quiet s)) = true) :
    onBus f s = .next (settled s (f (quiet s))) := by
  simp only [onBus, p, if_true, wrapUp_calm _ _ h]

theorem onDie_calm (f : State → State) (s : State) (p : live s = true) (h : calm (quiet s) (f (quiet s)) = true) :
    onDie f s = .next (settled s (f (quiet s))) := by
  simp only [onDie, p, if_true, wrapUp_calm _ _ h]

theorem onRegs_powered (f : State → State) (s : State) (p : powered s = true) : onRegs f s = .next (settled s (f (quiet s))) := by
  simp only [onRegs, p, if_true]

theorem inBlock_live (f : State → State) (s : State) (p : live s = true) : inBlock f s = .next (settled s (f (quiet s))) := by
  simp only [inBlock, p, if_true]

/-- A state at rest: no reach drains for a park, no primary of a pair, no device reset due. -/
theorem calm_self (s : State) (hp : (List.range 5).all (fun n => getF s (F.RCH_PWR_PSTATE n) != 1) = true) (hs : pairState s ≠ 2)
    (hd : s.faults.due = none) (hk : s.cores.any (·.stepping) = false) : calm s s = true := by
  simp only [calm, hs, hd, hk, releases_self, stoppedSince_self]
  simpa [hs] using hp

end Sys2Proof.Machine
end

