-- ==== Sys2Proof/Laws/Shared.lean ====
section
/-! SUPPORT. What each shared operation can do, said once: the ends of commands, the entry of an exception, a stop of control, an
instruction of a Beetle engine, a mailbox write, a semaphore, an instruction fetch, a compare match. -/

namespace Sys2Proof.Machine

/-! ### Commands -/

/-- Every command answers a next state with the queue and the module kind of the state it was given. -/
theorem always_next (f : State → State) (s : State) : ∃ t, always f s = .next t ∧ t.pending = s.pending ∧ t.sn = s.sn := ⟨_, rfl, rfl, rfl⟩

theorem anyTime_next (f : State → State) (s : State) : ∃ t, anyTime f s = .next t ∧ t.pending = s.pending ∧ t.sn = s.sn := ⟨_, rfl, rfl, rfl⟩

theorem onBus_next (f : State → State) (s : State) : ∃ t, onBus f s = .next t ∧ t.pending = s.pending ∧ t.sn = s.sn := ⟨_, rfl, rfl, rfl⟩

theorem onRegs_next (f : State → State) (s : State) : ∃ t, onRegs f s = .next t ∧ t.pending = s.pending ∧ t.sn = s.sn := ⟨_, rfl, rfl, rfl⟩

theorem onDie_next (f : State → State) (s : State) : ∃ t, onDie f s = .next t ∧ t.pending = s.pending ∧ t.sn = s.sn := ⟨_, rfl, rfl, rfl⟩

theorem inBlock_next (f : State → State) (s : State) : ∃ t, inBlock f s = .next t ∧ t.pending = s.pending ∧ t.sn = s.sn := ⟨_, rfl, rfl, rfl⟩

/-- A command that needs the logic die changes nothing but what was sent where the die does not run. -/
theorem inBlock_dead (f : State → State) (s : State) (h : live s = false) : inBlock f s = .next { s with sent := [] } := by
  unfold inBlock; rw [if_neg (by simp [h])]; rfl

theorem onRegs_dead (f : State → State) (s : State) (h : powered s = false) : onRegs f s = .next { s with sent := [] } := by
  unfold onRegs; rw [if_neg (by simp [h])]; rfl

/-! ### Repetition -/

@[simp] theorem each_nil {α : Type} (f : α → State → State) (s : State) : each [] f s = s := rfl

@[simp] theorem each_cons {α : Type} (x : α) (l : List α) (f : α → State → State) (s : State) : each (x :: l) f s = each l f (f x s) := rfl

theorem each_append {α : Type} (l m : List α) (f : α → State → State) (s : State) : each (l ++ m) f s = each m f (each l f s) := by
  simp [each, List.foldl_append]

@[simp] theorem onlyIf_true (f : State → State) (s : State) : onlyIf true f s = f s := rfl

@[simp] theorem onlyIf_false (f : State → State) (s : State) : onlyIf false f s = s := rfl

/-! ### Exceptions (R111, R115) -/

/-- What taking an exception can be: a double fault at once, a double fault of the frame push, or the entry. -/
theorem takeExc_cases (i : Nat) (e : Exc) (saved : Word) (s : State) :
    (e.cause = .rstkOvf ∧ (s.core i).ovf = true ∧ takeExc i e saved s = doubleFault i .rstkOvf .rstkOvf s)
    ∨ (∃ t x, pushRets i (if (s.core i).rsl.toNat + 16 ≤ (s.core i).rsp.toNat then 16 else 0) ((s.core i).frame 1 saved) s = (t, .error x)
        ∧ takeExc i e saved s = doubleFault i e.cause x.cause (logExc i x (t.setCore i (s.core i))))
    ∨ (∃ t u, pushRets i (if (s.core i).rsl.toNat + 16 ≤ (s.core i).rsp.toNat then 16 else 0) ((s.core i).frame 1 saved) s = (t, .ok u)
        ∧ takeExc i e saved s = modCore i (fun k => { k with
            ecause := w32 ((if e.cause = .buserrW then 2 ^ 31 else 0) + e.code * 2 ^ 16 + e.cause.code)
            eaddr := match e.addr with | some a => w32 a | none => k.eaddr
            ie := false, bacc := false, bopen := false, bstk := 0, sup := true
            ovf := k.ovf || e.cause == .rstkOvf
            pc := k.vbase + w32 (16 * e.cause.code), cyc := (k.flush.spend 4).cyc }) t) := by
  unfold takeExc
  by_cases h : e.cause = .rstkOvf ∧ (s.core i).ovf = true
  · exact Or.inl ⟨h.1, h.2, by simp [h]⟩
  · simp only [if_neg h]
    cases hp : pushRets i (if (s.core i).rsl.toNat + 16 ≤ (s.core i).rsp.toNat then 16 else 0) ((s.core i).frame 1 saved) s with
    | mk t r => cases r with
      | error x => exact Or.inr (Or.inl ⟨t, x, rfl, rfl⟩)
      | ok u => exact Or.inr (Or.inr ⟨t, u, rfl, rfl⟩)

/-! ### A stop of control (R173) -/

/-- A cause of a stop changes nothing where it finds no control to stop. -/
theorem controlStop_idle (c : StopCause) (t : Option Nat) (s : State) (h : stops c s = false) : controlStop c t s = s := by
  unfold controlStop; rw [if_pos (by simp [h])]

/-! ### Beetle engines (R402, R407) -/

/-- What an instruction row of an engine can be: nothing, a fault of the fetched word, or its execution. -/
theorem engRun_cases (e : Nat) (kind : Nat → Bool) (f : Nat → State → State) (s : State) :
    engRun e kind f s = s
    ∨ (engState s e = 1 ∧ wordFault (storeWord s e (s.engine e).next) ≠ 0
        ∧ engRun e kind f s = engFault e (wordFault (storeWord s e (s.engine e).next)) s)
    ∨ (engState s e = 1 ∧ (s.engine e).await = none ∧ wordFault (storeWord s e (s.engine e).next) = 0
        ∧ kind (storeWord s e (s.engine e).next) = true
        ∧ engRun e kind f s = f (storeWord s e (s.engine e).next) (setF (engF F.BTL_ENG_STAT_PC e) (s.engine e).next
            (modEng e (fun x => { x with instr := storeWord s e (s.engine e).next, next := (x.next + 1) % 48 }) s))) := by
  unfold engRun
  dsimp only
  split
  · exact Or.inl rfl
  · rename_i h
    simp only [ne_eq, not_or, not_not] at h
    split
    · rename_i hw; exact Or.inr (Or.inl ⟨h.1, hw, rfl⟩)
    · rename_i hw
      split
      · exact Or.inl rfl
      · rename_i hk
        refine Or.inr (Or.inr ⟨h.1, ?_, by simpa using hw, by simpa using hk, rfl⟩)
        simpa using h.2.1

/-! ### Mailboxes (R263, R264) -/

/-- What a write to a mailbox can be: ignored, refused as full, the first or a further word of a block, or a word of a queue. -/
theorem mbWrite_cases (m : Nat) (who : Who) (v : Word) (s : State) :
    (mbWrite m who v s = (s, .ok ()) ∧ isSet s (F.MBX_CFG_EN m) = false)
    ∨ mbWrite m who v s = (raise A.MBX_EVT 0 s, .error .mbxFull)
    ∨ (∃ w : MboxWord, w.data = v ∧ w.sender = who.id ∧ w.bad = false
        ∧ (mbWrite m who v s = (s.setMb m { words := [w], bstate := .opened, owner := who.id, nread := 0 }, .ok ())
          ∨ mbWrite m who v s = (s.setMb m { s.mb m with words := (s.mb m).words ++ [w] }, .ok ())
          ∨ mbWrite m who v s = (mbCommitted m (s.setMb m { s.mb m with words := (s.mb m).words ++ [w] }), .ok ()))) := by
  unfold mbWrite
  dsimp only
  by_cases he : isSet s (F.MBX_CFG_EN m) = true
  · rw [if_neg (by simp [he])]
    split
    · split
      · exact Or.inr (Or.inr ⟨_, rfl, rfl, rfl, Or.inl rfl⟩)
      · split
        · exact Or.inr (Or.inl rfl)
        · exact Or.inr (Or.inr ⟨_, rfl, rfl, rfl, Or.inr (Or.inl rfl)⟩)
      · exact Or.inr (Or.inl rfl)
    · split
      · exact Or.inr (Or.inl rfl)
      · exact Or.inr (Or.inr ⟨_, rfl, rfl, rfl, Or.inr (Or.inr rfl)⟩)
  · rw [if_pos (by simpa using he)]
    exact Or.inl ⟨rfl, by simpa using he⟩

/-! ### Semaphores (R456) -/

/-- A read of a semaphore takes it while it is free, and else changes nothing and tells its owner. -/
theorem semRead_cases (k : Nat) (who : Who) (s : State) :
    (semOf s k = none ∧ semRead k who s = (setSem k (some { id := who.owner.1, fid := who.owner.2, since := s.now }) s, 0))
    ∨ (∃ o, semOf s k = some o ∧ semRead k who s = (s, o.fid * 2 ^ 16 + o.id + 1)) := by
  unfold semRead
  cases h : semOf s k with
  | none => exact Or.inl ⟨rfl, rfl⟩
  | some o => exact Or.inr ⟨o, rfl, rfl⟩

/-- A write of a semaphore is ignored unless it is 0, which releases it for its owner or a privileged initiator, and ends with LOCKED for
any other. -/
theorem semWrite_cases (k : Nat) (who : Who) (v : Nat) (s : State) :
    (v ≠ 0 ∧ semWrite k who v s = (s, .ok ()))
    ∨ (v = 0 ∧ ((∃ o, semOf s k = some o ∧ (o.id, o.fid) = who.owner) ∨ isPriv s who = true) ∧ semWrite k who v s = (setSem k none s, .ok ()))
    ∨ (v = 0 ∧ (∀ o, semOf s k = some o → (o.id, o.fid) ≠ who.owner) ∧ isPriv s who = false ∧ semWrite k who v s = (s, .error .locked)) := by
  unfold semWrite
  by_cases hv : v = 0
  · cases h : semOf s k with
    | none => by_cases hp : isPriv s who = true <;> simp [hv, hp]
    | some o => by_cases ho : (o.id, o.fid) = who.owner <;> by_cases hp : isPriv s who = true <;> simp [hv, hp, ho]
  · simp [hv]

/-! ### Instruction fetch (R98, R99) -/

/-- What a fetch can be: IFETCH for an address that cannot be fetched from, a hit that changes nothing, or the fill of a line, after a
parity error where there was one. -/
theorem fetch_cases (i : Nat) (s : State) :
    (fetchable s i (s.core i).pc.toNat = false ∧ fetch i s = (s, .error { cause := .ifetch }))
    ∨ (∃ ws, cached s i (s.core i).pc.toNat = some ws ∧ fetch i s = (s, .ok (ws.getD ((s.core i).pc.toNat % 32 / 4) 0)))
    ∨ fetch i s = fetchLine i (s.core i).pc.toNat s
    ∨ fetch i s = fetchLine i (s.core i).pc.toNat (parityError i (s.core i).pc.toNat s) := by
  unfold fetch
  dsimp only
  split
  · rename_i h; exact Or.inl ⟨by simpa using h, rfl⟩
  · split
    · rename_i ws h _; exact Or.inr (Or.inl ⟨ws, h, rfl⟩)
    · exact Or.inr (Or.inr (Or.inr rfl))
    · exact Or.inr (Or.inr (Or.inl rfl))

/-! ### Compare units (R278, R279) -/

/-- A unit that is not armed, or whose target has not come, matches nothing. -/
theorem matchUnit_idle (u : Nat) (s : State) (h : isSet s (F.TMB_UNIT_STAT_ARMED u) = false ∨ unitDue s u = false) :
    matchUnit u s = (s, .nothing) := by
  unfold matchUnit; rw [if_pos (by rcases h with h | h <;> simp [h])]

/-- A ONESHOT unit whose target has come fires and is no longer armed. -/
theorem matchUnit_oneshot (u : Nat) (s : State) (ha : isSet s (F.TMB_UNIT_STAT_ARMED u) = true) (hd : unitDue s u = true)
    (hm : unitMode s u = 1) : matchUnit u s = (setF (F.TMB_UNIT_STAT_ARMED u) 0 s, .reached (targetTime s u) true) := by
  unfold matchUnit; rw [if_neg (by simp [ha, hd])]; dsimp only; rw [if_pos hm]

/-! ### Stacks (R87) -/

/-- A pop that finds a hardware entry takes it and touches nothing else. -/
theorem popData_held (i : Nat) (s : State) (x : Word) (t : List Word) (h : (s.core i).dstack = x :: t) :
    popData i s = (s.setCore i { s.core i with dstack := t }, .ok x) := by
  unfold popData; dsimp only
  split
  · rename_i v u hv; rw [h] at hv; injection hv with h1 h2; rw [h1, h2]
  · rename_i hv; rw [h] at hv; cases hv

end Sys2Proof.Machine
end

