-- ==== Sys2Proof/Tests/Slice0.lean ====
section
/-! SUPPORT. Tests: commands that are refused as ill formed, words of Weevil instructions, single steps, and states that meet the
hypotheses of each statement. -/

set_option Elab.async false

namespace Sys2Proof.Tests

open Sys2Proof Sys2Proof.Machine

/-- Core 0 stands at an instruction, in a powered device whose banks answer. -/
def runs (op : WOp) (f : Core → Core) : State :=
  modCore 0 (fun k => f { k with st := .run, icache := [(0, [encodeW op])] }) (setF F.BST_STATUS_RUNNING 0xFF State.reset)

/-- Core 0 with the values of w4 and w5. -/
def with45 (a b : Word) (k : Core) : Core := { k with w := (k.w.set 4 a).set 5 b }

/-- Whether an outcome is a next state with a property. -/
def nextHas (o : Out) (p : State → Bool) : Bool := match o with | .next t => p t | _ => false

/-- A privileged initiator: the debug port's supervisor. -/
def boss : Who := ⟨49, true, none⟩

/-- An initiator ID of more than six bits is refused, whatever the command. -/
theorem test_who_refused_1 :
    (Instr.standby ⟨64, false, none⟩).wf = false ∧
    (Instr.pciDevrst ⟨64, false, none⟩ 0).wf = false ∧
    (Instr.fioRegisterWrite ⟨64, false, none⟩ 0 0).wf = false ∧
    (Instr.fioEdgeRead ⟨64, false, none⟩).wf = false ∧
    (Instr.edgeflush ⟨64, false, none⟩).wf = false ∧
    (Instr.grprst ⟨64, false, none⟩).wf = false ∧
    (Instr.faultack ⟨64, false, none⟩).wf = false ∧
    (Instr.scnCmdStop ⟨64, false, none⟩).wf = false ∧
    (Instr.warm ⟨64, false, none⟩).wf = false ∧
    (Instr.cold ⟨64, false, none⟩).wf = false ∧
    (Instr.forceSet ⟨64, false, none⟩ 0 0).wf = false ∧
    (Instr.forceClr ⟨64, false, none⟩ 0 0).wf = false ∧
    (Instr.forceClrall ⟨64, false, none⟩ 0).wf = false ∧
    (Instr.forceList ⟨64, false, none⟩ 0).wf = false ∧
    (Instr.editOpen ⟨64, false, none⟩ 0).wf = false ∧
    (Instr.editArm ⟨64, false, none⟩ 0).wf = false ∧
    (Instr.editAbort ⟨64, false, none⟩ 0).wf = false ∧
    (Instr.taskPeriodWrite ⟨64, false, none⟩ 0 0).wf = false ∧
    (Instr.registerWrite ⟨64, false, none⟩ 0 0).wf = false ∧
    (Instr.eventWriteBack ⟨64, false, none⟩ 0 0).wf = false := by
  decide

/-- An initiator ID of more than six bits is refused, whatever the command. -/
theorem test_who_refused_2 :
    (Instr.clkmeasGo ⟨64, false, none⟩ 0).wf = false ∧
    (Instr.buserrClear ⟨64, false, none⟩).wf = false ∧
    (Instr.coreReset ⟨64, false, none⟩ 0).wf = false ∧
    (Instr.coreIcinv ⟨64, false, none⟩ 0).wf = false ∧
    (Instr.coreDrain ⟨64, false, none⟩ 0).wf = false ∧
    (Instr.coreStep ⟨64, false, none⟩ 0).wf = false ∧
    (Instr.coreResume ⟨64, false, none⟩ 0).wf = false ∧
    (Instr.coreHalt ⟨64, false, none⟩ 0).wf = false ∧
    (Instr.dlycmdGo ⟨64, false, none⟩).wf = false ∧
    (Instr.swsrcRaise ⟨64, false, none⟩ 0).wf = false ∧
    (Instr.gateWrite ⟨64, false, none⟩ 0 0 0).wf = false ∧
    (Instr.circularWindowWrite ⟨64, false, none⟩ 0 0 0).wf = false ∧
    (Instr.dmaTailWrite ⟨64, false, none⟩ 0 0).wf = false ∧
    (Instr.dmaStop ⟨64, false, none⟩ 0).wf = false ∧
    (Instr.dmaResume ⟨64, false, none⟩ 0).wf = false ∧
    (Instr.park ⟨64, false, none⟩ 0).wf = false ∧
    (Instr.mbxTxWrite ⟨64, false, none⟩ 0 0).wf = false ∧
    (Instr.mbxRxRead ⟨64, false, none⟩ 0).wf = false ∧
    (Instr.mbxGo ⟨64, false, none⟩ 0).wf = false ∧
    (Instr.mbxRelease ⟨64, false, none⟩ 0).wf = false := by
  decide

/-- An initiator ID of more than six bits is refused, whatever the command. -/
theorem test_who_refused_3 :
    (Instr.mbxAbort ⟨64, false, none⟩ 0).wf = false ∧
    (Instr.mbxFlush ⟨64, false, none⟩ 0).wf = false ∧
    (Instr.mbxCfgWrite ⟨64, false, none⟩ 0 0).wf = false ∧
    (Instr.epochBump ⟨64, false, none⟩ 0).wf = false ∧
    (Instr.tmbIncWrite ⟨64, false, none⟩ 0).wf = false ∧
    (Instr.adjSlew ⟨64, false, none⟩).wf = false ∧
    (Instr.adjStep ⟨64, false, none⟩).wf = false ∧
    (Instr.unitCmpWrite ⟨64, false, none⟩ 0 0).wf = false ∧
    (Instr.unitCtlWrite ⟨64, false, none⟩ 0 0).wf = false ∧
    (Instr.capnow ⟨64, false, none⟩ 0).wf = false ∧
    (Instr.captHighRead ⟨64, false, none⟩ 0).wf = false ∧
    (Instr.planeEnWrite ⟨64, false, none⟩ 0).wf = false ∧
    (Instr.planeRestore ⟨64, false, none⟩).wf = false ∧
    (Instr.macRead ⟨64, false, none⟩ 0).wf = false ∧
    (Instr.macLookup ⟨64, false, none⟩).wf = false ∧
    (Instr.macWrite ⟨64, false, none⟩).wf = false ∧
    (Instr.macDelete ⟨64, false, none⟩).wf = false ∧
    (Instr.macFlush ⟨64, false, none⟩ false).wf = false ∧
    (Instr.hseedWrite ⟨64, false, none⟩ 0).wf = false ∧
    (Instr.ringRpWrite ⟨64, false, none⟩ 0 0).wf = false := by
  decide

/-- An initiator ID of more than six bits is refused, whatever the command. -/
theorem test_who_refused_4 :
    (Instr.txRingWpWrite ⟨64, false, none⟩ 0 0).wf = false ∧
    (Instr.ringResume ⟨64, false, none⟩ false 0).wf = false ∧
    (Instr.ethEnable ⟨64, false, none⟩ 0).wf = false ∧
    (Instr.ethDisable ⟨64, false, none⟩ 0).wf = false ∧
    (Instr.tsFifoRead ⟨64, false, none⟩ 0 false).wf = false ∧
    (Instr.statsRead ⟨64, false, none⟩ 0 0).wf = false ∧
    (Instr.stnRead ⟨64, false, none⟩ 0 0).wf = false ∧
    (Instr.cableTest ⟨64, false, none⟩ 0).wf = false ∧
    (Instr.towEnable ⟨64, false, none⟩).wf = false ∧
    (Instr.regrant ⟨64, false, none⟩ 0).wf = false ∧
    (Instr.towRelease ⟨64, false, none⟩ 0).wf = false ∧
    (Instr.canTxreq ⟨64, false, none⟩ 0 0).wf = false ∧
    (Instr.canTxcan ⟨64, false, none⟩ 0 0).wf = false ∧
    (Instr.canRecover ⟨64, false, none⟩ 0).wf = false ∧
    (Instr.canEnable ⟨64, false, none⟩ 0).wf = false ∧
    (Instr.xcap ⟨64, false, none⟩ 0).wf = false ∧
    (Instr.btlEnable ⟨64, false, none⟩ 0).wf = false ∧
    (Instr.btlDisable ⟨64, false, none⟩ 0).wf = false ∧
    (Instr.btlRestart ⟨64, false, none⟩ 0).wf = false ∧
    (Instr.btlTxWrite ⟨64, false, none⟩ 0 0).wf = false := by
  decide

/-- An initiator ID of more than six bits is refused, whatever the command. -/
theorem test_who_refused_5 :
    (Instr.btlRxRead ⟨64, false, none⟩ 0).wf = false ∧
    (Instr.btlStoreWrite ⟨64, false, none⟩ 0 0 0).wf = false ∧
    (Instr.btlFlagsWrite ⟨64, false, none⟩ 0 0).wf = false ∧
    (Instr.worriLinkEnable ⟨64, false, none⟩ 0).wf = false ∧
    (Instr.retrain ⟨64, false, none⟩ 0).wf = false ∧
    (Instr.wfbRstcmd ⟨64, false, none⟩ 0).wf = false ∧
    (Instr.semRead ⟨64, false, none⟩ 0).wf = false ∧
    (Instr.semWrite ⟨64, false, none⟩ 0 0).wf = false ∧
    (Instr.msixAck ⟨64, false, none⟩ 0).wf = false ∧
    (Instr.frecal ⟨64, false, none⟩).wf = false ∧
    (Instr.rctrim ⟨64, false, none⟩).wf = false ∧
    (Instr.verify ⟨64, false, none⟩ 0).wf = false ∧
    (Instr.mcopy ⟨64, false, none⟩ 0).wf = false ∧
    (Instr.lcToManufacture ⟨64, false, none⟩ 0 0).wf = false ∧
    (Instr.lcToField ⟨64, false, none⟩ 0 0).wf = false ∧
    (Instr.lcToReturn ⟨64, false, none⟩ 0 0).wf = false ∧
    (Instr.lcToScrapped ⟨64, false, none⟩ 0 0).wf = false ∧
    (Instr.revoke ⟨64, false, none⟩ 0 0).wf = false ∧
    (Instr.rollup ⟨64, false, none⟩ 0 0).wf = false ∧
    (Instr.keyprog ⟨64, false, none⟩ 0 0).wf = false := by
  decide

/-- An initiator ID of more than six bits is refused, whatever the command. -/
theorem test_who_refused_6 :
    (Instr.dskgen ⟨64, false, none⟩ 0 0).wf = false ∧
    (Instr.attest ⟨64, false, none⟩).wf = false ∧
    (Instr.blkrst ⟨64, false, none⟩ 0).wf = false ∧
    (Instr.fwStage ⟨64, false, none⟩ 0).wf = false ∧
    (Instr.fwSwitch ⟨64, false, none⟩).wf = false ∧
    (Instr.fwAbort ⟨64, false, none⟩).wf = false ∧
    (Instr.sbyEnable ⟨64, false, none⟩ false).wf = false ∧
    (Instr.swap ⟨64, false, none⟩).wf = false ∧
    (Instr.join ⟨64, false, none⟩).wf = false ∧
    (Instr.awdKick ⟨64, false, none⟩ 0).wf = false ∧
    (Instr.fclr ⟨64, false, none⟩).wf = false ∧
    (Instr.fuseRepair ⟨64, false, none⟩).wf = false ∧
    (Instr.manualTest ⟨64, false, none⟩ 0 0).wf = false := by
  decide

/-- Only the fabric bridge acts for a remote initiator, whose IDs have 12 and 6 bits. -/
theorem test_who_remote :
    (Instr.msixAck ⟨46, false, some (1, 2)⟩ 0).wf = false ∧ (Instr.msixAck ⟨47, false, some (4096, 2)⟩ 0).wf = false ∧
    (Instr.msixAck ⟨47, false, some (1, 64)⟩ 0).wf = false ∧ (Instr.msixAck ⟨47, false, some (4095, 63)⟩ 0).wf = true := by
  decide

/-- An environment that offers more than eight calibration results, or a source range outside the input image, is refused. -/
theorem test_boot_refused :
    (Instr.powerOn false ⟨false, false, 256, [], true, []⟩).wf = false ∧ (Instr.resetN 0 ⟨false, false, 0, [], true, [(0, 0x1FFFF, 2)]⟩).wf = false ∧
    (Instr.wakeN ⟨false, false, 256, [], true, []⟩).wf = false ∧ (Instr.powerOn false ⟨false, false, 255, [], true, [(0, 0x1FFFE, 2)]⟩).wf = true := by
  decide

/-- Bit fields outside the register and host reads of 0 or more than 512 bytes or with a tag above 31 are refused. -/
theorem test_fields_refused :
    (Instr.bfx 0 1 2 31 1).wf = false ∧ (Instr.bfxs 0 1 2 16 16).wf = false ∧ (Instr.bfi 0 1 2 1 31).wf = false ∧ (Instr.bfi 0 1 2 0 31).wf = true ∧
    (Instr.hostMemRead (.bar0 0) 0 0).wf = false ∧ (Instr.hostMemRead (.bar0 0) 513 0).wf = false ∧ (Instr.hostMemRead (.bar0 0) 8 32).wf = false ∧ (Instr.hostMemRead (.bar2 0) 4 31).wf = true ∧ (Instr.qspiRead 0 0).wf = false ∧
    (Instr.qspiRead 0 4096).wf = true := by
  decide

/-- A packet whose fields do not fit the layout of R421 is refused. -/
theorem test_packet_refused :
    (Instr.worriPacketRx 0 ⟨5, 0, 0, 0, 0, false, []⟩ true).wf = false ∧
    (Instr.worriPacketRx 0 ⟨0, 4096, 0, 0, 0, false, []⟩ true).wf = false ∧
    (Instr.worriPacketRx 0 ⟨0, 0, 4096, 0, 0, false, []⟩ true).wf = false ∧
    (Instr.worriPacketRx 0 ⟨0, 0, 0, 4096, 0, false, []⟩ true).wf = false ∧
    (Instr.worriPacketRx 0 ⟨0, 0, 0, 0, 256, false, []⟩ true).wf = false ∧
    (Instr.worriPacketRx 0 ⟨4, 4095, 4095, 4095, 255, true, []⟩ true).wf = true := by
  decide

/-- Runs of more than 4096 bytes and CAN frames of more than 64 bytes are refused. -/
theorem test_long_refused :
    bytesWf (List.replicate 4097 0) = false ∧ canFrameWf ⟨0, 0, List.replicate 65 0⟩ = false ∧ packetWf ⟨0, 0, 0, 0, 0, false, List.replicate 4097 0⟩ = false ∧
    bytesWf (List.replicate 4096 0) = true := by
  decide +kernel

/-- The word of ADD.F w3, w4, w5, as 04_weevil_instructions gives it. -/
theorem test_word_add :
    decodeW 0x04D16000 = some (.alu .add true 3 4 5) := by
  decide +kernel

/-- The words of the worked example of 04_weevil_instructions. -/
theorem test_words_rung :
    decodeW 0xB004184C = some (.bitm .bld 1 0x0C2 3) ∧
    decodeW 0xB2C8FE08 = some (.bitm .bpos 2 0x7F0 2) ∧
    decodeW 0xB0841474 = some (.bitm .band 1 0x0A3 5) ∧
    decodeW 0xB0C41484 = some (.bitm .bandn 1 0x0A4 1) ∧
    decodeW 0xB4000000 = some (.bnest .and) ∧
    decodeW 0xB1041600 = some (.bitm .bor 1 0x0B0 0) ∧
    decodeW 0xB1041618 = some (.bitm .bor 1 0x0B0 6) ∧
    decodeW 0xB4000003 = some (.bunnest) ∧
    decodeW 0xB208083C = some (.bitm .bst 2 0x041 7) ∧
    decodeW 0xB2480840 = some (.bitm .bset 2 0x042 0) := by
  decide +kernel

/-- The all-zero word, a major opcode not listed, COND 0xF, a reserved field that is not 0 and a bit field beyond the register decode to nothing (R118, R119, R125). -/
theorem test_words_illegal :
    decodeW 0 = none ∧ decodeW 0xFFFFFFFF = none ∧ decodeW (w32 (0x20 * 2 ^ 26 + 0xF * 2 ^ 22)) = none ∧ decodeW 0xF0000010 = none ∧
    decodeW 0xB4000005 = none := by
  decide +kernel

/-- Words of format R, written out from R117 and the tables of R122 to R127. -/
theorem test_words_registers :
    decodeW 0b00000100010010001100000000000000 = some (.alu .add false 1 2 3) ∧
    decodeW 0b00000100010010001110000000000001 = some (.alu .sub true 1 2 3) ∧
    decodeW 0b00000100010010001100000000000010 = some (.alu .adc false 1 2 3) ∧
    decodeW 0b00000100010010001110000000000011 = some (.alu .sbc true 1 2 3) ∧
    decodeW 0b00000100010010001100000000000100 = some (.alu .and false 1 2 3) ∧
    decodeW 0b00000100010010001110000000000101 = some (.alu .or true 1 2 3) ∧
    decodeW 0b00000100010010001100000000000110 = some (.alu .xor false 1 2 3) ∧
    decodeW 0b00000100010010001110000000000111 = some (.alu .andn true 1 2 3) ∧
    decodeW 0b00000100010010001100000000001000 = some (.alu .shl false 1 2 3) ∧
    decodeW 0b00000100010010001110000000001001 = some (.alu .shr true 1 2 3) ∧
    decodeW 0b00000100010010001100000000001010 = some (.alu .sar false 1 2 3) ∧
    decodeW 0b00000100010010001110000000001011 = some (.alu .ror true 1 2 3) ∧
    decodeW 0b00000100010010001100000000010000 = some (.alu .mul false 1 2 3) ∧
    decodeW 0b00000100010010001110000000010001 = some (.alu .mulhs true 1 2 3) ∧
    decodeW 0b00000100010010001100000000010010 = some (.alu .mulhu false 1 2 3) ∧
    decodeW 0b00000100010010001100000000010100 = some (.alu .divs false 1 2 3) ∧
    decodeW 0b00000100010010001110000000010101 = some (.alu .divu true 1 2 3) ∧
    decodeW 0b00000100010010001100000000010110 = some (.alu .rems false 1 2 3) ∧
    decodeW 0b00000100010010001110000000010111 = some (.alu .remu true 1 2 3) ∧
    decodeW 0b00000100010010000000000000001100 = some (.clz 1 2) := by
  decide +kernel

/-- Words of formats I, X, P and M. -/
theorem test_words_immediates :
    decodeW 0b00001010011010001000000000000001 = some (.imm .addi false 9 10 0x8001) ∧
    decodeW 0b00001110011010011000000000000001 = some (.imm .andi true 9 10 0x8001) ∧
    decodeW 0b00010010011010001000000000000001 = some (.imm .ori false 9 10 0x8001) ∧
    decodeW 0b00010110011010011000000000000001 = some (.imm .xori true 9 10 0x8001) ∧
    decodeW 0b00011000001010001111111111111110 = some (.cmpi 10 0xFFFE) ∧
    decodeW 0b00011110010000000001001000110100 = some (.lui 9 0x1234) ∧
    decodeW 0b00100010011010010000000000011111 = some (.shift .shli true 9 10 31) ∧
    decodeW 0b00100110011010010000000000011111 = some (.shift .shri true 9 10 31) ∧
    decodeW 0b00101010011010010000000000011111 = some (.shift .sari true 9 10 31) ∧
    decodeW 0b00101110011010010000000000011111 = some (.shift .rori true 9 10 31) ∧
    decodeW 0b00110000010010110000011100000000 = some (.bfx false 1 2 24 7) ∧
    decodeW 0b00110000010010000000101100000001 = some (.bfx true 1 2 0 11) ∧
    decodeW 0b00110100010010010000001100000000 = some (.bfi 1 2 8 3) ∧
    decodeW 0b00111000010010001100000101001100 = some (.bperm 1 2 3 0x053) ∧
    decodeW 0b01000001111000001111111111111100 = some (.load .ldw 7 8 0xFFFC) ∧
    decodeW 0b01000101111000001111111111111100 = some (.load .ldh 7 8 0xFFFC) ∧
    decodeW 0b01001001111000001111111111111100 = some (.load .ldhu 7 8 0xFFFC) ∧
    decodeW 0b01001101111000001111111111111100 = some (.load .ldb 7 8 0xFFFC) ∧
    decodeW 0b01010001111000001111111111111100 = some (.load .ldbu 7 8 0xFFFC) ∧
    decodeW 0b01100001111000000000000000010000 = some (.store .stw 7 8 0x0010) ∧
    decodeW 0b01100101111000000000000000010000 = some (.store .sth 7 8 0x0010) ∧
    decodeW 0b01101001111000000000000000010000 = some (.store .stb 7 8 0x0010) := by
  decide +kernel

/-- Words of formats B, J, T and S, and of the JR and stack groups. -/
theorem test_words_control :
    decodeW 0b10000010111111111111111111111111 = some (.bcc 0xB 0x3FFFFF) ∧
    decodeW 0b10001100000000000000000000000101 = some (.bj true 5) ∧
    decodeW 0b10010000000000000000000000000101 = some (.bj false 5) ∧
    decodeW 0b10000110000000000000000000000001 = some (.call 0x2000001) ∧
    decodeW 0b10001000000101000000000000000000 = some (.jmp 5) ∧
    decodeW 0b10001000000101000000000000000001 = some (.callr 5) ∧
    decodeW 0b10001000000000000000000000000010 = some (.ret) ∧
    decodeW 0b10011000000101000000000000000000 = some (.push 5) ∧
    decodeW 0b10011001010000000000000000000001 = some (.pop 5) ∧
    decodeW 0b10110000000011111111111111111100 = some (.bitm .bld 3 0x1FFF 7) ∧
    decodeW 0b10110000010011111111111111111100 = some (.bitm .bldn 3 0x1FFF 7) ∧
    decodeW 0b10110000100011111111111111111100 = some (.bitm .band 3 0x1FFF 7) ∧
    decodeW 0b10110000110011111111111111111100 = some (.bitm .bandn 3 0x1FFF 7) ∧
    decodeW 0b10110001000011111111111111111100 = some (.bitm .bor 3 0x1FFF 7) ∧
    decodeW 0b10110001010011111111111111111100 = some (.bitm .born 3 0x1FFF 7) ∧
    decodeW 0b10110001100011111111111111111100 = some (.bitm .bxor 3 0x1FFF 7) ∧
    decodeW 0b10110001110011111111111111111100 = some (.bitm .bxorn 3 0x1FFF 7) ∧
    decodeW 0b10110010000011111111111111111100 = some (.bitm .bst 3 0x1FFF 7) ∧
    decodeW 0b10110010010011111111111111111100 = some (.bitm .bset 3 0x1FFF 7) ∧
    decodeW 0b10110010100011111111111111111100 = some (.bitm .brst 3 0x1FFF 7) ∧
    decodeW 0b10110010110011111111111111111100 = some (.bitm .bpos 3 0x1FFF 7) ∧
    decodeW 0b10110011000011111111111111111100 = some (.bitm .bneg 3 0x1FFF 7) ∧
    decodeW 0b10110100000000000000000000000000 = some (.bnest .and) ∧
    decodeW 0b10110100000000000000000000000001 = some (.bnest .or) ∧
    decodeW 0b10110100000000000000000000000010 = some (.bnest .xor) ∧
    decodeW 0b10110100000000000000000000000011 = some (.bunnest) ∧
    decodeW 0b10110100000000000000000000000100 = some (.bnot) ∧
    decodeW 0b11110000000000000000000000000000 = some (.nop) ∧
    decodeW 0b11110000000000000000000000000001 = some (.fence) ∧
    decodeW 0b11110000000100010100000000000010 = some (.sig 4 5) ∧
    decodeW 0b11110000000000000000000000000011 = some (.done) ∧
    decodeW 0b11110000000000000010100101000100 = some (.trap 0xA5) ∧
    decodeW 0b11110000000000000000000000000101 = some (.brk) ∧
    decodeW 0b11110000000000000000000000000110 = some (.rfe) ∧
    decodeW 0b11110001000000000000010010000111 = some (.mfc 4 0x12) ∧
    decodeW 0b11110000000100000000010010001000 = some (.mtc 0x12 4) ∧
    decodeW 0b11110000000000000000000000001001 = some (.icinv) := by
  decide +kernel

/-- 0xFFFFFFFF + 1 is 0 with a carry and no signed overflow (R122). -/
theorem test_add_wraps :
    nextHas (exec (.add 0 true 3 4 5) (runs (.alu .add true 3 4 5) (with45 0xFFFFFFFF 1))) (fun t => (t.core 0).reg 3 == 0 && (t.core 0).z && (t.core 0).c && !(t.core 0).v && !(t.core 0).n) = true := by
  decide +kernel

/-- 0x7FFFFFFF + 1 overflows into the sign (R122). -/
theorem test_add_overflows :
    nextHas (exec (.add 0 true 3 4 5) (runs (.alu .add true 3 4 5) (with45 0x7FFFFFFF 1))) (fun t => (t.core 0).reg 3 == 0x80000000 && (t.core 0).n && (t.core 0).v && !(t.core 0).c) = true := by
  decide +kernel

/-- 0 - 1 borrows: C is 0 (R122). -/
theorem test_sub_borrows :
    nextHas (exec (.sub 0 true 3 4 5) (runs (.alu .sub true 3 4 5) (with45 0 1))) (fun t => (t.core 0).reg 3 == 0xFFFFFFFF && !(t.core 0).c && (t.core 0).n) = true := by
  decide +kernel

/-- A result written to w0 is discarded, and the flags are set all the same (R76). -/
theorem test_add_to_w0 :
    nextHas (exec (.add 0 true 0 4 5) (runs (.alu .add true 0 4 5) (with45 2 3))) (fun t => (t.core 0).reg 0 == 0 && !(t.core 0).z && (t.core 0).pc == 4) = true := by
  decide +kernel

/-- A source that is the destination is read before it is written. -/
theorem test_sub_source_is_destination :
    nextHas (exec (.sub 0 false 4 4 5) (runs (.alu .sub false 4 4 5) (with45 9 4))) (fun t => (t.core 0).reg 4 == 5) = true := by
  decide +kernel

/-- The most negative number by -1 is itself, with V (R128). -/
theorem test_divs_overflow :
    nextHas (exec (.divs 0 true 3 4 5) (runs (.alu .divs true 3 4 5) (with45 0x80000000 0xFFFFFFFF))) (fun t => (t.core 0).reg 3 == 0x80000000 && (t.core 0).v && !(t.core 0).c) = true := by
  decide +kernel

/-- A remainder by 0 is the dividend, with C (R128). -/
theorem test_remu_by_zero :
    nextHas (exec (.remu 0 true 3 4 5) (runs (.alu .remu true 3 4 5) (with45 77 0))) (fun t => (t.core 0).reg 3 == 77 && (t.core 0).c && !(t.core 0).v) = true := by
  decide +kernel

/-- -7 / 2 is -3: truncated toward 0. -/
theorem test_divs_truncates :
    nextHas (exec (.divs 0 false 3 4 5) (runs (.alu .divs false 3 4 5) (with45 0xFFFFFFF9 2))) (fun t => (t.core 0).reg 3 == 0xFFFFFFFD) = true := by
  decide +kernel

/-- SEL 0x688 is the identity (R125). -/
theorem test_bperm_identity :
    nextHas (exec (.bperm 0 3 4 4 0x688) (runs (.bperm 3 4 4 0x688) (with45 0x11223344 0))) (fun t => (t.core 0).reg 3 == 0x11223344) = true := by
  decide +kernel

/-- SEL 0x053 reverses the bytes (R125). -/
theorem test_bperm_reverse :
    nextHas (exec (.bperm 0 3 4 4 0x053) (runs (.bperm 3 4 4 0x053) (with45 0x11223344 0))) (fun t => (t.core 0).reg 3 == 0x44332211) = true := by
  decide +kernel

/-- A 12-bit field with its top bit set is negative (R124). -/
theorem test_bfxs_signed :
    nextHas (exec (.bfxs 0 3 4 4 11) (runs (.bfx true 3 4 4 11) (with45 0x0000FFF5 0))) (fun t => (t.core 0).reg 3 == 0xFFFFFFFF) = true := by
  decide +kernel

/-- A shift amount of 32 is 0, and C stays (R123). -/
theorem test_sar_by_32 :
    nextHas (exec (.sar 0 true 3 4 5) (runs (.alu .sar true 3 4 5) (with45 0x80000000 32))) (fun t => (t.core 0).reg 3 == 0x80000000 && !(t.core 0).c) = true := by
  decide +kernel

/-- Step 2 of the worked example of 04_weevil_instructions: the edge bit was 0 and BACC is 1. -/
theorem test_rung_bpos :
    nextHas (exec (.bpos 0 2 0x7F0 2) (runs (.bitm .bpos 2 0x7F0 2) (fun k => { k with bacc := true, bopen := true }))) (fun t => (t.core 0).bacc && (t.core 0).bopen && byteAt t (reachAddr 0 0x7F0) == 4) = true := by
  decide +kernel

/-- Step 4: an inverted contact that reads 0 leaves BACC 1. -/
theorem test_rung_bandn :
    nextHas (exec (.bandn 0 1 0x0A4 1) (runs (.bitm .bandn 1 0x0A4 1) (fun k => { k with bacc := true, bopen := true }))) (fun t => (t.core 0).bacc && (t.core 0).bopen) = true := by
  decide +kernel

/-- Step 5: BSTK entry 0 is 0xD (BACC 1, BOPEN 1, AND), and BOPEN becomes 0. -/
theorem test_rung_bnest :
    nextHas (exec (.bnestA 0) (runs (.bnest .and) (fun k => { k with bacc := true, bopen := true }))) (fun t => (t.core 0).bacc && !(t.core 0).bopen && (t.core 0).bstk.toNat % 16 == 0xD) = true := by
  decide +kernel

/-- Step 9: the coil takes BACC. -/
theorem test_rung_bst :
    nextHas (exec (.bst 0 2 0x041 7) (runs (.bitm .bst 2 0x041 7) (fun k => { k with bacc := true, bopen := true }))) (fun t => (t.core 0).bacc && !(t.core 0).bopen && byteAt t (reachAddr 0 0x041) == 0x80) = true := by
  decide +kernel

/-- LDB extends the sign. -/
theorem test_ldb_signs :
    nextHas (exec (.ldb 0 3 0 0x40) (putBytes (reachAddr 0 0x40) [0x80] (runs (.load .ldb 3 0 0x40) id))) (fun t => (t.core 0).reg 3 == 0xFFFFFF80) = true := by
  decide +kernel

/-- STW stores the low byte first (R7). -/
theorem test_stw_little_endian :
    nextHas (exec (.stw 0 4 0 0x40) (runs (.store .stw 4 0 0x40) (with45 0x11223344 0))) (fun t => bytesAt t (reachAddr 0 0x40) 4 == [0x44, 0x33, 0x22, 0x11]) = true := by
  decide +kernel

/-- A word load at an odd half-word takes ALIGN: the PC goes to VBASE + 16 times its cause (R86, R111). -/
theorem test_ldw_misaligned :
    nextHas (exec (.ldw 0 3 0 0x42) (runs (.load .ldw 3 0 0x42) (fun k => { k with vbase := 0x1000 }))) (fun t => (t.core 0).reg 3 == 0 && (t.core 0).sup && 0x1000 < (t.core 0).pc.toNat) = true := by
  decide +kernel

/-- A branch back by one word from 0 goes to the last word of the address space (R131). -/
theorem test_bcc_backwards :
    nextHas (exec (.bcc 0 14 0x3FFFFF) (runs (.bcc 14 0x3FFFFF) id)) (fun t => (t.core 0).pc == 0xFFFFFFFC) = true := by
  decide +kernel

/-- CALL pushes the address of the next word. -/
theorem test_call_pushes :
    nextHas (exec (.call 0 5) (runs (.call 5) id)) (fun t => (t.core 0).pc == 20 && (t.core 0).rstack == [4]) = true := by
  decide +kernel

/-- The check value of R358 over 123456789. -/
theorem test_crc32c :
    crc32c [0x31, 0x32, 0x33, 0x34, 0x35, 0x36, 0x37, 0x38, 0x39] = 0xE3069283 := by
  decide +kernel

/-- The check value of the IEEE 802.3 FCS over 123456789. -/
theorem test_crc32 :
    crc32 [0x31, 0x32, 0x33, 0x34, 0x35, 0x36, 0x37, 0x38, 0x39] = 0xCBF43926 := by
  decide +kernel

/-- The check value of the CRC-8 with polynomial 0x07 and initial value 0 over 123456789. -/
theorem test_crc8 :
    crc8 [0x31, 0x32, 0x33, 0x34, 0x35, 0x36, 0x37, 0x38, 0x39] = 0xF4 := by
  decide +kernel

/-- A read of a free semaphore answers 0 and takes it (R456). -/
theorem test_semaphore_taken :
    nextHas (exec (.semRead ⟨7, false, none⟩ 31) (State.reset)) (fun t => t.sent == [{ chan := .reply 7, bytes := [0, 0, 0, 0] }] && (t.brg.sems.get 31).isSome) = true := by
  decide +kernel

/-- A read of one that is held answers the owner plus 1 (R456). -/
theorem test_semaphore_held :
    nextHas (exec (.semRead ⟨9, false, none⟩ 31) (setSem 31 (some { id := 7, fid := 0, since := 0 }) State.reset)) (fun t => t.sent == [{ chan := .reply 9, bytes := [8, 0, 0, 0] }]) = true := by
  decide +kernel

/-- 0x80000000 in Gray code is 0xFFFFFFFF (R406). -/
theorem test_gray :
    nextHas (exec (.xformGray 0) (modEng 0 (fun x => { x with sr := 0x80000000 }) (setF (F.BTL_STORE_INSTR 0 0) 0x7300 (setEngState 0 1 (setF F.SYS_CLKSTAT_BTLLOCK 1 State.reset))))) (fun t => (t.engine 0).sr == 0xFFFFFFFF && (t.engine 0).next == 1) = true := by
  decide +kernel

/-- XFORM code 15 puts the engine into FAULT with cause ILLEGAL (R406, R407). -/
theorem test_beetle_illegal :
    nextHas (exec (.xformGray 0) (setF (F.BTL_STORE_INSTR 0 0) 0x7F00 (setEngState 0 1 (setF F.SYS_CLKSTAT_BTLLOCK 1 State.reset)))) (fun t => engState t 0 == 3 && getF t (F.BTL_ENG_STAT_FCAUSE 0 0) == 1) = true := by
  decide +kernel

/-- An unprivileged write of a privileged field is dropped and counted (R70). -/
theorem test_unprivileged_write :
    nextHas (exec (.registerWrite ⟨46, false, none⟩ (w32 A.SYS_PRIVCTL) 3) (State.reset)) (fun t => rd t A.SYS_PRIVCTL == rd State.reset A.SYS_PRIVCTL && getF t F.SYS_PRIVCNT_COUNT == 1) = true := by
  decide +kernel

/-! ### States that meet the hypotheses of the statements -/

/-- A waiting command makes the step of a state whose lists are canonical. -/
theorem witness_CanonicalKept :
    ∃ s t : State, s.canonical = true ∧ step s = .next t :=
  ⟨State.reset, idle (quiet State.reset), by decide +kernel, rfl⟩

/-- An empty queue. -/
theorem witness_StepRunsFront : ∃ s : State, s.pending = [] ∧ live s = false :=
  ⟨modCfg (fun c => { c with halted := true }) State.reset, rfl, rfl⟩

/-- A queue of well-formed commands. -/
theorem witness_StepKeepsQueue : ∃ s : State, s.queueWf = true ∧ s.pending ≠ [] :=
  ⟨{ State.reset with pending := [Instr.nop 3] }, rfl, nofun⟩

/-- Instructions at the ends of their operands. -/
theorem witness_WeevilRoundTrip : (WOp.bfx true 15 15 0 31).encodable = true ∧ (WOp.bfi 0 0 31 0).encodable = true ∧
    decodeW 0xF0000249 = none ∧ decodeW 0xF0000009 = some .icinv := by
  decide +kernel

/-- Addresses and initiators at the ends of the ranges of R47 and R48. -/
theorem witness_OwnReachAlias :
    (∃ a : Nat, ∃ who : Who, a < 0x100000 ∧ who.id < 40) ∧ (∃ a : Nat, ∃ who : Who, a < 0x100000 ∧ 40 ≤ who.id ∧ who.id < 45) ∧
    (∃ a : Nat, ∃ who : Who, a < 0x100000 ∧ 45 ≤ who.id) ∧ (∃ off : Nat, off < 0x1000000 ∧ ¬ off < 0x100000) ∧
    (∃ off : Nat, off < 0x100000) ∧ ∃ a : Nat, 0x15000000 ≤ a ∧ a < 0x20000000 :=
  ⟨⟨0xFFFFF, ⟨39, false, none⟩, by decide⟩, ⟨0xFFFFF, ⟨44, true, none⟩, by decide⟩, ⟨0, ⟨45, true, none⟩, by decide⟩,
   ⟨0x100000, by decide⟩, ⟨0xFFFFF, by decide⟩, ⟨0x1FFFFFFF, by decide⟩⟩

/-- A byte of a word at its end. -/
theorem witness_LittleEndianMemory : ∃ k n : Nat, k < n := ⟨3, 4, by decide⟩

/-- States and operands that meet the hypotheses of RegisterWrites. -/
theorem witness_RegisterWrites :
    (∃ (who : Who) (a : Word) (v : Word) (d : RegDesc) (f : FieldDesc) (s : State), live s = true ∧ calm s s = true ∧ isPriv s who = true ∧ a.toNat ∈ [A.SYS_PRIVCTL, A.LKP_CTL, A.LKP_HWM, A.LKP_TRCCTL, A.SCN_WDCTL, A.SCN_FORCEARG] ∧ descAt a.toNat = some d ∧ lockedReg s a.toNat 0 v.toNat = false ∧ ((d.fields.all fun g => g.acc != .rw || g.clamp.apply (bitsOf v.toNat g.lo g.w) == bitsOf v.toNat g.lo g.w) = true) ∧ f ∈ d.fields ∧ f.acc = .rw ∧ unguarded s who = true) ∧
    (∃ (who : Who) (a : Word) (v : Word) (s : State), live s = true ∧ calm s s = true ∧ isPriv s who = true ∧ a.toNat ∈ [A.SYS_EVT, A.LKH_EVT, A.LKP_EVT, A.SCN_EVT, A.BAS_EVT, A.TMB_EVT, A.CFG_EVT] ∧ v.toNat / 2 ^ 24 = (rd s a.toNat).toNat / 2 ^ 24 ∧ unguarded s who = true) ∧
    (∃ (who : Who) (sel : Fin 16) (s : State), live s = true ∧ isSet s F.SYS_CLKSTAT_REFOK = true ∧ sel.val < 10 ∧ isSet s ⟨A.SYS_CLKSTAT, pllBit sel, 1⟩ = true ∧ unguarded s who = true) ∧
    (∃ (who : Who) (n : Fin 16) (s : State), live s = true ∧ isPriv s who = true ∧ unguarded s who = true) :=
  ⟨⟨⟨49, true, none⟩, 0x60020000#32, 0x01000000#32, ⟨0x0, 1, 0x0, .one, [⟨16, 13, .rw, true, 0x400, (.range 0 4096)⟩]⟩, ⟨16, 13, .rw, true, 0x400, (.range 0 4096)⟩, State.reset, by decide +kernel⟩,
   ⟨⟨49, true, none⟩, 0x60000014#32, 0x02000005#32, wr 0x60000014 0x0200000D#32 State.reset, by decide +kernel⟩,
   ⟨⟨46, false, none⟩, 3, wr A.SYS_CLKSTAT 0x1F3F#32 State.reset, by decide +kernel⟩,
   ⟨⟨49, true, none⟩, 15, wr (A.SYS_BUSERR_ADDR 2) 5#32 State.reset, by decide +kernel⟩⟩

/-- States and operands that meet the hypotheses of ClocksAndReference. -/
theorem witness_ClocksAndReference :
    (∃ (p : Fin 10) (s : State), live s = true ∧ calm s s = true ∧ 5 ≤ p.val ∧ p.val ≠ 6 ∧ isSet s ⟨A.SYS_CLKSTAT, pllBit p, 1⟩ = true) ∧
    (∃ (s : State), live s = true ∧ calm s s = true ∧ isSet s F.SYS_CLKSTAT_TMBLOCK = true ∧ isSet s F.TMB_STATUS_HOLDOVER = false) ∧
    (∃ (p : Fin 10) (s : State), live s = true ∧ calm s s = true ∧ p.val < 5 ∧ isSet s ⟨A.SYS_CLKSTAT, pllBit p, 1⟩ = true ∧ failed s p = false) ∧
    (∃ (p : Fin 10) (s : State), live s = true ∧ isSet s F.SYS_STATUS_READY = true ∧ 5 ≤ p.val ∧ (p.val ≠ 7 ∨ isSet s F.SYS_CLKSTAT_BTLLOCK = true) ∧ (p.val ≠ 6 ∨ isSet s F.TMB_STATUS_HOLDOVER = true)) ∧
    (∃ (s : State), live s = true ∧ isSet s F.SYS_STATUS_READY = true ∧ isSet s F.SYS_CLKSTAT_BTLLOCK = false) ∧
    (∃ (s : State), live s = true ∧ isSet s F.SYS_CLKSTAT_REFOK = true) ∧
    (∃ (s : State), live s = true ∧ isSet s F.SYS_CLKSTAT_REFOK = false) :=
  ⟨⟨5, wr A.SYS_CLKSTAT 0x1F3F#32 State.reset, by decide +kernel⟩,
   ⟨wr A.SYS_CLKSTAT 0x1F3F#32 State.reset, by decide +kernel⟩,
   ⟨1, wr A.SYS_CLKSTAT 0x1F3F#32 State.reset, by decide +kernel⟩,
   ⟨6, setF F.SYS_STATUS_READY 1 (setF F.TMB_STATUS_HOLDOVER 1 State.reset), by decide +kernel⟩,
   ⟨setF F.SYS_CLKSTAT_BTLLOCK 0 (setF F.SYS_STATUS_READY 1 State.reset), by decide +kernel⟩,
   ⟨wr A.SYS_CLKSTAT 0x1F3F#32 State.reset, by decide +kernel⟩,
   ⟨modCfg (fun c => { c with refLost := some 0 }) State.reset, by decide +kernel⟩⟩

/-- States and operands that meet the hypotheses of PowerAndReset. -/
theorem witness_PowerAndReset :
    (∃ (lost : Bool) (b : Boot) (s : State), s.cfg.brownout = false ∧ s.cfg.fuses.lcs = 0 ∧ b.bad = [] ∧ b.calFail = 0) ∧
    (∃ (low : Nat) (b : Boot) (s : State), 1000 ≤ low ∧ s.cfg.brownout = false ∧ s.faults.testOpen = false ∧ s.cfg.fuses.lcs = 0 ∧ b.bad = [] ∧ b.calFail = 0) ∧
    (∃ (low : Nat) (b : Boot) (s : State), low < 200 ∧ calm s s = true) ∧
    (∃ (b : Boot) (s : State), s.cfg.standby = true ∧ s.faults.testOpen = false ∧ s.faults.stopped = false ∧ s.cfg.fuses.lcs = 0 ∧ b.bad = [] ∧ b.calFail = 0) ∧
    (∃ (who : Who) (key : BitVec 16) (s : State), live s = true ∧ calm s s = true ∧ isPriv s who = true ∧ key = 0xA5C3#16 ∧ s.faults.testOpen = false ∧ s.faults.stopped = false ∧ s.cfg.fuses.lcs = 0 ∧ s.boot.bad = [] ∧ s.boot.calFail = 0 ∧ unguarded s who = true) :=
  ⟨⟨false, { test := false, hostsel := false, calFail := 0, bad := [], field := false, sources := [] }, State.reset, by decide +kernel⟩,
   ⟨1000, { test := false, hostsel := false, calFail := 0, bad := [], field := false, sources := [] }, State.reset, by decide +kernel⟩,
   ⟨199, { test := false, hostsel := false, calFail := 0, bad := [], field := false, sources := [] }, State.reset, by decide +kernel⟩,
   ⟨{ test := false, hostsel := false, calFail := 0, bad := [], field := false, sources := [] }, modCfg (fun c => { c with standby := true }) State.reset, by decide +kernel⟩,
   ⟨⟨49, true, none⟩, 0xA5C3#16, State.reset, by decide +kernel⟩⟩

/-- States and operands that meet the hypotheses of SupplyAndStandby. -/
theorem witness_SupplyAndStandby :
    (∃ (vin : Nat) (s : State), live s = true ∧ isSet s F.SYS_STATUS_PWRWARN = false ∧ s.scan.retRun.isSome = true) ∧
    (∃ (vin : Nat) (t0 : Nat) (v0 : Nat) (s : State), live s = true ∧ s.cfg.dip = some (t0, v0)) ∧
    (∃ (vin : Nat) (s : State), s.cfg.brownout = false ∧ isSet s F.SYS_STATUS_READY = true) ∧
    (∃ (vin : Nat) (s : State), s.cfg.brownout = false ∧ isSet s F.SYS_STATUS_READY = false) ∧
    (∃ (lost : Bool) (b : Boot) (s : State), s.cfg.brownout = true ∧ getF s F.SYS_STATUS_LASTRST = 1 ∧ lost = false ∧ s.cfg.fuses.lcs = 0 ∧ b.bad = [] ∧ b.calFail = 0) ∧
    (∃ (who : Who) (s : State), live s = true ∧ calm s s = true ∧ isPriv s who = true ∧ s.faults.coreStopped = false ∧ (getF s F.SCN_STATUS_CSTATE = 0 ∨ getF s F.SCN_STATUS_CSTATE = 3) ∧ s.scan.retRun = none ∧ unguarded s who = true) ∧
    (∃ (fail : Nat) (s : State), live s = true ∧ isSet s F.SYS_STATUS_FIELDOK = true ∧ (s.cfg.calDue = true ∨ s.cfg.recal = true)) :=
  ⟨⟨440, modScan (fun c => { c with retRun := some [] }) State.reset, by decide +kernel⟩,
   ⟨430, 0, 440, modCfg (fun c => { c with dip := some (0, 440) }) State.reset, by decide +kernel⟩,
   ⟨400, setF F.SYS_STATUS_READY 1 State.reset, by decide +kernel⟩,
   ⟨400, State.reset, by decide +kernel⟩,
   ⟨false, { test := false, hostsel := false, calFail := 0, bad := [], field := false, sources := [] }, setF F.SYS_STATUS_LASTRST 1 (modCfg (fun c => { c with brownout := true }) State.reset), by decide +kernel⟩,
   ⟨⟨49, true, none⟩, State.reset, by decide +kernel⟩,
   ⟨0x20, setF F.SYS_STATUS_FIELDOK 1 (modCfg (fun c => { c with calDue := true }) State.reset), by decide +kernel⟩⟩

/-- States and operands that meet the hypotheses of ConfigurationCommands. -/
theorem witness_ConfigurationCommands_1 :
    (∃ (who : Who) (s : State), live s = true ∧ isPriv s who = true ∧ s.faults.coreStopped = false ∧ unguarded s who = true) ∧
    (∃ (who : Who) (s : State), live s = true ∧ isPriv s who = true ∧ s.faults.coreStopped = false ∧ unguarded s who = true) ∧
    (∃ (who : Who) (slot : Fin 2) (s : State), live s = true ∧ isPriv s who = true ∧ s.faults.coreStopped = false ∧ s.cfg.verify = none ∧ unguarded s who = true) ∧
    (∃ (n : Fin 2) (s : State), live s = true ∧ s.cfg.verify = some n.val ∧ merges s A.CFG_EVT 3 = false) ∧
    (∃ (who : Who) (lines : Fin 262144) (s : State), live s = true ∧ isPriv s who = true ∧ s.faults.coreStopped = false ∧ s.cfg.mcopy = none ∧ 1 ≤ lines.val ∧ lines.val ≤ 131071 ∧ mcopyRefused s (64 * getF s F.CFG_MDST_OFF) (64 * lines.val) = false ∧ unguarded s who = true) ∧
    (∃ (who : Who) (lines : Fin 262144) (s : State), live s = true ∧ isPriv s who = true ∧ s.faults.coreStopped = false ∧ s.cfg.mcopy = none ∧ 1 ≤ lines.val ∧ lines.val ≤ 131071 ∧ mcopyRefused s (64 * getF s F.CFG_MDST_OFF) (64 * lines.val) = true ∧ merges s A.CFG_EVT 4 = false ∧ unguarded s who = true) ∧
    (∃ (src : Nat) (dst : Nat) (s : State), live s = true ∧ calm s s = true ∧ s.cfg.mcopy = some (src, dst, 0) ∧ isSet s F.SYS_STATUS_PWRWARN = false ∧ s.scan.retRun = none ∧ merges s A.CFG_EVT 4 = false) ∧
    (∃ (who : Who) (k : Nat) (s : State), live s = true ∧ isPriv s who = true ∧ s.faults.coreStopped = false ∧ s.cfg.fuses.key = some k ∧ s.cfg.attest = none ∧ unguarded s who = true) :=
  ⟨⟨⟨49, true, none⟩, State.reset, by decide +kernel⟩,
   ⟨⟨49, true, none⟩, State.reset, by decide +kernel⟩,
   ⟨⟨49, true, none⟩, 1, State.reset, by decide +kernel⟩,
   ⟨1, modCfg (fun c => { c with verify := some 1 }) State.reset, by decide +kernel⟩,
   ⟨⟨49, true, none⟩, 16, wr A.CFG_MDST 0x01800000#32 State.reset, by decide +kernel⟩,
   ⟨⟨49, true, none⟩, 1, wr A.CFG_MDST 0x01000000#32 State.reset, by decide +kernel⟩,
   ⟨0, 0, modCfg (fun c => { c with mcopy := some (0, 0, 0) }) State.reset, by decide +kernel⟩,
   ⟨⟨49, true, none⟩, 7, modCfg (fun c => { c with fuses := { c.fuses with key := some 7 } }) State.reset, by decide +kernel⟩⟩

/-- States and operands that meet the hypotheses of ConfigurationCommands. -/
theorem witness_ConfigurationCommands_2 :
    (∃ (who : Who) (s : State), live s = true ∧ isPriv s who = true ∧ s.faults.coreStopped = false ∧ s.cfg.fuses.key = none ∧ unguarded s who = true) ∧
    (∃ (h : Nat) (d : Nat) (s : State), live s = true ∧ s.cfg.attest = some h ∧ s.cfg.fuses.key = some d ∧ merges s A.CFG_EVT 7 = false) ∧
    (∃ (who : Who) (block : BitVec 8) (a : Fin 0x4000) (s : State), live s = true ∧ calm s s = true ∧ isPriv s who = true ∧ s.faults.coreStopped = false ∧ (block = 0x0A#8 ∨ block = 0x0B#8) ∧ unguarded s who = true) :=
  ⟨⟨⟨49, true, none⟩, State.reset, by decide +kernel⟩,
   ⟨5, 7, modCfg (fun c => { c with attest := some 5, fuses := { c.fuses with key := some 7 } }) State.reset, by decide +kernel⟩,
   ⟨⟨49, true, none⟩, 0x0B#8, 0, State.reset, by decide +kernel⟩⟩

/-- States and operands that meet the hypotheses of LifeCycle. -/
theorem witness_LifeCycle_1 :
    (∃ (who : Who) (confirm : BitVec 8) (key : Fin 4) (s : State), live s = true ∧ isPriv s who = true ∧ s.faults.coreStopped = false ∧ s.cfg.lcChange = none ∧ (confirm = 0xC5#8 ∧ lcAccepts s 1 key = true) ∧ unguarded s who = true) ∧
    (∃ (who : Who) (confirm : BitVec 8) (key : Fin 4) (s : State), live s = true ∧ isPriv s who = true ∧ s.faults.coreStopped = false ∧ s.cfg.lcChange = none ∧ (¬ (confirm = 0xC5#8 ∧ lcAccepts s 1 key = true)) ∧ unguarded s who = true) ∧
    (∃ (who : Who) (confirm : BitVec 8) (key : Fin 4) (s : State), live s = true ∧ isPriv s who = true ∧ s.faults.coreStopped = false ∧ s.cfg.lcChange = none ∧ (confirm = 0xC5#8 ∧ lcAccepts s 2 key = true) ∧ unguarded s who = true) ∧
    (∃ (who : Who) (confirm : BitVec 8) (key : Fin 4) (s : State), live s = true ∧ isPriv s who = true ∧ s.faults.coreStopped = false ∧ s.cfg.lcChange = none ∧ (¬ (confirm = 0xC5#8 ∧ lcAccepts s 2 key = true)) ∧ unguarded s who = true) ∧
    (∃ (who : Who) (confirm : BitVec 8) (key : Fin 4) (s : State), live s = true ∧ isPriv s who = true ∧ s.faults.coreStopped = false ∧ s.cfg.lcChange = none ∧ (confirm = 0xC5#8 ∧ lcAccepts s 3 key = true) ∧ unguarded s who = true) ∧
    (∃ (who : Who) (confirm : BitVec 8) (key : Fin 4) (s : State), live s = true ∧ isPriv s who = true ∧ s.faults.coreStopped = false ∧ s.cfg.lcChange = none ∧ (¬ (confirm = 0xC5#8 ∧ lcAccepts s 3 key = true)) ∧ unguarded s who = true) ∧
    (∃ (who : Who) (confirm : BitVec 8) (key : Fin 4) (s : State), live s = true ∧ isPriv s who = true ∧ s.faults.coreStopped = false ∧ s.cfg.lcChange = none ∧ (confirm = 0xC5#8 ∧ lcAccepts s 4 key = true) ∧ unguarded s who = true) ∧
    (∃ (who : Who) (confirm : BitVec 8) (key : Fin 4) (s : State), live s = true ∧ isPriv s who = true ∧ s.faults.coreStopped = false ∧ s.cfg.lcChange = none ∧ (confirm = 0xC5#8 ∧ lcAccepts s 5 key = true) ∧ unguarded s who = true) :=
  ⟨⟨⟨49, true, none⟩, 0xC5#8, 0, State.reset, by decide +kernel⟩,
   ⟨⟨49, true, none⟩, 0xC4#8, 0, State.reset, by decide +kernel⟩,
   ⟨⟨49, true, none⟩, 0xC5#8, 0, setF F.SYS_STATUS_LCS 1 (setF F.CFG_KEYSTAT_DSKPROG 1 (setF F.CFG_KEYSTAT_PROG 1 State.reset)), by decide +kernel⟩,
   ⟨⟨49, true, none⟩, 0xC5#8, 0, State.reset, by decide +kernel⟩,
   ⟨⟨49, true, none⟩, 0xC5#8, 0, setF F.SYS_STATUS_LCS 2 (setF F.CFG_STATUS_IMG 1 { State.reset with mem := [(0x40000006, 1)] }), by decide +kernel⟩,
   ⟨⟨49, true, none⟩, 0xC5#8, 0, State.reset, by decide +kernel⟩,
   ⟨⟨49, true, none⟩, 0xC5#8, 0, State.reset, by decide +kernel⟩,
   ⟨⟨49, true, none⟩, 0xC5#8, 0, setF F.SYS_STATUS_LCS 2 (setF F.CFG_KEYSTAT_PROG 3 State.reset), by decide +kernel⟩⟩

/-- States and operands that meet the hypotheses of LifeCycle. -/
theorem witness_LifeCycle_2 :
    (∃ (who : Who) (confirm : BitVec 8) (key : Fin 4) (n : Fin 2) (s : State), live s = true ∧ isPriv s who = true ∧ s.faults.coreStopped = false ∧ s.cfg.lcChange = none ∧ (confirm = 0xC5#8 ∧ lcAccepts s 6 key = true) ∧ loadedSlot s = some n.val ∧ unguarded s who = true) ∧
    (∃ (who : Who) (confirm : BitVec 8) (key : Fin 4) (s : State), live s = true ∧ isPriv s who = true ∧ s.faults.coreStopped = false ∧ s.cfg.lcChange = none ∧ (confirm = 0xC5#8 ∧ lcAccepts s 7 key = true) ∧ unguarded s who = true) ∧
    (∃ (who : Who) (confirm : BitVec 8) (key : Fin 4) (s : State), live s = true ∧ isPriv s who = true ∧ s.faults.coreStopped = false ∧ s.cfg.lcChange = none ∧ (confirm = 0xC5#8 ∧ lcAccepts s 8 key = true) ∧ unguarded s who = true) ∧
    (∃ (n : Fin 5) (s : State), live s = true ∧ s.cfg.lcChange = some n.val ∧ merges s A.CFG_EVT 6 = false) :=
  ⟨⟨⟨49, true, none⟩, 0xC5#8, 0, 0, setF F.SYS_STATUS_LCS 2 (setF F.CFG_STATUS_IMG 1 { State.reset with mem := [(0x40000015, 9)] }), by decide +kernel⟩,
   ⟨⟨49, true, none⟩, 0xC5#8, 3, setF F.SYS_STATUS_LCS 1 State.reset, by decide +kernel⟩,
   ⟨⟨49, true, none⟩, 0xC5#8, 3, setF F.SYS_STATUS_LCS 1 State.reset, by decide +kernel⟩,
   ⟨3, modCfg (fun c => { c with lcChange := some 3 }) State.reset, by decide +kernel⟩⟩

/-- States and operands that meet the hypotheses of SharedSlices. -/
theorem witness_SharedSlices :
    (∃ (k : Fin 88) (s : State), live s = true ∧ 48 ≤ k.val ∧ sliceRunning s = none ∧ isSet s F.SYS_STATUS_READY = true ∧ s.faults.coreStopped = false ∧ s.rot.window = none ∧ s.scan.aborting = false ∧ s.cfg.slices.contains k.val = false ∧ gapFor s k = true) ∧
    (∃ (sig : Word) (k : Fin 88) (s : State), live s = true ∧ calm s s = true ∧ 64 ≤ k.val ∧ sliceRunning s = some k.val ∧ s.rot.held = [] ∧ s.brg.gathers = [] ∧ s.brg.waits = [] ∧ s.tmb.shadow = []) ∧
    (∃ (sig : Word) (k : Fin 88) (u : Fin 32) (h : Nat) (s : State), live s = true ∧ calm s s = true ∧ 80 ≤ k.val ∧ sliceRunning s = some k.val ∧ s.rot.held = [] ∧ s.brg.gathers = [] ∧ s.brg.waits = [] ∧ s.tmb.shadow = [(u.val, h)] ∧ isSet s (F.TMB_UNIT_STAT_VALID u) = false ∧ h < 2 ^ 64) ∧
    (∃ (sig : Word) (k : Fin 88) (off : Nat) (tag : Nat) (s : State), live s = true ∧ calm s s = true ∧ 64 ≤ k.val ∧ k.val < 80 ∧ sliceRunning s = some k.val ∧ s.rot.window = none ∧ s.rot.held = [] ∧ s.brg.gathers = [] ∧ s.brg.waits = [.memRead off 4 tag] ∧ s.brg.reads = [] ∧ isSet s F.BRG_CTL_HEN = false) ∧
    (∃ (b : Fin 6) (s : State), live s = true ∧ vget s.cfg.blockLatent b = false ∧ isSet s F.SYS_STATUS_READY = true ∧ vget s.cfg.blockAt b + 1200000000 < s.now ∧ merges s A.BST_EVT 1 = false) ∧
    (∃ (e : FaultEntry) (l : List FaultEntry) (s : State), live s = true ∧ s.faults.coreStopped = false ∧ s.scan.retRun = none ∧ s.faults.queue = e :: l ∧ s.faults.last = none ∧ merges s A.LKH_FEVT 2 = false) :=
  ⟨⟨87, setF F.SYS_STATUS_READY 1 (setF F.BST_STATUS_RUNNING 0xFF State.reset), by decide +kernel⟩,
   ⟨0#32, 64, setF F.BST_STATUS_RUNNING 64 State.reset, by decide +kernel⟩,
   ⟨0#32, 82, 9, 0x123456789, { setF F.BST_STATUS_RUNNING 82 State.reset with tmb := { Tmb.reset with shadow := [(9, 0x123456789)] } }, by decide +kernel⟩,
   ⟨0#32, 64, 0, 5, { setF F.BRG_CTL_HEN 0 (setF F.BST_STATUS_RUNNING 64 State.reset) with brg := { Brg.reset with waits := [.memRead 0 4 5] } }, by decide +kernel⟩,
   ⟨5, setF F.SYS_STATUS_READY 1 { State.reset with now := 1200000001 }, by decide +kernel⟩,
   ⟨⟨5, 3, 2, 0, 0, 1, 0, 0, [1]⟩, [], modFaults (fun x => { x with queue := [⟨5, 3, 2, 0, 0, 1, 0, 0, [1]⟩] }) State.reset, by decide +kernel⟩⟩

/-- States and operands that meet the hypotheses of WatchdogsAndDeviceFaults. -/
theorem witness_WatchdogsAndDeviceFaults_1 :
    (∃ (s : State), live s = true ∧ calm s s = true ∧ s.faults.wedged = false ∧ s.faults.testOpen = false ∧ s.faults.stopped = false ∧ getF s F.LKH_FCFG_RSTMAX = 0 ∧ s.faults.last = none ∧ s.cfg.fuses.lcs = 0 ∧ s.boot.bad = [] ∧ s.boot.calFail = 0) ∧
    (∃ (a : Word) (s : State), live s = true ∧ calm s s = true ∧ s.faults.wedged = false ∧ s.faults.testOpen = false ∧ s.faults.stopped = false ∧ getF s F.LKH_FCFG_RSTMAX = 0 ∧ s.faults.last = none ∧ s.cfg.fuses.lcs = 0 ∧ s.boot.bad = [] ∧ s.boot.calFail = 0) ∧
    (∃ (k : Nat) (x : Ready) (s : State), live s = true ∧ calm s s = true ∧ s.faults.wedged = false ∧ s.faults.testOpen = false ∧ s.faults.stopped = false ∧ getF s F.LKH_FCFG_RSTMAX = 0 ∧ s.faults.last = none ∧ s.cfg.fuses.lcs = 0 ∧ s.boot.bad = [] ∧ s.boot.calFail = 0 ∧ s.lkp.ready[k]? = some x ∧ reachOf s x.role < 5 ∧ ((s.lkp.idle.any fun i => decide (i / 8 = reachOf s x.role) && bitAt x.aff (i % 8)) = true) ∧ x.since + 50000 ≤ time s) ∧
    (∃ (tmo : Nat) (t0 : Nat) (s : State), live s = true ∧ calm s s = true ∧ s.faults.wedged = false ∧ s.faults.testOpen = false ∧ s.faults.stopped = false ∧ getF s F.LKH_FCFG_RSTMAX = 0 ∧ s.faults.last = none ∧ s.cfg.fuses.lcs = 0 ∧ s.boot.bad = [] ∧ s.boot.calFail = 0 ∧ s.faults.awd = some (tmo, t0) ∧ t0 + 1000000 * tmo ≤ s.now) ∧
    (∃ (s : State), live s = true ∧ calm s s = true ∧ s.faults.wedged = false ∧ s.faults.testOpen = false ∧ s.faults.stopped = false ∧ getF s F.LKH_FCFG_RSTMAX = 0 ∧ s.faults.last = none ∧ s.cfg.fuses.lcs = 0 ∧ s.boot.bad = [] ∧ s.boot.calFail = 0) ∧
    (∃ (s : State), live s = true ∧ calm s s = true) ∧
    (∃ (other : Nat) (s : State), live s = true ∧ calm s s = true ∧ s.faults.wedged = false ∧ s.faults.testOpen = false ∧ s.faults.stopped = false ∧ getF s F.LKH_FCFG_RSTMAX = 0 ∧ s.faults.last = none ∧ s.cfg.fuses.lcs = 0 ∧ s.boot.bad = [] ∧ s.boot.calFail = 0) ∧
    (∃ (t0 : Nat) (s : State), live s = true ∧ calm s s = true ∧ s.faults.wedged = false ∧ s.faults.testOpen = false ∧ s.faults.stopped = false ∧ getF s F.LKH_FCFG_RSTMAX = 0 ∧ s.faults.last = none ∧ s.cfg.fuses.lcs = 0 ∧ s.boot.bad = [] ∧ s.boot.calFail = 0 ∧ s.cfg.refLost = some t0 ∧ t0 + 100000 ≤ s.now) :=
  ⟨⟨setF F.LKH_FCFG_RSTMAX 0 State.reset, by decide +kernel⟩,
   ⟨0x10000000#32, setF F.LKH_FCFG_RSTMAX 0 State.reset, by decide +kernel⟩,
   ⟨0, ⟨0, false, 3, 0, 1, 0, false, 0, false⟩, setF F.LKH_FCFG_RSTMAX 0 (wr A.TMB_TIME 50000#32 { State.reset with lkp := { Lkp.reset with ready := [⟨0, false, 3, 0, 1, 0, false, 0, false⟩], idle := [0] } }), by decide +kernel⟩,
   ⟨0, 0, setF F.LKH_FCFG_RSTMAX 0 (modFaults (fun x => { x with awd := some (0, 0) }) State.reset), by decide +kernel⟩,
   ⟨setF F.LKH_FCFG_RSTMAX 0 State.reset, by decide +kernel⟩,
   ⟨State.reset, by decide +kernel⟩,
   ⟨5, setF F.LKH_FCFG_RSTMAX 0 State.reset, by decide +kernel⟩,
   ⟨0, setF F.LKH_FCFG_RSTMAX 0 (modCfg (fun c => { c with refLost := some 0 }) { State.reset with now := 100000 }), by decide +kernel⟩⟩

/-- States and operands that meet the hypotheses of WatchdogsAndDeviceFaults. -/
theorem witness_WatchdogsAndDeviceFaults_2 :
    (∃ (who : Who) (key : Word) (s : State), live s = true ∧ isPriv s who = true ∧ isSet s F.LKH_AWD_EN = true ∧ key = 0x5AA5#32 ∧ unguarded s who = true) ∧
    (∃ (who : Who) (key : Word) (s : State), live s = true ∧ isPriv s who = true ∧ key ≠ 0x5AA5#32 ∧ unguarded s who = true) ∧
    (∃ (who : Who) (s : State), live s = true ∧ isPriv s who = true ∧ s.faults.coreStopped = false ∧ unguarded s who = true) ∧
    (∃ (s : State), live s = true) :=
  ⟨⟨⟨49, true, none⟩, 0x5AA5#32, setF F.LKH_AWD_EN 1 State.reset, by decide +kernel⟩,
   ⟨⟨49, true, none⟩, 0x5AA4#32, State.reset, by decide +kernel⟩,
   ⟨⟨49, true, none⟩, setF F.LKH_FSTAT_DEVRST 1 State.reset, by decide +kernel⟩,
   ⟨State.reset, by decide +kernel⟩⟩

/-- States and operands that meet the hypotheses of ManualTests. -/
theorem witness_ManualTests :
    (∃ (who : Who) (s : State), live s = true ∧ isPriv s who = true ∧ s.faults.coreStopped = false ∧ getF s F.SYS_STATUS_LCS ≠ 1 ∧ getF s F.SYS_STATUS_LCS ≠ 3 ∧ unguarded s who = true) ∧
    (∃ (who : Who) (s : State), live s = true ∧ isPriv s who = true ∧ s.faults.coreStopped = false ∧ getF s F.SYS_STATUS_LCS = 1 ∧ s.cfg.repairs = [] ∧ unguarded s who = true) ∧
    (∃ (who : Who) (kind : Fin 2) (mem : BitVec 8) (s : State), live s = true ∧ isPriv s who = true ∧ s.faults.coreStopped = false ∧ (getF s F.SYS_STATUS_LCS = 1 ∨ getF s F.SYS_STATUS_LCS = 3) ∧ (mem.toNat < 5 ∨ (mem.toNat < 9 ∧ kind = 0)) ∧ unguarded s who = true) ∧
    (∃ (who : Who) (kind : Fin 2) (mem : BitVec 8) (s : State), live s = true ∧ isPriv s who = true ∧ s.faults.coreStopped = false ∧ getF s F.SYS_STATUS_LCS ≠ 1 ∧ getF s F.SYS_STATUS_LCS ≠ 3 ∧ unguarded s who = true) ∧
    (∃ (pass : Bool) (slice : Nat) (s : State), live s = true ∧ s.cfg.manual = some 7 ∧ isSet s F.BST_MANCMD_KIND = false) ∧
    (∃ (isWr : Bool) (a : Word) (v : Word) (s : State), live s = true ∧ calm s s = true) ∧
    (∃ (a : Word) (v : Word) (s : State), live s = true ∧ calm s s = true ∧ (getF s F.SYS_STATUS_LCS = 1 ∨ getF s F.SYS_STATUS_LCS = 3) ∧ a.toNat = A.LKP_HWM ∧ unguarded s ⟨55, false, none⟩ = true) ∧
    (∃ (k : Fin 32) (s : State), live s = true ∧ calm s s = true ∧ s.scan.restart = some false ∧ getF s F.SCN_STATUS_CSTATE = 1 ∧ s.scan.retRun = none ∧ s.scan.retQueue = none ∧ s.scan.waitCmd = [] ∧ loadedSlot s = none ∧ (∀ r : Fin 4, getF s (F.RCH_PWR_PSTATE (reachOf s r)) < 2) ∧ (((List.range 16).all fun t => !enabled s t) = true) ∧ (((List.range 32).all fun t => getF s (F.TMB_UNIT_CTL_OWNER t) == 0 && ownerOf s t == 0) = true)) :=
  ⟨⟨⟨49, true, none⟩, State.reset, by decide +kernel⟩,
   ⟨⟨49, true, none⟩, setF F.SYS_STATUS_LCS 1 State.reset, by decide +kernel⟩,
   ⟨⟨49, true, none⟩, 1, 4#8, setF F.SYS_STATUS_LCS 3 State.reset, by decide +kernel⟩,
   ⟨⟨49, true, none⟩, 0, 255#8, State.reset, by decide +kernel⟩,
   ⟨true, 0, modCfg (fun c => { c with manual := some 7 }) State.reset, by decide +kernel⟩,
   ⟨true, 0#32, 0#32, State.reset, by decide +kernel⟩,
   ⟨0x60020018#32, 0xFFFFFFFF#32, setF F.SYS_STATUS_LCS 1 State.reset, by decide +kernel⟩,
   ⟨31, setF F.SCN_STATUS_CSTATE 1 (modScan (fun c => { c with restart := some false }) State.reset), by decide +kernel⟩⟩

/-- States and operands that meet the hypotheses of CoreControl. -/
theorem witness_CoreControl_1 :
    (∃ (who : Who) (i : Fin 40) (j : Fin 40) (s : State), live s = true ∧ calm s s = true ∧ isPriv s who = true ∧ s.rot.window = none ∧ getF s (F.RCH_PWR_PSTATE (i / 8)) = 0 ∧ rchDead s (A.RCH_CORE_CTL (i / 8) (i % 8)) = false ∧ (s.core i).st = .run ∧ unguarded s who = true) ∧
    (∃ (who : Who) (i : Fin 40) (j : Fin 40) (s : State), live s = true ∧ calm s s = true ∧ isPriv s who = true ∧ s.rot.window = none ∧ getF s (F.RCH_PWR_PSTATE (i / 8)) = 0 ∧ reachState s (i / 8) = 0 ∧ rchDead s (A.RCH_CORE_CTL (i / 8) (i % 8)) = false ∧ (s.core i).st = .halted ∧ (s.core i).wasIdle = false ∧ unguarded s who = true) ∧
    (∃ (who : Who) (i : Fin 40) (j : Fin 40) (s : State), calm s s = true ∧ isPriv s who = true ∧ s.rot.window = none ∧ getF s (F.RCH_PWR_PSTATE (i / 8)) = 0 ∧ reachState s (i / 8) = 0 ∧ rchDead s (A.RCH_CORE_CTL (i / 8) (i % 8)) = false ∧ (s.core i).st = .halted ∧ (s.core i).wasIdle = false ∧ atInstr i .nop (s.setCore i { s.core i with st := .run, haltReq := false }) ∧ unguarded s who = true) ∧
    (∃ (who : Who) (i : Fin 40) (j : Fin 40) (v : Word) (l : List Word) (d : Fin 16) (s : State), calm s s = true ∧ isPriv s who = true ∧ s.rot.window = none ∧ getF s (F.RCH_PWR_PSTATE (i / 8)) = 0 ∧ reachState s (i / 8) = 0 ∧ rchDead s (A.RCH_CORE_CTL (i / 8) (i % 8)) = false ∧ (s.core i).st = .halted ∧ (s.core i).wasIdle = false ∧ atInstr i (.pop d) (s.setCore i { s.core i with st := .run, haltReq := false }) ∧ (s.core i).dstack = v :: l ∧ unguarded s who = true) ∧
    (∃ (who : Who) (i : Fin 40) (j : Fin 40) (s : State), live s = true ∧ calm s s = true ∧ isPriv s who = true ∧ s.rot.window = none ∧ getF s (F.RCH_PWR_PSTATE (i / 8)) = 0 ∧ rchDead s (A.RCH_CORE_CTL (i / 8) (i % 8)) = false ∧ (s.core i).st = .idle ∧ unguarded s who = true) ∧
    (∃ (who : Who) (i : Fin 40) (j : Fin 40) (s : State), live s = true ∧ calm s s = true ∧ isPriv s who = true ∧ s.rot.window = none ∧ getF s (F.RCH_PWR_PSTATE (i / 8)) = 0 ∧ rchDead s (A.RCH_CORE_CTL (i / 8) (i % 8)) = false ∧ (s.core i).st = .run ∧ unguarded s who = true) ∧
    (∃ (who : Who) (i : Fin 40) (j : Fin 40) (s : State), live s = true ∧ calm s s = true ∧ isPriv s who = true ∧ s.rot.window = none ∧ getF s (F.RCH_PWR_PSTATE (i / 8)) = 0 ∧ rchDead s (A.RCH_CORE_CTL (i / 8) (i % 8)) = false ∧ unguarded s who = true) ∧
    (∃ (who : Who) (i : Fin 40) (s : State), live s = true ∧ calm s s = true ∧ isPriv s who = true ∧ s.rot.window = none ∧ getF s (F.RCH_PWR_PSTATE (i / 8)) = 0 ∧ reachState s (i / 8) = 0 ∧ rchDead s (A.RCH_CORE_CTL (i / 8) (i % 8)) = false ∧ unguarded s who = true) :=
  ⟨⟨⟨49, true, none⟩, 9, 8, modCore 9 (fun k => { k with st := .run }) State.reset, by decide +kernel⟩,
   ⟨⟨49, true, none⟩, 9, 8, modCore 9 (fun k => { k with st := .halted }) State.reset, by decide +kernel⟩,
   ⟨⟨49, true, none⟩, 9, 8, modCore 9 (fun k => { k with st := .halted, icache := [(0, [encodeW .nop])] }) State.reset, by unfold atInstr; decide +kernel⟩,
   ⟨⟨49, true, none⟩, 9, 8, 7, [], 3, modCore 9 (fun k => { k with st := .halted, dstack := [7], icache := [(0, [encodeW (.pop 3)])] }) State.reset, by unfold atInstr; decide +kernel⟩,
   ⟨⟨49, true, none⟩, 9, 8, modCore 9 (fun k => { k with st := .idle }) State.reset, by decide +kernel⟩,
   ⟨⟨49, true, none⟩, 9, 8, modCore 9 (fun k => { k with st := .run }) State.reset, by decide +kernel⟩,
   ⟨⟨49, true, none⟩, 9, 8, modCore 9 (fun k => { k with icache := [(0, [1])] }) State.reset, by decide +kernel⟩,
   ⟨⟨49, true, none⟩, 9, State.reset, by decide +kernel⟩⟩

/-- States and operands that meet the hypotheses of CoreControl. -/
theorem witness_CoreControl_2 :
    (∃ (who : Who) (i : Fin 40) (s : State), live s = true ∧ calm s s = true ∧ isPriv s who = true ∧ s.rot.window = none ∧ getF s (F.RCH_PWR_PSTATE (i / 8)) = 0 ∧ reachState s (i / 8) ≠ 0 ∧ rchDead s (A.RCH_CORE_CTL (i / 8) (i % 8)) = false ∧ unguarded s who = true) ∧
    (∃ (who : Who) (i : Fin 40) (s : State), live s = true ∧ calm s s = true ∧ isPriv s who = true ∧ s.rot.window = none ∧ getF s (F.RCH_PWR_PSTATE (i / 8)) = 0 ∧ reachState s (i / 8) ≠ 0 ∧ rchDead s (A.RCH_CORE_CTL (i / 8) (i % 8)) = false ∧ unguarded s who = true) ∧
    (∃ (who : Who) (i : Fin 40) (s : State), live s = true ∧ calm s s = true ∧ isPriv s who = true ∧ s.rot.window = none ∧ getF s (F.RCH_PWR_PSTATE (i / 8)) = 0 ∧ reachState s (i / 8) ≠ 0 ∧ rchDead s (A.RCH_CORE_CTL (i / 8) (i % 8)) = false ∧ unguarded s who = true) :=
  ⟨⟨⟨49, true, none⟩, 33, State.reset, by decide +kernel⟩,
   ⟨⟨49, true, none⟩, 33, State.reset, by decide +kernel⟩,
   ⟨⟨49, true, none⟩, 33, State.reset, by decide +kernel⟩⟩

/-- States and operands that meet the hypotheses of StoresAndPreemption. -/
theorem witness_StoresAndPreemption :
    (∃ (i : Fin 40) (x : Store) (l : List Store) (n : Nat) (off : Nat) (s : State), live s = true ∧ calm s s = true ∧ (s.core i).sbuf = x :: l ∧ (s.core i).sup = x.sup ∧ (x.size = 1 ∨ x.size = 2 ∨ x.size = 4) ∧ 0x10000000 ≤ x.addr ∧ target s i x.addr = .reach n off ∧ off + x.size ≤ 0xC0000 ∧ s.rot.window = none ∧ getF s (F.RCH_PWR_PSTATE n) = 0 ∧ reachState s n = 0 ∧ gateAdmits s n (off / 0x10000) i = true ∧ semGuards s (reachAddr n off) x.size ⟨i, false, none⟩ = false ∧ eccOf s (reachAddr n off) x.size = 0) ∧
    (∃ (i : Fin 40) (x : Store) (l : List Store) (s : State), live s = true ∧ calm s s = true ∧ (s.core i).sbuf = x :: l ∧ (s.core i).sup = x.sup ∧ target s i x.addr = .nothing ∧ (x.addr < 0x10000000 ∨ 0x70000000 ≤ x.addr)) ∧
    (∃ (i : Fin 40) (x : Ready) (e : Entry) (s : State), live s = true ∧ calm s s = true ∧ s.lkp.offers.find? (·.1 == i.val) = some (i.val, x) ∧ acceptsOffer (s.core i) = true ∧ (s.core i).rstack.length ≤ 28 ∧ (s.core i).pendW = [] ∧ dispatches s (i / 8) = true ∧ x.seg = false ∧ s.lkp.store.find? (·.is x.role false x.index) = some e ∧ isSet s F.LKP_TRCCTL_EN = false) :=
  ⟨⟨3, ⟨0x10000040, 4, 0x12345678, false⟩, [], 0, 0x40, modCore 3 (fun k => { k with sbuf := [⟨0x10000040, 4, 0x12345678, false⟩], sup := false }) State.reset, by decide +kernel⟩,
   ⟨3, ⟨0xF0000000, 4, 5, false⟩, [], modCore 3 (fun k => { k with sbuf := [⟨0xF0000000, 4, 5, false⟩], sup := false }) State.reset, by decide +kernel⟩,
   ⟨3, ⟨0, false, 5, 0, 255, 0, false, 0, false⟩, { role := 0, seg := false, index := 5, desc := ⟨0x100, 7, 255, 0, 1, false⟩, counts := Vector.replicate 8 1, values := Vector.replicate 8 9, running := false }, { modCore 3 (fun k => { k with st := .run, ie := true }) (setF F.BST_STATUS_RUNNING 0xFF State.reset) with lkp := { Lkp.reset with offers := [(3, ⟨0, false, 5, 0, 255, 0, false, 0, false⟩)], store := [{ role := 0, seg := false, index := 5, desc := ⟨0x100, 7, 255, 0, 1, false⟩, counts := Vector.replicate 8 1, values := Vector.replicate 8 9, running := false }] } }, by decide +kernel⟩⟩

/-- States and operands that meet the hypotheses of LockkeeperTokens. -/
theorem witness_LockkeeperTokens_1 :
    (∃ (i : Fin 40) (dst : Word) (v : Word) (own : Option Nat) (l : List (Word × Word × Option Nat)) (tok : Token) (e : Entry) (s : State), live s = true ∧ calm s s = true ∧ frozen s 1 = false ∧ s.lkp.ports.get i = (dst, v, own) :: l ∧ dst.getLsbD 30 = false ∧ tokenOf i dst v own = some tok ∧ roleAway s tok.role = false ∧ tok.seg = false ∧ tok.index ≤ 4095 ∧ s.lkp.store = [e] ∧ e.is tok.role false tok.index = true ∧ bitAt e.desc.need tok.slot = true ∧ e.running = true ∧ e.counts.get tok.at < 15 ∧ 1 ≤ getF s F.LKP_HWM_LIVEMAX) ∧
    (∃ (i : Fin 40) (dst : Word) (v : Word) (own : Option Nat) (l : List (Word × Word × Option Nat)) (s : State), live s = true ∧ calm s s = true ∧ frozen s 1 = false ∧ s.lkp.ports.get i = (dst, v, own) :: l ∧ tokenOf i dst v own = none ∧ merges s A.LKP_EVT 0 = false) ∧
    (∃ (tok : Token) (l : List Token) (e : Entry) (s : State), live s = true ∧ calm s s = true ∧ frozen s 1 = false ∧ s.lkp.overflow = tok :: l ∧ roleAway s tok.role = false ∧ tok.seg = false ∧ tok.index ≤ 4095 ∧ s.lkp.store = [e] ∧ e.is tok.role false tok.index = true ∧ bitAt e.desc.need tok.slot = true ∧ e.running = true ∧ e.counts.get tok.at < 15 ∧ 1 ≤ getF s F.LKP_HWM_LIVEMAX) ∧
    (∃ (k : Fin 1024) (s : State), live s = true ∧ calm s s = true ∧ frozen s 1 = false ∧ (List.range 1024).find? (isPending s) = some k.val ∧ isSet s (F.LKP_ROUTE_EN k) = false) ∧
    (∃ (k : Nat) (x : Ready) (s : State), live s = true ∧ s.lkp.ready[k]? = some x ∧ x.group < 16 ∧ x.starved = false ∧ getF s (F.LKP_GRP_CFG_STARVE x.group) ≠ 0 ∧ x.since + 10000 * getF s (F.LKP_GRP_CFG_STARVE x.group) < time s ∧ isSet s F.LKP_TRCCTL_EN = false ∧ merges s A.LKP_EVT 5 = false) ∧
    (∃ (d : Delayed) (l : List Delayed) (s : State), live s = true ∧ calm s s = true ∧ frozen s 1 = false ∧ s.lkp.delay = [d] ∧ s.lkp.delayTick = some s.now ∧ d.due ≤ time s ∧ 4095 < bitsOf d.dst.toNat 0 14 ∧ isSet s F.LKP_TRCCTL_EN = false ∧ merges s A.LKP_EVT 0 = false) ∧
    (∃ (d : Delayed) (e : Entry) (s : State), live s = true ∧ calm s s = true ∧ frozen s 1 = false ∧ s.lkp.delay = [d] ∧ s.lkp.delayTick = some s.now ∧ d.due ≤ time s ∧ bitsOf d.dst.toNat 0 14 ≤ 4095 ∧ roleAway s d.role = false ∧ s.lkp.store = [e] ∧ e.is d.role false (bitsOf d.dst.toNat 0 14) = true ∧ bitAt e.desc.need (bitsOf d.dst.toNat 24 3) = true ∧ e.running = true ∧ (e.counts.get ⟨bitsOf d.dst.toNat 24 3 % 8, Nat.mod_lt _ (by decide)⟩) < 15 ∧ 1 ≤ getF s F.LKP_HWM_LIVEMAX ∧ isSet s F.LKP_TRCCTL_EN = false) ∧
    (∃ (s : State), live s = true ∧ calm s s = true ∧ frozen s 1 = false ∧ s.lkp.delayTick ≠ some s.now) :=
  ⟨⟨3, 0x01000005#32, 77#32, some 0, [], { role := 0, seg := false, slot := 1, index := 5, dst := 0x01000005#32, value := 77#32, hw := false, src := 3 }, { role := 0, seg := false, index := 5, desc := ⟨0x100, 7, 255, 0, 3, false⟩, counts := Vector.replicate 8 1, values := Vector.replicate 8 9, running := true }, setF F.LKP_HWM_LIVEMAX 1 (setF F.BST_STATUS_RUNNING 0xFF { State.reset with lkp := { Lkp.reset with ports := Lkp.reset.ports.set 3 [(0x01000005#32, 77#32, some 0)], store := [{ role := 0, seg := false, index := 5, desc := ⟨0x100, 7, 255, 0, 3, false⟩, counts := Vector.replicate 8 1, values := Vector.replicate 8 9, running := true }] } }), by decide +kernel⟩,
   ⟨39, 0xC0000000#32, 0#32, some 4, [], setF F.BST_STATUS_RUNNING 0xFF { State.reset with lkp := { Lkp.reset with ports := Lkp.reset.ports.set 39 [(0xC0000000#32, 0, some 4)] } }, by decide +kernel⟩,
   ⟨{ role := 0, seg := false, slot := 1, index := 5, dst := 0x01000005#32, value := 77#32, hw := false, src := 3 }, [], { role := 0, seg := false, index := 5, desc := ⟨0x100, 7, 255, 0, 3, false⟩, counts := Vector.replicate 8 1, values := Vector.replicate 8 9, running := true }, setF F.LKP_HWM_LIVEMAX 1 (setF F.BST_STATUS_RUNNING 0xFF { State.reset with lkp := { Lkp.reset with overflow := [{ role := 0, seg := false, slot := 1, index := 5, dst := 0x01000005#32, value := 77#32, hw := false, src := 3 }], store := [{ role := 0, seg := false, index := 5, desc := ⟨0x100, 7, 255, 0, 3, false⟩, counts := Vector.replicate 8 1, values := Vector.replicate 8 9, running := true }] } }), by decide +kernel⟩,
   ⟨33, setF F.BST_STATUS_RUNNING 0xFF (pend 33 5 State.reset), by decide +kernel⟩,
   ⟨0, ⟨0, false, 3, 0, 1, 2, false, 0, false⟩, setF (F.LKP_GRP_CFG_STARVE 2) 1 (wr A.TMB_TIME 50000#32 { State.reset with lkp := { Lkp.reset with ready := [⟨0, false, 3, 0, 1, 2, false, 0, false⟩] } }), by decide +kernel⟩,
   ⟨⟨0x3FFF#32, 0, 3, 0⟩, [], wr A.TMB_TIME 5000#32 (setF F.BST_STATUS_RUNNING 0xFF { State.reset with lkp := { Lkp.reset with delay := [⟨0x3FFF#32, 0, 3, 0⟩], delayTick := some 0 } }), by decide +kernel⟩,
   ⟨⟨0x01000005#32, 0, 3, 0⟩, { role := 0, seg := false, index := 5, desc := ⟨0x100, 7, 255, 0, 3, false⟩, counts := Vector.replicate 8 1, values := Vector.replicate 8 9, running := true }, wr A.TMB_TIME 5000#32 (setF F.LKP_HWM_LIVEMAX 1 (setF F.BST_STATUS_RUNNING 0xFF { State.reset with lkp := { Lkp.reset with delay := [⟨0x01000005#32, 0, 3, 0⟩], delayTick := some 0, store := [{ role := 0, seg := false, index := 5, desc := ⟨0x100, 7, 255, 0, 3, false⟩, counts := Vector.replicate 8 1, values := Vector.replicate 8 9, running := true }] } })), by decide +kernel⟩,
   ⟨State.reset, by decide +kernel⟩⟩

/-- States and operands that meet the hypotheses of LockkeeperTokens. -/
theorem witness_LockkeeperTokens_2 :
    (∃ (who : Who) (s : State), live s = true ∧ isPriv s who = true ∧ s.lkp.delay.length < 2048 ∧ unguarded s who = true) ∧
    (∃ (who : Who) (bits : BitVec 16) (k : Fin 16) (s : State), live s = true ∧ unguarded s who = true) :=
  ⟨⟨⟨49, true, none⟩, setF F.LKP_HWM_LIVEMAX 1 { State.reset with lkp := { Lkp.reset with delay := [⟨0#32, 0, 3, 0⟩] } }, by decide +kernel⟩,
   ⟨⟨46, false, none⟩, 0x8001#16, 15, State.reset, by decide +kernel⟩⟩

/-- States and operands that meet the hypotheses of ReachMemoryCommands. -/
theorem witness_ReachMemoryCommands :
    (∃ (who : Who) (n : Fin 5) (b : Fin 12) (v : Word) (s : State), live s = true ∧ isPriv s who = true ∧ s.rot.window = none ∧ getF s (F.RCH_PWR_PSTATE n) = 0 ∧ reachState s n ≠ 4 ∧ v.toNat / 256 % 4 = 0 ∧ v.toNat / 65536 % 64 < 56 ∧ unguarded s who = true) ∧
    (∃ (who : Who) (n : Fin 5) (b : Fin 12) (v : Word) (s : State), live s = true ∧ isPriv s who = true ∧ s.rot.window = none ∧ getF s (F.RCH_PWR_PSTATE n) = 0 ∧ reachState s n ≠ 4 ∧ v.toNat / 256 % 4 = 1 ∧ v.toNat % 64 ≤ 7 ∧ unguarded s who = true) ∧
    (∃ (who : Who) (n : Fin 5) (w : Fin 8) (v : Word) (s : State), live s = true ∧ isPriv s who = true ∧ s.rot.window = none ∧ getF s (F.RCH_PWR_PSTATE n) = 0 ∧ reachState s n ≠ 4 ∧ v.getLsbD 31 = true ∧ bitsOf v.toNat 20 4 ≤ 10 ∧ clampRch s (A.RCH_CW n w) (v.toNat &&& 0x80FFFFC0) = v.toNat &&& 0x80FFFFC0 ∧ ((List.range 8).all (fun k => !isSet s (F.RCH_CW_EN n k)) = true) ∧ unguarded s who = true) ∧
    (∃ (who : Who) (n : Fin 5) (w : Fin 8) (v : Word) (s : State), live s = true ∧ isPriv s who = true ∧ s.rot.window = none ∧ getF s (F.RCH_PWR_PSTATE n) = 0 ∧ reachState s n ≠ 4 ∧ v.getLsbD 31 = true ∧ bitsOf v.toNat 20 4 ≤ 10 ∧ 0xC0000 < bitsOf v.toNat 6 14 * 64 / 2 ^ (bitsOf v.toNat 20 4 + 6) * 2 ^ (bitsOf v.toNat 20 4 + 6) + 2 * 2 ^ (bitsOf v.toNat 20 4 + 6) ∧ unguarded s who = true) ∧
    (∃ (mem : Nat) (k : Nat) (err : Fin 3) (s : State), live s = true ∧ calm s s = true ∧ err.val = 0 ∧ s.ecc = []) ∧
    (∃ (mem : Nat) (k : Nat) (err : Fin 3) (s : State), live s = true ∧ calm s s = true ∧ err.val = 1 ∧ mem < 5 ∧ getF s (F.RCH_PWR_PSTATE mem) < 2 ∧ s.ecc = [] ∧ (reachState s mem ≠ 2 ∧ reachState s mem ≠ 4) ∧ getF s F.LKH_FCFG_CETHR = 0 ∧ merges s (A.RCH_MEM_EVT mem) 0 = false) ∧
    (∃ (mem : Nat) (k : Nat) (err : Fin 3) (s : State), live s = true ∧ calm s s = true ∧ err.val = 2 ∧ mem < 5 ∧ getF s (F.RCH_PWR_PSTATE mem) < 2 ∧ 8 * k < 0xC0000 ∧ s.ecc = [] ∧ (reachState s mem ≠ 2 ∧ reachState s mem ≠ 4) ∧ merges s (A.RCH_MEM_EVT mem) 1 = false) :=
  ⟨⟨⟨49, true, none⟩, 4, 11, 0x00030005#32, State.reset, by decide +kernel⟩,
   ⟨⟨49, true, none⟩, 0, 0, 0x00000107#32, State.reset, by decide +kernel⟩,
   ⟨⟨49, true, none⟩, 2, 7, 0x80000040#32, State.reset, by decide +kernel⟩,
   ⟨⟨49, true, none⟩, 2, 7, 0x800BFFC0#32, State.reset, by decide +kernel⟩,
   ⟨4, 131071, 0, State.reset, by decide +kernel⟩,
   ⟨3, 0, 1, setF F.LKH_FCFG_CETHR 0 State.reset, by decide +kernel⟩,
   ⟨3, 5, 2, State.reset, by decide +kernel⟩⟩

/-- States and operands that meet the hypotheses of DmaAndPark. -/
theorem witness_DmaAndPark :
    (∃ (who : Who) (n : Fin 5) (v : Word) (s : State), live s = true ∧ calm s s = true ∧ isPriv s who = true ∧ s.rot.window = none ∧ getF s (F.RCH_PWR_PSTATE n) = 0 ∧ reachState s n ≠ 4 ∧ who.id < 40 ∧ dmaState s n = 0 ∧ isSet s (F.RCH_DMA_CTL_STOP n) = false ∧ v.toNat % dmaSize s n ≠ getF s (F.RCH_DMA_STAT_HEAD n) ∧ v.toNat < 2 ^ (F.RCH_DMA_TAIL_TAIL n).w ∧ dmaHold s n = false ∧ (s.core who.id).sup = true ∧ unguarded s who = true) ∧
    (∃ (n : Fin 5) (s : State), live s = true ∧ calm s s = true ∧ dmaState s n = 1 ∧ reachState s n = 0 ∧ (at5 s.dma n).owed = none ∧ (at5 s.dma n).wait = none ∧ (at5 s.dma n).fail = none ∧ (at5 s.dma n).pos = 0 ∧ s.ecc = [] ∧ s.mem = [] ∧ ((List.range 12).all (fun b => getF s (F.RCH_GATE_MODE n b) == 0) = true) ∧ ((List.range 8).all (fun w => !isSet s (F.RCH_CW_EN n w)) = true) ∧ s.brg.sems.all (·.isNone) = true ∧ isSet s (F.RCH_DMA_CTL_STOP n) = false ∧ dmaHold s n = false ∧ descAddr s n (getF s (F.RCH_DMA_STAT_HEAD n)) + 16 ≤ 0xC0000) ∧
    (∃ (who : Who) (n : Fin 5) (s : State), live s = true ∧ calm s s = true ∧ isPriv s who = true ∧ s.rot.window = none ∧ getF s (F.RCH_PWR_PSTATE n) = 0 ∧ reachState s n ≠ 4 ∧ dmaState s n = 0 ∧ unguarded s who = true) ∧
    (∃ (who : Who) (n : Fin 5) (s : State), live s = true ∧ calm s s = true ∧ isPriv s who = true ∧ s.rot.window = none ∧ getF s (F.RCH_PWR_PSTATE n) = 0 ∧ reachState s n ≠ 4 ∧ dmaState s n = 1 ∧ unguarded s who = true) ∧
    (∃ (who : Who) (n : Fin 5) (s : State), live s = true ∧ calm s s = true ∧ isPriv s who = true ∧ s.rot.window = none ∧ getF s (F.RCH_PWR_PSTATE n) = 0 ∧ reachState s n ≠ 4 ∧ dmaState s n = 2 ∧ isSet s (F.RCH_DMA_CTL_STOP n) = false ∧ dmaHold s n = false ∧ unguarded s who = true) ∧
    (∃ (who : Who) (n : Fin 5) (s : State), live s = true ∧ calm s s = true ∧ isPriv s who = true ∧ s.rot.window = none ∧ getF s (F.RCH_PWR_PSTATE n) = 0 ∧ reachState s n ≠ 4 ∧ mayPark s n = false ∧ merges s (A.RCH_MEM_EVT n) 3 = false ∧ unguarded s who = true) ∧
    (∃ (who : Who) (n : Fin 5) (s : State), live s = true ∧ calm s s = true ∧ isPriv s who = true ∧ s.rot.window = none ∧ getF s (F.RCH_PWR_PSTATE n) = 0 ∧ reachState s n ≠ 4 ∧ mayPark s n = true ∧ (s.core (8 * n)).st = .run ∧ dmaState s n = 0 ∧ unguarded s who = true) ∧
    (∃ (n : Fin 5) (s : State), live s = true ∧ calm s s = true ∧ getF s (F.RCH_PWR_PSTATE n) = 3 ∧ reachState s n = 2 ∧ roleOf s n = none ∧ s.rot.held = [] ∧ s.brg.gathers = [] ∧ s.brg.waits = [] ∧ merges s (A.RCH_MEM_EVT n) 4 = false) :=
  ⟨⟨⟨3, false, none⟩, 0, 1#32, State.reset, by decide +kernel⟩,
   ⟨1, setF (F.RCH_DMA_STAT_STATE 1) 1 (setF (F.RCH_DMA_TAIL_TAIL 1) 2 State.reset), by decide +kernel⟩,
   ⟨⟨49, true, none⟩, 3, State.reset, by decide +kernel⟩,
   ⟨⟨49, true, none⟩, 3, setF (F.RCH_DMA_STAT_STATE 3) 1 State.reset, by decide +kernel⟩,
   ⟨⟨49, true, none⟩, 3, setF (F.RCH_DMA_STAT_STATE 3) 2 State.reset, by decide +kernel⟩,
   ⟨⟨49, true, none⟩, 3, State.reset, by decide +kernel⟩,
   ⟨⟨49, true, none⟩, 3, setF F.LKH_ROTCTL_EN 0 (modCore 24 (fun k => { k with st := .run }) State.reset), by decide +kernel⟩,
   ⟨4, setF (F.RCH_PWR_PSTATE 4) 3 State.reset, by decide +kernel⟩⟩

/-- States and operands that meet the hypotheses of Mailboxes. -/
theorem witness_Mailboxes_1 :
    (∃ (who : Who) (m : Fin 64) (v : Word) (s : State), live s = true ∧ isPriv s who = true ∧ isSet s (F.MBX_CFG_EN m) = true ∧ isSet s (F.MBX_CFG_MODE m) = false ∧ isSet s (F.MBX_CFG_WAKE m) = false ∧ (s.mb m).words.length < mbSize s m ∧ unguarded s who = true) ∧
    (∃ (who : Who) (m : Fin 64) (v : Word) (n : Fin 5) (s : State), live s = true ∧ isPriv s who = true ∧ isSet s (F.MBX_CFG_EN m) = true ∧ isSet s (F.MBX_CFG_MODE m) = false ∧ mbSize s m ≤ (s.mb m).words.length ∧ 40 ≤ who.id ∧ (who.id ≠ 46 ∧ who.id ≠ 47) ∧ merges s A.MBX_EVT 0 = false ∧ unguarded s who = true) ∧
    (∃ (who : Who) (m : Fin 64) (v : Word) (s : State), live s = true ∧ isPriv s who = true ∧ isSet s (F.MBX_CFG_EN m) = true ∧ isSet s (F.MBX_CFG_MODE m) = true ∧ (s.mb m).bstate = .empty ∧ unguarded s who = true) ∧
    (∃ (who : Who) (m : Fin 64) (w : MboxWord) (l : List MboxWord) (s : State), live s = true ∧ isPriv s who = true ∧ isSet s (F.MBX_CFG_MODE m) = false ∧ (s.mb m).words = w :: l ∧ w.bad = false) ∧
    (∃ (who : Who) (m : Fin 64) (s : State), live s = true ∧ isPriv s who = true ∧ isSet s (F.MBX_CFG_WAKE m) = false ∧ (s.mb m).bstate = .opened ∧ (s.mb m).owner = who.id ∧ unguarded s who = true) ∧
    (∃ (who : Who) (m : Fin 64) (s : State), live s = true ∧ isPriv s who = true ∧ ((s.mb m).bstate = .committed ∨ (s.mb m).bstate = .reading) ∧ unguarded s who = true) ∧
    (∃ (who : Who) (m : Fin 64) (s : State), live s = true ∧ isPriv s who = true ∧ (s.mb m).bstate = .opened ∧ unguarded s who = true) ∧
    (∃ (who : Who) (m : Fin 64) (s : State), live s = true ∧ isPriv s who = true ∧ unguarded s who = true) :=
  ⟨⟨⟨49, true, none⟩, 63, 5#32, setF (F.MBX_CFG_EN 63) 1 State.reset, by decide +kernel⟩,
   ⟨⟨49, true, none⟩, 0, 5#32, 0, (setF (F.MBX_CFG_EN 0) 1 State.reset).setMb 0 { words := List.replicate 16 ⟨0, 0, 0, false⟩, bstate := .empty, owner := 0, nread := 0 }, by decide +kernel⟩,
   ⟨⟨49, true, none⟩, 0, 5#32, setF (F.MBX_CFG_EN 0) 1 (setF (F.MBX_CFG_MODE 0) 1 State.reset), by decide +kernel⟩,
   ⟨⟨49, true, none⟩, 5, ⟨7, 3, 0, false⟩, [], State.reset.setMb 5 { words := [⟨7, 3, 0, false⟩], bstate := .empty, owner := 0, nread := 0 }, by decide +kernel⟩,
   ⟨⟨49, true, none⟩, 5, State.reset.setMb 5 { words := [⟨7, 3, 0, false⟩], bstate := .opened, owner := 49, nread := 0 }, by decide +kernel⟩,
   ⟨⟨49, true, none⟩, 5, State.reset.setMb 5 { words := [⟨7, 3, 0, false⟩], bstate := .reading, owner := 49, nread := 1 }, by decide +kernel⟩,
   ⟨⟨49, true, none⟩, 5, State.reset.setMb 5 { words := [⟨7, 3, 0, false⟩], bstate := .opened, owner := 3, nread := 0 }, by decide +kernel⟩,
   ⟨⟨49, true, none⟩, 5, State.reset, by decide +kernel⟩⟩

/-- States and operands that meet the hypotheses of Mailboxes. -/
theorem witness_Mailboxes_2 :
    (∃ (who : Who) (m : Fin 64) (v : Word) (s : State), live s = true ∧ isPriv s who = true ∧ v = rd s (A.MBX_CFG m) &&& 0x7FFFFFFF#32 ∧ getF s (F.MBX_CFG_RECV m) ≤ 5 ∧ unguarded s who = true) ∧
    (∃ (who : Who) (m : Fin 64) (v : Word) (s : State), live s = true ∧ isPriv s who = true ∧ v.getLsbD 31 = true ∧ (((List.range 64).all fun k => !isSet s (F.MBX_CFG_EN k)) = true) ∧ bitsOf v.toNat 0 10 + bitsOf v.toNat 12 10 < 1024 ∧ bitsOf v.toNat 25 3 ≤ 4 ∧ unguarded s who = true) ∧
    (∃ (who : Who) (r : Fin 6) (s : State), live s = true ∧ isPriv s who = true ∧ merges s A.MBX_EVT 4 = false ∧ unguarded s who = true) :=
  ⟨⟨⟨49, true, none⟩, 5, 0#32, setF (F.MBX_CFG_EN 5) 1 State.reset, by decide +kernel⟩,
   ⟨⟨49, true, none⟩, 5, 0x803FF000#32, State.reset, by decide +kernel⟩,
   ⟨⟨49, true, none⟩, 5, State.reset, by decide +kernel⟩⟩

/-- States and operands that meet the hypotheses of ArithmeticAndLogic. -/
theorem witness_ArithmeticAndLogic_1 :
    (∃ (i : Fin 40) (f : Bool) (d : Fin 16) (a : Fin 16) (b : Fin 16) (s : State), atInstr i (.alu .add f d a b) s) ∧
    (∃ (i : Fin 40) (f : Bool) (d : Fin 16) (a : Fin 16) (b : Fin 16) (s : State), atInstr i (.alu .sub f d a b) s) ∧
    (∃ (i : Fin 40) (f : Bool) (d : Fin 16) (a : Fin 16) (b : Fin 16) (s : State), atInstr i (.alu .adc f d a b) s) ∧
    (∃ (i : Fin 40) (f : Bool) (d : Fin 16) (a : Fin 16) (b : Fin 16) (s : State), atInstr i (.alu .sbc f d a b) s) ∧
    (∃ (i : Fin 40) (f : Bool) (d : Fin 16) (a : Fin 16) (x : BitVec 16) (s : State), atInstr i (.imm .addi f d a x) s) ∧
    (∃ (i : Fin 40) (a : Fin 16) (x : BitVec 16) (s : State), atInstr i (.cmpi a x) s) ∧
    (∃ (i : Fin 40) (f : Bool) (d : Fin 16) (a : Fin 16) (b : Fin 16) (s : State), atInstr i (.alu .and f d a b) s) ∧
    (∃ (i : Fin 40) (f : Bool) (d : Fin 16) (a : Fin 16) (b : Fin 16) (s : State), atInstr i (.alu .or f d a b) s) :=
  ⟨⟨11, true, 1, 2, 3, modCore 11 (fun kk => { kk with st := .run, icache := [(0, [encodeW (.alu .add true 1 2 3)])] }) State.reset, by unfold atInstr; decide +kernel⟩,
   ⟨11, true, 1, 2, 3, modCore 11 (fun kk => { kk with st := .run, icache := [(0, [encodeW (.alu .sub true 1 2 3)])] }) State.reset, by unfold atInstr; decide +kernel⟩,
   ⟨11, true, 1, 2, 3, modCore 11 (fun kk => { kk with st := .run, icache := [(0, [encodeW (.alu .adc true 1 2 3)])] }) State.reset, by unfold atInstr; decide +kernel⟩,
   ⟨11, true, 1, 2, 3, modCore 11 (fun kk => { kk with st := .run, icache := [(0, [encodeW (.alu .sbc true 1 2 3)])] }) State.reset, by unfold atInstr; decide +kernel⟩,
   ⟨11, true, 1, 2, 5#16, modCore 11 (fun kk => { kk with st := .run, icache := [(0, [encodeW (.imm .addi true 1 2 5#16)])] }) State.reset, by unfold atInstr; decide +kernel⟩,
   ⟨11, 2, 0x8000#16, modCore 11 (fun kk => { kk with st := .run, icache := [(0, [encodeW (.cmpi 2 0x8000#16)])] }) State.reset, by unfold atInstr; decide +kernel⟩,
   ⟨11, true, 1, 2, 3, modCore 11 (fun kk => { kk with st := .run, icache := [(0, [encodeW (.alu .and true 1 2 3)])] }) State.reset, by unfold atInstr; decide +kernel⟩,
   ⟨11, true, 1, 2, 3, modCore 11 (fun kk => { kk with st := .run, icache := [(0, [encodeW (.alu .or true 1 2 3)])] }) State.reset, by unfold atInstr; decide +kernel⟩⟩

/-- States and operands that meet the hypotheses of ArithmeticAndLogic. -/
theorem witness_ArithmeticAndLogic_2 :
    (∃ (i : Fin 40) (f : Bool) (d : Fin 16) (a : Fin 16) (b : Fin 16) (s : State), atInstr i (.alu .xor f d a b) s) ∧
    (∃ (i : Fin 40) (f : Bool) (d : Fin 16) (a : Fin 16) (b : Fin 16) (s : State), atInstr i (.alu .andn f d a b) s) ∧
    (∃ (i : Fin 40) (f : Bool) (d : Fin 16) (a : Fin 16) (x : BitVec 16) (s : State), atInstr i (.imm .andi f d a x) s) ∧
    (∃ (i : Fin 40) (f : Bool) (d : Fin 16) (a : Fin 16) (x : BitVec 16) (s : State), atInstr i (.imm .ori f d a x) s) ∧
    (∃ (i : Fin 40) (f : Bool) (d : Fin 16) (a : Fin 16) (x : BitVec 16) (s : State), atInstr i (.imm .xori f d a x) s) ∧
    (∃ (i : Fin 40) (d : Fin 16) (x : BitVec 16) (s : State), atInstr i (.lui d x) s) :=
  ⟨⟨11, true, 1, 2, 3, modCore 11 (fun kk => { kk with st := .run, icache := [(0, [encodeW (.alu .xor true 1 2 3)])] }) State.reset, by unfold atInstr; decide +kernel⟩,
   ⟨11, true, 1, 2, 3, modCore 11 (fun kk => { kk with st := .run, icache := [(0, [encodeW (.alu .andn true 1 2 3)])] }) State.reset, by unfold atInstr; decide +kernel⟩,
   ⟨11, false, 1, 2, 0xFFFF#16, modCore 11 (fun kk => { kk with st := .run, icache := [(0, [encodeW (.imm .andi false 1 2 0xFFFF#16)])] }) State.reset, by unfold atInstr; decide +kernel⟩,
   ⟨11, false, 1, 2, 0xFFFF#16, modCore 11 (fun kk => { kk with st := .run, icache := [(0, [encodeW (.imm .ori false 1 2 0xFFFF#16)])] }) State.reset, by unfold atInstr; decide +kernel⟩,
   ⟨11, false, 1, 2, 0xFFFF#16, modCore 11 (fun kk => { kk with st := .run, icache := [(0, [encodeW (.imm .xori false 1 2 0xFFFF#16)])] }) State.reset, by unfold atInstr; decide +kernel⟩,
   ⟨11, 1, 0x8001#16, modCore 11 (fun kk => { kk with st := .run, icache := [(0, [encodeW (.lui 1 0x8001#16)])] }) State.reset, by unfold atInstr; decide +kernel⟩⟩

/-- States and operands that meet the hypotheses of ShiftsAndBitFields. -/
theorem witness_ShiftsAndBitFields_1 :
    (∃ (i : Fin 40) (f : Bool) (d : Fin 16) (a : Fin 16) (b : Fin 16) (s : State), atInstr i (.alu .shl f d a b) s) ∧
    (∃ (i : Fin 40) (f : Bool) (d : Fin 16) (a : Fin 16) (b : Fin 16) (s : State), atInstr i (.alu .shr f d a b) s) ∧
    (∃ (i : Fin 40) (f : Bool) (d : Fin 16) (a : Fin 16) (b : Fin 16) (s : State), atInstr i (.alu .sar f d a b) s) ∧
    (∃ (i : Fin 40) (f : Bool) (d : Fin 16) (a : Fin 16) (b : Fin 16) (s : State), atInstr i (.alu .ror f d a b) s) ∧
    (∃ (i : Fin 40) (f : Bool) (d : Fin 16) (a : Fin 16) (n : Fin 32) (s : State), atInstr i (.shift .shli f d a n) s) ∧
    (∃ (i : Fin 40) (f : Bool) (d : Fin 16) (a : Fin 16) (n : Fin 32) (s : State), atInstr i (.shift .shri f d a n) s) ∧
    (∃ (i : Fin 40) (f : Bool) (d : Fin 16) (a : Fin 16) (n : Fin 32) (s : State), atInstr i (.shift .sari f d a n) s) ∧
    (∃ (i : Fin 40) (f : Bool) (d : Fin 16) (a : Fin 16) (n : Fin 32) (s : State), atInstr i (.shift .rori f d a n) s) :=
  ⟨⟨11, true, 1, 2, 3, modCore 11 (fun kk => { kk with st := .run, icache := [(0, [encodeW (.alu .shl true 1 2 3)])] }) State.reset, by unfold atInstr; decide +kernel⟩,
   ⟨11, true, 1, 2, 3, modCore 11 (fun kk => { kk with st := .run, icache := [(0, [encodeW (.alu .shr true 1 2 3)])] }) State.reset, by unfold atInstr; decide +kernel⟩,
   ⟨11, true, 1, 2, 3, modCore 11 (fun kk => { kk with st := .run, icache := [(0, [encodeW (.alu .sar true 1 2 3)])] }) State.reset, by unfold atInstr; decide +kernel⟩,
   ⟨11, true, 1, 2, 3, modCore 11 (fun kk => { kk with st := .run, icache := [(0, [encodeW (.alu .ror true 1 2 3)])] }) State.reset, by unfold atInstr; decide +kernel⟩,
   ⟨11, true, 1, 2, 31, modCore 11 (fun kk => { kk with st := .run, icache := [(0, [encodeW (.shift .shli true 1 2 31)])] }) State.reset, by unfold atInstr; decide +kernel⟩,
   ⟨11, true, 1, 2, 31, modCore 11 (fun kk => { kk with st := .run, icache := [(0, [encodeW (.shift .shri true 1 2 31)])] }) State.reset, by unfold atInstr; decide +kernel⟩,
   ⟨11, true, 1, 2, 31, modCore 11 (fun kk => { kk with st := .run, icache := [(0, [encodeW (.shift .sari true 1 2 31)])] }) State.reset, by unfold atInstr; decide +kernel⟩,
   ⟨11, true, 1, 2, 31, modCore 11 (fun kk => { kk with st := .run, icache := [(0, [encodeW (.shift .rori true 1 2 31)])] }) State.reset, by unfold atInstr; decide +kernel⟩⟩

/-- States and operands that meet the hypotheses of ShiftsAndBitFields. -/
theorem witness_ShiftsAndBitFields_2 :
    (∃ (i : Fin 40) (d : Fin 16) (a : Fin 16) (s : State), atInstr i (.clz d a) s) ∧
    (∃ (i : Fin 40) (d : Fin 16) (a : Fin 16) (pos : Fin 32) (lenM1 : Fin 32) (s : State), atInstr i (.bfx false d a pos lenM1) s) ∧
    (∃ (i : Fin 40) (d : Fin 16) (a : Fin 16) (pos : Fin 32) (lenM1 : Fin 32) (s : State), atInstr i (.bfx true d a pos lenM1) s) ∧
    (∃ (i : Fin 40) (d : Fin 16) (a : Fin 16) (pos : Fin 32) (lenM1 : Fin 32) (s : State), atInstr i (.bfi d a pos lenM1) s) ∧
    (∃ (i : Fin 40) (d : Fin 16) (a : Fin 16) (b : Fin 16) (sel : BitVec 12) (s : State), atInstr i (.bperm d a b sel) s) :=
  ⟨⟨11, 1, 2, modCore 11 (fun kk => { kk with st := .run, icache := [(0, [encodeW (.clz 1 2)])] }) State.reset, by unfold atInstr; decide +kernel⟩,
   ⟨11, 1, 2, 24, 7, modCore 11 (fun kk => { kk with st := .run, icache := [(0, [encodeW (.bfx false 1 2 24 7)])] }) State.reset, by unfold atInstr; decide +kernel⟩,
   ⟨11, 1, 2, 24, 7, modCore 11 (fun kk => { kk with st := .run, icache := [(0, [encodeW (.bfx true 1 2 24 7)])] }) State.reset, by unfold atInstr; decide +kernel⟩,
   ⟨11, 1, 2, 0, 31, modCore 11 (fun kk => { kk with st := .run, icache := [(0, [encodeW (.bfi 1 2 0 31)])] }) State.reset, by unfold atInstr; decide +kernel⟩,
   ⟨11, 1, 2, 3, 0xFAC#12, modCore 11 (fun kk => { kk with st := .run, icache := [(0, [encodeW (.bperm 1 2 3 0xFAC#12)])] }) State.reset, by unfold atInstr; decide +kernel⟩⟩

/-- States and operands that meet the hypotheses of MultiplyAndDivide. -/
theorem witness_MultiplyAndDivide :
    (∃ (i : Fin 40) (f : Bool) (d : Fin 16) (a : Fin 16) (b : Fin 16) (s : State), atInstr i (.alu .mul f d a b) s) ∧
    (∃ (i : Fin 40) (f : Bool) (d : Fin 16) (a : Fin 16) (b : Fin 16) (s : State), atInstr i (.alu .mulhs f d a b) s) ∧
    (∃ (i : Fin 40) (f : Bool) (d : Fin 16) (a : Fin 16) (b : Fin 16) (s : State), atInstr i (.alu .mulhu f d a b) s) ∧
    (∃ (i : Fin 40) (f : Bool) (d : Fin 16) (a : Fin 16) (b : Fin 16) (s : State), atInstr i (.alu .divs f d a b) s) ∧
    (∃ (i : Fin 40) (f : Bool) (d : Fin 16) (a : Fin 16) (b : Fin 16) (s : State), atInstr i (.alu .divu f d a b) s) ∧
    (∃ (i : Fin 40) (f : Bool) (d : Fin 16) (a : Fin 16) (b : Fin 16) (s : State), atInstr i (.alu .rems f d a b) s) ∧
    (∃ (i : Fin 40) (f : Bool) (d : Fin 16) (a : Fin 16) (b : Fin 16) (s : State), atInstr i (.alu .remu f d a b) s) :=
  ⟨⟨11, true, 1, 2, 3, modCore 11 (fun kk => { kk with st := .run, icache := [(0, [encodeW (.alu .mul true 1 2 3)])] }) State.reset, by unfold atInstr; decide +kernel⟩,
   ⟨11, true, 1, 2, 3, modCore 11 (fun kk => { kk with st := .run, icache := [(0, [encodeW (.alu .mulhs true 1 2 3)])] }) State.reset, by unfold atInstr; decide +kernel⟩,
   ⟨11, true, 1, 2, 3, modCore 11 (fun kk => { kk with st := .run, icache := [(0, [encodeW (.alu .mulhu true 1 2 3)])] }) State.reset, by unfold atInstr; decide +kernel⟩,
   ⟨11, true, 1, 2, 3, modCore 11 (fun kk => { kk with st := .run, icache := [(0, [encodeW (.alu .divs true 1 2 3)])] }) State.reset, by unfold atInstr; decide +kernel⟩,
   ⟨11, true, 1, 2, 3, modCore 11 (fun kk => { kk with st := .run, icache := [(0, [encodeW (.alu .divu true 1 2 3)])] }) State.reset, by unfold atInstr; decide +kernel⟩,
   ⟨11, true, 1, 2, 3, modCore 11 (fun kk => { kk with st := .run, icache := [(0, [encodeW (.alu .rems true 1 2 3)])] }) State.reset, by unfold atInstr; decide +kernel⟩,
   ⟨11, true, 1, 2, 3, modCore 11 (fun kk => { kk with st := .run, icache := [(0, [encodeW (.alu .remu true 1 2 3)])] }) State.reset, by unfold atInstr; decide +kernel⟩⟩

/-- States and operands that meet the hypotheses of Loads. -/
theorem witness_Loads :
    (∃ (i : Fin 40) (d : Fin 16) (b : Fin 16) (disp : BitVec 16) (off : Nat) (s : State), atInstr i (.load .ldw d b disp) s ∧ ownClear (fetched i s) i (effAddr (s.core i) b (disp.signExtend 32)) 4 false off) ∧
    (∃ (i : Fin 40) (d : Fin 16) (b : Fin 16) (disp : BitVec 16) (off : Nat) (s : State), atInstr i (.load .ldh d b disp) s ∧ ownClear (fetched i s) i (effAddr (s.core i) b (disp.signExtend 32)) 2 false off) ∧
    (∃ (i : Fin 40) (d : Fin 16) (b : Fin 16) (disp : BitVec 16) (off : Nat) (s : State), atInstr i (.load .ldhu d b disp) s ∧ ownClear (fetched i s) i (effAddr (s.core i) b (disp.signExtend 32)) 2 false off) ∧
    (∃ (i : Fin 40) (d : Fin 16) (b : Fin 16) (disp : BitVec 16) (off : Nat) (s : State), atInstr i (.load .ldb d b disp) s ∧ ownClear (fetched i s) i (effAddr (s.core i) b (disp.signExtend 32)) 1 false off) ∧
    (∃ (i : Fin 40) (d : Fin 16) (b : Fin 16) (disp : BitVec 16) (off : Nat) (s : State), atInstr i (.load .ldbu d b disp) s ∧ ownClear (fetched i s) i (effAddr (s.core i) b (disp.signExtend 32)) 1 false off) ∧
    (∃ (i : Fin 40) (d : Fin 16) (b : Fin 16) (disp : BitVec 16) (s : State), atInstr i (.load .ldw d b disp) s ∧ (s.core i).sbuf = [] ∧ heldFor s i = false ∧ (0x30000000 ≤ (effAddr (s.core i) b (disp.signExtend 32)) ∧ (effAddr (s.core i) b (disp.signExtend 32)) < 0x30100000) ∧ accessCheck (fetched i s) i (effAddr (s.core i) b (disp.signExtend 32)) 4 false = none ∧ eccOf (fetched i s) (effAddr (s.core i) b (disp.signExtend 32)) 4 = 0) :=
  ⟨⟨11, 1, 0, 0x40#16, 0x40, setF F.BST_STATUS_RUNNING 0xFF (modCore 11 (fun kk => { kk with st := .run, icache := [(0, [encodeW (.load .ldw 1 0 0x40#16)])] }) State.reset), by unfold atInstr ownClear; decide +kernel⟩,
   ⟨11, 1, 0, 0x40#16, 0x40, setF F.BST_STATUS_RUNNING 0xFF (modCore 11 (fun kk => { kk with st := .run, icache := [(0, [encodeW (.load .ldh 1 0 0x40#16)])] }) State.reset), by unfold atInstr ownClear; decide +kernel⟩,
   ⟨11, 1, 0, 0x40#16, 0x40, setF F.BST_STATUS_RUNNING 0xFF (modCore 11 (fun kk => { kk with st := .run, icache := [(0, [encodeW (.load .ldhu 1 0 0x40#16)])] }) State.reset), by unfold atInstr ownClear; decide +kernel⟩,
   ⟨11, 1, 0, 0x40#16, 0x40, setF F.BST_STATUS_RUNNING 0xFF (modCore 11 (fun kk => { kk with st := .run, icache := [(0, [encodeW (.load .ldb 1 0 0x40#16)])] }) State.reset), by unfold atInstr ownClear; decide +kernel⟩,
   ⟨11, 1, 0, 0x40#16, 0x40, setF F.BST_STATUS_RUNNING 0xFF (modCore 11 (fun kk => { kk with st := .run, icache := [(0, [encodeW (.load .ldbu 1 0 0x40#16)])] }) State.reset), by unfold atInstr ownClear; decide +kernel⟩,
   ⟨11, 1, 2, 0x7FC#16, modCore 11 (fun kk => { kk with st := .run, icache := [(0, [encodeW (.load .ldw 1 2 0x7FC#16)])], w := Vector.replicate 64 0x30000000#32 }) State.reset, by unfold atInstr; decide +kernel⟩⟩

/-- States and operands that meet the hypotheses of Stores. -/
theorem witness_Stores :
    (∃ (i : Fin 40) (r : Fin 16) (b : Fin 16) (disp : BitVec 16) (off : Nat) (s : State), atInstr i (.store .stw r b disp) s ∧ ownClear (fetched i s) i (effAddr (s.core i) b (disp.signExtend 32)) 4 true off) ∧
    (∃ (i : Fin 40) (r : Fin 16) (b : Fin 16) (disp : BitVec 16) (s : State), atInstr i (.store .stw r b disp) s ∧ accessCheck (fetched i s) i (effAddr (s.core i) b (disp.signExtend 32)) 4 true = none ∧ 0x100000 ≤ (effAddr (s.core i) b (disp.signExtend 32)) ∧ (s.core i).sbuf.length + bit (heldFor s i) < 4) ∧
    (∃ (i : Fin 40) (r : Fin 16) (b : Fin 16) (disp : BitVec 16) (off : Nat) (s : State), atInstr i (.store .sth r b disp) s ∧ ownClear (fetched i s) i (effAddr (s.core i) b (disp.signExtend 32)) 2 true off) ∧
    (∃ (i : Fin 40) (r : Fin 16) (b : Fin 16) (disp : BitVec 16) (s : State), atInstr i (.store .sth r b disp) s ∧ accessCheck (fetched i s) i (effAddr (s.core i) b (disp.signExtend 32)) 2 true = none ∧ 0x100000 ≤ (effAddr (s.core i) b (disp.signExtend 32)) ∧ (s.core i).sbuf.length + bit (heldFor s i) < 4) ∧
    (∃ (i : Fin 40) (r : Fin 16) (b : Fin 16) (disp : BitVec 16) (off : Nat) (s : State), atInstr i (.store .stb r b disp) s ∧ ownClear (fetched i s) i (effAddr (s.core i) b (disp.signExtend 32)) 1 true off) ∧
    (∃ (i : Fin 40) (r : Fin 16) (b : Fin 16) (disp : BitVec 16) (s : State), atInstr i (.store .stb r b disp) s ∧ accessCheck (fetched i s) i (effAddr (s.core i) b (disp.signExtend 32)) 1 true = none ∧ 0x100000 ≤ (effAddr (s.core i) b (disp.signExtend 32)) ∧ (s.core i).sbuf.length + bit (heldFor s i) < 4) :=
  ⟨⟨11, 1, 0, 0x40#16, 0x40, setF F.BST_STATUS_RUNNING 0xFF (modCore 11 (fun kk => { kk with st := .run, icache := [(0, [encodeW (.store .stw 1 0 0x40#16)])] }) State.reset), by unfold atInstr ownClear; decide +kernel⟩,
   ⟨11, 1, 2, 0x40#16, modCore 11 (fun kk => { kk with st := .run, icache := [(0, [encodeW (.store .stw 1 2 0x40#16)])], w := Vector.replicate 64 0x30000000#32 }) State.reset, by unfold atInstr; decide +kernel⟩,
   ⟨11, 1, 0, 0x40#16, 0x40, setF F.BST_STATUS_RUNNING 0xFF (modCore 11 (fun kk => { kk with st := .run, icache := [(0, [encodeW (.store .sth 1 0 0x40#16)])] }) State.reset), by unfold atInstr ownClear; decide +kernel⟩,
   ⟨11, 1, 2, 0x40#16, modCore 11 (fun kk => { kk with st := .run, icache := [(0, [encodeW (.store .sth 1 2 0x40#16)])], w := Vector.replicate 64 0x30000000#32 }) State.reset, by unfold atInstr; decide +kernel⟩,
   ⟨11, 1, 0, 0x40#16, 0x40, setF F.BST_STATUS_RUNNING 0xFF (modCore 11 (fun kk => { kk with st := .run, icache := [(0, [encodeW (.store .stb 1 0 0x40#16)])] }) State.reset), by unfold atInstr ownClear; decide +kernel⟩,
   ⟨11, 1, 2, 0x40#16, modCore 11 (fun kk => { kk with st := .run, icache := [(0, [encodeW (.store .stb 1 2 0x40#16)])], w := Vector.replicate 64 0x30000000#32 }) State.reset, by unfold atInstr; decide +kernel⟩⟩

/-- States and operands that meet the hypotheses of BranchesAndCalls. -/
theorem witness_BranchesAndCalls :
    (∃ (i : Fin 40) (cond : Fin 15) (disp : BitVec 22) (s : State), atInstr i (.bcc cond disp) s) ∧
    (∃ (i : Fin 40) (disp : BitVec 22) (s : State), atInstr i (.bj true disp) s) ∧
    (∃ (i : Fin 40) (disp : BitVec 22) (s : State), atInstr i (.bj false disp) s) ∧
    (∃ (i : Fin 40) (a : Fin 16) (s : State), atInstr i (.jmp a) s) ∧
    (∃ (i : Fin 40) (disp : BitVec 26) (s : State), atInstr i (.call disp) s ∧ (s.core i).rstack.length < 32) ∧
    (∃ (i : Fin 40) (a : Fin 16) (s : State), atInstr i (.callr a) s ∧ (s.core i).rstack.length < 32) ∧
    (∃ (i : Fin 40) (v : Word) (l : List Word) (s : State), atInstr i .ret s ∧ (s.core i).rstack = v :: l ∧ v.toNat % 4 = 0) ∧
    (∃ (i : Fin 40) (v : Word) (l : List Word) (s : State), atInstr i .ret s ∧ (s.core i).rstack = v :: l ∧ v.toNat % 4 ≠ 0 ∧ (s.core i).rstack.length ≤ 28) :=
  ⟨⟨11, 14, 5#22, modCore 11 (fun kk => { kk with st := .run, icache := [(0, [encodeW (.bcc 14 5#22)])] }) State.reset, by unfold atInstr; decide +kernel⟩,
   ⟨11, 0x3FFFFF#22, modCore 11 (fun kk => { kk with st := .run, icache := [(0, [encodeW (.bj true 0x3FFFFF#22)])] }) State.reset, by unfold atInstr; decide +kernel⟩,
   ⟨11, 0x3FFFFF#22, modCore 11 (fun kk => { kk with st := .run, icache := [(0, [encodeW (.bj false 0x3FFFFF#22)])] }) State.reset, by unfold atInstr; decide +kernel⟩,
   ⟨11, 3, modCore 11 (fun kk => { kk with st := .run, icache := [(0, [encodeW (.jmp 3)])] }) State.reset, by unfold atInstr; decide +kernel⟩,
   ⟨11, 5#26, modCore 11 (fun kk => { kk with st := .run, icache := [(0, [encodeW (.call 5#26)])] }) State.reset, by unfold atInstr; decide +kernel⟩,
   ⟨11, 3, modCore 11 (fun kk => { kk with st := .run, icache := [(0, [encodeW (.callr 3)])] }) State.reset, by unfold atInstr; decide +kernel⟩,
   ⟨11, 0x80#32, [], modCore 11 (fun kk => { kk with st := .run, icache := [(0, [encodeW .ret])], rstack := [0x80] }) State.reset, by unfold atInstr; decide +kernel⟩,
   ⟨11, 0x83#32, [], modCore 11 (fun kk => { kk with st := .run, icache := [(0, [encodeW .ret])], rstack := [0x83] }) State.reset, by unfold atInstr; decide +kernel⟩⟩

/-- States and operands that meet the hypotheses of StackTokensAndItems. -/
theorem witness_StackTokensAndItems :
    (∃ (i : Fin 40) (a : Fin 16) (s : State), atInstr i (.push a) s ∧ (s.core i).dstack.length < 16) ∧
    (∃ (i : Fin 40) (d : Fin 16) (v : Word) (l : List Word) (s : State), atInstr i (.pop d) s ∧ (s.core i).dstack = v :: l) ∧
    (∃ (i : Fin 40) (s : State), atInstr i .nop s) ∧
    (∃ (i : Fin 40) (w : List Word) (p : Bool) (s : State), atInstr i .nop s ∧ cached s i (s.core i).pc.toNat = some w ∧ SMap.get? s.ecc (lineKey i (s.core i).pc.toNat) = some p) ∧
    (∃ (i : Fin 40) (s : State), atInstr i .fence s ∧ (s.core i).sbuf = [] ∧ heldFor s i = false) ∧
    (∃ (i : Fin 40) (a : Fin 16) (b : Fin 16) (s : State), atInstr i (.sig a b) s ∧ (s.core i).sbuf = [] ∧ heldFor s i = false ∧ (s.lkp.ports.get i).length < 2 ∧ strayToken s i ((s.core i).reg a) = false) ∧
    (∃ (i : Fin 40) (r : Running) (e : Entry) (s : State), atInstr i .done s ∧ (s.core i).sbuf = [] ∧ heldFor s i = false ∧ (s.core i).level = 0 ∧ (s.core i).items.get 0 = some r ∧ r.dmark = 0 ∧ r.segment = none ∧ (s.core i).dsp = (s.core i).dsb ∧ isSet s F.LKP_TRCCTL_EN = false ∧ s.lkp.store = [e] ∧ e.is (r.ident / 2 ^ 27 % 4) false (r.ident % 2 ^ 14) = true ∧ e.counts = Vector.replicate 8 0 ∧ 1 ≤ e.desc.need ∧ (s.core i).drainReq = true ∧ e.desc.need < 256) ∧
    (∃ (i : Fin 40) (s : State), atInstr i .icinv s ∧ (s.core i).sup = true) :=
  ⟨⟨11, 3, modCore 11 (fun kk => { kk with st := .run, icache := [(0, [encodeW (.push 3)])] }) State.reset, by unfold atInstr; decide +kernel⟩,
   ⟨11, 3, 7#32, [], modCore 11 (fun kk => { kk with st := .run, icache := [(0, [encodeW (.pop 3)])], dstack := [7] }) State.reset, by unfold atInstr; decide +kernel⟩,
   ⟨11, modCore 11 (fun kk => { kk with st := .run, icache := [(0, [encodeW .nop])] }) State.reset, by unfold atInstr; decide +kernel⟩,
   ⟨11, [encodeW .nop], false, { setF F.BST_STATUS_RUNNING 0xFF (putBytes (reachAddr 1 0) (leBytes 4 (encodeW .nop).toNat) (modCore 11 (fun kk => { kk with st := .run, icache := [(0, [encodeW .nop])] }) State.reset)) with ecc := [(lineKey 11 0, false)] }, by unfold atInstr; decide +kernel⟩,
   ⟨11, modCore 11 (fun kk => { kk with st := .run, icache := [(0, [encodeW .fence])] }) State.reset, by unfold atInstr; decide +kernel⟩,
   ⟨11, 3, 4, modCore 11 (fun kk => { kk with st := .run, icache := [(0, [encodeW (.sig 3 4)])] }) State.reset, by unfold atInstr; decide +kernel⟩,
   ⟨11, ⟨0x00800005, 0, none, [], 0, 0, 0, false, true⟩, { role := 0, seg := false, index := 5, desc := ⟨0x100, 7, 255, 0, 1, false⟩, counts := Vector.replicate 8 0, values := Vector.replicate 8 9, running := true }, { modCore 11 (fun kk => { kk with st := .run, icache := [(0, [encodeW .done])], drainReq := true, items := (Vector.replicate 4 none).set 0 (some ⟨0x00800005, 0, none, [], 0, 0, 0, false, true⟩) }) State.reset with lkp := { Lkp.reset with store := [{ role := 0, seg := false, index := 5, desc := ⟨0x100, 7, 255, 0, 1, false⟩, counts := Vector.replicate 8 0, values := Vector.replicate 8 9, running := true }] } }, by unfold atInstr; decide +kernel⟩,
   ⟨11, modCore 11 (fun kk => { kk with st := .run, icache := [(0, [encodeW .icinv])] }) State.reset, by unfold atInstr; decide +kernel⟩⟩

/-- States and operands that meet the hypotheses of BitChecks. -/
theorem witness_BitChecks :
    (∃ (i : Fin 40) (b : Fin 16) (disp : BitVec 13) (k : Fin 8) (off : Nat) (s : State), atInstr i (.bitm .bld b disp k) s ∧ ownClear (fetched i s) i (effAddr (s.core i) b (disp.signExtend 32)) 1 false off) ∧
    (∃ (i : Fin 40) (b : Fin 16) (disp : BitVec 13) (k : Fin 8) (off : Nat) (s : State), atInstr i (.bitm .bldn b disp k) s ∧ ownClear (fetched i s) i (effAddr (s.core i) b (disp.signExtend 32)) 1 false off) ∧
    (∃ (i : Fin 40) (b : Fin 16) (disp : BitVec 13) (k : Fin 8) (off : Nat) (s : State), atInstr i (.bitm .band b disp k) s ∧ ownClear (fetched i s) i (effAddr (s.core i) b (disp.signExtend 32)) 1 false off) ∧
    (∃ (i : Fin 40) (b : Fin 16) (disp : BitVec 13) (k : Fin 8) (off : Nat) (s : State), atInstr i (.bitm .bandn b disp k) s ∧ ownClear (fetched i s) i (effAddr (s.core i) b (disp.signExtend 32)) 1 false off) ∧
    (∃ (i : Fin 40) (b : Fin 16) (disp : BitVec 13) (k : Fin 8) (off : Nat) (s : State), atInstr i (.bitm .bor b disp k) s ∧ ownClear (fetched i s) i (effAddr (s.core i) b (disp.signExtend 32)) 1 false off) ∧
    (∃ (i : Fin 40) (b : Fin 16) (disp : BitVec 13) (k : Fin 8) (off : Nat) (s : State), atInstr i (.bitm .born b disp k) s ∧ ownClear (fetched i s) i (effAddr (s.core i) b (disp.signExtend 32)) 1 false off) ∧
    (∃ (i : Fin 40) (b : Fin 16) (disp : BitVec 13) (k : Fin 8) (off : Nat) (s : State), atInstr i (.bitm .bxor b disp k) s ∧ ownClear (fetched i s) i (effAddr (s.core i) b (disp.signExtend 32)) 1 false off) ∧
    (∃ (i : Fin 40) (b : Fin 16) (disp : BitVec 13) (k : Fin 8) (off : Nat) (s : State), atInstr i (.bitm .bxorn b disp k) s ∧ ownClear (fetched i s) i (effAddr (s.core i) b (disp.signExtend 32)) 1 false off) :=
  ⟨⟨11, 0, 0x40#13, 7, 0x40, setF F.BST_STATUS_RUNNING 0xFF (modCore 11 (fun kk => { kk with st := .run, icache := [(0, [encodeW (.bitm .bld 0 0x40#13 7)])] }) State.reset), by unfold atInstr ownClear; decide +kernel⟩,
   ⟨11, 0, 0x40#13, 7, 0x40, setF F.BST_STATUS_RUNNING 0xFF (modCore 11 (fun kk => { kk with st := .run, icache := [(0, [encodeW (.bitm .bldn 0 0x40#13 7)])] }) State.reset), by unfold atInstr ownClear; decide +kernel⟩,
   ⟨11, 0, 0x40#13, 7, 0x40, setF F.BST_STATUS_RUNNING 0xFF (modCore 11 (fun kk => { kk with st := .run, icache := [(0, [encodeW (.bitm .band 0 0x40#13 7)])] }) State.reset), by unfold atInstr ownClear; decide +kernel⟩,
   ⟨11, 0, 0x40#13, 7, 0x40, setF F.BST_STATUS_RUNNING 0xFF (modCore 11 (fun kk => { kk with st := .run, icache := [(0, [encodeW (.bitm .bandn 0 0x40#13 7)])] }) State.reset), by unfold atInstr ownClear; decide +kernel⟩,
   ⟨11, 0, 0x40#13, 7, 0x40, setF F.BST_STATUS_RUNNING 0xFF (modCore 11 (fun kk => { kk with st := .run, icache := [(0, [encodeW (.bitm .bor 0 0x40#13 7)])] }) State.reset), by unfold atInstr ownClear; decide +kernel⟩,
   ⟨11, 0, 0x40#13, 7, 0x40, setF F.BST_STATUS_RUNNING 0xFF (modCore 11 (fun kk => { kk with st := .run, icache := [(0, [encodeW (.bitm .born 0 0x40#13 7)])] }) State.reset), by unfold atInstr ownClear; decide +kernel⟩,
   ⟨11, 0, 0x40#13, 7, 0x40, setF F.BST_STATUS_RUNNING 0xFF (modCore 11 (fun kk => { kk with st := .run, icache := [(0, [encodeW (.bitm .bxor 0 0x40#13 7)])] }) State.reset), by unfold atInstr ownClear; decide +kernel⟩,
   ⟨11, 0, 0x40#13, 7, 0x40, setF F.BST_STATUS_RUNNING 0xFF (modCore 11 (fun kk => { kk with st := .run, icache := [(0, [encodeW (.bitm .bxorn 0 0x40#13 7)])] }) State.reset), by unfold atInstr ownClear; decide +kernel⟩⟩

/-- States and operands that meet the hypotheses of BitWritesAndNesting. -/
theorem witness_BitWritesAndNesting_1 :
    (∃ (i : Fin 40) (b : Fin 16) (disp : BitVec 13) (k : Fin 8) (off : Nat) (s : State), atInstr i (.bitm .bst b disp k) s ∧ ownClear (fetched i s) i (effAddr (s.core i) b (disp.signExtend 32)) 1 true off) ∧
    (∃ (i : Fin 40) (b : Fin 16) (disp : BitVec 13) (k : Fin 8) (off : Nat) (s : State), atInstr i (.bitm .bset b disp k) s ∧ ownClear (fetched i s) i (effAddr (s.core i) b (disp.signExtend 32)) 1 true off) ∧
    (∃ (i : Fin 40) (b : Fin 16) (disp : BitVec 13) (k : Fin 8) (off : Nat) (s : State), atInstr i (.bitm .brst b disp k) s ∧ ownClear (fetched i s) i (effAddr (s.core i) b (disp.signExtend 32)) 1 true off) ∧
    (∃ (i : Fin 40) (b : Fin 16) (disp : BitVec 13) (k : Fin 8) (off : Nat) (s : State), atInstr i (.bitm .bpos b disp k) s ∧ ownClear (fetched i s) i (effAddr (s.core i) b (disp.signExtend 32)) 1 true off) ∧
    (∃ (i : Fin 40) (b : Fin 16) (disp : BitVec 13) (k : Fin 8) (off : Nat) (s : State), atInstr i (.bitm .bneg b disp k) s ∧ ownClear (fetched i s) i (effAddr (s.core i) b (disp.signExtend 32)) 1 true off) ∧
    (∃ (i : Fin 40) (s : State), atInstr i (.bnest .and) s ∧ (s.core i).bnd < 8) ∧
    (∃ (i : Fin 40) (s : State), atInstr i (.bnest .or) s ∧ (s.core i).bnd < 8) ∧
    (∃ (i : Fin 40) (s : State), atInstr i (.bnest .xor) s ∧ (s.core i).bnd < 8) :=
  ⟨⟨11, 0, 0x40#13, 7, 0x40, setF F.BST_STATUS_RUNNING 0xFF (modCore 11 (fun kk => { kk with st := .run, icache := [(0, [encodeW (.bitm .bst 0 0x40#13 7)])] }) State.reset), by unfold atInstr ownClear; decide +kernel⟩,
   ⟨11, 0, 0x40#13, 7, 0x40, setF F.BST_STATUS_RUNNING 0xFF (modCore 11 (fun kk => { kk with st := .run, icache := [(0, [encodeW (.bitm .bset 0 0x40#13 7)])] }) State.reset), by unfold atInstr ownClear; decide +kernel⟩,
   ⟨11, 0, 0x40#13, 7, 0x40, setF F.BST_STATUS_RUNNING 0xFF (modCore 11 (fun kk => { kk with st := .run, icache := [(0, [encodeW (.bitm .brst 0 0x40#13 7)])] }) State.reset), by unfold atInstr ownClear; decide +kernel⟩,
   ⟨11, 0, 0x40#13, 7, 0x40, setF F.BST_STATUS_RUNNING 0xFF (modCore 11 (fun kk => { kk with st := .run, icache := [(0, [encodeW (.bitm .bpos 0 0x40#13 7)])] }) State.reset), by unfold atInstr ownClear; decide +kernel⟩,
   ⟨11, 0, 0x40#13, 7, 0x40, setF F.BST_STATUS_RUNNING 0xFF (modCore 11 (fun kk => { kk with st := .run, icache := [(0, [encodeW (.bitm .bneg 0 0x40#13 7)])] }) State.reset), by unfold atInstr ownClear; decide +kernel⟩,
   ⟨11, modCore 11 (fun kk => { kk with st := .run, icache := [(0, [encodeW (.bnest .and)])] }) State.reset, by unfold atInstr; decide +kernel⟩,
   ⟨11, modCore 11 (fun kk => { kk with st := .run, icache := [(0, [encodeW (.bnest .or)])] }) State.reset, by unfold atInstr; decide +kernel⟩,
   ⟨11, modCore 11 (fun kk => { kk with st := .run, icache := [(0, [encodeW (.bnest .xor)])] }) State.reset, by unfold atInstr; decide +kernel⟩⟩

/-- States and operands that meet the hypotheses of BitWritesAndNesting. -/
theorem witness_BitWritesAndNesting_2 :
    (∃ (i : Fin 40) (s : State), atInstr i (.bnest .and) s ∧ (s.core i).bnd = 8 ∧ (s.core i).rstack.length ≤ 28) ∧
    (∃ (i : Fin 40) (s : State), atInstr i .bunnest s ∧ (s.core i).bnd ≠ 0) ∧
    (∃ (i : Fin 40) (s : State), atInstr i .bnot s) :=
  ⟨⟨11, modCore 11 (fun kk => { kk with st := .run, icache := [(0, [encodeW (.bnest .and)])], bstk := 0x11111111#32 }) State.reset, by unfold atInstr; decide +kernel⟩,
   ⟨11, modCore 11 (fun kk => { kk with st := .run, icache := [(0, [encodeW .bunnest])], bstk := 0xF#32 }) State.reset, by unfold atInstr; decide +kernel⟩,
   ⟨11, modCore 11 (fun kk => { kk with st := .run, icache := [(0, [encodeW .bnot])] }) State.reset, by unfold atInstr; decide +kernel⟩⟩

/-- States and operands that meet the hypotheses of ExceptionsAndReturn. -/
theorem witness_ExceptionsAndReturn :
    (∃ (i : Fin 40) (n : BitVec 8) (s : State), atInstr i (.trap n) s ∧ (s.core i).rstack.length ≤ 28) ∧
    (∃ (i : Fin 40) (s : State), atInstr i .brk s ∧ (s.core i).rstack.length ≤ 28) ∧
    (∃ (i : Fin 40) (m : Word) (pc : Word) (st : Word) (bs : Word) (l : List Word) (s : State), atInstr i .rfe s ∧ (s.core i).sup = true ∧ (s.core i).rstack = m :: pc :: st :: bs :: l ∧ m = marker 1 (s.core i).level.val) ∧
    (∃ (i : Fin 40) (s : State), atInstr i .rfe s ∧ (s.core i).sup = false ∧ (s.core i).rstack.length ≤ 28) ∧
    (∃ (i : Fin 40) (s : State), atInstr i .icinv s ∧ (s.core i).sup = false ∧ (s.core i).rstack.length ≤ 28) ∧
    (∃ (i : Fin 40) (w : Word) (s : State), live s = true ∧ calm s (fetched i s) = true ∧ (s.core i).st = .run ∧ (s.core i).haltReq = false ∧ (s.core i).pendW = [] ∧ waitsRead s i = false ∧ (fetch i (quiet s)).2.toOption = some w ∧ decodeW w = none ∧ (s.core i).rstack.length ≤ 28) :=
  ⟨⟨11, 255#8, modCore 11 (fun kk => { kk with st := .run, icache := [(0, [encodeW (.trap 255#8)])] }) State.reset, by unfold atInstr; decide +kernel⟩,
   ⟨11, modCore 11 (fun kk => { kk with st := .run, icache := [(0, [encodeW .brk])] }) State.reset, by unfold atInstr; decide +kernel⟩,
   ⟨11, 0x13#32, 0x100#32, 0x80000002#32, 0#32, [], modCore 11 (fun kk => { kk with st := .run, icache := [(0, [encodeW .rfe])], rstack := [0x13, 0x100, 0x80000002, 0] }) State.reset, by unfold atInstr; decide +kernel⟩,
   ⟨11, modCore 11 (fun kk => { kk with st := .run, icache := [(0, [encodeW .rfe])], sup := false }) State.reset, by unfold atInstr; decide +kernel⟩,
   ⟨11, modCore 11 (fun kk => { kk with st := .run, icache := [(0, [encodeW .icinv])], sup := false }) State.reset, by unfold atInstr; decide +kernel⟩,
   ⟨11, 0#32, modCore 11 (fun kk => { kk with st := .run, icache := [(0, [0#32])] }) State.reset, by decide +kernel⟩⟩

/-- States and operands that meet the hypotheses of ControlRegisters. -/
theorem witness_ControlRegisters_1 :
    (∃ (i : Fin 40) (d : Fin 16) (c : BitVec 8) (s : State), atInstr i (.mfc d c) s ∧ ((s.core i).sup = true ∨ userMay c.toNat = true) ∧ (c.toNat < 16 ∧ c.toNat ≠ 1 ∧ c.toNat ≠ 2 ∧ c.toNat ≠ 14)) ∧
    (∃ (i : Fin 40) (d : Fin 16) (c : BitVec 8) (s : State), atInstr i (.mfc d c) s ∧ 16 ≤ c.toNat ∧ (s.core i).rstack.length ≤ 28) ∧
    (∃ (i : Fin 40) (d : Fin 16) (c : BitVec 8) (s : State), atInstr i (.mfc d c) s ∧ c.toNat < 16 ∧ (s.core i).sup = false ∧ userMay c.toNat = false ∧ (s.core i).rstack.length ≤ 28) ∧
    (∃ (i : Fin 40) (c : BitVec 8) (a : Fin 16) (s : State), atInstr i (.mtc c a) s ∧ (s.core i).sup = true ∧ c = 0#8) ∧
    (∃ (i : Fin 40) (c : BitVec 8) (a : Fin 16) (s : State), atInstr i (.mtc c a) s ∧ (s.core i).sup = true ∧ c = 5#8 ∧ cleanBstk ((s.core i).reg a) = (s.core i).reg a) ∧
    (∃ (i : Fin 40) (c : BitVec 8) (a : Fin 16) (s : State), atInstr i (.mtc c a) s ∧ (s.core i).sup = true ∧ c = 6#8 ∧ (s.core i).dstack = [] ∧ ((s.core i).reg a).toNat ≤ 0xFFFFF) ∧
    (∃ (i : Fin 40) (c : BitVec 8) (a : Fin 16) (s : State), atInstr i (.mtc c a) s ∧ (s.core i).sup = true ∧ c = 7#8 ∧ ((s.core i).reg a).toNat ≤ 0xFFFFF) ∧
    (∃ (i : Fin 40) (c : BitVec 8) (a : Fin 16) (s : State), atInstr i (.mtc c a) s ∧ (s.core i).sup = true ∧ c = 8#8 ∧ ((s.core i).reg a).toNat ≤ 0xFFFFF) :=
  ⟨⟨11, 1, 12#8, modCore 11 (fun kk => { kk with st := .run, icache := [(0, [encodeW (.mfc 1 12#8)])] }) State.reset, by unfold atInstr; decide +kernel⟩,
   ⟨11, 1, 16#8, modCore 11 (fun kk => { kk with st := .run, icache := [(0, [encodeW (.mfc 1 16#8)])] }) State.reset, by unfold atInstr; decide +kernel⟩,
   ⟨11, 1, 12#8, modCore 11 (fun kk => { kk with st := .run, icache := [(0, [encodeW (.mfc 1 12#8)])], sup := false }) State.reset, by unfold atInstr; decide +kernel⟩,
   ⟨11, 0#8, 3, modCore 11 (fun kk => { kk with st := .run, icache := [(0, [encodeW (.mtc 0#8 3)])] }) State.reset, by unfold atInstr; decide +kernel⟩,
   ⟨11, 5#8, 3, modCore 11 (fun kk => { kk with st := .run, icache := [(0, [encodeW (.mtc 5#8 3)])] }) State.reset, by unfold atInstr; decide +kernel⟩,
   ⟨11, 6#8, 3, modCore 11 (fun kk => { kk with st := .run, icache := [(0, [encodeW (.mtc 6#8 3)])] }) State.reset, by unfold atInstr; decide +kernel⟩,
   ⟨11, 7#8, 3, modCore 11 (fun kk => { kk with st := .run, icache := [(0, [encodeW (.mtc 7#8 3)])] }) State.reset, by unfold atInstr; decide +kernel⟩,
   ⟨11, 8#8, 3, modCore 11 (fun kk => { kk with st := .run, icache := [(0, [encodeW (.mtc 8#8 3)])] }) State.reset, by unfold atInstr; decide +kernel⟩⟩

/-- States and operands that meet the hypotheses of ControlRegisters. -/
theorem witness_ControlRegisters_2 :
    (∃ (i : Fin 40) (c : BitVec 8) (a : Fin 16) (s : State), atInstr i (.mtc c a) s ∧ (s.core i).sup = true ∧ c = 9#8 ∧ (s.core i).rstack = [] ∧ ((s.core i).reg a).toNat ≤ 0xFFFFF) ∧
    (∃ (i : Fin 40) (c : BitVec 8) (a : Fin 16) (s : State), atInstr i (.mtc c a) s ∧ (s.core i).sup = true ∧ c = 10#8 ∧ ((s.core i).reg a).toNat ≤ 0xFFFFF) ∧
    (∃ (i : Fin 40) (c : BitVec 8) (a : Fin 16) (s : State), atInstr i (.mtc c a) s ∧ (s.core i).sup = true ∧ c = 11#8 ∧ ((s.core i).reg a).toNat ≤ 0xFFFFF) ∧
    (∃ (i : Fin 40) (c : BitVec 8) (a : Fin 16) (s : State), atInstr i (.mtc c a) s ∧ (s.core i).sup = true ∧ c = 12#8) ∧
    (∃ (i : Fin 40) (c : BitVec 8) (a : Fin 16) (s : State), atInstr i (.mtc c a) s ∧ (s.core i).sup = true ∧ c = 15#8) ∧
    (∃ (i : Fin 40) (c : BitVec 8) (a : Fin 16) (s : State), atInstr i (.mtc c a) s ∧ c.toNat < 16 ∧ (s.core i).sup = false ∧ userMay c.toNat = false ∧ (s.core i).rstack.length ≤ 28) :=
  ⟨⟨11, 9#8, 3, modCore 11 (fun kk => { kk with st := .run, icache := [(0, [encodeW (.mtc 9#8 3)])] }) State.reset, by unfold atInstr; decide +kernel⟩,
   ⟨11, 10#8, 3, modCore 11 (fun kk => { kk with st := .run, icache := [(0, [encodeW (.mtc 10#8 3)])] }) State.reset, by unfold atInstr; decide +kernel⟩,
   ⟨11, 11#8, 3, modCore 11 (fun kk => { kk with st := .run, icache := [(0, [encodeW (.mtc 11#8 3)])] }) State.reset, by unfold atInstr; decide +kernel⟩,
   ⟨11, 12#8, 3, modCore 11 (fun kk => { kk with st := .run, icache := [(0, [encodeW (.mtc 12#8 3)])] }) State.reset, by unfold atInstr; decide +kernel⟩,
   ⟨11, 15#8, 3, modCore 11 (fun kk => { kk with st := .run, icache := [(0, [encodeW (.mtc 15#8 3)])] }) State.reset, by unfold atInstr; decide +kernel⟩,
   ⟨11, 12#8, 3, modCore 11 (fun kk => { kk with st := .run, icache := [(0, [encodeW (.mtc 12#8 3)])], sup := false }) State.reset, by unfold atInstr; decide +kernel⟩⟩

/-- States and operands that meet the hypotheses of TriggersAndLatch. -/
theorem witness_TriggersAndLatch :
    (∃ (u : Fin 32) (s : State), live s = true ∧ calm s s = true ∧ isSet s (F.TMB_UNIT_STAT_ARMED u) = true ∧ unitDue s u = true ∧ unitMode s u = 1 ∧ getF s (F.TMB_UNIT_CTL_OWNER u) = 0 ∧ isSet s (F.TMB_UNIT_CTL_DLKP u) = true ∧ isSet s (F.TMB_UNIT_CTL_DSYNC u) = false) ∧
    (∃ (u : Fin 32) (s : State), live s = true ∧ calm s s = true ∧ isSet s (F.TMB_UNIT_STAT_ARMED u) = true ∧ unitDue s u = true ∧ unitMode s u = 2 ∧ getF s (F.TMB_UNIT_CTL_OWNER u) = 0 ∧ isSet s (F.TMB_UNIT_CTL_DLKP u) = false ∧ isSet s (F.TMB_UNIT_CTL_DSYNC u) = false ∧ at32 s.tmb.skip u = false) ∧
    (∃ (src : Fin 1024) (tk : Fin 32) (s : State), live s = true ∧ (pairState s = 0 ∨ pairState s = 2) ∧ (((List.range 16).map (· + 16)).filter (fun u => getF s (F.SCN_TASK_CTL_TRIG u) == src.val) = [tk.val]) ∧ running s = true ∧ enabled s tk = true ∧ canTrigger s tk = true ∧ (s.task tk).held = false ∧ getF s F.SCN_EDITCTL_EDSTAT = 0 ∧ s.scan.edit = none ∧ ((List.range 4).all (fun c => !isSet s (F.FIO_CH_CTL_EN c)) = true)) ∧
    (∃ (src : Fin 1024) (tk : Fin 32) (s : State), live s = true ∧ (pairState s = 0 ∨ pairState s = 2) ∧ (((List.range 16).map (· + 16)).filter (fun u => getF s (F.SCN_TASK_CTL_TRIG u) == src.val) = [tk.val]) ∧ running s = true ∧ enabled s tk = true ∧ canTrigger s tk = false ∧ (s.task tk).held = false ∧ taskState s tk ≠ 1) ∧
    (∃ (src : Fin 1024) (tk : Fin 32) (s : State), live s = true ∧ (pairState s = 0 ∨ pairState s = 2) ∧ (((List.range 16).map (· + 16)).filter (fun u => getF s (F.SCN_TASK_CTL_TRIG u) == src.val) = [tk.val]) ∧ running s = true ∧ enabled s tk = true ∧ (s.task tk).held = true ∧ merges s A.SCN_EVT 2 = false) ∧
    (∃ (tk : Fin 32) (s : State), live s = true ∧ running s = true ∧ pairState s = 0 ∧ (s.task tk).held = true ∧ canTrigger s tk = true ∧ getF s F.SCN_EDITCTL_EDSTAT = 0 ∧ s.scan.edit = none ∧ ((List.range 4).all (fun c => !isSet s (F.FIO_CH_CTL_EN c)) = true)) :=
  ⟨⟨31, setF (F.TMB_UNIT_STAT_ARMED 31) 1 (setF (F.TMB_UNIT_CTL_MODE 31) 1 (setF (F.TMB_UNIT_CTL_DLKP 31) 1 State.reset)), by decide +kernel⟩,
   ⟨0, setF (F.TMB_UNIT_STAT_ARMED 0) 1 (setF (F.TMB_UNIT_CTL_MODE 0) 2 (setF (F.TMB_UNIT_PER_PER 0) 1000 State.reset)), by decide +kernel⟩,
   ⟨700, 20, setF F.SCN_STATUS_CSTATE 2 (setF (F.SCN_TASK_CTL_EN 20) 1 (setF (F.SCN_TASK_CTL_TRIG 20) 700 (setF (F.SCN_TASK_TSTAT_STATE 20) 1 State.reset))), by decide +kernel⟩,
   ⟨5, 16, setF F.SCN_STATUS_CSTATE 2 (setF (F.SCN_TASK_CTL_EN 16) 1 (setF (F.SCN_TASK_CTL_TRIG 16) 5 (setF (F.SCN_TASK_TSTAT_STATE 16) 3 State.reset))), by decide +kernel⟩,
   ⟨1, 31, modTask 31 (fun k => { k with held := true }) (setF F.SCN_STATUS_CSTATE 2 (setF (F.SCN_TASK_CTL_EN 31) 1 (setF (F.SCN_TASK_CTL_TRIG 31) 1 (setF (F.SCN_TASK_TSTAT_STATE 31) 5 State.reset)))), by decide +kernel⟩,
   ⟨17, modTask 17 (fun k => { k with held := true }) (setF F.SCN_STATUS_CSTATE 2 (setF (F.SCN_TASK_TSTAT_STATE 17) 5 State.reset)), by decide +kernel⟩⟩

/-- States and operands that meet the hypotheses of SnapshotAndCommit. -/
theorem witness_SnapshotAndCommit_1 :
    (∃ (tk : Fin 32) (a : Fin 0x10000) (b : Byte) (s : State), live s = true ∧ calm s s = true ∧ running s = true ∧ taskState s tk = 2 ∧ ((List.range tk).all (fun u => taskState s u != 2) = true) ∧ duplex s tk = false ∧ roleBusy s (getF s (F.SCN_TASK_CTL_ROLE0 tk)) = false ∧ s.ecc = [] ∧ s.rot.fill = none ∧ s.rot.window = none ∧ taskF s tk (F.SCN_TASK_SEG_COUNT tk) = 0 ∧ (s.task tk).snap = [(a.val, b)] ∧ foldCW s (reachOf s (getF s (F.SCN_TASK_CTL_ROLE0 tk))) a.val = a.val) ∧
    (∃ (tk : Fin 32) (x : Ready) (s : State), live s = true ∧ calm s s = true ∧ running s = true ∧ taskState s tk = 2 ∧ ((List.range tk).all (fun u => taskState s u != 2) = true) ∧ pairState s = 0 ∧ duplex s tk = false ∧ roleBusy s (getF s (F.SCN_TASK_CTL_ROLE0 tk)) = false ∧ s.ecc = [] ∧ taskF s tk (F.SCN_TASK_SEG_COUNT tk) = 1 ∧ x = ⟨getF s (F.SCN_TASK_CTL_ROLE0 tk), true, taskF s tk (F.SCN_TASK_SEG_FIRST tk), tk.val, 0xFF, segGroup s tk, false, time s, false⟩ ∧ (readMask x.role x.index s).2.toOption = some 1 ∧ (s.task tk).snap = [] ∧ s.lkp.idle = [] ∧ s.lkp.offers = [] ∧ s.lkp.ready = [] ∧ (((List.range 40).all fun i => (s.core i).st != .run) = true)) ∧
    (∃ (tk : Fin 32) (s : State), live s = true ∧ calm s s = true ∧ running s = true ∧ taskState s tk = 3 ∧ commitInstant s tk ≤ time s ∧ (s.task tk).done0 = taskF s tk (F.SCN_TASK_SEG_COUNT tk) ∧ duplex s tk = false ∧ s.rot.window = none ∧ s.scan.committing = none ∧ s.ecc = [] ∧ (∀ u : Fin 32, u ≠ tk → (s.task u).waiting = false ∧ (commitDue s u = false ∨ commitsBefore s tk u = true))) ∧
    (∃ (tk : Fin 32) (u : Fin 32) (s : State), live s = true ∧ calm s s = true ∧ running s = true ∧ taskState s tk = 3 ∧ commitInstant s tk ≤ time s ∧ (s.task tk).done0 = taskF s tk (F.SCN_TASK_SEG_COUNT tk) ∧ duplex s tk = false ∧ s.rot.window = none ∧ s.scan.committing = some u.val) ∧
    (∃ (tk : Fin 32) (o : Fin 0x20000) (b : Byte) (s : State), live s = true ∧ calm s s = true ∧ pairState s = 0 ∧ s.scan.committing = some tk.val ∧ time s ≤ deadline s tk ∧ (s.task tk).buffer = [(o.val, b)] ∧ (s.task tk).capture = [] ∧ (s.task tk).held = false ∧ ((List.range 32).all (fun u => !(s.task u).waiting) = true) ∧ s.rot.step = none) ∧
    (∃ (tk : Fin 32) (o : Fin 0x20000) (s : State), live s = true ∧ calm s s = true ∧ pairState s = 0 ∧ s.scan.committing = some tk.val ∧ time s ≤ deadline s tk ∧ journalRoom (s.task tk).buffer s = true ∧ (s.task tk).held = false ∧ ((List.range 32).all (fun u => !(s.task u).waiting) = true) ∧ s.rot.step = none) ∧
    (∃ (tk : Fin 32) (s : State), live s = true ∧ calm s s = true ∧ running s = true ∧ taskState s tk = 4 ∧ deadline s tk ≤ time s ∧ s.faults.coreStopped = false) ∧
    (∃ (b : Fin 2) (o : Fin 64) (s : State), live s = true ∧ s.scan.retRun = none ∧ s.scan.retQueue.isSome = true ∧ s.scan.retTarget = b.val) :=
  ⟨⟨9, 0x1234, 0xA5, modTask 9 (fun k => { k with snap := [(0x1234, 0xA5)] }) (setF F.SCN_STATUS_CSTATE 2 (setF (F.SCN_TASK_TSTAT_STATE 9) 2 (setF (F.SCN_TASK_SEG_COUNT 9) 0 (wr A.LKH_ROLEMAP 0x3210 State.reset)))), by decide +kernel⟩,
   ⟨9, ⟨0, true, 0, 9, 0xFF, 0, false, 0, false⟩, setF F.SCN_STATUS_CSTATE 2 (setF (F.SCN_TASK_TSTAT_STATE 9) 2 (setF (F.SCN_TASK_SEG_COUNT 9) 1 (wr A.LKH_ROLEMAP 0x3210 State.reset))), by decide +kernel⟩,
   ⟨3, setF F.SCN_STATUS_CSTATE 2 (setF (F.SCN_TASK_TSTAT_STATE 3) 3 (setF (F.SCN_TASK_SEG_COUNT 3) 0 (wr64 A.TMB_TIME 0x500000000 State.reset))), by decide +kernel⟩,
   ⟨3, 2, modScan (fun c => { c with committing := some 2 }) (setF F.SCN_STATUS_CSTATE 2 (setF (F.SCN_TASK_TSTAT_STATE 3) 3 (setF (F.SCN_TASK_SEG_COUNT 3) 0 (wr64 A.TMB_TIME 0x500000000 State.reset)))), by decide +kernel⟩,
   ⟨31, 0x1FFFF, 0x7E, modTask 31 (fun k => { k with buffer := [(0x1FFFF, 0x7E)] }) (modScan (fun c => { c with committing := some 31 }) (setF F.SCN_STATUS_CSTATE 2 (setF (F.SCN_TASK_TSTAT_STATE 31) 4 State.reset))), by decide +kernel⟩,
   ⟨31, 0x1FFFF, modTask 31 (fun k => { k with buffer := [(0x1FFFF, 0x7E), (3, 4)], capture := [(0, [1])] }) (modScan (fun c => { c with committing := some 31 }) (setF F.SCN_STATUS_CSTATE 2 (setF (F.SCN_TASK_TSTAT_STATE 31) 4 State.reset))), by decide +kernel⟩,
   ⟨30, setF F.SCN_STATUS_CSTATE 2 (setF (F.SCN_TASK_TSTAT_STATE 30) 4 (wr64 A.TMB_TIME 0x500000000 State.reset)), by decide +kernel⟩,
   ⟨1, 63, { modScan (fun c => { c with retQueue := some [(0, [1])], retTarget := 1 }) State.reset with mem := [(0x41200000, 0x56)] }, by decide +kernel⟩⟩

/-- States and operands that meet the hypotheses of SnapshotAndCommit. -/
theorem witness_SnapshotAndCommit_2 :
    (∃ (b : Fin 2) (s : State), live s = true ∧ calm s s = true ∧ s.scan.retRun = some [] ∧ s.scan.retQueue = none ∧ s.scan.retRunTarget = b.val ∧ s.cfg.standbyDue = false) ∧
    (∃ (s : State), live s = true ∧ calm s s = true ∧ s.scan.aborting = true ∧ rd64 s A.SCN_STOPTIME + 1000 * getF s F.SCN_WDCTL_ABORTTMO ≤ time s ∧ ((List.range 40).all (fun i => !(s.core i).running.any (fun (_, r) => r.segment.isSome)) = true)) ∧
    (∃ (i : Fin 40) (s : State), live s = true ∧ calm s s = true ∧ s.scan.aborting = true ∧ rd64 s A.SCN_STOPTIME + 1000 * getF s F.SCN_WDCTL_ABORTTMO ≤ time s ∧ ((List.range 40).filter (fun j => (s.core j).running.any fun (_, r) => r.segment.isSome) = [i.val]) ∧ s.brg.reads = []) :=
  ⟨⟨1, modScan (fun c => { c with retRun := some [], retRunTarget := 1 }) State.reset, by decide +kernel⟩,
   ⟨wr64 A.TMB_TIME 100000000 (modScan (fun c => { c with aborting := true }) State.reset), by decide +kernel⟩,
   ⟨13, modCore 13 (fun k => { k with st := .run, dstack := [5], items := k.items.set 0 (some { ident := 0x80000000, segment := some (3, 0), group := 0, windows := [], dmark := 0, rmark := 0, start := 0, trc := false, counted := true }) }) (wr64 A.TMB_TIME 100000000 (modScan (fun c => { c with aborting := true }) State.reset)), by decide +kernel⟩⟩

/-- States and operands that meet the hypotheses of StopForceAndEdit. -/
theorem witness_StopForceAndEdit_1 :
    (∃ (who : Who) (tk : Fin 32) (o : Fin 0x20000) (s : State), live s = true ∧ calm s s = true ∧ isPriv s who = true ∧ isStandby s = false ∧ isSet s F.SYS_STATUS_READY = true ∧ running s = true ∧ unguarded s who = true) ∧
    (∃ (who : Who) (s : State), live s = true ∧ calm s s = true ∧ isPriv s who = true ∧ pairState s = 0 ∧ isSet s F.SYS_STATUS_READY = true ∧ getF s F.SCN_STATUS_CSTATE = 3 ∧ (∀ r : Fin 4, reachOf s r < 5) ∧ ((List.range 5).all (fun n => getF s (F.RCH_PWR_PSTATE n) == 0) = true) ∧ unguarded s who = true) ∧
    (∃ (who : Who) (s : State), live s = true ∧ calm s s = true ∧ isPriv s who = true ∧ pairState s = 0 ∧ isSet s F.SYS_STATUS_READY = true ∧ getF s F.SCN_STATUS_CSTATE = 3 ∧ (∀ r : Fin 4, reachOf s r < 5) ∧ ((List.range 5).all (fun n => getF s (F.RCH_PWR_PSTATE n) == 0) = true) ∧ unguarded s who = true) ∧
    (∃ (who : Who) (area : Fin 2) (off : Fin 0x20000) (s : State), live s = true ∧ calm s s = true ∧ isPriv s who = true ∧ isStandby s = false ∧ ((List.range 32).all (fun tk => !enabled s tk) = true) ∧ area.val = 0 ∧ unguarded s who = true) ∧
    (∃ (who : Who) (area : Fin 2) (off : Fin 0x20000) (s : State), live s = true ∧ calm s s = true ∧ isPriv s who = true ∧ isStandby s = false ∧ ((List.range 32).all (fun tk => !enabled s tk) = true) ∧ area.val = 1 ∧ unguarded s who = true) ∧
    (∃ (who : Who) (area : Fin 2) (off : Fin 0x20000) (s : State), live s = true ∧ calm s s = true ∧ isPriv s who = true ∧ isStandby s = false ∧ unguarded s who = true) ∧
    (∃ (who : Who) (area : Fin 2) (off : Fin 0x20000) (s : State), live s = true ∧ calm s s = true ∧ isPriv s who = true ∧ isStandby s = false ∧ unguarded s who = true) ∧
    (∃ (who : Who) (n : Fin 0x20000) (s : State), live s = true ∧ calm s s = true ∧ isPriv s who = true ∧ isStandby s = false ∧ n.val = 1 ∧ s.ecc = [] ∧ 0x41450000 ≤ 8 * getF s F.SCN_FORCELIST_ADDR ∧ target s 49 (8 * getF s F.SCN_FORCELIST_ADDR) = .mram (8 * getF s F.SCN_FORCELIST_ADDR - 0x40000000) ∧ bitAt (memNat s (8 * getF s F.SCN_FORCELIST_ADDR) 4) 30 = true ∧ bitAt (memNat s (8 * getF s F.SCN_FORCELIST_ADDR) 4) 31 = false ∧ unguarded s who = true) :=
  ⟨⟨⟨49, true, none⟩, 31, 0, setF F.SYS_STATUS_READY 1 (setF F.SCN_STATUS_CSTATE 2 { State.reset with mem := [(0x30020000, 0x55), (0x30020001, 0x66)] }), by decide +kernel⟩,
   ⟨⟨49, true, none⟩, setF F.SYS_STATUS_READY 1 (setF F.SCN_STATUS_CSTATE 3 State.reset), by decide +kernel⟩,
   ⟨⟨49, true, none⟩, setF F.SYS_STATUS_READY 1 (setF F.SCN_STATUS_CSTATE 3 State.reset), by decide +kernel⟩,
   ⟨⟨49, true, none⟩, 0, 0x1FFFF, setF F.SCN_FORCEARG_MASK 0xF0 (setF F.SCN_FORCEARG_VALUE 0xAA State.reset), by decide +kernel⟩,
   ⟨⟨49, true, none⟩, 1, 0, setF F.SCN_FORCEARG_MASK 0xF0 (setF F.SCN_FORCEARG_VALUE 0xAA { State.reset with mem := [(0x30080000, 0x01)] }), by decide +kernel⟩,
   ⟨⟨49, true, none⟩, 1, 3, setF F.SCN_FORCEARG_MASK 0xFF { State.reset with mem := [(0x30080003, 0x01)] }, by decide +kernel⟩,
   ⟨⟨49, true, none⟩, 0, 9, { State.reset with mem := [(0x30040009, 0x01), (0x30080003, 0x01)] }, by decide +kernel⟩,
   ⟨⟨49, true, none⟩, 1, setF F.SCN_FORCELIST_ADDR (0x41450000 / 8) { State.reset with mem := [(0x30040009, 0xFF), (0x41450000, 9), (0x41450003, 0x40), (0x41450005, 0x0F)] }, by decide +kernel⟩⟩

/-- States and operands that meet the hypotheses of StopForceAndEdit. -/
theorem witness_StopForceAndEdit_2 :
    (∃ (who : Who) (n : Fin 0x20000) (s : State), live s = true ∧ calm s s = true ∧ isPriv s who = true ∧ isStandby s = false ∧ 1 ≤ n.val ∧ n.val ≤ 256 ∧ 8 * getF s F.SCN_FORCELIST_ADDR < 0x40000000 ∧ 0x20000000 ≤ 8 * getF s F.SCN_FORCELIST_ADDR ∧ unguarded s who = true) ∧
    (∃ (who : Who) (n : Fin 0x20000) (s : State), live s = true ∧ calm s s = true ∧ isPriv s who = true ∧ isStandby s = false ∧ 256 < n.val ∧ 8 * getF s F.SCN_FORCELIST_ADDR < 0x40000000 ∧ 0x20000000 ≤ 8 * getF s F.SCN_FORCELIST_ADDR ∧ merges s A.SYS_EVT 1 = false ∧ unguarded s who = true) ∧
    (∃ (who : Who) (tk : Fin 32) (s : State), live s = true ∧ isPriv s who = true ∧ getF s F.SCN_EDITCTL_EDSTAT = 0 ∧ unguarded s who = true) ∧
    (∃ (who : Who) (tk : Fin 32) (s : State), live s = true ∧ isPriv s who = true ∧ getF s F.SCN_EDITCTL_EDSTAT = 1 ∧ getF s (F.SCN_TASK_CYCNO_CYCNO tk) + 2 ≤ (rd s A.SCN_EDITCYC).toNat ∧ unguarded s who = true) ∧
    (∃ (who : Who) (tk : Fin 32) (s : State), live s = true ∧ isPriv s who = true ∧ getF s F.SCN_EDITCTL_EDSTAT = 1 ∧ (rd s A.SCN_EDITCYC).toNat < getF s (F.SCN_TASK_CYCNO_CYCNO tk) + 2 ∧ merges s A.SCN_EVT 4 = false ∧ unguarded s who = true) ∧
    (∃ (who : Who) (tk : Fin 32) (s : State), live s = true ∧ isPriv s who = true ∧ getF s F.SCN_EDITCTL_EDSTAT ≠ 0 ∧ s.scan.editLive = false ∧ unguarded s who = true) ∧
    (∃ (who : Who) (tk : Fin 32) (v : Word) (s : State), live s = true ∧ isPriv s who = true ∧ s.scan.edit = none ∧ (getF s F.SCN_STATUS_CSTATE = 0 ∨ getF s F.SCN_STATUS_CSTATE = 3) ∧ 126 ≤ v.toNat ∧ v.toNat ≤ 20000000 ∧ v.toNat % 2 = 0 ∧ (rd s (A.SCN_TASK_PHASE tk)).toNat ≤ (v.toNat - 1) / 2 ∧ (rd s (A.SCN_TASK_DL tk)).toNat = legalDL tk v.toNat (rd s (A.SCN_TASK_DL tk)).toNat ∧ unguarded s who = true) :=
  ⟨⟨⟨49, true, none⟩, 5, setF F.SCN_FORCELIST_ADDR (0x30000000 / 8) State.reset, by decide +kernel⟩,
   ⟨⟨49, true, none⟩, 300, setF F.SCN_FORCELIST_ADDR (0x30000000 / 8) State.reset, by decide +kernel⟩,
   ⟨⟨49, true, none⟩, 7, setF (F.SCN_TASK_CTL_EN 3) 1 State.reset, by decide +kernel⟩,
   ⟨⟨49, true, none⟩, 7, setF F.SCN_EDITCTL_EDSTAT 1 (wr A.SCN_EDITCYC 2 State.reset), by decide +kernel⟩,
   ⟨⟨49, true, none⟩, 7, setF F.SCN_EDITCTL_EDSTAT 1 (wr A.SCN_EDITCYC 1 State.reset), by decide +kernel⟩,
   ⟨⟨49, true, none⟩, 7, setF F.SCN_EDITCTL_EDSTAT 2 (modScan (fun c => { c with edit := some [] }) State.reset), by decide +kernel⟩,
   ⟨⟨49, true, none⟩, 2, 1000#32, wr (A.SCN_TASK_DL 2) 100 State.reset, by decide +kernel⟩⟩

/-- States and operands that meet the hypotheses of TimeBaseCommands. -/
theorem witness_TimeBaseCommands :
    (∃ (s : State), live s = true ∧ slewTick s = true ∧ s.tmb.steps = [] ∧ 1 < slewRem s ∧ isSet s F.TMB_STATUS_HOLDOVER = false ∧ time s * 2 ^ 32 + s.tmb.frac + incNow s + 2 ^ 32 < 2 ^ 96 ∧ ((List.range 8).all (fun p => (s.can[p % 8]'(Nat.mod_lt _ (by decide))).on == false) = true)) ∧
    (∃ (who : Who) (v : Word) (s : State), live s = true ∧ isPriv s who = true ∧ SMap.get? s.wshadow (shadowKey A.TMB_INC who) = none ∧ getF s F.TMB_CTL_SRC ≠ 1 ∧ v = 2 ∧ (rd s A.TMB_INC).toNat ≤ 0x83126F ∧ unguarded s who = true) ∧
    (∃ (who : Who) (s : State), live s = true ∧ isPriv s who = true ∧ getF s F.TMB_CTL_SRC ≠ 1 ∧ unguarded s who = true) ∧
    (∃ (who : Who) (s : State), live s = true ∧ isPriv s who = true ∧ getF s F.TMB_CTL_SRC ≠ 1 ∧ (getF s F.SCN_STATUS_CSTATE = 0 ∨ getF s F.SCN_STATUS_CSTATE = 3) ∧ unguarded s who = true) ∧
    (∃ (s : State), live s = true ∧ isSet s F.TMB_STATUS_HOLDOVER = false ∧ merges s A.TMB_EVT 3 = false) ∧
    (∃ (s : State), live s = true ∧ isSet s F.TMB_STATUS_HOLDOVER = true ∧ merges s A.TMB_EVT 3 = false) :=
  ⟨⟨wr64 A.TMB_TIME 9999 (wr A.TMB_SLEWREM 5 State.reset), by decide +kernel⟩,
   ⟨⟨49, true, none⟩, 2#32, State.reset, by decide +kernel⟩,
   ⟨⟨49, true, none⟩, wr A.TMB_ADJ 0xFFFFFFF0 State.reset, by decide +kernel⟩,
   ⟨⟨49, true, none⟩, State.reset, by decide +kernel⟩,
   ⟨State.reset, by decide +kernel⟩,
   ⟨setF F.TMB_STATUS_HOLDOVER 1 State.reset, by decide +kernel⟩⟩

/-- States and operands that meet the hypotheses of CompareAndCaptureUnits. -/
theorem witness_CompareAndCaptureUnits_1 :
    (∃ (who : Who) (u : Fin 32) (v : Word) (s : State), live s = true ∧ isPriv s who = true ∧ getF s (F.TMB_UNIT_CTL_OWNER u) = 0 ∧ (unitMode s u = 1 ∨ unitMode s u = 2) ∧ 2 ^ 31 ≤ (time s + 2 ^ 32 - v.toNat) % 2 ^ 32 ∧ unguarded s who = true) ∧
    (∃ (who : Who) (u : Fin 32) (v : Word) (s : State), live s = true ∧ isPriv s who = true ∧ getF s (F.TMB_UNIT_CTL_OWNER u) = 0 ∧ (unitMode s u = 1 ∨ unitMode s u = 2) ∧ (time s + 2 ^ 32 - v.toNat) % 2 ^ 32 < 2 ^ 31 ∧ merges s A.TMB_EVT 0 = false ∧ unguarded s who = true) ∧
    (∃ (who : Who) (u : Fin 32) (v : Word) (s : State), live s = true ∧ isPriv s who = true ∧ getF s (F.TMB_UNIT_CTL_OWNER u) = 0 ∧ (v.toNat = 3 ∨ v.toNat = 0) ∧ unguarded s who = true) ∧
    (∃ (who : Who) (u : Fin 32) (v : Word) (s : State), live s = true ∧ isPriv s who = true ∧ getF s (F.TMB_UNIT_CTL_OWNER u) = 0 ∧ (v.toNat = 1 ∨ v.toNat = 2) ∧ 2 ^ 31 ≤ (time s + 2 ^ 32 - (rd s (A.TMB_UNIT_CMP u)).toNat) % 2 ^ 32 ∧ unguarded s who = true) ∧
    (∃ (who : Who) (u : Fin 32) (s : State), live s = true ∧ isPriv s who = true ∧ getF s (F.TMB_UNIT_CTL_OWNER u) = 0 ∧ unitMode s u = 3 ∧ getF s (F.TMB_UNIT_CTL_SRC u) = 2 ∧ isSet s (F.TMB_UNIT_STAT_VALID u) = false ∧ isSet s (F.TMB_UNIT_CTL_DLKP u) = false ∧ at32 s.tmb.capAt u ≠ s.now + 1 ∧ sliceRunning s ≠ some (80 + u.val / 4) ∧ unguarded s who = true) ∧
    (∃ (src : Fin 256) (u : Fin 32) (s : State), live s = true ∧ src.val ≠ 2 ∧ at32 s.tmb.capAt u ≠ s.now + 1 ∧ sliceRunning s ≠ some (80 + u.val / 4) ∧ ((List.range 32).filter (fun u => unitMode s u == 3 && getF s (F.TMB_UNIT_CTL_SRC u) == src.val) = [u.val]) ∧ isSet s (F.TMB_UNIT_STAT_VALID u) = true ∧ isSet s (F.TMB_UNIT_CTL_DLKP u) = true ∧ merges s A.TMB_EVT 2 = false) ∧
    (∃ (src : Fin 256) (u : Fin 32) (s : State), live s = true ∧ src.val ≠ 2 ∧ at32 s.tmb.capAt u ≠ s.now + 1 ∧ sliceRunning s ≠ some (80 + u.val / 4) ∧ ((List.range 32).filter (fun u => unitMode s u == 3 && getF s (F.TMB_UNIT_CTL_SRC u) == src.val) = [u.val]) ∧ isSet s (F.TMB_UNIT_STAT_VALID u) = false ∧ isSet s (F.TMB_UNIT_CTL_DLKP u) = false) ∧
    (∃ (src : Fin 256) (u : Fin 32) (s : State), live s = true ∧ src.val ≠ 2 ∧ ((List.range 32).filter (fun u => unitMode s u == 3 && getF s (F.TMB_UNIT_CTL_SRC u) == src.val) = [u.val]) ∧ at32 s.tmb.capAt u = s.now + 1) :=
  ⟨⟨⟨49, true, none⟩, 5, 1000#32, setF (F.TMB_UNIT_CTL_MODE 5) 2 State.reset, by decide +kernel⟩,
   ⟨⟨49, true, none⟩, 5, 0#32, setF (F.TMB_UNIT_CTL_MODE 5) 1 State.reset, by decide +kernel⟩,
   ⟨⟨49, true, none⟩, 31, 3#32, State.reset, by decide +kernel⟩,
   ⟨⟨49, true, none⟩, 0, 1#32, wr (A.TMB_UNIT_CMP 0) 77 State.reset, by decide +kernel⟩,
   ⟨⟨49, true, none⟩, 9, wr64 A.TMB_TIME 0x123456789 (setF (F.TMB_UNIT_CTL_MODE 9) 3 (setF (F.TMB_UNIT_CTL_SRC 9) 2 State.reset)), by decide +kernel⟩,
   ⟨1, 9, wr64 A.TMB_TIME 0x123456789 (setF (F.TMB_UNIT_CTL_MODE 9) 3 (setF (F.TMB_UNIT_CTL_SRC 9) 1 (setF (F.TMB_UNIT_CTL_DLKP 9) 1 (setF (F.TMB_UNIT_STAT_VALID 9) 1 State.reset)))), by decide +kernel⟩,
   ⟨40, 9, wr64 A.TMB_TIME 0x123456789 (setF (F.TMB_UNIT_CTL_MODE 9) 3 (setF (F.TMB_UNIT_CTL_SRC 9) 40 State.reset)), by decide +kernel⟩,
   ⟨40, 9, { setF (F.TMB_UNIT_CTL_MODE 9) 3 (setF (F.TMB_UNIT_CTL_SRC 9) 40 State.reset) with tmb := { Tmb.reset with capAt := set32 Tmb.reset.capAt 9 1 } }, by decide +kernel⟩⟩

/-- States and operands that meet the hypotheses of CompareAndCaptureUnits. -/
theorem witness_CompareAndCaptureUnits_2 :
    (∃ (src : Fin 256) (u : Fin 32) (s : State), live s = true ∧ src.val ≠ 2 ∧ ((List.range 32).filter (fun u => unitMode s u == 3 && getF s (F.TMB_UNIT_CTL_SRC u) == src.val) = [u.val]) ∧ isSet s (F.TMB_UNIT_CTL_DLKP u) = false ∧ at32 s.tmb.capAt u ≠ s.now + 1 ∧ sliceRunning s = some (80 + u.val / 4)) ∧
    (∃ (who : Who) (u : Fin 32) (s : State), live s = true) :=
  ⟨⟨40, 9, setF F.BST_STATUS_RUNNING 82 (wr64 A.TMB_TIME 0x123456789 (setF (F.TMB_UNIT_CTL_MODE 9) 3 (setF (F.TMB_UNIT_CTL_SRC 9) 40 State.reset))), by decide +kernel⟩,
   ⟨⟨7, false, none⟩, 12, setF (F.TMB_UNIT_STAT_VALID 12) 1 (setF (F.TMB_UNIT_STAT_OVR 12) 1 State.reset), by decide +kernel⟩⟩

/-- States and operands that meet the hypotheses of RotationSteps. -/
theorem witness_RotationSteps :
    (∃ (n : Fin 5) (r : Fin 4) (s : State), live s = true ∧ rotationRuns s = true ∧ rd64 s A.LKH_NEXTH ≤ time s ∧ s.faults.coreStopped = false ∧ s.rot.step = none ∧ s.rot.fill = some (n.val, []) ∧ roleOf s n = some r.val ∧ rd64 s A.LKH_NEXTH < 2 ^ 63) ∧
    (∃ (n : Fin 5) (c : Fin 8) (s : State), live s = true ∧ calm s s = true ∧ s.rot.draining = some n.val ∧ s.rot.drainAt + 1000 * getF s F.LKH_ROTCTL_DRAINTMO ≤ time s ∧ (s.core (8 * n + c)).st = .run ∧ s.faults.coreStopped = false ∧ merges s A.LKH_EVT 1 = false) ∧
    (∃ (src : Fin 5) (dst : Fin 5) (r : Fin 4) (s : State), live s = true ∧ calm s s = true ∧ s.rot.draining = some src.val ∧ s.rot.fill = some (src.val, []) ∧ spareOf s = some dst.val ∧ sliceRunning s = none ∧ time s ≤ s.rot.drainAt + drainTmo s ∧ allDrained s src = true ∧ dmaStill s src = true ∧ roleOf s src = some r.val) ∧
    (∃ (s : State), live s = true ∧ calm s s = true ∧ sliceRunning s ≠ none) ∧
    (∃ (src : Fin 5) (dst : Fin 5) (r : Fin 4) (s : State), live s = true ∧ calm s s = true ∧ s.rot.window = some (src.val, dst.val) ∧ src.val ≠ dst.val ∧ s.rot.emergency = false ∧ s.rot.winRole = r.val ∧ merges s A.LKH_EVT 0 = false ∧ failed s src = false ∧ loadedSlot s = none ∧ s.rot.held = [] ∧ s.brg.gathers = [] ∧ s.brg.waits = []) ∧
    (∃ (h : Nat) (r : Fin 4) (s : State), live s = true ∧ s.rot.step = some (h, r.val) ∧ s.rot.late = false ∧ h + 1000000 * getF s F.LKH_ROTCTL_ROTLATE ≤ time s ∧ merges s A.LKH_EVT 2 = false) ∧
    (∃ (n : Fin 5) (s : State), live s = true ∧ failed s n = false ∧ at5 s.rot.latent n = false ∧ isSet s F.SYS_STATUS_READY = true ∧ at5 s.rot.testAt n + 1200000000 < time s ∧ merges s A.LKH_EVT 3 = false) ∧
    (∃ (n : Fin 5) (m : Fin 5) (r : Fin 4) (s : State), live s = true ∧ calm s s = true ∧ s.rot.window = some (n.val, m.val) ∧ n.val ≠ m.val ∧ s.rot.emergency = true ∧ s.rot.winRole = r.val ∧ loadedSlot s = none ∧ s.ecc = [] ∧ s.rot.held = [] ∧ s.brg.gathers = [] ∧ s.brg.waits = [] ∧ sliceRunning s = none ∧ merges s A.LKH_EVT 0 = false) :=
  ⟨⟨2, 2, modRot (fun x => { x with fill := some (2, []) }) (setF F.LKH_ROTCTL_EN 1 (setF F.SYS_STATUS_READY 1 (wr64 A.TMB_TIME 0x10000000 (wr A.LKH_ROLEMAP 0x00043210 State.reset)))), by decide +kernel⟩,
   ⟨1, 3, modCore 11 (fun k => { k with st := .run, drainReq := true }) (modRot (fun x => { x with draining := some 1 }) (wr64 A.TMB_TIME 0x10000000 (wr A.LKH_ROLEMAP 0x00043210 State.reset))), by decide +kernel⟩,
   ⟨3, 4, 3, modRot (fun x => { x with draining := some 3, fill := some (3, []) }) (wr A.LKH_ROLEMAP 0x00043210 State.reset), by decide +kernel⟩,
   ⟨setF F.BST_STATUS_RUNNING 5 State.reset, by decide +kernel⟩,
   ⟨3, 4, 3, modRot (fun x => { x with window := some (3, 4), winRole := 3, winAt := 5 }) (wr A.LKH_ROLEMAP 0x00033210 State.reset), by decide +kernel⟩,
   ⟨7, 2, modRot (fun x => { x with step := some (7, 2) }) (wr64 A.TMB_TIME 0x100000000 State.reset), by decide +kernel⟩,
   ⟨4, setF F.SYS_STATUS_READY 1 (wr64 A.TMB_TIME 1200000001 State.reset), by decide +kernel⟩,
   ⟨1, 4, 1, modRot (fun x => { x with window := some (1, 4), winRole := 1, emergency := true }) (wr A.LKH_ROLEMAP 0x00043210 State.reset), by decide +kernel⟩⟩

/-- States and operands that meet the hypotheses of DryReachAndFill. -/
theorem witness_DryReachAndFill :
    (∃ (locked : Bool) (powered : Bool) (n : Fin 5) (s : State), live s = true ∧ calm s s = true ∧ underTest s 1 = some n.val ∧ locked = true ∧ powered = true) ∧
    (∃ (ok0 : Bool) (ok1 : Bool) (sig0 : Word) (sig1 : Word) (n : Fin 5) (s : State), live s = true ∧ calm s s = true ∧ underTest s 2 = some n.val ∧ ok0 = true ∧ ok1 = true ∧ s.rot.lbist < 31) ∧
    (∃ (ok0 : Bool) (ok1 : Bool) (sig0 : Word) (sig1 : Word) (n : Fin 5) (s : State), live s = true ∧ calm s s = true ∧ underTest s 2 = some n.val ∧ ok0 = true ∧ ok1 = true ∧ s.rot.lbist = 31) ∧
    (∃ (bad : List (Nat × Bool × Nat)) (n : Fin 5) (o : Fin 0xC0000) (s : State), live s = true ∧ calm s s = true ∧ underTest s 3 = some n.val ∧ bad = []) ∧
    (∃ (n : Fin 5) (o : Fin 0xC0000) (c : Fin 8) (s : State), live s = true ∧ underTest s 4 = some n.val ∧ loadedSlot s = none ∧ getF s F.LKH_FWVER_STAGED = 0 ∧ getF s F.LKH_FWSTAT_STATE = 0) ∧
    (∃ (src : Fin 5) (n : Fin 5) (o : Fin 0xC0000) (s : State), live s = true ∧ rotationRuns s = true ∧ s.faults.coreStopped = false ∧ phase s = 5 ∧ s.rot.step = none ∧ rd64 s A.LKH_NEXTH ≤ time s + 20000000 ∧ spareOf s = some n.val ∧ longestWet s = some src.val ∧ src.val ≠ n.val ∧ s.ecc = []) ∧
    (∃ (src : Fin 5) (n : Fin 5) (line : Fin 12288) (o : Fin 64) (s : State), live s = true ∧ calm s s = true ∧ s.rot.fill = some (src.val, [line.val]) ∧ spareOf s = some n.val ∧ src.val ≠ n.val ∧ phase s = 6 ∧ s.rot.step = none ∧ s.rot.draining = none ∧ s.ecc = []) ∧
    (∃ (n : Fin 5) (c : Fin 8) (s : State), live s = true ∧ phase s = 5 ∧ s.rot.step = none ∧ s.rot.testFrom + 200000000 ≤ time s ∧ anyFailed s = false ∧ s.faults.coreStopped = false ∧ spareOf s = some n.val) :=
  ⟨⟨true, true, 4, setF F.LKH_ROTSTAT_PHASE 1 (setReachState 4 2 (wr A.LKH_ROLEMAP 0x00043210 State.reset)), by decide +kernel⟩,
   ⟨true, true, 0#32, 1#32, 4, setF F.LKH_ROTSTAT_PHASE 2 (setReachState 4 2 (wr A.LKH_ROLEMAP 0x00043210 State.reset)), by decide +kernel⟩,
   ⟨true, true, 0#32, 1#32, 4, modRot (fun x => { x with lbist := 31 }) (setF F.LKH_ROTSTAT_PHASE 2 (setReachState 4 2 (wr A.LKH_ROLEMAP 0x00043210 State.reset))), by decide +kernel⟩,
   ⟨[], 4, 5, setF F.LKH_ROTSTAT_PHASE 3 (setReachState 4 2 (wr A.LKH_ROLEMAP 0x00043210 (setByte (reachAddr 4 5) 9 State.reset))), by decide +kernel⟩,
   ⟨4, 5, 7, setF F.LKH_ROTSTAT_PHASE 4 (setReachState 4 2 (wr A.LKH_ROLEMAP 0x00043210 (setByte (reachAddr 4 5) 9 State.reset))), by decide +kernel⟩,
   ⟨0, 4, 0x1234, setF F.LKH_ROTCTL_EN 1 (setF F.SYS_STATUS_READY 1 (setF F.LKH_ROTSTAT_PHASE 5 (setReachState 0 0 (setReachState 1 0 (setReachState 2 0 (setReachState 3 0 (setReachState 4 2 (wr A.LKH_ROLEMAP 0x00043210 (setByte (reachAddr 0 0x1234) 9 State.reset))))))))), by decide +kernel⟩,
   ⟨0, 4, 12287, 63, modRot (fun x => { x with fill := some (0, [12287]) }) (setF F.LKH_ROTSTAT_PHASE 6 (wr A.LKH_ROLEMAP 0x00043210 (setByte (reachAddr 0 0xBFFFF) 9 State.reset))), by decide +kernel⟩,
   ⟨4, 0, setF F.LKH_ROTSTAT_PHASE 5 (wr64 A.TMB_TIME 200000000 (wr A.LKH_ROLEMAP 0x00043210 State.reset)), by decide +kernel⟩⟩

/-- States and operands that meet the hypotheses of FirmwareSwitch. -/
theorem witness_FirmwareSwitch :
    (∃ (who : Who) (src : Fin 2) (ver : Fin 65536) (s : State), live s = true ∧ isPriv s who = true ∧ s.faults.coreStopped = false ∧ getF s F.LKH_FWSTAT_STATE ≠ 3 ∧ isSet s (F.CFG_SLOT_VALID src) = true ∧ stageVersion s src = some ver.val ∧ anyFailed s = false ∧ unguarded s who = true) ∧
    (∃ (who : Who) (s : State), live s = true ∧ isPriv s who = true ∧ s.faults.coreStopped = false ∧ getF s F.LKH_FWSTAT_STATE = 2 ∧ unguarded s who = true) ∧
    (∃ (who : Who) (s : State), live s = true ∧ isPriv s who = true ∧ s.faults.coreStopped = false ∧ getF s F.LKH_FWSTAT_STATE ≠ 3 ∧ unguarded s who = true) ∧
    (∃ (r : Fin 4) (c : Fin 8) (s : State), live s = true ∧ calm s s = true ∧ getF s F.LKH_FWSTAT_STATE = 3 ∧ bitAt (getF s F.LKH_FWSTAT_SWDONE) r = false ∧ s.faults.coreStopped = false ∧ s.rot.gap = none ∧ s.rot.window = none ∧ s.rot.draining = none ∧ roleGroup s r = [r.val] ∧ roleQuiet s r = true ∧ noLatchSoon s r = true ∧ (s.core (8 * reachOf s r + c)).st = .run) ∧
    (∃ (r : Fin 4) (s : State), live s = true ∧ calm s s = true ∧ getF s F.LKH_FWSTAT_STATE = 3 ∧ getF s F.LKH_FWSTAT_SWDONE = 0 ∧ s.faults.coreStopped = false ∧ s.rot.gap = some [r.val] ∧ roleGroup s r = [r.val] ∧ allDrained s (reachOf s r) = true ∧ dmaStill s (reachOf s r) = true ∧ ((List.range 4).all (fun q => decide (reachOf s q < 5)) = true)) :=
  ⟨⟨⟨49, true, none⟩, 0, 5, setF (F.CFG_SLOT_VALID 0) 1 (memPut (slotAt 0 + 0x12) 2 5 State.reset), by decide +kernel⟩,
   ⟨⟨49, true, none⟩, setF F.LKH_FWSTAT_STATE 2 State.reset, by decide +kernel⟩,
   ⟨⟨49, true, none⟩, setF F.LKH_FWSTAT_STATE 1 State.reset, by decide +kernel⟩,
   ⟨2, 1, modCore 17 (fun k => { k with st := .run }) (setF F.LKH_FWSTAT_STATE 3 (wr A.LKH_ROLEMAP 0x00043210 State.reset)), by decide +kernel⟩,
   ⟨2, modRot (fun x => { x with gap := some [2] }) (setF F.LKH_FWSTAT_STATE 3 (wr A.LKH_ROLEMAP 0x00043210 State.reset)), by decide +kernel⟩⟩

/-- States and operands that meet the hypotheses of PairElection. -/
theorem witness_PairElection_1 :
    (∃ (who : Who) (en : Bool) (s : State), live s = true ∧ calm s s = true ∧ isPriv s who = true ∧ en = true ∧ s.sn = false ∧ s.scan.restart = none ∧ s.faults.coreStopped = false ∧ isSet s F.LKH_SBYCTL_EN = false ∧ pairState s = 0 ∧ isSet s F.SYS_STATUS_READY = true ∧ running s = false ∧ towRuns s = false ∧ merges s A.LKH_EVT 8 = false ∧ unguarded s who = true) ∧
    (∃ (who : Who) (en : Bool) (s : State), live s = true ∧ calm s s = true ∧ isPriv s who = true ∧ en = false ∧ s.sn = false ∧ s.faults.coreStopped = false ∧ isSet s F.LKH_SBYCTL_EN = true ∧ pairState s = 5 ∧ towSilent s = false ∧ merges s A.LKH_EVT 8 = false ∧ unguarded s who = true) ∧
    (∃ (who : Who) (s : State), live s = true ∧ isPriv s who = true ∧ s.sn = false ∧ s.faults.coreStopped = false ∧ s.faults.due = none ∧ pairState s = 2 ∧ getF s F.LKH_SBYSTAT_PEERSTATE = 4 ∧ unguarded s who = true) ∧
    (∃ (who : Who) (s : State), live s = true ∧ mirroredTasks s ≠ [] ∧ calm s s = true ∧ isPriv s who = true ∧ s.sn = false ∧ s.faults.coreStopped = false ∧ isSet s F.LKH_SBYCTL_EN = true ∧ pairState s = 5 ∧ towRuns s = false ∧ getF s F.LKH_SBYCTL_LINKS = 0 ∧ merges s A.LKH_EVT 8 = false ∧ unguarded s who = true) ∧
    (∃ (who : Who) (s : State), live s = true ∧ mirroredTasks s = [] ∧ calm s s = true ∧ isPriv s who = true ∧ s.sn = false ∧ s.faults.coreStopped = false ∧ isSet s F.LKH_SBYCTL_EN = true ∧ pairState s = 5 ∧ towRuns s = false ∧ getF s F.LKH_SBYCTL_LINKS = 0 ∧ unguarded s who = true) ∧
    (∃ (l : Fin 4) (s : State), live s = true ∧ pairState s = 1 ∧ pairLinks s = [l.val]) ∧
    (∃ (l : Nat) (peerPref : Bool) (bs : List Byte) (m : PairMsg) (s : State), live s = true ∧ mirroredTasks s ≠ [] ∧ calm s s = true ∧ s.faults.coreStopped = false ∧ s.pair.inbox = [(l, bs)] ∧ parsePair bs = some m ∧ m.type = 1 ∧ helloOrder s m = .next ∧ beNat (part m.payload 16 1) = 2 ∧ part m.payload 24 32 = cfgHash s ∧ pairState s = 1 ∧ towRuns s = false ∧ fabricTimed s = true ∧ getF s F.LKH_SBYCTL_LINKS = 0 ∧ merges s A.LKH_EVT 8 = false) ∧
    (∃ (l : Nat) (peerPref : Bool) (bs : List Byte) (m : PairMsg) (s : State), live s = true ∧ calm s s = true ∧ s.pair.inbox = [(l, bs)] ∧ parsePair bs = some m ∧ m.type = 1 ∧ helloOrder s m = .next ∧ pairState s = 1 ∧ part m.payload 24 32 = cfgHash s ∧ fabricTimed s = false) :=
  ⟨⟨⟨49, true, none⟩, true, setF F.SYS_STATUS_READY 1 State.reset, by decide +kernel⟩,
   ⟨⟨49, true, none⟩, false, setF F.LKH_SBYCTL_EN 1 (setF F.LKH_SBYSTAT_STATE 5 State.reset), by decide +kernel⟩,
   ⟨⟨49, true, none⟩, setF F.SCN_STATUS_CSTATE 2 (setF F.LKH_SBYCTL_EN 1 (setF F.LKH_SBYSTAT_PEERSTATE 4 (setF F.LKH_SBYSTAT_STATE 2 State.reset))), by decide +kernel⟩,
   ⟨⟨49, true, none⟩, setF (F.SCN_TASK_CTL_EN 20) 1 (wr A.LKH_SBYMASK 0x100000 (setF F.LKH_SBYCTL_EN 1 (setF F.LKH_SBYSTAT_STATE 5 State.reset))), by decide +kernel⟩,
   ⟨⟨49, true, none⟩, setF F.LKH_SBYCTL_EN 1 (setF F.LKH_SBYSTAT_STATE 5 State.reset), by decide +kernel⟩,
   ⟨2, setF F.LKH_SBYCTL_LINKS 4 (setF F.LKH_SBYSTAT_STATE 1 State.reset), by decide +kernel⟩,
   ⟨24, false, pairFrame State.reset 1 255 0 0 true (beBytes 16 7 ++ [2, 0, 0, 0] ++ beBytes 4 1 ++ cfgHash State.reset), { type := 1, last := true, task := 255, seq := 0, cyc := 0, frag := 0, payload := beBytes 16 7 ++ [2, 0, 0, 0] ++ beBytes 4 1 ++ cfgHash State.reset }, setF (F.SCN_TASK_CTL_EN 20) 1 (wr A.LKH_SBYMASK 0x100000 (modPair (fun p => { p with inbox := [(24, pairFrame State.reset 1 255 0 0 true (beBytes 16 7 ++ [2, 0, 0, 0] ++ beBytes 4 1 ++ cfgHash State.reset))] }) (setF F.TMB_CTL_SRC 1 (setF F.LKH_SBYSTAT_STATE 1 State.reset)))), by decide +kernel⟩,
   ⟨24, false, pairFrame State.reset 1 255 0 0 true (beBytes 16 7 ++ [2, 0, 0, 0] ++ beBytes 4 1 ++ cfgHash State.reset), { type := 1, last := true, task := 255, seq := 0, cyc := 0, frag := 0, payload := beBytes 16 7 ++ [2, 0, 0, 0] ++ beBytes 4 1 ++ cfgHash State.reset }, modPair (fun p => { p with inbox := [(24, pairFrame State.reset 1 255 0 0 true (beBytes 16 7 ++ [2, 0, 0, 0] ++ beBytes 4 1 ++ cfgHash State.reset))] }) (setF F.LKH_SBYSTAT_STATE 1 State.reset), by decide +kernel⟩⟩

/-- States and operands that meet the hypotheses of PairElection. -/
theorem witness_PairElection_2 :
    (∃ (s : State), live s = true ∧ calm s s = true ∧ s.faults.coreStopped = false ∧ pairState s = 1 ∧ max s.pair.since (s.pair.heardAt.getD 0) + 50000000 ≤ time s ∧ loadedSlot s = none ∧ towSilent s = false ∧ s.scan.waitCmd = [] ∧ merges s A.LKH_EVT 8 = false) ∧
    (∃ (l : Fin 4) (s : State), live s = true ∧ pairState s ≠ 0 ∧ pairLinks s = [l.val]) ∧
    (∃ (l : Nat) (bs : List Byte) (m : PairMsg) (s : State), live s = true ∧ calm s s = true ∧ s.pair.inbox = [(l, bs)] ∧ parsePair bs = some m ∧ m.type = 2 ∧ orderOf s m = .next ∧ beNat (m.payload.take 1) = 4 ∧ getF s F.LKH_SBYSTAT_PEERSTATE ≠ 4 ∧ merges s A.LKH_EVT 8 = false) ∧
    (∃ (h : Nat) (s : State), live s = true ∧ s.faults.due = none ∧ ((List.range 5).all (fun n => getF s (F.RCH_PWR_PSTATE n) != 1) = true) ∧ pairState s = 2 ∧ s.pair.hbAt = some h ∧ h + 1000 * getF s F.LKH_SBYTIME_HBTMO ≤ time s ∧ getF s F.LKH_SBYSTAT_PEERSTATE ≠ 7 ∧ merges s A.LKH_EVT 8 = false) ∧
    (∃ (h : Nat) (s : State), live s = true ∧ calm s s = true ∧ pairState s = 4 ∧ s.faults.coreStopped = false ∧ s.pair.hbAt = some h ∧ h + 1000 * getF s F.LKH_SBYTIME_HBTMO ≤ time s ∧ merges s A.LKH_EVT 9 = false ∧ ((List.range 32).all (fun q => !enabled s q) = true) ∧ rd64 s A.SCN_EPOCH < 2 ^ 63) ∧
    (∃ (l : Nat) (bs : List Byte) (m : PairMsg) (s : State), live s = true ∧ calm s s = true ∧ s.faults.coreStopped = false ∧ s.pair.inbox = [(l, bs)] ∧ parsePair bs = some m ∧ m.type = 7 ∧ s.pair.seqRx = none ∧ pairState s = 4 ∧ ((List.range 32).all (fun q => !enabled s q) = true)) ∧
    (∃ (s : State), live s = true ∧ mirroredTasks s ≠ [] ∧ s.faults.coreStopped = false ∧ s.pair.since + 10000000 ≤ time s ∧ getF s F.LKH_SBYSTAT_PEERSTATE = 2 ∧ isSet s F.LKH_SBYCTL_EN = true ∧ pairState s = 5 ∧ towRuns s = false ∧ getF s F.LKH_SBYCTL_LINKS = 0 ∧ merges s A.LKH_EVT 8 = false) :=
  ⟨⟨wr64 A.TMB_TIME 50000000 (setF F.LKH_SBYSTAT_STATE 1 State.reset), by decide +kernel⟩,
   ⟨0, setF F.LKH_SBYCTL_LINKS 1 (setF F.LKH_SBYSTAT_STATE 2 State.reset), by decide +kernel⟩,
   ⟨24, pairFrame State.reset 2 255 0 0 true ([4, 0, 0, 0] ++ beBytes 4 1 ++ beBytes 8 9), { type := 2, last := true, task := 255, seq := 0, cyc := 0, frag := 0, payload := [4, 0, 0, 0] ++ beBytes 4 1 ++ beBytes 8 9 }, modPair (fun p => { p with inbox := [(24, pairFrame State.reset 2 255 0 0 true ([4, 0, 0, 0] ++ beBytes 4 1 ++ beBytes 8 9))] }) (setF F.LKH_SBYCTL_LINKS 1 State.reset), by decide +kernel⟩,
   ⟨5, modPair (fun p => { p with hbAt := some 5 }) (wr64 A.TMB_TIME 0x100000000 (setF F.LKH_SBYSTAT_PEERSTATE 4 (setF F.LKH_SBYSTAT_STATE 2 State.reset))), by decide +kernel⟩,
   ⟨5, modPair (fun p => { p with hbAt := some 5 }) (wr64 A.TMB_TIME 0x100000000 (setF F.LKH_SBYSTAT_PEERSTATE 2 (setF F.LKH_SBYSTAT_STATE 4 State.reset))), by decide +kernel⟩,
   ⟨24, pairFrame State.reset 7 255 0 0 true [0], { type := 7, last := true, task := 255, seq := 0, cyc := 0, frag := 0, payload := [0] }, modPair (fun p => { p with inbox := [(24, pairFrame State.reset 7 255 0 0 true [0])] }) (setF F.LKH_SBYSTAT_STATE 4 State.reset), by decide +kernel⟩,
   ⟨setF (F.SCN_TASK_CTL_EN 20) 1 (wr A.LKH_SBYMASK 0x100000 (wr64 A.TMB_TIME 10000000 (setF F.LKH_SBYSTAT_PEERSTATE 2 (setF F.LKH_SBYCTL_EN 1 (setF F.LKH_SBYSTAT_STATE 5 State.reset))))), by decide +kernel⟩⟩

/-- States and operands that meet the hypotheses of PairMirroring. -/
theorem witness_PairMirroring :
    (∃ (l : Nat) (bs : List Byte) (m : PairMsg) (s : State), live s = true ∧ calm s s = true ∧ s.pair.inbox = [(l, bs)] ∧ parsePair bs = some m ∧ m.type = 3 ∧ m.frag = 0 ∧ orderOf s m = .next ∧ isStandby s = true ∧ s.pair.snaps = []) ∧
    (∃ (l : Nat) (bs : List Byte) (m : PairMsg) (s : State), live s = true ∧ calm s s = true ∧ s.pair.inbox = [(l, bs)] ∧ parsePair bs = some m ∧ m.type = 4 ∧ orderOf s m = .next ∧ isStandby s = true ∧ m.payload.length = 66 ∧ s.scan.retQueue = none) ∧
    (∃ (l : Nat) (bs : List Byte) (m : PairMsg) (s : State), live s = true ∧ calm s s = true ∧ s.pair.inbox = [(l, bs)] ∧ parsePair bs = some m ∧ m.type = 5 ∧ orderOf s m = .next ∧ isStandby s = true ∧ s.pair.marksOwn = []) ∧
    (∃ (l : Nat) (bs : List Byte) (m : PairMsg) (own : CommitMark) (s : State), live s = true ∧ calm s s = true ∧ s.faults.coreStopped = false ∧ s.pair.inbox = [(l, bs)] ∧ parsePair bs = some m ∧ m.type = 5 ∧ orderOf s m = .next ∧ pairState s = 4 ∧ s.pair.marksOwn = [own] ∧ s.pair.marksPeer = [] ∧ merges s A.LKH_EVT 10 = false ∧ own.task = m.task ∧ own.cycle = m.cyc ∧ own.crc ≠ beNat (m.payload.take 4)) ∧
    (∃ (l : Nat) (bs : List Byte) (m : PairMsg) (off : Fin 0x20000) (mask : Byte) (s : State), live s = true ∧ calm s s = true ∧ s.pair.inbox = [(l, bs)] ∧ parsePair bs = some m ∧ m.type = 6 ∧ orderOf s m = .next ∧ isStandby s = true ∧ m.payload = forceWords true off mask.toNat 0) ∧
    (∃ (l : Nat) (bs : List Byte) (m : PairMsg) (s : State), live s = true ∧ s.faults.due = none ∧ ((List.range 5).all (fun n => getF s (F.RCH_PWR_PSTATE n) != 1) = true) ∧ s.pair.inbox = [(l, bs)] ∧ parsePair bs = some m ∧ m.type = 8 ∧ orderOf s m = .next ∧ pairState s = 2 ∧ mirroredTasks s = [] ∧ forcedOffsets s = []) ∧
    (∃ (l : Nat) (bs : List Byte) (pl : List Byte) (m : PairMsg) (off : Fin 0xC0000) (n : Fin 5) (s : State), live s = true ∧ s.pair.inbox = [(l, bs)] ∧ parsePair bs = some m ∧ m.type = 9 ∧ orderOf s m = .next ∧ pairState s = 3 ∧ taskRoles s m.task = [0] ∧ reachOf s 0 = n.val ∧ m.payload = beBytes 4 off.val ++ pl ∧ off.val + pl.length ≤ 0xC0000 ∧ s.ecc = [] ∧ s.rot.fill = none ∧ s.rot.window = none ∧ getF s (F.RCH_PWR_PSTATE n) ≠ 2 ∧ ((List.range pl.length).all (fun k => foldCW s n (off.val + k) == off.val + k) = true) ∧ s.pair.track = none) ∧
    (∃ (l : Nat) (bs : List Byte) (m : PairMsg) (tk : Fin 32) (s : State), live s = true ∧ calm s s = true ∧ s.faults.coreStopped = false ∧ s.pair.inbox = [(l, bs)] ∧ parsePair bs = some m ∧ m.type = 10 ∧ orderOf s m = .next ∧ pairState s = 3 ∧ m.task = tk.val ∧ mirrored s tk = true ∧ 16 ≤ tk.val ∧ mirroredTasks s = [tk.val] ∧ m.cyc < 2 ^ 32) :=
  ⟨⟨24, pairFrame State.reset 3 5 77 0 true [1, 2, 3], { type := 3, last := true, task := 5, seq := 0, cyc := 77, frag := 0, payload := [1, 2, 3] }, modPair (fun p => { p with inbox := [(24, pairFrame State.reset 3 5 77 0 true [1, 2, 3])] }) (setF F.LKH_SBYSTAT_STATE 4 State.reset), by decide +kernel⟩,
   ⟨24, pairFrame State.reset 4 5 77 0 true (beBytes 2 9 ++ List.replicate 64 3), { type := 4, last := true, task := 5, seq := 0, cyc := 77, frag := 0, payload := beBytes 2 9 ++ List.replicate 64 3 }, modPair (fun p => { p with inbox := [(24, pairFrame State.reset 4 5 77 0 true (beBytes 2 9 ++ List.replicate 64 3))] }) (setF F.LKH_SBYSTAT_STATE 4 State.reset), by decide +kernel⟩,
   ⟨24, pairFrame State.reset 5 5 77 0 true [1, 2, 3, 4, 0, 0, 0, 9], { type := 5, last := true, task := 5, seq := 0, cyc := 77, frag := 0, payload := [1, 2, 3, 4, 0, 0, 0, 9] }, modPair (fun p => { p with inbox := [(24, pairFrame State.reset 5 5 77 0 true [1, 2, 3, 4, 0, 0, 0, 9])] }) (setF F.LKH_SBYSTAT_STATE 4 State.reset), by decide +kernel⟩,
   ⟨24, pairFrame State.reset 5 5 77 0 true [1, 2, 3, 4, 0, 0, 0, 9], { type := 5, last := true, task := 5, seq := 0, cyc := 77, frag := 0, payload := [1, 2, 3, 4, 0, 0, 0, 9] }, { task := 5, cycle := 77, crc := 6, len := 9 }, modPair (fun p => { p with marksOwn := [{ task := 5, cycle := 77, crc := 6, len := 9 }], inbox := [(24, pairFrame State.reset 5 5 77 0 true [1, 2, 3, 4, 0, 0, 0, 9])] }) (setF F.SCN_STATUS_CSTATE 2 (setF F.LKH_SBYSTAT_STATE 4 State.reset)), by decide +kernel⟩,
   ⟨24, pairFrame State.reset 6 255 0 0 true (forceWords true 9 0xF0 0), { type := 6, last := true, task := 255, seq := 0, cyc := 0, frag := 0, payload := forceWords true 9 0xF0 0 }, 9, 0xF0, modPair (fun p => { p with inbox := [(24, pairFrame State.reset 6 255 0 0 true (forceWords true 9 0xF0 0))] }) (setF F.LKH_SBYSTAT_STATE 4 { State.reset with mem := [(0x30080009, 0xAA)] }), by decide +kernel⟩,
   ⟨24, pairFrame State.reset 8 255 0 0 true [], { type := 8, last := true, task := 255, seq := 0, cyc := 0, frag := 0, payload := [] }, modPair (fun p => { p with joined := 5, inbox := [(24, pairFrame State.reset 8 255 0 0 true [])] }) (setF F.LKH_SBYSTAT_STATE 2 State.reset), by decide +kernel⟩,
   ⟨24, pairFrame State.reset 9 5 0 0 true (beBytes 4 64 ++ [2, 0x48, 0x30, 0]), [2, 0x48, 0x30, 0], { type := 9, last := true, task := 5, seq := 0, cyc := 0, frag := 0, payload := beBytes 4 64 ++ [2, 0x48, 0x30, 0] }, 64, 0, modPair (fun p => { p with inbox := [(24, pairFrame State.reset 9 5 0 0 true (beBytes 4 64 ++ [2, 0x48, 0x30, 0]))] }) (setF F.LKH_SBYSTAT_STATE 3 (wr A.LKH_ROLEMAP 0x00043210 State.reset)), by decide +kernel⟩,
   ⟨24, pairFrame State.reset 10 20 88 0 true [], { type := 10, last := true, task := 20, seq := 0, cyc := 88, frag := 0, payload := [] }, 20, modPair (fun p => { p with inbox := [(24, pairFrame State.reset 10 20 88 0 true [])] }) (setF (F.SCN_TASK_CTL_EN 20) 1 (wr A.LKH_SBYMASK 0x100000 (setF F.LKH_SBYSTAT_STATE 3 State.reset))), by decide +kernel⟩⟩

/-- States and operands that meet the hypotheses of FieldLink. -/
theorem witness_FieldLink_1 :
    (∃ (pins : BitVec 32) (ia : Nat) (ib : Nat) (o : Fin 16) (s : State), live s = true ∧ s.fio.on = true ∧ s.scan.localNew = []) ∧
    (∃ (pins : BitVec 32) (ia : Nat) (ib : Nat) (o : Fin 16) (s : State), live s = true ∧ s.fio.on = false ∧ s.scan.localNew = []) ∧
    (∃ (good : Bool) (f : UpFrame) (kk : Fin 64) (n : Fin 32) (s : State), live s = true ∧ calm s s = true ∧ good = true ∧ s.fio.up = some f ∧ isSet s F.FIO_STATUS_LINK = true ∧ f.bytes.length = 64 ∧ f.quality.length = 64 ∧ f.edges = [] ∧ f.ack = none ∧ f.crc = none ∧ f.restart = false ∧ f.news = FdNews.none) ∧
    (∃ (good : Bool) (f : UpFrame) (s : State), live s = true ∧ calm s s = true ∧ good = false ∧ s.fio.up = some f) ∧
    (∃ (good : Bool) (f : UpFrame) (k : Nat) (s : State), live s = true ∧ calm s s = true ∧ good = true ∧ s.fio.up = some f ∧ isSet s F.FIO_STATUS_LINK = true ∧ f.edges = [] ∧ f.ack = none ∧ f.crc = none ∧ f.restart = false ∧ f.news = { FdNews.none with entries := [2], bad := k } ∧ merges s A.FIO_EVT 1 = false) ∧
    (∃ (kk : Fin 64) (s : State), live s = true ∧ isSet s F.FIO_STATUS_LINK = true ∧ s.fio.lastGood + 8000 ≤ s.now ∧ merges s A.FIO_EVT 0 = false) ∧
    (∃ (good : Bool) (sound : Bool) (f : DownFrame) (pa : Nat) (v : Word) (s : State), live s = true ∧ good = true ∧ sound = true ∧ s.fio.on = true ∧ s.fio.down = some f ∧ f.reg = some (pa, v) ∧ f.safe = false ∧ f.cfgok = false ∧ pa = A.FIO_DTEN ∧ ((List.range 16).all (fun i => byteSafe s i) = true) ∧ bitAt s.fio.causes 2 = true) ∧
    (∃ (good : Bool) (sound : Bool) (f : DownFrame) (s : State), live s = true ∧ good = false ∧ sound = true ∧ s.fio.on = true ∧ s.fio.down = some f) :=
  ⟨⟨5#32, 100, 200, 15, { modFio (fun b => { b with on := true, pend := [A.FIO_DTEN] }) State.reset with mem := [(0x3002000F, 7)] }, by decide +kernel⟩,
   ⟨5#32, 100, 200, 15, State.reset, by decide +kernel⟩,
   ⟨true, { bytes := List.replicate 64 0xA1, quality := List.replicate 64 2, edges := [], ack := none, crc := none, restart := false, status := { codes := vset (Vector.replicate 32 0) 31 5, trip := 1, vok := 3, hit := 9, active := 8, safe := true, cause := 2, ia := 5, ib := 6 }, news := FdNews.none }, 63, 31, modFio (fun b => { b with up := some { bytes := List.replicate 64 0xA1, quality := List.replicate 64 2, edges := [], ack := none, crc := none, restart := false, status := { codes := vset (Vector.replicate 32 0) 31 5, trip := 1, vok := 3, hit := 9, active := 8, safe := true, cause := 2, ia := 5, ib := 6 }, news := FdNews.none } }) (setF F.FIO_STATUS_LINK 1 State.reset), by decide +kernel⟩,
   ⟨false, { bytes := List.replicate 64 0xA1, quality := List.replicate 64 2, edges := [], ack := none, crc := none, restart := false, status := { codes := vset (Vector.replicate 32 0) 31 5, trip := 1, vok := 3, hit := 9, active := 8, safe := true, cause := 2, ia := 5, ib := 6 }, news := FdNews.none }, modFio (fun b => { b with good := 9, up := some { bytes := List.replicate 64 0xA1, quality := List.replicate 64 2, edges := [], ack := none, crc := none, restart := false, status := { codes := vset (Vector.replicate 32 0) 31 5, trip := 1, vok := 3, hit := 9, active := 8, safe := true, cause := 2, ia := 5, ib := 6 }, news := FdNews.none } }) State.reset, by decide +kernel⟩,
   ⟨true, { bytes := List.replicate 64 0xA1, quality := List.replicate 64 2, edges := [], ack := none, crc := none, restart := false, status := { codes := vset (Vector.replicate 32 0) 31 5, trip := 1, vok := 3, hit := 9, active := 8, safe := true, cause := 2, ia := 5, ib := 6 }, news := { FdNews.none with entries := [2], bad := 3 } }, 3, modFio (fun b => { b with news := { FdNews.none with entries := [2], bad := 4 }, up := some { bytes := List.replicate 64 0xA1, quality := List.replicate 64 2, edges := [], ack := none, crc := none, restart := false, status := { codes := vset (Vector.replicate 32 0) 31 5, trip := 1, vok := 3, hit := 9, active := 8, safe := true, cause := 2, ia := 5, ib := 6 }, news := { FdNews.none with entries := [2], bad := 3 } } }) (setF F.FIO_STATUS_LINK 1 State.reset), by decide +kernel⟩,
   ⟨0, { setF F.FIO_STATUS_LINK 1 State.reset with now := 8000 }, by decide +kernel⟩,
   ⟨true, true, { out := Vector.replicate 16 0, tag := Vector.replicate 16 0, reg := some (A.FIO_DTEN, 0x55#32), safe := false, inst := Vector.replicate 4 none, start := none, cfgok := false, cmd := 0, link := true, time := 0, sent := 0 }, A.FIO_DTEN, 0x55#32, modFio (fun b => { fdieReset true b with causes := 4, down := some { out := Vector.replicate 16 0, tag := Vector.replicate 16 0, reg := some (A.FIO_DTEN, 0x55#32), safe := false, inst := Vector.replicate 4 none, start := none, cfgok := false, cmd := 0, link := true, time := 0, sent := 0 } }) State.reset, by decide +kernel⟩,
   ⟨false, true, { out := Vector.replicate 16 0, tag := Vector.replicate 16 0, reg := none, safe := false, inst := Vector.replicate 4 none, start := none, cfgok := false, cmd := 0, link := true, time := 0, sent := 0 }, modFio (fun b => { fdieReset true b with fgood := 7, down := some { out := Vector.replicate 16 0, tag := Vector.replicate 16 0, reg := none, safe := false, inst := Vector.replicate 4 none, start := none, cfgok := false, cmd := 0, link := true, time := 0, sent := 0 } }) State.reset, by decide +kernel⟩⟩

/-- States and operands that meet the hypotheses of FieldLink. -/
theorem witness_FieldLink_2 :
    (∃ (good : Bool) (sound : Bool) (f : DownFrame) (i : Fin 7) (s : State), live s = true ∧ good = true ∧ sound = true ∧ s.fio.on = true ∧ s.fio.down = some f ∧ f.safe = true ∧ f.reg = none ∧ f.cfgok = false ∧ ((List.range 16).all (fun i => vget f.tag i == vget s.fio.gotTag i || vget f.tag i == 0 || !vget s.fio.fresh i) = true)) ∧
    (∃ (i : Fin 7) (s : State), s.fio.on = true ∧ bitAt s.fio.causes 1 = false ∧ s.fio.flastGood + 2000 * fdF s F.FIO_CTL_SWDTMO ≤ s.now) ∧
    (∃ (n : Fin 32) (i : Fin 7) (s : State), s.fio.on = false) ∧
    (∃ (c : Fin 4) (x : Instant) (s : State), vget s.fio.finst c = some x ∧ x.target ≤ fieldTime s ∧ s.fio.on = true ∧ fieldUp s = true ∧ fdF s (F.FIO_CH_CTL_BYTES c) = 1 ∧ x.cyc ≤ vget s.fio.gotTag 0 ∧ byteSafe s 0 = false) ∧
    (∃ (c : Fin 4) (x : Instant) (s : State), vget s.fio.finst c = some x ∧ x.target ≤ fieldTime s ∧ s.fio.on = true ∧ fieldUp s = true ∧ fdF s (F.FIO_CH_CTL_BYTES c) = 1 ∧ vget s.fio.gotTag 0 < x.cyc) ∧
    (∃ (c : Fin 4) (x : Instant) (s : State), vget s.fio.finst c = some x ∧ x.target ≤ fieldTime s ∧ s.fio.on = true ∧ fieldUp s = false) :=
  ⟨⟨true, true, { out := Vector.replicate 16 0, tag := Vector.replicate 16 0, reg := none, safe := true, inst := Vector.replicate 4 none, start := none, cfgok := false, cmd := 0, link := true, time := 0, sent := 0 }, 6, modFio (fun b => { b with on := true, safe := Vector.replicate 16 false, causes := 0, down := some { out := Vector.replicate 16 0, tag := Vector.replicate 16 0, reg := none, safe := true, inst := Vector.replicate 4 none, start := none, cfgok := false, cmd := 0, link := true, time := 0, sent := 0 } }) State.reset, by decide +kernel⟩,
   ⟨6, { modFio (fun b => { b with on := true, causes := 0 }) State.reset with now := 1000000000 }, by decide +kernel⟩,
   ⟨31, 0, State.reset, by decide +kernel⟩,
   ⟨3, ⟨5, 2, false⟩, modFio (fun b => { b with on := true, matched := true, flink := true, fbase := 9, safe := Vector.replicate 16 false, finst := vset b.finst 3 (some ⟨5, 2, false⟩), gotTag := Vector.replicate 16 2, got := Vector.replicate 16 0x5A, copy := [(A.FIO_CH_CTL 3, w32 (2 ^ (F.FIO_CH_CTL_BYTES 3).lo))] }) State.reset, by decide +kernel⟩,
   ⟨3, ⟨5, 3, false⟩, modFio (fun b => { b with on := true, matched := true, flink := true, fbase := 9, safe := Vector.replicate 16 false, finst := vset b.finst 3 (some ⟨5, 3, false⟩), gotTag := Vector.replicate 16 2, got := Vector.replicate 16 0x5A, copy := [(A.FIO_CH_CTL 3, w32 (2 ^ (F.FIO_CH_CTL_BYTES 3).lo))] }) State.reset, by decide +kernel⟩,
   ⟨3, ⟨5, 2, false⟩, modFio (fun b => { b with on := true, fbase := 9, finst := vset b.finst 3 (some ⟨5, 2, false⟩) }) State.reset, by decide +kernel⟩⟩

/-- States and operands that meet the hypotheses of FieldInputs. -/
theorem witness_FieldInputs_1 :
    (∃ (who : Who) (r : Fin 4096) (v : Word) (s : State), live s = true ∧ isPriv s who = true ∧ wordAt 0x600D r = A.FIO_DTEN ∧ isSet s F.FIO_CTL_LOCK = false ∧ unguarded s who = true) ∧
    (∃ (i : Fin 64) (v : Bool) (s : State), s.fio.on = true ∧ pulsed s (i / 8) = false ∧ s.fio.raw.getLsbD i ≠ v) ∧
    (∃ (i : Fin 64) (s : State), s.fio.on = true ∧ pulsed s (i / 8) = false ∧ s.fio.filt.getLsbD i ≠ s.fio.raw.getLsbD i ∧ vget s.fio.rawNow i + inputFilter s i ≤ s.now ∧ stretchOver s i = true ∧ 16 ≤ i.val) ∧
    (∃ (i : Fin 64) (s : State), s.fio.on = true ∧ pulsed s (i / 8) = false ∧ s.fio.filt.getLsbD i = false ∧ s.fio.raw.getLsbD i = true ∧ vget s.fio.rawNow i + inputFilter s i ≤ s.now ∧ stretchOver s i = true ∧ i.val < 16 ∧ fdBit s A.FIO_EDGEEN i = true ∧ s.fio.fedges.length < 64) ∧
    (∃ (g : Fin 8) (levels : BitVec 8) (j : Fin 8) (s : State), s.fio.on = true ∧ pulsed s g = true ∧ sampleDue s g = true) ∧
    (∃ (g : Fin 8) (levels : BitVec 8) (s : State), sampleDue s g = false) ∧
    (∃ (who : Who) (e : Edge) (s : State), live s = true ∧ s.fio.edges = [e]) ∧
    (∃ (who : Who) (s : State), live s = true ∧ isPriv s who = true ∧ unguarded s who = true) :=
  ⟨⟨⟨49, true, none⟩, Fin.ofNat 4096 ((A.FIO_DTEN - 0x600D0000) / 4), 0x0000FFFF#32, State.reset, by decide +kernel⟩,
   ⟨63, true, modFio (fun b => { b with on := true }) State.reset, by decide +kernel⟩,
   ⟨16, { modFio (fun b => { b with on := true, raw := 0x10000#64 }) State.reset with now := 100000000 }, by decide +kernel⟩,
   ⟨15, { modFio (fun b => { b with on := true, matched := true, raw := 0x8000#64, copy := [(A.FIO_EDGEEN, 0xFFFFFFFF#32)] }) State.reset with now := 100000000 }, by decide +kernel⟩,
   ⟨7, 0x81#8, 7, modFio (fun b => { b with on := true, matched := true, copy := [(A.FIO_DIGRP 7, w32 (2 ^ (F.FIO_DIGRP_PULSED 7).lo))] }) State.reset, by decide +kernel⟩,
   ⟨7, 0x81#8, { State.reset with now := 5000 }, by decide +kernel⟩,
   ⟨⟨3, false, none⟩, { time := 77, rise := true, input := 4, lost := false }, modFio (fun b => { b with edges := [{ time := 77, rise := true, input := 4, lost := false }] }) State.reset, by decide +kernel⟩,
   ⟨⟨49, true, none⟩, modFio (fun b => { b with edges := [{ time := 77, rise := true, input := 4, lost := false }] }) State.reset, by decide +kernel⟩⟩

/-- States and operands that meet the hypotheses of FieldInputs. -/
theorem witness_FieldInputs_2 :
    (∃ (good : Bool) (sound : Bool) (f : DownFrame) (s : State), live s = true ∧ good = true ∧ sound = true ∧ s.fio.on = true ∧ s.fio.down = some f ∧ f.safe = false ∧ bitAt f.cmd 2 = true) ∧
    (∃ (vals : List (List Int)) (c : Fin 8) (n : Nat) (s : State), aiBusy s = true ∧ s.fio.aiAt + aiRoundNs s ≤ s.now ∧ fdSet s (F.FIO_AI_EN c) = true ∧ fdF s (F.FIO_AI_RANGE c) ≤ 1 ∧ n = 2 ^ fdF s (F.FIO_AI_AVG c) ∧ (2 * aiSum (vals.getD c []) n) % (625 * (n : Int)) = 0) ∧
    (∃ (vals : List (List Int)) (c : Fin 8) (n : Nat) (s : State), aiBusy s = true ∧ s.fio.aiAt + aiRoundNs s ≤ s.now ∧ fdSet s (F.FIO_AI_EN c) = true ∧ fdF s (F.FIO_AI_RANGE c) = 2 ∧ n = 2 ^ fdF s (F.FIO_AI_AVG c) ∧ (aiSum (vals.getD c []) n - 4000000 * (n : Int)) % (500 * (n : Int)) = 0) :=
  ⟨⟨true, true, { out := Vector.replicate 16 0, tag := Vector.replicate 16 0, reg := none, safe := false, inst := Vector.replicate 4 none, start := none, cfgok := false, cmd := 4, link := true, time := 0, sent := 0 }, modFio (fun b => { b with on := true, fedges := [{ time := 77, rise := true, input := 4, lost := false }], down := some { out := Vector.replicate 16 0, tag := Vector.replicate 16 0, reg := none, safe := false, inst := Vector.replicate 4 none, start := none, cfgok := false, cmd := 4, link := true, time := 0, sent := 0 } }) State.reset, by decide +kernel⟩,
   ⟨[[10000000]], 0, 1, { modFio (fun b => { b with on := true, matched := true, copy := [(A.FIO_AI 0, w32 (2 ^ (F.FIO_AI_EN 0).lo))] }) State.reset with now := 10000000 }, by decide +kernel⟩,
   ⟨[[500000]], 0, 1, { modFio (fun b => { b with on := true, matched := true, copy := [(A.FIO_AI 0, w32 (2 ^ (F.FIO_AI_EN 0).lo + 2 * 2 ^ (F.FIO_AI_RANGE 0).lo))] }) State.reset with now := 10000000 }, by decide +kernel⟩⟩

/-- States and operands that meet the hypotheses of FieldOutputs. -/
theorem witness_FieldOutputs_1 :
    (∃ (n : Fin 32) (code : Fin 16) (present : Bool) (s : State), s.fio.on = true ∧ present = true ∧ (code.val = 2 ∨ (code.val = 1 ∧ driven s n = true ∧ vget s.fio.drvAt n + 1000000 ≤ s.now)) ∧ outCode s n = 0) ∧
    (∃ (n : Fin 32) (code : Fin 16) (present : Bool) (s : State), s.fio.on = true ∧ present = true ∧ code.val = 4 ∧ driven s n = false ∧ vget s.fio.drvAt n + readDelay s ≤ s.now ∧ outCode s n = 0) ∧
    (∃ (n : Fin 32) (code : Fin 16) (present : Bool) (s : State), s.fio.on = true ∧ present = true ∧ code.val = 4 ∧ s.now < vget s.fio.drvAt n + readDelay s) ∧
    (∃ (n : Fin 32) (code : Fin 16) (present : Bool) (s : State), s.fio.on = true ∧ present = false) ∧
    (∃ (g : Fin 2) (ma : Nat) (h : Nat) (j : Fin 16) (s : State), s.fio.on = true ∧ tripped s g = false ∧ groupLimit s g < ma ∧ vget s.fio.overAt g = some h ∧ h + 100000 ≤ s.now ∧ outCode s (16 * g + j) = 0) ∧
    (∃ (g : Fin 2) (ma : Nat) (s : State), s.fio.on = true ∧ tripped s g = false ∧ groupLimit s g < ma ∧ vget s.fio.overAt g = none) ∧
    (∃ (g : Fin 2) (ma : Nat) (s : State), s.fio.on = true ∧ tripped s g = false ∧ ma ≤ groupLimit s g) ∧
    (∃ (n : Fin 32) (s : State), s.fio.on = true ∧ s.fio.off.getLsbD n = true ∧ fdBit s A.FIO_AUTORST n = true ∧ commanded s n = true ∧ overloaded s n = false ∧ vget s.fio.offAt n + 10000000 ≤ s.now) :=
  ⟨⟨31, 2, true, modFio (fun b => { b with on := true }) State.reset, by decide +kernel⟩,
   ⟨31, 4, true, { modFio (fun b => { b with on := true }) State.reset with now := 1000000000 }, by decide +kernel⟩,
   ⟨31, 4, true, modFio (fun b => { b with on := true, drvAt := Vector.replicate 32 500 }) State.reset, by decide +kernel⟩,
   ⟨31, 2, false, modFio (fun b => { b with on := true, conds := Vector.replicate 32 6 }) State.reset, by decide +kernel⟩,
   ⟨1, 1000000, 5, 15, { modFio (fun b => { b with on := true, overAt := Vector.replicate 2 (some 5) }) State.reset with now := 100005 }, by decide +kernel⟩,
   ⟨1, 1000000, modFio (fun b => { b with on := true }) State.reset, by decide +kernel⟩,
   ⟨1, 0, modFio (fun b => { b with on := true }) State.reset, by decide +kernel⟩,
   ⟨17, { modFio (fun b => { b with on := true, matched := true, off := 0x20000#32, copy := [(A.FIO_AUTORST, 0x20000#32)], safe := Vector.replicate 16 false, cmt := Vector.replicate 16 0xFF }) State.reset with now := 10000000 }, by decide +kernel⟩⟩

/-- States and operands that meet the hypotheses of FieldOutputs. -/
theorem witness_FieldOutputs_2 :
    (∃ (n : Fin 32) (low : Bool) (s : State), low = false ∧ driven s n = true ∧ fdBit s A.FIO_DTEN n = true ∧ darkWidth s ≤ darkPos s n + 10 ∧ darkPos s n ≤ darkWidth s ∧ outCode s n = 0) ∧
    (∃ (n : Fin 32) (low : Bool) (s : State), low = true ∧ driven s n = true ∧ fdBit s A.FIO_DTEN n = true ∧ darkWidth s ≤ darkPos s n + 10 ∧ darkPos s n ≤ darkWidth s) ∧
    (∃ (n : Fin 32) (low : Bool) (s : State), (fdBit s A.FIO_DTEN n = false ∨ driven s n = false)) ∧
    (∃ (who : Who) (s : State), live s = true ∧ isPriv s who = true ∧ unguarded s who = true) ∧
    (∃ (who : Who) (s : State), live s = true ∧ isPriv s who = true ∧ unguarded s who = true) ∧
    (∃ (good : Bool) (sound : Bool) (f : DownFrame) (g : Fin 2) (s : State), live s = true ∧ good = true ∧ sound = true ∧ s.fio.on = true ∧ s.fio.down = some f ∧ f.safe = false ∧ f.reg = none ∧ f.cfgok = false ∧ bitAt f.cmd 1 = true ∧ tripCause s g = false) ∧
    (∃ (good : Bool) (sound : Bool) (f : DownFrame) (n : Fin 32) (s : State), live s = true ∧ good = true ∧ sound = true ∧ s.fio.on = true ∧ s.fio.down = some f ∧ f.safe = false ∧ f.reg = none ∧ f.cfgok = false ∧ bitAt f.cmd 0 = true ∧ condPresent s n = false ∧ overloaded s n = false) ∧
    (∃ (g : Fin 2) (present : Bool) (j : Fin 16) (s : State), s.fio.on = true ∧ present = false ∧ vok s g = true ∧ outCode s (16 * g + j) = 0) :=
  ⟨⟨16, false, modFio (fun b => { b with on := true, matched := true, vok := 3, fbase := bitsOf (resetNat A.FIO_DTCTL) F.FIO_DTCTL_DTW.lo F.FIO_DTCTL_DTW.w * 1000, copy := [(A.FIO_DTEN, 0x10000#32)], safe := Vector.replicate 16 false, cmt := Vector.replicate 16 0xFF }) State.reset, by decide +kernel⟩,
   ⟨16, true, modFio (fun b => { b with on := true, matched := true, vok := 3, fbase := bitsOf (resetNat A.FIO_DTCTL) F.FIO_DTCTL_DTW.lo F.FIO_DTCTL_DTW.w * 1000, copy := [(A.FIO_DTEN, 0x10000#32)], safe := Vector.replicate 16 false, cmt := Vector.replicate 16 0xFF }) State.reset, by decide +kernel⟩,
   ⟨17, true, State.reset, by decide +kernel⟩,
   ⟨⟨49, true, none⟩, State.reset, by decide +kernel⟩,
   ⟨⟨49, true, none⟩, State.reset, by decide +kernel⟩,
   ⟨true, true, { out := Vector.replicate 16 0, tag := Vector.replicate 16 0, reg := none, safe := false, inst := Vector.replicate 4 none, start := none, cfgok := false, cmd := 2, link := true, time := 0, sent := 0 }, 1, modFio (fun b => { b with on := true, trip := 3, down := some { out := Vector.replicate 16 0, tag := Vector.replicate 16 0, reg := none, safe := false, inst := Vector.replicate 4 none, start := none, cfgok := false, cmd := 2, link := true, time := 0, sent := 0 } }) State.reset, by decide +kernel⟩,
   ⟨true, true, { out := Vector.replicate 16 0, tag := Vector.replicate 16 0, reg := none, safe := false, inst := Vector.replicate 4 none, start := none, cfgok := false, cmd := 1, link := true, time := 0, sent := 0 }, 31, modFio (fun b => { b with on := true, off := 0x80000000#32, codes := Vector.replicate 32 2, down := some { out := Vector.replicate 16 0, tag := Vector.replicate 16 0, reg := none, safe := false, inst := Vector.replicate 4 none, start := none, cfgok := false, cmd := 1, link := true, time := 0, sent := 0 } }) State.reset, by decide +kernel⟩,
   ⟨0, false, 0, modFio (fun b => { b with on := true, vok := 3 }) State.reset, by decide +kernel⟩⟩

/-- States and operands that meet the hypotheses of FieldOutputs. -/
theorem witness_FieldOutputs_3 :
    (∃ (g : Fin 2) (present : Bool) (s : State), s.fio.on = true ∧ present = true ∧ vok s g = false) :=
  ⟨1, true, modFio (fun b => { b with on := true, vok := 0 }) State.reset, by decide +kernel⟩

/-- States and operands that meet the hypotheses of FramesThroughTheBasin. -/
theorem witness_FramesThroughTheBasin_1 :
    (∃ (src : Fin 36) (f : InFrame) (c : Fin 8) (s : State), live s = true ∧ calm s s = true ∧ s.basin.inbox = [f] ∧ f.src = src.val ∧ f.cls = some c.val ∧ admits s c = true ∧ isSet s F.BAS_MIRCTL_EN = false ∧ clsUse s c + 32 < 2 ^ 18 ∧ f.bytes.length ≤ 2044 ∧ cellsOf f.bytes.length ≤ getF s F.BAS_STATUS_FREE ∧ s.basin.fresh + 32 < 131072) ∧
    (∃ (src : Fin 36) (f : InFrame) (c : Fin 8) (s : State), live s = true ∧ calm s s = true ∧ s.basin.inbox = [f] ∧ f.src = src.val ∧ f.cls = some c.val ∧ admits s c = false ∧ isSet s F.BAS_MIRCTL_EN = false ∧ merges s A.BAS_EVT 3 = false) ∧
    (∃ (src : Fin 36) (d : Fin 36) (f : InFrame) (c : Fin 8) (cs : List Nat) (s : State), live s = true ∧ calm s s = true ∧ s.basin.arriving = [(f, c.val, cs)] ∧ f.src = src.val ∧ f.direct = some d.val ∧ d.val ≠ 32 ∧ d.val ≠ src.val ∧ (¬ (28 ≤ d.val ∧ d.val < 32)) ∧ portUp s d = true ∧ 60 ≤ f.bytes.length ∧ f.bytes.length ≤ 2044 ∧ isSet s (F.BAS_PORT_CFG_LEARN src) = false ∧ cs.length = cellsOf f.bytes.length ∧ s.basin.frames = [] ∧ 32 ≤ clsUse s c) ∧
    (∃ (src : Fin 36) (d : Fin 36) (f : InFrame) (c : Fin 8) (cs : List Nat) (s : State), live s = true ∧ calm s s = true ∧ s.basin.arriving = [(f, c.val, cs)] ∧ f.src = src.val ∧ f.direct = some d.val ∧ d.val ≠ 32 ∧ d.val ≠ src.val ∧ (¬ (28 ≤ d.val ∧ d.val < 32)) ∧ portUp s d = false ∧ s.basin.queues = [] ∧ isSet s F.BAS_MIRCTL_EN = false ∧ 60 ≤ f.bytes.length ∧ f.bytes.length ≤ 2044 ∧ isSet s (F.BAS_PORT_CFG_LEARN src) = false ∧ cs.length = cellsOf f.bytes.length ∧ getF s F.BAS_STATUS_FREE + cs.length < 2 ^ 18 ∧ s.basin.frames = [] ∧ 32 ≤ clsUse s c) ∧
    (∃ (dest : Fin 36) (hi : Bool) (f : BFrame) (s : State), live s = true ∧ calm s s = true ∧ hi = true ∧ 32 ≤ dest.val ∧ s.basin.queues = [{ dest := dest.val, cls := 7, id := f.id }] ∧ s.basin.frames = [f] ∧ f.cls = 7 ∧ tooOld s f = false ∧ s.basin.flights = [] ∧ s.basin.egress = [] ∧ f.cells.length ≤ 8 ∧ planeState s 0 = 0) ∧
    (∃ (dest : Fin 36) (hi : Bool) (f : BFrame) (fl : Flight) (s : State), live s = true ∧ calm s s = true ∧ dest.val < 24 ∧ s.basin.flights = [fl] ∧ fl.dest = dest.val ∧ fl.hi = hi ∧ fl.id = f.id ∧ fl.whole = true ∧ s.basin.frames = [f] ∧ f.todo = 1 ∧ s.ecc = [] ∧ isSet s F.BAS_MIRCTL_EN = false ∧ f.cls < 8 ∧ f.cells.length ≤ clsUse s f.cls ∧ getF s F.BAS_STATUS_FREE + f.cells.length < 2 ^ 18) ∧
    (∃ (dest : Fin 36) (hi : Bool) (f : BFrame) (fl : Flight) (k : Fin 4) (n : Nat) (s : State), live s = true ∧ calm s s = true ∧ dest.val < 24 ∧ s.basin.flights = [fl] ∧ fl.dest = dest.val ∧ fl.hi = hi ∧ fl.id = f.id ∧ fl.left = 0 ∧ fl.cells = [⟨n, k.val, false⟩] ∧ planeState s k < 2 ∧ s.basin.frames = [f] ∧ f.todo = 1 ∧ s.ecc = [] ∧ isSet s F.BAS_MIRCTL_EN = false ∧ f.cls < 8 ∧ f.cells.length ≤ clsUse s f.cls ∧ getF s F.BAS_STATUS_FREE + f.cells.length < 2 ^ 18) ∧
    (∃ (dest : Fin 36) (hi : Bool) (f : BFrame) (fl : Flight) (gl : Flight) (k : Fin 4) (n : Nat) (m : Nat) (s : State), live s = true ∧ calm s s = true ∧ dest.val < 24 ∧ s.basin.flights = [fl, gl] ∧ fl.dest = dest.val ∧ fl.hi = hi ∧ hi = false ∧ gl.hi = true ∧ gl.dest < 36 ∧ fl.id = f.id ∧ gl.id ≠ f.id ∧ fl.left = 0 ∧ fl.cells = [⟨n, k.val, false⟩] ∧ gl.left = 0 ∧ gl.cells = [⟨m, k.val, false⟩] ∧ planeState s k < 2 ∧ s.basin.frames = [f] ∧ f.todo = 1 ∧ s.ecc = [] ∧ isSet s F.BAS_MIRCTL_EN = false) :=
  ⟨⟨30, { src := 30, bytes := List.replicate 60 3, cls := some 7, direct := some 5 }, 7, modBasin (fun b => { b with inbox := [{ src := 30, bytes := List.replicate 60 3, cls := some 7, direct := some 5 }] }) State.reset, by decide +kernel⟩,
   ⟨30, { src := 30, bytes := List.replicate 60 3, cls := some 7, direct := some 5 }, 7, setF (F.BAS_CLS_USE_CELLS 7) 0x3FFFF (modBasin (fun b => { b with inbox := [{ src := 30, bytes := List.replicate 60 3, cls := some 7, direct := some 5 }] }) State.reset), by decide +kernel⟩,
   ⟨30, 5, { src := 30, bytes := List.replicate 99 3, cls := some 7, direct := some 5 }, 7, [4, 9], setF (F.ETH_STATUS_LINK 5) 1 (setF (F.BAS_PORT_CFG_LEARN 30) 0 (setF (F.BAS_CLS_USE_CELLS 7) 32 (modBasin (fun b => { b with arriving := [({ src := 30, bytes := List.replicate 99 3, cls := some 7, direct := some 5 }, 7, [4, 9])] }) State.reset))), by decide +kernel⟩,
   ⟨30, 5, { src := 30, bytes := List.replicate 99 3, cls := some 7, direct := some 5 }, 7, [4, 9], setF (F.BAS_PORT_CFG_LEARN 30) 0 (setF (F.BAS_CLS_USE_CELLS 7) 32 (modBasin (fun b => { b with arriving := [({ src := 30, bytes := List.replicate 99 3, cls := some 7, direct := some 5 }, 7, [4, 9])] }) State.reset)), by decide +kernel⟩,
   ⟨35, true, { id := 3, src := 1, cls := 7, len := 60, stamp := 0, cells := [9], todo := 1 }, modBasin (fun b => { b with frames := [{ id := 3, src := 1, cls := 7, len := 60, stamp := 0, cells := [9], todo := 1 }], queues := [{ dest := 35, cls := 7, id := 3 }] }) State.reset, by decide +kernel⟩,
   ⟨23, false, { id := 3, src := 1, cls := 5, len := 60, stamp := 0, cells := [9], todo := 1 }, { dest := 23, hi := false, id := 3, seq := 1, left := 0, cells := [] }, setF (F.BAS_CLS_USE_CELLS 5) 1 (setF F.BAS_STATUS_FREE 100 (modBasin (fun b => { b with frames := [{ id := 3, src := 1, cls := 5, len := 60, stamp := 0, cells := [9], todo := 1 }], flights := [{ dest := 23, hi := false, id := 3, seq := 1, left := 0, cells := [] }] }) State.reset)), by decide +kernel⟩,
   ⟨23, false, { id := 3, src := 1, cls := 5, len := 60, stamp := 0, cells := [9], todo := 1 }, { dest := 23, hi := false, id := 3, seq := 1, left := 0, cells := [⟨0, 2, false⟩] }, 2, 0, setF (F.BAS_CLS_USE_CELLS 5) 1 (setF F.BAS_STATUS_FREE 100 (modBasin (fun b => { b with frames := [{ id := 3, src := 1, cls := 5, len := 60, stamp := 0, cells := [9], todo := 1 }], flights := [{ dest := 23, hi := false, id := 3, seq := 1, left := 0, cells := [⟨0, 2, false⟩] }] }) State.reset)), by decide +kernel⟩,
   ⟨23, false, { id := 3, src := 1, cls := 5, len := 60, stamp := 0, cells := [9], todo := 1 }, { dest := 23, hi := false, id := 3, seq := 1, left := 0, cells := [⟨0, 2, false⟩] }, { dest := 7, hi := true, id := 4, seq := 1, left := 0, cells := [⟨0, 2, false⟩] }, 2, 0, 0, setF (F.BAS_CLS_USE_CELLS 5) 1 (setF F.BAS_STATUS_FREE 100 (modBasin (fun b => { b with frames := [{ id := 3, src := 1, cls := 5, len := 60, stamp := 0, cells := [9], todo := 1 }], flights := [{ dest := 23, hi := false, id := 3, seq := 1, left := 0, cells := [⟨0, 2, false⟩] }, { dest := 7, hi := true, id := 4, seq := 1, left := 0, cells := [⟨0, 2, false⟩] }] }) State.reset)), by decide +kernel⟩⟩

/-- States and operands that meet the hypotheses of FramesThroughTheBasin. -/
theorem witness_FramesThroughTheBasin_2 :
    (∃ (f : BFrame) (d : Fin 36) (s : State), live s = true ∧ calm s s = true ∧ s.basin.queues = [{ dest := d.val, cls := f.cls, id := f.id }] ∧ s.basin.frames = [f] ∧ f.todo = 1 ∧ f.cls < 8 ∧ portUp s d = true ∧ tooOld s f = true ∧ isSet s F.BAS_MIRCTL_EN = false ∧ merges s A.BAS_EVT 4 = false) :=
  ⟨{ id := 3, src := 1, cls := 5, len := 60, stamp := 0, cells := [9], todo := 1 }, 34, setF (F.BAS_CLS_USE_CELLS 5) 1 (wr64 A.TMB_TIME 0x1000000000 (modBasin (fun b => { b with frames := [{ id := 3, src := 1, cls := 5, len := 60, stamp := 0, cells := [9], todo := 1 }], queues := [{ dest := 34, cls := 5, id := 3 }] }) State.reset)), by decide +kernel⟩

/-- States and operands that meet the hypotheses of PlanesAndRings. -/
theorem witness_PlanesAndRings_1 :
    (∃ (kk : Fin 4) (sound : Bool) (fl : Flight) (s : State), live s = true ∧ calm s s = true ∧ planeState s kk ≠ 3 ∧ s.basin.flights = [fl] ∧ fl.heldBy kk = true ∧ s.basin.frames = [] ∧ vget s.basin.planeAt kk + 100 * getF s F.BAS_CTL_PSTALL ≤ s.now ∧ merges s A.BAS_EVT 0 = false) ∧
    (∃ (kk : Fin 4) (sound : Bool) (s : State), live s = true ∧ calm s s = true ∧ s.now < vget s.basin.planeAt kk + 100 * getF s F.BAS_CTL_PSTALL) ∧
    (∃ (who : Who) (v : Word) (kk : Fin 4) (s : State), live s = true ∧ isPriv s who = true ∧ v.toNat < 16 ∧ v.toNat ≠ 0 ∧ bitAt v.toNat kk = false ∧ planeState s kk = 0 ∧ unguarded s who = true) ∧
    (∃ (who : Who) (v : Word) (kk : Fin 4) (s : State), live s = true ∧ isPriv s who = true ∧ v.toNat < 16 ∧ bitAt v.toNat kk = true ∧ planeState s kk = 2 ∧ isSet s ⟨A.BAS_PLANE, 4 + kk.val, 1⟩ = false ∧ unguarded s who = true) ∧
    (∃ (kk : Fin 4) (s : State), live s = true ∧ planeState s kk = 1 ∧ planeHolds s kk = false) ∧
    (∃ (kk : Fin 4) (fl : Flight) (n : Nat) (m : Nat) (s : State), live s = true ∧ planeState s kk = 1 ∧ s.basin.flights = [fl] ∧ fl.dest < 36 ∧ fl.cells = [⟨n, kk.val, false⟩, ⟨m, kk.val, false⟩]) ∧
    (∃ (who : Who) (kk : Fin 4) (s : State), live s = true ∧ isPriv s who = true ∧ planeState s kk = 3 ∧ s.basin.sound.getLsbD kk = true ∧ isSet s ⟨A.BAS_PLANE, kk, 1⟩ = true ∧ merges s A.BAS_EVT 1 = false ∧ unguarded s who = true) ∧
    (∃ (who : Who) (kk : Fin 32) (v : Word) (s : State), live s = true ∧ calm s s = true ∧ isPriv s who = true ∧ v.toNat = getF s (F.BAS_RX_WP_INDEX kk) ∧ v.toNat < ringLines (getF s (F.BAS_RX_RING_SIZE kk)) ∧ v.toNat ≠ getF s (F.BAS_RX_RP_INDEX kk) ∧ getF s (F.BAS_RX_RP_INDEX kk) < ringLines (getF s (F.BAS_RX_RING_SIZE kk)) ∧ s.basin.records = [(kk.val, v.toNat)] ∧ unguarded s who = true) :=
  ⟨⟨3, false, { dest := 23, hi := false, id := 3, seq := 1, left := 0, cells := [⟨0, 3, false⟩] }, modBasin (fun b => { b with flights := [{ dest := 23, hi := false, id := 3, seq := 1, left := 0, cells := [⟨0, 3, false⟩] }] }) { State.reset with now := 1000000 }, by decide +kernel⟩,
   ⟨3, false, setF F.BAS_CTL_PSTALL 5 (modBasin (fun b => { b with flights := [{ dest := 23, hi := false, id := 3, seq := 1, left := 0, cells := [⟨0, 3, false⟩] }] }) { State.reset with now := 499 }), by decide +kernel⟩,
   ⟨⟨49, true, none⟩, 7#32, 3, State.reset, by decide +kernel⟩,
   ⟨⟨49, true, none⟩, 15#32, 1, setPlane 1 2 (setF ⟨A.BAS_PLANE, 0, 4⟩ 13 State.reset), by decide +kernel⟩,
   ⟨2, setPlane 2 1 State.reset, by decide +kernel⟩,
   ⟨2, { dest := 23, hi := false, id := 3, seq := 5, left := 0, cells := [⟨0, 2, false⟩, ⟨4, 2, false⟩] }, 0, 4, setPlane 2 1 (modBasin (fun b => { b with flights := [{ dest := 23, hi := false, id := 3, seq := 5, left := 0, cells := [⟨0, 2, false⟩, ⟨4, 2, false⟩] }] }) State.reset), by decide +kernel⟩,
   ⟨⟨49, true, none⟩, 2, setPlane 2 3 State.reset, by decide +kernel⟩,
   ⟨⟨49, true, none⟩, 31, 2#32, setF (F.BAS_RX_WP_INDEX 31) 2 (modBasin (fun b => { b with records := [(31, 2)] }) State.reset), by decide +kernel⟩⟩

/-- States and operands that meet the hypotheses of PlanesAndRings. -/
theorem witness_PlanesAndRings_2 :
    (∃ (who : Who) (r : Fin 4) (v : Word) (s : State), live s = true ∧ calm s s = true ∧ isPriv s who = true ∧ getF s (F.BAS_TX_STAT_STATE r) ≠ 1 ∧ v.toNat < 8 ∧ unguarded s who = true) ∧
    (∃ (who : Who) (r : Fin 4) (v : Word) (n : Fin 5) (s : State), live s = true ∧ calm s s = true ∧ isPriv s who = true ∧ rd s (A.BAS_TX_RING r) = 0x80000000#32 ∧ getF s (F.BAS_TX_STAT_STATE r) = 1 ∧ getF s (F.BAS_TX_RP_INDEX r) = 0 ∧ v.toNat = 2 ∧ reachOf s r = n.val ∧ gateAdmits s n 0 45 = true ∧ ((List.range 10).all (fun q => foldCW s n (8 * q) == 8 * q) = true) ∧ reachState s n = 0 ∧ getF s (F.RCH_PWR_PSTATE n) = 0 ∧ s.ecc = [] ∧ memNat s (reachAddr n 8) 4 = 60 ∧ unguarded s who = true) ∧
    (∃ (who : Who) (tx : Bool) (kk : Fin 32) (s : State), live s = true ∧ calm s s = true ∧ isPriv s who = true ∧ tx = false ∧ isSet s (F.BAS_RX_RING_EN kk) = true ∧ getF s (F.BAS_RX_RING_SIZE kk) ≤ 6 ∧ getF s (F.BAS_RX_STAT_STATE kk) = 2 ∧ unguarded s who = true) :=
  ⟨⟨⟨49, true, none⟩, 3, 5#32, State.reset, by decide +kernel⟩,
   ⟨⟨49, true, none⟩, 3, 2#32, 3, wr (A.BAS_TX_RING 3) 0x80000000 (setF (F.BAS_TX_STAT_STATE 3) 1 (setReachState 3 0 (setF (F.RCH_GATE_MODE 3 0) 2 (setF (F.RCH_GATE_OWNER 3 0) 45 (wr A.LKH_ROLEMAP 0x00043210 (memPut (reachAddr 3 8) 1 60 State.reset)))))), by decide +kernel⟩,
   ⟨⟨49, true, none⟩, false, 30, setF (F.BAS_RX_RING_EN 30) 1 (setF (F.BAS_RX_STAT_STATE 30) 2 State.reset), by decide +kernel⟩⟩

/-- States and operands that meet the hypotheses of MacTable. -/
theorem witness_MacTable_1 :
    (∃ (i : Nat) (e : MacEntry) (s : State), live s = true ∧ s.basin.mac = [(i, e)] ∧ s.basin.sweepAt + 500000000 * getF s F.BAS_CTL_AGETIME ≤ s.now ∧ (e.static = true ∨ e.hit = true)) ∧
    (∃ (i : Nat) (e : MacEntry) (s : State), live s = true ∧ s.basin.mac = [(i, e)] ∧ s.basin.sweepAt + 500000000 * getF s F.BAS_CTL_AGETIME ≤ s.now ∧ e.static = false ∧ e.hit = false) ∧
    (∃ (s : State), live s = true ∧ s.now < s.basin.sweepAt + 500000000 * getF s F.BAS_CTL_AGETIME) ∧
    (∃ (who : Who) (i : Fin 16384) (e : MacEntry) (s : State), live s = true ∧ isPriv s who = true ∧ SMap.get? s.basin.mac i.val = some e ∧ e.addr < 2 ^ 48 ∧ e.port < 36 ∧ unguarded s who = true) ∧
    (∃ (who : Who) (s : State), live s = true ∧ isPriv s who = true ∧ s.basin.mac = [] ∧ unguarded s who = true) ∧
    (∃ (who : Who) (i : Fin 16384) (e : MacEntry) (s : State), live s = true ∧ isPriv s who = true ∧ macFind s (rd64 s A.BAS_MACADDR % 2 ^ 48) = some i.val ∧ SMap.get? s.basin.mac i.val = some e ∧ e.port < 36 ∧ unguarded s who = true) ∧
    (∃ (who : Who) (s : State), live s = true ∧ isPriv s who = true ∧ s.basin.mac = [] ∧ (rd s (A.BAS_MACADDR + 4)).toNat < 65536 ∧ unguarded s who = true) ∧
    (∃ (who : Who) (i : Fin 16384) (e : MacEntry) (s : State), live s = true ∧ isPriv s who = true ∧ macFind s (rd64 s A.BAS_MACADDR % 2 ^ 48) = some i.val ∧ s.basin.mac = [(i.val, e)] ∧ unguarded s who = true) :=
  ⟨⟨77, { addr := 5, port := 3, static := false, hit := true }, modBasin (fun b => { b with mac := [(77, { addr := 5, port := 3, static := false, hit := true })] }) { State.reset with now := 1000000000000 }, by decide +kernel⟩,
   ⟨77, { addr := 5, port := 3, static := false, hit := false }, modBasin (fun b => { b with mac := [(77, { addr := 5, port := 3, static := false, hit := false })] }) { State.reset with now := 1000000000000 }, by decide +kernel⟩,
   ⟨setF F.BAS_CTL_AGETIME 3 State.reset, by decide +kernel⟩,
   ⟨⟨49, true, none⟩, 77, { addr := 0x020000000005, port := 3, static := true, hit := false }, modBasin (fun b => { b with mac := [(77, { addr := 0x020000000005, port := 3, static := true, hit := false })] }) State.reset, by decide +kernel⟩,
   ⟨⟨49, true, none⟩, State.reset, by decide +kernel⟩,
   ⟨⟨49, true, none⟩, Fin.ofNat 16384 (macIndex 1 (bucketOf State.reset 1 5) 3), { addr := 5, port := 35, static := true, hit := false }, wr64 A.BAS_MACADDR 5 (modBasin (fun b => { b with mac := [(macIndex 1 (bucketOf State.reset 1 5) 3, { addr := 5, port := 35, static := true, hit := false })] }) State.reset), by decide +kernel⟩,
   ⟨⟨49, true, none⟩, wr64 A.BAS_MACADDR 0x020000000005 State.reset, by decide +kernel⟩,
   ⟨⟨49, true, none⟩, Fin.ofNat 16384 (macIndex 1 (bucketOf State.reset 1 5) 3), { addr := 5, port := 35, static := true, hit := false }, wr64 A.BAS_MACADDR 5 (modBasin (fun b => { b with mac := [(macIndex 1 (bucketOf State.reset 1 5) 3, { addr := 5, port := 35, static := true, hit := false })] }) State.reset), by decide +kernel⟩⟩

/-- States and operands that meet the hypotheses of MacTable. -/
theorem witness_MacTable_2 :
    (∃ (who : Who) (all : Bool) (i : Nat) (j : Nat) (e : MacEntry) (e' : MacEntry) (s : State), live s = true ∧ isPriv s who = true ∧ all = true ∧ s.basin.mac = [(i, e), (j, e')] ∧ e.static = false ∧ e'.static = true ∧ unguarded s who = true) ∧
    (∃ (who : Who) (v : Word) (s : State), live s = true ∧ isPriv s who = true ∧ SMap.get? s.wshadow (shadowKey A.BAS_HSEED who) = none ∧ getF s F.BAS_MACUSE_VALID = 0 ∧ v.toNat < 65536 ∧ unguarded s who = true) :=
  ⟨⟨⟨49, true, none⟩, true, 5, 9, { addr := 5, port := 35, static := false, hit := false }, { addr := 6, port := 35, static := true, hit := false }, modBasin (fun b => { b with mac := [(5, { addr := 5, port := 35, static := false, hit := false }), (9, { addr := 6, port := 35, static := true, hit := false })] }) State.reset, by decide +kernel⟩,
   ⟨⟨49, true, none⟩, 0x1234#32, State.reset, by decide +kernel⟩⟩

/-- States and operands that meet the hypotheses of EthernetLink. -/
theorem witness_EthernetLink_1 :
    (∃ (who : Who) (p : Fin 24) (s : State), live s = true ∧ isPriv s who = true ∧ p.val < 8 ∧ rd s (A.ETH_CTL p) = 0 ∧ lstate s p = 0 ∧ isSet s (F.ETH_STATUS_LINK p) = false ∧ unguarded s who = true) ∧
    (∃ (who : Who) (p : Fin 24) (s : State), live s = true ∧ isPriv s who = true ∧ 8 ≤ p.val ∧ rd s (A.ETH_CTL p) = 0 ∧ lstate s p = 0 ∧ isSet s (F.ETH_STATUS_LINK p) = false ∧ isSet s (F.ETH_PLCASTAT_OK p) = false ∧ isSet s (F.ETH_PLCASTAT_COORD p) = false ∧ merges s (A.ETH_EVT p) 0 = false ∧ unguarded s who = true) ∧
    (∃ (who : Who) (p : Fin 24) (s : State), live s = true ∧ isPriv s who = true ∧ p.val < 8 ∧ rd s (A.ETH_CTL p) = 0x80000000#32 ∧ lstate s p = 2 ∧ isSet s (F.ETH_STATUS_LINK p) = true ∧ (s.port p).sending = none ∧ merges s (A.ETH_EVT p) 0 = false ∧ unguarded s who = true) ∧
    (∃ (p : Fin 24) (fast : Bool) (master : Bool) (s : State), live s = true ∧ p.val < 8 ∧ isSet s (F.ETH_CTL_EN p) = true ∧ lstate s p = 1 ∧ isSet s (F.ETH_STATUS_LINK p) = false ∧ getF s (F.ETH_CTL_SPEED p) = 1 ∧ isSet s (F.ETH_CTL_ANEG p) = true ∧ getF s (F.ETH_CTL_MS p) = 2 ∧ merges s (A.ETH_EVT p) 0 = false) ∧
    (∃ (p : Fin 24) (s : State), live s = true ∧ lstate s p = 2 ∧ isSet s (F.ETH_STATUS_LINK p) = true ∧ (s.port p).sending = none ∧ merges s (A.ETH_EVT p) 0 = false) ∧
    (∃ (p : Fin 24) (sqi : Fin 8) (s : State), live s = true ∧ lstate s p = 2 ∧ getF s (F.ETH_CTL_SQIMIN p) = 5 ∧ 5 ≤ getF s (F.ETH_STATUS_SQI p) ∧ sqi.val < 5 ∧ merges s (A.ETH_EVT p) 8 = false) ∧
    (∃ (who : Who) (p : Fin 24) (s : State), live s = true ∧ isPriv s who = true ∧ isSet s (F.ETH_CTL_EN p) = false ∧ isSet s (F.ETH_CTL_LPBK p) = false ∧ isSet s (F.ETH_STATUS_LINK p) = false ∧ unguarded s who = true) ∧
    (∃ (who : Who) (p : Fin 24) (s : State), live s = true ∧ isPriv s who = true ∧ isSet s (F.ETH_CTL_EN p) = true ∧ unguarded s who = true) :=
  ⟨⟨⟨49, true, none⟩, 7, wr (A.ETH_CTL 7) 0 State.reset, by decide +kernel⟩,
   ⟨⟨49, true, none⟩, 23, wr (A.ETH_CTL 23) 0 State.reset, by decide +kernel⟩,
   ⟨⟨49, true, none⟩, 7, setF (F.ETH_STATUS_LINK 7) 1 (setF (F.ETH_STATUS_LSTATE 7) 2 (wr (A.ETH_CTL 7) 0x80000000 State.reset)), by decide +kernel⟩,
   ⟨7, true, false, setF (F.ETH_STATUS_LSTATE 7) 1 (setF (F.ETH_CTL_MS 7) 2 (setF (F.ETH_CTL_ANEG 7) 1 (setF (F.ETH_CTL_SPEED 7) 1 (setF (F.ETH_CTL_EN 7) 1 State.reset)))), by decide +kernel⟩,
   ⟨23, setF (F.ETH_STATUS_LSTATE 23) 2 (setF (F.ETH_STATUS_LINK 23) 1 State.reset), by decide +kernel⟩,
   ⟨0, 4, setF (F.ETH_STATUS_LSTATE 0) 2 (setF (F.ETH_STATUS_SQI 0) 7 (setF (F.ETH_CTL_SQIMIN 0) 5 State.reset)), by decide +kernel⟩,
   ⟨⟨49, true, none⟩, 7, State.reset, by decide +kernel⟩,
   ⟨⟨49, true, none⟩, 7, setF (F.ETH_CTL_EN 7) 1 State.reset, by decide +kernel⟩⟩

/-- States and operands that meet the hypotheses of EthernetLink. -/
theorem witness_EthernetLink_2 :
    (∃ (p : Fin 24) (result : Fin 8) (dist : BitVec 16) (s : State), live s = true ∧ lstate s p = 4 ∧ isSet s (F.ETH_STATUS_LINK p) = false ∧ 2 ≤ result.val ∧ result.val ≤ 4 ∧ merges s (A.ETH_EVT p) 7 = false) ∧
    (∃ (who : Who) (p : Fin 24) (r : Fin 64) (s : State), live s = true ∧ isPriv s who = true ∧ 2 ≤ r.val ∧ r.val < 8 ∧ (s.port p).sending = none) ∧
    (∃ (who : Who) (p : Fin 24) (w : Fin 16) (s : State), live s = true ∧ isPriv s who = true ∧ (s.port p).sending = none) :=
  ⟨⟨9, 3, 77#16, setF (F.ETH_STATUS_LSTATE 9) 4 State.reset, by decide +kernel⟩,
   ⟨⟨49, true, none⟩, 3, 2, wr (statAt 3 2) 99 State.reset, by decide +kernel⟩,
   ⟨⟨49, true, none⟩, 3, 15, wr (A.ETH_STN 3 15) 99 State.reset, by decide +kernel⟩⟩

/-- States and operands that meet the hypotheses of EthernetFrames. -/
theorem witness_EthernetFrames_1 :
    (∃ (p : Fin 24) (bs : List Byte) (good : Bool) (clean : Bool) (fec : Nat) (s : State), live s = true ∧ isSet s (F.ETH_CTL_EN p) = true ∧ isSet s (F.ETH_STATUS_LINK p) = true ∧ good = true ∧ clean = true ∧ fec = 0 ∧ 60 ≤ bs.length ∧ bs.length ≤ 2044 ∧ etherType bs = 0x1234 ∧ beNat (part bs 12 2) = 0x1234 ∧ getF s F.TOW_CTL_ETYPE ≠ 0x1234) ∧
    (∃ (p : Fin 24) (bs : List Byte) (good : Bool) (clean : Bool) (fec : Nat) (s : State), live s = true ∧ isSet s (F.ETH_CTL_EN p) = true ∧ isSet s (F.ETH_STATUS_LINK p) = true ∧ good = false ∧ clean = true ∧ fec = 0 ∧ 60 ≤ bs.length) ∧
    (∃ (p : Fin 24) (busy : Bool) (f : OutFrame) (s : State), live s = true ∧ p.val < 8 ∧ s.basin.egress = [f] ∧ f.dest = p.val ∧ beNat (part f.bytes 12 2) = 0x1234 ∧ canSend s p = true ∧ (s.port p).next = none ∧ (s.port p).backoff = none ∧ lstate s p = 2) ∧
    (∃ (p : Fin 24) (busy : Bool) (f : OutFrame) (s : State), live s = true ∧ 8 ≤ p.val ∧ busy = true ∧ s.basin.egress = [f] ∧ f.dest = p.val ∧ canSend s p = true ∧ (s.port p).next = none ∧ (s.port p).backoff = none ∧ isSet s (F.ETH_PLCASTAT_OK p) = false) ∧
    (∃ (p : Fin 24) (cd : Bool) (f : OutFrame) (met : Nat) (e : Nat) (s : State), live s = true ∧ cd = true ∧ 8 ≤ p.val ∧ (s.port p).sending = some ((f, met), e) ∧ s.now < e ∧ s.now + 800 * (f.bytes.length + 12) ≤ e + 51200 ∧ met < 15 ∧ isSet s (F.ETH_PLCASTAT_OK p) = false) ∧
    (∃ (p : Fin 24) (cd : Bool) (f : OutFrame) (met : Nat) (e : Nat) (s : State), live s = true ∧ cd = true ∧ 8 ≤ p.val ∧ (s.port p).sending = some ((f, met), e) ∧ s.now < e ∧ e + 51200 < s.now + 800 * (f.bytes.length + 12)) ∧
    (∃ (p : Fin 24) (cd : Bool) (f : OutFrame) (met : Nat) (e : Nat) (s : State), live s = true ∧ cd = true ∧ 8 ≤ p.val ∧ (s.port p).sending = some ((f, met), e) ∧ s.now < e ∧ s.now + 800 * (f.bytes.length + 12) ≤ e + 51200 ∧ met < 15 ∧ isSet s (F.ETH_PLCASTAT_OK p) = true ∧ (s.port p).deferred = true) ∧
    (∃ (p : Fin 24) (cd : Bool) (s : State), live s = true ∧ cd = false) :=
  ⟨⟨5, List.replicate 12 1 ++ [0x12, 0x34] ++ List.replicate 50 0, true, true, 0, setF (F.ETH_CTL_EN 5) 1 (setF (F.ETH_STATUS_LINK 5) 1 State.reset), by decide +kernel⟩,
   ⟨5, List.replicate 60 1, false, true, 0, setF (F.ETH_CTL_EN 5) 1 (setF (F.ETH_STATUS_LINK 5) 1 State.reset), by decide +kernel⟩,
   ⟨5, true, { dest := 5, src := 1, cls := 3, stamp := 0, bytes := List.replicate 12 1 ++ [0x12, 0x34] ++ List.replicate 50 0 }, modBasin (fun b => { b with egress := [{ dest := 5, src := 1, cls := 3, stamp := 0, bytes := List.replicate 12 1 ++ [0x12, 0x34] ++ List.replicate 50 0 }] }) (setF (F.ETH_STATUS_LSTATE 5) 2 (setF (F.ETH_CTL_EN 5) 1 (setF (F.ETH_STATUS_LINK 5) 1 State.reset))), by decide +kernel⟩,
   ⟨15, true, { dest := 15, src := 1, cls := 3, stamp := 0, bytes := List.replicate 60 0 }, modBasin (fun b => { b with egress := [{ dest := 15, src := 1, cls := 3, stamp := 0, bytes := List.replicate 60 0 }] }) (setF (F.ETH_CTL_EN 15) 1 (setF (F.ETH_STATUS_LINK 15) 1 State.reset)), by decide +kernel⟩,
   ⟨15, true, { dest := 15, src := 1, cls := 3, stamp := 0, bytes := List.replicate 60 0 }, 0, 9999, modPort 15 (fun k => { k with sending := some (({ dest := 15, src := 1, cls := 3, stamp := 0, bytes := List.replicate 60 0 }, 0), 9999) }) State.reset, by decide +kernel⟩,
   ⟨15, true, { dest := 15, src := 1, cls := 3, stamp := 0, bytes := List.replicate 60 0 }, 0, 10000, { modPort 15 (fun k => { k with sending := some (({ dest := 15, src := 1, cls := 3, stamp := 0, bytes := List.replicate 60 0 }, 0), 10000) }) State.reset with now := 9000 }, by decide +kernel⟩,
   ⟨15, true, { dest := 15, src := 1, cls := 3, stamp := 0, bytes := List.replicate 60 0 }, 0, 9999, setF (F.ETH_PLCASTAT_OK 15) 1 (modPort 15 (fun k => { k with next := some ({ dest := 15, src := 1, cls := 3, stamp := 0, bytes := List.replicate 60 0 }, 0), deferred := true, sending := some (({ dest := 15, src := 1, cls := 3, stamp := 0, bytes := List.replicate 60 0 }, 0), 9999) }) State.reset), by decide +kernel⟩,
   ⟨15, false, State.reset, by decide +kernel⟩⟩

/-- States and operands that meet the hypotheses of EthernetFrames. -/
theorem witness_EthernetFrames_2 :
    (∃ (p : Fin 24) (busy : Bool) (f : OutFrame) (met : Nat) (h : Nat) (s : State), live s = true ∧ busy = false ∧ (s.port p).backoff = some h ∧ (s.port p).next = some (f, met) ∧ h ≤ s.now ∧ (s.port p).gapEnd ≤ s.now ∧ isSet s (F.ETH_CTL_EN p) = true ∧ isSet s (F.ETH_STATUS_LINK p) = true ∧ lstate s p = 2 ∧ beNat (part f.bytes 12 2) = 0x1234) ∧
    (∃ (p : Fin 24) (busy : Bool) (f : OutFrame) (met : Nat) (h : Nat) (s : State), live s = true ∧ busy = true ∧ (s.port p).backoff = some h ∧ (s.port p).next = some (f, met) ∧ (s.port p).deferred = false ∧ h ≤ s.now ∧ isSet s (F.ETH_CTL_EN p) = true ∧ isSet s (F.ETH_STATUS_LINK p) = true) ∧
    (∃ (p : Fin 24) (s : State), live s = true ∧ coordinator s p = true ∧ isSet s (F.ETH_CTL_EN p) = true ∧ isSet s (F.ETH_STATUS_LINK p) = true ∧ usedUntil s p false ≤ s.now ∧ getF s (F.ETH_PLCA_NODECNT p) ≤ (s.port p).turn ∧ lstate s p ≠ 5) ∧
    (∃ (p : Fin 24) (node : Fin 256) (s : State), live s = true ∧ 8 ≤ p.val ∧ turnComes s p node = true ∧ node.val ≠ getF s (F.ETH_PLCA_NODEID p) ∧ (s.port p).sending = none) ∧
    (∃ (p : Fin 24) (node : Fin 256) (f : OutFrame) (s : State), live s = true ∧ 8 ≤ p.val ∧ turnComes s p node = true ∧ node.val = getF s (F.ETH_PLCA_NODEID p) ∧ (s.port p).sending = none ∧ (s.port p).next = none ∧ isSet s (F.ETH_STATUS_LINK p) = true ∧ lstate s p = 2 ∧ s.basin.egress = [f] ∧ f.dest = p.val ∧ beNat (part f.bytes 12 2) = 0x1234) ∧
    (∃ (p : Fin 24) (node : Fin 256) (s : State), live s = true ∧ (s.port p).sending = none ∧ turnComes s p node = false) ∧
    (∃ (p : Fin 24) (s : State), live s = true ∧ 8 ≤ p.val ∧ isSet s (F.ETH_PLCASTAT_OK p) = true ∧ coordinator s p = false ∧ (s.port p).beacon + 1000 * getF s (F.ETH_PLCATMR_BCNTMO p) ≤ s.now ∧ merges s (A.ETH_EVT p) 4 = false) ∧
    (∃ (p : Fin 24) (s : State), live s = true ∧ 8 ≤ p.val ∧ isSet s (F.ETH_CTL_EN p) = true ∧ isSet s (F.ETH_CTL_PLCAEN p) = true ∧ getF s (F.ETH_PLCA_NODEID p) ≠ 0 ∧ isSet s (F.ETH_PLCASTAT_OK p) = false ∧ merges s (A.ETH_EVT p) 4 = false) :=
  ⟨⟨15, false, { dest := 15, src := 1, cls := 3, stamp := 0, bytes := List.replicate 12 1 ++ [0x12, 0x34] ++ List.replicate 50 0 }, 2, 0, modPort 15 (fun k => { k with backoff := some 0, next := some ({ dest := 15, src := 1, cls := 3, stamp := 0, bytes := List.replicate 12 1 ++ [0x12, 0x34] ++ List.replicate 50 0 }, 2) }) (setF (F.ETH_STATUS_LSTATE 15) 2 (setF (F.ETH_CTL_EN 15) 1 (setF (F.ETH_STATUS_LINK 15) 1 State.reset))), by decide +kernel⟩,
   ⟨15, true, { dest := 15, src := 1, cls := 3, stamp := 0, bytes := List.replicate 60 0 }, 2, 0, modPort 15 (fun k => { k with backoff := some 0, next := some ({ dest := 15, src := 1, cls := 3, stamp := 0, bytes := List.replicate 60 0 }, 2) }) (setF (F.ETH_STATUS_LSTATE 15) 2 (setF (F.ETH_CTL_EN 15) 1 (setF (F.ETH_STATUS_LINK 15) 1 State.reset))), by decide +kernel⟩,
   ⟨15, modPort 15 (fun k => { k with turn := 256 }) (setF (F.ETH_PLCA_NODEID 15) 0 (setF (F.ETH_CTL_PLCAEN 15) 1 (setF (F.ETH_CTL_EN 15) 1 (setF (F.ETH_STATUS_LINK 15) 1 State.reset)))), by decide +kernel⟩,
   ⟨15, 7, modPort 15 (fun k => { k with turn := 7 }) (setF (F.ETH_PLCA_NODEID 15) 3 (setF (F.ETH_PLCASTAT_OK 15) 1 State.reset)), by decide +kernel⟩,
   ⟨15, 7, { dest := 15, src := 1, cls := 3, stamp := 0, bytes := List.replicate 12 1 ++ [0x12, 0x34] ++ List.replicate 50 0 }, modPort 15 (fun k => { k with turn := 7 }) (modBasin (fun b => { b with egress := [{ dest := 15, src := 1, cls := 3, stamp := 0, bytes := List.replicate 12 1 ++ [0x12, 0x34] ++ List.replicate 50 0 }] }) (setF (F.ETH_STATUS_LSTATE 15) 2 (setF (F.ETH_STATUS_LINK 15) 1 (setF (F.ETH_PLCA_NODEID 15) 7 (setF (F.ETH_PLCASTAT_OK 15) 1 State.reset))))), by decide +kernel⟩,
   ⟨15, 7, State.reset, by decide +kernel⟩,
   ⟨15, { setF (F.ETH_PLCASTAT_OK 15) 1 State.reset with now := 1000000000 }, by decide +kernel⟩,
   ⟨15, setF (F.ETH_PLCA_NODEID 15) 3 (setF (F.ETH_CTL_PLCAEN 15) 1 (setF (F.ETH_CTL_EN 15) 1 State.reset)), by decide +kernel⟩⟩

/-- States and operands that meet the hypotheses of EthernetFrames. -/
theorem witness_EthernetFrames_3 :
    (∃ (who : Who) (p : Fin 24) (tx : Bool) (e : Stamp) (s : State), live s = true ∧ tx = false ∧ (s.port p).rx = [e] ∧ (s.port p).tx = []) :=
  ⟨⟨49, true, none⟩, 15, false, { time := 0x123456789A, msg := 1, domain := 2, seqid := 3, lost := true }, modPort 15 (fun k => { k with rx := [{ time := 0x123456789A, msg := 1, domain := 2, seqid := 3, lost := true }] }) (setF (F.ETH_TSSTAT_RXCNT 15) 1 State.reset), by decide +kernel⟩

/-- States and operands that meet the hypotheses of TowpathCommands. -/
theorem witness_TowpathCommands_1 :
    (∃ (who : Who) (a : Fin 256) (s : State), live s = true ∧ isPriv s who = true ∧ isSet s F.TOW_CTL_EN = false ∧ getF s F.LKH_SBYSTAT_STATE = 0 ∧ entries s = [] ∧ unguarded s who = true) ∧
    (∃ (a : Fin 256) (s : State), live s = true ∧ towRuns s = true ∧ unsent s = [a.val] ∧ s.tow.start + txOff s a ≤ time s ∧ stnState s a = 1 ∧ (s.station a).seeded = true) ∧
    (∃ (f : OutFrame) (a : Fin 256) (s : State), live s = true ∧ s.tow.inbox = [f] ∧ towRuns s = true ∧ (readTow f).type = 4 ∧ (readTow f).addr = a.val ∧ replyCause s (readTow f) = 0 ∧ stnState s a = 2 ∧ (readTow f).len = 2 ∧ (readTow f).payload.length = 2 ∧ inLen s a = 2 ∧ inOff s a = 0x100 ∧ s.scan.sources = [(0x100, 0x102, 52)] ∧ s.brg.sems = Vector.replicate 32 none) ∧
    (∃ (f : OutFrame) (a : Fin 256) (s : State), live s = true ∧ s.tow.inbox = [f] ∧ towRuns s = true ∧ (readTow f).type = 4 ∧ (readTow f).addr = a.val ∧ replyCause s (readTow f) = 4 ∧ merges s A.TOW_EVT 4 = false) ∧
    (∃ (a : Fin 256) (s : State), live s = true ∧ calm s s = true ∧ towRuns s = true ∧ due s a = true ∧ (s.station a).decided = false ∧ s.tow.start + rdl s a ≤ time s ∧ (s.station a).got = none ∧ stnState s a = 2 ∧ sched s a 0 10 4 = 3) ∧
    (∃ (f : OutFrame) (a : Fin 256) (uid : Nat) (s : State), live s = true ∧ s.tow.inbox = [f] ∧ towRuns s = true ∧ (readTow f).type = 5 ∧ (readTow f).sound s = true ∧ (readTow f).cycle = towCount s % 2 ^ 32 ∧ (readTow f).flags = 0 ∧ (readTow f).addr = a.val ∧ beNat (part (readTow f).payload 0 8) = uid ∧ claimReason s a (readTow f) uid = 0 ∧ inLen s a = 0) ∧
    (∃ (who : Who) (a : Fin 256) (s : State), live s = true ∧ isPriv s who = true ∧ getF s F.TOW_STATUS_STATE ≠ 0 ∧ entryValid s a = true ∧ stnState s a = 4 ∧ inLen s a = 0 ∧ unguarded s who = true) ∧
    (∃ (who : Who) (a : Fin 256) (s : State), live s = true ∧ isPriv s who = true ∧ getF s F.TOW_STATUS_STATE ≠ 0 ∧ isSet s (F.TOW_STN_BOUND a) = true ∧ stnState s a = 2 ∧ unguarded s who = true) :=
  ⟨⟨⟨49, true, none⟩, 200, State.reset, by decide +kernel⟩,
   ⟨7, modStn 7 (fun x => { x with consec := 65535, seeded := true }) (setF F.TOW_STATUS_STATE 1 (setF (F.TOW_STN_STATE 7) 1 (setF (F.TOW_PORT_CFG_EN 3) 1 (wr 0x600810E0 0x83000C00 State.reset)))), by decide +kernel⟩,
   ⟨{ dest := 34, src := 3, cls := 7, stamp := 0, bytes := List.replicate 14 0 ++ towBody 0 4 7 0x11 0 5 [0xAB, 0xCD] }, 7, modTow (fun b => { b with inbox := [{ dest := 34, src := 3, cls := 7, stamp := 0, bytes := List.replicate 14 0 ++ towBody 0 4 7 0x11 0 5 [0xAB, 0xCD] }] }) (modScan (fun c => { c with sources := [(0x100, 0x102, 52)] }) (modStn 7 (fun x => { x with consec := 5, seeded := true, sent := true }) (setF F.TOW_STATUS_STATE 1 (setF (F.TOW_STN_STATE 7) 2 (setF (F.TOW_PORT_CFG_EN 3) 1 (wr 0x600810E0 0x83000C00 (wr 0x600810E8 0x02000000 (wr 0x600810EC 0x100 { State.reset with mem := [(0x300C0040, 0xFF)] })))))))), by decide +kernel⟩,
   ⟨{ dest := 34, src := 3, cls := 7, stamp := 0, bytes := List.replicate 14 0 ++ towBody 0 4 7 0x11 0 6 [0xAB, 0xCD] }, 7, modTow (fun b => { b with inbox := [{ dest := 34, src := 3, cls := 7, stamp := 0, bytes := List.replicate 14 0 ++ towBody 0 4 7 0x11 0 6 [0xAB, 0xCD] }] }) (modStn 7 (fun x => { x with consec := 5, seeded := true, sent := true }) (setF F.TOW_STATUS_STATE 1 (setF (F.TOW_STN_STATE 7) 2 (setF (F.TOW_PORT_CFG_EN 3) 1 (wr 0x600810E0 0x83000C00 (wr 0x600810E8 0x02000000 (wr 0x600810EC 0x100 State.reset))))))), by decide +kernel⟩,
   ⟨7, setF F.TOW_STATUS_STATE 1 (setF (F.TOW_STN_STATE 7) 2 (setF (F.TOW_PORT_CFG_EN 3) 1 (wr 0x600810E0 0x83000C00 State.reset))), by decide +kernel⟩,
   ⟨{ dest := 34, src := 3, cls := 7, stamp := 0, bytes := List.replicate 14 0 ++ towBody 0 5 9 0 0 0 (beBytes 8 0x1234 ++ List.replicate 12 0) }, 9, 0x1234, modTow (fun b => { b with inbox := [{ dest := 34, src := 3, cls := 7, stamp := 0, bytes := List.replicate 14 0 ++ towBody 0 5 9 0 0 0 (beBytes 8 0x1234 ++ List.replicate 12 0) }] }) (setF F.TOW_STATUS_STATE 1 (setF (F.TOW_STN_STATE 9) 6 (wr 0x60081120 0xC3000C00 State.reset))), by decide +kernel⟩,
   ⟨⟨49, true, none⟩, 7, setF F.TOW_STATUS_STATE 1 (setF (F.TOW_STN_STATE 7) 4 (wr 0x600810E0 0x83000C00 State.reset)), by decide +kernel⟩,
   ⟨⟨49, true, none⟩, 7, setF F.TOW_STATUS_STATE 1 (setF (F.TOW_STN_BOUND 7) 1 (setF (F.TOW_STN_STATE 7) 2 (wr 0x600810E0 0xC3000C00 State.reset))), by decide +kernel⟩⟩

/-- States and operands that meet the hypotheses of TowpathCommands. -/
theorem witness_TowpathCommands_2 :
    (∃ (f : OutFrame) (a : Fin 256) (s : State), live s = true ∧ s.tow.inbox = [f] ∧ towSilent s = true ∧ (readTow f).type = 2 ∧ (readTow f).addr = a.val ∧ (readTow f).sound s = true ∧ towCount s < 2 ^ 32 ∧ towCount s ≤ (readTow f).cycle ∧ (readTow f).cycle < 2 ^ 32) :=
  ⟨{ dest := 34, src := 3, cls := 7, stamp := 0, bytes := List.replicate 14 0 ++ towBody 0 2 7 0 99 5 [] }, 7, modTow (fun b => { b with inbox := [{ dest := 34, src := 3, cls := 7, stamp := 0, bytes := List.replicate 14 0 ++ towBody 0 2 7 0 99 5 [] }] }) (setF F.TOW_STATUS_STATE 2 State.reset), by decide +kernel⟩

/-- States and operands that meet the hypotheses of CanCommands. -/
theorem witness_CanCommands_1 :
    (∃ (n : Fin 8) (f : CanFrame) (ago : Nat) (m : Fin 5) (s : State), live s = true ∧ calm s s = true ∧ isSet s (F.CAN_STATUS_ACT n) = true ∧ (s.canp n).mode = 0 ∧ f.fd = false ∧ getF s (F.CAN_STATUS_REC n) = 0 ∧ slotMatches s n f = [] ∧ getF s (F.CAN_RXSTAT_STATE n) = 1 ∧ rd s (A.CAN_RXRING n) = 0x80000000#32 ∧ getF s (F.CAN_RXWP_INDEX n) = 0 ∧ getF s (F.CAN_RXRP_INDEX n) = 0 ∧ reachOf s 0 = m.val ∧ reachState s m = 0 ∧ getF s (F.RCH_PWR_PSTATE m) = 0 ∧ gateAdmits s m 0 54 = true ∧ ((List.range 9).all (fun q => foldCW s m (8 * q) == 8 * q) = true) ∧ s.brg.sems = Vector.replicate 32 none ∧ s.rot.fill = none ∧ s.pair.track = none ∧ s.ecc = [] ∧ (s.canp n).lost = false) ∧
    (∃ (n : Fin 8) (kk : Fin 8) (h : Nat) (s : State), live s = true ∧ vget (s.canp n).hit kk = some h ∧ isSet s (F.CAN_IMG_ID_EN n kk) = true ∧ getF s (F.CAN_IMG_DST_AGE n kk) ≠ 0 ∧ h + 1000000 * getF s (F.CAN_IMG_DST_AGE n kk) ≤ s.now ∧ slotRange s n kk = (0x100, 1) ∧ sourceOf s 0x100 = some 54) ∧
    (∃ (who : Who) (n : Fin 8) (mask : BitVec 16) (s : State), live s = true ∧ isPriv s who = true ∧ mask = 1#16 ∧ getF s (F.CAN_TXPEND_BUF n) = 0 ∧ (s.canp n).on = true ∧ unguarded s who = true) ∧
    (∃ (who : Who) (n : Fin 8) (mask : BitVec 16) (s : State), live s = true ∧ isPriv s who = true ∧ mask = 1#16 ∧ getF s (F.CAN_TXPEND_BUF n) = 0 ∧ (s.canp n).on = false ∧ unguarded s who = true) ∧
    (∃ (who : Who) (n : Fin 8) (mask : BitVec 16) (s : State), live s = true ∧ isPriv s who = true ∧ mask = 0x8000#16 ∧ isSet s ⟨A.CAN_TXPEND n, 15, 1⟩ = true ∧ (s.canp n).chosen = none ∧ unguarded s who = true) ∧
    (∃ (n : Fin 8) (r : TxResult) (ago : Nat) (tdcv : Nat) (b : Fin 16) (s : State), live s = true ∧ calm s s = true ∧ r = .begun ∧ maySend s n = true ∧ getF s (F.CAN_TXPEND_BUF n) = 2 ^ b.val ∧ (txFrame s n b).fd = false) ∧
    (∃ (n : Fin 8) (r : TxResult) (ago : Nat) (tdcv : Nat) (b : Fin 16) (c : Fin 16) (s : State), live s = true ∧ calm s s = true ∧ r = .begun ∧ maySend s n = true ∧ b ≠ c ∧ getF s (F.CAN_TXPEND_BUF n) = 2 ^ b.val + 2 ^ c.val ∧ (txFrame s n b).fd = false ∧ (txFrame s n c).fd = false ∧ arbKey (rd s (A.CAN_TXBUF n b)).toNat < arbKey (rd s (A.CAN_TXBUF n c)).toNat) ∧
    (∃ (n : Fin 8) (r : TxResult) (ago : Nat) (tdcv : Nat) (b : Fin 16) (s : State), live s = true ∧ calm s s = true ∧ r = .lostArb ∧ (s.canp n).chosen = some b.val ∧ (s.canp n).cancel = false ∧ bitAt (rd s (A.CAN_TXBUF n b + 4)).toNat 25 = false) :=
  ⟨⟨7, { w0 := 0x00040000#32, w1 := 0x20000000#32, data := [0x11, 0x22] }, 5, 0, setF (F.CAN_STATUS_ACT 7) 1 (setF (F.CAN_RXSTAT_STATE 7) 1 (wr (A.CAN_RXRING 7) 0x80000000 (setReachState 0 0 (setF (F.RCH_GATE_MODE 0 0) 2 (setF (F.RCH_GATE_OWNER 0 0) 54 (wr A.LKH_ROLEMAP 0x00043210 State.reset)))))), by decide +kernel⟩,
   ⟨7, 7, 5, { modScan (fun c => { c with sources := [(0x100, 0x102, 54)] }) (modCan 7 (fun c => { c with hit := vset c.hit 7 (some 5) }) (setF (F.CAN_IMG_DST_INOFF 7 7) 0x100 (setF (F.CAN_IMG_DST_AGE 7 7) 3 (setF (F.CAN_IMG_ID_EN 7 7) 1 State.reset)))) with now := 3000005 }, by decide +kernel⟩,
   ⟨⟨49, true, none⟩, 7, 1#16, modCan 7 (fun c => { c with on := true }) State.reset, by decide +kernel⟩,
   ⟨⟨49, true, none⟩, 7, 1#16, State.reset, by decide +kernel⟩,
   ⟨⟨49, true, none⟩, 7, 0x8000#16, setF ⟨A.CAN_TXPEND 7, 15, 1⟩ 1 State.reset, by decide +kernel⟩,
   ⟨7, .begun, 0, 0, 15, setF (F.CAN_STATUS_ACT 7) 1 (setF (F.CAN_CTL_EN 7) 1 (setF (F.CAN_TXPEND_BUF 7) 0x8000 State.reset)), by decide +kernel⟩,
   ⟨7, .begun, 0, 0, 15, 3, setF (F.CAN_STATUS_ACT 7) 1 (setF (F.CAN_CTL_EN 7) 1 (setF (F.CAN_TXPEND_BUF 7) 0x8008 (wr (A.CAN_TXBUF 7 3) 0x00080000 State.reset))), by decide +kernel⟩,
   ⟨7, .lostArb, 0, 0, 15, modCan 7 (fun c => { c with chosen := some 15 }) (setF ⟨A.CAN_TXPEND 7, 15, 1⟩ 1 State.reset), by decide +kernel⟩⟩

/-- States and operands that meet the hypotheses of CanCommands. -/
theorem witness_CanCommands_2 :
    (∃ (n : Fin 8) (r : TxResult) (ago : Nat) (tdcv : Nat) (b : Fin 16) (s : State), live s = true ∧ calm s s = true ∧ r = .sent ∧ (s.canp n).chosen = some b.val ∧ (s.canp n).cancel = false ∧ (s.canp n).mode = 0 ∧ isSet s (F.CAN_CTL_SELFRX n) = false ∧ getF s (F.CAN_CTL_MODE n) ≠ 0 ∧ (txFrame s n b).fd = false ∧ estate s n = 0 ∧ getF s (F.CAN_STATUS_REC n) ≤ 127 ∧ getF s (F.CAN_STATUS_TEC n) ≤ 127) ∧
    (∃ (n : Fin 8) (kind : Fin 8) (data : Bool) (place : CanErrAt) (runs : Nat) (s : State), live s = true ∧ isSet s (F.CAN_STATUS_ACT n) = true ∧ kind.val = 6 ∧ place = .frame ∧ runs = 0 ∧ (s.canp n).mode = 0 ∧ (s.canp n).chosen = none ∧ estate s n = 0 ∧ getF s (F.CAN_STATUS_TEC n) ≤ 127 ∧ getF s (F.CAN_STATUS_REC n) ≤ 126 ∧ merges s (A.CAN_EVT n) 0 = false) ∧
    (∃ (n : Fin 8) (kind : Fin 8) (data : Bool) (place : CanErrAt) (runs : Nat) (b : Nat) (s : State), live s = true ∧ isSet s (F.CAN_STATUS_ACT n) = true ∧ kind.val = 4 ∧ place = .frame ∧ (s.canp n).mode = 0 ∧ (s.canp n).chosen = some b ∧ estate s n = 0 ∧ getF s (F.CAN_STATUS_TEC n) + 8 + 8 * runs ≤ 127 ∧ getF s (F.CAN_STATUS_REC n) ≤ 127 ∧ merges s (A.CAN_EVT n) 0 = false) ∧
    (∃ (n : Fin 8) (kind : Fin 8) (data : Bool) (place : CanErrAt) (runs : Nat) (s : State), live s = true ∧ isSet s (F.CAN_STATUS_ACT n) = true ∧ 1 ≤ kind.val ∧ kind.val ≤ 6 ∧ ((s.canp n).mode = 1 ∨ (s.canp n).mode = 2) ∧ merges s (A.CAN_EVT n) 0 = false) ∧
    (∃ (n : Fin 8) (s : State), live s = true ∧ estate s n = 3 ∧ (s.canp n).on = true ∧ getF s (F.CAN_TXPEND_BUF n) = 0 ∧ merges s (A.CAN_EVT n) 6 = false ∧ merges s (A.CAN_EVT n) 1 = false) ∧
    (∃ (who : Who) (n : Fin 8) (s : State), live s = true ∧ isPriv s who = true ∧ estate s n = 2 ∧ merges s (A.CAN_EVT n) 1 = false ∧ unguarded s who = true) ∧
    (∃ (n : Fin 8) (s : State), live s = true ∧ isSet s (F.CAN_STATUS_ACT n) = true ∧ merges s (A.CAN_EVT n) 5 = false) ∧
    (∃ (who : Who) (n : Fin 8) (s : State), live s = true ∧ isPriv s who = true ∧ isSet s (F.CAN_CTL_EN n) = false ∧ estate s n = 0 ∧ unguarded s who = true) :=
  ⟨⟨7, .sent, 0, 0, 15, modCan 7 (fun c => { c with chosen := some 15 }) (setF (F.CAN_STATUS_TEC 7) 8 (setF (F.CAN_CTL_MODE 7) 1 (setF ⟨A.CAN_TXPEND 7, 15, 1⟩ 1 State.reset))), by decide +kernel⟩,
   ⟨7, 6, true, .frame, 0, setF (F.CAN_STATUS_ACT 7) 1 State.reset, by decide +kernel⟩,
   ⟨7, 4, false, .frame, 2, 3, modCan 7 (fun c => { c with chosen := some 3 }) (setF (F.CAN_STATUS_ACT 7) 1 State.reset), by decide +kernel⟩,
   ⟨7, 1, false, .flag, 1, modCan 7 (fun c => { c with mode := 2 }) (setF (F.CAN_STATUS_ACT 7) 1 State.reset), by decide +kernel⟩,
   ⟨7, modCan 7 (fun c => { c with on := true }) (setF (F.CAN_STATUS_ESTATE 7) 3 State.reset), by decide +kernel⟩,
   ⟨⟨49, true, none⟩, 7, setF (F.CAN_STATUS_ESTATE 7) 2 State.reset, by decide +kernel⟩,
   ⟨0, setF (F.CAN_STATUS_ACT 0) 1 State.reset, by decide +kernel⟩,
   ⟨⟨49, true, none⟩, 0, setF (F.CAN_STATUS_TEC 0) 9 State.reset, by decide +kernel⟩⟩

/-- States and operands that meet the hypotheses of CanCommands. -/
theorem witness_CanCommands_3 :
    (∃ (n : Fin 8) (s : State), live s = true ∧ isSet s (F.CAN_CTL_EN n) = false ∧ (s.canp n).on = true ∧ (s.canp n).chosen = none ∧ getF s (F.CAN_TXPEND_BUF n) = 0 ∧ ((List.range 8).all (fun q => !isSet s (F.CAN_IMG_ID_EN n q)) = true)) ∧
    (∃ (n : Fin 8) (s : State), live s = true ∧ (s.canp n).chosen = none ∧ getF s (F.CAN_TXPEND_BUF n) = 0) ∧
    (∃ (who : Who) (n : Fin 8) (s : State), live s = true ∧ isPriv s who = true ∧ ((List.range 32).all (fun u => unitMode s u != 3) = true) ∧ unguarded s who = true) ∧
    (∃ (n : Fin 8) (u : Fin 32) (s : State), live s = true ∧ (s.canp n).passed = true ∧ (rd s (A.CAN_TSC n)).toNat % 2 ^ (getF s (F.CAN_TSCFG_XPER n) + 16) = 0 ∧ at32 s.tmb.capAt u ≠ s.now + 1 ∧ sliceRunning s ≠ some (80 + u.val / 4) ∧ ((List.range 32).filter (fun u => unitMode s u == 3 && getF s (F.TMB_UNIT_CTL_SRC u) == 64 + n.val) = [u.val]) ∧ isSet s (F.TMB_UNIT_STAT_VALID u) = false ∧ isSet s (F.TMB_UNIT_CTL_DLKP u) = false ∧ time s < 2 ^ 63) ∧
    (∃ (n : Fin 8) (s : State), live s = true ∧ (s.canp n).passed = false) ∧
    (∃ (n : Fin 8) (s : State), live s = true ∧ (s.canp n).on = true ∧ estate s n < 2 ∧ isSet s (F.CAN_STATUS_ACT n) = false ∧ getF s (F.CAN_TXPEND_BUF n) = 0) :=
  ⟨⟨5, modCan 5 (fun c => { c with on := true }) (setF (F.CAN_STATUS_ACT 5) 1 State.reset), by decide +kernel⟩,
   ⟨5, setF (F.CAN_CTL_MODE 5) 2 State.reset, by decide +kernel⟩,
   ⟨⟨49, true, none⟩, 5, wr (A.CAN_TSC 5) 77 State.reset, by decide +kernel⟩,
   ⟨5, 31, modCan 5 (fun c => { c with passed := true }) (setF (F.TMB_UNIT_CTL_MODE 31) 3 (setF (F.TMB_UNIT_CTL_SRC 31) 69 State.reset)), by decide +kernel⟩,
   ⟨5, State.reset, by decide +kernel⟩,
   ⟨5, modCan 5 (fun c => { c with on := true }) State.reset, by decide +kernel⟩⟩

/-- States and operands that meet the hypotheses of BeetleInstructions. -/
theorem witness_BeetleInstructions_1 :
    (∃ (e : Fin 16) (ext : BitVec 64) (c : Fin 8) (a : Fin 48) (s : State), atWord e (0x1000 + 512 * c.val + a.val) s) ∧
    (∃ (e : Fin 16) (c : Fin 2) (a : Fin 48) (s : State), atWord e (0x2000 + 2048 * c.val + a.val) s) ∧
    (∃ (e : Fin 16) (ext : Word) (c : Fin 2) (m : Fin 32) (s : State), atWord e (0x3000 + 512 * c.val + 16 * m.val) s ∧ isSet s (engF F.BTL_ENG_SHCFG_FRAMEEN e) = false) ∧
    (∃ (e : Fin 16) (ext : Word) (c : Fin 2) (m : Fin 32) (s : State), atWord e (0x3400 + 512 * c.val + 16 * m.val) s ∧ isSet s (engF F.BTL_ENG_SHCFG_FRAMEEN e) = false ∧ (c = 0 ∨ (getF s (engF F.BTL_ENG_PINS_INPIN e) ≠ getF s (engF F.BTL_ENG_PINS_CLKPIN e) ∧ getF s (engF F.BTL_ENG_PINS_INPIN e) + 12 ≠ getF s (engF F.BTL_ENG_PINS_CLKPIN e)))) ∧
    (∃ (e : Fin 16) (ext : Word) (c : Fin 2) (m : Fin 32) (s : State), atWord e (0x3400 + 512 * c.val + 16 * m.val) s ∧ isSet s (engF F.BTL_ENG_SHCFG_FRAMEEN e) = true ∧ isSet s (engF F.BTL_ENG_SHCFG_RXEN e) = true ∧ isSet s (engF F.BTL_ENG_SHCFG_TXEN e) = false ∧ getF s (engF F.BTL_ENG_STAT_BC e) = 0 ∧ frameLen s e = m.val + 1 ∧ (s.engine e).rx.length < 4 ∧ (c = 0 ∨ (getF s (engF F.BTL_ENG_PINS_INPIN e) ≠ getF s (engF F.BTL_ENG_PINS_CLKPIN e) ∧ getF s (engF F.BTL_ENG_PINS_INPIN e) + 12 ≠ getF s (engF F.BTL_ENG_PINS_CLKPIN e)))) ∧
    (∃ (e : Fin 16) (ext : Word) (c : Fin 2) (m : Fin 32) (s : State), atWord e (0x3000 + 512 * c.val + 16 * m.val) s ∧ isSet s (engF F.BTL_ENG_SHCFG_FRAMEEN e) = true ∧ isSet s (engF F.BTL_ENG_SHCFG_RXEN e) = false ∧ isSet s (engF F.BTL_ENG_SHCFG_TXEN e) = true ∧ getF s (engF F.BTL_ENG_STAT_BC e) = 0 ∧ frameLen s e = m.val + 1 ∧ (s.engine e).tx = []) ∧
    (∃ (e : Fin 16) (ext : Word) (c : Fin 2) (m : Fin 32) (s : State), atWord e (0x3800 + 512 * c.val + 16 * m.val) s ∧ isSet s (engF F.BTL_ENG_SHCFG_FRAMEEN e) = false ∧ getF s (engF F.BTL_ENG_PINS_INPIN e) ≠ getF s (engF F.BTL_ENG_PINS_OUTPIN e) ∧ getF s (engF F.BTL_ENG_PINS_INPIN e) + 12 ≠ getF s (engF F.BTL_ENG_PINS_OUTPIN e) ∧ (c = 0 ∨ (getF s (engF F.BTL_ENG_PINS_INPIN e) ≠ getF s (engF F.BTL_ENG_PINS_CLKPIN e) ∧ getF s (engF F.BTL_ENG_PINS_INPIN e) + 12 ≠ getF s (engF F.BTL_ENG_PINS_CLKPIN e)))) ∧
    (∃ (e : Fin 16) (mask : BitVec 5) (value : BitVec 5) (s : State), atWord e (0x4000 + 32 * mask.toNat + value.toNat) s) :=
  ⟨⟨11, 0x10, 5, 47, modEng 11 (fun x => { x with next := 5 }) (setF (F.BTL_STORE_INSTR 1 5) (0x1000 + 512 * (5) + (47)) (setEngState 11 1 (setF F.SYS_CLKSTAT_BTLLOCK 1 State.reset))), by unfold atWord; decide +kernel⟩,
   ⟨11, 1, 9, modEng 11 (fun x => { x with next := 5 }) (setF (F.BTL_STORE_INSTR 1 5) (0x2000 + 2048 * (1) + (9)) (setEngState 11 1 (setF F.SYS_CLKSTAT_BTLLOCK 1 State.reset))), by unfold atWord; decide +kernel⟩,
   ⟨11, 0, 1, 31, modEng 11 (fun x => { x with next := 5, sr := 0x80000001#32 }) (setF (F.BTL_STORE_INSTR 1 5) (0x3000 + 512 * (1) + 16 * (31)) (setEngState 11 1 (setF F.SYS_CLKSTAT_BTLLOCK 1 (setF (F.BTL_ENG_PINS_CLKPIN 1 3) 9 State.reset)))), by unfold atWord; decide +kernel⟩,
   ⟨11, 0xA5, 0, 7, modEng 11 (fun x => { x with next := 5 }) (setF (F.BTL_STORE_INSTR 1 5) (0x3400 + 512 * (0) + 16 * (7)) (setEngState 11 1 (setF F.SYS_CLKSTAT_BTLLOCK 1 State.reset))), by unfold atWord; decide +kernel⟩,
   ⟨11, 0xA5, 0, 7, modEng 11 (fun x => { x with next := 5 }) (setF (F.BTL_STORE_INSTR 1 5) (0x3400 + 512 * (0) + 16 * (7)) (setEngState 11 1 (setF F.SYS_CLKSTAT_BTLLOCK 1 (setF (F.BTL_ENG_SHCFG_FRAMEEN 1 3) 1 (setF (F.BTL_ENG_SHCFG_RXEN 1 3) 1 (setF (F.BTL_ENG_SHCFG_FRAMELEN 1 3) 8 State.reset)))))), by unfold atWord; decide +kernel⟩,
   ⟨11, 0, 0, 7, modEng 11 (fun x => { x with next := 5 }) (setF (F.BTL_STORE_INSTR 1 5) (0x3000 + 512 * (0) + 16 * (7)) (setEngState 11 1 (setF F.SYS_CLKSTAT_BTLLOCK 1 (setF (F.BTL_ENG_SHCFG_FRAMEEN 1 3) 1 (setF (F.BTL_ENG_SHCFG_TXEN 1 3) 1 (setF (F.BTL_ENG_SHCFG_FRAMELEN 1 3) 8 State.reset)))))), by unfold atWord; decide +kernel⟩,
   ⟨11, 0xA5, 1, 7, modEng 11 (fun x => { x with next := 5 }) (setF (F.BTL_STORE_INSTR 1 5) (0x3800 + 512 * (1) + 16 * (7)) (setEngState 11 1 (setF F.SYS_CLKSTAT_BTLLOCK 1 (wr (A.BTL_ENG_PINS 1 3) 0x05083000 State.reset)))), by unfold atWord; decide +kernel⟩,
   ⟨11, 19#5, 17#5, modEng 11 (fun x => { x with next := 5 }) (setF (F.BTL_STORE_INSTR 1 5) (0x4000 + 32 * (19#5).toNat + (17#5).toNat) (setEngState 11 1 (setF F.SYS_CLKSTAT_BTLLOCK 1 (setF (F.BTL_ENG_CTL_SETCNT 1 3) 5 (setF (F.BTL_ENG_PINS_SETBASE 1 3) 61 State.reset))))), by unfold atWord; decide +kernel⟩⟩

/-- States and operands that meet the hypotheses of BeetleInstructions. -/
theorem witness_BeetleInstructions_2 :
    (∃ (e : Fin 16) (mask : BitVec 5) (value : BitVec 5) (s : State), atWord e (0x4800 + 32 * mask.toNat + value.toNat) s) ∧
    (∃ (e : Fin 16) (ext : BitVec 64) (pol : Bool) (p : Fin 64) (s : State), atWord e (0x5000 + 512 * bit pol + p.val) s) ∧
    (∃ (e : Fin 16) (ext : BitVec 64) (pol : Bool) (p : Fin 64) (s : State), atWord e (0x5400 + 512 * bit pol + p.val) s) ∧
    (∃ (e : Fin 16) (pol : Bool) (p : Fin 16) (s : State), atWord e (0x5800 + 512 * bit pol + p.val) s) ∧
    (∃ (e : Fin 16) (n : Fin 1024) (s : State), atWord e (0x5C00 + n.val) s) ∧
    (∃ (e : Fin 16) (c : Fin 2) (v : Word) (l : List Word) (s : State), atWord e (0x6000 + 1024 * c.val) s ∧ (s.engine e).tx = v :: l ∧ (s.engine e).tx.length ≤ 4 ∧ (s.engine e).rx.length ≤ 4) ∧
    (∃ (e : Fin 16) (c : Fin 2) (s : State), atWord e (0x6000 + 1024 * c.val) s ∧ (s.engine e).tx = []) ∧
    (∃ (e : Fin 16) (c : Fin 2) (s : State), atWord e (0x6800 + 1024 * c.val) s ∧ (s.engine e).rx.length < 4 ∧ getF s (engF F.BTL_ENG_STAT_BC e) ≤ 32) :=
  ⟨⟨11, 19#5, 17#5, modEng 11 (fun x => { x with next := 5 }) (setF (F.BTL_STORE_INSTR 1 5) (0x4800 + 32 * (19#5).toNat + (17#5).toNat) (setEngState 11 1 (setF F.SYS_CLKSTAT_BTLLOCK 1 (setF (F.BTL_ENG_CTL_SETCNT 1 3) 5 (setF (F.BTL_ENG_PINS_SETBASE 1 3) 61 State.reset))))), by unfold atWord; decide +kernel⟩,
   ⟨11, 0, true, 63, modEng 11 (fun x => { x with next := 5 }) (setF (F.BTL_STORE_INSTR 1 5) (0x5000 + 512 * bit (true) + (63)) (setEngState 11 1 (setF F.SYS_CLKSTAT_BTLLOCK 1 State.reset))), by unfold atWord; decide +kernel⟩,
   ⟨11, 0, true, 63, modEng 11 (fun x => { x with next := 5 }) (setF (F.BTL_STORE_INSTR 1 5) (0x5400 + 512 * bit (true) + (63)) (setEngState 11 1 (setF F.SYS_CLKSTAT_BTLLOCK 1 State.reset))), by unfold atWord; decide +kernel⟩,
   ⟨11, true, 15, modEng 11 (fun x => { x with next := 5 }) (setF (F.BTL_STORE_INSTR 1 5) (0x5800 + 512 * bit (true) + (15)) (setEngState 11 1 (setF F.SYS_CLKSTAT_BTLLOCK 1 State.reset))), by unfold atWord; decide +kernel⟩,
   ⟨11, 1023, modEng 11 (fun x => { x with next := 5 }) (setF (F.BTL_STORE_INSTR 1 5) (0x5C00 + (1023)) (setEngState 11 1 (setF F.SYS_CLKSTAT_BTLLOCK 1 (setF (F.BTL_ENG_CTL_DIV 1 3) 3 State.reset)))), by unfold atWord; decide +kernel⟩,
   ⟨11, 0, 0x55#32, [0x77#32], modEng 11 (fun x => { x with next := 5, tx := [0x55, 0x77] }) (setF (F.BTL_STORE_INSTR 1 5) (0x6000 + 1024 * (0)) (setEngState 11 1 (setF F.SYS_CLKSTAT_BTLLOCK 1 State.reset))), by unfold atWord; decide +kernel⟩,
   ⟨11, 0, modEng 11 (fun x => { x with next := 5 }) (setF (F.BTL_STORE_INSTR 1 5) (0x6000 + 1024 * (0)) (setEngState 11 1 (setF F.SYS_CLKSTAT_BTLLOCK 1 State.reset))), by unfold atWord; decide +kernel⟩,
   ⟨11, 1, modEng 11 (fun x => { x with next := 5, sr := 0xABCDEF01#32 }) (setF (F.BTL_STORE_INSTR 1 5) (0x6800 + 1024 * (1)) (setEngState 11 1 (setF F.SYS_CLKSTAT_BTLLOCK 1 (setF (F.BTL_ENG_STAT_BC 1 3) 8 State.reset)))), by unfold atWord; decide +kernel⟩⟩

/-- States and operands that meet the hypotheses of BeetleInstructions. -/
theorem witness_BeetleInstructions_3 :
    (∃ (e : Fin 16) (s : State), atWord e (0x6800) s ∧ 4 ≤ (s.engine e).rx.length) ∧
    (∃ (e : Fin 16) (s : State), atWord e (0x6C00) s ∧ 4 ≤ (s.engine e).rx.length ∧ merges s (A.BTL_EVT (e / 8)) (e % 8) = false) ∧
    (∃ (e : Fin 16) (s : State), atWord e (0x7000) s) ∧
    (∃ (e : Fin 16) (s : State), atWord e (0x7100) s) ∧
    (∃ (e : Fin 16) (s : State), atWord e (0x7200) s) ∧
    (∃ (e : Fin 16) (s : State), atWord e (0x7300) s) ∧
    (∃ (e : Fin 16) (s : State), atWord e (0x7400) s) ∧
    (∃ (e : Fin 16) (ext : BitVec 64) (s : State), atWord e (0x7500) s) :=
  ⟨⟨11, modEng 11 (fun x => { x with next := 5, rx := [1, 2, 3, 4] }) (setF (F.BTL_STORE_INSTR 1 5) (0x6800) (setEngState 11 1 (setF F.SYS_CLKSTAT_BTLLOCK 1 State.reset))), by unfold atWord; decide +kernel⟩,
   ⟨11, modEng 11 (fun x => { x with next := 5, rx := [1, 2, 3, 4] }) (setF (F.BTL_STORE_INSTR 1 5) (0x6C00) (setEngState 11 1 (setF F.SYS_CLKSTAT_BTLLOCK 1 State.reset))), by unfold atWord; decide +kernel⟩,
   ⟨11, modEng 11 (fun x => { x with next := 5, sr := 0x80000005#32 }) (setF (F.BTL_STORE_INSTR 1 5) (0x7000) (setEngState 11 1 (setF F.SYS_CLKSTAT_BTLLOCK 1 State.reset))), by unfold atWord; decide +kernel⟩,
   ⟨11, modEng 11 (fun x => { x with next := 5, sr := 0x80000005#32 }) (setF (F.BTL_STORE_INSTR 1 5) (0x7100) (setEngState 11 1 (setF F.SYS_CLKSTAT_BTLLOCK 1 State.reset))), by unfold atWord; decide +kernel⟩,
   ⟨11, modEng 11 (fun x => { x with next := 5, sr := 0x80000005#32 }) (setF (F.BTL_STORE_INSTR 1 5) (0x7200) (setEngState 11 1 (setF F.SYS_CLKSTAT_BTLLOCK 1 State.reset))), by unfold atWord; decide +kernel⟩,
   ⟨11, modEng 11 (fun x => { x with next := 5, sr := 0x80000005#32 }) (setF (F.BTL_STORE_INSTR 1 5) (0x7300) (setEngState 11 1 (setF F.SYS_CLKSTAT_BTLLOCK 1 State.reset))), by unfold atWord; decide +kernel⟩,
   ⟨11, modEng 11 (fun x => { x with next := 5, sr := 0x80000005#32 }) (setF (F.BTL_STORE_INSTR 1 5) (0x7400) (setEngState 11 1 (setF F.SYS_CLKSTAT_BTLLOCK 1 State.reset))), by unfold atWord; decide +kernel⟩,
   ⟨11, 0xA5, modEng 11 (fun x => { x with next := 5, sr := 0x80000005#32 }) (setF (F.BTL_STORE_INSTR 1 5) (0x7500) (setEngState 11 1 (setF F.SYS_CLKSTAT_BTLLOCK 1 State.reset))), by unfold atWord; decide +kernel⟩⟩

/-- States and operands that meet the hypotheses of BeetleInstructions. -/
theorem witness_BeetleInstructions_4 :
    (∃ (e : Fin 16) (s : State), atWord e (0x7600) s) ∧
    (∃ (e : Fin 16) (s : State), atWord e (0x7700) s) ∧
    (∃ (e : Fin 16) (s : State), atWord e (0x7800) s) ∧
    (∃ (e : Fin 16) (s : State), atWord e (0x7900) s) ∧
    (∃ (e : Fin 16) (c : Fin 2) (n : Fin 1024) (s : State), atWord e (0x8000 + 2048 * c.val + n.val) s) ∧
    (∃ (e : Fin 16) (p : Fin 16) (s : State), atWord e (0x9000 + p.val) s) ∧
    (∃ (e : Fin 16) (p : Fin 16) (s : State), atWord e (0x9400 + p.val) s) ∧
    (∃ (e : Fin 16) (p : Fin 16) (s : State), atWord e (0x9c00 + p.val) s) :=
  ⟨⟨11, modEng 11 (fun x => { x with next := 5, sr := 0x80000005#32 }) (setF (F.BTL_STORE_INSTR 1 5) (0x7600) (setEngState 11 1 (setF F.SYS_CLKSTAT_BTLLOCK 1 (setF (F.BTL_ENG_CTL_SETCNT 1 3) 5 State.reset)))), by unfold atWord; decide +kernel⟩,
   ⟨11, modEng 11 (fun x => { x with next := 5, sr := 0x80000005#32 }) (setF (F.BTL_STORE_INSTR 1 5) (0x7700) (setEngState 11 1 (setF F.SYS_CLKSTAT_BTLLOCK 1 State.reset))), by unfold atWord; decide +kernel⟩,
   ⟨11, modEng 11 (fun x => { x with next := 5, sr := 0x80000005#32 }) (setF (F.BTL_STORE_INSTR 1 5) (0x7800) (setEngState 11 1 (setF F.SYS_CLKSTAT_BTLLOCK 1 State.reset))), by unfold atWord; decide +kernel⟩,
   ⟨11, modEng 11 (fun x => { x with next := 5, sr := 0x80000005#32 }) (setF (F.BTL_STORE_INSTR 1 5) (0x7900) (setEngState 11 1 (setF F.SYS_CLKSTAT_BTLLOCK 1 State.reset))), by unfold atWord; decide +kernel⟩,
   ⟨11, 1, 1023, modEng 11 (fun x => { x with next := 5 }) (setF (F.BTL_STORE_INSTR 1 5) (0x8000 + 2048 * (1) + (1023)) (setEngState 11 1 (setF F.SYS_CLKSTAT_BTLLOCK 1 State.reset))), by unfold atWord; decide +kernel⟩,
   ⟨11, 15, modEng 11 (fun x => { x with next := 5 }) (setF (F.BTL_STORE_INSTR 1 5) (0x9000 + (15)) (setEngState 11 1 (setF F.SYS_CLKSTAT_BTLLOCK 1 State.reset))), by unfold atWord; decide +kernel⟩,
   ⟨11, 15, modEng 11 (fun x => { x with next := 5 }) (setF (F.BTL_STORE_INSTR 1 5) (0x9400 + (15)) (setEngState 11 1 (setF F.SYS_CLKSTAT_BTLLOCK 1 State.reset))), by unfold atWord; decide +kernel⟩,
   ⟨11, 15, modEng 11 (fun x => { x with next := 5 }) (setF (F.BTL_STORE_INSTR 1 5) (0x9c00 + (15)) (setEngState 11 1 (setF F.SYS_CLKSTAT_BTLLOCK 1 State.reset))), by unfold atWord; decide +kernel⟩⟩

/-- States and operands that meet the hypotheses of BeetleInstructions. -/
theorem witness_BeetleInstructions_5 :
    (∃ (e : Fin 16) (p : Fin 16) (s : State), atWord e (0x9800 + p.val) s) :=
  ⟨11, 0, modEng 11 (fun x => { x with next := 5 }) (setF (F.BTL_STORE_INSTR 1 5) (0x9800 + (0)) (setEngState 11 1 (setF F.SYS_CLKSTAT_BTLLOCK 1 State.reset))), by unfold atWord; decide +kernel⟩

/-- States and operands that meet the hypotheses of BeetleEnginesAndDma. -/
theorem witness_BeetleEnginesAndDma_1 :
    (∃ (who : Who) (e : Fin 16) (s : State), live s = true ∧ isPriv s who = true ∧ isSet s F.SYS_CLKSTAT_BTLLOCK = true ∧ isSet s ⟨A.BTL_CTL (e / 8), e % 8, 1⟩ = false ∧ unguarded s who = true) ∧
    (∃ (who : Who) (e : Fin 16) (s : State), live s = true ∧ isPriv s who = true ∧ isSet s F.SYS_CLKSTAT_BTLLOCK = false ∧ isSet s ⟨A.BTL_CTL (e / 8), e % 8, 1⟩ = false ∧ unguarded s who = true) ∧
    (∃ (who : Who) (e : Fin 16) (s : State), live s = true ∧ isPriv s who = true ∧ isSet s F.SYS_CLKSTAT_BTLLOCK = true ∧ isSet s ⟨A.BTL_CTL (e / 8), e % 8, 1⟩ = true ∧ isSet s (engF F.BTL_ENG_RXDMA_EN e) = false ∧ unguarded s who = true) ∧
    (∃ (who : Who) (e : Fin 16) (s : State), live s = true ∧ isPriv s who = true ∧ isSet s F.SYS_CLKSTAT_BTLLOCK = false ∧ isSet s ⟨A.BTL_CTL (e / 8), e % 8, 1⟩ = true ∧ unguarded s who = true) ∧
    (∃ (who : Who) (e : Fin 16) (s : State), live s = true ∧ isPriv s who = true ∧ isSet s F.SYS_CLKSTAT_BTLLOCK = true ∧ unguarded s who = true) ∧
    (∃ (who : Who) (e : Fin 16) (s : State), live s = true ∧ isPriv s who = true ∧ isSet s F.SYS_CLKSTAT_BTLLOCK = false ∧ unguarded s who = true) ∧
    (∃ (e : Fin 16) (ext : Word) (v : Word) (l : List Word) (s : State), live s = true ∧ engState s e = 2 ∧ isSet s F.SYS_CLKSTAT_BTLLOCK = true ∧ (s.engine e).giveDue = false ∧ (s.engine e).takeDue = true ∧ (s.engine e).tx = v :: l ∧ (s.engine e).instr / 4096 = 6 ∧ (s.engine e).tx.length ≤ 4 ∧ (s.engine e).rx.length ≤ 4) ∧
    (∃ (e : Fin 16) (ext : Word) (s : State), live s = true ∧ engState s e = 2 ∧ (s.engine e).giveDue = true ∧ 4 ≤ (s.engine e).rx.length) :=
  ⟨⟨⟨49, true, none⟩, 11, setF F.SYS_CLKSTAT_BTLLOCK 1 (wr (A.BTL_ENG_PINS 1 3) 0xC5183000 (setF (F.BTL_ENG_CTL_START 1 3) 7 State.reset)), by decide +kernel⟩,
   ⟨⟨49, true, none⟩, 11, wr (A.BTL_ENG_PINS 1 3) 0xC5183000 (setF (F.BTL_ENG_CTL_START 1 3) 7 State.reset), by decide +kernel⟩,
   ⟨⟨49, true, none⟩, 11, setF F.SYS_CLKSTAT_BTLLOCK 1 (modEng 11 (fun x => { x with tx := [1], rx := [2] }) (setEngState 11 2 (setF ⟨A.BTL_CTL 1, 3, 1⟩ 1 (setF (F.BTL_PIN_WRITER 0 9) 11 (setF (F.BTL_PIN_DIR 0 9) 1 State.reset))))), by decide +kernel⟩,
   ⟨⟨49, true, none⟩, 11, modEng 11 (fun x => { x with tx := [1], rx := [2] }) (setEngState 11 2 (setF ⟨A.BTL_CTL 1, 3, 1⟩ 1 (setF (F.BTL_PIN_WRITER 0 9) 11 (setF (F.BTL_PIN_DIR 0 9) 1 State.reset)))), by decide +kernel⟩,
   ⟨⟨49, true, none⟩, 11, setF F.SYS_CLKSTAT_BTLLOCK 1 (wr (A.BTL_ENG_PINS 1 3) 0xC5183000 (setF (F.BTL_ENG_CTL_START 1 3) 7 (setEngState 11 3 (setF (F.BTL_PIN_WRITER 0 9) 11 (setF (F.BTL_PIN_DIR 0 9) 1 State.reset))))), by decide +kernel⟩,
   ⟨⟨49, true, none⟩, 11, wr (A.BTL_ENG_PINS 1 3) 0xC5183000 (setF (F.BTL_ENG_CTL_START 1 3) 7 (setEngState 11 3 (setF (F.BTL_PIN_WRITER 0 9) 11 (setF (F.BTL_PIN_DIR 0 9) 1 State.reset)))), by decide +kernel⟩,
   ⟨11, 0, 5#32, [], modEng 11 (fun x => { x with tx := [5], takeDue := true, instr := 0x6000, next := 9 }) (setEngState 11 2 (setF F.SYS_CLKSTAT_BTLLOCK 1 State.reset)), by decide +kernel⟩,
   ⟨11, 0, modEng 11 (fun x => { x with rx := [5, 6, 7, 8], giveDue := true, instr := 0x6800, next := 9 }) (setEngState 11 2 (setF F.SYS_CLKSTAT_BTLLOCK 1 State.reset)), by decide +kernel⟩⟩

/-- States and operands that meet the hypotheses of BeetleEnginesAndDma. -/
theorem witness_BeetleEnginesAndDma_2 :
    (∃ (e : Fin 16) (ext : BitVec 64) (p : Fin 64) (pol : Bool) (s : State), live s = true ∧ (s.engine e).await = some (.level p pol) ∧ pinRead s p (ext.getLsbD p) = pol ∧ isSet s F.SYS_CLKSTAT_BTLLOCK = true) ∧
    (∃ (e : Fin 16) (ext : BitVec 64) (n : Nat) (s : State), live s = true ∧ (s.engine e).await = some (.until n) ∧ n ≤ s.now ∧ isSet s F.SYS_CLKSTAT_BTLLOCK = true) ∧
    (∃ (e : Fin 16) (ext : BitVec 64) (p : Fin 16) (pol : Bool) (s : State), live s = true ∧ (s.engine e).await = some (.flag p pol) ∧ isSet s ⟨A.BTL_FLAGS (e / 8), p.val, 1⟩ = pol ∧ isSet s F.SYS_CLKSTAT_BTLLOCK = true) ∧
    (∃ (e : Fin 16) (ext : BitVec 64) (n : Nat) (s : State), live s = true ∧ (s.engine e).await = some (.until n) ∧ s.now < n) ∧
    (∃ (e : Fin 16) (ext : BitVec 64) (p : Fin 64) (pol : Bool) (s : State), live s = true ∧ (s.engine e).await = some (.edge p pol false) ∧ isSet s F.SYS_CLKSTAT_BTLLOCK = true) ∧
    (∃ (who : Who) (e : Fin 16) (v : Word) (s : State), live s = true ∧ isPriv s who = true ∧ (s.engine e).tx.length < 4 ∧ (s.engine e).rx.length ≤ 4 ∧ unguarded s who = true) ∧
    (∃ (who : Who) (e : Fin 16) (v : Word) (s : State), live s = true ∧ isPriv s who = true ∧ 4 ≤ (s.engine e).tx.length ∧ merges s (A.BTL_EVT (e / 8)) (e % 8) = false ∧ unguarded s who = true) ∧
    (∃ (who : Who) (e : Fin 16) (v : Word) (l : List Word) (s : State), live s = true ∧ isPriv s who = true ∧ isSet s (engF F.BTL_ENG_RXDMA_EN e) = false ∧ (s.engine e).rx = v :: l ∧ (s.engine e).rx.length ≤ 4 ∧ (s.engine e).tx.length ≤ 4) :=
  ⟨⟨11, 0, 9, false, modEng 11 (fun x => { x with await := some (.level 9 false) }) (setEngState 11 1 (setF F.SYS_CLKSTAT_BTLLOCK 1 State.reset)), by decide +kernel⟩,
   ⟨11, 0, 0, modEng 11 (fun x => { x with await := some (.until 0) }) (setEngState 11 1 (setF F.SYS_CLKSTAT_BTLLOCK 1 State.reset)), by decide +kernel⟩,
   ⟨11, 0, 9, false, modEng 11 (fun x => { x with await := some (.flag 9 false) }) (setEngState 11 1 (setF F.SYS_CLKSTAT_BTLLOCK 1 State.reset)), by decide +kernel⟩,
   ⟨11, 0, 50, modEng 11 (fun x => { x with await := some (.until 50) }) (setEngState 11 1 (setF F.SYS_CLKSTAT_BTLLOCK 1 State.reset)), by decide +kernel⟩,
   ⟨11, 0x200, 9, true, modEng 11 (fun x => { x with await := some (.edge 9 true false) }) (setEngState 11 1 (setF F.SYS_CLKSTAT_BTLLOCK 1 State.reset)), by decide +kernel⟩,
   ⟨⟨49, true, none⟩, 11, 0x1234#32, State.reset, by decide +kernel⟩,
   ⟨⟨49, true, none⟩, 11, 0x1234#32, modEng 11 (fun x => { x with tx := [1, 2, 3, 4] }) State.reset, by decide +kernel⟩,
   ⟨⟨49, true, none⟩, 11, 5#32, [6#32], modEng 11 (fun x => { x with rx := [5, 6] }) State.reset, by decide +kernel⟩⟩

/-- States and operands that meet the hypotheses of BeetleEnginesAndDma. -/
theorem witness_BeetleEnginesAndDma_3 :
    (∃ (who : Who) (c : Fin 2) (a : Fin 48) (v : BitVec 16) (s : State), live s = true ∧ isPriv s who = true ∧ unguarded s who = true) ∧
    (∃ (who : Who) (c : Fin 2) (v : BitVec 16) (s : State), live s = true ∧ isPriv s who = true ∧ unguarded s who = true) ∧
    (∃ (e : Fin 16) (v : Word) (l : List Word) (s : State), live s = true ∧ isSet s (engF F.BTL_ENG_RXDMA_EN e) = true ∧ getF s (engF F.BTL_ENG_RXDMA_NWM1 e) = 0 ∧ (s.engine e).rx = v :: l ∧ (s.engine e).rx.length ≤ 4 ∧ (s.engine e).tx.length ≤ 4 ∧ getF s (engF F.BTL_ENG_RXDMA_INOFF e) = 0x100 ∧ (engState s e = 1 ∨ engState s e = 2) ∧ s.scan.sources = [(0x100, 0x104, 50 + e.val / 8)] ∧ s.brg.sems = Vector.replicate 32 none) ∧
    (∃ (e : Fin 16) (n : Nat) (s : State), live s = true ∧ isSet s (engF F.BTL_ENG_RXDMA_EN e) = true ∧ (s.engine e).batch = some n ∧ getF s (engF F.BTL_ENG_RXDMA_AGE e) ≠ 0 ∧ n + 1000000 * getF s (engF F.BTL_ENG_RXDMA_AGE e) ≤ s.now ∧ getF s (engF F.BTL_ENG_RXDMA_NWM1 e) = 0 ∧ getF s (engF F.BTL_ENG_RXDMA_INOFF e) = 0x100 ∧ s.scan.sources = [(0x100, 0x104, 50 + e.val / 8)]) ∧
    (∃ (e : Fin 16) (s : State), live s = true ∧ isSet s (engF F.BTL_ENG_TXDMA_EN e) = true ∧ (s.engine e).tx.length + (getF s (engF F.BTL_ENG_TXDMA_NWM1 e) + 1) ≤ 4 ∧ (s.engine e).rx.length ≤ 4 ∧ eccOf s (0x30020000 + getF s (engF F.BTL_ENG_TXDMA_OUTOFF e)) (4 * (getF s (engF F.BTL_ENG_TXDMA_NWM1 e) + 1)) ≠ 2) :=
  ⟨⟨⟨49, true, none⟩, 1, 47, 0xFFFF#16, State.reset, by decide +kernel⟩,
   ⟨⟨49, true, none⟩, 1, 0xFFFF#16, State.reset, by decide +kernel⟩,
   ⟨11, 0x55667788#32, [1#32], setF (engF F.BTL_ENG_STAT_STATE 11) 1 (modScan (fun c => { c with sources := [(0x100, 0x104, 51)] }) (modEng 11 (fun x => { x with rx := [0x55667788, 1] }) (wr (A.BTL_ENG_RXDMA 1 3) 0x80000100 { State.reset with mem := [(0x300C0040, 0xFF)] }))), by decide +kernel⟩,
   ⟨11, 7, modScan (fun c => { c with sources := [(0x100, 0x104, 51)] }) (modEng 11 (fun x => { x with batch := some 7 }) (wr (A.BTL_ENG_RXDMA 1 3) 0x80100100 { State.reset with now := 1000007 })), by decide +kernel⟩,
   ⟨11, wr (A.BTL_ENG_TXDMA 1 3) 0xB0000100 State.reset, by decide +kernel⟩⟩

/-- States and operands that meet the hypotheses of WorriLinks. -/
theorem witness_WorriLinks_1 :
    (∃ (who : Who) (n : Fin 4) (s : State), live s = true ∧ isPriv s who = true ∧ isSet s F.WFB_CTL_EN = true ∧ wlState s n = 3 ∧ (∀ m : Fin 4, m = n ∨ wlEnabled s m = true ∧ (wlState s m = 1 ∨ wlState s m = 2)) ∧ merges s A.WFB_EVT 0 = false ∧ unguarded s who = true) ∧
    (∃ (n : Fin 4) (s : State), live s = true ∧ wlState s n = 1) ∧
    (∃ (n : Fin 4) (s : State), live s = true ∧ wlState s n = 1 ∧ (s.wl n).lock = true) ∧
    (∃ (n : Fin 4) (s : State), live s = true ∧ (wlState s n ≠ 1 ∨ (s.wl n).lock = false)) ∧
    (∃ (n : Fin 4) (m : Fin 4) (polinv : Bool) (s : State), live s = true ∧ wlState s n = 1 ∧ (s.wl n).lock = true ∧ merges s A.WFB_EVT 0 = false) ∧
    (∃ (n : Fin 4) (bs : List RxBlock) (s : State), live s = true ∧ bs.length ≤ 64 ∧ 16 ≤ (bs.filter RxBlock.bad).length ∧ wlState s n = 2 ∧ wlEnabled s n = true ∧ staticMode s = true ∧ (s.wl n).txq = []) ∧
    (∃ (n : Fin 4) (bs : List RxBlock) (s : State), live s = true ∧ bs.length ≤ 64 ∧ 16 ≤ (bs.filter RxBlock.bad).length ∧ wlState s n = 2 ∧ wlEnabled s n = false ∧ staticMode s = true ∧ (s.wl n).txq = [] ∧ merges s A.WFB_EVT 0 = false) ∧
    (∃ (n : Fin 4) (bs : List RxBlock) (p : Packet) (s : State), live s = true ∧ bs.length ≤ 64 ∧ 16 ≤ (bs.filter RxBlock.bad).length ∧ wlState s n = 2 ∧ wlEnabled s n = true ∧ staticMode s = true ∧ isSet s F.WFB_CTL_EN = true ∧ (s.wl n).txq = [⟨p, 4⟩] ∧ p.vc = 3) :=
  ⟨⟨⟨49, true, none⟩, 2, (setF (F.WFB_LINK_STAT_STATE 3) 2 (setF (F.WFB_LINK_STAT_STATE 2) 3 (setF (F.WFB_LINK_STAT_STATE 1) 2 (setF (F.WFB_LINK_STAT_STATE 0) 1 (wr A.WFB_CTL 0x8b000000 State.reset))))), by decide +kernel⟩,
   ⟨2, (setF (F.WFB_LINK_STAT_STATE 3) 3 (setF (F.WFB_LINK_STAT_STATE 2) 1 (setF (F.WFB_LINK_STAT_STATE 1) 3 (setF (F.WFB_LINK_STAT_STATE 0) 3 (wr A.WFB_CTL 0x8f000000 State.reset))))), by decide +kernel⟩,
   ⟨2, modWl 2 (fun x => { x with lock := true }) (setF (F.WFB_LINK_STAT_STATE 3) 3 (setF (F.WFB_LINK_STAT_STATE 2) 1 (setF (F.WFB_LINK_STAT_STATE 1) 3 (setF (F.WFB_LINK_STAT_STATE 0) 3 (wr A.WFB_CTL 0x8f000000 State.reset))))), by decide +kernel⟩,
   ⟨2, (setF (F.WFB_LINK_STAT_STATE 3) 3 (setF (F.WFB_LINK_STAT_STATE 2) 1 (setF (F.WFB_LINK_STAT_STATE 1) 3 (setF (F.WFB_LINK_STAT_STATE 0) 3 (wr A.WFB_CTL 0x8f000000 State.reset))))), by decide +kernel⟩,
   ⟨2, 3, true, modWl 2 (fun x => { x with lock := true }) (setF (F.WFB_LINK_STAT_STATE 3) 3 (setF (F.WFB_LINK_STAT_STATE 2) 1 (setF (F.WFB_LINK_STAT_STATE 1) 3 (setF (F.WFB_LINK_STAT_STATE 0) 3 (wr A.WFB_CTL 0xcf000000 State.reset))))), by decide +kernel⟩,
   ⟨2, List.replicate 20 ⟨2, 0x1E⟩ ++ List.replicate 10 ⟨3, 0⟩ ++ List.replicate 6 ⟨2, 0x77⟩, (setF (F.WFB_LINK_STAT_STATE 3) 3 (setF (F.WFB_LINK_STAT_STATE 2) 2 (setF (F.WFB_LINK_STAT_STATE 1) 3 (setF (F.WFB_LINK_STAT_STATE 0) 3 (wr A.WFB_CTL 0xcf000000 State.reset))))), by decide +kernel⟩,
   ⟨2, List.replicate 20 ⟨2, 0x1E⟩ ++ List.replicate 10 ⟨3, 0⟩ ++ List.replicate 6 ⟨2, 0x77⟩, (setF (F.WFB_LINK_STAT_STATE 3) 3 (setF (F.WFB_LINK_STAT_STATE 2) 2 (setF (F.WFB_LINK_STAT_STATE 1) 3 (setF (F.WFB_LINK_STAT_STATE 0) 3 (wr A.WFB_CTL 0xc0000000 State.reset))))), by decide +kernel⟩,
   ⟨2, List.replicate 20 ⟨2, 0x1E⟩ ++ List.replicate 10 ⟨3, 0⟩ ++ List.replicate 6 ⟨2, 0x77⟩, { vc := 3, seq := 0, dst := 7, src := 0, hops := 0, epb := false, payload := [1#8] }, (modWl 2 (fun x => { x with txq := [⟨{ vc := 3, seq := 0, dst := 7, src := 0, hops := 0, epb := false, payload := [1#8] }, 4⟩] }) (setF (F.WFB_LINK_STAT_STATE 3) 3 (setF (F.WFB_LINK_STAT_STATE 2) 2 (setF (F.WFB_LINK_STAT_STATE 1) 3 (setF (F.WFB_LINK_STAT_STATE 0) 3 (wr A.WFB_CTL 0xcf000000 State.reset)))))), by decide +kernel⟩⟩

/-- States and operands that meet the hypotheses of WorriLinks. -/
theorem witness_WorriLinks_2 :
    (∃ (n : Fin 4) (bs : List RxBlock) (s : State), live s = true ∧ (bs.filter RxBlock.bad).length < 16) ∧
    (∃ (who : Who) (n : Fin 4) (s : State), live s = true ∧ isPriv s who = true ∧ wlState s n = 2 ∧ wlEnabled s n = true ∧ staticMode s = true ∧ (s.wl n).txq = [] ∧ unguarded s who = true) ∧
    (∃ (n : Fin 4) (p : Packet) (good : Bool) (s : State), live s = true ∧ wlState s n = 2 ∧ good = true ∧ p.vc = 0 ∧ p.payload.length ≤ 2048 ∧ p.seq = ((s.wl n).rxSeq + 1) % 4096) ∧
    (∃ (n : Fin 4) (p : Packet) (good : Bool) (s : State), live s = true ∧ wlState s n = 2 ∧ good = true ∧ p.payload.length ≤ 2048 ∧ (p.vc = 1 ∨ p.vc = 2 ∨ p.vc = 3) ∧ p.seq = ((s.wl n).rxSeq + 1) % 4096 ∧ p.epb = (rd s A.WFB_EPOCH).getLsbD 0 ∧ p.dst = ownId s ∧ p.dst ≠ 0) ∧
    (∃ (n : Fin 4) (p : Packet) (good : Bool) (s : State), live s = true ∧ wlState s n = 2 ∧ (good = false ∨ 5 ≤ p.vc ∨ 256 < p.nblk ∨ p.seq ≠ ((s.wl n).rxSeq + 1) % 4096) ∧ (s.wl n).nak = false) ∧
    (∃ (n : Fin 4) (s : State), live s = true ∧ wlState s n = 2) ∧
    (∃ (n : Fin 4) (seq : Fin 4096) (p : Unacked) (l : List Unacked) (s : State), live s = true ∧ wlState s n = 2 ∧ (s.wl n).replay = p :: l ∧ p.pkt.seq = seq ∧ (s.wl n).txq = []) ∧
    (∃ (n : Fin 4) (seq : Fin 4096) (p : Unacked) (l : List Unacked) (s : State), live s = true ∧ wlState s n = 2 ∧ (s.wl n).replay = p :: l ∧ p.pkt.seq = seq ∧ (s.wl n).txq = [] ∧ l ≠ []) :=
  ⟨⟨2, List.replicate 49 ⟨1, 0⟩ ++ List.replicate 15 ⟨0, 0⟩, (setF (F.WFB_LINK_STAT_STATE 3) 3 (setF (F.WFB_LINK_STAT_STATE 2) 2 (setF (F.WFB_LINK_STAT_STATE 1) 3 (setF (F.WFB_LINK_STAT_STATE 0) 3 (wr A.WFB_CTL 0xcf000000 State.reset))))), by decide +kernel⟩,
   ⟨⟨49, true, none⟩, 2, (setF (F.WFB_LINK_STAT_STATE 3) 3 (setF (F.WFB_LINK_STAT_STATE 2) 2 (setF (F.WFB_LINK_STAT_STATE 1) 3 (setF (F.WFB_LINK_STAT_STATE 0) 3 (wr A.WFB_CTL 0xcf000000 State.reset))))), by decide +kernel⟩,
   ⟨2, { vc := 0, seq := 0, dst := 0, src := 0, hops := 0, epb := false, payload := [0x20#8, 5#8] }, true, (setF (F.WFB_LINK_STAT_STATE 3) 3 (setF (F.WFB_LINK_STAT_STATE 2) 2 (setF (F.WFB_LINK_STAT_STATE 1) 3 (setF (F.WFB_LINK_STAT_STATE 0) 3 (wr A.WFB_CTL 0xcf000000 State.reset))))), by decide +kernel⟩,
   ⟨2, { vc := 2, seq := 0, dst := 5, src := 0, hops := 0, epb := false, payload := [0x20#8, 5#8] }, true, setF F.WFB_STATUS_OWNID 5 (setF (F.WFB_LINK_STAT_STATE 3) 3 (setF (F.WFB_LINK_STAT_STATE 2) 2 (setF (F.WFB_LINK_STAT_STATE 1) 3 (setF (F.WFB_LINK_STAT_STATE 0) 3 (wr A.WFB_CTL 0xcf000000 State.reset))))), by decide +kernel⟩,
   ⟨2, { vc := 0, seq := 0, dst := 0, src := 0, hops := 0, epb := false, payload := [0x20#8, 5#8] }, false, (setF (F.WFB_LINK_STAT_STATE 3) 3 (setF (F.WFB_LINK_STAT_STATE 2) 2 (setF (F.WFB_LINK_STAT_STATE 1) 3 (setF (F.WFB_LINK_STAT_STATE 0) 3 (wr A.WFB_CTL 0xcf000000 State.reset))))), by decide +kernel⟩,
   ⟨2, (setF (F.WFB_LINK_STAT_STATE 3) 3 (setF (F.WFB_LINK_STAT_STATE 2) 2 (setF (F.WFB_LINK_STAT_STATE 1) 3 (setF (F.WFB_LINK_STAT_STATE 0) 3 (wr A.WFB_CTL 0xcf000000 State.reset))))), by decide +kernel⟩,
   ⟨2, 0, ⟨{ vc := 0, seq := 0, dst := 0, src := 0, hops := 0, epb := false, payload := [1#8] }, 0⟩, [⟨{ vc := 0, seq := 1, dst := 0, src := 0, hops := 0, epb := false, payload := [1#8] }, 0⟩], modWl 2 (fun x => { x with replay := [⟨{ vc := 0, seq := 0, dst := 0, src := 0, hops := 0, epb := false, payload := [1#8] }, 0⟩, ⟨{ vc := 0, seq := 1, dst := 0, src := 0, hops := 0, epb := false, payload := [1#8] }, 0⟩], credits := #v[64, 512, 128, 512, 768] }) (setF (F.WFB_LINK_STAT_STATE 3) 3 (setF (F.WFB_LINK_STAT_STATE 2) 2 (setF (F.WFB_LINK_STAT_STATE 1) 3 (setF (F.WFB_LINK_STAT_STATE 0) 3 (wr A.WFB_CTL 0xcf000000 State.reset))))), by decide +kernel⟩,
   ⟨2, 0, ⟨{ vc := 0, seq := 0, dst := 0, src := 0, hops := 0, epb := false, payload := [1#8] }, 0⟩, [⟨{ vc := 0, seq := 1, dst := 0, src := 0, hops := 0, epb := false, payload := [1#8] }, 0⟩], modWl 2 (fun x => { x with replay := [⟨{ vc := 0, seq := 0, dst := 0, src := 0, hops := 0, epb := false, payload := [1#8] }, 0⟩, ⟨{ vc := 0, seq := 1, dst := 0, src := 0, hops := 0, epb := false, payload := [1#8] }, 0⟩], credits := #v[64, 512, 128, 512, 768] }) (setF (F.WFB_LINK_STAT_STATE 3) 3 (setF (F.WFB_LINK_STAT_STATE 2) 2 (setF (F.WFB_LINK_STAT_STATE 1) 3 (setF (F.WFB_LINK_STAT_STATE 0) 3 (wr A.WFB_CTL 0xcf000000 State.reset))))), by decide +kernel⟩⟩

/-- States and operands that meet the hypotheses of WorriLinks. -/
theorem witness_WorriLinks_3 :
    (∃ (n : Fin 4) (vc : Fin 5) (blocks : Nat) (s : State), live s = true ∧ wlState s n = 2 ∧ (s.wl n).txq = []) ∧
    (∃ (n : Fin 4) (vc : Fin 5) (blocks : Nat) (p : Packet) (s : State), live s = true ∧ wlState s n = 2 ∧ (s.wl n).txq = [⟨p, 4⟩] ∧ p.vc = vc ∧ (s.wl n).replay = [] ∧ p.blocks ≤ 2048 ∧ p.needs ≤ min ((s.wl n).credits.get vc + blocks) ([64, 512, 128, 512, 768].getD vc 0)) ∧
    (∃ (n : Fin 4) (vc : Fin 5) (blocks : Nat) (p : Packet) (k : Fin 4) (s : State), live s = true ∧ wlState s n = 2 ∧ k ≠ n ∧ wlState s k = 2 ∧ (s.wl n).txq = [⟨p, k⟩] ∧ p.vc = vc ∧ (s.wl n).replay = [] ∧ p.blocks ≤ 2048 ∧ p.needs ≤ min ((s.wl n).credits.get vc + blocks) ([64, 512, 128, 512, 768].getD vc 0)) ∧
    (∃ (n : Fin 4) (p : Unacked) (l : List Unacked) (s : State), live s = true ∧ wlState s n = 2 ∧ (s.wl n).replay = p :: l ∧ p.sentAt + 2000 ≤ s.now ∧ (s.wl n).replays < 8) ∧
    (∃ (n : Fin 4) (p : Unacked) (l : List Unacked) (s : State), live s = true ∧ (s.wl n).replay = p :: l ∧ s.now < p.sentAt + 2000) ∧
    (∃ (n : Fin 4) (p : Unacked) (l : List Unacked) (s : State), live s = true ∧ wlState s n = 2 ∧ wlEnabled s n = true ∧ staticMode s = true ∧ (s.wl n).txq = [] ∧ (s.wl n).replay = p :: l ∧ p.sentAt + 2000 ≤ s.now ∧ 8 ≤ (s.wl n).replays) :=
  ⟨⟨2, 4, 100, (setF (F.WFB_LINK_STAT_STATE 3) 3 (setF (F.WFB_LINK_STAT_STATE 2) 2 (setF (F.WFB_LINK_STAT_STATE 1) 3 (setF (F.WFB_LINK_STAT_STATE 0) 3 (wr A.WFB_CTL 0xcf000000 State.reset))))), by decide +kernel⟩,
   ⟨2, 0, 100, { vc := 0, seq := 0, dst := 0, src := 0, hops := 0, epb := false, payload := [1#8] }, modWl 2 (fun x => { x with txq := [⟨{ vc := 0, seq := 0, dst := 0, src := 0, hops := 0, epb := false, payload := [1#8] }, 4⟩], owed := #v[0, 3, 0, 0, 1] }) (setF (F.WFB_LINK_STAT_STATE 3) 3 (setF (F.WFB_LINK_STAT_STATE 2) 2 (setF (F.WFB_LINK_STAT_STATE 1) 3 (setF (F.WFB_LINK_STAT_STATE 0) 3 (wr A.WFB_CTL 0xcf000000 State.reset))))), by decide +kernel⟩,
   ⟨2, 3, 100, { vc := 3, seq := 0, dst := 0, src := 0, hops := 1, epb := false, payload := [1#8] }, 1, modWl 2 (fun x => { x with txq := [⟨{ vc := 3, seq := 0, dst := 0, src := 0, hops := 1, epb := false, payload := [1#8] }, 1⟩] }) (setF (F.WFB_LINK_STAT_STATE 3) 3 (setF (F.WFB_LINK_STAT_STATE 2) 2 (setF (F.WFB_LINK_STAT_STATE 1) 2 (setF (F.WFB_LINK_STAT_STATE 0) 3 (wr A.WFB_CTL 0xcf000000 State.reset))))), by decide +kernel⟩,
   ⟨2, ⟨{ vc := 0, seq := 0, dst := 0, src := 0, hops := 0, epb := false, payload := [1#8] }, 0⟩, [⟨{ vc := 0, seq := 1, dst := 0, src := 0, hops := 0, epb := false, payload := [1#8] }, 0⟩], { modWl 2 (fun x => { x with replay := [⟨{ vc := 0, seq := 0, dst := 0, src := 0, hops := 0, epb := false, payload := [1#8] }, 0⟩, ⟨{ vc := 0, seq := 1, dst := 0, src := 0, hops := 0, epb := false, payload := [1#8] }, 0⟩], credits := #v[64, 512, 128, 512, 768] }) (setF (F.WFB_LINK_STAT_STATE 3) 3 (setF (F.WFB_LINK_STAT_STATE 2) 2 (setF (F.WFB_LINK_STAT_STATE 1) 3 (setF (F.WFB_LINK_STAT_STATE 0) 3 (wr A.WFB_CTL 0xcf000000 State.reset))))) with now := 5000 }, by decide +kernel⟩,
   ⟨2, ⟨{ vc := 0, seq := 0, dst := 0, src := 0, hops := 0, epb := false, payload := [1#8] }, 0⟩, [⟨{ vc := 0, seq := 1, dst := 0, src := 0, hops := 0, epb := false, payload := [1#8] }, 0⟩], { modWl 2 (fun x => { x with replay := [⟨{ vc := 0, seq := 0, dst := 0, src := 0, hops := 0, epb := false, payload := [1#8] }, 0⟩, ⟨{ vc := 0, seq := 1, dst := 0, src := 0, hops := 0, epb := false, payload := [1#8] }, 0⟩], credits := #v[64, 512, 128, 512, 768] }) (setF (F.WFB_LINK_STAT_STATE 3) 3 (setF (F.WFB_LINK_STAT_STATE 2) 2 (setF (F.WFB_LINK_STAT_STATE 1) 3 (setF (F.WFB_LINK_STAT_STATE 0) 3 (wr A.WFB_CTL 0xcf000000 State.reset))))) with now := 1999 }, by decide +kernel⟩,
   ⟨2, ⟨{ vc := 0, seq := 0, dst := 0, src := 0, hops := 0, epb := false, payload := [1#8] }, 0⟩, [⟨{ vc := 0, seq := 1, dst := 0, src := 0, hops := 0, epb := false, payload := [1#8] }, 0⟩], { modWl 2 (fun x => { x with replays := 8 }) (modWl 2 (fun x => { x with replay := [⟨{ vc := 0, seq := 0, dst := 0, src := 0, hops := 0, epb := false, payload := [1#8] }, 0⟩, ⟨{ vc := 0, seq := 1, dst := 0, src := 0, hops := 0, epb := false, payload := [1#8] }, 0⟩], credits := #v[64, 512, 128, 512, 768] }) (setF (F.WFB_LINK_STAT_STATE 3) 3 (setF (F.WFB_LINK_STAT_STATE 2) 2 (setF (F.WFB_LINK_STAT_STATE 1) 3 (setF (F.WFB_LINK_STAT_STATE 0) 3 (wr A.WFB_CTL 0xcf000000 State.reset)))))) with now := 5000 }, by decide +kernel⟩⟩

/-- States and operands that meet the hypotheses of WorriDiscovery. -/
theorem witness_WorriDiscovery_1 :
    (∃ (n : Fin 4) (s : State), live s = true ∧ isSet s F.WFB_CTL_EN = true ∧ s.wfb.parent = none ∧ wlActive s = [n.val] ∧ (s.wl n).txq = [] ∧ (s.wl n).replay = [] ∧ 8 ≤ (s.wl n).credits.get 0) ∧
    (∃ (m : Mgmt) (s : State), live s = true ∧ s.wfb.inbox = [m] ∧ m.num 0 1 = 1 ∧ m.link < 4 ∧ staticMode s = true ∧ (s.wl m.link).nbr = none) ∧
    (∃ (m : Mgmt) (s : State), live s = true ∧ s.wfb.inbox = [m] ∧ m.num 0 1 = 1 ∧ m.link < 4 ∧ staticMode s = false ∧ isSet s F.WFB_CTL_EN = true ∧ wlActive s = [m.link] ∧ (s.wl m.link).nbr = none ∧ m.num 20 1 + 1 ≤ 32 ∧ before (m.num 1 1) (m.num 2 16) (getF s F.WFB_CTL_PRIO) (ownUid s) = true ∧ (s.wfb.rootPrio, s.wfb.rootUid) ≠ (m.num 1 1, m.num 2 16)) ∧
    (∃ (m : Mgmt) (s : State), live s = true ∧ s.wfb.inbox = [m] ∧ m.num 0 1 = 1 ∧ m.link < 4 ∧ staticMode s = false ∧ isSet s F.WFB_CTL_EN = true ∧ wlActive s = [m.link] ∧ (s.wl m.link).nbr = none ∧ m.num 20 1 + 1 ≤ 32 ∧ isSet s F.WFB_STATUS_ROOT = true ∧ before (m.num 1 1) (m.num 2 16) (getF s F.WFB_CTL_PRIO) (ownUid s) = false ∧ (s.wfb.rootPrio, s.wfb.rootUid) = (getF s F.WFB_CTL_PRIO, ownUid s)) ∧
    (∃ (n : Fin 4) (x : Neighbour) (s : State), live s = true ∧ wlState s n = 2 ∧ wlEnabled s n = true ∧ staticMode s = true ∧ (s.wl n).txq = [] ∧ (s.wl n).nbr = some x ∧ x.heard + nbrNs s ≤ s.now) ∧
    (∃ (n : Fin 4) (x : Neighbour) (s : State), live s = true ∧ (s.wl n).nbr = some x ∧ s.now < x.heard + nbrNs s) ∧
    (∃ (s : State), live s = true ∧ isSet s F.WFB_CTL_EN = true ∧ staticMode s = false ∧ isSet s F.WFB_STATUS_ROOT = true ∧ getF s F.WFB_STATUS_DSTATE = 1 ∧ s.wfb.changed + 4000 * getF s F.WFB_TIMER_HELLO ≤ s.now) ∧
    (∃ (s : State), live s = true ∧ s.now < s.wfb.changed + 4000 * getF s F.WFB_TIMER_HELLO) :=
  ⟨⟨2, modWl 2 (fun x => { x with credits := #v[64, 512, 128, 512, 768] }) (setF (F.WFB_LINK_STAT_STATE 3) 3 (setF (F.WFB_LINK_STAT_STATE 2) 2 (setF (F.WFB_LINK_STAT_STATE 1) 3 (setF (F.WFB_LINK_STAT_STATE 0) 3 (wr A.WFB_CTL 0x8f000000 State.reset))))), by decide +kernel⟩,
   ⟨{ link := 2, stamp := 500, pkt := { vc := 0, seq := 0, dst := 0, src := 0, hops := 0, epb := false, payload := [1#8, 3#8, 0#8, 0#8, 0#8, 0#8, 0#8, 0#8, 0#8, 0#8, 0#8, 0#8, 0#8, 0#8, 0#8, 0#8, 0#8, 9#8, 0#8, 7#8, 2#8, 3#8, 0#8, 0#8, 0#8, 0#8, 0#8, 0#8, 0#8, 0#8, 0#8, 0#8, 0#8, 0#8, 0#8, 0#8, 0#8, 8#8, 0#8, 5#8, 0#8, 0#8, 1#8, 0xFF#8] } }, modWfb (fun b => { b with inbox := [{ link := 2, stamp := 500, pkt := { vc := 0, seq := 0, dst := 0, src := 0, hops := 0, epb := false, payload := [1#8, 3#8, 0#8, 0#8, 0#8, 0#8, 0#8, 0#8, 0#8, 0#8, 0#8, 0#8, 0#8, 0#8, 0#8, 0#8, 0#8, 9#8, 0#8, 7#8, 2#8, 3#8, 0#8, 0#8, 0#8, 0#8, 0#8, 0#8, 0#8, 0#8, 0#8, 0#8, 0#8, 0#8, 0#8, 0#8, 0#8, 8#8, 0#8, 5#8, 0#8, 0#8, 1#8, 0xFF#8] } }] }) ((setF (F.WFB_LINK_STAT_STATE 3) 3 (setF (F.WFB_LINK_STAT_STATE 2) 2 (setF (F.WFB_LINK_STAT_STATE 1) 3 (setF (F.WFB_LINK_STAT_STATE 0) 3 (wr A.WFB_CTL 0xcf000000 State.reset)))))), by decide +kernel⟩,
   ⟨{ link := 2, stamp := 500, pkt := { vc := 0, seq := 0, dst := 0, src := 0, hops := 0, epb := false, payload := [1#8, 3#8, 0#8, 0#8, 0#8, 0#8, 0#8, 0#8, 0#8, 0#8, 0#8, 0#8, 0#8, 0#8, 0#8, 0#8, 0#8, 9#8, 0#8, 7#8, 2#8, 3#8, 0#8, 0#8, 0#8, 0#8, 0#8, 0#8, 0#8, 0#8, 0#8, 0#8, 0#8, 0#8, 0#8, 0#8, 0#8, 8#8, 0#8, 5#8, 0#8, 0#8, 1#8, 0xFF#8] } }, modWfb (fun b => { b with inbox := [{ link := 2, stamp := 500, pkt := { vc := 0, seq := 0, dst := 0, src := 0, hops := 0, epb := false, payload := [1#8, 3#8, 0#8, 0#8, 0#8, 0#8, 0#8, 0#8, 0#8, 0#8, 0#8, 0#8, 0#8, 0#8, 0#8, 0#8, 0#8, 9#8, 0#8, 7#8, 2#8, 3#8, 0#8, 0#8, 0#8, 0#8, 0#8, 0#8, 0#8, 0#8, 0#8, 0#8, 0#8, 0#8, 0#8, 0#8, 0#8, 8#8, 0#8, 5#8, 0#8, 0#8, 1#8, 0xFF#8] } }] }) (setF F.WFB_STATUS_ROOT 1 (wr (A.SYS_UID 3) 0x77 (setF (F.WFB_LINK_STAT_STATE 3) 3 (setF (F.WFB_LINK_STAT_STATE 2) 2 (setF (F.WFB_LINK_STAT_STATE 1) 3 (setF (F.WFB_LINK_STAT_STATE 0) 3 (wr A.WFB_CTL 0x8f500000 State.reset))))))), by decide +kernel⟩,
   ⟨{ link := 2, stamp := 500, pkt := { vc := 0, seq := 0, dst := 0, src := 0, hops := 0, epb := false, payload := [1#8, 3#8, 0#8, 0#8, 0#8, 0#8, 0#8, 0#8, 0#8, 0#8, 0#8, 0#8, 0#8, 0#8, 0#8, 0#8, 0#8, 9#8, 0#8, 7#8, 2#8, 3#8, 0#8, 0#8, 0#8, 0#8, 0#8, 0#8, 0#8, 0#8, 0#8, 0#8, 0#8, 0#8, 0#8, 0#8, 0#8, 8#8, 0#8, 5#8, 0#8, 0#8, 1#8, 0xFF#8] } }, modWfb (fun b => { b with rootPrio := 0, rootUid := ownUid (wr (A.SYS_UID 3) 0x77 State.reset) }) (modWfb (fun b => { b with inbox := [{ link := 2, stamp := 500, pkt := { vc := 0, seq := 0, dst := 0, src := 0, hops := 0, epb := false, payload := [1#8, 3#8, 0#8, 0#8, 0#8, 0#8, 0#8, 0#8, 0#8, 0#8, 0#8, 0#8, 0#8, 0#8, 0#8, 0#8, 0#8, 9#8, 0#8, 7#8, 2#8, 3#8, 0#8, 0#8, 0#8, 0#8, 0#8, 0#8, 0#8, 0#8, 0#8, 0#8, 0#8, 0#8, 0#8, 0#8, 0#8, 8#8, 0#8, 5#8, 0#8, 0#8, 1#8, 0xFF#8] } }] }) (setF F.WFB_STATUS_ROOT 1 (wr (A.SYS_UID 3) 0x77 (setF (F.WFB_LINK_STAT_STATE 3) 3 (setF (F.WFB_LINK_STAT_STATE 2) 2 (setF (F.WFB_LINK_STAT_STATE 1) 3 (setF (F.WFB_LINK_STAT_STATE 0) 3 (wr A.WFB_CTL 0x8f000000 State.reset)))))))), by decide +kernel⟩,
   ⟨2, { rootPrio := 0, rootUid := 0, rootSeq := 0, dist := 0, prio := 0, uid := 0, id := 0, epoch := 0, link := 0, parent := 0, heard := 5, advanced := 5 }, { modWl 2 (fun l => { l with nbr := some { rootPrio := 0, rootUid := 0, rootSeq := 0, dist := 0, prio := 0, uid := 0, id := 0, epoch := 0, link := 0, parent := 0, heard := 5, advanced := 5 } }) (setF (F.WFB_LINK_STAT_STATE 3) 3 (setF (F.WFB_LINK_STAT_STATE 2) 2 (setF (F.WFB_LINK_STAT_STATE 1) 3 (setF (F.WFB_LINK_STAT_STATE 0) 3 (wr A.WFB_CTL 0xcf000000 State.reset))))) with now := 100000000 }, by decide +kernel⟩,
   ⟨2, { rootPrio := 0, rootUid := 0, rootSeq := 0, dist := 0, prio := 0, uid := 0, id := 0, epoch := 0, link := 0, parent := 0, heard := 5, advanced := 5 }, setF F.WFB_TIMER_NBRTMO 4 (setF F.WFB_TIMER_HELLO 9 (modWl 2 (fun l => { l with nbr := some { rootPrio := 0, rootUid := 0, rootSeq := 0, dist := 0, prio := 0, uid := 0, id := 0, epoch := 0, link := 0, parent := 0, heard := 5, advanced := 5 } }) (setF (F.WFB_LINK_STAT_STATE 3) 3 (setF (F.WFB_LINK_STAT_STATE 2) 2 (setF (F.WFB_LINK_STAT_STATE 1) 3 (setF (F.WFB_LINK_STAT_STATE 0) 3 (wr A.WFB_CTL 0xcf000000 State.reset))))))), by decide +kernel⟩,
   ⟨{ setF F.WFB_STATUS_ROOT 1 (setF F.WFB_STATUS_DSTATE 1 (setF (F.WFB_LINK_STAT_STATE 3) 3 (setF (F.WFB_LINK_STAT_STATE 2) 2 (setF (F.WFB_LINK_STAT_STATE 1) 3 (setF (F.WFB_LINK_STAT_STATE 0) 3 (wr A.WFB_CTL 0x8f000000 State.reset)))))) with now := 100000000 }, by decide +kernel⟩,
   ⟨modWfb (fun b => { b with changed := 50 }) (setF F.WFB_STATUS_ROOT 1 (setF F.WFB_STATUS_DSTATE 1 (setF (F.WFB_LINK_STAT_STATE 3) 3 (setF (F.WFB_LINK_STAT_STATE 2) 2 (setF (F.WFB_LINK_STAT_STATE 1) 3 (setF (F.WFB_LINK_STAT_STATE 0) 3 (wr A.WFB_CTL 0x8f000000 State.reset))))))), by decide +kernel⟩⟩

/-- States and operands that meet the hypotheses of WorriDiscovery. -/
theorem witness_WorriDiscovery_2 :
    (∃ (m : Mgmt) (s : State), live s = true ∧ s.wfb.inbox = [m] ∧ m.num 0 1 = 3 ∧ m.link < 4 ∧ staticMode s = false ∧ isSet s F.WFB_STATUS_ROOT = true) ∧
    (∃ (m : Mgmt) (s : State), live s = true ∧ s.wfb.inbox = [m] ∧ m.num 0 1 = 2 ∧ m.link < 4 ∧ staticMode s = false ∧ isSet s F.WFB_STATUS_ROOT = true ∧ s.wfb.topo = []) ∧
    (∃ (d : Nat) (s : State), live s = true ∧ s.wfb.collect = some d ∧ d ≤ s.now ∧ s.wfb.topo = [] ∧ isSet s F.WFB_STATUS_ROOT = true ∧ liveTree s = [] ∧ wlActive s = [] ∧ ownId s ≠ 0) ∧
    (∃ (m : Mgmt) (s : State), live s = true ∧ s.wfb.inbox = [m] ∧ m.num 0 1 = 4 ∧ m.link < 4 ∧ staticMode s = false ∧ m.num 3 2 = 1 ∧ liveTree s = [] ∧ s.wfb.nextEpoch ≠ m.num 1 2 ∧ m.num 5 16 ≠ ownUid s) ∧
    (∃ (m : Mgmt) (s : State), live s = true ∧ s.wfb.inbox = [m] ∧ m.num 0 1 = 5 ∧ m.link < 4 ∧ staticMode s = false ∧ s.wfb.nextIds = [(ownUid s, m.pkt.dst)] ∧ m.num 1 2 = s.wfb.nextEpoch ∧ m.num 3 1 = 0 ∧ s.wfb.parts = 0) ∧
    (∃ (m : Mgmt) (c : Nat) (s : State), live s = true ∧ s.wfb.inbox = [m] ∧ m.num 0 1 = 6 ∧ m.link < 4 ∧ staticMode s = false ∧ isSet s F.WFB_STATUS_ROOT = true ∧ m.num 1 2 = s.wfb.nextEpoch ∧ s.wfb.acks = some (c + 2)) ∧
    (∃ (m : Mgmt) (s : State), live s = true ∧ s.wfb.inbox = [m] ∧ m.num 0 1 = 6 ∧ m.link < 4 ∧ staticMode s = false ∧ isSet s F.WFB_STATUS_ROOT = true ∧ m.num 1 2 = s.wfb.nextEpoch ∧ s.wfb.acks = some 1 ∧ liveTree s = [] ∧ s.wfb.nextIds = []) ∧
    (∃ (m : Mgmt) (s : State), live s = true ∧ s.wfb.inbox = [m] ∧ m.num 0 1 = 7 ∧ m.link < 4 ∧ staticMode s = false ∧ m.num 1 2 = s.wfb.nextEpoch ∧ liveTree s = [] ∧ s.wfb.nextIds = []) :=
  ⟨⟨{ link := 2, stamp := 500, pkt := { vc := 0, seq := 0, dst := 0, src := 0, hops := 0, epb := false, payload := (3#8 :: List.replicate 34 0#8) } }, modWfb (fun b => { b with inbox := [{ link := 2, stamp := 500, pkt := { vc := 0, seq := 0, dst := 0, src := 0, hops := 0, epb := false, payload := (3#8 :: List.replicate 34 0#8) } }] }) (setF F.WFB_STATUS_ROOT 1 (setF F.WFB_STATUS_DSTATE 1 (setF (F.WFB_LINK_STAT_STATE 3) 3 (setF (F.WFB_LINK_STAT_STATE 2) 2 (setF (F.WFB_LINK_STAT_STATE 1) 3 (setF (F.WFB_LINK_STAT_STATE 0) 3 (wr A.WFB_CTL 0x8f000000 State.reset))))))), by decide +kernel⟩,
   ⟨{ link := 2, stamp := 500, pkt := { vc := 0, seq := 0, dst := 0, src := 0, hops := 0, epb := false, payload := (2#8 :: (List.range 93).map fun n => b8 n) } }, modWfb (fun b => { b with inbox := [{ link := 2, stamp := 500, pkt := { vc := 0, seq := 0, dst := 0, src := 0, hops := 0, epb := false, payload := (2#8 :: (List.range 93).map fun n => b8 n) } }] }) (setF F.WFB_STATUS_ROOT 1 (setF F.WFB_STATUS_DSTATE 1 (setF (F.WFB_LINK_STAT_STATE 3) 3 (setF (F.WFB_LINK_STAT_STATE 2) 2 (setF (F.WFB_LINK_STAT_STATE 1) 3 (setF (F.WFB_LINK_STAT_STATE 0) 3 (wr A.WFB_CTL 0x8f000000 State.reset))))))), by decide +kernel⟩,
   ⟨0, setF F.WFB_STATUS_OWNID 5 (setF F.WFB_STATUS_ROOT 1 (modWfb (fun b => { b with collect := some 0 }) (setF (F.WFB_LINK_STAT_STATE 3) 3 (setF (F.WFB_LINK_STAT_STATE 2) 3 (setF (F.WFB_LINK_STAT_STATE 1) 3 (setF (F.WFB_LINK_STAT_STATE 0) 3 (wr A.WFB_CTL 0x8f000000 State.reset))))))), by decide +kernel⟩,
   ⟨{ link := 2, stamp := 500, pkt := { vc := 0, seq := 0, dst := 0, src := 0, hops := 0, epb := false, payload := ([4#8, 0#8, 9#8, 0#8, 1#8] ++ List.replicate 15 0#8 ++ [7#8, 0#8, 6#8]) } }, modWfb (fun b => { b with inbox := [{ link := 2, stamp := 500, pkt := { vc := 0, seq := 0, dst := 0, src := 0, hops := 0, epb := false, payload := ([4#8, 0#8, 9#8, 0#8, 1#8] ++ List.replicate 15 0#8 ++ [7#8, 0#8, 6#8]) } }] }) ((setF (F.WFB_LINK_STAT_STATE 3) 3 (setF (F.WFB_LINK_STAT_STATE 2) 3 (setF (F.WFB_LINK_STAT_STATE 1) 3 (setF (F.WFB_LINK_STAT_STATE 0) 3 (wr A.WFB_CTL 0x8f000000 State.reset)))))), by decide +kernel⟩,
   ⟨{ link := 2, stamp := 500, pkt := { vc := 0, seq := 0, dst := 6, src := 0, hops := 0, epb := false, payload := ([5#8, 0#8, 9#8, 0#8] ++ (List.range 1024).map fun n => b8 n) } }, modWfb (fun b => { b with inbox := [{ link := 2, stamp := 500, pkt := { vc := 0, seq := 0, dst := 6, src := 0, hops := 0, epb := false, payload := ([5#8, 0#8, 9#8, 0#8] ++ (List.range 1024).map fun n => b8 n) } }] }) (modWfb (fun b => { b with nextIds := [(ownUid State.reset, 6)], nextEpoch := 9 }) (setF (F.WFB_LINK_STAT_STATE 3) 3 (setF (F.WFB_LINK_STAT_STATE 2) 3 (setF (F.WFB_LINK_STAT_STATE 1) 3 (setF (F.WFB_LINK_STAT_STATE 0) 3 (wr A.WFB_CTL 0x8f000000 State.reset)))))), by decide +kernel⟩,
   ⟨{ link := 2, stamp := 500, pkt := { vc := 0, seq := 0, dst := 0, src := 0, hops := 0, epb := false, payload := [6#8, 0#8, 9#8] } }, 3, modWfb (fun b => { b with inbox := [{ link := 2, stamp := 500, pkt := { vc := 0, seq := 0, dst := 0, src := 0, hops := 0, epb := false, payload := [6#8, 0#8, 9#8] } }] }) (modWfb (fun b => { b with nextEpoch := 9, acks := some 5 }) (setF F.WFB_STATUS_ROOT 1 (setF F.WFB_STATUS_DSTATE 1 (setF (F.WFB_LINK_STAT_STATE 3) 3 (setF (F.WFB_LINK_STAT_STATE 2) 2 (setF (F.WFB_LINK_STAT_STATE 1) 3 (setF (F.WFB_LINK_STAT_STATE 0) 3 (wr A.WFB_CTL 0x8f000000 State.reset)))))))), by decide +kernel⟩,
   ⟨{ link := 2, stamp := 500, pkt := { vc := 0, seq := 0, dst := 0, src := 0, hops := 0, epb := false, payload := [6#8, 0#8, 9#8] } }, modWfb (fun b => { b with inbox := [{ link := 2, stamp := 500, pkt := { vc := 0, seq := 0, dst := 0, src := 0, hops := 0, epb := false, payload := [6#8, 0#8, 9#8] } }] }) (modWfb (fun b => { b with nextEpoch := 9, acks := some 1, nextRt := [(3, 0x99)] }) (setF F.WFB_STATUS_ROOT 1 (setF (F.WFB_LINK_STAT_STATE 3) 3 (setF (F.WFB_LINK_STAT_STATE 2) 3 (setF (F.WFB_LINK_STAT_STATE 1) 3 (setF (F.WFB_LINK_STAT_STATE 0) 3 (wr A.WFB_CTL 0x8f000000 State.reset))))))), by decide +kernel⟩,
   ⟨{ link := 2, stamp := 500, pkt := { vc := 0, seq := 0, dst := 0, src := 0, hops := 0, epb := false, payload := [7#8, 0#8, 9#8] } }, modWfb (fun b => { b with inbox := [{ link := 2, stamp := 500, pkt := { vc := 0, seq := 0, dst := 0, src := 0, hops := 0, epb := false, payload := [7#8, 0#8, 9#8] } }] }) (modWfb (fun b => { b with nextEpoch := 9, nextRt := [(3, 0x99)] }) (setF (F.WFB_LINK_STAT_STATE 3) 3 (setF (F.WFB_LINK_STAT_STATE 2) 3 (setF (F.WFB_LINK_STAT_STATE 1) 3 (setF (F.WFB_LINK_STAT_STATE 0) 3 (wr A.WFB_CTL 0x8f000000 State.reset)))))), by decide +kernel⟩⟩

/-- States and operands that meet the hypotheses of WorriTimeGaspAndReset. -/
theorem witness_WorriTimeGaspAndReset_1 :
    (∃ (n : Fin 4) (s : State), live s = true ∧ timeParent s = some n.val ∧ wlState s n = 2 ∧ (s.wl n).txq = [] ∧ (s.wl n).replay = [] ∧ 4 ≤ (s.wl n).credits.get 0) ∧
    (∃ (s : State), live s = true ∧ timeParent s = none ∧ isSet s F.WFB_CTL_EN = true) ∧
    (∃ (m : Mgmt) (n : Fin 4) (s : State), live s = true ∧ s.wfb.inbox = [m] ∧ m.num 0 1 = 8 ∧ m.link < 4 ∧ m.link = n.val ∧ wlState s n = 2 ∧ (s.wl n).txq = [] ∧ (s.wl n).replay = [] ∧ 10 ≤ (s.wl n).credits.get 0) ∧
    (∃ (m : Mgmt) (s : State), live s = true ∧ s.wfb.inbox = [m] ∧ m.num 0 1 = 9 ∧ m.link < 4 ∧ s.wfb.timeReq = some (m.num 1 8) ∧ m.num 1 8 ≤ m.stamp ∧ m.num 9 8 ≤ m.num 17 8 ∧ m.num 17 8 - m.num 9 8 ≤ m.stamp - m.num 1 8) ∧
    (∃ (m : Mgmt) (d : Int) (s : State), live s = true ∧ s.wfb.inbox = [m] ∧ m.num 0 1 = 10 ∧ m.link < 4 ∧ timeParent s = some m.link ∧ d = (m.stamp : Int) - (getF s (F.WFB_LINK_DELAY_DELAY m.link) : Nat) - (m.num 1 8 : Nat) ∧ (-50 ≤ d ∧ d ≤ 50) ∧ getF s F.WFB_TSTAT_LOCKCNT < 15 ∧ getF s F.TMB_CTL_SRC ≠ 1) ∧
    (∃ (m : Mgmt) (d : Int) (s : State), live s = true ∧ s.wfb.inbox = [m] ∧ m.num 0 1 = 10 ∧ m.link < 4 ∧ timeParent s = some m.link ∧ d = (m.stamp : Int) - (getF s (F.WFB_LINK_DELAY_DELAY m.link) : Nat) - (m.num 1 8 : Nat) ∧ (-50 ≤ d ∧ d ≤ 50) ∧ getF s F.WFB_TSTAT_LOCKCNT = 15 ∧ isSet s F.WFB_TSTAT_LOCKED = false ∧ getF s F.TMB_CTL_SRC ≠ 1 ∧ merges s A.WFB_EVT 7 = false) ∧
    (∃ (m : Mgmt) (d : Int) (s : State), live s = true ∧ s.wfb.inbox = [m] ∧ m.num 0 1 = 10 ∧ m.link < 4 ∧ timeParent s = some m.link ∧ d = (m.stamp : Int) - (getF s (F.WFB_LINK_DELAY_DELAY m.link) : Nat) - (m.num 1 8 : Nat) ∧ (d < -1000 ∨ 1000 < d) ∧ (-2147483648 ≤ d ∧ d ≤ 2147483647) ∧ isSet s F.WFB_TSTAT_LOCKED = true ∧ getF s F.TMB_CTL_SRC ≠ 1 ∧ merges s A.WFB_EVT 7 = false) ∧
    (∃ (n : Fin 4) (v : BitVec 56) (s : State), live s = true ∧ calm s s = true ∧ wlState s n = 2 ∧ wlEnabled s n = true ∧ staticMode s = true ∧ (s.wl n).txq = [] ∧ crc8 (beBytes 6 (v.toNat / 256)) = v.toNat % 256 ∧ s.wfb.gasps = [] ∧ v.toNat / 2 ^ 44 ≠ getF s F.LKH_SBYPEER_PEERID) :=
  ⟨⟨2, setF (F.WFB_LINK_CTL_TPAR 2) 1 (modWl 2 (fun x => { x with credits := #v[64, 512, 128, 512, 768] }) (setF (F.WFB_LINK_STAT_STATE 3) 3 (setF (F.WFB_LINK_STAT_STATE 2) 2 (setF (F.WFB_LINK_STAT_STATE 1) 3 (setF (F.WFB_LINK_STAT_STATE 0) 3 (wr A.WFB_CTL 0xcf000000 State.reset)))))), by decide +kernel⟩,
   ⟨(setF (F.WFB_LINK_STAT_STATE 3) 3 (setF (F.WFB_LINK_STAT_STATE 2) 2 (setF (F.WFB_LINK_STAT_STATE 1) 3 (setF (F.WFB_LINK_STAT_STATE 0) 3 (wr A.WFB_CTL 0xcf000000 State.reset))))), by decide +kernel⟩,
   ⟨{ link := 2, stamp := 500, pkt := { vc := 0, seq := 0, dst := 0, src := 0, hops := 0, epb := false, payload := (8#8 :: List.replicate 8 1#8) } }, 2, modWfb (fun b => { b with inbox := [{ link := 2, stamp := 500, pkt := { vc := 0, seq := 0, dst := 0, src := 0, hops := 0, epb := false, payload := (8#8 :: List.replicate 8 1#8) } }] }) (modWl 2 (fun x => { x with credits := #v[64, 512, 128, 512, 768] }) (setF (F.WFB_LINK_STAT_STATE 3) 3 (setF (F.WFB_LINK_STAT_STATE 2) 2 (setF (F.WFB_LINK_STAT_STATE 1) 3 (setF (F.WFB_LINK_STAT_STATE 0) 3 (wr A.WFB_CTL 0xcf000000 State.reset)))))), by decide +kernel⟩,
   ⟨{ link := 2, stamp := 500, pkt := { vc := 0, seq := 0, dst := 0, src := 0, hops := 0, epb := false, payload := ([9#8] ++ List.replicate 7 0#8 ++ [100#8] ++ List.replicate 7 0#8 ++ [110#8] ++ List.replicate 7 0#8 ++ [130#8]) } }, modWfb (fun b => { b with inbox := [{ link := 2, stamp := 500, pkt := { vc := 0, seq := 0, dst := 0, src := 0, hops := 0, epb := false, payload := ([9#8] ++ List.replicate 7 0#8 ++ [100#8] ++ List.replicate 7 0#8 ++ [110#8] ++ List.replicate 7 0#8 ++ [130#8]) } }] }) (modWfb (fun b => { b with timeReq := some 100 }) ((setF (F.WFB_LINK_STAT_STATE 3) 3 (setF (F.WFB_LINK_STAT_STATE 2) 2 (setF (F.WFB_LINK_STAT_STATE 1) 3 (setF (F.WFB_LINK_STAT_STATE 0) 3 (wr A.WFB_CTL 0xcf000000 State.reset))))))), by decide +kernel⟩,
   ⟨{ link := 2, stamp := 500, pkt := { vc := 0, seq := 0, dst := 0, src := 0, hops := 0, epb := false, payload := ([10#8] ++ List.replicate 6 0#8 ++ [1#8, 0xD2#8]) } }, 34, modWfb (fun b => { b with inbox := [{ link := 2, stamp := 500, pkt := { vc := 0, seq := 0, dst := 0, src := 0, hops := 0, epb := false, payload := ([10#8] ++ List.replicate 6 0#8 ++ [1#8, 0xD2#8]) } }] }) (setF (F.WFB_LINK_CTL_TPAR 2) 1 ((setF (F.WFB_LINK_STAT_STATE 3) 3 (setF (F.WFB_LINK_STAT_STATE 2) 2 (setF (F.WFB_LINK_STAT_STATE 1) 3 (setF (F.WFB_LINK_STAT_STATE 0) 3 (wr A.WFB_CTL 0xcf000000 State.reset))))))), by decide +kernel⟩,
   ⟨{ link := 2, stamp := 500, pkt := { vc := 0, seq := 0, dst := 0, src := 0, hops := 0, epb := false, payload := ([10#8] ++ List.replicate 6 0#8 ++ [1#8, 0xD2#8]) } }, 34, modWfb (fun b => { b with inbox := [{ link := 2, stamp := 500, pkt := { vc := 0, seq := 0, dst := 0, src := 0, hops := 0, epb := false, payload := ([10#8] ++ List.replicate 6 0#8 ++ [1#8, 0xD2#8]) } }] }) (setF F.WFB_TSTAT_LOCKCNT 15 (setF (F.WFB_LINK_CTL_TPAR 2) 1 ((setF (F.WFB_LINK_STAT_STATE 3) 3 (setF (F.WFB_LINK_STAT_STATE 2) 2 (setF (F.WFB_LINK_STAT_STATE 1) 3 (setF (F.WFB_LINK_STAT_STATE 0) 3 (wr A.WFB_CTL 0xcf000000 State.reset)))))))), by decide +kernel⟩,
   ⟨{ link := 2, stamp := 500, pkt := { vc := 0, seq := 0, dst := 0, src := 0, hops := 0, epb := false, payload := ([10#8] ++ List.replicate 6 0#8 ++ [0x11#8, 0xD2#8]) } }, -4062, modWfb (fun b => { b with inbox := [{ link := 2, stamp := 500, pkt := { vc := 0, seq := 0, dst := 0, src := 0, hops := 0, epb := false, payload := ([10#8] ++ List.replicate 6 0#8 ++ [0x11#8, 0xD2#8]) } }] }) (setF F.WFB_TSTAT_LOCKCNT 35 (setF F.WFB_TSTAT_LOCKED 1 (setF (F.WFB_LINK_CTL_TPAR 2) 1 ((setF (F.WFB_LINK_STAT_STATE 3) 3 (setF (F.WFB_LINK_STAT_STATE 2) 2 (setF (F.WFB_LINK_STAT_STATE 1) 3 (setF (F.WFB_LINK_STAT_STATE 0) 3 (wr A.WFB_CTL 0xcf000000 State.reset))))))))), by decide +kernel⟩,
   ⟨2, BitVec.ofNat 56 (0x00511234567800 + crc8 (beBytes 6 0x005112345678)), (setF (F.WFB_LINK_STAT_STATE 3) 3 (setF (F.WFB_LINK_STAT_STATE 2) 2 (setF (F.WFB_LINK_STAT_STATE 1) 3 (setF (F.WFB_LINK_STAT_STATE 0) 3 (wr A.WFB_CTL 0xcf000000 State.reset))))), by decide +kernel⟩⟩

/-- States and operands that meet the hypotheses of WorriTimeGaspAndReset. -/
theorem witness_WorriTimeGaspAndReset_2 :
    (∃ (n : Fin 4) (v : BitVec 56) (s : State), live s = true ∧ calm s s = true ∧ crc8 (beBytes 6 (v.toNat / 256)) ≠ v.toNat % 256) ∧
    (∃ (m : Mgmt) (s : State), live s = true ∧ s.wfb.inbox = [m] ∧ m.num 0 1 = 11 ∧ m.link < 4 ∧ calm s s = true ∧ liveTree s = [] ∧ s.wfb.gasps = [] ∧ m.num 1 2 < 4096 ∧ m.num 3 1 < 16 ∧ m.num 1 2 ≠ getF s F.LKH_SBYPEER_PEERID) ∧
    (∃ (m : Mgmt) (s : State), live s = true ∧ s.wfb.inbox = [m] ∧ m.num 0 1 = 12 ∧ m.link < 4 ∧ calm s s = true ∧ m.pkt.dst = ownId s ∧ (isSet s F.WFB_CTL_RSTEN = false ∨ m.num 1 16 ≠ ownUid s) ∧ merges s A.WFB_EVT 8 = false) ∧
    (∃ (m : Mgmt) (s : State), live s = true ∧ s.wfb.inbox = [m] ∧ m.num 0 1 = 12 ∧ m.link < 4 ∧ calm s s = true ∧ m.pkt.dst = ownId s ∧ isSet s F.WFB_CTL_RSTEN = true ∧ m.num 1 16 = ownUid s) ∧
    (∃ (who : Who) (target : Fin 4096) (s : State), live s = true ∧ isPriv s who = true ∧ linkTo s target = none ∧ routeTo s target ≠ 12 ∧ unguarded s who = true) ∧
    (∃ (who : Who) (target : Fin 4096) (u : Nat) (n : Fin 4) (s : State), live s = true ∧ isPriv s who = true ∧ linkTo s target = some n.val ∧ s.wfb.nextIds = [(u, target.val)] ∧ (s.wl n).txq = [] ∧ (s.wl n).replay = [] ∧ 5 ≤ (s.wl n).credits.get 0 ∧ unguarded s who = true) ∧
    (∃ (who : Who) (target : Fin 4096) (n : Fin 4) (s : State), live s = true ∧ isPriv s who = true ∧ linkTo s target = some n.val ∧ s.wfb.nextIds = [] ∧ (∀ m : Fin 4, (s.wl m).nbr = none) ∧ (s.wl n).txq = [] ∧ (s.wl n).replay = [] ∧ 5 ≤ (s.wl n).credits.get 0 ∧ unguarded s who = true) :=
  ⟨⟨2, 0x123456789#56, (setF (F.WFB_LINK_STAT_STATE 3) 3 (setF (F.WFB_LINK_STAT_STATE 2) 2 (setF (F.WFB_LINK_STAT_STATE 1) 3 (setF (F.WFB_LINK_STAT_STATE 0) 3 (wr A.WFB_CTL 0xcf000000 State.reset))))), by decide +kernel⟩,
   ⟨{ link := 2, stamp := 500, pkt := { vc := 0, seq := 0, dst := 0, src := 0, hops := 0, epb := false, payload := [11#8, 0#8, 9#8, 3#8, 0#8, 0#8, 0#8, 0#8, 0#8, 0#8] } }, modWfb (fun b => { b with inbox := [{ link := 2, stamp := 500, pkt := { vc := 0, seq := 0, dst := 0, src := 0, hops := 0, epb := false, payload := [11#8, 0#8, 9#8, 3#8, 0#8, 0#8, 0#8, 0#8, 0#8, 0#8] } }] }) ((setF (F.WFB_LINK_STAT_STATE 3) 3 (setF (F.WFB_LINK_STAT_STATE 2) 2 (setF (F.WFB_LINK_STAT_STATE 1) 3 (setF (F.WFB_LINK_STAT_STATE 0) 3 (wr A.WFB_CTL 0xcf000000 State.reset)))))), by decide +kernel⟩,
   ⟨{ link := 2, stamp := 500, pkt := { vc := 0, seq := 0, dst := 0, src := 0, hops := 0, epb := false, payload := (12#8 :: List.replicate 16 9#8) } }, modWfb (fun b => { b with inbox := [{ link := 2, stamp := 500, pkt := { vc := 0, seq := 0, dst := 0, src := 0, hops := 0, epb := false, payload := (12#8 :: List.replicate 16 9#8) } }] }) ((setF (F.WFB_LINK_STAT_STATE 3) 3 (setF (F.WFB_LINK_STAT_STATE 2) 2 (setF (F.WFB_LINK_STAT_STATE 1) 3 (setF (F.WFB_LINK_STAT_STATE 0) 3 (wr A.WFB_CTL 0xcf000000 State.reset)))))), by decide +kernel⟩,
   ⟨{ link := 2, stamp := 500, pkt := { vc := 0, seq := 0, dst := 0, src := 0, hops := 0, epb := false, payload := (12#8 :: List.replicate 16 0#8) } }, modWfb (fun b => { b with inbox := [{ link := 2, stamp := 500, pkt := { vc := 0, seq := 0, dst := 0, src := 0, hops := 0, epb := false, payload := (12#8 :: List.replicate 16 0#8) } }] }) (setF F.WFB_CTL_RSTEN 1 ((setF (F.WFB_LINK_STAT_STATE 3) 3 (setF (F.WFB_LINK_STAT_STATE 2) 2 (setF (F.WFB_LINK_STAT_STATE 1) 3 (setF (F.WFB_LINK_STAT_STATE 0) 3 (wr A.WFB_CTL 0xcf000000 State.reset))))))), by decide +kernel⟩,
   ⟨⟨49, true, none⟩, 9, (setF (F.WFB_LINK_STAT_STATE 3) 3 (setF (F.WFB_LINK_STAT_STATE 2) 2 (setF (F.WFB_LINK_STAT_STATE 1) 3 (setF (F.WFB_LINK_STAT_STATE 0) 3 (wr A.WFB_CTL 0xcf000000 State.reset))))), by decide +kernel⟩,
   ⟨⟨49, true, none⟩, 9, 77, 2, wr (A.WFB_RT 1) 0x000000A0 (modWfb (fun b => { b with nextIds := [(77, 9)] }) (modWl 2 (fun x => { x with credits := #v[64, 512, 128, 512, 768] }) (setF (F.WFB_LINK_STAT_STATE 3) 3 (setF (F.WFB_LINK_STAT_STATE 2) 2 (setF (F.WFB_LINK_STAT_STATE 1) 3 (setF (F.WFB_LINK_STAT_STATE 0) 3 (wr A.WFB_CTL 0xcf000000 State.reset))))))), by decide +kernel⟩,
   ⟨⟨49, true, none⟩, 9, 2, wr (A.WFB_RT 1) 0x000000A0 ((modWl 2 (fun x => { x with credits := #v[64, 512, 128, 512, 768] }) (setF (F.WFB_LINK_STAT_STATE 3) 3 (setF (F.WFB_LINK_STAT_STATE 2) 2 (setF (F.WFB_LINK_STAT_STATE 1) 3 (setF (F.WFB_LINK_STAT_STATE 0) 3 (wr A.WFB_CTL 0xcf000000 State.reset))))))), by decide +kernel⟩⟩

/-- States and operands that meet the hypotheses of HostBridge. -/
theorem witness_HostBridge_1 :
    (∃ (w : Fin 8) (x : Fin 0x100) (tag : Nat) (s : State), live s = true ∧ calm s s = true ∧ pcieUp s = true ∧ s.brg.opened = true ∧ frozen s 3 = false ∧ isSet s (F.BRG_HWIN_EN w) = true ∧ getF s (F.BRG_HWIN_BASE w) = 0x60 ∧ isSet s (F.BRG_HWIN_PF w) = false ∧ isSet s F.BRG_CTL_HEN = true ∧ s.brg.gathers = [] ∧ eccOf s (0x30000000 + x.val * 8) 8 = 0 ∧ s.brg.sems = Vector.replicate 32 none ∧ s.brg.waits = [] ∧ behind hostWho s = false ∧ frozen s 4 = false) ∧
    (∃ (off : Nat) (n : Nat) (tag : Nat) (s : State), live s = true ∧ s.faults.due = none ∧ calm s s = true ∧ pcieUp s = true ∧ s.brg.opened = true ∧ frozen s 3 = false ∧ (isSet s F.BRG_CTL_HEN = false ∨ isSet s (F.BRG_HWIN_EN (off / 0x800000 % 8)) = false) ∧ merges s A.PCI_EVT 3 = false ∧ s.brg.waits = [] ∧ hostReads s < 32 ∧ behind hostWho s = false ∧ frozen s 4 = false) ∧
    (∃ (off : Nat) (n : Nat) (tag : Nat) (s : State), powered s = true ∧ calm s s = true ∧ pcieUp s = true ∧ s.brg.opened = false ∧ merges s A.PCI_EVT 3 = false) ∧
    (∃ (v : Fin 32) (q : Fin 4) (tag : Nat) (s : State), powered s = true ∧ calm s s = true ∧ pcieUp s = true) ∧
    (∃ (tag : Nat) (s : State), powered s = true ∧ calm s s = true ∧ pcieUp s = true) ∧
    (∃ (w : Fin 8) (off : Nat) (bs : List Byte) (s : State), live s = true ∧ calm s s = true ∧ pcieUp s = true ∧ s.brg.opened = true ∧ frozen s 3 = false ∧ isSet s (F.BRG_HWIN_EN w) = false ∧ off < 0x800000 ∧ merges s A.BRG_EVT 0 = false ∧ s.brg.waits = [] ∧ behind hostWho s = false ∧ frozen s 4 = false) ∧
    (∃ (w : Fin 8) (off : Nat) (bs : List Byte) (s : State), live s = true ∧ calm s s = true ∧ pcieUp s = true ∧ s.brg.opened = true ∧ frozen s 3 = false ∧ isSet s (F.BRG_HWIN_EN w) = true ∧ getF s (F.BRG_HWIN_BASE w) = 0xC0 ∧ off < 0x800000 ∧ off = A.PCI_MSIXACK - 0x60000000 ∧ isSet s F.BRG_CTL_HEN = true ∧ bs.length = 4 ∧ s.brg.waits = [] ∧ unguarded s hostWho = true ∧ behind hostWho s = false ∧ frozen s 4 = false) ∧
    (∃ (a : Word) (n : Nat) (x : Fin 0x100) (s : State), live s = true ∧ calm s s = true ∧ qspiOn s = true ∧ s.brg.opened = true ∧ frozen s 3 = false ∧ isSet s F.BRG_CTL_HEN = true ∧ a.toNat = (0x30000000 + x.val * 8) ∧ n = 8 ∧ s.brg.gathers = [] ∧ eccOf s (0x30000000 + x.val * 8) 8 = 0 ∧ s.brg.sems = Vector.replicate 32 none ∧ s.brg.waits = [] ∧ behind hostWho s = false ∧ frozen s 4 = false) :=
  ⟨⟨1, 0x20, 7, setF (F.BRG_HWIN_BASE 1) 0x60 (setF (F.BRG_HWIN_EN 1) 1 (setF F.BST_STATUS_RUNNING 0xFF (setF F.PCI_STATUS_LINK 1 (modBrg (fun b => { b with opened := true, perst := true }) (setF F.BRG_CTL_HEN 1 (setF F.BRG_CTL_FEN 1 State.reset)))))), by decide +kernel⟩,
   ⟨5, 9, 7, setF F.BRG_CTL_HEN 0 (setF F.BST_STATUS_RUNNING 0xFF (setF F.PCI_STATUS_LINK 1 (modBrg (fun b => { b with opened := true, perst := true }) (setF F.BRG_CTL_HEN 1 (setF F.BRG_CTL_FEN 1 State.reset))))), by decide +kernel⟩,
   ⟨5, 9, 7, modBrg (fun b => { b with opened := false }) (setF F.PCI_STATUS_LINK 1 (modBrg (fun b => { b with opened := true, perst := true }) (setF F.BRG_CTL_HEN 1 (setF F.BRG_CTL_FEN 1 State.reset)))), by decide +kernel⟩,
   ⟨9, 2, 7, setF F.PCI_STATUS_LINK 1 State.reset, by decide +kernel⟩,
   ⟨7, wr A.PCI_MSIXPEND 0x1234 (setF F.PCI_STATUS_LINK 1 State.reset), by decide +kernel⟩,
   ⟨3, 0x44, [1, 2, 3, 4], setF F.BST_STATUS_RUNNING 0xFF (setF F.PCI_STATUS_LINK 1 (modBrg (fun b => { b with opened := true, perst := true }) (setF F.BRG_CTL_HEN 1 (setF F.BRG_CTL_FEN 1 State.reset)))), by decide +kernel⟩,
   ⟨1, A.PCI_MSIXACK - 0x60000000, [1, 2, 3, 4], wr A.PCI_MSIXPEND 0xFFFFFFFF (setF (F.BRG_HWIN_BASE 1) 0xC0 (setF (F.BRG_HWIN_EN 1) 1 (setF F.BST_STATUS_RUNNING 0xFF (setF F.PCI_STATUS_LINK 1 (modBrg (fun b => { b with opened := true, perst := true }) (setF F.BRG_CTL_HEN 1 (setF F.BRG_CTL_FEN 1 State.reset))))))), by decide +kernel⟩,
   ⟨0x30000100#32, 8, 0x20, setF F.BST_STATUS_RUNNING 0xFF (setF F.PCI_STATUS_HOSTIF 1 (modBrg (fun b => { b with opened := true, perst := true }) (setF F.BRG_CTL_HEN 1 (setF F.BRG_CTL_FEN 1 State.reset)))), by decide +kernel⟩⟩

/-- States and operands that meet the hypotheses of HostBridge. -/
theorem witness_HostBridge_2 :
    (∃ (a : Word) (n : Nat) (s : State), live s = true ∧ calm s s = true ∧ qspiOn s = true ∧ isSet s F.BRG_CTL_HEN = false ∧ s.brg.opened = true ∧ s.brg.waits = [] ∧ behind hostWho s = false ∧ frozen s 3 = false ∧ frozen s 4 = false) ∧
    (∃ (a : Word) (n : Nat) (s : State), powered s = true ∧ calm s s = true ∧ qspiOn s = true ∧ s.brg.opened = false) ∧
    (∃ (a : Word) (bs : List Byte) (s : State), live s = true ∧ calm s s = true ∧ qspiOn s = true ∧ s.brg.opened = true ∧ frozen s 3 = false ∧ isSet s F.BRG_CTL_HEN = true ∧ a.toNat = A.PCI_MSIXACK ∧ bs.length = 4 ∧ s.brg.waits = [] ∧ unguarded s hostWho = true ∧ behind hostWho s = false ∧ frozen s 4 = false) ∧
    (∃ (a : Word) (bs : List Byte) (s : State), live s = true ∧ calm s s = true ∧ qspiOn s = true ∧ s.brg.opened = true ∧ frozen s 3 = false ∧ a.toNat % 4 = 0 ∧ (0 < bs.length ∧ bs.length < 4) ∧ merges s A.BRG_EVT 0 = false ∧ s.brg.waits = [] ∧ behind hostWho s = false ∧ frozen s 4 = false) ∧
    (∃ (s : State), live s = true ∧ qspiOn s = true ∧ s.brg.opened = true) ∧
    (∃ (s : State), powered s = true ∧ qspiOn s = true ∧ s.brg.opened = false) ∧
    (∃ (who : Who) (v : Word) (s : State), live s = true ∧ isPriv s who = true ∧ unguarded s who = true) ∧
    (∃ (v : Fin 32) (word : Fin 4) (x : Word) (s : State), live s = true ∧ pcieUp s = true ∧ word = 0 ∧ isSet s ⟨A.PCI_MSIXPEND, v.val, 1⟩ = false) :=
  ⟨⟨0x30000100#32, 8, setF F.BRG_CTL_HEN 0 (setF F.PCI_STATUS_HOSTIF 1 (modBrg (fun b => { b with opened := true, perst := true }) (setF F.BRG_CTL_HEN 1 (setF F.BRG_CTL_FEN 1 State.reset)))), by decide +kernel⟩,
   ⟨0x30000100#32, 8, setF F.PCI_STATUS_HOSTIF 1 (modBrg (fun b => { b with opened := false }) State.reset), by decide +kernel⟩,
   ⟨w32 A.PCI_MSIXACK, [1, 2, 3, 4], wr A.PCI_MSIXPEND 0xFFFFFFFF (setF F.BST_STATUS_RUNNING 0xFF (setF F.PCI_STATUS_HOSTIF 1 (modBrg (fun b => { b with opened := true, perst := true }) (setF F.BRG_CTL_HEN 1 (setF F.BRG_CTL_FEN 1 State.reset))))), by decide +kernel⟩,
   ⟨0x30000000#32, [1, 2], setF F.BST_STATUS_RUNNING 0xFF (setF F.PCI_STATUS_HOSTIF 1 (modBrg (fun b => { b with opened := true, perst := true }) (setF F.BRG_CTL_HEN 1 (setF F.BRG_CTL_FEN 1 State.reset)))), by decide +kernel⟩,
   ⟨wr A.PCI_MSIXPEND 4 (modBrg (fun b => { b with fresh := true }) (setF F.PCI_STATUS_HOSTIF 1 (modBrg (fun b => { b with opened := true, perst := true }) (setF F.BRG_CTL_HEN 1 (setF F.BRG_CTL_FEN 1 State.reset))))), by decide +kernel⟩,
   ⟨setF F.PCI_STATUS_HOSTIF 1 (modBrg (fun b => { b with opened := false }) State.reset), by decide +kernel⟩,
   ⟨⟨49, true, none⟩, 0xF0#32, wr A.PCI_MSIXPEND 0x99 State.reset, by decide +kernel⟩,
   ⟨9, 0, 0xABCDEF03#32, (setF F.PCI_STATUS_LINK 1 (modBrg (fun b => { b with opened := true, perst := true }) (setF F.BRG_CTL_HEN 1 (setF F.BRG_CTL_FEN 1 State.reset)))), by decide +kernel⟩⟩

/-- States and operands that meet the hypotheses of HostBridge. -/
theorem witness_HostBridge_3 :
    (∃ (v : Fin 32) (word : Fin 4) (x : Word) (s : State), live s = true ∧ pcieUp s = true ∧ word = 1 ∧ isSet s ⟨A.PCI_MSIXPEND, v.val, 1⟩ = false) ∧
    (∃ (v : Fin 32) (word : Fin 4) (x : Word) (s : State), live s = true ∧ pcieUp s = true ∧ word = 2 ∧ isSet s ⟨A.PCI_MSIXPEND, v.val, 1⟩ = false) ∧
    (∃ (v : Fin 32) (word : Fin 4) (x : Word) (s : State), live s = true ∧ pcieUp s = true ∧ word = 3 ∧ isSet s ⟨A.PCI_MSIXPEND, v.val, 1⟩ = false) ∧
    (∃ (v : Fin 32) (word : Fin 4) (x : Word) (s : State), live s = true ∧ pcieUp s = true ∧ word = 3 ∧ x.getLsbD 0 = false ∧ isSet s ⟨A.PCI_MSIXPEND, v.val, 1⟩ = true ∧ isSet s F.PCI_STATUS_MSIXEN = true) ∧
    (∃ (q : CfgReq) (s : State), powered s = true ∧ pcieUp s = true ∧ s.brg.opened = false ∧ q ≠ .unsupported) ∧
    (∃ (s : State), powered s = true ∧ pcieUp s = true) ∧
    (∃ (v : Bool) (s : State), powered s = true ∧ pcieUp s = true ∧ s.brg.opened = true ∧ rd s A.PCI_MSIXPEND = 0) ∧
    (∃ (s : State), powered s = true ∧ pcieUp s = true ∧ s.brg.opened = true) :=
  ⟨⟨9, 1, 0xABCDEF03#32, (setF F.PCI_STATUS_LINK 1 (modBrg (fun b => { b with opened := true, perst := true }) (setF F.BRG_CTL_HEN 1 (setF F.BRG_CTL_FEN 1 State.reset)))), by decide +kernel⟩,
   ⟨9, 2, 0xABCDEF03#32, (setF F.PCI_STATUS_LINK 1 (modBrg (fun b => { b with opened := true, perst := true }) (setF F.BRG_CTL_HEN 1 (setF F.BRG_CTL_FEN 1 State.reset)))), by decide +kernel⟩,
   ⟨9, 3, 0xABCDEF03#32, (setF F.PCI_STATUS_LINK 1 (modBrg (fun b => { b with opened := true, perst := true }) (setF F.BRG_CTL_HEN 1 (setF F.BRG_CTL_FEN 1 State.reset)))), by decide +kernel⟩,
   ⟨9, 3, 0#32, setF F.PCI_STATUS_MSIXEN 1 (wr A.PCI_MSIXPEND 0x200 (setF F.PCI_STATUS_LINK 1 (modBrg (fun b => { b with opened := true, perst := true }) (setF F.BRG_CTL_HEN 1 (setF F.BRG_CTL_FEN 1 State.reset))))), by decide +kernel⟩,
   ⟨.msixEnable true, modBrg (fun b => { b with opened := false }) (setF F.PCI_STATUS_LINK 1 State.reset), by decide +kernel⟩,
   ⟨(setF F.PCI_STATUS_LINK 1 (modBrg (fun b => { b with opened := true, perst := true }) State.reset)), by decide +kernel⟩,
   ⟨true, (setF F.PCI_STATUS_LINK 1 (modBrg (fun b => { b with opened := true, perst := true }) State.reset)), by decide +kernel⟩,
   ⟨(setF F.PCI_STATUS_LINK 1 (modBrg (fun b => { b with opened := true, perst := true }) State.reset)), by decide +kernel⟩⟩

/-- States and operands that meet the hypotheses of HostBridge. -/
theorem witness_HostBridge_4 :
    (∃ (s : State), powered s = true ∧ pcieUp s = true ∧ s.brg.opened = true) ∧
    (∃ (k : Nat) (s : State), powered s = true ∧ pcieUp s = true ∧ s.brg.opened = true ∧ (k ≠ 0 ∧ k ≠ 2)) ∧
    (∃ (speed : Fin 4) (width : Fin 4) (s : State), live s = true ∧ isSet s F.PCI_STATUS_HOSTIF = false ∧ isSet s F.PCI_STATUS_LINK = false ∧ s.brg.perst = true ∧ isSet s F.SYS_CLKSTAT_PCILOCK = true ∧ 1 ≤ speed.val ∧ (width = 1 ∨ width = 2) ∧ merges s A.PCI_EVT 0 = false) ∧
    (∃ (kind : Fin 3) (s : State), live s = true ∧ pcieUp s = true ∧ kind = 1 ∧ s.brg.gathers = [] ∧ s.brg.sems = Vector.replicate 32 none ∧ merges s A.PCI_EVT 1 = false) ∧
    (∃ (kind : Fin 3) (s : State), live s = true ∧ pcieUp s = true ∧ kind ≠ 1 ∧ s.brg.gathers = [] ∧ s.brg.sems = Vector.replicate 32 none ∧ merges s A.PCI_EVT 2 = false) ∧
    (∃ (high : Bool) (s : State), live s = true ∧ high = true) ∧
    (∃ (high : Bool) (s : State), live s = true ∧ high = false ∧ pcieUp s = true ∧ merges s A.PCI_EVT 1 = false ∧ s.brg.gathers = [] ∧ s.brg.sems = Vector.replicate 32 none) ∧
    (∃ (off : Nat) (n : Nat) (tag : Nat) (s : State), live s = true ∧ calm s s = true ∧ pcieUp s = true ∧ s.brg.opened = true ∧ frozen s 3 = true) :=
  ⟨⟨(setF F.PCI_STATUS_LINK 1 (modBrg (fun b => { b with opened := true, perst := true }) State.reset)), by decide +kernel⟩,
   ⟨5, (setF F.PCI_STATUS_LINK 1 (modBrg (fun b => { b with opened := true, perst := true }) State.reset)), by decide +kernel⟩,
   ⟨3, 2, setF F.SYS_CLKSTAT_PCILOCK 1 (modBrg (fun b => { b with opened := true, perst := true }) (setF F.BRG_CTL_HEN 1 (setF F.BRG_CTL_FEN 1 State.reset))), by decide +kernel⟩,
   ⟨1, (setF F.PCI_STATUS_LINK 1 (modBrg (fun b => { b with opened := true, perst := true }) (setF F.BRG_CTL_HEN 1 (setF F.BRG_CTL_FEN 1 State.reset)))), by decide +kernel⟩,
   ⟨2, modBrg (fun b => { b with hostBufs := [{ fid := 0, line := 5, bytes := [], at' := 0 }] }) (setF F.PCI_STATUS_LINK 1 (modBrg (fun b => { b with opened := true, perst := true }) (setF F.BRG_CTL_HEN 1 (setF F.BRG_CTL_FEN 1 State.reset)))), by decide +kernel⟩,
   ⟨true, State.reset, by decide +kernel⟩,
   ⟨false, (setF F.PCI_STATUS_LINK 1 (modBrg (fun b => { b with opened := true, perst := true }) (setF F.BRG_CTL_HEN 1 (setF F.BRG_CTL_FEN 1 State.reset)))), by decide +kernel⟩,
   ⟨5, 9, 7, setF F.BST_STATUS_RUNNING 72 (setF F.PCI_STATUS_LINK 1 (modBrg (fun b => { b with opened := true, perst := true }) State.reset)), by decide +kernel⟩⟩

/-- States and operands that meet the hypotheses of HostBridge. -/
theorem witness_HostBridge_5 :
    (∃ (off : Nat) (bs : List Byte) (s : State), live s = true ∧ calm s s = true ∧ pcieUp s = true ∧ s.brg.opened = true ∧ frozen s 3 = true) :=
  ⟨5, [1, 2], setF F.BST_STATUS_RUNNING 72 (setF F.PCI_STATUS_LINK 1 (modBrg (fun b => { b with opened := true, perst := true }) State.reset)), by decide +kernel⟩

/-- States and operands that meet the hypotheses of FabricBridge. -/
theorem witness_FabricBridge_1 :
    (∃ (p : Packet) (k : Nat) (s : State), live s = true ∧ calm s s = true ∧ frozen s 4 = false ∧ s.wfb.bridge = [⟨p, k⟩] ∧ p.num 0 1 = 1 ∧ p.num 4 4 = A.PCI_MSIXACK ∧ p.num 8 2 = 4 ∧ p.payload.length = 20 ∧ isSet s F.BRG_CTL_FEN = true ∧ isPriv s p.who = true ∧ unguarded s p.who = true) ∧
    (∃ (p : Packet) (k : Nat) (n : Fin 4) (s : State), live s = true ∧ calm s s = true ∧ frozen s 4 = false ∧ s.wfb.bridge = [⟨p, k⟩] ∧ p.num 0 1 = 1 ∧ isSet s F.BRG_CTL_FEN = false ∧ p.src ≠ ownId s ∧ linkTo s p.src = some n.val ∧ (s.wl n).txq = [] ∧ (s.wl n).replay = [] ∧ (16 ≤ (s.wl n).credits.get 3 ∧ 16 ≤ (s.wl n).credits.get 1)) ∧
    (∃ (p : Packet) (k : Nat) (n : Fin 4) (x : Fin 0x100) (s : State), live s = true ∧ calm s s = true ∧ frozen s 4 = false ∧ s.wfb.bridge = [⟨p, k⟩] ∧ p.num 0 1 = 2 ∧ p.num 4 4 = (0x30000000 + x.val * 8) ∧ p.num 8 2 = 8 ∧ readMayGo s p = true ∧ isSet s F.BRG_CTL_FEN = true ∧ eccOf s (0x30000000 + x.val * 8) 8 = 0 ∧ s.brg.sems = Vector.replicate 32 none ∧ linkTo s p.src = some n.val ∧ (s.wl n).txq = [] ∧ (s.wl n).replay = [] ∧ (16 ≤ (s.wl n).credits.get 3 ∧ 16 ≤ (s.wl n).credits.get 1)) ∧
    (∃ (p : Packet) (k : Nat) (s : State), live s = true ∧ calm s s = true ∧ s.wfb.bridge = [⟨p, k⟩] ∧ readMayGo s p = false) ∧
    (∃ (p : Packet) (k : Nat) (r : OutRead) (x : Fin 16) (s : State), live s = true ∧ calm s s = true ∧ frozen s 4 = false ∧ s.wfb.bridge = [⟨p, k⟩] ∧ p.num 0 1 = 3 ∧ s.brg.reads = [r] ∧ r.use = .poll x ∧ r.want = (0, 4) ∧ r.line = false ∧ s.brg.gathers = [] ∧ s.brg.waits = [] ∧ s.rot.held = [] ∧ p.num 2 2 = r.tag ∧ p.num 1 1 = 0 ∧ p.num 8 2 = 4 ∧ p.payload.length = 20) ∧
    (∃ (p : Packet) (k : Nat) (s : State), live s = true ∧ calm s s = true ∧ frozen s 4 = false ∧ s.wfb.bridge = [⟨p, k⟩] ∧ p.num 0 1 = 3 ∧ (s.brg.reads.all (fun r => r.tag != p.num 2 2) = true) ∧ merges s A.BRG_EVT 2 = false) ∧
    (∃ (p : Packet) (k : Nat) (s : State), live s = true ∧ frozen s 4 = false ∧ s.wfb.bridge = [⟨p, k⟩] ∧ p.num 0 1 = 4 ∧ merges s A.BRG_EVT 0 = false) ∧
    (∃ (r : OutRead) (x : Fin 16) (s : State), live s = true ∧ calm s s = true ∧ s.brg.reads = [r] ∧ r.use = .poll x ∧ r.want = (0, 4) ∧ r.line = false ∧ s.brg.gathers = [] ∧ s.brg.waits = [] ∧ s.rot.held = [] ∧ r.since + 1000 * getF s F.BRG_RDTMO_TMO ≤ s.now ∧ merges s A.BRG_EVT 1 = false) :=
  ⟨⟨{ vc := 1, seq := 0, dst := 5, src := 6, hops := 0, epb := false, payload := ([1#8, 0x82#8, 0#8, 3#8] ++ beBytes 4 (A.PCI_MSIXACK) ++ beBytes 2 4 ++ beBytes 2 9 ++ beBytes 4 77 ++ [15#8, 0#8, 0#8, 0#8]) }, 1, modWfb (fun b => { b with bridge := [⟨{ vc := 1, seq := 0, dst := 5, src := 6, hops := 0, epb := false, payload := ([1#8, 0x82#8, 0#8, 3#8] ++ beBytes 4 (A.PCI_MSIXACK) ++ beBytes 2 4 ++ beBytes 2 9 ++ beBytes 4 77 ++ [15#8, 0#8, 0#8, 0#8]) }, 1⟩] }) (setF F.SYS_PRIVCTL_FABRIC 1 (wr A.PCI_MSIXPEND 0xFF (setF F.BST_STATUS_RUNNING 0xFF (modBrg (fun b => { b with opened := true, perst := true }) (setF F.BRG_CTL_HEN 1 (setF F.BRG_CTL_FEN 1 State.reset)))))), by decide +kernel⟩,
   ⟨{ vc := 1, seq := 0, dst := 5, src := 6, hops := 0, epb := false, payload := ([1#8, 0x82#8, 0#8, 3#8] ++ beBytes 4 (0x30000000) ++ beBytes 2 4 ++ beBytes 2 9 ++ beBytes 4 77 ++ [15#8, 0#8, 0#8, 0#8]) }, 1, 2, modWfb (fun b => { b with bridge := [⟨{ vc := 1, seq := 0, dst := 5, src := 6, hops := 0, epb := false, payload := ([1#8, 0x82#8, 0#8, 3#8] ++ beBytes 4 (0x30000000) ++ beBytes 2 4 ++ beBytes 2 9 ++ beBytes 4 77 ++ [15#8, 0#8, 0#8, 0#8]) }, 1⟩] }) (setF F.BRG_CTL_FEN 0 (modWl 2 (fun x => { x with credits := #v[64, 512, 128, 512, 768] }) (wr (A.WFB_RT 0) 0x0A000000 (setF (F.WFB_LINK_STAT_STATE 2) 2 (setF F.BST_STATUS_RUNNING 0xFF (modBrg (fun b => { b with opened := true, perst := true }) (setF F.BRG_CTL_HEN 1 (setF F.BRG_CTL_FEN 1 State.reset)))))))), by decide +kernel⟩,
   ⟨{ vc := 1, seq := 0, dst := 5, src := 6, hops := 0, epb := false, payload := ([2#8, 0x82#8, 0#8, 3#8] ++ beBytes 4 (0x30000100) ++ beBytes 2 8 ++ beBytes 2 0 ++ beBytes 4 0) }, 1, 2, 0x20, modWfb (fun b => { b with bridge := [⟨{ vc := 1, seq := 0, dst := 5, src := 6, hops := 0, epb := false, payload := ([2#8, 0x82#8, 0#8, 3#8] ++ beBytes 4 (0x30000100) ++ beBytes 2 8 ++ beBytes 2 0 ++ beBytes 4 0) }, 1⟩] }) ((modWl 2 (fun x => { x with credits := #v[64, 512, 128, 512, 768] }) (wr (A.WFB_RT 0) 0x0A000000 (setF (F.WFB_LINK_STAT_STATE 2) 2 (setF F.BST_STATUS_RUNNING 0xFF (modBrg (fun b => { b with opened := true, perst := true }) (setF F.BRG_CTL_HEN 1 (setF F.BRG_CTL_FEN 1 State.reset)))))))), by decide +kernel⟩,
   ⟨{ vc := 1, seq := 0, dst := 5, src := 6, hops := 0, epb := false, payload := ([2#8, 0x82#8, 0#8, 3#8] ++ beBytes 4 (0x30000100) ++ beBytes 2 8 ++ beBytes 2 5 ++ beBytes 4 0) }, 1, modWfb (fun b => { b with bridge := [⟨{ vc := 1, seq := 0, dst := 5, src := 6, hops := 0, epb := false, payload := ([2#8, 0x82#8, 0#8, 3#8] ++ beBytes 4 (0x30000100) ++ beBytes 2 8 ++ beBytes 2 5 ++ beBytes 4 0) }, 1⟩] }) (setF F.BST_STATUS_RUNNING 0xFF (modBrg (fun b => { b with opened := true, perst := true }) (setF F.BRG_CTL_HEN 1 (setF F.BRG_CTL_FEN 1 State.reset)))), by decide +kernel⟩,
   ⟨{ vc := 1, seq := 0, dst := 5, src := 6, hops := 0, epb := false, payload := ([3#8, 0#8, 0#8, 3#8] ++ beBytes 4 0x100 ++ beBytes 2 4 ++ beBytes 6 0 ++ [1#8, 2#8, 3#8, 4#8]) }, 1, { tag := 3, use := .poll 4, who := ⟨47, true, none⟩, laddr := 0x80000000, addr := 0x100, len := 4, fid := 6, since := 10, line := false, want := (0, 4) }, 4, modWfb (fun b => { b with bridge := [⟨{ vc := 1, seq := 0, dst := 5, src := 6, hops := 0, epb := false, payload := ([3#8, 0#8, 0#8, 3#8] ++ beBytes 4 0x100 ++ beBytes 2 4 ++ beBytes 6 0 ++ [1#8, 2#8, 3#8, 4#8]) }, 1⟩] }) (modBrg (fun b => { b with reads := [{ tag := 3, use := .poll 4, who := ⟨47, true, none⟩, laddr := 0x80000000, addr := 0x100, len := 4, fid := 6, since := 10, line := false, want := (0, 4) }] }) (setF F.BST_STATUS_RUNNING 0xFF (modBrg (fun b => { b with opened := true, perst := true }) (setF F.BRG_CTL_HEN 1 (setF F.BRG_CTL_FEN 1 State.reset))))), by decide +kernel⟩,
   ⟨{ vc := 1, seq := 0, dst := 5, src := 6, hops := 0, epb := false, payload := ([3#8, 0#8, 0#8, 3#8] ++ beBytes 4 0x100 ++ beBytes 2 4 ++ beBytes 6 0 ++ [1#8, 2#8, 3#8, 4#8]) }, 1, modWfb (fun b => { b with bridge := [⟨{ vc := 1, seq := 0, dst := 5, src := 6, hops := 0, epb := false, payload := ([3#8, 0#8, 0#8, 3#8] ++ beBytes 4 0x100 ++ beBytes 2 4 ++ beBytes 6 0 ++ [1#8, 2#8, 3#8, 4#8]) }, 1⟩] }) (setF F.BST_STATUS_RUNNING 0xFF (modBrg (fun b => { b with opened := true, perst := true }) (setF F.BRG_CTL_HEN 1 (setF F.BRG_CTL_FEN 1 State.reset)))), by decide +kernel⟩,
   ⟨{ vc := 1, seq := 0, dst := 5, src := 6, hops := 0, epb := false, payload := ([4#8, 5#8, 0#8, 3#8] ++ beBytes 4 0x100 ++ beBytes 4 0 ++ beBytes 4 77) }, 1, modWfb (fun b => { b with bridge := [⟨{ vc := 1, seq := 0, dst := 5, src := 6, hops := 0, epb := false, payload := ([4#8, 5#8, 0#8, 3#8] ++ beBytes 4 0x100 ++ beBytes 4 0 ++ beBytes 4 77) }, 1⟩] }) (setF F.BST_STATUS_RUNNING 0xFF (modBrg (fun b => { b with opened := true, perst := true }) (setF F.BRG_CTL_HEN 1 (setF F.BRG_CTL_FEN 1 State.reset)))), by decide +kernel⟩,
   ⟨{ tag := 3, use := .poll 4, who := ⟨47, true, none⟩, laddr := 0x80000000, addr := 0x100, len := 4, fid := 6, since := 10, line := false, want := (0, 4) }, 4, { modBrg (fun b => { b with reads := [{ tag := 3, use := .poll 4, who := ⟨47, true, none⟩, laddr := 0x80000000, addr := 0x100, len := 4, fid := 6, since := 10, line := false, want := (0, 4) }] }) (setF F.BST_STATUS_RUNNING 0xFF (modBrg (fun b => { b with opened := true, perst := true }) (setF F.BRG_CTL_HEN 1 (setF F.BRG_CTL_FEN 1 State.reset)))) with now := 1000000000 }, by decide +kernel⟩⟩

/-- States and operands that meet the hypotheses of FabricBridge. -/
theorem witness_FabricBridge_2 :
    (∃ (s : State), live s = true ∧ calm s s = true ∧ (s.brg.reads.all (fun r => decide (s.now < r.since + 1000 * getF s F.BRG_RDTMO_TMO)) = true)) ∧
    (∃ (s : State), live s = true) ∧
    (∃ (who : Who) (kk : Fin 32) (s : State), live s = true ∧ who.remote = none ∧ s.brg.sems.get kk = none) ∧
    (∃ (who : Who) (kk : Fin 32) (o : SemOwner) (s : State), live s = true ∧ who.remote = none ∧ s.brg.sems.get kk = some o) ∧
    (∃ (who : Who) (kk : Fin 32) (v : Word) (o : SemOwner) (s : State), live s = true ∧ s.brg.sems.get kk = some o ∧ ((o.id, o.fid) = who.owner ∨ isPriv s who = true) ∧ v = 0 ∧ unguarded s who = true) ∧
    (∃ (who : Who) (kk : Fin 32) (v : Word) (s : State), live s = true ∧ v ≠ 0 ∧ unguarded s who = true) ∧
    (∃ (who : Who) (kk : Fin 32) (v : Word) (o : SemOwner) (s : State), live s = true ∧ s.brg.sems.get kk = some o ∧ (o.id, o.fid) ≠ who.owner ∧ isPriv s who = false ∧ v = 0 ∧ who.remote = none ∧ (who.id ≠ 46 ∧ who.id ≠ 47) ∧ unguarded s who = true) ∧
    (∃ (who : Who) (kk : Fin 32) (v : Word) (s : State), live s = true ∧ s.brg.sems.get kk = none ∧ isPriv s who = false ∧ v = 0 ∧ who.remote = none ∧ (who.id ≠ 46 ∧ who.id ≠ 47) ∧ unguarded s who = true) :=
  ⟨⟨setF F.BRG_RDTMO_TMO 5 (modBrg (fun b => { b with reads := [{ tag := 3, use := .poll 4, who := ⟨47, true, none⟩, laddr := 0x80000000, addr := 0x100, len := 4, fid := 6, since := 10, line := false, want := (0, 4) }] }) (setF F.BST_STATUS_RUNNING 0xFF (modBrg (fun b => { b with opened := true, perst := true }) (setF F.BRG_CTL_HEN 1 (setF F.BRG_CTL_FEN 1 State.reset))))), by decide +kernel⟩,
   ⟨{ modBrg (fun b => { b with hostBufs := [{ fid := 0, line := 5, bytes := [], at' := 0 }], fabBufs := [{ fid := 6, line := 5, bytes := [], at' := 900 }] }) (setF F.BRG_CTL_PFAGE 2 (modBrg (fun b => { b with opened := true, perst := true }) (setF F.BRG_CTL_HEN 1 (setF F.BRG_CTL_FEN 1 State.reset)))) with now := 1000 }, by decide +kernel⟩,
   ⟨⟨7, false, none⟩, 30, setF F.BST_STATUS_RUNNING 0xFF (modBrg (fun b => { b with opened := true, perst := true }) (setF F.BRG_CTL_HEN 1 (setF F.BRG_CTL_FEN 1 State.reset))), by decide +kernel⟩,
   ⟨⟨9, false, none⟩, 30, { id := 7, fid := 0, since := 5 }, setSem 30 (some { id := 7, fid := 0, since := 5 }) (setF F.BST_STATUS_RUNNING 0xFF (modBrg (fun b => { b with opened := true, perst := true }) (setF F.BRG_CTL_HEN 1 (setF F.BRG_CTL_FEN 1 State.reset)))), by decide +kernel⟩,
   ⟨⟨7, false, none⟩, 30, 0, { id := 7, fid := 0, since := 5 }, setSem 30 (some { id := 7, fid := 0, since := 5 }) (setF F.BST_STATUS_RUNNING 0xFF (modBrg (fun b => { b with opened := true, perst := true }) (setF F.BRG_CTL_HEN 1 (setF F.BRG_CTL_FEN 1 State.reset)))), by decide +kernel⟩,
   ⟨⟨7, false, none⟩, 30, 6, setSem 30 (some { id := 7, fid := 0, since := 5 }) (setF F.BST_STATUS_RUNNING 0xFF (modBrg (fun b => { b with opened := true, perst := true }) (setF F.BRG_CTL_HEN 1 (setF F.BRG_CTL_FEN 1 State.reset)))), by decide +kernel⟩,
   ⟨⟨9, false, none⟩, 30, 0, { id := 7, fid := 0, since := 5 }, modCore 9 (fun k => { k with sup := false }) <| setSem 30 (some { id := 7, fid := 0, since := 5 }) (setF F.BST_STATUS_RUNNING 0xFF (modBrg (fun b => { b with opened := true, perst := true }) (setF F.BRG_CTL_HEN 1 (setF F.BRG_CTL_FEN 1 State.reset)))), by decide +kernel⟩,
   ⟨⟨9, false, none⟩, 30, 0, modCore 9 (fun k => { k with sup := false }) <| (setF F.BST_STATUS_RUNNING 0xFF (modBrg (fun b => { b with opened := true, perst := true }) (setF F.BRG_CTL_HEN 1 (setF F.BRG_CTL_FEN 1 State.reset)))), by decide +kernel⟩⟩

/-- States and operands that meet the hypotheses of FabricBridge. -/
theorem witness_FabricBridge_3 :
    (∃ (kk : Fin 32) (o : SemOwner) (s : State), live s = true ∧ s.brg.sems.get kk = some o ∧ o.since + 1000 * getF s F.BRG_SEMCFG_HOLD ≤ s.now ∧ merges s A.BRG_EVT 3 = false) ∧
    (∃ (kk : Fin 32) (o : SemOwner) (s : State), live s = true ∧ s.brg.sems.get kk = some o ∧ s.now < o.since + 1000 * getF s F.BRG_SEMCFG_HOLD) ∧
    (∃ (kk : Fin 16) (x : Fin 0x100) (s : State), live s = true ∧ calm s s = true ∧ isSet s (F.BRG_IP_CFG_EN kk) = true ∧ s.brg.reads = [] ∧ s.brg.polled.get kk = none ∧ s.brg.pollAt.get kk + 1000 * getF s (F.BRG_IP_CFG_PERIOD kk) ≤ s.now ∧ getF s (F.BRG_IP_SRC_ADDR kk) = 0xC000000 + x.val ∧ eccOf s (0x30000000 + 4 * x.val) 4 = 0 ∧ s.brg.sems = Vector.replicate 32 none) ∧
    (∃ (kk : Fin 16) (s : State), live s = true ∧ calm s s = true ∧ (isSet s (F.BRG_IP_CFG_EN kk) = false ∨ s.now < s.brg.pollAt.get kk + 1000 * getF s (F.BRG_IP_CFG_PERIOD kk))) ∧
    (∃ (kk : Fin 16) (w : Word) (s : State), live s = true ∧ s.brg.polled.get kk = some (0, w) ∧ isSet s (F.BRG_IP_CFG_EDGE kk) = true ∧ (w &&& rd s (A.BRG_IP_MASK kk)) = rd s (A.BRG_IP_LAST kk)) ∧
    (∃ (kk : Fin 16) (w : Word) (s : State), live s = true ∧ s.brg.polled.get kk = some (0, w) ∧ isSet s (F.BRG_IP_CFG_EDGE kk) = false ∧ (w &&& rd s (A.BRG_IP_MASK kk)) = 0) ∧
    (∃ (kk : Fin 16) (w : Word) (v : Fin 32) (s : State), live s = true ∧ s.brg.polled.get kk = some (0, w) ∧ isSet s (F.BRG_IP_CFG_EDGE kk) = false ∧ (w &&& rd s (A.BRG_IP_MASK kk)) ≠ 0 ∧ s.brg.disarmed.get kk = false ∧ isSet s (F.BRG_IP_CFG_MSIX kk) = true ∧ getF s (F.BRG_IP_CFG_DEST kk) = v ∧ (s.brg.msix.get v).masked = true) ∧
    (∃ (kk : Fin 16) (c : Nat) (w : Word) (s : State), live s = true ∧ s.brg.polled.get kk = some (c, w) ∧ c ≠ 0 ∧ merges s A.BRG_EVT 5 = false) :=
  ⟨⟨30, { id := 7, fid := 0, since := 5 }, { setSem 30 (some { id := 7, fid := 0, since := 5 }) (setF F.BST_STATUS_RUNNING 0xFF (modBrg (fun b => { b with opened := true, perst := true }) (setF F.BRG_CTL_HEN 1 (setF F.BRG_CTL_FEN 1 State.reset)))) with now := 1000000000 }, by decide +kernel⟩,
   ⟨30, { id := 7, fid := 0, since := 5 }, setF F.BRG_SEMCFG_HOLD 9 (setSem 30 (some { id := 7, fid := 0, since := 5 }) (setF F.BST_STATUS_RUNNING 0xFF (modBrg (fun b => { b with opened := true, perst := true }) (setF F.BRG_CTL_HEN 1 (setF F.BRG_CTL_FEN 1 State.reset))))), by decide +kernel⟩,
   ⟨4, 5, { setF (F.BRG_IP_SRC_ADDR 4) 0xC000005 (setF (F.BRG_IP_CFG_EN 4) 1 (setF F.BST_STATUS_RUNNING 0xFF (modBrg (fun b => { b with opened := true, perst := true }) (setF F.BRG_CTL_HEN 1 (setF F.BRG_CTL_FEN 1 State.reset))))) with now := 1000000000 }, by decide +kernel⟩,
   ⟨4, State.reset, by decide +kernel⟩,
   ⟨4, 0x500#32, setF (F.BRG_IP_CFG_EDGE 4) 1 (modBrg (fun b => { b with polled := b.polled.set 4 (some (0, 0x500)) }) (wr (A.BRG_IP_MASK 4) 0xFF (setF F.BST_STATUS_RUNNING 0xFF (modBrg (fun b => { b with opened := true, perst := true }) (setF F.BRG_CTL_HEN 1 (setF F.BRG_CTL_FEN 1 State.reset)))))), by decide +kernel⟩,
   ⟨4, 0x500#32, modBrg (fun b => { b with polled := b.polled.set 4 (some (0, 0x500)), disarmed := b.disarmed.set 4 true }) (wr (A.BRG_IP_MASK 4) 0xFF (setF F.BST_STATUS_RUNNING 0xFF (modBrg (fun b => { b with opened := true, perst := true }) (setF F.BRG_CTL_HEN 1 (setF F.BRG_CTL_FEN 1 State.reset))))), by decide +kernel⟩,
   ⟨4, 0x55#32, 3, setF (F.BRG_IP_CFG_MSIX 4) 1 (setF (F.BRG_IP_CFG_DEST 4) 3 (modBrg (fun b => { b with polled := b.polled.set 4 (some (0, 0x55)) }) (wr (A.BRG_IP_MASK 4) 0xFF (setF F.BST_STATUS_RUNNING 0xFF (modBrg (fun b => { b with opened := true, perst := true }) (setF F.BRG_CTL_HEN 1 (setF F.BRG_CTL_FEN 1 State.reset))))))), by decide +kernel⟩,
   ⟨4, 1, 0, modBrg (fun b => { b with polled := b.polled.set 4 (some (1, 0)) }) (setF F.BST_STATUS_RUNNING 0xFF (modBrg (fun b => { b with opened := true, perst := true }) (setF F.BRG_CTL_HEN 1 (setF F.BRG_CTL_FEN 1 State.reset)))), by decide +kernel⟩⟩

end Sys2Proof.Tests
end

section
/-! The laws of numbers in memory: the bytes of a number, the number of a run of bytes, and what a stored number reads as
(00_scope R7). -/

namespace Sys2Proof.Machine

/-! ### Numbers and lists of bytes -/

@[simp] theorem length_leBytes (n v : Nat) : (leBytes n v).length = n := by
  induction n generalizing v with
  | zero => rfl
  | succ n ih => simp [leBytes, ih]

/-- Byte `k` of a number is digit `k` of it to the base 256, the low digit first. -/
theorem getElem_leBytes (n v k : Nat) (h : k < (leBytes n v).length) : (leBytes n v)[k] = b8 (v / 256 ^ k) := by
  induction n generalizing v k with
  | zero => simp at h
  | succ n ih =>
    cases k with
    | zero => simp [leBytes]
    | succ k =>
      have hk : k < (leBytes n (v / 256)).length := by simpa using h
      calc (leBytes (n + 1) v)[k + 1] = (leBytes n (v / 256))[k] := rfl
        _ = b8 (v / 256 / 256 ^ k) := ih (v / 256) k hk
        _ = b8 (v / 256 ^ (k + 1)) := by rw [Nat.div_div_eq_div_mul, pow_succ']

/-- The bytes of a number read back as it, but for what does not fit into them. -/
theorem leNat_leBytes (n v : Nat) : leNat (leBytes n v) = v % 256 ^ n := by
  induction n generalizing v with
  | zero => simp [leBytes, leNat, Nat.mod_one]
  | succ n ih => simp [leBytes, leNat, b8, ih, pow_succ', Nat.mod_mul]

/-- Bit `i` of a little-endian number is bit `i % 8` of byte `i / 8`. -/
theorem testBit_leNat (bs : List Byte) (i : Nat) : (leNat bs).testBit i = (bs.getD (i / 8) 0).getLsbD (i % 8) := by
  induction bs generalizing i with
  | nil => simp [leNat]
  | cons b t ih =>
    have hsplit : (leNat (b :: t)).testBit i = if i < 8 then b.toNat.testBit i else (leNat t).testBit (i - 8) := by
      rw [leNat, Nat.add_comm]
      exact Nat.testBit_two_pow_mul_add (leNat t) b.isLt i
    rw [hsplit]
    split
    · next hlow => simp [Nat.div_eq_of_lt hlow, Nat.mod_eq_of_lt hlow, BitVec.testBit_toNat]
    · next hhigh =>
      have hdiv : i / 8 = (i - 8) / 8 + 1 := by omega
      have hmod : i % 8 = (i - 8) % 8 := by omega
      rw [ih, hdiv, hmod, List.getD_cons_succ]

/-! ### Numbers in memory -/

@[simp] theorem length_bytesAt (s : State) (a n : Nat) : (bytesAt s a n).length = n := by simp [bytesAt]

theorem getElem_bytesAt (s : State) (a n k : Nat) (h : k < (bytesAt s a n).length) : (bytesAt s a n)[k] = byteAt s (a + k) := by
  simp [bytesAt]

/-- Bit `i` of the number in `n` bytes lies in the byte `i / 8` above its address. -/
theorem testBit_memNat (s : State) (a n i : Nat) (h : i / 8 < n) :
    (memNat s a n).testBit i = (byteAt s (a + i / 8)).getLsbD (i % 8) := by
  have hlen : i / 8 < (bytesAt s a n).length := by simpa using h
  rw [memNat, testBit_leNat, List.getD_eq_getElem _ _ hlen, getElem_bytesAt]

/-- A run of bytes reads back as what was stored. -/
theorem bytesAt_putBytes (bs : List Byte) (a : Nat) (s : State) : bytesAt (putBytes a bs s) a bs.length = bs := by
  apply List.ext_getElem (length_bytesAt _ _ _)
  intro k _ hk
  rw [getElem_bytesAt, byteAt_putBytes_inside bs a k s hk]

theorem memNat_memPut (a n v : Nat) (s : State) : memNat (memPut a n v s) a n = v % 256 ^ n := by
  have hbytes : bytesAt (memPut a n v s) a n = leBytes n v := by
    simpa [memPut] using bytesAt_putBytes (leBytes n v) a s
  rw [memNat, hbytes, leNat_leBytes]

theorem byteAt_memPut_inside (a n v k : Nat) (s : State) (h : k < n) : byteAt (memPut a n v s) (a + k) = b8 (v / 256 ^ k) := by
  have hlen : k < (leBytes n v).length := by simpa using h
  rw [memPut, byteAt_putBytes_inside _ _ _ _ hlen, getElem_leBytes]

theorem sameBytes_memPut (a n v : Nat) (s : State) : sameBytes a n s (memPut a n v s) := by
  intro b hb
  exact byteAt_putBytes_outside (leBytes n v) a b s (by rw [length_leBytes]; omega)

theorem memPut_eq (a n v : Nat) (s : State) : memPut a n v s = { s with mem := (memPut a n v s).mem } := by
  obtain ⟨m, hm⟩ := putBytes_eq (leBytes n v) a s
  rw [memPut, hm]

end Sys2Proof.Machine

namespace Sys2Proof.Proofs

open Sys2Proof.Machine

/-- Settles O7: a bit of a word is found in its byte (`testBit_memNat`), and a stored number is its digits to the base 256
(`getElem_leBytes`), which the laws of runs of bytes read back. -/
theorem littleEndianMemory : Obligations.LittleEndianMemory := by
  unfold Obligations.LittleEndianMemory
  refine ⟨fun s a k => ?_, fun s a n v => ⟨memNat_memPut a n v s, fun k hk => byteAt_memPut_inside a n v k s hk,
    sameBytes_memPut a n v s, memPut_eq a n v s⟩⟩
  have hk : k.val < 32 := k.isLt
  rw [w32, BitVec.getLsbD_ofNat, decide_eq_true hk, Bool.true_and, testBit_memNat s a 4 k (by omega)]

end Sys2Proof.Proofs
end

section
/-! What the state after power-on reads as (00_scope R10, 03_weevil_core R81, 07_lockkeeper R226). -/

namespace Sys2Proof.Machine

/-- A byte that nothing has written reads as after power-on (log 2). -/
@[simp] theorem byteAt_reset (a : Nat) : byteAt State.reset a = memReset a := rfl

/-- A register word that nothing has written reads its reset value (R10). -/
@[simp] theorem rd_reset (a : Nat) : rd State.reset a = w32 (resetNat a) := rfl

@[simp] theorem core_reset (i : Nat) : State.reset.core i = Core.reset := Vector.getElem_replicate _

@[simp] theorem mbox_reset (m : Fin 64) : State.reset.mbox.get m = Mbox.reset := Vector.getElem_replicate _

/-- Right after reset the memory list and the register list are canonical: both are empty. -/
theorem reset_canonical : State.reset.canonical = true := by
  have hregs : Registers.wf State.reset.regs = true := rfl
  rw [State.canonical, hregs, Bool.and_true]
  exact reset_memOk

end Sys2Proof.Machine

namespace Sys2Proof.Proofs

open Sys2Proof.Machine

/-- Settles O4: the lists of the reset state are empty, so bytes and registers read their reset values, and every core and every
mailbox is a copy of the one after reset. -/
theorem resetState : Obligations.ResetState := by
  unfold Obligations.ResetState
  refine ⟨rfl, reset_canonical, rfl, rfl, byteAt_reset, rd_reset, fun i => ?cores, fun m => ?mailboxes, rfl⟩
  case cores =>
    rw [core_reset]
    exact ⟨Vector.getElem_replicate _, rfl, rfl⟩
  case mailboxes => rw [mbox_reset]; rfl

end Sys2Proof.Proofs
end

section
/-! Two statements of the field side that fail at one value each: a commit instant after the wrap of the cycle number (05_scan_cycle
R143), and a read-back delay of 0 (10_field_io R298). -/

namespace Sys2Proof.Machine

/-- The F-die on its first cycle after the wrap: channel 0 holds byte 0x00, whose last commit is of cycle 0xFFFFFFFF, and its instant
for cycle 1, the cycle that follows (R143), has come. -/
def wrappedCycle : State :=
  modFio (fun b => { b with
    on := true, matched := true, flink := true, copy := [(A.FIO_CH_CTL 0, 1#32)], safe := Vector.replicate 16 false
    finst := vset b.finst 0 (some ⟨0, 1, false⟩), got := vset b.got 0 1, gotTag := vset b.gotTag 0 0xFFFFFFFF }) State.reset

/-- Cycle 1 follows cycle 0xFFFFFFFF, so the byte is late and keeps its previous value. -/
theorem wrappedCycle_keeps_output : vget (commitInstantReached 0 (quiet wrappedCycle)).fio.cmt 0 ≠ vget wrappedCycle.fio.got 0 := by
  decide +kernel

/-- An F-die whose copy of FIO_DTCTL has RBDLY 0, with switching times that lie ahead of the model time: what is left of its read-back
delay is 0, as a difference of natural numbers. -/
def switchAhead : State :=
  modFio (fun b => { b with on := true, matched := true, copy := [(A.FIO_DTCTL, 0#32)], drvAt := Vector.replicate 32 1 }) State.reset

/-- The read-back fault of an output is latched there, before the output has switched. -/
theorem switchAhead_latches : (outputFault 0 4 true (quiet switchAhead)).fio ≠ switchAhead.fio := by
  decide +kernel

end Sys2Proof.Machine

namespace Sys2Proof.Proofs

open Sys2Proof.Machine

/-- Refutes O44: a held byte of cycle 0xFFFFFFFF is not applied at the instant of cycle 1, although 1 ≤ 0xFFFFFFFF: the model orders cycle
numbers as they wrap (R143), and the clause on bytes of the cycle orders them as numbers. -/
theorem not_fieldLink : ¬ Obligations.FieldLink := by
  unfold Obligations.FieldLink
  rintro ⟨-, -, -, -, -, -, -, -, -, -, -, bytesApplied, -⟩
  obtain ⟨t, ht, hcmt, -⟩ := bytesApplied 0 ⟨0, 1, false⟩ wrappedCycle (by decide +kernel) (by decide +kernel) rfl (by decide +kernel)
    (by decide +kernel) (by decide +kernel) (by decide +kernel)
  have hrun : exec (.fDieCommitInstant 0) wrappedCycle = .next (settled wrappedCycle (commitInstantReached 0 (quiet wrappedCycle))) := rfl
  obtain rfl : settled wrappedCycle (commitInstantReached 0 (quiet wrappedCycle)) = t := by
    rw [hrun] at ht; injection ht
  exact wrappedCycle_keeps_output hcmt

/-- Refutes O46: with a read-back delay of 0 and a switching time ahead of the model time, the clause that nothing happens before the
delay is over has its condition, and the fault is latched. -/
theorem not_fieldOutputs : ¬ Obligations.FieldOutputs := by
  unfold Obligations.FieldOutputs
  rintro ⟨-, -, nothingBefore, -⟩
  obtain ⟨t, ht, hsame⟩ := nothingBefore 0 4 true switchAhead rfl rfl rfl (by decide +kernel)
  have hrun : exec (.outputFault 0 4 true) switchAhead = .next (settled switchAhead (outputFault 0 4 true (quiet switchAhead))) := rfl
  obtain rfl : settled switchAhead (outputFault 0 4 true (quiet switchAhead)) = t := by
    rw [hrun] at ht; injection ht
  exact switchAhead_latches (congrArg State.fio hsame)

end Sys2Proof.Proofs
end

section
/-! What commands of the F-die leave: its side of the field link changes the field part of the state alone, and the reflex rules, the
inputs, the analog inputs and the edge FIFO each touch their own fields of it (10_field_io R291 to R306). -/

namespace Sys2Proof.Machine

/-! ### One bit of a vector -/

/-- What a bit reads after bit `i` has been replaced. -/
theorem getLsbD_bvSet {n : Nat} (v : BitVec n) (i j : Nat) (b : Bool) (hi : i < n) :
    (bvSet v i b).getLsbD j = if j = i then b else v.getLsbD j := by
  have hone : 1#n <<< i = BitVec.twoPow n i := (BitVec.twoPow_eq n i).symm
  by_cases hji : j = i
  · subst hji
    cases b <;> simp [bvSet, hone, hi]
  · cases b <;> by_cases hj : j < n <;> simp [bvSet, hone, hji, Ne.symm hji, hj]
    exact BitVec.getLsbD_of_ge v j (Nat.le_of_not_lt hj)

/-! ### What a change of the field part keeps -/

/-- Nothing but the field part differs, and what `p` reads of that is as before. -/
def keeps {α : Type} (p : Fio → α) (s t : State) : Prop := t = { s with fio := t.fio } ∧ p t.fio = p s.fio

variable {α β : Type} {p : Fio → α} {q : Fio → β} {s t u : State}

theorem keeps.refl (p : Fio → α) (s : State) : keeps p s s := ⟨rfl, rfl⟩

theorem keeps.trans (h : keeps p s t) (g : keeps p t u) : keeps p s u := by
  refine ⟨?_, g.2.trans h.2⟩
  calc u = { t with fio := u.fio } := g.1
    _ = { s with fio := u.fio } := by rw [h.1]

/-- What is read of a part that is kept is kept. -/
theorem keeps.weaken (h : keeps p s t) (g : α → β) (hg : ∀ b, g (p b) = q b) : keeps q s t :=
  ⟨h.1, by rw [← hg, ← hg, h.2]⟩

theorem keeps.modFio {f : Fio → Fio} (h : keeps p s t) (hp : p (f t.fio) = p t.fio) : keeps p s (modFio f t) :=
  h.trans ⟨rfl, hp⟩

theorem keeps.each {γ : Type} {f : γ → State → State} (hf : ∀ x t, keeps p t (f x t)) (l : List γ) (h : keeps p s t) :
    keeps p s (each l f t) :=
  each_keeps (keeps p s) l f (fun x t ht => ht.trans (hf x t)) t h

theorem keeps.ite {c : Prop} [Decidable c] (ht : keeps p s t) (hu : keeps p s u) : keeps p s (if c then t else u) := by
  split
  · exact ht
  · exact hu

/-- A last step that may be left out. -/
theorem keeps.iteThen {c : Prop} [Decidable c] (ht : keeps p s t) (hu : keeps p t u) : keeps p s (if c then u else t) :=
  .ite (ht.trans hu) ht

theorem keeps.now (h : keeps p s t) : t.now = s.now := by rw [h.1]

/-- A command that changes the field part alone leaves all else but what was sent. -/
theorem keeps.leaves (h : keeps p (quiet s) t) : settled s t = { s with fio := t.fio, sent := t.sent } := by
  have ht := h.1
  rw [ht]; rfl

/-- What the F-die acts on depends on its copy of the configuration alone. -/
theorem fdWord_congr (h : keeps (fun b => (b.matched, b.copy)) s t) : fdWord t = fdWord s := by
  have hcopy : (t.fio.matched, t.fio.copy) = (s.fio.matched, s.fio.copy) := h.2
  injection hcopy with hmatched hcopy
  funext pa
  unfold fdWord fdCopy
  rw [hmatched, hcopy]

@[simp] theorem fdWord_quiet (s : State) : fdWord (quiet s) = fdWord s := rfl

/-! ### Reflex rules (R302) -/

/-- The field part without what the reflex rules and the drivers they switch hold. -/
def Fio.besideReflex (b : Fio) : Fio :=
  { b with rxHeld := 0, rxR := 0, rxSeen := 0, hit := 0, drv := 0, drvAt := Vector.replicate 32 0, news := FdNews.none }

theorem besideReflex_drivers (b : Fio) (v : BitVec 32) (at' : Vector Nat 32) :
    Fio.besideReflex { b with drv := v, drvAt := at' } = b.besideReflex := rfl

theorem besideReflex_rules (b : Fio) (held r seen hit : BitVec 16) :
    Fio.besideReflex { b with rxHeld := held, rxR := r, rxSeen := seen, hit := hit } = b.besideReflex := rfl

theorem noteDrive_keeps (s : State) : keeps Fio.besideReflex s (noteDrive s) := by
  unfold noteDrive
  dsimp only
  split
  · exact .refl _ _
  · exact .modFio (.refl _ _) (besideReflex_drivers _ _ _)

theorem tell_keeps (k : Nat) (s : State) : keeps Fio.besideReflex s (tell k s) := ⟨rfl, rfl⟩

/-- The reflex rules change what they hold, the drivers they switch and what is to be reported. -/
theorem evalRx_keeps (s : State) : keeps Fio.besideReflex s (evalRx s) := by
  unfold evalRx
  refine keeps.trans ?_ (noteDrive_keeps _)
  split
  · exact .modFio (.refl _ _) (besideReflex_rules _ _ _ _ _)
  · exact .trans (.modFio (.refl _ _) (besideReflex_rules _ _ _ _ _)) (tell_keeps _ _)

@[simp] theorem evalRx_raw (s : State) : (evalRx s).fio.raw = s.fio.raw :=
  ((evalRx_keeps s).weaken (q := Fio.raw) Fio.raw fun _ => rfl).2

@[simp] theorem evalRx_rawNow (s : State) : (evalRx s).fio.rawNow = s.fio.rawNow :=
  ((evalRx_keeps s).weaken (q := Fio.rawNow) Fio.rawNow fun _ => rfl).2

@[simp] theorem evalRx_rawTime (s : State) : (evalRx s).fio.rawTime = s.fio.rawTime :=
  ((evalRx_keeps s).weaken (q := Fio.rawTime) Fio.rawTime fun _ => rfl).2

@[simp] theorem evalRx_filt (s : State) : (evalRx s).fio.filt = s.fio.filt :=
  ((evalRx_keeps s).weaken (q := Fio.filt) Fio.filt fun _ => rfl).2

@[simp] theorem evalRx_accNow (s : State) : (evalRx s).fio.accNow = s.fio.accNow :=
  ((evalRx_keeps s).weaken (q := Fio.accNow) Fio.accNow fun _ => rfl).2

@[simp] theorem evalRx_fedges (s : State) : (evalRx s).fio.fedges = s.fio.fedges :=
  ((evalRx_keeps s).weaken (q := Fio.fedges) Fio.fedges fun _ => rfl).2

@[simp] theorem evalRx_elost (s : State) : (evalRx s).fio.elost = s.fio.elost :=
  ((evalRx_keeps s).weaken (q := Fio.elost) Fio.elost fun _ => rfl).2

/-! ### Inputs (R291 to R295, R304) -/

/-- The field part without what the digital inputs hold either. -/
def Fio.besideInputs (b : Fio) : Fio :=
  { b.besideReflex with raw := 0, rawNow := Vector.replicate 64 0, rawTime := Vector.replicate 64 0, filt := 0,
                        accNow := Vector.replicate 64 0, samples := Vector.replicate 64 0, fedges := [], elost := false }

theorem keeps.besideInputs (h : keeps Fio.besideReflex s t) : keeps Fio.besideInputs s t :=
  h.weaken Fio.besideInputs fun _ => rfl

/-- A raw transition of an input that is not pulsed is taken over, with its time. -/
theorem rawInput_changes (i : Nat) (v : Bool) (s : State) (hon : s.fio.on = true) (hp : pulsed s (i / 8) = false)
    (hv : s.fio.raw.getLsbD i ≠ v) :
    rawInput i v s = evalRx (modFio (fun b => { b with
      raw := bvSet b.raw i v, rawNow := vset b.rawNow i s.now, rawTime := vset b.rawTime i (fieldTime s) }) s) := by
  unfold rawInput
  rw [if_neg (by simp [hon, hp, hv])]

theorem rawInput_keeps (i : Nat) (v : Bool) (s : State) : keeps Fio.besideInputs s (rawInput i v s) := by
  unfold rawInput
  exact .ite (.refl _ _) (.trans (.modFio (.refl _ _) rfl) (evalRx_keeps _).besideInputs)

/-- An input that forms no stamps leaves the edge FIFO. -/
theorem stampEdge_unstamped (i : Nat) (v : Bool) (s : State) (hi : 16 ≤ i) : stampEdge i v s = s := by
  unfold stampEdge
  rw [if_pos (Or.inl hi)]

/-- An enabled edge forms an entry while the FIFO has room (R294). -/
theorem stampEdge_stamps (i : Nat) (v : Bool) (s : State) (hi : i < 16) (hp : pulsed s (i / 8) = false)
    (he : fdBit s A.FIO_EDGEEN (if v then i else 16 + i) = true) (hroom : s.fio.fedges.length < 64) :
    stampEdge i v s = modFio (fun b => { b with
      fedges := b.fedges ++ [{ time := vget b.rawTime i, rise := v, input := i, lost := b.elost }], elost := false }) s := by
  unfold stampEdge
  rw [if_neg (by simp [hi, hp, he]), if_pos hroom]

/-- The field part without the edge FIFO of the F-die and what is to be reported. -/
def Fio.besideStamps (b : Fio) : Fio := { b with fedges := [], elost := false, news := FdNews.none }

theorem stampEdge_keeps (i : Nat) (v : Bool) (s : State) : keeps Fio.besideStamps s (stampEdge i v s) := by
  unfold stampEdge modNews
  exact .ite (.refl _ _) (.ite (.modFio (.refl _ _) rfl) (.modFio (.modFio (.refl _ _) rfl) rfl))

@[simp] theorem stampEdge_raw (i : Nat) (v : Bool) (s : State) : (stampEdge i v s).fio.raw = s.fio.raw :=
  ((stampEdge_keeps i v s).weaken (q := Fio.raw) Fio.raw fun _ => rfl).2

@[simp] theorem stampEdge_filt (i : Nat) (v : Bool) (s : State) : (stampEdge i v s).fio.filt = s.fio.filt :=
  ((stampEdge_keeps i v s).weaken (q := Fio.filt) Fio.filt fun _ => rfl).2

theorem acceptInput_keeps (i : Nat) (v : Bool) (s : State) : keeps Fio.besideInputs s (acceptInput i v s) := by
  unfold acceptInput
  exact .trans (.trans (.modFio (.refl _ _) rfl) ((stampEdge_keeps _ _ _).weaken Fio.besideInputs fun _ => rfl))
    (evalRx_keeps _).besideInputs

@[simp] theorem acceptInput_raw (i : Nat) (v : Bool) (s : State) : (acceptInput i v s).fio.raw = s.fio.raw := by
  simp [acceptInput]

@[simp] theorem inputFilter_quiet (s : State) (i : Nat) : inputFilter (quiet s) i = inputFilter s i := by
  unfold inputFilter
  rw [fdWord_quiet]

@[simp] theorem stretchOver_quiet (s : State) (i : Nat) : stretchOver (quiet s) i = stretchOver s i := by
  unfold stretchOver fdF
  rw [fdWord_quiet, quiet_fio, quiet_now]

/-- A raw state that has held for the filter time is accepted. -/
theorem filterAccept_accepts (i : Nat) (s : State) (hon : s.fio.on = true) (hp : pulsed s (i / 8) = false)
    (hv : s.fio.filt.getLsbD i ≠ s.fio.raw.getLsbD i) (hheld : vget s.fio.rawNow i + inputFilter s i ≤ s.now)
    (hst : stretchOver s i = true) : filterAccept i s = acceptInput i (s.fio.raw.getLsbD i) s := by
  unfold filterAccept
  rw [if_pos ⟨hon, by simp [hp], hv, hheld, hst⟩]

/-! ### Pulsed samples (R292, R293) -/

theorem sampleInput_keeps (i : Nat) (v : Bool) (s : State) : keeps Fio.besideInputs s (sampleInput i v s) := by
  unfold sampleInput
  exact .ite (.trans (.modFio (.refl _ _) rfl) (acceptInput_keeps _ _ _)) (.modFio (.refl _ _) rfl)

@[simp] theorem sampleInput_raw (i : Nat) (v : Bool) (s : State) : (sampleInput i v s).fio.raw = bvSet s.fio.raw i v := by
  unfold sampleInput
  generalize (if s.fio.raw.getLsbD i = v then vget s.fio.samples i + 1 else 1) = n
  dsimp only
  split
  · exact acceptInput_raw _ _ _
  · rfl

/-- Samples of inputs from `lo` on give those inputs their levels, and leave the others. -/
theorem each_sampleInput_raw (lo n k : Nat) (v : Nat → Bool) (s : State) (hn : lo + n ≤ 64) :
    (each (List.range n) (fun j => sampleInput (lo + j) (v j)) s).fio.raw.getLsbD k
      = if lo ≤ k ∧ k < lo + n then v (k - lo) else s.fio.raw.getLsbD k := by
  induction n with
  | zero => simp
  | succ n ih =>
    rw [List.range_succ, each_append, each_cons, each_nil, sampleInput_raw, getLsbD_bvSet _ _ _ _ (by omega), ih (by omega)]
    by_cases hk : k = lo + n
    · simp [hk]
    · rw [if_neg hk]
      congr 1
      simp only [eq_iff_iff]
      omega

/-- Whether a sample is due depends on nothing that the inputs hold. -/
theorem sampleDue_congr (h : keeps Fio.besideInputs s t) (g : Nat) : sampleDue t g = sampleDue s g := by
  have hword : fdWord t = fdWord s := fdWord_congr (h.weaken (fun b => (b.matched, b.copy)) fun _ => rfl)
  have htime : fieldTime t = fieldTime s := by
    have hbase : (t.fio.fbase, t.fio.fnow) = (s.fio.fbase, s.fio.fnow) :=
      (h.weaken (q := fun b => (b.fbase, b.fnow)) (fun b => (b.fbase, b.fnow)) fun _ => rfl).2
    injection hbase with hbase hfnow
    rw [fieldTime, fieldTime, hbase, hfnow, h.now]
  have hat : t.fio.sampleAt = s.fio.sampleAt := (h.weaken (q := Fio.sampleAt) Fio.sampleAt fun _ => rfl).2
  unfold sampleDue pulsePeriod fdF
  rw [hword, htime, hat]

/-- A sample instant that has been taken is due no more. -/
theorem sampleDue_taken (g : Nat) (s : State) :
    sampleDue (modFio (fun b => { b with sampleAt := vset b.sampleAt g (fieldTime s / pulsePeriod s g + 1) }) s) g = false := by
  have hat : (vget (vset s.fio.sampleAt g (fieldTime s / pulsePeriod s g + 1)) g != fieldTime s / pulsePeriod s g + 1) = false := by simp
  exact (congrArg _ hat).trans (Bool.and_false _)

/-- At its instant a pulsed group is sampled. -/
theorem pulsedSample_samples (g : Nat) (levels : BitVec 8) (s : State) (hon : s.fio.on = true) (hp : pulsed s g = true)
    (hdue : sampleDue s g = true) :
    pulsedSample g levels s = each (List.range 8) (fun j => sampleInput (8 * g + j) (levels.getLsbD j))
      (modFio (fun b => { b with sampleAt := vset b.sampleAt g (fieldTime s / pulsePeriod s g + 1) }) s) := by
  unfold pulsedSample
  rw [if_neg (by simp [hon, hp, hdue])]

theorem pulsedSample_idle (g : Nat) (levels : BitVec 8) (s : State) (hdue : sampleDue s g = false) : pulsedSample g levels s = s := by
  unfold pulsedSample
  rw [if_pos (by simp [hdue])]

end Sys2Proof.Machine
end

section
/-! Analog rounds of the F-die: what the loop over the enabled channels stores (10_field_io R305, R306). -/

namespace Sys2Proof.Machine

/-- What channel `c` reports at the end of a round: its value, over-range and wire break. -/
def aiResult (vals : List (List Int)) (s : State) (c : Nat) : BitVec 16 × Bool × Bool :=
  let n := 2 ^ fdF s (F.FIO_AI_AVG c)
  let counts := aiCounts (fdF s (F.FIO_AI_RANGE c)) (aiSum (vals.getD c []) n) n
  aiScale (fdF s (F.FIO_AI_RANGE c)) counts.1 counts.2

/-- One channel stores what it reports. -/
def aiStore (vals : List (List Int)) (c : Nat) (s : State) : State :=
  modFio (fun b => { b with
    ai := vset b.ai c (aiResult vals s c).1, aiOver := bvSet b.aiOver c (aiResult vals s c).2.1
    aiBreak := bvSet b.aiBreak c (aiResult vals s c).2.2 }) s

theorem aiStore_ai (vals : List (List Int)) (c : Nat) (s : State) : (aiStore vals c s).fio.ai = vset s.fio.ai c (aiResult vals s c).1 := rfl

theorem aiStore_aiBreak (vals : List (List Int)) (c : Nat) (s : State) :
    (aiStore vals c s).fio.aiBreak = bvSet s.fio.aiBreak c (aiResult vals s c).2.2 := rfl

/-- The channels that convert. -/
def aiChannels (s : State) : List Nat := (List.range 8).filter fun c => fdSet s (F.FIO_AI_EN c)

/-- A round that has lasted its time stores each enabled channel, ends, and is to be reported. -/
theorem aiComplete_stores (vals : List (List Int)) (s : State) (hbusy : aiBusy s = true) (hdue : s.fio.aiAt + aiRoundNs s ≤ s.now) :
    aiComplete vals s = modNews (fun n => { n with rounds := n.rounds + 1 })
      (modFio (fun b => { b with aiRun := false, aiAt := (each (aiChannels s) (aiStore vals) s).now })
        (each (aiChannels s) (aiStore vals) s)) := by
  unfold aiComplete
  rw [if_neg (by simp [hbusy]; omega)]
  rfl

/-- The field part without the analog values. -/
def Fio.besideAnalog (b : Fio) : Fio := { b with ai := Vector.replicate 8 0, aiOver := 0, aiBreak := 0 }

theorem each_aiStore_keeps (vals : List (List Int)) (l : List Nat) (s : State) :
    keeps Fio.besideAnalog s (each l (aiStore vals) s) :=
  .each (fun _ _ => .modFio (.refl _ _) rfl) l (.refl _ _)

/-- What a channel reports depends on the configuration, which storing other channels leaves. -/
theorem aiResult_congr {s t : State} (h : keeps Fio.besideAnalog s t) (vals : List (List Int)) (c : Nat) :
    aiResult vals t c = aiResult vals s c := by
  have hword : fdWord t = fdWord s := fdWord_congr (h.weaken (fun b => (b.matched, b.copy)) fun _ => rfl)
  unfold aiResult fdF
  rw [hword]

/-- Each channel of the loop holds what it reports. -/
theorem each_aiStore (vals : List (List Int)) (c : Nat) (s : State) (l : List Nat) (hl : ∀ x ∈ l, x < 8) (hc : c ∈ l) :
    vget (each l (aiStore vals) s).fio.ai c = (aiResult vals s c).1
      ∧ (each l (aiStore vals) s).fio.aiBreak.getLsbD c = (aiResult vals s c).2.2 := by
  induction l using List.reverseRecOn with
  | nil => simp at hc
  | append_singleton l x ih =>
    have hx : x < 8 := hl x (by simp)
    have hc8 : c < 8 := hl c hc
    have hres := aiResult_congr (each_aiStore_keeps vals l s) vals x
    rw [each_append, each_cons, each_nil, aiStore_ai, aiStore_aiBreak, hres, getLsbD_bvSet _ _ _ _ hx]
    by_cases hcx : c = x
    · subst hcx
      exact ⟨vget_vset_same _ _ _, if_pos rfl⟩
    · have hmem : c ∈ l := by simpa [hcx] using hc
      have hval := ih (fun y hy => hl y (by simp [hy])) hmem
      rw [if_neg hcx, vget_vset_other _ _ _ _ (by omega)]
      exact hval

/-- The channels that convert are channels of the device, and an enabled one is among them. -/
theorem mem_aiChannels (s : State) (c : Nat) : c ∈ aiChannels s ↔ c < 8 ∧ fdSet s (F.FIO_AI_EN c) = true := by
  simp [aiChannels]

/-- After a round an enabled channel holds what it reports. -/
theorem aiComplete_channel (vals : List (List Int)) (s : State) (c : Nat) (hc : c < 8) (hbusy : aiBusy s = true)
    (hdue : s.fio.aiAt + aiRoundNs s ≤ s.now) (hen : fdSet s (F.FIO_AI_EN c) = true) :
    vget (aiComplete vals s).fio.ai c = (aiResult vals s c).1
      ∧ (aiComplete vals s).fio.aiBreak.getLsbD c = (aiResult vals s c).2.2 := by
  have hloop := each_aiStore vals c s (aiChannels s) (fun x hx => ((mem_aiChannels s x).mp hx).1) ((mem_aiChannels s c).mpr ⟨hc, hen⟩)
  rw [aiComplete_stores vals s hbusy hdue]
  generalize each (aiChannels s) (aiStore vals) s = t at hloop ⊢
  exact hloop

/-- A round changes the field part alone. -/
theorem aiComplete_keeps (vals : List (List Int)) (s : State) : keeps (fun _ => ()) s (aiComplete vals s) := by
  unfold aiComplete modNews
  exact .ite (.refl _ _) (.modFio (.modFio (.each (fun _ _ => .modFio (.refl _ _) rfl) _ (.refl _ _)) rfl) rfl)

/-- A round that completes ends, and is to be reported once more. -/
theorem aiComplete_ends (vals : List (List Int)) (s : State) (hbusy : aiBusy s = true) (hdue : s.fio.aiAt + aiRoundNs s ≤ s.now) :
    (aiComplete vals s).fio.aiRun = false ∧ (aiComplete vals s).fio.news = { s.fio.news with rounds := s.fio.news.rounds + 1 } := by
  have hnews : (each (aiChannels s) (aiStore vals) s).fio.news = s.fio.news :=
    ((each_aiStore_keeps vals (aiChannels s) s).weaken (q := Fio.news) Fio.news fun _ => rfl).2
  rw [aiComplete_stores vals s hbusy hdue]
  refine ⟨rfl, ?_⟩
  rw [← hnews]
  rfl

/-! ### Scaling (R305) -/

/-- A whole number of counts is reported as it is, but for saturation. -/
theorem aiScale_exact (range : Nat) (num : Int) (den : Nat) (h : num % den = 0) :
    (aiScale range num den).1 = BitVec.ofInt 16 (max (-32768) (min 32767 (num / den))) := by
  simp [aiScale, h]

theorem aiScale_break (range : Nat) (num : Int) (den : Nat) :
    (aiScale range num den).2.2 = decide (range = 2 ∧ num < -6000 * den) := rfl

/-- In the ranges of voltages 10 V read 32,000. -/
theorem aiCounts_volts (range : Nat) (sum : Int) (n : Nat) (h : range ≤ 1) : aiCounts range sum n = (2 * sum, 625 * n) := by
  match range, h with
  | 0, _ => rfl
  | 1, _ => rfl

/-- In 4–20 mA, 4 mA read 0. -/
theorem aiCounts_loop (sum : Int) (n : Nat) : aiCounts 2 sum n = (sum - 4000000 * n, 500 * n) := rfl

end Sys2Proof.Machine
end

section
/-! The edge FIFO of the F-die across a frame without SAFE: EDGEFLUSH empties it, and nothing else of the frame touches it (10_field_io
R285, R295, R300). -/

namespace Sys2Proof.Machine

theorem evalRx_keepsEdges (s : State) : keeps Fio.fedges s (evalRx s) := (evalRx_keeps s).weaken Fio.fedges fun _ => rfl

theorem grpReset_keepsEdges (s : State) : keeps Fio.fedges s (grpReset s) := by
  unfold grpReset
  exact .each (fun _ _ => .ite (.refl _ _) (.modFio (.refl _ _) rfl)) _ (.refl _ _)

theorem faultAck_keepsEdges (s : State) : keeps Fio.fedges s (faultAck s) := by
  unfold faultAck
  refine .each (fun n t => ?_) _ (.refl _ _)
  have hcleared : keeps Fio.fedges t (if condPresent t n then t else modFio (fun b => { b with codes := vset b.codes n 0 }) t) :=
    .ite (.refl _ _) (.modFio (.refl _ _) rfl)
  exact .ite hcleared (.modFio hcleared rfl)

theorem applyByte_keepsEdges (i : Nat) (s : State) : keeps Fio.fedges s (applyByte i s) := by
  have happlied : keeps Fio.fedges s (modFio (fun b => { b with cmt := vset b.cmt i (vget s.fio.got i), safe := vset b.safe i false }) s) :=
    .modFio (.refl _ _) rfl
  unfold applyByte
  exact .iteThen (.ite (.modFio happlied rfl) (.ite (.modFio happlied rfl) happlied))
    (.trans (grpReset_keepsEdges _) (faultAck_keepsEdges _))

theorem performInstant_keepsEdges (c : Nat) (i : Instant) (s : State) : keeps Fio.fedges s (performInstant c i s) := by
  have hnoted : keeps Fio.fedges s (modFio (fun b => { b with finst := vset b.finst c none, fdone := vset b.fdone c (i.target + 1) }) s) :=
    .modFio (.refl _ _) rfl
  unfold performInstant modNews
  exact .ite hnoted (.trans (.iteThen (.each applyByte_keepsEdges _ hnoted) (.modFio (.refl _ _) rfl)) (evalRx_keepsEdges _))

theorem instantsArrive_keepsEdges (f : DownFrame) (before : Nat) (s : State) : keeps Fio.fedges s (instantsArrive f before s) := by
  unfold instantsArrive
  refine .each (fun c t => ?_) _ (.refl _ _)
  split
  · exact .modFio (.refl _ _) rfl
  · exact .ite (.refl _ _) (.ite (.modFio (.refl _ _) rfl) (.ite (performInstant_keepsEdges _ _ _) (.modFio (.refl _ _) rfl)))

theorem aiBegin_keepsEdges (s : State) : keeps Fio.fedges s (aiBegin s) := by
  unfold aiBegin modNews
  exact .ite (.refl _ _) (.ite (.modFio (.refl _ _) rfl) (.modFio (.refl _ _) rfl))

theorem startArrives_keepsEdges (f : DownFrame) (s : State) : keeps Fio.fedges s (startArrives f s) := by
  unfold startArrives
  split
  · exact .refl _ _
  · exact .ite (.refl _ _) (.trans (.modFio (.refl _ _) rfl) (aiBegin_keepsEdges _))

theorem configTurns_keepsEdges (before s : State) : keeps Fio.fedges s (configTurns before s) := by
  unfold configTurns
  exact .iteThen (.trans (.iteThen (.refl _ _) (.modFio (.refl _ _) rfl)) (.ite (.refl _ _) (.modFio (.refl _ _) rfl)))
    (.modFio (.refl _ _) rfl)

theorem copyArrives_keepsEdges (f : DownFrame) (s : State) : keeps Fio.fedges s (copyArrives f s) := by
  have hstored : keeps Fio.fedges s (match f.reg with
      | some (pa, v) => modFio (fun b => { b with copy := SMap.put (fioMask pa (w32 (resetNat pa))) b.copy pa v, ack := some (pa, v) }) s
      | none => s) := by
    split
    · exact .modFio (.refl _ _) rfl
    · exact .refl _ _
  unfold copyArrives causeGone
  exact .trans (.iteThen (.modFio hstored rfl) (.modFio (.refl _ _) rfl)) (configTurns_keepsEdges _ _)

theorem bytesArrive_keepsEdges (f : DownFrame) (s : State) : keeps Fio.fedges s (bytesArrive f s) := by
  unfold bytesArrive
  exact .each applyByte_keepsEdges _ (.each (fun _ _ => .modFio (.refl _ _) rfl) _ (.refl _ _))

/-- A good frame without SAFE, received on a sound oscillator: the commands it carries act on what its register and its bytes have
left, before its instants and starts. -/
theorem downGood_sound (f : DownFrame) (s : State) (hsafe : f.safe = false) :
    ∃ t, keeps Fio.fedges s t
      ∧ downGood f true s = evalRx (startArrives f (instantsArrive f s.fio.flastGood (cmdArrives f.cmd (bytesArrive f t)))) := by
  have hcopied : ∀ t, keeps Fio.fedges s t → keeps Fio.fedges s (copyArrives f t) := fun t ht => ht.trans (copyArrives_keepsEdges f t)
  unfold downGood causeGone
  simp only [hsafe, Bool.false_eq_true, if_false, if_true]
  exact ⟨_, .modFio (.iteThen (hcopied _ (.modFio (.refl _ _) rfl)) (.modFio (.refl _ _) rfl)) rfl, rfl⟩

/-- EDGEFLUSH empties the edge FIFO of the F-die; the other commands leave it. -/
theorem cmdArrives_flushes (cmd : Nat) (s : State) (hcmd : bitAt cmd 2 = true) :
    keeps Fio.fedges (modFio (fun b => { b with fedges := [], fsent := 0 }) s) (cmdArrives cmd s) := by
  unfold cmdArrives modNews
  rw [if_pos hcmd]
  exact .modFio (.iteThen (.iteThen (.refl _ _) (grpReset_keepsEdges _)) (faultAck_keepsEdges _)) rfl

/-- A good frame without SAFE that carries EDGEFLUSH leaves the edge FIFO of the F-die empty, and changes the field part alone. -/
theorem downGood_flushes (f : DownFrame) (s : State) (hsafe : f.safe = false) (hcmd : bitAt f.cmd 2 = true) :
    (downGood f true s).fio.fedges = [] ∧ keeps (fun _ => ()) s (downGood f true s) := by
  obtain ⟨t, ht, hdown⟩ := downGood_sound f s hsafe
  have hbefore : keeps Fio.fedges s (bytesArrive f t) := ht.trans (bytesArrive_keepsEdges f t)
  have hflushed := cmdArrives_flushes f.cmd (bytesArrive f t) hcmd
  have hafter : keeps Fio.fedges (cmdArrives f.cmd (bytesArrive f t)) (downGood f true s) := by
    rw [hdown]
    exact .trans (.trans (instantsArrive_keepsEdges _ _ _) (startArrives_keepsEdges _ _)) (evalRx_keepsEdges _)
  have hend := hflushed.trans hafter
  exact ⟨hend.2, .trans (.modFio (hbefore.weaken (fun _ => ()) fun _ => rfl) rfl) (hend.weaken (fun _ => ()) fun _ => rfl)⟩

end Sys2Proof.Machine
end

section
/-! Writes and reads of FIO registers over the bus: what a write starts, and what a pop of the edge FIFO leaves (02_registers R56 to R73,
10_field_io R285, R295, R296). -/

namespace Sys2Proof.Machine

/-! ### Writes of one word of the FIO block -/

/-- Without a semaphore that keeps the initiator out, no range covers a register. -/
theorem semGuards_of_unguarded (s : State) (a : Nat) (who : Who) (hlo : 0x60000000 ≤ a) (hhi : a + 4 ≤ 0x70000000)
    (h : unguarded s who = true) : semGuards s a 4 who = false := by
  unfold semGuards
  rw [List.any_eq_false]
  intro k hk
  have hopen := List.all_eq_true.mp h k hk
  cases hsem : s.brg.sems.toList.getD k none with
  | none => simp
  | some o =>
    simp only [hsem, Bool.or_eq_true, Bool.not_eq_true', decide_eq_true_eq, beq_iff_eq] at hopen
    simp only [Bool.and_eq_true, decide_eq_true_eq, bne_iff_ne]
    rintro ⟨⟨hon, hcover⟩, howner⟩
    rcases hopen with (howns | hoff) | hout
    · exact howner howns
    · exact absurd hon (by simp [hoff])
    · omega

/-- A plain word of the FIO block with description `d` that is no event register. -/
def fioWord (pa : Nat) (d : RegDesc) : Bool :=
  plainWord pa d && d.tidy && blockAt pa == some .fio && pa / 0x10000 == 0x600D && !pairReg pa && pa != A.FIO_EVT && pa != A.FIO_EVT + 4

/-- What asserts the output of the FIO block is its event register and the enable beside it. -/
theorem asserted_fio_congr (s t : State) (hevt : rd t A.FIO_EVT = rd s A.FIO_EVT) (hen : rd t (A.FIO_EVT + 4) = rd s (A.FIO_EVT + 4)) :
    asserted t 0x600D = asserted s 0x600D := by
  refine asserted_congr s t 0x600D fun o ho => ?_
  have hoffset : evtOffsets 0x600D = [8] := by decide
  rw [hoffset, List.mem_singleton] at ho
  subst ho
  exact ⟨hevt, hen⟩

/-- A write of a word of the FIO block that nothing forbids and nothing clamps sets the word and starts what the block starts. -/
theorem busWrite_fio (who : Who) (pa v : Nat) (s : State) (d : RegDesc) (w : Word) (i : WInfo) (hd : fioWord pa d = true) (hv : v < 2 ^ 32)
    (hlive : live s = true) (hfree : lockedReg s pa 0 v = false) (hopen : unguarded s who = true)
    (happ : applyWord who 0 pa d v s = (wr pa w s, i)) (hi : i.pa = pa) : busWrite who pa v s = hookFio i (wr pa w s) := by
  simp only [fioWord, Bool.and_eq_true, Bool.not_eq_true', beq_iff_eq, bne_iff_ne] at hd
  obtain ⟨⟨⟨⟨⟨⟨hplain, -⟩, hblk⟩, hhi⟩, hpair⟩, hevt⟩, hen⟩ := hd
  have hguard : semGuards s pa 4 who = false := semGuards_of_unguarded s pa who (by omega) (by omega) hopen
  have hdead : deadReg s pa = false := by simp [deadReg, hblk, hpair]
  have hrun : s.cfg.halted = false := by simpa using (Bool.and_eq_true_iff.mp hlive).2
  have hout : asserted (wr pa w s) 0x600D = asserted s 0x600D :=
    asserted_fio_congr s _ (rd_wr_other _ _ _ _ (Ne.symm hevt)) (rd_wr_other _ _ _ _ (Ne.symm hen))
  rw [busWrite_plain who pa v s d hplain hv hrun hdead hfree hguard, happ]
  simp only [hhi, hout, Bool.and_not_self, Bool.false_eq_true, if_false, startBlock, hi, hblk]

/-! ### FIO_DTEN -/

/-- FIO_DTEN is one privileged RW field. -/
def dtenDesc : RegDesc := ⟨0x200, 1, 0x0, .one, [⟨0, 32, .rw, true, 0, .none⟩]⟩

theorem fioWord_dten : fioWord A.FIO_DTEN dtenDesc = true := by decide

theorem rawNew_dten (dyn : Bool) (old v : Word) : w32 (rawNew dtenDesc dyn true 0 old.toNat v.toNat) = v := by
  have hold := old.isLt
  have hv := v.isLt
  apply BitVec.eq_of_toNat_eq
  have hnew := rawNew_same dtenDesc dyn old.toNat v.toNat (by decide) ⟨0, 32, .rw, true, 0, .none⟩ (by simp [dtenDesc]) rfl
  have hlt := rawNew_lt dtenDesc dyn true 0 old.toNat v.toNat (by decide) hold
  simp only [bitsOf, pow_zero, Nat.div_one, Nat.mod_eq_of_lt hlt, Nat.mod_eq_of_lt hv] at hnew
  rw [toNat_w32_lt _ hlt, hnew]

/-- A register of the copy that has been written is pending. -/
theorem fioPend_config (pa : Nat) (s : State) (h : fioConfig.contains pa = true) :
    fioPend pa s = syncPend (modFio (fun b => { b with
      pend := if b.pend.contains pa then b.pend else b.pend ++ [pa], sent := b.sent.filter (· != pa) }) s) := by
  unfold fioPend
  rw [if_pos h]

theorem hookFio_dten (i : WInfo) (s : State) (hi : i.pa = A.FIO_DTEN) : hookFio i s = fioPend A.FIO_DTEN s := by
  unfold hookFio
  rw [hi, if_neg (by decide), if_pos (Or.inr (by decide)), if_neg (by decide), if_neg (by decide), if_neg (by decide)]

/-- A privileged write of FIO_DTEN takes the word and makes it pending. -/
theorem busWrite_dten (who : Who) (v : Word) (s : State) (hlive : live s = true) (hp : isPriv s who = true)
    (hlock : isSet s F.FIO_CTL_LOCK = false) (hopen : unguarded s who = true) :
    busWrite who A.FIO_DTEN v.toNat s = fioPend A.FIO_DTEN (wr A.FIO_DTEN v s) := by
  have hfree : lockedReg s A.FIO_DTEN 0 v.toNat = false := by
    have hrow : lockedReg s A.FIO_DTEN 0 v.toNat = lockedFio s A.FIO_DTEN := rfl
    rw [hrow, lockedFio, hlock, Bool.false_and]
  have happ := applyWord_legal who A.FIO_DTEN dtenDesc v.toNat s (by decide) hp (by decide) (by decide) (fun _ => rfl) (by decide)
    (by simp [dtenDesc, Clamp.apply]) rfl
  rw [rawNew_dten] at happ
  rw [busWrite_fio who A.FIO_DTEN v.toNat s dtenDesc v _ fioWord_dten v.isLt hlive hfree hopen happ rfl, hookFio_dten _ _ rfl]

/-! ### FIO_CMD -/

/-- FIO_CMD is three privileged CMD bits. -/
def fioCmdDesc : RegDesc :=
  ⟨0x10, 1, 0x0, .one, [⟨2, 1, .cmd, true, 0, .none⟩, ⟨1, 1, .cmd, true, 0, .none⟩, ⟨0, 1, .cmd, true, 0, .none⟩]⟩

theorem fioWord_cmd : fioWord A.FIO_CMD fioCmdDesc = true := by decide

theorem hookFio_edgeflush (i : WInfo) (s : State) (hi : i.pa = A.FIO_CMD) (hcmds : i.cmds = 4) :
    hookFio i s = modFio (fun b => { b with cmd := b.cmd ||| 4 }) (edgeFlush s) := by
  unfold hookFio
  rw [if_pos hi, hcmds, if_pos (by decide)]

/-- A privileged EDGEFLUSH empties the FIO FIFO and is to be sent; the register keeps its word. -/
theorem busWrite_edgeflush (who : Who) (s : State) (hlive : live s = true) (hp : isPriv s who = true) (hopen : unguarded s who = true) :
    busWrite who A.FIO_CMD 4 s = modFio (fun b => { b with cmd := b.cmd ||| 4 }) (edgeFlush (wr A.FIO_CMD (rd s A.FIO_CMD) s)) := by
  have hfree : lockedReg s A.FIO_CMD 0 4 = false := by
    have hrow : lockedReg s A.FIO_CMD 0 4 = (isSet s F.FIO_CTL_LOCK && false) := rfl
    rw [hrow, Bool.and_false]
  have happ := applyWord_legal who A.FIO_CMD fioCmdDesc 4 s (by decide) hp (by decide) (by decide) (fun _ => rfl) (by decide)
    (by simp [fioCmdDesc]) rfl
  have hkept : rawNew fioCmdDesc (dynPriv s A.FIO_CMD) true 0 (rd s A.FIO_CMD).toNat 4 = (rd s A.FIO_CMD).toNat := rfl
  have hcmds : cmdBits fioCmdDesc (dynPriv s A.FIO_CMD) true 0 4 = 4 := by
    simp [cmdBits, fioCmdDesc, putBits, bitsOf]
  rw [hkept, w32_toNat] at happ
  rw [busWrite_fio who A.FIO_CMD 4 s fioCmdDesc _ _ fioWord_cmd (by decide) hlive hfree hopen happ rfl, hookFio_edgeflush _ _ rfl hcmds]

/-! ### FIO_EDGE -/

/-- A read of the low word of FIO_EDGE answers what the pop answers. -/
theorem busRead_edge (who : Who) (s : State) (hlive : live s = true) :
    busRead who A.FIO_EDGE s = emit (.reply who.id) (leBytes 4 (edgeRead who s).2.toNat) (edgeRead who s).1 := by
  have hrun : s.cfg.halted = false := by simpa using (Bool.and_eq_true_iff.mp hlive).2
  have htarget : target s who.id A.FIO_EDGE = .reg A.FIO_EDGE := rfl
  have hhold : holdAccess who A.FIO_EDGE false s = (s, false) := rfl
  have hans : answers s A.FIO_EDGE = true := by simp [answers, hrun]
  have hmay : mayRead s who A.FIO_EDGE = true := by
    have hrow : mayRead s who A.FIO_EDGE = !(!isPriv s who && true && false) := rfl
    rw [hrow, Bool.and_false, Bool.not_false]
  have hread : regRead who A.FIO_EDGE s = ((edgeRead who s).1, (edgeRead who s).2.toNat) := by
    have hpop : popAt A.FIO_EDGE = some .edge := rfl
    have hdead : deadReg s A.FIO_EDGE = false := by
      have hrow : deadReg s A.FIO_EDGE = (false || (s.sn && false)) := rfl
      rw [hrow, Bool.and_false, Bool.or_false]
    have hpin : pinAlias A.FIO_EDGE = A.FIO_EDGE := rfl
    unfold regRead
    simp only [hpin, hdead, hpop, hmay, if_true, Bool.false_eq_true, if_false]
    rfl
  have hplain : A.FIO_EDGE - A.FIO_EDGE % 0x10000 / 0x4000 * 0x4000 = A.FIO_EDGE := rfl
  have hload : localLoad who A.FIO_EDGE 4 s = ((edgeRead who s).1, .ok (leBytes 4 (edgeRead who s).2.toNat)) := by
    unfold localLoad
    simp only [hhold, htarget, hplain, hans, hread]
    rfl
  unfold busRead load
  simp only [htarget, hload]

/-- A pop of the last entry leaves the FIO FIFO empty, and its high word in the shadow of the reader. -/
theorem edgeRead_last (who : Who) (e : Edge) (s : State) (h : s.fio.edges = [e]) :
    edgeRead who s = ({ syncEdges (modFio (fun b => { b with edges := [] }) s) with
      rshadow := SMap.ins s.rshadow (shadowKey A.FIO_EDGE who) (A.FIO_EDGE % 0x10000, w32 (edgeHigh e)) }, w32 e.time) := by
  unfold edgeRead
  rw [h]
  rfl

end Sys2Proof.Machine
end

section
/-! The inputs of the field side, register writes to it and analog rounds, command by command (10_field_io). -/

namespace Sys2Proof.Machine

/-! ### What each command of the F-die ends with -/

theorem rawInput_result (i : Nat) (v : Bool) (s : State) (hi : i < 64) (hon : s.fio.on = true) (hp : pulsed s (i / 8) = false)
    (hv : s.fio.raw.getLsbD i ≠ v) :
    (rawInput i v s).fio.raw.getLsbD i = v ∧ vget (rawInput i v s).fio.rawNow i = s.now
      ∧ vget (rawInput i v s).fio.rawTime i = fieldTime s ∧ (rawInput i v s).fio.filt = s.fio.filt := by
  rw [rawInput_changes i v s hon hp hv]
  simp [getLsbD_bvSet _ _ _ _ hi]

/-- The filtered state of an input that forms no stamps. -/
theorem acceptInput_unstamped (i : Nat) (v : Bool) (s : State) (hi : 16 ≤ i) (hi' : i < 64) :
    (acceptInput i v s).fio.filt.getLsbD i = v ∧ vget (acceptInput i v s).fio.accNow i = s.now
      ∧ (acceptInput i v s).fio.fedges = s.fio.fedges := by
  rw [acceptInput, stampEdge_unstamped _ _ _ hi]
  simp [getLsbD_bvSet _ _ _ _ hi']

/-- The filtered state of an input whose edge is stamped, while the FIFO of the F-die has room. -/
theorem acceptInput_stamped (i : Nat) (v : Bool) (s : State) (hi : i < 16) (hp : pulsed s (i / 8) = false)
    (he : fdBit s A.FIO_EDGEEN (if v then i else 16 + i) = true) (hroom : s.fio.fedges.length < 64) :
    (acceptInput i v s).fio.filt.getLsbD i = v
      ∧ (acceptInput i v s).fio.fedges = s.fio.fedges ++ [{ time := vget s.fio.rawTime i, rise := v, input := i, lost := s.fio.elost }]
      ∧ (acceptInput i v s).fio.elost = false := by
  have hstamp := stampEdge_stamps i v (modFio (fun b => { b with filt := bvSet b.filt i v, accNow := vset b.accNow i s.now }) s)
    hi hp he hroom
  rw [acceptInput, hstamp]
  simp [getLsbD_bvSet _ _ _ _ (show i < 64 by omega)]

/-- A raw state that has held is accepted for an input that forms no stamps. -/
theorem filterAccept_unstamped (i : Nat) (s : State) (hlt : i < 64) (hon : s.fio.on = true) (hp : pulsed s (i / 8) = false)
    (hv : s.fio.filt.getLsbD i ≠ s.fio.raw.getLsbD i) (hheld : vget s.fio.rawNow i + inputFilter s i ≤ s.now)
    (hst : stretchOver s i = true) (hi : 16 ≤ i) :
    ∃ t, filterAccept i s = t ∧ t.fio.filt.getLsbD i = s.fio.raw.getLsbD i ∧ vget t.fio.accNow i = s.now ∧ t.fio.raw = s.fio.raw
      ∧ t.fio.fedges = s.fio.fedges ∧ keeps Fio.besideInputs s t := by
  obtain ⟨hfilt, hacc, hedges⟩ := acceptInput_unstamped i (s.fio.raw.getLsbD i) s hi hlt
  exact ⟨_, filterAccept_accepts i s hon hp hv hheld hst, hfilt, hacc, acceptInput_raw _ _ _, hedges, acceptInput_keeps _ _ _⟩

/-- A rise that has held is accepted, with a stamp where its edge is enabled and the FIFO of the F-die has room. -/
theorem filterAccept_stamped (i : Nat) (s : State) (hon : s.fio.on = true) (hp : pulsed s (i / 8) = false)
    (hfilt : s.fio.filt.getLsbD i = false) (hraw : s.fio.raw.getLsbD i = true)
    (hheld : vget s.fio.rawNow i + inputFilter s i ≤ s.now) (hst : stretchOver s i = true) (hi : i < 16)
    (he : fdBit s A.FIO_EDGEEN i = true) (hroom : s.fio.fedges.length < 64) :
    ∃ t, filterAccept i s = t ∧ t.fio.filt.getLsbD i = true
      ∧ t.fio.fedges = s.fio.fedges ++ [{ time := vget s.fio.rawTime i, rise := true, input := i, lost := s.fio.elost }]
      ∧ t.fio.elost = false ∧ keeps Fio.besideInputs s t := by
  obtain ⟨hset, hedges, hlost⟩ := acceptInput_stamped i true s hi hp he hroom
  have haccepts := filterAccept_accepts i s hon hp (by simp [hfilt, hraw]) hheld hst
  rw [hraw] at haccepts
  exact ⟨_, haccepts, hset, hedges, hlost, acceptInput_keeps _ _ _⟩

theorem pulsedSample_keeps (g : Nat) (levels : BitVec 8) (s : State) : keeps (fun _ => ()) s (pulsedSample g levels s) := by
  unfold pulsedSample
  exact .ite (.refl _ _)
    (.each (fun _ _ => (sampleInput_keeps _ _ _).weaken (fun _ => ()) fun _ => rfl) _ (.modFio (.refl _ _) rfl))

/-- A group that has been sampled holds its levels, and is due no more. -/
theorem pulsedSample_result (g : Nat) (levels : BitVec 8) (j : Nat) (s : State) (hg : g < 8) (hj : j < 8) (hon : s.fio.on = true)
    (hp : pulsed s g = true) (hdue : sampleDue s g = true) :
    (pulsedSample g levels s).fio.raw.getLsbD (8 * g + j) = levels.getLsbD j ∧ sampleDue (pulsedSample g levels s) g = false := by
  rw [pulsedSample_samples g levels s hon hp hdue]
  constructor
  · rw [each_sampleInput_raw _ _ _ _ _ (by omega), if_pos (by omega), Nat.add_sub_cancel_left]
  · rw [sampleDue_congr (.each (fun _ _ => sampleInput_keeps _ _ _) _ (.refl _ _)), sampleDue_taken]

/-- A good frame without SAFE, received on a sound oscillator, that carries EDGEFLUSH. -/
theorem downRx_flushes (f : DownFrame) (s : State) (hon : s.fio.on = true) (hdown : s.fio.down = some f) (hsafe : f.safe = false)
    (hcmd : bitAt f.cmd 2 = true) :
    (downRx true true s).fio.fedges = [] ∧ keeps (fun _ => ()) s (downRx true true s) := by
  have hrx : downRx true true s = downGood f true (modFio (fun b => { b with down := none }) s) := by
    unfold downRx
    rw [hdown]
    simp [hon]
  obtain ⟨hempty, hframe⟩ := downGood_flushes f (modFio (fun b => { b with down := none }) s) hsafe hcmd
  rw [hrx]
  exact ⟨hempty, .trans (.modFio (.refl _ _) rfl) hframe⟩

/-- What a channel of a voltage range reports of a whole number of counts. -/
theorem aiResult_volts (vals : List (List Int)) (s : State) (c : Nat) (hrange : fdF s (F.FIO_AI_RANGE c) ≤ 1)
    (hwhole : (2 * aiSum (vals.getD c []) (2 ^ fdF s (F.FIO_AI_AVG c))) % (625 * ((2 ^ fdF s (F.FIO_AI_AVG c) : Nat) : Int)) = 0) :
    (aiResult vals s c).1 = BitVec.ofInt 16 (max (-32768) (min 32767
        (2 * aiSum (vals.getD c []) (2 ^ fdF s (F.FIO_AI_AVG c)) / (625 * ((2 ^ fdF s (F.FIO_AI_AVG c) : Nat) : Int)))))
      ∧ (aiResult vals s c).2.2 = false := by
  unfold aiResult
  dsimp only
  rw [aiCounts_volts _ _ _ hrange, aiScale_break]
  generalize 2 ^ fdF s (F.FIO_AI_AVG c) = n at hwhole ⊢
  have hden : ((625 * n : Nat) : Int) = 625 * (n : Int) := by push_cast; ring
  constructor
  · rw [aiScale_exact _ _ _ (by rw [hden]; exact hwhole), hden]
  · exact decide_eq_false fun h => by omega

/-- What a channel of 4–20 mA reports of a whole number of counts, and its wire break below 1 mA. -/
theorem aiResult_loop (vals : List (List Int)) (s : State) (c : Nat) (hrange : fdF s (F.FIO_AI_RANGE c) = 2)
    (hwhole : (aiSum (vals.getD c []) (2 ^ fdF s (F.FIO_AI_AVG c)) - 4000000 * ((2 ^ fdF s (F.FIO_AI_AVG c) : Nat) : Int))
      % (500 * ((2 ^ fdF s (F.FIO_AI_AVG c) : Nat) : Int)) = 0) :
    (aiResult vals s c).1 = BitVec.ofInt 16 (max (-32768) (min 32767
        ((aiSum (vals.getD c []) (2 ^ fdF s (F.FIO_AI_AVG c)) - 4000000 * ((2 ^ fdF s (F.FIO_AI_AVG c) : Nat) : Int))
          / (500 * ((2 ^ fdF s (F.FIO_AI_AVG c) : Nat) : Int)))))
      ∧ (aiResult vals s c).2.2
        = decide (aiSum (vals.getD c []) (2 ^ fdF s (F.FIO_AI_AVG c)) < 1000000 * ((2 ^ fdF s (F.FIO_AI_AVG c) : Nat) : Int)) := by
  unfold aiResult
  dsimp only
  rw [hrange, aiCounts_loop, aiScale_break]
  generalize 2 ^ fdF s (F.FIO_AI_AVG c) = n at hwhole ⊢
  have hden : ((500 * n : Nat) : Int) = 500 * (n : Int) := by push_cast; ring
  constructor
  · rw [aiScale_exact _ _ _ (by rw [hden]; exact hwhole), hden]
  · rw [hden, decide_eq_decide]
    omega

/-! ### What register accesses end with -/

@[simp] theorem settled_fio (s t : State) : (settled s t).fio = t.fio := rfl

@[simp] theorem settled_sent (s t : State) : (settled s t).sent = t.sent := rfl

@[simp] theorem settled_regs (s t : State) : (settled s t).regs = t.regs := rfl

@[simp] theorem settled_rshadow (s t : State) : (settled s t).rshadow = t.rshadow := rfl

@[simp] theorem rd_settled (s t : State) (a : Nat) : rd (settled s t) a = rd t a := rfl

@[simp] theorem getF_settled (s t : State) (f : FRef) : getF (settled s t) f = getF t f := rfl

@[simp] theorem sampleDue_settled (s t : State) (g : Nat) : sampleDue (settled s t) g = sampleDue t g := rfl

/-- The registers that a command leaves are those that its effect leaves. -/
@[simp] theorem sameRegs_settled (l : List Nat) (s t : State) : sameRegs l s (settled s t) = sameRegs l (quiet s) t := rfl

@[simp] theorem rd_modFio (f : Fio → Fio) (s : State) (a : Nat) : rd (modFio f s) a = rd s a := rfl

@[simp] theorem syncPend_fio (s : State) : (syncPend s).fio = s.fio := by
  unfold syncPend
  exact setF_fio _ _ _

theorem powered_of_live (s : State) (h : live s = true) : powered s = true := (Bool.and_eq_true_iff.mp h).1

/-- FIO_STATUS.PEND counts the pending registers, and no other word changes with it. -/
theorem getF_syncPend (s : State) : getF (syncPend s) F.FIO_STATUS_PEND = s.fio.pend.length % 2 ^ F.FIO_STATUS_PEND.w :=
  getF_setF_same _ _ s (by decide)

theorem rd_syncPend_other (s : State) (a : Nat) (h : a ≠ A.FIO_STATUS) : rd (syncPend s) a = rd s a := rd_setF_other _ _ s a h

/-- FIO_EDGESTAT.COUNT counts the entries of the FIO FIFO, and no other word changes with it. -/
theorem getF_syncEdges (s : State) : getF (syncEdges s) F.FIO_EDGESTAT_COUNT = s.fio.edges.length % 2 ^ F.FIO_EDGESTAT_COUNT.w :=
  getF_setF_same _ _ s (by decide)

theorem rd_syncEdges_other (s : State) (a : Nat) (h : a ≠ A.FIO_EDGESTAT) : rd (syncEdges s) a = rd s a := rd_setF_other _ _ s a h

/-- An empty FIO FIFO counts 0 entries. -/
theorem getF_syncEdges_empty (s : State) (h : s.fio.edges = []) : getF (syncEdges s) F.FIO_EDGESTAT_COUNT = 0 := by
  rw [getF_syncEdges, h]
  rfl

/-- Beside registers, the field part, read shadows and what was sent, nothing differs. -/
def fieldAndRegs (s t : State) : Prop := t = { s with regs := t.regs, fio := t.fio, rshadow := t.rshadow, sent := t.sent }

theorem fieldAndRegs.trans {s t u : State} (h : fieldAndRegs s t) (g : fieldAndRegs t u) : fieldAndRegs s u := by
  rw [fieldAndRegs, h] at g
  exact g

theorem setF_fieldAndRegs (f : FRef) (v : Nat) (s : State) : fieldAndRegs s (setF f v s) := rfl

theorem wr_fieldAndRegs (a : Nat) (v : Word) (s : State) : fieldAndRegs s (wr a v s) := rfl

theorem modFio_fieldAndRegs (f : Fio → Fio) (s : State) : fieldAndRegs s (modFio f s) := rfl

theorem syncPend_frame (s : State) : fieldAndRegs s (syncPend s) ∧ (syncPend s).rshadow = s.rshadow := by
  unfold syncPend
  exact ⟨setF_fieldAndRegs _ _ _, setF_rshadow _ _ _⟩

theorem syncEdges_frame (s : State) : fieldAndRegs s (syncEdges s) ∧ (syncEdges s).rshadow = s.rshadow := by
  unfold syncEdges
  exact ⟨setF_fieldAndRegs _ _ _, setF_rshadow _ _ _⟩

theorem fieldAndRegs.leaves {s t : State} (h : fieldAndRegs (quiet s) t) :
    settled s t = { s with regs := t.regs, fio := t.fio, rshadow := t.rshadow, sent := t.sent } := by
  rw [h]; rfl

theorem fieldAndRegs.leaves_shadow {s t : State} (h : fieldAndRegs (quiet s) t) (hshadow : t.rshadow = (quiet s).rshadow) :
    settled s t = { s with regs := t.regs, fio := t.fio, sent := t.sent } := by
  rw [h.leaves, hshadow, quiet_rshadow]

/-- A write of FIO_DTEN: the word, and what is pending for the F-die. -/
theorem fioPend_dten (v : Word) (s : State) :
    rd (fioPend A.FIO_DTEN (wr A.FIO_DTEN v s)) A.FIO_DTEN = v
      ∧ (fioPend A.FIO_DTEN (wr A.FIO_DTEN v s)).fio = { s.fio with
        pend := if s.fio.pend.contains A.FIO_DTEN then s.fio.pend else s.fio.pend ++ [A.FIO_DTEN]
        sent := s.fio.sent.filter (· != A.FIO_DTEN) }
      ∧ getF (fioPend A.FIO_DTEN (wr A.FIO_DTEN v s)) F.FIO_STATUS_PEND
        = (fioPend A.FIO_DTEN (wr A.FIO_DTEN v s)).fio.pend.length % 2 ^ F.FIO_STATUS_PEND.w := by
  rw [fioPend_config _ _ (by decide), getF_syncPend, rd_syncPend_other _ _ (by decide), rd_modFio, rd_wr_same, syncPend_fio,
    modFio_fio, wr_fio]
  exact ⟨rfl, rfl, rfl⟩

/-- Beside FIO_DTEN and FIO_STATUS it changes no register. -/
theorem fioPend_dten_regs (v : Word) (s : State) :
    sameRegs [A.FIO_DTEN, A.FIO_STATUS] s (fioPend A.FIO_DTEN (wr A.FIO_DTEN v s)) := by
  intro a ha
  simp only [List.mem_cons, List.not_mem_nil, or_false, not_or] at ha
  rw [fioPend_config _ _ (by decide), rd_syncPend_other _ _ ha.2, rd_modFio, rd_wr_other _ _ _ _ ha.1]

/-- Beside registers and the field part it changes nothing. -/
theorem fioPend_dten_frame (v : Word) (s : State) :
    fieldAndRegs s (fioPend A.FIO_DTEN (wr A.FIO_DTEN v s)) ∧ (fioPend A.FIO_DTEN (wr A.FIO_DTEN v s)).rshadow = s.rshadow := by
  rw [fioPend_config _ _ (by decide)]
  obtain ⟨hframe, hshadow⟩ := syncPend_frame (modFio (fun b => { b with
    pend := if b.pend.contains A.FIO_DTEN then b.pend else b.pend ++ [A.FIO_DTEN], sent := b.sent.filter (· != A.FIO_DTEN) })
    (wr A.FIO_DTEN v s))
  exact ⟨.trans (.trans (wr_fieldAndRegs _ _ _) (modFio_fieldAndRegs _ _)) hframe, by rw [hshadow, modFio_rshadow, wr_rshadow]⟩

/-- The state after EDGEFLUSH. -/
def flushed (s : State) : State := modFio (fun b => { b with cmd := b.cmd ||| 4 }) (edgeFlush (wr A.FIO_CMD (rd s A.FIO_CMD) s))

theorem flushed_fio (s : State) : (flushed s).fio = { s.fio with edges := [], cmd := s.fio.cmd ||| 4 } := rfl

theorem flushed_count (s : State) : getF (flushed s) F.FIO_EDGESTAT_COUNT = 0 :=
  getF_syncEdges_empty (modFio (fun b => { b with edges := [] }) (wr A.FIO_CMD (rd s A.FIO_CMD) s)) rfl

theorem flushed_frame (s : State) :
    sameRegs [A.FIO_EDGESTAT, A.FIO_CMD] s (flushed s) ∧ fieldAndRegs s (flushed s) ∧ (flushed s).rshadow = s.rshadow := by
  obtain ⟨hframe, hshadow⟩ := syncEdges_frame (modFio (fun b => { b with edges := [] }) (wr A.FIO_CMD (rd s A.FIO_CMD) s))
  refine ⟨fun a ha => ?_,
    .trans (.trans (.trans (wr_fieldAndRegs _ _ _) (modFio_fieldAndRegs _ _)) hframe) (modFio_fieldAndRegs _ _), hshadow⟩
  simp only [List.mem_cons, List.not_mem_nil, or_false, not_or] at ha
  have hcount := rd_syncEdges_other (modFio (fun b => { b with edges := [] }) (wr A.FIO_CMD (rd s A.FIO_CMD) s)) a ha.1
  exact hcount.trans (rd_wr_other _ _ _ s ha.2)

/-- The state after a pop of the last entry `e` of the FIO FIFO. -/
def popped (who : Who) (e : Edge) (s : State) : State :=
  emit (.reply who.id) (leBytes 4 (w32 e.time).toNat) { syncEdges (modFio (fun b => { b with edges := [] }) s) with
    rshadow := SMap.ins s.rshadow (shadowKey A.FIO_EDGE who) (A.FIO_EDGE % 0x10000, w32 (edgeHigh e)) }

theorem busRead_popped (who : Who) (e : Edge) (s : State) (hlive : live s = true) (h : s.fio.edges = [e]) :
    busRead who A.FIO_EDGE s = popped who e s := by
  rw [busRead_edge who s hlive, edgeRead_last who e s h]
  rfl

theorem popped_count (who : Who) (e : Edge) (s : State) : getF (popped who e s) F.FIO_EDGESTAT_COUNT = 0 :=
  getF_syncEdges_empty (modFio (fun b => { b with edges := [] }) s) rfl

theorem popped_frame (who : Who) (e : Edge) (s : State) :
    sameRegs [A.FIO_EDGESTAT] s (popped who e s) ∧ fieldAndRegs s (popped who e s) :=
  ⟨fun a ha => rd_syncEdges_other (modFio (fun b => { b with edges := [] }) s) a (by simpa using ha), rfl⟩

theorem popped_holds (who : Who) (e : Edge) (s : State) :
    (popped who e s).fio = { s.fio with edges := [] }
      ∧ SMap.get? (popped who e s).rshadow (shadowKey A.FIO_EDGE who) = some (A.FIO_EDGE % 0x10000, w32 (edgeHigh e)) :=
  ⟨rfl, SMap.get?_ins_same _ _ _⟩

end Sys2Proof.Machine

namespace Sys2Proof.Proofs

open Sys2Proof.Machine

/-- Settles O45: each command of the F-die by what it ends with, beside which it keeps all but the field part (`keeps`); register accesses
by what their one word starts (`busWrite_fio`, `busRead_edge`). -/
theorem fieldInputs : Obligations.FieldInputs := by
  unfold Obligations.FieldInputs
  refine ⟨?write, ?raw, ?accept, ?stamp, ?sample, ?notDue, ?pop, ?flush, ?flushFrame, ?volts, ?loop⟩
  case write =>
    intro who r v s hlive hp hr hlock hopen
    have hrun : exec (.fioRegisterWrite who r v) s = .next (settled s (fioPend A.FIO_DTEN (wr A.FIO_DTEN v (quiet s)))) := by
      rw [← busWrite_dten who v (quiet s) hlive hp hlock hopen, ← hr]
      exact onRegs_powered _ s (powered_of_live s hlive)
    obtain ⟨hword, hfio, hcount⟩ := fioPend_dten v (quiet s)
    have hregs := fioPend_dten_regs v (quiet s)
    obtain ⟨hframe, hshadow⟩ := fioPend_dten_frame v (quiet s)
    refine ⟨_, hrun, ?_⟩
    simp only [settled_fio, settled_sent, settled_regs, rd_settled, getF_settled, sameRegs_settled]
    exact ⟨hword, by rw [hfio]; rfl, by rw [hfio]; rfl, hcount, hregs, hframe.leaves_shadow hshadow⟩
  case raw =>
    intro i v s hon hp hv
    have hrun : exec (.rawInputTransition i v) s = .next (settled s (rawInput i v (quiet s))) := rfl
    obtain ⟨hraw, hnow, htime, hfilt⟩ := rawInput_result i v (quiet s) i.isLt hon hp hv
    have hframe := rawInput_keeps i v (quiet s)
    refine ⟨_, hrun, ?_⟩
    simp only [settled_fio, settled_sent]
    exact ⟨hraw, hnow, htime, hfilt, hframe.leaves⟩
  case accept =>
    intro i s hon hp hv hheld hst hi
    obtain ⟨t, ht, hfilt, hacc, hraw, hedges, hframe⟩ := filterAccept_unstamped i (quiet s) i.isLt hon hp hv (by simpa using hheld)
      (by simpa using hst) hi
    have hrun : exec (.filterAccept i) s = .next (settled s t) := by rw [← ht]; rfl
    exact ⟨_, hrun, hfilt, hacc, hraw, hedges, hframe.leaves⟩
  case stamp =>
    intro i s hon hp hfilt hraw hheld hst hi he hroom
    obtain ⟨t, ht, hset, hedges, hlost, hframe⟩ := filterAccept_stamped i (quiet s) hon hp hfilt hraw (by simpa using hheld)
      (by simpa using hst) hi he hroom
    have hrun : exec (.filterAccept i) s = .next (settled s t) := by rw [← ht]; rfl
    exact ⟨_, hrun, hset, hedges, hlost, hframe.leaves⟩
  case sample =>
    intro g levels j s hon hp hdue
    have hrun : exec (.pulsedSample g levels) s = .next (settled s (pulsedSample g levels (quiet s))) := rfl
    obtain ⟨hraw, hdone⟩ := pulsedSample_result g levels j (quiet s) g.isLt j.isLt hon hp hdue
    have hframe := pulsedSample_keeps g levels (quiet s)
    refine ⟨_, hrun, ?_⟩
    simp only [settled_fio, settled_sent, sampleDue_settled]
    exact ⟨hraw, hdone, hframe.leaves⟩
  case notDue =>
    intro g levels s hdue
    have hrun : exec (.pulsedSample g levels) s = .next (settled s (pulsedSample g levels (quiet s))) := rfl
    rw [pulsedSample_idle g levels (quiet s) hdue] at hrun
    exact ⟨_, hrun, rfl⟩
  case pop =>
    intro who e s hlive hedges
    have hrun : exec (.fioEdgeRead who) s = .next (settled s (busRead who A.FIO_EDGE (quiet s))) :=
      onRegs_powered _ s (powered_of_live s hlive)
    rw [busRead_popped who e (quiet s) hlive hedges] at hrun
    have hcount := popped_count who e (quiet s)
    obtain ⟨hfio, hshadow⟩ := popped_holds who e (quiet s)
    obtain ⟨hregs, hframe⟩ := popped_frame who e (quiet s)
    refine ⟨_, hrun, ?_⟩
    simp only [settled_fio, settled_sent, settled_regs, settled_rshadow, getF_settled, sameRegs_settled]
    exact ⟨hfio, hcount, hshadow, hregs, hframe.leaves⟩
  case flush =>
    intro who s hlive hp hopen
    have hrun : exec (.edgeflush who) s = .next (settled s (busWrite who A.FIO_CMD 4 (quiet s))) :=
      onRegs_powered _ s (powered_of_live s hlive)
    rw [busWrite_edgeflush who (quiet s) hlive hp hopen, ← flushed] at hrun
    have hfio := flushed_fio (quiet s)
    have hcount := flushed_count (quiet s)
    obtain ⟨hregs, hframe, hshadow⟩ := flushed_frame (quiet s)
    refine ⟨_, hrun, ?_⟩
    simp only [settled_fio, settled_sent, settled_regs, getF_settled, sameRegs_settled]
    exact ⟨hfio, hcount, hregs, hframe.leaves_shadow hshadow⟩
  case flushFrame =>
    intro good sound f s hlive hgood hsound hon hdown hsafe hcmd
    subst hgood hsound
    have hrun : exec (.fDieFrameRx true true) s = .next (settled s (downRx true true (quiet s))) := inBlock_live _ s hlive
    obtain ⟨hempty, hframe⟩ := downRx_flushes f (quiet s) hon hdown hsafe hcmd
    refine ⟨_, hrun, ?_⟩
    simp only [settled_fio, settled_sent]
    exact ⟨hempty, hframe.leaves⟩
  case volts =>
    intro vals c n s hbusy hdue hen hrange hn hwhole
    subst hn
    have hrun : exec (.aiRoundComplete vals) s = .next (settled s (aiComplete vals (quiet s))) := rfl
    obtain ⟨hval, hbreak⟩ := aiComplete_channel vals (quiet s) c c.isLt hbusy hdue hen
    obtain ⟨hvolts, hwired⟩ := aiResult_volts vals (quiet s) c hrange hwhole
    obtain ⟨hend, hnews⟩ := aiComplete_ends vals (quiet s) hbusy hdue
    have hframe := aiComplete_keeps vals (quiet s)
    rw [hvolts] at hval
    rw [hwired] at hbreak
    refine ⟨_, hrun, ?_⟩
    simp only [settled_fio, settled_sent]
    exact ⟨hval, hnews, hend, hbreak, hframe.leaves⟩
  case loop =>
    intro vals c n s hbusy hdue hen hrange hn hwhole
    subst hn
    have hrun : exec (.aiRoundComplete vals) s = .next (settled s (aiComplete vals (quiet s))) := rfl
    obtain ⟨hval, hbreak⟩ := aiComplete_channel vals (quiet s) c c.isLt hbusy hdue hen
    obtain ⟨hloop, hwire⟩ := aiResult_loop vals (quiet s) c hrange hwhole
    obtain ⟨hend, -⟩ := aiComplete_ends vals (quiet s) hbusy hdue
    have hframe := aiComplete_keeps vals (quiet s)
    rw [hloop] at hval
    rw [hwire] at hbreak
    refine ⟨_, hrun, ?_⟩
    simp only [settled_fio, settled_sent]
    exact ⟨hval, hbreak, hend, hframe.leaves⟩

end Sys2Proof.Proofs
end

section
/-! The own-reach alias, and the addresses beside reach memory that decode to nothing (02_registers R46 to R48). -/

namespace Sys2Proof.Machine

/-! ### What an address selects -/

/-- The alias selects the reach of the initiator. -/
theorem target_alias (s : State) (who a n : Nat) (ha : a < 0x100000) (h : aliasReach who = some n) :
    target s who a = .reach n (foldFW s n (foldCW s n a)) := by
  unfold target
  rw [if_pos ha, h]

/-- For an initiator that has no reach of its own it selects nothing. -/
theorem target_alias_none (s : State) (who a : Nat) (ha : a < 0x100000) (h : aliasReach who = none) : target s who a = .nothing := by
  unfold target
  rw [if_pos ha, h]

theorem aliasReach_core (who : Nat) (h : who < 40) : aliasReach who = some (who / 8) := by
  unfold aliasReach
  rw [if_pos h]

theorem aliasReach_dma (who : Nat) (hlo : 40 ≤ who) (hhi : who < 45) : aliasReach who = some (who - 40) := by
  unfold aliasReach
  rw [if_neg (by omega), if_pos hhi]

theorem aliasReach_other (who : Nat) (h : 45 ≤ who) : aliasReach who = none := by
  unfold aliasReach
  rw [if_neg (by omega), if_neg (by omega)]

/-- The first 1 MiB of the stride of reach `n` is its memory. -/
theorem target_reach (s : State) (who n off : Nat) (hn : n < 5) (hoff : off < 0x100000) :
    target s who (0x10000000 + 0x1000000 * n + off) = .reach n (foldCW s n off) := by
  have hreach : (0x10000000 + 0x1000000 * n + off - 0x10000000) / 0x1000000 = n := by omega
  have hlow : (0x10000000 + 0x1000000 * n + off) % 0x1000000 = off := by omega
  unfold target
  rw [if_neg (by omega), if_pos (by omega), hreach, hlow, if_pos hoff]

/-- The rest of the stride decodes to nothing. -/
theorem target_stride (s : State) (who n off : Nat) (hn : n < 5) (hlo : 0x100000 ≤ off) (hhi : off < 0x1000000) :
    target s who (0x10000000 + 0x1000000 * n + off) = .nothing := by
  have hlow : (0x10000000 + 0x1000000 * n + off) % 0x1000000 = off := by omega
  unfold target
  rw [if_neg (by omega), if_pos (by omega), hlow, if_neg (by omega)]

/-- Between reach 4 and the Basin nothing decodes. -/
theorem target_gap (s : State) (who a : Nat) (hlo : 0x15000000 ≤ a) (hhi : a < 0x20000000) : target s who a = .nothing := by
  unfold target
  rw [if_neg (by omega), if_neg (by omega), if_neg (by omega), if_neg (by omega), if_neg (by omega), if_neg (by omega),
    if_neg (by omega)]

/-! ### How an access that selects nothing ends -/

/-- An access beside reach memory and the registers of reaches is not held. -/
theorem holdAccess_beside (who : Who) (a : Nat) (isWr : Bool) (s : State)
    (hmem : ¬ (0x10000000 ≤ a ∧ a < 0x15000000 ∧ a % 0x1000000 < 0x100000)) (hreg : ¬ (0x60100000 ≤ a ∧ a < 0x60150000)) :
    holdAccess who a isWr s = (s, false) := by
  unfold holdAccess
  rw [if_neg hmem, if_neg hreg]

/-- Below the Basin an access that selects nothing ends with DECODE, a load and a store alike. -/
theorem access_nothing (s : State) (who : Who) (a n : Nat) (bs : List Byte) (hlow : a < 0x20000000)
    (hmem : ¬ (0x10000000 ≤ a ∧ a < 0x15000000 ∧ a % 0x1000000 < 0x100000)) (htarget : target s who.id a = .nothing) :
    (localLoad who a n s).2 = .err .decode ∧ (localStore who a bs s).2 = .err .decode := by
  have hhold : ∀ isWr, holdAccess who a isWr s = (s, false) := fun isWr => holdAccess_beside who a isWr s hmem (by omega)
  constructor
  · unfold localLoad
    simp only [hhold, htarget]
  · unfold localStore
    simp only [hhold, htarget]

end Sys2Proof.Machine

namespace Sys2Proof.Proofs

open Sys2Proof.Machine

/-- Settles O6: what each range of addresses selects (`target_alias`, `target_reach`, `target_stride`, `target_gap`), and that an access
that selects nothing ends with DECODE. -/
theorem ownReachAlias : Obligations.OwnReachAlias := by
  unfold Obligations.OwnReachAlias
  refine ⟨fun s who a n bs ha => ⟨fun hcore => ?core, fun hlo hhi => ?dma, fun hother => ?other⟩, fun s who n off hoff => ?stride,
    fun s who a n bs hlo hhi => ?gap⟩
  case core => exact ⟨_, target_alias s who.id a _ ha (aliasReach_core who.id hcore)⟩
  case dma => exact ⟨_, target_alias s who.id a _ ha (aliasReach_dma who.id hlo hhi)⟩
  case other =>
    exact access_nothing s who a n bs (by omega) (by omega) (target_alias_none s who.id a ha (aliasReach_other who.id hother))
  case stride =>
    have hn : n.val < 5 := n.isLt
    split
    · next hlow => exact ⟨_, target_reach s who.id n off hn hlow⟩
    · next hhigh =>
      intro k bs
      exact access_nothing s who _ k bs (by omega) (by omega) (target_stride s who.id n off hn (by omega) hoff)
  case gap => exact access_nothing s who a n bs hhi (by omega) (target_gap s who.id a hlo hhi)

end Sys2Proof.Proofs
end

section
/-! A statement on the clocks that fails: the loss of the Beetle PLL stops what the engines wait for (15_beetles R417). -/

namespace Sys2Proof.Machine

/-- The Beetle PLL has its lock, and engine 0 waits for an instant (WAITFOR TIME). -/
def waitingEngine : State :=
  modEng 0 (fun x => { x with await := some (.until 5) }) (setF ⟨A.SYS_CLKSTAT, pllBit 7, 1⟩ 1 State.reset)

/-- Where that PLL loses lock, what is left of the wait is held. -/
theorem pllLoss_holds_wait : (pllLoss 7 (quiet waitingEngine)).btl ≠ waitingEngine.btl := by decide +kernel

theorem exec_waitingEngine :
    exec (.pllLockLoss 7) waitingEngine = .next (settled waitingEngine (pllLoss 7 (quiet waitingEngine))) :=
  onDie_calm (pllLoss 7) waitingEngine (by decide +kernel) (by decide +kernel)

end Sys2Proof.Machine

namespace Sys2Proof.Proofs

open Sys2Proof.Machine

/-- Refutes O9: the clause on PLLs beside those of the reaches and the time base takes in the Beetle PLL, and keeps the engines; but an
engine in WAITFOR TIME is changed where that PLL loses lock, for the rest of its wait is held until the lock is back (R417). -/
theorem not_clocksAndReference : ¬ Obligations.ClocksAndReference := by
  unfold Obligations.ClocksAndReference
  rintro ⟨lockLoss, -⟩
  obtain ⟨t, ht, -, -, -, -, -, hframe⟩ := lockLoss 7 waitingEngine (by decide +kernel) (by decide +kernel) (by decide) (by decide)
    (by decide +kernel)
  obtain rfl : settled waitingEngine (pllLoss 7 (quiet waitingEngine)) = t := by
    rw [exec_waitingEngine] at ht; injection ht
  have hengines := congrArg State.btl hframe
  exact pllLoss_holds_wait hengines

end Sys2Proof.Proofs
end

section
/-! Writes of register words over the bus: one word that nothing clamps, a write-back of an event register, and which states the end of a
command leaves at rest (02_registers R56 to R73). -/

namespace Sys2Proof.Machine

/-- A field depends on its word alone. -/
theorem getF_of_rd {s t : State} {f : FRef} (h : rd t f.addr = rd s f.addr) : getF t f = getF s f := by rw [getF, getF, h]

/-! ### The end of a command -/

/-- The words that the end of a command looks at, beside SCN_STATUS, which tells whether control has stopped. -/
def restWords : List Nat := [A.BST_STATUS, A.LKH_SBYSTAT] ++ (List.range 5).map A.RCH_PWR

/-- A device at rest stays at rest where the words and the parts that the end of a command looks at read as before. -/
theorem calm_congr {before s t : State} (hcores : t.cores = s.cores) (hrot : t.rot = s.rot) (hbrg : t.brg = s.brg)
    (hdue : t.faults.due = s.faults.due) (hnow : t.now = s.now) (hwords : ∀ a ∈ restWords, rd t a = rd s a)
    (hstop : stoppedSince before t = stoppedSince before s) (h : calm before s = true) : calm before t = true := by
  have hslice : sliceRunning t = sliceRunning s := by
    unfold sliceRunning
    rw [getF_of_rd (hwords A.BST_STATUS (by decide))]
  have hpair : pairState t = pairState s := getF_of_rd (hwords A.LKH_SBYSTAT (by decide))
  have hrel : releases before t = releases before s := by
    unfold releases
    rw [hrot, hbrg, hslice]
  have hrecent : ∀ n, recentCE t n = recentCE s n := by
    intro n
    unfold recentCE
    rw [hrot, hnow]
  have hpark : (List.range 5).all (fun n => getF t (F.RCH_PWR_PSTATE n) != 1)
      = (List.range 5).all (fun n => getF s (F.RCH_PWR_PSTATE n) != 1) := by
    rw [Bool.eq_iff_iff, List.all_eq_true, List.all_eq_true]
    refine forall_congr' fun n => forall_congr' fun hn => ?_
    rw [getF_of_rd (hwords (A.RCH_PWR n) (List.mem_append_right _ (List.mem_map_of_mem hn)))]
  unfold calm at h ⊢
  simp only [hcores, hrot, hbrg, hdue, hrecent, hpark, hrel, hstop, hpair, h]

/-- Control stops in SCN_STATUS. -/
theorem stoppedSince_congr (before : State) {s t : State} (h : rd t A.SCN_STATUS = rd s A.SCN_STATUS) :
    stoppedSince before t = stoppedSince before s := by
  unfold stoppedSince
  rw [getF_of_rd (f := F.SCN_STATUS_CSTATE) h]

/-- What a command sends does not count. -/
@[simp] theorem calm_quiet_left (s t : State) : calm (quiet s) t = calm s t := rfl

@[simp] theorem calm_quiet_right (s t : State) : calm s (quiet t) = calm s t := rfl

/-- A change of one word that the end of a command does not look at leaves a device at rest. -/
theorem calm_wr (before s : State) (a : Nat) (v : Word) (ha : a ∉ restWords) (hstatus : a ≠ A.SCN_STATUS) (h : calm before s = true) :
    calm before (wr a v s) = true :=
  calm_congr (wr_cores _ _ _) (wr_rot _ _ _) (wr_brg _ _ _) (congrArg _ (wr_faults _ _ _)) (wr_now _ _ _)
    (fun b hb => rd_wr_other a b v s (ne_of_mem_of_not_mem hb ha)) (stoppedSince_congr before (rd_wr_other a _ v s hstatus.symm)) h

/-! ### Writes of one word -/

/-- A register of one word with description `d`, whose effect on its word is that of its fields alone: nothing of it asserts an output,
belongs to a pair or is a descriptor of the scan. -/
def simpleWord (pa : Nat) (d : RegDesc) : Bool :=
  plainWord pa d && d.tidy && blockAt pa != some .rch && !pairReg pa && !isDescriptor pa
    && !(copyAt (A.SCN_TASK_CTL 0) 0x40 32 pa).isSome
    && (evtOffsets (pa / 0x10000)).all fun o => pa / 0x10000 * 0x10000 + o != pa && pa / 0x10000 * 0x10000 + o + 4 != pa

/-- An initiator may write every field of a register: it is privileged, or no field asks for it. -/
def mayWrite (s : State) (who : Who) (pa : Nat) (d : RegDesc) : Bool := isPriv s who || d.fields.all fun f => !fieldPriv (dynPriv s pa) f

/-- An initiator that may write a field writes it as a privileged one does. -/
theorem mayWrite_field {s : State} {who : Who} {pa : Nat} {d : RegDesc} (h : mayWrite s who pa d = true) {f : FieldDesc} (hf : f ∈ d.fields) :
    isPriv s who = true ∨ fieldPriv (dynPriv s pa) f = false := by
  rcases Bool.or_eq_true_iff.mp h with hp | hall
  · exact Or.inl hp
  · exact Or.inr (by simpa using List.all_eq_true.mp hall f hf)

theorem rawNew_mayWrite {s : State} {who : Who} {pa : Nat} {d : RegDesc} (h : mayWrite s who pa d = true) (al old v : Nat) :
    rawNew d (dynPriv s pa) (isPriv s who) al old v = rawNew d (dynPriv s pa) true al old v :=
  List.foldl_ext _ _ _ fun acc f hf => by simp [mayWrite_field h hf]

theorem cmdBits_mayWrite {s : State} {who : Who} {pa : Nat} {d : RegDesc} (h : mayWrite s who pa d = true) (al v : Nat) :
    cmdBits d (dynPriv s pa) (isPriv s who) al v = cmdBits d (dynPriv s pa) true al v := by
  unfold cmdBits
  congr 1
  exact List.foldl_ext _ _ _ fun acc f hf => by simp [mayWrite_field h hf]

theorem writeCounts_mayWrite {s : State} {who : Who} {pa : Nat} {d : RegDesc} (h : mayWrite s who pa d = true) (al old v : Nat) :
    writeCounts d (dynPriv s pa) (isPriv s who) al old v = false := by
  unfold writeCounts
  rw [Bool.and_eq_false_iff, Bool.not_eq_false', List.any_eq_false]
  cases hp : isPriv s who
  · refine Or.inr fun f hf => ?_
    have hmay : fieldPriv (dynPriv s pa) f = false := by simpa [hp] using mayWrite_field h hf
    simp [hmay]
  · exact Or.inl rfl

/-- The state after the RW fields of a register have taken what a write carries. -/
def written (d : RegDesc) (pa v : Nat) (s : State) : State := wr pa (w32 (rawNew d (dynPriv s pa) true 0 (rd s pa).toNat v)) s

theorem rd_written_other (d : RegDesc) (pa v : Nat) (s : State) (a : Nat) (ha : a ≠ pa) : rd (written d pa v s) a = rd s a :=
  rd_wr_other pa a _ s ha

theorem written_faults (d : RegDesc) (pa v : Nat) (s : State) : (written d pa v s).faults = s.faults := wr_faults _ _ _

theorem getF_written (d : RegDesc) (pa v : Nat) (s : State) (htidy : d.tidy = true) (f : FieldDesc) (hf : f ∈ d.fields) (ha : f.acc = .rw) :
    getF (written d pa v s) ⟨pa, f.lo, f.w⟩ = bitsOf v f.lo f.w := by
  rw [getF, written, rd_wr_same, toNat_w32_lt _ (rawNew_lt d _ _ _ _ _ htidy (rd s pa).isLt), rawNew_same d _ _ _ htidy f hf ha]

/-- A CMD field that is written with something other than 0 gives a command (R10). -/
theorem cmdBits_ne_zero (d : RegDesc) (dyn : Bool) (v : Nat) (htidy : d.tidy = true) (f : FieldDesc) (hf : f ∈ d.fields) (ha : f.acc = .cmd)
    (hset : bitsOf v f.lo f.w ≠ 0) : cmdBits d dyn true 0 v ≠ 0 := by
  simp only [RegDesc.tidy, Bool.and_eq_true, decide_eq_true_eq] at htidy
  have hfield : bitsOf (cmdBits d dyn true 0 v) f.lo f.w = bitsOf v f.lo f.w := by
    unfold cmdBits
    rw [if_pos (Nat.zero_le 1), foldl_putBits_same (fun f => f.acc = .cmd ∧ (true = true ∨ (!fieldPriv dyn f) = true))
      (fun f => bitsOf v f.lo f.w) d.fields htidy.2 f hf ⟨ha, Or.inl rfl⟩, Nat.mod_eq_of_lt (bitsOf_lt _ _ _)]
  intro hzero
  rw [hzero, bitsOf, Nat.zero_div, Nat.zero_mod] at hfield
  exact hset hfield.symm

/-- A register without RW fields keeps its word. -/
theorem written_command (d : RegDesc) (pa v : Nat) (s : State) (h : (d.fields.all fun f => f.acc != .rw) = true) :
    written d pa v s = wr pa (rd s pa) s := by
  have hraw : rawNew d (dynPriv s pa) true 0 (rd s pa).toNat v = (rd s pa).toNat := by
    have hfold := List.foldl_ext (fun acc f => if f.acc = .rw ∧ (true = true ∨ (!fieldPriv (dynPriv s pa) f) = true) then
      putBits acc f.lo f.w (bitsOf (aliasOp 0 (rd s pa).toNat v) f.lo f.w) else acc) (fun acc _ => acc) (rd s pa).toNat
      (l := d.fields) fun acc f hf => if_neg fun hc => by simpa [hc.1] using List.all_eq_true.mp h f hf
    exact hfold.trans (List.foldl_fixed _)
  rw [written, hraw, w32_toNat]

/-- A write that nothing forbids and nothing clamps gives the RW fields what it carries (R10, R58, R59, R71), and starts what its block
starts. -/
theorem busWrite_simple (who : Who) (pa v : Nat) (s : State) (d : RegDesc) (hd : simpleWord pa d = true) (hv : v < 2 ^ 32)
    (hlive : live s = true) (hfree : lockedReg s pa 0 v = false) (hopen : unguarded s who = true) (hmay : mayWrite s who pa d = true)
    (hzero : ∀ n, zeroBits pa n = n) (hlock : ∀ n, keepLock pa (rd s pa).toNat n = n) (hclamp : ∀ n, clampWord s pa n = n)
    (hlegal : ∀ f ∈ d.fields, f.acc = .rw → f.clamp.apply (bitsOf v f.lo f.w) = bitsOf v f.lo f.w) :
    ∃ i : WInfo, i.pa = pa ∧ i.cmds = cmdBits d (dynPriv s pa) true 0 v ∧ busWrite who pa v s = startBlock i (written d pa v s) := by
  simp only [simpleWord, Bool.and_eq_true, Bool.not_eq_true', bne_iff_ne, List.all_eq_true] at hd
  obtain ⟨⟨⟨⟨⟨⟨hplain, htidy⟩, hrch⟩, hpair⟩, hdesc⟩, htask⟩, hevt⟩ := hd
  have hread : rdBank s pa = rd s pa := by unfold rdBank; split <;> simp [hdesc]
  have hwrite : ∀ w t, wrBank pa w t = wr pa w t := by intro w t; unfold wrBank; split <;> simp [hdesc]
  have hfields : clampFields d (rawNew d (dynPriv s pa) true 0 (rd s pa).toNat v) = rawNew d (dynPriv s pa) true 0 (rd s pa).toNat v :=
    clampFields_legal d _ fun f hf ha => by rw [rawNew_same d _ _ _ htidy f hf ha]; exact hlegal f hf ha
  have happ : (applyWord who 0 pa d v s).1 = written d pa v s := by
    simp [applyWord, written, hread, hwrite, rawNew_mayWrite hmay, writeCounts_mayWrite hmay, htask, hzero, hlock, hfields, hclamp,
      clampedFields_self]
  have hrange : 0x60000000 ≤ pa ∧ pa + 4 ≤ 0x70000000 := by
    simp only [plainWord, Bool.and_eq_true, decide_eq_true_eq] at hplain
    omega
  have hguard : semGuards s pa 4 who = false := semGuards_of_unguarded s pa who hrange.1 hrange.2 hopen
  have hdead : deadReg s pa = false := by simp [deadReg, hrch, hpair]
  have hrun : s.cfg.halted = false := by simpa using (Bool.and_eq_true_iff.mp hlive).2
  have hout : asserted (written d pa v s) (pa / 0x10000) = asserted s (pa / 0x10000) :=
    asserted_congr s _ _ fun o ho => ⟨rd_written_other _ _ _ _ _ (hevt o ho).1, rd_written_other _ _ _ _ _ (hevt o ho).2⟩
  refine ⟨(applyWord who 0 pa d v s).2, rfl, cmdBits_mayWrite hmay 0 v, ?_⟩
  rw [busWrite_plain who pa v s d hplain hv hrun hdead hfree hguard, happ]
  simp only [hout, Bool.and_not_self, Bool.false_eq_true, if_false]

/-! ### Registers whose write starts nothing -/

/-- Registers that are plain storage for software: a write starts nothing. -/
def inertWords : List Nat := [A.SYS_PRIVCTL, A.LKP_CTL, A.LKP_HWM, A.LKP_TRCCTL, A.SCN_WDCTL, A.SCN_FORCEARG]

theorem simpleWord_inert {pa : Nat} {d : RegDesc} (hpa : pa ∈ inertWords) (hd : descAt pa = some d) : simpleWord pa d = true := by
  have hall : ∀ pa ∈ inertWords, ∀ d ∈ descAt pa, simpleWord pa d = true := by decide
  exact hall pa hpa d hd

theorem startBlock_sys (i : WInfo) (s : State) (hi : blockAt i.pa = some .sys) : startBlock i s = hookSys i s := by
  unfold startBlock
  rw [hi]

theorem startBlock_lkp (i : WInfo) (s : State) (hi : blockAt i.pa = some .lkp) : startBlock i s = hookLkp i s := by
  unfold startBlock
  rw [hi]

theorem startBlock_scn (i : WInfo) (s : State) (hi : blockAt i.pa = some .scn) : startBlock i s = hookScn i s := by
  unfold startBlock
  rw [hi]

theorem startBlock_inert (i : WInfo) (s : State) (hi : i.pa ∈ inertWords) : startBlock i s = s := by
  simp only [inertWords, List.mem_cons, List.not_mem_nil, or_false] at hi
  rcases hi with h | h | h | h | h | h
  · rw [startBlock_sys i s (by rw [h]; rfl), hookSys, h]; rfl
  · rw [startBlock_lkp i s (by rw [h]; rfl), hookLkp, h]; rfl
  · rw [startBlock_lkp i s (by rw [h]; rfl), hookLkp, h]; rfl
  · rw [startBlock_lkp i s (by rw [h]; rfl), hookLkp, h]; rfl
  · rw [startBlock_scn i s (by rw [h]; rfl), hookScn, h]; rfl
  · rw [startBlock_scn i s (by rw [h]; rfl), hookScn, h]; rfl

theorem clampWord_inert (s : State) (pa v : Nat) (hpa : pa ∈ inertWords) : clampWord s pa v = v := by
  simp only [inertWords, List.mem_cons, List.not_mem_nil, or_false] at hpa
  rcases hpa with rfl | rfl | rfl | rfl | rfl | rfl <;> rfl

theorem zeroBits_inert (pa v : Nat) (hpa : pa ∈ inertWords) : zeroBits pa v = v := by
  simp only [inertWords, List.mem_cons, List.not_mem_nil, or_false] at hpa
  rcases hpa with rfl | rfl | rfl | rfl | rfl | rfl <;> rfl

/-- A LOCK bit that a write meets at 0 keeps nothing. -/
theorem keepLock_unlocked (s : State) (pa v n : Nat) (hfree : lockedReg s pa 0 v = false) : keepLock pa (rd s pa).toNat n = n := by
  unfold keepLock
  refine if_neg ?_
  rintro ⟨hmask, hbit⟩
  unfold lockedReg at hfree
  rw [if_pos hmask, hbit] at hfree
  cases hfree

/-- A privileged write of legal fields to such a register sets its RW fields. -/
theorem busWrite_inert (who : Who) (pa v : Nat) (s : State) (d : RegDesc) (hpa : pa ∈ inertWords) (hd : descAt pa = some d) (hv : v < 2 ^ 32)
    (hlive : live s = true) (hp : isPriv s who = true) (hfree : lockedReg s pa 0 v = false) (hopen : unguarded s who = true)
    (hlegal : ∀ f ∈ d.fields, f.acc = .rw → f.clamp.apply (bitsOf v f.lo f.w) = bitsOf v f.lo f.w) :
    busWrite who pa v s = written d pa v s := by
  obtain ⟨i, hi, -, hwrite⟩ := busWrite_simple who pa v s d (simpleWord_inert hpa hd) hv hlive hfree hopen (by rw [mayWrite, hp, Bool.true_or])
    (fun n => zeroBits_inert pa n hpa) (fun n => keepLock_unlocked s pa v n hfree) (fun n => clampWord_inert s pa n hpa) hlegal
  rw [hwrite, startBlock_inert i _ (by rw [hi]; exact hpa)]

theorem tidy_inert {pa : Nat} {d : RegDesc} (hpa : pa ∈ inertWords) (hd : descAt pa = some d) : d.tidy = true := by
  have hsimple := simpleWord_inert hpa hd
  simp only [simpleWord, Bool.and_eq_true] at hsimple
  obtain ⟨⟨⟨⟨⟨⟨-, htidy⟩, -⟩, -⟩, -⟩, -⟩, -⟩ := hsimple
  exact htidy

/-! ### Event registers -/

/-- The event registers of the blocks that the statement on write-backs names. -/
def eventWords : List Nat := [A.SYS_EVT, A.LKH_EVT, A.LKP_EVT, A.SCN_EVT, A.BAS_EVT, A.TMB_EVT, A.CFG_EVT]

/-- An event register is a word of its own that the bus reaches, with event bits among its fields. -/
def eventWord (a : Nat) : Bool :=
  decide (0x60000000 ≤ a ∧ a < 0x70000000 ∧ a % 4 = 0 ∧ a % 0x10000 < 0x4000)
    && (descAt a).any (fun d => d.fields.any fun f => f.acc = .sq) && (copyAt (A.MBX_TX 0) 0x10 64 a).isNone
    && (copyAt (A.BRG_SEM 0) 0x10 32 a).isNone && pinAlias a == a && !(decide (0x60100000 ≤ a ∧ a < 0x60150000)) && blockAt a != some .rch
    && !pairReg a && (blockAt a).isSome

theorem eventWord_of_mem {a : Nat} (ha : a ∈ eventWords) : eventWord a = true := by
  have hall : ∀ a ∈ eventWords, eventWord a = true := by decide
  exact hall a ha

theorem lockedReg_event (s : State) (a v : Nat) (ha : a ∈ eventWords) : lockedReg s a 0 v = false := by
  simp only [eventWords, List.mem_cons, List.not_mem_nil, or_false] at ha
  rcases ha with rfl | rfl | rfl | rfl | rfl | rfl | rfl <;> rfl

/-- A privileged write to an event register is a write-back (R65). -/
theorem regStore_event (who : Who) (a v : Nat) (s : State) (hd : eventWord a = true) (hp : isPriv s who = true)
    (hfree : lockedReg s a 0 v = false) : regStore who a v s = (writeBack a (w32 v) s, .ok none) := by
  simp only [eventWord, Bool.and_eq_true, decide_eq_true_eq, Option.any_eq_true] at hd
  obtain ⟨⟨⟨⟨⟨⟨⟨⟨⟨-, -, -, hlow⟩, d, hdesc, hsq⟩, -⟩, -⟩, -⟩, -⟩, -⟩, -⟩, -⟩ := hd
  have hal : a % 0x10000 / 0x4000 = 0 := by omega
  unfold regStore
  simp only [hal, Nat.zero_mul, Nat.sub_zero, hdesc, hfree, hsq, hp, writeCounts]
  simp

theorem busWrite_event (who : Who) (a v : Nat) (s : State) (ha : a ∈ eventWords) (hv : v < 2 ^ 32) (hlive : live s = true)
    (hp : isPriv s who = true) (hopen : unguarded s who = true) : busWrite who a v s = writeBack a (w32 v) s := by
  have hd := eventWord_of_mem ha
  have hstore := regStore_event who a v s hd hp (lockedReg_event s a v ha)
  simp only [eventWord, Bool.and_eq_true, decide_eq_true_eq, beq_iff_eq, Bool.not_eq_true', decide_eq_false_iff_not, bne_iff_ne,
    Option.isNone_iff_eq_none] at hd
  obtain ⟨⟨⟨⟨⟨⟨⟨⟨⟨hlo, hhi, haligned, hlow⟩, -⟩, hmbx⟩, hsem⟩, hpin⟩, hreach⟩, hrch⟩, hpair⟩, hblk⟩ := hd
  have hal : a % 0x10000 / 0x4000 = 0 := by omega
  have hrun : s.cfg.halted = false := by simpa using (Bool.and_eq_true_iff.mp hlive).2
  have hhold : holdAccess who a true s = (s, false) := holdAccess_beside who a true s (by omega) hreach
  have htarget : target s who.id a = .reg a := by
    unfold target
    rw [if_neg (by omega), if_neg (by omega), if_neg (by omega), if_neg (by omega), if_neg (by omega), if_pos (by omega), if_pos hblk]
  have hans : answers s a = true := by simp [answers, hrun]
  have hguard : semGuards s a 4 who = false := semGuards_of_unguarded s a who hlo (by omega) hopen
  have hdead : deadReg s a = false := by simp [deadReg, hrch, hpair]
  unfold busWrite store
  simp only [htarget]
  unfold localStore
  simp only [hhold, htarget, hal, Nat.zero_mul, Nat.sub_zero, hans]
  rw [if_neg (by simp [haligned]), leNat_leBytes4 v hv]
  unfold regWrite
  simp only [hal, Nat.zero_mul, Nat.sub_zero, hpin, hdead, hmbx, hsem, Nat.add_zero, hstore, hguard, or_self, Bool.false_eq_true, if_false]

/-- The word after a write-back with the current EVSEQ: the written event bits are cleared (R65). -/
def clearedBits (a : Nat) (v : Word) (s : State) : State := wr a (rd s a &&& (0xFF000000#32 ||| ~~~v)) s

/-- With the current EVSEQ a write-back clears the written bits; where others still assert the output, its source fires. -/
theorem writeBack_cases (a : Nat) (v : Word) (s : State) (hseq : v.toNat / 2 ^ 24 = (rd s a).toNat / 2 ^ 24) :
    writeBack a v s = clearedBits a v s ∨ writeBack a v s = pend (outSource (a / 0x10000)) 0 (clearedBits a v s) := by
  have hshift : v >>> 24 = rd s a >>> 24 :=
    BitVec.eq_of_toNat_eq (by rw [BitVec.toNat_ushiftRight, BitVec.toNat_ushiftRight, Nat.shiftRight_eq_div_pow, Nat.shiftRight_eq_div_pow, hseq])
  have hword : rd s a &&& 0xFF000000#32 ||| rd s a &&& ~~~v &&& 0xFFFFFF#32 = rd s a &&& (0xFF000000#32 ||| ~~~v) := by
    generalize rd s a = cur
    ext i hi
    interval_cases i <;> simp
  unfold writeBack
  simp only [hshift, beq_self_eq_true, if_true, hword]
  rw [← clearedBits]
  split
  · exact Or.inr rfl
  · exact Or.inl rfl

/-- The word of LKP_PEND in which the output of an event register fires. -/
def pendOf (a : Nat) : Nat := A.LKP_PEND (outSource (a / 0x10000) / 32)

theorem pendOf_event {a : Nat} (ha : a ∈ eventWords) :
    a ≠ pendOf a ∧ pendOf a ∈ pendWords ∧ ∀ b ∈ A.SCN_STATUS :: restWords, b ≠ a ∧ b ≠ pendOf a := by
  have hall : ∀ a ∈ eventWords, a ≠ pendOf a ∧ pendOf a ∈ pendWords ∧ ∀ b ∈ A.SCN_STATUS :: restWords, b ≠ a ∧ b ≠ pendOf a := by decide
  exact hall a ha

/-- A write-back changes the event register and pending words alone. -/
theorem rd_writeBack_other (a b : Nat) (v : Word) (s : State) (hseq : v.toNat / 2 ^ 24 = (rd s a).toNat / 2 ^ 24) (hb : b ≠ a)
    (hpend : b ≠ pendOf a) : rd (writeBack a v s) b = rd s b := by
  have hcleared : rd (clearedBits a v s) b = rd s b := rd_wr_other a b _ s hb
  rcases writeBack_cases a v s hseq with h | h
  · rw [h, hcleared]
  · rw [h, rd_pend _ _ _ _ hpend, hcleared]

theorem rd_writeBack_same (a : Nat) (v : Word) (s : State) (hseq : v.toNat / 2 ^ 24 = (rd s a).toNat / 2 ^ 24) (hpend : a ≠ pendOf a) :
    rd (writeBack a v s) a = (rd s a &&& (0xFF000000#32 ||| ~~~v)) := by
  have hcleared : rd (clearedBits a v s) a = (rd s a &&& (0xFF000000#32 ||| ~~~v)) := rd_wr_same a _ s
  rcases writeBack_cases a v s hseq with h | h
  · rw [h, hcleared]
  · rw [h, rd_pend _ _ _ _ hpend, hcleared]

theorem eventsOnly.trans {s t u : State} (h : eventsOnly s t) (g : eventsOnly t u) : eventsOnly s u := by
  rw [eventsOnly, h] at g
  exact g

theorem wr_eventsOnly (a : Nat) (v : Word) (s : State) : eventsOnly s (wr a v s) := rfl

theorem pend_eventsOnly (src v : Nat) (s : State) : eventsOnly s (pend src v s) := rfl

theorem writeBack_eventsOnly (a : Nat) (v : Word) (s : State) (hseq : v.toNat / 2 ^ 24 = (rd s a).toNat / 2 ^ 24) :
    eventsOnly s (writeBack a v s) := by
  have hcleared : eventsOnly s (clearedBits a v s) := wr_eventsOnly a _ s
  rcases writeBack_cases a v s hseq with h | h
  · rw [h]; exact hcleared
  · rw [h]; exact hcleared.trans (pend_eventsOnly _ _ _)

theorem calm_of_eventsOnly {before s t : State} (h : eventsOnly s t) (hwords : ∀ a ∈ A.SCN_STATUS :: restWords, rd t a = rd s a)
    (hcalm : calm before s = true) : calm before t = true := by
  have hstop := stoppedSince_congr before (hwords A.SCN_STATUS List.mem_cons_self)
  refine calm_congr ?_ ?_ ?_ ?_ ?_ (fun a ha => hwords a (List.mem_cons_of_mem _ ha)) hstop hcalm <;> rw [h]

/-! ### Commands of the SYS block -/

/-- SYS_CLKMEAS: the count, GO and the clock to count; none of it privileged. -/
def clkmeasDesc : RegDesc :=
  ⟨0x40, 1, 0x0, .one, [⟨8, 24, .ro, false, 0, .none⟩, ⟨4, 1, .cmd, false, 0, .none⟩, ⟨0, 4, .rw, false, 0, .codes [(11, 15, 0)]⟩]⟩

theorem startBlock_clkmeas (i : WInfo) (s : State) (hi : i.pa = A.SYS_CLKMEAS) (hgo : i.cmds ≠ 0) : startBlock i s = clockMeasure s := by
  rw [startBlock_sys i s (by rw [hi]; rfl), hookSys, if_pos hi, if_neg hgo]

/-- The word of a CLKMEAS_GO has GO and the clock as its fields. -/
theorem clkmeas_fields (sel : Nat) (hsel : sel < 16) : bitsOf (16 + sel) 4 1 = 1 ∧ bitsOf (16 + sel) 0 4 = sel := by
  simp only [bitsOf]
  omega

/-- GO selects the clock and counts it. -/
theorem busWrite_clkmeas (who : Who) (sel : Nat) (s : State) (hsel : sel < 10) (hlive : live s = true) (hopen : unguarded s who = true) :
    busWrite who A.SYS_CLKMEAS (16 + sel) s = clockMeasure (written clkmeasDesc A.SYS_CLKMEAS (16 + sel) s) := by
  obtain ⟨hgo, hselect⟩ := clkmeas_fields sel (by omega)
  have hlegal : Clamp.apply (.codes [(11, 15, 0)]) sel = sel := by
    simp only [Clamp.apply, List.find?_cons, List.find?_nil]
    rw [decide_eq_false (by omega)]
  obtain ⟨i, hi, hcmds, hwrite⟩ := busWrite_simple who A.SYS_CLKMEAS (16 + sel) s clkmeasDesc (by decide) (by omega) hlive rfl hopen
    (Bool.or_eq_true_iff.mpr (Or.inr rfl)) (fun _ => rfl) (fun _ => rfl) (fun _ => rfl) (by simp [clkmeasDesc, hselect, hlegal])
  rw [hwrite, startBlock_clkmeas i _ hi (by rw [hcmds]; exact cmdBits_ne_zero _ _ _ (by decide) ⟨4, 1, .cmd, false, 0, .none⟩ (by simp [clkmeasDesc]) rfl (by simp [hgo]))]

theorem getF_selected (sel : Nat) (s : State) (hsel : sel < 16) :
    getF (written clkmeasDesc A.SYS_CLKMEAS (16 + sel) s) F.SYS_CLKMEAS_SEL = sel :=
  (getF_written clkmeasDesc _ _ s (by decide) ⟨0, 4, .rw, false, 0, .codes [(11, 15, 0)]⟩ (by simp [clkmeasDesc]) rfl).trans
    (clkmeas_fields sel hsel).2

/-- A locked PLL of a reach, the Basin, the time base, the Beetles, CAN or PCIe is counted at its nominal frequency. -/
theorem clockMeasure_locked (s : State) (hsel : getF s F.SYS_CLKMEAS_SEL < 10) (href : isSet s F.SYS_CLKSTAT_REFOK = true)
    (hlock : isSet s ⟨A.SYS_CLKSTAT, pllBit (getF s F.SYS_CLKMEAS_SEL), 1⟩ = true) :
    clockMeasure s = setF F.SYS_CLKMEAS_COUNT (if getF s F.SYS_CLKMEAS_SEL < 5 then 40000
      else [20000, 20000, 8000, 3200, 10000].getD (getF s F.SYS_CLKMEAS_SEL - 5) 0) s := by
  have hpll : getF s F.SYS_CLKMEAS_SEL ≠ 10 := by omega
  unfold clockMeasure clockCount
  simp only [href, hlock, hpll, Bool.not_true, Bool.false_eq_true, if_false, if_true]

/-- SYS_BUSERRCTL is one privileged CMD bit. -/
def buserrctlDesc : RegDesc := ⟨0x84, 1, 0x0, .one, [⟨0, 1, .cmd, true, 0, .none⟩]⟩

theorem startBlock_buserrctl (i : WInfo) (s : State) (hi : i.pa = A.SYS_BUSERRCTL) (hclear : i.cmds ≠ 0) :
    startBlock i s = busErrClear s := by
  rw [startBlock_sys i s (by rw [hi]; rfl), hookSys, if_neg (by rw [hi]; decide), if_pos hi, if_neg hclear]

/-- A privileged CLEAR clears the bus error log; the register keeps its word. -/
theorem busWrite_buserrctl (who : Who) (s : State) (hlive : live s = true) (hp : isPriv s who = true) (hopen : unguarded s who = true) :
    busWrite who A.SYS_BUSERRCTL 1 s = busErrClear (wr A.SYS_BUSERRCTL (rd s A.SYS_BUSERRCTL) s) := by
  obtain ⟨i, hi, hcmds, hwrite⟩ := busWrite_simple who A.SYS_BUSERRCTL 1 s buserrctlDesc (by decide) (by decide) hlive rfl hopen
    (by rw [mayWrite, hp, Bool.true_or]) (fun _ => rfl) (fun _ => rfl) (fun _ => rfl) (by simp [buserrctlDesc])
  rw [hwrite, startBlock_buserrctl i _ hi (by rw [hcmds]; exact cmdBits_ne_zero _ _ _ (by decide) _ List.mem_cons_self rfl (by decide)), written_command _ _ _ _ (by decide)]

/-! ### The bus error log -/

/-- Entry `n` of the bus error log is zeroed. -/
def zeroEntry (n : Nat) (s : State) : State := wr64 (A.SYS_BUSERR_TIME n) 0 (wr (A.SYS_BUSERR_INFO n) 0 (wr (A.SYS_BUSERR_ADDR n) 0 s))

/-- The words of the entries from `lo` to below `hi`. -/
def logWord (lo hi a : Nat) : Bool := decide (0x60000100 + 0x10 * lo ≤ a ∧ a < 0x60000100 + 0x10 * hi ∧ a % 4 = 0)

/-- The four words of an entry. -/
theorem logWord_one (n a : Nat) :
    logWord n (n + 1) a = true ↔ a = A.SYS_BUSERR_ADDR n ∨ a = A.SYS_BUSERR_INFO n ∨ a = A.SYS_BUSERR_TIME n ∨ a = A.SYS_BUSERR_TIME n + 4 := by
  simp only [logWord, A.SYS_BUSERR_ADDR, A.SYS_BUSERR_INFO, A.SYS_BUSERR_TIME, decide_eq_true_eq]
  omega

theorem logWord_succ (m a : Nat) : logWord 0 (m + 1) a = (logWord 0 m a || logWord m (m + 1) a) := by
  simp only [logWord, ← Bool.decide_or]
  rw [decide_eq_decide]
  omega

/-- The four words of a zeroed entry read 0; every other word reads as before. -/
theorem rd_zeroEntry (n a : Nat) (s : State) : rd (zeroEntry n s) a = if logWord n (n + 1) a then 0 else rd s a := by
  have hwords := logWord_one n a
  unfold zeroEntry wr64
  simp only [rd_wr]
  cases hword : logWord n (n + 1) a
  · obtain ⟨haddr, hinfo, hlow, hhigh⟩ : a ≠ A.SYS_BUSERR_ADDR n ∧ a ≠ A.SYS_BUSERR_INFO n ∧ a ≠ A.SYS_BUSERR_TIME n ∧ a ≠ A.SYS_BUSERR_TIME n + 4 := by
      simpa [hword] using hwords
    simp [haddr, hinfo, hlow, hhigh]
  · rcases hwords.mp hword with h | h | h | h <;> simp [h, w32]

/-- Entries below `m` zeroed: their words read 0. -/
theorem rd_each_zeroEntry (m a : Nat) (s : State) : rd (each (List.range m) zeroEntry s) a = if logWord 0 m a then 0 else rd s a := by
  induction m with
  | zero => rw [List.range_zero, each_nil, if_neg (by simp only [logWord, decide_eq_true_eq]; omega)]
  | succ m ih =>
    rw [List.range_succ, each_append, each_cons, each_nil, rd_zeroEntry, ih, logWord_succ]
    cases logWord 0 m a <;> cases logWord m (m + 1) a <;> rfl

theorem busErrClear_eq (s : State) :
    busErrClear s = setF F.SYS_BUSERRPTR_TOTAL 0 (setF F.SYS_BUSERRPTR_NEXT 0 (each (List.range 16) zeroEntry s)) := rfl

/-- A cleared log: every entry reads 0, every other word but the pointer as before. -/
theorem rd_busErrClear (s : State) (a : Nat) (ha : a ≠ A.SYS_BUSERRPTR) :
    rd (busErrClear s) a = if logWord 0 16 a then 0 else rd s a := by
  rw [busErrClear_eq, rd_setF_other _ _ _ _ ha, rd_setF_other _ _ _ _ ha, rd_each_zeroEntry]

theorem busErrClear_entry (s : State) (n : Nat) (hn : n < 16) :
    rd (busErrClear s) (A.SYS_BUSERR_ADDR n) = 0 ∧ rd (busErrClear s) (A.SYS_BUSERR_INFO n) = 0
      ∧ rd64 (busErrClear s) (A.SYS_BUSERR_TIME n) = 0 := by
  have hword : ∀ a, logWord n (n + 1) a = true → rd (busErrClear s) a = 0 := by
    intro a ha
    simp only [logWord, decide_eq_true_eq] at ha
    rw [rd_busErrClear s a (by simp only [A.SYS_BUSERRPTR]; omega), if_pos (by simp only [logWord, decide_eq_true_eq]; omega)]
  refine ⟨hword _ ((logWord_one n _).mpr (by simp)), hword _ ((logWord_one n _).mpr (by simp)), ?_⟩
  rw [rd64, hword _ ((logWord_one n (A.SYS_BUSERR_TIME n)).mpr (by simp)),
    hword _ ((logWord_one n (A.SYS_BUSERR_TIME n + 4)).mpr (by simp))]
  rfl

theorem busErrClear_pointer (s : State) :
    getF (busErrClear s) F.SYS_BUSERRPTR_NEXT = 0 ∧ getF (busErrClear s) F.SYS_BUSERRPTR_TOTAL = 0 := by
  rw [busErrClear_eq]
  constructor
  · rw [getF_setF_other _ _ _ _ (by decide) (Or.inr (Or.inr (by decide))), getF_setF_same _ _ _ (by decide), Nat.zero_mod]
  · rw [getF_setF_same _ _ _ (by decide), Nat.zero_mod]

theorem busErrClear_sameRegs (s : State) :
    sameRegs (A.SYS_BUSERRPTR :: (List.range 64).map fun k => A.SYS_BUSERR_ADDR 0 + 4 * k) s (busErrClear s) := by
  intro a ha
  simp only [List.mem_cons, List.mem_map, List.mem_range, not_or, not_exists, not_and, A.SYS_BUSERR_ADDR] at ha
  obtain ⟨hptr, hentry⟩ := ha
  rw [rd_busErrClear s a hptr, if_neg]
  simp only [logWord, decide_eq_true_eq]
  rintro ⟨hlo, hhi, hmod⟩
  exact hentry ((a - 0x60000100) / 4) (by omega) (by omega)

/-! ### Frames -/

/-- A word written with what it holds leaves every word. -/
theorem rd_wr_self (a : Nat) (s : State) (b : Nat) : rd (wr a (rd s a) s) b = rd s b := by
  rw [rd_wr]
  split
  · next h => rw [h]
  · rfl

@[simp] theorem rd64_settled (s t : State) (a : Nat) : rd64 (settled s t) a = rd64 t a := rfl

theorem regsOnly.trans {s t u : State} (h : regsOnly s t) (g : regsOnly t u) : regsOnly s u := by
  rw [regsOnly, h] at g
  exact g

theorem written_regsOnly (d : RegDesc) (pa v : Nat) (s : State) : regsOnly s (written d pa v s) := rfl

theorem wr_regsOnly (a : Nat) (v : Word) (s : State) : regsOnly s (wr a v s) := rfl

theorem setF_regsOnly (f : FRef) (v : Nat) (s : State) : regsOnly s (setF f v s) := rfl

theorem zeroEntry_regsOnly (n : Nat) (s : State) : regsOnly s (zeroEntry n s) := by
  unfold zeroEntry wr64
  exact .trans (.trans (.trans (wr_regsOnly _ _ _) (wr_regsOnly _ _ _)) (wr_regsOnly _ _ _)) (wr_regsOnly _ _ _)

theorem busErrClear_regsOnly (s : State) : regsOnly s (busErrClear s) := by
  have hentries : regsOnly s (each (List.range 16) zeroEntry s) :=
    each_keeps (regsOnly s) _ zeroEntry (fun n t h => h.trans (zeroEntry_regsOnly n t)) s rfl
  rw [busErrClear_eq]
  generalize each (List.range 16) zeroEntry s = t at hentries ⊢
  exact hentries.trans (.trans (setF_regsOnly _ _ t) (setF_regsOnly _ _ _))

/-- A command that changes registers alone leaves all else but what was sent. -/
theorem regsOnly.leaves {s t : State} (h : regsOnly (quiet s) t) : settled s t = { s with regs := t.regs, sent := t.sent } := by
  rw [h]; rfl

theorem eventsOnly.leaves {s t : State} (h : eventsOnly (quiet s) t) :
    settled s t = { s with evtLast := t.evtLast, regs := t.regs, sent := t.sent, lkp := { s.lkp with srcVal := t.lkp.srcVal } } := by
  rw [h]; rfl

end Sys2Proof.Machine

namespace Sys2Proof.Proofs

open Sys2Proof.Machine

/-- Settles O8: what a bus write of each register starts (`busWrite_inert`, `busWrite_event`, `busWrite_clkmeas`, `busWrite_buserrctl`),
what that leaves, and that the device stays at rest. -/
theorem registerWrites : Obligations.RegisterWrites := by
  unfold Obligations.RegisterWrites
  refine ⟨?word, ?writeBack, ?measure, ?clear⟩
  case word =>
    intro who a v d f s hlive hcalm hp ha hd hfree hlegal hf hrw hopen
    have hfields : ∀ f ∈ d.fields, f.acc = .rw → f.clamp.apply (bitsOf v.toNat f.lo f.w) = bitsOf v.toNat f.lo f.w := by
      intro g hg hgrw
      simpa [hgrw] using List.all_eq_true.mp hlegal g hg
    have hword := busWrite_inert who a.toNat v.toNat (quiet s) d ha hd v.isLt hlive hp hfree hopen hfields
    obtain ⟨hrest, hstatus⟩ : a.toNat ∉ restWords ∧ a.toNat ≠ A.SCN_STATUS := by
      have hall : ∀ a ∈ inertWords, a ∉ restWords ∧ a ≠ A.SCN_STATUS := by decide
      exact hall _ ha
    have hrun : exec (.registerWrite who a v) s = .next (settled s (busWrite who a.toNat v.toNat (quiet s))) :=
      onBus_calm _ s (powered_of_live s hlive) (by rw [hword]; exact calm_wr _ _ _ _ hrest hstatus hcalm)
    rw [hword] at hrun
    refine ⟨_, hrun, ?_⟩
    simp only [getF_settled, sameRegs_settled, settled_regs, settled_sent]
    exact ⟨getF_written d _ _ _ (tidy_inert ha hd) f hf hrw, fun b hb => rd_written_other d _ _ _ b (by simpa using hb),
      (written_regsOnly d _ _ (quiet s)).leaves⟩
  case writeBack =>
    intro who a v s hlive hcalm hp ha hseq hopen
    have hback : busWrite who a.toNat v.toNat (quiet s) = writeBack a.toNat v (quiet s) := by
      rw [busWrite_event who a.toNat v.toNat (quiet s) ha v.isLt hlive hp hopen, w32_toNat]
    obtain ⟨hpend, hmem, hrest⟩ := pendOf_event ha
    have hframe := writeBack_eventsOnly a.toNat v (quiet s) hseq
    have hother : ∀ b, b ≠ a.toNat → b ≠ pendOf a.toNat → rd (writeBack a.toNat v (quiet s)) b = rd (quiet s) b :=
      fun b hb hbp => rd_writeBack_other a.toNat b v (quiet s) hseq hb hbp
    have hcalmed : calm (quiet s) (writeBack a.toNat v (quiet s)) = true :=
      calm_of_eventsOnly hframe (fun b hb => hother b (hrest b hb).1 (hrest b hb).2) hcalm
    have hrun : exec (.eventWriteBack who a v) s = .next (settled s (writeBack a.toNat v (quiet s))) := by
      have hevent : isEvent a.toNat = true := by
        have hall : ∀ a ∈ eventWords, isEvent a = true := by decide
        exact hall _ ha
      have hbus : exec (.eventWriteBack who a v) s
          = onBus (fun s => if isEvent a.toNat then busWrite who a.toNat v.toNat s else s) s := rfl
      rw [hbus, onBus_calm _ s (powered_of_live s hlive) (by simp only [hevent, if_true, hback, hcalmed])]
      simp only [hevent, if_true, hback]
    refine ⟨_, hrun, rd_writeBack_same a.toNat v (quiet s) hseq hpend, fun b hb => ?_, hframe.leaves⟩
    simp only [List.mem_cons, not_or] at hb
    exact hother b hb.1 (ne_of_mem_of_not_mem hmem hb.2).symm
  case measure =>
    intro who sel s hlive href hsel hlock hopen
    have hrun : exec (.clkmeasGo who sel) s = .next (settled s (busWrite who A.SYS_CLKMEAS (16 + sel) (quiet s))) :=
      onRegs_powered _ s (powered_of_live s hlive)
    have hselected := getF_selected sel (quiet s) sel.isLt
    have hregs : ∀ b, b ≠ A.SYS_CLKMEAS → rd (written clkmeasDesc A.SYS_CLKMEAS (16 + sel) (quiet s)) b = rd s b :=
      fun b hb => rd_written_other _ _ _ (quiet s) b hb
    have hframe := written_regsOnly clkmeasDesc A.SYS_CLKMEAS (16 + sel) (quiet s)
    rw [busWrite_clkmeas who sel (quiet s) hsel hlive hopen] at hrun
    generalize written clkmeasDesc A.SYS_CLKMEAS (16 + sel) (quiet s) = k at hrun hselected hregs hframe
    have hstat := hregs A.SYS_CLKSTAT (by decide)
    rw [clockMeasure_locked k (by rw [hselected]; exact hsel) (by rw [isSet, getF_of_rd hstat]; exact href)
      (by rw [hselected, isSet, getF_of_rd hstat]; exact hlock), hselected] at hrun
    have hwide : ∀ k : Fin 16, (if k.val < 5 then 40000 else [20000, 20000, 8000, 3200, 10000].getD (k.val - 5) 0) < 2 ^ 24 := by decide
    refine ⟨_, hrun, ?_⟩
    simp only [getF_settled, sameRegs_settled, settled_regs, settled_sent]
    refine ⟨?_, ?_, fun b hb => ?_, (hframe.trans (setF_regsOnly _ _ k)).leaves⟩
    · rw [getF_setF_same _ _ _ (by decide)]
      exact Nat.mod_eq_of_lt (hwide sel)
    · rw [getF_setF_other _ _ _ _ (by decide) (Or.inr (Or.inr (by decide))), hselected]
    · have hb : b ≠ A.SYS_CLKMEAS := by simpa using hb
      rw [rd_setF_other _ _ _ _ hb, hregs b hb]
      rfl
  case clear =>
    intro who n s hlive hp hopen
    have hrun : exec (.buserrClear who) s = .next (settled s (busWrite who A.SYS_BUSERRCTL 1 (quiet s))) :=
      onRegs_powered _ s (powered_of_live s hlive)
    rw [busWrite_buserrctl who (quiet s) hlive hp hopen] at hrun
    generalize hkept : wr A.SYS_BUSERRCTL (rd (quiet s) A.SYS_BUSERRCTL) (quiet s) = k at hrun
    have hregs : ∀ b, rd k b = rd (quiet s) b := by rw [← hkept]; exact rd_wr_self _ _
    have hframe : regsOnly (quiet s) k := by rw [← hkept]; exact wr_regsOnly _ _ _
    obtain ⟨haddr, hinfo, htime⟩ := busErrClear_entry k n n.isLt
    obtain ⟨hnext, htotal⟩ := busErrClear_pointer k
    have hother := busErrClear_sameRegs k
    have hleaves := (hframe.trans (busErrClear_regsOnly k)).leaves
    refine ⟨_, hrun, ?_⟩
    simp only [getF_settled, rd_settled, rd64_settled, sameRegs_settled, settled_regs, settled_sent]
    exact ⟨hnext, htotal, haddr, hinfo, htime, fun b hb => (hother b hb).trans (hregs b), hleaves⟩

end Sys2Proof.Proofs
end

section
/-! Fuse repair, manual tests and the debug port (02_registers R69, 19_test_and_repair R494, R496). -/

namespace Sys2Proof.Machine

@[simp] theorem settled_cfg (s t : State) : (settled s t).cfg = t.cfg := rfl

@[simp] theorem settled_lkp (s t : State) : (settled s t).lkp = t.lkp := rfl

@[simp] theorem settled_free (s t : State) : (settled s t).free = t.free := rfl

/-! ### What registers alone leave as it is -/

theorem regsOnly.cfg {s t : State} (h : regsOnly s t) : t.cfg = s.cfg := by
  rw [h]

theorem regsOnly.free {s t : State} (h : regsOnly s t) : t.free = s.free := by
  rw [h]

theorem regsOnly.usedFree {s t : State} (h : regsOnly s t) : regsOnly (usedFree s) (usedFree t) := by
  rw [h]; rfl

theorem regsOnly.modCfg {s t : State} (f : Cfg → Cfg) (h : regsOnly s t) : regsOnly (modCfg f s) (modCfg f t) := by
  rw [h]; rfl

/-- A command that ends with a result in a field has changed the words it named alone. -/
theorem resultOnly (f : FRef) (v : Nat) (s k : State) (l : List Nat) (hf : f.lo + f.w ≤ 32) (hv : v < 2 ^ f.w) (hl : f.addr ∈ l)
    (hregs : sameRegs l (quiet s) k) (hframe : regsOnly (quiet s) k) :
    getF (settled s (setF f v k)) f = v ∧ sameRegs l s (settled s (setF f v k))
      ∧ settled s (setF f v k) = { s with regs := (settled s (setF f v k)).regs, sent := (settled s (setF f v k)).sent } := by
  have hother : ∀ a, a ∉ l → a ≠ f.addr := fun a ha h => ha (h ▸ hl)
  rw [getF_settled, getF_setF_same f v k hf, Nat.mod_eq_of_lt hv, sameRegs_settled]
  exact ⟨rfl, fun a ha => (rd_setF_other f v k a (hother a ha)).trans (hregs a ha), (hframe.trans (setF_regsOnly f v k)).leaves⟩

/-! ### Commands of the BST block -/

theorem startBlock_bst (i : WInfo) (s : State) (hi : blockAt i.pa = some .bst) (hcore : s.faults.coreStopped = false) :
    startBlock i s = hookTest i s := by
  unfold startBlock
  rw [hi]
  simp only [lockhouseDoes, hcore, Bool.false_eq_true, false_and, if_false]

/-- BST_FUSECMD: GO and the result. -/
def fusecmdDesc : RegDesc := ⟨0x304, 1, 0x0, .one, [⟨31, 1, .cmd, true, 0, .none⟩, ⟨28, 3, .ro, true, 0, .none⟩]⟩

theorem startBlock_fusecmd (i : WInfo) (s : State) (hi : i.pa = A.BST_FUSECMD) (hgo : i.cmds ≠ 0) (hcore : s.faults.coreStopped = false) :
    startBlock i s = fuseRepair s := by
  rw [startBlock_bst i s (by rw [hi]; rfl) hcore, hookTest, hi, if_neg (by decide), if_neg (by decide), if_neg (by decide),
    if_neg (fun h => absurd h.1 (by decide)), if_pos ⟨rfl, hgo⟩]

/-- A privileged GO repairs the fuses; the register keeps its word. -/
theorem busWrite_fusecmd (who : Who) (s : State) (hlive : live s = true) (hp : isPriv s who = true) (hcore : s.faults.coreStopped = false)
    (hopen : unguarded s who = true) : busWrite who A.BST_FUSECMD (2 ^ 31) s = fuseRepair (wr A.BST_FUSECMD (rd s A.BST_FUSECMD) s) := by
  obtain ⟨i, hi, hcmds, hwrite⟩ := busWrite_simple who A.BST_FUSECMD (2 ^ 31) s fusecmdDesc (by decide) (by decide) hlive rfl hopen
    (by rw [mayWrite, hp, Bool.true_or]) (fun _ => rfl) (fun _ => rfl) (fun _ => rfl) (by simp [fusecmdDesc])
  rw [hwrite, written_command _ _ _ _ (by decide)]
  exact startBlock_fusecmd i _ hi (by rw [hcmds]; exact cmdBits_ne_zero _ _ _ (by decide) _ List.mem_cons_self rfl (by decide))
    (by rw [wr_faults]; exact hcore)

/-- Outside MANUFACTURE and RETURN fuse repair is refused. -/
theorem fuseRepair_refused (s : State) (hman : getF s F.SYS_STATUS_LCS ≠ 1) (hret : getF s F.SYS_STATUS_LCS ≠ 3) :
    fuseRepair s = setF F.BST_FUSECMD_RESULT 1 s := by
  unfold fuseRepair
  simp [hman, hret]

/-- Where no repair is recorded nothing is fused. -/
theorem fuseRepair_nothing (s : State) (hman : getF s F.SYS_STATUS_LCS = 1) (hnone : s.cfg.repairs = []) :
    fuseRepair s = setF F.BST_FUSECMD_RESULT 0 (usedFree s) := by
  have hsame : modCfg (fun c => { c with repairs := [] }) (usedFree s) = usedFree s := by
    unfold modCfg usedFree
    rw [← hnone]
  have hrepairs : (usedFree s).cfg.repairs = [] := hnone
  conv_rhs => rw [← hsame]
  unfold fuseRepair
  simp [hman, hnone, modCfg]

theorem usedFree_leaves {s t : State} (h : regsOnly (usedFree (quiet s)) t) :
    settled s t = { s with regs := t.regs, free := t.free, cfg := t.cfg, sent := t.sent } := by
  rw [h]; rfl

/-- BST_MANCMD: GO, the result, the kind of test and the memory. -/
def mancmdDesc : RegDesc :=
  ⟨0x308, 1, 0x0, .one, [⟨31, 1, .cmd, true, 0, .none⟩, ⟨28, 3, .ro, true, 0, .none⟩, ⟨24, 1, .rw, true, 0, .none⟩, ⟨16, 8, .rw, true, 0, .none⟩]⟩

theorem startBlock_mancmd (i : WInfo) (s : State) (hi : i.pa = A.BST_MANCMD) (hgo : i.cmds ≠ 0) (hcore : s.faults.coreStopped = false) :
    startBlock i s = manualTest s := by
  rw [startBlock_bst i s (by rw [hi]; rfl) hcore, hookTest, hi, if_neg (by decide), if_neg (by decide), if_neg (by decide),
    if_neg (fun h => absurd h.1 (by decide)), if_neg (fun h => absurd h.1 (by decide)), if_pos ⟨rfl, hgo⟩]

/-- A privileged GO starts the test that is named with it. -/
theorem busWrite_mancmd (who : Who) (v : Nat) (s : State) (hv : v < 2 ^ 32) (hgo : bitsOf v 31 1 = 1) (hlive : live s = true)
    (hp : isPriv s who = true) (hcore : s.faults.coreStopped = false) (hopen : unguarded s who = true) :
    busWrite who A.BST_MANCMD v s = manualTest (written mancmdDesc A.BST_MANCMD v s) := by
  obtain ⟨i, hi, hcmds, hwrite⟩ := busWrite_simple who A.BST_MANCMD v s mancmdDesc (by decide) hv hlive rfl hopen
    (by rw [mayWrite, hp, Bool.true_or]) (fun _ => rfl) (fun _ => rfl) (fun _ => rfl) (by simp [mancmdDesc, Clamp.apply])
  rw [hwrite]
  exact startBlock_mancmd i _ hi (by rw [hcmds]; exact cmdBits_ne_zero _ _ _ (by decide) _ List.mem_cons_self rfl (by simp [hgo]))
    (by rw [written_faults]; exact hcore)

/-- The command of a MANUAL_TEST. -/
def mancmd (kind mem : Nat) : Nat := 2 ^ 31 + kind * 2 ^ 24 + mem * 2 ^ 16

/-- The word of a MANUAL_TEST has GO, the kind and the memory as its fields. -/
theorem mancmd_fields (kind mem : Nat) (hkind : kind < 2) (hmem : mem < 256) :
    mancmd kind mem < 2 ^ 32 ∧ bitsOf (mancmd kind mem) 31 1 = 1 ∧ bitsOf (mancmd kind mem) 24 1 = kind
      ∧ bitsOf (mancmd kind mem) 16 8 = mem := by
  simp only [mancmd, bitsOf]
  omega

/-- BST_MANCMD names the kind of test and the memory of the command. -/
theorem getF_named (kind mem : Nat) (s : State) (hkind : kind < 2) (hmem : mem < 256) :
    getF (written mancmdDesc A.BST_MANCMD (mancmd kind mem) s) F.BST_MANCMD_KIND = kind
      ∧ getF (written mancmdDesc A.BST_MANCMD (mancmd kind mem) s) F.BST_MANCMD_MEM = mem := by
  obtain ⟨-, -, hkindBits, hmemBits⟩ := mancmd_fields kind mem hkind hmem
  exact ⟨(getF_written mancmdDesc _ _ s (by decide) ⟨24, 1, .rw, true, 0, .none⟩ (by simp [mancmdDesc]) rfl).trans hkindBits,
    (getF_written mancmdDesc _ _ s (by decide) ⟨16, 8, .rw, true, 0, .none⟩ (by simp [mancmdDesc]) rfl).trans hmemBits⟩

/-- MANUAL_TEST acts on the state in which BST_MANCMD names the kind of test and the memory. -/
theorem exec_manualTest (who : Who) (kind : Fin 2) (mem : BitVec 8) (s : State) (hlive : live s = true) (hp : isPriv s who = true)
    (hcore : s.faults.coreStopped = false) (hopen : unguarded s who = true) :
    ∃ k, exec (.manualTest who kind mem) s = .next (settled s (manualTest k)) ∧ getF k F.BST_MANCMD_KIND = kind
      ∧ getF k F.BST_MANCMD_MEM = mem.toNat ∧ sameRegs [A.BST_MANCMD] (quiet s) k ∧ regsOnly (quiet s) k := by
  obtain ⟨hv, hgo, -, -⟩ := mancmd_fields kind mem.toNat kind.isLt mem.isLt
  obtain ⟨hkind, hmem⟩ := getF_named kind mem.toNat (quiet s) kind.isLt mem.isLt
  have hrun : exec (.manualTest who kind mem) s = .next (settled s (busWrite who A.BST_MANCMD (mancmd kind mem.toNat) (quiet s))) :=
    onRegs_powered _ s (powered_of_live s hlive)
  rw [busWrite_mancmd who _ (quiet s) hv hgo hlive hp hcore hopen] at hrun
  exact ⟨_, hrun, hkind, hmem, fun a ha => rd_written_other _ _ _ (quiet s) a (by simpa using ha), written_regsOnly _ _ _ (quiet s)⟩

/-- FUSE_REPAIR acts on the registers as they are. -/
theorem exec_fuseRepair (who : Who) (s : State) (hlive : live s = true) (hp : isPriv s who = true) (hcore : s.faults.coreStopped = false)
    (hopen : unguarded s who = true) :
    ∃ k, exec (.fuseRepair who) s = .next (settled s (fuseRepair k)) ∧ (∀ a, rd k a = rd (quiet s) a) ∧ regsOnly (quiet s) k := by
  have hrun : exec (.fuseRepair who) s = .next (settled s (busWrite who A.BST_FUSECMD (2 ^ 31) (quiet s))) :=
    onRegs_powered _ s (powered_of_live s hlive)
  rw [busWrite_fusecmd who (quiet s) hlive hp hcore hopen] at hrun
  exact ⟨_, hrun, rd_wr_self A.BST_FUSECMD (quiet s), wr_regsOnly _ _ (quiet s)⟩

/-- In MANUFACTURE and RETURN a test of a memory begins; LBIST is of a reach. -/
theorem manualTest_begins (s : State) (hlcs : getF s F.SYS_STATUS_LCS = 1 ∨ getF s F.SYS_STATUS_LCS = 3)
    (hmem : getF s F.BST_MANCMD_MEM < 9) (hkind : getF s F.BST_MANCMD_MEM < 5 ∨ getF s F.BST_MANCMD_KIND = 0) :
    manualTest s = modCfg (fun c => { c with manual := some (getF s F.BST_MANCMD_MEM) }) s := by
  unfold manualTest
  rw [if_neg]
  rintro (h | h | ⟨h, hreach⟩)
  · simp [hlcs] at h
  · omega
  · rcases hkind with hk | hk
    · omega
    · simp [isSet, hk] at h

theorem modCfg_leaves {s t : State} {f : Cfg → Cfg} (h : regsOnly (modCfg f (quiet s)) t) :
    settled s t = { s with regs := t.regs, cfg := t.cfg, sent := t.sent } := by
  rw [h]; rfl

theorem manualTest_refused (s : State) (hman : getF s F.SYS_STATUS_LCS ≠ 1) (hret : getF s F.SYS_STATUS_LCS ≠ 3) :
    manualTest s = setF F.BST_MANCMD_RESULT 2 s := by
  unfold manualTest
  rw [if_pos (Or.inl (by simp [hman, hret]))]

/-- The matching store holds nothing and no test runs. -/
def storeEmptied (s : State) : State :=
  modLkp (fun l => { l with store := [], overflow := [] }) (modCfg (fun c => { c with manual := none }) s)

@[simp] theorem storeEmptied_cfg (s : State) : (storeEmptied s).cfg = { s.cfg with manual := none } := rfl

@[simp] theorem storeEmptied_lkp (s : State) : (storeEmptied s).lkp = { s.lkp with store := [], overflow := [] } := rfl

theorem storeEmptied_leaves {s t : State} (h : regsOnly (storeEmptied (quiet s)) t) :
    settled s t = { s with regs := t.regs, cfg := t.cfg, lkp := t.lkp, sent := t.sent } := by
  rw [h]; rfl

/-- The end of an MBIST of the matching store that finds nothing bad. -/
theorem manualTestEnd_store (pass : Bool) (slice : Nat) (s : State) (hrun : s.cfg.manual = some 7)
    (hkind : isSet s F.BST_MANCMD_KIND = false) :
    manualTestEnd pass slice [] s = setF F.BST_MANCMD_RESULT 0 (storeEmptied s) := by
  have hmbist : isSet (modCfg (fun c => { c with manual := none }) s) F.BST_MANCMD_KIND = false := hkind
  unfold manualTestEnd storeEmptied
  simp [hrun, hmbist, repairAll, destroy, testedMemory]

/-! ### The debug port -/

/-- The fields of LKP_HWM, as one mask. -/
theorem hwm_masked (w v : Word) (hlow : bitsOf w.toNat 0 11 = bitsOf v.toNat 0 11) (hhigh : bitsOf w.toNat 16 13 = bitsOf v.toNat 16 13) :
    w &&& 0x1FFF07FF#32 = v &&& 0x1FFF07FF#32 := by
  have hbit : ∀ lo n i, bitsOf w.toNat lo n = bitsOf v.toNat lo n → i < n → w.getLsbD (lo + i) = v.getLsbD (lo + i) := by
    intro lo n i heq hi
    have h := congrArg (·.testBit i) heq
    simpa [testBit_bitsOf, hi, BitVec.testBit_toNat] using h
  have hrest : ∀ i : Fin 32, (11 ≤ i.val ∧ i.val < 16) ∨ 29 ≤ i.val → (0x1FFF07FF#32).getLsbD i = false := by decide
  apply BitVec.eq_of_getLsbD_eq
  intro i hi
  rw [BitVec.getLsbD_and, BitVec.getLsbD_and]
  by_cases hdly : i < 11
  · have h := hbit 0 11 i hlow hdly
    rw [Nat.zero_add] at h
    rw [h]
  · by_cases hlive : 16 ≤ i ∧ i < 29
    · have h := hbit 16 13 (i - 16) hhigh (by omega)
      rw [show 16 + (i - 16) = i by omega] at h
      rw [h]
    · rw [hrest ⟨i, hi⟩ (by simp only []; omega), Bool.and_false, Bool.and_false]

/-- LKP_HWM is two privileged RW fields. -/
def hwmDesc : RegDesc := ⟨0x18, 1, 0x0, .one, [⟨16, 13, .rw, true, 0, .none⟩, ⟨0, 11, .rw, true, 0, .none⟩]⟩

/-- What the debug port writes to LKP_HWM in MANUFACTURE and RETURN. -/
theorem debugWrite_hwm (v : Word) (s : State) (hlive : live s = true) (hlcs : getF s F.SYS_STATUS_LCS = 1 ∨ getF s F.SYS_STATUS_LCS = 3)
    (hopen : unguarded s ⟨55, false, none⟩ = true) :
    busWrite ⟨55, false, none⟩ A.LKP_HWM v.toNat s = written hwmDesc A.LKP_HWM v.toNat s :=
  busWrite_inert ⟨55, false, none⟩ A.LKP_HWM v.toNat s hwmDesc (by decide) (by decide) v.isLt hlive (by simpa [isPriv] using hlcs) rfl hopen
    (by simp [hwmDesc, Clamp.apply])

theorem rd_written_hwm (v : Word) (s : State) :
    rd (written hwmDesc A.LKP_HWM v.toNat s) A.LKP_HWM &&& 0x1FFF07FF#32 = v &&& 0x1FFF07FF#32 :=
  hwm_masked _ _ (getF_written hwmDesc _ _ s (by decide) ⟨0, 11, .rw, true, 0, .none⟩ (by simp [hwmDesc]) rfl)
    (getF_written hwmDesc _ _ s (by decide) ⟨16, 13, .rw, true, 0, .none⟩ (by simp [hwmDesc]) rfl)

end Sys2Proof.Machine
end

section
/-! The end of a restart that has nothing to wait for (05_scan_cycle R175, R176): what it leaves while it initialises, and where each task
then stands. -/

namespace Sys2Proof.Machine

/-! ### What a restart leaves -/

/-- The words that a restart writes: SCN_STATUS, SCN_EVT and where that fires, the force registers, and of each task its cycle number and
its status. -/
def restartWord (a : Nat) : Bool :=
  [A.SCN_STATUS, A.SCN_EVT, A.LKP_PEND 20, A.SCN_FORCECMD, A.SCN_FORCEIN, A.SCN_FORCEOUT].contains a
    || decide (0x60030400 ≤ a ∧ a < 0x60030C00 ∧ (a % 0x40 = 0x24 ∨ a % 0x40 = 0x38))

theorem restartWord_cycno (t : Nat) (ht : t < 32) : restartWord (A.SCN_TASK_CYCNO t) = true := by
  simp only [restartWord, A.SCN_TASK_CYCNO, Bool.or_eq_true, decide_eq_true_eq]
  omega

theorem restartWord_tstat (t : Nat) (ht : t < 32) : restartWord (A.SCN_TASK_TSTAT t) = true := by
  simp only [restartWord, A.SCN_TASK_TSTAT, Bool.or_eq_true, decide_eq_true_eq]
  omega

theorem restartWord_ctl (t : Nat) : restartWord (A.SCN_TASK_CTL t) = false := by
  simp only [restartWord, A.SCN_TASK_CTL, A.SCN_STATUS, A.SCN_EVT, A.LKP_PEND, A.SCN_FORCECMD, A.SCN_FORCEIN, A.SCN_FORCEOUT,
    Bool.or_eq_false_iff, decide_eq_false_iff_not, List.contains_eq_mem, List.mem_cons, List.not_mem_nil, or_false]
  omega

theorem restartWord_beyond (a : Nat) (ha : 0x60030C00 ≤ a) : restartWord a = false := by
  simp only [restartWord, A.SCN_STATUS, A.SCN_EVT, A.LKP_PEND, A.SCN_FORCECMD, A.SCN_FORCEIN, A.SCN_FORCEOUT,
    Bool.or_eq_false_iff, decide_eq_false_iff_not, List.contains_eq_mem, List.mem_cons, List.not_mem_nil, or_false]
  omega

theorem cycno_ne_tstat (k t : Nat) : A.SCN_TASK_CYCNO k ≠ A.SCN_TASK_TSTAT t := by
  simp only [A.SCN_TASK_CYCNO, A.SCN_TASK_TSTAT]
  omega

/-- What a restart leaves as it is, of all that its tasks, the compare units and the end of the command look at. -/
structure RestartKeeps (s t : State) : Prop where
  cores : t.cores = s.cores
  rot : t.rot = s.rot
  brg : t.brg = s.brg
  faults : t.faults = s.faults
  now : t.now = s.now
  wait : t.scan.waitCmd = s.scan.waitCmd
  word : ∀ a, restartWord a = false → rd t a = rd s a

variable {s t u : State}

theorem RestartKeeps.refl (s : State) : RestartKeeps s s := ⟨rfl, rfl, rfl, rfl, rfl, rfl, fun _ _ => rfl⟩

theorem RestartKeeps.trans (h : RestartKeeps s t) (g : RestartKeeps t u) : RestartKeeps s u :=
  ⟨g.cores.trans h.cores, g.rot.trans h.rot, g.brg.trans h.brg, g.faults.trans h.faults, g.now.trans h.now, g.wait.trans h.wait,
    fun a ha => (g.word a ha).trans (h.word a ha)⟩

theorem RestartKeeps.wr (a : Nat) (v : Word) (s : State) (ha : restartWord a = true) : RestartKeeps s (wr a v s) :=
  ⟨wr_cores _ _ _, wr_rot _ _ _, wr_brg _ _ _, wr_faults _ _ _, wr_now _ _ _, by rw [wr_scan],
    fun b hb => rd_wr_other a b v s fun h => by rw [h, ha] at hb; cases hb⟩

theorem RestartKeeps.setF (f : FRef) (v : Nat) (s : State) (hf : restartWord f.addr = true) : RestartKeeps s (setF f v s) :=
  .wr f.addr _ s hf

theorem RestartKeeps.modScan (f : Scan → Scan) (s : State) (hf : (f s.scan).waitCmd = s.scan.waitCmd) : RestartKeeps s (modScan f s) :=
  ⟨rfl, rfl, rfl, rfl, rfl, hf, fun _ _ => rfl⟩

/-- Bytes of memory are none of it. -/
theorem RestartKeeps.mem (m : List Host.Cell) (s : State) : RestartKeeps s { s with mem := m } :=
  ⟨rfl, rfl, rfl, rfl, rfl, rfl, fun _ _ => rfl⟩

theorem RestartKeeps.putBytes (bs : List Byte) (a : Nat) (s : State) : RestartKeeps s (putBytes a bs s) := by
  obtain ⟨m, hm⟩ := putBytes_eq bs a s
  rw [hm]
  exact .mem m s

theorem RestartKeeps.raise (k : Nat) (s : State) : RestartKeeps s (raise A.SCN_EVT k s) :=
  ⟨raise_cores _ _ _, raise_rot _ _ _, raise_brg _ _ _, raise_faults _ _ _, raise_now _ _ _, by rw [raise_scan],
    fun a ha => rd_raise A.SCN_EVT k s a (fun h => by rw [h] at ha; cases ha) fun h => by rw [h] at ha; cases ha⟩

theorem RestartKeeps.each {α : Type} (l : List α) (f : α → State → State) (hf : ∀ x s, RestartKeeps s (f x s)) (s : State) :
    RestartKeeps s (each l f s) :=
  each_keeps (RestartKeeps s) l f (fun x t h => h.trans (hf x t)) s (.refl s)

/-! ### Initialisation -/

theorem writeRetBuffer_keeps (b gen : Nat) (lines : List (List Byte)) (s : State) : RestartKeeps s (writeRetBuffer b gen lines s) := by
  unfold writeRetBuffer
  exact .trans (.each _ _ (fun _ _ => .putBytes _ _ _) s) (.putBytes _ _ _)

theorem freshRet_keeps (s : State) : RestartKeeps s (freshRet s) := by
  unfold freshRet
  exact .trans (writeRetBuffer_keeps _ _ _ s) (writeRetBuffer_keeps _ _ _ _)

theorem clearArea_keeps (area : Nat) (s : State) : RestartKeeps s (clearArea area s) := .mem _ s

theorem syncForced_keeps (s : State) : RestartKeeps s (syncForced s) := by
  unfold syncForced
  exact .trans (.trans (.setF _ _ s rfl) (.setF _ _ _ rfl)) (.setF _ _ _ rfl)

theorem forceDone_keeps (before : State) (result : Nat) (s : State) : RestartKeeps s (forceDone before result s) := by
  have hsynced : RestartKeeps s (setF F.SCN_FORCECMD_RESULT result (syncForced s)) := .trans (syncForced_keeps s) (.setF _ _ _ rfl)
  unfold forceDone
  dsimp only
  split
  · exact hsynced.trans (.raise 3 _)
  · exact hsynced

/-- The images of a cold restart: retentive lines and their buffers as new, and no forces. -/
def coldImages (s : State) : State :=
  let s := freshRet s
  let clean := (retLines s).map fun (_, role, line) => (role, line)
  let s := modScan (fun c => { c with clean0 := clean, clean1 := clean }) s
  forceDone s (getF s F.SCN_FORCECMD_RESULT) (clearArea 1 (clearArea 0 s))

theorem coldImages_keeps (s : State) : RestartKeeps s (coldImages s) := by
  unfold coldImages
  exact .trans (.trans (.trans (.trans (freshRet_keeps s) (.modScan _ _ rfl)) (clearArea_keeps 0 _)) (clearArea_keeps 1 _)) (forceDone_keeps _ _ _)

/-! ### Tasks -/

/-- What a task holds before its first cycle after a cold restart at time `now`. -/
def beforeFirst (now : Nat) (k : Task) : Task :=
  { k with held := false, first := true, warm := false, retbad := false, prevLatch := none, firstLatch := now + 100000, ahead := 0,
           lateRun := 0, lateCyc := 0 }

/-- A task starts anew. -/
def startTask (now t : Nat) (s : State) : State :=
  let s := modTask t (beforeFirst now) (setF (F.SCN_TASK_TSTAT_LATECNT t) 0 (wr (A.SCN_TASK_CYCNO t) 0 s))
  setTaskState t (if enabled s t then 1 else 0) s

theorem startTask_keeps (now t : Nat) (s : State) (ht : t < 32) : RestartKeeps s (startTask now t s) := by
  unfold startTask setTaskState modTask
  exact .trans (.trans (.trans (.wr _ _ s (restartWord_cycno t ht)) (.setF _ _ _ (restartWord_tstat t ht))) (.modScan _ _ rfl))
    (.setF _ _ _ (restartWord_tstat t ht))

theorem rd_modTask (t : Nat) (f : Task → Task) (s : State) (a : Nat) : rd (modTask t f s) a = rd s a := rfl

theorem task_congr {s t : State} (h : t.scan = s.scan) (k : Nat) : t.task k = s.task k := by
  unfold State.task
  rw [h]

/-- A task of control that has begun anew: cycle number 0, its state, and that its next cycle is the first. -/
def begun (s t : State) (k : Nat) : Prop :=
  rd t (A.SCN_TASK_CYCNO k) = 0 ∧ taskState t k = (if enabled s k then 1 else 0) ∧ (t.task k).first = true

theorem enabled_keeps (h : RestartKeeps s t) (k : Nat) : enabled t k = enabled s k := by
  unfold enabled isSet getF
  rw [h.word _ (restartWord_ctl k)]

/-- Starting a task starts it. -/
theorem startTask_begun (now t : Nat) (s : State) (ht : t < 32) : begun s (startTask now t s) t := by
  have hkeeps : RestartKeeps s (modTask t (beforeFirst now) (setF (F.SCN_TASK_TSTAT_LATECNT t) 0 (wr (A.SCN_TASK_CYCNO t) 0 s))) :=
    .trans (.trans (.wr _ _ s (restartWord_cycno t ht)) (.setF _ _ _ (restartWord_tstat t ht))) (.modScan _ _ rfl)
  have hcycno : rd (modTask t (beforeFirst now) (setF (F.SCN_TASK_TSTAT_LATECNT t) 0 (wr (A.SCN_TASK_CYCNO t) 0 s))) (A.SCN_TASK_CYCNO t) = 0 := by
    rw [rd_modTask, rd_setF_other _ _ _ _ (cycno_ne_tstat t t), rd_wr_same]
  have htask := task_modTask_same t (beforeFirst now) (setF (F.SCN_TASK_TSTAT_LATECNT t) 0 (wr (A.SCN_TASK_CYCNO t) 0 s))
  unfold startTask
  dsimp only
  generalize modTask t (beforeFirst now) (setF (F.SCN_TASK_TSTAT_LATECNT t) 0 (wr (A.SCN_TASK_CYCNO t) 0 s)) = u at hkeeps hcycno htask ⊢
  rw [enabled_keeps hkeeps t]
  refine ⟨(rd_setF_other _ _ u _ (cycno_ne_tstat t t)).trans hcycno, ?_, ?_⟩
  · unfold taskState setTaskState
    rw [getF_setF_same _ _ _ (by simp)]
    split <;> rfl
  · unfold setTaskState
    rw [task_congr (setF_scan _ _ _), htask]
    rfl

/-- Starting another task leaves a task that has begun. -/
theorem startTask_other (now t k : Nat) (s u : State) (ht : t < 32) (hk : k < 32) (hne : k ≠ t) (h : begun s u k) :
    begun s (startTask now t u) k := by
  obtain ⟨hcycno, hstate, hfirst⟩ := h
  have hword : ∀ a, a ≠ A.SCN_TASK_CYCNO t → a ≠ A.SCN_TASK_TSTAT t → rd (startTask now t u) a = rd u a := by
    intro a hc ht'
    unfold startTask setTaskState
    rw [rd_setF_other _ _ _ _ ht', rd_modTask, rd_setF_other _ _ _ _ ht', rd_wr_other _ _ _ _ hc]
  have htask : (startTask now t u).task k = u.task k := by
    unfold startTask setTaskState
    rw [task_congr (setF_scan _ _ _), task_modTask_other _ _ _ _ (by omega), task_congr (setF_scan _ _ _), task_congr (wr_scan _ _ _)]
  refine ⟨(hword _ (by simp only [A.SCN_TASK_CYCNO]; omega) (cycno_ne_tstat k t)).trans hcycno, ?_, by rw [htask]; exact hfirst⟩
  rw [← hstate, taskState, taskState, getF, getF, hword _ (Ne.symm (cycno_ne_tstat t k)) (by simp only [A.SCN_TASK_TSTAT]; omega)]

/-- After the loop over the tasks each has begun anew. -/
theorem startTasks_begun (now : Nat) (s : State) (n : Nat) (hn : n ≤ 32) :
    RestartKeeps s (each (List.range n) (startTask now) s) ∧ ∀ k, k < n → begun s (each (List.range n) (startTask now) s) k := by
  induction n with
  | zero => exact ⟨.refl s, fun k hk => by omega⟩
  | succ n ih =>
    obtain ⟨hkeeps, hbegun⟩ := ih (by omega)
    rw [List.range_succ, each_append, each_cons, each_nil]
    generalize each (List.range n) (startTask now) s = u at hkeeps hbegun ⊢
    refine ⟨hkeeps.trans (startTask_keeps now n u (by omega)), fun k hk => ?_⟩
    by_cases hlast : k = n
    · subst hlast
      have hown := startTask_begun now k u (by omega)
      rwa [begun, enabled_keeps hkeeps k] at hown
    · exact startTask_other now n k s u (by omega) (by omega) hlast (hbegun k (by omega))

/-! ### Compare units -/

/-- No change of what a restart writes names another owner of a unit. -/
theorem ownerOf_keeps (h : RestartKeeps s t) (v : Nat) : ownerOf t v = ownerOf s v := by
  have htask : ∀ k, rd t (A.SCN_TASK_CTL k) = rd s (A.SCN_TASK_CTL k) := fun k => h.word _ (restartWord_ctl k)
  have htow : rd t A.TOW_CTL = rd s A.TOW_CTL := h.word _ (restartWord_beyond _ (by decide))
  have hchan : ∀ c, rd t (A.FIO_CH_CTL c) = rd s (A.FIO_CH_CTL c) :=
    fun c => h.word _ (restartWord_beyond _ (by simp only [A.FIO_CH_CTL]; omega))
  have haictl : rd t A.FIO_AICTL = rd s A.FIO_AICTL := h.word _ (restartWord_beyond _ (by decide))
  have hnames : names t v = names s v := by
    funext code
    unfold names
    simp only [enabled, isSet, getF, htask, htow, hchan, haictl]
  unfold ownerOf
  rw [hnames]

/-- Where each unit belongs to the owner that the blocks name, no unit changes hands. -/
theorem resolveUnits_settled (s : State) (h : ∀ v < 32, ownerOf s v = getF s (F.TMB_UNIT_CTL_OWNER v)) : resolveUnits s = s := by
  unfold resolveUnits
  exact each_id _ _ s fun v hv => if_pos (h v (List.mem_range.mp hv))

/-! ### The end of the restart -/

/-- Control runs from here on. -/
def restartRuns (s : State) : State :=
  let s := setF F.SCN_STATUS_CSTATE 2 (modScan (fun c => { c with restart := none }) s)
  { s with fio := { s.fio with tag := Vector.replicate 16 0 } }

/-- The state at the end of a cold restart, before the units of tasks are programmed. -/
def coldStarted (s : State) : State :=
  restartRuns (each (List.range 32) (startTask (time (coldImages s))) (coldImages s))

/-- A cold restart that waits for no retentive write and no reach, of a device that runs no application image. -/
theorem restartComplete_cold (s : State) (hcold : s.scan.restart = some false) (hstarting : getF s F.SCN_STATUS_CSTATE = 1)
    (hrun : s.scan.retRun = none) (hqueue : s.scan.retQueue = none) (hslot : loadedSlot s = none)
    (hpower : ∀ r : Fin 4, getF s (F.RCH_PWR_PSTATE (reachOf s r)) < 2) :
    restartComplete s = takeWaiting (each ((List.range 16).filter (enabled (coldStarted s)))
      (fun t => programTask t (time (coldImages s) + 100000)) (resolveUnits (coldStarted s))) := by
  have hreaches : (List.range 4).any (fun r => decide (2 ≤ getF s (F.RCH_PWR_PSTATE (reachOf s r)))) = false := by
    rw [List.any_eq_false]
    intro r hr
    have h := hpower ⟨r, List.mem_range.mp hr⟩
    simpa using h
  have hwindows : initAllWindows s = s := by
    unfold initAllWindows
    rw [hslot]
  have hgo : ¬ (getF s F.SCN_STATUS_CSTATE ≠ 1 ∨ s.scan.retRun.isSome ∨ s.scan.retQueue.isSome
      ∨ (List.range 4).any (fun r => decide (2 ≤ getF s (F.RCH_PWR_PSTATE (reachOf s r))))) := by
    simp [hstarting, hrun, hqueue, hreaches]
  unfold restartComplete coldStarted restartRuns coldImages
  rw [hcold]
  dsimp only
  rw [if_neg hgo, hwindows]
  simp only [Bool.false_eq_true, if_false, Bool.false_and]
  rfl

theorem restartRuns_keeps (s : State) : RestartKeeps s (restartRuns s) := by
  unfold restartRuns
  exact .trans (.trans (.modScan (fun c => { c with restart := none }) s rfl) (.setF F.SCN_STATUS_CSTATE 2 _ rfl))
    ⟨rfl, rfl, rfl, rfl, rfl, rfl, fun _ _ => rfl⟩

theorem restartRuns_running (s : State) : getF (restartRuns s) F.SCN_STATUS_CSTATE = 2 ∧ (restartRuns s).scan.restart = none :=
  ⟨getF_setF_same F.SCN_STATUS_CSTATE 2 (modScan (fun c => { c with restart := none }) s) (by decide), rfl⟩

/-- A task that has begun anew stays so as control comes to run. -/
theorem restartRuns_begun {k : Nat} (h : begun s t k) : begun s (restartRuns t) k := by
  obtain ⟨hcycno, hstate, hfirst⟩ := h
  have hword : ∀ a, a ≠ A.SCN_STATUS → rd (restartRuns t) a = rd t a :=
    fun a ha => rd_setF_other F.SCN_STATUS_CSTATE 2 (modScan (fun c => { c with restart := none }) t) a ha
  refine ⟨(hword _ (by simp only [A.SCN_TASK_CYCNO, A.SCN_STATUS]; omega)).trans hcycno, ?_, hfirst⟩
  rw [← hstate, taskState, taskState, getF, getF, hword _ (by simp only [A.SCN_TASK_TSTAT, A.SCN_STATUS]; omega)]

theorem coldStarted_keeps (s : State) : RestartKeeps s (coldStarted s) :=
  .trans (.trans (coldImages_keeps s) (startTasks_begun _ _ 32 le_rfl).1) (restartRuns_keeps _)

theorem coldStarted_running (s : State) : getF (coldStarted s) F.SCN_STATUS_CSTATE = 2 ∧ (coldStarted s).scan.restart = none :=
  restartRuns_running _

theorem coldStarted_begun (s : State) (k : Nat) (hk : k < 32) : begun s (coldStarted s) k := by
  have hbegun : begun (coldImages s) (coldStarted s) k := restartRuns_begun ((startTasks_begun _ _ 32 le_rfl).2 k hk)
  rwa [begun, enabled_keeps (coldImages_keeps s) k] at hbegun

/-- No command waits. -/
theorem takeWaiting_none (s : State) (h : s.scan.waitCmd = []) : takeWaiting s = s := by
  unfold takeWaiting modScan
  rw [h, each_nil, ← h]

/-- A cold restart of a device without cyclic tasks and without owned compare units ends with every task begun anew. -/
theorem restartComplete_eventTasks (s : State) (hcold : s.scan.restart = some false) (hstarting : getF s F.SCN_STATUS_CSTATE = 1)
    (hrun : s.scan.retRun = none) (hqueue : s.scan.retQueue = none) (hslot : loadedSlot s = none) (hwait : s.scan.waitCmd = [])
    (hpower : ∀ r : Fin 4, getF s (F.RCH_PWR_PSTATE (reachOf s r)) < 2) (hcyclic : ∀ k < 16, enabled s k = false)
    (hunits : ∀ v < 32, getF s (F.TMB_UNIT_CTL_OWNER v) = 0 ∧ ownerOf s v = 0) : restartComplete s = coldStarted s := by
  have hkeeps := coldStarted_keeps s
  have hnone : (List.range 16).filter (enabled (coldStarted s)) = [] := by
    rw [List.filter_eq_nil_iff]
    intro k hk
    rw [enabled_keeps hkeeps, hcyclic k (List.mem_range.mp hk)]
    exact Bool.false_ne_true
  have hresolved : resolveUnits (coldStarted s) = coldStarted s := by
    refine resolveUnits_settled _ fun v hv => ?_
    have hword : rd (coldStarted s) (A.TMB_UNIT_CTL v) = rd s (A.TMB_UNIT_CTL v) :=
      hkeeps.word _ (restartWord_beyond _ (by simp only [A.TMB_UNIT_CTL]; omega))
    rw [ownerOf_keeps hkeeps, (hunits v hv).2, getF, hword]
    exact (hunits v hv).1.symm
  rw [restartComplete_cold s hcold hstarting hrun hqueue hslot hpower, hnone, each_nil, hresolved,
    takeWaiting_none _ (hkeeps.wait.trans hwait)]

/-- The device stays at rest over it: control that was starting has not stopped. -/
theorem calm_coldStarted (s : State) (hstarting : getF s F.SCN_STATUS_CSTATE = 1) (hcalm : calm s s = true) :
    calm s (coldStarted s) = true := by
  have hkeeps := coldStarted_keeps s
  have hwords : ∀ a ∈ restWords, restartWord a = false := by decide
  have hnotStopped : ∀ t, stoppedSince s t = false := by
    intro t
    unfold stoppedSince
    rw [hstarting]
    rfl
  exact calm_congr hkeeps.cores hkeeps.rot hkeeps.brg (congrArg _ hkeeps.faults) hkeeps.now (fun a ha => hkeeps.word a (hwords a ha))
    ((hnotStopped _).trans (hnotStopped _).symm) hcalm

end Sys2Proof.Machine

namespace Sys2Proof.Proofs

open Sys2Proof.Machine

/-- Settles O16: what a bus write of BST_FUSECMD, BST_MANCMD and, from the debug port, LKP_HWM starts, the end of an MBIST of the matching
store, and where the loop over the tasks leaves each of them at the end of a restart (`startTasks_begun`). -/
theorem manualTests : Obligations.ManualTests := by
  unfold Obligations.ManualTests
  refine ⟨?fuseRefused, ?fuse, ?test, ?testRefused, ?testEnd, ?testAccess, ?debugWrite, ?restart⟩
  case fuseRefused =>
    intro who s hlive hp hcore hman hret hopen
    obtain ⟨k, hrun, hregs, hframe⟩ := exec_fuseRepair who s hlive hp hcore hopen
    have hlcs : getF k F.SYS_STATUS_LCS = getF (quiet s) F.SYS_STATUS_LCS := getF_of_rd (hregs A.SYS_STATUS)
    rw [fuseRepair_refused k (by rw [hlcs]; exact hman) (by rw [hlcs]; exact hret)] at hrun
    exact ⟨_, hrun, resultOnly F.BST_FUSECMD_RESULT 1 s k [A.BST_FUSECMD] (by decide) (by decide) (by simp) (fun a _ => hregs a) hframe⟩
  case fuse =>
    intro who s hlive hp hcore hman hnone hopen
    obtain ⟨k, hrun, hregs, hframe⟩ := exec_fuseRepair who s hlive hp hcore hopen
    have hlcs : getF k F.SYS_STATUS_LCS = getF (quiet s) F.SYS_STATUS_LCS := getF_of_rd (hregs A.SYS_STATUS)
    have hcfg : k.cfg = s.cfg := hframe.cfg
    have hfree : k.free = s.free := hframe.free
    rw [fuseRepair_nothing k (by rw [hlcs]; exact hman) (by rw [hcfg]; exact hnone)] at hrun
    refine ⟨_, hrun, ?_⟩
    simp only [getF_settled, sameRegs_settled, settled_regs, settled_sent, settled_free, settled_cfg, setF_free, setF_cfg]
    refine ⟨getF_setF_same F.BST_FUSECMD_RESULT 0 _ (by decide), congrArg (· + 1) hfree,
      fun a ha => (rd_setF_other _ _ _ _ (by simpa using ha)).trans (hregs a),
      usedFree_leaves (hframe.usedFree.trans (setF_regsOnly _ _ _)), hcfg⟩
  case test =>
    intro who kind mem s hlive hp hcore hlcs hmem hopen
    obtain ⟨k, hrun, hkind, hnamed, hregs, hframe⟩ := exec_manualTest who kind mem s hlive hp hcore hopen
    have hstatus : getF k F.SYS_STATUS_LCS = getF (quiet s) F.SYS_STATUS_LCS := getF_of_rd (hregs A.SYS_STATUS (by decide))
    have hcfg : k.cfg = s.cfg := hframe.cfg
    have hreach : mem.toNat < 5 ∨ kind.val = 0 := hmem.imp id fun h => by rw [h.2]; rfl
    rw [manualTest_begins k (by rw [hstatus]; exact hlcs) (by rw [hnamed]; omega) (by rw [hnamed, hkind]; exact hreach), hnamed] at hrun
    refine ⟨_, hrun, ?_⟩
    simp only [sameRegs_settled, settled_regs, settled_sent, settled_cfg]
    exact ⟨by rw [modCfg, hcfg], hregs, modCfg_leaves (hframe.modCfg _)⟩
  case testRefused =>
    intro who kind mem s hlive hp hcore hman hret hopen
    obtain ⟨k, hrun, -, -, hregs, hframe⟩ := exec_manualTest who kind mem s hlive hp hcore hopen
    have hstatus : getF k F.SYS_STATUS_LCS = getF (quiet s) F.SYS_STATUS_LCS := getF_of_rd (hregs A.SYS_STATUS (by decide))
    rw [manualTest_refused k (by rw [hstatus]; exact hman) (by rw [hstatus]; exact hret)] at hrun
    exact ⟨_, hrun, resultOnly F.BST_MANCMD_RESULT 2 s k [A.BST_MANCMD] (by decide) (by decide) (by simp) hregs hframe⟩
  case testEnd =>
    intro pass slice s hlive hmanual hkind
    have hrun : exec (.manualTestEnd pass slice []) s = .next (settled s (manualTestEnd pass slice [] (quiet s))) := inBlock_live _ s hlive
    rw [manualTestEnd_store pass slice (quiet s) hmanual hkind] at hrun
    refine ⟨_, hrun, ?_⟩
    simp only [getF_settled, sameRegs_settled, settled_regs, settled_sent, settled_cfg, settled_lkp, setF_cfg, setF_lkp, storeEmptied_cfg,
      storeEmptied_lkp]
    exact ⟨getF_setF_same F.BST_MANCMD_RESULT 0 _ (by decide), rfl, rfl,
      fun a ha => rd_setF_other F.BST_MANCMD_RESULT 0 (storeEmptied (quiet s)) a (by simpa using ha),
      storeEmptied_leaves (setF_regsOnly _ _ _)⟩
  case testAccess =>
    intro isWr a v s hlive hcalm
    have hrest : calm (quiet s) (debugAccess true isWr a v (quiet s)) = true :=
      calm_congr (s := quiet s) rfl rfl rfl rfl rfl (fun _ _ => rfl) rfl hcalm
    exact ⟨_, onBus_calm _ s (powered_of_live s hlive) hrest, rfl, rfl⟩
  case debugWrite =>
    intro a v s hlive hcalm hlcs ha hopen
    have hwrite : debugAccess false true a v (quiet s) = written hwmDesc A.LKP_HWM v.toNat (quiet s) := by
      rw [← debugWrite_hwm v (quiet s) hlive hlcs hopen, ← ha]
      rfl
    have hrun : exec (.debugPortAccess false true a v) s = .next (settled s (debugAccess false true a v (quiet s))) :=
      onBus_calm _ s (powered_of_live s hlive) (by rw [hwrite]; exact calm_wr _ _ _ _ (by decide) (by decide) hcalm)
    rw [hwrite] at hrun
    refine ⟨_, hrun, ?_⟩
    simp only [rd_settled, sameRegs_settled, settled_regs, settled_sent]
    exact ⟨rd_written_hwm v (quiet s), fun b hb => rd_written_other _ _ _ (quiet s) b (by simpa using hb),
      (written_regsOnly _ _ _ (quiet s)).leaves⟩
  case restart =>
    intro k s hlive hcalm hcold hstarting hrunning hqueue hwait hslot hpower hcyclic hunits
    have hended : restartComplete (quiet s) = coldStarted (quiet s) := by
      have htasks : ∀ t < 16, enabled s t = false := fun t ht => by simpa using List.all_eq_true.mp hcyclic t (List.mem_range.mpr ht)
      have howners : ∀ u < 32, getF s (F.TMB_UNIT_CTL_OWNER u) = 0 ∧ ownerOf s u = 0 :=
        fun u hu => by simpa using List.all_eq_true.mp hunits u (List.mem_range.mpr hu)
      exact restartComplete_eventTasks (quiet s) hcold hstarting hrunning hqueue hslot hwait hpower htasks howners
    have hrun : exec .restartComplete s = .next (settled s (coldStarted (quiet s))) := by
      rw [← hended]
      exact onDie_calm restartComplete s hlive (by rw [hended]; exact calm_coldStarted (quiet s) hstarting hcalm)
    obtain ⟨hstate, hdone⟩ := coldStarted_running (quiet s)
    obtain ⟨hcycno, htask, hfirst⟩ := coldStarted_begun (quiet s) k k.isLt
    clear hended
    generalize coldStarted (quiet s) = t at hrun hstate hdone hcycno htask hfirst
    exact ⟨_, hrun, hstate, hdone, hcycno, htask, hfirst⟩

end Sys2Proof.Proofs
end

section
/-! Two statements on the commands of a core that fail where an access of the core still waits: HALT amid a load from the fabric
(03_weevil_core R116), and a buffered store behind a held one (03_weevil_core R95, 08_banks_mailboxes R255). -/

namespace Sys2Proof.Machine

/-- Core 9 has issued a load of w3 from fabric device 5, and runs. -/
def amidFabricLoad : State :=
  modBrg (fun b => { b with reads := [⟨0, .core 9 3 4 false, ⟨9, false, none⟩, 0x80000000, 0x10000000, 4, 5, 0, false, (0, 4)⟩] })
    (modCore 9 (fun k => { k with st := .run }) State.reset)

/-- HALT finds the core in the middle of its load, and leaves it running until that ends. -/
theorem amidFabricLoad_runs_on :
    ((busWrite ⟨49, true, none⟩ (A.RCH_CORE_CTL (9 / 8) (9 % 8)) 1 (quiet amidFabricLoad)).core 9).st ≠ .halted := by
  decide +kernel

theorem exec_amidFabricLoad :
    exec (.coreHalt ⟨49, true, none⟩ 9) amidFabricLoad
      = .next (settled amidFabricLoad (busWrite ⟨49, true, none⟩ (A.RCH_CORE_CTL (9 / 8) (9 % 8)) 1 (quiet amidFabricLoad))) :=
  onBus_calm _ amidFabricLoad (by decide +kernel) (by decide +kernel)

/-- The store of core 3 that waits in its buffer, to the memory of reach 0. -/
def waitingStore : Store := ⟨0x10000040, 4, 0x12345678, false⟩

/-- A store of core 3 to reach 1 is held until that reach has woken, and the next one waits in the store buffer. -/
def behindHeldStore : State :=
  modRot (fun r => { r with held := [{ who := ⟨3, false, none⟩, seq := 0, parts := [(0x11000000, 4, 1)] }] })
    (setF (F.RCH_PWR_PSTATE 1) 3 (modCore 3 (fun k => { k with sbuf := [waitingStore], sup := false }) State.reset))

/-- It waits behind the held one, though its own target would take it. -/
theorem behindHeldStore_waits : ((storeComplete 3 (quiet behindHeldStore)).core 3).sbuf ≠ [] := by decide +kernel

theorem exec_behindHeldStore :
    exec (.storeComplete 3) behindHeldStore = .next (settled behindHeldStore (storeComplete 3 (quiet behindHeldStore))) :=
  onDie_calm (storeComplete 3) behindHeldStore (by decide +kernel) (by decide +kernel)

end Sys2Proof.Machine

namespace Sys2Proof.Proofs

open Sys2Proof.Machine

/-- Refutes O17: the clause on HALT takes in a running core whose load from the fabric is outstanding; such a core stops when its load
ends (R116), not in the step of the command. -/
theorem not_coreControl : ¬ Obligations.CoreControl := by
  unfold Obligations.CoreControl
  rintro ⟨halt, -⟩
  obtain ⟨t, ht, hcore, -⟩ := halt ⟨49, true, none⟩ 9 9 amidFabricLoad (by decide +kernel) (by decide +kernel) (by decide +kernel) rfl
    (by decide +kernel) (by decide +kernel) (by decide +kernel) (by decide +kernel)
  obtain rfl : settled amidFabricLoad (busWrite ⟨49, true, none⟩ (A.RCH_CORE_CTL (9 / 8) (9 % 8)) 1 (quiet amidFabricLoad)) = t := by
    rw [exec_amidFabricLoad] at ht; injection ht
  exact amidFabricLoad_runs_on (congrArg Core.st hcore)

/-- Refutes O18: the clause on the oldest buffered store takes in a core with a store that is still held, for a reach that wakes; the
buffered one must not pass it (R95, R255), so it stays in the buffer. -/
theorem not_storesAndPreemption : ¬ Obligations.StoresAndPreemption := by
  unfold Obligations.StoresAndPreemption
  rintro ⟨completes, -⟩
  obtain ⟨t, ht, hsbuf, -⟩ := completes 3 waitingStore [] 0 0x40 behindHeldStore (by decide +kernel) (by decide +kernel) (by decide +kernel)
    (by decide +kernel) (by decide) (by decide) (by decide +kernel) (by decide) rfl (by decide +kernel) (by decide +kernel)
    (by decide +kernel) (by decide +kernel) (by decide +kernel)
  obtain rfl : settled behindHeldStore (storeComplete 3 (quiet behindHeldStore)) = t := by
    rw [exec_behindHeldStore] at ht; injection ht
  exact behindHeldStore_waits hsbuf

end Sys2Proof.Proofs
end

section
/-! What a core's reads of memory and its fetch leave (03_weevil_core R98 to R100; 08_banks_mailboxes R250, R262): registers of the ECC log
and of events, and lines of the core's own I-cache, are all they change. -/

namespace Sys2Proof.Machine

/-! ### Reads of memory -/

/-- The words that a read of memory may write: SYS_EVT and SYS_PRIVCNT, the pending words of the Lockkeeper, power, events and the ECC
log of a reach. -/
def readWord (a : Nat) : Bool :=
  a == A.SYS_EVT || a == A.SYS_PRIVCNT || decide (A.LKP_PEND 0 ≤ a ∧ a ≤ A.LKP_PEND 31) || decide (0x60100000 ≤ a ∧ a % 0x10000 < 0x100)

/-- What a read of memory leaves as it is. -/
structure ReadKeeps (s t : State) : Prop where
  rest : t = { s with regs := t.regs, ecc := t.ecc, evtLast := t.evtLast, rot := { s.rot with ce := t.rot.ce }
                      lkp := { s.lkp with srcVal := t.lkp.srcVal } }
  word : ∀ a, readWord a = false → rd t a = rd s a

variable {s t u : State}

theorem ReadKeeps.refl (s : State) : ReadKeeps s s := ⟨rfl, fun _ _ => rfl⟩

theorem ReadKeeps.trans (h : ReadKeeps s t) (g : ReadKeeps t u) : ReadKeeps s u := by
  refine ⟨?_, fun a ha => (g.word a ha).trans (h.word a ha)⟩
  have hrest := g.rest
  rw [h.rest] at hrest
  exact hrest

theorem ReadKeeps.wr (a : Nat) (v : Word) (s : State) (ha : readWord a = true) : ReadKeeps s (wr a v s) :=
  ⟨rfl, fun b hb => rd_wr_other a b v s fun h => by rw [h, ha] at hb; cases hb⟩

theorem ReadKeeps.setF (f : FRef) (v : Nat) (s : State) (hf : readWord f.addr = true) : ReadKeeps s (setF f v s) := .wr f.addr _ s hf

theorem ReadKeeps.satF (f : FRef) (n : Nat) (s : State) (hf : readWord f.addr = true) : ReadKeeps s (satF f n s) := .setF f _ s hf

theorem ReadKeeps.eccClear (w : Nat) (s : State) : ReadKeeps s (eccClear w s) := ⟨rfl, fun _ _ => rfl⟩

theorem ReadKeeps.noteCorrected (n : Nat) (s : State) : ReadKeeps s (noteCorrected n s) := ⟨rfl, fun _ _ => rfl⟩

theorem ReadKeeps.evtStamp (key : Nat) (s : State) : ReadKeeps s (evtStamp key s) := ⟨rfl, fun _ _ => rfl⟩

theorem ReadKeeps.record (evt k : Nat) (s : State) (hevt : readWord evt = true) : ReadKeeps s (record evt k s) :=
  ((ReadKeeps.setF ⟨evt, 24, 8⟩ _ s hevt).trans (.setF ⟨evt, k, 1⟩ 1 _ hevt)).trans (.evtStamp _ _)

theorem ReadKeeps.pend (src v : Nat) (s : State) (hsrc : readWord (A.LKP_PEND (src / 32)) = true) : ReadKeeps s (pend src v s) :=
  ⟨rfl, fun a ha => rd_pend src v s a fun h => by rw [h, hsrc] at ha; cases ha⟩

theorem ReadKeeps.raise (evt k : Nat) (s : State) (hevt : readWord evt = true)
    (hout : readWord (A.LKP_PEND (outSource (evt / 0x10000) / 32)) = true) : ReadKeeps s (raise evt k s) := by
  have hrecord := ReadKeeps.record evt k s hevt
  rcases raise_cases evt k s with h | h | h <;> rw [h]
  · exact .refl s
  · exact hrecord
  · exact hrecord.trans (.pend _ 0 _ hout)

theorem readWord_reach (n off : Nat) (h : off < 0x100) : readWord (0x60100000 + 0x10000 * n + off) = true := by
  simp only [readWord, Bool.or_eq_true, decide_eq_true_eq]
  omega

theorem wakeTouch_keeps (n : Nat) (s : State) : ReadKeeps s (wakeTouch n s) := by
  unfold wakeTouch
  split
  · refine .setF _ _ s ?_
    have h := readWord_reach n 0x60 (by decide)
    rwa [show 0x60100000 + 0x10000 * n + 0x60 = A.RCH_PWR n by simp only [A.RCH_PWR]; omega] at h
  · exact .refl s

/-- The words of reach `n` that an ECC error writes. -/
theorem readWord_ecc (n : Nat) (hn : n < 5) : readWord (A.RCH_ECCCNT n) = true ∧ readWord (A.RCH_ECCLOG n) = true
    ∧ readWord (A.RCH_MEM_EVT n) = true ∧ readWord (A.LKP_PEND (outSource (A.RCH_MEM_EVT n / 0x10000) / 32)) = true := by
  interval_cases n <;> decide

theorem eccNote_keeps (n off : Nat) (ue scrub : Bool) (who : Nat) (s : State) (hn : n < 5) : ReadKeeps s (eccNote n off ue scrub who s) := by
  obtain ⟨hcount, hlog, hevt, hout⟩ := readWord_ecc n hn
  have hcounted : ReadKeeps s (if ue then satF (F.RCH_ECCCNT_UE n) 1 s else noteCorrected n (satF (F.RCH_ECCCNT_CE n) 1 s)) := by
    cases ue
    · exact (ReadKeeps.satF _ 1 s hcount).trans (.noteCorrected n _)
    · exact .satF _ 1 s hcount
  unfold eccNote
  refine .trans (hcounted.trans ?_) (.raise _ _ _ hevt hout)
  exact (((ReadKeeps.setF _ _ _ hlog).trans (.setF _ _ _ hlog)).trans (.setF _ _ _ hlog)).trans (.setF _ _ _ hlog)

theorem privAttempt_keeps (who : Who) (s : State) : ReadKeeps s (privAttempt who s) :=
  ((ReadKeeps.satF F.SYS_PRIVCNT_COUNT 1 s rfl).trans (.setF F.SYS_PRIVCNT_LASTID who.id _ rfl)).trans (.raise A.SYS_EVT 2 _ rfl rfl)

theorem reachRead_keeps (n off size : Nat) (who : Who) (s : State) (hn : n < 5) : ReadKeeps s (reachRead n off size who s).1 := by
  have hwake := wakeTouch_keeps n s
  unfold reachRead
  generalize wakeTouch n s = k at hwake
  dsimp only
  split
  · exact hwake
  · split
    · exact hwake
    · split
      · exact hwake
      · exact hwake.trans ((eccNote_keeps n off false false who.id k hn).trans (.eccClear _ _))
      · exact hwake.trans (eccNote_keeps n off true false who.id k hn)

theorem aliasReach_lt {who n : Nat} (h : aliasReach who = some n) : n < 5 := by
  unfold aliasReach at h
  split at h
  · injection h; omega
  · split at h
    · injection h; omega
    · cases h

/-- Reach memory that an address selects is that of one of the five reaches (R46, R47). -/
theorem target_reach_lt {s : State} {who a n off : Nat} (h : target s who a = .reach n off) : n < 5 := by
  unfold target at h
  split at h
  · cases hown : aliasReach who with
    | none => rw [hown] at h; cases h
    | some m =>
      rw [hown] at h
      injection h with hm
      exact hm ▸ aliasReach_lt hown
  · split at h
    · dsimp only at h
      split at h
      · injection h; omega
      · cases h
    · repeat' split at h
      all_goals cases h

theorem memTargetRead_keeps (s : State) (id a size : Nat) (who : Who) : ReadKeeps s (memTargetRead (target s id a) size who s).1 := by
  cases h : target s id a with
  | reach n off => exact reachRead_keeps n off size who s (target_reach_lt h)
  | basin off =>
    unfold memTargetRead
    dsimp only
    split
    · exact .refl s
    · exact privAttempt_keeps who s
  | image off =>
    unfold memTargetRead
    dsimp only
    split <;> exact .refl s
  | mram off =>
    unfold memTargetRead
    dsimp only
    split
    · exact privAttempt_keeps who s
    · split <;> exact .refl s
  | reg _ | fabric _ _ | nothing => exact .refl s

theorem ownRead_keeps (i a size : Nat) (s : State) : ReadKeeps s (ownRead i a size s).1 := memTargetRead_keeps s i a size _

/-! ### Lines of the I-cache -/

/-- The reads of a line, as far as they have come, leave what a read leaves. -/
theorem readLine_keeps (i a : Nat) (s : State) : ReadKeeps s (readLine i a s).1 := by
  unfold readLine
  generalize List.range 4 = l
  suffices h : ∀ r : State × Except Exc (List Word), ReadKeeps s r.1 → ReadKeeps s (l.foldl _ r).1 from h (s, .ok []) (.refl s)
  induction l with
  | nil => exact fun _ h => h
  | cons k l ih =>
    intro r hr
    refine ih _ ?_
    obtain ⟨t, e | ws⟩ := r
    · exact hr
    · have hread := hr.trans (ownRead_keeps i (a + 8 * k) 8 t)
      dsimp only
      revert hread
      cases ownRead i (a + 8 * k) 8 t with
      | mk u v => cases v <;> exact id

/-- The words that a fetch may write beside those of its reads: the parity errors of a reach's I-caches, and their event (R99). -/
def parityWord (a : Nat) : Bool := decide (0x60100000 ≤ a ∧ (a % 0x10000 = 0x1100 ∨ a % 0x10000 = 0x1108))

/-- What a fetch of core `i` leaves as it is: all but registers, the I-cache of the core and what a read of memory changes. -/
structure FetchKeeps (i : Nat) (s t : State) : Prop where
  rest : t = { s with regs := t.regs, ecc := t.ecc, evtLast := t.evtLast, rot := { s.rot with ce := t.rot.ce }
                      lkp := { s.lkp with srcVal := t.lkp.srcVal }, cores := t.cores }
  core : t.core i = { s.core i with icache := (t.core i).icache }
  others : ∀ j, j % 40 ≠ i % 40 → t.core j = s.core j
  word : ∀ a, readWord a = false → parityWord a = false → rd t a = rd s a

theorem ReadKeeps.fetch (i : Nat) (h : ReadKeeps s t) : FetchKeeps i s t := by
  refine ⟨?_, ?_, ?_, fun a ha _ => h.word a ha⟩ <;> rw [h.rest] <;> intros <;> rfl

theorem FetchKeeps.trans {i : Nat} (h : FetchKeeps i s t) (g : FetchKeeps i t u) : FetchKeeps i s u := by
  refine ⟨?_, ?_, fun j hj => (g.others j hj).trans (h.others j hj), fun a ha hp => (g.word a ha hp).trans (h.word a ha hp)⟩
  · have hrest := g.rest
    rw [h.rest] at hrest
    exact hrest
  · rw [g.core, h.core]

/-- A change of the I-cache of core `i` alone. -/
theorem FetchKeeps.lines (i : Nat) (f : Core → List (Nat × List Word)) (s : State) :
    FetchKeeps i s (modCore i (fun k => { k with icache := f k }) s) :=
  ⟨rfl, by rw [core_modCore_same], fun j hj => core_modCore_other i j _ s hj, fun _ _ _ => rfl⟩

theorem cacheLine_keeps (i a : Nat) (ws : List Word) (s : State) : FetchKeeps i s (cacheLine i a ws s) :=
  (FetchKeeps.lines i _ s).trans ((ReadKeeps.eccClear _ _).fetch i)

theorem fetchLine_keeps (i a : Nat) (s : State) : FetchKeeps i s (fetchLine i a s).1 := by
  have hread := (readLine_keeps i (a / 32 * 32) s).fetch i
  unfold fetchLine
  revert hread
  cases readLine i (a / 32 * 32) s with
  | mk t r =>
    cases r with
    | error e => exact id
    | ok ws => exact fun hread => hread.trans (cacheLine_keeps i _ ws t)

/-! ### The fetch -/

theorem FetchKeeps.wr (i a : Nat) (v : Word) (s : State) (ha : readWord a = true ∨ parityWord a = true) : FetchKeeps i s (wr a v s) :=
  ⟨rfl, rfl, fun _ _ => rfl, fun b hb hp => rd_wr_other a b v s fun h => by
    subst h
    rcases ha with ha | ha
    · rw [ha] at hb; cases hb
    · rw [ha] at hp; cases hp⟩

theorem FetchKeeps.setF (i : Nat) (f : FRef) (v : Nat) (s : State) (hf : readWord f.addr = true ∨ parityWord f.addr = true) :
    FetchKeeps i s (setF f v s) := .wr i f.addr _ s hf

theorem parityWord_event (n : Nat) : parityWord (A.RCH_CORE_EVT n) = true := by
  simp only [parityWord, A.RCH_CORE_EVT, decide_eq_true_eq]
  omega

theorem parityWord_count (n : Nat) : parityWord (A.RCH_CORE_ICPCNT n) = true := by
  simp only [parityWord, A.RCH_CORE_ICPCNT, decide_eq_true_eq]
  omega

/-- The pending word of the event output of a reach. -/
theorem readWord_coreOutput (n : Nat) (hn : n < 5) : readWord (A.LKP_PEND (outSource (A.RCH_CORE_EVT n / 0x10000) / 32)) = true := by
  interval_cases n <;> decide

theorem raise_coreEvent_keeps (i n k : Nat) (s : State) (hn : n < 5) : FetchKeeps i s (raise (A.RCH_CORE_EVT n) k s) := by
  have hrecord : FetchKeeps i s (record (A.RCH_CORE_EVT n) k s) :=
    ((FetchKeeps.setF i ⟨A.RCH_CORE_EVT n, 24, 8⟩ _ s (.inr (parityWord_event n))).trans
      (.setF i ⟨A.RCH_CORE_EVT n, k, 1⟩ 1 _ (.inr (parityWord_event n)))).trans ((ReadKeeps.evtStamp _ _).fetch i)
  rcases raise_cases (A.RCH_CORE_EVT n) k s with h | h | h <;> rw [h]
  · exact (ReadKeeps.refl s).fetch i
  · exact hrecord
  · exact hrecord.trans ((ReadKeeps.pend _ 0 _ (readWord_coreOutput n hn)).fetch i)

theorem parityError_keeps (i a : Nat) (s : State) (hi : i < 40) : FetchKeeps i s (parityError i a s) :=
  (((FetchKeeps.lines i _ s).trans ((ReadKeeps.eccClear _ _).fetch i)).trans
    (.setF i (F.RCH_CORE_ICPCNT_COUNT (i / 8)) _ _ (.inr (parityWord_count _)))).trans (raise_coreEvent_keeps i _ _ _ (by omega))

theorem fetch_keeps (i : Nat) (s : State) (hi : i < 40) : FetchKeeps i s (fetch i s).1 := by
  rcases fetch_cases i s with ⟨-, h⟩ | ⟨ws, -, h⟩ | h | h <;> rw [h]
  · exact (ReadKeeps.refl s).fetch i
  · exact (ReadKeeps.refl s).fetch i
  · exact fetchLine_keeps i _ s
  · exact (parityError_keeps i _ s hi).trans (fetchLine_keeps i _ _)

/-- What a fetch leaves, seen from the state before the command. -/
theorem fetched_keeps (i : Fin 40) (s : State) : FetchKeeps i (quiet s) (fetched i s) := fetch_keeps i (quiet s) i.isLt

theorem core_fetched (i : Fin 40) (s : State) : (fetched i s).core i = { s.core i with icache := ((fetched i s).core i).icache } :=
  (fetched_keeps i s).core

end Sys2Proof.Machine
end

section
/-! Running an instruction: what an instruction boundary adds to the effect of the instruction that stands there, and what the command
that runs it answers (03_weevil_core R101, R116). -/

namespace Sys2Proof.Machine

/-! ### Parts of a core -/

@[simp] theorem setReg_cyc (k : Core) (d : Fin 16) (v : Word) : (k.setReg d v).cyc = k.cyc := by
  unfold Core.setReg; split <;> rfl

@[simp] theorem setReg_haltReq (k : Core) (d : Fin 16) (v : Word) : (k.setReg d v).haltReq = k.haltReq := by
  unfold Core.setReg; split <;> rfl

@[simp] theorem setReg_stepping (k : Core) (d : Fin 16) (v : Word) : (k.setReg d v).stepping = k.stepping := by
  unfold Core.setReg; split <;> rfl

/-- The register written reads the value, or 0 if it is w0 (R76). -/
theorem reg_setReg_same (k : Core) (d : Fin 16) (v : Word) : (k.setReg d v).reg d = if d = 0 then 0 else v := by
  unfold Core.setReg Core.reg
  split
  · rfl
  · exact Vector.getElem_set_self _

/-- No other register changes. -/
theorem get_setReg_other (k : Core) (d : Fin 16) (v : Word) (r : Fin 64) (h : r.val ≠ 16 * k.level.val + d.val) :
    (k.setReg d v).w.get r = k.w.get r := by
  unfold Core.setReg
  split
  · rfl
  · next hd => exact Vector.getElem_set_ne (by omega) _ h.symm

/-- Flags change the flags alone. -/
theorem flagIf_eq (f : Bool) (x : Flagged) (k : Core) :
    k.flagIf f x = { k with n := (k.flagIf f x).n, z := (k.flagIf f x).z, c := (k.flagIf f x).c, v := (k.flagIf f x).v } := by
  unfold Core.flagIf; split <;> rfl

/-! ### The core set -/

theorem setCore_self (s : State) (i : Nat) : s.setCore i (s.core i) = s := by
  unfold State.setCore State.core
  rw [Vector.set_getElem_self]

/-- Two changes of one core are one. -/
theorem modCore_modCore (i : Nat) (f g : Core → Core) (s : State) : modCore i g (modCore i f s) = modCore i (fun k => g (f k)) s := by
  unfold modCore
  rw [core_setCore_same]
  unfold State.setCore
  rw [Vector.set_set]

/-- A core that a command changes does not step, unless it is set stepping. -/
theorem noneStepping_setCore (s : State) (i : Nat) (k : Core) (hk : k.stepping = false) (h : s.cores.any (·.stepping) = false) :
    (s.setCore i k).cores.any (·.stepping) = false := by
  rw [Vector.any_eq_false] at h ⊢
  intro j hj
  have hs : (s.setCore i k).cores[j] = if i % 40 = j then k else s.cores[j] :=
    Vector.getElem_set (Nat.mod_lt _ (by decide)) hj
  rw [hs]
  split
  · simp [hk]
  · exact h j hj

theorem calm_cores {before s : State} (v : Vector Core 40) (hv : v.any (·.stepping) = false) (h : calm before s = true) :
    calm before { s with cores := v } = true := by
  unfold calm at h ⊢
  simp only [Bool.and_eq_true] at h ⊢
  obtain ⟨⟨⟨⟨⟨⟨-, hce⟩, hpark⟩, hrel⟩, hstop⟩, hpair⟩, hdue⟩ := h
  exact ⟨⟨⟨⟨⟨⟨by rw [hv]; rfl, hce⟩, hpark⟩, hrel⟩, hstop⟩, hpair⟩, hdue⟩

theorem noneStepping_of_calm {before s : State} (h : calm before s = true) : s.cores.any (·.stepping) = false := by
  simp only [calm, Bool.and_eq_true, Bool.not_eq_true'] at h
  obtain ⟨⟨⟨⟨⟨⟨hcores, -⟩, -⟩, -⟩, -⟩, -⟩, -⟩ := h
  exact hcores

theorem stepping_of_calm {before s : State} (i : Nat) (h : calm before s = true) : (s.core i).stepping = false := by
  have hnone := noneStepping_of_calm h
  rw [Vector.any_eq_false] at hnone
  exact Bool.eq_false_iff.mpr (hnone (i % 40) (Nat.mod_lt _ (by decide)))

/-- A change of a core that does not set it stepping leaves the device at rest. -/
theorem calm_modCore {before s : State} (i : Nat) (f : Core → Core) (hf : (f (s.core i)).stepping = false) (h : calm before s = true) :
    calm before (modCore i f s) = true :=
  calm_cores _ (noneStepping_setCore s i _ hf (noneStepping_of_calm h)) h

/-! ### An instruction at its boundary -/

/-- A core with other cycles counted, and another pipeline. -/
@[simps] def Core.withCyc (c : Cycles) (k : Core) : Core := { k with cyc := c }

/-- A core with other lines in its I-cache. -/
@[simps] def Core.withLines (l : List (Nat × List Word)) (k : Core) : Core := { k with icache := l }

/-- A command does not replace the core that its effect leaves. -/
@[simp] theorem core_settled (s t : State) (i : Nat) : (settled s t).core i = t.core i := rfl

/-- What the pipeline holds is all that the end of an instruction changes. -/
theorem settlePipe_cyc (i : Nat) (op : WOp) (k : Core) (s : State) :
    ∃ c, settlePipe i op k s = modCore i (·.withCyc c) s := by
  unfold settlePipe modCore
  dsimp only
  split
  · exact ⟨(s.core i).cyc, (setCore_self s i).symm⟩
  · generalize (!(op matches .done | .rfe | .trap _ | .brk)) = late
    split
    · exact ⟨_, rfl⟩
    · exact ⟨_, rfl⟩

/-- Core `i` stands at its instruction: what it fetches is a word of it. -/
theorem atInstr_fetch {i : Nat} {op : WOp} {s : State} (h : atInstr i op s) :
    ∃ w, fetch i (quiet s) = (fetched i s, .ok w) ∧ decodeW w = some op := by
  obtain ⟨-, -, -, -, -, -, hword⟩ := h
  unfold fetched
  revert hword
  cases fetch i (quiet s) with
  | mk t r =>
    cases r with
    | error e => intro h; cases h
    | ok w => exact fun h => ⟨w, rfl, h⟩

/-- The instruction at the PC is executed from the state after its fetch; where it takes cycles and the core is not to halt, only what the
pipeline holds is still to be noted. -/
theorem weevil_ends {i : Fin 40} {op : WOp} {s u : State} (h : atInstr i op s) (hu : execOp i op (fetched i s) = u)
    (hcount : (u.core i).cyc.count ≠ (s.core i).cyc.count) (hhalt : (u.core i).haltReq = false) :
    ∃ c, weevil i op (quiet s) = modCore i (·.withCyc c) u := by
  obtain ⟨w, hfetch, hdecode⟩ := atInstr_fetch h
  obtain ⟨-, hrun, -, hpend, hwait, -, -⟩ := h
  obtain ⟨c, hpipe⟩ := settlePipe_cyc i op ((fetched i s).core i) u
  have hmoved : sameInstr i (fetched i s) u = false := by
    unfold sameInstr
    rw [core_fetched]
    have hcyc : (u.core i).cyc ≠ (s.core i).cyc := fun e => hcount (congrArg Cycles.count e)
    simp [hcyc]
  refine ⟨c, ?_⟩
  have hstands : ¬ (((quiet s).core i).st ≠ .run ∨ waitsRead (quiet s) i) := by
    rintro (hst | hst)
    · exact hst hrun
    · rw [show waitsRead (quiet s) i = waitsRead s i from rfl, hwait] at hst; cases hst
  unfold weevil runCore
  rw [if_neg hstands, show ((quiet s).core i).pendW = [] from hpend]
  dsimp only
  rw [hfetch]
  dsimp only
  rw [hdecode]
  dsimp only
  rw [hu, hmoved, hpipe]
  simp [instrDone, hhalt]

/-- What the command answers where the effect of its instruction leaves the device at rest. -/
theorem exec_ends {c : Instr} {i : Fin 40} {op : WOp} {s u : State} (hexec : exec c s = onDie (weevil i op) s) (h : atInstr i op s)
    (hu : execOp i op (fetched i s) = u) (hcount : (u.core i).cyc.count ≠ (s.core i).cyc.count) (hhalt : (u.core i).haltReq = false)
    (hcalm : calm s u = true) :
    ∃ cy, exec c s = .next (settled s (modCore i (·.withCyc cy) u)) := by
  obtain ⟨cy, hw⟩ := weevil_ends h hu hcount hhalt
  have hlive : live s = true := h.1
  refine ⟨cy, ?_⟩
  rw [hexec, onDie_calm _ _ hlive, hw]
  rw [hw, calm_quiet_left]
  exact calm_modCore i _ (stepping_of_calm i hcalm) hcalm

/-! ### Instructions that change the core alone -/

/-- The command ends with the core as `g` leaves it, but for its I-cache and its pipeline; beside the core nothing has changed since its
fetch. -/
def EndsWith (c : Instr) (i : Fin 40) (s : State) (g : Core → Core) : Prop :=
  ∃ t ic cy, exec c s = .next t ∧ t.core i = (g ((s.core i).withLines ic)).withCyc cy ∧ coreOnly i s t

theorem coreOnly_modCore (i : Fin 40) (f : Core → Core) (s : State) : coreOnly i s (settled s (modCore i f (fetched i s))) := by
  refine ⟨rfl, fun j hj => ?_⟩
  have hij : j.val % 40 ≠ i.val % 40 := by omega
  exact (core_modCore_other i j f _ hij).trans ((fetched_keeps i s).others j hij)

/-- What the command answers where the effect of its instruction is a change `g` of the core, which takes cycles. -/
theorem exec_coreChange {c : Instr} {i : Fin 40} {op : WOp} {s : State} (g : Core → Core) (hexec : exec c s = onDie (weevil i op) s)
    (h : atInstr i op s) (hu : execOp i op (fetched i s) = modCore i g (fetched i s))
    (hcount : ∀ ic, (g ((s.core i).withLines ic)).cyc.count ≠ (s.core i).cyc.count)
    (hhalt : ∀ k : Core, (g k).haltReq = k.haltReq) (hstep : ∀ k : Core, (g k).stepping = k.stepping) :
    ∃ t cy, exec c s = .next t ∧ t.core i = (g ((fetched i s).core i)).withCyc cy ∧ coreOnly i s t := by
  have hcore := core_fetched i s
  have hcalm : calm s (fetched i s) = true := by
    obtain ⟨-, -, -, -, -, hcalm, -⟩ := h
    exact hcalm
  have hnotHalt : (s.core i).haltReq = false := by
    obtain ⟨-, -, hhalt, -⟩ := h
    exact hhalt
  obtain ⟨cy, hexec⟩ := exec_ends hexec h hu (by rw [core_modCore_same, hcore]; exact hcount _)
    (by rw [core_modCore_same, hhalt, hcore]; exact hnotHalt) (calm_modCore i g (by rw [hstep]; exact stepping_of_calm i hcalm) hcalm)
  rw [modCore_modCore] at hexec
  exact ⟨_, cy, hexec, by rw [core_settled, core_modCore_same], coreOnly_modCore i _ s⟩

theorem exec_endsWith {c : Instr} {i : Fin 40} {op : WOp} {s : State} (g : Core → Core) (hexec : exec c s = onDie (weevil i op) s)
    (h : atInstr i op s) (hu : execOp i op (fetched i s) = modCore i g (fetched i s))
    (hcount : ∀ ic, (g ((s.core i).withLines ic)).cyc.count ≠ (s.core i).cyc.count)
    (hhalt : ∀ k : Core, (g k).haltReq = k.haltReq) (hstep : ∀ k : Core, (g k).stepping = k.stepping) : EndsWith c i s g := by
  obtain ⟨t, cy, ht, hcore, honly⟩ := exec_coreChange g hexec h hu hcount hhalt hstep
  rw [core_fetched] at hcore
  exact ⟨t, _, cy, ht, hcore, honly⟩

/-! ### Results in registers -/

/-- The end of an instruction that leaves a result in a register, and flags of it. -/
theorem wrote_result (k : Core) (ic : List (Nat × List Word)) (cy : Cycles) (n : Nat) (f : Bool) (d : Fin 16) (x : Flagged) :
    wrote d x.r k ((((((k.withLines ic).setReg d x.r).flagIf f x).next).spend n).withCyc cy) := by
  cases f
  all_goals
    refine ⟨reg_setReg_same _ d x.r, fun r hr => get_setReg_other _ d x.r r hr, ?_⟩
    by_cases hd : d = 0 <;> simp [Core.setReg, Core.flagIf, Core.flag, Core.next, Core.spend, Core.withLines, Core.withCyc, hd]

theorem flagged_result (k : Core) (ic : List (Nat × List Word)) (cy : Cycles) (n : Nat) (f : Bool) (d : Fin 16) (x : Flagged) :
    flagged f x.r (x.c.getD k.c) (x.v.getD k.v) k
      ((((((k.withLines ic).setReg d x.r).flagIf f x).next).spend n).withCyc cy) := by
  cases f
  all_goals by_cases hd : d = 0 <;> simp [flagged, Core.setReg, Core.flagIf, Core.flag, Core.next, Core.spend, Core.withLines, Core.withCyc, hd]

/-- An instruction that ends with a result in a register, and flags of it where F is 1. -/
theorem exec_result {c : Instr} {i : Fin 40} {op : WOp} {s : State} (n : Nat) (f : Bool) (d : Fin 16) (x : Flagged)
    (hexec : exec c s = onDie (weevil i op) s) (h : atInstr i op s) (hn : n ≠ 0)
    (hu : execOp i op (fetched i s) = finish i n (fun k => (k.setReg d x.r).flagIf f x) (fetched i s)) :
    ∃ t, exec c s = .next t ∧ wrote d x.r (s.core i) (t.core i) ∧
      flagged f x.r (x.c.getD (s.core i).c) (x.v.getD (s.core i).v) (s.core i) (t.core i) ∧ coreOnly i s t := by
  obtain ⟨t, ic, cy, ht, hcore, honly⟩ := exec_endsWith (fun k => (((k.setReg d x.r).flagIf f x).next).spend n) hexec h hu
    (fun ic => by rw [Core.spend, Core.next, flagIf_eq]; simp [hn]) (fun k => by rw [Core.spend, Core.next, flagIf_eq]; simp)
    (fun k => by rw [Core.spend, Core.next, flagIf_eq]; simp)
  refine ⟨t, ht, ?_, ?_, honly⟩ <;> rw [hcore]
  · exact wrote_result ..
  · exact flagged_result ..

/-- Without F the flags stay, whatever the result. -/
theorem flagged_false {r : Word} {c v : Bool} {k k' : Core} (h : flagged false r c v k k') : flagged false 0 false false k k' := h

/-- An instruction that ends with a value in a register, and leaves the flags. -/
theorem exec_value {c : Instr} {i : Fin 40} {op : WOp} {s : State} (n : Nat) (d : Fin 16) (v : Word)
    (hexec : exec c s = onDie (weevil i op) s) (h : atInstr i op s) (hn : n ≠ 0)
    (hu : execOp i op (fetched i s) = finish i n (fun k => k.setReg d v) (fetched i s)) :
    ∃ t, exec c s = .next t ∧ wrote d v (s.core i) (t.core i) ∧ flagged false 0 false false (s.core i) (t.core i) ∧ coreOnly i s t := by
  obtain ⟨t, ht, hwrote, hflags, honly⟩ := exec_result n false d (plainResult v) hexec h hn hu
  exact ⟨t, ht, hwrote, flagged_false hflags, honly⟩

end Sys2Proof.Machine
end

section
/-! The arithmetic and logic instructions: what their operations give, and what a core that runs one answers (04_weevil_instructions R120
to R123). -/

namespace Sys2Proof.Machine

/-! ### Sums and differences -/

theorem add3_add (x y : Word) (c : Bool) :
    add3 x y c = ⟨x + y + w32 (bit c), some (decide (2 ^ 32 ≤ x.toNat + y.toNat + bit c)),
      some (x.msb == y.msb && (x + y + w32 (bit c)).msb != x.msb)⟩ := by
  have hsum : w32 (x.toNat + y.toNat + bit c) = x + y + w32 (bit c) := by
    apply BitVec.eq_of_toNat_eq
    simp [w32]
  unfold add3
  dsimp only
  rw [hsum]

/-- Without a carry in. -/
theorem add3_plain (x y : Word) :
    add3 x y false = ⟨x + y, some (decide (2 ^ 32 ≤ x.toNat + y.toNat)), some (x.msb == y.msb && (x + y).msb != x.msb)⟩ := by
  rw [add3_add, show w32 (bit false) = 0#32 from rfl, BitVec.add_zero]
  rfl

/-- The sum with a complement is a difference, and its carry the absence of a borrow. -/
theorem add3_sub (x y : Word) (c : Bool) :
    add3 x (~~~y) c = ⟨x - y - w32 (1 - bit c), some (decide (y.toNat + (1 - bit c) ≤ x.toNat)),
      some (x.msb != y.msb && (x - y - w32 (1 - bit c)).msb != x.msb)⟩ := by
  have hx := x.isLt
  have hy := y.isLt
  have hc : bit c ≤ 1 := by cases c <;> decide
  have hnot : (~~~y).toNat = 2 ^ 32 - 1 - y.toNat := BitVec.toNat_not
  have hr : x + ~~~y + w32 (bit c) = x - y - w32 (1 - bit c) := by
    apply BitVec.eq_of_toNat_eq
    simp only [w32, BitVec.toNat_add, BitVec.toNat_sub, BitVec.toNat_ofNat, hnot]
    omega
  have hcarry : (2 ^ 32 ≤ x.toNat + (~~~y).toNat + bit c) = (y.toNat + (1 - bit c) ≤ x.toNat) := by
    rw [hnot]
    apply propext
    omega
  have hmsb : (~~~y).msb = !y.msb := by simp
  rw [add3_add, hr, hmsb]
  simp only [hcarry]
  cases x.msb <;> cases y.msb <;> rfl

theorem add3_minus (x y : Word) :
    add3 x (~~~y) true = ⟨x - y, some (decide (y.toNat ≤ x.toNat)), some (x.msb != y.msb && (x - y).msb != x.msb)⟩ := by
  rw [add3_sub, show w32 (1 - bit true) = 0#32 from rfl, BitVec.sub_zero]
  rfl

/-- LUI: the operand over sixteen zeros. -/
theorem lui_value (x : BitVec 16) : x.setWidth 32 <<< 16 = (x ++ 0#16 : Word) := by
  apply BitVec.eq_of_toNat_eq
  have hx := x.isLt
  rw [BitVec.toNat_append, BitVec.toNat_shiftLeft]
  simp [Nat.shiftLeft_eq]
  omega

/-! ### The instructions -/

@[simp] theorem reg_fetched (i : Fin 40) (s : State) (r : Fin 16) : ((fetched i s).core i).reg r = (s.core i).reg r := by
  rw [core_fetched]; rfl

@[simp] theorem carry_fetched (i : Fin 40) (s : State) : ((fetched i s).core i).c = (s.core i).c := by
  rw [core_fetched]

theorem cycles_pos (op : AluOp) (a b : Word) : op.cycles a b ≠ 0 := by
  cases op
  all_goals
    unfold AluOp.cycles
    dsimp only
    omega

/-- A command that ends with a result in a register, and with flags where F is 1. -/
def Results (c : Instr) (i : Fin 40) (s : State) (f : Bool) (d : Fin 16) (x : Flagged) : Prop :=
  ∃ t, exec c s = .next t ∧ wrote d x.r (s.core i) (t.core i) ∧
    flagged f x.r (x.c.getD (s.core i).c) (x.v.getD (s.core i).v) (s.core i) (t.core i) ∧ coreOnly i s t

theorem exec_alu {c : Instr} {i : Fin 40} {s : State} {op : AluOp} {f : Bool} {d a b : Fin 16} (x : Flagged)
    (hexec : exec c s = onDie (weevil i (.alu op f d a b)) s) (h : atInstr i (.alu op f d a b) s)
    (hx : op.apply ((s.core i).reg a) ((s.core i).reg b) (s.core i).c = x) : Results c i s f d x := by
  refine exec_result (op.cycles ((s.core i).reg a) ((s.core i).reg b)) f d x hexec h (cycles_pos _ _ _) ?_
  rw [← hx, ← reg_fetched i s a, ← reg_fetched i s b, ← carry_fetched i s]
  rfl

theorem exec_imm {c : Instr} {i : Fin 40} {s : State} {op : ImmOp} {f : Bool} {d a : Fin 16} {n : BitVec 16} (x : Flagged)
    (hexec : exec c s = onDie (weevil i (.imm op f d a n)) s) (h : atInstr i (.imm op f d a n) s)
    (hx : op.apply ((s.core i).reg a) n = x) : Results c i s f d x := by
  refine exec_result 1 f d x hexec h one_ne_zero ?_
  rw [← hx, ← reg_fetched i s a]
  rfl

/-- Flags alone are the flags of a result that goes to w0. -/
theorem flag_eq (x : Flagged) (k : Core) : k.flag x = (k.setReg 0 x.r).flagIf true x := rfl

/-- CMPI leaves the flags of a difference alone. -/
theorem exec_cmpi (i : Fin 40) (a : Fin 16) (n : BitVec 16) (s : State) (h : atInstr i (.cmpi a n) s) :
    Results (.cmpi i a n) i s true 0 (add3 ((s.core i).reg a) (~~~(n.signExtend 32)) true) := by
  refine exec_result 1 true 0 _ rfl h one_ne_zero ?_
  rw [← reg_fetched i s a]
  unfold execOp
  simp only [flag_eq, finish, modCore]

end Sys2Proof.Machine

namespace Sys2Proof.Proofs

open Sys2Proof.Machine

/-- Settles O23: the carry and overflow of `add3` are those of the sum, and of the difference where it adds a complement. -/
theorem arithmeticAndLogic : Obligations.ArithmeticAndLogic := by
  unfold Obligations.ArithmeticAndLogic
  refine ⟨?_, ?_, ?_, ?_, ?_, ?_, ?_, ?_, ?_, ?_, ?_, ?_, ?_, ?_⟩
  · exact fun i f d a b s h => exec_alu _ rfl h (add3_plain ..)
  · exact fun i f d a b s h => exec_alu _ rfl h (add3_minus ..)
  · exact fun i f d a b s h => exec_alu _ rfl h (add3_add ..)
  · exact fun i f d a b s h => exec_alu _ rfl h (add3_sub ..)
  · exact fun i f d a x s h => exec_imm _ rfl h (add3_plain ..)
  · intro i a x s h
    have hflags := exec_cmpi i a x s h
    rw [add3_minus] at hflags
    exact hflags
  · exact fun i f d a b s h => exec_alu (plainResult _) rfl h rfl
  · exact fun i f d a b s h => exec_alu (plainResult _) rfl h rfl
  · exact fun i f d a b s h => exec_alu (plainResult _) rfl h rfl
  · exact fun i f d a b s h => exec_alu (plainResult _) rfl h rfl
  · exact fun i f d a x s h => exec_imm (plainResult _) rfl h rfl
  · exact fun i f d a x s h => exec_imm (plainResult _) rfl h rfl
  · exact fun i f d a x s h => exec_imm (plainResult _) rfl h rfl
  · intro i d x s h
    rw [← lui_value]
    exact exec_value 1 d _ rfl h one_ne_zero rfl

end Sys2Proof.Proofs
end

section
/-! Jumps, stacks and exceptions: instructions that change the core alone beside its registers (03_weevil_core R87 to R92, R111;
04_weevil_instructions R131, R132, R138). -/

namespace Sys2Proof.Machine

/-! ### The core after its fetch -/

@[simp] theorem rstack_fetched (i : Fin 40) (s : State) : ((fetched i s).core i).rstack = (s.core i).rstack := by
  rw [core_fetched]

@[simp] theorem pendW_fetched (i : Fin 40) (s : State) : ((fetched i s).core i).pendW = (s.core i).pendW := by
  rw [core_fetched]

@[simp] theorem pc_fetched (i : Fin 40) (s : State) : ((fetched i s).core i).pc = (s.core i).pc := by
  rw [core_fetched]

@[simp] theorem sup_fetched (i : Fin 40) (s : State) : ((fetched i s).core i).sup = (s.core i).sup := by
  rw [core_fetched]

@[simp] theorem bacc_fetched (i : Fin 40) (s : State) : ((fetched i s).core i).bacc = (s.core i).bacc := by
  rw [core_fetched]

@[simp] theorem holds_fetched (i : Fin 40) (s : State) (cond : Fin 15) : ((fetched i s).core i).holds cond = (s.core i).holds cond := by
  rw [core_fetched]; rfl

theorem pendW_of_atInstr {i : Nat} {op : WOp} {s : State} (h : atInstr i op s) : (s.core i).pendW = [] := by
  obtain ⟨-, -, -, hpend, -⟩ := h
  exact hpend

/-! ### Ends that are told of the core -/

/-- Where an effect on the core does not look at its I-cache, the core is what the effect gives of it before the fetch. -/
theorem EndsWith.core_eq {c : Instr} {i : Fin 40} {s : State} {g : Core → Core} (h : EndsWith c i s g) (k' : Core)
    (hg : ∀ ic cy, (g ((s.core i).withLines ic)).withCyc cy = (k'.withLines ic).withCyc cy) :
    ∃ t, exec c s = .next t ∧ t.core i = { k' with icache := (t.core i).icache, cyc := (t.core i).cyc } ∧ coreOnly i s t := by
  obtain ⟨t, ic, cy, ht, hcore, honly⟩ := h
  rw [hg] at hcore
  exact ⟨t, ht, by rw [hcore]; rfl, honly⟩

/-- An instruction that ends with a change of its core, and goes on. -/
theorem exec_finish {c : Instr} {i : Fin 40} {op : WOp} {s : State} (n : Nat) (g : Core → Core) (hexec : exec c s = onDie (weevil i op) s)
    (h : atInstr i op s) (hn : n ≠ 0) (hu : execOp i op (fetched i s) = finish i n g (fetched i s)) (hcyc : ∀ k : Core, (g k).cyc = k.cyc)
    (hhalt : ∀ k : Core, (g k).haltReq = k.haltReq) (hstep : ∀ k : Core, (g k).stepping = k.stepping) :
    EndsWith c i s (fun k => ((g k).next).spend n) :=
  exec_endsWith _ hexec h hu (fun ic => by simp [Core.spend, Core.next, hcyc, hn]) hhalt hstep

/-! ### Words with low bits cleared -/

theorem and_highBits (v m : Word) (n : Nat) (hm : ∀ k : Fin 32, m.getLsbD k = decide (n ≤ k.val)) :
    v &&& m = w32 (v.toNat / 2 ^ n * 2 ^ n) := by
  have hshift : v &&& m = (v >>> n) <<< n := by
    ext k hk
    have hbit := hm ⟨k, hk⟩
    rw [BitVec.getLsbD_eq_getElem hk] at hbit
    rw [BitVec.getElem_and, BitVec.getElem_shiftLeft, hbit]
    by_cases hn : n ≤ k <;> simp [hn, BitVec.getLsbD_eq_getElem hk]
  rw [hshift]
  apply BitVec.eq_of_toNat_eq
  rw [BitVec.toNat_shiftLeft, BitVec.toNat_ushiftRight, Nat.shiftRight_eq_div_pow, Nat.shiftLeft_eq]
  rfl

/-- The address of the word that a byte address lies in. -/
theorem and_wordAddress (v : Word) : v &&& 0xFFFFFFFC#32 = w32 (v.toNat / 4 * 4) := and_highBits v _ 2 (by decide)

theorem and_aligned (v : Word) (h : v.toNat % 4 = 0) : v &&& 0xFFFFFFFC#32 = v := by
  rw [and_wordAddress, Nat.div_mul_cancel (Nat.dvd_of_mod_eq_zero h)]
  simp [w32]

/-! ### Jumps -/

/-- The core after a jump. -/
def Core.goTo (target : Word) (k : Core) : Core := { k.spend 2 with pc := target &&& ~~~3#32 }

theorem jump_eq (i : Nat) (target : Word) (s : State) : jump i target s = modCore i (·.goTo target) s := rfl

/-- An instruction that changes its core and jumps. -/
theorem exec_jump {c : Instr} {i : Fin 40} {op : WOp} {s : State} (target : Word) (g : Core → Core)
    (hexec : exec c s = onDie (weevil i op) s) (h : atInstr i op s)
    (hu : execOp i op (fetched i s) = jump i target (modCore i g (fetched i s))) (hcyc : ∀ k : Core, (g k).cyc = k.cyc)
    (hhalt : ∀ k : Core, (g k).haltReq = k.haltReq) (hstep : ∀ k : Core, (g k).stepping = k.stepping) :
    EndsWith c i s (fun k => (g k).goTo target) :=
  exec_endsWith _ hexec h (by rw [hu, jump_eq, modCore_modCore]) (fun ic => by simp [Core.goTo, Core.spend, hcyc]) hhalt hstep

theorem exec_branch {c : Instr} {i : Fin 40} {op : WOp} {s : State} (taken : Bool) (disp : Word)
    (hexec : exec c s = onDie (weevil i op) s) (h : atInstr i op s)
    (hu : execOp i op (fetched i s) = wBranch i taken disp (fetched i s)) :
    ∃ t, exec c s = .next t ∧
      t.core i = { s.core i with
        pc := if taken then ((s.core i).pc + disp * 4) &&& 0xFFFFFFFC#32 else (s.core i).pc + 4
        icache := (t.core i).icache, cyc := (t.core i).cyc } ∧ coreOnly i s t := by
  cases taken with
  | true =>
    refine (exec_jump ((s.core i).pc + disp * 4) id hexec h ?_ (fun _ => rfl) (fun _ => rfl) (fun _ => rfl)).core_eq
      { s.core i with pc := ((s.core i).pc + disp * 4) &&& 0xFFFFFFFC#32 } (fun _ _ => rfl)
    rw [hu, wBranch, if_pos rfl, pc_fetched, show modCore i id (fetched i s) = fetched i s from setCore_self _ _]
  | false =>
    exact (exec_finish 1 id hexec h one_ne_zero hu (fun _ => rfl) (fun _ => rfl) (fun _ => rfl)).core_eq
      { s.core i with pc := (s.core i).pc + 4 } (fun _ _ => rfl)

/-! ### The return stack (R89) -/

/-- A word on top of the return stack. -/
def Core.pushed (v : Word) (k : Core) : Core := { k with rstack := v :: k.rstack }

theorem pushRet_room (i : Nat) (v : Word) (low : Nat) (s : State) (h : (s.core i).rstack.length < 32) :
    pushRet i v low s = (modCore i (·.pushed v) s, .ok ()) := by
  unfold pushRet
  dsimp only
  rw [if_pos h]
  rfl

theorem fillRet_held (i : Nat) (v : Word) (l : List Word) (s : State) (h : (s.core i).rstack = v :: l) : fillRet i s = (s, .ok v) := by
  unfold fillRet
  dsimp only
  rw [h]

/-- The return stack without its top. -/
def Core.popped (k : Core) : Core := { k with rstack := k.rstack.tail }

theorem popRet_held (i : Nat) (v : Word) (l : List Word) (s : State) (h : (s.core i).rstack = v :: l) :
    popRet i s = (modCore i Core.popped s, .ok v) := by
  unfold popRet
  rw [fillRet_held i v l s h]
  rfl

/-- The four words of a frame find room. -/
theorem pushRets_room (i low : Nat) (a b c d : Word) (s : State) (h : (s.core i).rstack.length ≤ 28) :
    pushRets i low [a, b, c, d] s = (modCore i (fun k => { k with rstack := d :: c :: b :: a :: k.rstack }) s, .ok ()) := by
  have hpush : ∀ (f : Core → Core) (v : Word), (f (s.core i)).rstack.length < 32 →
      pushRet i v low (modCore i f s) = (modCore i (fun k => (f k).pushed v) s, .ok ()) := by
    intro f v hf
    rw [pushRet_room i v low _ (by rw [core_modCore_same]; exact hf), modCore_modCore]
  simp only [pushRets]
  rw [pushRet_room i a low s (by omega)]
  dsimp only
  rw [hpush _ b (by simp only [Core.pushed, List.length_cons]; omega)]
  dsimp only
  rw [hpush _ c (by simp only [Core.pushed, List.length_cons]; omega)]
  dsimp only
  rw [hpush _ d (by simp only [Core.pushed, List.length_cons]; omega)]
  simp only [Core.pushed]

/-! ### Exceptions (R111) -/

/-- The core after it has taken an exception for which its return stack has room. -/
def Core.enter (e : Exc) (saved : Word) (k : Core) : Core :=
  { k with
    rstack := marker 1 k.level.val :: saved :: k.stat :: k.bstk :: k.rstack
    ecause := w32 ((if e.cause = .buserrW then 2 ^ 31 else 0) + e.code * 2 ^ 16 + e.cause.code)
    eaddr := match e.addr with | some a => w32 a | none => k.eaddr
    ie := false, bacc := false, bopen := false, bstk := 0, sup := true
    ovf := k.ovf || e.cause == .rstkOvf
    pc := k.vbase + w32 (16 * e.cause.code), cyc := (k.flush.spend 4).cyc }

theorem takeExc_room (i : Nat) (e : Exc) (saved : Word) (s : State) (he : e.cause ≠ .rstkOvf) (h : (s.core i).rstack.length ≤ 28) :
    takeExc i e saved s = modCore i (·.enter e saved) s := by
  rcases takeExc_cases i e saved s with ⟨hovf, -⟩ | ⟨t, x, hpush, -⟩ | ⟨t, u, hpush, htake⟩
  · exact absurd hovf he
  · rw [Core.frame, pushRets_room _ _ _ _ _ _ _ h] at hpush
    cases hpush
  · rw [Core.frame, pushRets_room _ _ _ _ _ _ _ h] at hpush
    obtain ⟨rfl, -⟩ := Prod.mk.inj hpush
    rw [htake, modCore_modCore]
    rfl

/-- An instruction that faults beside the bus leaves no effect. -/
theorem instrFault_plain (i : Nat) (e : Exc) (s0 s : State) (he : e.bus = none) (hpend : (s0.core i).pendW = []) :
    instrFault i e s0 s = takeExc i e (s0.core i).pc s0 := by
  unfold instrFault faultFirst
  rw [he]
  simp only [Option.isSome_none, Bool.false_eq_true, if_false, hpend]
  rfl

theorem excTaken_enter (k : Core) (ic : List (Nat × List Word)) (cy : Cycles) (e : Exc) (saved : Word) (hbus : e.bus = none)
    (hw : e.cause ≠ .buserrW) : excTaken e.cause.code saved k (((k.withLines ic).enter e saved).withCyc cy) := by
  have hcode : e.code = 0 := by unfold Exc.code; rw [hbus]
  refine ⟨rfl, ?_, rfl⟩
  show w32 _ = _
  rw [if_neg hw, hcode]
  simp

/-- An instruction that raises an exception beside the bus, with a saved PC. -/
theorem exec_raises {c : Instr} {i : Fin 40} {op : WOp} {s : State} (e : Exc) (saved : Word) (hexec : exec c s = onDie (weevil i op) s)
    (h : atInstr i op s) (hroom : (s.core i).rstack.length ≤ 28) (hovf : e.cause ≠ .rstkOvf)
    (hu : execOp i op (fetched i s) = takeExc i e saved (fetched i s)) : EndsWith c i s (·.enter e saved) := by
  refine exec_endsWith _ hexec h ?_ (fun ic => ?_) (fun _ => rfl) (fun _ => rfl)
  · rw [hu, takeExc_room _ _ _ _ hovf (by rw [rstack_fetched]; exact hroom)]
  · simp [Core.enter, Core.spend, Core.flush]

theorem EndsWith.taken {c : Instr} {i : Fin 40} {s : State} {e : Exc} {saved : Word} (h : EndsWith c i s (·.enter e saved))
    (hbus : e.bus = none) (hw : e.cause ≠ .buserrW) :
    ∃ t, exec c s = .next t ∧ excTaken e.cause.code saved (s.core i) (t.core i) ∧ coreOnly i s t := by
  obtain ⟨t, ic, cy, ht, hcore, honly⟩ := h
  exact ⟨t, ht, by rw [hcore]; exact excTaken_enter _ ic cy e saved hbus hw, honly⟩

/-- An instruction that faults with a cause beside the bus saves its own PC. -/
theorem exec_faults {c : Instr} {i : Fin 40} {op : WOp} {s t : State} (cause : Cause) (hexec : exec c s = onDie (weevil i op) s)
    (h : atInstr i op s) (hroom : (s.core i).rstack.length ≤ 28) (hovf : cause ≠ .rstkOvf) (hw : cause ≠ .buserrW)
    (hu : execOp i op (fetched i s) = instrFault i { cause := cause } (fetched i s) t) :
    ∃ t, exec c s = .next t ∧ excTaken cause.code (s.core i).pc (s.core i) (t.core i) ∧ coreOnly i s t := by
  refine (exec_raises (e := { cause := cause }) (s.core i).pc hexec h hroom hovf ?_).taken rfl hw
  rw [hu, instrFault_plain _ _ _ _ rfl (by rw [pendW_fetched]; exact pendW_of_atInstr h), pc_fetched]

/-- The conditions of BCC by their number. -/
theorem holds_listed (k : Core) (cond : Fin 15) :
    k.holds cond = [k.z, !k.z, k.c, !k.c, k.n, !k.n, k.v, !k.v, k.c && !k.z, !(k.c && !k.z), k.n == k.v, k.n != k.v,
      !k.z && k.n == k.v, !(!k.z && k.n == k.v), true].getD cond.val false := by
  fin_cases cond <;> simp [Core.holds]
  rfl

/-- JMP. -/
theorem exec_jmp (i : Fin 40) (a : Fin 16) (s : State) (h : atInstr i (.jmp a) s) :
    EndsWith (.jmp i a) i s (·.goTo ((s.core i).reg a)) := by
  refine exec_jump ((s.core i).reg a) id rfl h ?_ (fun _ => rfl) (fun _ => rfl) (fun _ => rfl)
  rw [← reg_fetched i s a, show modCore i id (fetched i s) = fetched i s from setCore_self _ _]
  rfl

theorem after_call (target v : Word) (k : Core) (ic : List (Nat × List Word)) (cy : Cycles) :
    (((k.withLines ic).pushed v).goTo target).withCyc cy
      = (({ k with pc := target &&& 0xFFFFFFFC#32, rstack := v :: k.rstack } : Core).withLines ic).withCyc cy := rfl

/-- A call with room on the return stack pushes the address after it and jumps. -/
theorem exec_calls {c : Instr} {i : Fin 40} {op : WOp} {s : State} (target : Word) (hexec : exec c s = onDie (weevil i op) s)
    (h : atInstr i op s) (hroom : (s.core i).rstack.length < 32)
    (hu : ∀ t, pushRet i ((s.core i).pc + 4) 0 (fetched i s) = (t, .ok ()) → execOp i op (fetched i s) = jump i target t) :
    ∃ t, exec c s = .next t ∧
      t.core i = { s.core i with pc := target &&& 0xFFFFFFFC#32, rstack := ((s.core i).pc + 4) :: (s.core i).rstack
                                 icache := (t.core i).icache, cyc := (t.core i).cyc } ∧ coreOnly i s t := by
  have hpush := hu _ (pushRet_room i ((s.core i).pc + 4) 0 (fetched i s) (by rw [rstack_fetched]; exact hroom))
  exact (exec_jump target (·.pushed ((s.core i).pc + 4)) hexec h hpush (fun _ => rfl) (fun _ => rfl) (fun _ => rfl)).core_eq _
    (after_call target _ _)

/-- What RET does once it has popped its target. -/
theorem execOp_ret (i : Fin 40) (v : Word) (l : List Word) (s : State) (h : (s.core i).rstack = v :: l) :
    execOp i .ret (fetched i s) = if v.toNat % 4 = 0 then jump i v (modCore i Core.popped (fetched i s))
      else instrFault i { cause := .retmis } (fetched i s) (modCore i Core.popped (fetched i s)) := by
  unfold execOp
  dsimp only
  rw [popRet_held i v l _ (by rw [rstack_fetched]; exact h)]

end Sys2Proof.Machine

namespace Sys2Proof.Proofs

open Sys2Proof.Machine

/-- Settles O28: a branch is a jump or goes on, a call is a jump after a push, a return a jump after a pop. -/
theorem branchesAndCalls : Obligations.BranchesAndCalls := by
  unfold Obligations.BranchesAndCalls
  refine ⟨?_, ?_, ?_, ?_, ?_, ?_, ?_, ?_⟩
  · intro i cond disp s h
    rw [← holds_listed (s.core i) cond, ← holds_fetched i s cond]
    exact exec_branch _ _ rfl h rfl
  · intro i disp s h
    have hbranch := exec_branch (((fetched i s).core i).bacc == true) (disp.signExtend 32) (c := .bjt i disp) rfl h rfl
    rw [bacc_fetched] at hbranch
    simpa using hbranch
  · intro i disp s h
    have hbranch := exec_branch (((fetched i s).core i).bacc == false) (disp.signExtend 32) (c := .bjf i disp) rfl h rfl
    rw [bacc_fetched] at hbranch
    simpa using hbranch
  · intro i a s h
    exact (exec_jmp i a s h).core_eq { s.core i with pc := (s.core i).reg a &&& 0xFFFFFFFC#32 } (fun _ _ => rfl)
  · intro i disp s h hroom
    refine exec_calls _ rfl h hroom fun t ht => ?_
    rw [← pc_fetched i s] at ht ⊢
    unfold execOp
    dsimp only
    rw [ht]
  · intro i a s h hroom
    refine exec_calls _ rfl h hroom fun t ht => ?_
    rw [← reg_fetched i s a]
    rw [← pc_fetched i s] at ht
    unfold execOp
    dsimp only
    rw [ht]
  · intro i v l s h hstack halign
    refine (exec_jump v Core.popped rfl h ?_ (fun _ => rfl) (fun _ => rfl) (fun _ => rfl)).core_eq
      { s.core i with pc := v, rstack := l } (fun ic cy => ?_)
    · rw [execOp_ret i v l s hstack, if_pos halign]
    · simp [Core.goTo, Core.popped, Core.spend, Core.withLines, Core.withCyc, hstack]
      exact and_aligned v halign
  · intro i v l s h hstack halign hroom
    exact exec_faults .retmis rfl h hroom (by decide) (by decide) ((execOp_ret i v l s hstack).trans (if_neg halign))

end Sys2Proof.Proofs
end

section
/-! Exceptions and the return from them, control registers and bit nesting (03_weevil_core R78 to R84, R111 to R113; 04_weevil_instructions
R137, R140). -/

namespace Sys2Proof.Machine

/-! ### The return from an exception -/

/-- Entries held on the return stack are popped without a fill. -/
theorem popRets_held (i : Nat) (a b c d : Word) (l : List Word) (s : State) (h : (s.core i).rstack = a :: b :: c :: d :: l) :
    popRets i 4 s = (modCore i (fun k => { k with rstack := l }) s, .ok [a, b, c, d]) := by
  have hheld : ∀ (f : Core → Core) (v : Word) (m : List Word), (f (s.core i)).rstack = v :: m →
      popRet i (modCore i f s) = (modCore i (fun k => (f k).popped) s, .ok v) := by
    intro f v m hf
    rw [popRet_held i v m _ (by rw [core_modCore_same]; exact hf), modCore_modCore]
  simp only [popRets]
  rw [popRet_held i a _ s h]
  dsimp only
  rw [hheld _ b (c :: d :: l) (by simp [Core.popped, h])]
  dsimp only
  rw [hheld _ c (d :: l) (by simp [Core.popped, h])]
  dsimp only
  rw [hheld _ d l (by simp [Core.popped, h])]
  simp [modCore, Core.popped, h]

/-- The core after RFE has popped a frame. -/
def Core.restored (pc st bs : Word) (k : Core) : Core :=
  { k.setFlags st with
    ie := st.getLsbD 1, sup := st.getLsbD 0, bstk := cleanBstk bs, pc := pc &&& ~~~3#32, ovf := false
    cyc := (k.flush.spend 4).cyc }

theorem returnExc_held (i : Nat) (pc st bs : Word) (l : List Word) (s : State)
    (h : (s.core i).rstack = marker 1 (s.core i).level.val :: pc :: st :: bs :: l) :
    returnExc i s = modCore i (fun k => ({ k with rstack := l } : Core).restored pc st bs) s := by
  unfold returnExc
  rw [fillRet_held i _ _ s h]
  dsimp only
  rw [if_neg (by simp), popRets_held i _ _ _ _ _ s h]
  dsimp only
  rw [modCore_modCore]
  rfl

/-- A privileged instruction in supervisor mode, and in user mode. -/
theorem privileged_sup (i : Nat) (f : State → State) (s : State) (h : (s.core i).sup = true) : privileged i f s = f s := if_pos h

theorem privileged_user (i : Nat) (f : State → State) (s : State) (h : (s.core i).sup = false) :
    privileged i f s = instrFault i { cause := .privop } s s := if_neg (by rw [h]; decide)

theorem exec_rfe (i : Fin 40) (pc st bs : Word) (l : List Word) (s : State) (h : atInstr i .rfe s) (hsup : (s.core i).sup = true)
    (hstack : (s.core i).rstack = marker 1 (s.core i).level.val :: pc :: st :: bs :: l) :
    EndsWith (.rfe i) i s (fun k => ({ k with rstack := l } : Core).restored pc st bs) := by
  refine exec_endsWith _ rfl h ?_ (fun ic => ?_) (fun _ => rfl) (fun _ => rfl)
  · refine (privileged_sup i _ _ (by rw [sup_fetched]; exact hsup)).trans (returnExc_held i pc st bs l _ ?_)
    rw [core_fetched]
    exact hstack
  · simp [Core.restored, Core.spend, Core.flush]

/-! ### A word that is no instruction (R119) -/

theorem runCore_undefined {i : Fin 40} {want : WOp → Bool} {w : Word} {s : State} (hrun : (s.core i).st = .run)
    (hpend : (s.core i).pendW = []) (hwait : waitsRead s i = false) (hword : (fetch i (quiet s)).2.toOption = some w)
    (hdecode : decodeW w = none) :
    runCore i want (quiet s) = instrDone i (instrFault i { cause := .illegal } (fetched i s) (fetched i s)) := by
  have hfetch : fetch i (quiet s) = (fetched i s, .ok w) := by
    unfold fetched
    revert hword
    cases fetch i (quiet s) with
    | mk t r =>
      cases r with
      | error e => intro h; cases h
      | ok v => intro h; cases h; rfl
  have hstands : ¬ (((quiet s).core i).st ≠ .run ∨ waitsRead (quiet s) i) := by
    rintro (hst | hst)
    · exact hst hrun
    · rw [show waitsRead (quiet s) i = waitsRead s i from rfl, hwait] at hst; cases hst
  unfold runCore
  rw [if_neg hstands, show ((quiet s).core i).pendW = [] from hpend]
  dsimp only
  rw [hfetch]
  dsimp only
  rw [hdecode]

theorem undefined_taken (i : Fin 40) (w : Word) (s : State) (hlive : live s = true) (hcalm : calm s (fetched i s) = true)
    (hrun : (s.core i).st = .run) (hhalt : (s.core i).haltReq = false) (hpend : (s.core i).pendW = []) (hwait : waitsRead s i = false)
    (hword : (fetch i (quiet s)).2.toOption = some w) (hdecode : decodeW w = none) (hroom : (s.core i).rstack.length ≤ 28) :
    ∃ t, exec (.undefinedEncoding i) s = .next t ∧ excTaken 3 (s.core i).pc (s.core i) (t.core i) ∧ coreOnly i s t := by
  have heffect : runCore i (fun _ => false) (quiet s) = modCore i (·.enter { cause := .illegal } (s.core i).pc) (fetched i s) := by
    rw [runCore_undefined hrun hpend hwait hword hdecode, instrFault_plain _ _ _ _ rfl (by rw [pendW_fetched]; exact hpend), pc_fetched,
      takeExc_room _ _ _ _ (by decide) (by rw [rstack_fetched]; exact hroom), instrDone, core_modCore_same, core_fetched]
    exact if_neg (Bool.eq_false_iff.mp hhalt)
  refine ⟨settled s (modCore i (·.enter { cause := .illegal } (s.core i).pc) (fetched i s)), ?_, ?_, coreOnly_modCore i _ s⟩
  · show onDie (runCore i fun _ => false) s = _
    rw [onDie_calm _ _ hlive, heffect]
    rw [heffect, calm_quiet_left]
    exact calm_modCore i _ (stepping_of_calm i hcalm) hcalm
  · rw [core_settled, core_modCore_same, core_fetched]
    exact excTaken_enter (s.core i) _ _ { cause := .illegal } _ rfl (by decide)

end Sys2Proof.Machine

namespace Sys2Proof.Proofs

open Sys2Proof.Machine

/-- Settles O32: every cause enters by `takeExc`, and RFE pops the frame that it pushed. -/
theorem exceptionsAndReturn : Obligations.ExceptionsAndReturn := by
  unfold Obligations.ExceptionsAndReturn
  refine ⟨?_, ?_, ?_, ?_, ?_, ?_⟩
  · intro i n s h hroom
    obtain ⟨t, ic, cy, ht, hcore, honly⟩ := exec_raises (c := .trap i n) { cause := .trap, addr := some n.toNat } ((s.core i).pc + 4) rfl h
      hroom (by simp) (by rw [← pc_fetched i s]; rfl)
    refine ⟨t, ht, ?_, ?_, honly⟩ <;> rw [hcore]
    · exact excTaken_enter _ ic cy _ _ rfl (by simp)
    · rfl
  · intro i s h hroom
    exact (exec_raises { cause := .brk } ((s.core i).pc + 4) rfl h hroom (by decide) (by rw [← pc_fetched i s]; rfl)).taken rfl (by decide)
  · intro i m pc st bs l s h hsup hstack hm
    obtain ⟨t, ic, cy, ht, hcore, honly⟩ := exec_rfe i pc st bs l s h hsup (hm ▸ hstack)
    refine ⟨t, ht, ?_, ?_, ?_, ?_, ?_, ?_, ?_, ?_, ?_, ?_, ?_, ?_, ?_, ?_, honly⟩ <;> rw [hcore] <;> rfl
  · intro i s h hsup hroom
    exact exec_faults .privop rfl h hroom (by decide) (by decide) (privileged_user i _ _ (by rw [sup_fetched]; exact hsup))
  · intro i s h hsup hroom
    exact exec_faults .privop rfl h hroom (by decide) (by decide) (privileged_user i _ _ (by rw [sup_fetched]; exact hsup))
  · intro i w s hlive hcalm hrun hhalt hpend hwait hword hdecode hroom
    exact undefined_taken i w s hlive hcalm hrun hhalt hpend hwait hword hdecode hroom

end Sys2Proof.Proofs
end

section
/-! Control registers (03_weevil_core R78 to R84; 04_weevil_instructions R140). -/

namespace Sys2Proof.Machine

/-- The control registers that a core holds, by their number. -/
theorem readControl_held (i c : Nat) (s : State) (hc : c < 16 ∧ c ≠ 1 ∧ c ≠ 2 ∧ c ≠ 14) :
    readControl i c s = [(s.core i).stat, 0, 0, (s.core i).ecause, (s.core i).eaddr, (s.core i).bstk, (s.core i).dsp, (s.core i).dsb,
      (s.core i).dsl, (s.core i).rsp, (s.core i).rsb, (s.core i).rsl, (s.core i).vbase, (s.core i).item, 0, (s.core i).sscr].getD c 0 := by
  obtain rfl | rfl | rfl | rfl | rfl | rfl | rfl | rfl | rfl | rfl | rfl | rfl | rfl : c = 0 ∨ c = 3 ∨ c = 4 ∨ c = 5 ∨ c = 6 ∨ c = 7
      ∨ c = 8 ∨ c = 9 ∨ c = 10 ∨ c = 11 ∨ c = 12 ∨ c = 13 ∨ c = 15 := by omega
  all_goals rfl

/-- A pointer within own-reach memory is held but for its low bits (R82). -/
theorem pointer_within (v : Word) (h : v.toNat ≤ 0xFFFFF) : pointer v = v &&& 0xFFFFFFFC#32 := by
  rw [and_wordAddress, pointer, min_eq_left h]

theorem putPointer_within (i c : Nat) (v : Word) (f : Word → Core → Core) (s : State) (h : v.toNat ≤ 0xFFFFF) :
    putPointer i c v f s = modCore i (f (v &&& 0xFFFFFFFC#32)) s := by
  unfold putPointer
  rw [pointer_within v h]
  exact if_neg (by omega)

theorem spillData_empty (i n : Nat) (s : State) (h : (s.core i).dstack = []) : spillData i n s = (s, .ok ()) := by
  cases n with
  | zero => rfl
  | succ n => unfold spillData; simp [h]

theorem spillRet_empty (i n : Nat) (s : State) (h : (s.core i).rstack = []) : spillRet i n s = (s, .ok ()) := by
  cases n with
  | zero => rfl
  | succ n => unfold spillRet; simp [h]

/-- The base of the exception entries is a multiple of 256 (R81). -/
theorem and_pageAddress (v : Word) : v &&& 0xFFFFFF00#32 = w32 (v.toNat / 256 * 256) := and_highBits v _ 8 (by decide)

/-! ### MFC -/

theorem exec_mfc (i : Fin 40) (d : Fin 16) (c : BitVec 8) (s : State) (h : atInstr i (.mfc d c) s)
    (hmay : (s.core i).sup = true ∨ userMay c.toNat = true) (hc : c.toNat < 16) :
    ∃ t, exec (.mfc i d c) s = .next t ∧ wrote d (readControl i c.toNat (fetched i s)) (s.core i) (t.core i) ∧
      flagged false 0 false false (s.core i) (t.core i) ∧ coreOnly i s t := by
  refine exec_value 1 d _ rfl h one_ne_zero ?_
  show doMfc i d c.toNat (fetched i s) = _
  unfold doMfc
  rw [if_neg (by omega), sup_fetched, if_neg (by rcases hmay with hmay | hmay <;> simp [hmay])]

/-- A number that names no control register. -/
theorem doMfc_unnamed (i : Nat) (d : Fin 16) (c : Nat) (s : State) (hc : 16 ≤ c) : doMfc i d c s = instrFault i { cause := .illegal } s s :=
  if_pos hc

/-- A control register that user mode may not name. -/
theorem doMfc_user (i : Nat) (d : Fin 16) (c : Nat) (s : State) (hc : c < 16) (hsup : (s.core i).sup = false) (hmay : userMay c = false) :
    doMfc i d c s = instrFault i { cause := .privop } s s := by
  unfold doMfc
  rw [if_neg (by omega), if_pos (by simp [hsup, hmay])]

/-! ### MTC -/

theorem doMtc_user (i c : Nat) (a : Fin 16) (s : State) (hc : c < 16) (hsup : (s.core i).sup = false) (hmay : userMay c = false) :
    doMtc i c a s = instrFault i { cause := .privop } s s := by
  unfold doMtc
  simp only
  rw [if_neg (by omega), if_pos (by simp [hsup]), if_pos (by simp [hmay])]

/-- MTC in supervisor mode of a register that is a part of the core. -/
theorem exec_mtc {i : Fin 40} {c : BitVec 8} {a : Fin 16} {s : State} (h : atInstr i (.mtc c a) s) (hsup : (s.core i).sup = true)
    (hc : c.toNat < 16) (g : Core → Core)
    (hw : writeControl i c.toNat ((s.core i).reg a) (fetched i s) = (modCore i g (fetched i s), .ok ()))
    (hcyc : ∀ k : Core, (g k).cyc = k.cyc) (hhalt : ∀ k : Core, (g k).haltReq = k.haltReq)
    (hstep : ∀ k : Core, (g k).stepping = k.stepping) : EndsWith (.mtc i c a) i s (fun k => ((g k).next).spend 1) := by
  refine exec_endsWith _ rfl h ?_ (fun ic => by simp [Core.spend, Core.next, hcyc]) hhalt hstep
  show doMtc i c.toNat a (fetched i s) = _
  unfold doMtc
  simp only
  rw [if_neg (by omega), sup_fetched, hsup, if_neg (by decide), reg_fetched, hw]
  exact modCore_modCore i g _ _

/-- MTC of a pointer register with an own-reach address. -/
theorem exec_mtcPointer {i : Fin 40} {c : BitVec 8} {a : Fin 16} {s : State} (h : atInstr i (.mtc c a) s) (hsup : (s.core i).sup = true)
    (hc : c.toNat < 16) (hv : ((s.core i).reg a).toNat ≤ 0xFFFFF) (f : Word → Core → Core)
    (hw : writeControl i c.toNat ((s.core i).reg a) (fetched i s) = (putPointer i c.toNat ((s.core i).reg a) f (fetched i s), .ok ()))
    (hcyc : ∀ p, ∀ k : Core, (f p k).cyc = k.cyc) (hhalt : ∀ p, ∀ k : Core, (f p k).haltReq = k.haltReq)
    (hstep : ∀ p, ∀ k : Core, (f p k).stepping = k.stepping) :
    EndsWith (.mtc i c a) i s (fun k => ((f ((s.core i).reg a &&& 0xFFFFFFFC#32) k).next).spend 1) :=
  exec_mtc h hsup hc _ (by rw [hw, putPointer_within _ _ _ _ _ hv]) (hcyc _) (hhalt _) (hstep _)

theorem writeControl_dsp (i : Nat) (v : Word) (s : State) (h : (s.core i).dstack = []) :
    writeControl i 6 v s = (putPointer i 6 v (fun p k => { k with dsp := p }) s, .ok ()) := by
  unfold writeControl
  rw [spillData_empty _ _ _ h]
  rfl

theorem writeControl_rsp (i : Nat) (v : Word) (s : State) (h : (s.core i).rstack = []) :
    writeControl i 9 v s = (putPointer i 9 v (fun p k => { k with rsp := p }) s, .ok ()) := by
  unfold writeControl
  rw [spillRet_empty _ _ _ h]
  rfl

/-- BSTK is written as it is where no entry follows an empty one (R80). -/
theorem writeControl_bstk (i : Nat) (v : Word) (s : State) (h : cleanBstk v = v) :
    writeControl i 5 v s = (modCore i (fun k => { k with bstk := v }) s, .ok ()) := by
  show (if cleanBstk v = v then modCore i (fun k => { k with bstk := cleanBstk v }) s else _, Except.ok ()) = _
  rw [if_pos h, h]

end Sys2Proof.Machine

namespace Sys2Proof.Proofs

open Sys2Proof.Machine

/-- Settles O33: a control register is a part of the core, and an MTC that names one changes that part. -/
theorem controlRegisters : Obligations.ControlRegisters := by
  unfold Obligations.ControlRegisters
  refine ⟨?_, ?_, ?_, ?_, ?_, ?_, ?_, ?_, ?_, ?_, ?_, ?_, ?_, ?_⟩
  · intro i d c s h hmay hc
    have hread := exec_mfc i d c s h hmay hc.1
    rw [readControl_held _ _ _ hc, core_fetched] at hread
    exact hread
  · intro i d c s h hc hroom
    exact exec_faults .illegal rfl h hroom (by decide) (by decide) (doMfc_unnamed _ _ _ _ hc)
  · intro i d c s h hc hsup hmay hroom
    exact exec_faults .privop rfl h hroom (by decide) (by decide) (doMfc_user _ _ _ _ hc (by rw [sup_fetched]; exact hsup) hmay)
  · rintro i _ a s h hsup rfl
    exact (exec_mtc h hsup (by decide) _ rfl (fun _ => rfl) (fun _ => rfl) (fun _ => rfl)).core_eq
      { ((s.core i).setFlags ((s.core i).reg a)) with
        ie := ((s.core i).reg a).getLsbD 1, sup := ((s.core i).reg a).getLsbD 0, pc := (s.core i).pc + 4 } (fun _ _ => rfl)
  · rintro i _ a s h hsup rfl hclean
    exact (exec_mtc h hsup (by decide) _ (writeControl_bstk _ _ _ hclean) (fun _ => rfl) (fun _ => rfl) (fun _ => rfl)).core_eq
      { s.core i with bstk := (s.core i).reg a, pc := (s.core i).pc + 4 } (fun _ _ => rfl)
  · rintro i _ a s h hsup rfl hempty hv
    exact (exec_mtcPointer h hsup (by decide) hv (fun p k => { k with dsp := p })
      (writeControl_dsp _ _ _ (by rw [core_fetched]; exact hempty)) (fun _ _ => rfl) (fun _ _ => rfl)
      (fun _ _ => rfl)).core_eq { s.core i with dsp := (s.core i).reg a &&& 0xFFFFFFFC#32, pc := (s.core i).pc + 4 } (fun _ _ => rfl)
  · rintro i _ a s h hsup rfl hv
    exact (exec_mtcPointer h hsup (by decide) hv (fun p k => { k with dsb := p }) rfl (fun _ _ => rfl) (fun _ _ => rfl)
      (fun _ _ => rfl)).core_eq { s.core i with dsb := (s.core i).reg a &&& 0xFFFFFFFC#32, pc := (s.core i).pc + 4 } (fun _ _ => rfl)
  · rintro i _ a s h hsup rfl hv
    exact (exec_mtcPointer h hsup (by decide) hv (fun p k => { k with dsl := p }) rfl (fun _ _ => rfl) (fun _ _ => rfl)
      (fun _ _ => rfl)).core_eq { s.core i with dsl := (s.core i).reg a &&& 0xFFFFFFFC#32, pc := (s.core i).pc + 4 } (fun _ _ => rfl)
  · rintro i _ a s h hsup rfl hempty hv
    exact (exec_mtcPointer h hsup (by decide) hv (fun p k => { k with rsp := p })
      (writeControl_rsp _ _ _ (by rw [rstack_fetched]; exact hempty)) (fun _ _ => rfl) (fun _ _ => rfl)
      (fun _ _ => rfl)).core_eq { s.core i with rsp := (s.core i).reg a &&& 0xFFFFFFFC#32, pc := (s.core i).pc + 4 } (fun _ _ => rfl)
  · rintro i _ a s h hsup rfl hv
    exact (exec_mtcPointer h hsup (by decide) hv (fun p k => { k with rsb := p }) rfl (fun _ _ => rfl) (fun _ _ => rfl)
      (fun _ _ => rfl)).core_eq { s.core i with rsb := (s.core i).reg a &&& 0xFFFFFFFC#32, pc := (s.core i).pc + 4 } (fun _ _ => rfl)
  · rintro i _ a s h hsup rfl hv
    exact (exec_mtcPointer h hsup (by decide) hv (fun p k => { k with rsl := p }) rfl (fun _ _ => rfl) (fun _ _ => rfl)
      (fun _ _ => rfl)).core_eq { s.core i with rsl := (s.core i).reg a &&& 0xFFFFFFFC#32, pc := (s.core i).pc + 4 } (fun _ _ => rfl)
  · rintro i _ a s h hsup rfl
    rw [and_pageAddress]
    exact (exec_mtc h hsup (by decide) _ rfl (fun _ => rfl) (fun _ => rfl) (fun _ => rfl)).core_eq
      { s.core i with vbase := w32 (((s.core i).reg a).toNat / 256 * 256), pc := (s.core i).pc + 4 } (fun _ _ => rfl)
  · rintro i _ a s h hsup rfl
    exact (exec_mtc h hsup (by decide) _ rfl (fun _ => rfl) (fun _ => rfl) (fun _ => rfl)).core_eq
      { s.core i with sscr := (s.core i).reg a, pc := (s.core i).pc + 4 } (fun _ _ => rfl)
  · intro i c a s h hc hsup hmay hroom
    exact exec_faults .privop rfl h hroom (by decide) (by decide) (doMtc_user _ _ _ _ hc (by rw [sup_fetched]; exact hsup) hmay)

end Sys2Proof.Proofs
end

section
/-! Accesses of a core to memory that pass every check, and loads (03_weevil_core R85, R95; 04_weevil_instructions R129, R133;
08_banks_mailboxes R250, R253). -/

namespace Sys2Proof.Machine

/-! ### Numbers in memory -/

theorem leNat_lt (bs : List Byte) : leNat bs < 256 ^ bs.length := by
  induction bs with
  | nil => simp [leNat]
  | cons b t ih =>
    have hb := b.isLt
    rw [leNat, List.length_cons, pow_succ]
    omega

theorem memNat_lt (s : State) (a n : Nat) : memNat s a n < 256 ^ n := by
  have h := leNat_lt (bytesAt s a n)
  rwa [length_bytesAt] at h

/-- A number in memory depends on the memory list alone. -/
theorem memNat_congr {s t : State} (h : t.mem = s.mem) (a n : Nat) : memNat t a n = memNat s a n := by
  unfold memNat bytesAt
  simp only [byteAt_congr h]

/-- One byte as a number. -/
theorem memNat_byte (s : State) (a : Nat) : memNat s a 1 = (byteAt s a).toNat := by
  simp [memNat, bytesAt, leNat]

@[simp] theorem mem_fetched (i : Fin 40) (s : State) : (fetched i s).mem = s.mem := by rw [(fetched_keeps i s).rest]; rfl

@[simp] theorem memNat_fetched (i : Fin 40) (s : State) (a n : Nat) : memNat (fetched i s) a n = memNat s a n :=
  memNat_congr (mem_fetched i s) a n

@[simp] theorem byteAt_fetched (i : Fin 40) (s : State) (a : Nat) : byteAt (fetched i s) a = byteAt s a := byteAt_congr (mem_fetched i s) a

@[simp] theorem effAddr_fetched (i : Fin 40) (s : State) (b : Fin 16) (disp : Word) :
    effAddr ((fetched i s).core i) b disp = effAddr (s.core i) b disp := by
  unfold effAddr; rw [reg_fetched]

/-! ### Loaded values (R133) -/

theorem loadValue_zeros (n v : Nat) (h : v < 256 ^ n) : loadValue n false (leBytes n v) = w32 v := by
  unfold loadValue
  rw [leNat_leBytes, Nat.mod_eq_of_lt h]
  rfl

theorem loadValue_signs (n v : Nat) (hn : 0 < n) (hn4 : n < 4) (h : v < 256 ^ n) :
    loadValue n true (leBytes n v) = (BitVec.ofNat (8 * n) v).signExtend 32 := by
  have hpow : 256 ^ n = 2 ^ (8 * n) := by rw [pow_mul]; rfl
  have hlt : v < 2 ^ (8 * n) := hpow ▸ h
  have hle : 2 ^ (8 * n) ≤ 2 ^ 24 := Nat.pow_le_pow_right (by decide) (by omega)
  have hmsb : (BitVec.ofNat (8 * n) v).msb = decide (2 ^ (8 * n - 1) ≤ v) := by
    rw [BitVec.msb_eq_decide, BitVec.toNat_ofNat, Nat.mod_eq_of_lt hlt]
  apply BitVec.eq_of_toNat_eq
  rw [BitVec.toNat_signExtend, hmsb, BitVec.toNat_setWidth, BitVec.toNat_ofNat, Nat.mod_eq_of_lt hlt]
  unfold loadValue
  rw [leNat_leBytes, Nat.mod_eq_of_lt h]
  by_cases hv : 2 ^ (8 * n - 1) ≤ v
  · simp [hv, w32]
    omega
  · simp [hv, w32]

/-! ### Own-reach accesses that pass every check -/

theorem wakeTouch_awake (n : Nat) (s : State) (h : getF s (F.RCH_PWR_PSTATE n) = 0) : wakeTouch n s = s := by
  unfold wakeTouch
  rw [if_neg (by omega)]

theorem barred_wet (s : State) (n id : Nat) (h : reachState s n = 0) : barred s n id = false := by
  unfold barred
  simp [h]

theorem ownRead_clear {s : State} {i a n off : Nat} {writes : Bool} (h : ownClear s i a n writes off) :
    ownRead i a n s = (s, .ok (memNat s (reachAddr (i / 8) off) n)) := by
  obtain ⟨-, -, htarget, -, hwet, hawake, hgate, hecc, -⟩ := h
  unfold ownRead
  rw [htarget]
  show reachRead (i / 8) off n ⟨i, false, none⟩ s = _
  unfold reachRead
  rw [wakeTouch_awake _ _ hawake]
  simp only [barred_wet _ _ _ hwet, hgate, hecc]
  simp

/-! ### Loads -/

theorem doLoad_own {s : State} {i : Nat} {op : LoadOp} {d : Fin 16} {ea off : Nat} (h : ownClear s i ea op.size false off) :
    doLoad i op d ea s
      = finish i 2 (fun k => k.setReg d (loadValue op.size op.sx (leBytes op.size (memNat s (reachAddr (i / 8) off) op.size)))) s := by
  have hread := ownRead_clear h
  obtain ⟨hcheck, hown, -⟩ := h
  unfold doLoad
  simp only
  rw [hcheck]
  simp only
  rw [if_pos hown, hread]

/-- A load from own-reach memory gives the value there. -/
theorem exec_loadOwn {c : Instr} {i : Fin 40} {s : State} {op : LoadOp} {d b : Fin 16} {disp : BitVec 16} {off : Nat} (v : Word)
    (hexec : exec c s = onDie (weevil i (.load op d b disp)) s) (h : atInstr i (.load op d b disp) s)
    (hclear : ownClear (fetched i s) i (effAddr (s.core i) b (disp.signExtend 32)) op.size false off)
    (hv : loadValue op.size op.sx (leBytes op.size (memNat s (reachAddr (i / 8) off) op.size)) = v) :
    ∃ t, exec c s = .next t ∧ wrote d v (s.core i) (t.core i) ∧ flagged false 0 false false (s.core i) (t.core i) ∧ coreOnly i s t := by
  refine exec_value 2 d v hexec h two_ne_zero ?_
  show doLoad i op d _ (fetched i s) = _
  rw [effAddr_fetched, doLoad_own hclear, memNat_fetched, hv]

/-! ### A load from the image store, with nothing to store before it (R95) -/

theorem drainAll_empty (i n : Nat) (s : State) (hempty : (s.core i).sbuf = []) (hheld : heldFor s i = false)
    (hrun : (s.core i).st = .run) : drainAll i n s = (s, true) := by
  have hone : drainOne i s = (s, true) := by
    unfold drainOne
    rw [if_neg (by rw [hheld]; decide), hempty]
  cases n with
  | zero => rfl
  | succ n =>
    unfold drainAll
    rw [hone]
    simp [sameInstr, hrun, hempty]

theorem target_image (s : State) (id a : Nat) (h : 0x30000000 ≤ a ∧ a < 0x30100000) : target s id a = .image (a - 0x30000000) := by
  unfold target
  rw [if_neg (by omega), if_neg (by omega), if_neg (by omega), if_pos h]

/-- Nothing holds an access to the image store. -/
theorem holdAccess_image (who : Who) (a : Nat) (isWr : Bool) (s : State) (h : 0x30000000 ≤ a ∧ a < 0x30100000) :
    holdAccess who a isWr s = (s, false) := by
  unfold holdAccess
  simp only
  rw [if_neg (by omega), if_neg (by omega)]

theorem memTargetRead_image (off n : Nat) (who : Who) (s : State) (hecc : eccOf s (0x30000000 + off) n = 0) :
    memTargetRead (.image off) n who s = (s, .ok (memNat s (0x30000000 + off) n)) := by
  unfold memTargetRead
  simp only
  rw [if_neg (by rw [hecc]; decide)]

theorem load_image (who : Who) (use : ReadFor) (a n : Nat) (s : State) (ha : 0x30000000 ≤ a ∧ a < 0x30100000)
    (hon : s.cfg.halted = false) (hecc : eccOf s a n = 0) : load who use a n s = (s, .ok (leBytes n (memNat s a n))) := by
  have hread := memTargetRead_image (a - 0x30000000) n who s
  rw [Nat.add_sub_cancel' ha.1] at hread
  unfold load localLoad
  rw [target_image s who.id a ha]
  simp only
  rw [holdAccess_image who a false s ha]
  simp only
  rw [target_image s who.id a ha, hon]
  simp only [Bool.false_eq_true, if_false]
  rw [hread hecc]

@[simp] theorem heldFor_fetched (i : Fin 40) (s : State) (id : Nat) : heldFor (fetched i s) id = heldFor s id := by
  rw [(fetched_keeps i s).rest]; rfl

theorem exec_loadImage (i : Fin 40) (d b : Fin 16) (disp : BitVec 16) (s : State) (h : atInstr i (.load .ldw d b disp) s)
    (hempty : (s.core i).sbuf = []) (hheld : heldFor s i = false)
    (ha : 0x30000000 ≤ effAddr (s.core i) b (disp.signExtend 32) ∧ effAddr (s.core i) b (disp.signExtend 32) < 0x30100000)
    (hcheck : accessCheck (fetched i s) i (effAddr (s.core i) b (disp.signExtend 32)) 4 false = none)
    (hecc : eccOf (fetched i s) (effAddr (s.core i) b (disp.signExtend 32)) 4 = 0) :
    ∃ t, exec (.ldw i d b disp) s = .next t ∧ wrote d (w32 (memNat s (effAddr (s.core i) b (disp.signExtend 32)) 4)) (s.core i) (t.core i) ∧
      flagged false 0 false false (s.core i) (t.core i) ∧ coreOnly i s t := by
  have hrun : ((fetched i s).core i).st = .run := by
    obtain ⟨-, hrun, -⟩ := h
    rw [core_fetched]
    exact hrun
  have hon : (fetched i s).cfg.halted = false := by
    have hlive : live s = true := h.1
    rw [(fetched_keeps i s).rest]
    simp only [live, Bool.and_eq_true, Bool.not_eq_true'] at hlive
    exact hlive.2
  refine exec_value 2 d _ rfl h two_ne_zero ?_
  show doLoad i .ldw d _ (fetched i s) = _
  rw [effAddr_fetched]
  unfold doLoad
  simp only
  rw [show LoadOp.ldw.size = 4 from rfl, hcheck]
  simp only
  rw [if_neg (by omega), drainAll_empty _ _ _ (by rw [core_fetched]; exact hempty) (by rw [heldFor_fetched]; exact hheld) hrun]
  simp only
  rw [load_image _ _ _ _ _ ha hon hecc]
  simp only
  rw [show LoadOp.ldw.sx = false from rfl, loadValue_zeros 4 _ (memNat_lt _ _ _), memNat_fetched]

end Sys2Proof.Machine

namespace Sys2Proof.Proofs

open Sys2Proof.Machine

/-- Settles O26: a load that passes the checks reads the number at its address, extended as its operation tells. -/
theorem loads : Obligations.Loads := by
  unfold Obligations.Loads
  refine ⟨?_, ?_, ?_, ?_, ?_, exec_loadImage⟩
  · intro i d b disp off s h hclear
    exact exec_loadOwn _ rfl h hclear (loadValue_zeros 4 _ (memNat_lt _ _ _))
  · intro i d b disp off s h hclear
    exact exec_loadOwn _ rfl h hclear (loadValue_signs 2 _ (by decide) (by decide) (memNat_lt _ _ _))
  · intro i d b disp off s h hclear
    exact exec_loadOwn _ rfl h hclear (loadValue_zeros 2 _ (memNat_lt _ _ _))
  · intro i d b disp off s h hclear
    exact exec_loadOwn _ rfl h hclear ((loadValue_signs 1 _ (by decide) (by decide) (memNat_lt _ _ _)).trans (by rw [memNat_byte]; simp))
  · intro i d b disp off s h hclear
    exact exec_loadOwn _ rfl h hclear ((loadValue_zeros 1 _ (memNat_lt _ _ _)).trans (by rw [memNat_byte, w32, BitVec.ofNat_toNat]))

end Sys2Proof.Proofs
end

section
/-! Writes of a core to own-reach memory: stores and the bit operations that write (03_weevil_core R85, R95; 04_weevil_instructions R130,
R134, R135; 07_lockkeeper R165; 08_banks_mailboxes R250). -/

namespace Sys2Proof.Machine

/-! ### What a write leaves -/

/-- What a write to reach memory leaves as it is: all but memory, the words with an error, and the marks of lines written. -/
def WriteKeeps (s t : State) : Prop :=
  t = { s with
    mem := t.mem, ecc := t.ecc, rot := { s.rot with fill := t.rot.fill }
    scan := { s.scan with clean0 := t.scan.clean0, clean1 := t.scan.clean1 }, pair := { s.pair with track := t.pair.track } }

theorem WriteKeeps.refl (s : State) : WriteKeeps s s := rfl

theorem WriteKeeps.trans {s t u : State} (h : WriteKeeps s t) (g : WriteKeeps t u) : WriteKeeps s u := by
  unfold WriteKeeps at h g ⊢
  rw [h] at g
  exact g

theorem WriteKeeps.core {s t : State} (h : WriteKeeps s t) (i : Nat) : t.core i = s.core i := by
  unfold WriteKeeps at h
  rw [h]; rfl

theorem WriteKeeps.rd {s t : State} (h : WriteKeeps s t) (a : Nat) : rd t a = rd s a := by
  unfold WriteKeeps at h
  rw [h]; rfl

/-- A write to reach memory leaves a device at rest. -/
theorem WriteKeeps.calm {before s t : State} (h : WriteKeeps s t) (hcalm : calm before s = true) : calm before t = true := by
  unfold WriteKeeps at h
  rw [h]
  exact hcalm

/-- The marks of a line written change no memory. -/
theorem markDirty_keeps (n line : Nat) (s : State) : WriteKeeps s (markDirty n line s) ∧ (markDirty n line s).mem = s.mem := by
  unfold markDirty
  simp only
  repeat' split
  all_goals exact ⟨rfl, rfl⟩

/-- The memory list after a store depends on that before alone. -/
theorem mem_putBytes_congr (bs : List Byte) (a : Nat) {s t : State} (h : t.mem = s.mem) : (putBytes a bs t).mem = (putBytes a bs s).mem := by
  induction bs generalizing a s t with
  | nil => exact h
  | cons b l ih => exact ih (a + 1) (by unfold setByte; simp only [h])

theorem reachPut_keeps (n off : Nat) (bs : List Byte) (s : State) :
    WriteKeeps s (reachPut n off bs s) ∧ (reachPut n off bs s).mem = (putBytes (reachAddr n off) bs s).mem := by
  have hbytes : WriteKeeps s (putBytes (reachAddr n off) bs s) := by
    obtain ⟨m, hm⟩ := putBytes_eq bs (reachAddr n off) s
    rw [hm]
    rfl
  unfold reachPut
  simp only
  split
  · exact ⟨hbytes, rfl⟩
  · refine each_keeps (fun t => WriteKeeps s t ∧ t.mem = (putBytes (reachAddr n off) bs s).mem) _ _ ?_ _ ⟨hbytes, rfl⟩
    rintro line t ⟨hkeeps, hmem⟩
    obtain ⟨hmark, hsame⟩ := markDirty_keeps n line t
    exact ⟨hkeeps.trans hmark, hsame.trans hmem⟩

/-- A write that passes every check puts its bytes at its address. -/
theorem ownWrite_clear {s : State} {i a n off : Nat} (v : Nat) (h : ownClear s i a n true off) (hn : 0 < n) (hn8 : n < 8) :
    ∃ t, ownWrite i a n v s = (t, .ok ()) ∧ WriteKeeps s t ∧ t.mem = (memPut (reachAddr (i / 8) off) n v s).mem := by
  obtain ⟨-, -, htarget, hend, hwet, hawake, hgate, hecc, hsem⟩ := h
  have hclear : WriteKeeps s (eccClear (reachAddr (i / 8) off / 8 * 8) s) := rfl
  obtain ⟨hput, hmem⟩ := reachPut_keeps (i / 8) off (leBytes n v) (eccClear (reachAddr (i / 8) off / 8 * 8) s)
  refine ⟨_, ?_, hclear.trans hput, ?_⟩
  · unfold ownWrite
    rw [htarget]
    show reachWrite (i / 8) off n v ⟨i, false, none⟩ s = _
    unfold reachWrite
    rw [wakeTouch_awake _ _ hawake]
    simp only [barred_wet _ _ _ hwet, hgate, hecc, hsem]
    rw [if_neg (by decide), if_neg (by omega), if_neg (by simp), if_neg (by decide), if_neg (by omega), if_neg (by omega)]
  · exact hmem.trans (mem_putBytes_congr _ _ rfl)

/-! ### An instruction that writes memory -/

/-- What a command leaves that has written `t.mem`, and the core as `k'`. -/
def WritesMem (c : Instr) (i : Fin 40) (s : State) (g : Core → Core) (m : List Host.Cell) : Prop :=
  ∃ t ic cy, exec c s = .next t ∧ t.core i = (g ((s.core i).withLines ic)).withCyc cy ∧ t.mem = m ∧ sameRegs [] (fetched i s) t ∧
    t = { fetched i s with
      mem := t.mem, ecc := t.ecc, regs := t.regs, cores := t.cores, rot := { (fetched i s).rot with fill := t.rot.fill }
      scan := { (fetched i s).scan with clean0 := t.scan.clean0, clean1 := t.scan.clean1 }
      pair := { (fetched i s).pair with track := t.pair.track }, pending := t.pending, sn := t.sn }

/-- An instruction that writes memory, and then changes its core. -/
theorem exec_writesMem {c : Instr} {i : Fin 40} {op : WOp} {s u : State} (g : Core → Core) (hexec : exec c s = onDie (weevil i op) s)
    (h : atInstr i op s) (hwrite : WriteKeeps (fetched i s) u) (hu : execOp i op (fetched i s) = modCore i g u)
    (hcount : ∀ ic, (g ((s.core i).withLines ic)).cyc.count ≠ (s.core i).cyc.count)
    (hhalt : ∀ k : Core, (g k).haltReq = k.haltReq) (hstep : ∀ k : Core, (g k).stepping = k.stepping) : WritesMem c i s g u.mem := by
  have hcore : u.core i = (s.core i).withLines ((fetched i s).core i).icache := (hwrite.core i).trans (core_fetched i s)
  have hcalm : calm s u = true := by
    obtain ⟨-, -, -, -, -, hcalm, -⟩ := h
    exact hwrite.calm hcalm
  have hnotHalt : (s.core i).haltReq = false := by
    obtain ⟨-, -, hhalt, -⟩ := h
    exact hhalt
  obtain ⟨cy, hexec⟩ := exec_ends hexec h hu (by rw [core_modCore_same, hcore]; exact hcount _)
    (by rw [core_modCore_same, hhalt, hcore]; exact hnotHalt) (calm_modCore i g (by rw [hstep]; exact stepping_of_calm i hcalm) hcalm)
  rw [modCore_modCore] at hexec
  refine ⟨_, ((fetched i s).core i).icache, cy, hexec, ?_, rfl, fun a _ => hwrite.rd a, ?_⟩
  · rw [core_settled, core_modCore_same, hcore]
  · unfold WriteKeeps at hwrite
    rw [hwrite]
    rfl

/-! ### Stores -/

theorem doStore_own {s : State} {i : Nat} {op : StoreOp} {r : Fin 16} {ea off : Nat} (h : ownClear s i ea op.size true off) :
    ∃ t, doStore i op r ea s = finish i 1 id t ∧ WriteKeeps s t ∧
      t.mem = (memPut (reachAddr (i / 8) off) op.size (((s.core i).reg r).toNat % 256 ^ op.size) s).mem := by
  obtain ⟨t, hwrite, hkeeps, hmem⟩ := ownWrite_clear (((s.core i).reg r).toNat % 256 ^ op.size) h
    (by cases op <;> decide) (by cases op <;> decide)
  obtain ⟨hcheck, hown, -⟩ := h
  refine ⟨t, ?_, hkeeps, hmem⟩
  unfold doStore
  simp only
  rw [hcheck]
  simp only
  rw [if_pos hown, hwrite]

/-- The low bytes of a number are those of what fits into them. -/
theorem leBytes_mod (n v : Nat) : leBytes n (v % 256 ^ n) = leBytes n v := by
  induction n generalizing v with
  | zero => rfl
  | succ n ih =>
    have hlow : b8 (v % 256 ^ (n + 1)) = b8 v := by
      apply BitVec.eq_of_toNat_eq
      rw [b8, b8, BitVec.toNat_ofNat, BitVec.toNat_ofNat]
      exact Nat.mod_mod_of_dvd _ (dvd_pow_self 256 n.succ_ne_zero)
    rw [leBytes, leBytes, hlow, pow_succ', Nat.mod_mul_right_div_self, ih]

theorem bytesAt_congr {s t : State} (h : t.mem = s.mem) (a n : Nat) : bytesAt t a n = bytesAt s a n := by
  unfold bytesAt
  simp only [byteAt_congr h]

theorem bytesAt_memPut (a n v : Nat) (s : State) : bytesAt (memPut a n v s) a n = leBytes n v := by
  simpa [memPut] using bytesAt_putBytes (leBytes n v) a s

/-- A store to own-reach memory leaves the low bytes of the register there. -/
theorem exec_storeOwn {c : Instr} {i : Fin 40} {s : State} {op : StoreOp} {r b : Fin 16} {disp : BitVec 16} {off : Nat}
    (hexec : exec c s = onDie (weevil i (.store op r b disp)) s) (h : atInstr i (.store op r b disp) s)
    (hclear : ownClear (fetched i s) i (effAddr (s.core i) b (disp.signExtend 32)) op.size true off) :
    ∃ t, exec c s = .next t ∧
      bytesAt t (reachAddr (i / 8) off) op.size = leBytes op.size ((s.core i).reg r).toNat ∧
      sameBytes (reachAddr (i / 8) off) op.size (fetched i s) t ∧
      t.core i = { s.core i with pc := (s.core i).pc + 4, icache := (t.core i).icache, cyc := (t.core i).cyc } ∧
      sameRegs [] (fetched i s) t ∧
      t = { fetched i s with
        mem := t.mem, ecc := t.ecc, regs := t.regs, cores := t.cores, rot := { (fetched i s).rot with fill := t.rot.fill }
        scan := { (fetched i s).scan with clean0 := t.scan.clean0, clean1 := t.scan.clean1 }
        pair := { (fetched i s).pair with track := t.pair.track }, pending := t.pending, sn := t.sn } := by
  obtain ⟨u, hstore, hkeeps, hmem⟩ := doStore_own (r := r) hclear
  obtain ⟨t, ic, cy, ht, hcore, htmem, hregs, hrest⟩ := exec_writesMem (fun k => (k.next).spend 1) hexec h hkeeps
    (by rw [← effAddr_fetched] at hstore; exact hstore) (fun ic => by simp [Core.spend, Core.next]) (fun _ => rfl) (fun _ => rfl)
  have hput := htmem.trans hmem
  refine ⟨t, ht, ?_, ?_, ?_, hregs, hrest⟩
  · rw [bytesAt_congr hput, bytesAt_memPut, leBytes_mod, reg_fetched]
  · intro a ha
    rw [byteAt_congr hput]
    exact sameBytes_memPut _ _ _ _ a ha
  · rw [hcore]; rfl

/-- A store to any other address waits in the store buffer. -/
theorem exec_storeBuffered {c : Instr} {i : Fin 40} {s : State} {op : StoreOp} {r b : Fin 16} {disp : BitVec 16}
    (hexec : exec c s = onDie (weevil i (.store op r b disp)) s) (h : atInstr i (.store op r b disp) s)
    (hcheck : accessCheck (fetched i s) i (effAddr (s.core i) b (disp.signExtend 32)) op.size true = none)
    (hother : 0x100000 ≤ effAddr (s.core i) b (disp.signExtend 32)) (hroom : (s.core i).sbuf.length + bit (heldFor s i) < 4) :
    ∃ t, exec c s = .next t ∧
      t.core i = { s.core i with
        sbuf := (s.core i).sbuf ++ [{ addr := effAddr (s.core i) b (disp.signExtend 32), size := op.size
                                      data := ((s.core i).reg r).toNat % 256 ^ op.size, sup := (s.core i).sup }]
        pc := (s.core i).pc + 4, icache := (t.core i).icache, cyc := (t.core i).cyc } ∧ coreOnly i s t := by
  refine (exec_finish 1 (fun k => { k with
      sbuf := k.sbuf ++ [{ addr := effAddr (s.core i) b (disp.signExtend 32), size := op.size
                           data := ((s.core i).reg r).toNat % 256 ^ op.size, sup := k.sup }] }) hexec h one_ne_zero ?_ (fun _ => rfl)
    (fun _ => rfl) (fun _ => rfl)).core_eq { s.core i with
      sbuf := (s.core i).sbuf ++ [{ addr := effAddr (s.core i) b (disp.signExtend 32), size := op.size
                                    data := ((s.core i).reg r).toNat % 256 ^ op.size, sup := (s.core i).sup }]
      pc := (s.core i).pc + 4 } (fun _ _ => rfl)
  have hsbuf : ((fetched i s).core i).sbuf = (s.core i).sbuf := by rw [core_fetched]
  show doStore i op r _ (fetched i s) = _
  rw [effAddr_fetched]
  unfold doStore
  simp only
  rw [hcheck]
  simp only
  rw [if_neg (by omega), if_neg (by rw [hsbuf, heldFor_fetched]; omega), reg_fetched]

end Sys2Proof.Machine

namespace Sys2Proof.Proofs

open Sys2Proof.Machine

/-- Settles O27: a store to own-reach memory writes at once, any other enters the store buffer. -/
theorem stores : Obligations.Stores := by
  unfold Obligations.Stores
  exact ⟨fun i r b disp off s => exec_storeOwn rfl, fun i r b disp s => exec_storeBuffered rfl,
    fun i r b disp off s => exec_storeOwn rfl, fun i r b disp s => exec_storeBuffered rfl,
    fun i r b disp off s => exec_storeOwn rfl, fun i r b disp s => exec_storeBuffered rfl⟩

end Sys2Proof.Proofs
end

section
/-! The bit operations that write, and bit nesting (03_weevil_core R79; 04_weevil_instructions R134 to R137). -/

namespace Sys2Proof.Machine

/-! ### Bits of bytes -/

/-- The bit that a read-modify-write of one bit leaves at each place of a byte. -/
theorem bitAt_rewritten (v : Byte) (k j : Fin 8) (b : Bool) :
    bitAt (b8 (putBits v.toNat k.val 1 (bit b))).toNat j.val = if j = k then b else bitAt v.toNat j.val := by
  have hbyte : bitAt (b8 (putBits v.toNat k.val 1 (bit b))).toNat j.val = bitAt (putBits v.toNat k.val 1 (bit b)) j.val := by
    rw [bitAt_eq_testBit, bitAt_eq_testBit, b8, BitVec.toNat_ofNat, Nat.testBit_mod_two_pow]
    simp [j.isLt]
  rw [hbyte, bitAt_putBits]
  by_cases h : j = k
  · subst h
    cases b <;> simp [bitAt]
  · have hne : j.val ≠ k.val := fun e => h (Fin.ext e)
    rw [if_neg h]
    split
    · rfl
    · rw [if_neg (by omega)]

/-! ### What a bit operation leaves of its core -/

/-- The core after a bit operation whose operand bit is `b`. -/
def Core.afterBit (f : BitFn) (b : Bool) (k : Core) : Core := ((bitLogic f b k).1.next).spend 1

theorem bitLogic_cyc (f : BitFn) (b : Bool) (k : Core) : (bitLogic f b k).1.cyc = k.cyc := by cases f <;> rfl

theorem bitLogic_haltReq (f : BitFn) (b : Bool) (k : Core) : (bitLogic f b k).1.haltReq = k.haltReq := by cases f <;> rfl

theorem bitLogic_stepping (f : BitFn) (b : Bool) (k : Core) : (bitLogic f b k).1.stepping = k.stepping := by cases f <;> rfl

/-- The bit written does not depend on the I-cache. -/
theorem bitLogic_withLines (f : BitFn) (b : Bool) (k : Core) (ic : List (Nat × List Word)) :
    (bitLogic f b (k.withLines ic)).2 = (bitLogic f b k).2 := by cases f <;> rfl

/-! What each operation that writes leaves of its core, and of its bit. -/

theorem after_bst (b : Bool) (k : Core) (ic : List (Nat × List Word)) (cy : Cycles) : ((k.withLines ic).afterBit .bst b).withCyc cy
    = (({ k with bacc := k.bacc, bopen := false, pc := k.pc + 4 } : Core).withLines ic).withCyc cy := rfl

theorem after_bset (b : Bool) (k : Core) (ic : List (Nat × List Word)) (cy : Cycles) : ((k.withLines ic).afterBit .bset b).withCyc cy
    = (({ k with bacc := k.bacc, bopen := false, pc := k.pc + 4 } : Core).withLines ic).withCyc cy := rfl

theorem after_brst (b : Bool) (k : Core) (ic : List (Nat × List Word)) (cy : Cycles) : ((k.withLines ic).afterBit .brst b).withCyc cy
    = (({ k with bacc := k.bacc, bopen := false, pc := k.pc + 4 } : Core).withLines ic).withCyc cy := rfl

theorem after_bpos (b : Bool) (k : Core) (ic : List (Nat × List Word)) (cy : Cycles) : ((k.withLines ic).afterBit .bpos b).withCyc cy
    = (({ k with bacc := k.bacc && !b, bopen := true, pc := k.pc + 4 } : Core).withLines ic).withCyc cy := rfl

theorem after_bneg (b : Bool) (k : Core) (ic : List (Nat × List Word)) (cy : Cycles) : ((k.withLines ic).afterBit .bneg b).withCyc cy
    = (({ k with bacc := !k.bacc && b, bopen := true, pc := k.pc + 4 } : Core).withLines ic).withCyc cy := rfl

theorem written_bst (b : Bool) (k : Core) : (bitLogic .bst b k).2.getD b = k.bacc := rfl

theorem written_bset (b : Bool) (k : Core) : (bitLogic .bset b k).2.getD b = (k.bacc || b) := by
  unfold bitLogic
  cases k.bacc <;> rfl

theorem written_brst (b : Bool) (k : Core) : (bitLogic .brst b k).2.getD b = (!k.bacc && b) := by
  unfold bitLogic
  cases k.bacc <;> rfl

theorem written_bpos (b : Bool) (k : Core) : (bitLogic .bpos b k).2.getD b = k.bacc := rfl

theorem written_bneg (b : Bool) (k : Core) : (bitLogic .bneg b k).2.getD b = k.bacc := rfl

/-! ### A bit operation on own-reach memory -/

theorem doBit_silent {s : State} {i k ea v : Nat} {f : BitFn} {old : Bool} (hcheck : accessCheck s i ea 1 f.writes = none)
    (hown : ea < 0x100000) (hread : ownRead i ea 1 s = (s, .ok v)) (hold : bitAt v k = old)
    (hout : (bitLogic f old (s.core i)).2 = none) : doBit i f k ea s = modCore i (·.afterBit f old) s := by
  unfold doBit
  rw [hcheck]
  simp only
  rw [if_pos hown, hread]
  simp only [hold, hout]
  rfl

theorem doBit_writes {s t : State} {i k ea v : Nat} {f : BitFn} {old b : Bool} (hcheck : accessCheck s i ea 1 f.writes = none)
    (hown : ea < 0x100000) (hread : ownRead i ea 1 s = (s, .ok v)) (hold : bitAt v k = old)
    (hout : (bitLogic f old (s.core i)).2 = some b) (hwrite : ownWrite i ea 1 (putBits v k 1 (bit b)) s = (t, .ok ()))
    (hcore : t.core i = s.core i) : doBit i f k ea s = modCore i (·.afterBit f old) t := by
  unfold doBit
  rw [hcheck]
  simp only
  rw [if_pos hown, hread]
  simp only [hold, hout]
  rw [hwrite]
  simp only [modCore, hcore]
  rfl

/-- A bit operation that passes the checks of a write: its bit reads what it writes, or as before where it writes none. -/
theorem doBit_own {s : State} {i : Nat} {f : BitFn} {k : Fin 8} {ea off : Nat} (hf : f.writes = true) (h : ownClear s i ea 1 true off) :
    ∃ t, doBit i f k.val ea s
        = modCore i (·.afterBit f (bitAt (byteAt s (reachAddr (i / 8) off)).toNat k.val)) t
      ∧ WriteKeeps s t ∧ sameBytes (reachAddr (i / 8) off) 1 s t
      ∧ ∀ j : Fin 8, bitAt (byteAt t (reachAddr (i / 8) off)).toNat j.val
          = if j = k then (bitLogic f (bitAt (byteAt s (reachAddr (i / 8) off)).toNat k.val) (s.core i)).2.getD
              (bitAt (byteAt s (reachAddr (i / 8) off)).toNat k.val)
            else bitAt (byteAt s (reachAddr (i / 8) off)).toNat j.val := by
  have hread := ownRead_clear h
  have hwrite := fun v => ownWrite_clear v h (by decide) (by decide)
  obtain ⟨hcheck, hown, -⟩ := h
  rw [memNat_byte] at hread
  generalize hA : reachAddr (i / 8) off = A at *
  generalize hold : bitAt (byteAt s A).toNat k.val = old at *
  cases hout : (bitLogic f old (s.core i)).2 with
  | none =>
    refine ⟨s, doBit_silent (hf ▸ hcheck) hown hread hold hout, .refl s, fun _ _ => rfl, fun j => ?_⟩
    split
    · next hj => rw [hj]; exact hold
    · rfl
  | some b =>
    obtain ⟨t, ht, hkeeps, hmem⟩ := hwrite (putBits (byteAt s A).toNat k.val 1 (bit b))
    refine ⟨t, doBit_writes (hf ▸ hcheck) hown hread hold hout ht (hkeeps.core i), hkeeps, ?_, fun j => ?_⟩
    · intro a ha
      rw [byteAt_congr hmem]
      exact sameBytes_memPut _ _ _ _ a ha
    · have hbyte : byteAt t A = b8 (putBits (byteAt s A).toNat k.val 1 (bit b)) := by
        rw [byteAt_congr hmem]
        simpa using byteAt_memPut_inside A 1 (putBits (byteAt s A).toNat k.val 1 (bit b)) 0 s (by decide)
      rw [hbyte, bitAt_rewritten]
      rfl

/-- A bit operation that writes: the core after it, its bit, every other bit of memory and every register. -/
theorem exec_bitWrite {c : Instr} {i : Fin 40} {s : State} {f : BitFn} {b : Fin 16} {disp : BitVec 13} {k : Fin 8} {off : Nat} (k' : Core)
    (bw : Bool) (hexec : exec c s = onDie (weevil i (.bitm f b disp k)) s) (hf : f.writes = true)
    (hk : ∀ ic cy, (((s.core i).withLines ic).afterBit f (bitAt (byteAt s (reachAddr (i / 8) off)).toNat k.val)).withCyc cy
      = (k'.withLines ic).withCyc cy)
    (hb : (bitLogic f (bitAt (byteAt s (reachAddr (i / 8) off)).toNat k.val) (s.core i)).2.getD
      (bitAt (byteAt s (reachAddr (i / 8) off)).toNat k.val) = bw)
    (h : atInstr i (.bitm f b disp k) s) (hclear : ownClear (fetched i s) i (effAddr (s.core i) b (disp.signExtend 32)) 1 true off) :
    ∃ t, exec c s = .next t ∧ t.core i = { k' with icache := (t.core i).icache, cyc := (t.core i).cyc } ∧
      (∀ j : Fin 8, bitAt (byteAt t (reachAddr (i / 8) off)).toNat j.val
        = if j = k then bw else bitAt (byteAt s (reachAddr (i / 8) off)).toNat j.val) ∧
      sameBytes (reachAddr (i / 8) off) 1 (fetched i s) t ∧ sameRegs [] (fetched i s) t := by
  obtain ⟨u, hdo, hkeeps, hbytes, hbits⟩ := doBit_own (k := k) hf hclear
  rw [byteAt_fetched] at hdo hbits
  obtain ⟨t, ic, cy, ht, hcore, hmem, hregs, -⟩ := exec_writesMem
    (·.afterBit f (bitAt (byteAt s (reachAddr (i / 8) off)).toNat k.val)) hexec h hkeeps (by rw [← effAddr_fetched] at hdo; exact hdo)
    (fun ic => by simp [Core.afterBit, Core.spend, Core.next, bitLogic_cyc]) (fun k => bitLogic_haltReq f _ k) (fun k => bitLogic_stepping f _ k)
  refine ⟨t, ht, ?_, fun j => ?_, fun a ha => (byteAt_congr hmem a).trans (hbytes a ha), hregs⟩
  · rw [hcore, hk]; rfl
  · rw [byteAt_congr hmem, hbits j, ← hb, core_fetched]
    exact congrArg (fun b => if j = k then Option.getD b _ else _) (bitLogic_withLines f _ (s.core i) _)

/-! ### Bit nesting (R79, R137) -/

theorem bnd_fetched (i : Fin 40) (s : State) : ((fetched i s).core i).bnd = (s.core i).bnd := by
  rw [core_fetched]; rfl

/-- The core after BNEST with room on its nesting stack. -/
def Core.nested (op : NestOp) (k : Core) : Core :=
  { k with bstk := w32 (putBits k.bstk.toNat (4 * k.bnd) 4 (8 * bit k.bacc + 4 * bit k.bopen + op.code)), bopen := false }

theorem after_nest (op : NestOp) (k : Core) (ic : List (Nat × List Word)) (cy : Cycles) :
    ((((k.withLines ic).nested op).next).spend 1).withCyc cy
      = (({ k with bstk := w32 (putBits k.bstk.toNat (4 * k.bnd) 4 (8 * bit k.bacc + 4 * bit k.bopen + op.code)), bacc := k.bacc
                   bopen := false, pc := k.pc + 4 } : Core).withLines ic).withCyc cy := rfl

theorem exec_nest {c : Instr} {i : Fin 40} {s : State} (op : NestOp) (hexec : exec c s = onDie (weevil i (.bnest op)) s)
    (h : atInstr i (.bnest op) s) (hroom : (s.core i).bnd < 8) : EndsWith c i s (fun k => ((k.nested op).next).spend 1) := by
  refine exec_endsWith _ hexec h ?_ (fun ic => by simp [Core.nested, Core.spend, Core.next]) (fun _ => rfl) (fun _ => rfl)
  show nest i op (fetched i s) = _
  unfold nest
  simp only
  rw [bnd_fetched, if_neg (by omega)]
  simp only [finish, modCore, Core.nested, bnd_fetched, Nat.mul_comm]

theorem nest_full (i : Nat) (op : NestOp) (s : State) (h : (s.core i).bnd = 8) :
    nest i op s = instrFault i { cause := .bnest } s s := by
  unfold nest
  rw [if_pos h]

/-- The core after BUNNEST has taken an entry from its nesting stack. -/
def Core.unnested (k : Core) : Core :=
  { k with
    bstk := w32 (putBits k.bstk.toNat (4 * (k.bnd - 1)) 4 0)
    bacc := if bitAt (bitsOf k.bstk.toNat (4 * (k.bnd - 1)) 4) 2 then
        nestApply (bitsOf k.bstk.toNat (4 * (k.bnd - 1)) 4 % 4) (bitAt (bitsOf k.bstk.toNat (4 * (k.bnd - 1)) 4) 3) k.bacc
      else k.bacc
    bopen := true }

/-- What the operation of an entry gives, by its code. -/
theorem nestApply_eq (e : Nat) (a b : Bool) : nestApply e a b = match e with | 1 => a && b | 2 => a || b | _ => a != b := by
  rcases e with _ | _ | _ | e <;> rfl

theorem after_unnest (k : Core) (ic : List (Nat × List Word)) (cy : Cycles) : ((((k.withLines ic).unnested).next).spend 1).withCyc cy
    = (({ k with
          bstk := w32 (putBits k.bstk.toNat (4 * (k.bnd - 1)) 4 0)
          bacc := if bitAt (bitsOf k.bstk.toNat (4 * (k.bnd - 1)) 4) 2 then
              (match bitsOf k.bstk.toNat (4 * (k.bnd - 1)) 4 % 4 with
                | 1 => bitAt (bitsOf k.bstk.toNat (4 * (k.bnd - 1)) 4) 3 && k.bacc
                | 2 => bitAt (bitsOf k.bstk.toNat (4 * (k.bnd - 1)) 4) 3 || k.bacc
                | _ => bitAt (bitsOf k.bstk.toNat (4 * (k.bnd - 1)) 4) 3 != k.bacc)
            else k.bacc
          bopen := true, pc := k.pc + 4 } : Core).withLines ic).withCyc cy := by
  rw [← nestApply_eq]
  rfl

theorem exec_unnest (i : Fin 40) (s : State) (h : atInstr i .bunnest s) (hnest : (s.core i).bnd ≠ 0) :
    EndsWith (.bunnest i) i s (fun k => (k.unnested.next).spend 1) := by
  refine exec_endsWith _ rfl h ?_ (fun ic => by simp [Core.unnested, Core.spend, Core.next]) (fun _ => rfl) (fun _ => rfl)
  show unnest i (fetched i s) = _
  unfold unnest
  simp only
  rw [if_neg (by rw [bnd_fetched]; exact hnest)]
  rfl

end Sys2Proof.Machine

namespace Sys2Proof.Proofs

open Sys2Proof.Machine

/-- Settles O31: a bit operation that writes is a read and a write of its byte, in which the other bits stay. -/
theorem bitWritesAndNesting : Obligations.BitWritesAndNesting := by
  unfold Obligations.BitWritesAndNesting
  refine ⟨?_, ?_, ?_, ?_, ?_, ?_, ?_, ?_, ?_, ?_, ?_⟩
  · exact fun i b disp k off s => exec_bitWrite _ _ rfl rfl (after_bst _ _) (written_bst _ _)
  · exact fun i b disp k off s => exec_bitWrite _ _ rfl rfl (after_bset _ _) (written_bset _ _)
  · exact fun i b disp k off s => exec_bitWrite _ _ rfl rfl (after_brst _ _) (written_brst _ _)
  · exact fun i b disp k off s => exec_bitWrite _ _ rfl rfl (after_bpos _ _) (written_bpos _ _)
  · exact fun i b disp k off s => exec_bitWrite _ _ rfl rfl (after_bneg _ _) (written_bneg _ _)
  · exact fun i s h hroom => (exec_nest .and rfl h hroom).core_eq _ (after_nest .and _)
  · exact fun i s h hroom => (exec_nest .or rfl h hroom).core_eq _ (after_nest .or _)
  · exact fun i s h hroom => (exec_nest .xor rfl h hroom).core_eq _ (after_nest .xor _)
  · intro i s h hfull hroom
    exact exec_faults .bnest rfl h hroom (by decide) (by decide) (nest_full i _ _ (by rw [bnd_fetched]; exact hfull))
  · exact fun i s h hnest => (exec_unnest i s h hnest).core_eq _ (after_unnest _)
  · intro i s h
    exact (exec_finish 1 (fun k => { k with bacc := !k.bacc }) rfl h one_ne_zero rfl (fun _ => rfl) (fun _ => rfl) (fun _ => rfl)).core_eq
      { s.core i with bstk := (s.core i).bstk, bacc := !(s.core i).bacc, bopen := (s.core i).bopen, pc := (s.core i).pc + 4 }
      (fun _ _ => rfl)

end Sys2Proof.Proofs
end

section
/-! Data stack, tokens, the end of an item, and the I-cache (03_weevil_core R87, R88, R98 to R100, R107, R109; 04_weevil_instructions R139,
R140). -/

namespace Sys2Proof.Machine

/-! ### The data stack (R87) -/

theorem pushData_room (i : Nat) (v : Word) (s : State) (h : (s.core i).dstack.length < 16) :
    pushData i v s = (modCore i (fun k => { k with dstack := v :: k.dstack }) s, .ok ()) := by
  unfold pushData
  simp only
  rw [if_pos h]
  rfl

theorem exec_push (i : Fin 40) (a : Fin 16) (s : State) (h : atInstr i (.push a) s) (hroom : (s.core i).dstack.length < 16) :
    EndsWith (.push i a) i s (fun k => (({ k with dstack := (s.core i).reg a :: k.dstack } : Core).next).spend 1) := by
  refine exec_endsWith _ rfl h ?_ (fun ic => by simp [Core.spend, Core.next]) (fun _ => rfl) (fun _ => rfl)
  have hpush := pushData_room i ((s.core i).reg a) (fetched i s) (by rw [core_fetched]; exact hroom)
  unfold execOp
  simp only
  rw [reg_fetched, hpush]
  exact modCore_modCore i _ _ _

theorem exec_pop (i : Fin 40) (d : Fin 16) (v : Word) (l : List Word) (s : State) (h : atInstr i (.pop d) s)
    (hstack : (s.core i).dstack = v :: l) :
    EndsWith (.pop i d) i s (fun k => ((({ k with dstack := l } : Core).setReg d v).next).spend 1) := by
  refine exec_endsWith _ rfl h ?_ (fun ic => by simp [Core.spend, Core.next]) (fun k => by simp [Core.spend, Core.next])
    (fun k => by simp [Core.spend, Core.next])
  have hpop := popData_held i (fetched i s) v l (by rw [core_fetched]; exact hstack)
  unfold execOp
  simp only
  rw [hpop]
  exact modCore_modCore i (fun k => { k with dstack := l }) _ _

/-! ### FENCE and SIG -/

@[simp] theorem core_modLkp (f : Lkp → Lkp) (s : State) (i : Nat) : (modLkp f s).core i = s.core i := rfl

theorem calm_modLkp (before : State) (f : Lkp → Lkp) (s : State) : calm before (modLkp f s) = calm before s := rfl

/-- A core that stands at an instruction with nothing in its store buffer does not wait for a store. -/
theorem drainAll_fetched {i : Fin 40} {op : WOp} {s : State} (n : Nat) (h : atInstr i op s) (hempty : (s.core i).sbuf = [])
    (hheld : heldFor s i = false) : drainAll i n (fetched i s) = (fetched i s, true) := by
  obtain ⟨-, hrun, -⟩ := h
  exact drainAll_empty _ _ _ (by rw [core_fetched]; exact hempty) (by rw [heldFor_fetched]; exact hheld) (by rw [core_fetched]; exact hrun)

theorem exec_fence (i : Fin 40) (s : State) (h : atInstr i .fence s) (hempty : (s.core i).sbuf = []) (hheld : heldFor s i = false) :
    EndsWith (.fence i) i s (fun k => (k.next).spend 1) := by
  refine exec_finish 1 id rfl h one_ne_zero ?_ (fun _ => rfl) (fun _ => rfl) (fun _ => rfl)
  unfold execOp
  simp only
  rw [drainAll_fetched 4 h hempty hheld]

/-- A token at the end of those in the SIG port of core `i`. -/
def sendToken (i : Fin 40) (x : Word × Word × Option Nat) (s : State) : State :=
  modLkp (fun l => { l with ports := l.ports.set i.val (l.ports.get i ++ [x]) i.isLt }) s

theorem ports_sendToken_same (i : Fin 40) (x : Word × Word × Option Nat) (s : State) :
    (sendToken i x s).lkp.ports.get i = s.lkp.ports.get i ++ [x] := Vector.getElem_set_self _

theorem ports_sendToken_other (i j : Fin 40) (x : Word × Word × Option Nat) (s : State) (h : j ≠ i) :
    (sendToken i x s).lkp.ports.get j = s.lkp.ports.get j := Vector.getElem_set_ne i.isLt _ fun e => h (Fin.ext e.symm)

/-- The end of an instruction leaves the Lockkeeper. -/
theorem lkp_sent (i : Nat) (f : Core → Core) (s u : State) : (settled s (modCore i f (finish i 1 id u))).lkp = u.lkp := rfl

theorem roleOf_fetched (i : Fin 40) (s : State) (n : Nat) : roleOf (fetched i s) n = roleOf s n := by
  have hword : rd (fetched i s) A.LKH_ROLEMAP = rd s A.LKH_ROLEMAP := (fetched_keeps i s).word _ (by decide) (by decide)
  unfold roleOf reachOf getF
  simp only [hword]

theorem strayToken_fetched (i : Fin 40) (s : State) (dst : Word) : strayToken (fetched i s) i dst = strayToken s i dst := by
  unfold strayToken
  rw [core_fetched]

theorem ports_fetched (i : Fin 40) (s : State) : (fetched i s).lkp.ports = s.lkp.ports := by
  rw [(fetched_keeps i s).rest]; rfl

theorem execOp_sig {i : Fin 40} {a b : Fin 16} {s : State} (h : atInstr i (.sig a b) s) (hempty : (s.core i).sbuf = [])
    (hheld : heldFor s i = false) (hroom : (s.lkp.ports.get i).length < 2) (hstray : strayToken s i ((s.core i).reg a) = false) :
    execOp i (.sig a b) (fetched i s)
      = finish i 1 id (sendToken i ((s.core i).reg a, (s.core i).reg b, roleOf s (i / 8)) (fetched i s)) := by
  have hi : i.val % 40 = i.val := Nat.mod_eq_of_lt i.isLt
  show doSig i _ _ (fetched i s) = _
  unfold doSig
  simp only [reg_fetched, hi]
  rw [if_neg (by rw [ports_fetched]; exact Nat.not_le.mpr hroom), drainAll_fetched 4 h hempty hheld]
  simp only
  rw [strayToken_fetched, hstray, roleOf_fetched]
  rfl

/-- A token sent changes the ports alone. -/
theorem settled_sendToken (i : Fin 40) (x : Word × Word × Option Nat) (f g : Core → Core) (s u t : State)
    (h : t = settled s (modCore i f (modCore i g (sendToken i x u)))) :
    t = { u with cores := t.cores, lkp := { u.lkp with ports := t.lkp.ports }, pending := t.pending, sn := t.sn } := by
  rw [h]; rfl

/-- SIG sends its token, and changes nothing else but its core. -/
theorem exec_sig (i : Fin 40) (a b : Fin 16) (s : State) (h : atInstr i (.sig a b) s) (hempty : (s.core i).sbuf = [])
    (hheld : heldFor s i = false) (hroom : (s.lkp.ports.get i).length < 2) (hstray : strayToken s i ((s.core i).reg a) = false) :
    ∃ t, exec (.sig i a b) s = .next t ∧
      t.core i = { s.core i with pc := (s.core i).pc + 4, icache := (t.core i).icache, cyc := (t.core i).cyc } ∧
      t.lkp.ports.get i = s.lkp.ports.get i ++ [((s.core i).reg a, (s.core i).reg b, roleOf s (i / 8))] ∧
      (∀ j : Fin 40, j ≠ i → t.lkp.ports.get j = s.lkp.ports.get j) ∧
      t = { fetched i s with cores := t.cores, lkp := { (fetched i s).lkp with ports := t.lkp.ports }, pending := t.pending, sn := t.sn } := by
  obtain ⟨ic, hcore⟩ : ∃ ic, (finish i 1 id (sendToken i ((s.core i).reg a, (s.core i).reg b, roleOf s (i / 8)) (fetched i s))).core i
      = (((s.core i).withLines ic).next).spend 1 :=
    ⟨_, (core_modCore_same i _ _).trans (congrArg (fun k => k.next.spend 1) (core_fetched i s))⟩
  have hcalm : calm s (fetched i s) = true := by
    obtain ⟨-, -, -, -, -, hcalm, -⟩ := h
    exact hcalm
  have hnotHalt : (s.core i).haltReq = false := by
    obtain ⟨-, -, hhalt, -⟩ := h
    exact hhalt
  have hcalmSent : calm s (sendToken i ((s.core i).reg a, (s.core i).reg b, roleOf s (i / 8)) (fetched i s)) = true :=
    (calm_modLkp s _ _).trans hcalm
  obtain ⟨cy, hexec⟩ := exec_ends (c := .sig i a b) rfl h (execOp_sig h hempty hheld hroom hstray)
    (by rw [hcore]; simp [Core.spend, Core.next]) (by rw [hcore]; exact hnotHalt)
    (calm_modCore i (fun k => (k.next).spend 1) (by rw [Core.spend, Core.next]; exact stepping_of_calm i hcalmSent) hcalmSent)
  refine ⟨_, hexec, ?_, ?_, fun j hj => ?_, settled_sendToken i _ _ _ s _ _ rfl⟩
  · rw [core_settled, core_modCore_same, hcore]
    rfl
  · rw [lkp_sent, ports_sendToken_same, ports_fetched]
  · rw [lkp_sent, ports_sendToken_other _ _ _ _ hj, ports_fetched]

/-! ### DONE (R107, R109) -/

/-- An entry without tokens that needs some is not full. -/
theorem full_of_clear (e : Entry) (hclear : e.counts = Vector.replicate 8 0) (hneed : 1 ≤ e.desc.need) (hlt : e.desc.need < 256) :
    e.full = false := by
  obtain ⟨k, hk⟩ := Nat.exists_testBit_of_ne_zero (by omega : e.desc.need ≠ 0)
  have hk8 : k < 8 := by
    by_contra hle
    rw [Nat.testBit_lt_two_pow (lt_of_lt_of_le hlt (Nat.pow_le_pow_right (n := 2) (by decide) (by omega : 8 ≤ k)))] at hk
    cases hk
  refine Bool.eq_false_iff.mpr fun hfull => ?_
  unfold Entry.full at hfull
  rw [List.all_eq_true] at hfull
  have hslot := hfull ⟨k, hk8⟩ (List.mem_finRange _)
  rw [bitAt_eq_testBit, hk, hclear] at hslot
  simp [Vector.get] at hslot

theorem clear_of_replicate (e : Entry) (hclear : e.counts = Vector.replicate 8 0) : e.clear = true := by
  unfold Entry.clear
  rw [hclear]
  decide

/-- A general item that has ended leaves no entry behind where no slot holds a token (R227). -/
theorem generalDone_clear (role index : Nat) (e : Entry) (s : State) (hstore : s.lkp.store = [e]) (his : e.is role false index = true)
    (hclear : e.clear = true) (hfull : e.full = false) :
    generalDone role index s = modLkp (fun l => { l with store := [] }) s := by
  have hfull' : ({ e with running := false } : Entry).full = false := hfull
  have hgone : (({ e with running := false } : Entry).is role false index && ({ e with running := false } : Entry).clear) = true := by
    rw [show ({ e with running := false } : Entry).is role false index = true from his,
      show ({ e with running := false } : Entry).clear = true from hclear]
    rfl
  unfold generalDone
  rw [hstore]
  simp only [List.find?_cons, his, hfull', Bool.false_eq_true, if_false]
  unfold modLkp
  simp only [hstore, List.map_cons, List.map_nil, his, if_true, List.filter_cons, hgone, Bool.not_true, Bool.false_eq_true, if_false,
    List.filter_nil]

/-- No record of an item is traced while tracing is off. -/
theorem trace_off (k : Kind) (t : Traced) (data : Nat) (s : State) (h : isSet s F.LKP_TRCCTL_EN = false) : trace k t data s = s := by
  unfold trace
  simp [h]

/-- What DONE of a general item frees. -/
theorem itemDone_clear (i level : Nat) (r : Running) (e : Entry) (s : State) (hseg : r.segment = none)
    (htrace : isSet s F.LKP_TRCCTL_EN = false) (hstore : s.lkp.store = [e])
    (his : e.is (r.ident / 2 ^ 27 % 4) false (r.ident % 2 ^ 14) = true) (hclear : e.clear = true) (hfull : e.full = false) :
    itemDone i level r s = modLkp (fun l => { l with store := [] }) s := by
  unfold itemDone
  simp only
  rw [trace_off _ _ _ _ htrace, hseg]
  exact generalDone_clear _ _ e s hstore his hclear hfull

/-- The core whose item has ended. -/
theorem endItem_running (k : Core) (r : Running) (h : k.items.get k.level = some r) :
    k.endItem = { (k.truncate r.dmark r.rmark) with items := k.items.set k.level.val none k.level.isLt } := by
  unfold Core.endItem
  rw [h]

/-- A stack that is cut to its bottom, with no entry in memory, is empty. -/
theorem dstack_truncate (k : Core) (rm : Nat) (h : k.dsp = k.dsb) : (k.truncate 0 rm).dstack = [] := by
  unfold Core.truncate Core.ddepth
  simp [h]

/-- The core past its DONE. -/
def Core.ended (k : Core) : Core := (k.endItem.next).spend 1

/-- The core that has drained. -/
@[simps] def Core.drained (k : Core) : Core := { k with st := .drained, drainReq := false, wasIdle := false }

theorem ended_haltReq (k : Core) : k.ended.haltReq = k.haltReq := by
  unfold Core.ended Core.endItem; split <;> rfl

theorem ended_stepping (k : Core) : k.ended.stepping = k.stepping := by
  unfold Core.ended Core.endItem; split <;> rfl

theorem ended_drainReq (k : Core) : k.ended.drainReq = k.drainReq := by
  unfold Core.ended Core.endItem; split <;> rfl

theorem ended_count (k : Core) : k.ended.cyc.count = k.cyc.count + 1 := by
  unfold Core.ended Core.endItem; split <;> rfl

theorem ended_items (k : Core) (r : Running) (h : k.items.get k.level = some r) : k.ended.items.get k.level = none := by
  rw [Core.ended, endItem_running k r h]
  exact Vector.getElem_set_self _

theorem ended_dstack (k : Core) (r : Running) (h : k.items.get k.level = some r) (hmark : r.dmark = 0) (hbottom : k.dsp = k.dsb) :
    k.ended.dstack = [] := by
  rw [Core.ended, endItem_running k r h, hmark]
  exact dstack_truncate k r.rmark hbottom

/-- The device after DONE of a general item at level 0 on a core that is to drain. -/
def drainedAfter (i : Nat) (s : State) : State :=
  modLkp (fun l => { l with store := [], idle := l.idle.filter (· != i), offers := l.offers.filter (·.1 != i) })
    (modCore i (fun k => k.ended.drained) s)

theorem enterDrained_stored (i : Nat) (s : State) :
    enterDrained i (modLkp (fun l => { l with store := [] }) s)
      = modLkp (fun l => { l with store := [], idle := l.idle.filter (· != i), offers := l.offers.filter (·.1 != i) })
        (modCore i Core.drained s) := rfl

theorem doDone_drains {i : Nat} {r : Running} {e : Entry} {s : State} (hstores : drainAll i 4 s = (s, true))
    (hpend : (s.core i).pendW = []) (hlevel : (s.core i).level = 0) (hitem : (s.core i).items.get (s.core i).level = some r)
    (hseg : r.segment = none) (htrace : isSet s F.LKP_TRCCTL_EN = false) (hstore : s.lkp.store = [e])
    (his : e.is (r.ident / 2 ^ 27 % 4) false (r.ident % 2 ^ 14) = true) (hclear : e.clear = true) (hfull : e.full = false)
    (hdrain : (s.core i).drainReq = true) : doDone i s = drainedAfter i s := by
  have hdone : itemDone i 0 r (modCore i Core.ended s) = modLkp (fun l => { l with store := [] }) (modCore i Core.ended s) :=
    itemDone_clear i 0 r e (modCore i Core.ended s) hseg htrace hstore his hclear hfull
  have hcore : ((modLkp (fun l => { l with store := [] }) (modCore i Core.ended s)).core i).drainReq = true := by
    rw [show (modLkp (fun l => { l with store := [] }) (modCore i Core.ended s)).core i = (s.core i).ended from
      core_modCore_same i Core.ended s, ended_drainReq, hdrain]
  have hended : modCore i (fun k => k.next.spend 1) (modCore i Core.endItem s) = modCore i Core.ended s := modCore_modCore i _ _ s
  unfold doDone
  rw [hstores]
  simp only
  rw [hpend]
  simp only
  rw [hended, hitem, hlevel, if_neg (by decide)]
  simp only
  rw [hdone, if_pos hcore]
  rw [enterDrained_stored, modCore_modCore]
  rfl

theorem exec_done (i : Fin 40) (r : Running) (e : Entry) (s : State) (h : atInstr i .done s) (hempty : (s.core i).sbuf = [])
    (hheld : heldFor s i = false) (hlevel : (s.core i).level = 0) (hitem : (s.core i).items.get 0 = some r) (hmark : r.dmark = 0)
    (hseg : r.segment = none) (hbottom : (s.core i).dsp = (s.core i).dsb) (htrace : isSet s F.LKP_TRCCTL_EN = false)
    (hstore : s.lkp.store = [e]) (his : e.is (r.ident / 2 ^ 27 % 4) false (r.ident % 2 ^ 14) = true)
    (hcounts : e.counts = Vector.replicate 8 0) (hneed : 1 ≤ e.desc.need) (hdrain : (s.core i).drainReq = true) (hlt : e.desc.need < 256) :
    ∃ t, exec (.done i) s = .next t ∧ (t.core i).st = .drained ∧ (t.core i).items.get (s.core i).level = none ∧ (t.core i).dstack = [] ∧
      t.lkp.store = [] := by
  have htraceF : isSet (fetched i s) F.LKP_TRCCTL_EN = false := by
    have hword : rd (fetched i s) A.LKP_TRCCTL = rd s A.LKP_TRCCTL := (fetched_keeps i s).word _ (by decide) (by decide)
    unfold isSet
    rw [getF_of_rd (s := s) hword]
    exact htrace
  have hitem' : (s.core i).items.get (s.core i).level = some r := by rw [hlevel]; exact hitem
  have hu : execOp i .done (fetched i s) = drainedAfter i (fetched i s) :=
    doDone_drains (drainAll_fetched 4 h hempty hheld) (by rw [pendW_fetched]; exact pendW_of_atInstr h) (by rw [core_fetched]; exact hlevel)
      (by rw [core_fetched]; exact hitem') hseg htraceF (by rw [(fetched_keeps i s).rest]; exact hstore) his
      (clear_of_replicate e hcounts) (full_of_clear e hcounts hneed hlt) (by rw [core_fetched]; exact hdrain)
  have hcalm : calm s (fetched i s) = true := by
    obtain ⟨-, -, -, -, -, hcalm, -⟩ := h
    exact hcalm
  have hnotHalt : (s.core i).haltReq = false := by
    obtain ⟨-, -, hhalt, -⟩ := h
    exact hhalt
  have hlines : (fetched i s).core i = (s.core i).withLines ((fetched i s).core i).icache := core_fetched i s
  have hcore : (drainedAfter i (fetched i s)).core i = ((s.core i).withLines ((fetched i s).core i).icache).ended.drained :=
    (core_modLkp _ _ _).trans ((core_modCore_same i _ _).trans (congrArg (fun k => k.ended.drained) hlines))
  have hcalmDone : calm s (drainedAfter i (fetched i s)) = true := by
    rw [drainedAfter, calm_modLkp]
    exact calm_modCore i _ (by rw [Core.drained_stepping, ended_stepping]; exact stepping_of_calm i hcalm) hcalm
  obtain ⟨cy, hexec⟩ := exec_ends (c := .done i) rfl h hu
    (by rw [hcore, Core.drained_cyc, ended_count]; simp) (by rw [hcore, Core.drained_haltReq, ended_haltReq]; exact hnotHalt) hcalmDone
  refine ⟨_, hexec, ?_⟩
  rw [core_settled, core_modCore_same, hcore]
  exact ⟨rfl, ended_items ((s.core i).withLines _) r hitem', ended_dstack ((s.core i).withLines _) r hitem' hmark hbottom, rfl⟩

/-! ### A parity error of the I-cache (R99) -/

/-- A hit with a parity error is fetched anew: the line read enters the I-cache. -/
theorem fetched_parity {i : Fin 40} {op : WOp} {s : State} {ws : List Word} {p : Bool} (h : atInstr i op s)
    (hcached : cached s i (s.core i).pc.toNat = some ws) (hbad : SMap.get? s.ecc (lineKey i (s.core i).pc.toNat) = some p) :
    ∃ new t, ReadKeeps (parityError i (s.core i).pc.toNat (quiet s)) t
      ∧ fetched i s = cacheLine i ((s.core i).pc.toNat / 32 * 32) new t := by
  obtain ⟨w, hfetch, -⟩ := atInstr_fetch h
  have hfetchable : fetchable (quiet s) i ((quiet s).core i).pc.toNat = true := by
    by_contra hno
    unfold fetch at hfetch
    simp only at hfetch
    rw [if_pos (by simpa using hno)] at hfetch
    cases congrArg Prod.snd hfetch
  have hline : fetch i (quiet s) = fetchLine i (s.core i).pc.toNat (parityError i (s.core i).pc.toNat (quiet s)) := by
    unfold fetch
    simp only
    rw [hfetchable, if_neg (by decide), show ((quiet s).core i).pc = (s.core i).pc from rfl,
      show cached (quiet s) i (s.core i).pc.toNat = some ws from hcached,
      show SMap.get? (quiet s).ecc (lineKey i (s.core i).pc.toNat) = some p from hbad]
  have hread := readLine_keeps i ((s.core i).pc.toNat / 32 * 32) (parityError i (s.core i).pc.toNat (quiet s))
  rw [hline] at hfetch
  unfold fetchLine at hfetch
  revert hfetch hread
  cases readLine i ((s.core i).pc.toNat / 32 * 32) (parityError i (s.core i).pc.toNat (quiet s)) with
  | mk t r =>
    cases r with
    | error e => intro hfetch; cases congrArg Prod.snd hfetch
    | ok new => exact fun hfetch hread => ⟨new, t, hread, (congrArg Prod.fst hfetch).symm⟩

/-- The line that a fetch has brought is cached, and without error. -/
theorem cached_cacheLine (i a : Nat) (ws : List Word) (s : State) : (cached (cacheLine i (a / 32 * 32) ws s) i a).isSome = true := by
  have hline : ∃ keep, ((cacheLine i (a / 32 * 32) ws s).core i).icache = keep ++ [(a / 32 * 32, ws)] := by
    unfold cacheLine eccClear modCore
    refine ⟨_, congrArg Core.icache (core_setCore_same s i _)⟩
  obtain ⟨keep, hkeep⟩ := hline
  unfold cached
  rw [hkeep, Option.isSome_map, List.find?_isSome]
  exact ⟨(a / 32 * 32, ws), by simp, by simp⟩

theorem get?_cacheLine (i a : Nat) (ws : List Word) (s : State) :
    SMap.get? (cacheLine i (a / 32 * 32) ws s).ecc (lineKey i a) = none := by
  have hkey : lineKey i (a / 32 * 32) = lineKey i a := by
    unfold lineKey
    rw [Nat.mul_div_cancel _ (by decide)]
  unfold cacheLine
  rw [hkey]
  exact SMap.get?_del_same _ _

/-- The words of a reach that a parity error writes, which no read of memory writes. -/
theorem readWord_parity (n : Nat) (hn : n < 5) :
    readWord (A.RCH_CORE_EVT n) = false ∧ readWord (A.RCH_CORE_ICPCNT n) = false ∧ evtLimited (A.RCH_CORE_EVT n) = false ∧
      A.RCH_CORE_EVT n ≠ A.LKP_PEND (outSource (A.RCH_CORE_EVT n / 0x10000) / 32) ∧
      A.RCH_CORE_ICPCNT n ≠ A.LKP_PEND (outSource (A.RCH_CORE_EVT n / 0x10000) / 32) ∧ A.RCH_CORE_ICPCNT n ≠ A.RCH_CORE_EVT n := by
  interval_cases n <;> decide

theorem parityError_counts (i a : Nat) (s : State) (hi : i < 40) :
    getF (parityError i a s) (F.RCH_CORE_ICPCNT_COUNT (i / 8)) = min 65535 (getF s (F.RCH_CORE_ICPCNT_COUNT (i / 8)) + 1)
      ∧ hasEvent s (parityError i a s) (A.RCH_CORE_EVT (i / 8)) (8 + i % 8) := by
  obtain ⟨-, -, hlimit, hevt, hcount, hne⟩ := readWord_parity (i / 8) (by omega)
  have hfresh : ∀ u : State, merges u (A.RCH_CORE_EVT (i / 8)) (8 + i % 8) = false := fun u => by
    unfold merges
    rw [hlimit]
    rfl
  unfold parityError
  simp only
  generalize hu : eccClear (lineKey i a) _ = u
  have hregs : ∀ f : FRef, getF u f = getF s f := fun f => by rw [← hu]; rfl
  obtain ⟨hbit, hseq⟩ := raise_sets (A.RCH_CORE_EVT (i / 8)) (8 + i % 8) (satF (F.RCH_CORE_ICPCNT_COUNT (i / 8)) 1 u) (by omega) (hfresh _) hevt
  refine ⟨?_, hbit, ?_⟩
  · rw [getF_of_rd (s := satF (F.RCH_CORE_ICPCNT_COUNT (i / 8)) 1 u) (rd_raise _ _ _ _ hne hcount),
      satF, getF_setF_same _ _ _ (show 0 + 16 ≤ 32 by decide), hregs, satAdd]
    simp only
    omega
  · rw [hseq, satF, getF_setF_other _ _ _ _ (show 0 + 16 ≤ 32 by decide) (.inl hne), hregs]

/-- ICINV in supervisor mode. -/
theorem exec_icinv (i : Fin 40) (s : State) (h : atInstr i .icinv s) (hsup : (s.core i).sup = true) :
    EndsWith (.icinv i) i s (fun k => (({ k with icache := [] } : Core).next).spend 64) :=
  exec_finish 64 (fun k => { k with icache := [] }) rfl h (by decide) (privileged_sup i _ _ (by rw [sup_fetched]; exact hsup))
    (fun _ => rfl) (fun _ => rfl) (fun _ => rfl)

/-- NOP from a line with a parity error: the error is counted and recorded, and the line fetched anew. -/
theorem exec_nopParity (i : Fin 40) (ws : List Word) (p : Bool) (s : State) (h : atInstr i .nop s)
    (hcached : cached s i (s.core i).pc.toNat = some ws) (hbad : SMap.get? s.ecc (lineKey i (s.core i).pc.toNat) = some p) :
    ∃ t, exec (.nop i) s = .next t ∧
      getF t (F.RCH_CORE_ICPCNT_COUNT (i / 8)) = min 65535 (getF s (F.RCH_CORE_ICPCNT_COUNT (i / 8)) + 1) ∧
      hasEvent s t (A.RCH_CORE_EVT (i / 8)) (8 + i % 8) ∧ (cached t i (s.core i).pc.toNat).isSome = true ∧
      SMap.get? t.ecc (lineKey i (s.core i).pc.toNat) = none ∧ (t.core i).pc = (s.core i).pc + 4 := by
  obtain ⟨t, cy, ht, hcore, hrest, -⟩ := exec_coreChange (c := .nop i) (fun k => (k.next).spend 1) rfl h rfl
    (fun ic => by simp [Core.spend, Core.next]) (fun _ => rfl) (fun _ => rfl)
  obtain ⟨new, u, hread, hline⟩ := fetched_parity h hcached hbad
  obtain ⟨hevt, hcnt, -⟩ := readWord_parity (i / 8) (by omega)
  obtain ⟨hcount, hbit, hseq⟩ := parityError_counts i (s.core i).pc.toNat (quiet s) i.isLt
  have hword : ∀ a, readWord a = false → rd t a = rd (parityError i (s.core i).pc.toNat (quiet s)) a := by
    intro a ha
    rw [← hread.word a ha, hrest, hline]
    rfl
  refine ⟨t, ht, ?_, ⟨?_, ?_⟩, ?_, ?_, ?_⟩
  · rw [getF_of_rd (hword _ hcnt), hcount]
    rfl
  · rw [getF_of_rd (hword _ hevt), hbit]
  · rw [getF_of_rd (hword _ hevt), hseq]
    rfl
  · have hcache : cached t i (s.core i).pc.toNat = cached (fetched i s) i (s.core i).pc.toNat := by
      unfold cached
      rw [hcore, Core.withCyc_icache, Core.spend, Core.next]
    rw [hcache, hline]
    exact cached_cacheLine _ _ _ _
  · rw [hrest, hline]
    exact get?_cacheLine _ _ _ _
  · rw [hcore, core_fetched]
    rfl

end Sys2Proof.Machine

namespace Sys2Proof.Proofs

open Sys2Proof.Machine

/-- Settles O29: what each of these instructions leaves, from the rules of the parts that it changes. -/
theorem stackTokensAndItems : Obligations.StackTokensAndItems := by
  unfold Obligations.StackTokensAndItems
  refine ⟨?_, ?_, ?_, exec_nopParity, ?_, exec_sig, ?_, ?_⟩
  · intro i a s h hroom
    exact (exec_push i a s h hroom).core_eq { s.core i with dstack := (s.core i).reg a :: (s.core i).dstack, pc := (s.core i).pc + 4 }
      (fun _ _ => rfl)
  · intro i d v l s h hstack
    obtain ⟨t, ic, cy, ht, hcore, honly⟩ := exec_pop i d v l s h hstack
    refine ⟨t, ht, ?_, ?_, honly⟩ <;> rw [hcore]
    · exact wrote_result { s.core i with dstack := l } ic cy 1 false d (plainResult v)
    · exact flagged_false (flagged_result { s.core i with dstack := l } ic cy 1 false d (plainResult v))
  · intro i s h
    exact (exec_finish 1 id rfl h one_ne_zero rfl (fun _ => rfl) (fun _ => rfl) (fun _ => rfl)).core_eq
      { s.core i with pc := (s.core i).pc + 4 } (fun _ _ => rfl)
  · intro i s h hempty hheld
    exact (exec_fence i s h hempty hheld).core_eq { s.core i with pc := (s.core i).pc + 4 } (fun _ _ => rfl)
  · exact exec_done
  · intro i s h hsup
    obtain ⟨t, ic, cy, ht, hcore, honly⟩ := exec_icinv i s h hsup
    exact ⟨t, ht, by rw [hcore]; rfl, honly⟩

end Sys2Proof.Proofs
end

section
/-! Decoding and encoding of Weevil words (04_weevil_instructions R117 to R119, R125): what each field of a word is, and for each
instruction that its number is that of a word exactly where its fields and the reserved ones read so. -/

namespace Sys2Proof.Machine

/-! ### Fields -/

/-- A flag of a word as the number of its bit. -/
theorem bit_bitAt (v k : Nat) : bit (bitAt v k) = bitsOf v k 1 := by
  unfold bitAt bit bitsOf
  rcases Nat.mod_two_eq_zero_or_one (v / 2 ^ k) with h | h <;> simp [h]

theorem bit_le_one (b : Bool) : bit b ≤ 1 := by cases b <;> decide

theorem bitAt_eq_iff {v k : Nat} {f : Bool} : bitAt v k = f ↔ bitsOf v k 1 = bit f := by
  rw [← bit_bitAt]
  cases bitAt v k <;> cases f <;> decide

@[simp] theorem val_regAt (v lo : Nat) : (regAt v lo).val = bitsOf v lo 4 := Nat.mod_eq_of_lt (bitsOf_lt v lo 4)

theorem regAt_eq_iff {v lo : Nat} {r : Fin 16} : regAt v lo = r ↔ bitsOf v lo 4 = r.val := by rw [Fin.ext_iff, val_regAt]

@[simp] theorem val_fiveAt (v lo : Nat) : (fiveAt v lo).val = bitsOf v lo 5 := Nat.mod_eq_of_lt (bitsOf_lt v lo 5)

theorem fiveAt_eq_iff {v lo : Nat} {n : Fin 32} : fiveAt v lo = n ↔ bitsOf v lo 5 = n.val := by rw [Fin.ext_iff, val_fiveAt]

@[simp] theorem toNat_fieldAt (n v lo : Nat) : (fieldAt n v lo).toNat = bitsOf v lo n := by
  rw [fieldAt, BitVec.toNat_ofNat, Nat.mod_eq_of_lt (bitsOf_lt v lo n)]

theorem fieldAt_eq_iff {n v lo : Nat} {x : BitVec n} : fieldAt n v lo = x ↔ bitsOf v lo n = x.toNat := by
  rw [← BitVec.toNat_inj, toNat_fieldAt]

theorem unless0_eq_some {r : Nat} {x y : WOp} : unless0 r x = some y ↔ r = 0 ∧ x = y := by
  simp [unless0]

theorem fieldFits_eq_some {v : Nat} {x y : WOp} : fieldFits v x = some y ↔ bitsOf v 13 5 + bitsOf v 8 5 ≤ 31 ∧ x = y := by
  simp [fieldFits]

/-! ### Codes of the tables -/

theorem ofFunc_eq_some {n : Nat} {op : AluOp} : AluOp.ofFunc n = some op ↔ n = op.func := by
  constructor
  · unfold AluOp.ofFunc
    split <;> intro h <;> cases h <;> rfl
  · rintro rfl
    cases op <;> rfl

theorem func_lt (op : AluOp) : op.func < 2 ^ 6 := by cases op <;> decide

/-- The code of CLZ is no other operation's. -/
theorem func_ne_clz (op : AluOp) : op.func ≠ 0x0C := by cases op <;> decide

theorem ofCode_eq_some {n : Nat} {f : BitFn} : BitFn.ofCode n = some f ↔ n = f.code := by
  constructor
  · unfold BitFn.ofCode
    split <;> intro h <;> cases h <;> rfl
  · rintro rfl
    cases f <;> rfl

theorem code_lt (f : BitFn) : f.code < 2 ^ 4 := by cases f <;> decide

theorem immMajor_lt (op : ImmOp) : op.major < 2 ^ 6 := by cases op <;> decide

theorem shiftMajor_lt (op : ShiftOp) : op.major < 2 ^ 6 := by cases op <;> decide

theorem loadMajor_lt (op : LoadOp) : op.major < 2 ^ 6 := by cases op <;> decide

theorem storeMajor_lt (op : StoreOp) : op.major < 2 ^ 6 := by cases op <;> decide

/-! ### Instructions by their major opcode

The number of an instruction is the one of a word exactly where the decoder reads the instruction from that word's fields. -/

section
variable {v : Nat}

theorem encodeNat_alu_iff (hv : v < 2 ^ 32) {op : AluOp} {f : Bool} {d a b : Fin 16} :
    encodeNat (.alu op f d a b) = v ↔ bitsOf v 26 6 = 0x01 ∧ decodeAlu v = some (.alu op f d a b) := by
  have hf := bit_le_one f
  have hfunc := func_lt op
  have hclz := func_ne_clz op
  unfold decodeAlu
  by_cases h : bitsOf v 0 6 = 0x0C
  · rw [if_pos h]
    simp only [Option.ite_none_left_eq_some, unless0_eq_some, reduceCtorEq, and_false, encodeNat, regs3, iff_false]
    unfold bitsOf at h
    omega
  · rw [if_neg h]
    simp only [Option.ite_none_left_eq_some, Option.map_eq_some_iff, ofFunc_eq_some, WOp.alu.injEq, regAt_eq_iff, bitAt_eq_iff,
      existsAndEq, true_and, encodeNat, regs3]
    unfold bitsOf at h ⊢
    omega

theorem encodeNat_clz_iff (hv : v < 2 ^ 32) {d a : Fin 16} :
    encodeNat (.clz d a) = v ↔ bitsOf v 26 6 = 0x01 ∧ decodeAlu v = some (.clz d a) := by
  unfold decodeAlu
  by_cases h : bitsOf v 0 6 = 0x0C
  · rw [if_pos h]
    simp only [Option.ite_none_left_eq_some, unless0_eq_some, WOp.clz.injEq, regAt_eq_iff, encodeNat, regs3]
    unfold bitsOf at h ⊢
    omega
  · rw [if_neg h]
    simp only [Option.ite_none_left_eq_some, Option.map_eq_some_iff, reduceCtorEq, and_false, exists_false, encodeNat, regs3, iff_false]
    unfold bitsOf at h
    omega

theorem encodeNat_imm_iff (hv : v < 2 ^ 32) {op : ImmOp} {f : Bool} {d a : Fin 16} {x : BitVec 16} :
    encodeNat (.imm op f d a x) = v ↔ bitsOf v 26 6 = op.major ∧ decodeImm op v = some (.imm op f d a x) := by
  have hf := bit_le_one f
  have hm := immMajor_lt op
  simp only [decodeImm, unless0_eq_some, WOp.imm.injEq, true_and, regAt_eq_iff, fieldAt_eq_iff, bitAt_eq_iff, encodeNat, regs3]
  unfold bitsOf
  omega

theorem encodeNat_shift_iff (hv : v < 2 ^ 32) {op : ShiftOp} {f : Bool} {d a : Fin 16} {n : Fin 32} :
    encodeNat (.shift op f d a n) = v ↔ bitsOf v 26 6 = op.major ∧ decodeShift op v = some (.shift op f d a n) := by
  have hf := bit_le_one f
  have hm := shiftMajor_lt op
  simp only [decodeShift, unless0_eq_some, WOp.shift.injEq, true_and, regAt_eq_iff, fiveAt_eq_iff, bitAt_eq_iff, encodeNat, regs3]
  unfold bitsOf
  omega

theorem encodeNat_cmpi_iff (hv : v < 2 ^ 32) {a : Fin 16} {x : BitVec 16} :
    encodeNat (.cmpi a x) = v ↔ bitsOf v 26 6 = 0x06 ∧
      unless0 (bitsOf v 22 4 + bitsOf v 16 2) (.cmpi (regAt v 18) (fieldAt 16 v 0)) = some (.cmpi a x) := by
  simp only [unless0_eq_some, WOp.cmpi.injEq, regAt_eq_iff, fieldAt_eq_iff, encodeNat, regs3]
  unfold bitsOf
  omega

theorem encodeNat_lui_iff (hv : v < 2 ^ 32) {d : Fin 16} {x : BitVec 16} :
    encodeNat (.lui d x) = v ↔ bitsOf v 26 6 = 0x07 ∧
      unless0 (bitsOf v 16 6) (.lui (regAt v 22) (fieldAt 16 v 0)) = some (.lui d x) := by
  simp only [unless0_eq_some, WOp.lui.injEq, regAt_eq_iff, fieldAt_eq_iff, encodeNat, regs3]
  unfold bitsOf
  omega

theorem encodeNat_bfx_iff (hv : v < 2 ^ 32) {sx : Bool} {d a : Fin 16} {p l : Fin 32} :
    p.val + l.val ≤ 31 ∧ encodeNat (.bfx sx d a p l) = v ↔ bitsOf v 26 6 = 0x0C ∧ bitsOf v 1 7 = 0 ∧
      fieldFits v (.bfx (bitAt v 0) (regAt v 22) (regAt v 18) (fiveAt v 13) (fiveAt v 8)) = some (.bfx sx d a p l) := by
  have hs := bit_le_one sx
  simp only [fieldFits_eq_some, WOp.bfx.injEq, bitAt_eq_iff, regAt_eq_iff, fiveAt_eq_iff, encodeNat, regs3]
  unfold bitsOf
  omega

theorem encodeNat_bfi_iff (hv : v < 2 ^ 32) {d a : Fin 16} {p l : Fin 32} :
    p.val + l.val ≤ 31 ∧ encodeNat (.bfi d a p l) = v ↔ bitsOf v 26 6 = 0x0D ∧ bitsOf v 0 8 = 0 ∧
      fieldFits v (.bfi (regAt v 22) (regAt v 18) (fiveAt v 13) (fiveAt v 8)) = some (.bfi d a p l) := by
  simp only [fieldFits_eq_some, WOp.bfi.injEq, regAt_eq_iff, fiveAt_eq_iff, encodeNat, regs3]
  unfold bitsOf
  omega

theorem encodeNat_bperm_iff (hv : v < 2 ^ 32) {d a b : Fin 16} {sel : BitVec 12} :
    encodeNat (.bperm d a b sel) = v ↔ bitsOf v 26 6 = 0x0E ∧
      unless0 (bitsOf v 0 2) (.bperm (regAt v 22) (regAt v 18) (regAt v 14) (fieldAt 12 v 2)) = some (.bperm d a b sel) := by
  simp only [unless0_eq_some, WOp.bperm.injEq, regAt_eq_iff, fieldAt_eq_iff, encodeNat, regs3]
  unfold bitsOf
  omega

theorem encodeNat_load_iff (hv : v < 2 ^ 32) {op : LoadOp} {d b : Fin 16} {x : BitVec 16} :
    encodeNat (.load op d b x) = v ↔ bitsOf v 26 6 = op.major ∧
      decodeMem (.load op (regAt v 22) (regAt v 18) (fieldAt 16 v 0)) v = some (.load op d b x) := by
  have hm := loadMajor_lt op
  simp only [decodeMem, unless0_eq_some, WOp.load.injEq, true_and, regAt_eq_iff, fieldAt_eq_iff, encodeNat, regs3]
  unfold bitsOf
  omega

theorem encodeNat_store_iff (hv : v < 2 ^ 32) {op : StoreOp} {r b : Fin 16} {x : BitVec 16} :
    encodeNat (.store op r b x) = v ↔ bitsOf v 26 6 = op.major ∧
      decodeMem (.store op (regAt v 22) (regAt v 18) (fieldAt 16 v 0)) v = some (.store op r b x) := by
  have hm := storeMajor_lt op
  simp only [decodeMem, unless0_eq_some, WOp.store.injEq, true_and, regAt_eq_iff, fieldAt_eq_iff, encodeNat, regs3]
  unfold bitsOf
  omega

theorem encodeNat_bcc_iff (hv : v < 2 ^ 32) {c : Fin 15} {x : BitVec 22} :
    encodeNat (.bcc c x) = v ↔ bitsOf v 26 6 = 0x20 ∧ bitsOf v 22 4 = c.val ∧ fieldAt 22 v 0 = x := by
  simp only [fieldAt_eq_iff, encodeNat]
  unfold bitsOf
  omega

theorem encodeNat_call_iff (hv : v < 2 ^ 32) {x : BitVec 26} : encodeNat (.call x) = v ↔ bitsOf v 26 6 = 0x21 ∧ fieldAt 26 v 0 = x := by
  simp only [fieldAt_eq_iff, encodeNat]
  unfold bitsOf
  omega

theorem encodeNat_bj_iff (hv : v < 2 ^ 32) {b : Bool} {x : BitVec 22} :
    encodeNat (.bj b x) = v ↔ bitsOf v 26 6 = (if b then 0x23 else 0x24) ∧
      unless0 (bitsOf v 22 4) (.bj b (fieldAt 22 v 0)) = some (.bj b x) := by
  simp only [unless0_eq_some, WOp.bj.injEq, true_and, fieldAt_eq_iff, encodeNat]
  unfold bitsOf
  omega

theorem encodeNat_bitm_iff (hv : v < 2 ^ 32) {f : BitFn} {b : Fin 16} {x : BitVec 13} {k : Fin 8} :
    encodeNat (.bitm f b x k) = v ↔ bitsOf v 26 6 = 0x2C ∧ bitsOf v 0 2 = 0 ∧ BitFn.ofCode (bitsOf v 22 4) = some f ∧
      regAt v 18 = b ∧ fieldAt 13 v 5 = x ∧ bitsOf v 2 3 = k.val := by
  have hcode := code_lt f
  simp only [ofCode_eq_some, regAt_eq_iff, fieldAt_eq_iff, encodeNat, regs3]
  unfold bitsOf
  omega

/-! ### Instructions with a code in bits 5 to 0 -/

/-- A word of a major and a code, with no operand. -/
theorem bare_iff (hv : v < 2 ^ 32) {m c : Nat} (hm : m < 2 ^ 6) (hc : c < 2 ^ 6) :
    m * 2 ^ 26 + c = v ↔ bitsOf v 26 6 = m ∧ bitsOf v 0 6 = c ∧ bitsOf v 6 20 = 0 := by
  unfold bitsOf
  omega

theorem encodeNat_jmp_iff (hv : v < 2 ^ 32) {a : Fin 16} :
    encodeNat (.jmp a) = v ↔ bitsOf v 26 6 = 0x22 ∧ bitsOf v 0 6 = 0 ∧
      unless0 (bitsOf v 22 4 + bitsOf v 6 12) (.jmp (regAt v 18)) = some (.jmp a) := by
  simp only [unless0_eq_some, WOp.jmp.injEq, regAt_eq_iff, encodeNat, regs3]
  unfold bitsOf
  omega

theorem encodeNat_callr_iff (hv : v < 2 ^ 32) {a : Fin 16} :
    encodeNat (.callr a) = v ↔ bitsOf v 26 6 = 0x22 ∧ bitsOf v 0 6 = 1 ∧
      unless0 (bitsOf v 22 4 + bitsOf v 6 12) (.callr (regAt v 18)) = some (.callr a) := by
  simp only [unless0_eq_some, WOp.callr.injEq, regAt_eq_iff, encodeNat, regs3]
  unfold bitsOf
  omega

theorem encodeNat_push_iff (hv : v < 2 ^ 32) {a : Fin 16} :
    encodeNat (.push a) = v ↔ bitsOf v 26 6 = 0x26 ∧ bitsOf v 0 6 = 0 ∧
      unless0 (bitsOf v 22 4 + bitsOf v 6 12) (.push (regAt v 18)) = some (.push a) := by
  simp only [unless0_eq_some, WOp.push.injEq, regAt_eq_iff, encodeNat, regs3]
  unfold bitsOf
  omega

theorem encodeNat_pop_iff (hv : v < 2 ^ 32) {d : Fin 16} :
    encodeNat (.pop d) = v ↔ bitsOf v 26 6 = 0x26 ∧ bitsOf v 0 6 = 1 ∧
      unless0 (bitsOf v 6 16) (.pop (regAt v 22)) = some (.pop d) := by
  simp only [unless0_eq_some, WOp.pop.injEq, regAt_eq_iff, encodeNat, regs3]
  unfold bitsOf
  omega

theorem encodeNat_sig_iff (hv : v < 2 ^ 32) {a b : Fin 16} :
    encodeNat (.sig a b) = v ↔ bitsOf v 26 6 = 0x3C ∧ bitsOf v 0 6 = 2 ∧
      unless0 (bitsOf v 6 8 + bitsOf v 22 4) (.sig (regAt v 18) (regAt v 14)) = some (.sig a b) := by
  simp only [unless0_eq_some, WOp.sig.injEq, regAt_eq_iff, encodeNat, regs3]
  unfold bitsOf
  omega

theorem encodeNat_trap_iff (hv : v < 2 ^ 32) {n : BitVec 8} :
    encodeNat (.trap n) = v ↔ bitsOf v 26 6 = 0x3C ∧ bitsOf v 0 6 = 4 ∧
      unless0 (bitsOf v 14 12) (.trap (fieldAt 8 v 6)) = some (.trap n) := by
  simp only [unless0_eq_some, WOp.trap.injEq, fieldAt_eq_iff, encodeNat]
  unfold bitsOf
  omega

theorem encodeNat_mfc_iff (hv : v < 2 ^ 32) {d : Fin 16} {c : BitVec 8} :
    encodeNat (.mfc d c) = v ↔ bitsOf v 26 6 = 0x3C ∧ bitsOf v 0 6 = 7 ∧
      unless0 (bitsOf v 14 8) (.mfc (regAt v 22) (fieldAt 8 v 6)) = some (.mfc d c) := by
  simp only [unless0_eq_some, WOp.mfc.injEq, regAt_eq_iff, fieldAt_eq_iff, encodeNat, regs3]
  unfold bitsOf
  omega

theorem encodeNat_mtc_iff (hv : v < 2 ^ 32) {c : BitVec 8} {a : Fin 16} :
    encodeNat (.mtc c a) = v ↔ bitsOf v 26 6 = 0x3C ∧ bitsOf v 0 6 = 8 ∧
      unless0 (bitsOf v 14 4 + bitsOf v 22 4) (.mtc (fieldAt 8 v 6) (regAt v 18)) = some (.mtc c a) := by
  simp only [unless0_eq_some, WOp.mtc.injEq, regAt_eq_iff, fieldAt_eq_iff, encodeNat, regs3]
  unfold bitsOf
  omega

/-! ### What the decoder reads -/

/-- Instruction `x` has a word, and its number is `v`. -/
def WOp.HasWord (x : WOp) (v : Nat) : Prop := x.encodable = true ∧ encodeNat x = v

/-- What is read of a word whose reserved fields are 0 is the instruction it is the word of. -/
theorem hasWord_of_unless0 {r : Nat} {x y : WOp} (h : unless0 r y = some x) (hy : y.encodable = true)
    (hw : unless0 r y = some y → encodeNat y = v) : x.HasWord v := by
  obtain ⟨-, rfl⟩ := unless0_eq_some.mp h
  exact ⟨hy, hw h⟩

/-- So it is of an instruction with no operand. -/
theorem hasWord_of_bare (hv : v < 2 ^ 32) {m c : Nat} {x y : WOp} (hm : bitsOf v 26 6 = m) (hc : bitsOf v 0 6 = c)
    (h : unless0 (bitsOf v 6 20) y = some x) (hy : y.encodable = true) (hn : encodeNat y = m * 2 ^ 26 + c) : x.HasWord v :=
  hasWord_of_unless0 h hy fun h => hn.trans ((bare_iff hv (hm ▸ bitsOf_lt v 26 6) (hc ▸ bitsOf_lt v 0 6)).mpr
    ⟨hm, hc, (unless0_eq_some.mp h).1⟩)

theorem hasWord_of_decodeAlu (hv : v < 2 ^ 32) {x : WOp} (hm : bitsOf v 26 6 = 0x01) (h : decodeAlu v = some x) : x.HasWord v := by
  have hread := h
  unfold decodeAlu at h
  split at h
  · cases h
  · split at h
    · obtain ⟨-, rfl⟩ := unless0_eq_some.mp h
      exact ⟨rfl, (encodeNat_clz_iff hv).mpr ⟨hm, hread⟩⟩
    · obtain ⟨op, -, rfl⟩ := Option.map_eq_some_iff.mp h
      exact ⟨rfl, (encodeNat_alu_iff hv).mpr ⟨hm, hread⟩⟩

theorem hasWord_of_decodeImm (hv : v < 2 ^ 32) {op : ImmOp} {x : WOp} (h : decodeImm op v = some x) (hm : bitsOf v 26 6 = op.major) :
    x.HasWord v :=
  hasWord_of_unless0 h rfl fun h => (encodeNat_imm_iff hv).mpr ⟨hm, h⟩

theorem hasWord_of_decodeShift (hv : v < 2 ^ 32) {op : ShiftOp} {x : WOp} (h : decodeShift op v = some x)
    (hm : bitsOf v 26 6 = op.major) : x.HasWord v :=
  hasWord_of_unless0 h rfl fun h => (encodeNat_shift_iff hv).mpr ⟨hm, h⟩

theorem hasWord_of_decodeLoad (hv : v < 2 ^ 32) {op : LoadOp} {x : WOp}
    (h : decodeMem (.load op (regAt v 22) (regAt v 18) (fieldAt 16 v 0)) v = some x) (hm : bitsOf v 26 6 = op.major) : x.HasWord v :=
  hasWord_of_unless0 h rfl fun h => (encodeNat_load_iff hv).mpr ⟨hm, h⟩

theorem hasWord_of_decodeStore (hv : v < 2 ^ 32) {op : StoreOp} {x : WOp}
    (h : decodeMem (.store op (regAt v 22) (regAt v 18) (fieldAt 16 v 0)) v = some x) (hm : bitsOf v 26 6 = op.major) : x.HasWord v :=
  hasWord_of_unless0 h rfl fun h => (encodeNat_store_iff hv).mpr ⟨hm, h⟩

theorem hasWord_of_bfx (hv : v < 2 ^ 32) {x : WOp} (hm : bitsOf v 26 6 = 0x0C) (h0 : bitsOf v 1 7 = 0)
    (h : fieldFits v (.bfx (bitAt v 0) (regAt v 22) (regAt v 18) (fiveAt v 13) (fiveAt v 8)) = some x) : x.HasWord v := by
  obtain ⟨-, rfl⟩ := fieldFits_eq_some.mp h
  obtain ⟨hfits, hw⟩ := (encodeNat_bfx_iff hv).mpr ⟨hm, h0, h⟩
  exact ⟨decide_eq_true hfits, hw⟩

theorem hasWord_of_bfi (hv : v < 2 ^ 32) {x : WOp} (hm : bitsOf v 26 6 = 0x0D) (h0 : bitsOf v 0 8 = 0)
    (h : fieldFits v (.bfi (regAt v 22) (regAt v 18) (fiveAt v 13) (fiveAt v 8)) = some x) : x.HasWord v := by
  obtain ⟨-, rfl⟩ := fieldFits_eq_some.mp h
  obtain ⟨hfits, hw⟩ := (encodeNat_bfi_iff hv).mpr ⟨hm, h0, h⟩
  exact ⟨decide_eq_true hfits, hw⟩

theorem hasWord_of_decodeJr (hv : v < 2 ^ 32) {x : WOp} (hm : bitsOf v 26 6 = 0x22) (h : decodeJr v = some x) : x.HasWord v := by
  unfold decodeJr at h
  split at h
  · next hc => exact hasWord_of_unless0 h rfl fun h => (encodeNat_jmp_iff hv).mpr ⟨hm, hc, h⟩
  · next hc => exact hasWord_of_unless0 h rfl fun h => (encodeNat_callr_iff hv).mpr ⟨hm, hc, h⟩
  · next hc => exact hasWord_of_bare hv hm hc h rfl rfl
  · cases h

theorem hasWord_of_decodeStk (hv : v < 2 ^ 32) {x : WOp} (hm : bitsOf v 26 6 = 0x26) (h : decodeStk v = some x) : x.HasWord v := by
  unfold decodeStk at h
  split at h
  · next hc => exact hasWord_of_unless0 h rfl fun h => (encodeNat_push_iff hv).mpr ⟨hm, hc, h⟩
  · next hc => exact hasWord_of_unless0 h rfl fun h => (encodeNat_pop_iff hv).mpr ⟨hm, hc, h⟩
  · cases h

theorem hasWord_of_decodeBitc (hv : v < 2 ^ 32) {x : WOp} (hm : bitsOf v 26 6 = 0x2D) (h : decodeBitc v = some x) : x.HasWord v := by
  unfold decodeBitc at h
  split at h
  · cases h
  · next hzero =>
    have hread : ∀ y, some y = some x → unless0 (bitsOf v 6 20) y = some x := fun y h =>
      unless0_eq_some.mpr ⟨not_not.mp hzero, Option.some.inj h⟩
    split at h
    iterate 5 next hc => exact hasWord_of_bare hv hm hc (hread _ h) rfl rfl
    · cases h

theorem hasWord_of_decodeSys (hv : v < 2 ^ 32) {x : WOp} (hm : bitsOf v 26 6 = 0x3C) (h : decodeSys v = some x) : x.HasWord v := by
  unfold decodeSys at h
  dsimp only at h
  split at h
  · next hc => exact hasWord_of_bare hv hm hc h rfl rfl
  · next hc => exact hasWord_of_bare hv hm hc h rfl rfl
  · next hc => exact hasWord_of_unless0 h rfl fun h => (encodeNat_sig_iff hv).mpr ⟨hm, hc, h⟩
  · next hc => exact hasWord_of_bare hv hm hc h rfl rfl
  · next hc => exact hasWord_of_unless0 h rfl fun h => (encodeNat_trap_iff hv).mpr ⟨hm, hc, h⟩
  · next hc => exact hasWord_of_bare hv hm hc h rfl rfl
  · next hc => exact hasWord_of_bare hv hm hc h rfl rfl
  · next hc => exact hasWord_of_unless0 h rfl fun h => (encodeNat_mfc_iff hv).mpr ⟨hm, hc, h⟩
  · next hc => exact hasWord_of_unless0 h rfl fun h => (encodeNat_mtc_iff hv).mpr ⟨hm, hc, h⟩
  · next hc => exact hasWord_of_bare hv hm hc h rfl rfl
  · cases h

end

/-- A word that decodes to an instruction is its word. -/
theorem hasWord_of_decodeW {w : Word} {x : WOp} (h : decodeW w = some x) : x.HasWord w.toNat := by
  have hv := w.isLt
  unfold decodeW at h
  dsimp only at h
  split at h
  · next hm => exact hasWord_of_decodeAlu hv hm h
  iterate 4 next hm => exact hasWord_of_decodeImm hv h hm
  · next hm => exact hasWord_of_unless0 h rfl fun h => (encodeNat_cmpi_iff hv).mpr ⟨hm, h⟩
  · next hm => exact hasWord_of_unless0 h rfl fun h => (encodeNat_lui_iff hv).mpr ⟨hm, h⟩
  iterate 4 next hm => exact hasWord_of_decodeShift hv h hm
  · next hm =>
    obtain ⟨h0, h⟩ := Option.ite_none_right_eq_some.mp h
    exact hasWord_of_bfx hv hm h0 h
  · next hm =>
    obtain ⟨h0, h⟩ := Option.ite_none_right_eq_some.mp h
    exact hasWord_of_bfi hv hm h0 h
  · next hm => exact hasWord_of_unless0 h rfl fun h => (encodeNat_bperm_iff hv).mpr ⟨hm, h⟩
  iterate 5 next hm => exact hasWord_of_decodeLoad hv h hm
  iterate 3 next hm => exact hasWord_of_decodeStore hv h hm
  · next hm =>
    obtain ⟨hc, h⟩ := Option.dite_none_right_eq_some.mp h
    cases h
    exact ⟨rfl, (encodeNat_bcc_iff hv).mpr ⟨hm, rfl, rfl⟩⟩
  · next hm =>
    cases h
    exact ⟨rfl, (encodeNat_call_iff hv).mpr ⟨hm, rfl⟩⟩
  · next hm => exact hasWord_of_decodeJr hv hm h
  · next hm => exact hasWord_of_unless0 h rfl fun h => (encodeNat_bj_iff hv).mpr ⟨hm, h⟩
  · next hm => exact hasWord_of_unless0 h rfl fun h => (encodeNat_bj_iff hv).mpr ⟨hm, h⟩
  · next hm => exact hasWord_of_decodeStk hv hm h
  · next hm =>
    obtain ⟨h0, h⟩ := Option.ite_none_right_eq_some.mp h
    obtain ⟨f, hf, rfl⟩ := Option.map_eq_some_iff.mp h
    exact ⟨rfl, (encodeNat_bitm_iff hv).mpr ⟨hm, h0, hf, rfl, rfl, (Nat.mod_eq_of_lt (bitsOf_lt _ 2 3)).symm⟩⟩
  · next hm => exact hasWord_of_decodeBitc hv hm h
  · next hm => exact hasWord_of_decodeSys hv hm h
  · cases h

/-! ### What the encoder writes -/

theorem encodeNat_lt (x : WOp) : encodeNat x < 2 ^ 32 := by
  cases x with
  | alu op f d a b =>
    have hfunc := func_lt op
    have hf := bit_le_one f
    simp only [encodeNat, regs3]
    omega
  | imm op f d a n =>
    have hm := immMajor_lt op
    have hf := bit_le_one f
    simp only [encodeNat, regs3]
    omega
  | shift op f d a n =>
    have hm := shiftMajor_lt op
    have hf := bit_le_one f
    simp only [encodeNat, regs3]
    omega
  | bfx sx d a p l =>
    have hs := bit_le_one sx
    simp only [encodeNat, regs3]
    omega
  | load op d b n =>
    have hm := loadMajor_lt op
    simp only [encodeNat, regs3]
    omega
  | store op r b n =>
    have hm := storeMajor_lt op
    simp only [encodeNat, regs3]
    omega
  | bj b n =>
    have hm : (if b then 0x23 else 0x24) < 2 ^ 6 := by cases b <;> decide
    simp only [encodeNat]
    omega
  | bitm f b n k =>
    have hcode := code_lt f
    simp only [encodeNat, regs3]
    omega
  | bnest op => cases op <;> decide
  | _ =>
    simp only [encodeNat, regs3]
    omega

theorem toNat_encodeW (x : WOp) : (encodeW x).toNat = encodeNat x := toNat_w32_lt _ (encodeNat_lt x)

theorem encodeW_of_encodeNat {w : Word} {x : WOp} (h : encodeNat x = w.toNat) : encodeW x = w := by
  rw [encodeW, h, w32_toNat]

section
variable {w : Word}

theorem decodeW_imm {op : ImmOp} (hm : bitsOf w.toNat 26 6 = op.major) : decodeW w = decodeImm op w.toNat := by
  cases op <;> (rw [ImmOp.major] at hm; simp only [decodeW, hm])

theorem decodeW_shift {op : ShiftOp} (hm : bitsOf w.toNat 26 6 = op.major) : decodeW w = decodeShift op w.toNat := by
  cases op <;> (rw [ShiftOp.major] at hm; simp only [decodeW, hm])

theorem decodeW_load {op : LoadOp} (hm : bitsOf w.toNat 26 6 = op.major) :
    decodeW w = decodeMem (.load op (regAt w.toNat 22) (regAt w.toNat 18) (fieldAt 16 w.toNat 0)) w.toNat := by
  cases op <;> (rw [LoadOp.major] at hm; simp only [decodeW, hm])

theorem decodeW_store {op : StoreOp} (hm : bitsOf w.toNat 26 6 = op.major) :
    decodeW w = decodeMem (.store op (regAt w.toNat 22) (regAt w.toNat 18) (fieldAt 16 w.toNat 0)) w.toNat := by
  cases op <;> (rw [StoreOp.major] at hm; simp only [decodeW, hm])

end

/-- The decoder reads an instruction from its word. -/
theorem decodeW_encodeW (x : WOp) (hx : x.encodable = true) : decodeW (encodeW x) = some x := by
  have h := (toNat_encodeW x).symm
  have hv := (encodeW x).isLt
  generalize encodeW x = w at h hv
  cases x with
  | alu op f d a b =>
    obtain ⟨hm, hd⟩ := (encodeNat_alu_iff hv).mp h
    simp only [decodeW, hm, hd]
  | imm op f d a n =>
    obtain ⟨hm, hd⟩ := (encodeNat_imm_iff hv).mp h
    rw [decodeW_imm hm, hd]
  | cmpi a n =>
    obtain ⟨hm, hd⟩ := (encodeNat_cmpi_iff hv).mp h
    simp only [decodeW, hm, hd]
  | lui d n =>
    obtain ⟨hm, hd⟩ := (encodeNat_lui_iff hv).mp h
    simp only [decodeW, hm, hd]
  | shift op f d a n =>
    obtain ⟨hm, hd⟩ := (encodeNat_shift_iff hv).mp h
    rw [decodeW_shift hm, hd]
  | clz d a =>
    obtain ⟨hm, hd⟩ := (encodeNat_clz_iff hv).mp h
    simp only [decodeW, hm, hd]
  | bfx sx d a p l =>
    obtain ⟨hm, h0, hd⟩ := (encodeNat_bfx_iff hv).mp ⟨of_decide_eq_true hx, h⟩
    simp only [decodeW, hm, h0, hd, if_true]
  | bfi d a p l =>
    obtain ⟨hm, h0, hd⟩ := (encodeNat_bfi_iff hv).mp ⟨of_decide_eq_true hx, h⟩
    simp only [decodeW, hm, h0, hd, if_true]
  | bperm d a b sel =>
    obtain ⟨hm, hd⟩ := (encodeNat_bperm_iff hv).mp h
    simp only [decodeW, hm, hd]
  | load op d b n =>
    obtain ⟨hm, hd⟩ := (encodeNat_load_iff hv).mp h
    rw [decodeW_load hm, hd]
  | store op r b n =>
    obtain ⟨hm, hd⟩ := (encodeNat_store_iff hv).mp h
    rw [decodeW_store hm, hd]
  | bcc c n =>
    obtain ⟨hm, hc, hd⟩ := (encodeNat_bcc_iff hv).mp h
    simp only [decodeW, hm, hc, hd, c.isLt, dite_true]
  | call n =>
    obtain ⟨hm, hd⟩ := (encodeNat_call_iff hv).mp h
    simp only [decodeW, hm, hd]
  | jmp a =>
    obtain ⟨hm, hc, hd⟩ := (encodeNat_jmp_iff hv).mp h
    simp only [decodeW, decodeJr, hm, hc, hd]
  | callr a =>
    obtain ⟨hm, hc, hd⟩ := (encodeNat_callr_iff hv).mp h
    simp only [decodeW, decodeJr, hm, hc, hd]
  | bj b n =>
    obtain ⟨hm, hd⟩ := (encodeNat_bj_iff hv).mp h
    cases b <;> simp only [decodeW, hm, hd, if_true, Bool.false_eq_true, if_false]
  | push a =>
    obtain ⟨hm, hc, hd⟩ := (encodeNat_push_iff hv).mp h
    simp only [decodeW, decodeStk, hm, hc, hd]
  | pop d =>
    obtain ⟨hm, hc, hd⟩ := (encodeNat_pop_iff hv).mp h
    simp only [decodeW, decodeStk, hm, hc, hd]
  | bitm f b n k =>
    obtain ⟨hm, h0, hf, hb, hn, hk⟩ := (encodeNat_bitm_iff hv).mp h
    simp only [decodeW, hm, h0, hf, hb, hn, hk, if_true, Option.map_some, Nat.mod_eq_of_lt k.isLt]
  | sig a b =>
    obtain ⟨hm, hc, hd⟩ := (encodeNat_sig_iff hv).mp h
    simp only [decodeW, decodeSys, hm, hc, hd]
  | trap n =>
    obtain ⟨hm, hc, hd⟩ := (encodeNat_trap_iff hv).mp h
    simp only [decodeW, decodeSys, hm, hc, hd]
  | mfc d c =>
    obtain ⟨hm, hc, hd⟩ := (encodeNat_mfc_iff hv).mp h
    simp only [decodeW, decodeSys, hm, hc, hd]
  | mtc c a =>
    obtain ⟨hm, hc, hd⟩ := (encodeNat_mtc_iff hv).mp h
    simp only [decodeW, decodeSys, hm, hc, hd]
  | bnest op =>
    rw [← encodeW_of_encodeNat h]
    cases op <;> rfl
  | ret | bunnest | bnot | nop | fence | done | brk | rfe | icinv => rw [← encodeW_of_encodeNat h]; rfl

end Sys2Proof.Machine

namespace Sys2Proof.Proofs

open Sys2Proof.Machine

/-- Settles O5: an instruction has the word whose fields it is read from, and a word that decodes has only fields that its instruction
has, or reserved ones that are 0. -/
theorem weevilRoundTrip : Obligations.WeevilRoundTrip := by
  unfold Obligations.WeevilRoundTrip
  refine ⟨decodeW_encodeW, fun w x h => ?_⟩
  obtain ⟨hx, hw⟩ := hasWord_of_decodeW h
  exact ⟨hx, encodeW_of_encodeNat hw⟩

end Sys2Proof.Proofs
end

section
/-! Shifts and bit fields: what their operations give, and what a core that runs one answers (04_weevil_instructions R122 to R125). -/

namespace Sys2Proof.Machine

/-! ### Results -/

/-- A shift by 0 leaves C (R123). -/
theorem shifted_carry (n : Nat) (b c : Bool) : (if n = 0 then none else some b).getD c = if n = 0 then c else b := by
  split <;> rfl

/-- The number of leading zeros is where the highest 1-bit stands. -/
theorem clz_eq (a : Word) : clz a = a.clz := by
  unfold clz
  split
  · next h => rw [h]; rfl
  · next h =>
    have hpos : a.toNat ≠ 0 := fun h0 => h (BitVec.eq_of_toNat_eq h0)
    have hle : 2 ^ (31 - a.clz.toNat) ≤ a.toNat := BitVec.two_pow_sub_clz_le_toNat_of_ne_zero (by decide) h
    have hlt : a.toNat < 2 ^ (32 - a.clz.toNat) := BitVec.toNat_lt_two_pow_sub_clz
    have hzeros : a.clz.toNat < 32 := by
      by_contra hall
      rw [show 32 - a.clz.toNat = 0 by omega] at hlt
      omega
    rw [show 32 - a.clz.toNat = 31 - a.clz.toNat + 1 by omega] at hlt
    have hlog : msbOf a.toNat = 31 - a.clz.toNat := (Nat.log2_eq_iff hpos).mpr ⟨hle, hlt⟩
    rw [hlog, show 31 - (31 - a.clz.toNat) = a.clz.toNat by omega, w32_toNat]

/-- A field of a word is the number of the bit vector cut out of it. -/
theorem toNat_extract_eq_bitsOf {n : Nat} (a : BitVec n) (lo w : Nat) : (a.extractLsb' lo w).toNat = bitsOf a.toNat lo w := by
  rw [BitVec.extractLsb'_toNat, Nat.shiftRight_eq_div_pow, bitsOf]

theorem bitField_zeros (a : Word) (p l : Nat) : bitField false a p l = (a.extractLsb' p (l + 1)).setWidth 32 := by
  rw [← BitVec.ofNat_toNat, toNat_extract_eq_bitsOf]
  rfl

theorem bitField_signs (a : Word) (p l : Nat) : bitField true a p l = (a.extractLsb' p (l + 1)).signExtend 32 := by
  have hlt := bitsOf_lt a.toNat p (l + 1)
  unfold bitField BitVec.signExtend signed BitVec.toInt
  simp only [if_true, toNat_extract_eq_bitsOf, Nat.mod_eq_of_lt hlt]

/-- A field between two shifts: its top bit moves to bit 31 and back. -/
theorem extracted_zeros (a : Word) (p : Nat) (l : Fin 32) :
    (a.extractLsb' p (l.val + 1)).setWidth 32 = ((a >>> p) <<< (31 - l.val)) >>> (31 - l.val) := by
  have hl := l.isLt
  apply BitVec.eq_of_getLsbD_eq
  intro i hi
  simp only [BitVec.getLsbD_setWidth, BitVec.getLsbD_extractLsb', BitVec.getLsbD_ushiftRight, BitVec.getLsbD_shiftLeft]
  rw [Nat.add_sub_cancel_left]
  by_cases hin : i < l.val + 1
  · simp [hi, hin, show 31 - l.val + i < 32 by omega]
  · simp [hin, show ¬ 31 - l.val + i < 32 by omega]

theorem extracted_signs (a : Word) (p : Nat) (l : Fin 32) :
    (a.extractLsb' p (l.val + 1)).signExtend 32 = ((a >>> p) <<< (31 - l.val)).sshiftRight (31 - l.val) := by
  have hl := l.isLt
  have htop : (a.extractLsb' p (l.val + 1)).msb = ((a >>> p) <<< (31 - l.val)).msb := by
    simp [BitVec.msb_eq_getLsbD_last, show 31 - (31 - l.val) = l.val by omega]
  apply BitVec.eq_of_getLsbD_eq
  intro i hi
  rw [BitVec.getLsbD_signExtend, BitVec.getLsbD_sshiftRight, htop]
  by_cases hin : i < l.val + 1
  · simp [hi, hin, show 31 - l.val + i < 32 by omega]
  · simp [hi, hin, show ¬ 31 - l.val + i < 32 by omega]

theorem getLsbD_insertField (d a : Word) (p l : Nat) (j : Fin 32) :
    (insertField d a p l).getLsbD j = if p ≤ j.val ∧ j.val ≤ p + l then a.getLsbD (j.val - p) else d.getLsbD j := by
  have hj := j.isLt
  rw [insertField, w32, BitVec.getLsbD_ofNat, decide_eq_true hj, Bool.true_and, testBit_putBits, BitVec.testBit_toNat, BitVec.testBit_toNat]
  by_cases hlow : j.val < p
  · rw [if_pos hlow, if_neg (by omega)]
  · rw [if_neg hlow]
    by_cases hin : j.val < p + (l + 1)
    · rw [if_pos hin, if_pos (by omega)]
    · rw [if_neg hin, if_neg (by omega)]

/-- A source byte of BPERM. -/
def permSource (a b : Word) (k : Nat) : Nat := if k < 4 then bitsOf a.toNat (8 * k) 8 else bitsOf b.toNat (8 * (k - 4)) 8

theorem permSource_eq (a b : Word) (k : Nat) : permSource a b k = ((b ++ a).extractLsb' (8 * k) 8).toNat := by
  apply Nat.eq_of_testBit_eq
  intro i
  rw [BitVec.testBit_toNat, BitVec.getLsbD_extractLsb', BitVec.getLsbD_append, permSource]
  by_cases hi : i < 8
  · by_cases hk : k < 4
    · rw [if_pos hk, if_pos (by omega), testBit_bitsOf, BitVec.testBit_toNat]
    · rw [if_neg hk, if_neg (by omega), testBit_bitsOf, BitVec.testBit_toNat, show 8 * (k - 4) + i = 8 * k + i - 32 by omega]
  · split <;> simp [testBit_bitsOf, hi]

theorem permSource_lt (a b : Word) (k : Nat) : permSource a b k < 2 ^ 8 := by
  rw [permSource_eq]
  exact BitVec.isLt _

theorem foldl_range_four (g : Nat → Nat) : (List.range 4).foldl (fun v k => v + g k) 0 = g 0 + g 1 + g 2 + g 3 := by
  simp [List.range_succ]

/-- Four bytes in a row, each read back at its place. -/
theorem bitsOf_bytes (f : Nat → Nat) (hf : ∀ k, f k < 2 ^ 8) (j : Fin 4) :
    bitsOf (w32 ((List.range 4).foldl (fun v k => v + f k * 2 ^ (8 * k)) 0)).toNat (8 * j.val) 8 = f j.val := by
  have h0 := hf 0
  have h1 := hf 1
  have h2 := hf 2
  have h3 := hf 3
  have hlt : f 0 * 2 ^ (8 * 0) + f 1 * 2 ^ (8 * 1) + f 2 * 2 ^ (8 * 2) + f 3 * 2 ^ (8 * 3) < 2 ^ 32 := by omega
  rw [foldl_range_four, toNat_w32_lt _ hlt, bitsOf]
  obtain hj | hj | hj | hj : j.val = 0 ∨ j.val = 1 ∨ j.val = 2 ∨ j.val = 3 := by omega
  all_goals
    rw [hj]
    omega

theorem permute_eq (a b : Word) (sel : BitVec 12) :
    permute a b sel = w32 ((List.range 4).foldl (fun v k => v + permSource a b (bitsOf sel.toNat (3 * k) 3) * 2 ^ (8 * k)) 0) := by
  unfold permute permSource
  rfl

theorem permute_byte (a b : Word) (sel : BitVec 12) (j : Fin 4) :
    (permute a b sel).extractLsb' (8 * j.val) 8 = (b ++ a).extractLsb' (8 * (sel.extractLsb' (3 * j.val) 3).toNat) 8 := by
  have hbyte := bitsOf_bytes (fun k => permSource a b (bitsOf sel.toNat (3 * k) 3)) (fun k => permSource_lt a b _) j
  apply BitVec.eq_of_toNat_eq
  rw [toNat_extract_eq_bitsOf, permute_eq, hbyte, toNat_extract_eq_bitsOf sel, ← permSource_eq]

/-! ### The instructions -/

theorem exec_shift {c : Instr} {i : Fin 40} {s : State} {op : ShiftOp} {f : Bool} {d a : Fin 16} {n : Fin 32} (x : Flagged)
    (hexec : exec c s = onDie (weevil i (.shift op f d a n)) s) (h : atInstr i (.shift op f d a n) s)
    (hx : op.apply ((s.core i).reg a) n.val = x) : Results c i s f d x := by
  refine exec_result 1 f d x hexec h one_ne_zero ?_
  rw [← hx, ← reg_fetched i s a]
  rfl

/-- The result of a shift by `n`, whose last bit out is `b`. -/
theorem Results.shifted {c : Instr} {i : Fin 40} {s : State} {f : Bool} {d : Fin 16} {r : Word} {n : Nat} {b : Bool}
    (h : Results c i s f d ⟨r, if n = 0 then none else some b, none⟩) :
    ∃ t, exec c s = .next t ∧ wrote d r (s.core i) (t.core i) ∧
      flagged f r (if n = 0 then (s.core i).c else b) (s.core i).v (s.core i) (t.core i) ∧ coreOnly i s t := by
  rw [← shifted_carry]
  exact h

/-- An instruction that ends with a value of its core's registers in a register, and leaves the flags. -/
theorem exec_ofCore {c : Instr} {i : Fin 40} {op : WOp} {s : State} {d : Fin 16} (g : Core → Word) (v : Word)
    (hexec : exec c s = onDie (weevil i op) s) (h : atInstr i op s)
    (hu : execOp i op (fetched i s) = finish i 1 (fun k => k.setReg d (g k)) (fetched i s)) (hg : g ((fetched i s).core i) = v) :
    ∃ t, exec c s = .next t ∧ wrote d v (s.core i) (t.core i) ∧ flagged false 0 false false (s.core i) (t.core i) ∧
      coreOnly i s t := by
  refine exec_value 1 d v hexec h one_ne_zero ?_
  rw [hu, ← hg]
  rfl

/-- What has been written is what the register reads, but for w0. -/
theorem wrote_reg {d : Fin 16} {v : Word} {k k' : Core} (h : wrote d v k k') :
    wrote d (k'.reg d) k k' ∧ (d = 0 ∨ k'.reg d = v) := by
  obtain ⟨hreg, hrest⟩ := h
  by_cases hd : d = 0
  · rw [if_pos hd] at hreg
    exact ⟨⟨by rw [hreg, ite_self], hrest⟩, .inl hd⟩
  · rw [if_neg hd] at hreg
    exact ⟨⟨by rw [if_neg hd], hrest⟩, .inr hreg⟩

end Sys2Proof.Machine

namespace Sys2Proof.Proofs

open Sys2Proof.Machine

/-- Settles O24: the shifts give their result and the last bit shifted out, and a field of a register is a bit vector of its own. -/
theorem shiftsAndBitFields : Obligations.ShiftsAndBitFields := by
  unfold Obligations.ShiftsAndBitFields
  refine ⟨?_, ?_, ?_, ?_, ?_, ?_, ?_, ?_, ?_, ?_, ?_, ?_, ?_⟩
  · exact fun i f d a b s h => (exec_alu (shiftL _ _) rfl h rfl).shifted
  · exact fun i f d a b s h => (exec_alu (shiftR _ _) rfl h rfl).shifted
  · exact fun i f d a b s h => (exec_alu (shiftS _ _) rfl h rfl).shifted
  · exact fun i f d a b s h => (exec_alu (rotR _ _) rfl h rfl).shifted
  · exact fun i f d a n s h => (exec_shift (shiftL _ _) rfl h rfl).shifted
  · exact fun i f d a n s h => (exec_shift (shiftR _ _) rfl h rfl).shifted
  · exact fun i f d a n s h => (exec_shift (shiftS _ _) rfl h rfl).shifted
  · exact fun i f d a n s h => (exec_shift (rotR _ _) rfl h rfl).shifted
  · exact fun i d a s h => exec_ofCore (fun k => clz (k.reg a)) _ rfl h rfl (by rw [reg_fetched, clz_eq])
  · exact fun i d a p l s h => exec_ofCore (fun k => bitField false (k.reg a) p.val l.val) _ rfl h rfl
      (by rw [reg_fetched, bitField_zeros, extracted_zeros])
  · exact fun i d a p l s h => exec_ofCore (fun k => bitField true (k.reg a) p.val l.val) _ rfl h rfl
      (by rw [reg_fetched, bitField_signs, extracted_signs])
  · intro i d a p l s h
    obtain ⟨t, ht, hwrote, hflags, honly⟩ := exec_ofCore (c := .bfi i d a p l) (fun k => insertField (k.reg d) (k.reg a) p.val l.val)
      (insertField ((s.core i).reg d) ((s.core i).reg a) p.val l.val) rfl h rfl (by rw [reg_fetched, reg_fetched])
    obtain ⟨hreg, hvalue⟩ := wrote_reg hwrote
    exact ⟨t, ht, hreg, fun j => hvalue.imp_right fun hd => by rw [hd, getLsbD_insertField], hflags, honly⟩
  · intro i d a b sel s h
    obtain ⟨t, ht, hwrote, hflags, honly⟩ := exec_ofCore (c := .bperm i d a b sel) (fun k => permute (k.reg a) (k.reg b) sel)
      (permute ((s.core i).reg a) ((s.core i).reg b) sel) rfl h rfl (by rw [reg_fetched, reg_fetched])
    obtain ⟨hreg, hvalue⟩ := wrote_reg hwrote
    exact ⟨t, ht, hreg, fun j => hvalue.imp_right fun hd => by rw [hd, permute_byte], hflags, honly⟩

end Sys2Proof.Proofs
end

section
/-! Products and quotients: what multiplication, division and remainder give (04_weevil_instructions R122, R126 to R128). -/

namespace Sys2Proof.Machine

theorem mul_value (a b : Word) : w32 (a.toNat * b.toNat) = a * b := by
  apply BitVec.eq_of_toNat_eq
  rw [toNat_w32, BitVec.toNat_mul]

theorem mulhu_value (a b : Word) : w32 (a.toNat * b.toNat / 2 ^ 32) = (a.setWidth 64 * b.setWidth 64).extractLsb' 32 32 := by
  apply BitVec.eq_of_toNat_eq
  rw [toNat_w32, BitVec.extractLsb'_toNat, BitVec.toNat_mul, BitVec.toNat_setWidth_of_le (by decide),
    BitVec.toNat_setWidth_of_le (by decide), Nat.shiftRight_eq_div_pow]
  generalize a.toNat * b.toNat = n
  omega

theorem mulhs_value (a b : Word) :
    BitVec.ofInt 32 (a.toInt * b.toInt / 2 ^ 32) = (a.signExtend 64 * b.signExtend 64).extractLsb' 32 32 := by
  have hprod : a.signExtend 64 * b.signExtend 64 = BitVec.ofInt 64 (a.toInt * b.toInt) := (BitVec.ofInt_mul ..).symm
  rw [hprod]
  generalize a.toInt * b.toInt = p
  apply BitVec.eq_of_toNat_eq
  rw [BitVec.extractLsb'_toNat, BitVec.toNat_ofInt, BitVec.toNat_ofInt, Nat.shiftRight_eq_div_pow]
  omega

/-- A signed division, but for the one that overflows (R128). -/
theorem sdiv_value (a b : Word) (h : ¬ (a = 0x80000000 ∧ b = 0xFFFFFFFF)) : BitVec.ofInt 32 (a.toInt.tdiv b.toInt) = a.sdiv b := by
  rw [← BitVec.toInt_sdiv_of_ne_or_ne a b (not_and_or.mp h), BitVec.ofInt_toInt]

theorem srem_value (a b : Word) : BitVec.ofInt 32 (a.toInt.tmod b.toInt) = a.srem b := by
  rw [← BitVec.toInt_srem, BitVec.ofInt_toInt]

theorem udiv_value (a b : Word) : w32 (a.toNat / b.toNat) = a / b := by
  rw [← BitVec.toNat_udiv, w32_toNat]

theorem umod_value (a b : Word) : w32 (a.toNat % b.toNat) = a % b := by
  rw [← BitVec.toNat_umod, w32_toNat]

theorem divide_signed (rem : Bool) (a b : Word) :
    divide true rem a b = divResult (if b = 0 then (if rem then a else 0xFFFFFFFF) else (if rem then a.srem b else a.sdiv b))
      (b == 0) (a == 0x80000000 && b == 0xFFFFFFFF) := by
  unfold divide
  by_cases hb : b = 0
  · subst hb
    simp
  · have hnz : (b == 0) = false := beq_false_of_ne hb
    rw [if_neg hb, if_neg hb, hnz]
    by_cases hlarge : a = 0x80000000 ∧ b = 0xFFFFFFFF
    · obtain ⟨rfl, rfl⟩ := hlarge
      cases rem <;> decide
    · have hv : (a == 0x80000000 && b == 0xFFFFFFFF) = false := by simpa using hlarge
      rw [if_neg (by simpa using hlarge), if_pos rfl, hv]
      cases rem
      · exact congrArg (divResult · false false) (sdiv_value a b hlarge)
      · exact congrArg (divResult · false false) (srem_value a b)

theorem divide_unsigned (rem : Bool) (a b : Word) :
    divide false rem a b = divResult (if b = 0 then (if rem then a else 0xFFFFFFFF) else (if rem then a % b else a / b))
      (b == 0) false := by
  unfold divide
  by_cases hb : b = 0
  · subst hb
    simp
  · have hnz : (b == 0) = false := beq_false_of_ne hb
    rw [if_neg hb, if_neg hb, hnz, if_neg (by simp), if_neg (by simp)]
    cases rem
    · exact congrArg (divResult · false false) (udiv_value a b)
    · exact congrArg (divResult · false false) (umod_value a b)

end Sys2Proof.Machine

namespace Sys2Proof.Proofs

open Sys2Proof.Machine

/-- Settles O25: the products are those of bit vectors, and a quotient is theirs but for a divisor of 0 (R128). -/
theorem multiplyAndDivide : Obligations.MultiplyAndDivide := by
  unfold Obligations.MultiplyAndDivide
  refine ⟨?_, ?_, ?_, ?_, ?_, ?_, ?_⟩
  · exact fun i f d a b s h => exec_alu (plainResult _) rfl h (congrArg plainResult (mul_value ..))
  · exact fun i f d a b s h => exec_alu (plainResult _) rfl h (congrArg plainResult (mulhs_value ..))
  · exact fun i f d a b s h => exec_alu (plainResult _) rfl h (congrArg plainResult (mulhu_value ..))
  · exact fun i f d a b s h => exec_alu _ rfl h (divide_signed false ..)
  · exact fun i f d a b s h => exec_alu _ rfl h (divide_unsigned false ..)
  · exact fun i f d a b s h => exec_alu _ rfl h (divide_signed true ..)
  · exact fun i f d a b s h => exec_alu _ rfl h (divide_unsigned true ..)

end Sys2Proof.Proofs
end

section
/-! The bit operations that read (04_weevil_instructions R134 to R136). -/

namespace Sys2Proof.Machine

/-- What a bit string holds after it has taken the bit `v`, where the string is open combined with it by `f` (R134). -/
def Core.checked (f : Bool → Bool → Bool) (v : Bool) (k : Core) : Core :=
  { k with bacc := if k.bopen then f k.bacc v else v, bopen := true, pc := k.pc + 4 }

/-- A bit operation that reads leaves memory, and of its core all but the bit string. -/
theorem exec_bitRead {c : Instr} {i : Fin 40} {s : State} {f : BitFn} {b : Fin 16} {disp : BitVec 13} {k : Fin 8} {off : Nat}
    (g : Bool → Core → Core) (hexec : exec c s = onDie (weevil i (.bitm f b disp k)) s) (hf : f.writes = false)
    (hout : ∀ old x, (bitLogic f old x).2 = none)
    (hg : ∀ old (x : Core) ic cy, ((x.withLines ic).afterBit f old).withCyc cy = ((g old x).withLines ic).withCyc cy)
    (h : atInstr i (.bitm f b disp k) s) (hclear : ownClear (fetched i s) i (effAddr (s.core i) b (disp.signExtend 32)) 1 false off) :
    ∃ t, exec c s = .next t ∧
      t.core i = { g (bitAt (byteAt s (reachAddr (i / 8) off)).toNat k.val) (s.core i) with
        icache := (t.core i).icache, cyc := (t.core i).cyc } ∧
      coreOnly i s t := by
  have hread := ownRead_clear hclear
  obtain ⟨hcheck, hown, -⟩ := hclear
  rw [memNat_byte, byteAt_fetched] at hread
  have hdo := doBit_silent (k := k.val) (hf ▸ hcheck) hown hread rfl (hout _ _)
  rw [← effAddr_fetched] at hdo
  exact (exec_endsWith _ hexec h hdo (fun ic => by simp [Core.afterBit, Core.spend, Core.next, bitLogic_cyc])
    (fun x => bitLogic_haltReq f _ x) (fun x => bitLogic_stepping f _ x)).core_eq _ (hg _ _)

end Sys2Proof.Machine

namespace Sys2Proof.Proofs

open Sys2Proof.Machine

/-- Settles O30: a bit operation that reads is a read of its byte, and changes the bit string alone. -/
theorem bitChecks : Obligations.BitChecks := by
  unfold Obligations.BitChecks
  refine ⟨?_, ?_, ?_, ?_, ?_, ?_, ?_, ?_⟩
  · exact fun i b disp k off s => exec_bitRead (fun b k => { k with bacc := b, bopen := true, pc := k.pc + 4 }) rfl rfl
      (fun _ _ => rfl) (fun _ _ _ _ => rfl)
  · exact fun i b disp k off s => exec_bitRead (fun b k => { k with bacc := !b, bopen := true, pc := k.pc + 4 }) rfl rfl
      (fun _ _ => rfl) (fun _ _ _ _ => rfl)
  · exact fun i b disp k off s => exec_bitRead (Core.checked (· && ·)) rfl rfl (fun _ _ => rfl) (fun _ _ _ _ => rfl)
  · exact fun i b disp k off s => exec_bitRead (fun b => Core.checked (· && ·) !b) rfl rfl (fun _ _ => rfl) (fun _ _ _ _ => rfl)
  · exact fun i b disp k off s => exec_bitRead (Core.checked (· || ·)) rfl rfl (fun _ _ => rfl) (fun _ _ _ _ => rfl)
  · exact fun i b disp k off s => exec_bitRead (fun b => Core.checked (· || ·) !b) rfl rfl (fun _ _ => rfl) (fun _ _ _ _ => rfl)
  · exact fun i b disp k off s => exec_bitRead (Core.checked (· != ·)) rfl rfl (fun _ _ => rfl) (fun _ _ _ _ => rfl)
  · exact fun i b disp k off s => exec_bitRead (fun b => Core.checked (· != ·) !b) rfl rfl (fun _ _ => rfl) (fun _ _ _ _ => rfl)

end Sys2Proof.Proofs
end

section
/-! Three statements of the scan cycle that fail at one state each: a held trigger that is accepted where a park comes to its end
(05_scan_cycle R144, 08_banks_mailboxes R261), a commit that starts while a core still runs an item of its task (05_scan_cycle R155,
07_lockkeeper R226, R244), and a force of an output byte that has to wait for the journal (05_scan_cycle R157, R170). -/

namespace Sys2Proof.Machine

@[simp] theorem byteAt_settled (s t : State) (a : Nat) : byteAt (settled s t) a = byteAt t a := rfl

/-! ### A held trigger beside a park -/

/-- Event task 17 has a held trigger and is free to take it; reach 0 drains for a park, and nothing of it runs any longer. -/
def heldBesidePark : State :=
  modTask 17 (fun k => { k with held := true })
    (setF (F.RCH_PWR_PSTATE 0) 1 (setF F.SCN_STATUS_CSTATE 2 (setF (F.SCN_TASK_TSTAT_STATE 17) 5 State.reset)))

/-- The end of the command that accepts the trigger powers the reach down, which its RCH_PWR shows. -/
theorem heldBesidePark_parks :
    rd (wrapUp (quiet heldBesidePark) (heldTrigger 17 (quiet heldBesidePark))) (A.RCH_PWR 0) ≠ rd heldBesidePark (A.RCH_PWR 0) := by
  decide +kernel

theorem exec_heldBesidePark :
    exec (.heldTriggerAccept 17) heldBesidePark
      = .next (settled heldBesidePark (wrapUp (quiet heldBesidePark) (heldTrigger 17 (quiet heldBesidePark)))) := by
  have hlive : live heldBesidePark = true := by decide +kernel
  change onDie (heldTrigger 17) heldBesidePark = _
  rw [onDie, if_pos hlive]

/-! ### A commit beside a running item -/

/-- An item of segment 0 of task 0 in execution, whose task cycle is open. -/
def openItem : Running :=
  { ident := itemId 0 true 0 0, group := 0, segment := some (0, 0), windows := [], dmark := 0, rmark := 0, start := 0, trc := false, counted := true }

/-- As S comes the one segment of task 0 counts as done, and core 0 runs an item of it. -/
def commitBesideOpenItem : State :=
  modCore 0 (fun k => { k with st := .run, items := k.items.set 0 (some openItem) })
    (modTask 0 (fun k => { k with done0 := 1 }) (setF F.SCN_STATUS_CSTATE 2 (setF (F.SCN_TASK_TSTAT_STATE 0) 3 State.reset)))

/-- The start of the commit closes the task cycle in the running item as well. -/
theorem commitBesideOpenItem_closes : (commitStarts 0 (quiet commitBesideOpenItem)).cores ≠ commitBesideOpenItem.cores := by
  decide +kernel

theorem exec_commitBesideOpenItem :
    exec (.commitStart 0) commitBesideOpenItem
      = .next (settled commitBesideOpenItem (commitStarts 0 (quiet commitBesideOpenItem))) :=
  onDie_calm (commitStarts 0) commitBesideOpenItem (by decide +kernel) (by decide +kernel)

/-! ### A force beside a full journal -/

/-- SCN_FORCEARG forces bit 0 to 1, and the journal of the open Towpath epoch holds its 1,024 lines. -/
def forceBesideFullJournal : State :=
  modScan (fun c => { c with epoch := true, journal := List.replicate 1024 (0, []) })
    (setF F.SCN_FORCEARG_MASK 1 (setF F.SCN_FORCEARG_VALUE 1 State.reset))

/-- What SET of output byte 0 leaves there. -/
def forceWaiting : State :=
  busWrite ⟨49, true, none⟩ A.SCN_FORCECMD (2 ^ 31 + (1 : Fin 2) * 2 ^ 28 + (0 : Fin 0x20000)) (quiet forceBesideFullJournal)

/-- The byte keeps its value until the journal has room, though its mask and value are set. -/
theorem forceWaiting_waits :
    byteAt forceWaiting (0x30020000 + (0 : Fin 0x20000).val) ≠ forced (byteAt forceBesideFullJournal (0x30020000 + (0 : Fin 0x20000).val))
      (byteAt forceWaiting (0x30080000 + (0 : Fin 0x20000).val)) (byteAt forceWaiting (0x300A0000 + (0 : Fin 0x20000).val)) := by
  decide +kernel

theorem exec_forceBesideFullJournal :
    exec (.forceSet ⟨49, true, none⟩ 1 0) forceBesideFullJournal = .next (settled forceBesideFullJournal forceWaiting) :=
  onBus_calm _ forceBesideFullJournal (by decide +kernel) (by decide +kernel)

end Sys2Proof.Machine

namespace Sys2Proof.Proofs

open Sys2Proof.Machine

/-- Refutes O34: the clause on held triggers does not ask for a device at rest, and keeps every register beside those of the task; but where
a reach has just drained for a park, the end of the command powers it down (R261), which its RCH_PWR shows. -/
theorem not_triggersAndLatch : ¬ Obligations.TriggersAndLatch := by
  unfold Obligations.TriggersAndLatch
  rintro ⟨-, -, -, -, -, accepts⟩
  obtain ⟨t, ht, -, -, -, -, hregs, -⟩ := accepts 17 heldBesidePark (by decide +kernel) (by decide +kernel) (by decide +kernel)
    (by decide +kernel) (by decide +kernel) (by decide +kernel) rfl (by decide +kernel)
  obtain rfl : settled heldBesidePark (wrapUp (quiet heldBesidePark) (heldTrigger 17 (quiet heldBesidePark))) = t := by
    rw [exec_heldBesidePark] at ht; injection ht
  have hsame := hregs (A.RCH_PWR 0) (by decide)
  rw [rd_settled] at hsame
  exact heldBesidePark_parks hsame

/-- Refutes O35: the clause on the start of a commit keeps every core, and asks only that the DONEs of the task are all counted; an item of
the task that runs as S comes has its task cycle closed in its core, so that its DONE does not count any more (R226, R244). -/
theorem not_snapshotAndCommit : ¬ Obligations.SnapshotAndCommit := by
  unfold Obligations.SnapshotAndCommit
  rintro ⟨-, -, starts, -⟩
  obtain ⟨t, ht, -, -, -, -, hframe⟩ := starts 0 commitBesideOpenItem (by decide +kernel) (by decide +kernel) (by decide +kernel)
    (by decide +kernel) (by decide +kernel) (by decide +kernel) (by decide +kernel) rfl rfl rfl (by decide +kernel)
  obtain rfl : settled commitBesideOpenItem (commitStarts 0 (quiet commitBesideOpenItem)) = t := by
    rw [exec_commitBesideOpenItem] at ht; injection ht
  have hcores := congrArg State.cores hframe
  exact commitBesideOpenItem_closes hcores

/-- Refutes O36: the clause on SET of an output byte that no task covers gives it its forced value at once, and does not ask for room in the
journal; where the journal of the open epoch is full, the byte waits (R157, R170). -/
theorem not_stopForceAndEdit : ¬ Obligations.StopForceAndEdit := by
  unfold Obligations.StopForceAndEdit
  rintro ⟨-, -, -, -, setOutput, -⟩
  obtain ⟨t, ht, -, -, hout, -⟩ := setOutput ⟨49, true, none⟩ 1 0 forceBesideFullJournal (by decide +kernel) (by decide +kernel)
    (by decide +kernel) (by decide +kernel) (by decide +kernel) rfl (by decide +kernel)
  obtain rfl : settled forceBesideFullJournal forceWaiting = t := by
    rw [exec_forceBesideFullJournal] at ht; injection ht
  simp only [byteAt_settled] at hout
  exact forceWaiting_waits hout

end Sys2Proof.Proofs
end

section
/-! Five statements on rotation and pairs that fail at one state each: a drain of a firmware switch that runs out of time together with
that of a handover (06_duplex_rotation R196, R204), a fill whose spare still wakes (06_duplex_rotation R192, 08_banks_mailboxes R262), the
slot that STAGE records (06_duplex_rotation R203), and two commands of a pair at whose end a stepped core runs its instruction
(03_weevil_core R116). -/

namespace Sys2Proof.Machine

@[simp] theorem settled_cores (s t : State) : (settled s t).cores = t.cores := rfl

/-- A command on a live device answers the end of the command after its effect. -/
theorem onDie_live (f : State → State) (s : State) (h : live s = true) :
    onDie f s = .next (settled s (wrapUp (quiet s) (f (quiet s)))) := by
  rw [onDie, if_pos h]

/-! ### Two drains that run out of time together -/

/-- Reach 1 drains for a handover and the reach of role 2 for a firmware switch, and DRAINTMO has passed for both. -/
def twoLateDrains : State :=
  modCore 11 (fun k => { k with st := .run, drainReq := true })
    (modRot (fun x => { x with draining := some 1, gap := some [2] })
      (setF F.LKH_FWSTAT_STATE 3 (wr64 A.TMB_TIME 0x10000000 (wr A.LKH_ROLEMAP 0x00043210 State.reset))))

theorem exec_twoLateDrains :
    exec .drainTimeout twoLateDrains = .next (settled twoLateDrains (drainTimeout (quiet twoLateDrains))) :=
  onDie_calm drainTimeout twoLateDrains (by decide +kernel) (by decide +kernel)

/-- Each of the two is given up and counts as a deferral. -/
theorem twoLateDrains_defersTwice :
    getF (drainTimeout (quiet twoLateDrains)) F.LKH_ROTSTAT_DEFERS
      ≠ satAdd F.LKH_ROTSTAT_DEFERS.w (getF twoLateDrains F.LKH_ROTSTAT_DEFERS) 1 := by
  decide +kernel

/-! ### A fill into a spare that wakes -/

/-- LKH_ROTCTL.EN has been set while the spare, reach 4, was parked: it is waking (R262), and the next target lies within 20 ms. -/
def wakingSpare : State :=
  setF (F.RCH_PWR_PSTATE 4) 3 (setF F.LKH_ROTCTL_EN 1 (setF F.SYS_STATUS_READY 1 (setF F.LKH_ROTSTAT_PHASE 5
    (setReachState 4 2 (wr A.LKH_ROLEMAP 0x00043210 State.reset)))))

theorem exec_wakingSpare : exec .fillStart wakingSpare = .next (settled wakingSpare (fillStart (quiet wakingSpare))) :=
  inBlock_live fillStart wakingSpare (by decide +kernel)

/-- No fill starts before the spare has woken. -/
theorem wakingSpare_waits : getF (fillStart (quiet wakingSpare)) F.LKH_ROTSTAT_PHASE ≠ 6 := by decide +kernel

/-! ### The slot of a staged version -/

/-- Slot 1 is valid and holds version 5; the slot staged last is slot 0. -/
def versionInSlot1 : State := setF (F.CFG_SLOT_VALID 1) 1 (memPut (slotAt 1 + 0x12) 2 5 State.reset)

/-- What STAGE of slot 1 leaves there. -/
def stagedFromSlot1 : State := busWrite ⟨49, true, none⟩ A.LKH_FWCTL (1 + 256 * (1 : Fin 2)) (quiet versionInSlot1)

theorem exec_versionInSlot1 :
    exec (.fwStage ⟨49, true, none⟩ 1) versionInSlot1 = .next (settled versionInSlot1 stagedFromSlot1) :=
  onRegs_powered _ versionInSlot1 (by decide +kernel)

/-- The Lockhouse records the slot from which reaches are to load, beside the registers. -/
theorem stagedFromSlot1_slot : stagedFromSlot1.rot.fwStaged ≠ versionInSlot1.rot.fwStaged := by decide +kernel

/-! ### A stepped core beside a message of the pair -/

/-- A primary whose core 0 a STEP has set running, for one instruction that it has not yet run. -/
def steppedPrimary : State :=
  modCore 0 (fun k => { k with st := .run, haltReq := true, stepping := true }) (setF F.LKH_SBYSTAT_STATE 2 State.reset)

/-- Its peer, HOT until now, has not been heard for HBTMO. -/
def steppedUnheard : State :=
  modPair (fun p => { p with hbAt := some 5 }) (wr64 A.TMB_TIME 0x100000000 (setF F.LKH_SBYSTAT_PEERSTATE 4 steppedPrimary))

theorem exec_steppedUnheard :
    exec .heartbeatTimeout steppedUnheard
      = .next (settled steppedUnheard (wrapUp (quiet steppedUnheard) (heartbeatTimeout (quiet steppedUnheard)))) :=
  onDie_live heartbeatTimeout steppedUnheard (by decide +kernel)

/-- The core runs its instruction at the end of the command. -/
theorem steppedUnheard_steps :
    (wrapUp (quiet steppedUnheard) (heartbeatTimeout (quiet steppedUnheard))).cores ≠ steppedUnheard.cores := by
  decide +kernel

/-- A JOINREQ, the first message of a peer. -/
def joinRequest : PairMsg := { type := 8, last := true, task := 255, seq := 0, cyc := 0, frag := 0, payload := [] }

/-- The frame of that message. -/
def joinRequestFrame : List Byte := pairFrame State.reset 8 255 0 0 true []

/-- The JOINREQ waits at the primary. -/
def steppedAsked : State := modPair (fun p => { p with inbox := [(24, joinRequestFrame)] }) steppedPrimary

theorem exec_steppedAsked :
    exec .joinreqRx steppedAsked = .next (settled steppedAsked (wrapUp (quiet steppedAsked) (joinreqRx (quiet steppedAsked)))) :=
  onDie_live joinreqRx steppedAsked (by decide +kernel)

/-- The core runs its instruction at the end of the command. -/
theorem steppedAsked_steps : (wrapUp (quiet steppedAsked) (joinreqRx (quiet steppedAsked))).cores ≠ steppedAsked.cores := by
  decide +kernel

end Sys2Proof.Machine

namespace Sys2Proof.Proofs

open Sys2Proof.Machine

/-- Refutes O39: the clause on DRAIN_TIMEOUT lets DEFERS advance by one and leaves open a drain of a firmware switch; where that one has
run out of time as well, both are deferred (R196, R204), and DEFERS advances by two. -/
theorem not_rotationSteps : ¬ Obligations.RotationSteps := by
  unfold Obligations.RotationSteps
  rintro ⟨-, timeout, -⟩
  obtain ⟨t, ht, -, -, -, hdefers, -⟩ := timeout 1 3 twoLateDrains (by decide +kernel) (by decide +kernel) rfl (by decide +kernel)
    (by decide +kernel) rfl (by decide +kernel)
  obtain rfl := Host.Outcome.next.inj (exec_twoLateDrains.symm.trans ht)
  rw [getF_settled] at hdefers
  exact twoLateDrains_defersTwice hdefers

/-- Refutes O40: the clause on FILL_START does not ask for a spare that has power; one that was parked is not filled before it has
woken (R262), so the phase stays WAITFILL. -/
theorem not_dryReachAndFill : ¬ Obligations.DryReachAndFill := by
  unfold Obligations.DryReachAndFill
  rintro ⟨-, -, -, -, -, fill, -⟩
  obtain ⟨t, ht, hphase, -⟩ := fill 0 4 0 wakingSpare (by decide +kernel) (by decide +kernel) rfl (by decide +kernel) rfl
    (by decide +kernel) (by decide +kernel) (by decide +kernel) (by decide) rfl
  obtain rfl := Host.Outcome.next.inj (exec_wakingSpare.symm.trans ht)
  exact wakingSpare_waits hphase

/-- Refutes O41: the clause on STAGE lets registers alone change, but the Lockhouse also records the slot of the staged version, from which
each reach loads it at its RELOAD (R203). -/
theorem not_firmwareSwitch : ¬ Obligations.FirmwareSwitch := by
  unfold Obligations.FirmwareSwitch
  rintro ⟨stage, -⟩
  obtain ⟨t, ht, -, -, -, -, -, hframe⟩ := stage ⟨49, true, none⟩ 1 5 versionInSlot1 (by decide +kernel) (by decide +kernel) rfl
    (by decide +kernel) (by decide +kernel) (by decide +kernel) (by decide +kernel) (by decide +kernel)
  obtain rfl := Host.Outcome.next.inj (exec_versionInSlot1.symm.trans ht)
  exact stagedFromSlot1_slot (congrArg (·.rot.fwStaged) hframe)

/-- Refutes O42: the clause on HEARTBEAT_TIMEOUT of a primary keeps every core and does not ask for a device at rest; a core that a STEP has
set running executes its instruction at the end of the command (R116). -/
theorem not_pairElection : ¬ Obligations.PairElection := by
  unfold Obligations.PairElection
  rintro ⟨-, -, -, -, -, -, -, -, -, -, -, unheard, -⟩
  obtain ⟨t, ht, -, -, -, -, -, hframe⟩ := unheard 5 steppedUnheard (by decide +kernel) rfl (by decide +kernel) (by decide +kernel) rfl
    (by decide +kernel) (by decide +kernel) (by decide +kernel)
  obtain rfl := Host.Outcome.next.inj (exec_steppedUnheard.symm.trans ht)
  have hcores := congrArg State.cores hframe
  rw [settled_cores] at hcores
  exact steppedUnheard_steps hcores

/-- Refutes O43: the clause on JOINREQ keeps every core and does not ask for a device at rest; a core that a STEP has set running executes
its instruction at the end of the command (R116). -/
theorem not_pairMirroring : ¬ Obligations.PairMirroring := by
  unfold Obligations.PairMirroring
  rintro ⟨-, -, -, -, -, joinRequested, -⟩
  obtain ⟨t, ht, -, hframe⟩ := joinRequested 24 joinRequestFrame joinRequest steppedAsked (by decide +kernel) rfl (by decide +kernel) rfl
    (by decide +kernel) rfl (by decide +kernel) (by decide +kernel) (by decide +kernel) (by decide +kernel)
  obtain rfl := Host.Outcome.next.inj (exec_steppedAsked.symm.trans ht)
  have hcores := congrArg State.cores hframe
  rw [settled_cores] at hcores
  exact steppedAsked_steps hcores

end Sys2Proof.Proofs
end

section
/-! A statement on the tokens of the Lockkeeper that fails at one state: a token behind an older one of its core, which waits in the overflow
queue (07_lockkeeper R227, R229). -/

namespace Sys2Proof.Machine

/-- An overflow queue that is not full takes a token. -/
theorem queueToken_room (t : Token) (s : State) (h : s.lkp.overflow.length < 64) :
    queueToken t s = (modLkp (fun l => { l with overflow := l.overflow ++ [t] }) s, true) :=
  if_pos h

/-- A token behind one of the same core in the overflow queue joins that queue, whatever item it is for (R229). -/
theorem acceptToken_behind (i : Nat) (dst v : Word) (own : Option Nat) (l : List (Word × Word × Option Nat)) (tok : Token) (s : State)
    (hport : s.lkp.ports[i % 40]'(Nat.mod_lt _ (by decide)) = (dst, v, own) :: l) (htok : tokenOf i dst v own = some tok)
    (hnow : bitAt dst.toNat 30 = false) (hbehind : s.lkp.overflow.any (fun o => !o.hw && o.src == i) = true)
    (hroom : s.lkp.overflow.length < 64) :
    acceptToken i s = modLkp (fun x => { x with ports := x.ports.set (i % 40) l (Nat.mod_lt _ (by decide)),
                                                overflow := x.overflow ++ [tok] }) s := by
  unfold acceptToken
  rw [hport]
  simp only [htok, hnow, hbehind, Bool.false_eq_true, if_false, if_true]
  rw [queueToken_room]
  · rfl
  · exact hroom

/-! ### A token behind one that waits for an entry -/

/-- The entry of item 5 of role 0, which runs; it needs slots 0 and 1. -/
def runningEntry : Entry :=
  { role := 0, seg := false, index := 5, desc := ⟨0x100, 7, 255, 0, 3, false⟩, counts := Vector.replicate 8 1,
    values := Vector.replicate 8 9, running := true }

/-- A token of core 3 for item 6, which has no entry. -/
def waitingToken : Token :=
  { role := 0, seg := false, slot := 0, index := 6, dst := 0x00000006, value := 1, hw := false, src := 3 }

/-- A later token of core 3, for slot 1 of item 5. -/
def laterToken : Token :=
  { role := 0, seg := false, slot := 1, index := 5, dst := 0x01000005, value := 77, hw := false, src := 3 }

/-- General items may hold one entry, that of item 5: the token for item 6 waits in the overflow queue, the later one in the port. -/
def behindWaitingToken : State :=
  modLkp (fun x => { x with store := [runningEntry], overflow := [waitingToken],
                            ports := x.ports.set 3 [(laterToken.dst, laterToken.value, some 0)] })
    (setF F.LKP_HWM_LIVEMAX 1 (setF F.LKP_CTL_GENMAX 1 State.reset))

/-- The later token joins the queue. -/
theorem acceptToken_behindWaitingToken :
    unfrozen (acceptToken 3) (quiet behindWaitingToken)
      = modLkp (fun x => { x with ports := x.ports.set 3 [], overflow := x.overflow ++ [laterToken] }) (quiet behindWaitingToken) := by
  have hfrozen : ¬ frozen (quiet behindWaitingToken) 1 = true := by decide +kernel
  rw [unfrozen, if_neg hfrozen]
  exact acceptToken_behind 3 _ _ (some 0) [] laterToken _ rfl (by decide) (by decide) rfl (by decide)

theorem exec_behindWaitingToken :
    exec (.tokenAccept 3) behindWaitingToken
      = .next (settled behindWaitingToken (unfrozen (acceptToken 3) (quiet behindWaitingToken))) :=
  onDie_calm _ behindWaitingToken (by decide +kernel) (by decide +kernel)

/-- The stored entry has not taken it. -/
theorem behindWaitingToken_store :
    (unfrozen (acceptToken 3) (quiet behindWaitingToken)).lkp.store ≠ [runningEntry.put laterToken.at laterToken.value] := by
  rw [acceptToken_behindWaitingToken]
  decide

end Sys2Proof.Machine

namespace Sys2Proof.Proofs

open Sys2Proof.Machine

/-- Refutes O19: the clause on TOKEN_ACCEPT does not ask that no token of the same core waits in the overflow queue; behind such a one a
token joins that queue, so that the tokens of a core are matched in the order of issue (R229), and the stored entry stays as it is. -/
theorem not_lockkeeperTokens : ¬ Obligations.LockkeeperTokens := by
  unfold Obligations.LockkeeperTokens
  rintro ⟨accept, -⟩
  obtain ⟨t, ht, hstore, -⟩ := accept 3 laterToken.dst laterToken.value (some 0) [] laterToken runningEntry behindWaitingToken
    (by decide +kernel) (by decide +kernel) (by decide +kernel) rfl (by decide) (by decide) (by decide +kernel) rfl (by decide) rfl
    (by decide) (by decide) rfl (by decide) (by decide +kernel)
  obtain rfl := Host.Outcome.next.inj (exec_behindWaitingToken.symm.trans ht)
  rw [settled_lkp] at hstore
  exact behindWaitingToken_store hstore

end Sys2Proof.Proofs
end

section
/-! Two statements on reach memory and its DMA that fail at one state each: a gate word whose GUEST is no initiator (08_banks_mailboxes R254,
02_registers R71), and a descriptor behind a held write of its own DMA (08_banks_mailboxes R255, R259). -/

namespace Sys2Proof.Machine

/-! ### A gate word with a GUEST beyond the initiators -/

/-- A gate word of mode CORE with core 0 as owner, whose GUEST is 60. -/
def guestBeyond : Word := 0x003C0100

/-- The debug supervisor has written that word to the gate of bank 0 of reach 0. -/
def guestClamped : State := busWrite ⟨49, true, none⟩ (A.RCH_GATE (0 : Fin 5) (0 : Fin 12)) guestBeyond.toNat (quiet State.reset)

theorem exec_guestClamped :
    exec (.gateWrite ⟨49, true, none⟩ 0 0 guestBeyond) State.reset = .next (settled State.reset guestClamped) :=
  onRegs_powered _ State.reset (by decide)

/-- The clamp of GUEST to 55 is logged. -/
theorem guestClamped_logged : rd guestClamped A.SYS_CLAMPLOG ≠ rd State.reset A.SYS_CLAMPLOG := by decide

/-! ### A descriptor behind a held write -/

/-- The DMA of reach 1 has a descriptor to run, and a write that it made into reach 0 waits for the end of a handover. -/
def dmaBehindHeldWrite : State :=
  modRot (fun x => { x with window := some (0, 4), held := [{ who := ⟨41, false, none⟩, seq := 0, parts := [(0x10000000, 4, 0)] }] })
    (setF (F.RCH_DMA_STAT_STATE 1) 1 (setF (F.RCH_DMA_TAIL_TAIL 1) 2 State.reset))

/-- A DMA with a held write does nothing. -/
theorem dmaDescriptorEnd_held (n : Nat) (s : State) (h : heldFor s (40 + n) = true) : dmaDescriptorEnd n s = s := by
  unfold dmaDescriptorEnd
  rw [if_pos (Or.inr (Or.inr h))]

theorem calm_dmaBehindHeldWrite : calm dmaBehindHeldWrite dmaBehindHeldWrite = true :=
  calm_self _ (by decide) (by decide) rfl Vector.any_replicate

theorem exec_dmaBehindHeldWrite :
    exec (.dmaDescriptorEnd 1) dmaBehindHeldWrite = .next (settled dmaBehindHeldWrite (quiet dmaBehindHeldWrite)) := by
  have hwaits := dmaDescriptorEnd_held (1 : Fin 5) (quiet dmaBehindHeldWrite) (by decide)
  change onDie (dmaDescriptorEnd (1 : Fin 5)) dmaBehindHeldWrite = _
  rw [onDie_calm _ _ (by decide) (by rw [hwaits]; exact calm_dmaBehindHeldWrite), hwaits]

/-- HEAD is 0, in a ring of more than one descriptor. -/
theorem dmaBehindHeldWrite_head :
    getF dmaBehindHeldWrite (F.RCH_DMA_STAT_HEAD (1 : Fin 5))
      ≠ (getF dmaBehindHeldWrite (F.RCH_DMA_STAT_HEAD (1 : Fin 5)) + 1) % dmaSize dmaBehindHeldWrite (1 : Fin 5) := by
  decide

end Sys2Proof.Machine

namespace Sys2Proof.Proofs

open Sys2Proof.Machine

/-- Refutes O20: the clause on a gate of mode CORE keeps every register beside the gate's own, and leaves GUEST free; but a GUEST above 55 is
clamped (R71), which SYS_CLAMPLOG shows. -/
theorem not_reachMemoryCommands : ¬ Obligations.ReachMemoryCommands := by
  unfold Obligations.ReachMemoryCommands
  rintro ⟨-, core, -⟩
  obtain ⟨t, ht, -, -, -, hregs, -⟩ := core ⟨49, true, none⟩ 0 0 guestBeyond State.reset (by decide) (by decide) rfl
    (by decide) (by decide) (by decide) (by decide) (by decide)
  obtain rfl := Host.Outcome.next.inj (exec_guestClamped.symm.trans ht)
  have hlog := hregs A.SYS_CLAMPLOG (by decide)
  rw [rd_settled] at hlog
  exact guestClamped_logged hlog

/-- Refutes O21: the clause on the end of a descriptor does not ask that no write of the DMA is held; behind such a write the DMA waits
(R255), and HEAD stays. -/
theorem not_dmaAndPark : ¬ Obligations.DmaAndPark := by
  unfold Obligations.DmaAndPark
  rintro ⟨-, ends, -⟩
  obtain ⟨t, ht, hhead, -⟩ := ends 1 dmaBehindHeldWrite (by decide) calm_dmaBehindHeldWrite (by decide) (by decide) rfl rfl rfl rfl rfl rfl
    (by decide) (by decide) Vector.all_replicate (by decide) (by decide) (by decide)
  obtain rfl := Host.Outcome.next.inj (exec_dmaBehindHeldWrite.symm.trans ht)
  exact dmaBehindHeldWrite_head hhead

end Sys2Proof.Proofs
end

section
/-! Mailboxes over the bus: what an access of each register of the block starts, and what the operations on a mailbox leave
(08_banks_mailboxes R263 to R268). -/

namespace Sys2Proof.Machine

/-! ### Accesses of the MBX block -/

/-- An aligned plain address of the MBX block. -/
abbrev mbxAddr (a : Nat) : Prop := 0x60040000 ≤ a ∧ a < 0x60044000 ∧ a % 4 = 0

theorem mbxAddr.ne {a b : Nat} (h : mbxAddr a) (hb : ¬ mbxAddr b) : a ≠ b := fun heq => hb (heq ▸ h)

theorem mbxAddr.block {a : Nat} (h : mbxAddr a) : blockAt a = some .mbx := by
  obtain ⟨hlo, hhi, -⟩ := h
  unfold blockAt
  rw [show a / 0x10000 = 0x6004 by omega]
  rfl

theorem mbxAddr.target {a : Nat} (h : mbxAddr a) (s : State) (id : Nat) : target s id a = .reg a := by
  have hblk := h.block
  obtain ⟨hlo, hhi, -⟩ := h
  unfold Machine.target
  rw [if_neg (by omega), if_neg (by omega), if_neg (by omega), if_neg (by omega), if_neg (by omega), if_pos (by omega), hblk]
  rfl

/-- No register of the block reads 0 for a failed reach or a module without a pair. -/
theorem mbxAddr.alive {a : Nat} (h : mbxAddr a) (s : State) : deadReg s a = false := by
  have hpair : pairReg a = false := by
    have hothers : ∀ b ∈ [A.LKH_SBYCTL, A.LKH_SBYSTAT, A.LKH_SBYPEER, A.LKH_SBYTIME, A.LKH_SBYSWO, A.LKH_SBYMASK, A.LKH_SBYERR], ¬ mbxAddr b := by
      decide
    rw [pairReg, List.contains_eq_mem, decide_eq_false_iff_not]
    exact fun hmem => hothers a hmem h
  simp [deadReg, h.block, hpair]

theorem mbxAddr.unlocked {a : Nat} (h : mbxAddr a) (s : State) (v : Nat) : lockMask a = 0 ∧ lockedReg s a 0 v = false := by
  have hmask : lockMask a = 0 := by
    unfold lockMask
    rw [if_neg (h.ne (by decide)), if_neg (h.ne (by decide)), if_neg (h.ne (by decide)), if_neg (h.ne (by decide)), if_neg (h.ne (by decide))]
  have hdesc : isDescriptor a = false := by
    simp only [isDescriptor, Bool.or_eq_false_iff, decide_eq_false_iff_not]
    omega
  refine ⟨hmask, ?_⟩
  unfold lockedReg
  have hscan : ¬ (a = A.SCN_EPOCH ∨ a = A.SCN_EPOCH + 4 ∨ a = A.SCN_SEGBASE) :=
    not_or.mpr ⟨h.ne (by decide), not_or.mpr ⟨h.ne (by decide), h.ne (by decide)⟩⟩
  have hitems : ¬ (a = A.LKP_ITEMBASE ∨ a = A.LKP_SEGMASK ∨ (0x60020180 ≤ a ∧ a < 0x60020190)) :=
    not_or.mpr ⟨h.ne (by decide), not_or.mpr ⟨h.ne (by decide), by omega⟩⟩
  simp only [hmask, hdesc, h.block, hscan, hitems, h.ne (b := A.LKH_AWD) (by decide), ne_eq, not_true_eq_false, Bool.false_eq_true, if_false]

/-- A write over the bus is a write of the register. -/
theorem localStore_mbx {who : Who} {a v : Nat} {s : State} (h : mbxAddr a) (hv : v < 2 ^ 32) (hlive : live s = true) :
    localStore who a (leBytes 4 v) s = match regWrite who a v s with
      | (t, .ok _) => (t, .ok ())
      | (t, .error e) => (t, .err e) := by
  have htarget := h.target s who.id
  obtain ⟨hlo, hhi, haligned⟩ := h
  have hal : a % 0x10000 / 0x4000 = 0 := by omega
  have hrun : s.cfg.halted = false := by simpa using (Bool.and_eq_true_iff.mp hlive).2
  have hhold : holdAccess who a true s = (s, false) := holdAccess_beside who a true s (by omega) (by omega)
  have hans : answers s a = true := by simp [answers, hrun]
  unfold localStore
  simp only [hhold, htarget, hal, Nat.zero_mul, Nat.sub_zero, hans]
  rw [if_neg (by simp [haligned]), leNat_leBytes4 v hv] <;> rfl

theorem busWrite_mbx_ok {who : Who} {a v : Nat} {s t : State} (h : mbxAddr a) (hv : v < 2 ^ 32) (hlive : live s = true)
    (hwrite : regWrite who a v s = (t, .ok ())) : busWrite who a v s = t := by
  unfold busWrite store
  simp only [h.target s who.id, localStore_mbx h hv hlive, hwrite]

theorem busWrite_mbx_error {who : Who} {a v : Nat} {s t : State} {e : BusErr} (h : mbxAddr a) (hv : v < 2 ^ 32) (hlive : live s = true)
    (hwrite : regWrite who a v s = (t, .error e)) : busWrite who a v s = writeErr who a 4 e (lastSeq t who.id) t := by
  unfold busWrite store
  simp only [h.target s who.id, localStore_mbx h hv hlive, hwrite]

/-- A privileged write of a word of the block that nothing clamps gives its RW fields what it carries and starts what the block starts. -/
theorem busWrite_mbxWord (who : Who) (a v : Nat) (s : State) (d : RegDesc) (hd : simpleWord a d = true) (h : mbxAddr a) (hv : v < 2 ^ 32)
    (hlive : live s = true) (hp : isPriv s who = true) (hopen : unguarded s who = true)
    (hlegal : ∀ f ∈ d.fields, f.acc = .rw → f.clamp.apply (bitsOf v f.lo f.w) = bitsOf v f.lo f.w)
    (hclamp : clampMbx s a (rawNew d (dynPriv s a) true 0 (rd s a).toNat v) = rawNew d (dynPriv s a) true 0 (rd s a).toNat v) :
    ∃ i : WInfo, i.who = who ∧ i.pa = a ∧ i.new = rawNew d (dynPriv s a) true 0 (rd s a).toNat v
      ∧ i.cmds = cmdBits d (dynPriv s a) true 0 v ∧ busWrite who a v s = hookMbx i (written d a v s) := by
  simp only [simpleWord, Bool.and_eq_true, Bool.not_eq_true', bne_iff_ne, List.all_eq_true] at hd
  obtain ⟨⟨⟨⟨⟨⟨hplain, htidy⟩, -⟩, -⟩, hdesc⟩, htask⟩, hevt⟩ := hd
  have hrun : s.cfg.halted = false := by simpa using (Bool.and_eq_true_iff.mp hlive).2
  have hblk := h.block
  have hdead := h.alive s
  obtain ⟨hmask, hfree⟩ := h.unlocked s v
  obtain ⟨hlo, hhi, -⟩ := h
  have hguard : semGuards s a 4 who = false := semGuards_of_unguarded s a who (by omega) (by omega) hopen
  have hzero : ∀ x, zeroBits a x = x := fun x => by unfold zeroBits; rw [hblk]
  have hword : ∀ x, clampWord s a x = clampMbx s a x := fun x => by unfold clampWord; rw [hblk]
  have happ := applyWord_legal who a d v s htidy hp hdesc hmask hzero htask hlegal (by rw [hword]; exact hclamp)
  have hout : asserted (written d a v s) (a / 0x10000) = asserted s (a / 0x10000) :=
    asserted_congr s _ _ fun o ho => ⟨rd_written_other _ _ _ _ _ (hevt o ho).1, rd_written_other _ _ _ _ _ (hevt o ho).2⟩
  refine ⟨(applyWord who 0 a d v s).2, by rw [happ], by rw [happ], by rw [happ], by rw [happ], ?_⟩
  rw [busWrite_plain who a v s d hplain hv hrun hdead hfree hguard, happ, ← written]
  simp only [hout, Bool.and_not_self, Bool.false_eq_true, if_false, startBlock, hblk]

/-! ### MBX_CTL -/

/-- MBX_CTLm: FLUSH, which is privileged, ABORT, RELEASE and GO. -/
def mbxCtlDesc : RegDesc :=
  ⟨0x10c, 64, 0x10, .one, [⟨3, 1, .cmd, true, 0, .none⟩, ⟨2, 1, .cmd, false, 0, .none⟩, ⟨1, 1, .cmd, false, 0, .none⟩, ⟨0, 1, .cmd, false, 0, .none⟩]⟩

theorem simpleWord_mbxCtl (m : Fin 64) : simpleWord (A.MBX_CTL m) mbxCtlDesc = true := by
  revert m
  decide

theorem mbxAddr_ctl (m : Fin 64) : mbxAddr (A.MBX_CTL m) := by
  simp only [mbxAddr, A.MBX_CTL]
  omega

/-- What bit `k` of MBX_CTLm commands. -/
def mbCommand (k : Fin 4) (m : Nat) (who : Who) : State → State :=
  match k with
  | 0 => mbGo m who
  | 1 => mbRelease m
  | 2 => mbAbort m who
  | 3 => mbFlush m

/-- A copy of a repeated register is found by its number. -/
theorem copyAt_copy {base stride n k : Nat} (hstride : 0 < stride) (hk : k < n) : copyAt base stride n (base + stride * k) = some k := by
  simp [copyAt, hstride, hk]

theorem hookMbx_ctl (k : Fin 4) (m : Fin 64) (i : WInfo) (s : State) (hi : i.pa = A.MBX_CTL m) (hcmds : i.cmds = 2 ^ k.val) :
    hookMbx i s = mbCommand k m i.who s := by
  have hcopy : copyAt (A.MBX_CTL 0) 0x10 64 (A.MBX_CTL m) = some m.val := copyAt_copy (by decide) m.isLt
  unfold hookMbx
  rw [hi, hcopy, hcmds]
  fin_cases k <;> rfl

theorem cmdBits_mbxCtl (dyn : Bool) (k : Fin 4) : cmdBits mbxCtlDesc dyn true 0 (2 ^ k.val) = 2 ^ k.val := by
  revert dyn k
  decide

/-- A register written with the word it holds. -/
def kept (a : Nat) (s : State) : State := wr a (rd s a) s

theorem kept_sameRegs (a : Nat) (s : State) : sameRegs [] s (kept a s) := fun b _ => rd_wr_self a s b

/-- A privileged write of one bit of MBX_CTLm is its command. -/
theorem busWrite_mbxCtl (who : Who) (k : Fin 4) (m : Fin 64) (s : State) (hlive : live s = true) (hp : isPriv s who = true)
    (hopen : unguarded s who = true) : busWrite who (A.MBX_CTL m) (2 ^ k.val) s = mbCommand k m who (kept (A.MBX_CTL m) s) := by
  have hclamp : ∀ x, clampMbx s (A.MBX_CTL m) x = x := fun x => by
    have hcopy : copyAt 0x60040100 0x10 64 (A.MBX_CTL m) = none := if_neg (by simp only [A.MBX_CTL]; omega)
    unfold clampMbx
    rw [hcopy]
  have hv : 2 ^ k.val < 2 ^ 32 := Nat.pow_lt_pow_right (by decide) (by omega)
  obtain ⟨i, hwho, hi, -, hcmds, hwrite⟩ := busWrite_mbxWord who _ (2 ^ k.val) s mbxCtlDesc (simpleWord_mbxCtl m) (mbxAddr_ctl m) hv hlive hp
    hopen (by simp [mbxCtlDesc]) (hclamp _)
  rw [cmdBits_mbxCtl] at hcmds
  rw [hwrite, written_command _ _ _ _ (by decide), hookMbx_ctl k m i _ hi hcmds, hwho]
  rfl

end Sys2Proof.Machine
end

section
/-! What writes, reads and commands leave of a mailbox and of the device beside it (08_banks_mailboxes R263 to R268). -/

namespace Sys2Proof.Machine

/-! ### What a command leaves -/

/-- A command on registers whose effect is known ends with it. -/
theorem exec_regs {c : Instr} {f : State → State} {s t : State} (hexec : exec c s = onRegs f s) (hlive : live s = true)
    (hf : f (quiet s) = t) : exec c s = .next (settled s t) := by
  rw [hexec, onRegs_powered f s (powered_of_live s hlive), hf]

@[simp] theorem mb_settled (s t : State) (m : Nat) : (settled s t).mb m = t.mb m := rfl

@[simp] theorem isSet_settled (s t : State) (f : FRef) : isSet (settled s t) f = isSet t f := rfl

/-- A mailbox that is set on a device of which registers alone have changed is all else that has. -/
theorem setMb_leaves (m : Fin 64) (b : Mbox) {s t : State} (h : regsOnly (quiet s) t) :
    settled s (t.setMb m b) = { s with regs := t.regs, mbox := (t.setMb m b).mbox, sent := t.sent } := by
  rw [h]
  rfl

/-- A command that has set a mailbox beside registers that are known. -/
theorem exec_setsMb_rd {c : Instr} {s t : State} {m : Fin 64} {b : Mbox} (h : exec c s = .next (settled s (t.setMb m b)))
    (hregs : regsOnly (quiet s) t) :
    ∃ u, exec c s = .next u ∧ (∀ a, rd u a = rd t a) ∧ u.mb m = b ∧ u = { s with regs := u.regs, mbox := u.mbox, sent := u.sent } :=
  ⟨_, h, fun _ => rfl, mb_setMb_same t m b, setMb_leaves m b hregs⟩

/-- A command that has set a mailbox and of the registers only those of a list. -/
theorem exec_setsMb {c : Instr} {s t : State} {m : Fin 64} {b : Mbox} {l : List Nat} (h : exec c s = .next (settled s (t.setMb m b)))
    (hregs : regsOnly (quiet s) t) (hsame : sameRegs l (quiet s) t) :
    ∃ u, exec c s = .next u ∧ u.mb m = b ∧ sameRegs l s u ∧ u = { s with regs := u.regs, mbox := u.mbox, sent := u.sent } := by
  obtain ⟨u, hnext, hrd, hmb, hleaves⟩ := exec_setsMb_rd h hregs
  exact ⟨u, hnext, hmb, fun a ha => (hrd a).trans (hsame a ha), hleaves⟩

/-- A message for a receiver that is not to be woken is pending, and nothing else. -/
theorem mbCommitted_asleep (m : Fin 64) (s : State) (h : isSet s (F.MBX_CFG_WAKE m) = false) :
    mbCommitted m s = pend (64 + m) (mbWaiting s m) s := by
  have hcfg : A.MBX_CFG m ≠ A.LKP_PEND ((64 + m.val) / 32) := by
    simp only [A.MBX_CFG, A.LKP_PEND]
    omega
  have hwake : isSet (pend (64 + m) (mbWaiting s m) s) (F.MBX_CFG_WAKE m) = false := by
    rw [isSet, getF_of_rd (rd_pend _ _ _ _ hcfg)]
    exact h
  unfold mbCommitted
  simp [hwake]

/-- Beside mailboxes nothing but registers, the record of events, the values of event sources and what was sent differs. -/
def mboxOnly (s t : State) : Prop :=
  t = { s with evtLast := t.evtLast, regs := t.regs, mbox := t.mbox, sent := t.sent, lkp := { s.lkp with srcVal := t.lkp.srcVal } }

theorem mboxOnly.leaves {s t : State} (h : mboxOnly (quiet s) t) : mboxOnly s (settled s t) := by
  rw [mboxOnly, h]
  rfl

theorem mboxOnly.setMb {s t : State} (m : Nat) (b : Mbox) (h : mboxOnly s t) : mboxOnly s (t.setMb m b) := by
  rw [mboxOnly, h]
  rfl

theorem mboxOnly.pend {s t : State} (src v : Nat) (h : mboxOnly s t) : mboxOnly s (pend src v t) := by
  rw [mboxOnly, h]
  rfl

theorem regsOnly.mboxOnly {s t : State} (h : regsOnly s t) : mboxOnly s t := by
  rw [Machine.mboxOnly, h]

/-- A command that has committed a message: the mailbox is set and its source pending. -/
theorem exec_commits {c : Instr} {s t : State} {m : Fin 64} {b : Mbox} (h : exec c s = .next (settled s (mbCommitted m (t.setMb m b))))
    (hregs : regsOnly (quiet s) t) (hsame : sameRegs [] (quiet s) t) (hwake : isSet s (F.MBX_CFG_WAKE m) = false) :
    ∃ u, exec c s = .next u ∧ u.mb m = b ∧ isPending u (64 + m) = true ∧ sameRegs [A.LKP_PEND 2, A.LKP_PEND 3] s u ∧ mboxOnly s u := by
  have hasleep : isSet (t.setMb m b) (F.MBX_CFG_WAKE m) = false := by
    rw [← hwake, isSet, isSet, getF_of_rd (s := s) (t := t.setMb m b) (hsame _ List.not_mem_nil)]
  rw [mbCommitted_asleep m _ hasleep] at h
  have hpending := isSet_pend (64 + m) (mbWaiting (t.setMb m b) m) (t.setMb m b)
  have hframe := ((hregs.mboxOnly.setMb m b).pend (64 + m) (mbWaiting (t.setMb m b) m)).leaves
  refine ⟨_, h, mb_setMb_same t m b, hpending, fun a ha => ?_, hframe⟩
  have hword : a ≠ A.LKP_PEND ((64 + m.val) / 32) := by
    obtain h2 | h3 : (64 + m.val) / 32 = 2 ∨ (64 + m.val) / 32 = 3 := by omega
    · rw [h2]; exact List.ne_of_not_mem_cons ha
    · rw [h3]; exact List.ne_of_not_mem_cons (List.not_mem_of_not_mem_cons ha)
  rw [rd_settled, rd_pend _ _ _ _ hword]
  exact hsame a List.not_mem_nil

/-! ### MBX_TX -/

theorem mbxAddr_tx (m : Fin 64) : mbxAddr (A.MBX_TX m) := by
  simp only [mbxAddr, A.MBX_TX]
  omega

/-- A privileged write of MBX_TXm puts a word into the mailbox. -/
theorem regWrite_mbxTx (who : Who) (m : Fin 64) (v : Word) (s : State) (hp : isPriv s who = true) (hopen : unguarded s who = true) :
    regWrite who (A.MBX_TX m) v.toNat s = mbWrite m who v s := by
  have haddr := mbxAddr_tx m
  have hcopy : copyAt (A.MBX_TX 0) 0x10 64 (A.MBX_TX m) = some m.val := copyAt_copy (by decide) m.isLt
  have hal : A.MBX_TX m % 0x10000 / 0x4000 = 0 := by omega
  have hpin : pinAlias (A.MBX_TX m) = A.MBX_TX m := if_neg (by omega)
  have hguard : semGuards s (A.MBX_TX m) 4 who = false := semGuards_of_unguarded s _ who (by omega) (by omega) hopen
  unfold regWrite
  simp only [hal, Nat.zero_mul, Nat.sub_zero, hpin, haddr.alive, hguard, hcopy, hp, Bool.true_or, and_self, if_true, or_self,
    Bool.false_eq_true, if_false, w32_toNat]

/-- The word that an initiator puts into a mailbox. -/
def mbWord (s : State) (m : Nat) (who : Who) (v : Word) : MboxWord := { data := v, sender := who.id, stamp := mbEpoch s m, bad := false }

/-- A message mailbox with room takes the word as its last, and the message is committed. -/
theorem mbWrite_room (m : Nat) (who : Who) (v : Word) (s : State) (hon : isSet s (F.MBX_CFG_EN m) = true)
    (hmode : isSet s (F.MBX_CFG_MODE m) = false) (hroom : (s.mb m).words.length < mbSize s m) :
    mbWrite m who v s = (mbCommitted m (s.setMb m { s.mb m with words := (s.mb m).words ++ [mbWord s m who v] }), .ok ()) := by
  simp [mbWrite, hon, hmode, Nat.not_le.mpr hroom, mbWord]

/-- A full message mailbox refuses the word. -/
theorem mbWrite_full (m : Nat) (who : Who) (v : Word) (s : State) (hon : isSet s (F.MBX_CFG_EN m) = true)
    (hmode : isSet s (F.MBX_CFG_MODE m) = false) (hfull : mbSize s m ≤ (s.mb m).words.length) :
    mbWrite m who v s = (raise A.MBX_EVT 0 s, .error .mbxFull) := by
  simp [mbWrite, hon, hmode, hfull]

/-- The first word opens the block of an empty block mailbox. -/
theorem mbWrite_opens (m : Nat) (who : Who) (v : Word) (s : State) (hon : isSet s (F.MBX_CFG_EN m) = true)
    (hmode : isSet s (F.MBX_CFG_MODE m) = true) (hempty : (s.mb m).bstate = .empty) :
    mbWrite m who v s = (s.setMb m { words := [mbWord s m who v], bstate := .opened, owner := who.id, nread := 0 }, .ok ()) := by
  simp [mbWrite, hon, hmode, hempty, mbWord]

/-! ### MBX_RX -/

theorem mbxAddr_rx (m : Fin 64) : mbxAddr (A.MBX_RX m) := by
  simp only [mbxAddr, A.MBX_RX]
  omega

theorem popAt_mbxRx (m : Fin 64) : popAt (A.MBX_RX m) = some (.mailbox m) := by
  have haddr := mbxAddr_rx m
  have hcopy : copyAt (A.MBX_RX 0) 8 64 (A.MBX_RX m) = some m.val := copyAt_copy (by decide) m.isLt
  unfold popAt
  rw [if_neg (haddr.ne (by decide)), haddr.block]
  simp only [hcopy, Option.map_some]

/-- A privileged initiator may read every register. -/
theorem mayRead_priv (s : State) (who : Who) (a : Nat) (h : isPriv s who = true) : mayRead s who a = true := by
  unfold mayRead
  split
  · simp [readCounts, h]
  · rfl

/-- A privileged read of MBX_RXm answers the word that the mailbox gives. -/
theorem busRead_mbxRx (who : Who) (m : Fin 64) (s : State) (hlive : live s = true) (hp : isPriv s who = true) :
    busRead who (A.MBX_RX m) s = emit (.reply who.id) (leBytes 4 (mbRead m who s).2.toNat) (mbRead m who s).1 := by
  have haddr := mbxAddr_rx m
  have htarget := haddr.target s who.id
  have hal : A.MBX_RX m % 0x10000 / 0x4000 = 0 := by omega
  have hpin : pinAlias (A.MBX_RX m) = A.MBX_RX m := if_neg (by omega)
  have hrun : s.cfg.halted = false := by simpa using (Bool.and_eq_true_iff.mp hlive).2
  have hhold : holdAccess who (A.MBX_RX m) false s = (s, false) := holdAccess_beside who _ false s (by omega) (by omega)
  have hans : answers s (A.MBX_RX m) = true := by simp [answers, hrun]
  have hread : regRead who (A.MBX_RX m) s = ((mbRead m who s).1, (mbRead m who s).2.toNat) := by
    unfold regRead
    simp only [hpin, haddr.alive, popAt_mbxRx, mayRead_priv s who _ hp, popRead, Bool.false_eq_true, if_true, if_false]
  have hload : localLoad who (A.MBX_RX m) 4 s = ((mbRead m who s).1, .ok (leBytes 4 (mbRead m who s).2.toNat)) := by
    have haligned : A.MBX_RX m % 4 = 0 := haddr.2.2
    unfold localLoad
    simp only [hhold, htarget, hal, Nat.zero_mul, Nat.sub_zero, hans, hread, haligned]
    rfl
  unfold busRead load
  simp only [htarget, hload]

/-- A message mailbox gives its oldest word; the status of the word goes into a shadow. -/
theorem mbRead_oldest (m : Nat) (who : Who) (w : MboxWord) (l : List MboxWord) (s : State) (hmode : isSet s (F.MBX_CFG_MODE m) = false)
    (hwords : (s.mb m).words = w :: l) (hgood : w.bad = false) :
    ∃ r, mbRead m who s = ({ s.setMb m { s.mb m with words := l } with rshadow := r }, w.data) := by
  simp [mbRead, hmode, hwords, hgood]

/-! ### Commands of MBX_CTL -/

@[simp] theorem mb_kept (a : Nat) (s : State) (m : Nat) : (kept a s).mb m = s.mb m := rfl

theorem kept_regsOnly (a : Nat) (s : State) : regsOnly s (kept a s) := rfl

@[simp] theorem mbEpoch_kept (a : Nat) (s : State) (m : Nat) : mbEpoch (kept a s) m = mbEpoch s m := by
  have hword : ∀ b, rd (kept a s) b = rd s b := fun b => rd_wr_self a s b
  simp [mbEpoch, getF, hword]

/-- GO of the owner commits the open block under the epoch of its receiver. -/
theorem mbGo_owner (m : Nat) (who : Who) (s : State) (hopened : (s.mb m).bstate = .opened) (howner : (s.mb m).owner = who.id) :
    mbGo m who s = mbCommitted m (s.setMb m { s.mb m with
      bstate := .committed, nread := 0, words := (s.mb m).words.map fun w => { w with stamp := mbEpoch s m } }) :=
  if_pos ⟨hopened, howner⟩

theorem mbRelease_block (m : Nat) (s : State) (h : (s.mb m).bstate = .committed ∨ (s.mb m).bstate = .reading) :
    mbRelease m s = s.setMb m Mbox.reset := by
  unfold mbRelease
  rcases h with h | h <;> rw [h]

theorem mbAbort_priv (m : Nat) (who : Who) (s : State) (hp : isPriv s who = true) (hopened : (s.mb m).bstate = .opened) :
    mbAbort m who s = s.setMb m Mbox.reset := by
  unfold mbAbort
  simp [hopened, hp]

end Sys2Proof.Machine
end

section
/-! Events and bus errors of mailboxes, MBX_CFG and receiver epochs (02_registers R64, R71, R75, 08_banks_mailboxes R263, R264, R268). -/

namespace Sys2Proof.Machine

/-! ### Events -/

theorem regsOnly.eventsOnly {s t : State} (h : regsOnly s t) : eventsOnly s t := by
  rw [Machine.eventsOnly, h]

theorem evtStamp_eventsOnly (key : Nat) (s : State) : eventsOnly s (evtStamp key s) := rfl

theorem record_eventsOnly (evt k : Nat) (s : State) : eventsOnly s (record evt k s) :=
  ((setF_regsOnly _ _ _).trans (setF_regsOnly _ _ _)).eventsOnly.trans (evtStamp_eventsOnly _ _)

theorem raise_eventsOnly (evt k : Nat) (s : State) : eventsOnly s (raise evt k s) := by
  rcases raise_cases evt k s with h | h | h <;> rw [h]
  · rfl
  · exact record_eventsOnly evt k s
  · exact (record_eventsOnly evt k s).trans (pend_eventsOnly _ _ _)

/-- An event is told by its status register alone. -/
theorem hasEvent_congr {s s' t t' : State} {evt k : Nat} (hs : rd s' evt = rd s evt) (ht : rd t' evt = rd t evt) (h : hasEvent s t evt k) :
    hasEvent s' t' evt k := by
  obtain ⟨hbit, hseq⟩ := h
  refine ⟨?_, ?_⟩
  · rw [getF_of_rd (f := ⟨evt, k, 1⟩) ht, hbit]
  · rw [getF_of_rd (f := ⟨evt, 24, 8⟩) ht, getF_of_rd (f := ⟨evt, 24, 8⟩) hs, hseq]

/-- The words that an event of the mailboxes or of SYS may write, beside its status register. -/
theorem pendOf_mbx : pendOf A.MBX_EVT = A.LKP_PEND 20 := by decide

theorem pendOf_sys : pendOf A.SYS_EVT = A.LKP_PEND 20 := by decide

/-! ### Bus errors -/

/-- A bus error in its place of the log, before the pointer goes on. -/
def busErrEntry (who : Who) (addr : Nat) (isWr : Bool) (size : Nat) (e : BusErr) (fid n : Nat) (s : State) : State :=
  let s := wr (A.SYS_BUSERR_ADDR n) (w32 addr) s
  let s := wr (A.SYS_BUSERR_INFO n) (w32 (e.code + 16 * (who.id % 64) + 1024 * bit isWr + 2048 * sizeCode size + 0x100000 * (fid % 4096))) s
  wr64 (A.SYS_BUSERR_TIME n) (time s) s

/-- A bus error in the log, before its event. -/
def loggedBusErr (who : Who) (addr : Nat) (isWr : Bool) (size : Nat) (e : BusErr) (fid : Nat) (s : State) : State :=
  incF F.SYS_BUSERRPTR_TOTAL 1 (incF F.SYS_BUSERRPTR_NEXT 1 (busErrEntry who addr isWr size e fid (getF s F.SYS_BUSERRPTR_NEXT) s))

theorem logBusErr_eq (who : Who) (addr : Nat) (isWr : Bool) (size : Nat) (e : BusErr) (fid : Nat) (s : State) :
    logBusErr who addr isWr size e fid s = raise A.SYS_EVT 0 (loggedBusErr who addr isWr size e fid s) := by
  unfold logBusErr loggedBusErr busErrEntry
  rfl

section

variable (who : Who) (addr : Nat) (isWr : Bool) (size : Nat) (e : BusErr) (fid : Nat) (s : State)

theorem loggedBusErr_regsOnly : regsOnly s (loggedBusErr who addr isWr size e fid s) := by
  have hentry : regsOnly s (busErrEntry who addr isWr size e fid (getF s F.SYS_BUSERRPTR_NEXT) s) :=
    (((wr_regsOnly _ _ _).trans (wr_regsOnly _ _ _)).trans (wr_regsOnly _ _ _)).trans (wr_regsOnly _ _ _)
  exact (hentry.trans (setF_regsOnly _ _ _)).trans (setF_regsOnly _ _ _)

/-- The log and its pointer are all that a bus error writes before its event. -/
theorem rd_loggedBusErr_other (a : Nat) (ha : a < 0x60000080 ∨ 0x60000200 ≤ a) : rd (loggedBusErr who addr isWr size e fid s) a = rd s a := by
  have hnext : getF s F.SYS_BUSERRPTR_NEXT < 2 ^ 4 := getF_lt s F.SYS_BUSERRPTR_NEXT
  have hentry : rd (busErrEntry who addr isWr size e fid (getF s F.SYS_BUSERRPTR_NEXT) s) a = rd s a := by
    unfold busErrEntry wr64
    simp only [A.SYS_BUSERR_TIME, A.SYS_BUSERR_INFO, A.SYS_BUSERR_ADDR]
    rw [rd_wr_other _ _ _ _ (by omega), rd_wr_other _ _ _ _ (by omega), rd_wr_other _ _ _ _ (by omega), rd_wr_other _ _ _ _ (by omega)]
  unfold loggedBusErr incF
  rw [rd_setF_other _ _ _ _ (by simp only [A.SYS_BUSERRPTR]; omega), rd_setF_other _ _ _ _ (by simp only [A.SYS_BUSERRPTR]; omega), hentry]

/-- The entry tells the code of the error. -/
theorem loggedBusErr_code :
    bitsOf (rd (loggedBusErr who addr isWr size e fid s) (A.SYS_BUSERR_INFO (getF s F.SYS_BUSERRPTR_NEXT))).toNat 0 4 = e.code := by
  have hcode : e.code < 16 := by cases e <;> decide
  unfold loggedBusErr incF
  rw [rd_setF_other _ _ _ _ (by simp only [A.SYS_BUSERR_INFO, A.SYS_BUSERRPTR]; omega),
    rd_setF_other _ _ _ _ (by simp only [A.SYS_BUSERR_INFO, A.SYS_BUSERRPTR]; omega)]
  generalize getF s F.SYS_BUSERRPTR_NEXT = n
  unfold busErrEntry wr64
  rw [rd_wr_other _ _ _ _ (by simp only [A.SYS_BUSERR_INFO, A.SYS_BUSERR_TIME]; omega),
    rd_wr_other _ _ _ _ (by simp only [A.SYS_BUSERR_INFO, A.SYS_BUSERR_TIME]; omega), rd_wr_same, toNat_w32, bitsOf]
  omega

end

/-- Beside the fabric an access is logged under its address. -/
theorem logAccess_reg {who : Who} {a n : Nat} {isWr : Bool} {e : BusErr} {s : State} (h : target s who.id a = .reg a) :
    logAccess who a isWr n e s = logBusErr who a isWr n e 0 s := by
  have hplace : errPlace s who.id a = (0, a) := by
    unfold errPlace
    rw [h]
  rw [logAccess, hplace]

/-- Where the initiator is a reach DMA, its descriptor has failed (R260). -/
def dmaFailed (who : Who) (a n : Nat) (e : BusErr) (s : State) : State :=
  if who.id < 45 then { s with dma := set5 s.dma (who.id - 40) { at5 s.dma (who.id - 40) with fail := some (a, n, e.code) } } else s

/-- A refused write of an initiator that is neither a core nor a bridge is logged. -/
theorem writeErr_engine {who : Who} {a n : Nat} {e : BusErr} (seq : Nat) {s : State} (hcore : 40 ≤ who.id)
    (hbridge : who.id ≠ 46 ∧ who.id ≠ 47) : writeErr who a n e seq s = dmaFailed who a n e (logAccess who a true n e s) := by
  unfold writeErr dmaFailed
  rw [if_neg (not_or.mpr hbridge), if_neg (Nat.not_lt.mpr hcore)]

theorem dmaFailed_dma (who : Who) (a n : Nat) (e : BusErr) (s : State) (hcore : 40 ≤ who.id) :
    ∃ d, dmaFailed who a n e s = { s with dma := d } ∧ ∀ k : Fin 5, who.id = 40 + k.val ∨ d.get k = s.dma.get k := by
  unfold dmaFailed
  split
  · refine ⟨_, rfl, fun k => ?_⟩
    by_cases hk : who.id = 40 + k.val
    · exact Or.inl hk
    · refine Or.inr ?_
      rw [set5, Vector.get_eq_getElem, Vector.getElem_set_ne _ _ (by omega), Vector.get_eq_getElem]
  · exact ⟨s.dma, rfl, fun _ => Or.inr rfl⟩

/-- The device after MBX_FULL has been recorded and the bus error of the write logged. -/
def fullRefused (who : Who) (m : Nat) (s : State) : State := logBusErr who (A.MBX_TX m) true 4 .mbxFull 0 (raise A.MBX_EVT 0 s)

theorem fullRefused_eventsOnly (who : Who) (m : Nat) (s : State) : eventsOnly s (fullRefused who m s) := by
  unfold fullRefused
  rw [logBusErr_eq]
  exact ((raise_eventsOnly _ _ _).trans (loggedBusErr_regsOnly _ _ _ _ _ _ _).eventsOnly).trans (raise_eventsOnly _ _ _)

/-- Both events, and the entry of the log. -/
theorem fullRefused_records (who : Who) (m : Nat) (s : State) (hfresh : merges s A.MBX_EVT 0 = false) :
    hasEvent s (fullRefused who m s) A.MBX_EVT 0 ∧ hasEvent s (fullRefused who m s) A.SYS_EVT 0 ∧
      bitsOf (rd (fullRefused who m s) (A.SYS_BUSERR_INFO (getF s F.SYS_BUSERRPTR_NEXT))).toNat 0 4 = 3 := by
  have hmbx : ∀ a, a ≠ A.MBX_EVT → a ≠ A.LKP_PEND 20 → rd (raise A.MBX_EVT 0 s) a = rd s a := fun a ha hpend =>
    rd_raise _ _ _ _ ha (by rw [← pendOf, pendOf_mbx]; exact hpend)
  have hnext : getF (raise A.MBX_EVT 0 s) F.SYS_BUSERRPTR_NEXT = getF s F.SYS_BUSERRPTR_NEXT := getF_of_rd (hmbx _ (by decide) (by decide))
  have hsmall : getF s F.SYS_BUSERRPTR_NEXT < 2 ^ 4 := getF_lt s F.SYS_BUSERRPTR_NEXT
  unfold fullRefused
  rw [logBusErr_eq]
  generalize hlog : loggedBusErr who (A.MBX_TX m) true 4 .mbxFull 0 (raise A.MBX_EVT 0 s) = t
  have hother : ∀ a, a < 0x60000080 ∨ 0x60000200 ≤ a → rd t a = rd (raise A.MBX_EVT 0 s) a := fun a ha => by
    rw [← hlog, rd_loggedBusErr_other _ _ _ _ _ _ _ a ha]
  have hsys : ∀ a, a ≠ A.SYS_EVT → a ≠ A.LKP_PEND 20 → rd (raise A.SYS_EVT 0 t) a = rd t a := fun a ha hpend =>
    rd_raise _ _ _ _ ha (by rw [← pendOf, pendOf_sys]; exact hpend)
  refine ⟨?_, ?_, ?_⟩
  · have hevent : hasEvent s (raise A.MBX_EVT 0 s) A.MBX_EVT 0 := raise_sets _ _ _ (by decide) hfresh (by decide)
    exact hasEvent_congr rfl (by rw [hsys _ (by decide) (by decide), hother _ (by decide)]) hevent
  · have hevent : hasEvent t (raise A.SYS_EVT 0 t) A.SYS_EVT 0 := raise_sets _ _ _ (by decide) rfl (by decide)
    exact hasEvent_congr (by rw [hother _ (by decide), hmbx _ (by decide) (by decide)]) rfl hevent
  · rw [hsys _ (by simp only [A.SYS_BUSERR_INFO, A.SYS_EVT]; omega) (by simp only [A.SYS_BUSERR_INFO, A.LKP_PEND]; omega), ← hlog, ← hnext,
      loggedBusErr_code]
    rfl

/-! ### MBX_CFG -/

/-- MBX_CFGm, all of it privileged: EN, MODE, PRIV, WAKE, RECV, SIZEM1, BASE. -/
def mbxCfgDesc : RegDesc :=
  ⟨0x100, 64, 0x10, .one, [⟨31, 1, .rw, true, 0, .none⟩, ⟨30, 1, .rw, true, 0, .none⟩, ⟨29, 1, .rw, true, 0, .none⟩, ⟨28, 1, .rw, true, 0, .none⟩,
    ⟨25, 3, .rw, true, 0, .codes [(6, 7, 0)]⟩, ⟨12, 10, .rw, true, 0, .none⟩, ⟨0, 10, .rw, true, 0, .none⟩]⟩

theorem simpleWord_mbxCfg (m : Fin 64) : simpleWord (A.MBX_CFG m) mbxCfgDesc = true := by
  revert m
  decide

theorem mbxAddr_cfg (m : Fin 64) : mbxAddr (A.MBX_CFG m) := by
  simp only [mbxAddr, A.MBX_CFG]
  omega

/-- The fields of MBX_CFGm, by lowest bit and width. -/
def mbxCfgFields : List (Nat × Nat) := [(31, 1), (30, 1), (29, 1), (28, 1), (25, 3), (12, 10), (0, 10)]

/-- A privileged write gives every field of MBX_CFGm what it carries. -/
theorem bitsOf_rawNew_mbxCfg (dyn : Bool) (old v lo w : Nat) (h : (lo, w) ∈ mbxCfgFields) :
    bitsOf (rawNew mbxCfgDesc dyn true 0 old v) lo w = bitsOf v lo w := by
  have hfields : ∀ p ∈ mbxCfgFields, ∃ f ∈ mbxCfgDesc.fields, f.acc = .rw ∧ f.lo = p.1 ∧ f.w = p.2 := by decide
  obtain ⟨f, hf, hacc, rfl, rfl⟩ := hfields _ h
  exact rawNew_same mbxCfgDesc dyn old v (by decide) f hf hacc

theorem getF_written_mbxCfg (m : Fin 64) (v lo w : Nat) (s : State) (h : (lo, w) ∈ mbxCfgFields) :
    getF (written mbxCfgDesc (A.MBX_CFG m) v s) ⟨A.MBX_CFG m, lo, w⟩ = bitsOf v lo w := by
  rw [getF, written, rd_wr_same, toNat_w32_lt _ (rawNew_lt _ _ _ _ _ _ (by decide) (rd s _).isLt), bitsOf_rawNew_mbxCfg _ _ _ _ _ h]

/-- RECV is legal where it names a receiver. -/
theorem mbxCfg_legal (v : Nat) (hrecv : bitsOf v 25 3 ≤ 5) :
    ∀ f ∈ mbxCfgDesc.fields, f.acc = .rw → f.clamp.apply (bitsOf v f.lo f.w) = bitsOf v f.lo f.w := by
  have hcodes : Clamp.apply (.codes [(6, 7, 0)]) (bitsOf v 25 3) = bitsOf v 25 3 := by
    simp only [Clamp.apply, List.find?_cons, List.find?_nil]
    rw [decide_eq_false (by omega)]
  have hplain : ∀ x, Clamp.apply .none x = x := fun _ => rfl
  simp [mbxCfgDesc, hplain, hcodes]

theorem copyAt_mbxCfg (m : Fin 64) : copyAt (A.MBX_CFG 0) 0x10 64 (A.MBX_CFG m) = some m.val := copyAt_copy (by decide) m.isLt

/-- A write that disables a mailbox and leaves its layout is legal. -/
theorem clampMbx_disabled (m : Fin 64) (s : State) (x : Nat) (hoff : bitAt x 31 = false)
    (hlayout : ∀ p ∈ [(30, 1), (25, 3), (12, 10), (0, 10)], bitsOf (rd s (A.MBX_CFG m)).toNat p.1 p.2 = bitsOf x p.1 p.2) :
    clampMbx s (A.MBX_CFG m) x = x := by
  simp only [List.forall_mem_cons, List.not_mem_nil, false_implies, implies_true, and_true] at hlayout
  obtain ⟨hmode, hrecv, hsize, hbase⟩ := hlayout
  have hcopy : copyAt 0x60040100 0x10 64 (A.MBX_CFG m) = some m.val := copyAt_mbxCfg m
  unfold clampMbx
  simp only [hcopy, hmode, hrecv, hsize, hbase, putBits_self, ite_self, hoff, Bool.not_false, if_true]

/-- A write that enables a mailbox beside none that is enabled is legal where the area fits. -/
theorem clampMbx_enabled (m : Fin 64) (s : State) (x : Nat) (hon : bitAt x 31 = true)
    (hnone : ((List.range 64).all fun k => !isSet s (F.MBX_CFG_EN k)) = true) (hfits : bitsOf x 0 10 + bitsOf x 12 10 < 1024) :
    clampMbx s (A.MBX_CFG m) x = x := by
  have hcopy : copyAt 0x60040100 0x10 64 (A.MBX_CFG m) = some m.val := copyAt_mbxCfg m
  have hoff : ∀ k < 64, isSet s (F.MBX_CFG_EN k) = false := by simpa using hnone
  have hold : bitAt (rd s (A.MBX_CFG m)).toNat 31 = false := by
    rw [bitAt_eq_iff]
    have hbit : getF s (F.MBX_CFG_EN m) < 2 ^ 1 := getF_lt s (F.MBX_CFG_EN m)
    have hen := hoff m m.isLt
    simp only [isSet, beq_eq_false_iff_ne, getF] at hen hbit
    simp only [bit_false]
    omega
  have hclash : ((List.range 64).any fun k => k != m && isSet s (F.MBX_CFG_EN k)
      && decide (bitsOf x 0 10 < getF s (F.MBX_CFG_BASE k) + getF s (F.MBX_CFG_SIZEM1 k) + 1
        ∧ getF s (F.MBX_CFG_BASE k) < bitsOf x 0 10 + bitsOf x 12 10 + 1)) = false := by
    rw [List.any_eq_false]
    intro k hk
    simp [hoff k (List.mem_range.mp hk)]
  unfold clampMbx
  simp only [hcopy, hold, hon, hclash, Bool.not_true, Bool.false_eq_true, if_false, or_false]
  rw [if_neg (by omega)]

/-- A write of MBX_CFGm flushes the mailbox unless it leaves it enabled. -/
theorem hookMbx_cfg (m : Fin 64) (i : WInfo) (s : State) (hi : i.pa = A.MBX_CFG m) :
    hookMbx i s = if bitAt i.new 31 then s else mbFlush m s := by
  have hctl : copyAt (A.MBX_CTL 0) 0x10 64 (A.MBX_CFG m) = none := if_neg (by simp only [A.MBX_CTL, A.MBX_CFG]; omega)
  unfold hookMbx
  rw [hi, hctl, copyAt_mbxCfg]

/-- A legal privileged write of MBX_CFGm. -/
theorem busWrite_mbxCfg (who : Who) (m : Fin 64) (v : Word) (s : State) (hlive : live s = true) (hp : isPriv s who = true)
    (hopen : unguarded s who = true) (hrecv : bitsOf v.toNat 25 3 ≤ 5)
    (hclamp : ∀ x, (∀ p ∈ mbxCfgFields, bitsOf x p.1 p.2 = bitsOf v.toNat p.1 p.2) → clampMbx s (A.MBX_CFG m) x = x) :
    busWrite who (A.MBX_CFG m) v.toNat s
      = if v.getLsbD 31 then written mbxCfgDesc (A.MBX_CFG m) v.toNat s else mbFlush m (written mbxCfgDesc (A.MBX_CFG m) v.toNat s) := by
  have htakes : ∀ p ∈ mbxCfgFields, bitsOf (rawNew mbxCfgDesc (dynPriv s (A.MBX_CFG m)) true 0 (rd s (A.MBX_CFG m)).toNat v.toNat) p.1 p.2
      = bitsOf v.toNat p.1 p.2 := fun p hp => bitsOf_rawNew_mbxCfg _ _ _ p.1 p.2 hp
  obtain ⟨i, -, hi, hnew, -, hwrite⟩ := busWrite_mbxWord who _ v.toNat s mbxCfgDesc (simpleWord_mbxCfg m) (mbxAddr_cfg m) v.isLt hlive hp hopen
    (mbxCfg_legal _ hrecv) (hclamp _ htakes)
  have hbit : bitAt i.new 31 = v.getLsbD 31 := by
    rw [hnew, bitAt_eq_iff, htakes (31, 1) (by decide), ← bit_bitAt, bitAt_eq_testBit, BitVec.testBit_toNat]
  rw [hwrite, hookMbx_cfg m i _ hi, hbit]

/-- The fields below EN of a word with EN 0 are those of the word. -/
theorem bitsOf_and_disabled (x : Word) (lo w : Nat) (h : lo + w ≤ 31) : bitsOf (x &&& 0x7FFFFFFF#32).toNat lo w = bitsOf x.toNat lo w := by
  have hmask : (0x7FFFFFFF#32 : Word).toNat = 2 ^ 31 - 1 := rfl
  apply Nat.eq_of_testBit_eq
  intro i
  rw [testBit_bitsOf, testBit_bitsOf, BitVec.toNat_and, Nat.testBit_and, hmask, Nat.testBit_two_pow_sub_one]
  by_cases hi : i < w
  · rw [decide_eq_true (show lo + i < 31 by omega), Bool.and_true]
  · rw [decide_eq_false hi, Bool.false_and, Bool.false_and]

/-! ### Receiver epochs -/

/-- MBX_REPOCHr: BUMP and the epoch. -/
def repochDesc : RegDesc := ⟨0x20, 6, 0x4, .one, [⟨16, 1, .cmd, true, 0, .none⟩, ⟨0, 16, .ro, false, 0, .none⟩]⟩

theorem simpleWord_repoch (r : Fin 6) : simpleWord (A.MBX_REPOCH r) repochDesc = true := by
  revert r
  decide

theorem mbxAddr_repoch (r : Fin 6) : mbxAddr (A.MBX_REPOCH r) := by
  simp only [mbxAddr, A.MBX_REPOCH]
  omega

/-- A privileged BUMP advances the epoch. -/
theorem busWrite_repoch (who : Who) (r : Fin 6) (s : State) (hlive : live s = true) (hp : isPriv s who = true) (hopen : unguarded s who = true) :
    busWrite who (A.MBX_REPOCH r) 0x10000 s = epochBump r (kept (A.MBX_REPOCH r) s) := by
  have hclamp : ∀ x, clampMbx s (A.MBX_REPOCH r) x = x := fun x => by
    have hcopy : copyAt 0x60040100 0x10 64 (A.MBX_REPOCH r) = none := if_neg (by simp only [A.MBX_REPOCH]; omega)
    unfold clampMbx
    rw [hcopy]
  have hbump : ∀ dyn, cmdBits repochDesc dyn true 0 0x10000 = 0x10000 := by decide
  have hctl : copyAt (A.MBX_CTL 0) 0x10 64 (A.MBX_REPOCH r) = none := if_neg (by simp only [A.MBX_CTL, A.MBX_REPOCH]; omega)
  have hcfg : copyAt (A.MBX_CFG 0) 0x10 64 (A.MBX_REPOCH r) = none := if_neg (by simp only [A.MBX_CFG, A.MBX_REPOCH]; omega)
  have hcopy : copyAt (A.MBX_REPOCH 0) 4 6 (A.MBX_REPOCH r) = some r.val := copyAt_copy (by decide) r.isLt
  obtain ⟨i, -, hi, -, hcmds, hwrite⟩ := busWrite_mbxWord who _ 0x10000 s repochDesc (simpleWord_repoch r) (mbxAddr_repoch r) (by decide) hlive
    hp hopen (by simp [repochDesc]) (hclamp _)
  rw [hbump] at hcmds
  rw [hwrite, written_command _ _ _ _ (by decide), hookMbx, hi, hctl, hcfg, hcopy, hcmds]
  rfl

end Sys2Proof.Machine
end

section
/-! The statement on mailboxes, command by command (08_banks_mailboxes R263 to R268). -/

namespace Sys2Proof.Machine

/-! ### Writes and reads of words -/

theorem exec_mbxTxWrite {who : Who} {m : Fin 64} {v : Word} {s t : State} (hlive : live s = true) (hp : isPriv s who = true)
    (hopen : unguarded s who = true) (hwrite : mbWrite m who v (quiet s) = (t, .ok ())) :
    exec (.mbxTxWrite who m v) s = .next (settled s t) :=
  exec_regs (f := busWrite who (A.MBX_TX m) v.toNat) rfl hlive
    (busWrite_mbx_ok (mbxAddr_tx m) v.isLt hlive ((regWrite_mbxTx who m v (quiet s) hp hopen).trans hwrite))

/-- A refused word is recorded and logged; mailboxes stay, and beside the DMA that wrote it every DMA does. -/
theorem exec_mbxTxWrite_full {who : Who} {m : Fin 64} {v : Word} {s : State} (hlive : live s = true) (hp : isPriv s who = true)
    (hopen : unguarded s who = true) (hcore : 40 ≤ who.id) (hbridge : who.id ≠ 46 ∧ who.id ≠ 47)
    (hwrite : mbWrite m who v (quiet s) = (raise A.MBX_EVT 0 (quiet s), .error .mbxFull)) :
    exec (.mbxTxWrite who m v) s = .next (settled s (dmaFailed who (A.MBX_TX m) 4 .mbxFull (fullRefused who m (quiet s)))) := by
  refine exec_regs (f := busWrite who (A.MBX_TX m) v.toNat) rfl hlive ?_
  rw [busWrite_mbx_error (s := quiet s) (mbxAddr_tx m) v.isLt hlive ((regWrite_mbxTx who m v (quiet s) hp hopen).trans hwrite),
    writeErr_engine _ hcore hbridge, logAccess_reg ((mbxAddr_tx m).target _ _), fullRefused]

/-- A command that records events and the failure of a DMA changes nothing else. -/
theorem exec_refuses {c : Instr} {s t : State} {d : Vector Dma 5} (hexec : exec c s = .next (settled s { t with dma := d }))
    (hevents : eventsOnly (quiet s) t) :
    ∃ u, exec c s = .next u ∧ u.mbox = s.mbox ∧ (∀ a, rd u a = rd t a) ∧ u.dma = d ∧
      u = { s with evtLast := u.evtLast, regs := u.regs, dma := u.dma, sent := u.sent, lkp := { s.lkp with srcVal := u.lkp.srcVal } } := by
  rw [hevents] at hexec ⊢
  exact ⟨_, hexec, rfl, fun _ => rfl, rfl, rfl⟩

/-- A command that takes a word out of a mailbox, answers, and leaves the status of the word in a shadow. -/
theorem exec_answers {c : Instr} {s : State} {m : Fin 64} {b : Mbox} {r : List (Nat × Nat × Word)} {ch : Chan} {bytes : List Byte}
    (hexec : exec c s = .next (settled s (emit ch bytes { (quiet s).setMb m b with rshadow := r }))) :
    ∃ u, exec c s = .next u ∧ u.mb m = b ∧ u.sent = [{ chan := ch, bytes := bytes }] ∧ sameRegs [] s u ∧
      u = { s with regs := u.regs, mbox := u.mbox, rshadow := u.rshadow, sent := u.sent } :=
  ⟨_, hexec, mb_setMb_same (quiet s) m b, rfl, fun _ _ => rfl, rfl⟩

theorem exec_mbxRxRead {who : Who} {m : Fin 64} {w : MboxWord} {l : List MboxWord} {s : State} (hlive : live s = true)
    (hp : isPriv s who = true) (hmode : isSet s (F.MBX_CFG_MODE m) = false) (hwords : (s.mb m).words = w :: l) (hgood : w.bad = false) :
    ∃ r, exec (.mbxRxRead who m) s = .next (settled s
      (emit (.reply who.id) (leBytes 4 w.data.toNat) { (quiet s).setMb m { s.mb m with words := l } with rshadow := r })) := by
  obtain ⟨r, hread⟩ := mbRead_oldest m who w l (quiet s) hmode hwords hgood
  refine ⟨r, exec_regs (f := busRead who (A.MBX_RX m)) rfl hlive ?_⟩
  rw [busRead_mbxRx who m (quiet s) hlive hp, hread]
  rfl

/-! ### Commands -/

/-- A command of MBX_CTLm acts on a device whose registers read as before. -/
theorem exec_mbCommand {c : Instr} {who : Who} {m : Fin 64} {s t : State} (k : Fin 4)
    (hexec : exec c s = onRegs (busWrite who (A.MBX_CTL m) (2 ^ k.val)) s) (hlive : live s = true) (hp : isPriv s who = true)
    (hopen : unguarded s who = true) (hdoes : mbCommand k m who (kept (A.MBX_CTL m) (quiet s)) = t) : exec c s = .next (settled s t) :=
  exec_regs hexec hlive ((busWrite_mbxCtl who k m (quiet s) hlive hp hopen).trans hdoes)

theorem isPriv_kept (a : Nat) (s : State) (who : Who) : isPriv (kept a s) who = isPriv s who := by
  have hword : ∀ b, rd (kept a s) b = rd s b := fun b => rd_wr_self a s b
  have hcore : ∀ i, (kept a s).core i = s.core i := fun _ => rfl
  simp [isPriv, isSet, getF, hword, hcore]

/-- A command of MBX_CTLm that empties the mailbox. -/
theorem exec_mbEmptied {c : Instr} {who : Who} {m : Fin 64} {s : State} (k : Fin 4)
    (hexec : exec c s = onRegs (busWrite who (A.MBX_CTL m) (2 ^ k.val)) s) (hlive : live s = true) (hp : isPriv s who = true)
    (hopen : unguarded s who = true)
    (hdoes : mbCommand k m who (kept (A.MBX_CTL m) (quiet s)) = (kept (A.MBX_CTL m) (quiet s)).setMb m Mbox.reset) :
    ∃ t, exec c s = .next t ∧ t.mb m = Mbox.reset ∧ sameRegs [] s t ∧ t = { s with regs := t.regs, mbox := t.mbox, sent := t.sent } :=
  exec_setsMb (exec_mbCommand k hexec hlive hp hopen hdoes) (kept_regsOnly _ _) (kept_sameRegs _ _)

theorem exec_mbxCfgWrite {who : Who} {m : Fin 64} {v : Word} {s t : State} (hlive : live s = true)
    (hwrite : busWrite who (A.MBX_CFG m) v.toNat (quiet s) = t) : exec (.mbxCfgWrite who m v) s = .next (settled s t) :=
  exec_regs rfl hlive hwrite

/-- MBX_CFGm written, and no other register. -/
theorem written_mbxCfg_sameRegs (m : Fin 64) (v : Nat) (s : State) :
    sameRegs [A.MBX_CFG m] s (written mbxCfgDesc (A.MBX_CFG m) v s) := fun a ha =>
  rd_written_other _ _ _ _ a (List.ne_of_not_mem_cons ha)

theorem bitsOf_top (v : Word) : bitsOf v.toNat 31 1 = bit (v.getLsbD 31) := by
  rw [← bit_bitAt, bitAt_eq_testBit, BitVec.testBit_toNat]

theorem isSet_written_mbxCfg (m : Fin 64) (v : Word) (s : State) :
    isSet (written mbxCfgDesc (A.MBX_CFG m) v.toNat s) (F.MBX_CFG_EN m) = v.getLsbD 31 := by
  have hen : getF (written mbxCfgDesc (A.MBX_CFG m) v.toNat s) (F.MBX_CFG_EN m) = bit (v.getLsbD 31) :=
    (getF_written_mbxCfg m v.toNat 31 1 s (by decide)).trans (bitsOf_top v)
  rw [isSet, hen]
  cases v.getLsbD 31 <;> rfl

/-- A write that takes EN away and keeps the layout: the mailbox is disabled and empty. -/
theorem exec_mbxCfgWrite_disables {who : Who} {m : Fin 64} {s : State} (hlive : live s = true) (hp : isPriv s who = true)
    (hopen : unguarded s who = true) (hrecv : getF s (F.MBX_CFG_RECV m) ≤ 5) :
    exec (.mbxCfgWrite who m (rd s (A.MBX_CFG m) &&& 0x7FFFFFFF#32)) s = .next (settled s
      ((written mbxCfgDesc (A.MBX_CFG m) (rd s (A.MBX_CFG m) &&& 0x7FFFFFFF#32).toNat (quiet s)).setMb m Mbox.reset)) := by
  have hbit : (rd s (A.MBX_CFG m) &&& 0x7FFFFFFF#32).getLsbD 31 = false := by simp
  have hbelow := bitsOf_and_disabled (rd s (A.MBX_CFG m))
  generalize rd s (A.MBX_CFG m) &&& 0x7FFFFFFF#32 = v at hbit hbelow ⊢
  have hclamp : ∀ x, (∀ p ∈ mbxCfgFields, bitsOf x p.1 p.2 = bitsOf v.toNat p.1 p.2) → clampMbx (quiet s) (A.MBX_CFG m) x = x := by
    intro x hx
    have hlayout : ∀ p ∈ [(30, 1), (25, 3), (12, 10), (0, 10)], p ∈ mbxCfgFields ∧ p.1 + p.2 ≤ 31 := by decide
    refine clampMbx_disabled m (quiet s) x ?_ fun p hp => ?_
    · rw [bitAt_eq_iff, hx (31, 1) (by decide), bitsOf_top, hbit]
    · obtain ⟨hfield, hlow⟩ := hlayout p hp
      rw [hx p hfield, hbelow p.1 p.2 hlow]
      rfl
  have hwrite := busWrite_mbxCfg who m v (quiet s) hlive hp hopen ((hbelow 25 3 (by decide)).trans_le hrecv) hclamp
  rw [hbit, if_neg Bool.false_ne_true] at hwrite
  exact exec_mbxCfgWrite hlive hwrite

/-- A write that enables a mailbox where none is enabled: the mailbox takes its layout. -/
theorem exec_mbxCfgWrite_enables {who : Who} {m : Fin 64} {v : Word} {s : State} (hlive : live s = true) (hp : isPriv s who = true)
    (hopen : unguarded s who = true) (hon : v.getLsbD 31 = true)
    (hnone : ((List.range 64).all fun k => !isSet s (F.MBX_CFG_EN k)) = true) (hfits : bitsOf v.toNat 0 10 + bitsOf v.toNat 12 10 < 1024)
    (hrecv : bitsOf v.toNat 25 3 ≤ 5) :
    exec (.mbxCfgWrite who m v) s = .next (settled s (written mbxCfgDesc (A.MBX_CFG m) v.toNat (quiet s))) := by
  have hclamp : ∀ x, (∀ p ∈ mbxCfgFields, bitsOf x p.1 p.2 = bitsOf v.toNat p.1 p.2) → clampMbx (quiet s) (A.MBX_CFG m) x = x := by
    intro x hx
    have hbit : bitAt x 31 = true := by
      rw [bitAt_eq_iff, hx (31, 1) (by decide), bitsOf_top, hon]
    refine clampMbx_enabled m (quiet s) x hbit hnone ?_
    rw [hx (0, 10) (by decide), hx (12, 10) (by decide)]
    exact hfits
  have hwrite := busWrite_mbxCfg who m v (quiet s) hlive hp hopen hrecv hclamp
  rw [if_pos hon] at hwrite
  exact exec_mbxCfgWrite hlive hwrite

/-- BUMP on registers that read as before: the epoch and the event. -/
theorem epochBump_advances (r : Fin 6) {s t : State} (hsame : ∀ a, rd t a = rd s a) (hfresh : merges t A.MBX_EVT 4 = false) :
    getF (epochBump r t) (F.MBX_REPOCH_EPOCH r) = (getF s (F.MBX_REPOCH_EPOCH r) + 1) % 2 ^ 16
      ∧ hasEvent s (epochBump r t) A.MBX_EVT 4 ∧ sameRegs ([A.MBX_REPOCH r, A.MBX_EVT] ++ pendWords) s (epochBump r t) := by
  have haddr : A.MBX_REPOCH r ≠ A.MBX_EVT ∧ A.MBX_REPOCH r ≠ A.LKP_PEND 20 := by
    simp only [A.MBX_REPOCH, A.MBX_EVT, A.LKP_PEND]
    omega
  obtain ⟨hevt, hpend⟩ := haddr
  have hother : ∀ a, a ≠ A.MBX_EVT → a ≠ A.LKP_PEND 20 → rd (epochBump r t) a = rd (incF (F.MBX_REPOCH_EPOCH r) 1 t) a := fun a ha hp =>
    rd_raise _ _ _ _ ha (by rw [← pendOf, pendOf_mbx]; exact hp)
  refine ⟨?_, ?_, fun a ha => ?_⟩
  · rw [getF_of_rd (hother _ hevt hpend), incF, getF_setF_same _ _ _ (by show 0 + 16 ≤ 32; decide), getF_of_rd (hsame _)]
  · have hbumped : merges (incF (F.MBX_REPOCH_EPOCH r) 1 t) A.MBX_EVT 4 = false := by
      rw [merges, incF_evtLast, incF_now]
      exact hfresh
    have hevent := raise_sets A.MBX_EVT 4 (incF (F.MBX_REPOCH_EPOCH r) 1 t) (by decide) hbumped (by decide)
    exact hasEvent_congr ((hsame _).symm.trans (rd_setF_other _ _ _ _ hevt.symm).symm) rfl hevent
  · have hrest : a ≠ A.MBX_REPOCH r ∧ a ≠ A.MBX_EVT ∧ a ∉ pendWords := by simpa [and_assoc] using ha
    obtain ⟨hrepoch, hmbx, hpending⟩ := hrest
    have hsrc : A.LKP_PEND 20 ∈ pendWords := by decide
    rw [hother a hmbx (ne_of_mem_of_not_mem hsrc hpending).symm, incF, rd_setF_other _ _ _ _ hrepoch, hsame]

end Sys2Proof.Machine

namespace Sys2Proof.Proofs

open Sys2Proof.Machine

/-- Settles O22: what a word, a command, a configuration and a BUMP do to a mailbox (`mbWrite_room`, `mbWrite_full`, `mbWrite_opens`,
`mbRead_oldest`, `busWrite_mbxCtl`, `busWrite_mbxCfg`, `busWrite_repoch`), and what that leaves of the device. -/
theorem mailboxes : Obligations.Mailboxes := by
  unfold Obligations.Mailboxes
  refine ⟨?append, ?full, ?opens, ?read, ?go, ?release, ?abort, ?flush, ?disable, ?enable, ?bump⟩
  case append =>
    intro who m v s hlive hp hon hmode hwake hroom hopen
    exact exec_commits (exec_mbxTxWrite hlive hp hopen (mbWrite_room m who v (quiet s) hon hmode hroom)) rfl (fun _ _ => rfl) hwake
  case full =>
    intro who m v n s hlive hp hon hmode hfull hcore hbridge hfresh hopen
    have hexec := exec_mbxTxWrite_full hlive hp hopen hcore hbridge (mbWrite_full m who v (quiet s) hon hmode hfull)
    have hframe := fullRefused_eventsOnly who m (quiet s)
    obtain ⟨hmbx, hsys, hcode⟩ := fullRefused_records who m (quiet s) hfresh
    obtain ⟨d, hd, hothers⟩ := dmaFailed_dma who (A.MBX_TX m) 4 .mbxFull (fullRefused who m (quiet s)) hcore
    have hdma : (fullRefused who m (quiet s)).dma = s.dma := by rw [hframe]; rfl
    rw [hd] at hexec
    rw [hdma] at hothers
    obtain ⟨t, hnext, hmbox, hrd, rfl, hleaves⟩ := exec_refuses hexec hframe
    exact ⟨t, hnext, hmbox, hasEvent_congr rfl (hrd _) hmbx, hasEvent_congr rfl (hrd _) hsys, by rw [hrd]; exact hcode, hothers n, hleaves⟩
  case opens =>
    intro who m v s hlive hp hon hmode hempty hopen
    exact exec_setsMb (exec_mbxTxWrite hlive hp hopen (mbWrite_opens m who v (quiet s) hon hmode hempty)) rfl fun _ _ => rfl
  case read =>
    intro who m w l s hlive hp hmode hwords hgood
    obtain ⟨r, hexec⟩ := exec_mbxRxRead hlive hp hmode hwords hgood
    exact exec_answers hexec
  case go =>
    intro who m s hlive hp hwake hopened howner hopen
    have hgo := mbGo_owner m who (kept (A.MBX_CTL m) (quiet s)) hopened howner
    rw [mbEpoch_kept] at hgo
    exact exec_commits (exec_mbCommand 0 rfl hlive hp hopen hgo) (kept_regsOnly _ _) (kept_sameRegs _ _) hwake
  case release =>
    intro who m s hlive hp hblock hopen
    exact exec_mbEmptied 1 rfl hlive hp hopen (mbRelease_block m _ hblock)
  case abort =>
    intro who m s hlive hp hopened hopen
    have hpriv : isPriv (kept (A.MBX_CTL m) (quiet s)) who = true := (isPriv_kept _ _ _).trans hp
    exact exec_mbEmptied 2 rfl hlive hp hopen (mbAbort_priv m who _ hpriv hopened)
  case flush =>
    intro who m s hlive hp hopen
    exact exec_mbEmptied 3 rfl hlive hp hopen rfl
  case disable =>
    intro who m v s hlive hp hv hrecv hopen
    subst hv
    have hbit : (rd s (A.MBX_CFG m) &&& 0x7FFFFFFF#32).getLsbD 31 = false := by simp
    have hexec := exec_mbxCfgWrite_disables hlive hp hopen hrecv
    generalize rd s (A.MBX_CFG m) &&& 0x7FFFFFFF#32 = v at hbit hexec ⊢
    obtain ⟨t, hnext, hrd, hmb, hleaves⟩ := exec_setsMb_rd hexec (written_regsOnly mbxCfgDesc (A.MBX_CFG m) v.toNat (quiet s))
    have hen : isSet t (F.MBX_CFG_EN m) = v.getLsbD 31 := by rw [isSet, getF_of_rd (hrd _), ← isSet, isSet_written_mbxCfg]
    exact ⟨t, hnext, hen.trans hbit, hmb, fun a ha => (hrd a).trans (written_mbxCfg_sameRegs m v.toNat (quiet s) a ha), hleaves⟩
  case enable =>
    intro who m v s hlive hp hon hnone hfits hrecv hopen
    have htakes := fun lo w => getF_written_mbxCfg m v.toNat lo w (quiet s)
    exact ⟨_, exec_mbxCfgWrite_enables hlive hp hopen hon hnone hfits (by omega), (isSet_written_mbxCfg m v (quiet s)).trans hon,
      htakes 0 10 (by decide), htakes 12 10 (by decide), htakes 25 3 (by decide), written_mbxCfg_sameRegs m v.toNat (quiet s),
      (written_regsOnly mbxCfgDesc (A.MBX_CFG m) v.toNat (quiet s)).leaves⟩
  case bump =>
    intro who r s hlive hp hfresh hopen
    obtain ⟨hepoch, hevent, hregs⟩ := epochBump_advances r (s := s) (t := kept (A.MBX_REPOCH r) (quiet s)) (fun a => rd_wr_self _ _ a) hfresh
    have hframe : eventsOnly (quiet s) (epochBump r (kept (A.MBX_REPOCH r) (quiet s))) :=
      ((kept_regsOnly _ _).trans (setF_regsOnly _ _ _)).eventsOnly.trans (raise_eventsOnly _ _ _)
    exact ⟨_, exec_regs rfl hlive (busWrite_repoch who r (quiet s) hlive hp hopen), hepoch, hevent, hregs, hframe.leaves⟩

end Sys2Proof.Proofs
end

section
/-! Two statements on the time base that fail at one state each: a SLEW that takes what is left of the slew back to 0 (09_time_base R274),
and a read of a captured time while a command is listed as waiting at the same address (09_time_base R282, 00_scope R10,
19_selftest_safety R531). -/

namespace Sys2Proof.Machine

/-! ### A SLEW that ends the slew -/

/-- 5 ns of slew remain, and TMB_ADJ holds −5 ns. -/
def slewToTakeBack : State := wr A.TMB_SLEWREM 5 (wr A.TMB_ADJ 0xFFFFFFFB State.reset)

/-- The debug supervisor has commanded SLEW. -/
def slewTakenBack : State := busWrite ⟨49, true, none⟩ A.TMB_ADJCMD 2 (quiet slewToTakeBack)

theorem exec_slewToTakeBack : exec (.adjSlew ⟨49, true, none⟩) slewToTakeBack = .next (settled slewToTakeBack slewTakenBack) :=
  exec_regs rfl (by decide) rfl

/-- SLEWREM has reached 0, so SLEWDONE is raised. -/
theorem slewTakenBack_done :
    slewRem slewTakenBack = 0 ∧ getF slewTakenBack F.TMB_EVT_SLEWDONE = 1 ∧ getF slewToTakeBack F.TMB_EVT_SLEWDONE = 0 := by
  decide

/-! ### A command that waits at the address of a captured time -/

/-- The list of commands that wait for the Lockhouse core names the high word of CAPT of unit 0, which has no commands. -/
def waitsAtCapture : State := modFaults (fun x => { x with waits := [(A.TMB_UNIT_CAPT 0 + 4, 1)] }) State.reset

/-- The debug supervisor has read that word. -/
def captureRead : State := busRead ⟨49, true, none⟩ (A.TMB_UNIT_CAPT (0 : Fin 32) + 4) (quiet waitsAtCapture)

theorem exec_waitsAtCapture :
    exec (.captHighRead ⟨49, true, none⟩ 0) waitsAtCapture = .next (settled waitsAtCapture captureRead) :=
  exec_regs rfl (by decide) rfl

/-- The read has brought the word up to the commands that wait there (R10). -/
theorem captureRead_shows : rd captureRead (A.TMB_UNIT_CAPT 0 + 4) ≠ rd waitsAtCapture (A.TMB_UNIT_CAPT 0 + 4) := by
  decide

end Sys2Proof.Machine

namespace Sys2Proof.Proofs

open Sys2Proof.Machine

/-- Refutes O37: the clause on SLEW keeps every register beside SLEWREM, STATUS and ADJCMD, and does not ask that the sum differs from 0;
where ADJ takes SLEWREM back to 0, SLEWDONE is raised (R274), which TMB_EVT shows. -/
theorem not_timeBaseCommands : ¬ Obligations.TimeBaseCommands := by
  unfold Obligations.TimeBaseCommands
  rintro ⟨-, -, slew, -⟩
  obtain ⟨t, ht, -, -, hregs, -⟩ := slew ⟨49, true, none⟩ slewToTakeBack (by decide) (by decide) (by decide) (by decide)
  obtain rfl := Host.Outcome.next.inj (exec_slewToTakeBack.symm.trans ht)
  obtain ⟨-, hafter, hbefore⟩ := slewTakenBack_done
  have hevt := hregs A.TMB_EVT (by decide)
  rw [rd_settled] at hevt
  have hsame := getF_of_rd (f := F.TMB_EVT_SLEWDONE) hevt
  omega

/-- Refutes O38: the clause on reads of the high word of CAPT asks of the device only that it is live. A read brings a register up to the
commands that are listed as waiting at its address (R10, R531), so where the list names the high word of CAPT, the read changes that
word beside STAT. Only registers of LKH, BST and CFG are ever put on the list (`lockhouseDoes`), but the clause does not ask for such a list. -/
theorem not_compareAndCaptureUnits : ¬ Obligations.CompareAndCaptureUnits := by
  unfold Obligations.CompareAndCaptureUnits
  rintro ⟨-, -, -, -, -, -, -, -, -, read⟩
  obtain ⟨t, ht, -, -, hregs, -⟩ := read ⟨49, true, none⟩ 0 waitsAtCapture (by decide)
  obtain rfl := Host.Outcome.next.inj (exec_waitsAtCapture.symm.trans ht)
  have hcapture := hregs (A.TMB_UNIT_CAPT 0 + 4) (by decide)
  rw [rd_settled] at hcapture
  exact captureRead_shows hcapture

end Sys2Proof.Proofs
end
